-- ==== Sys2Proof/Word.lean ====
section
/-!
DEFINITION. The word types of the LY8440 and their plainest arithmetic (R9, R13: registers are 32-bit words, everything
in memory is little-endian bytes).
-/
namespace Sys2Proof

/-- One byte of memory, of a record or of a datagram. -/
abbrev Byte := BitVec 8

/-- One register word (R537). -/
abbrev Word := BitVec 32

/-- A 64-bit quantity: a ring base, a check value, a point-sample word. -/
abbrev DWord := BitVec 64

end Sys2Proof
end

