-- ==== Sys2Proof/Syntax.lean ====
section
/-!
DEFINITION. The commands of the block: one constructor of Instr per row of spec/opcode_table.json, and the operand types they
carry. Every command carries first `dt`, the nanoseconds of powered time that passed since the previous command.
-/
namespace Sys2Proof

/-- A master (R358, R541): a host domain, the hub firmware, or in the split configuration one hub core. -/
inductive Master where
  | host (d : Nat)
  | firmware
  | core (c : Nat)
deriving DecidableEq, Repr

/-- The package links of R16. -/
inductive Link where
  | die (d : Nat)
  | isoA
  | isoB
deriving DecidableEq, Repr

/-- The two isolation channels of R16. -/
inductive IsoChannel where
  | a | b
deriving DecidableEq, Repr

/-- The level that owns the destination island of a stalled crossing (R28). -/
inductive CrossingTarget where
  | block (d b : Nat)
  | die (d : Nat)
  | package
deriving DecidableEq, Repr

/-- The two evaluation channels: the processor channel on HB and the ledger on FD. -/
inductive EvalSide where
  | processor | ledger
deriving DecidableEq, Repr

/-- The two lockstep pairs. -/
inductive Pair where
  | a | b
deriving DecidableEq, Repr

/-- The result of one scrub read: clean, one corrected bit, or uncorrectable. -/
inductive ScrubResult where
  | clean | corrected | uncorrectable
deriving DecidableEq, Repr

/-- The PTP messages a slave-only ordinary clock takes (R368). -/
inductive PtpKind where
  | announce | sync | followUp | delayResp
deriving DecidableEq, Repr

/-- One received PTP message: the fields of IEEE 1588-2019 that the discipline uses. -/
structure PtpMessage where
  /-- Ethernet port it arrived on. -/
  port       : Nat
  kind       : PtpKind
  domain     : Nat
  /-- Clock identity of the sender (the grandmaster in an announce). -/
  master     : Nat
  /-- The announced data set as the standard's comparison orders it: lower is better. -/
  rank       : Nat
  seq        : Nat
  twoStep    : Bool
  /-- originTimestamp, preciseOriginTimestamp or receiveTimestamp, ns. -/
  stamp      : Nat
  /-- correctionField, ns. -/
  correction : Int
  utcOffset  : Nat
  utcValid   : Bool
deriving DecidableEq, Repr

/-- Deglitched levels of a port's digital inputs (R58, R60). -/
structure PortPins where
  laserOk : Bool
  ampFltN : Bool
  rxOk    : Bool
  intlkN  : Bool
deriving DecidableEq, Repr

/-- Where a submitted command came from, and so where its response goes (R370, R379, R382); a reset that HD7 gives by the key
sequence of R334 has none. -/
inductive CmdOrigin where
  | ring (d : Nat)
  | session (d : Nat) (mseq : Nat)
  | mailbox (m : Master)
  | forerunner
deriving DecidableEq, Repr

/-- A command record as a domain submits it (R350); the row it is an operand of fixes its CODE. -/
structure Command where
  origin : CmdOrigin
  /-- The sending domain. -/
  dom    : Nat
  tag    : Nat
  epoch  : Nat
  /-- ARGS bytes 0 to ARGLEN − 1. -/
  args   : List Byte
deriving DecidableEq, Repr

/-- One sample of the four ADCs of a port: codes −2048 to 2047 (R55). -/
structure AdcSample where
  xi : Int
  xq : Int
  yi : Int
  yq : Int
deriving DecidableEq, Repr

/-- The ADC samples that a port has taken over a stretch of time (R55): the number of the period they are counted in, the tick of
the first one after that period's start, and the samples, one per tick. A tick outside the stretch counts as code 0. -/
structure AdcBlock where
  period  : Nat
  start   : Int
  samples : List AdcSample
deriving DecidableEq, Repr

/-- A trace slice as a lane receives it (R109), with what the lane's hardware finds while it works on it. Its trace words are those
that the front end forms of the ADC samples of its time (R101 to R108). -/
structure Slice where
  tone     : Nat
  /-- Index of the first word, halo included. -/
  first    : Nat
  /-- Number of words. -/
  count    : Nat
  /-- The slice's period count, and the ADC samples its words are formed of. -/
  adc      : AdcBlock
  /-- The sentinel's result, exclusive-or the expected word held in the block. -/
  sentinel : DWord
  /-- The previous slice was not finished. -/
  overrun  : Bool
  parity   : Bool
  /-- An access outside the region of the span. -/
  memRange : Bool
  /-- Corrected and uncorrectable history-memory words met. -/
  ecc      : Nat
  eccUe    : Bool
deriving DecidableEq, Repr

/-- What an in-gap round has measured when it ends (R473): corrections as Corrections of the state holds them, the loopback tone's
level in 0.01 dBFS, and per tone the amplitude ratio (dB) and delay (ns), none where no peak was found. -/
structure RoundResult where
  ofs   : List Rat
  gain  : List Rat
  iq    : List Rat
  skew  : List Rat
  modG  : Rat
  modP  : Rat
  level : Int
  tones : List (Option (Rat × Rat))
deriving DecidableEq, Repr

/-- What a 10 ms frame of the main converter has read (R297), as converter codes: the pins WS0 to WS63, the ten scans of WREF0
to WREF31 oldest first, the DACs THR, WIN_LO and WIN_HI of each channel, and the FD temperature (1/16 °C) and the internal
reference (0.1 mV). -/
structure AdcScan where
  pins : List Nat
  refs : List (List Nat)
  thr  : List Nat
  lo   : List Nat
  hi   : List Nat
  temp : Int
  vref : Nat
deriving DecidableEq, Repr

/-- `count` consecutive samples of a comparator channel, 500 ns apart, at one level (R281, R282): V(WSk) and V(WREFn), µV. -/
structure WsRun where
  count : Nat
  pin   : Nat
  ref   : Nat
deriving DecidableEq, Repr

/-- `count` consecutive samples of a field input, 500 ns apart, at one level in mV (R300). -/
structure LevelRun where
  count : Nat
  mv    : Nat
deriving DecidableEq, Repr

/-- A class of a field input (R300). -/
inductive InputClass where
  | low | high | undefined
deriving DecidableEq, Repr
/-- What the comparator of a pair finds (R245, R246): a difference, a non-code on its rails, a parity error. -/
inductive MismatchCause where
  | compare | rail | parity
deriving DecidableEq, Repr

/-- What has gone wrong in a memory since it was written, as the boot ROM or a check-value unit meets it (R423, R428, R467, R468,
R529): which of the two stored checks of a record or a bank no longer match (both: the data no longer match). -/
inductive NvFault where
  /-- A slot (true: slot 1) of WP record k. -/
  | wp (k : Nat) (slot1 bad1 bad2 : Bool)
  /-- A calibration bank, true for B. -/
  | bank (b bad1 bad2 : Bool)
  | journal (seq : Nat)
  | changeLog (seq : Nat)
  /-- A structure slot, a firmware slot, true for B. -/
  | strSlot (b : Bool)
  | fwSlot (b : Bool)
  /-- An uncorrectable word at a global address of the plaza or the NV store. -/
  | word (a : Nat)
deriving DecidableEq, Repr

/-- An operand together with the time since the previous command. -/
structure Timed (α : Type) where
  dt  : Nat
  val : α
deriving DecidableEq, Repr

/-- What a command states of one of several like items. -/
structure Indexed (α : Type) where
  idx : Nat
  val : α
deriving DecidableEq, Repr

/-- The commands: the rows of the operation table, each with `dt`, the time since the previous command, alone or in a Timed operand. Operands that recur: `m` the
master that accesses, `c` the command record a domain sends, `d` an acquisition die, `b` a block, `q` a quarter, `lane` a lane, `k` a
tone or a channel, `v` a value written, `dom` a host domain. -/
inductive Instr where
  /-- REGISTER_WRITE (R9): A master writes a register that has no row of its own; access code, role and state checks apply. -/
  | registerWrite (dt : Nat) (m : Master) (a : Nat) (v : Word)
  /-- LINK_FRAME_RECEIVED (R17): A frame arrives on a die link or isolation channel; its CRC-32C is checked and a failing frame is discarded and counted.
  `toHb`: the frame travels towards HB; `crc` is the check it carries. -/
  | linkFrameReceived (dt : Nat) (link : Link) (toHb : Bool) (frame : List Byte) (crc : Word)
  /-- IDLE_FRAME_SEND (R18): An acquisition die sends a frame carrying its watermark when 50 us pass without another frame. -/
  | idleFrameSend (dt : Nat) (d : Nat)
  /-- STAMP_FLOOR_SEND (R33): A block island sends its die link endpoint a stamp floor at least every 10 us. -/
  | stampFloorSend (dt : Nat) (d : Nat) (b : Nat)
  /-- FD_WATERMARK_SEND (R34): FD sends its watermark over ISO-A at least every 100 us. -/
  | fdWatermarkSend (dt : Nat)
  /-- WATERMARK_RECEIVED (R35): HB takes a new watermark from a source and recomputes the lowest watermark among live sources.
  `src`: acquisition die 0 to 3, or 4 for FD. -/
  | watermarkReceived (dt : Nat) (src : Nat) (stamp : Nat)
  /-- SOURCE_EVENT_RECEIVED (R188): HB receives a wheel or legacy-head event, verifies its CHECK and holds it for release.
  `src`: acquisition die 0 to 3, or 4 for FD; `ev`: the 32 bytes of the record. -/
  | sourceEventReceived (dt : Nat) (src : Nat) (ev : List Byte)
  /-- EVENT_RELEASE (R35): HB releases held events in key order once their emission stamps are at or below the lowest live watermark. -/
  | eventRelease (dt : Nat)
  /-- DIE_LINK_SILENCE (R20): A die link passes 2 ms without a valid frame; the die becomes a silent source and bounded sections become Occupied-held. -/
  | dieLinkSilence (dt : Nat) (d : Nat)
  /-- DIE_LINK_RESUME (R223): Valid frames resume on a silent die link and HB accepts or fails the replay of buffered events. -/
  | dieLinkResume (dt : Nat) (d : Nat)
  /-- REPLAY_TIMEOUT (R223): 100 ms pass after the last valid frame before a silence; the replay fails and heads with a sensor on the die fault with REPLAY. -/
  | replayTimeout (dt : Nat) (d : Nat)
  /-- ISO_CHANNEL_SILENCE (R21): An isolation channel passes 5 ms without a valid frame; all vital outputs are de-energised and Safe-stop is entered. -/
  | isoChannelSilence (dt : Nat) (ch : IsoChannel)
  /-- CROSSING_FAULT (R28): A crossing handshake does not complete within 1,024 destination cycles and a crossing fault is reported to the owning level.
  `t`: the level that owns the destination island. -/
  | crossingFault (dt : Nat) (t : CrossingTarget)
  /-- CYCLE_BOUNDARY (R251): An evaluation-cycle boundary falls; events up to the horizon and then the cycle's commands are applied and verdicts formed. -/
  | cycleBoundary (dt : Nat)
  /-- HORIZON_MARK_SEND (R207): HB sends a horizon mark when 100 us pass without a released event or mark. -/
  | horizonMarkSend (dt : Nat)
  /-- PTP_MESSAGE_RECEIVED (R41): A PTP message is received and timestamped, and the discipline updates offset, frequency and lock state.
  `msg`: the fields the discipline uses. -/
  | ptpMessageReceived (dt : Nat) (msg : PtpMessage)
  /-- PPS_EDGE (R42): The selected edge on PPS_IN marks the start of a TAI second for the discipline.
  `falling`: the edge is a falling one. -/
  | ppsEdge (dt : Nat) (falling : Bool)
  /-- PPS_EDGE_MISSING (R42): An expected PPS edge does not arrive within 1 us of the second boundary and counts as missing. -/
  | ppsEdgeMissing (dt : Nat)
  /-- TC_HOLDOVER_ENTRY (R45): After 4 s without valid sync or three missing PPS edges the discipline enters holdover. -/
  | tcHoldoverEntry (dt : Nat)
  /-- TC_STEP_REQUEST (R43): A write of 1 to HB_TC_CTL.STEP requests a step to HB_TC_SET, or is refused outside its states. -/
  | tcStepRequest (dt : Nat) (m : Master)
  /-- TC_STEP_APPLY (R43): A pending step is applied at an evaluation-cycle boundary in every island and in FD, shifting held interval times. -/
  | tcStepApply (dt : Nat)
  /-- TC_STEP_MESSAGE (R43): FD receives a step message over ISO-B and steps its town-clock copy and held times. -/
  | tcStepMessage (dt : Nat)
  /-- TC_SLEW_MESSAGE (R39): FD receives a slew message over ISO-B and slews its town-clock copy.
  `err`: the error of HB's measurement of the difference it corrects, ns. -/
  | tcSlewMessage (dt : Nat) (err : Int)
  /-- FD_SKEW_DETECT (R46): FD's clock differs from the master by more than 500 ns for 10 ms; FD_SKEW is set and legacy events flagged degraded.
  `skew`: FD minus master, ns. -/
  | fdSkewDetect (dt : Nat) (skew : Int)
  /-- FD_SKEW_RECOVER (R46): FD's clock has been within 50 ns for 100 ms and the degraded-time flag clears.
  `skew`: FD minus master, ns. -/
  | fdSkewRecover (dt : Nat) (skew : Int)
  /-- TC_NOW_LO_READ (R47): A read of HB_TC_NOW_LO latches HB_TC_NOW_HI for the reading master. -/
  | tcNowLoRead (dt : Nat) (m : Master)
  /-- OFE_LIGHT_ON (R62): A write of 1 to AQn_OFE_CTL.LIGHT starts the light-on order with the TEC. -/
  | ofeLightOn (dt : Nat) (m : Master) (d : Nat)
  /-- OFE_LIGHT_OFF (R63): A write of 0 to AQn_OFE_CTL.LIGHT runs the light-off order, or is refused in Service, Degraded and Watch. -/
  | ofeLightOff (dt : Nat) (m : Master) (d : Nat)
  /-- OFE_RESTART (R574): A write of 1 to AQn_OFE_CTL.RESTART ends a lockout and resumes the light-on order at the step for its cause. -/
  | ofeRestart (dt : Nat) (m : Master) (d : Nat)
  /-- LASER_WINDOW_REACHED (R62): The laser temperature comes within the laser window and Pn_LASER_EN is raised. -/
  | laserWindowReached (dt : Nat) (d : Nat)
  /-- LASER_OK_RISE (R62): Pn_LASER_OK rises in the light-on order and amplifier enable is scheduled 10 ms later. -/
  | laserOkRise (dt : Nat) (d : Nat)
  /-- LASER_OK_TIMEOUT (R62): Pn_LASER_OK has not risen by LASER_OK_TMO; the laser is disabled, STATE becomes DARK and LASER_FAULT is set. -/
  | laserOkTimeout (dt : Nat) (d : Nat)
  /-- AMP_ENABLE (R62): 10 ms after LASER_OK the device raises Pn_AMP_EN with the DACs at zero code. -/
  | ampEnable (dt : Nat) (d : Nat)
  /-- AMP_CHECK_END (R69): 100 ms after Pn_AMP_EN rose the amplifier attempt is judged successful or failed.
  `held`: Pn_AMP_FLT_N was high from 50 ms to 100 ms. -/
  | ampCheckEnd (dt : Nat) (d : Nat) (held : Bool)
  /-- PROBE_START (R62): The temperature is within the probe window and Pn_RX_OK is high, so probe drive starts and STATE becomes PROBING. -/
  | probeStart (dt : Nat) (d : Nat)
  /-- LASER_OFF_DELAY (R63): 10 ms after the amplifier was disabled in a light-off, Pn_LASER_EN is lowered. -/
  | laserOffDelay (dt : Nat) (d : Nat)
  /-- INTERLOCK_OPEN (R67): Pn_INTLK_N goes low; the DACs go to zero, the amplifier is disabled and STATE becomes SHUTDOWN. -/
  | interlockOpen (dt : Nat) (d : Nat)
  /-- INTERLOCK_CLOSED_HOLD (R68): Pn_INTLK_N has been high for 1 s with LIGHT = 1 and the light-on order resumes. -/
  | interlockClosedHold (dt : Nat) (d : Nat)
  /-- AMP_FAULT (R67): Pn_AMP_FLT_N falls while the amplifier is enabled outside blanking; the amplifier is disabled and a retry scheduled. -/
  | ampFault (dt : Nat) (d : Nat)
  /-- AMP_RETRY (R69): AMP_RETRY_S after an amplifier fault the device retries the amplifier from step 4 of the light-on order. -/
  | ampRetry (dt : Nat) (d : Nat)
  /-- LASER_OK_LOSS (R67): Pn_LASER_OK falls while the laser is enabled; light goes off and LASER_FAULT is set. -/
  | laserOkLoss (dt : Nat) (d : Nat)
  /-- RX_OK_FALL (R67): Pn_RX_OK falls and RX_FAULT is set while probing continues. -/
  | rxOkFall (dt : Nat) (d : Nat)
  /-- THM_SAMPLE (R72): The thermistor ratio is measured, at 1 kHz, and checked for THM_FAULT and TEMP_TRIP.
  `vTop`, `vMid`, `imon`: converter codes of the divider and of the TEC current; `pins`: the port's inputs at that time. -/
  | thmSample (dt : Nat) (d : Nat) (vTop : Nat) (vMid : Nat) (imon : Nat) (pins : PortPins)
  /-- TEC_LOOP_STEP (R491): The laser thermal loop forms a new TEC drive from the measured temperature each 1 ms. -/
  | tecLoopStep (dt : Nat) (d : Nat)
  /-- TEC_OVERCURRENT (R67): Pn_TEC_IMON stays above IMON_MAX for 100 ms and a full light-off with lockout follows. -/
  | tecOvercurrent (dt : Nat) (d : Nat)
  /-- PROBE_WINDOW_UNLOCKED (R67): The temperature stays outside the probe window for 1 s while PROBING and UNLOCKED is set. -/
  | probeWindowUnlocked (dt : Nat) (d : Nat)
  /-- TEC_SETPOINT_WRITE (R74): A paced write-persistent write to AQn_TEC_SETPOINT, range-checked and made durable.
  `nvOk`: the value reaches the NV store. -/
  | tecSetpointWrite (dt : Nat) (m : Master) (d : Nat) (v : Word) (nvOk : Bool)
  /-- TEC_LIMITS_WRITE (R74): A paced write-persistent write to AQn_TEC_LIMITS, range-checked and made durable.
  `nvOk`: the value reaches the NV store. -/
  | tecLimitsWrite (dt : Nat) (m : Master) (d : Nat) (v : Word) (nvOk : Bool)
  /-- PWR_FAIL_TAKEN (R437): PWR_FAIL_N is taken; the arbiter closes, light-off starts and the NV store is write-protected after the power-loss entry.
  `x`: nanoseconds for which PWR_FAIL_N has been low. -/
  | pwrFailTaken (x : Timed Nat)
  /-- POWER_LOSS_ENTRY_DURABLE (R437): The POWER_LOSS journal entry becomes durable, the open flag clears and WRITE_PROT is set. -/
  | powerLossEntryDurable (dt : Nat)
  /-- PSY_APPLY_GO (R93): A write of 1 to AQn_PSY_APPLY.GO checks the shadow probe set and makes it pending, or rejects or refuses it. -/
  | psyApplyGo (dt : Nat) (m : Master) (d : Nat)
  /-- PERIOD_START (R82): A pulse period of a port starts and is stamped; pending changeovers, ramps and probe resumption take effect. -/
  | periodStart (dt : Nat) (d : Nat)
  /-- TONE_FIRING (R82): Tone k fires its chirp at offset o_k in the period. -/
  | toneFiring (dt : Nat) (d : Nat) (k : Nat)
  /-- TAIL_WINDOW_END (R121): A tone's tail window closes; its noise is measured and its darkness checked.
  `adc`: the samples of the tail window's time; `guard`: those of the whole period but its tail, where the period gives guard noise. -/
  | tailWindowEnd (dt : Nat) (d : Nat) (k : Nat) (adc : AdcBlock) (guard : Option AdcBlock)
  /-- SLICE_RECEIVED (R146): A lane receives a trace slice and forms the point-sample words of its span, followed by a sentinel. -/
  | sliceReceived (dt : Nat) (d : Nat) (lane : Nat) (slice : Slice)
  /-- SPARE_LOAD_COMPLETE (R152): The spare lane finishes loading the faulty lane's span and serves from the next whole slice. -/
  | spareLoadComplete (dt : Nat) (d : Nat) (b : Nat)
  /-- LANE_PERIOD_END (R136): At the end of a period a lane sends edge records to its neighbours and decides reference refresh. -/
  | lanePeriodEnd (dt : Nat) (d : Nat) (lane : Nat)
  /-- EDGE_RECORD_RECEIVED (R137): A lane receives a neighbour's edge record for use in the next period's refresh decision.
  `upper`: the record of the upper edge of the span. -/
  | edgeRecordReceived (dt : Nat) (d : Nat) (lane : Nat) (upper : Bool)
  /-- DMD_REACQ_REQUEST (R114): A write of 1 to AQn_DMD_REF_CTL.REACQ starts a full re-acquisition, or is refused while one runs. -/
  | dmdReacqRequest (dt : Nat) (m : Master) (d : Nat)
  /-- REF_WINDOW_END (R483): An acquisition window of ACQ_N samples for an index ends and becomes a reference if coherent enough. -/
  | refWindowEnd (dt : Nat) (d : Nat) (k : Nat) (j : Nat)
  /-- REACQ_COMPLETE (R484): Every point of the port is acquired; the reference epoch is set and REF_DONE raised. -/
  | reacqComplete (dt : Nat) (d : Nat)
  /-- REACQ_FORCE (R484): 10 s after a re-acquisition started, indices without a reference take their last window and the epoch is set. -/
  | reacqForce (dt : Nat) (d : Nat)
  /-- DMD_PROBE_LO_READ (R130): A read of AQn_DMD_PROBE_LO latches the rest of the point-sample word for the reading master. -/
  | dmdProbeLoRead (dt : Nat) (m : Master) (d : Nat)
  /-- DMD_EPOCH_LO_READ (R47): A read of AQn_DMD_EPOCH_LO latches the high half of the reference epoch for the reading master. -/
  | dmdEpochLoRead (dt : Nat) (m : Master) (d : Nat)
  /-- PERIOD_STAMP_LO_READ (R100): A read of AQn_PERIOD_STAMP_LO latches the stamp's high half and the period count for the reading master. -/
  | periodStampLoRead (dt : Nat) (m : Master) (d : Nat)
  /-- ARBITER_FAULT (R143): A history-memory request waits 64 cycles for its grant and the block faults. -/
  | arbiterFault (dt : Nat) (d : Nat) (b : Nat)
  /-- MEM_SCRUB (R144): The block service port scrubs history memory, correcting single-bit errors and faulting the block on an uncorrectable one. -/
  | memScrub (dt : Nat) (d : Nat) (b : Nat) (result : ScrubResult)
  /-- BLOCK_PLL_UNLOCK (R156): A block PLL loses lock and the quarter sequencer marks the block faulty. -/
  | blockPllUnlock (dt : Nat) (d : Nat) (b : Nat)
  /-- STAMP_FLOOR_MISSING (R156): A block sends no stamp floor for 20 us and is marked faulty with cause FLOOR. -/
  | stampFloorMissing (dt : Nat) (d : Nat) (b : Nat)
  /-- BLOCK_POWER_DOWN (R157): By two pulse periods after a block fault its clock stops and memory powers down; its sensors report head fault. -/
  | blockPowerDown (dt : Nat) (d : Nat) (b : Nat)
  /-- QUARTER_HEARTBEAT_LOSS (R158): A quarter sequencer's heartbeat is missing for 20 us and its four blocks become faulty. -/
  | quarterHeartbeatLoss (dt : Nat) (d : Nat) (q : Nat)
  /-- DIE_STATUS_FRAME (R157): HB receives a die status frame reporting lane, block and span availability. -/
  | dieStatusFrame (dt : Nat) (d : Nat)
  /-- LBQ_RETURN_LANE (R160): A Maintainer's return command for a faulty lane starts its 64-slice sentinel test. -/
  | lbqReturnLane (dt : Nat) (m : Master) (d : Nat) (lane : Nat)
  /-- LANE_RETURN_TEST_END (R160): A returning lane completes 64 sentinel slices and becomes the standby spare or stays faulty. -/
  | laneReturnTestEnd (dt : Nat) (d : Nat) (lane : Nat)
  /-- LBQ_RETURN_BLOCK (R161): A Maintainer's return command for a faulty block resets, relocks and tests it, in Maintenance only. -/
  | lbqReturnBlock (dt : Nat) (m : Master) (d : Nat) (b : Nat)
  /-- LBQ_RETURN_QUARTER (R161): A Maintainer's return command for a faulty quarter resets its sequencer and returns its blocks. -/
  | lbqReturnQuarter (dt : Nat) (m : Master) (d : Nat) (q : Nat)
  /-- BLOCK_RETURN_COMPLETE (R161): A returned block completes its tests and acquires references for its spans, or stays faulty.
  `pass`: the self-test and the seed check passed. -/
  | blockReturnComplete (dt : Nat) (d : Nat) (b : Nat) (pass : Bool)
  /-- LBQ_INJECT (R163): A Maintainer injects a fault into a lane, block or quarter in Maintenance.
  `level`: 0 lane, 1 block, 2 quarter. -/
  | lbqInject (dt : Nat) (m : Master) (d : Nat) (level : Nat) (index : Nat)
  /-- DETECTION_SAMPLE (R174): A sensor forms its detection sample at each 500 us instant and runs its templates, decisions and state triggers. -/
  | detectionSample (dt : Nat) (d : Nat) (e : Nat)
  /-- SENSOR_HALT (R183): The excursion has stayed above AMP_MIN for HALT_TIME without a WHEEL decision and the sensor enters STANDING. -/
  | sensorHalt (dt : Nat) (d : Nat) (e : Nat)
  /-- STAND_TIMEOUT (R183): A sensor has been STANDING for STAND_MAX and becomes BLIND with cause STAND_TIMEOUT. -/
  | standTimeout (dt : Nat) (d : Nat) (e : Nat)
  /-- WHEEL_EVENT_EMIT (R151): The sentinel after the slice passes and the lane emits its held events with emission stamp and sequence numbers. -/
  | wheelEventEmit (dt : Nat) (d : Nat) (lane : Nat)
  /-- WSD_LAST0_READ (R190): A read of AQn_WSD_LAST0 latches the remaining words of the selected sensor's last event for the reader. -/
  | wsdLast0Read (dt : Nat) (m : Master) (d : Nat)
  /-- RELEASED_EVENT_RECEIVED (R262): The ledger receives a released or replayed event over ISO-A, verifies it and applies it to heads and sections. -/
  | releasedEventReceived (dt : Nat)
  /-- HORIZON_MARK_RECEIVED (R207): The ledger receives a horizon mark and evaluates its sections at the new horizon. -/
  | horizonMarkReceived (dt : Nat)
  /-- CYCLE_MARK_RECEIVED (R263): The ledger receives a cycle mark, applies the cycle's commands and keeps its cycle state. -/
  | cycleMarkReceived (dt : Nat)
  /-- SPAN_RESTART_MARK_RECEIVED (R186): The ledger receives a span-restart mark and accepts SEQ 0 for the next event of that span. -/
  | spanRestartMarkReceived (dt : Nat)
  /-- LEGACY_DISCREPANCY_TIMEOUT (R195): A legacy head's systems disagree for T_D ticks and the head faults with DISCREPANCY.
  `lh`: legacy head. -/
  | legacyDiscrepancyTimeout (dt : Nat) (ch : EvalSide) (lh : Nat)
  /-- HEAD_UNRESOLVED (R203): More than one reading stays live for RESOLVE_MAX and the head faults with UNRESOLVED.
  `cp`: counting point. -/
  | headUnresolved (dt : Nat) (ch : EvalSide) (cp : Nat)
  /-- FUSED_DISAGREE (R210): A fused head's technologies disagree for FUSE_WIN and the head faults with DISAGREE. -/
  | fusedDisagree (dt : Nat) (ch : EvalSide) (cp : Nat)
  /-- HEAD_BACK_IN_SERVICE (R213): A faulty head's cause is gone and it starts again with one reading. -/
  | headBackInService (dt : Nat) (ch : EvalSide) (cp : Nat)
  /-- DIRECT_RESET_TIMEOUT (R221): A direct reset waits 10 s without its edge and ends with EDGE_TIMEOUT. -/
  | directResetTimeout (dt : Nat) (sec : Nat)
  /-- PROFILE_RECORD (R232): At the end of each town-clock second the device forms a temperature-change record per port and raises profile-ready. -/
  | profileRecord (dt : Nat) (p : Nat)
  /-- ACW_BLOCK_READY (R239): An acoustic window block for a period is ready and is written to the host ring or dropped whole. -/
  | acwBlockReady (dt : Nat) (w : Nat)
  /-- ACW_ENABLE (R241): A write of 1 to a window's EN enables it, or is refused when the ring is too small. -/
  | acwEnable (dt : Nat) (m : Master) (w : Nat)
  /-- ACW_DISABLE (R241): A write of 0 to a window's EN stops output at the next block boundary. -/
  | acwDisable (dt : Nat) (m : Master) (w : Nat)
  /-- PAIR_COMPARATOR_MISMATCH (R245): A lockstep comparator finds a difference, a rail fault or a parity error and the pair faults. -/
  | pairComparatorMismatch (dt : Nat) (pr : Pair) (cause : MismatchCause)
  /-- PAIR_SELFTEST_INJECT (R247): Every 10 ms a test mismatch is injected into each comparator and must be reported at exactly that position.
  `reports`: the positions the comparator reported; `railsOk`: both rails reported. -/
  | pairSelftestInject (dt : Nat) (pr : Pair) (reports : List Nat) (railsOk : Bool)
  /-- VERDICT_DEADLINE (R248): A pair's verdict is not ready 400 us after the cycle boundary and the pair faults with DEADLINE. -/
  | verdictDeadline (dt : Nat) (pr : Pair)
  /-- VERDICT_SEND (R253): A pair's verdict is ready and the selector sends its segments over ISO-B, comparing Active with Standby.
  `standby`: the codes of the sections in use, in rising order, that Standby has formed; none where it is not ready. -/
  | verdictSend (dt : Nat) (standby : Option (List Nat))
  /-- VERDICT_SEGMENT_RECEIVED (R253): FD receives a verdict segment and assembles the cycle's verdict. -/
  | verdictSegmentReceived (dt : Nat)
  /-- COMBINATION_COMPARE (R266): FD holds both the verdict and ledger cycle state of a cycle, compares them and sets the outputs. -/
  | combinationCompare (dt : Nat)
  /-- VERDICT_TIMEOUT (R265): A verdict or cycle mark is missing at VERDICT_TMO and the channel is no longer live. -/
  | verdictTimeout (dt : Nat) (ch : EvalSide)
  /-- VERDICT_LOSS (R271): The processor channel is not live for 5 ms while ISO-B is live and Safe-stop is entered. -/
  | verdictLoss (dt : Nat)
  /-- SAFE_STOP_CAUSE_CLEAR (R271): A Safe-stop cause clears after its clearing condition has held for its time.
  `code`: the cause code of R271. -/
  | safeStopCauseClear (dt : Nat) (code : Nat)
  /-- LEDGER_FAULT (R264): The ledger copies mismatch or its RAM has an uncorrectable error and Safe-stop is entered with LEDGER. -/
  | ledgerFault (dt : Nat)
  /-- LEDGER_SCRUB (R264): The ledger RAM is scrubbed every 100 ms. -/
  | ledgerScrub (dt : Nat) (result : ScrubResult)
  /-- PAIR_RETURN (R257): HB_SAF_CMD return starts a built-in self-test of a faulted pair. -/
  | pairReturn (dt : Nat) (m : Master) (pr : Pair)
  /-- PAIR_RETURN_SELFTEST_DONE (R257): A returning pair passes its self-test, receives the vital state and runs as Standby.
  `pass`: the 2 s self-test passed. -/
  | pairReturnSelftestDone (dt : Nat) (pr : Pair) (pass : Bool)
  /-- PAIR_RETURN_COMPLETE (R257): A returning pair completes 1,000 cycles without selector difference and is back in service. -/
  | pairReturnComplete (dt : Nat) (pr : Pair)
  /-- PAIR_INJECT (R257): HB_SAF_CMD inject faults the named pair with cause INJECTED, in Maintenance only. -/
  | pairInject (dt : Nat) (m : Master) (pr : Pair)
  /-- PAIR_SWAP (R257): HB_SAF_CMD swap exchanges Active and Standby at the next cycle boundary, in Maintenance only. -/
  | pairSwap (dt : Nat) (m : Master)
  /-- DEBUG_HALT (R260): A JTAG debug halt stops a pair and counts as a pair fault of cause HALT, or is refused. -/
  | debugHalt (dt : Nat) (pr : Pair)
  /-- TELEGRAM_HEADER_RECEIVED (R384): FD receives a telegram header and answers with code H or with a reply that no code H is formed. -/
  | telegramHeaderReceived (dt : Nat)
  /-- CHANNEL_SETTLE (R287): A comparator channel's filter produces its first output and FD emits a SETTLED event.
  `runs`: the samples up to the present one. -/
  | channelSettle (dt : Nat) (k : Nat) (runs : List WsRun)
  /-- LEGACY_EDGE (R284): A comparator channel's majority filter changes output, giving an on or off edge with its capture stamp.
  `runs`: the samples up to the present one. -/
  | legacyEdge (dt : Nat) (k : Nat) (runs : List WsRun)
  /-- LEGACY_EVENT_EMIT (R286): FD emits a legacy-head event once no earlier edge of the other system can arise. -/
  | legacyEventEmit (dt : Nat) (lh : Nat)
  /-- CHANNEL_DWELL_FAULT (R288): A channel dwells more than 2 s without a state and takes the DWELL fault.
  `k`: the channel and its samples up to the present one. -/
  | channelDwellFault (dt : Nat) (k : Indexed (List WsRun))
  /-- CHANNEL_WINDOW_FAULT (R289): A channel's level stays outside its window for WIN_T and takes the OPEN or SHORT fault.
  `k`: the channel and its samples up to the present one; `low`: SHORT, below the window; else OPEN. -/
  | channelWindowFault (dt : Nat) (k : Indexed (List WsRun)) (low : Bool)
  /-- CHANNEL_FAULT_END (R289): A channel's fault ends after its ending condition has held.
  `k`: the channel and its samples up to the present one; `code`: the fault that ends (1 OPEN, 2 SHORT, 3 DWELL). -/
  | channelFaultEnd (dt : Nat) (k : Indexed (List WsRun)) (code : Nat)
  /-- WSC_LATCH_CLEAR (R293): A W1C write to FD_WSC_LATCH_LO or _HI sets the selected latches to the current filter output.
  `hi`: channels 32 to 63. -/
  | wscLatchClear (dt : Nat) (m : Master) (hi : Bool) (mask : Word)
  /-- WSC_STAMP_LO_READ (R302): A read of FD_WSC_STAMP_LO latches the high half of the selected channel's capture stamp. -/
  | wscStampLoRead (dt : Nat) (m : Master)
  /-- SUPPLY_SAMPLE (R279): FD samples VF24 and VF5 every 50 us.
  `vf24`, `vf5`: mV. -/
  | supplySample (dt : Nat) (vf24 : Nat) (vf5 : Nat)
  /-- FIELD_SUPPLY_FAULT (R279): 21 consecutive supply samples lie out of range and Safe-stop cause FIELD_SUPPLY arises. -/
  | fieldSupplyFault (dt : Nat)
  /-- ADC_FRAME (R297): A 10 ms main-converter frame completes its scans of pins, references and DACs. -/
  | adcFrame (dt : Nat) (scan : AdcScan)
  /-- ADC_REQUEST (R299): A Maintainer's write to FD_ADC_REQ starts an averaged conversion, or is refused. -/
  | adcRequest (dt : Nat) (m : Master) (v : Word)
  /-- ADC_REQUEST_DONE (R299): A host conversion request finishes and its mean is written to FD_ADC_REQ_RESULT.
  `codes`: the conversions' codes. -/
  | adcRequestDone (dt : Nat) (codes : List Nat)
  /-- FSI_STATE_CHANGE (R300): A field safety input holds a new class for 1 ms and takes that state.
  `runs`: the samples up to the present one. -/
  | fsiStateChange (dt : Nat) (k : Nat) (runs : List LevelRun)
  /-- FSI_FAULT (R300): A field safety input is undefined for more than 100 ms and has a fault.
  `k`: the input and its samples up to the present one. -/
  | fsiFault (dt : Nat) (k : Indexed (List LevelRun))
  /-- OUTPUT_READBACK (R307): FD reads an output's voltage and current and checks them for output faults.
  `volts`: mV at the output; `current`: mA, where the output is driven. -/
  | outputReadback (dt : Nat) (k : Nat) (volts : Nat) (current : Option Nat)
  /-- OUTPUT_SWITCH_TIMEOUT (R308): An output change is unconfirmed after T_SW and faults with STUCK_ON or NO_ON. -/
  | outputSwitchTimeout (dt : Nat) (k : Nat)
  /-- OPEN_LOAD_TIMEOUT (R309): Every current reading stays below I_MIN for 100 ms while energised and OPEN_LOAD latches. -/
  | openLoadTimeout (dt : Nat) (k : Nat)
  /-- GROUP_CHECK_START (R310): At entry to Start FD checks each group by raising its outputs with the group supply off. -/
  | groupCheckStart (dt : Nat)
  /-- GROUP_CHECK_DONE (R310): After 500 us the group check passes and the group supply is raised, or GROUP is set.
  `volts`: the readings of the group's outputs, mV. -/
  | groupCheckDone (dt : Nat) (g : Nat) (volts : List Nat)
  /-- VO_FAULT_CLEAR (R309): FD_VO_CMD clear removes a latched output fault, or is refused while the condition is present. -/
  | voFaultClear (dt : Nat) (m : Master) (k : Nat)
  /-- VO_GROUP_RETEST (R311): FD_VO_CMD group retest raises a group supply with its outputs low, in Safe-stop or Maintenance. -/
  | voGroupRetest (dt : Nat) (m : Master) (g : Nat)
  /-- GROUP_RETEST_DONE (R311): After 100 ms the group retest passes and clears STUCK_ON and GROUP, or fails.
  `volts`: the readings of the group's outputs, mV. -/
  | groupRetestDone (dt : Nat) (g : Nat) (volts : List Nat)
  /-- OFF_PULSE_SLOT_START (R312): An energised output's slot starts and FD lowers it for the off-pulse test. -/
  | offPulseSlotStart (dt : Nat) (k : Nat)
  /-- OFF_PULSE_RAISE (R312): At OFFP_T the tested output is raised again. -/
  | offPulseRaise (dt : Nat) (k : Nat)
  /-- OFF_PULSE_END (R312): The off-pulse test ends at its on reading or at OFFP_T plus 200 us and deferred raises follow. -/
  | offPulseEnd (dt : Nat) (k : Nat)
  /-- BRAKE_TEST_START (R314): A Maintainer's write to FD_BRK_CMD starts a brake test of a channel, or is refused. -/
  | brakeTestStart (dt : Nat) (m : Master) (c : Nat)
  /-- BRAKE_FEEDBACK_CHANGE (R309): A brake feedback input takes a new state.
  `runs`: the samples up to the present one. -/
  | brakeFeedbackChange (dt : Nat) (c : Nat) (runs : List LevelRun)
  /-- BRAKE_TEST_APPLY_TIMEOUT (R315): BT_APPLY passes without applied feedback and the test fails with FAIL_APPLY. -/
  | brakeTestApplyTimeout (dt : Nat) (c : Nat)
  /-- BRAKE_TEST_HOLD_END (R315): BT_HOLD after application the inhibit lifts with APPLY_OK, or the test fails with FAIL_HOLD. -/
  | brakeTestHoldEnd (dt : Nat) (c : Nat)
  /-- BRAKE_TEST_RELEASE_TIMEOUT (R315): BT_RELEASE after the output rose without released feedback the test fails with FAIL_RELEASE. -/
  | brakeTestReleaseTimeout (dt : Nat) (c : Nat)
  /-- BRAKE_FEEDBACK_TIMEOUT (R309): Brake feedback does not follow the output within its time and FEEDBACK latches. -/
  | brakeFeedbackTimeout (dt : Nat) (c : Nat)
  /-- RESET_INPUT_PATTERN (R318): A reset input's contact pattern holds for 20 samples and the input changes state, possibly giving an edge.
  `no`, `nc`: the levels of the two contacts in mV, 1 ms apart, up to the present sample. -/
  | resetInputPattern (dt : Nat) (n : Nat) (no nc : List Nat)
  /-- RESET_INPUT_STUCK (R318): A reset input stays PRESSED for more than 10 s and becomes STUCK. -/
  | resetInputStuck (dt : Nat) (n : Nat)
  /-- RESET_INPUT_FAULT (R318): A reset input shows the disagree pattern for 100 ms and becomes FAULT. -/
  | resetInputFault (dt : Nat) (n : Nat)
  /-- RST_START_LO_READ (R321): A read of FD_RST_START_LO latches the high half of the selected input's START stamp. -/
  | rstStartLoRead (dt : Nat) (m : Master)
  /-- FRW_SPI_READ (R326): HD7 reads a forerunner window address in a 3-byte SPI frame.
  `a`: the address in the forerunner window. -/
  | frwSpiRead (dt : Nat) (a : Nat)
  /-- FRW_LATCH_CLR (R331): A completed write pair to LATCH_CLR clears both latches of the named head. -/
  | frwLatchClr (dt : Nat) (v : Byte)
  /-- FRW_CNT_CLR (R333): A completed write pair to CNT_CLR clears both counters of the named head. -/
  | frwCntClr (dt : Nat) (v : Byte)
  /-- FRW_RST_SEL (R334): A completed write pair to RST_SEL names the forerunner section for the next reset. -/
  | frwRstSel (dt : Nat) (v : Byte)
  /-- FRW_RST_KEY (R334): A write to RST_KEY advances the 5Ah-then-A5h key sequence that gives a reset of RST_SEL. -/
  | frwRstKey (dt : Nat) (v : Byte)
  /-- FRW_HEAD_SEL_WRITE (R337): A write to HEAD_SEL selects a window head or gives result RANGE. -/
  | frwHeadSelWrite (dt : Nat) (v : Byte)
  /-- FRW_SEC_SEL_WRITE (R337): A write to SEC_SEL selects a window section or gives result RANGE. -/
  | frwSecSelWrite (dt : Nat) (v : Byte)
  /-- FRW_COUNT_LO_READ (R335): A read of COUNT_LO captures the high byte into the COUNT_HI latch unless it is held. -/
  | frwCountLoRead (dt : Nat)
  /-- FRW_COUNT_HI_READ (R335): A read of COUNT_HI returns the latched byte and releases the latch. -/
  | frwCountHiRead (dt : Nat)
  /-- FRW_TS_LO_READ (R335): A read of TS_LO captures the timestamp high byte into its latch unless it is held. -/
  | frwTsLoRead (dt : Nat)
  /-- FRW_TS_HI_READ (R335): A read of TS_HI returns the latched byte and releases the latch. -/
  | frwTsHiRead (dt : Nat)
  /-- COMMAND_ARBITER_ENTRY (R351): A submitted command enters the arbiter, where code, role, arguments and pacing are checked.
  `record`: the 64 bytes of the record. -/
  | commandArbiterEntry (dt : Nat) (origin : CmdOrigin) (record : List Byte)
  /-- LEASE_ACQUIRE (R343): A Safety Partner acquires the vacant lease with a new epoch, or is refused. -/
  | leaseAcquire (dt : Nat) (c : Command)
  /-- LEASE_RELEASE (R346): The holder releases the lease, which becomes vacant. -/
  | leaseRelease (dt : Nat) (c : Command)
  /-- LEASE_REVOKE (R346): A Maintainer revokes the lease in Maintenance. -/
  | leaseRevoke (dt : Nat) (c : Command)
  /-- LEASE_RENEW (R344): A write to HB_LEASE_RENEW renews the lease, or is rejected for pacing or stale epoch. -/
  | leaseRenew (dt : Nat) (m : Master) (v : Word)
  /-- LEASE_GRACE (R345): 200 ms pass since the last renewal and the lease enters grace. -/
  | leaseGrace (dt : Nat)
  /-- LEASE_LAPSE (R345): 250 ms pass since the last renewal and the lease lapses. -/
  | leaseLapse (dt : Nat)
  /-- SEC_RESET_PREP (R220): The Safety Owner's preparatory reset zeroes a Disturbed section's counts and starts the sweep. -/
  | secResetPrep (dt : Nat) (c : Command)
  /-- SEC_RESET_DIRECT (R221): The Safety Owner's direct reset waits up to 10 s for its reset-input edge. -/
  | secResetDirect (dt : Nat) (c : Command)
  /-- SEC_BLOCK (R218): A Maintainer blocks a section. -/
  | secBlock (dt : Nat) (c : Command)
  /-- SEC_UNBLOCK (R218): A Maintainer unblocks a section to Disturbed, Clear or Occupied. -/
  | secUnblock (dt : Nat) (c : Command)
  /-- BRAKE_TEST (R314): The Safety Owner's BRAKE_TEST command starts a brake test of a channel. -/
  | brakeTest (dt : Nat) (c : Command)
  /-- SAFE_STOP (R271): The SAFE_STOP command puts the device into Safe-stop with cause COMMAND. -/
  | safeStop (dt : Nat) (c : Command)
  /-- MAINT_ENTER (R508): A Maintainer moves the device from Service or Degraded into Maintenance. -/
  | maintEnter (dt : Nat) (c : Command)
  /-- MAINT_LEAVE (R355): A Maintainer returns the device from Maintenance to Service or Degraded. -/
  | maintLeave (dt : Nat) (c : Command)
  /-- UNFREEZE (R361): A Maintainer with the correct password unfreezes a named master. -/
  | unfreeze (dt : Nat) (c : Command)
  /-- PASSWORD_SET (R356): A Maintainer changes the maintenance password. -/
  | passwordSet (dt : Nat) (c : Command)
  /-- PASSWORD_LOCKOUT_END (R356): A password lockout runs out in powered time and password commands are accepted again.
  `safety`: the lockout of the safety password, else of the structure password. -/
  | passwordLockoutEnd (dt : Nat) (safety : Bool)
  /-- LOCKOUT_TIME_SAVE (R356): The time left in a running lockout is saved to the NV system area at least once a minute. -/
  | lockoutTimeSave (dt : Nat)
  /-- LEDGER_SELFTEST (R274): A Maintainer re-runs the ledger self-test in Safe-stop. -/
  | ledgerSelftest (dt : Nat) (c : Command)
  /-- EVENT_ENTRY_DELIVER (R363): Within 100 us of a raise the device writes the event entry to a domain ring or event telegram.
  `dom`: HD0, HD1 (ring) or HD2 to HD6 (queue). -/
  | eventEntryDeliver (dt : Nat) (dom : Nat)
  /-- EVENT_TELEGRAM_SEND (R387): The entries due for an Ethernet domain within 100 us are sent as one event telegram. -/
  | eventTelegramSend (dt : Nat) (dom : Nat)
  /-- SNAPSHOT_TAKE (R366): A write of 1 to HB_SNAP_CTL.TAKE clears READY and requests a snapshot. -/
  | snapshotTake (dt : Nat) (m : Master)
  /-- SNAPSHOT_FILL (R366): At the next boundary the domain's snapshot buffer is filled and READY set.
  `dom`: the number of the master that owns the copy: 0 to 7 domains, 8 firmware, 9 to 12 hub cores. -/
  | snapshotFill (dt : Nat) (dom : Nat)
  /-- EVR_QUEUE_CONFIG_WRITE (R363): A write to an event ring base or size register resets its producer and consumer indices.
  `a`: the window offset of HB_EVR_Q_BASE_LO, HB_EVR_Q_BASE_HI or HB_EVR_Q_CFG. -/
  | evrQueueConfigWrite (dt : Nat) (m : Master) (a : Nat) (v : Word)
  /-- CMDQ_DOORBELL (R370): A PCIe host writes HB_LNK_CMDQ_PROD to announce new command records. -/
  | cmdqDoorbell (dt : Nat) (m : Master) (v : Word)
  /-- COMMAND_RECORD_FETCH (R371): The device fetches the next command record once fewer than 64 commands are unanswered. -/
  | commandRecordFetch (dt : Nat) (dom : Nat) (record : List Byte)
  /-- RESPONSE_DELIVER (R372): A response is written to the response ring when there is room. -/
  | responseDeliver (dt : Nat) (dom : Nat)
  /-- LNK_QUEUE_CONFIG_WRITE (R390): A write to a ring base or size register of HB_LNK resets the matching indices.
  `a`: the window offset of a base or size register of one of the rings. -/
  | lnkQueueConfigWrite (dt : Nat) (m : Master) (a : Nat) (v : Word)
  /-- PCIE_PORT_RESET (R374): A hot reset, link-down or FLR resets the port's domain registers and stops its DMA engines. -/
  | pciePortReset (dt : Nat) (p : Nat)
  /-- VITAL_TELEGRAM_FORM (R383): A vital telegram is formed for each Safety Partner at each cycle that is a multiple of DIV. -/
  | vitalTelegramForm (dt : Nat) (dom : Nat)
  /-- CODE_H_RECEIVED (R383): HB receives code H, or a no-code-H reply, from FD and sends the telegram. -/
  | codeHReceived (dt : Nat) (dom : Nat)
  /-- TELEGRAM_DEADLINE (R383): 0.9 cycles after the boundary the telegram is sent with H_INVALID. -/
  | telegramDeadline (dt : Nat) (dom : Nat)
  /-- ETH_DATAGRAM_RECEIVE (R376): An Ethernet datagram arrives and is filtered by binding and rate before further handling.
  `src`, `sport`: source address and port; `payload`: the UDP payload. -/
  | ethDatagramReceive (dt : Nat) (port : Nat) (src : Nat) (sport : Nat) (payload : List Byte)
  /-- SESSION_OPEN (R377): An OPEN from a domain's binding opens or replaces its session with a new session number.
  Takes the request at the front of the domain's inbox. -/
  | sessionOpen (dt : Nat) (dom : Nat)
  /-- SESSION_CLOSE (R377): A CLOSE closes the session.
  Takes the request at the front of the domain's inbox. -/
  | sessionClose (dt : Nat) (dom : Nat)
  /-- SESSION_TIMEOUT (R377): 500 ms pass without a valid datagram and the device closes the session. -/
  | sessionTimeout (dt : Nat) (dom : Nat)
  /-- KEEPALIVE_SEND (R377): After 100 ms without sending, the device sends KEEPALIVE on an open session. -/
  | keepaliveSend (dt : Nat) (dom : Nat)
  /-- SESSION_COMMAND (R379): A COMMAND message is executed, repeated from store, or discarded by its MSEQ.
  Takes the request at the front of the domain's inbox. -/
  | sessionCommand (dt : Nat) (dom : Nat)
  /-- SESSION_READ (R379): A READ message reads consecutive window words and sends READ_RESP.
  Takes the request at the front of the domain's inbox. -/
  | sessionRead (dt : Nat) (dom : Nat)
  /-- SESSION_WRITE (R379): A WRITE message writes consecutive window words and sends WRITE_RESP.
  Takes the request at the front of the domain's inbox. -/
  | sessionWrite (dt : Nat) (dom : Nat)
  /-- ETH_LINK_CHANGE (R378): An Ethernet port's link comes up or goes down.
  `link`: 0 down, 1 100 Mbit/s, 2 1 Gbit/s. -/
  | ethLinkChange (dt : Nat) (p : Nat) (link : Nat)
  /-- ICMP_ECHO (R368): An ICMP or ICMPv6 echo request is answered within the rate limit. -/
  | icmpEcho (dt : Nat) (p : Nat) (payload : List Byte)
  /-- NEIGHBOUR_REQUEST (R368): An ARP or neighbour solicitation for the device's address is answered. -/
  | neighbourRequest (dt : Nat) (p : Nat) (addr : Nat)
  /-- SPI_NATIVE_READ (R381): HD7 reads one register through an 0Bh SPI frame. -/
  | spiNativeRead (dt : Nat) (off : Nat)
  /-- SPI_NATIVE_WRITE (R381): HD7 writes one register through an 0Ah SPI frame. -/
  | spiNativeWrite (dt : Nat) (off : Nat) (v : Word)
  /-- MBOX_SUBMIT (R382): A write of 1 to HB_LNK_MBOX_CTL.SUBMIT submits the mailbox command, or is refused while BUSY. -/
  | mboxSubmit (dt : Nat) (m : Master)
  /-- STAGE_WRITE (R398): The staging owner writes the staging area, or the write is dropped or is a violation.
  `off`: byte offset in the staging aperture. -/
  | stageWrite (dt : Nat) (m : Master) (off : Nat) (v : Word)
  /-- STAGING_TIMEOUT (R399): 600 s pass without staging activity from the owner and staging is abandoned. -/
  | stagingTimeout (dt : Nat)
  /-- STRUCT_OPEN (R397): A Configurator becomes staging owner and the state becomes OPEN. -/
  | structOpen (dt : Nat) (c : Command)
  /-- STRUCT_VERIFY (R400): The staging owner starts verification of the staged image. -/
  | structVerify (dt : Nat) (c : Command)
  /-- VERIFY_COMPLETE (R401): Verification ends, passing into VERIFIED with the image copied to NV, or failing back to OPEN.
  `x`: the write of the NV slot succeeds. -/
  | verifyComplete (x : Timed Bool)
  /-- STRUCT_COMMIT (R403): A full or partial commit is applied at its fencing point and distribution starts. -/
  | structCommit (dt : Nat) (c : Command)
  /-- STRUCT_FRAME_RECEIVED (R406): A target receives a structure frame, checks it and holds it as shadow.
  `target`: 0 to 3 acquisition dies, 4 HB, 5 FD, and whether every frame passes its checks. -/
  | structFrameReceived (dt : Nat) (target : Indexed Bool)
  /-- STRUCT_FRAME_ACK (R406): HB receives a target's acknowledgement; when all have acknowledged the commit latch is set.
  `target`: 0 to 3 acquisition dies, 4 HB, 5 FD. -/
  | structFrameAck (dt : Nat) (target : Nat)
  /-- COMMIT_DISTRIB_TIMEOUT (R406): 250 ms pass without every acknowledgement and the shadows are discarded. -/
  | commitDistribTimeout (dt : Nat)
  /-- COMMIT_NV_WRITES_DONE (R407): The change-log entry, epoch and generation word or selection record become durable.
  `x`: how many of the three writes, in their order, are durable; with fewer than 3 the next one failed. -/
  | commitNvWritesDone (x : Timed Nat)
  /-- COMMIT_EFFECT (R407): At the first boundary after the writes every target makes its shadow live with the new epoch.
  `x`: the WP records whose NV write of R575 fails. -/
  | commitEffect (x : Timed (List Nat))
  /-- STRUCT_ABORT (R410): Staging or a commit before the latch is aborted; after the latch the abort is ignored. -/
  | structAbort (dt : Nat) (c : Command)
  /-- STRUCT_PWD_SET (R404): A Maintainer changes the safety password and a PASSWORD change-log entry is appended. -/
  | structPwdSet (dt : Nat) (c : Command)
  /-- WP_TOKEN_ADD (R424): At each whole 100 ms a token is added to each WP register's allowance up to 64. -/
  | wpTokenAdd (dt : Nat)
  /-- CAL_BANK_WRITE_DONE (R427): A calibration bank write finishes with its GEN durable and the new set becomes live. -/
  | calBankWriteDone (dt : Nat)
  /-- JNL_CURSOR_HI_WRITE (R433): A write to HB_JNL_CURSOR_HI stages the cursor's upper half. -/
  | jnlCursorHiWrite (dt : Nat) (m : Master) (v : Word)
  /-- JNL_CURSOR_LO_WRITE (R433): A write to HB_JNL_CURSOR_LO sets the journal cursor from the staged upper half. -/
  | jnlCursorLoWrite (dt : Nat) (m : Master) (v : Word)
  /-- JNL_ENTRY0_READ (R433): A read of HB_JNL_ENTRY0 copies the entry at the cursor into the buffer and sets RSTATUS. -/
  | jnlEntry0Read (dt : Nat) (m : Master)
  /-- JNL_ENTRY7_READ (R433): A read of HB_JNL_ENTRY7 returns the last word and advances the cursor. -/
  | jnlEntry7Read (dt : Nat) (m : Master)
  /-- CLG_CURSOR_HI_WRITE (R434): A write to HB_CLG_CURSOR_HI stages the change-log cursor's upper half. -/
  | clgCursorHiWrite (dt : Nat) (m : Master) (v : Word)
  /-- CLG_CURSOR_LO_WRITE (R434): A write to HB_CLG_CURSOR_LO sets the change-log cursor. -/
  | clgCursorLoWrite (dt : Nat) (m : Master) (v : Word)
  /-- CLG_ENTRY0_READ (R434): A read of HB_CLG_ENTRY0 copies the change-log entry at the cursor into the buffer. -/
  | clgEntry0Read (dt : Nat) (m : Master)
  /-- CLG_ENTRY31_READ (R434): A read of HB_CLG_ENTRY31 returns the last word and advances the cursor. -/
  | clgEntry31Read (dt : Nat) (m : Master)
  /-- LOG_ACK (R435): A Maintainer frees change-log entries up to a named entry and sets the anchor. -/
  | logAck (dt : Nat) (c : Command)
  /-- DMA_DOORBELL (R455): A write to HB_DMA_DBELL queues a channel, or is ignored. -/
  | dmaDoorbell (dt : Nat) (m : Master) (e : Nat) (v : Word)
  /-- DMA_CHANNEL_START (R455): The engine is free and starts the channel at the head of its queue. -/
  | dmaChannelStart (dt : Nat) (e : Nat)
  /-- DMA_PROGRAM_FETCH (R444): A channel fetches a program's status slot and halts NOT_OWNED if OWN is 0.
  `data`: the bytes that host memory returned, where the program lies there; fewer than asked: the burst failed. -/
  | dmaProgramFetch (dt : Nat) (e : Nat) (data : List Byte)
  /-- DMA_MOVE (R448): A MOVE instruction copies LEN bytes, optionally into the running check value.
  `data`: the bytes that host memory returned, where the source lies there; fewer than asked: the burst failed. -/
  | dmaMove (dt : Nat) (e : Nat) (data : List Byte)
  /-- DMA_LOOP (R450): A LOOP instruction repeats its body with strides on the loop stack. -/
  | dmaLoop (dt : Nat) (e : Nat)
  /-- DMA_WAIT (R451): A WAIT instruction starts waiting for a town-clock time or an event source. -/
  | dmaWait (dt : Nat) (e : Nat)
  /-- DMA_WAIT_SATISFIED (R451): A WAIT's time or source raise arrives and the program continues. -/
  | dmaWaitSatisfied (dt : Nat) (e : Nat)
  /-- DMA_WAIT_TIMEOUT (R451): A WAIT's TMO passes first and the channel halts with WAIT_TIMEOUT. -/
  | dmaWaitTimeout (dt : Nat) (e : Nat)
  /-- DMA_SIGNAL (R451): A SIGNAL instruction raises the channel's source or rings another channel's doorbell. -/
  | dmaSignal (dt : Nat) (e : Nat)
  /-- DMA_CRCSTORE (R451): A CRCSTORE instruction stores the running check value. -/
  | dmaCrcstore (dt : Nat) (e : Nat)
  /-- DMA_END (R451): An END instruction completes the run or links to the next program.
  Occurs twice: it begins the final write-back, and the next one ends the program. -/
  | dmaEnd (dt : Nat) (e : Nat)
  /-- DMA_BUS_RETRY (R457): 1 us after a failed burst the device retries it, halting with BUS_ERROR when retries run out.
  `ok`: the repeated burst succeeds. -/
  | dmaBusRetry (dt : Nat) (e : Nat) (ok : Bool)
  /-- DMA_ABORT (R458): A write to HB_DMA_ABORT is latched and stops, dequeues or is ignored for the channel. -/
  | dmaAbort (dt : Nat) (m : Master) (e : Nat) (v : Word)
  /-- CVU_GO (R470): A Maintainer starts an on-demand scan pass of CV4 to CV7, or the start is refused. -/
  | cvuGo (dt : Nat) (m : Master) (u : Nat)
  /-- CVU_STOP (R470): A write to CTL.STOP ends a scan pass at once. -/
  | cvuStop (dt : Nat) (m : Master) (u : Nat)
  /-- CVU_PRESET_LOAD (R465): A non-zero PRESET write loads a CRC parameter set into a unit. -/
  | cvuPresetLoad (dt : Nat) (m : Master) (u : Nat) (p : Nat)
  /-- CVU_PERIODIC_START (R463): A periodic scan unit starts a new pass when its period comes round. -/
  | cvuPeriodicStart (dt : Nat) (u : Nat)
  /-- CVU_PASS_END (R466): A scan pass ends with match, mismatch or stale, and faults are handled.
  `faults`: what the unit met in the range. -/
  | cvuPassEnd (dt : Nat) (u : Nat) (faults : List NvFault)
  /-- CVU_SNOOP_RECORD (R471): A snoop unit checks a passing record and reports disagreement with the receiver.
  `check`: the check value the record carries; `recvOk`: the receiver found it good. -/
  | cvuSnoopRecord (dt : Nat) (u : Nat) (record : List Byte) (check : DWord) (recvOk : Bool)
  /-- CAL_ROUND_START (R474): CAL_INTERVAL after the last round an in-gap round starts when its conditions hold. -/
  | calRoundStart (dt : Nat) (d : Nat)
  /-- CAL_PHASE_A_END (R474): Phase A ends after CAL_N periods and phase B starts with the loopback tone. -/
  | calPhaseAEnd (dt : Nat) (d : Nat)
  /-- CAL_ROUND_END (R479): A round ends, its results are checked against limits and a ramp starts for the accepted ones.
  `r`: what the round measured. -/
  | calRoundEnd (dt : Nat) (d : Nat) (r : RoundResult)
  /-- CAL_ROUND_ABANDON (R478): A running round is abandoned without result. -/
  | calRoundAbandon (dt : Nat) (d : Nat)
  /-- CAL_RAMP_END (R480): The 64-period correction ramp ends and a new calibration set is written. -/
  | calRampEnd (dt : Nat) (d : Nat)
  /-- CAL_PARAM_WRITE (R493): A write to an AQn_CAL_THM or AQn_CAL_PID register takes effect at the next loop step, or is refused.
  `off`: the register's offset in AQn_CAL. -/
  | calParamWrite (dt : Nat) (m : Master) (d : Nat) (off : Nat) (v : Word)
  /-- CAL_STORE (R494): A Maintainer stores the live values as a new calibration set. -/
  | calStore (dt : Nat) (c : Command)
  /-- CMP_CAL_HOLD_START (R487): FD starts a calibration hold of the next due comparator channel. -/
  | cmpCalHoldStart (dt : Nat)
  /-- CMP_CAL_RETRY (R486): A deferred comparator calibration is tried again after 1 s. -/
  | cmpCalRetry (dt : Nat)
  /-- CMP_CAL_GUARD_ABORT (R487): A pin-guard reading lies on the damped side and the hold ends ABORTED.
  `code`: the pin's converter code. -/
  | cmpCalGuardAbort (dt : Nat) (code : Nat)
  /-- CMP_CAL_HOLD_END (R487): The hold ends, the input returns to the pin and an accepted trim is applied.
  `level`: the level at which the comparator switched, in quarter codes. -/
  | cmpCalHoldEnd (dt : Nat) (level : Int)
  /-- TRIM_REPORT_RECEIVED (R488): HB receives an accepted comparator trim from FD for the next calibration set. -/
  | trimReportReceived (dt : Nat)
  /-- TRIM_SET_WRITE (R488): 60 s after a trim report without a round, HB writes a calibration set. -/
  | trimSetWrite (dt : Nat)
  /-- PANEL_FRAME_START (R498): A 5 ms panel frame starts and double-buffered values take effect. -/
  | panelFrameStart (dt : Nat)
  /-- PANEL_ROW_SLOT (R497): A row slot of 312.5 us runs pre-charge, test window and row drive.
  `sense`: PNL_SENSE was high in the last microsecond of the slot. -/
  | panelRowSlot (dt : Nat) (sense : Bool)
  /-- PANEL_NTC_READ (R500): Every 100 ms the lamp-board NTC is read and the derating set.
  `v`: the converter code of the NTC. -/
  | panelNtcRead (dt : Nat) (v : Nat)
  /-- CHAIN_FRAME (R502): Every CHAIN_PERIOD the device sends the indicator chain frame and latch. -/
  | chainFrame (dt : Nat)
  /-- POWER_ON_RESET (R517): PORST_N is released and the logic side boots. -/
  | powerOnReset (dt : Nat)
  /-- PWR_FAIL_RESET (R520): 2 ms after PWR_FAIL_N is taken with rails still in range the logic side is reset internally. -/
  | pwrFailReset (dt : Nat)
  /-- PWR_FAIL_RELEASE (R520): PWR_FAIL_N has been high for 10 ms and the logic side boots.
  `x`: nanoseconds for which PWR_FAIL_N has been high. -/
  | pwrFailRelease (x : Timed Nat)
  /-- FD_POWER_ON (R518): VF5 has exceeded 4.50 V for 10 ms and FD leaves reset.
  `x`: the least VF5, in millivolts, over the last so many nanoseconds. -/
  | fdPowerOn (x : Timed (Nat × Nat))
  /-- FD_BROWNOUT (R518): VF5 falls below 4.40 V and FD enters reset.
  `x`: VF5 in millivolts. -/
  | fdBrownout (x : Timed Nat)
  /-- BOOT_ROM_START (R525): The boot ROM starts, reads fuses and the system area and starts the thermal loops.
  `faults`: what the boot ROM meets in the NV store. -/
  | bootRomStart (dt : Nat) (faults : List NvFault)
  /-- FIRMWARE_VERIFIED (R527): A firmware slot is verified and copied, and the cores are released. -/
  | firmwareVerified (dt : Nat)
  /-- BOOT_WATCHDOG (R528): 5 s pass in boot steps 1 to 4 and the logic side resets with WATCHDOG. -/
  | bootWatchdog (dt : Nat)
  /-- RECOVERY_INSTALL (R528): A write of 1 to HB_BOOT_RCV_CTL.GO verifies and installs a recovery firmware image. -/
  | recoveryInstall (dt : Nat) (m : Master)
  /-- START_HANDSHAKE (R526): HB and FD exchange configuration, trims, structure share and status over ISO-B. -/
  | startHandshake (dt : Nat)
  /-- HANDSHAKE_RETRY (R526): The start handshake has not completed 2 s after it began and is retried. -/
  | handshakeRetry (dt : Nat)
  /-- STRUCTURE_LOAD (R529): The base structure is re-checked, loaded and distributed at boot.
  `x`: the WP records whose NV write of R575 fails. -/
  | structureLoad (x : Timed (List Nat))
  /-- BOOT_COMPLETE (R530): The boot-complete conditions hold and the device leaves Start. -/
  | bootComplete (dt : Nat)
  /-- BOOT_REF_TIMEOUT (R530): 30 s after reset release or wake the reference condition of boot completion is dropped. -/
  | bootRefTimeout (dt : Nat)
  /-- JTAG_EXPIRY (R532): The settings record's EXPIRY passes and JTAG is locked again. -/
  | jtagExpiry (dt : Nat)
  /-- DEVICE_RESET (R533): A Maintainer resets the logic side. -/
  | deviceReset (dt : Nat) (c : Command)
  /-- FD_RESET (R523): A Maintainer resets FD in Safe-stop. -/
  | fdReset (dt : Nat) (c : Command)
  /-- FW_INSTALL (R533): The staged firmware image is verified and written to the slot that is not running. -/
  | fwInstall (dt : Nat) (c : Command)
  /-- KEY_PROGRAM (R531): A Maintainer programs a structure key-hash fuse slot. -/
  | keyProgram (dt : Nat) (c : Command)
  /-- KEY_REVOKE (R531): A Maintainer revokes a structure key-hash fuse slot. -/
  | keyRevoke (dt : Nat) (c : Command)
  /-- SETTINGS_SET (R532): A Maintainer stores a signed settings record from the staging area. -/
  | settingsSet (dt : Nat) (c : Command)
  /-- WATCH_ENTER (R534): A Maintainer takes the device into Watch, powering down the acquisition dies. -/
  | watchEnter (dt : Nat) (c : Command)
  /-- WATCH_LEAVE (R535): A Maintainer wakes the device from Watch. -/
  | watchLeave (dt : Nat) (c : Command)
  /-- WAKE_REQUEST_RECEIVED (R535): HB receives a wake request from FD in Watch and the device wakes into Start. -/
  | wakeRequestReceived (dt : Nat)
  /-- REGISTER_READ (R538): A master reads a register word, with RC clearing, error completion on a powered-down die, or a WINDOW violation that freezes the domain. -/
  | registerRead (dt : Nat) (m : Master) (a : Nat)
  /-- PORST_N_ASSERTED (R517): PORST_N goes low and the logic side is held in reset, town clock included, while FD runs on.
  `x`: nanoseconds for which PORST_N has been low. -/
  | porstNAsserted (x : Timed Nat)
  /-- DIE_EXCLUSION_TIMEOUT (R275): An acquisition die has been excluded as a source for more than 100 ms and the device becomes Degraded. -/
  | dieExclusionTimeout (dt : Nat) (d : Nat)
  /-- FD_INTERNAL_FAULT (R271): A combiner rail fault or FD oscillator fault is detected and Safe-stop is entered with cause FD_INTERNAL. -/
  | fdInternalFault (dt : Nat)
  /-- PAIR_UNCORRECTABLE_READ (R250): A pair reads a shared-memory word with an uncorrectable SEC-DED error and faults with cause MEM_UE, with restore of the line from NV.
  `pr`: the pair, and plaza offset and NV offset of a firmware or structure line; none for a word of its own region. -/
  | pairUncorrectableRead (dt : Nat) (pr : Pair × Option (Nat × Nat))
  /-- QUARTER_PARITY_FAULT (R158): Parity fails in a quarter sequencer's state and its four blocks become faulty with cause QUARTER. -/
  | quarterParityFault (dt : Nat) (d : Nat) (q : Nat)
  /-- BRAKE_FEEDBACK_FAULT (R309): A brake feedback input BFBc stays undefined for more than 100 ms, takes a fault and its output latches FEEDBACK.
  `c`: the input and its samples up to the present one. -/
  | brakeFeedbackFault (dt : Nat) (c : Indexed (List LevelRun))
  /-- RESET_INPUT_FAULT_RELEASE (R318): A reset input in FAULT has shown the released pattern for 1 s and becomes RELEASED. -/
  | resetInputFaultRelease (dt : Nat) (n : Nat)
  /-- PCIE_LINK_UP (R374): A PCIe port's link trains up, HB_LNK_STATUS.UP is set and LINK_UP is raised.
  `speed`, `width`: as HB_LNK_STATUS codes them. -/
  | pcieLinkUp (dt : Nat) (p : Nat) (speed : Nat) (width : Nat)
  /-- PTP_DELAY_REQ_SEND (R41): As a two-step end-to-end slave the device sends a timestamped Delay_Req to the selected master. -/
  | ptpDelayReqSend (dt : Nat)
  /-- HUB_CORE_ACCESS (R358): In the split configuration a hub core makes an access outside its allowed regions and is frozen with cause CORE_RANGE.
  `addr`: a global address outside the regions R544 allows the core. -/
  | hubCoreAccess (dt : Nat) (core : Nat) (addr : Nat)
deriving DecidableEq, Repr

end Sys2Proof
end

