-- ==== Sys2Proof/Config.lean ====
section
/-!
DEFINITION. What an implementation fixes and the spec does not: free values. Each is a constant without a body, so no proof can
see what it is, and every claim holds whatever it is.
-/
namespace Sys2Proof.Config

/-- Whether the device rounds an exact value that lies between two register steps up: the spec gives the step, not the rounding. -/
opaque roundUp : Rat → Bool

/-- Coefficient `tap` of the channeliser's prototype filter for `m` channels: R104 gives its length and its response and no
coefficient. -/
opaque prototype : (m tap : Nat) → Rat

/-- The taps of the fractional-delay filter for a skew in ps, as pairs of a lag in ticks and a coefficient: R101 gives none. -/
opaque delayTaps : (skew : Rat) → List (Int × Rat)

/-- What the device's compressed component differs by from direct convolution: R105 bounds it by one step and does not give it. -/
opaque convErr : (exact : Rat) → Int

/-- The binary places after the point of a reference's two 16-bit components: R111 gives the 4 bytes and no format. -/
opaque refPoint : Nat

/-- What the device's Q adds to the real-arithmetic value: R123 bounds it by 1 and does not give it. -/
opaque qErr : (kappa rho : Rat) → Int

/-- The differential phase that a refresh moved into a point's references, from the references before and after it (R113). -/
opaque refMoved : (before after : List (Rat × Rat)) → Int

/-- The temperature (0.1 mK) where the formula of R490 has none: no resistance, or a denominator of 0. -/
opaque steinhartOpen : (ratio ohm : Nat) → (a b c : Rat) → Int

/-- The frequency correction the discipline's servo forms, 0.1 ppb, from the offset (ns) and the correction in force: R41 to R45
bound it and do not give its law. -/
opaque servo : (offset : Int) → (freq : Int) → Int

/-- The number of bits that a pair's comparator compares: R244 lists the items and not their bits. -/
opaque comparedBits : Nat

/-- The register values that the payload of a structure frame sets, by window offset; none where the payload's length is not the
type's: R395 names the registers of each type and gives no payload layout. -/
opaque frameWords : (type die index : Nat) → (payload : List Byte) → Option (List (Nat × Word))

/-- The kind (0 unused, 1 fibre, 2 legacy, 3 fused), the legacy head and the surveyed centre (mm) that a CPOINT payload states. -/
opaque framePoint : (payload : List Byte) → Nat × Nat × Int

/-- The boundary (counting point, side 1 or 2; empty: unused) and the reset input that a SECTION payload states. -/
opaque frameSection : (payload : List Byte) → List (Nat × Nat) × Option Nat

/-- The sections that an FD_OUTPUT payload maps to its output. -/
opaque frameOutput : (payload : List Byte) → List Nat

/-- A byte of the NV store that the model holds no record of: firmware, calibration content, unused parts. `version`: how often the
region has been written. -/
opaque nvByte : (offset version : Nat) → Byte

/-- The range and the expected value that the firmware sets for a check-value unit (R463): START low and high word, LENGTH, EXPECT.
`content`: what the unit covers, the firmware generation for CV0, HB's share of the live structure for CV1. -/
opaque cvuSetting : (unit field : Nat) → (content : List Byte) → Word

/-- The key hashes in the fuses FWKEY0 and FWKEY1, which Kamdel programs at manufacture (R527). -/
opaque fwKeyHash : (slot : Nat) → List Byte

/-- How many of the three writes of R407 were in progress or done when PWR_FAIL_N was taken with a commit LATCHED (R409, R437). -/
opaque nvStepsDone : (count : Nat) → Nat

end Sys2Proof.Config
end

