-- ==== Sys2Proof/Machine/RegAddr.lean ====
section
/-!
DEFINITION. The window offset of every register (the register tables of the chapters and the block table of Address Map, R543),
each named as the spec names it; AQn registers take the die number n, DMA registers the engine e, arrays their index i.
-/
namespace Sys2Proof.Machine.Reg

/-- HB_TC_NOW_LO: Town clock bits [31:0]; a read latches HB_TC_NOW_HI (RO). -/
abbrev HB_TC_NOW_LO : Nat := 0x000000
/-- HB_TC_NOW_HI: Town clock bits [63:32], as latched (RO). -/
abbrev HB_TC_NOW_HI : Nat := 0x000004
/-- HB_TC_CTL: Source, stepping and enable (RW). -/
abbrev HB_TC_CTL : Nat := 0x000008
/-- HB_TC_STATUS: Discipline state and validity (RO). -/
abbrev HB_TC_STATUS : Nat := 0x00000C
/-- HB_TC_OFFSET: Last measured offset from the source (RO). -/
abbrev HB_TC_OFFSET : Nat := 0x000010
/-- HB_TC_FREQ: Current frequency correction (RO). -/
abbrev HB_TC_FREQ : Nat := 0x000014
/-- HB_TC_SLEW_LIMIT: Largest slew rate (RW). -/
abbrev HB_TC_SLEW_LIMIT : Nat := 0x000018
/-- HB_TC_SET_LO: Value for a step, bits [31:0] (RW). -/
abbrev HB_TC_SET_LO : Nat := 0x00001C
/-- HB_TC_SET_HI: Value for a step, bits [63:32] (RW). -/
abbrev HB_TC_SET_HI : Nat := 0x000020
/-- HB_TC_PTP_CFG: PTP domain and announce filter (RW). -/
abbrev HB_TC_PTP_CFG : Nat := 0x000024
/-- HB_TC_PPS_CFG: PPS polarity and cable delay (RW). -/
abbrev HB_TC_PPS_CFG : Nat := 0x000028
/-- HB_TC_UTC_OFFSET: TAI − UTC as learned from PTP (RO). -/
abbrev HB_TC_UTC_OFFSET : Nat := 0x00002C
/-- HB_TC_FD_SKEW: FD copy minus master (RO). -/
abbrev HB_TC_FD_SKEW : Nat := 0x000030
/-- HB_TC_EVT: Town-clock events (W1C). -/
abbrev HB_TC_EVT : Nat := 0x000034
/-- HB_TC_HOLDOVER: Seconds spent in the current holdover (RO). -/
abbrev HB_TC_HOLDOVER : Nat := 0x000038
/-- AQn_OFE_CTL: Light request and restart (RW). -/
abbrev AQ_OFE_CTL (n : Nat) : Nat := 0x100000 + 0x40000 * n
/-- AQn_OFE_STATUS: Port light state and lock (RO). -/
abbrev AQ_OFE_STATUS (n : Nat) : Nat := 0x100004 + 0x40000 * n
/-- AQn_OFE_EVT: Front-end events (W1C). -/
abbrev AQ_OFE_EVT (n : Nat) : Nat := 0x100008 + 0x40000 * n
/-- AQn_OFE_PINS: Deglitched input levels and output levels (RO). -/
abbrev AQ_OFE_PINS (n : Nat) : Nat := 0x10000C + 0x40000 * n
/-- AQn_OFE_TIMING: Laser timeout and amplifier retry (RW). -/
abbrev AQ_OFE_TIMING (n : Nat) : Nat := 0x100010 + 0x40000 * n
/-- AQn_ADC_PEAK: Peak magnitude for each ADC (RC). -/
abbrev AQ_ADC_PEAK (n : Nat) : Nat := 0x100014 + 0x40000 * n
/-- AQn_ADC_OVR: Clipped-sample counts (RC). -/
abbrev AQ_ADC_OVR (n : Nat) : Nat := 0x100018 + 0x40000 * n
/-- AQn_DAC_SCALE: DAC full scale (RW). -/
abbrev AQ_DAC_SCALE (n : Nat) : Nat := 0x10001C + 0x40000 * n
/-- AQn_TEC_SETPOINT: Laser temperature setpoint (WP). -/
abbrev AQ_TEC_SETPOINT (n : Nat) : Nat := 0x100020 + 0x40000 * n
/-- AQn_TEC_LIMITS: Drive limit and temperature windows (WP). -/
abbrev AQ_TEC_LIMITS (n : Nat) : Nat := 0x100024 + 0x40000 * n
/-- AQn_TEC_RATIO: Thermistor ratio (RO). -/
abbrev AQ_TEC_RATIO (n : Nat) : Nat := 0x100028 + 0x40000 * n
/-- AQn_TEC_TEMP: Laser temperature (RO). -/
abbrev AQ_TEC_TEMP (n : Nat) : Nat := 0x10002C + 0x40000 * n
/-- AQn_TEC_DRIVE: Applied TEC drive (RO). -/
abbrev AQ_TEC_DRIVE (n : Nat) : Nat := 0x100030 + 0x40000 * n
/-- AQn_TEC_IMON: TEC current reading and limit (RW). -/
abbrev AQ_TEC_IMON (n : Nat) : Nat := 0x100034 + 0x40000 * n
/-- AQn_TONE_PLAN: Shadow: plan and port enable (RW). -/
abbrev AQ_TONE_PLAN (n : Nat) : Nat := 0x101000 + 0x40000 * n
/-- AQn_PERIOD: Shadow: pulse period (RW). -/
abbrev AQ_PERIOD (n : Nat) : Nat := 0x101004 + 0x40000 * n
/-- AQn_TAIL: Shadow: tail window (RW). -/
abbrev AQ_TAIL (n : Nat) : Nat := 0x101008 + 0x40000 * n
/-- AQn_CHIRP: Shadow: pulse duration, taper, level (RW). -/
abbrev AQ_CHIRP (n : Nat) : Nat := 0x10100C + 0x40000 * n
/-- AQn_FIBRE_LEN: Shadow: configured fibre length (RW). -/
abbrev AQ_FIBRE_LEN (n : Nat) : Nat := 0x101010 + 0x40000 * n
/-- AQn_FIBRE_NG: Shadow: group index (RW). -/
abbrev AQ_FIBRE_NG (n : Nat) : Nat := 0x101014 + 0x40000 * n
/-- AQn_FIBRE_ZERO: Shadow: front-end delay D_0 (RW). -/
abbrev AQ_FIBRE_ZERO (n : Nat) : Nat := 0x101018 + 0x40000 * n
/-- AQn_PSY_APPLY: Apply the shadow set (WO). -/
abbrev AQ_PSY_APPLY (n : Nat) : Nat := 0x10101C + 0x40000 * n
/-- AQn_PSY_STATUS: Live plan, pending, changeover, check result (RO). -/
abbrev AQ_PSY_STATUS (n : Nat) : Nat := 0x101020 + 0x40000 * n
/-- AQn_PSY_EVT: Apply events (W1C). -/
abbrev AQ_PSY_EVT (n : Nat) : Nat := 0x101024 + 0x40000 * n
/-- AQn_PSY_TPMIN: N_p,min of the shadow set (RO). -/
abbrev AQ_PSY_TPMIN (n : Nat) : Nat := 0x101028 + 0x40000 * n
/-- AQn_PSY_POINTS: j_min and N_pts of the live set (RO). -/
abbrev AQ_PSY_POINTS (n : Nat) : Nat := 0x10102C + 0x40000 * n
/-- AQn_PSY_LIVE_PERIOD: Live period in ticks (RO). -/
abbrev AQ_PSY_LIVE_PERIOD (n : Nat) : Nat := 0x101030 + 0x40000 * n
/-- AQn_PERIOD_CNT: Period count, as latched (RO). -/
abbrev AQ_PERIOD_CNT (n : Nat) : Nat := 0x101034 + 0x40000 * n
/-- AQn_PERIOD_STAMP_LO: P_m of the last period start, bits [31:0] (RO). -/
abbrev AQ_PERIOD_STAMP_LO (n : Nat) : Nat := 0x101038 + 0x40000 * n
/-- AQn_PERIOD_STAMP_HI: P_m bits [63:32], as latched (RO). -/
abbrev AQ_PERIOD_STAMP_HI (n : Nat) : Nat := 0x10103C + 0x40000 * n
/-- AQn_DFE_CTL: Trace output scaling (RW). -/
abbrev AQ_DFE_CTL (n : Nat) : Nat := 0x102000 + 0x40000 * n
/-- AQn_DFE_STATUS: Channeliser and compression in force (RO). -/
abbrev AQ_DFE_STATUS (n : Nat) : Nat := 0x102004 + 0x40000 * n
/-- AQn_DFE_EVT: Front-end processing events (W1C). -/
abbrev AQ_DFE_EVT (n : Nat) : Nat := 0x102008 + 0x40000 * n
/-- AQn_DFE_OFS: ADC offsets in force (RO). -/
abbrev AQ_DFE_OFS (n : Nat) : Nat := 0x10200C + 0x40000 * n
/-- AQn_DFE_GAIN_X: XI and XQ gains in force (RO). -/
abbrev AQ_DFE_GAIN_X (n : Nat) : Nat := 0x102010 + 0x40000 * n
/-- AQn_DFE_GAIN_Y: YI and YQ gains in force (RO). -/
abbrev AQ_DFE_GAIN_Y (n : Nat) : Nat := 0x102014 + 0x40000 * n
/-- AQn_DFE_SKEW: Skews in force (RO). -/
abbrev AQ_DFE_SKEW (n : Nat) : Nat := 0x102018 + 0x40000 * n
/-- AQn_DFE_IQ_X: X imbalance coefficients in force (RO). -/
abbrev AQ_DFE_IQ_X (n : Nat) : Nat := 0x10201C + 0x40000 * n
/-- AQn_DFE_IQ_Y: Y imbalance coefficients in force (RO). -/
abbrev AQ_DFE_IQ_Y (n : Nat) : Nat := 0x102020 + 0x40000 * n
/-- AQn_DFE_RAMP: Correction ramp progress (RO). -/
abbrev AQ_DFE_RAMP (n : Nat) : Nat := 0x102024 + 0x40000 * n
/-- AQn_DFE_SAT_CNT: Saturated trace samples (RC). -/
abbrev AQ_DFE_SAT_CNT (n : Nat) : Nat := 0x102028 + 0x40000 * n
/-- AQn_DFE_NOISE_SEL: Tone selection for noise readback (RW). -/
abbrev AQ_DFE_NOISE_SEL (n : Nat) : Nat := 0x10202C + 0x40000 * n
/-- AQn_DFE_NOISE: Noise power of the selected tone (RO). -/
abbrev AQ_DFE_NOISE (n : Nat) : Nat := 0x102030 + 0x40000 * n
/-- AQn_DFE_NOISE_AGE: Age of the selected tone's noise figure (RO). -/
abbrev AQ_DFE_NOISE_AGE (n : Nat) : Nat := 0x102034 + 0x40000 * n
/-- AQn_DMD_QUAL: Quality thresholds and coherence floor (RW). -/
abbrev AQ_DMD_QUAL (n : Nat) : Nat := 0x102040 + 0x40000 * n
/-- AQn_DMD_RHO: Strength scale (RW). -/
abbrev AQ_DMD_RHO (n : Nat) : Nat := 0x102044 + 0x40000 * n
/-- AQn_DMD_UNWRAP: Unwrap warning and gap (RW). -/
abbrev AQ_DMD_UNWRAP (n : Nat) : Nat := 0x102048 + 0x40000 * n
/-- AQn_DMD_REF_CTL: Reference refresh and re-acquisition (RW). -/
abbrev AQ_DMD_REF_CTL (n : Nat) : Nat := 0x10204C + 0x40000 * n
/-- AQn_DMD_REF_STATUS: Reference state (RO). -/
abbrev AQ_DMD_REF_STATUS (n : Nat) : Nat := 0x102050 + 0x40000 * n
/-- AQn_DMD_EPOCH_LO: Reference epoch, bits [31:0] (RO). -/
abbrev AQ_DMD_EPOCH_LO (n : Nat) : Nat := 0x102054 + 0x40000 * n
/-- AQn_DMD_EPOCH_HI: Reference epoch, bits [63:32] (RO). -/
abbrev AQ_DMD_EPOCH_HI (n : Nat) : Nat := 0x102058 + 0x40000 * n
/-- AQn_DMD_EVT: Demodulation events (W1C). -/
abbrev AQ_DMD_EVT (n : Nat) : Nat := 0x10205C + 0x40000 * n
/-- AQn_DMD_FADE_CNT: Points currently faded (RO). -/
abbrev AQ_DMD_FADE_CNT (n : Nat) : Nat := 0x102060 + 0x40000 * n
/-- AQn_DMD_PROBE_SEL: Point selection for readback (RW). -/
abbrev AQ_DMD_PROBE_SEL (n : Nat) : Nat := 0x102064 + 0x40000 * n
/-- AQn_DMD_PROBE_LO: Latest point-sample word, bits [31:0] (RO). -/
abbrev AQ_DMD_PROBE_LO (n : Nat) : Nat := 0x102068 + 0x40000 * n
/-- AQn_DMD_PROBE_HI: Bits [63:32], as latched (RO). -/
abbrev AQ_DMD_PROBE_HI (n : Nat) : Nat := 0x10206C + 0x40000 * n
/-- AQn_DMD_LANE0-AQn_DMD_LANE287: Gauge and window of lane i, at 0100h + 4 × i (RW). -/
abbrev AQ_DMD_LANE (n : Nat) (i : Nat) : Nat := 0x102100 + 0x40000 * n + 4 * i
/-- AQn_LBQ_SUMMARY: Fault counts (RO). -/
abbrev AQ_LBQ_SUMMARY (n : Nat) : Nat := 0x104000 + 0x40000 * n
/-- AQn_LBQ_EVT: Lane, block and quarter events (W1C). -/
abbrev AQ_LBQ_EVT (n : Nat) : Nat := 0x104004 + 0x40000 * n
/-- AQn_LBQ_CMD: Return and inject commands (WO). -/
abbrev AQ_LBQ_CMD (n : Nat) : Nat := 0x104008 + 0x40000 * n
/-- AQn_LBQ_CMD_STATUS: Command progress and result (RO). -/
abbrev AQ_LBQ_CMD_STATUS (n : Nat) : Nat := 0x10400C + 0x40000 * n
/-- AQn_LBQ_CFG: Clock option from the structure (RO). -/
abbrev AQ_LBQ_CFG (n : Nat) : Nat := 0x104010 + 0x40000 * n
/-- AQn_QTR_STAT: State of the eight quarters (RO). -/
abbrev AQ_QTR_STAT (n : Nat) : Nat := 0x104014 + 0x40000 * n
/-- AQn_BLK_UNAVAIL: Faulty blocks, bit b = block b (RO). -/
abbrev AQ_BLK_UNAVAIL (n : Nat) : Nat := 0x104018 + 0x40000 * n
/-- AQn_BLK_GATED: Gated blocks, bit b = block b (RO). -/
abbrev AQ_BLK_GATED (n : Nat) : Nat := 0x10401C + 0x40000 * n
/-- AQn_BLK_SLOW: Blocks at 400 MHz, bit b = block b (RO). -/
abbrev AQ_BLK_SLOW (n : Nat) : Nat := 0x104020 + 0x40000 * n
/-- AQn_BLK_STAT0-AQn_BLK_STAT31: State of block b, at 0100h + 4 × b (RO). -/
abbrev AQ_BLK_STAT (n : Nat) (i : Nat) : Nat := 0x104100 + 0x40000 * n + 4 * i
/-- AQn_BLK_ECC0-AQn_BLK_ECC31: Corrected errors of block b, at 0180h + 4 × b (RC). -/
abbrev AQ_BLK_ECC (n : Nat) (i : Nat) : Nat := 0x104180 + 0x40000 * n + 4 * i
/-- AQn_LANE_SPAN0-AQn_LANE_SPAN287: Span of lane i, at 0400h + 4 × i (RO). -/
abbrev AQ_LANE_SPAN (n : Nat) (i : Nat) : Nat := 0x104400 + 0x40000 * n + 4 * i
/-- AQn_LANE_MEM0-AQn_LANE_MEM287: Region of lane i, at 0900h + 4 × i (RO). -/
abbrev AQ_LANE_MEM (n : Nat) (i : Nat) : Nat := 0x104900 + 0x40000 * n + 4 * i
/-- AQn_LANE_STAT0-AQn_LANE_STAT287: State of lane i, at 0E00h + 4 × i (RO). -/
abbrev AQ_LANE_STAT (n : Nat) (i : Nat) : Nat := 0x104E00 + 0x40000 * n + 4 * i
/-- AQn_WSD_GATE: Decision and blind thresholds (RO). -/
abbrev AQ_WSD_GATE (n : Nat) : Nat := 0x120000 + 0x40000 * n
/-- AQn_WSD_TIMING: State timing (RO). -/
abbrev AQ_WSD_TIMING (n : Nat) : Nat := 0x120004 + 0x40000 * n
/-- AQn_WSD_AXLE: Bowl width and minimum axle spacing (RO). -/
abbrev AQ_WSD_AXLE (n : Nat) : Nat := 0x120008 + 0x40000 * n
/-- AQn_WSD_STATUS: Sensors SIGHTED and BLIND (RO). -/
abbrev AQ_WSD_STATUS (n : Nat) : Nat := 0x12000C + 0x40000 * n
/-- AQn_WSD_STATUS2: Sensors FILLING and STANDING (RO). -/
abbrev AQ_WSD_STATUS2 (n : Nat) : Nat := 0x120010 + 0x40000 * n
/-- AQn_WSD_EVT: Detector events (W1C). -/
abbrev AQ_WSD_EVT (n : Nat) : Nat := 0x120014 + 0x40000 * n
/-- AQn_WSD_SUPP_CNT: Suppressed peaks (RC). -/
abbrev AQ_WSD_SUPP_CNT (n : Nat) : Nat := 0x120018 + 0x40000 * n
/-- AQn_WSD_CMAP_CNT: Breakpoints in the chainage map (RO). -/
abbrev AQ_WSD_CMAP_CNT (n : Nat) : Nat := 0x12001C + 0x40000 * n
/-- AQn_WSD_SEL: Sensor entry for last-event readback (RW). -/
abbrev AQ_WSD_SEL (n : Nat) : Nat := 0x120020 + 0x40000 * n
/-- AQn_WSD_LAST0-AQn_WSD_LAST7: Bytes 4w to 4w + 3 of the last event of the selected sensor (RO). -/
abbrev AQ_WSD_LAST (n : Nat) (i : Nat) : Nat := 0x120024 + 0x40000 * n + 4 * i
/-- AQn_WSD_TPL0-AQn_WSD_TPL15: Template s, at 0100h + 4 × s (RO). -/
abbrev AQ_WSD_TPL (n : Nat) (i : Nat) : Nat := 0x120100 + 0x40000 * n + 4 * i
/-- AQn_WSD_TAPS: Taps of template s, at 1000h + 128 × s (RO). -/
abbrev AQ_WSD_TAPS (n : Nat) (i : Nat) : Nat := 0x121000 + 0x40000 * n + 4 * i
/-- AQn_WSD_SENSOR: Entry e, four registers at 4000h + 16 × e (RO). -/
abbrev AQ_WSD_SENSOR (n : Nat) (i : Nat) : Nat := 0x124000 + 0x40000 * n + 4 * i
/-- AQn_WSD_CMAP: Breakpoint b, two registers at C000h + 8 × b (RO). -/
abbrev AQ_WSD_CMAP (n : Nat) (i : Nat) : Nat := 0x12C000 + 0x40000 * n + 4 * i
/-- HB_CPT_SUMMARY: Faulty and unresolved heads (RO). -/
abbrev HB_CPT_SUMMARY : Nat := 0x00D000
/-- HB_CPT_EVT: Head events (W1C). -/
abbrev HB_CPT_EVT : Nat := 0x00D004
/-- HB_CPT_FIBRE: Reversal, transit and resolution limits (RO). -/
abbrev HB_CPT_FIBRE : Nat := 0x00D008
/-- HB_CPT_BRIDGE: Unsighted bridge (RO). -/
abbrev HB_CPT_BRIDGE : Nat := 0x00D00C
/-- HB_CPT_FUSE: Fused agreement window (RO). -/
abbrev HB_CPT_FUSE : Nat := 0x00D010
/-- HB_CPT_LEGACY: Discrepancy time (RO). -/
abbrev HB_CPT_LEGACY : Nat := 0x00D014
/-- HB_CPT_SEL: Counting point for readback (RW). -/
abbrev HB_CPT_SEL : Nat := 0x00D018
/-- HB_CPT_CFG: Kind and geometry of the selected counting point (RO). -/
abbrev HB_CPT_CFG : Nat := 0x00D01C
/-- HB_CPT_SECT0: Sections 0 and 1 bounded by the selected counting point (RO). -/
abbrev HB_CPT_SECT0 : Nat := 0x00D020
/-- HB_CPT_SECT1: Sections 2 and 3 bounded by the selected counting point (RO). -/
abbrev HB_CPT_SECT1 : Nat := 0x00D024
/-- HB_CPT_STATE: State of the selected head (RO). -/
abbrev HB_CPT_STATE : Nat := 0x00D028
/-- HB_CPT_TALLY: Unresolved count changes of the selected head (RO). -/
abbrev HB_CPT_TALLY : Nat := 0x00D02C
/-- HB_CPT_FAULT_CNT: Head faults (RC). -/
abbrev HB_CPT_FAULT_CNT : Nat := 0x00D030
/-- HB_CPT_FAULT0-HB_CPT_FAULT127: Bit c of word w: CP 32w + c faulty (RO). -/
abbrev HB_CPT_FAULT (i : Nat) : Nat := 0x00D100 + 4 * i
/-- HB_SEC_SUMMARY0: Sections Clear and Occupied (RO). -/
abbrev HB_SEC_SUMMARY0 : Nat := 0x00E000
/-- HB_SEC_SUMMARY1: Sections Occupied-held and Disturbed (RO). -/
abbrev HB_SEC_SUMMARY1 : Nat := 0x00E004
/-- HB_SEC_SUMMARY2: Sections Reset-pending and Blocked (RO). -/
abbrev HB_SEC_SUMMARY2 : Nat := 0x00E008
/-- HB_SEC_EVT: Section events (W1C). -/
abbrev HB_SEC_EVT : Nat := 0x00E00C
/-- HB_SEC_SEL: Section for readback (RW). -/
abbrev HB_SEC_SEL : Nat := 0x00E010
/-- HB_SEC_CFG: Boundary size and reset input of the selected section (RO). -/
abbrev HB_SEC_CFG : Nat := 0x00E014
/-- HB_SEC_BOUND0-HB_SEC_BOUND3: Boundary entries 2k and 2k + 1 of the selected section (RO). -/
abbrev HB_SEC_BOUND (i : Nat) : Nat := 0x00E018 + 4 * i
/-- HB_SEC_COUNT: High and low counts of the selected section (RO). -/
abbrev HB_SEC_COUNT : Nat := 0x00E028
/-- HB_SEC_DETAIL: State detail of the selected section (RO). -/
abbrev HB_SEC_DETAIL : Nat := 0x00E02C
/-- HB_SEC_STATE0-HB_SEC_STATE255: States of sections 8w to 8w + 7 (RO). -/
abbrev HB_SEC_STATE (i : Nat) : Nat := 0x00E100 + 4 * i
/-- HB_TPR_CFG0-HB_TPR_CFG3: Bins and reference of port p (RW). -/
abbrev HB_TPR_CFG (i : Nat) : Nat := 0x010000 + 16 * i
/-- HB_TPR_COEF0-HB_TPR_COEF3: Fibre coefficient of port p (RW). -/
abbrev HB_TPR_COEF (i : Nat) : Nat := 0x010004 + 16 * i
/-- HB_TPR_STAT0-HB_TPR_STAT3: Profile state of port p (RO). -/
abbrev HB_TPR_STAT (i : Nat) : Nat := 0x010008 + 16 * i
/-- HB_TPR_EVT: Profile events (W1C). -/
abbrev HB_TPR_EVT : Nat := 0x010040
/-- HB_ACW_BUDGET: Rate of enabled windows (RO). -/
abbrev HB_ACW_BUDGET : Nat := 0x011000
/-- HB_ACW_EVT: Window events (W1C). -/
abbrev HB_ACW_EVT : Nat := 0x011004
/-- HB_ACW_DROP_CNT: Blocks dropped (RC). -/
abbrev HB_ACW_DROP_CNT : Nat := 0x011008
/-- HB_ACW_W0-HB_ACW_W63 word 0: Eight registers of window w, r = 0 to 7 (See below). -/
abbrev HB_ACW_W_R0 (i : Nat) : Nat := 0x011100 + 32 * i
/-- HB_ACW_W0-HB_ACW_W63 word 1: Eight registers of window w, r = 0 to 7 (See below). -/
abbrev HB_ACW_W_R1 (i : Nat) : Nat := 0x011104 + 32 * i
/-- HB_ACW_W0-HB_ACW_W63 word 2: Eight registers of window w, r = 0 to 7 (See below). -/
abbrev HB_ACW_W_R2 (i : Nat) : Nat := 0x011108 + 32 * i
/-- HB_ACW_W0-HB_ACW_W63 word 3: Eight registers of window w, r = 0 to 7 (See below). -/
abbrev HB_ACW_W_R3 (i : Nat) : Nat := 0x01110C + 32 * i
/-- HB_ACW_W0-HB_ACW_W63 word 4: Eight registers of window w, r = 0 to 7 (See below). -/
abbrev HB_ACW_W_R4 (i : Nat) : Nat := 0x011110 + 32 * i
/-- HB_ACW_W0-HB_ACW_W63 word 5: Eight registers of window w, r = 0 to 7 (See below). -/
abbrev HB_ACW_W_R5 (i : Nat) : Nat := 0x011114 + 32 * i
/-- HB_ACW_W0-HB_ACW_W63 word 6: Eight registers of window w, r = 0 to 7 (See below). -/
abbrev HB_ACW_W_R6 (i : Nat) : Nat := 0x011118 + 32 * i
/-- HB_ACW_W0-HB_ACW_W63 word 7: Eight registers of window w, r = 0 to 7 (See below). -/
abbrev HB_ACW_W_R7 (i : Nat) : Nat := 0x01111C + 32 * i
/-- HB_SAF_STATUS: Pair states, roles, core configuration (RO). -/
abbrev HB_SAF_STATUS : Nat := 0x001000
/-- HB_SAF_EVT: Pair events (W1C). -/
abbrev HB_SAF_EVT : Nat := 0x001004
/-- HB_SAF_CMD: Pair commands (WO). -/
abbrev HB_SAF_CMD : Nat := 0x001008
/-- HB_SAF_CMD_STATUS: Command progress and result (RO). -/
abbrev HB_SAF_CMD_STATUS : Nat := 0x00100C
/-- HB_SAF_FAULT_A: Fault record of pair A (RO). -/
abbrev HB_SAF_FAULT_A : Nat := 0x001010
/-- HB_SAF_FAULT_B: Fault record of pair B (RO). -/
abbrev HB_SAF_FAULT_B : Nat := 0x001014
/-- HB_SAF_STEST: Passed self-test injections (RO). -/
abbrev HB_SAF_STEST : Nat := 0x001018
/-- HB_SAF_DISCORD: Selector differences (RC). -/
abbrev HB_SAF_DISCORD : Nat := 0x00101C
/-- FD_CMB_STATUS: Channel liveness and Safe-stop (RO). -/
abbrev FD_CMB_STATUS : Nat := 0x200000
/-- FD_CMB_EVT: Combination events (W1C). -/
abbrev FD_CMB_EVT : Nat := 0x200004
/-- FD_CMB_CFG: Combination limits from the structure (RO). -/
abbrev FD_CMB_CFG : Nat := 0x200008
/-- FD_CMB_SSCAUSE: Safe-stop causes (RO). -/
abbrev FD_CMB_SSCAUSE : Nat := 0x20000C
/-- FD_CMB_DISCORD: Last discord (RO). -/
abbrev FD_CMB_DISCORD : Nat := 0x200010
/-- FD_CMB_CYCLE: Last compared cycle (RO). -/
abbrev FD_CMB_CYCLE : Nat := 0x200014
/-- FD_CMB_CHKERR: Ledger check failures (RC). -/
abbrev FD_CMB_CHKERR : Nat := 0x200018
/-- FD_LED_STATE0-FD_LED_STATE255: Ledger cycle states of sections 8w to 8w + 7 (RO). -/
abbrev FD_LED_STATE (i : Nat) : Nat := 0x200100 + 4 * i
/-- FD_WSC_EVT: Comparator events (W1C). -/
abbrev FD_WSC_EVT : Nat := 0x201000
/-- FD_WSC_DAMPED_LO: Bit k: output of WSk damped, k = 0-31 (RO). -/
abbrev FD_WSC_DAMPED_LO : Nat := 0x201004
/-- FD_WSC_DAMPED_HI: Bit k: WS(32 + k) (RO). -/
abbrev FD_WSC_DAMPED_HI : Nat := 0x201008
/-- FD_WSC_LATCH_LO: Latches of WS0-WS31 (R293) (W1C). -/
abbrev FD_WSC_LATCH_LO : Nat := 0x20100C
/-- FD_WSC_LATCH_HI: Latches of WS32-WS63 (W1C). -/
abbrev FD_WSC_LATCH_HI : Nat := 0x201010
/-- FD_WSC_FAULT_LO: Bit k: WSk has a fault (RO). -/
abbrev FD_WSC_FAULT_LO : Nat := 0x201014
/-- FD_WSC_FAULT_HI: As above for WS32-WS63 (RO). -/
abbrev FD_WSC_FAULT_HI : Nat := 0x201018
/-- FD_WSC_UNSET_LO: Bit k: WSk UNSETTLED (RO). -/
abbrev FD_WSC_UNSET_LO : Nat := 0x20101C
/-- FD_WSC_UNSET_HI: As above for WS32-WS63 (RO). -/
abbrev FD_WSC_UNSET_HI : Nat := 0x201020
/-- FD_WSC_SEL: Channel for stamp readback (RW). -/
abbrev FD_WSC_SEL : Nat := 0x201024
/-- FD_WSC_STAMP_LO: Last capture stamp of the selected channel, bits [31:0] (RO). -/
abbrev FD_WSC_STAMP_LO : Nat := 0x201028
/-- FD_WSC_STAMP_HI: Bits [63:32], as latched (RO). -/
abbrev FD_WSC_STAMP_HI : Nat := 0x20102C
/-- FD_WSC_CFG0_k: Threshold and mode of WSk (RO). -/
abbrev FD_WSC_CFG0 (i : Nat) : Nat := 0x201100 + 16 * i
/-- FD_WSC_CFG1_k: Outer window of WSk (RO). -/
abbrev FD_WSC_CFG1 (i : Nat) : Nat := 0x201104 + 16 * i
/-- FD_WSC_CFG2_k: Filter, latch and wake of WSk (RO). -/
abbrev FD_WSC_CFG2 (i : Nat) : Nat := 0x201108 + 16 * i
/-- FD_WSC_STAT_k: State of WSk (RO). -/
abbrev FD_WSC_STAT (i : Nat) : Nat := 0x20110C + 16 * i
/-- FD_ADC_STATUS: Request and load state (RO). -/
abbrev FD_ADC_STATUS : Nat := 0x202000
/-- FD_ADC_EVT: Converter events (W1C). -/
abbrev FD_ADC_EVT : Nat := 0x202004
/-- FD_ADC_REQ: Host request (WO). -/
abbrev FD_ADC_REQ : Nat := 0x202008
/-- FD_ADC_REQ_RESULT: Result of the last request (RO). -/
abbrev FD_ADC_REQ_RESULT : Nat := 0x20200C
/-- FD_ADC_SUPPLY: VF24 and VF5 (RO). -/
abbrev FD_ADC_SUPPLY : Nat := 0x202010
/-- FD_ADC_MISC: FD temperature and reference (RO). -/
abbrev FD_ADC_MISC : Nat := 0x202014
/-- FD_ADC_WS0-FD_ADC_WS63: Pin and threshold DAC of WSk (RO). -/
abbrev FD_ADC_WS (i : Nat) : Nat := 0x202100 + 4 * i
/-- FD_ADC_WIN0-FD_ADC_WIN63: Window DACs of WSk (RO). -/
abbrev FD_ADC_WIN (i : Nat) : Nat := 0x202200 + 4 * i
/-- FD_ADC_REF0-FD_ADC_REF31: Pin WREFi (RO). -/
abbrev FD_ADC_REF (i : Nat) : Nat := 0x202300 + 4 * i
/-- FD_FSI_STATUS: States and faults (RO). -/
abbrev FD_FSI_STATUS : Nat := 0x203000
/-- FD_FSI_CFG: Enable and inversion (RO). -/
abbrev FD_FSI_CFG : Nat := 0x203004
/-- FD_FSI_EVT: Input events (W1C). -/
abbrev FD_FSI_EVT : Nat := 0x203008
/-- FD_VO_DRIVE: Bit i: VOi high (RO). -/
abbrev FD_VO_DRIVE : Nat := 0x204000
/-- FD_VO_FAULT: Bit i: output i has a fault (RO). -/
abbrev FD_VO_FAULT : Nat := 0x204004
/-- FD_VO_INHIBIT: Bit i: output i inhibited (R306) (RO). -/
abbrev FD_VO_INHIBIT : Nat := 0x204008
/-- FD_VO_EVT: Output events (W1C). -/
abbrev FD_VO_EVT : Nat := 0x20400C
/-- FD_VO_CMD: Clear and group retest (WO). -/
abbrev FD_VO_CMD : Nat := 0x204010
/-- FD_VO_CMD_STATUS: Command progress and result (RO). -/
abbrev FD_VO_CMD_STATUS : Nat := 0x204014
/-- FD_VO_GROUP: Group switches and faults (RO). -/
abbrev FD_VO_GROUP : Nat := 0x204018
/-- FD_VO_TIMING: Off-pulse and confirmation times (RO). -/
abbrev FD_VO_TIMING : Nat := 0x20401C
/-- FD_VO_THR0: Thresholds of group 0 (RO). -/
abbrev FD_VO_THR0 : Nat := 0x204020
/-- FD_VO_THR1: Thresholds of group 1 (RO). -/
abbrev FD_VO_THR1 : Nat := 0x204024
/-- FD_VO_SEL: Output for map readback (RW). -/
abbrev FD_VO_SEL : Nat := 0x204028
/-- FD_VO_MAP0-FD_VO_MAP3: Sections 2k and 2k + 1 of the selected output (RO). -/
abbrev FD_VO_MAP (i : Nat) : Nat := 0x20402C + 4 * i
/-- FD_VO_CFG_i: Enable, inhibits, section count (RO). -/
abbrev FD_VO_CFG (i : Nat) : Nat := 0x204100 + 16 * i
/-- FD_VO_CUR_i: Current limits and scale (RO). -/
abbrev FD_VO_CUR (i : Nat) : Nat := 0x204104 + 16 * i
/-- FD_VO_STAT_i: State of output i (RO). -/
abbrev FD_VO_STAT (i : Nat) : Nat := 0x204108 + 16 * i
/-- FD_VO_READ_i: Latest readings of output i (RO). -/
abbrev FD_VO_READ (i : Nat) : Nat := 0x20410C + 16 * i
/-- FD_BRK_CMD: Start a brake test (WO). -/
abbrev FD_BRK_CMD : Nat := 0x205000
/-- FD_BRK_CMD_STATUS: Acceptance of the last command (RO). -/
abbrev FD_BRK_CMD_STATUS : Nat := 0x205004
/-- FD_BRK_FB: Feedback states (RO). -/
abbrev FD_BRK_FB : Nat := 0x205008
/-- FD_BRK_EVT: Brake events (W1C). -/
abbrev FD_BRK_EVT : Nat := 0x20500C
/-- FD_BRK_TIME: Test and feedback times (RO). -/
abbrev FD_BRK_TIME : Nat := 0x205010
/-- FD_BRK_CFG: Feedback enable and inversion (RO). -/
abbrev FD_BRK_CFG : Nat := 0x205014
/-- FD_BRK_RES0-FD_BRK_RES15: Test result of channel c (RO). -/
abbrev FD_BRK_RES (i : Nat) : Nat := 0x205100 + 4 * i
/-- FD_RST_STATUS: Input states (RO). -/
abbrev FD_RST_STATUS : Nat := 0x206000
/-- FD_RST_CONTACTS: Classified contact levels (RO). -/
abbrev FD_RST_CONTACTS : Nat := 0x206004
/-- FD_RST_EVT: Input events (W1C). -/
abbrev FD_RST_EVT : Nat := 0x206008
/-- FD_RST_SEL: Input for stamp readback (RW). -/
abbrev FD_RST_SEL : Nat := 0x20600C
/-- FD_RST_START_LO: START of the last edge of the selected input, bits [31:0] (RO). -/
abbrev FD_RST_START_LO : Nat := 0x206010
/-- FD_RST_START_HI: Bits [63:32], as latched (RO). -/
abbrev FD_RST_START_HI : Nat := 0x206014
/-- FD_RST_COUNT: Edges per input (RO). -/
abbrev FD_RST_COUNT : Nat := 0x206018
/-- HB_FRM_CFG: Mode and ownership (RO). -/
abbrev HB_FRM_CFG : Nat := 0x00F000
/-- HB_FRM_EVT: Window events (W1C). -/
abbrev HB_FRM_EVT : Nat := 0x00F004
/-- HB_FRM_REFUSED: Refused window writes (RC). -/
abbrev HB_FRM_REFUSED : Nat := 0x00F008
/-- HB_HST_SELF: The reading domain and its roles (RO). -/
abbrev HB_HST_SELF : Nat := 0x002000
/-- HB_HST_FROZEN: Frozen domains and cores (RO). -/
abbrev HB_HST_FROZEN : Nat := 0x002004
/-- HB_HST_FROZEN_DMA0-HB_HST_FROZEN_DMA3: Bit c of word n: channel c of engines DE(2n) (bits 0-15) and DE(2n + 1) (bits 16-31) (RO). -/
abbrev HB_HST_FROZEN_DMA (i : Nat) : Nat := 0x002008 + 4 * i
/-- HB_HST_FRZ_STATUS: Record use (RO). -/
abbrev HB_HST_FRZ_STATUS : Nat := 0x002018
/-- HB_HST_FRZ_SEL: Record for readback (RW). -/
abbrev HB_HST_FRZ_SEL : Nat := 0x00201C
/-- HB_HST_FRZ_REC0-HB_HST_FRZ_REC3: Selected freeze record (RO). -/
abbrev HB_HST_FRZ_REC (i : Nat) : Nat := 0x002020 + 4 * i
/-- HB_HST_PWD: Maintenance password lockout (RO). -/
abbrev HB_HST_PWD : Nat := 0x002030
/-- HB_HST_ROLE0-HB_HST_ROLE7: Roles of domain d (RO). -/
abbrev HB_HST_ROLE (i : Nat) : Nat := 0x002040 + 4 * i
/-- HB_HST_REJ0-HB_HST_REJ7: Rejections of domain d (RO). -/
abbrev HB_HST_REJ (i : Nat) : Nat := 0x002060 + 4 * i
/-- HB_LEASE_STATUS: Holder and grace (RO). -/
abbrev HB_LEASE_STATUS : Nat := 0x003000
/-- HB_LEASE_EPOCH: Epoch of the current or last grant (WP). -/
abbrev HB_LEASE_EPOCH : Nat := 0x003004
/-- HB_LEASE_RENEW: Renewal (R344) (WO). -/
abbrev HB_LEASE_RENEW : Nat := 0x003008
/-- HB_LEASE_AGE: Time since the last accepted renewal (RO). -/
abbrev HB_LEASE_AGE : Nat := 0x00300C
/-- HB_LEASE_EVT: Lease events (W1C). -/
abbrev HB_LEASE_EVT : Nat := 0x003010
/-- HB_EVR_LOST: Entries lost from this domain's ring (RO). -/
abbrev HB_EVR_LOST : Nat := 0x004000
/-- HB_EVR_Q_BASE_LO: Ring base bits [31:4] (RW). -/
abbrev HB_EVR_Q_BASE_LO : Nat := 0x004004
/-- HB_EVR_Q_BASE_HI: Ring base bits [63:32] (RW). -/
abbrev HB_EVR_Q_BASE_HI : Nat := 0x004008
/-- HB_EVR_Q_SIZE: Ring size (RW). -/
abbrev HB_EVR_Q_SIZE : Nat := 0x00400C
/-- HB_EVR_Q_PROD: Next entry the device writes (RO). -/
abbrev HB_EVR_Q_PROD : Nat := 0x004010
/-- HB_EVR_Q_CONS: Next entry the host reads (RW). -/
abbrev HB_EVR_Q_CONS : Nat := 0x004014
/-- HB_EVR_PEND0-HB_EVR_PEND31: Bit b: source 32w + b pending (W1C). -/
abbrev HB_EVR_PEND (i : Nat) : Nat := 0x004100 + 4 * i
/-- HB_EVR_MASK0-HB_EVR_MASK31: Bit b: source 32w + b masked for this domain (RW). -/
abbrev HB_EVR_MASK (i : Nat) : Nat := 0x004200 + 4 * i
/-- HB_EVR_ROUTE0-HB_EVR_ROUTE1023: Route of source s (RW). -/
abbrev HB_EVR_ROUTE (i : Nat) : Nat := 0x005000 + 4 * i
/-- HB_SNAP_CTL: Take and ready (RW). -/
abbrev HB_SNAP_CTL : Nat := 0x006000
/-- HB_SNAP_CYCLE_LO: Cycle number (RO). -/
abbrev HB_SNAP_CYCLE_LO : Nat := 0x006004
/-- HB_SNAP_CYCLE_HI: Cycle number (RO). -/
abbrev HB_SNAP_CYCLE_HI : Nat := 0x006008
/-- HB_SNAP_STAMP_LO: Town-clock time of the boundary (RO). -/
abbrev HB_SNAP_STAMP_LO : Nat := 0x00600C
/-- HB_SNAP_STAMP_HI: Town-clock time of the boundary (RO). -/
abbrev HB_SNAP_STAMP_HI : Nat := 0x006010
/-- HB_SNAP_JSEQ_LO: Last journal entry included (RO). -/
abbrev HB_SNAP_JSEQ_LO : Nat := 0x006014
/-- HB_SNAP_JSEQ_HI: Last journal entry included (RO). -/
abbrev HB_SNAP_JSEQ_HI : Nat := 0x006018
/-- HB_SNAP_STATE: Device state, modes and lease (RO). -/
abbrev HB_SNAP_STATE : Nat := 0x00601C
/-- HB_SNAP_EPOCH: Lease epoch (RO). -/
abbrev HB_SNAP_EPOCH : Nat := 0x006020
/-- HB_SNAP_STRUCT: Structure epoch (RO). -/
abbrev HB_SNAP_STRUCT : Nat := 0x006024
/-- HB_SNAP_SEC0-HB_SNAP_SEC255: States of sections 8w to 8w + 7, coded as HB_SEC_STATE (RO). -/
abbrev HB_SNAP_SEC (i : Nat) : Nat := 0x006100 + 4 * i
/-- HB_LNK_STATUS: Link or session state of this domain (RO). -/
abbrev HB_LNK_STATUS : Nat := 0x007000
/-- HB_LNK_EVT: Link events (W1C). -/
abbrev HB_LNK_EVT : Nat := 0x007004
/-- HB_LNK_ID: DEVICE_ID (RO). -/
abbrev HB_LNK_ID : Nat := 0x007008
/-- HB_LNK_SAFE_ID: Fold word of R384 (RO). -/
abbrev HB_LNK_SAFE_ID : Nat := 0x00700C
/-- HB_LNK_TLG_CFG: Telegram divider (RO). -/
abbrev HB_LNK_TLG_CFG : Nat := 0x007010
/-- HB_LNK_TSEQ: Last TSEQ formed for this domain (RO). -/
abbrev HB_LNK_TSEQ : Nat := 0x007014
/-- HB_LNK_CMDQ_BASE_LO: Command ring base (RW). -/
abbrev HB_LNK_CMDQ_BASE_LO : Nat := 0x007020
/-- HB_LNK_CMDQ_BASE_HI: Command ring base (RW). -/
abbrev HB_LNK_CMDQ_BASE_HI : Nat := 0x007024
/-- HB_LNK_CMDQ_SIZE: Command ring entries (RW). -/
abbrev HB_LNK_CMDQ_SIZE : Nat := 0x007028
/-- HB_LNK_CMDQ_PROD: Doorbell; fetch index (RW). -/
abbrev HB_LNK_CMDQ_PROD : Nat := 0x00702C
/-- HB_LNK_CMDQ_CONS: Doorbell; fetch index (RO). -/
abbrev HB_LNK_CMDQ_CONS : Nat := 0x007030
/-- HB_LNK_RSPQ_BASE_LO: Response ring base (RW). -/
abbrev HB_LNK_RSPQ_BASE_LO : Nat := 0x007040
/-- HB_LNK_RSPQ_BASE_HI: Response ring base (RW). -/
abbrev HB_LNK_RSPQ_BASE_HI : Nat := 0x007044
/-- HB_LNK_RSPQ_SIZE: Response ring entries (RW). -/
abbrev HB_LNK_RSPQ_SIZE : Nat := 0x007048
/-- HB_LNK_RSPQ_PROD: Device write index; host read index (RO). -/
abbrev HB_LNK_RSPQ_PROD : Nat := 0x00704C
/-- HB_LNK_RSPQ_CONS: Device write index; host read index (RW). -/
abbrev HB_LNK_RSPQ_CONS : Nat := 0x007050
/-- HB_LNK_TLGQ_BASE_LO: Telegram ring base (RW). -/
abbrev HB_LNK_TLGQ_BASE_LO : Nat := 0x007060
/-- HB_LNK_TLGQ_BASE_HI: Telegram ring base (RW). -/
abbrev HB_LNK_TLGQ_BASE_HI : Nat := 0x007064
/-- HB_LNK_TLGQ_SIZE: Telegram ring slots (RW). -/
abbrev HB_LNK_TLGQ_SIZE : Nat := 0x007068
/-- HB_LNK_TLGQ_LAST: TSEQ of the last complete telegram (RO). -/
abbrev HB_LNK_TLGQ_LAST : Nat := 0x00706C
/-- HB_LNK_MBOX0-HB_LNK_MBOX15: Command record, bytes 4w to 4w + 3 (RW). -/
abbrev HB_LNK_MBOX (i : Nat) : Nat := 0x007080 + 4 * i
/-- HB_LNK_MBOX_CTL: Submit and state (RW). -/
abbrev HB_LNK_MBOX_CTL : Nat := 0x0070C0
/-- HB_LNK_MRSP0-HB_LNK_MRSP7: Response, bytes 4w to 4w + 3 (RO). -/
abbrev HB_LNK_MRSP (i : Nat) : Nat := 0x0070C4 + 4 * i
/-- HB_NET_CFGp: Port p settings, p = 0 or 1 (RO). -/
abbrev HB_NET_CFG (i : Nat) : Nat := 0x008000 + 64 * i
/-- HB_NET_MAC_LOp: MAC address (RO). -/
abbrev HB_NET_MAC_LO (i : Nat) : Nat := 0x008004 + 64 * i
/-- HB_NET_MAC_HIp: MAC address (RO). -/
abbrev HB_NET_MAC_HI (i : Nat) : Nat := 0x008008 + 64 * i
/-- HB_NET_V4p: IPv4 address (RO). -/
abbrev HB_NET_V4 (i : Nat) : Nat := 0x00800C + 64 * i
/-- HB_NET_V6p_0: IPv6 address, most significant word first (RO). -/
abbrev HB_NET_V6_0 (i : Nat) : Nat := 0x008010 + 64 * i
/-- HB_NET_V6p_1: IPv6 address, most significant word first (RO). -/
abbrev HB_NET_V6_1 (i : Nat) : Nat := 0x008014 + 64 * i
/-- HB_NET_V6p_2: IPv6 address, most significant word first (RO). -/
abbrev HB_NET_V6_2 (i : Nat) : Nat := 0x008018 + 64 * i
/-- HB_NET_V6p_3: IPv6 address, most significant word first (RO). -/
abbrev HB_NET_V6_3 (i : Nat) : Nat := 0x00801C + 64 * i
/-- HB_NET_STATp: Port state (RO). -/
abbrev HB_NET_STAT (i : Nat) : Nat := 0x008020 + 64 * i
/-- HB_NET_DROPp: Datagrams discarded (RC). -/
abbrev HB_NET_DROP (i : Nat) : Nat := 0x008024 + 64 * i
/-- HB_NET_LOCAL: Local UDP port and DSCP (RO). -/
abbrev HB_NET_LOCAL : Nat := 0x008080
/-- HB_NET_EVT: Network events (W1C). -/
abbrev HB_NET_EVT : Nat := 0x008084
/-- HB_NET_BINDd: Binding of HDd, d = 2 to 6 (RO). -/
abbrev HB_NET_BIND (i : Nat) : Nat := 0x008100 + 64 * i
/-- HB_NET_PEER_V4d: Peer IPv4 address (RO). -/
abbrev HB_NET_PEER_V4 (i : Nat) : Nat := 0x008104 + 64 * i
/-- HB_NET_PEER_V6d_0: Peer IPv6 address (RO). -/
abbrev HB_NET_PEER_V6_0 (i : Nat) : Nat := 0x008108 + 64 * i
/-- HB_NET_PEER_V6d_1: Peer IPv6 address (RO). -/
abbrev HB_NET_PEER_V6_1 (i : Nat) : Nat := 0x00810C + 64 * i
/-- HB_NET_PEER_V6d_2: Peer IPv6 address (RO). -/
abbrev HB_NET_PEER_V6_2 (i : Nat) : Nat := 0x008110 + 64 * i
/-- HB_NET_PEER_V6d_3: Peer IPv6 address (RO). -/
abbrev HB_NET_PEER_V6_3 (i : Nat) : Nat := 0x008114 + 64 * i
/-- HB_NET_SESSd: Current session number; 0 when closed (RO). -/
abbrev HB_NET_SESS (i : Nat) : Nat := 0x008118 + 64 * i
/-- HB_NET_SAGEd: Session state and age (RO). -/
abbrev HB_NET_SAGE (i : Nat) : Nat := 0x00811C + 64 * i
/-- HB_STR_STATUS: Staging state, owner, slots, last outcome (RO). -/
abbrev HB_STR_STATUS : Nat := 0x009000
/-- HB_STR_EVT: Structure events (W1C). -/
abbrev HB_STR_EVT : Nat := 0x009004
/-- HB_STR_EPOCH: Live structure epoch (RO). -/
abbrev HB_STR_EPOCH : Nat := 0x009008
/-- HB_STR_EPOCH_MAX: Highest epoch committed (RO). -/
abbrev HB_STR_EPOCH_MAX : Nat := 0x00900C
/-- HB_STR_ERROR: Last failure (RO). -/
abbrev HB_STR_ERROR : Nat := 0x009010
/-- HB_STR_ERR_FRAME: FSEQ of the failing frame (RO). -/
abbrev HB_STR_ERR_FRAME : Nat := 0x009014
/-- HB_STR_STAGE_PAGE: Aperture page (RW). -/
abbrev HB_STR_STAGE_PAGE : Nat := 0x009018
/-- HB_STR_DIFF: Differing frames (RO). -/
abbrev HB_STR_DIFF : Nat := 0x00901C
/-- HB_STR_UNITS: Differing ports and host unit (RO). -/
abbrev HB_STR_UNITS : Nat := 0x009020
/-- HB_STR_UNIT_WIN_LO: Bit w: window w (LO 0-31, HI 32-63) differs (RO). -/
abbrev HB_STR_UNIT_WIN_LO : Nat := 0x009024
/-- HB_STR_UNIT_WIN_HI: Bit w: window w (LO 0-31, HI 32-63) differs (RO). -/
abbrev HB_STR_UNIT_WIN_HI : Nat := 0x009028
/-- HB_STR_UNIT_BLK0-HB_STR_UNIT_BLK3: Bit b of word n: lane group b of AQn differs (RO). -/
abbrev HB_STR_UNIT_BLK (i : Nat) : Nat := 0x00902C + 4 * i
/-- HB_STR_LOG: Change-log fill (RO). -/
abbrev HB_STR_LOG : Nat := 0x00903C
/-- HB_STR_KEYS: Key fuse slots (RO). -/
abbrev HB_STR_KEYS : Nat := 0x009040
/-- HB_STR_PWD: Safety password lockout (RO). -/
abbrev HB_STR_PWD : Nat := 0x009044
/-- HB_STR_GEN_A: Generation word of slot A, B (RO). -/
abbrev HB_STR_GEN_A : Nat := 0x009048
/-- HB_STR_GEN_B: Generation word of slot A, B (RO). -/
abbrev HB_STR_GEN_B : Nat := 0x00904C
/-- HB_STR_DIGEST0-HB_STR_DIGEST7: DIGEST of the live base image, bytes 4w to 4w + 3 (RO). -/
abbrev HB_STR_DIGEST (i : Nat) : Nat := 0x009060 + 4 * i
/-- HB_STR_AFFECT0-HB_STR_AFFECT63: Bit i of word w: section 32w + i affected (RO). -/
abbrev HB_STR_AFFECT (i : Nat) : Nat := 0x009100 + 4 * i
/-- HB_NV_STATUS: Power-loss and bank state (RO). -/
abbrev HB_NV_STATUS : Nat := 0x00A000
/-- HB_NV_EVT: NV events (W1C). -/
abbrev HB_NV_EVT : Nat := 0x00A004
/-- HB_NV_WP_REJ: Last rejected WP write of this master (RO). -/
abbrev HB_NV_WP_REJ : Nat := 0x00A008
/-- HB_NV_WP_SEL: Record for readback (RW). -/
abbrev HB_NV_WP_SEL : Nat := 0x00A00C
/-- HB_NV_WP_INFO: Tokens and slot of the selected record (RO). -/
abbrev HB_NV_WP_INFO : Nat := 0x00A010
/-- HB_NV_WEAR_LO: WEAR of the selected record (RO). -/
abbrev HB_NV_WEAR_LO : Nat := 0x00A014
/-- HB_NV_WEAR_HI: WEAR of the selected record (RO). -/
abbrev HB_NV_WEAR_HI : Nat := 0x00A018
/-- HB_NV_PWR: Power-loss counts (RO). -/
abbrev HB_NV_PWR : Nat := 0x00A01C
/-- HB_NV_CAL_GEN_A: GEN of banks A and B (RO). -/
abbrev HB_NV_CAL_GEN_A : Nat := 0x00A020
/-- HB_NV_CAL_GEN_B: GEN of banks A and B (RO). -/
abbrev HB_NV_CAL_GEN_B : Nat := 0x00A024
/-- HB_JNL_HEAD_LO: SEQ of the newest entry (RO). -/
abbrev HB_JNL_HEAD_LO : Nat := 0x00B000
/-- HB_JNL_HEAD_HI: SEQ of the newest entry (RO). -/
abbrev HB_JNL_HEAD_HI : Nat := 0x00B004
/-- HB_JNL_TAIL_LO: SEQ of the oldest entry held (RO). -/
abbrev HB_JNL_TAIL_LO : Nat := 0x00B008
/-- HB_JNL_TAIL_HI: SEQ of the oldest entry held (RO). -/
abbrev HB_JNL_TAIL_HI : Nat := 0x00B00C
/-- HB_JNL_CURSOR_LO: Cursor of this master (RW). -/
abbrev HB_JNL_CURSOR_LO : Nat := 0x00B010
/-- HB_JNL_CURSOR_HI: Cursor of this master (RW). -/
abbrev HB_JNL_CURSOR_HI : Nat := 0x00B014
/-- HB_JNL_RSTATUS: Result of the last ENTRY0 read (RO). -/
abbrev HB_JNL_RSTATUS : Nat := 0x00B018
/-- HB_JNL_EVT: Journal events (W1C). -/
abbrev HB_JNL_EVT : Nat := 0x00B01C
/-- HB_JNL_ENTRY0-HB_JNL_ENTRY7: Bytes 4w to 4w + 3 of the buffered entry (RO). -/
abbrev HB_JNL_ENTRY (i : Nat) : Nat := 0x00B020 + 4 * i
/-- HB_CLG_FIRST_LO: SEQ of the oldest entry held (RO). -/
abbrev HB_CLG_FIRST_LO : Nat := 0x00C000
/-- HB_CLG_FIRST_HI: SEQ of the oldest entry held (RO). -/
abbrev HB_CLG_FIRST_HI : Nat := 0x00C004
/-- HB_CLG_LAST_LO: SEQ of the newest entry (RO). -/
abbrev HB_CLG_LAST_LO : Nat := 0x00C008
/-- HB_CLG_LAST_HI: SEQ of the newest entry (RO). -/
abbrev HB_CLG_LAST_HI : Nat := 0x00C00C
/-- HB_CLG_CURSOR_LO: Cursor of this master (RW). -/
abbrev HB_CLG_CURSOR_LO : Nat := 0x00C010
/-- HB_CLG_CURSOR_HI: Cursor of this master (RW). -/
abbrev HB_CLG_CURSOR_HI : Nat := 0x00C014
/-- HB_CLG_RSTATUS: As HB_JNL_RSTATUS (RO). -/
abbrev HB_CLG_RSTATUS : Nat := 0x00C018
/-- HB_CLG_EVT: Change-log events (W1C). -/
abbrev HB_CLG_EVT : Nat := 0x00C01C
/-- HB_CLG_ANCHOR0-HB_CLG_ANCHOR7: Anchor CHAIN, bytes 4w to 4w + 3 (RO). -/
abbrev HB_CLG_ANCHOR (i : Nat) : Nat := 0x00C020 + 4 * i
/-- HB_CLG_ENTRY0-HB_CLG_ENTRY31: Bytes 4w to 4w + 3 of the buffered entry (RO). -/
abbrev HB_CLG_ENTRY (i : Nat) : Nat := 0x00C080 + 4 * i
/-- HB_DMA_ENG: Owner and activity (RO). -/
abbrev HB_DMA_ENG (e : Nat) : Nat := 0x300000 + 0x1000 * e
/-- HB_DMA_DBELL: Doorbell (WO). -/
abbrev HB_DMA_DBELL (e : Nat) : Nat := 0x300004 + 0x1000 * e
/-- HB_DMA_ABORT: Abort (WO). -/
abbrev HB_DMA_ABORT (e : Nat) : Nat := 0x300008 + 0x1000 * e
/-- HB_DMA_QUEUE: Queued channels (RO). -/
abbrev HB_DMA_QUEUE (e : Nat) : Nat := 0x30000C + 0x1000 * e
/-- HB_DMA_EVT: Engine events (W1C). -/
abbrev HB_DMA_EVT (e : Nat) : Nat := 0x300010 + 0x1000 * e
/-- HB_DMA_CHc_CFG: Check-value preset, retries, interrupt (RW). -/
abbrev HB_DMA_CH_CFG (e : Nat) (i : Nat) : Nat := 0x300100 + 0x1000 * e + 32 * i
/-- HB_DMA_CHc_PROG_LO: Program address bits [31:4] (RW). -/
abbrev HB_DMA_CH_PROG_LO (e : Nat) (i : Nat) : Nat := 0x300104 + 0x1000 * e + 32 * i
/-- HB_DMA_CHc_PROG_HI: Program address bits [47:32] (RW). -/
abbrev HB_DMA_CH_PROG_HI (e : Nat) (i : Nat) : Nat := 0x300108 + 0x1000 * e + 32 * i
/-- HB_DMA_CHc_BUDGET: Instruction budget (RW). -/
abbrev HB_DMA_CH_BUDGET (e : Nat) (i : Nat) : Nat := 0x30010C + 0x1000 * e + 32 * i
/-- HB_DMA_CHc_STAT: Channel state and last result (RO). -/
abbrev HB_DMA_CH_STAT (e : Nat) (i : Nat) : Nat := 0x300110 + 0x1000 * e + 32 * i
/-- HB_DMA_CHc_EXEC: Instructions executed in the current or last run (RO). -/
abbrev HB_DMA_CH_EXEC (e : Nat) (i : Nat) : Nat := 0x300114 + 0x1000 * e + 32 * i
/-- HB_DMA_CHc_PROGS: Programs and current program (RO). -/
abbrev HB_DMA_CH_PROGS (e : Nat) (i : Nat) : Nat := 0x300118 + 0x1000 * e + 32 * i
/-- HB_DMA_CHc_SIGVAL: Last SIGNAL value (RO). -/
abbrev HB_DMA_CH_SIGVAL (e : Nat) (i : Nat) : Nat := 0x30011C + 0x1000 * e + 32 * i
/-- HB_CVU_EVT: Unit events (W1C). -/
abbrev HB_CVU_EVT : Nat := 0x012000
/-- HB_CVU_CTLu: Control of unit u (RW). -/
abbrev HB_CVU_CTL (i : Nat) : Nat := 0x012100 + 64 * i
/-- HB_CVU_POLY_LOu: POLY bits [31:0], [63:32] (RW). -/
abbrev HB_CVU_POLY_LO (i : Nat) : Nat := 0x012104 + 64 * i
/-- HB_CVU_POLY_HIu: POLY bits [31:0], [63:32] (RW). -/
abbrev HB_CVU_POLY_HI (i : Nat) : Nat := 0x012108 + 64 * i
/-- HB_CVU_INIT_LOu: INIT (RW). -/
abbrev HB_CVU_INIT_LO (i : Nat) : Nat := 0x01210C + 64 * i
/-- HB_CVU_INIT_HIu: INIT (RW). -/
abbrev HB_CVU_INIT_HI (i : Nat) : Nat := 0x012110 + 64 * i
/-- HB_CVU_XOR_LOu: XOROUT (RW). -/
abbrev HB_CVU_XOR_LO (i : Nat) : Nat := 0x012114 + 64 * i
/-- HB_CVU_XOR_HIu: XOROUT (RW). -/
abbrev HB_CVU_XOR_HI (i : Nat) : Nat := 0x012118 + 64 * i
/-- HB_CVU_EXPECT_LOu: EXPECT, block mode (RW). -/
abbrev HB_CVU_EXPECT_LO (i : Nat) : Nat := 0x01211C + 64 * i
/-- HB_CVU_EXPECT_HIu: EXPECT, block mode (RW). -/
abbrev HB_CVU_EXPECT_HI (i : Nat) : Nat := 0x012120 + 64 * i
/-- HB_CVU_START_LOu: START, global address bits [31:0], [47:32] (RW). -/
abbrev HB_CVU_START_LO (i : Nat) : Nat := 0x012124 + 64 * i
/-- HB_CVU_START_HIu: START, global address bits [31:0], [47:32] (RW). -/
abbrev HB_CVU_START_HI (i : Nat) : Nat := 0x012128 + 64 * i
/-- HB_CVU_LENGTHu: LENGTH, bytes (RW). -/
abbrev HB_CVU_LENGTH (i : Nat) : Nat := 0x01212C + 64 * i
/-- HB_CVU_RECu: Record layout (RW). -/
abbrev HB_CVU_REC (i : Nat) : Nat := 0x012130 + 64 * i
/-- HB_CVU_FOLD_ADDu: FOLD_ADD (RW). -/
abbrev HB_CVU_FOLD_ADD (i : Nat) : Nat := 0x012134 + 64 * i
/-- HB_CVU_RESULT_LOu: Last value computed (RO). -/
abbrev HB_CVU_RESULT_LO (i : Nat) : Nat := 0x012138 + 64 * i
/-- HB_CVU_RESULT_HIu: Last value computed (RO). -/
abbrev HB_CVU_RESULT_HI (i : Nat) : Nat := 0x01213C + 64 * i
/-- HB_CVU_STATu: State and last outcome (RO). -/
abbrev HB_CVU_STAT (i : Nat) : Nat := 0x012800 + 16 * i
/-- HB_CVU_COUNTu: Mismatches and repairs (RC). -/
abbrev HB_CVU_COUNT (i : Nat) : Nat := 0x012804 + 16 * i
/-- HB_CVU_BAD_LOu: Address of the first mismatch of the last pass (RO). -/
abbrev HB_CVU_BAD_LO (i : Nat) : Nat := 0x012808 + 16 * i
/-- HB_CVU_BAD_HIu: Address of the first mismatch of the last pass (RO). -/
abbrev HB_CVU_BAD_HI (i : Nat) : Nat := 0x01280C + 16 * i
/-- AQn_CAL_CTL: Enable, interval, round length (RW). -/
abbrev AQ_CAL_CTL (n : Nat) : Nat := 0x106000 + 0x40000 * n
/-- AQn_CAL_STATUS: Round and default state (RO). -/
abbrev AQ_CAL_STATUS (n : Nat) : Nat := 0x106004 + 0x40000 * n
/-- AQn_CAL_EVT: Calibration events (W1C). -/
abbrev AQ_CAL_EVT (n : Nat) : Nat := 0x106008 + 0x40000 * n
/-- AQn_CAL_ROUND: Outcome of the last round (RO). -/
abbrev AQ_CAL_ROUND (n : Nat) : Nat := 0x10600C + 0x40000 * n
/-- AQn_CAL_LIM0-AQn_CAL_LIM3: Plausibility limits (RO). -/
abbrev AQ_CAL_LIM (n : Nat) (i : Nat) : Nat := 0x106010 + 0x40000 * n + 4 * i
/-- AQn_CAL_ACQ: Acquisition and darkness settings (RO). -/
abbrev AQ_CAL_ACQ (n : Nat) : Nat := 0x106020 + 0x40000 * n
/-- AQn_CAL_NG: Guard noise floor (RO). -/
abbrev AQ_CAL_NG (n : Nat) : Nat := 0x106024 + 0x40000 * n
/-- AQn_CAL_DARK_LO: Bit k: tone k (LO 0-31, HI 32-63) not dark (RO). -/
abbrev AQ_CAL_DARK_LO (n : Nat) : Nat := 0x106028 + 0x40000 * n
/-- AQn_CAL_DARK_HI: Bit k: tone k (LO 0-31, HI 32-63) not dark (RO). -/
abbrev AQ_CAL_DARK_HI (n : Nat) : Nat := 0x10602C + 0x40000 * n
/-- AQn_CAL_MOD: Modulator IQ in force (RO). -/
abbrev AQ_CAL_MOD (n : Nat) : Nat := 0x106030 + 0x40000 * n
/-- AQn_CAL_TONE_SEL: Tone for readback (RW). -/
abbrev AQ_CAL_TONE_SEL (n : Nat) : Nat := 0x106034 + 0x40000 * n
/-- AQn_CAL_TONE: Trims of the selected tone (RO). -/
abbrev AQ_CAL_TONE (n : Nat) : Nat := 0x106038 + 0x40000 * n
/-- AQn_CAL_FORCED: Indices forced at the last re-acquisition (RO). -/
abbrev AQ_CAL_FORCED (n : Nat) : Nat := 0x10603C + 0x40000 * n
/-- AQn_CAL_THM_REF: THM_REF (RW). -/
abbrev AQ_CAL_THM_REF (n : Nat) : Nat := 0x106040 + 0x40000 * n
/-- AQn_CAL_THM_A-AQn_CAL_THM_C: A, B, C, IEEE 754 single (RW). -/
abbrev AQ_CAL_THM_A (n : Nat) (i : Nat) : Nat := 0x106044 + 0x40000 * n + 4 * i
/-- AQn_CAL_PID_KP_F, _KI_F, _KD_F, _KP_C, _KI_C, _KD_C: Gains, IEEE 754 single (RW). -/
abbrev AQ_CAL_PID (n : Nat) (i : Nat) : Nat := 0x106050 + 0x40000 * n + 4 * i
/-- AQn_CAL_PID_SCHED: BAND and SLEW (RW). -/
abbrev AQ_CAL_PID_SCHED (n : Nat) : Nat := 0x106068 + 0x40000 * n
/-- AQn_CAL_LOOP: Loop state (RO). -/
abbrev AQ_CAL_LOOP (n : Nat) : Nat := 0x10606C + 0x40000 * n
/-- FD_CAL_CFG: Interval and limits (RO). -/
abbrev FD_CAL_CFG : Nat := 0x207000
/-- FD_CAL_STATUS: Hold state (RO). -/
abbrev FD_CAL_STATUS : Nat := 0x207004
/-- FD_CAL_EVT: Calibration events (W1C). -/
abbrev FD_CAL_EVT : Nat := 0x207008
/-- FD_CAL_SEL: Channel for readback (RW). -/
abbrev FD_CAL_SEL : Nat := 0x20700C
/-- FD_CAL_TRIM: Trim of the selected channel (RO). -/
abbrev FD_CAL_TRIM : Nat := 0x207010
/-- HB_PNL_CTL: Enable, brightness, lamp test (RW). -/
abbrev HB_PNL_CTL : Nat := 0x013000
/-- HB_PNL_STATUS: NTC and derating (RO). -/
abbrev HB_PNL_STATUS : Nat := 0x013004
/-- HB_PNL_EVT: Panel events (W1C). -/
abbrev HB_PNL_EVT : Nat := 0x013008
/-- HB_PNL_DERATE: D0, D1, FLOOR (RW). -/
abbrev HB_PNL_DERATE : Nat := 0x01300C
/-- HB_PNL_CHAIN_CFG: Chain length and timing (RW). -/
abbrev HB_PNL_CHAIN_CFG : Nat := 0x013010
/-- HB_PNL_GAMMA0-HB_PNL_GAMMA63: GAMMA[v] (RW). -/
abbrev HB_PNL_GAMMA (i : Nat) : Nat := 0x013100 + 4 * i
/-- HB_PNL_OPEN0-HB_PNL_OPEN15: Bit c: LED (r, c) open (RO). -/
abbrev HB_PNL_OPEN (i : Nat) : Nat := 0x013200 + 4 * i
/-- HB_PNL_PIX: Pixels 4w to 4w + 3 of row r, w = 0 to 7 (RW). -/
abbrev HB_PNL_PIX (i : Nat) : Nat := 0x013400 + 4 * i
/-- HB_PNL_CHAIN0-HB_PNL_CHAIN63: Share of module m (RW). -/
abbrev HB_PNL_CHAIN (i : Nat) : Nat := 0x013800 + 4 * i
/-- HB_BOOT_STATUS: Boot stage and outcome (RO). -/
abbrev HB_BOOT_STATUS : Nat := 0x020000
/-- HB_BOOT_EVT: Boot events (W1C). -/
abbrev HB_BOOT_EVT : Nat := 0x020004
/-- HB_BOOT_RESET: Last reset cause and counts (RO). -/
abbrev HB_BOOT_RESET : Nat := 0x020008
/-- HB_BOOT_TIME: Time to boot complete (RO). -/
abbrev HB_BOOT_TIME : Nat := 0x02000C
/-- HB_BOOT_FUSE: Fuse and setting state (RO). -/
abbrev HB_BOOT_FUSE : Nat := 0x020010
/-- HB_BOOT_UID_LO: Device number (RO). -/
abbrev HB_BOOT_UID_LO : Nat := 0x020014
/-- HB_BOOT_UID_HI: Device number (RO). -/
abbrev HB_BOOT_UID_HI : Nat := 0x020018
/-- HB_BOOT_RCV_CTL: Recovery page and start (RW). -/
abbrev HB_BOOT_RCV_CTL : Nat := 0x02001C
/-- HB_BOOT_RCV: 64 KiB recovery aperture (RW). -/
abbrev HB_BOOT_RCV (i : Nat) : Nat := 0x030000 + 4 * i

end Sys2Proof.Machine.Reg
end

