-- ==== Sys2Proof/Machine/RegMap.lean ====
section
/-!
DEFINITION. The register map: for every block of R543 its base, its extent and the registers its chapter lists, each with its
access code (R9) and its value after reset (R12: a dash is 0 until the value has been loaded).
-/
namespace Sys2Proof.Machine

/-- The access codes of R9. -/
inductive Access where
  | rw | ro | wo | w1c | rc | wp
deriving DecidableEq, Repr

/-- One line of a register table: `count` registers `stride` bytes apart from `off`, all with one access code and reset value. -/
structure RegRow where
  off    : Nat
  stride : Nat
  count  : Nat
  access : Access
  reset  : Word
deriving DecidableEq, Repr

/-- The register blocks of R543. -/
inductive Block where
  | tc | saf | hst | lease | evr | snap | lnk | net | str | nv | jnl | clg | cpt | sec | frm | tpr | acw | cvu | pnl | boot
  | ofe | psy | dmd | lbq | cal | wsd
  | cmb | wsc | adc | fsi | vo | brk | rst | fdcal
  | dma
deriving DecidableEq, Repr

/-- The registers each block lists, in its own offsets. -/
def Block.rows : Block → List RegRow
  | .tc => [
      ⟨0x0, 0, 1, .ro, 0x0⟩,
      ⟨0x4, 0, 1, .ro, 0x0⟩,
      ⟨0x8, 0, 1, .rw, 0x0⟩,
      ⟨0xC, 0, 1, .ro, 0x0⟩,
      ⟨0x10, 0, 1, .ro, 0x0⟩,
      ⟨0x14, 0, 1, .ro, 0x0⟩,
      ⟨0x18, 0, 1, .rw, 0x0⟩,
      ⟨0x1C, 0, 1, .rw, 0x0⟩,
      ⟨0x20, 0, 1, .rw, 0x0⟩,
      ⟨0x24, 0, 1, .rw, 0x0⟩,
      ⟨0x28, 0, 1, .rw, 0x0⟩,
      ⟨0x2C, 0, 1, .ro, 0x0⟩,
      ⟨0x30, 0, 1, .ro, 0x0⟩,
      ⟨0x34, 0, 1, .w1c, 0x0⟩,
      ⟨0x38, 0, 1, .ro, 0x0⟩]
  | .ofe => [
      ⟨0x0, 0, 1, .rw, 0x0⟩,
      ⟨0x4, 0, 1, .ro, 0x0⟩,
      ⟨0x8, 0, 1, .w1c, 0x0⟩,
      ⟨0xC, 0, 1, .ro, 0x0⟩,
      ⟨0x10, 0, 1, .rw, 0x0⟩,
      ⟨0x14, 0, 1, .rc, 0x0⟩,
      ⟨0x18, 0, 1, .rc, 0x0⟩,
      ⟨0x1C, 0, 1, .rw, 0xA0⟩,
      ⟨0x20, 0, 1, .wp, 0x0⟩,
      ⟨0x24, 0, 1, .wp, 0x0⟩,
      ⟨0x28, 0, 1, .ro, 0x0⟩,
      ⟨0x2C, 0, 1, .ro, 0x0⟩,
      ⟨0x30, 0, 1, .ro, 0x0⟩,
      ⟨0x34, 0, 1, .rw, 0x0⟩]
  | .psy => [
      ⟨0x0, 0, 1, .rw, 0x0⟩,
      ⟨0x4, 0, 1, .rw, 0x0⟩,
      ⟨0x8, 0, 1, .rw, 0x0⟩,
      ⟨0xC, 0, 1, .rw, 0x0⟩,
      ⟨0x10, 0, 1, .rw, 0x0⟩,
      ⟨0x14, 0, 1, .rw, 0x0⟩,
      ⟨0x18, 0, 1, .rw, 0x0⟩,
      ⟨0x1C, 0, 1, .wo, 0x0⟩,
      ⟨0x20, 0, 1, .ro, 0x0⟩,
      ⟨0x24, 0, 1, .w1c, 0x0⟩,
      ⟨0x28, 0, 1, .ro, 0x0⟩,
      ⟨0x2C, 0, 1, .ro, 0x0⟩,
      ⟨0x30, 0, 1, .ro, 0x0⟩,
      ⟨0x34, 0, 1, .ro, 0x0⟩,
      ⟨0x38, 0, 1, .ro, 0x0⟩,
      ⟨0x3C, 0, 1, .ro, 0x0⟩]
  | .dmd => [
      ⟨0x0, 0, 1, .rw, 0x0⟩,
      ⟨0x4, 0, 1, .ro, 0x0⟩,
      ⟨0x8, 0, 1, .w1c, 0x0⟩,
      ⟨0xC, 0, 1, .ro, 0x0⟩,
      ⟨0x10, 0, 1, .ro, 0x40004000⟩,
      ⟨0x14, 0, 1, .ro, 0x40004000⟩,
      ⟨0x18, 0, 1, .ro, 0x0⟩,
      ⟨0x1C, 0, 1, .ro, 0x40000000⟩,
      ⟨0x20, 0, 1, .ro, 0x40000000⟩,
      ⟨0x24, 0, 1, .ro, 0x0⟩,
      ⟨0x28, 0, 1, .rc, 0x0⟩,
      ⟨0x2C, 0, 1, .rw, 0x0⟩,
      ⟨0x30, 0, 1, .ro, 0x0⟩,
      ⟨0x34, 0, 1, .ro, 0x0⟩,
      ⟨0x40, 0, 1, .rw, 0x0⟩,
      ⟨0x44, 0, 1, .rw, 0x0⟩,
      ⟨0x48, 0, 1, .rw, 0x0⟩,
      ⟨0x4C, 0, 1, .rw, 0x0⟩,
      ⟨0x50, 0, 1, .ro, 0x0⟩,
      ⟨0x54, 0, 1, .ro, 0x0⟩,
      ⟨0x58, 0, 1, .ro, 0x0⟩,
      ⟨0x5C, 0, 1, .w1c, 0x0⟩,
      ⟨0x60, 0, 1, .ro, 0x0⟩,
      ⟨0x64, 0, 1, .rw, 0x0⟩,
      ⟨0x68, 0, 1, .ro, 0x0⟩,
      ⟨0x6C, 0, 1, .ro, 0x0⟩,
      ⟨0x100, 4, 288, .rw, 0x0⟩]
  | .lbq => [
      ⟨0x0, 0, 1, .ro, 0x0⟩,
      ⟨0x4, 0, 1, .w1c, 0x0⟩,
      ⟨0x8, 0, 1, .wo, 0x0⟩,
      ⟨0xC, 0, 1, .ro, 0x0⟩,
      ⟨0x10, 0, 1, .ro, 0x0⟩,
      ⟨0x14, 0, 1, .ro, 0x0⟩,
      ⟨0x18, 0, 1, .ro, 0x0⟩,
      ⟨0x1C, 0, 1, .ro, 0x0⟩,
      ⟨0x20, 0, 1, .ro, 0x0⟩,
      ⟨0x100, 4, 32, .ro, 0x0⟩,
      ⟨0x180, 4, 32, .rc, 0x0⟩,
      ⟨0x400, 4, 288, .ro, 0x0⟩,
      ⟨0x900, 4, 288, .ro, 0x0⟩,
      ⟨0xE00, 4, 288, .ro, 0x0⟩]
  | .wsd => [
      ⟨0x0, 0, 1, .ro, 0x0⟩,
      ⟨0x4, 0, 1, .ro, 0x0⟩,
      ⟨0x8, 0, 1, .ro, 0x0⟩,
      ⟨0xC, 0, 1, .ro, 0x0⟩,
      ⟨0x10, 0, 1, .ro, 0x0⟩,
      ⟨0x14, 0, 1, .w1c, 0x0⟩,
      ⟨0x18, 0, 1, .rc, 0x0⟩,
      ⟨0x1C, 0, 1, .ro, 0x0⟩,
      ⟨0x20, 0, 1, .rw, 0x0⟩,
      ⟨0x24, 4, 8, .ro, 0x0⟩,
      ⟨0x100, 4, 16, .ro, 0x0⟩,
      ⟨0x1000, 4, 512, .ro, 0x0⟩,
      ⟨0x4000, 4, 8192, .ro, 0x0⟩,
      ⟨0xC000, 4, 8192, .ro, 0x0⟩]
  | .cpt => [
      ⟨0x0, 0, 1, .ro, 0x0⟩,
      ⟨0x4, 0, 1, .w1c, 0x0⟩,
      ⟨0x8, 0, 1, .ro, 0x0⟩,
      ⟨0xC, 0, 1, .ro, 0x0⟩,
      ⟨0x10, 0, 1, .ro, 0x0⟩,
      ⟨0x14, 0, 1, .ro, 0x0⟩,
      ⟨0x18, 0, 1, .rw, 0x0⟩,
      ⟨0x1C, 0, 1, .ro, 0x0⟩,
      ⟨0x20, 0, 1, .ro, 0x0⟩,
      ⟨0x24, 0, 1, .ro, 0x0⟩,
      ⟨0x28, 0, 1, .ro, 0x0⟩,
      ⟨0x2C, 0, 1, .ro, 0x0⟩,
      ⟨0x30, 0, 1, .rc, 0x0⟩,
      ⟨0x100, 4, 128, .ro, 0xFFFFFFFF⟩]
  | .sec => [
      ⟨0x0, 0, 1, .ro, 0x0⟩,
      ⟨0x4, 0, 1, .ro, 0x0⟩,
      ⟨0x8, 0, 1, .ro, 0x0⟩,
      ⟨0xC, 0, 1, .w1c, 0x0⟩,
      ⟨0x10, 0, 1, .rw, 0x0⟩,
      ⟨0x14, 0, 1, .ro, 0x0⟩,
      ⟨0x18, 4, 4, .ro, 0x0⟩,
      ⟨0x28, 0, 1, .ro, 0x0⟩,
      ⟨0x2C, 0, 1, .ro, 0x13⟩,
      ⟨0x100, 4, 256, .ro, 0x33333333⟩]
  | .tpr => [
      ⟨0x0, 16, 4, .rw, 0x0⟩,
      ⟨0x4, 16, 4, .rw, 0x0⟩,
      ⟨0x8, 16, 4, .ro, 0x0⟩,
      ⟨0x40, 0, 1, .w1c, 0x0⟩]
  | .acw => [
      ⟨0x0, 0, 1, .ro, 0x0⟩,
      ⟨0x4, 0, 1, .w1c, 0x0⟩,
      ⟨0x8, 0, 1, .rc, 0x0⟩,
      ⟨0x100, 32, 64, .rw, 0x0⟩,
      ⟨0x104, 32, 64, .rw, 0x0⟩,
      ⟨0x108, 32, 64, .rw, 0x0⟩,
      ⟨0x10C, 32, 64, .rw, 0x0⟩,
      ⟨0x110, 32, 64, .rw, 0x0⟩,
      ⟨0x114, 32, 64, .rw, 0x0⟩,
      ⟨0x118, 32, 64, .rw, 0x0⟩,
      ⟨0x11C, 32, 64, .rw, 0x0⟩]
  | .saf => [
      ⟨0x0, 0, 1, .ro, 0x0⟩,
      ⟨0x4, 0, 1, .w1c, 0x0⟩,
      ⟨0x8, 0, 1, .wo, 0x0⟩,
      ⟨0xC, 0, 1, .ro, 0x0⟩,
      ⟨0x10, 0, 1, .ro, 0x0⟩,
      ⟨0x14, 0, 1, .ro, 0x0⟩,
      ⟨0x18, 0, 1, .ro, 0x0⟩,
      ⟨0x1C, 0, 1, .rc, 0x0⟩]
  | .cmb => [
      ⟨0x0, 0, 1, .ro, 0x0⟩,
      ⟨0x4, 0, 1, .w1c, 0x0⟩,
      ⟨0x8, 0, 1, .ro, 0x0⟩,
      ⟨0xC, 0, 1, .ro, 0x0⟩,
      ⟨0x10, 0, 1, .ro, 0x0⟩,
      ⟨0x14, 0, 1, .ro, 0x0⟩,
      ⟨0x18, 0, 1, .rc, 0x0⟩,
      ⟨0x100, 4, 256, .ro, 0x33333333⟩]
  | .wsc => [
      ⟨0x0, 0, 1, .w1c, 0x0⟩,
      ⟨0x4, 0, 1, .ro, 0x0⟩,
      ⟨0x8, 0, 1, .ro, 0x0⟩,
      ⟨0xC, 0, 1, .w1c, 0x0⟩,
      ⟨0x10, 0, 1, .w1c, 0x0⟩,
      ⟨0x14, 0, 1, .ro, 0x0⟩,
      ⟨0x18, 0, 1, .ro, 0x0⟩,
      ⟨0x1C, 0, 1, .ro, 0x0⟩,
      ⟨0x20, 0, 1, .ro, 0x0⟩,
      ⟨0x24, 0, 1, .rw, 0x0⟩,
      ⟨0x28, 0, 1, .ro, 0x0⟩,
      ⟨0x2C, 0, 1, .ro, 0x0⟩,
      ⟨0x100, 16, 64, .ro, 0x0⟩,
      ⟨0x104, 16, 64, .ro, 0x0⟩,
      ⟨0x108, 16, 64, .ro, 0x0⟩,
      ⟨0x10C, 16, 64, .ro, 0x3⟩]
  | .adc => [
      ⟨0x0, 0, 1, .ro, 0x0⟩,
      ⟨0x4, 0, 1, .w1c, 0x0⟩,
      ⟨0x8, 0, 1, .wo, 0x0⟩,
      ⟨0xC, 0, 1, .ro, 0x0⟩,
      ⟨0x10, 0, 1, .ro, 0x0⟩,
      ⟨0x14, 0, 1, .ro, 0x0⟩,
      ⟨0x100, 4, 64, .ro, 0x0⟩,
      ⟨0x200, 4, 64, .ro, 0x0⟩,
      ⟨0x300, 4, 32, .ro, 0x0⟩]
  | .fsi => [
      ⟨0x0, 0, 1, .ro, 0x0⟩,
      ⟨0x4, 0, 1, .ro, 0x0⟩,
      ⟨0x8, 0, 1, .w1c, 0x0⟩]
  | .vo => [
      ⟨0x0, 0, 1, .ro, 0x0⟩,
      ⟨0x4, 0, 1, .ro, 0x0⟩,
      ⟨0x8, 0, 1, .ro, 0xFFFFFFFF⟩,
      ⟨0xC, 0, 1, .w1c, 0x0⟩,
      ⟨0x10, 0, 1, .wo, 0x0⟩,
      ⟨0x14, 0, 1, .ro, 0x0⟩,
      ⟨0x18, 0, 1, .ro, 0x0⟩,
      ⟨0x1C, 0, 1, .ro, 0x0⟩,
      ⟨0x20, 0, 1, .ro, 0x0⟩,
      ⟨0x24, 0, 1, .ro, 0x0⟩,
      ⟨0x28, 0, 1, .rw, 0x0⟩,
      ⟨0x2C, 4, 4, .ro, 0x0⟩,
      ⟨0x100, 16, 32, .ro, 0x0⟩,
      ⟨0x104, 16, 32, .ro, 0x0⟩,
      ⟨0x108, 16, 32, .ro, 0x0⟩,
      ⟨0x10C, 16, 32, .ro, 0x0⟩]
  | .brk => [
      ⟨0x0, 0, 1, .wo, 0x0⟩,
      ⟨0x4, 0, 1, .ro, 0x0⟩,
      ⟨0x8, 0, 1, .ro, 0x0⟩,
      ⟨0xC, 0, 1, .w1c, 0x0⟩,
      ⟨0x10, 0, 1, .ro, 0x0⟩,
      ⟨0x14, 0, 1, .ro, 0x0⟩,
      ⟨0x100, 4, 16, .ro, 0x0⟩]
  | .rst => [
      ⟨0x0, 0, 1, .ro, 0x0⟩,
      ⟨0x4, 0, 1, .ro, 0x0⟩,
      ⟨0x8, 0, 1, .w1c, 0x0⟩,
      ⟨0xC, 0, 1, .rw, 0x0⟩,
      ⟨0x10, 0, 1, .ro, 0x0⟩,
      ⟨0x14, 0, 1, .ro, 0x0⟩,
      ⟨0x18, 0, 1, .ro, 0x0⟩]
  | .frm => [
      ⟨0x0, 0, 1, .ro, 0x0⟩,
      ⟨0x4, 0, 1, .w1c, 0x0⟩,
      ⟨0x8, 0, 1, .rc, 0x0⟩]
  | .hst => [
      ⟨0x0, 0, 1, .ro, 0x0⟩,
      ⟨0x4, 0, 1, .ro, 0x0⟩,
      ⟨0x8, 4, 4, .ro, 0x0⟩,
      ⟨0x18, 0, 1, .ro, 0x0⟩,
      ⟨0x1C, 0, 1, .rw, 0x0⟩,
      ⟨0x20, 4, 4, .ro, 0x0⟩,
      ⟨0x30, 0, 1, .ro, 0x0⟩,
      ⟨0x40, 4, 8, .ro, 0x0⟩,
      ⟨0x60, 4, 8, .ro, 0x0⟩]
  | .lease => [
      ⟨0x0, 0, 1, .ro, 0xE⟩,
      ⟨0x4, 0, 1, .wp, 0x0⟩,
      ⟨0x8, 0, 1, .wo, 0x0⟩,
      ⟨0xC, 0, 1, .ro, 0x0⟩,
      ⟨0x10, 0, 1, .w1c, 0x0⟩]
  | .evr => [
      ⟨0x0, 0, 1, .ro, 0x0⟩,
      ⟨0x4, 0, 1, .rw, 0x0⟩,
      ⟨0x8, 0, 1, .rw, 0x0⟩,
      ⟨0xC, 0, 1, .rw, 0x0⟩,
      ⟨0x10, 0, 1, .ro, 0x0⟩,
      ⟨0x14, 0, 1, .rw, 0x0⟩,
      ⟨0x100, 4, 32, .w1c, 0x0⟩,
      ⟨0x200, 4, 32, .rw, 0x0⟩,
      ⟨0x1000, 4, 1024, .rw, 0x0⟩]
  | .snap => [
      ⟨0x0, 0, 1, .rw, 0x0⟩,
      ⟨0x4, 0, 1, .ro, 0x0⟩,
      ⟨0x8, 0, 1, .ro, 0x0⟩,
      ⟨0xC, 0, 1, .ro, 0x0⟩,
      ⟨0x10, 0, 1, .ro, 0x0⟩,
      ⟨0x14, 0, 1, .ro, 0x0⟩,
      ⟨0x18, 0, 1, .ro, 0x0⟩,
      ⟨0x1C, 0, 1, .ro, 0x0⟩,
      ⟨0x20, 0, 1, .ro, 0x0⟩,
      ⟨0x24, 0, 1, .ro, 0x0⟩,
      ⟨0x100, 4, 256, .ro, 0x0⟩]
  | .lnk => [
      ⟨0x0, 0, 1, .ro, 0x0⟩,
      ⟨0x4, 0, 1, .w1c, 0x0⟩,
      ⟨0x8, 0, 1, .ro, 0x0⟩,
      ⟨0xC, 0, 1, .ro, 0x0⟩,
      ⟨0x10, 0, 1, .ro, 0x0⟩,
      ⟨0x14, 0, 1, .ro, 0x0⟩,
      ⟨0x20, 0, 1, .rw, 0x0⟩,
      ⟨0x24, 0, 1, .rw, 0x0⟩,
      ⟨0x28, 0, 1, .rw, 0x0⟩,
      ⟨0x2C, 0, 1, .rw, 0x0⟩,
      ⟨0x30, 0, 1, .ro, 0x0⟩,
      ⟨0x40, 0, 1, .rw, 0x0⟩,
      ⟨0x44, 0, 1, .rw, 0x0⟩,
      ⟨0x48, 0, 1, .rw, 0x0⟩,
      ⟨0x4C, 0, 1, .ro, 0x0⟩,
      ⟨0x50, 0, 1, .rw, 0x0⟩,
      ⟨0x60, 0, 1, .rw, 0x0⟩,
      ⟨0x64, 0, 1, .rw, 0x0⟩,
      ⟨0x68, 0, 1, .rw, 0x0⟩,
      ⟨0x6C, 0, 1, .ro, 0x0⟩,
      ⟨0x80, 4, 16, .rw, 0x0⟩,
      ⟨0xC0, 0, 1, .rw, 0x0⟩,
      ⟨0xC4, 4, 8, .ro, 0x0⟩]
  | .net => [
      ⟨0x0, 64, 2, .ro, 0x0⟩,
      ⟨0x4, 64, 2, .ro, 0x0⟩,
      ⟨0x8, 64, 2, .ro, 0x0⟩,
      ⟨0xC, 64, 2, .ro, 0x0⟩,
      ⟨0x10, 64, 2, .ro, 0x0⟩,
      ⟨0x14, 64, 2, .ro, 0x0⟩,
      ⟨0x18, 64, 2, .ro, 0x0⟩,
      ⟨0x1C, 64, 2, .ro, 0x0⟩,
      ⟨0x20, 64, 2, .ro, 0x0⟩,
      ⟨0x24, 64, 2, .rc, 0x0⟩,
      ⟨0x80, 0, 1, .ro, 0x0⟩,
      ⟨0x84, 0, 1, .w1c, 0x0⟩,
      ⟨0x100, 64, 5, .ro, 0x0⟩,
      ⟨0x104, 64, 5, .ro, 0x0⟩,
      ⟨0x108, 64, 5, .ro, 0x0⟩,
      ⟨0x10C, 64, 5, .ro, 0x0⟩,
      ⟨0x110, 64, 5, .ro, 0x0⟩,
      ⟨0x114, 64, 5, .ro, 0x0⟩,
      ⟨0x118, 64, 5, .ro, 0x0⟩,
      ⟨0x11C, 64, 5, .ro, 0x0⟩]
  | .str => [
      ⟨0x0, 0, 1, .ro, 0x0⟩,
      ⟨0x4, 0, 1, .w1c, 0x0⟩,
      ⟨0x8, 0, 1, .ro, 0x0⟩,
      ⟨0xC, 0, 1, .ro, 0x0⟩,
      ⟨0x10, 0, 1, .ro, 0x0⟩,
      ⟨0x14, 0, 1, .ro, 0x0⟩,
      ⟨0x18, 0, 1, .rw, 0x0⟩,
      ⟨0x1C, 0, 1, .ro, 0x0⟩,
      ⟨0x20, 0, 1, .ro, 0x0⟩,
      ⟨0x24, 0, 1, .ro, 0x0⟩,
      ⟨0x28, 0, 1, .ro, 0x0⟩,
      ⟨0x2C, 4, 4, .ro, 0x0⟩,
      ⟨0x3C, 0, 1, .ro, 0x0⟩,
      ⟨0x40, 0, 1, .ro, 0x0⟩,
      ⟨0x44, 0, 1, .ro, 0x0⟩,
      ⟨0x48, 0, 1, .ro, 0x0⟩,
      ⟨0x4C, 0, 1, .ro, 0x0⟩,
      ⟨0x60, 4, 8, .ro, 0x0⟩,
      ⟨0x100, 4, 64, .ro, 0x0⟩]
  | .nv => [
      ⟨0x0, 0, 1, .ro, 0x0⟩,
      ⟨0x4, 0, 1, .w1c, 0x0⟩,
      ⟨0x8, 0, 1, .ro, 0x0⟩,
      ⟨0xC, 0, 1, .rw, 0x0⟩,
      ⟨0x10, 0, 1, .ro, 0x0⟩,
      ⟨0x14, 0, 1, .ro, 0x0⟩,
      ⟨0x18, 0, 1, .ro, 0x0⟩,
      ⟨0x1C, 0, 1, .ro, 0x0⟩,
      ⟨0x20, 0, 1, .ro, 0x0⟩,
      ⟨0x24, 0, 1, .ro, 0x0⟩]
  | .jnl => [
      ⟨0x0, 0, 1, .ro, 0x0⟩,
      ⟨0x4, 0, 1, .ro, 0x0⟩,
      ⟨0x8, 0, 1, .ro, 0x0⟩,
      ⟨0xC, 0, 1, .ro, 0x0⟩,
      ⟨0x10, 0, 1, .rw, 0x0⟩,
      ⟨0x14, 0, 1, .rw, 0x0⟩,
      ⟨0x18, 0, 1, .ro, 0x0⟩,
      ⟨0x1C, 0, 1, .w1c, 0x0⟩,
      ⟨0x20, 4, 8, .ro, 0x0⟩]
  | .clg => [
      ⟨0x0, 0, 1, .ro, 0x0⟩,
      ⟨0x4, 0, 1, .ro, 0x0⟩,
      ⟨0x8, 0, 1, .ro, 0x0⟩,
      ⟨0xC, 0, 1, .ro, 0x0⟩,
      ⟨0x10, 0, 1, .rw, 0x0⟩,
      ⟨0x14, 0, 1, .rw, 0x0⟩,
      ⟨0x18, 0, 1, .ro, 0x0⟩,
      ⟨0x1C, 0, 1, .w1c, 0x0⟩,
      ⟨0x20, 4, 8, .ro, 0x0⟩,
      ⟨0x80, 4, 32, .ro, 0x0⟩]
  | .dma => [
      ⟨0x0, 0, 1, .ro, 0x0⟩,
      ⟨0x4, 0, 1, .wo, 0x0⟩,
      ⟨0x8, 0, 1, .wo, 0x0⟩,
      ⟨0xC, 0, 1, .ro, 0x0⟩,
      ⟨0x10, 0, 1, .w1c, 0x0⟩,
      ⟨0x100, 32, 16, .rw, 0xC⟩,
      ⟨0x104, 32, 16, .rw, 0x0⟩,
      ⟨0x108, 32, 16, .rw, 0x0⟩,
      ⟨0x10C, 32, 16, .rw, 0x0⟩,
      ⟨0x110, 32, 16, .ro, 0x3C⟩,
      ⟨0x114, 32, 16, .ro, 0x0⟩,
      ⟨0x118, 32, 16, .ro, 0x0⟩,
      ⟨0x11C, 32, 16, .ro, 0x0⟩]
  | .cvu => [
      ⟨0x0, 0, 1, .w1c, 0x0⟩,
      ⟨0x100, 64, 12, .rw, 0x0⟩,
      ⟨0x104, 64, 12, .rw, 0x0⟩,
      ⟨0x108, 64, 12, .rw, 0x0⟩,
      ⟨0x10C, 64, 12, .rw, 0x0⟩,
      ⟨0x110, 64, 12, .rw, 0x0⟩,
      ⟨0x114, 64, 12, .rw, 0x0⟩,
      ⟨0x118, 64, 12, .rw, 0x0⟩,
      ⟨0x11C, 64, 12, .rw, 0x0⟩,
      ⟨0x120, 64, 12, .rw, 0x0⟩,
      ⟨0x124, 64, 12, .rw, 0x0⟩,
      ⟨0x128, 64, 12, .rw, 0x0⟩,
      ⟨0x12C, 64, 12, .rw, 0x0⟩,
      ⟨0x130, 64, 12, .rw, 0x0⟩,
      ⟨0x134, 64, 12, .rw, 0x0⟩,
      ⟨0x138, 64, 12, .ro, 0x0⟩,
      ⟨0x13C, 64, 12, .ro, 0x0⟩,
      ⟨0x800, 16, 12, .ro, 0x0⟩,
      ⟨0x804, 16, 12, .rc, 0x0⟩,
      ⟨0x808, 16, 12, .ro, 0x0⟩,
      ⟨0x80C, 16, 12, .ro, 0x0⟩]
  | .cal => [
      ⟨0x0, 0, 1, .rw, 0x0⟩,
      ⟨0x4, 0, 1, .ro, 0x0⟩,
      ⟨0x8, 0, 1, .w1c, 0x0⟩,
      ⟨0xC, 0, 1, .ro, 0x0⟩,
      ⟨0x10, 4, 4, .ro, 0x0⟩,
      ⟨0x20, 0, 1, .ro, 0x0⟩,
      ⟨0x24, 0, 1, .ro, 0x0⟩,
      ⟨0x28, 0, 1, .ro, 0x0⟩,
      ⟨0x2C, 0, 1, .ro, 0x0⟩,
      ⟨0x30, 0, 1, .ro, 0x0⟩,
      ⟨0x34, 0, 1, .rw, 0x0⟩,
      ⟨0x38, 0, 1, .ro, 0x0⟩,
      ⟨0x3C, 0, 1, .ro, 0x0⟩,
      ⟨0x40, 0, 1, .rw, 0x0⟩,
      ⟨0x44, 4, 3, .rw, 0x0⟩,
      ⟨0x50, 4, 6, .rw, 0x0⟩,
      ⟨0x68, 0, 1, .rw, 0x0⟩,
      ⟨0x6C, 0, 1, .ro, 0x0⟩]
  | .fdcal => [
      ⟨0x0, 0, 1, .ro, 0x0⟩,
      ⟨0x4, 0, 1, .ro, 0x0⟩,
      ⟨0x8, 0, 1, .w1c, 0x0⟩,
      ⟨0xC, 0, 1, .rw, 0x0⟩,
      ⟨0x10, 0, 1, .ro, 0x0⟩]
  | .pnl => [
      ⟨0x0, 0, 1, .rw, 0x0⟩,
      ⟨0x4, 0, 1, .ro, 0x0⟩,
      ⟨0x8, 0, 1, .w1c, 0x0⟩,
      ⟨0xC, 0, 1, .rw, 0x40A8D2⟩,
      ⟨0x10, 0, 1, .rw, 0x500014⟩,
      ⟨0x100, 4, 64, .rw, 0x0⟩,
      ⟨0x200, 4, 16, .ro, 0x0⟩,
      ⟨0x400, 4, 128, .rw, 0x0⟩,
      ⟨0x800, 4, 64, .rw, 0x0⟩]
  | .boot => [
      ⟨0x0, 0, 1, .ro, 0x0⟩,
      ⟨0x4, 0, 1, .w1c, 0x0⟩,
      ⟨0x8, 0, 1, .ro, 0x0⟩,
      ⟨0xC, 0, 1, .ro, 0x0⟩,
      ⟨0x10, 0, 1, .ro, 0x0⟩,
      ⟨0x14, 0, 1, .ro, 0x0⟩,
      ⟨0x18, 0, 1, .ro, 0x0⟩,
      ⟨0x1C, 0, 1, .rw, 0x0⟩,
      ⟨0x10000, 4, 16384, .rw, 0x0⟩]

/-- Whether a block offset lies on one of a row's registers. -/
def RegRow.covers (r : RegRow) (o : Nat) : Bool :=
  if r.count ≤ 1 then o == r.off
  else decide (r.off ≤ o) && (o - r.off) % r.stride == 0 && decide ((o - r.off) / r.stride < r.count)

/-- The row that lists the register at a block offset. -/
def Block.row? (b : Block) (o : Nat) : Option RegRow := b.rows.find? (·.covers o)

/-- The extent of a block in bytes (R543). -/
def Block.extent : Block → Nat
  | .evr => 0x2000
  | .boot => 0x20000
  | .lbq => 0x2000
  | .wsd => 0x20000
  | _ => 0x1000

/-- The HB blocks at their offsets below 0002_0000h (R543). -/
def hbBlocks : List Block :=
  [.tc, .saf, .hst, .lease, .evr, .evr, .snap, .lnk, .net, .str, .nv, .jnl, .clg, .cpt, .sec, .frm, .tpr, .acw, .cvu, .pnl]

/-- Where a window offset falls: its block, the die or engine number of the block, and the offset within the block; none for
every address of R539 and R543 that lies in no block's extent. -/
def blockOf (a : Nat) : Option (Block × Nat × Nat) :=
  if a < 0x14000 then
    (hbBlocks[a / 0x1000]?).map fun b => (b, 0, if b = .evr then a - 0x4000 else a % 0x1000)
  else if 0x20000 ≤ a ∧ a < 0x40000 then some (.boot, 0, a - 0x20000)
  else if 0x100000 ≤ a ∧ a < 0x200000 then
    let n := (a - 0x100000) / 0x40000
    let o := (a - 0x100000) % 0x40000
    if o < 0x1000 then some (.ofe, n, o)
    else if o < 0x2000 then some (.psy, n, o - 0x1000)
    else if o < 0x3000 then some (.dmd, n, o - 0x2000)
    else if o < 0x4000 then none
    else if o < 0x6000 then some (.lbq, n, o - 0x4000)
    else if o < 0x7000 then some (.cal, n, o - 0x6000)
    else if o < 0x20000 then none
    else some (.wsd, n, o - 0x20000)
  else if 0x200000 ≤ a ∧ a < 0x208000 then
    (([.cmb, .wsc, .adc, .fsi, .vo, .brk, .rst, .fdcal] : List Block)[(a - 0x200000) / 0x1000]?).map fun b => (b, 0, a % 0x1000)
  else if 0x300000 ≤ a ∧ a < 0x308000 then some (.dma, (a - 0x300000) / 0x1000, a % 0x1000)
  else none

/-- The table row of the register at a window offset, if one is listed there. -/
def regRow? (a : Nat) : Option RegRow :=
  if a % 4 ≠ 0 then none else (blockOf a).bind fun (b, _, o) => b.row? o

/-- The value of the register at a window offset after reset (R12). -/
def resetOf (a : Nat) : Word := ((regRow? a).map (·.reset)).getD 0

end Sys2Proof.Machine
end

