-- ==== Sys2Proof/Machine/State.lean ====
section
/-!
DEFINITION. The state of the LY8440 as plain data: everything the spec gives the block, chapter by chapter, the queue of the
commands that wait, and the state right after reset. notes/assumptions and INVENTORY.md name each field's reset value.
-/
namespace Sys2Proof.Machine

/-- A sparse map: entries with strictly rising keys; a key that is not listed holds the default its reader names. -/
abbrev Table (α : Type) := List (Nat × α)

/-- Device operating states (R506), coded as HB_SNAP_STATE.STATE codes them. -/
inductive DeviceState where
  | start | service | degraded | maintenance | watch | safeStop
deriving DecidableEq, Repr, Inhabited

/-! ### Town clock (Architecture) -/

/-- HB_TC_STATUS.STATE. -/
inductive Discipline where
  | free | locking | locked | holdover
deriving DecidableEq, Repr, Inhabited

/-- A step that waits for a cycle boundary (R43): to HB_TC_SET, or to the source time (AUTO_STEP). -/
inductive StepKind where
  | set | source
deriving DecidableEq, Repr

structure TownClock where
  /-- The master count, ns. -/
  now       : Nat := 0
  /-- Fraction of a nanosecond carried by the frequency correction, in units of 10⁻¹⁰ ns. -/
  frac      : Nat := 0
  /-- FD's copy, ns. -/
  fd        : Nat := 0
  /-- Slew FD has been told to apply and has not applied yet, ns. -/
  fdSlew    : Int := 0
  /-- The skew of FD as HB last measured it has been flagged (R46). -/
  fdDegraded : Bool := false
  /-- A step message on its way to FD: the size, ns, and the cycle of its boundary (R43). -/
  fdStep    : Option (Nat × Nat) := none
  disc      : Discipline := .free
  valid     : Bool := false
  stepPending : Option StepKind := none
  /-- Last measured offset, source minus clock, ns. -/
  offset    : Int := 0
  /-- Frequency correction, 0.1 ppb. -/
  freq      : Int := 0
  /-- Consecutive valid measurements below 1 µs (R45). -/
  good      : Nat := 0
  /-- Powered time of the last valid PTP sync. -/
  lastSync  : Nat := 0
  /-- Consecutive missing PPS edges. -/
  missed    : Nat := 0
  /-- Powered time at which the current holdover began. -/
  holdStart : Nat := 0
  /-- HB_TC_UTC_OFFSET. -/
  utc       : Nat := 0
  utcValid  : Bool := false
  /-- PTP: the selected master and its announced rank. -/
  ptpMaster : Option (Nat × Nat) := none
  /-- PTP: powered time of its last announce. -/
  ptpHeard  : Nat := 0
  /-- PTP: a two-step Sync waiting for its Follow_Up: sequence, receive stamp, correction. -/
  ptpSync   : Option (Nat × Nat × Int) := none
  /-- PTP: a Delay_Req sent: sequence and its hardware timestamp. -/
  ptpDelay  : Option (Nat × Nat) := none
  ptpDelaySeq : Nat := 0
  /-- PTP: master-to-slave difference of the last complete Sync (t2 − t1), ns. -/
  ptpM2S    : Option Int := none
  /-- PTP: mean path delay, ns. -/
  ptpMean   : Option Int := none
deriving DecidableEq, Repr, Inhabited

/-! ### Outputs to the outside -/

/-- What the block sends to a master or to a wire. -/
inductive Sent where
  /-- A register read completes: value and whether with an error completion. -/
  | reply (m : Master) (addr : Nat) (v : Word) (err : Bool)
  /-- The end of a native SPI frame: register word and STATUS (R381); no data where none was read. -/
  | spi (data : Option Word) (status : Nat)
  /-- A forerunner window byte (R326). -/
  | frwByte (a : Nat) (v : Byte)
  /-- A frame on a package link. -/
  | frame (l : Link) (what : Nat) (a b : Nat)
  /-- An MSI-X vector of PCIe port p. -/
  | msix (p : Nat) (vector : Nat)
  /-- A UDP datagram of a domain's session on an Ethernet port: TYPE, MSEQ, the whole UDP payload. -/
  | datagram (dom port : Nat) (kind mseq : Nat) (payload : List Byte)
  /-- Another Ethernet packet of a port: kind and payload. -/
  | packet (p : Nat) (kind : Nat) (payload : List Byte)
  /-- An event record that source `src` emits towards HB: dies 0 to 3, FD 4. -/
  | event (src : Nat) (bytes : List Byte)
  /-- The response of a command. -/
  | response (r : Nat) (dom : Nat) (tag : Nat) (code : Nat) (jseq : Nat)
  /-- The indicator chain's bits, module by module. -/
  | chain (bits : List Byte)
deriving DecidableEq, Repr

/-! ### Optical front end (one per acquisition die) -/

/-- AQn_OFE_STATUS.STATE. -/
inductive LightState where
  | off | warming | probing | dark | shutdown
deriving DecidableEq, Repr, Inhabited

/-- Lockouts of R574. -/
inductive Lockout where
  | none | thermal | laser | giveup
deriving DecidableEq, Repr, Inhabited

/-- The point the light-on order of R62 waits at. -/
inductive LightStep where
  /-- not running -/
  | idle
  /-- step 2: waits for the laser window -/
  | laserWindow
  /-- step 3: waits for Pn_LASER_OK -/
  | laserOk
  /-- step 4: waits 10 ms -/
  | ampDelay
  /-- step 5: amplifier check -/
  | ampCheck
  /-- step 6: waits for the probe window and Pn_RX_OK -/
  | probe
deriving DecidableEq, Repr, Inhabited

/-- The state of the laser thermal loop (R491), in exact rationals. -/
structure ThermalLoop where
  integ   : Rat := 0
  d       : Rat := 0
  uPrev   : Rat := 0
  /-- Temperature of the last step, kelvin above 0 °C. -/
  tPrev   : Rat := 0
  /-- The gain set of the last step: none before the first. -/
  lastFine : Option Bool := none
  clamped : Bool := false
  slewed  : Bool := false
  /-- e of the last step, K. -/
  err     : Rat := 0
deriving DecidableEq, Repr, Inhabited

structure Ofe where
  light    : LightState := .off
  step     : LightStep := .idle
  lockout  : Lockout := .none
  /-- Input pins, deglitched. -/
  laserOk  : Bool := false
  ampFltN  : Bool := false
  rxOk     : Bool := false
  intlkN   : Bool := false
  /-- The interlock has opened and Pn_INTLK_N has not yet been high for 1 s since; powered time at which it was last low (R68). -/
  hold     : Bool := false
  intlkLow : Nat := 0
  /-- Output pins; Pn_TEC_DIR as the loop last asked for it, and the powered time at which that changed. -/
  laserEn  : Bool := false
  ampEn    : Bool := false
  tecEn    : Bool := false
  tecDir   : Bool := false
  turnAt   : Nat := 0
  /-- PWM duty in force, 1/65,536. -/
  duty     : Nat := 0
  /-- Probe drive runs (the DACs leave the zero code inside probe pulses). -/
  drive    : Bool := false
  /-- ATTEMPT: failed amplifier attempts of the current fault. -/
  attempt  : Nat := 0
  /-- An amplifier fault is being retried (R69). -/
  retrying : Bool := false
  /-- Powered times of the steps in progress. -/
  laserEnAt : Nat := 0
  laserOkAt : Nat := 0
  ampEnAt   : Nat := 0
  retryFrom : Nat := 0
  /-- Step 3 of the light-off order waits since AMP_EN fell at this time (R63). -/
  offFrom   : Option Nat := none
  /-- Step 4 lowers Pn_TEC_EN too. -/
  offTec    : Bool := false
  /-- Thermistor ratio, 2⁻²⁴ per LSB. -/
  ratio    : Nat := 0
  /-- Laser temperature, 0.1 mK. -/
  temp     : Int := 0
  imon     : Nat := 0
  tecLock  : Bool := false
  lockSince : Option Nat := none
  outProbeSince : Option Nat := none
  imonSince : Option Nat := none
  /-- The laser window has been reached since Pn_TEC_EN last rose (R67, TEMP_TRIP). -/
  winSeen  : Bool := false
  /-- The probe window has been reached since the loop started (R75). -/
  probeSeen : Bool := false
  loopFrom : Nat := 0
  loop     : ThermalLoop := {}
deriving DecidableEq, Repr, Inhabited

/-! ### Calibration -/

/-- Front-end corrections of a port: one number per quantity, in the LSB of its register field (R479, R482). -/
structure Corrections where
  /-- offsets XI, XQ, YI, YQ -/
  ofs   : List Rat := [0, 0, 0, 0]
  /-- gains XI, XQ, YI, YQ, as ratios -/
  gain  : List Rat := [1, 1, 1, 1]
  /-- M21 and M22 − 1 of X then Y -/
  iq    : List Rat := [0, 0, 0, 0]
  /-- skews XQ, YI, YQ, ps -/
  skew  : List Rat := [0, 0, 0]
  /-- modulator IQ: gain imbalance dB, phase degrees -/
  modG  : Rat := 0
  modP  : Rat := 0
deriving DecidableEq, Repr, Inhabited

/-- A tone's trims: amplitude ratio in dB and delay in ns. -/
structure ToneTrim where
  amp   : Rat := 0
  delay : Rat := 0
deriving DecidableEq, Repr, Inhabited

/-- One port's part of a calibration set (R482). -/
structure PortCal where
  corr     : Corrections := {}
  /-- trims by 64 × plan + tone; an unlisted one is not valid -/
  trims    : Table ToneTrim := []
  /-- AQn_CAL_THM and AQn_CAL_PID registers by block offset -/
  params   : Table Word := []
  accepted : Nat := 0
  rejected : Nat := 0
deriving DecidableEq, Repr, Inhabited

/-- A complete calibration set (R482). -/
structure CalSet where
  ports : Table PortCal := []
  /-- comparator trims that are valid, in quarter codes -/
  cmp   : Table Int := []
deriving DecidableEq, Repr, Inhabited

/-- A calibration bank (R426): GEN and the content with the state of its two checks. -/
structure CalBank where
  gen : Nat := 0
  set : CalSet := {}
  ok  : Bool := false
deriving DecidableEq, Repr, Inhabited

/-! ### Calibration rounds (one per acquisition die) -/

/-- The phase of an in-gap round (R474). -/
inductive RoundPhase where
  | none | a | b
deriving DecidableEq, Repr, Inhabited

/-- The values of a port that calibration sets: corrections, and trims of the live plan by tone. -/
structure CalValues where
  corr  : Corrections := {}
  trims : Table ToneTrim := []
deriving DecidableEq, Repr, Inhabited

/-- A ramp (R480): the values it starts from and ends at, and the ramp periods done. -/
structure Ramp where
  old  : CalValues
  new  : CalValues
  done : Nat
deriving DecidableEq, Repr, Inhabited

structure CalPort where
  /-- Values in force. -/
  live    : CalValues := {}
  /-- The live calibration set has been taken over at the first period (R481). -/
  loaded  : Bool := false
  defaults : Bool := false
  phase   : RoundPhase := .none
  /-- Periods of the phase so far, and those left out of it: for a rejected tail, and for another reason. -/
  count   : Nat := 0
  outTail : Nat := 0
  outOther : Nat := 0
  /-- Powered time at which the last round started. -/
  started : Option Nat := none
  /-- Rounds started; the parity gives the side of the loopback tone. -/
  rounds  : Nat := 0
  /-- Periods still to pass after a phase B before the guard noise is measured again (R476). -/
  afterB  : Nat := 0
  ramp    : Option Ramp := none
  discarded : Nat := 0
  cause   : Nat := 0
  ended   : Nat := 0
  accepted : Nat := 0
  rejected : Nat := 0
deriving DecidableEq, Repr, Inhabited

/-! ### Probe synthesis (one per acquisition die) -/

/-- A probe set: the fields of AQn_TONE_PLAN to AQn_FIBRE_ZERO (R93). -/
structure ProbeSet where
  plan  : Nat := 0
  en    : Bool := false
  np    : Nat := 0
  nt    : Nat := 0
  nc    : Nat := 0
  taper : Nat := 0
  level : Nat := 0
  /-- L_f, 0.1 fm. -/
  lf    : Nat := 0
  /-- n_g, 0.0001. -/
  ng    : Nat := 0
  /-- D_0, 0.1 ns. -/
  d0    : Nat := 0
deriving DecidableEq, Repr, Inhabited

/-- The chirp a tone fired (R79, R82): its offset in the period, its duration in ticks, its start and end frequency in Hz from the
laser frequency, the taper of each edge in per cent, the envelope's peak as a part of the DAC full scale, and the tone's trim. -/
structure Chirp where
  tone   : Nat
  offset : Nat
  dur    : Nat
  f0     : Rat
  f1     : Rat
  taper  : Nat
  level  : Rat
  trim   : ToneTrim
deriving DecidableEq, Repr, Inhabited

/-- A period whose trace samples may still arrive (R86, R98): its number, stamp and start, whether its firing stopped, and the
corrections in force during it (R102). -/
structure PeriodTag where
  count : Nat := 0
  /-- P_m, town-clock ns. -/
  stamp : Nat := 0
  /-- Powered time of the start, 0.2 ns. -/
  start : Nat := 0
  incomplete : Bool := false
  corr  : Corrections := {}
deriving DecidableEq, Repr, Inhabited

structure Psy where
  live    : ProbeSet := {}
  pend    : Option ProbeSet := none
  changeover : Bool := false
  /-- AQn_PSY_STATUS.CHECK. -/
  check   : Nat := 0
  /-- Periods started since reset. -/
  count   : Nat := 0
  /-- P_m of the last period start. -/
  stamp   : Nat := 0
  /-- Powered time of the last period start, in units of 0.2 ns: a tick of 0.8 ns is four (R87). -/
  startAt : Nat := 0
  /-- The tone that fires next. -/
  next    : Nat := 0
  /-- The two periods before the one in progress, newest first. -/
  past    : List PeriodTag := []
  /-- ADC samples up to this powered time (0.2 ns) have been counted (R57). -/
  adcSeen : Nat := 0
  /-- Tones fire in the period in progress. -/
  firing  : Bool := false
  /-- Firing stopped during the period in progress: every tone of it is incomplete (R98). -/
  incomplete : Bool := false
  /-- The last chirp fired. -/
  chirp   : Option Chirp := none
deriving DecidableEq, Repr, Inhabited

/-! ### Demodulation (one per acquisition die) -/

/-- A complex number in exact rationals. -/
structure Cx where
  re : Rat := 0
  im : Rat := 0
deriving DecidableEq, Repr, Inhabited

/-- A trace word (R107): both polarisations after scaling, and its two marks. -/
structure TraceWord where
  xi : Int
  xq : Int
  yi : Int
  yq : Int
  clip : Bool
  incomplete : Bool
deriving DecidableEq, Repr, Inhabited

/-- A point sample as its detectors take it (R174): time in town-clock ns, PHASE plus the refresh accumulator, Q, BREAK. -/
structure PointSample where
  t   : Rat
  u   : Int
  q   : Nat
  brk : Bool
deriving DecidableEq, Repr, Inhabited

/-- A point in one town-clock second (R228): sum of Q, sum of Q × (PHASE + refresh accumulator), over samples of Q ≥ Q_FADE; active. -/
structure SecSum where
  sec  : Nat := 0
  q    : Nat := 0
  u    : Int := 0
  active : Bool := false
deriving DecidableEq, Repr, Inhabited

/-- The state of one sensing point. -/
structure Point where
  /-- Unwrapped phase φ of the last point sample that was not faded, 2π ÷ 65,536 rad per LSB. -/
  phase  : Int := 0
  /-- Its wrapped phase φ_w. -/
  wrapped : Int := 0
  /-- A sample that was not faded has been formed. -/
  primed : Bool := false
  /-- Consecutive faded samples. -/
  faded  : Nat := 0
  /-- The next sample that is not faded carries BREAK (R120). -/
  brk    : Bool := false
  /-- The latest point-sample word (R127). -/
  word   : DWord := 0
  /-- Phases of the last 64 point samples, newest first (R112). -/
  hist   : List Int := []
  /-- LOWQ and ACTIVE over the period in progress (R136). -/
  lowq   : Bool := false
  active : Bool := false
  /-- The period in progress has given a sample, and one with a Q above 0. -/
  seen   : Bool := false
  lit    : Bool := false
  /-- Differential phase that refresh has moved into the references since the epoch (R113). -/
  moved  : Int := 0
  /-- The samples of the last 2 ms, newest first. -/
  recent : List PointSample := []
  /-- The point-sample words of the last two periods, by 2 × tone and the period's parity, each with the number of its period (R236). -/
  words  : Table (Nat × DWord) := []
  /-- The second in progress and the one before it (R228). -/
  sum    : SecSum := {}
  sumOld : SecSum := {}
  /-- The anchor offset O_j, rad; none while unanchored. The second in which a BREAK asks for a new one (R229). -/
  anchor : Option Rat := none
  reanchor : Option Nat := none
  /-- The BREAK that the next sample carries comes from a re-acquisition alone. -/
  acqBrk : Bool := false
deriving DecidableEq, Repr, Inhabited

/-- An acquisition window of one index, tone and polarisation (R483). -/
structure AcqWin where
  n    : Nat := 0
  sum  : Cx := {}
  mag  : Rat := 0
  /-- S ÷ ACQ_N of the last complete window that was not coherent enough. -/
  last : Option Cx := none
deriving DecidableEq, Repr, Inhabited

/-- Noise measurement of one tone (R121, R122, R477). -/
structure ToneNoise where
  nx     : Rat := 0
  ny     : Rat := 0
  /-- A measurement has been accepted since the last live-set change. -/
  init   : Bool := false
  /-- Period starts since the last accepted measurement. -/
  age    : Nat := 256
  /-- The period whose tail was measured last. -/
  period : Option Nat := none
  stale  : Bool := false
  notDark : Bool := false
  /-- Consecutive rejected and passing periods, which decide it. -/
  rejects : Nat := 0
  passes  : Nat := 0
  /-- A tail of this tone was rejected since the last period start. -/
  rejected : Bool := false
deriving DecidableEq, Repr, Inhabited

structure Demod where
  points  : Table Point := []
  /-- References of 4 bytes by 128 × index + 2 × tone + polarisation (R111): real part in the low half, imaginary part above. -/
  refs    : Table Word := []
  /-- The period's trace words by 64 × index + tone. -/
  trace   : Table TraceWord := []
  /-- Acquisition windows by the key of their reference. -/
  acq     : Table AcqWin := []
  /-- A re-acquisition of the port runs since this powered time (R114). -/
  acquiring : Option Nat := none
  /-- The reference epoch: when the last re-acquisition completed (R114). -/
  epoch   : Option Nat := none
  /-- A re-acquisition has completed since the last discard. -/
  epochValid : Bool := false
  forced  : Nat := 0
  noise   : Table ToneNoise := []
  /-- Guard noise floor N_g, none before its first measurement (R476). -/
  guard   : Option Rat := none
  /-- Writes accepted under R129 that take effect at the next period start, by window offset. -/
  staged  : Table Word := []
deriving DecidableEq, Repr, Inhabited

/-! ### Lanes, blocks and quarters (one set per acquisition die) -/

/-- An event that a lane has decided and holds until the sentinel has passed (R151): what the sensor of entry `entry` reports. -/
structure HeldEvent where
  entry : Nat
  kind  : Nat
  /-- Event time, town-clock ns. -/
  time  : Nat
  /-- 0.01 km/h. -/
  speed : Nat := 0
  /-- TEMPLATE or cause. -/
  tpl   : Nat := 0
  qev   : Nat := 0
  amp   : Nat := 0
  usable : Bool := false
  limit : Bool := false
deriving DecidableEq, Repr, Inhabited

structure Lane where
  faulty  : Bool := false
  /-- CAUSE of AQn_LANE_STAT. -/
  cause   : Nat := 0
  /-- The lane that has taken this lane's span (R152); none while this lane serves it. -/
  taken   : Option Nat := none
  /-- This lane's span is unavailable under R153. -/
  unavail : Bool := false
  /-- Events of this lane's span, decided and held (R151), oldest first. -/
  held    : List HeldEvent := []
  /-- How many of them the sentinel has passed. -/
  passed  : Nat := 0
  /-- A return test runs: slices left, and all passed so far (R160). -/
  test    : Option (Nat × Bool) := none
  /-- SEQ of the next event of this lane's span (R186). -/
  seq     : Nat := 0
  /-- The period of the last slice of this lane's span. -/
  period  : Nat := 0
  /-- ROLE and SERVES as its block last showed them (R164). -/
  shown   : Nat × Nat := (0, 0)
deriving DecidableEq, Repr, Inhabited

/-- A takeover that a spare has begun (R152): the lane whose span it is, the spare, the lane that has failed it, the powered time of
the failure, and that of the load's completion (0.2 ns). -/
structure Takeover where
  home   : Nat
  spare  : Nat
  failed : Nat
  begun  : Nat := 0
  loaded : Option Nat := none
deriving DecidableEq, Repr, Inhabited

inductive UnitState where
  | running | gated | faulty | returning
deriving DecidableEq, Repr, Inhabited

structure Blk where
  st      : UnitState := .running
  cause   : Nat := 0
  slow    : Bool := false
  /-- Position of the standby spare. -/
  spare   : Option Nat := some 8
  /-- Powered time at which the block was marked faulty. -/
  faultAt : Nat := 0
  /-- Clock stopped and memory powered down (R157 step 4). -/
  off     : Bool := false
  /-- Takeovers that are not complete, oldest first. -/
  loading : List Takeover := []
  /-- The last stamp floor sent and the powered time of its sending (R33). -/
  floor   : Nat := 0
  floorAt : Nat := 0
  /-- The block acquires references for its own spans since this powered time (R485). -/
  acquiring : Option Nat := none
  /-- The block has come back and its die has not reported the return yet (R186). -/
  back    : Bool := false
deriving DecidableEq, Repr, Inhabited

structure Qtr where
  st    : UnitState := .running
  cause : Nat := 0
deriving DecidableEq, Repr, Inhabited

/-- An edge record (R136): LOWQ and ACTIVE of the points nearest a neighbour, nearest first, and its period. -/
structure EdgeRec where
  period : Nat
  flags  : List (Bool × Bool)
deriving DecidableEq, Repr, Inhabited

/-- A lane, block or quarter as AQn_LBQ_CMD names it. -/
inductive LbqTarget where
  | lane (i : Nat)
  | block (b : Nat)
  | quarter (q : Nat)
deriving DecidableEq, Repr

structure DieLbq where
  lanes  : Table Lane := []
  blks   : Table Blk := []
  qtrs   : Table Qtr := []
  /-- Records sent and not yet received, by 2 × lane + side of the receiver (side 1: from above), oldest first. -/
  edgeOut : Table (List EdgeRec) := []
  /-- The last two records received, newest first. -/
  edgeIn  : Table (List EdgeRec) := []
  /-- A commit has changed what the blocks' clocks depend on; they change at the next period start (R147). -/
  clockDue : Bool := false
  /-- The return in progress. -/
  busy   : Option LbqTarget := none
  result : Nat := 0
  /-- RESULT shows the BUSY of an ignored command and stays until the next command is written (R162). -/
  kept   : Bool := false
  /-- A block of the quarter that is being returned has failed its tests. -/
  failed : Bool := false
  /-- The die has power (R534) and is not faulty at die level (R28). -/
  power  : Bool := true
  dieFault : Bool := false
  /-- The die has its structure; before it, its status registers read their reset values. -/
  loaded : Bool := false
deriving DecidableEq, Repr, Inhabited

/-! ### Virtual wheel sensors -/

/-- Sensor states (R183). -/
inductive SensorState where
  | filling | sighted | blind | standing
deriving DecidableEq, Repr, Inhabited

/-- A detection sample (R174). -/
structure DetSample where
  y    : Rat
  q    : Nat
  hole : Bool
deriving DecidableEq, Repr, Inhabited

/-- Amplitude, signed square of the correlation and defined flag of one template at one sample (R178). -/
structure Fit where
  amp  : Rat := 0
  corr : Rat := 0
  ok   : Bool := false
deriving DecidableEq, Repr, Inhabited

/-- A transition of R183 that sample n has decided and that its own step makes. -/
inductive SensorDue where
  | halt (n : Nat) (level : Rat) (q : Nat)
  | standTimeout (n : Nat) (q : Nat)
deriving DecidableEq, Repr

structure Sensor where
  st     : SensorState := .filling
  /-- Number of the last detection sample; none before the first. -/
  n      : Option Nat := none
  /-- Detection history since the last restart, newest first. -/
  hist   : List DetSample := []
  /-- Rest level Rl. -/
  rest   : Rat := 0
  /-- Fits of the last sample and of the one before it, template by template. -/
  fit    : List Fit := []
  fitPrev : List Fit := []
  /-- Consecutive holes. -/
  holes  : Nat := 0
  /-- Consecutive samples with e ≥ AMP_MIN. -/
  above  : Nat := 0
  /-- Samples since the last one at which a WHEEL event was decided. -/
  quiet  : Nat := 0
  /-- Level H and sample of the last HALT. -/
  level  : Rat := 0
  haltAt : Nat := 0
  /-- Crossing time of the last WHEEL event. -/
  lastCross : Option Nat := none
  lastTpl : Nat := 0
  wheels : Nat := 0
  /-- Time of a BREAK or of a takeover that the next sample turns into a restart. -/
  due    : Option SensorDue := none
  /-- Bytes of the last event emitted since the last restart. -/
  last   : List Byte := []
deriving DecidableEq, Repr, Inhabited

/-! ### Hosts: lease, freezes, commands, events, snapshots -/

/-- Freeze causes (R358). -/
inductive FreezeCause where
  | window | role | dmaForeign | closed | coreRange
deriving DecidableEq, Repr

/-- A master as a freeze record names it: domain, DMA channel 16e + c, or core. -/
inductive Frozen where
  | domain (d : Nat)
  | dma (ch : Nat)
  | core (c : Nat)
deriving DecidableEq, Repr

/-- A freeze record in use (R360). -/
structure FreezeRec where
  who    : Frozen
  cause  : FreezeCause
  count  : Nat
  stamp  : Nat
  detail : Nat
deriving DecidableEq, Repr

structure Lease where
  holder  : Option Nat := none
  /-- Town-clock time of the last accepted renewal or of the grant. -/
  renewed : Nat := 0
  grace   : Bool := false
  /-- Grants still allowed in a burst (R343) and the town-clock time the allowance last grew. -/
  tokens  : Nat := 8
  tokenAt : Nat := 0
deriving DecidableEq, Repr, Inhabited

/-- Password state (R356, R404): the password stands for its salted hash. -/
structure Password where
  value   : List Byte := List.replicate 12 0x30
  fails   : Nat := 0
  /-- Lockouts since the last correct password; the next one lasts 15 min × 2^n. -/
  streak  : Nat := 0
  /-- End of a running lockout as a time left (ns) at the powered time of `lockAt`; none when not locked. -/
  lockLeft : Option Nat := none
  lockAt  : Nat := 0
  /-- Whole minutes left as last kept in the NV system area. -/
  savedMin : Nat := 0
deriving DecidableEq, Repr, Inhabited

/-- A command record that passed the arbiter and waits for its fencing point (R351). -/
structure QueuedCmd where
  code : Nat
  cmd  : Command
deriving DecidableEq, Repr

/-- A response not yet delivered (R350). -/
structure Response where
  origin : CmdOrigin
  dom    : Nat
  tag    : Nat
  code   : Nat
  result : Nat
  jseq   : Nat
  data   : List Byte
deriving DecidableEq, Repr

/-- An event entry due for a domain (R363, R364). -/
structure DueEntry where
  dom    : Nat
  src    : Nat
  stamp  : Nat
  merged : Nat
  data   : Word
deriving DecidableEq, Repr

/-- One domain's snapshot buffer (R366). -/
structure Snapshot where
  requested : Bool := false
  /-- A boundary has taken the values and READY is still to be set. -/
  due     : Bool := false
  ready   : Bool := false
  cycle   : Nat := 0
  stamp   : Nat := 0
  jseq    : Nat := 0
  state   : Word := 0
  epoch   : Word := 0
  struct  : Word := 0
  secs    : List Nat := []
deriving DecidableEq, Repr, Inhabited

/-- Pacing and count of one domain's commands and its rejections (R354, R352). -/
structure DomainCmds where
  outstanding : Nat := 0
  tokens      : Nat := 64
  tokenAt     : Nat := 0
  rejCount    : Nat := 0
  rejLast     : Nat := 0
deriving DecidableEq, Repr, Inhabited

/-! ### Counting points and sections (one copy per evaluation channel) -/

inductive CpKind where
  | fibre | legacy | fused
deriving DecidableEq, Repr, Inhabited

/-- Where a counting point's sensor lies: its die and its home lane there. -/
structure SenPlace where
  die  : Nat
  home : Nat
deriving DecidableEq, Repr, Inhabited

/-- A counting point in use (R191, R198). -/
structure CpCfg where
  kind : CpKind := .fibre
  port : Nat := 0
  lh   : Nat := 0
  /-- D, mm. -/
  dist : Nat := 0
  gmax : Nat := 0
  /-- The sensors of systems a and b that are enabled. -/
  sa   : Option SenPlace := none
  sb   : Option SenPlace := none
  /-- The sections it bounds, each with the side (1 or 2) that faces it. -/
  bounds : List (Nat × Nat) := []
deriving DecidableEq, Repr, Inhabited

/-- A section in use (R215). -/
structure SecCfg where
  /-- Boundary entries: counting point and the side that faces into the section. -/
  bound : List (Nat × Nat) := []
  rstin : Option Nat := none
  forerunner : Bool := false
deriving DecidableEq, Repr, Inhabited

/-- What an evaluation channel takes from its copy of the structure. -/
structure ChanCfg where
  /-- HB_CPT_FIBRE: A_MAX (0.1 m/s²), TOL (per cent), RESOLVE_MAX (s). -/
  aMax    : Nat := 15
  tol     : Nat := 25
  resolve : Nat := 60
  /-- BRIDGE_MAX, ms. -/
  bridge  : Nat := 0
  /-- FUSE_WIN, ms. -/
  fuse    : Nat := 2000
  /-- T_D, 10 µs ticks. -/
  td      : Nat := 50000
  cps     : Table CpCfg := []
  secs    : Table SecCfg := []
  /-- Settle times of R208 by 16 × die + template, ns. -/
  settle  : Table Nat := []
deriving DecidableEq, Repr, Inhabited

/-- An axle in the gap (R197): entry time and speed, the system it entered by (0 a, 1 b), the possible reversals the head had
seen by then, whether its event carried USABLE, and whether a transit check may still use it (R203). -/
structure GapEntry where
  t       : Nat
  v       : Nat
  sys     : Nat
  rev     : Nat
  usable  : Bool
  checked : Bool := true
deriving DecidableEq, Repr, Inhabited

/-- A reading (R197): direction (0 none), gap list, and the count changes of sides 1 and 2 since the head's channel started. -/
structure Reading where
  d   : Nat := 0
  gap : List GapEntry := []
  c1  : Int := 0
  c2  : Int := 0
deriving DecidableEq, Repr, Inhabited

/-- An unsighted interval in progress (R206). -/
structure Unsighted where
  since  : Nat
  /-- The other sensor, where exactly one was SIGHTED. -/
  other  : Option Nat
  /-- The other sensor has stayed SIGHTED and still. -/
  calm   : Bool
  /-- Every reading had an empty gap. -/
  clear  : Bool
  /-- A commit restarted a sensor. -/
  commit : Bool
deriving DecidableEq, Repr, Inhabited

/-- The part of a fibre head that a late event takes back (R207). -/
structure FibCore where
  readings : List Reading := [{}]
  /-- Final count changes: those at the last resolution. -/
  base1 : Int := 0
  base2 : Int := 0
  /-- Time and speed of the head's last event (R199). -/
  prev  : Option (Nat × Nat) := none
  /-- Possible reversals so far. -/
  rev   : Nat := 0
  uns   : Option Unsighted := none
  /-- More than one reading has been live since this time. -/
  split : Option Nat := none
  /-- More than one reading has been live since the last resolution. -/
  wasSplit : Bool := false
  senA  : SensorState := .filling
  senB  : SensorState := .filling
  /-- Not yet in service (R576). -/
  waiting : Bool := true
deriving DecidableEq, Repr, Inhabited

/-- A sensor's event as a head takes it: kind coded as in R185. -/
structure HeadEvent where
  sys    : Nat
  kind   : Nat
  t      : Nat
  v      : Nat
  tpl    : Nat
  usable : Bool
deriving DecidableEq, Repr, Inhabited

/-- A kept event (R207): the state before it, and the release instant at which it was first applied. -/
structure Kept where
  ev    : HeadEvent
  snap  : FibCore
  instant : Nat
deriving DecidableEq, Repr, Inhabited

/-- States of the legacy sequence (R194). -/
inductive SeqState where
  | idle | a1 | ab1 | b1 | b2 | ab2 | a2
deriving DecidableEq, Repr, Inhabited

/-- The legacy part of a head (R194 to R196): inputs a and b with their settled flag, filter output and faults present. -/
structure LegHead where
  seq     : SeqState := .idle
  c1      : Int := 0
  c2      : Int := 0
  /-- The edge that began FD's disagreement in progress (R195). -/
  since   : Option Nat := none
  /-- Capture stamp of the last edge. -/
  edge    : Option Nat := none
  setA    : Bool := false
  setB    : Bool := false
  outA    : Bool := false
  outB    : Bool := false
  fltA    : List Nat := []
  fltB    : List Nat := []
deriving DecidableEq, Repr, Inhabited

/-- A counting point's head. -/
structure Head where
  faulty : Bool := false
  /-- Last fault cause (R211). -/
  cause  : Nat := 0
  core   : FibCore := {}
  kept   : List Kept := []
  /-- An applied event has been dropped from the kept set. -/
  dropped : Bool := false
  /-- The instant at which the head last started (R197). -/
  start  : Nat := 0
  /-- Event time and system of the latest sensor event that has reached the head (R207). -/
  last   : Option (Nat × Nat) := none
  /-- The latest event time plus settle time of an applied event (R217). -/
  settle : Nat := 0
  /-- Sensors a and b lie in an unavailable span. -/
  unaA   : Bool := false
  unaB   : Bool := false
  leg    : LegHead := {}
  /-- Start of a fused disagreement (R210). -/
  disagree : Option Nat := none
  /-- HB_CPT_EVT bits to be set, newest first. -/
  evts   : List Nat := []
deriving DecidableEq, Repr, Inhabited

/-- Section states (R218). -/
inductive SecSt where
  | clear | occupied | held | disturbed | pending | blocked
deriving DecidableEq, Repr, Inhabited

structure Sec where
  st     : SecSt := .disturbed
  /-- HB_SEC_DETAIL.CAUSE. -/
  cause  : Nat := 1
  /-- The counts at the last reset less the heads' figures then (R216). -/
  offHi  : Int := 0
  offLo  : Int := 0
  /-- E of R220. -/
  sweep  : Nat := 0
  /-- Disturbance cause recorded while Blocked; 0 none. -/
  recorded : Nat := 0
  /-- A commit has affected the section while it was Blocked, or blocked it (R405). -/
  commit : Bool := false
  /-- The state before an Occupied-held. -/
  prior  : Option SecSt := none
  /-- Direct resets that wait for their edge: acceptance time and command, oldest first. -/
  wait   : List (Nat × QueuedCmd) := []
  /-- Release instant at which the section last changed to Clear. -/
  clearAt : Option Nat := none
deriving DecidableEq, Repr, Inhabited

/-- What an evaluation channel reports: a bit of HB_CPT_EVT or HB_SEC_EVT, a head fault, a change of a section's state. -/
inductive ChanNote where
  | cpt (bit : Nat)
  | sec (bit : Nat)
  | fault (cp : Nat)
  | change (sec : Nat)
deriving DecidableEq, Repr

/-- An evaluation channel: the processor channel, or the ledger. -/
structure Channel where
  cfg    : ChanCfg := {}
  heads  : Table Head := []
  secs   : Table Sec := []
  /-- Release horizon. -/
  hz     : Nat := 0
  /-- Acquisition dies whose link is silent. -/
  silent : List Nat := []
  /-- EDGE time of the last reset-input edge outside Safe-stop, by input. -/
  edges  : Table Nat := []
  /-- A head has been in service since the channel started. -/
  served : Bool := false
  /-- What the channel reports, oldest first. -/
  notes  : List ChanNote := []
  /-- Direct resets that have ended: command, result code. -/
  done   : List (QueuedCmd × Nat) := []
deriving DecidableEq, Repr, Inhabited

/-! ### Structure images and their commit -/

/-- A frame of a structure image (R393). -/
structure SFrame where
  type  : Nat
  level : Nat
  die   : Nat
  index : Nat
  fseq  : Nat
  payload : List Byte
deriving DecidableEq, Repr, Inhabited

/-- An image slot: generation word (0 invalid), image bytes, structure epoch of the commit that wrote it. -/
structure ImgSlot where
  gen   : Nat := 0
  bytes : List Byte := []
  epoch : Nat := 0
  /-- The slot holds what was written to it. -/
  sound : Bool := true
deriving DecidableEq, Repr, Inhabited

/-- A set of units of a partial commit (R411), as bit sets: ports, host, windows, lane groups (bit 32n + b). -/
structure StrUnits where
  ports   : Nat := 0
  host    : Bool := false
  windows : Nat := 0
  groups  : Nat := 0
deriving DecidableEq, Repr, Inhabited

/-- HB_STR_STATUS.STATE. -/
inductive StrState where
  | idle | open | verifying | verified | committing | latched
deriving DecidableEq, Repr, Inhabited

/-- A commit between its fencing point and its effect (R406, R407). Targets are dies 0 to 3, HB 4, FD 5. -/
structure Commit where
  full    : Bool
  units   : StrUnits
  epoch   : Nat
  /-- The restoring commit of an abort of R412: it ends in IDLE, and no NV write carries an epoch. -/
  restore : Bool := false
  safety  : Bool
  affected : List Nat
  sframes : Nat
  dom     : Nat
  jseq    : Nat
  /-- Powered time of the fencing point. -/
  since   : Nat
  targets : List Nat
  /-- Targets that hold their shadow, and targets that have acknowledged. -/
  shadows : List Nat := []
  acks    : List Nat := []
  /-- All writes are durable. -/
  durable : Bool := false
deriving DecidableEq, Repr, Inhabited

structure Str where
  st      : StrState := .idle
  owner   : Option Nat := none
  /-- Powered time of the owner's last staging access or structure command (R399). -/
  used    : Nat := 0
  /-- HB_STR_STATUS.LAST, ABORT_IGNORED, SAFETY. -/
  last    : Nat := 0
  ignored : Bool := false
  safety  : Bool := false
  /-- HB_STR_ERROR.CODE, DETAIL and HB_STR_ERR_FRAME. -/
  code    : Nat := 0
  detail  : Nat := 0
  errFrame : Nat := 0
  slotA   : ImgSlot := {}
  slotB   : ImgSlot := {}
  /-- The partial-selection record in force, with its structure epoch (R412). -/
  sel     : Option (StrUnits × Nat) := none
  /-- The base slot is B; frames of the structure in force; key slot of the base image. -/
  baseB   : Bool := false
  live    : Option (List SFrame) := none
  liveKey : Nat := 0
  /-- HB_STR_EPOCH_MAX. -/
  epochMax : Nat := 0
  /-- Image length of the STRUCT_VERIFY that runs. -/
  verifyLen : Nat := 0
  /-- The verified image in the staging area. -/
  staged  : List Byte := []
  commit  : Option Commit := none
  /-- Key-hash fuse slots: hashes of the programmed ones, revoked ones. -/
  keys    : Table (List Byte) := []
  revoked : List Nat := []
  /-- Dies that have not applied the live structure yet (R408). -/
  behind  : List Nat := []
deriving DecidableEq, Repr, Inhabited

/-! ### NV store -/

/-- One slot of a record pair (R421) with the validity of its two checks. -/
structure WpSlot where
  value : Word := 0
  wear  : Nat := 0
  ok1   : Bool := true
  ok2   : Bool := true
deriving DecidableEq, Repr, Inhabited

/-- A WP register's record pair, its allowance and its live value (R421 to R424). -/
structure WpRec where
  slot0  : WpSlot := {}
  slot1  : WpSlot := {}
  /-- The live slot: true is slot 1. -/
  live1  : Bool := false
  /-- Neither slot was valid at boot and nothing has been written since (R423). -/
  lost   : Bool := false
  repaired : Bool := false
  tokens : Nat := 64
deriving DecidableEq, Repr, Inhabited

/-- A journal entry (R429); CHECK is computed when the entry is read. -/
structure JEntry where
  seq    : Nat
  stamp  : Nat
  dom    : Nat
  result : Nat
  code   : Nat
  digest : Word
  struct : Word
  /-- The entry still matches its CHECK. -/
  sound  : Bool := true
deriving DecidableEq, Repr, Inhabited

/-- A change-log entry: its 128 bytes (R413) and whether it still passes its chain and ECC check. -/
structure ClgEntry where
  seq   : Nat
  bytes : List Byte
  sound : Bool := true
deriving DecidableEq, Repr, Inhabited

/-- A master's read cursor over the journal or the change log (R433, R434). -/
structure LogCursor where
  pos    : Nat := 0
  staged : Nat := 0
  buffer : List Byte := []
  status : Nat := 0
deriving DecidableEq, Repr, Inhabited

/-! ### Field die inputs -/

/-- A comparator channel WSk. -/
structure Wsc where
  /-- Enabled under R287, since this powered time. -/
  en      : Option Nat := none
  /-- The filter has produced an output. -/
  settled : Bool := false
  /-- The output: damped. -/
  out     : Bool := false
  latch   : Bool := false
  /-- Faults present, by code of R289. -/
  faults  : List Nat := []
  /-- Calibration holds the channel (R290). -/
  stale   : Bool := false
  /-- Powered time at which the last calibration hold ended. -/
  refill  : Option Nat := none
  edges   : Nat := 0
  /-- Last capture stamp. -/
  stamp   : Nat := 0
  /-- Powered time since which the output has been free. -/
  freeAt  : Option Nat := none
  /-- Consecutive failing and passing DAC readbacks, and WREF scans. -/
  dacBad  : Nat := 0
  dacGood : Nat := 0
  refBad  : Nat := 0
  refGood : Nat := 0
  /-- A wake request has been sent in this Watch interval (R294). -/
  woke    : Bool := false
  /-- Trim in force, quarter codes; last calibration result (FD_CAL_TRIM.LAST); powered times of the last accepted trim and of
  the last calibration. -/
  trim    : Int := 0
  calLast : Nat := 0
  trimAt  : Option Nat := none
  calAt   : Option Nat := none
deriving DecidableEq, Repr, Inhabited

/-- A legacy-head event that FD holds until its turn (R286): event time and content. -/
structure HeldLegacy where
  t     : Nat
  sys   : Nat
  kind  : Nat
  cause : Nat
  out   : Bool
  stale : Bool
deriving DecidableEq, Repr, Inhabited

structure LegTx where
  held : List HeldLegacy := []
  seq  : Nat := 0
deriving DecidableEq, Repr, Inhabited

/-- A classified field input (R300): FSIi, BFBc. -/
structure FieldIn where
  /-- High, before inversion; none until it first takes a state. -/
  high  : Option Bool := none
  fault : Bool := false
deriving DecidableEq, Repr, Inhabited

/-- A host conversion request (R299). -/
structure AdcReq where
  input : Nat
  src   : Nat
  avg   : Nat
deriving DecidableEq, Repr, Inhabited

/-- Comparator calibration (R486, R487). -/
structure FdCal where
  /-- Channel held and the powered time of the hold's start. -/
  hold  : Option (Nat × Nat) := none
  /-- The channel next due. -/
  due   : Nat := 0
  /-- The channel is deferred since this powered time; it is tried again at the second one. -/
  deferred : Option (Nat × Nat) := none
deriving DecidableEq, Repr, Inhabited

structure FieldInputs where
  chans  : Table Wsc := []
  legs   : Table LegTx := []
  fsi    : Table FieldIn := []
  bfb    : Table FieldIn := []
  /-- Wake requests on their way to HB. -/
  wakes  : List Nat := []
  req    : Option AdcReq := none
  /-- The supplies have been sampled. -/
  sampled : Bool := false
  /-- Consecutive samples out of range, and the powered time since which the supply has been in range. -/
  bad24  : Nat := 0
  bad5   : Nat := 0
  goodAt : Nat := 0
  cal    : FdCal := {}
  /-- The comparator trims have arrived in a start handshake (R488). -/
  trims  : Bool := false
deriving DecidableEq, Repr, Inhabited

/-! ### Vital outputs, brake tests and reset inputs -/

/-- An off-pulse test (R312): powered time of its start; an off reading seen; powered time of the raise; an on reading seen. -/
structure VoTest where
  start  : Nat
  fell   : Bool := false
  raised : Option Nat := none
  rose   : Bool := false
deriving DecidableEq, Repr, Inhabited

/-- A vital output VOi. -/
structure Vo where
  /-- VOi is high. -/
  level   : Bool := false
  /-- Powered time of a change that no reading has confirmed yet. -/
  changed : Option Nat := none
  /-- Fault STUCK_ON (R309). -/
  stuck   : Bool := false
  /-- Latched faults, codes 2h to 6h. -/
  latched : List Nat := []
  /-- Consecutive 1 ms readings not on while high, not off while low, above I_MAX while high. -/
  notOn   : Nat := 0
  notOff  : Nat := 0
  overrun    : Nat := 0
  /-- Powered time since which every reading lies below I_MIN while high. -/
  below   : Option Nat := none
  test    : Option VoTest := none
  /-- Passed off-pulse tests. -/
  passes  : Nat := 0
  /-- A raise is deferred (R313). -/
  deferred : Bool := false
  volt    : Nat := 0
  cur     : Nat := 0
  /-- Powered time from which the FEEDBACK time limit runs. -/
  fb      : Option Nat := none
  /-- The sections that the structure image names. -/
  map     : List Nat := []
deriving DecidableEq, Repr, Inhabited

/-- An output group: VOGg, fault GROUP, powered times of the start of a running check and retest. -/
structure VoGroup where
  on     : Bool := false
  fault  : Bool := false
  check  : Option Nat := none
  retest : Option Nat := none
deriving DecidableEq, Repr, Inhabited

/-- Steps of a brake test (R315): none; waiting for applied; holding; waiting for the raise; waiting for released. -/
inductive BrkStep where
  | none | apply | hold | okWait | release
deriving DecidableEq, Repr, Inhabited

structure Brake where
  step  : BrkStep := .none
  /-- Powered time at which the step began. -/
  since : Nat := 0
  /-- FD_BRK_RESc. -/
  res   : Nat := 0
deriving DecidableEq, Repr, Inhabited

/-- States of a reset input (R318). -/
inductive RstState where
  | unknown | released | pressed | stuck | fault
deriving DecidableEq, Repr, Inhabited

structure ResetIn where
  st    : RstState := .unknown
  /-- Powered time at which the state was entered. -/
  since : Nat := 0
  /-- The contacts as last classified. -/
  no    : InputClass := .low
  nc    : InputClass := .low
  /-- The pattern present: some true pressed, some false released, none disagree; none before the first. -/
  pat   : Option (Option Bool) := none
  /-- Powered time since which it holds. -/
  patAt : Option Nat := none
  /-- START of the last edge, FD town clock; 0 before the first. -/
  start : Nat := 0
  edges : Nat := 0
deriving DecidableEq, Repr, Inhabited

structure Outputs where
  vo     : Table Vo := []
  groups : Table VoGroup := []
  brk    : Table Brake := []
  rst    : Table ResetIn := []
  /-- Start has been entered and its group check has not begun (R310). -/
  checkDue : Bool := true
  /-- Results of the last commands: FD_VO_CMD_STATUS, FD_BRK_CMD_STATUS. -/
  voRes  : Nat := 0
  brkRes : Nat := 0
  /-- Powered times of the readback conversions of the last millisecond (FD_ADC_STATUS.DEMAND). -/
  reads  : List Nat := []
deriving DecidableEq, Repr, Inhabited

/-! ### Package merge, isolation channels, pairs and combination -/

/-- A receiver's account of one span's or legacy head's sequence numbers (R186, R292): the last one accepted, none where the next
is accepted whatever it is; 0 is accepted as a restart. -/
structure SeqTrack where
  last    : Option Nat := none
  restart : Bool := false
deriving DecidableEq, Repr, Inhabited

/-- A die link declared silent (R20, R223): powered times of the last valid frame before and of the declaration; the replay has
failed; the events the die keeps, and those that reached HB after the declaration (R38), oldest first; more than 8,192. -/
structure Silence where
  since    : Nat
  declared : Nat
  failed   : Bool := false
  buffer   : List (List Byte) := []
  late     : List (List Byte) := []
  overrun     : Bool := false
deriving DecidableEq, Repr, Inhabited

/-- What HB sends the ledger over ISO-A (R16): an event with the release horizon, a horizon mark, a cycle mark with its town-clock
time, its horizon, the ordering keys of the last released event of the cycle (R263) and its commands, a span-restart mark, the end
of an accepted replay. -/
inductive IsoItem where
  | event (src : Nat) (bytes : List Byte) (hz : Nat) (replay : Bool)
  | mark (hz : Nat)
  | cycle (n tc hz key : Nat) (cmds : List QueuedCmd)
  | spanRestart (d home : Nat)
  | replayDone (d : Nat)
deriving DecidableEq, Repr

/-- The stream as the processor channel takes it at a boundary. -/
inductive ProcItem where
  | event (src : Nat) (bytes : List Byte)
  | replayDone (d : Nat)
deriving DecidableEq, Repr

structure Merge where
  /-- Last watermark by source: dies 0 to 3, FD 4. -/
  marks   : Table Nat := []
  /-- Events held for release: source and bytes. -/
  held    : List (Nat × List Byte) := []
  /-- Powered time of the last valid frame by 2 × link + 1 towards HB (0 from HB): die links 0 to 3, ISO-A 4, ISO-B 5. -/
  frames  : Table Nat := []
  /-- Frames discarded by link (R17). -/
  errors  : Table Nat := []
  silent  : Table Silence := []
  /-- HB's sequence accounts by 1,024 × source + home lane or legacy head. -/
  seqs    : Table SeqTrack := []
  /-- FD is a live source (R35). -/
  fdSource : Bool := false
  /-- Release horizon. -/
  hz      : Nat := 0
  /-- Ordering keys of the last released event. -/
  lastKey : Nat := 0
  /-- Powered time of the last released event or horizon mark. -/
  sentAt  : Nat := 0
  /-- The released stream that the processor channel has not applied yet. -/
  procIn  : List ProcItem := []
  isoA    : List IsoItem := []
  /-- ISO-A and ISO-B have exceeded their silence limit; powered times since which they are live. -/
  deadA   : Bool := false
  deadB   : Bool := false
  goodA   : Nat := 0
  goodB   : Nat := 0
  /-- Crossing faults reported to the package level, which owns the islands of HB (R28). -/
  pkgFaults : Nat := 0
deriving DecidableEq, Repr, Inhabited

inductive PairState where
  | inService | faulted | returning | halted
deriving DecidableEq, Repr, Inhabited

/-- A lockstep pair as HB_SAF shows it. -/
structure PairSt where
  st     : PairState := .inService
  /-- HB_SAF_FAULT.CAUSE and COUNT. -/
  cause  : Nat := 0
  count  : Nat := 0
  /-- Passed self-test injections. -/
  passes : Nat := 0
  /-- Position of the compared bit that the next injection inverts. -/
  bit    : Nat := 0
  /-- A returning pair has passed its self-test; it holds the vital state and runs; cycles without a difference. -/
  tested : Bool := false
  copied : Bool := false
  run    : Nat := 0
deriving DecidableEq, Repr, Inhabited

/-- A verdict (R31, R37, R252): cycle, section states by number, ordering keys of its horizon, town-clock stamp. -/
structure Verdict where
  cycle  : Nat
  states : Table Nat
  key    : Nat
  stamp  : Nat := 0
deriving DecidableEq, Repr, Inhabited

/-- A segment on ISO-B (R252, R253): cycle, index, the pair that formed it, its states as the selector sends them and as the Standby
formed them, the horizon and stamp of its verdict, and its check value as it arrives. -/
structure Segment where
  cycle  : Nat
  index  : Nat
  pairB  : Bool
  states : Table Nat
  other  : Table Nat
  key    : Nat := 0
  stamp  : Nat := 0
  check  : Nat := 0
deriving DecidableEq, Repr, Inhabited

/-- Section states of a cycle as FD holds them, of a whole verdict or of the ledger (R31, R37, R263): ordering keys of the horizon,
town-clock stamp, states. -/
structure CycleStates where
  key    : Nat := 0
  stamp  : Nat := 0
  states : Table Nat := []
deriving DecidableEq, Repr, Inhabited

structure Saf where
  a : PairSt := {}
  b : PairSt := {}
  activeB : Bool := false
  /-- The pair being returned, true for B (HB_SAF_CMD_STATUS.BUSY). -/
  busy   : Option Bool := none
  swap   : Bool := false
  res    : Nat := 0
  /-- Consecutive cycles with a selector difference. -/
  diffs  : Nat := 0
  /-- The processor channel, with HB's copy of what the structure gives it, and whether a pair (or core 0) runs it. -/
  chan   : Channel := {}
  running : Bool := false
  /-- Cycle number, powered and town-clock time of the last boundary (R251). -/
  cycle  : Nat := 0
  cycleAt : Nat := 0
  cycleTc : Nat := 0
  /-- A boundary at which a commit has taken effect and which has not been numbered yet. -/
  dueAt  : Option Nat := none
  /-- The verdict of the current cycle, while it has not been sent. -/
  ready  : Option Verdict := none
  /-- The Standby's verdict of the current cycle has come. -/
  standbyIn : Bool := false
  /-- The processor states of the last verdict sent: what code P carries (R270). -/
  sentCycle : Nat := 0
  sentStates : Table Nat := []
  /-- The same as the Standby formed them: what the telegrams carry after a switch (R255). -/
  sentOther : Table Nat := []
  /-- Segments on their way to FD. -/
  segs   : List Segment := []
deriving DecidableEq, Repr, Inhabited

/-- A comparison of R266: cycle, processor states, ledger states. -/
structure Compared where
  cycle : Nat
  proc  : Table Nat
  led   : Table Nat
deriving DecidableEq, Repr, Inhabited

/-- FD's combination and Safe-stop (R261 to R273). -/
structure FdSafe where
  led     : Channel := {}
  seqs    : Table SeqTrack := []
  /-- Emission stamp of the last live event, and keys of the last event of the replay in progress (R36). -/
  lastEmit : Option Nat := none
  lastKey  : Option Nat := none
  /-- Ledger cycle states of the last 16 cycles, newest first. -/
  cycles  : List (Nat × CycleStates) := []
  /-- Segments assembled by cycle: indices held, states; and whole verdicts not compared yet. -/
  parts   : Table (List Nat × Table Nat) := []
  whole   : Table CycleStates := []
  /-- The cycles up to which every whole verdict and every cycle mark has come (R265), and later ones that have come; each account
  is late at VERDICT_TMO. -/
  verdict : Nat := 0
  mark    : Nat := 0
  verdictAhead : List Nat := []
  markAhead    : List Nat := []
  verdictLate : Bool := true
  markLate    : Bool := true
  /-- Powered time since which the processor channel has not been live. -/
  deadAt  : Option Nat := some 0
  split   : Bool := false
  fault   : Bool := false
  internal : Bool := false
  /-- The start handshake has completed since the last FD reset: the silence limits of ISO-A and ISO-B apply (R523). -/
  shaken  : Bool := false
  /-- FD resets so far. -/
  resets  : Nat := 0
  /-- FD's copy of the structure: its share as HB delivered it (R261, R396). -/
  copy    : List SFrame := []
  /-- The digest of that copy equals the one HB sent (R261). -/
  digestOk : Bool := true
  cmp     : Option Compared := none
  /-- Discord holds: consecutive agreeing cycles by section. -/
  hold    : Table Nat := []
  /-- Consecutive cycles with a discord. -/
  run     : Nat := 0
  discSec : Nat := 0
  discCount : Nat := 0
  /-- Safe-stop causes present and the first one (R271); FD town-clock time at which the last one cleared. -/
  causes  : List Nat := []
  first   : Option Nat := none
  cleared : Nat := 0
deriving DecidableEq, Repr, Inhabited

/-! ### Power, reset and boot -/

/-- A signed settings record in force (R532). -/
structure Settings where
  split  : Bool
  jtag   : Bool
  blow   : Bool
  expiry : Nat
deriving DecidableEq, Repr, Inhabited

structure Boot where
  /-- The logic side is out of reset. -/
  up       : Bool := true
  /-- Step 3 of R525 has passed: values of the NV store are loaded (R12). -/
  nvLoaded : Bool := false
  /-- HB_BOOT_STATUS.STAGE. -/
  stage    : Nat := 0
  /-- Firmware B runs. -/
  fwB      : Bool := false
  structFail : Bool := false
  split    : Bool := false
  jtagOpen : Bool := false
  /-- HB_BOOT_RESET.CAUSE. -/
  cause    : Nat := 0
  watchdogs : Nat := 0
  fdResets : Nat := 0
  /-- HB_BOOT_TIME, ms. -/
  bootMs   : Nat := 0
  /-- Powered time of reset release or of wake. -/
  since    : Nat := 0
  /-- The reference condition of R530 has been dropped. -/
  refDropped : Bool := false
  /-- Powered time at which the current start handshake began; none while none runs. -/
  handshake : Option Nat := none
  /-- The ISO-B start handshake has completed since the last reset of either side. -/
  shaken   : Bool := false
  /-- Fuses. -/
  splitFuse : Bool := false
  fwKeys   : Nat := 1
  uid      : Nat := 0
  /-- The settings record as stored, 96 bytes or none; the one that took effect at this boot. -/
  record   : List Byte := []
  settings : Option Settings := none
  /-- Firmware slot generations A, B (0 is an invalid slot) and whether the slots hold what was written to them. -/
  fwGenA   : Nat := 1
  fwGenB   : Nat := 0
  fwSoundA : Bool := true
  fwSoundB : Bool := true
  /-- PORST_N is low; the reset of R520 is held. -/
  porst    : Bool := false
  pfHold   : Bool := false
  /-- PWR_FAIL_N has been taken (R437) and when. -/
  pwrFail  : Option Nat := none
  /-- Commands discarded then. -/
  discarded : Nat := 0
  writeProt : Bool := false
  lastUnsignalled : Bool := false
  /-- The open flag of the NV system area (R438). -/
  openFlag : Bool := false
  signalled : Nat := 0
  unsignalled : Nat := 0
  /-- A DEVICE_RESET has been accepted and its response sent at this powered time. -/
  resetDue : Option Nat := none
deriving DecidableEq, Repr, Inhabited

/-! ### Temperature profiles and acoustic windows -/

/-- A port's temperature profile (R228 to R233): CFG and COEF in force, records formed, a town-clock step in the second, the epoch of
the last record. -/
structure TprPort where
  cfg     : Word := 0
  coef    : Word := 0
  records : Nat := 0
  /-- The second of the next record; none before the first row of the port. -/
  next    : Option Nat := none
  /-- The seconds before and after a town-clock step (R232). -/
  step    : Option (Nat × Nat) := none
  epoch   : Option Nat := none
  /-- The second of the latest register write, and CFG and COEF as that second began (R242). -/
  wrote   : Option (Nat × Word × Word) := none
deriving DecidableEq, Repr, Inhabited

/-- An acoustic window: the next period of its output, the blocks dropped since the last one written, the ring offset after the
last block accepted (PROD, once that block has left the export queue). -/
structure AcwRun where
  start : Nat := 0
  gap   : Nat := 0
  head  : Nat := 0
deriving DecidableEq, Repr, Inhabited

/-- A block in the export queue of a PCIe port (R240): its window, what is written at which host addresses, PROD after it. -/
structure AcwOut where
  w      : Nat
  writes : List (Nat × List Byte)
  next   : Nat
deriving DecidableEq, Repr, Inhabited

/-! ### Forerunner window -/

structure Frw where
  head   : Nat := 1
  sec    : Nat := 1
  rstSel : Nat := 0
  result : Nat := 0
  /-- The first write of a pair: register, value, town-clock time. -/
  first  : Option (Nat × Nat × Nat) := none
  /-- The time of a 5Ah that A5h may follow. -/
  key    : Option Nat := none
  /-- CNT_D1 and CNT_D2, and the event time of the last ON or OFF event, by legacy head. -/
  counts : Table (Nat × Nat) := []
  stamps : Table Nat := []
  /-- Latches of COUNT_HI and TS_HI, none while released. -/
  cntLatch : Option Nat := none
  tsLatch  : Option Nat := none
deriving DecidableEq, Repr, Inhabited

/-! ### Host links -/

/-- A datagram that has passed the filters: the port, TYPE, SESSION, MSEQ, the payload from byte 16. -/
structure NetMsg where
  port : Nat
  type : Nat
  session : Nat
  mseq : Nat
  body : List Byte
deriving DecidableEq, Repr, Inhabited

/-- A UDP session: its number, the last MSEQ sent, the highest MSEQ accepted, the requests executed with their stored response
(TYPE and body, none while it is owed), the powered times of the last valid datagram received and of the last one sent, the last
ESEQ. -/
structure Session where
  up    : Bool := false
  num   : Nat := 0
  mseq  : Nat := 0
  high  : Nat := 0
  done  : Table (Option (Nat × List Byte)) := []
  rxAt  : Nat := 0
  txAt  : Nat := 0
  eseq  : Nat := 0
deriving DecidableEq, Repr, Inhabited

/-- A PCIe port: link trained, SPEED and WIDTH as HB_LNK_STATUS codes them. -/
structure PciePort where
  up    : Bool := false
  speed : Nat := 0
  width : Nat := 0
deriving DecidableEq, Repr, Inhabited

/-- An Ethernet port: link as HB_NET_STAT codes it; datagrams and echo requests of the powered second in progress. -/
structure EthPort where
  link   : Nat := 0
  second : Nat := 0
  count  : Nat := 0
  echoes : Nat := 0
deriving DecidableEq, Repr, Inhabited

/-- A telegram formed for a domain and not sent yet: cycle, powered time of the boundary, bytes 16 to 1079, CODE_P (none: P_INVALID). -/
structure Telegram where
  cycle   : Nat
  since   : Nat
  payload : List Byte
  codeP   : Option Nat
deriving DecidableEq, Repr, Inhabited

/-- The MSI-X table and the pending bits of a PCIe endpoint (R544): words of the table that differ from their reset value, by
number; 64 pending bits. -/
structure Msix where
  table : Table Word := []
  pend  : BitVec 64 := 0
deriving DecidableEq, Repr, Inhabited

structure Links where
  pcie     : Table PciePort := []
  msix     : Table Msix := []
  eth      : Table EthPort := []
  sessions : Table Session := []
  /-- The last session number issued. -/
  lastNum  : Nat := 0
  inbox    : Table (List NetMsg) := []
  tseq     : Table Nat := []
  telegrams : Table Telegram := []
  /-- The cycle of the last telegram formed, by domain. -/
  formed   : Table Nat := []
  /-- Telegram headers on their way to FD, and FD's answers on their way back: domain, cycle, bytes 16 to 55 or code H. -/
  headers  : List (Nat × Nat × List Byte) := []
  codes    : List (Nat × Nat × Option Nat) := []
  mboxBusy  : Bool := false
  mboxReady : Bool := false
deriving DecidableEq, Repr, Inhabited

/-! ### DMA engines -/

inductive DmaSt where
  | idle | queued | running | frozen
deriving DecidableEq, Repr, Inhabited

/-- A channel as its STAT, EXEC, PROGS and SIGVAL show it. -/
structure DmaChan where
  st      : DmaSt := .idle
  res     : Nat := 15
  abortIgn : Bool := false
  slot    : Bool := false
  ignored : Nat := 0
  retries : Nat := 0
  exec    : Nat := 0
  progs   : Nat := 0
  cur     : Nat := 0
  sigval  : Nat := 0
deriving DecidableEq, Repr, Inhabited

/-- A loop-stack entry (R450). -/
structure DmaLoop where
  addr : Nat
  left : Nat
  soff : Int
  doff : Int
deriving DecidableEq, Repr, Inhabited

/-- Where a run stands: the slot of a program to be fetched; an instruction to be fetched; a fetched instruction to be executed;
a wait since a powered time, the source's raises by then; the final write-back of a result. -/
inductive DmaPhase where
  | slot
  | fetch
  | instr (bytes : List Byte)
  | wait (bytes : List Byte) (since raises : Nat)
  | writeBack (result : Nat)
deriving DecidableEq, Repr, Inhabited

/-- The run of a channel: its settings as they stood at the start, the program and the offset of the instruction, the loop stack
(top first), the running check value, instructions executed in the run and in the program, programs entered, retries of the run,
of the program and of the failing burst. -/
structure DmaRun where
  ch     : Nat
  cfg    : Word
  budget : Nat
  prog   : Nat
  pc     : Nat := 16
  phase  : DmaPhase := .slot
  stack  : List DmaLoop := []
  crc    : Nat := 0
  exec   : Nat := 0
  progExec : Nat := 0
  progs  : Nat := 1
  retries : Nat := 0
  progRetries : Nat := 0
  tries  : Nat := 0
  /-- Bytes of the MOVE in hand that have been moved. -/
  moved  : Nat := 0
  /-- The burst of the access in hand has failed and waits for its retry (R457). -/
  failed : Bool := false
deriving DecidableEq, Repr, Inhabited

structure DmaEng where
  queue : List Nat := []
  run   : Option DmaRun := none
  chans : Table DmaChan := []
deriving DecidableEq, Repr, Inhabited

/-! ### Check-value units -/

/-- A check-value unit: STATE, LAST, DISAGREE, RECORDS, RESULT and BAD of HB_CVU; powered time at which the last pass started;
the range of the running pass has been written. -/
structure Cvu where
  run     : Bool := false
  waiting : Bool := false
  last    : Nat := 0
  disagree : Bool := false
  records : Nat := 0
  result  : Nat := 0
  bad     : Nat := 0
  since   : Nat := 0
  stale   : Bool := false
  /-- A pass of CV0 or CV1 is the repeat after a restore. -/
  again   : Bool := false
  /-- What the NV regions held when the pass started. -/
  marks   : List Nat := []
deriving DecidableEq, Repr, Inhabited

/-! ### Cabinet panel -/

structure Panel where
  /-- Frame of the scan in the town-clock second, and the row whose slot runs. -/
  frame  : Nat := 0
  row    : Option Nat := none
  /-- Column duties of the row slot, in low-speed cycles; the column that the slot tests. -/
  duty   : List Nat := []
  test   : Option Nat := none
  /-- Powered time at which the frame started, and of the last NTC reading. -/
  frameAt : Option Nat := none
  ntcAt   : Option Nat := none
  /-- HB_PNL_GAMMA, HB_PNL_PIX and BRIGHT in force, by window offset. -/
  live   : Table Word := []
  bright : Nat := 0
  ntc    : Nat := 0
  der    : Nat := 0
  ntcFault : Bool := false
  /-- Consecutive NTC readings in range. -/
  ntcGood  : Nat := 0
  /-- Consecutive failed and passed tests by 32 × row + column. -/
  tests  : Table (Nat × Nat) := []
  /-- Powered time at which the last chain frame started, and its bytes. -/
  chainAt : Option Nat := none
  chain   : List Byte := []
  /-- The chain frame of zeros of Watch has been sent. -/
  blanked : Bool := false
deriving DecidableEq, Repr, Inhabited

/-- The levels of the panel's outputs (R496): bit r of `rows` is PNL_ROWr, bit c of `cols` PNL_COLc. -/
structure PanelPins where
  rows  : BitVec 16 := 0
  cols  : BitVec 32 := 0
  pre   : Bool := false
  chain : Bool := false
deriving DecidableEq, Repr, Inhabited

/-! ### The machine -/

structure State where
  /-- The commands that wait, first in first out. -/
  pending : List Instr := []
  /-- Powered time, ns: the time base of every interval that is not measured on the town clock. -/
  now     : Nat := 0
  dev     : DeviceState := .start
  tc      : TownClock := {}
  /-- Registers by window offset; an unlisted one holds its value after reset. -/
  regs    : Table Word := []
  /-- Each master's own copies (R541), by master code × 2³² + window offset. -/
  mregs   : Table Word := []
  boot    : Boot := {}
  /-- FD is out of reset (R518). -/
  fdUp    : Bool := true
  ofe     : Table Ofe := []
  psy     : Table Psy := []
  dmd     : Table Demod := []
  lbq     : Table DieLbq := []
  /-- Sensors by 2,048 × die + entry. -/
  sensors : Table Sensor := []
  cal     : Table CalPort := []
  /-- Comparator trims that HB holds for the next calibration set (R488), in quarter codes. -/
  hbTrims : Table Int := []
  /-- Trim reports on their way from FD, oldest first: channel, trim. -/
  trimReports : List (Nat × Int) := []
  /-- Powered time of the first trim report that no calibration set holds yet. -/
  trimSince : Option Nat := none
  fdin    : FieldInputs := {}
  outs    : Outputs := {}
  mrg     : Merge := {}
  saf     : Saf := {}
  fds     : FdSafe := {}
  str     : Str := {}
  tpr     : Table TprPort := []
  acw     : Table AcwRun := []
  /-- The export queues of the PCIe ports, oldest block first. -/
  acwq    : Table (List AcwOut) := []
  frw     : Frw := {}
  links   : Links := {}
  dma     : Table DmaEng := []
  cvu     : Table Cvu := []
  panel   : Panel := {}
  /-- Memory: the plaza at its global addresses (R546, R548), host memory of PCIe port p at 2⁶⁴ × (p + 1) + address; rising
  addresses, no zero byte listed. -/
  mem     : List Host.Cell := []
  lease   : Lease := {}
  frozen  : List Frozen := []
  frzRecs : List (Nat × FreezeRec) := []
  frzOver : Bool := false
  maintPwd  : Password := {}
  safetyPwd : Password := {}
  queue   : List QueuedCmd := []
  cmds    : Table DomainCmds := []
  responses : List Response := []
  /-- How often each event source has been raised. -/
  raised  : Table Nat := []
  due     : List DueEntry := []
  /-- Domains whose ring has lost an entry since the last one written to it (R365). -/
  evOver  : List Nat := []
  /-- By 1024 × domain + source: the raise stamp of the last entry and the raises merged since (R363). -/
  merge   : Table (Nat × Nat) := []
  /-- The outputs of the block, newest first: replies, datagrams, telegrams, interrupts. -/
  sent    : List Sent := []
  snaps   : Table Snapshot := []
  wp      : Table WpRec := []
  journal : List JEntry := []
  jseq    : Nat := 0
  jcur    : Table LogCursor := []
  clog    : List ClgEntry := []
  clgLast : Nat := 0
  clgFirst : Nat := 1
  clgAnchor : List Byte := []
  clgCur  : Table LogCursor := []
  bankA   : CalBank := {}
  bankB   : CalBank := {}
  /-- Powered time of the last whole 100 ms from reset at which the WP registers gained their tokens (R424). -/
  tokensAt : Nat := 0
  /-- A bank write in progress: true is bank B (R427). -/
  bankWriting : Option (Bool × CalSet) := none
  bankWaiting : Option CalSet := none
  /-- The model's own count of the free values taken so far (Config.nvStepsDone); no part of the machine. -/
  freeCount : Nat := 0
deriving DecidableEq, Repr, Inhabited

/-- Faults of the block: the cases in which the spec calls the device's behaviour undefined. -/
inductive Fault where
  /-- A write of a register at a window offset with a reserved bit that is not 0: undefined (R11); 0 where one command writes
  several words. Raised by every command that writes a register, by a DMA program's store and by a mailbox submission (safe: the
  block stops where the hardware does something unknown). -/
  | reservedField (a : Nat)
  /-- A reserved byte of a command record, of a datagram's envelope or of a DMA status slot is not 0: undefined (R11). Raised by the
  commands that take such a record, datagram or slot (safe). -/
  | reservedBytes
deriving DecidableEq, Repr

/-- Refusals. -/
inductive Refusal where
  /-- The command of this mnemonic has no meaning yet (safe): raised by the arms of exec alone. -/
  | notModelled (mnemonic : String)
deriving DecidableEq, Repr

/-- The machine right after reset: every field at the value of its declaration (R12, R522). -/
def State.reset : State := {}

end Sys2Proof.Machine
end

