-- ==== Sys2Proof/Machine/Ops.lean ====
section
/-!
DEFINITION. The named operations every family uses: sparse tables, register files, bit fields, events and their sources, the
passage of time, rounding.
-/
namespace Sys2Proof.Machine

/-! ### Sparse tables -/

/-- The entry of key `k`, if listed. -/
def tfind {α : Type} : Table α → Nat → Option α
  | [], _ => none
  | (j, a) :: t, k => if j = k then some a else tfind t k

/-- The value of key `k`: `d` where it is not listed. -/
def tget {α : Type} (t : Table α) (d : α) (k : Nat) : α := (tfind t k).getD d

/-- The table with key `k` set to `a`. -/
def tset {α : Type} : Table α → Nat → α → Table α
  | [], k, a => [(k, a)]
  | (j, b) :: t, k, a =>
    if k < j then (k, a) :: (j, b) :: t
    else if k = j then (k, a) :: t
    else (j, b) :: tset t k a

/-- The table without key `k`. -/
def tdel {α : Type} : Table α → Nat → Table α
  | [], _ => []
  | (j, b) :: t, k => if j = k then tdel t k else (j, b) :: tdel t k

/-! ### Bit fields -/

/-- The number in bits [lo + len − 1 : lo]. -/
def fld (w : Word) (lo len : Nat) : Nat := w.toNat / 2 ^ lo % 2 ^ len

/-- Bit `i` of a word. -/
def bitOf (w : Word) (i : Nat) : Bool := w.getLsbD i

/-- A Bool as the number 0 or 1. -/
def b2n (b : Bool) : Nat := if b then 1 else 0

/-- The word with the number `v` in bits [lo + len − 1 : lo]. -/
def putFld (w : Word) (lo len v : Nat) : Word :=
  BitVec.ofNat 32 (w.toNat - (w.toNat / 2 ^ lo % 2 ^ len) * 2 ^ lo + (v % 2 ^ len) * 2 ^ lo)

/-- The two's-complement number in the low `len` bits. -/
def sext (v len : Nat) : Int :=
  if v % 2 ^ len < 2 ^ (len - 1) then (v % 2 ^ len : Nat) else (v % 2 ^ len : Nat) - (2 ^ len : Nat)

/-- The signed field in bits [lo + len − 1 : lo]. -/
def sfld (w : Word) (lo len : Nat) : Int := sext (fld w lo len) len

/-- A number held between two ends (both included). -/
def clampNat (lo hi v : Nat) : Nat := max lo (min hi v)

/-- An integer held between two ends (both included). -/
def clampInt (lo hi v : Int) : Int := max lo (min hi v)

/-- The low `len` bits of an integer, as a register field holds it. -/
def toField (len : Nat) (v : Int) : Nat := (v % (2 ^ len : Nat)).toNat

/-- A word built from fields (lo, len, value). -/
def word (fs : List (Nat × Nat × Nat)) : Word :=
  BitVec.ofNat 32 (fs.foldl (fun acc (lo, len, v) => acc + (v % 2 ^ len) * 2 ^ lo) 0)

/-- The low word of a number. -/
def lo32 (n : Nat) : Word := BitVec.ofNat 32 n

/-- Bits [63:32] of a number. -/
def hi32 (n : Nat) : Word := BitVec.ofNat 32 (n / 2 ^ 32)

/-- Set one bit of a word. -/
def setBit (w : Word) (i : Nat) : Word := w ||| BitVec.ofNat 32 (2 ^ i)

/-- The word whose bit i is `f i`. -/
def bitsWord (f : Nat → Bool) : Word :=
  BitVec.ofNat 32 ((List.range 32).foldl (fun acc i => acc + b2n (f i) * 2 ^ i) 0)

/-- The little-endian number of a byte list (R13). -/
def leNat : List Byte → Nat
  | [] => 0
  | b :: t => b.toNat + 256 * leNat t

/-- The `n` little-endian bytes of a number. -/
def leBytes : (n v : Nat) → List Byte
  | 0, _ => []
  | n + 1, v => BitVec.ofNat 8 v :: leBytes n (v / 256)

/-- The big-endian number of a byte list. -/
def beNat (l : List Byte) : Nat := leNat l.reverse

/-- The `n` big-endian bytes of a number (network byte order). -/
def beBytes (n v : Nat) : List Byte := (leBytes n v).reverse

/-- Bytes [i, i + n) of a record. -/
def bytesAt (l : List Byte) (i n : Nat) : List Byte := (l.drop i).take n

/-! ### Rounding of exact values to register steps -/

/-- An exact value in whole register steps: itself where it is whole, else one of its two neighbours as the device rounds. -/
def roundRat (x : Rat) : Int :=
  if x.den = 1 then x.num else x.floor + (if Config.roundUp x then 1 else 0)

/-- The nearest integer; a half goes up. -/
def roundNear (x : Rat) : Int := (x + 1 / 2).floor

/-- π to twenty decimals. -/
def piRat : Rat := 314159265358979323846 / 100000000000000000000

/-- The magnitude of an exact value. -/
def ratAbs (x : Rat) : Rat := if x < 0 then -x else x

/-- The value of an IEEE 754 single, none where it is not finite. -/
def floatVal (w : Word) : Option Rat :=
  let e := fld w 23 8
  let f := fld w 0 23
  let s : Rat := if bitOf w 31 then -1 else 1
  if e = 255 then none
  else if e = 0 then some (s * f / 2 ^ 149)
  else if e < 150 then some (s * (f + 2 ^ 23 : Nat) / 2 ^ (150 - e))
  else some (s * (f + 2 ^ 23 : Nat) * 2 ^ (e - 150))

/-! ### Register files -/

/-- The register at a window offset: its written value, else its value after reset. -/
def State.reg (s : State) (a : Nat) : Word := (tfind s.regs a).getD (resetOf a)

def State.setReg (s : State) (a : Nat) (v : Word) : State := { s with regs := tset s.regs a v }

/-- The number of a master among the masters that own copies (R541). -/
def masterCode : Master → Nat
  | .host d => d
  | .firmware => 8
  | .core c => 9 + c

/-- The master with a number of `masterCode`. -/
def masterOf (n : Nat) : Master :=
  if n < 8 then .host n else if n = 8 then .firmware else .core (n - 9)

/-- A master's own copy of the register at a window offset (R541). -/
def State.mreg (s : State) (m : Master) (a : Nat) : Word :=
  (tfind s.mregs (masterCode m * 2 ^ 32 + a)).getD (resetOf a)

def State.setMreg (s : State) (m : Master) (a : Nat) (v : Word) : State :=
  { s with mregs := tset s.mregs (masterCode m * 2 ^ 32 + a) v }

/-! ### Events and sources -/

/-- A frozen master (R359). -/
def State.isFrozen (s : State) (m : Master) : Bool :=
  match m with
  | .host d => s.frozen.contains (.domain d)
  | .core c => s.frozen.contains (.core c)
  | .firmware => false

/-- Whether a domain is routed a source, 0 to 1,023, and has not masked it (R362, R363). -/
def State.receives (s : State) (d src : Nat) : Bool :=
  decide (src < 1024) && bitOf (s.reg (Reg.HB_EVR_ROUTE src)) d &&
    !bitOf (s.mreg (.host d) (Reg.HB_EVR_MASK (src / 32))) (src % 32)

/-- A raise towards one domain: the pending bit, and for HD0 to HD6 an entry that becomes due, or a merge into the last one
where that lies within 100 µs (R363). A frozen domain is written no entry (R359). -/
def State.raiseTo (src : Nat) (data : Word) (s : State) (d : Nat) : State :=
  if s.receives d src then
    let a := Reg.HB_EVR_PEND (src / 32)
    let s := s.setMreg (.host d) a (setBit (s.mreg (.host d) a) (src % 32))
    if 7 ≤ d || s.isFrozen (.host d) then s
    else
      match tfind s.merge (1024 * d + src) with
      | some (last, n) =>
        if s.tc.now - last ≤ 100000 then
          { s with merge := tset s.merge (1024 * d + src) (last, n + 1) }
        else
          { s with
            merge := tset s.merge (1024 * d + src) (s.tc.now, 0)
            due := s.due ++ [⟨d, src, s.tc.now, min n 0xFFFF, data⟩] }
      | none =>
        { s with
          merge := tset s.merge (1024 * d + src) (s.tc.now, 0)
          due := s.due ++ [⟨d, src, s.tc.now, 0, data⟩] }
  else s

/-- Raise an event source (R362, R363). -/
def State.raise (s : State) (src : Nat) (data : Word) : State :=
  (List.range 8).foldl (fun s d => s.raiseTo src data d)
    { s with raised := tset s.raised src (tget s.raised 0 src + 1) }

/-- The source that each event register feeds (R362); the item sources of comparators, windows, channels and units are raised
beside their registers. -/
def evtSource (a : Nat) : Option Nat :=
  match blockOf a with
  | some (.tc, _, 0x34) => some 0
  | some (.saf, _, 0x04) => some 1
  | some (.lease, _, 0x10) => some 2
  | some (.jnl, _, 0x1C) => some 5
  | some (.str, _, 0x04) => some 6
  | some (.cpt, _, 0x04) => some 7
  | some (.sec, _, 0x0C) => some 8
  | some (.frm, _, 0x04) => some 9
  | some (.tpr, _, 0x40) => some 10
  | some (.acw, _, 0x04) => some 11
  | some (.pnl, _, 0x08) => some 13
  | some (.nv, _, 0x04) => some 14
  | some (.ofe, n, 0x08) => some (64 + 32 * n)
  | some (.psy, n, 0x24) => some (65 + 32 * n)
  | some (.dmd, n, 0x08) => some (66 + 32 * n)
  | some (.dmd, n, 0x5C) => some (67 + 32 * n)
  | some (.lbq, n, 0x04) => some (68 + 32 * n)
  | some (.wsd, n, 0x14) => some (69 + 32 * n)
  | some (.cmb, _, 0x04) => some 192
  | some (.vo, _, 0x0C) => some 193
  | some (.brk, _, 0x0C) => some 194
  | some (.rst, _, 0x08) => some 195
  | some (.adc, _, 0x04) => some 196
  | some (.fsi, _, 0x08) => some 197
  | _ => none

/-- Set bit `i` of an event register; a change from 0 to 1 raises its source (R362). -/
def State.setEvt (s : State) (a i : Nat) : State :=
  if bitOf (s.reg a) i then s
  else
    let w := setBit (s.reg a) i
    let s := s.setReg a w
    match evtSource a with
    | some src => s.raise src w
    | none => s

/-- Do `f` where `b` holds. -/
def State.when (s : State) (b : Bool) (f : State → State) : State := if b then f s else s

/-- Append to the outputs. -/
def State.send (s : State) (o : Sent) : State := { s with sent := o :: s.sent }

/-! ### Roles -/

/-- The roles of a domain as HB_HST_ROLEd codes them (R341): while no structure is live HD0, HD1 and HD7 are Observer, Maintainer
and Configurator, and every other domain is closed (R414). -/
def State.roles (s : State) (d : Nat) : Word :=
  if s.str.live.isSome then s.reg (Reg.HB_HST_ROLE d) else if d = 0 ∨ d = 1 ∨ d = 7 then 0xD else 0

/-- A bit of a domain's role word. -/
def State.roleBit (s : State) (d i : Nat) : Bool := bitOf (s.roles d) i

/-- The roles a register or command rule asks for. -/
inductive Role where
  | none | partner | maintainer | configurator
deriving DecidableEq, Repr

/-- Whether a master holds a role; the hub firmware and hub cores are the device's own masters, which no role rule names. -/
def State.holdsRole (s : State) (m : Master) (r : Role) : Bool :=
  match m with
  | .host d =>
    match r with
    | .none => true
    | .partner => s.roleBit d 1
    | .maintainer => s.roleBit d 2
    | .configurator => s.roleBit d 3
  | _ => true

/-- A domain with no role granted is closed (R340). -/
def State.domClosed (s : State) (d : Nat) : Bool := fld (s.roles d) 0 5 == 0

/-! ### Time -/

/-- HB_TC_SLEW_LIMIT in ppm. -/
def State.slewPpm (s : State) : Nat := fld (s.reg Reg.HB_TC_SLEW_LIMIT) 0 9

/-- FD's copy after `dt` and the slew still to be applied: it moves by `gain`, what the master gains in that time where messages
keep it on the master's rate (R39), and by at most the slew limit more or less; it never decreases (R40). -/
def fdAdvance (t : TownClock) (gain ppm dt : Nat) : TownClock :=
  let lim : Int := (dt * ppm / 1000000 : Nat)
  let c := clampInt (-lim) lim t.fdSlew
  { t with fd := t.fd + ((gain : Int) + c).toNat, fdSlew := t.fdSlew - c }

/-- The master after `dt` of powered time at its frequency correction. -/
def hbAdvance (t : TownClock) (dt : Nat) : TownClock :=
  let u := t.frac + dt * ((10 ^ 10 : Int) + t.freq).toNat
  { t with now := t.now + u / 10 ^ 10, frac := u % 10 ^ 10 }

/-- FD follows the master's rate: the start handshake has completed and ISO-B, which carries the slew messages, is live (R16, R39). -/
def State.fdFollows (s : State) : Bool := s.boot.shaken && !s.mrg.deadB

/-- The passage of `dt` nanoseconds. -/
def State.elapse (s : State) (dt : Nat) : State :=
  let h := hbAdvance s.tc dt
  { s with now := s.now + dt, tc := fdAdvance h (if s.fdFollows then h.now - s.tc.now else dt) s.slewPpm dt }

/-- What a command answers. -/
abbrev Out := Host.Outcome State Fault Refusal

/-- A command's step: `dt` nanoseconds pass, then its effect. -/
def State.after (s : State) (dt : Nat) (f : State → State) : Out := .next (f (s.elapse dt))

/-- A step of the logic side: nothing of it happens while the logic side is held in reset (R517, R520). -/
def State.afterHb (s : State) (dt : Nat) (f : State → State) : Out := s.after dt fun s => s.when s.boot.up f

/-- A step of FD: nothing of it happens while FD is held in reset (R518). -/
def State.afterFd (s : State) (dt : Nat) (f : State → State) : Out := s.after dt fun s => s.when s.fdUp f

/-- Append bytes-valued entry `a` at the end of a list kept under key `k`. -/
def tpush {α : Type} (t : Table (List α)) (k : Nat) (a : α) : Table (List α) := tset t k (tget t [] k ++ [a])

/-- Insert by a key, after its equals. -/
def insertBy {α : Type} (key : α → Nat) (a : α) : List α → List α
  | [] => [a]
  | b :: t => if key a < key b then a :: b :: t else b :: insertBy key a t

/-- A list in rising order of a key; equal keys keep their order. -/
def sortBy {α : Type} (key : α → Nat) (l : List α) : List α := l.foldl (fun acc a => insertBy key a acc) []

/-- The number of elements that pass. -/
def countOf {α : Type} (l : List α) (p : α → Bool) : Nat := (l.filter p).length

end Sys2Proof.Machine
end

