-- ==== Sys2Proof/Machine/Arith.lean ====
section
/-!
DEFINITION. The real functions the spec's formulas use, as exact rationals within 2⁻⁶⁰ of the real value: a register step is far
coarser, and `roundRat` leaves free which of the two neighbouring steps a value takes. Fixed point: 2⁹⁶ per unit.
-/
namespace Sys2Proof.Machine

/-! ### Square root -/

/-- The bits of an integer square root from bit `k − 1` down, `r` standing above them. -/
def isqrtBits (n : Nat) : (k r : Nat) → Nat
  | 0, r => r
  | k + 1, r => isqrtBits n k (if (r + 2 ^ k) * (r + 2 ^ k) ≤ n then r + 2 ^ k else r)

/-- The integer part of a square root. -/
def isqrt (n : Nat) : Nat := isqrtBits n (n.log2 / 2 + 1) 0

/-- A square root: exact where it is rational, else cut after 2⁻¹²⁸; 0 of a negative number. -/
def sqrtRat (x : Rat) : Rat :=
  let p := isqrt x.num.toNat
  let q := isqrt x.den
  if p * p = x.num.toNat ∧ q * q = x.den then (p : Rat) / q else (isqrt (x * 2 ^ 256).floor.toNat : Rat) / 2 ^ 128

/-! ### Fixed point -/

def fxOne : Int := 2 ^ 96
def fxMul (a b : Int) : Int := a * b / fxOne
def fxDiv (a b : Int) : Int := a * fxOne / b
def fx (x : Rat) : Int := (x * 2 ^ 96).floor
def unfx (a : Int) : Rat := (a : Rat) / 2 ^ 96

/-- π in fixed point. -/
def fxPi : Int := 248902613312231085230521944622

/-- A power series from its `n`-th term on: `next i t` is the term after `t`, the `i`-th. -/
def series (next : Nat → Int → Int) : (fuel i : Nat) → (t acc : Int) → Int
  | 0, _, _, acc => acc
  | fuel + 1, i, t, acc => series next fuel (i + 1) (next i t) (acc + t)

/-- 2 artanh z for |z| ≤ 1/3: the sum of 2 z^(2i+1) ÷ (2i+1). -/
def fxArtanh2 (z : Int) : Int :=
  let z2 := fxMul z z
  ((List.range 34).foldl (fun (t, acc) (i : Nat) => (fxMul t z2, acc + 2 * t / (2 * i + 1 : Nat))) (z, 0)).2

/-- ln 2. -/
def fxLn2 : Int := fxArtanh2 (fxOne / 3)

/-- e^x for 0 ≤ x < 1. -/
def fxExp (x : Int) : Int := series (fun i t => fxMul t x / (i + 1 : Nat)) 34 0 fxOne 0

/-- sin x and cos x for |x| ≤ π. -/
def fxSin (x : Int) : Int := series (fun i t => -(fxMul (fxMul t x) x) / ((2 * i + 2) * (2 * i + 3) : Nat)) 30 0 x 0
def fxCos (x : Int) : Int := series (fun i t => -(fxMul (fxMul t x) x) / ((2 * i + 1) * (2 * i + 2) : Nat)) 30 0 fxOne 0

/-- arctan z for 0 ≤ z ≤ 1, by halving the angle twice. -/
def fxAtan (z : Int) : Int :=
  let half := fun (z : Int) => fxDiv z (fxOne + (isqrt (fxOne * fxOne + z * z).toNat : Nat))
  let z := half (half z)
  let z2 := fxMul z z
  4 * ((List.range 40).foldl (fun (t, acc) (i : Nat) => (-(fxMul t z2), acc + t / (2 * i + 1 : Nat))) (z, 0)).2

/-! ### The functions of the spec's formulas -/

/-- ln x of a positive number. -/
def lnRat (x : Rat) : Rat :=
  let e : Int := (x.num.natAbs.log2 : Int) - x.den.log2
  let m := if 0 ≤ e then fxDiv (x.num * fxOne / 2 ^ e.toNat) (x.den * fxOne) else fxDiv (x.num * 2 ^ (-e).toNat) x.den
  if x = 1 then 0 else unfx (e * fxLn2 + fxArtanh2 (fxDiv (m - fxOne) (m + fxOne)))

/-- e^x. -/
def expRat (x : Rat) : Rat :=
  let k := fx x / fxLn2
  let r := unfx (fxExp (fx x - k * fxLn2))
  if x = 0 then 1 else if 0 ≤ k then r * 2 ^ k.toNat else r / 2 ^ (-k).toNat

/-- A real power of a positive base. -/
def powRat (base exponent : Rat) : Rat := expRat (exponent * lnRat base)

/-- 10 log₁₀ of a positive ratio. -/
def dbRat (x : Rat) : Rat := 10 * lnRat x / lnRat 10

/-- The ratio of a figure in dB of power: 10^(x ÷ 10). -/
def ofDb (x : Rat) : Rat := powRat 10 (x / 10)

/-- sin and cos of an angle in turns. -/
def turnFx (x : Rat) : Int := fx (2 * (x - (x + 1 / 2).floor)) * fxPi / fxOne
def sinTurn (x : Rat) : Rat := unfx (fxSin (turnFx x))
def cosTurn (x : Rat) : Rat := unfx (fxCos (turnFx x))

/-- The argument of a complex number in turns, in (−1/2, 1/2]; 0 of 0. -/
def argTurn (re im : Rat) : Rat :=
  let a := ratAbs re
  let b := ratAbs im
  let part := fun (lo hi : Rat) => unfx (fxDiv (fxAtan (fx (lo / hi))) (2 * fxPi))
  let q := if a = 0 ∧ b = 0 then 0 else if b ≤ a then part b a else 1 / 4 - part a b
  let q := if re < 0 then 1 / 2 - q else q
  if im < 0 then -q else q

end Sys2Proof.Machine
end

