-- ==== Sys2Proof/Machine/Check.lean ====
section
/-!
DEFINITION. Check values: the CRC of R464 with any parameters, the named parameter sets, SHA-256 (the structure digest and the
change log's chain) and ECDSA on P-256 (the signature of a structure image).
-/
namespace Sys2Proof.Machine

/-! ### CRC (R464) -/

/-- The parameters of a check-value unit. -/
structure CrcParams where
  width  : Nat
  poly   : Nat
  init   : Nat
  xorout : Nat
  refin  : Bool
  refout : Bool
deriving DecidableEq, Repr

/-- CRC-32C with the parameters of R187. -/
def crc32c : CrcParams := ⟨32, 0x1EDC6F41, 0xFFFFFFFF, 0xFFFFFFFF, true, true⟩

/-- The low `n` bits of `v` in reverse order. -/
def reflect : (n v : Nat) → Nat
  | 0, _ => 0
  | n + 1, v => v % 2 * 2 ^ n + reflect n (v / 2)

/-- One message bit into a CRC register of width `w`. -/
def crcBit (w poly reg : Nat) (b : Bool) : Nat :=
  let top := (reg / 2 ^ (w - 1)) % 2 == 1
  let sh := reg * 2 % 2 ^ w
  if top != b then Nat.xor sh poly else sh

/-- One byte, most significant bit first. -/
def crcByte (w poly : Nat) (reg v : Nat) : Nat :=
  [7, 6, 5, 4, 3, 2, 1, 0].foldl (fun r i => crcBit w poly r (v / 2 ^ i % 2 == 1)) reg

/-- The register after a byte list. -/
def crcFeed (p : CrcParams) (reg : Nat) (l : List Byte) : Nat :=
  l.foldl (fun r b => crcByte p.width p.poly r (if p.refin then reflect 8 b.toNat else b.toNat)) reg

/-- The value a register yields. -/
def crcFinal (p : CrcParams) (reg : Nat) : Nat :=
  Nat.xor (if p.refout then reflect p.width reg else reg) p.xorout % 2 ^ p.width

/-- The CRC of a byte list. -/
def crc (p : CrcParams) (l : List Byte) : Nat := crcFinal p (crcFeed p (p.init % 2 ^ p.width) l)

/-- The CRC of a byte list with a 4-byte little-endian fold word fed first (R464). -/
def crcFold (p : CrcParams) (foldWord : Nat) (l : List Byte) : Nat := crc p (leBytes 4 foldWord ++ l)

/-! ### SHA-256 (FIPS 180-4, named by R391 and R413) -/

/-- The round constants. -/
def shaK : List Nat :=
  [0x428a2f98, 0x71374491, 0xb5c0fbcf, 0xe9b5dba5, 0x3956c25b, 0x59f111f1, 0x923f82a4, 0xab1c5ed5] ++
  [0xd807aa98, 0x12835b01, 0x243185be, 0x550c7dc3, 0x72be5d74, 0x80deb1fe, 0x9bdc06a7, 0xc19bf174] ++
  [0xe49b69c1, 0xefbe4786, 0x0fc19dc6, 0x240ca1cc, 0x2de92c6f, 0x4a7484aa, 0x5cb0a9dc, 0x76f988da] ++
  [0x983e5152, 0xa831c66d, 0xb00327c8, 0xbf597fc7, 0xc6e00bf3, 0xd5a79147, 0x06ca6351, 0x14292967] ++
  [0x27b70a85, 0x2e1b2138, 0x4d2c6dfc, 0x53380d13, 0x650a7354, 0x766a0abb, 0x81c2c92e, 0x92722c85] ++
  [0xa2bfe8a1, 0xa81a664b, 0xc24b8b70, 0xc76c51a3, 0xd192e819, 0xd6990624, 0xf40e3585, 0x106aa070] ++
  [0x19a4c116, 0x1e376c08, 0x2748774c, 0x34b0bcb5, 0x391c0cb3, 0x4ed8aa4a, 0x5b9cca4f, 0x682e6ff3] ++
  [0x748f82ee, 0x78a5636f, 0x84c87814, 0x8cc70208, 0x90befffa, 0xa4506ceb, 0xbef9a3f7, 0xc67178f2]

/-- The initial hash value. -/
def shaInit : List Word :=
  [0x6a09e667#32, 0xbb67ae85#32, 0x3c6ef372#32, 0xa54ff53a#32, 0x510e527f#32, 0x9b05688c#32, 0x1f83d9ab#32, 0x5be0cd19#32]

/-- Rotation to the right. -/
def rotr (w : Word) (n : Nat) : Word := (w >>> n) ||| (w <<< (32 - n))

/-- The next message-schedule word from the last sixteen, newest first. -/
def shaNext (ws : List Word) : Word :=
  let w (i : Nat) := ws.getD (i - 1) 0
  let a := w 15
  let b := w 2
  w 16 + (rotr a 7 ^^^ rotr a 18 ^^^ (a >>> 3)) + w 7 + (rotr b 17 ^^^ rotr b 19 ^^^ (b >>> 10))

/-- The schedule of 64 words, newest first, from the 16 words of a block. -/
def shaSchedule : (n : Nat) → List Word → List Word
  | 0, ws => ws
  | n + 1, ws => shaSchedule n (shaNext ws :: ws)

/-- One round on the eight working variables. -/
def shaRound (v : List Word) (k : Nat) (w : Word) : List Word :=
  match v with
  | [a, b, c, d, e, f, g, h] =>
    let t1 := h + (rotr e 6 ^^^ rotr e 11 ^^^ rotr e 25) + ((e &&& f) ^^^ (~~~e &&& g)) + BitVec.ofNat 32 k + w
    let t2 := (rotr a 2 ^^^ rotr a 13 ^^^ rotr a 22) + ((a &&& b) ^^^ (a &&& c) ^^^ (b &&& c))
    [t1 + t2, a, b, c, d + t1, e, f, g]
  | _ => v

/-- One 64-byte block. -/
def shaBlock (h : List Word) (block : List Byte) : List Word :=
  let w16 := (List.range 16).map fun i => BitVec.ofNat 32 (beNat (bytesAt block (4 * i) 4))
  let ws := (shaSchedule 48 w16.reverse).reverse
  let v := (shaK.zip ws).foldl (fun v (k, w) => shaRound v k w) h
  List.zipWith (· + ·) h v

/-- The padded message. -/
def shaPad (l : List Byte) : List Byte :=
  let n := l.length
  let z := (119 - n % 64) % 64
  l ++ [0x80#8] ++ List.replicate z 0#8 ++ (leBytes 8 (8 * n)).reverse

/-- The blocks of a message, `fuel` at most. -/
def shaBlocks : (fuel : Nat) → List Word → List Byte → List Word
  | 0, h, _ => h
  | n + 1, h, l => if l.isEmpty then h else shaBlocks n (shaBlock h (l.take 64)) (l.drop 64)

/-- SHA-256 of a byte list, 32 bytes. -/
def sha256 (l : List Byte) : List Byte :=
  let p := shaPad l
  (shaBlocks (p.length / 64) shaInit p).flatMap fun w => (leBytes 4 w.toNat).reverse

/-! ### ECDSA on P-256 (R392) -/

/-- b to the e modulo m; e below 2 to the fuel. -/
def powMod (m : Nat) : (fuel b e : Nat) → Nat
  | 0, _, _ => 1
  | n + 1, b, e => let h := powMod m n (b * b % m) (e / 2); if e % 2 = 1 then b * h % m else h

/-- The inverse modulo a prime m. -/
def invMod (m a : Nat) : Nat := powMod m 256 (a % m) (m - 2)

/-- Field prime, group order, curve constant b and base point of P-256. -/
def p256P : Nat := 0xffffffff00000001000000000000000000000000ffffffffffffffffffffffff
def p256N : Nat := 0xffffffff00000000ffffffffffffffffbce6faada7179e84f3b9cac2fc632551
def p256B : Nat := 0x5ac635d8aa3a93e7b3ebbd55769886bc651d06b0cc53b0f63bce3c3e27d2604b
def p256G : Nat × Nat :=
  (0x6b17d1f2e12c4247f8bce6e563a440f277037d812deb33a0f4a13945d898c296,
   0x4fe342e2fe1a7f9b8ee7eb4a7c0f9e162bce33576b315ececbb6406837bf51f5)

/-- The curve equation y² = x³ − 3x + b. -/
def onCurve (q : Nat × Nat) : Bool :=
  decide (q.1 < p256P) && decide (q.2 < p256P) &&
    q.2 * q.2 % p256P == (q.1 * q.1 % p256P * q.1 + (p256P - 3) * q.1 + p256B) % p256P

/-- The sum of two points; none is the point at infinity. -/
def ecAdd : Option (Nat × Nat) → Option (Nat × Nat) → Option (Nat × Nat)
  | none, q => q
  | p, none => p
  | some (x1, y1), some (x2, y2) =>
    let m := p256P
    if x1 = x2 ∧ (y1 + y2) % m = 0 then none
    else
      let l := if x1 = x2 then (3 * x1 * x1 + (m - 3)) * invMod m (2 * y1) % m
        else (y2 + m - y1) * invMod m (x2 + m - x1) % m
      let x := (l * l + 2 * m - x1 - x2) % m
      some (x, (l * (x1 + m - x) + m - y1) % m)

/-- k times a point; k below 2 to the fuel. -/
def ecMul : (fuel k : Nat) → Option (Nat × Nat) → Option (Nat × Nat)
  | 0, _, _ => none
  | n + 1, k, p => let h := ecMul n (k / 2) (ecAdd p p); if k % 2 = 1 then ecAdd p h else h

/-- The signature (r, s) of a message verifies under a public key. -/
def ecdsaOk (key : Nat × Nat) (r s : Nat) (msg : List Byte) : Bool :=
  if r = 0 ∨ p256N ≤ r ∨ s = 0 ∨ p256N ≤ s ∨ !onCurve key then false
  else
    let w := invMod p256N s
    let u1 := beNat (sha256 msg) * w % p256N
    let u2 := r * w % p256N
    match ecAdd (ecMul 256 u1 (some p256G)) (ecMul 256 u2 (some key)) with
    | some (x, _) => x % p256N == r
    | none => false

end Sys2Proof.Machine
end

