-- ==== Sys2Proof/Machine/Persist.lean ====
section
/-!
DEFINITION. The NV store: write-persistent registers, calibration banks, the command journal, the change log and their cursors
(Persistent Registers, Journal and Power Loss).
-/
namespace Sys2Proof.Machine

/-! ### Write-persistent registers (R421 to R425) -/

/-- The record that owns a WP register (R545). -/
def wpRecordOf (a : Nat) : Option Nat :=
  match blockOf a with
  | some (.lease, _, 0x04) => some 0
  | some (.ofe, n, 0x20) => some (16 + 2 * n)
  | some (.ofe, n, 0x24) => some (17 + 2 * n)
  | _ => none

/-- Whether a record is assigned to a register (R545). -/
def wpAssigned (k : Nat) : Bool := k == 0 || (16 ≤ k && k ≤ 23)

def State.wpRec (s : State) (k : Nat) : WpRec := tget s.wp {} k

/-- The live slot of a record. -/
def WpRec.live (r : WpRec) : WpSlot := if r.live1 then r.slot1 else r.slot0

/-- The value of the WP register that owns record `k`: 0 while both slots are lost (R423). -/
def State.wpValue (s : State) (k : Nat) : Word := let r := s.wpRec k; if r.lost then 0 else r.live.value

/-- An accepted write: into the slot with the lower WEAR, with the higher WEAR plus 1 (R422). -/
def WpRec.store (r : WpRec) (v : Word) : WpRec :=
  let slot : WpSlot := { value := v, wear := max r.slot0.wear r.slot1.wear + 1 }
  if r.slot1.wear < r.slot0.wear then { r with slot1 := slot, live1 := true, lost := false }
  else { r with slot0 := slot, live1 := false, lost := false }

/-- A write of the device itself: no token, no rejection (R575, R343). -/
def State.wpStore (s : State) (k : Nat) (v : Word) : State :=
  { s with wp := tset s.wp k ((s.wpRec k).store v) }

/-- A device write of a record of R575; `bad`: the records whose NV write fails, which sets NV_FAIL and leaves the register. -/
def State.wpDevice (s : State) (bad : List Nat) (k : Nat) (v : Word) : State :=
  if s.boot.pwrFail.isSome || bad.contains k then s.setEvt Reg.HB_NV_EVT 6 else s.wpStore k v

/-- Record a rejected WP write in the writing master's HB_NV_WP_REJ and in HB_NV_EVT (R425). -/
def State.wpReject (s : State) (m : Master) (k cause evtBit : Nat) : State :=
  let w := s.mreg m Reg.HB_NV_WP_REJ
  (s.setMreg m Reg.HB_NV_WP_REJ (word [(0, 10, k), (10, 2, cause), (12, 16, fld w 12 16 + 1)])).setEvt Reg.HB_NV_EVT evtBit

/-- A paced WP write (R424, R425), the causes of rejection in their order there. -/
def State.wpWrite (s : State) (m : Master) (k : Nat) (v : Word) (inRange nvOk : Bool) : State :=
  let r := s.wpRec k
  if r.tokens = 0 then s.wpReject m k 1 0
  else if !inRange then s.wpReject m k 2 1
  else if s.boot.pwrFail.isSome || !nvOk then s.wpReject m k 3 6
  else { s with wp := tset s.wp k { r.store v with tokens := r.tokens - 1 } }

/-! ### Journal (R429 to R432) -/

/-- Slots of the journal ring. -/
def journalSlots : Nat := 131072

/-- Bytes 0 to 27 of an entry. -/
def jBody (e : JEntry) : List Byte :=
  leBytes 8 e.seq ++ leBytes 8 e.stamp ++ leBytes 1 e.dom ++ leBytes 1 e.result ++ leBytes 2 e.code ++
    leBytes 4 e.digest.toNat ++ leBytes 4 e.struct.toNat

/-- The 32 bytes of an entry, CHECK last (R429). -/
def jBytes (e : JEntry) : List Byte :=
  jBody e ++ leBytes 4 (crcFold crc32c ((e.seq + (journalSlots - 1)) % journalSlots) (jBody e))

/-- Append an entry: the next SEQ, the structure epoch in force, event source 5; a full ring overwrites its oldest entry (R431).
Nothing is written once the store is write-protected (R437). -/
def State.journalAdd (s : State) (stamp dom result code : Nat) (digest : Word) : State :=
  if s.boot.writeProt then s
  else
    let seq := s.jseq + 1
    let e : JEntry := ⟨seq, stamp, dom, result, code, digest, s.reg Reg.HB_STR_EPOCH, true⟩
    let s := { s with jseq := seq, journal := (e :: s.journal).take journalSlots }
    let s := if journalSlots < seq then s.setEvt Reg.HB_JNL_EVT 0 else s
    s.raise 5 (s.reg Reg.HB_JNL_EVT)

/-- SEQ of the newest entry; 0 before the first. -/
def State.jnlHead (s : State) : Nat := s.jseq

/-- SEQ of the oldest entry held; 0 before the first. -/
def State.jnlTail (s : State) : Nat := ((s.journal.getLast?).map (·.seq)).getD 0

/-- A journal digest: CRC-32C over the arguments, 0 when there are none (R429). -/
def argDigest (args : List Byte) : Word := if args.isEmpty then 0 else lo32 (crc crc32c args)

/-! ### Read cursors (R433, R434) -/

def State.jCursor (s : State) (m : Master) : LogCursor := tget s.jcur {} (masterCode m)
def State.setJCursor (s : State) (m : Master) (c : LogCursor) : State := { s with jcur := tset s.jcur (masterCode m) c }
def State.cCursor (s : State) (m : Master) : LogCursor := tget s.clgCur {} (masterCode m)
def State.setCCursor (s : State) (m : Master) (c : LogCursor) : State := { s with clgCur := tset s.clgCur (masterCode m) c }

/-- A write of the upper half: staged only. -/
def LogCursor.writeHi (c : LogCursor) (v : Word) : LogCursor := { c with staged := v.toNat }

/-- A write of the lower half: the cursor becomes the staged upper half and this lower half. -/
def LogCursor.writeLo (c : LogCursor) (v : Word) : LogCursor := { c with pos := c.staged * 2 ^ 32 + v.toNat }

/-- Word `w` of a buffer of bytes; an empty buffer reads 0. -/
def bufWord (b : List Byte) (w : Nat) : Word := lo32 (leNat (bytesAt b (4 * w) 4))

/-- The copy of an entry into a master's buffer: where the cursor lies against TAIL and HEAD, and whether the entry is sound. -/
def LogCursor.copy (c : LogCursor) (tail head : Nat) (entry : Option (List Byte × Bool)) : LogCursor :=
  if head < c.pos then { c with status := 1, buffer := [] }
  else if c.pos < tail then { c with status := 2, buffer := [] }
  else
    match entry with
    | none => { c with status := 2, buffer := [] }
    | some (b, true) => { c with status := 0, buffer := b }
    | some (b, false) => { c with status := 3, buffer := b }

/-- Read of HB_JNL_ENTRY0: copy the entry at the cursor; a corrupt one is shown as read and counted in HB_JNL_EVT (R433). -/
def State.jnlEntry0 (s : State) (m : Master) : State × Word :=
  let c := s.jCursor m
  let e := (s.journal.find? (·.seq == c.pos)).map fun e => (jBytes e, e.sound)
  let c := c.copy s.jnlTail s.jnlHead e
  let s := s.setJCursor m c
  ((if c.status = 3 then s.setEvt Reg.HB_JNL_EVT 1 else s), bufWord c.buffer 0)

/-- Read of HB_JNL_ENTRY7: the last word, and the cursor advances. -/
def State.jnlEntry7 (s : State) (m : Master) : State × Word :=
  let c := s.jCursor m
  (s.setJCursor m { c with pos := c.pos + 1 }, bufWord c.buffer 7)

/-- Read of HB_CLG_ENTRY0 (R434). -/
def State.clgEntry0 (s : State) (m : Master) : State × Word :=
  let c := s.cCursor m
  let e := (s.clog.find? (·.seq == c.pos)).map fun e => (e.bytes, e.sound)
  let c := c.copy s.clgFirst s.clgLast e
  let s := s.setCCursor m c
  ((if c.status = 3 then s.setEvt Reg.HB_CLG_EVT 1 else s), bufWord c.buffer 0)

/-- Read of HB_CLG_ENTRY31: the last word, and the cursor advances. -/
def State.clgEntry31 (s : State) (m : Master) : State × Word :=
  let c := s.cCursor m
  (s.setCCursor m { c with pos := c.pos + 1 }, bufWord c.buffer 31)

/-! ### Change log (R413, R434, R435) -/

/-- Entries the change log can hold. -/
def changeLogSlots : Nat := 4096

/-- The log is full and takes no entry (R434). -/
def State.clgFull (s : State) : Bool := changeLogSlots ≤ s.clgLast + 1 - s.clgFirst

/-- CHAIN (bytes 96 to 127) of the newest entry, or the anchor where the log is empty. -/
def State.clgChain (s : State) : List Byte :=
  match s.clog with
  | e :: _ => bytesAt e.bytes 96 32
  | [] => if s.clgAnchor.isEmpty then List.replicate 32 0 else s.clgAnchor

/-- Append an entry with bytes 0 to 95 `body`: its CHAIN is SHA-256 of the previous CHAIN and the body. -/
def State.clgAdd (s : State) (body : Nat → List Byte) : State :=
  let seq := s.clgLast + 1
  let b := body seq
  { s with clgLast := seq, clog := ⟨seq, b ++ sha256 (s.clgChain ++ b), true⟩ :: s.clog }

/-! ### Calibration banks (R426 to R428) -/

/-- A bank is valid when its GEN is not 0 and its content matches a check. -/
def CalBank.valid (b : CalBank) : Bool := b.gen != 0 && b.ok

/-- The live bank: none where both are invalid; true is bank B. -/
def State.liveBank (s : State) : Option Bool :=
  if s.bankA.valid && s.bankB.valid then some (s.bankA.gen < s.bankB.gen)
  else if s.bankA.valid then some false
  else if s.bankB.valid then some true
  else none

/-- The live calibration set. -/
def State.calSet (s : State) : Option CalSet :=
  s.liveBank.map fun b => if b then s.bankB.set else s.bankA.set

/-- Start a bank write: GEN of the bank that is not live becomes 0 first (R427 step 1); bank A where none is live (R494). -/
def State.bankStart (s : State) (set : CalSet) : State :=
  match s.liveBank with
  | some false => { s with bankB := { s.bankB with gen := 0, ok := false }, bankWriting := some (true, set) }
  | _ => { s with bankA := { s.bankA with gen := 0, ok := false }, bankWriting := some (false, set) }

/-- Queue a calibration set: a running write makes it wait, and it replaces an older waiting one (R427). -/
def State.bankQueue (s : State) (set : CalSet) : State :=
  if s.boot.pwrFail.isSome then s
  else if s.bankWriting.isSome then { s with bankWaiting := some set }
  else s.bankStart set

/-- A bank write finishes: GEN of the live bank plus 1, the set is live, CAL_LIVE; a waiting set starts. -/
def State.bankDone (s : State) : State :=
  match s.bankWriting with
  | none => s
  | some (b, set) =>
    let live := s.liveBank.map fun l => if l then s.bankB.gen else s.bankA.gen
    let bank : CalBank := { gen := live.getD 0 + 1, set := set, ok := true }
    let waiting := s.bankWaiting
    let s := if b then { s with bankB := bank } else { s with bankA := bank }
    let s := { s with bankWriting := none, bankWaiting := none }.setEvt Reg.HB_NV_EVT 3
    match waiting with
    | some w => s.bankStart w
    | none => s

/-! ### Views of the HB_NV, HB_JNL and HB_CLG registers -/

/-- HB_NV registers that are views of the state. -/
def nvView (s : State) (m : Master) (o : Nat) : Option Word :=
  let k := fld (s.mreg m Reg.HB_NV_WP_SEL) 0 10
  let r := s.wpRec k
  match o with
  | 0x00 => some (word [(0, 1, b2n s.boot.writeProt), (1, 1, b2n s.boot.pwrFail.isSome), (2, 1, b2n s.boot.lastUnsignalled),
      (3, 1, b2n (s.liveBank == some true)), (4, 1, b2n s.liveBank.isSome), (5, 1, b2n s.bankWriting.isSome)])
  | 0x10 => some (if wpAssigned k then
      word [(0, 7, r.tokens), (7, 1, 1), (8, 1, b2n r.live1), (9, 1, b2n r.repaired)] else 0)
  | 0x14 => some (if wpAssigned k then lo32 r.live.wear else 0)
  | 0x18 => some (if wpAssigned k then hi32 r.live.wear else 0)
  | 0x1C => some (word [(0, 16, s.boot.signalled), (16, 16, s.boot.unsignalled)])
  | 0x20 => some (lo32 (if s.bankA.ok then s.bankA.gen else 0))
  | 0x24 => some (lo32 (if s.bankB.ok then s.bankB.gen else 0))
  | _ => none

/-- HB_JNL registers that are views of the state. -/
def jnlView (s : State) (m : Master) (o : Nat) : Option Word :=
  let c := s.jCursor m
  match o with
  | 0x00 => some (lo32 s.jnlHead)
  | 0x04 => some (hi32 s.jnlHead)
  | 0x08 => some (lo32 s.jnlTail)
  | 0x0C => some (hi32 s.jnlTail)
  | 0x10 => some (lo32 c.pos)
  | 0x14 => some (hi32 c.pos)
  | 0x18 => some (lo32 c.status)
  | _ => if 0x20 ≤ o ∧ o < 0x40 then some (bufWord c.buffer ((o - 0x20) / 4)) else none

/-- HB_CLG registers that are views of the state. -/
def clgView (s : State) (m : Master) (o : Nat) : Option Word :=
  let c := s.cCursor m
  match o with
  | 0x00 => some (lo32 s.clgFirst)
  | 0x04 => some (hi32 s.clgFirst)
  | 0x08 => some (lo32 s.clgLast)
  | 0x0C => some (hi32 s.clgLast)
  | 0x10 => some (lo32 c.pos)
  | 0x14 => some (hi32 c.pos)
  | 0x18 => some (lo32 c.status)
  | _ =>
    if 0x20 ≤ o ∧ o < 0x40 then some (bufWord s.clgAnchor ((o - 0x20) / 4))
    else if 0x80 ≤ o ∧ o < 0x100 then some (bufWord c.buffer ((o - 0x80) / 4))
    else none

end Sys2Proof.Machine
end

