-- ==== Sys2Proof/Machine/FrontEnd.lean ====
section
/-!
DEFINITION. The optical front end of a port and its laser thermal loop (The Optical Front End and Laser Control; the loop's law
and its parameters are R490 to R493), and the probe sets with their checks (Probe Synthesis and Pulses in Flight, R81 to R97).
-/
namespace Sys2Proof.Machine

def State.port (s : State) (d : Nat) : Ofe := tget s.ofe {} d
def State.setPort (s : State) (d : Nat) (o : Ofe) : State := { s with ofe := tset s.ofe d o }
def State.probe (s : State) (d : Nat) : Psy := tget s.psy {} d
def State.setProbe (s : State) (d : Nat) (p : Psy) : State := { s with psy := tset s.psy d p }

/-- Milliseconds in nanoseconds. -/
def ms (n : Nat) : Nat := n * 1000000

/-! ### Probe sets -/

/-- Number of tones of a plan (R78). -/
def planTones (plan : Nat) : Nat := 8 * 2 ^ (plan % 4)

def ProbeSet.tones (p : ProbeSet) : Nat := planTones p.plan

/-- Channel width of one tone, Hz. -/
def ProbeSet.chanWidth (p : ProbeSet) : Rat := 1000000000 / p.tones

/-- Round trip of the configured fibre in ticks, not rounded: 2 L_f ÷ v ÷ 0.8 ns. -/
def ProbeSet.roundTrip (p : ProbeSet) : Rat :=
  2 * ((p.lf : Rat) / 10) * ((p.ng : Rat) / 10000) / (204000000 * (1468 / 1000)) / (8 / 10000000000)

/-- Spatial sample Δz in fm. -/
def ProbeSet.dz (p : ProbeSet) : Rat :=
  204000000 * (1468 / 1000) / ((p.ng : Rat) / 10000) / (2 * p.chanWidth)

/-- N_p,min in ticks (R84). -/
def ProbeSet.npMin (p : ProbeSet) : Nat := (p.roundTrip + p.nc + p.nt).ceil.toNat

/-- j_min (R88). -/
def ProbeSet.jMin (p : ProbeSet) : Nat := (50 / p.dz).ceil.toNat

/-- j_max (R88). -/
def ProbeSet.jMax (p : ProbeSet) : Nat := (((p.lf : Rat) / 10 - 50) / p.dz).floor.toNat

/-- N_pts (R88). -/
def ProbeSet.points (p : ProbeSet) : Nat := p.jMax + 1 - p.jMin

/-- Firing offset of tone k in ticks (R82). -/
def ProbeSet.offset (p : ProbeSet) (k : Nat) : Nat := k * p.np / p.tones

/-- The check code of R92: the first failing check in code order, 0 when all pass. -/
def ProbeSet.check (p : ProbeSet) : Nat :=
  if p.np < 125000 ∨ 1500000 < p.np then 1
  else if p.nt < 12500 ∨ 250000 < p.nt then 2
  else if p.nc < 125 ∨ 12500 < p.nc then 3
  else if p.np < p.nc * p.tones then 4
  else if p.lf < 5000 ∨ 1000000 < p.lf then 5
  else if p.ng < 14000 ∨ 15500 < p.ng then 6
  else if p.np < p.npMin then 7
  else 0

/-- The shadow set of a port: its registers AQn_TONE_PLAN to AQn_FIBRE_ZERO. -/
def State.shadowSet (s : State) (d : Nat) : ProbeSet :=
  let plan := s.reg (Reg.AQ_TONE_PLAN d)
  let chirp := s.reg (Reg.AQ_CHIRP d)
  { plan := fld plan 0 2
    en := bitOf plan 2
    np := fld (s.reg (Reg.AQ_PERIOD d)) 0 21
    nt := fld (s.reg (Reg.AQ_TAIL d)) 0 18
    nc := fld chirp 0 14
    taper := fld chirp 14 6
    level := fld chirp 20 8
    lf := fld (s.reg (Reg.AQ_FIBRE_LEN d)) 0 20
    ng := fld (s.reg (Reg.AQ_FIBRE_NG d)) 0 14
    d0 := fld (s.reg (Reg.AQ_FIBRE_ZERO d)) 0 16 }

/-- The states in which a direct apply, a step and other maintenance writes are allowed (R43, R94, R493). -/
def DeviceState.quiet (st : DeviceState) : Bool := st == .start || st == .maintenance || st == .safeStop

/-- A write of 1 to AQn_PSY_APPLY.GO (R93, R94, R96). -/
def State.psyApply (s : State) (d : Nat) : State :=
  let p := s.probe d
  if p.pend.isSome then s.setEvt (Reg.AQ_PSY_EVT d) 2
  else if !s.dev.quiet then (s.setProbe d { p with check := 8 }).setEvt (Reg.AQ_PSY_EVT d) 1
  else
    let sh := s.shadowSet d
    let c := sh.check
    if c = 0 then s.setProbe d { p with check := 0, pend := some sh }
    else (s.setProbe d { p with check := c }).setEvt (Reg.AQ_PSY_EVT d) 1

/-- The port is enabled in the live set. -/
def State.portEnabled (s : State) (d : Nat) : Bool := (s.probe d).live.en

/-- The port is enabled: in the live set, or in a set that waits to go live. -/
def State.portWanted (s : State) (d : Nat) : Bool := (s.probe d).live.en || (s.probe d).pend.any (·.en)

/-- The device takes the port's inputs (R61): the port is enabled, or its thermal loop runs from boot step 3 (R73). -/
def State.portOn (s : State) (d : Nat) : Bool := s.portWanted d || (s.port d).tecEn

/-- The powered time in units of 0.2 ns. -/
def State.fifths (s : State) : Nat := 5 * s.now

/-- Firing stops in the middle of a period: its tones become incomplete (R98). -/
def State.stopFiring (s : State) (d : Nat) : State :=
  let p := s.probe d
  if p.firing then s.setProbe d { p with firing := false, incomplete := true } else s

/-! ### Laser settings (R73, R74) -/

/-- The setpoint of a port, 0.1 mK. -/
def State.tecSet (s : State) (d : Nat) : Int := sext (s.wpValue (16 + 2 * d)).toNat 32

/-- The limits word of a port. -/
def State.tecLimits (s : State) (d : Nat) : Word := s.wpValue (17 + 2 * d)

/-- A setpoint within its range. -/
def setpointOk (v : Word) : Bool := decide (50000 ≤ sext v.toNat 32) && decide (sext v.toNat 32 ≤ 500000)

/-- DUTY_MAX, LASER_WIN and PROBE_WIN within their ranges. -/
def limitsOk (v : Word) : Bool :=
  decide (64 ≤ fld v 0 10) && decide (1 ≤ fld v 10 6) && decide (1 ≤ fld v 16 8)

/-- Every field of AQn_TEC_LIMITS within its range, TRIP included (R74, R575). -/
def limitsWhole (v : Word) : Bool := limitsOk v && decide (fld v 10 6 ≤ fld v 24 8)

/-- Setpoint and limits of a port are known (R74). -/
def State.settingsOk (s : State) (d : Nat) : Bool := setpointOk (s.wpValue (16 + 2 * d)) && limitsWhole (s.tecLimits d)

/-- The distance of the laser from its setpoint, 0.1 mK. -/
def State.tecErr (s : State) (d : Nat) : Nat := ((s.port d).temp - s.tecSet d).natAbs

/-- Within the laser window (0.1 K per LSB). -/
def State.inLaserWin (s : State) (d : Nat) : Bool := s.tecErr d ≤ fld (s.tecLimits d) 10 6 * 1000

/-- Within the probe window (1 mK per LSB). -/
def State.inProbeWin (s : State) (d : Nat) : Bool := s.tecErr d ≤ fld (s.tecLimits d) 16 8 * 10

/-- AQn_OFE_CTL.LIGHT; no light comes on once PWR_FAIL_N has been taken (R64, R520). -/
def State.lightReq (s : State) (d : Nat) : Bool := bitOf (s.reg (Reg.AQ_OFE_CTL d)) 0 && s.boot.pwrFail.isNone

/-! ### Light-on and light-off (R62, R63, R574) -/

/-- Raise Pn_TEC_EN: the loop restarts from zero whenever it rises (R492). -/
def Ofe.tecOn (o : Ofe) (now : Nat) : Ofe :=
  if o.tecEn then o
  else { o with tecEn := true, loop := {}, loopFrom := now, winSeen := false, probeSeen := false, offTec := false }

/-- Pn_TEC_EN low: no drive and no direction (R61, R63). -/
def Ofe.tecOff (o : Ofe) : Ofe := { o with tecEn := false, tecDir := false, duty := 0 }

/-- Pn_TEC_DIR as it is driven: it changes one full PWM period of 2.56 µs after the loop asked for it, with Pn_TEC_PWM low all that
time (R71). -/
def Ofe.heat (o : Ofe) (now : Nat) : Bool := if now < o.turnAt + 2560 then o.tecEn && !o.tecDir else o.tecDir

/-- High clock cycles of Pn_TEC_PWM in period `i` of 64: a first-order dither whose periods add up to the duty (R71). -/
def Ofe.pwmHigh (o : Ofe) (now i : Nat) : Nat :=
  if now < o.turnAt + 2560 then 0 else (i + 1) * o.duty / 64 - i * o.duty / 64

/-- Whether the thermal loop of a port may run: settings known and a calibration set live (R73, R74, R493); the events that say
what is missing. -/
def State.thermalReady (s : State) (d : Nat) : Bool := s.settingsOk d && s.calSet.isSome

/-- Record what keeps a port's loop from starting (R74, R493). -/
def State.thermalMissing (s : State) (d : Nat) : State :=
  let s := if s.settingsOk d then s else s.setEvt (Reg.AQ_OFE_EVT d) 11
  if s.calSet.isSome then s else s.setEvt (Reg.AQ_CAL_EVT d) 5

/-- Start the thermal loop of an enabled port (R73) that no thermal lockout holds (R574). -/
def State.loopStart (s : State) (d : Nat) : State :=
  if !s.portWanted d || (s.port d).lockout == .thermal then s
  else if s.thermalReady d then s.setPort d ((s.port d).tecOn s.now)
  else s.thermalMissing d

/-- The interlock lets light come on: Pn_INTLK_N is high, and has been for 1 s where it was open (R68). -/
def Ofe.closed (o : Ofe) : Bool := o.intlkN && !o.hold

/-- The state an order in progress shows: SHUTDOWN while the interlock is open, else `st` (R68). -/
def Ofe.shown (o : Ofe) (st : LightState) : LightState := if o.closed then st else .shutdown

/-- Resume the light-on order at step 4 where the laser is on, at step 2 where only the TEC is, else at step 1 (R68, R574); a laser that
is on and has not given Pn_LASER_OK yet goes on waiting for it. -/
def State.resumeOrder (s : State) (d : Nat) : State :=
  if !(s.portWanted d && s.lightReq d) then s
  else if !s.thermalReady d then s.thermalMissing d
  else
    let o := (s.port d).tecOn s.now
    let st := if o.retrying then LightState.dark else .warming
    if o.laserEn && o.offFrom.isNone then
      let step := if o.step = .laserOk then LightStep.laserOk else if o.closed then .ampDelay else .idle
      s.setPort d { o with light := o.shown st, step := step, lockout := .none }
    else s.setPort d { o with light := o.shown st, step := if o.closed then .laserWindow else .idle, lockout := .none }

/-- The light-on order from step 1 (R62). -/
def State.lightOn (s : State) (d : Nat) : State :=
  if !(s.portWanted d && s.lightReq d) then s
  else if !s.thermalReady d then s.thermalMissing d
  else if (s.port d).lockout != .none then s
  else if (s.port d).light != .off then s
  else
    let o := (s.port d).tecOn s.now
    s.setPort d { o with light := o.shown .warming, step := if o.closed then .laserWindow else .idle }

/-- End a lockout: the order resumes at step 1 after a thermal one, at step 2 after LASER_FAULT, at step 4 with a fresh count
after AMP_GIVEUP (R574). -/
def State.endLockout (s : State) (d : Nat) : State :=
  let o := s.port d
  match o.lockout with
  | .none => s
  | .thermal | .laser => (s.setPort d { o with lockout := .none, light := .off, attempt := 0, retrying := false }).lightOn d
  | .giveup => (s.setPort d { o with lockout := .none, attempt := 0, retrying := false }).resumeOrder d

/-- Steps 1 and 2 of the light-off order, and the wait for step 3 (R63); `tec` adds step 4. An order that already waits goes on
waiting, and keeps its step 4. -/
def State.lightOff (s : State) (d : Nat) (light : LightState) (tec : Bool) : State :=
  let o := s.port d
  let o := { o with
    light := light, step := .idle, drive := false, ampEn := false, retrying := false
    offFrom := if o.laserEn then some (o.offFrom.getD s.now) else none
    offTec := o.laserEn && (tec || (o.offFrom.isSome && o.offTec)), outProbeSince := none }
  (s.setPort d (if tec && !o.laserEn then o.tecOff else o)).stopFiring d

/-- The thermal faults of R67: full light-off with Pn_TEC_EN, DARK unless the interlock is open, lockout. -/
def State.thermalFault (s : State) (d evt : Nat) : State :=
  let o := s.port d
  let st := if o.light = .shutdown then LightState.shutdown else .dark
  let s := s.lightOff d st true
  (s.setPort d { (s.port d).tecOff with lockout := .thermal }).setEvt (Reg.AQ_OFE_EVT d) evt

/-- A port the structure disables: every output low, DACs at zero (R61); the light-off order runs first (R63). -/
def State.portOff (s : State) (d : Nat) : State := s.lightOff d .off true

/-- AMP_RETRY_MAX. -/
def State.retryMax (s : State) (d : Nat) : Nat := fld (s.reg (Reg.AQ_OFE_TIMING d)) 16 2

/-- An amplifier fault is taken (R67, R69). -/
def State.ampFaultTaken (s : State) (d : Nat) : State :=
  let o := s.port d
  let st := if o.light = .shutdown then LightState.shutdown else .dark
  let s := (s.setPort d { o with
    light := st, step := .idle, drive := false, ampEn := false, attempt := 0
    retrying := s.retryMax d != 0, retryFrom := s.now, outProbeSince := none }).stopFiring d
  let s := s.setEvt (Reg.AQ_OFE_EVT d) 1
  if s.retryMax d = 0 then
    (s.setPort d { s.port d with lockout := .giveup }).setEvt (Reg.AQ_OFE_EVT d) 2
  else s

/-- A retry of the amplifier failed: it counts, and the last one gives up (R69). -/
def State.attemptFailed (s : State) (d : Nat) : State :=
  let o := s.port d
  let n := o.attempt + 1
  let o := { o with ampEn := false, step := .idle, attempt := n, retryFrom := s.now, light := o.shown .dark }
  if s.retryMax d ≤ n then
    (s.setPort d { o with retrying := false, lockout := .giveup }).setEvt (Reg.AQ_OFE_EVT d) 2
  else s.setPort d o

/-! ### The events of the front end -/

/-- Pn_LASER_EN rises when the laser window is reached (R62 step 2). -/
def laserWindowReached (d : Nat) (s : State) : State :=
  let o := s.port d
  if o.step = .laserWindow && o.tecEn && s.inLaserWin d then
    s.setPort d { o with laserEn := true, laserEnAt := s.now, offFrom := none, winSeen := true, step := .laserOk }
  else s

/-- Pn_LASER_OK rises (R62 step 3). -/
def laserOkRise (d : Nat) (s : State) : State :=
  let o := { s.port d with laserOk := true }
  if !s.portOn d then s
  else s.setPort d (if o.step = .laserOk then { o with step := if o.closed then .ampDelay else .idle, laserOkAt := s.now } else o)

/-- LASER_OK_TMO passes without Pn_LASER_OK (R62); in SHUTDOWN it is recorded (R68). -/
def laserOkTimeout (d : Nat) (s : State) : State :=
  let o := s.port d
  if o.step = .laserOk && decide (ms (fld (s.reg (Reg.AQ_OFE_TIMING d)) 0 10) ≤ s.now - o.laserEnAt) then
    (s.setPort d { o with laserEn := false, light := o.shown .dark, step := .idle, lockout := .laser }).setEvt (Reg.AQ_OFE_EVT d) 3
  else s

/-- 10 ms after step 3 the amplifier comes up with the DACs at zero code (R62 step 4). -/
def ampEnable (d : Nat) (s : State) : State :=
  let o := s.port d
  if o.step = .ampDelay && o.closed && o.laserEn && decide (ms 10 ≤ s.now - o.laserOkAt) then
    s.setPort d { o with ampEn := true, ampEnAt := s.now, step := .ampCheck }
  else s

/-- The amplifier check is judged: `held` is Pn_AMP_FLT_N high throughout 50 ms to 100 ms after the rise (R62 step 5, R69). -/
def ampCheckEnd (d : Nat) (held : Bool) (s : State) : State :=
  let o := s.port d
  if o.step ≠ .ampCheck then s
  else if held then
    if ms 100 ≤ s.now - o.ampEnAt then
      s.setPort d { o with ampFltN := true, attempt := 0, retrying := false, step := .probe }
    else s
  else if ms 50 ≤ s.now - o.ampEnAt then
    let s := s.setPort d { o with ampFltN := false }
    if o.retrying then s.attemptFailed d else s.ampFaultTaken d
  else s

/-- Probe drive may start: temperature in the probe window, receiver ready (R62 step 6). -/
def State.probeReady (s : State) (d : Nat) : Bool :=
  let o := s.port d
  o.step == .probe && o.rxOk && o.closed && s.inProbeWin d

/-- 10 ms after AMP_EN fell in a light-off the laser goes off, and the TEC where step 4 applies (R63, R64). -/
def laserOffDelay (d : Nat) (s : State) : State :=
  let o := s.port d
  match o.offFrom with
  | some t =>
    if ms 10 ≤ s.now - t then
      let x := { o with laserEn := false, offFrom := none, offTec := false }
      s.setPort d (if o.offTec then x.tecOff else x)
    else s
  | none => s

/-- Pn_INTLK_N low (R67, R68). The laser stays on, and goes on waiting for Pn_LASER_OK where it waits. -/
def interlockOpen (d : Nat) (s : State) : State :=
  if !s.portOn d then s
  else
    let o := s.port d
    let s := (s.setPort d { o with
      intlkN := false, hold := true, intlkLow := s.now, drive := false, ampEn := false, outProbeSince := none
      step := if o.step = .laserOk then .laserOk else .idle
      light := if o.light = .off then .off else .shutdown }).stopFiring d
    s.setEvt (Reg.AQ_OFE_EVT d) 0

/-- Pn_INTLK_N high for 1 s: the order resumes, unless a condition recorded meanwhile locks the port out (R68). -/
def interlockClosedHold (d : Nat) (s : State) : State :=
  if !s.portOn d || decide (s.now < (s.port d).intlkLow + ms 1000) then s
  else
    let o := { s.port d with intlkN := true, hold := false }
    let s := s.setPort d o
    if o.light ≠ .shutdown then s
    else if o.lockout ≠ .none then s.setPort d { o with light := .dark }
    else s.resumeOrder d

/-- Pn_AMP_FLT_N falls (R67, R69): blanked for 50 ms after Pn_AMP_EN rose. -/
def ampFault (d : Nat) (s : State) : State :=
  if !s.portOn d then s
  else
    let o := { s.port d with ampFltN := false }
    let s := s.setPort d o
    if o.ampEn && decide (ms 50 ≤ s.now - o.ampEnAt) then
      if o.step = .ampCheck && o.retrying then s.attemptFailed d else s.ampFaultTaken d
    else s

/-- AMP_RETRY_S after the fault or the failed attempt the amplifier is tried again (R69); suspended in SHUTDOWN. -/
def ampRetry (d : Nat) (s : State) : State :=
  let o := s.port d
  if o.retrying && o.light == .dark && o.step == .idle && o.closed && o.laserEn && o.lockout == .none &&
      decide (ms (1000 * fld (s.reg (Reg.AQ_OFE_TIMING d)) 10 6) ≤ s.now - o.retryFrom) then
    s.setPort d { o with ampEn := true, ampEnAt := s.now, step := .ampCheck }
  else s

/-- Pn_LASER_OK falls (R67). A thermal lockout stays one (R574). -/
def laserOkLoss (d : Nat) (s : State) : State :=
  if !s.portOn d then s
  else
    let o := { s.port d with laserOk := false }
    let s := s.setPort d o
    if o.laserEn then
      let s := s.lightOff d (if o.light = .shutdown then .shutdown else .dark) false
      (s.setPort d { s.port d with lockout := if o.lockout = .thermal then .thermal else .laser }).setEvt (Reg.AQ_OFE_EVT d) 3
    else s

/-- Pn_RX_OK falls: the event only (R67). -/
def rxOkFall (d : Nat) (s : State) : State :=
  if !s.portOn d then s
  else (s.setPort d { s.port d with rxOk := false }).setEvt (Reg.AQ_OFE_EVT d) 4

/-- Thermistor ratio from the two measured voltages, 2⁻²⁴ per LSB: the thermistor lies between the junction and AGND (R72). -/
def thermistorRatio (vTop vMid : Nat) : Nat :=
  if vTop ≤ vMid then 2 ^ 32 - 1
  else min (2 ^ 32 - 1) (roundRat ((vMid : Rat) * 2 ^ 24 / (vTop - vMid : Nat))).toNat

/-- The temperature of R490 in 0.1 mK, from RATIO, THM_REF and A, B, C. -/
def steinhart (ratio ohm : Nat) (a b c : Rat) : Int :=
  let r : Rat := (ratio : Rat) / 2 ^ 24 * ohm
  let l := lnRat r
  let den := a + b * l + c * l * l * l
  if r = 0 ∨ den = 0 then Config.steinhartOpen ratio ohm a b c else roundRat (10000 * (1 / den - 27315 / 100))

/-- Value of an AQn_CAL float register; 0 where it is not finite. -/
def State.calFloat (s : State) (a : Nat) : Rat := (floatVal (s.reg a)).getD 0

/-- The port's inputs as the sample finds them: a fall that no command of its own has told is taken here (R67). -/
def pinsTake (d : Nat) (pins : PortPins) (s : State) : State :=
  let o := s.port d
  let s := s.when (!pins.intlkN && !o.hold) (interlockOpen d)
  let s := s.when (o.laserOk && !pins.laserOk) (laserOkLoss d)
  let s := s.when (o.ampFltN && !pins.ampFltN) (ampFault d)
  let s := s.when (o.rxOk && !pins.rxOk) (rxOkFall d)
  let x := s.port d
  s.setPort d { x with
    laserOk := pins.laserOk, ampFltN := pins.ampFltN, rxOk := pins.rxOk, intlkN := pins.intlkN
    intlkLow := if pins.intlkN then x.intlkLow else s.now }

/-- One thermistor measurement with its checks (R67, R72, R75, R76, R490). -/
def thmSample (d vTop vMid imon : Nat) (pins : PortPins) (s : State) : State :=
  if !s.portOn d then s
  else
    let s := pinsTake d pins s
    let ratio := thermistorRatio vTop vMid
    let temp := steinhart ratio (fld (s.reg (Reg.AQ_CAL_THM_REF d)) 0 17)
      (s.calFloat (Reg.AQ_CAL_THM_A d 0)) (s.calFloat (Reg.AQ_CAL_THM_A d 1)) (s.calFloat (Reg.AQ_CAL_THM_A d 2))
    let o := { s.port d with ratio := ratio, temp := temp, imon := min imon 0xFFF }
    let s := s.setPort d o
    let err := s.tecErr d
    let max := fld (s.reg (Reg.AQ_TEC_IMON d)) 16 12
    let lockSince := if err ≤ 10 then (match o.lockSince with | some t => some t | none => some s.now) else none
    let firstProbe := o.tecEn && !o.probeSeen && s.inProbeWin d
    let o := { o with
      lockSince := lockSince
      tecLock := match lockSince with | some t => o.tecLock || decide (ms 1000 ≤ s.now - t) | none => false
      winSeen := o.winSeen || (o.tecEn && s.inLaserWin d)
      probeSeen := o.probeSeen || firstProbe
      outProbeSince :=
        if o.light = .probing && !s.inProbeWin d then (match o.outProbeSince with | some t => some t | none => some s.now)
        else none
      imonSince :=
        if max ≠ 0 ∧ max < o.imon then (match o.imonSince with | some t => some t | none => some s.now) else none }
    let s := s.setPort d o
    let s := s.when (firstProbe && decide (ms 2000 < s.now - o.loopFrom)) (·.setEvt (Reg.AQ_OFE_EVT d) 9)
    if !o.tecEn then s
    else if ratio * 20 < 2 ^ 24 ∨ 50 * 2 ^ 24 < ratio then s.thermalFault d 5
    else if o.winSeen && decide (fld (s.tecLimits d) 24 8 * 1000 < err) then s.thermalFault d 6
    else s

/-- Overcurrent held for 100 ms (R67). -/
def tecOvercurrent (d : Nat) (s : State) : State :=
  match (s.port d).imonSince with
  | some t => if (s.port d).tecEn && decide (ms 100 ≤ s.now - t) then s.thermalFault d 7 else s
  | none => s

/-- Outside the probe window for 1 s while PROBING (R67). -/
def probeWindowUnlocked (d : Nat) (s : State) : State :=
  match (s.port d).outProbeSince with
  | some t =>
    if (s.port d).light = .probing ∧ ms 1000 ≤ s.now - t then
      (s.setPort d { s.port d with outProbeSince := none }).setEvt (Reg.AQ_OFE_EVT d) 8
    else s
  | none => s

/-! ### Thermal loop (R491) -/

/-- A gain of set fine or coarse: KP, KI, KD are registers 0, 1, 2 of the fine set and 3, 4, 5 of the coarse set. -/
def State.gain (s : State) (d : Nat) (fine : Bool) (i : Nat) : Rat :=
  s.calFloat (Reg.AQ_CAL_PID d (if fine then i else 3 + i))

/-- One step of the loop law, in exact arithmetic. -/
def loopLaw (kp ki kd : Rat) (fine : Bool) (dutyMax slew : Rat) (setK t : Rat) (l : ThermalLoop) : ThermalLoop :=
  let e := setK - t
  let tPrev := if l.lastFine.isNone then t else l.tPrev
  let integ := if l.lastFine = some fine ∨ l.lastFine = none then l.integ else l.uPrev - kp * e - l.d
  let d := l.d + (-kd * (t - tPrev) / (1 / 1000) - l.d) / 10
  let u0 := kp * e + integ + d
  let u1 := max (-dutyMax) (min dutyMax u0)
  let u2 := max (l.uPrev - slew) (min (l.uPrev + slew) u1)
  let integ := if u1 = u0 ∧ u2 = u1 then integ + ki * e / 1000 else integ
  { integ := integ, d := d, uPrev := u2, tPrev := t, lastFine := some fine
    clamped := decide (u1 ≠ u0), slewed := decide (u2 ≠ u1), err := e }

/-- The loop forms a new drive (R491); it runs while Pn_TEC_EN is high. -/
def tecLoopStep (d : Nat) (s : State) : State :=
  let o := s.port d
  if !o.tecEn then s
  else
    let setK : Rat := (s.tecSet d : Rat) / 10000
    let t : Rat := (o.temp : Rat) / 10000
    let sched := s.reg (Reg.AQ_CAL_PID_SCHED d)
    let e := setK - t
    let band : Rat := (fld sched 0 14 : Rat) / 10000
    let fine := decide (-band ≤ e ∧ e ≤ band)
    let l := loopLaw (s.gain d fine 0) (s.gain d fine 1) (s.gain d fine 2) fine
      ((fld (s.tecLimits d) 0 10 : Rat) / 1024) ((fld sched 14 16 : Rat) / 65536) setK t o.loop
    let heat := decide (0 < l.uPrev)
    s.setPort d { o with
      loop := l, tecDir := heat, turnAt := if heat = o.tecDir then o.turnAt else s.now
      duty := min 0xFFFF (roundRat (ratAbs l.uPrev * 65536)).toNat }

/-! ### Writes and views of AQn_OFE -/

/-- A TEC_LIMITS value as stored: a TRIP below LASER_WIN is stored as LASER_WIN. -/
def limitsStored (v : Word) : Word := putFld v 24 8 (max (fld v 24 8) (fld v 10 6))

/-- The laser settings of a port may have changed since `old`: the loop starts at the first moment at which it may (R73), and the
light-on order once both settings are known (R74). -/
def State.settingsChanged (s old : State) (d : Nat) : State :=
  (s.when (!old.thermalReady d && s.thermalReady d) (·.loopStart d)).lightOn d

/-- A paced write to AQn_TEC_SETPOINT (R74). -/
def State.setpointWrite (s : State) (m : Master) (d : Nat) (v : Word) (nvOk : Bool) : State :=
  (s.wpWrite m (16 + 2 * d) v (setpointOk v) nvOk).settingsChanged s d

/-- A paced write to AQn_TEC_LIMITS (R74). -/
def State.limitsWrite (s : State) (m : Master) (d : Nat) (v : Word) (nvOk : Bool) : State :=
  (s.wpWrite m (17 + 2 * d) (limitsStored v) (limitsOk v) nvOk).settingsChanged s d

/-- A write to AQn_OFE_CTL (R62, R63, R66, R574). -/
def State.ofeCtlWrite (s : State) (d : Nat) (v : Word) : State :=
  let a := Reg.AQ_OFE_CTL d
  let was := bitOf (s.reg (Reg.AQ_OFE_CTL d)) 0
  let s := s.setReg a (word [(0, 1, b2n was), (2, 1, b2n (bitOf v 2))])
  let s :=
    if bitOf v 0 then
      let s := s.setReg a (setBit (s.reg a) 0)
      if was then s
      else if (s.port d).lockout != .none then s.endLockout d else s.lightOn d
    else if !was then s
    else if s.dev.quiet then (s.setReg a (putFld (s.reg a) 0 1 0)).lightOff d .off false
    else s.setEvt (Reg.AQ_OFE_EVT d) 10
  if bitOf v 1 then s.endLockout d else s

/-- A write to another AQn_OFE register; `o` is its block offset. -/
def ofeWrite (s : State) (m : Master) (d o : Nat) (v : Word) : State :=
  match o with
  | 0x00 => s.ofeCtlWrite d v
  | 0x10 => s.setReg (Reg.AQ_OFE_TIMING d)
      (word [(0, 10, clampNat 10 1000 (fld v 0 10)), (10, 6, max 1 (fld v 10 6)), (16, 2, fld v 16 2)])
  | 0x1C => s.setReg (Reg.AQ_DAC_SCALE d) (lo32 (fld v 0 8))
  | 0x20 => s.setpointWrite m d v true
  | 0x24 => s.limitsWrite m d v true
  | 0x34 => s.setReg (Reg.AQ_TEC_IMON d) (word [(16, 12, fld v 16 12)])
  | _ => s

/-- The code of AQn_OFE_STATUS.STATE. -/
def lightCode : LightState → Nat
  | .off => 0 | .warming => 1 | .probing => 2 | .dark => 3 | .shutdown => 4

/-- AQn_OFE registers that are views of the state. -/
def ofeView (s : State) (d o : Nat) : Option Word :=
  let p := s.port d
  match o with
  | 0x04 => some (word [(0, 3, lightCode p.light), (3, 1, b2n p.tecLock), (4, 2, min 3 p.attempt)])
  | 0x0C => some (word [(0, 1, b2n p.laserOk), (1, 1, b2n p.ampFltN), (2, 1, b2n p.rxOk), (3, 1, b2n p.intlkN),
      (4, 1, b2n p.laserEn), (5, 1, b2n p.ampEn), (6, 1, b2n p.tecEn)])
  | 0x20 => some (s.wpValue (16 + 2 * d))
  | 0x24 => some (s.wpValue (17 + 2 * d))
  | 0x28 => some (lo32 p.ratio)
  | 0x2C => some (BitVec.ofInt 32 p.temp)
  | 0x30 => some (word [(0, 16, p.duty), (16, 1, b2n (p.heat s.now))])
  | 0x34 => some (word [(0, 12, p.imon), (16, 12, fld (s.reg (Reg.AQ_TEC_IMON d)) 16 12)])
  | _ => none

/-! ### Writes and views of AQn_PSY -/

/-- A write to an AQn_PSY register: the shadow set is stored as written, but for TAPER and LEVEL. -/
def psyWrite (s : State) (d o : Nat) (v : Word) : State :=
  match o with
  | 0x00 => s.setReg (Reg.AQ_TONE_PLAN d) (lo32 (fld v 0 3))
  | 0x04 => s.setReg (Reg.AQ_PERIOD d) (lo32 (fld v 0 21))
  | 0x08 => s.setReg (Reg.AQ_TAIL d) (lo32 (fld v 0 18))
  | 0x0C => s.setReg (Reg.AQ_CHIRP d) (word [(0, 14, fld v 0 14), (14, 6, min 50 (fld v 14 6)), (20, 8, max 16 (fld v 20 8))])
  | 0x10 => s.setReg (Reg.AQ_FIBRE_LEN d) (lo32 (fld v 0 20))
  | 0x14 => s.setReg (Reg.AQ_FIBRE_NG d) (lo32 (fld v 0 14))
  | 0x18 => s.setReg (Reg.AQ_FIBRE_ZERO d) (lo32 (fld v 0 16))
  | 0x1C => if bitOf v 0 then s.psyApply d else s
  | _ => s

/-- AQn_PSY registers that are views of the state; PERIOD_CNT and STAMP_HI are the reader's latches (R100). -/
def psyView (s : State) (d o : Nat) : Option Word :=
  let p := s.probe d
  match o with
  | 0x20 => some (word [(0, 2, p.live.plan), (2, 1, b2n p.live.en), (3, 1, b2n p.pend.isSome), (4, 1, b2n p.changeover),
      (5, 1, b2n p.firing), (8, 4, p.check)])
  | 0x28 => some (lo32 (s.shadowSet d).npMin)
  | 0x2C => some (if p.live.en then word [(0, 8, p.live.jMin), (8, 17, p.live.points)] else
      if p.live.np = 0 then 0 else word [(0, 8, p.live.jMin)])
  | 0x30 => some (lo32 p.live.np)
  | 0x38 => some (lo32 p.stamp)
  | _ => none

/-- A read of AQn_PERIOD_STAMP_LO latches the high half and the period count for the reader (R100). -/
def State.periodStampLo (s : State) (m : Master) (d : Nat) : State × Word :=
  let p := s.probe d
  (((s.setMreg m (Reg.AQ_PERIOD_STAMP_HI d) (hi32 p.stamp)).setMreg m (Reg.AQ_PERIOD_CNT d) (lo32 p.count)), lo32 p.stamp)

/-- Tone k fires its chirp at its offset in a period in which tones fire, in the order of the slots (R79, R82); `trim` is the
tone's trim in force. -/
def toneFiring (d k : Nat) (trim : ToneTrim) (s : State) : State :=
  let p := s.probe d
  if p.firing && decide (k < p.live.tones) && decide (p.next ≤ k) && decide (p.startAt + 4 * p.live.offset k ≤ s.fifths) then
    let b := p.live.chanWidth
    let f := -500000000 + ((k : Rat) + 1 / 2) * b
    s.setProbe d { p with next := k + 1, chirp := some {
      tone := k, offset := p.live.offset k, dur := p.live.nc, f0 := f - 4 / 10 * b, f1 := f + 4 / 10 * b
      taper := p.live.taper, level := (p.live.level : Rat) / 256, trim := trim } }
  else s

/-! ### Meanings -/

/-- LASER_WINDOW_REACHED (R62 step 2). -/
def execLaserWindowReached (dt d : Nat) (s : State) : Out := s.afterHb dt (laserWindowReached d)

/-- LASER_OK_RISE (R62 step 3). -/
def execLaserOkRise (dt d : Nat) (s : State) : Out := s.afterHb dt (laserOkRise d)

/-- LASER_OK_TIMEOUT (R62). -/
def execLaserOkTimeout (dt d : Nat) (s : State) : Out := s.afterHb dt (laserOkTimeout d)

/-- AMP_ENABLE (R62 step 4). -/
def execAmpEnable (dt d : Nat) (s : State) : Out := s.afterHb dt (ampEnable d)

/-- AMP_CHECK_END (R62 step 5, R69). -/
def execAmpCheckEnd (dt d : Nat) (held : Bool) (s : State) : Out := s.afterHb dt (ampCheckEnd d held)

/-- LASER_OFF_DELAY (R63 step 3). -/
def execLaserOffDelay (dt d : Nat) (s : State) : Out := s.after dt (laserOffDelay d)

/-- INTERLOCK_OPEN (R67, R68). -/
def execInterlockOpen (dt d : Nat) (s : State) : Out := s.afterHb dt (interlockOpen d)

/-- INTERLOCK_CLOSED_HOLD (R68). -/
def execInterlockClosedHold (dt d : Nat) (s : State) : Out := s.afterHb dt (interlockClosedHold d)

/-- AMP_FAULT (R67). -/
def execAmpFault (dt d : Nat) (s : State) : Out := s.afterHb dt (ampFault d)

/-- AMP_RETRY (R69). -/
def execAmpRetry (dt d : Nat) (s : State) : Out := s.afterHb dt (ampRetry d)

/-- LASER_OK_LOSS (R67). -/
def execLaserOkLoss (dt d : Nat) (s : State) : Out := s.afterHb dt (laserOkLoss d)

/-- RX_OK_FALL (R67). -/
def execRxOkFall (dt d : Nat) (s : State) : Out := s.afterHb dt (rxOkFall d)

/-- TEC_LOOP_STEP (R491). -/
def execTecLoopStep (dt d : Nat) (s : State) : Out := s.afterHb dt (tecLoopStep d)

/-- TEC_OVERCURRENT (R67). -/
def execTecOvercurrent (dt d : Nat) (s : State) : Out := s.afterHb dt (tecOvercurrent d)

/-- PROBE_WINDOW_UNLOCKED (R67). -/
def execProbeWindowUnlocked (dt d : Nat) (s : State) : Out := s.afterHb dt (probeWindowUnlocked d)

/-- THM_SAMPLE (R72, R490). -/
def execThmSample (dt d vTop vMid imon : Nat) (pins : PortPins) (s : State) : Out :=
  s.afterHb dt (thmSample d vTop vMid imon pins)

end Sys2Proof.Machine
end

