-- ==== Sys2Proof/Machine/Dsp.lean ====
section
/-!
DEFINITION. The digital front end: corrections of the ADC streams, the channeliser, pulse compression, trace words, the ADC's
peak and clip counters, and what the DACs drive (R53, R54, R57, R79, R101 to R108, R480).
-/
namespace Sys2Proof.Machine

/-! ### Complex numbers -/

def Cx.add (a b : Cx) : Cx := ⟨a.re + b.re, a.im + b.im⟩
def Cx.sub (a b : Cx) : Cx := ⟨a.re - b.re, a.im - b.im⟩
def Cx.mul (a b : Cx) : Cx := ⟨a.re * b.re - a.im * b.im, a.re * b.im + a.im * b.re⟩
def Cx.conj (a : Cx) : Cx := ⟨a.re, -a.im⟩
def Cx.scale (k : Rat) (a : Cx) : Cx := ⟨k * a.re, k * a.im⟩
def Cx.norm2 (a : Cx) : Rat := a.re * a.re + a.im * a.im
def Cx.abs (a : Cx) : Rat := sqrtRat a.norm2
def Cx.sum (l : List Cx) : Cx := l.foldl Cx.add {}

/-- e^(j2πx) of an angle in turns. -/
def Cx.turn (x : Rat) : Cx := ⟨cosTurn x, sinTurn x⟩

/-! ### The chirp (R79) -/

/-- The Tukey envelope at part `x` of the pulse, with tapers of `a` of it each. -/
def tukey (a x : Rat) : Rat :=
  let e := min x (1 - x)
  if e < 0 then 0 else if a ≤ e then 1 else (1 - cosTurn (e / (2 * a))) / 2

/-- Phase of the chirp at baseband, in turns, `t` ticks into a pulse of `nc` ticks of a channel width of 1/`m` per tick: it sweeps
from −0.4 B to +0.4 B. -/
def chirpTurns (m nc : Nat) (t : Rat) : Rat := 4 / 10 * (t / m) * (t / nc - 1)

/-- The chirp with its envelope at baseband. -/
def chirpAt (m nc taper : Nat) (t : Rat) : Cx := (Cx.turn (chirpTurns m nc t)).scale (tukey ((taper : Rat) / 100) (t / nc))

/-! ### The DAC outputs (R53, R54, R475, R480) -/

/-- What the DACs of a port drive: the zero code, the chirp of a tone, or the loopback tone at an offset in Hz. -/
inductive DacDrive where
  | zero
  | chirp (c : Chirp)
  | tone (hz : Int)
deriving DecidableEq, Repr

/-- Ticks of the period in progress that have passed. -/
def State.tickNow (s : State) (d : Nat) : Rat := ((s.fifths : Rat) - (s.probe d).startAt) / 4

/-- What the DACs drive at this moment: outside a pulse and the loopback tone, the zero code (R54). -/
def State.dacDrive (s : State) (d : Nat) : DacDrive :=
  let p := s.probe d
  let c := tget s.cal {} d
  let t := s.tickNow d
  if !(s.port d).drive then .zero
  else if c.phase = .b ∧ ((p.live.np : Rat) - p.live.nt + 1250 ≤ t ∧ t < (p.live.np : Rat) - 1250) then
    .tone (if c.rounds % 2 = 1 then 562500000 else -562500000)
  else
    match p.chirp with
    | some x => if p.firing ∧ (x.offset : Rat) ≤ t ∧ t < x.offset + x.dur then .chirp x else .zero
    | none => .zero

/-- DAC full scale in mV (R53). -/
def State.dacFullScale (s : State) (d : Nat) : Rat := 600 + fld (s.reg (Reg.AQ_DAC_SCALE d)) 0 8 * 25 / 10

/-- The optical field a drive asks for, as parts of the DAC full scale, `t` ticks after the period start: amplitude and phase. -/
def DacDrive.field (x : DacDrive) (t : Rat) : Cx :=
  match x with
  | .zero => {}
  | .tone hz => (Cx.turn (hz * t * 8 / 10000000000)).scale (1 / 8)
  | .chirp c =>
    let u := t - c.offset
    let mid := (c.f0 + c.f1) / 2
    let sweep := (c.f1 - c.f0) / 2 * (u / c.dur - 1)
    (Cx.turn (((mid + sweep) * u * 8 / 10 - mid * c.trim.delay) / 1000000000)).scale
      (c.level * ofDb (c.trim.amp / 2) * tukey ((c.taper : Rat) / 100) (u / c.dur))

/-- The codes of DACI and DACQ of a field, after the modulator's gain and phase correction of Q relative to I (R480). -/
def dacCodes (corr : Corrections) (x : Cx) : Int × Int :=
  let ph := corr.modP / 360
  let q := (x.im * cosTurn ph + x.re * sinTurn ph) * ofDb (corr.modG / 2)
  (clampInt (-2048) 2047 (roundRat (2047 * x.re)), clampInt (-2048) 2047 (roundRat (2047 * q)))

/-- The codes that the DACs of a port drive at this moment. -/
def State.dacOut (s : State) (d : Nat) : Int × Int :=
  dacCodes (tget s.cal {} d).live.corr ((s.dacDrive d).field (s.tickNow d))

/-! ### Periods whose samples arrive (R86, R98) -/

/-- The period in progress. -/
def State.periodNow (s : State) (d : Nat) : PeriodTag :=
  let p := s.probe d
  { count := p.count, stamp := p.stamp, start := p.startAt, incomplete := p.incomplete, corr := (tget s.cal {} d).live.corr }

/-- The period of a number, of those whose samples may still arrive. -/
def State.periodTag (s : State) (d n : Nat) : Option PeriodTag :=
  (s.periodNow d :: (s.probe d).past).find? (·.count == n)

/-- The corrections in force at tick `u` of period `n` (R102): a new value applies from a period start on. -/
def State.corrAt (s : State) (d n : Nat) (u : Int) : Corrections :=
  let per := (s.probe d).live.np
  let k := n + (if per = 0 then 0 else (u / per).toNat)
  ((s.periodTag d k).getD (s.periodNow d)).corr

/-! ### Corrections (R101) -/

/-- The codes of a sample, in the order XI, XQ, YI, YQ. -/
def adcCodes (a : AdcSample) : List Int := [a.xi, a.xq, a.yi, a.yq]

/-- The code −2048 or +2047 is a clipped sample (R57). -/
def clippedCode (x : Int) : Bool := x == -2048 || x == 2047

/-- The sample of a tick, where the stretch holds it. -/
def adcSample (b : AdcBlock) (u : Int) : Option AdcSample := if u < b.start then none else b.samples[(u - b.start).toNat]?

/-- The code of ADC `i` at a tick. -/
def adcCode (b : AdcBlock) (i : Nat) (u : Int) : Int := match adcSample b u with | some a => (adcCodes a).getD i 0 | none => 0

/-- An ADC stream after its offset and gain (steps 1 and 2). -/
def levelled (corr : Int → Corrections) (b : AdcBlock) (i : Nat) (u : Int) : Rat :=
  let c := corr u
  (adcCode b i u - c.ofs.getD i 0 / 8) * c.gain.getD i 1

/-- XQ, YI and YQ delayed by their skews relative to XI (step 3). -/
def skewed (corr : Int → Corrections) (b : AdcBlock) (i : Nat) (u : Int) : Rat :=
  if i = 0 then levelled corr b i u
  else ((Config.delayTaps ((corr u).skew.getD (i - 1) 0)).map fun (lag, h) => h * levelled corr b i (u - lag)).sum

/-- The corrected complex stream of polarisation `p` (step 4). -/
def corrected (corr : Int → Corrections) (b : AdcBlock) (p : Nat) (u : Int) : Cx :=
  let i := skewed corr b (2 * p) u
  let q := skewed corr b (2 * p + 1) u
  let c := corr u
  ⟨i, c.iq.getD (2 * p) 0 * i + (1 + c.iq.getD (2 * p + 1) 0) * q⟩

/-! ### Channeliser (R103, R104) -/

/-- M: channels of the filter bank, and the decimation. -/
def ProbeSet.channels (p : ProbeSet) : Nat := 5 * p.tones / 4

/-- The channel that carries a tone. -/
def ProbeSet.channelOf (p : ProbeSet) (k : Nat) : Nat := k + p.tones / 8

/-- Taps of the prototype filter: 16 per polyphase branch. -/
def protoTaps (m : Nat) : Nat := 16 * m

/-- Centre of channel `c` of `m` in turns per tick: −625 MHz + (c + ½) × B at 0.8 ns. -/
def chanTurns (m c : Nat) : Rat := ((c : Rat) + 1 / 2) / m - 1 / 2

/-- The channel's output whose filter is centred at tick `u`; phases count from tick `ref`. -/
def channelOut (m c : Nat) (ref : Int) (x : Int → Cx) (u : Int) : Cx :=
  Cx.sum ((List.range (protoTaps m)).map fun n =>
    let v : Int := u + (8 * m : Nat) - (n : Nat)
    ((x v).mul (Cx.turn (-(chanTurns m c * (v - ref : Int))))).scale (Config.prototype m n))

/-- The response of a prototype at `f` channel widths from the centre. -/
noncomputable def protoResponse (h : Nat → Rat) (m : Nat) (f : ℝ) : ℂ :=
  ((List.range (protoTaps m)).map fun n => (h n : ℂ) * Complex.exp (-(2 * Real.pi * f * n / m : ℝ) * Complex.I)).sum

/-- What R104 asks of a prototype: flat to ±0.05 dB within ±0.4 B, and at least 70 dB down from ±0.6 B outwards. -/
def ProtoOk (h : Nat → Rat) (m : Nat) : Prop :=
  (∀ f : ℝ, |f| ≤ 0.4 → |20 * Real.logb 10 ‖protoResponse h m f‖| ≤ 0.05) ∧
    (∀ f : ℝ, 0.6 ≤ |f| → |f| ≤ m / 2 → ‖protoResponse h m f‖ ≤ 10 ^ (-3.5 : ℝ))

/-! ### Pulse compression (R105) -/

/-- L_c: taps of the matched filter, ceil(τ_c × B). -/
def ProbeSet.matchedTaps (p : ProbeSet) : Nat := (p.nc + p.channels - 1) / p.channels

/-- Ticks of tap `i` from the middle of the pulse. -/
def ProbeSet.tapTick (p : ProbeSet) (i : Nat) : Int := (2 * (i : Int) - (p.matchedTaps - 1 : Nat)) * p.channels / 2

/-- The chirp at tap `i`. -/
def ProbeSet.tap (p : ProbeSet) (i : Nat) : Cx := chirpAt p.channels p.nc p.taper ((p.nc : Rat) / 2 + p.tapTick i)

/-- The tick at which trace sample `j` of tone `k` stands after its period start (R86). -/
def ProbeSet.traceTick (p : ProbeSet) (k : Nat) (j : Nat) : Int :=
  roundRat ((p.offset k : Rat) + (p.nc : Rat) / 2 + (p.d0 : Rat) / 8 + (j * p.channels : Nat))

/-- Trace sample `j` of tone `k` before its scaling: the channel's output through the matched filter of unit energy. -/
def ProbeSet.compressed (p : ProbeSet) (x : Int → Cx) (k j : Nat) : Cx :=
  let taps := (List.range p.matchedTaps).map fun i => (p.tap i, p.tapTick i)
  let u := p.traceTick k j
  let y := channelOut p.channels (p.channelOf k) (p.offset k) x
  let energy := (taps.map fun (c, _) => c.norm2).sum
  (Cx.sum (taps.map fun (c, t) => c.conj.mul (y (u + t)))).scale (1 / sqrtRat energy)

/-! ### Trace words (R106 to R108) -/

/-- Scale one component: rounded to a register step, within one step of the direct convolution, and held within ±16,383. -/
def scaleTrace (shift : Nat) (v : Rat) : Int × Bool :=
  let x := roundRat (v / 2 ^ shift) + clampInt (-1) 1 (Config.convErr (v / 2 ^ shift))
  (clampInt (-16383) 16383 x, decide (16383 < x.natAbs))

/-- A clipped sample lies within the spans of the channeliser and compression filters of a trace sample (R108). -/
def ProbeSet.clipSeen (p : ProbeSet) (b : AdcBlock) (k j : Nat) : Bool :=
  let u := p.traceTick k j
  let lo := u + p.tapTick 0 - (8 * p.channels : Nat) + 1
  let hi := u + p.tapTick (p.matchedTaps - 1) + (8 * p.channels : Nat)
  ((List.range b.samples.length).zip b.samples).any fun (i, a) =>
    decide (lo ≤ b.start + (i : Int)) && decide (b.start + (i : Int) ≤ hi) && (adcCodes a).any clippedCode

/-- A trace word, whether a component saturated, and whether a clipped ADC sample contributed. -/
structure Traced where
  word : TraceWord
  sat  : Bool
  adc  : Bool
deriving DecidableEq, Repr, Inhabited

/-- Trace word `j` of tone `k` in the period that `tag` names, formed of a stretch of ADC samples. -/
def State.traceWord (s : State) (d : Nat) (tag : PeriodTag) (b : AdcBlock) (k j : Nat) : Traced :=
  let p := (s.probe d).live
  let shift := fld (s.reg (Reg.AQ_DFE_CTL d)) 0 4
  let x := fun pol => p.compressed (corrected (s.corrAt d tag.count) b pol) k j
  let c := scaleTrace shift
  let xi := c (x 0).re
  let xq := c (x 0).im
  let yi := c (x 1).re
  let yq := c (x 1).im
  let sat := xi.2 || xq.2 || yi.2 || yq.2
  let adc := p.clipSeen b k j
  { word := { xi := xi.1, xq := xq.1, yi := yi.1, yq := yq.1, clip := sat || adc, incomplete := tag.incomplete }
    sat := sat, adc := adc }

/-- The 64-bit trace word (R107). -/
def TraceWord.bits (w : TraceWord) : Nat :=
  toField 15 w.xi + 2 ^ 15 * toField 15 w.xq + 2 ^ 30 * toField 15 w.yi + 2 ^ 45 * toField 15 w.yq +
    2 ^ 60 * b2n w.clip + 2 ^ 61 * b2n w.incomplete

/-- The sample of one polarisation. -/
def TraceWord.pol (w : TraceWord) (p : Nat) : Cx := if p = 0 then ⟨w.xi, w.xq⟩ else ⟨w.yi, w.yq⟩

/-- Count saturated trace samples and note the events of trace words (R106, R108). -/
def State.noteTrace (s : State) (d : Nat) (l : List Traced) : State :=
  let sat := countOf l (·.sat)
  let a := Reg.AQ_DFE_SAT_CNT d
  let s := s.setReg a (lo32 (min 0xFFFFFFFF ((s.reg a).toNat + sat)))
  let s := s.when (0 < sat) (·.setEvt (Reg.AQ_DFE_EVT d) 0)
  s.when (l.any (·.adc)) (·.setEvt (Reg.AQ_DFE_EVT d) 1)

/-! ### The ADC's own counters (R57) -/

/-- ADC peaks and clipped samples of a stretch: each sample of a port counts once, however many slices it goes into. -/
def State.adcStats (s : State) (d : Nat) (b : AdcBlock) : State :=
  match s.periodTag d b.period with
  | none => s
  | some tag =>
    let p := s.probe d
    let at5 := fun (i : Nat) => (tag.start : Int) + 4 * (b.start + (i : Int))
    let fresh := (((List.range b.samples.length).zip b.samples).filter fun (i, _) => decide ((p.adcSeen : Int) < at5 i)).map (·.2)
    let pk := Reg.AQ_ADC_PEAK d
    let ov := Reg.AQ_ADC_OVR d
    let code := fun (a : AdcSample) (i : Nat) => (adcCodes a).getD i 0
    let peak := fun i => fresh.foldl (fun m a => max m (min 127 ((code a i).natAbs / 16))) (fld (s.reg pk) (8 * i) 8)
    let clips := fun i => min 255 (fld (s.reg ov) (8 * i) 8 + countOf fresh fun a => clippedCode (code a i))
    let s := s.setReg pk (word ((List.range 4).map fun i => (8 * i, 8, peak i)))
    let s := s.setReg ov (word ((List.range 4).map fun i => (8 * i, 8, clips i)))
    s.setProbe d { p with adcSeen := max p.adcSeen (at5 (b.samples.length - 1)).toNat }

end Sys2Proof.Machine
end

