-- ==== Sys2Proof/Machine/Clock.lean ====
section
/-!
DEFINITION. The town clock's discipline: its sources, measurements, lock and holdover, step requests, the HB_TC registers
(Architecture, R39 to R48). Applying a step shifts held times everywhere and stands in Machine/Step of the clock (ClockStep).
-/
namespace Sys2Proof.Machine

def State.setTc (s : State) (f : TownClock → TownClock) : State := { s with tc := f s.tc }

/-- HB_TC_CTL.SRC. -/
def State.tcSrc (s : State) : Nat := fld (s.reg Reg.HB_TC_CTL) 0 2

/-- The largest frequency correction, 0.1 ppb: the slew limit, at most 500 ppm. -/
def State.maxFreq (s : State) : Nat := min 5000000 (s.slewPpm * 10000)

/-- HB_TC_SET in ns. -/
def State.tcSet (s : State) : Nat := (s.reg Reg.HB_TC_SET_LO).toNat + 2 ^ 32 * (s.reg Reg.HB_TC_SET_HI).toNat

/-- The source time with PPS as source: whole seconds from HB_TC_SET, phase from PPS_IN (R42). -/
def State.ppsTime (s : State) : Nat :=
  s.tcSet / 1000000000 * 1000000000 + (((s.tc.now : Int) + s.tc.offset) % 1000000000).toNat

/-- The target of a step now: the source time, or HB_TC_SET (R42, R43). -/
def State.stepTarget (s : State) (k : StepKind) : Nat :=
  match k with
  | .source => if s.tcSrc = 3 then s.ppsTime else (s.tc.now + s.tc.offset).toNat
  | .set => if s.tcSrc = 3 then s.ppsTime else s.tcSet

/-- A step is requested (R43): refused outside Start, Maintenance and Safe-stop and to a time at or below the present value. -/
def State.stepRequest (s : State) (k : StepKind) : State :=
  if !s.dev.quiet || decide (s.stepTarget k ≤ s.tc.now) then s.setEvt Reg.HB_TC_EVT 3
  else s.setTc fun t => { t with stepPending := some k }

/-- Lock is reached (R45). -/
def State.tcLock (s : State) : State :=
  (s.setTc fun t => { t with disc := .locked, valid := true }).setEvt Reg.HB_TC_EVT 0

/-- A valid measurement of the offset from the source (R41, R43 to R45): the first one in Start steps under AUTO_STEP. -/
def State.tcMeasure (s : State) (off : Int) : State :=
  let auto := bitOf (s.reg Reg.HB_TC_CTL) 3 && s.dev == .start && !s.tc.valid && s.tc.stepPending.isNone
  let lim : Int := s.maxFreq
  let hold := s.tc.disc == .holdover
  let s := s.setTc fun t => { t with
    offset := off
    good := if off.natAbs < 1000 then t.good + 1 else 0
    disc := if t.disc = .free then .locking else t.disc
    freq := if hold then t.freq else clampInt (-lim) lim (Config.servo off t.freq) }
  let s := s.when (auto && off != 0) (·.stepRequest .source)
  let s := s.when (decide (1000000000 < off.natAbs) && !s.dev.quiet) (·.setEvt Reg.HB_TC_EVT 4)
  if s.tc.good ≥ 16 ∧ s.tc.disc ≠ .locked then s.tcLock else s

/-! ### PTP (R41, R368, R369) -/

/-- No announce of the selected master for 6 s, three intervals of the standard's default 2 s (PRESUMED). -/
def State.ptpLost (s : State) : Bool := decide (s.tc.ptpHeard + ms 6000 ≤ s.now)

/-- The master an announce names is accepted: by MASTER_ID, or by the best-master comparison (HB_TC_PTP_CFG), to which a master that
has fallen silent no longer stands. -/
def State.ptpAccepts (s : State) (g : PtpMessage) : Bool :=
  let cfg := s.reg Reg.HB_TC_PTP_CFG
  if bitOf cfg 8 then
    match s.tc.ptpMaster with
    | none => true
    | some (m, r) => m == g.master || decide (g.rank < r) || s.ptpLost
  else g.master % 2 ^ 16 == fld cfg 16 16

/-- A complete master-to-slave measurement t2 − t1; with a path delay known it is an offset. A two-step Sync is a valid sync message
once its Follow_Up has come (DEDUCED). -/
def State.ptpM2S (s : State) (diff : Int) : State :=
  let s := s.setTc fun t => { t with ptpM2S := some diff, ptpSync := none, lastSync := s.now }
  match s.tc.ptpMean with
  | some mean => s.tcMeasure (-(diff - mean))
  | none => s

/-- A PTP message arrives on the disciplining port and domain (R41). `t2` is its hardware timestamp. -/
def ptpMessage (g : PtpMessage) (s : State) : State :=
  let cfg := s.reg Reg.HB_TC_PTP_CFG
  if !((s.tcSrc == 1 && g.port == 0) || (s.tcSrc == 2 && g.port == 1)) || g.domain ≠ fld cfg 0 8 then s
  else
    let fromMaster := match s.tc.ptpMaster with | some (m, _) => m == g.master | none => false
    match g.kind with
    | .announce =>
      if s.ptpAccepts g then
        s.setTc fun t => { t with
          ptpMaster := some (g.master, g.rank), ptpHeard := s.now, utc := g.utcOffset % 2 ^ 16, utcValid := g.utcValid
          ptpSync := if fromMaster then t.ptpSync else none
          ptpDelay := if fromMaster then t.ptpDelay else none
          ptpM2S := if fromMaster then t.ptpM2S else none
          ptpMean := if fromMaster then t.ptpMean else none }
      else s
    | .sync =>
      if !fromMaster then s
      else if g.twoStep then s.setTc fun t => { t with ptpSync := some (g.seq, t.now, g.correction) }
      else s.ptpM2S ((s.tc.now : Int) - g.stamp - g.correction)
    | .followUp =>
      match fromMaster, s.tc.ptpSync with
      | true, some (q, t2, c) => if q = g.seq then s.ptpM2S ((t2 : Int) - g.stamp - c - g.correction) else s
      | _, _ => s
    | .delayResp =>
      match fromMaster, s.tc.ptpDelay, s.tc.ptpM2S with
      | true, some (q, t3), some m2s =>
        if q = g.seq then
          let s2m : Int := (g.stamp : Int) - g.correction - t3
          s.setTc fun t => { t with ptpMean := some ((m2s + s2m) / 2), ptpDelay := none }
        else s
      | _, _, _ => s

/-- A timestamped Delay_Req goes to the selected master (R41). -/
def ptpDelayReq (s : State) : State :=
  match s.tc.ptpMaster with
  | some (m, _) =>
    if s.tcSrc = 1 ∨ s.tcSrc = 2 then
      let q := (s.tc.ptpDelaySeq + 1) % 65536
      (s.setTc fun t => { t with ptpDelaySeq := q, ptpDelay := some (q, t.now) }).send
        (.packet (s.tcSrc - 1) 319 (leBytes 8 m ++ leBytes 2 q))
    else s
  | none => s

/-! ### PPS (R42) -/

/-- One more missing edge. -/
def State.ppsMissed (s : State) : State := s.setTc fun t => { t with missed := t.missed + 1, good := 0 }

/-- An edge on PPS_IN: the selected one starts a second at its time less the cable delay; after lock one more than 1 µs away
from the boundary counts as missing. -/
def ppsEdge (falling : Bool) (s : State) : State :=
  let cfg := s.reg Reg.HB_TC_PPS_CFG
  if s.tcSrc ≠ 3 ∨ bitOf cfg 16 ≠ falling then s
  else
    let x := ((s.tc.now : Int) - fld cfg 0 16) % 1000000000
    let off : Int := if x < 500000000 then -x else 1000000000 - x
    if s.tc.disc = .locked ∧ 1000 < off.natAbs then s.ppsMissed
    else (s.setTc fun t => { t with missed := 0 }).tcMeasure off

/-- An expected edge does not arrive. -/
def ppsEdgeMissing (s : State) : State := if s.tcSrc = 3 then s.ppsMissed else s

/-! ### Holdover (R45) -/

/-- The condition of holdover: 4 s without a valid sync, or three missing edges. -/
def State.holdoverDue (s : State) : Bool :=
  match s.tcSrc with
  | 0 => false
  | 3 => decide (3 ≤ s.tc.missed)
  | _ => decide (ms 4000 ≤ s.now - s.tc.lastSync)

/-- Holdover is entered; the clock keeps its last frequency correction. -/
def holdoverEntry (s : State) : State :=
  if s.holdoverDue && (s.tc.disc == .locked || s.tc.disc == .locking) then
    let s := s.when (s.tc.disc == .locked) (·.setEvt Reg.HB_TC_EVT 1)
    (s.setTc fun t => { t with disc := .holdover, good := 0, holdStart := s.now }).setEvt Reg.HB_TC_EVT 2
  else s

/-! ### FD's copy (R39, R40, R46) -/

/-- FD takes a slew message (R39): the difference that HB has measured, within 50 ns of the true one, is slewed away, never stepped. -/
def slewMessage (err : Int) (s : State) : State :=
  if s.fdUp then s.setTc fun t => { t with fdSlew := (t.now : Int) - t.fd + clampInt (-50) 50 err } else s

/-- FD's copy stands `skew` ns ahead of the master: its oscillator has left the rate. It never falls below `floor`, where it stood
before (R40). -/
def TownClock.drift (t : TownClock) (floor : Nat) (skew : Int) : TownClock := { t with fd := max floor (t.now + skew).toNat }

/-- FD's copy has differed by more than 500 ns for 10 ms. -/
def skewDetect (floor : Nat) (skew : Int) (s : State) : State :=
  if 500 < skew.natAbs then
    (s.setTc fun t => { t.drift floor skew with fdDegraded := true }).setEvt Reg.HB_TC_EVT 5
  else s

/-- The difference has been below 50 ns for 100 ms. -/
def skewRecover (floor : Nat) (skew : Int) (s : State) : State :=
  if skew.natAbs < 50 then s.setTc fun t => { t.drift floor skew with fdDegraded := false } else s

/-! ### Registers -/

/-- A write to an HB_TC register. A change of SRC keeps the frequency correction in force (DESIGN CHOICE). -/
def tcWrite (s : State) (o : Nat) (v : Word) : State :=
  match o with
  | 0x08 =>
    let src := fld v 0 2
    let changed := src != s.tcSrc
    let s := s.setReg Reg.HB_TC_CTL (word [(0, 2, src), (3, 1, b2n (bitOf v 3))])
    let s := s.when changed fun s =>
      let s := s.when (s.tc.disc == .locked) (·.setEvt Reg.HB_TC_EVT 1)
      s.setTc fun t => { t with
        disc := if src = 0 then .free else .locking, good := 0, missed := 0, lastSync := s.now
        ptpMaster := none, ptpSync := none, ptpDelay := none, ptpM2S := none, ptpMean := none }
    s.when (bitOf v 2) (·.stepRequest .set)
  | 0x18 => s.setReg Reg.HB_TC_SLEW_LIMIT (lo32 (clampNat 1 500 (fld v 0 9)))
  | 0x1C => s.setReg Reg.HB_TC_SET_LO v
  | 0x20 => s.setReg Reg.HB_TC_SET_HI v
  | 0x24 => s.setReg Reg.HB_TC_PTP_CFG (word [(0, 9, fld v 0 9), (16, 16, fld v 16 16)])
  | 0x28 => s.setReg Reg.HB_TC_PPS_CFG (lo32 (fld v 0 17))
  | _ => s

/-- A read of HB_TC_NOW_LO latches the high half for the reading master (R47). -/
def State.tcNowLo (s : State) (m : Master) : State × Word :=
  (s.setMreg m Reg.HB_TC_NOW_HI (hi32 s.tc.now), lo32 s.tc.now)

/-- The code of HB_TC_STATUS.STATE. -/
def disciplineCode : Discipline → Nat
  | .free => 0 | .locking => 1 | .locked => 2 | .holdover => 3

/-- HB_TC registers that are views of the state. -/
def tcView (s : State) (o : Nat) : Option Word :=
  let t := s.tc
  match o with
  | 0x00 => some (lo32 t.now)
  | 0x0C => some (word [(0, 2, disciplineCode t.disc), (2, 1, b2n t.valid), (3, 1, b2n t.stepPending.isSome),
      (4, 1, b2n (t.freq != 0 && t.freq.natAbs == s.maxFreq))])
  | 0x10 => some (BitVec.ofInt 32 (clampInt (-2147483647) 2147483647 t.offset))
  | 0x14 => some (BitVec.ofInt 32 t.freq)
  | 0x2C => some (word [(0, 16, t.utc), (16, 1, b2n t.utcValid)])
  | 0x30 => some (BitVec.ofInt 32 (clampInt (-2147483648) 2147483647 ((t.fd : Int) - t.now)))
  | 0x38 => some (lo32 (if t.disc = .holdover then min 0xFFFFFFFF ((s.now - t.holdStart) / 1000000000) else 0))
  | _ => none

/-- Town-clock time at powered time `t`, at or before now. -/
def State.tcAt (s : State) (t : Nat) : Nat := s.tc.now - (s.now - t) * ((10 ^ 10 : Int) + s.tc.freq).toNat / 10 ^ 10

/-! ### Meanings -/

/-- PTP_MESSAGE_RECEIVED (R41). -/
def execPtpMessageReceived (dt : Nat) (g : PtpMessage) (s : State) : Out := s.afterHb dt (ptpMessage g)

/-- PTP_DELAY_REQ_SEND (R41). -/
def execPtpDelayReqSend (dt : Nat) (s : State) : Out := s.afterHb dt ptpDelayReq

/-- PPS_EDGE (R42). -/
def execPpsEdge (dt : Nat) (falling : Bool) (s : State) : Out := s.afterHb dt (ppsEdge falling)

/-- PPS_EDGE_MISSING (R42). -/
def execPpsEdgeMissing (dt : Nat) (s : State) : Out := s.afterHb dt ppsEdgeMissing

/-- TC_HOLDOVER_ENTRY (R45). -/
def execTcHoldoverEntry (dt : Nat) (s : State) : Out := s.afterHb dt holdoverEntry

/-- TC_SLEW_MESSAGE (R40). -/
def execTcSlewMessage (dt : Nat) (err : Int) (s : State) : Out := s.after dt (slewMessage err)

/-- FD_SKEW_DETECT (R46). -/
def execFdSkewDetect (dt : Nat) (skew : Int) (s : State) : Out := s.afterHb dt (skewDetect s.tc.fd skew)

/-- FD_SKEW_RECOVER (R46). -/
def execFdSkewRecover (dt : Nat) (skew : Int) (s : State) : Out := s.afterHb dt (skewRecover s.tc.fd skew)

end Sys2Proof.Machine
end

