-- ==== Sys2Proof/Machine/Spans.lean ====
section
/-!
DEFINITION. The geometry of spans, lanes, blocks and quarters, and who serves a span (Lanes, Blocks and Quarters, R132 to R135,
R152 to R155).
-/
namespace Sys2Proof.Machine

def State.die (s : State) (d : Nat) : DieLbq := tget s.lbq {} d
def State.setDie (s : State) (d : Nat) (l : DieLbq) : State := { s with lbq := tset s.lbq d l }

def DieLbq.lane (l : DieLbq) (i : Nat) : Lane := tget l.lanes {} i
def DieLbq.setLane (l : DieLbq) (i : Nat) (x : Lane) : DieLbq := { l with lanes := tset l.lanes i x }
def DieLbq.blk (l : DieLbq) (b : Nat) : Blk := tget l.blks {} b
def DieLbq.setBlk (l : DieLbq) (b : Nat) (x : Blk) : DieLbq := { l with blks := tset l.blks b x }
def DieLbq.qtr (l : DieLbq) (q : Nat) : Qtr := tget l.qtrs {} q
def DieLbq.setQtr (l : DieLbq) (q : Nat) (x : Qtr) : DieLbq := { l with qtrs := tset l.qtrs q x }

def State.lane (s : State) (d i : Nat) : Lane := (s.die d).lane i
def State.blk (s : State) (d b : Nat) : Blk := (s.die d).blk b

/-- Change one lane. -/
def State.modLane (s : State) (d i : Nat) (f : Lane → Lane) : State := s.setDie d ((s.die d).setLane i (f (s.lane d i)))

/-- Change one block. -/
def State.modBlk (s : State) (d b : Nat) (f : Blk → Blk) : State := s.setDie d ((s.die d).setBlk b (f (s.blk d b)))

/-- Lanes, blocks and quarters of a die. -/
def laneNumbers : List Nat := List.range 288
def blockNumbers : List Nat := List.range 32

/-- Block of a lane. -/
def laneBlock (i : Nat) : Nat := i / 9

/-- Quarter of a block. -/
def blockQuarter (b : Nat) : Nat := b / 4

/-- The nine lanes of a block. -/
def blockLanes (b : Nat) : List Nat := (List.range 9).map (9 * b + ·)

/-- FIRST and COUNT of a lane's span (R132); position 8 has none. -/
def State.spanFirst (s : State) (d i : Nat) : Nat := fld (s.reg (Reg.AQ_LANE_SPAN d i)) 0 17
def State.spanCount (s : State) (d i : Nat) : Nat :=
  if i % 9 = 8 then 0 else fld (s.reg (Reg.AQ_LANE_SPAN d i)) 17 11

/-- G and h of a lane's span (R131: the entry of the span's own lane, whoever serves it). -/
def State.gauge (s : State) (d i : Nat) : Nat := fld (s.reg (Reg.AQ_DMD_LANE d i)) 0 6
def State.halfW (s : State) (d i : Nat) : Nat := fld (s.reg (Reg.AQ_DMD_LANE d i)) 6 3

/-- Halo words on each side of a span (R109). -/
def State.halo (s : State) (d i : Nat) : Nat := (s.gauge d i + 1) / 2 + s.halfW d i

/-- Points of a span. -/
def State.spanPoints (s : State) (d i : Nat) : List Nat := (List.range (s.spanCount d i)).map (s.spanFirst d i + ·)

/-- The lane at positions 0 to 7 whose span holds point `j`. -/
def State.homeOf (s : State) (d j : Nat) : Option Nat :=
  laneNumbers.find? fun i => decide (s.spanFirst d i ≤ j) && decide (j < s.spanFirst d i + s.spanCount d i)

/-- The die works: it has power and no fault at die level. -/
def State.dieUp (s : State) (d : Nat) : Bool := (s.die d).power && !(s.die d).dieFault

/-- The block works for its spans. -/
def State.blkUp (s : State) (d b : Nat) : Bool := s.dieUp d && (s.blk d b).st == .running

/-- The span of lane `i` is unavailable (R153, R156). -/
def State.spanUnavail (s : State) (d i : Nat) : Bool :=
  s.spanCount d i != 0 && (!s.blkUp d (laneBlock i) || (s.lane d i).unavail)

/-- The lane that serves the span of lane `i`: none while it is unavailable or being taken over. -/
def State.serverOf (s : State) (d i : Nat) : Option Nat :=
  let l := s.lane d i
  if s.spanCount d i = 0 ∨ s.spanUnavail d i then none
  else
    match l.taken with
    | some t => some t
    | none => if l.faulty then none else some i

/-- The lane whose span lane `t` serves. -/
def State.servedBy (s : State) (d t : Nat) : Option Nat :=
  (blockLanes (laneBlock t)).find? fun i => s.serverOf d i == some t

/-- The lane is its block's standby spare. -/
def State.isSpare (s : State) (d i : Nat) : Bool := (s.blk d (laneBlock i)).spare == some (i % 9)

/-- The takeover of a span that is not complete. -/
def State.takeoverOf (s : State) (d home : Nat) : Option Takeover := (s.blk d (laneBlock home)).loading.find? (·.home == home)

/-- ROLE and SERVES of a lane (R164): idle, serving its own span, standby spare, serving another's. -/
def State.laneRole (s : State) (d i : Nat) : Nat × Nat :=
  match s.servedBy d i with
  | some k => if k = i then (1, i) else (3, k)
  | none => if s.isSpare d i then (2, 0) else (0, 0)

/-- The lanes of a block keep what they show: its status stays readable while it is gated or faulty (R164). -/
def State.holdRoles (s : State) (d b : Nat) : State :=
  if !s.blkUp d b then s
  else (blockLanes b).foldl (fun s i => s.modLane d i fun l => { l with shown := s.laneRole d i }) s

/-- The neighbour of a span above (`upper`) or below: the span that begins where it ends, or ends where it begins. -/
def State.neighbour (s : State) (d i : Nat) (upper : Bool) : Option Nat :=
  laneNumbers.find? fun k =>
    s.spanCount d k != 0 && s.spanCount d i != 0 &&
      (if upper then s.spanFirst d k == s.spanFirst d i + s.spanCount d i
       else s.spanFirst d i == s.spanFirst d k + s.spanCount d k)

/-- A point's position in spatial samples, doubled: 2j for an even gauge, 2j + 1 for an odd one (R116). -/
def State.pos2 (s : State) (d i j : Nat) : Nat := 2 * j + s.gauge d i % 2

/-- An instant of R86, ns: tone k's sample of the position `x2 ÷ 2` samples, for a period stamped `p`. -/
def ProbeSet.instant (ps : ProbeSet) (p k x2 : Nat) : Rat :=
  (p : Rat) + (ps.offset k : Rat) * 8 / 10 + (ps.nc : Rat) * 4 / 10 + (ps.d0 : Rat) / 10 +
    (x2 : Rat) / 2 / ps.chanWidth * 1000000000

end Sys2Proof.Machine
end

