-- ==== Sys2Proof/Machine/Detector.lean ====
section
/-!
DEFINITION. Virtual wheel sensors: the detection stream, the template bank, decisions, sensor states and the events a lane emits
(Virtual Wheel Sensors and Wheel Events, R170 to R190).
-/
namespace Sys2Proof.Machine

/-! ### The sensor table and its parameters -/

def State.sensor (s : State) (d e : Nat) : Sensor := tget s.sensors {} (2048 * d + e)
def State.setSensor (s : State) (d e : Nat) (x : Sensor) : State := { s with sensors := tset s.sensors (2048 * d + e) x }

/-- Entry e: CFG, POS, TM. -/
def State.senCfg (s : State) (d e : Nat) : Word := s.reg (Reg.AQ_WSD_SENSOR d (4 * e))
def State.senPos (s : State) (d e : Nat) : Word := s.reg (Reg.AQ_WSD_SENSOR d (4 * e + 1))
def State.senEn (s : State) (d e : Nat) : Bool := bitOf (s.senCfg d e) 13
def State.senJ (s : State) (d e : Nat) : Nat := fld (s.senPos d e) 0 17
def State.senHome (s : State) (d e : Nat) : Nat := fld (s.senPos d e) 17 9
def State.senCp (s : State) (d e : Nat) : Nat := fld (s.senCfg d e) 0 12
def State.senSys (s : State) (d e : Nat) : Nat := fld (s.senCfg d e) 12 1
def State.ampMin (s : State) (d e : Nat) : Nat := fld (s.senCfg d e) 16 8

/-- Sensor ID (R170). -/
def State.senId (s : State) (d e : Nat) : Nat := 2 * s.senCp d e + s.senSys d e

/-- Enabled entries of a die. -/
def State.sensorsOf (s : State) (d : Nat) : List Nat := (List.range 2048).filter (s.senEn d ·)

def State.wsdGate (s : State) (d : Nat) : Word := s.reg (Reg.AQ_WSD_GATE d)
def State.wsdTiming (s : State) (d : Nat) : Word := s.reg (Reg.AQ_WSD_TIMING d)
def State.sightHold (s : State) (d : Nat) : Nat := fld (s.wsdTiming d) 0 8
def State.qDet (s : State) (d : Nat) : Nat := fld (s.wsdGate d) 8 8

/-- A template (R176). -/
structure Template where
  p    : Nat
  c    : Nat
  lo   : Nat
  hi   : Nat
  taps : List Int
deriving DecidableEq, Repr

def State.template (s : State) (d t : Nat) : Template :=
  let w := s.reg (Reg.AQ_WSD_TPL d t)
  { p := fld w 0 5, c := fld w 5 6, lo := fld w 11 9, hi := fld w 20 9
    taps := (List.range 64).map fun i => sfld (s.reg (Reg.AQ_WSD_TAPS d (32 * t + i / 2))) (16 * (i % 2)) 16 }

/-- The largest tap. -/
def Template.peak (t : Template) : Int := t.taps.foldl max 0

/-- The taps of a window: tap i of template t meets the sample (63 − i) × P_s back from the newest. -/
def Template.window (t : Template) (hist : List DetSample) : List (Nat × Int × DetSample) :=
  ((List.range 64).zip t.taps).filterMap fun (i, g) => (hist[(63 - i) * t.p]?).map fun x => (i, g, x)

/-- Every tap of the window meets a sample of the history. -/
def Template.covered (t : Template) (hist : List DetSample) : Bool := decide (63 * t.p < hist.length)

/-- The support taps of a window (R178). -/
def Template.support (t : Template) (hist : List DetSample) : List (Nat × Int × DetSample) :=
  (t.window hist).filter fun (_, g, _) => decide (t.peak ≤ 64 * g)

/-- Amplitude and correlation of a template (R178); the correlation as its square with its sign. -/
def Template.fit (t : Template) (hist : List DetSample) (rest : Rat) : Fit :=
  if !t.covered hist then {}
  else
    let sup := t.support hist
    let ge : Rat := (sup.map fun (_, g, x) => (g : Rat) * (x.y - rest)).sum
    let gg : Rat := (sup.map fun (_, g, _) => (g : Rat) * g).sum
    let ee : Rat := (sup.map fun (_, _, x) => (x.y - rest) * (x.y - rest)).sum
    let c : Rat := if ee = 0 then 0 else ge * ge / (gg * ee)
    { amp := (t.peak : Rat) * ge / gg, corr := if ge < 0 then -c else c, ok := true }

/-- An excursion against AMP_MIN × num ÷ 2, in radians: AMP_MIN is 1/32 rad per LSB, y 2π ÷ 65,536. -/
def reaches (x : Rat) (ampMin num : Nat) : Bool := decide ((ampMin : Rat) * num * 512 ≤ x * piRat)

/-- The correlation itself. -/
def rhoOf (c : Rat) : Rat := if c < 0 then -sqrtRat (-c) else sqrtRat c

/-- δ of R180 over three values. -/
def peakShift (a b c : Rat) : Rat :=
  let den := 2 * (a - 2 * b + c)
  if den = 0 then 0 else max (-1 / 2) (min (1 / 2) ((a - c) / den))

/-- The candidate of a sample (R178): highest correlation among amplitudes at AMP_MIN or above, the lower index of equals. -/
def candidate (fits : List Fit) (ampMin : Nat) : Option Nat :=
  ((List.range fits.length).foldl (fun best t =>
    let f := fits.getD t {}
    if f.ok && reaches f.amp ampMin 2 then
      match best with
      | some (b, c) => if c < f.corr then some (t, f.corr) else some (b, c)
      | none => some (t, f.corr)
    else best) (none : Option (Nat × Rat))).map (·.1)

/-- Sample n holds a peak of template t (R179), from the fits at n − 1, n and n + 1. -/
def peakAt (prev cur next : List Fit) (ampMin rhoMin : Nat) : Option Nat :=
  match candidate cur ampMin with
  | none => none
  | some t =>
    let a := prev.getD t {}
    let b := cur.getD t {}
    let c := next.getD t {}
    let thr : Rat := (rhoMin : Rat) / 256
    if a.ok && c.ok && decide (thr * thr ≤ b.corr) && decide (a.corr ≤ b.corr) && decide (c.corr < b.corr) then some t
    else none

/-- v_s in km/h. -/
def Template.speed (t : Template) : Rat := sqrtRat ((t.lo : Rat) * t.hi)

/-- Speed of a peak in 0.01 km/h, and SPEED_LIMIT (R180). -/
def State.peakSpeed (s : State) (d t : Nat) (cur : List Fit) : Nat × Bool :=
  let tp := s.template d t
  if t = 0 ∨ t = 15 then ((tp.speed * 100).floor.toNat, true)
  else
    let lo := s.template d (t - 1)
    let hi := s.template d (t + 1)
    let a := cur.getD (t - 1) {}
    let c := cur.getD (t + 1) {}
    let dv := if a.ok && c.ok then peakShift (rhoOf a.corr) (rhoOf (cur.getD t {}).corr) (rhoOf c.corr) else 0
    let v := tp.speed * powRat (hi.speed / lo.speed) (dv / 2)
    (((max (tp.lo : Rat) (min (tp.hi : Rat) v)) * 100).floor.toNat, false)

/-! ### Events and restarts -/

/-- An event of a sensor is decided: its home lane holds it until the sentinel has passed (R151). -/
def State.holdEvent (s : State) (d : Nat) (ev : HeldEvent) : State :=
  s.modLane d (s.senHome d ev.entry) fun l => { l with held := l.held ++ [ev] }

/-- A sensor restarts (R175): cause 1 BREAK, 2 TAKEOVER, 3 COMMIT. -/
def State.sensorRestart (s : State) (d e cause time : Nat) : State :=
  let x := s.sensor d e
  let s := s.setSensor d e { n := x.n, lastCross := x.lastCross, lastTpl := x.lastTpl }
  let s := s.holdEvent d { entry := e, kind := 5, time := time, tpl := cause }
  s.setEvt (Reg.AQ_WSD_EVT d) 0

/-- Every sensor of a span restarts. -/
def State.spanSensorsRestart (s : State) (d home cause : Nat) : State :=
  ((s.sensorsOf d).filter (s.senHome d · == home)).foldl (fun s e => s.sensorRestart d e cause s.tc.now) s

/-! ### The detection sample -/

/-- The time attributed to sample n (R174). -/
def sampleTime (n : Nat) : Nat := n * 500000 - 250000

/-- Detection sample n of a sensor from the point samples of its interval (R174). -/
def detSample (samples : List PointSample) (qFade : Nat) (neg : Bool) (before : Rat) : DetSample :=
  let good := samples.filter fun x => decide (qFade ≤ x.q)
  let w : Nat := (good.map (·.q)).sum
  let num : Rat := (good.map fun x => (x.q : Rat) * x.u).sum
  { y := if w = 0 then before else (if neg then -num else num) / w
    q := (samples.map (·.q)).sum / samples.length
    hole := w == 0 }

/-- The last SIGHT_HOLD samples hold no hole and a mean q of at least Q_DET (R183). -/
def clearSight (hist : List DetSample) (hold qDet : Nat) : Bool :=
  let l := hist.take hold
  decide (l.length = hold) && l.all (!·.hole) && decide (qDet * hold ≤ (l.map (·.q)).sum)

/-- The peak of the sample before the newest, if one is decided now and lies outside the refractory time (R179, R182): template,
crossing time, whether it passes the gates of R181, its QEV and USABLE. -/
def State.wheelPeak (s : State) (d e n : Nat) (x : Sensor) (hist : List DetSample) (fits : List Fit) :
    Option (Nat × Nat × Bool × Nat × Bool) :=
  let gate := s.wsdGate d
  match peakAt x.fitPrev x.fit fits (s.ampMin d e) (fld gate 0 8) with
  | none => none
  | some t =>
    let tp := s.template d t
    let at_ := hist.drop 1
    let r := fun (l : List Fit) => rhoOf (l.getD t {}).corr
    let delta := peakShift (r x.fitPrev) (r x.fit) (r fits)
    let cross := ((((n - 1 : Nat) : Int) - (63 - tp.c) * tp.p) * 500000 - 250000 + roundNear (delta * 500000)).toNat
    let early := match x.lastCross with
      | some c => decide (((cross : Int) - c) * tp.hi < (fld (s.reg (Reg.AQ_WSD_AXLE d)) 10 10 * 18000000 : Nat))
      | none => false
    if early then none
    else
      let sup := tp.support at_
      let qev := (sup.map fun (_, _, (y : DetSample)) => y.q).sum / sup.length
      let holes := countOf sup fun (_, _, y) => y.hole
      let late := (tp.window at_).any fun (i, _, y) => decide (tp.c - 2 ≤ i) && y.hole
      let pass := decide (holes ≤ fld gate 16 4) && !late && decide (fld gate 8 8 ≤ qev)
      let usable := sup.any fun (_, _, y) => decide (y.q < fld (s.reg (Reg.AQ_DMD_QUAL d)) 8 8)
      some (t, cross, pass, qev, usable)

/-- An AMP field. -/
def ampField (x : Rat) : Nat := clampNat 0 0xFFFF x.floor.toNat

/-- A change of state with its event (R183). -/
def State.sensorGo (s : State) (d e n : Nat) (st : SensorState) (kind tpl qev amp evt : Nat) : State :=
  let s := s.setSensor d e { s.sensor d e with st := st }
  let s := s.holdEvent d { entry := e, kind := kind, time := sampleTime n, tpl := tpl, qev := qev, amp := amp }
  s.setEvt (Reg.AQ_WSD_EVT d) evt

/-- The sensor becomes BLIND with a cause (R183). -/
def State.sensorBlind (s : State) (d e n cause q : Nat) : State := s.sensorGo d e n .blind 3 cause q 0 1

/-- The transition a sample has decided and that has a step of its own: HALT and STAND_TIMEOUT (R183, R184). -/
def State.sensorDue (s : State) (d e : Nat) : State :=
  let x := s.sensor d e
  match x.due with
  | none => s
  | some (.halt n level q) =>
    let s := s.setSensor d e { x with due := none, level := level, haltAt := n }
    s.sensorGo d e n .standing 1 0 q (ampField level) 3
  | some (.standTimeout n q) =>
    let s := s.setSensor d e { x with due := none }
    (s.sensorBlind d e n 4 q).setEvt (Reg.AQ_WSD_EVT d) 4

/-- A WHEEL event is decided (R180, R181). -/
def State.wheelDecided (s : State) (d e t cross qev : Nat) (usable : Bool) (cur : List Fit) : State :=
  let (speed, limit) := s.peakSpeed d t cur
  let x := s.sensor d e
  let s := s.setSensor d e { x with
    lastCross := some cross, lastTpl := t, wheels := (x.wheels + 1) % 65536, quiet := 0 }
  s.holdEvent d { entry := e, kind := 0, time := cross, speed := speed, tpl := t, qev := qev
                  amp := ampField (cur.getD t {}).amp, usable := usable, limit := limit }

/-- The triggers of R184 from the second on, at sample n with history `hist` (newest first). -/
def State.sensorTriggers (s : State) (d e n : Nat) (old : Sensor) (hist : List DetSample) (fits : List Fit) : State :=
  let x := s.sensor d e
  let top := hist.headD { y := 0, q := 0, hole := true }
  let exc := top.y - old.rest
  let amp := s.ampMin d e
  let timing := s.wsdTiming d
  let peak := if old.st = .sighted then s.wheelPeak d e n old hist fits else none
  let enter := fld (s.wsdGate d) 20 4
  let mean := ((hist.take (s.sightHold d)).map (·.q)).sum / s.sightHold d
  let haltN := 2000 * fld timing 8 4
  let wheel := match peak with | some (_, _, true, _, _) => true | _ => false
  let quiet := if wheel then 0 else old.quiet + 1
  let s := s.setSensor d e { x with quiet := quiet }
  match peak with
  | some (_, _, false, _, _) =>
    let a := Reg.AQ_WSD_SUPP_CNT d
    let s := s.setReg a (lo32 (min 0xFFFF ((s.reg a).toNat + 1)))
    (s.sensorBlind d e n 2 top.q).setEvt (Reg.AQ_WSD_EVT d) 2
  | _ =>
    if (old.st = .sighted ∨ old.st = .standing) ∧ enter ≤ x.holes then
      s.sensorBlind d e n (if old.st = .standing then 3 else 1) top.q
    else if old.st = .standing ∧ 2000 * fld timing 12 12 ≤ n - old.haltAt then
      s.setSensor d e { s.sensor d e with due := some (.standTimeout n top.q) }
    else if old.st = .standing ∧ 2 * exc < old.level then
      (s.setSensor d e { s.sensor d e with rest := top.y }).sensorGo d e n .sighted 2 0 top.q (ampField (old.level - exc)) 5
    else if old.st = .sighted ∧ haltN ≤ x.above ∧ haltN ≤ quiet then
      s.setSensor d e { s.sensor d e with due := some (.halt n exc top.q) }
    else if old.st = .filling ∧ (List.range 16).all (fun t => (s.template d t).covered hist) ∧
        clearSight hist (s.sightHold d) (s.qDet d) then
      (s.setSensor d e { s.sensor d e with rest := top.y }).sensorGo d e n .sighted 4 0 mean 0 5
    else if old.st = .blind ∧ clearSight hist (s.sightHold d) (s.qDet d) ∧ !reaches (ratAbs exc) amp 1 then
      s.sensorGo d e n .sighted 4 0 mean 0 5
    else
      match peak with
      | some (t, cross, true, qev, usable) => s.wheelDecided d e t cross qev usable old.fit
      | _ => s

/-- The samples a history keeps: the longest window and the one before it. -/
def histKeep : Nat := 1452

/-- A sensor works: enabled, its span is served. -/
def State.sensorOn (s : State) (d e : Nat) : Bool := s.senEn d e && (s.serverOf d (s.senHome d e)).isSome

/-- The number of the next sample of a sensor. -/
def State.sampleNext (s : State) (x : Sensor) : Nat := match x.n with | some n => n + 1 | none => s.tc.now / 500000

/-- Detection sample n of sensor e, with its decisions and transitions (R174 to R184). -/
def detectionSample (d e : Nat) (s : State) : State :=
  let s := s.sensorDue d e
  let x := s.sensor d e
  let n := s.sampleNext x
  if !s.sensorOn d e || decide (s.tc.now < n * 500000) then s
  else
    let cfg := s.senCfg d e
    let pt := tget (tget s.dmd {} d).points {} (s.senJ d e)
    let inside := pt.recent.filter fun p =>
      decide (((n * 500000 : Nat) : Rat) - 500000 < p.t) && decide (p.t ≤ ((n * 500000 : Nat) : Rat))
    let s := s.setSensor d e { x with n := some n }
    match inside.find? (·.brk) with
    | some p => s.sensorRestart d e 1 p.t.floor.toNat
    | none =>
      let smp := detSample inside (fld (s.reg (Reg.AQ_DMD_QUAL d)) 0 8) (bitOf cfg 14)
        (match x.hist with | h :: _ => h.y | [] => 0)
      if x.hist.isEmpty && smp.hole then s
      else
        let hist := (smp :: x.hist).take histKeep
        let fits := (List.range 16).map fun t => (s.template d t).fit hist x.rest
        let exc := smp.y - x.rest
        let rest := if !smp.hole && !reaches (ratAbs exc) (s.ampMin d e) 1 && x.st != .standing then x.rest + exc / 1024
          else x.rest
        let s := s.setSensor d e { x with
          n := some n, hist := hist, rest := rest, fit := fits, fitPrev := x.fit
          holes := if smp.hole then x.holes + 1 else 0
          above := if reaches exc (s.ampMin d e) 2 then x.above + 1 else 0 }
        s.sensorTriggers d e n x hist fits

/-! ### Emission (R151, R185 to R187) -/

/-- Bytes 0 to 27 of an event record (R185). -/
def eventBody (emit age seq cp sys kind speed pos tpl qev amp emitter : Nat) (usable limit : Bool) : List Byte :=
  leBytes 8 emit ++ leBytes 4 age ++ leBytes 4 seq ++ leBytes 2 (cp % 4096 + 4096 * (sys % 2) + 8192 * (kind % 8)) ++
    leBytes 2 speed ++ leBytes 4 (pos % 2 ^ 20 + 2 ^ 20 * (tpl % 16) + 2 ^ 24 * (qev % 256)) ++ leBytes 2 amp ++
    leBytes 2 (emitter % 2048 + 2048 * b2n usable + 4096 * b2n limit)

/-- The 32 bytes with CHECK (R187): the fold word is the source × 65,536 + home lane or head. -/
def withCheck (src home : Nat) (body : List Byte) : List Byte :=
  body ++ leBytes 4 (crcFold crc32c (src * 65536 + home) body)

/-- Fibre position of a sensor's point, 0.1 fm. -/
def State.senFibre (s : State) (d e : Nat) : Nat :=
  (roundNear (((s.pos2 d (s.senHome d e) (s.senJ d e) : Nat) : Rat) / 2 * (s.probe d).live.dz * 10)).toNat

/-- An event leaves a die for HB; while the die's link is silent the die keeps it, up to 8,192 of them (R223). -/
def State.dieSend (s : State) (d : Nat) (bytes : List Byte) : State :=
  match tfind s.mrg.silent d with
  | none => s.send (.event d bytes)
  | some x =>
    let x := if x.buffer.length < 8192 then { x with buffer := x.buffer ++ [bytes] } else { x with overrun := true }
    { s with mrg := { s.mrg with silent := tset s.mrg.silent d x } }

/-- Emit one held event: next SEQ of the span, stamp, output, copy for readback. -/
def State.emitEvent (d home lane : Nat) (s : State) (ev : HeldEvent) : State :=
  let seq := (s.lane d home).seq
  let emit := s.tc.now
  let bytes := withCheck d home (eventBody emit (min 0xFFFFFFFF (emit - ev.time)) seq (s.senCp d ev.entry) (s.senSys d ev.entry)
    ev.kind (min 0xFFFF ev.speed) (s.senFibre d ev.entry) ev.tpl ev.qev ev.amp (288 * d + lane) ev.usable ev.limit)
  let s := s.modLane d home fun l => { l with seq := (l.seq + 1) % 2 ^ 32 }
  (s.setSensor d ev.entry { s.sensor d ev.entry with last := bytes }).dieSend d bytes

/-- The serving lane emits the events whose sentinel has passed, in order of event time and sensor ID (R151, R186). -/
def wheelEventEmit (d lane : Nat) (s : State) : State :=
  match s.servedBy d lane with
  | none => s
  | some home =>
    let l := s.lane d home
    let out := sortBy (fun ev => ev.time * 8192 + s.senId d ev.entry) (l.held.take l.passed)
    let s := s.modLane d home fun l => { l with held := l.held.drop l.passed, passed := 0 }
    out.foldl (State.emitEvent d home lane) s

/-! ### Views and writes of AQn_WSD -/

def sensorCode : SensorState → Nat
  | .filling => 1 | .sighted => 2 | .blind => 3 | .standing => 4

/-- STAT of a sensor entry. -/
def State.senStat (s : State) (d e : Nat) : Word :=
  if !s.senEn d e then 0
  else
    let x := s.sensor d e
    word [(0, 3, sensorCode x.st), (4, 4, x.lastTpl), (8, 8, (x.hist.headD ⟨0, 0, true⟩).q), (16, 16, x.wheels)]

/-- AQn_WSD registers that are views of the state; LAST1 to LAST7 are the reader's latches. -/
def wsdView (s : State) (m : Master) (d o : Nat) : Option Word :=
  let n := fun st => countOf (s.sensorsOf d) fun e => (s.sensor d e).st == st
  match o with
  | 0x0C => some (word [(0, 12, n .sighted), (12, 12, n .blind)])
  | 0x10 => some (word [(0, 12, n .filling), (12, 12, n .standing)])
  | 0x24 => some (bufWord (s.sensor d (fld (s.mreg m (Reg.AQ_WSD_SEL d)) 0 11)).last 0)
  | _ =>
    if 0x4000 ≤ o ∧ o < 0xC000 ∧ o % 16 = 12 then some (s.senStat d ((o - 0x4000) / 16))
    else if 0xC000 ≤ o ∧ fld (s.reg (Reg.AQ_WSD_CMAP_CNT d)) 0 13 ≤ (o - 0xC000) / 8 then some 0
    else none

/-- A read of AQn_WSD_LAST0 latches LAST1 to LAST7 for the reader (R190). -/
def State.wsdLast0 (s : State) (m : Master) (d : Nat) : State × Word :=
  let b := (s.sensor d (fld (s.mreg m (Reg.AQ_WSD_SEL d)) 0 11)).last
  ((List.range 7).foldl (fun s i => s.setMreg m (Reg.AQ_WSD_LAST d (i + 1)) (bufWord b (i + 1))) s, bufWord b 0)

/-- A write to an AQn_WSD register: only the selection, per master. -/
def wsdWrite (s : State) (m : Master) (d o : Nat) (v : Word) : State :=
  match o with
  | 0x20 => s.setMreg m (Reg.AQ_WSD_SEL d) (lo32 (fld v 0 11))
  | _ => s

/-! ### Meanings -/

/-- DETECTION_SAMPLE (R174). -/
def execDetectionSample (dt d e : Nat) (s : State) : Out := s.afterHb dt (detectionSample d e)

/-- SENSOR_HALT (R183): the HALT transition that the last sample decided. -/
def execSensorHalt (dt d e : Nat) (s : State) : Out :=
  s.afterHb dt fun s => match (s.sensor d e).due with | some (.halt ..) => s.sensorDue d e | _ => s

/-- STAND_TIMEOUT (R183): the transition to BLIND that the last sample decided. -/
def execStandTimeout (dt d e : Nat) (s : State) : Out :=
  s.afterHb dt fun s => match (s.sensor d e).due with | some (.standTimeout ..) => s.sensorDue d e | _ => s

/-- WHEEL_EVENT_EMIT (R151). -/
def execWheelEventEmit (dt d lane : Nat) (s : State) : Out := s.afterHb dt (wheelEventEmit d lane)

end Sys2Proof.Machine
end

