-- ==== Sys2Proof/Machine/Lanes.lean ====
section
/-!
DEFINITION. Faults of lanes, blocks and quarters, takeovers, returns to service and the AQn_LBQ registers (Lanes, Blocks and
Quarters, R142 to R165), and the stamp floors of block islands (R33, R34).
-/
namespace Sys2Proof.Machine

def State.demod (s : State) (d : Nat) : Demod := tget s.dmd {} d
def State.setDemod (s : State) (d : Nat) (m : Demod) : State := { s with dmd := tset s.dmd d m }

def State.lbqEvt (s : State) (d i : Nat) : State := s.setEvt (Reg.AQ_LBQ_EVT d) i

/-- Set RESULT, unless it still shows an ignored command's BUSY (R162). -/
def DieLbq.setResult (l : DieLbq) (r : Nat) : DieLbq := if l.kept then l else { l with result := r }

/-- A return ends with a result: OK sets RETURNED, TEST_FAILED and CONTAINED set RETURN_FAILED (R162). -/
def State.returnEnds (s : State) (d result : Nat) : State :=
  (s.setDie d ({ s.die d with busy := none }.setResult result)).lbqEvt d (if result = 0 then 5 else 6)

/-! ### Lane faults and takeovers (R150 to R155) -/

/-- Every point of a span carries BREAK on its next sample that is not faded (R120). -/
def State.spanBreak (s : State) (d home : Nat) : State :=
  let m := s.demod d
  s.setDemod d { m with points := (s.spanPoints d home).foldl (fun t j => tset t j { tget t {} j with brk := true, acqBrk := false }) m.points }

/-- A span has no lane to serve it: it is unavailable (R153). -/
def State.spanAway (s : State) (d home : Nat) : State := (s.modLane d home fun l => { l with unavail := true }).lbqEvt d 2

/-- A spare begins to take a span (R152). -/
def State.takeoverBegin (s : State) (d home spare failed : Nat) : State :=
  s.modBlk d (laneBlock home) fun x => { x with
    spare := if x.spare = some (spare % 9) then none else x.spare
    loading := x.loading ++ [{ home := home, spare := spare, failed := failed, begun := s.now }] }

/-- A span has lost its lane: the standby spare loads it, else it becomes unavailable (R152, R153). Of two lanes that fail at one
instant the lower takes the spare (R154). -/
def State.spanLost (s : State) (d home failed : Nat) : State :=
  let b := laneBlock home
  let x := s.blk d b
  let s := s.modLane d home fun l => { l with held := [], passed := 0, taken := none }
  match x.spare with
  | some p => s.takeoverBegin d home (9 * b + p) failed
  | none =>
    match x.loading.find? fun t => t.begun == s.now && t.loaded.isNone && decide (failed < t.failed) with
    | some t =>
      let s := s.modBlk d b fun x => { x with loading := x.loading.filter (·.home != t.home) }
      (s.spanAway d t.home).takeoverBegin d home t.spare failed
    | none => s.spanAway d home

/-- A lane is marked faulty on its first cause (R150); what it served or was to serve is lost. -/
def State.laneFault (s : State) (d i cause : Nat) : State :=
  if (s.lane d i).faulty || !s.dieUp d then s
  else
    let b := laneBlock i
    let span := s.servedBy d i
    let load := (s.blk d b).loading.find? (·.spare == i)
    let s := (s.modLane d i fun l => { l with faulty := true, cause := cause, test := none }).lbqEvt d 0
    let s := s.when ((s.blk d b).spare == some (i % 9)) (·.modBlk d b fun x => { x with spare := none })
    match span, load with
    | some home, _ => s.spanLost d home i
    | none, some t => (s.modBlk d b fun x => { x with loading := x.loading.filter (·.spare != i) }).spanLost d t.home i
    | none, none => s

/-- A lane becomes its block's standby spare, and takes the span that waits for one, the lowest faulty lane first (R153, R160). -/
def State.lanePromote (s : State) (d i : Nat) : State :=
  let b := laneBlock i
  match (blockLanes b).find? fun k => s.spanCount d k != 0 && (s.lane d k).unavail with
  | some home => (s.modLane d home fun l => { l with unavail := false }).takeoverBegin d home i home
  | none => s.when (s.blk d b).spare.isNone (·.modBlk d b fun x => { x with spare := some (i % 9) })

/-- A spare has loaded its span; it serves from the next whole slice on (R152 step 2). -/
def spareLoadComplete (d b : Nat) (s : State) : State :=
  if !s.blkUp d b then s
  else
    match (s.blk d b).loading.find? (·.loaded.isNone) with
    | none => s
    | some t => s.modBlk d b fun x => { x with
        loading := x.loading.map fun y => if y.home = t.home then { y with loaded := some s.fifths } else y }

/-- The spare begins serving: the takeover is complete (R152 step 3). -/
def State.takeoverDone (s : State) (d : Nat) (t : Takeover) : State :=
  let s := s.modBlk d (laneBlock t.home) fun x => { x with loading := x.loading.filter (·.home != t.home) }
  let s := s.modLane d t.home fun l => { l with taken := if t.spare = t.home then none else some t.spare, unavail := false }
  ((s.spanBreak d t.home).spanSensorsRestart d t.home 2).lbqEvt d 1

/-! ### Block and quarter faults (R156 to R158) -/

/-- Blocks of a quarter that a return of the quarter still has to return. -/
def State.quarterBlocks (s : State) (d q : Nat) (st : UnitState) : List Nat :=
  ((List.range 4).map (4 * q + ·)).filter fun b => (s.blk d b).st == st && (s.blk d b).cause == 6

/-- A block of the quarter that is being returned has ended its return; with the last one the quarter is back (R161). -/
def State.quarterProgress (s : State) (d b : Nat) (pass : Bool) : State :=
  match (s.die d).busy with
  | some (.quarter q) =>
    if blockQuarter b ≠ q then s
    else
      let s := if pass then s else s.setDie d { s.die d with failed := true }
      if (s.quarterBlocks d q .returning).isEmpty then
        (s.setDie d ((s.die d).setQtr q {})).returnEnds d (if (s.die d).failed then 4 else 0)
      else s
  | _ => s

/-- A block is marked faulty on its first cause: its spans become unavailable, its held events are dropped, and it leaves the
watermark (R156, R157). A return in progress below or at it ends (R161, R162). -/
def State.blockFault (s : State) (d b cause : Nat) : State :=
  if (s.blk d b).st = .faulty ∨ !s.dieUp d then s
  else
    let was := (s.blk d b).st
    let s := s.holdRoles d b
    let spans := (blockLanes b).filter fun i => s.spanCount d i != 0 && !(s.lane d i).unavail
    let s := s.modBlk d b fun x => { x with st := .faulty, cause := cause, faultAt := s.now, off := false, loading := [] }
    let s := (blockLanes b).foldl (fun s i => s.modLane d i fun l => { l with held := [], passed := 0, test := none }) s
    let s := (s.lbqEvt d 3).when (was == .running && !spans.isEmpty) (·.lbqEvt d 2)
    match (s.die d).busy with
    | some (.lane i) => if laneBlock i = b then s.returnEnds d 6 else s
    | some (.block k) => if k = b then s.returnEnds d 4 else s
    | _ => s.when (was == .returning) (·.quarterProgress d b false)

/-- A quarter sequencer is marked faulty: its four blocks fault with cause QUARTER (R158). -/
def State.quarterFault (s : State) (d q cause : Nat) : State :=
  if ((s.die d).qtr q).st = .faulty ∨ !s.dieUp d then s
  else
    let s := (s.setDie d ((s.die d).setQtr q { st := .faulty, cause := cause })).lbqEvt d 4
    let s := match (s.die d).busy with
      | some (.block b) => if blockQuarter b = q then s.returnEnds d 6 else s
      | some (.quarter k) => if k = q then s.returnEnds d 4 else s
      | _ => s
    (List.range 4).foldl (fun s i => s.blockFault d (4 * q + i) 6) s

/-- By two pulse periods after a block fault its clock stops and its memory is powered down (R157 step 4). -/
def blockPowerDown (d b : Nat) (s : State) : State :=
  if (s.blk d b).st = .faulty then s.modBlk d b fun x => { x with off := true } else s

/-- The result of a scrub read (R144, R145). -/
def memScrub (d b : Nat) (r : ScrubResult) (s : State) : State :=
  if !s.blkUp d b then s
  else
    match r with
    | .clean => s
    | .corrected =>
      let a := Reg.AQ_BLK_ECC d b
      (s.setReg a (lo32 (min 0xFFFF ((s.reg a).toNat + 1)))).lbqEvt d 7
    | .uncorrectable => s.blockFault d b 3

/-! ### Stamp floors (R33, R34) -/

/-- A block sends its stamp floor: no later event of it carries an earlier stamp. -/
def stampFloorSend (d b : Nat) (s : State) : State :=
  if s.blkUp d b then s.modBlk d b fun x => { x with floor := s.tc.now, floorAt := s.now } else s

/-- No stamp floor for 20 µs (R156). -/
def stampFloorMissing (d b : Nat) (s : State) : State :=
  if s.blkUp d b && decide (20000 ≤ s.now - (s.blk d b).floorAt) then s.blockFault d b 5 else s

/-- The die's watermark: the lowest floor of the blocks that are neither faulty nor gated (R34); none where there is none. -/
def State.dieWatermark (s : State) (d : Nat) : Option Nat :=
  ((blockNumbers.filter (s.blkUp d ·)).map fun b => (s.blk d b).floor).min?

/-! ### AQn_LBQ_CMD (R160 to R163, R165) -/

/-- The target of a command word, where OP, LEVEL and INDEX are in range. -/
def lbqTarget (level index : Nat) : Option LbqTarget :=
  if level = 0 ∧ index < 288 then some (.lane index)
  else if level = 1 ∧ index < 32 then some (.block index)
  else if level = 2 ∧ index < 8 then some (.quarter index)
  else none

/-- A command refused or ended at once with a result. -/
def State.lbqRefuse (s : State) (d result : Nat) (refused : Bool) : State :=
  (s.setDie d ((s.die d).setResult result)).when refused (·.lbqEvt d 8)

/-- Start a block's return. -/
def State.blockReturning (s : State) (d b : Nat) : State := s.modBlk d b fun x => { x with st := .returning }

/-- Return a lane: in any state (R160, R162). -/
def State.returnLane (s : State) (d i : Nat) : State :=
  if !(s.lane d i).faulty then s.lbqRefuse d 2 false
  else if !s.blkUp d (laneBlock i) then (s.lbqRefuse d 6 true).lbqEvt d 6
  else
    let s := s.modLane d i fun l => { l with test := some (64, true) }
    s.setDie d { s.die d with busy := some (.lane i), result := 0 }

/-- Return a block: only in Maintenance (R161, R162). -/
def State.returnBlock (s : State) (d b : Nat) : State :=
  if s.dev ≠ .maintenance then s.lbqRefuse d 1 true
  else if (s.blk d b).st ≠ .faulty then s.lbqRefuse d 2 false
  else if ((s.die d).qtr (blockQuarter b)).st = .faulty then (s.lbqRefuse d 6 true).lbqEvt d 6
  else
    let s := s.blockReturning d b
    s.setDie d { s.die d with busy := some (.block b), result := 0 }

/-- Return a quarter: its sequencer is reset, then its blocks with cause QUARTER (R161). -/
def State.returnQuarter (s : State) (d q : Nat) : State :=
  if s.dev ≠ .maintenance then s.lbqRefuse d 1 true
  else if ((s.die d).qtr q).st ≠ .faulty then s.lbqRefuse d 2 false
  else
    let blocks := s.quarterBlocks d q .faulty
    let s := blocks.foldl (fun s b => s.blockReturning d b) s
    if blocks.isEmpty then
      (s.setDie d { (s.die d).setQtr q {} with result := 0 }).lbqEvt d 5
    else s.setDie d { (s.die d).setQtr q { st := .returning, cause := ((s.die d).qtr q).cause } with
      busy := some (.quarter q), failed := false, result := 0 }

/-- Inject a fault: only in Maintenance (R163). -/
def State.inject (s : State) (d : Nat) (t : LbqTarget) : State :=
  if s.dev ≠ .maintenance then s.lbqRefuse d 1 true
  else
    let s := s.setDie d { s.die d with result := 0 }
    match t with
    | .lane i => s.laneFault d i 5
    | .block b => s.blockFault d b 7
    | .quarter q => s.quarterFault d q 3

/-- A write to AQn_LBQ_CMD. -/
def State.lbqCmd (s : State) (d : Nat) (v : Word) : State :=
  let s := s.setDie d { s.die d with kept := false }
  if (s.die d).busy.isSome then
    let s := s.lbqRefuse d 3 true
    s.setDie d { s.die d with kept := true }
  else
    match lbqTarget (fld v 2 2) (fld v 4 9), fld v 0 2 with
    | some (.lane i), 0 => s.returnLane d i
    | some (.block b), 0 => s.returnBlock d b
    | some (.quarter q), 0 => s.returnQuarter d q
    | some t, 1 => s.inject d t
    | _, _ => s.lbqRefuse d 5 false

/-- A returning lane has run its 64 slices of sentinels (R160). -/
def laneReturnTestEnd (d i : Nat) (s : State) : State :=
  match (s.lane d i).test with
  | some (0, true) =>
    let s := (s.modLane d i fun l => { l with faulty := false, cause := 0, test := none }).lanePromote d i
    if (s.die d).busy = some (.lane i) then s.returnEnds d 0 else s
  | some (_, false) =>
    let s := s.modLane d i fun l => { l with cause := 6, test := none }
    if (s.die d).busy = some (.lane i) then s.returnEnds d 4 else s
  | _ => s

/-- A block is back: reset, its lanes free of faults, its spans acquiring references of their own (R161, R485, R186). -/
def State.blockBack (s : State) (d b : Nat) : State :=
  let spans := (blockLanes b).filter fun i => s.spanCount d i != 0
  let s := s.modBlk d b fun x =>
    { st := if spans.isEmpty then .gated else .running, slow := x.slow, floor := s.tc.now, floorAt := s.now
      acquiring := if spans.isEmpty then none else some s.now, back := true }
  let s := (blockLanes b).foldl (fun s i => s.modLane d i fun _ => {}) s
  let points := spans.flatMap (s.spanPoints d ·)
  let m := s.demod d
  let s := s.setDemod d { m with refs := m.refs.filter fun (k, _) => !points.contains (k / 128) }
  spans.foldl (fun s i =>
    ((s.sensorsOf d).filter (s.senHome d · == i)).foldl (fun s e => s.setSensor d e { s.sensor d e with n := none })
      (s.spanBreak d i)) s

/-- A returning block ends its tests (R161). -/
def blockReturnComplete (d b : Nat) (pass : Bool) (s : State) : State :=
  if (s.blk d b).st ≠ .returning then s
  else
    let s := if pass then s.blockBack d b else s.modBlk d b fun x => { x with st := .faulty, cause := 8 }
    match (s.die d).busy with
    | some (.block k) => s.when (k = b) (·.returnEnds d (if pass then 0 else 4))
    | _ => s.quarterProgress d b pass

/-- The target of a return in progress stays faulty. -/
def State.returnUndone (s : State) (d : Nat) (t : LbqTarget) : State :=
  match t with
  | .lane i => s.modLane d i fun l => { l with test := none }
  | .block b => s.modBlk d b fun x => { x with st := .faulty }
  | .quarter q =>
    let s := s.setDie d ((s.die d).setQtr q { (s.die d).qtr q with st := .faulty })
    (s.quarterBlocks d q .returning).foldl (fun s b => s.modBlk d b fun x => { x with st := .faulty }) s

/-- A structure commit ends a return in progress with result STATE (R162). -/
def State.returnCommitted (s : State) (d : Nat) : State :=
  match (s.die d).busy with
  | none => s
  | some t => (s.setDie d ({ s.die d with busy := none }.setResult 1)).returnUndone d t

/-- A fault of the die ends a return in progress with result CONTAINED (R162). -/
def State.returnContained (s : State) (d : Nat) : State :=
  match (s.die d).busy with
  | none => s
  | some t => (s.returnEnds d 6).returnUndone d t

/-! ### Views of AQn_LBQ -/

def unitCode : UnitState → Nat
  | .running => 0 | .gated => 1 | .faulty => 2 | .returning => 3

def State.laneStat (s : State) (d i : Nat) : Word :=
  let l := s.lane d i
  let (role, serves) := if s.blkUp d (laneBlock i) then s.laneRole d i else l.shown
  if !(s.die d).loaded then 0 else word [(0, 2, role), (2, 1, b2n l.faulty), (3, 1, b2n (s.spanUnavail d i)), (4, 9, serves), (13, 3, l.cause)]

def State.blkStat (s : State) (d b : Nat) : Word :=
  let x := s.blk d b
  let faulty := (List.range 9).foldl (fun acc p => acc + b2n (s.lane d (9 * b + p)).faulty * 2 ^ p) 0
  if !(s.die d).loaded then 0 else word [(0, 2, unitCode x.st), (2, 1, b2n x.slow), (3, 1, b2n x.spare.isSome), (4, 4, x.spare.getD 15), (8, 4, x.cause),
    (12, 9, faulty)]

/-- AQn_LBQ registers that are views of the state. -/
def lbqView (s : State) (d o : Nat) : Option Word :=
  let l := s.die d
  let blk := fun (st : UnitState) => bitsWord fun b => (s.blk d b).st == st
  match o with
  | 0x00 => some (word [(0, 9, countOf laneNumbers fun i => (s.lane d i).faulty),
      (9, 6, countOf blockNumbers fun b => (s.blk d b).st == .faulty),
      (15, 4, countOf (List.range 8) fun q => (l.qtr q).st == .faulty),
      (19, 9, countOf laneNumbers (s.spanUnavail d ·))])
  | 0x08 => some 0
  | 0x0C => some (word [(0, 1, b2n l.busy.isSome), (1, 4, l.result)])
  | 0x14 => some (word ((List.range 8).map fun q =>
      let x := l.qtr q
      let gated := ((List.range 4).all fun i => (s.blk d (4 * q + i)).st == .gated) && x.st == .running
      (4 * q, 4, (if gated then 1 else unitCode x.st) + 4 * x.cause)))
  | 0x18 => some (blk .faulty)
  | 0x1C => some (blk .gated)
  | 0x20 => some (bitsWord fun b => (s.blk d b).slow)
  | _ =>
    if 0x100 ≤ o ∧ o < 0x180 then some (s.blkStat d ((o - 0x100) / 4))
    else if 0xE00 ≤ o ∧ o < 0x1280 then some (s.laneStat d ((o - 0xE00) / 4))
    else none

/-- A write to an AQn_LBQ register. -/
def lbqWrite (s : State) (d o : Nat) (v : Word) : State := if o = 0x08 then s.lbqCmd d v else s

/-! ### Meanings -/

/-- SPARE_LOAD_COMPLETE (R152). -/
def execSpareLoadComplete (dt d b : Nat) (s : State) : Out := s.afterHb dt (spareLoadComplete d b)

/-- ARBITER_FAULT (R143). -/
def execArbiterFault (dt d b : Nat) (s : State) : Out := s.afterHb dt (·.blockFault d b 4)

/-- MEM_SCRUB (R144, R145). -/
def execMemScrub (dt d b : Nat) (r : ScrubResult) (s : State) : Out := s.afterHb dt (memScrub d b r)

/-- BLOCK_PLL_UNLOCK (R156). -/
def execBlockPllUnlock (dt d b : Nat) (s : State) : Out := s.afterHb dt (·.blockFault d b 2)

/-- STAMP_FLOOR_SEND (R33). -/
def execStampFloorSend (dt d b : Nat) (s : State) : Out := s.afterHb dt (stampFloorSend d b)

/-- STAMP_FLOOR_MISSING (R156). -/
def execStampFloorMissing (dt d b : Nat) (s : State) : Out := s.afterHb dt (stampFloorMissing d b)

/-- BLOCK_POWER_DOWN (R157). -/
def execBlockPowerDown (dt d b : Nat) (s : State) : Out := s.afterHb dt (blockPowerDown d b)

/-- QUARTER_HEARTBEAT_LOSS (R158). -/
def execQuarterHeartbeatLoss (dt d q : Nat) (s : State) : Out := s.afterHb dt (·.quarterFault d q 1)

/-- QUARTER_PARITY_FAULT (R158). -/
def execQuarterParityFault (dt d q : Nat) (s : State) : Out := s.afterHb dt (·.quarterFault d q 2)

/-- LANE_RETURN_TEST_END (R160). -/
def execLaneReturnTestEnd (dt d i : Nat) (s : State) : Out := s.afterHb dt (laneReturnTestEnd d i)

/-- BLOCK_RETURN_COMPLETE (R161). -/
def execBlockReturnComplete (dt d b : Nat) (pass : Bool) (s : State) : Out := s.afterHb dt (blockReturnComplete d b pass)

end Sys2Proof.Machine
end

