-- ==== Sys2Proof/Machine/Demod.lean ====
section
/-!
DEFINITION. Demodulation: trace slices, Rayleigh references, point samples, refresh and re-acquisition, noise and darkness, and
the AQn_DMD registers (Coherent Demodulation and Point Quality, R106 to R131; R136 to R139; R476, R477; R483 to R485).
-/
namespace Sys2Proof.Machine

/-! ### Parameters -/

def State.qFade (s : State) (d : Nat) : Nat := fld (s.reg (Reg.AQ_DMD_QUAL d)) 0 8
def State.qGood (s : State) (d : Nat) : Nat := fld (s.reg (Reg.AQ_DMD_QUAL d)) 8 8

/-- A value wrapped to (−π, π] in phase steps. -/
def wrapPhase (x : Int) : Int := let y := x % 65536; if 32768 < y then y - 65536 else y

/-- Key of a reference or of an acquisition window. -/
def refKey (j k p : Nat) : Nat := 128 * j + 2 * k + p

/-- Delivered indices of the live set (R88). -/
def ProbeSet.delivered (p : ProbeSet) (j : Int) : Bool := decide ((p.jMin : Int) ≤ j) && decide (j ≤ p.jMax)

/-- The two ends of the gauge of each contributor of point `j` (R115, R116). -/
def gaugeEnds (g h j : Nat) : List (Int × Int) :=
  (List.range (2 * h + 1)).map fun (i : Nat) =>
    let a : Int := (j : Int) - (h : Int) + (i : Int) - (g / 2 : Nat)
    (a, a + (g : Int))

/-- Every index that the point's contributors use has all its references (R483). -/
def State.pointAcquired (s : State) (d home j : Nat) : Bool :=
  let ps := (s.probe d).live
  let refs := (s.demod d).refs
  (gaugeEnds (s.gauge d home) (s.halfW d home) j).all fun (a, b) =>
    !(ps.delivered a && ps.delivered b) ||
      [a, b].all fun i => (List.range ps.tones).all fun k =>
        (tfind refs (refKey i.toNat k 0)).isSome && (tfind refs (refKey i.toNat k 1)).isSome

/-- All references of a lane's span are complete. -/
def State.spanAcquired (s : State) (d home : Nat) : Bool := (s.spanPoints d home).all (s.pointAcquired d home ·)

/-! ### References (R111) -/

/-- One component of a reference: 16 bits, signed. -/
def refPart (x : Rat) : Nat := toField 16 (clampInt (-32768) 32767 (roundRat (x * 2 ^ Config.refPoint)))

/-- A reference as the history memory holds it. -/
def refCode (x : Cx) : Word := word [(0, 16, refPart x.re), (16, 16, refPart x.im)]

/-- The complex value of a reference. -/
def refValue (w : Word) : Cx :=
  ⟨(sext (fld w 0 16) 16 : Rat) / 2 ^ Config.refPoint, (sext (fld w 16 16) 16 : Rat) / 2 ^ Config.refPoint⟩

/-! ### Trace words (R106 to R109) -/

/-- Store the trace words of a slice, in ascending index; a word of the span itself counts, one of its halo is counted there. -/
def State.storeTrace (s : State) (d home : Nat) (tag : PeriodTag) (sl : Slice) : State :=
  let ws := (List.range sl.count).map fun i => (sl.first + i, s.traceWord d tag sl.adc sl.tone (sl.first + i))
  let m := s.demod d
  let own := fun (j : Nat) => decide (s.spanFirst d home ≤ j) && decide (j < s.spanFirst d home + s.spanCount d home)
  let s := s.setDemod d { m with trace := ws.foldl (fun t (j, w) => tset t (64 * j + sl.tone) w.word) m.trace }
  s.noteTrace d ((ws.filter fun (j, _) => own j).map (·.2))

/-! ### Point samples (R115 to R127) -/

/-- c of R115: a sample rotated by its reference. -/
def rotated (x r : Cx) : Cx := if r.norm2 = 0 then {} else (x.mul r.conj).scale (1 / r.abs)

/-- What the contributors of a point give: S, E, and which reasons omitted one. -/
structure Combined where
  sum     : Cx
  mag     : Rat
  range   : Bool
  clipped : Bool
  left    : Nat
deriving DecidableEq, Repr

/-- Combine the contributors of point `j` for tone `k` (R116, R117). -/
def State.combine (s : State) (d home j k : Nat) : Combined :=
  let ps := (s.probe d).live
  let m := s.demod d
  let tr := fun (i : Int) => if ps.delivered i then tfind m.trace (64 * i.toNat + k) else none
  let clip := fun (i : Int) => (tr i).any (·.clip)
  (gaugeEnds (s.gauge d home) (s.halfW d home) j).foldl (fun acc (a, b) =>
    let out := !(ps.delivered a && ps.delivered b)
    let acc := { acc with range := acc.range || out, clipped := acc.clipped || clip a || clip b }
    match tr a, tr b with
    | some x, some y =>
      if x.clip || y.clip then acc
      else
        [0, 1].foldl (fun acc p =>
          let r := fun (i : Int) => refValue (tget m.refs 0 (refKey i.toNat k p))
          let v := (rotated (y.pol p) (r b)).mul (rotated (x.pol p) (r a)).conj
          { acc with sum := acc.sum.add v, mag := acc.mag + v.abs, left := acc.left + 1 }) acc
    | _, _ => acc) ⟨{}, 0, false, false, 0⟩

/-- Q_κ and Q_ρ (R123). -/
def qKappa (kappa : Rat) (floor : Nat) : Int :=
  clampInt 0 255 (255 * (kappa - (floor : Rat) / 256) / (1 - (floor : Rat) / 256)).floor

def qRho (db : Rat) (lo hi : Nat) : Int :=
  clampInt 0 255 (255 * (db - (lo : Rat) / 4) / (((hi : Rat) - lo) / 4)).floor

/-- Q of R123 before the noise-stale limit; a noise power of 0 lets the strength exceed every bound. -/
def State.quality (s : State) (d home k : Nat) (c : Combined) : Nat :=
  let rho := s.reg (Reg.AQ_DMD_RHO d)
  let n := tget (s.demod d).noise {} k
  let kappa := c.sum.abs / c.mag
  let noise := (n.nx + n.ny) / 2
  let strength := c.mag / (2 * (2 * s.halfW d home + 1 : Nat) * noise)
  let a := qKappa kappa (fld (s.reg (Reg.AQ_DMD_QUAL d)) 16 8)
  let b := if noise = 0 then 255 else qRho (dbRat strength) (fld rho 0 8) (fld rho 8 8)
  (clampInt 0 255 (a * b / 255 + clampInt (-1) 1 (Config.qErr kappa strength))).toNat

/-- A point-sample word (R127). -/
def pointWord (phase : Int) (q flags tone period : Nat) : DWord :=
  BitVec.ofNat 64 (toField 32 phase + 2 ^ 32 * (q % 256) + 2 ^ 40 * (flags % 256) + 2 ^ 48 * (tone % 64) +
    2 ^ 54 * (period % 1024))

/-- The point has been active over its last 64 samples (R112). -/
def isActive (hist : List Int) (hold : Nat) : Bool :=
  match hist with
  | [] => false
  | h :: t => decide (((hold * 512 : Nat) : Rat) < ((t.foldl max h - t.foldl min h : Int) : Rat) * piRat)

/-- The sums after a sample of second `n` (R228). -/
def Point.sumUp (p : Point) (n : Nat) (f : SecSum → SecSum) : Point :=
  if p.sum.sec = n then { p with sum := f p.sum }
  else if p.sum.sec < n then { p with sumOld := p.sum, sum := f { sec := n } }
  else if p.sumOld.sec = n then { p with sumOld := f p.sumOld }
  else p

/-- Record a point sample: word, history, period flags, and the sample its detectors take. -/
def Point.record (p : Point) (word : DWord) (k per q qFade qGood hold : Nat) (t : Rat) (brk : Bool) : Point :=
  let hist := (p.phase :: p.hist).take 64
  let u := sext (toField 32 p.phase) 32 + p.moved
  let act := isActive hist hold
  let p := p.sumUp (t / 1000000000).floor.toNat fun x =>
    if qFade ≤ q then { x with q := x.q + q, u := x.u + q * u, active := x.active || act } else { x with active := x.active || act }
  { p with
    words := tset p.words (2 * k + per % 2) (per, word), word := word, hist := hist, lowq := p.lowq || decide (q < qGood), active := p.active || act
    seen := true, lit := p.lit || q != 0
    recent := ⟨t, u, q, brk⟩ :: p.recent.filter fun x => decide (t - 2000000 < x.t) }

/-- Unwrap a sample that is not faded (R118): the new phase and UNWRAP_WARN. -/
def Point.unwrap (p : Point) (w : Int) (warn : Nat) : Int × Bool :=
  if p.primed then
    let step := wrapPhase (w - p.wrapped)
    (p.phase + step, decide (warn * 128 < step.natAbs))
  else (w, false)

/-- Form the point sample of point `j` for tone `k` of the period that `tag` names (R115 to R127). -/
def State.pointSample (tag : PeriodTag) (d home k : Nat) (s : State) (j : Nat) : State :=
  let ps := s.probe d
  let m := s.demod d
  let p := tget m.points {} j
  let c := s.combine d home j k
  let n := tget m.noise {} k
  let dark := (s.port d).light != .probing || tag.incomplete
  let noRef := !s.pointAcquired d home j
  let zero := dark || noRef || c.left == 0 || decide (c.mag = 0)
  let q := if zero then 0 else
    let q := s.quality d home k c
    if n.stale then min q (s.qFade d - 1) else q
  let uw := s.reg (Reg.AQ_DMD_UNWRAP d)
  let hold := fld (s.reg (Reg.AQ_DMD_REF_CTL d)) 8 8
  let good := decide (s.qFade d ≤ q)
  let t := ps.live.instant tag.stamp k (s.pos2 d home j)
  let flags := b2n dark + 2 * b2n noRef + 4 * b2n c.range + 8 * b2n c.clipped + 128 * b2n n.stale
  let p :=
    if good then
      let w := wrapPhase (roundRat (65536 * argTurn c.sum.re c.sum.im))
      let (phase, warn) := p.unwrap w (fld uw 0 8)
      let long := decide (fld uw 8 4 < p.faded)
      let brk := p.brk || long
      let p := { p with
        phase := phase, wrapped := w, primed := true, faded := 0, brk := false, acqBrk := false
        reanchor := if long || (p.brk && !p.acqBrk) then some (t / 1000000000).floor.toNat else p.reanchor }
      p.record (pointWord phase q (flags + 32 * b2n warn + 64 * b2n brk) k tag.count) k tag.count q (s.qFade d) (s.qGood d) hold t brk
    else
      let p := { p with faded := p.faded + 1 }
      p.record (pointWord p.phase q (flags + 16) k tag.count) k tag.count q (s.qFade d) (s.qGood d) hold t false
  s.setDemod d { m with points := tset m.points j p }

/-- A substituted sample while a takeover loads: Q = 0, FADED, the last good phase (R152 step 1). -/
def State.pointSubstitute (tag : PeriodTag) (d home k : Nat) (s : State) (j : Nat) : State :=
  let ps := s.probe d
  let m := s.demod d
  let p := tget m.points {} j
  let p := { p with faded := p.faded + 1 }
  let p := p.record (pointWord p.phase 0 16 k tag.count) k tag.count 0 (s.qFade d) (s.qGood d) (fld (s.reg (Reg.AQ_DMD_REF_CTL d)) 8 8)
    (ps.live.instant tag.stamp k (s.pos2 d home j)) false
  s.setDemod d { m with points := tset m.points j p }

/-! ### Reference acquisition (R114, R483 to R485) -/

def State.acqN (s : State) (d : Nat) : Nat := fld (s.reg (Reg.AQ_CAL_ACQ d)) 0 13

/-- References of index `j` are being acquired: by the port, or by the block that owns the index. -/
def State.acquires (s : State) (d j : Nat) : Bool :=
  (s.demod d).acquiring.isSome ||
    match s.homeOf d j with
    | some i => (s.blk d (laneBlock i)).acquiring.isSome
    | none => false

/-- Add a sample to a window that is not full. -/
def AcqWin.add (w : AcqWin) (n : Nat) (x : Cx) : AcqWin :=
  if n ≤ w.n then w else { w with n := w.n + 1, sum := w.sum.add x, mag := w.mag + x.abs }

/-- Add the trace words of a slice to the acquisition windows of their indices. -/
def State.acqSlice (s : State) (d : Nat) (sl : Slice) : State :=
  let m := s.demod d
  let n := s.acqN d
  let acq := (List.range sl.count).foldl (fun t i =>
    let j := sl.first + i
    match tfind m.trace (64 * j + sl.tone) with
    | some w =>
      if w.clip || w.incomplete || !s.acquires d j then t
      else [0, 1].foldl (fun t p =>
        let key := refKey j sl.tone p
        if (tfind m.refs key).isSome then t else tset t key ((tget t {} key).add n (w.pol p))) t
    | none => t) m.acq
  s.setDemod d { m with acq := acq }

/-- Judge the window of one index, tone and polarisation (R483). -/
def judgeWindow (n kappa key : Nat) (m : Demod) : Demod :=
  let w := tget m.acq {} key
  if w.n < n ∨ n = 0 then m
  else
    let mean := w.sum.scale (1 / (n : Rat))
    if decide (((kappa : Rat) / 256) * w.mag ≤ w.sum.abs) then
      { m with refs := tset m.refs key (refCode mean), acq := tdel m.acq key }
    else { m with acq := tset m.acq key { last := some mean } }

/-- The acquisition windows of index j and tone k end, of both polarisations. -/
def refWindowEnd (d k j : Nat) (s : State) : State :=
  if !s.acquires d j then s
  else
    let kappa := fld (s.reg (Reg.AQ_CAL_ACQ d)) 13 8
    s.setDemod d ((s.demod d |> judgeWindow (s.acqN d) kappa (refKey j k 0)) |> judgeWindow (s.acqN d) kappa (refKey j k 1))

/-- Discard all references of a port and start a full re-acquisition (R114). -/
def State.reacquire (s : State) (d : Nat) : State :=
  let m := s.demod d
  let points := m.points.map fun (j, p) => (j, { p with brk := true, moved := 0 })
  let s := s.setDemod d { m with
    refs := [], acq := [], points := points, epochValid := false, acquiring := some s.now }
  let s := (laneNumbers.filter fun i => s.spanCount d i != 0).foldl (fun s i => s.spanBreak d i) s
  let s := blockNumbers.foldl (fun s b => s.when (s.blk d b).acquiring.isSome
    (·.modBlk d b fun x => { x with acquiring := none })) s
  let s := s.setDemod d { s.demod d with points := (s.demod d).points.map fun (j, p) => (j, { p with acqBrk := true }) }
  s.setEvt (Reg.AQ_DMD_EVT d) 1

/-- A REACQ write: refused while a re-acquisition runs (R114). -/
def State.reacqRequest (s : State) (d : Nat) : State :=
  if (s.demod d).acquiring.isSome then s.setEvt (Reg.AQ_DMD_EVT d) 2 else s.reacquire d

/-- Spans whose points count for an acquisition. -/
def State.workingSpans (s : State) (d : Nat) : List Nat :=
  laneNumbers.filter fun i => s.spanCount d i != 0 && !s.spanUnavail d i

/-- The re-acquisition of the port completes: epoch and REF_DONE (R484); every point is anchored with offset 0 and a new epoch of
the port's profile begins (R229). The fade that the re-acquisition itself made ends with it: the BREAK that follows is of the
re-acquisition. -/
def State.reacqDone (s : State) (d : Nat) : State :=
  let m := s.demod d
  let points := m.points.map fun (j, p) => (j, { p with anchor := some 0, reanchor := none, acqBrk := p.brk, faded := 0, seen := false, lit := false })
  ((s.setDemod d { m with acquiring := none, epoch := some s.tc.now, epochValid := true, points := points }).setEvt (Reg.AQ_DMD_EVT d) 0).setEvt
    Reg.HB_TPR_EVT 1

/-- Every point is acquired: the port's re-acquisition completes, and those of blocks whose points are (R484, R485). -/
def reacqComplete (d : Nat) (s : State) : State :=
  let s := blockNumbers.foldl (fun s b =>
    s.when ((s.blk d b).acquiring.isSome && (blockLanes b).all fun i => s.spanCount d i == 0 || s.spanAcquired d i)
      (·.modBlk d b fun x => { x with acquiring := none })) s
  if (s.demod d).acquiring.isSome && (s.workingSpans d).all (s.spanAcquired d ·) then
    (s.setDemod d { s.demod d with forced := 0 }).reacqDone d
  else s

/-- Every index without a reference takes the mean of its last complete window (R484); how many indices did. -/
def forceRefs (inSpan : Nat → Bool) (m : Demod) : Demod × Nat :=
  let take := m.acq.filterMap fun (key, w) =>
    match w.last with
    | some c => if inSpan (key / 128) && (tfind m.refs key).isNone then some (key, refCode c) else none
    | none => none
  let indices := (take.map fun (key, _) => key / 128).eraseDups
  ({ m with refs := take.foldl (fun t (key, c) => tset t key c) m.refs
            acq := m.acq.filter fun (key, _) => !inSpan (key / 128) }, indices.length)

/-- Force the indices that `inSpan` names, with its event and count. -/
def State.forceAcq (s : State) (d : Nat) (inSpan : Nat → Bool) : State :=
  let (m, n) := forceRefs inSpan (s.demod d)
  let s := s.setDemod d { m with forced := min 0x1FFFF n }
  s.when (n != 0) (·.setEvt (Reg.AQ_CAL_EVT d) 4)

/-- 10 s after an acquisition started: indices without a reference are forced (R484, R485). -/
def reacqForce (d : Nat) (s : State) : State :=
  let due := fun (t : Option Nat) => match t with | some t => decide (ms 10000 ≤ s.now - t) | none => false
  let s := blockNumbers.foldl (fun s b =>
    s.when (due (s.blk d b).acquiring) fun s =>
      (s.forceAcq d fun j => (s.homeOf d j).any fun i => laneBlock i == b).modBlk d b fun x => { x with acquiring := none }) s
  if due (s.demod d).acquiring then (s.forceAcq d fun _ => true).reacqDone d else s

/-! ### Slices (R109, R146, R150 to R152) -/

/-- The index a span's slice starts at, and its words: the span and its halo, within j_min to j_max (R109). -/
def State.sliceRange (s : State) (d home : Nat) : Nat × Nat :=
  let ps := (s.probe d).live
  let h := s.halo d home
  let lo := max ps.jMin (s.spanFirst d home - h)
  let hi := min (ps.jMax + 1) (s.spanFirst d home + s.spanCount d home + h)
  (lo, hi - lo)

/-- The samples of a span for a tone of the period that `tag` names. -/
def State.spanSamples (s : State) (d home k : Nat) (tag : PeriodTag) (f : PeriodTag → Nat → Nat → Nat → State → Nat → State) : State :=
  (s.spanPoints d home).foldl (f tag d home k) (s.modLane d home fun l => { l with period := tag.count })

/-- Corrected memory errors met during a slice (R144). -/
def State.eccCount (s : State) (d b n : Nat) : State :=
  if n = 0 then s
  else
    let a := Reg.AQ_BLK_ECC d b
    (s.setReg a (lo32 (min 0xFFFF ((s.reg a).toNat + n)))).lbqEvt d 7

/-- The faults a lane can show while it works on a slice, before its words (R150). -/
def sliceFault (sl : Slice) : Option Nat :=
  if sl.overrun then some 2 else if sl.parity then some 3 else if sl.memRange then some 4 else none

/-- A lane that serves a span works on a slice of it. -/
def State.laneSlice (s : State) (d lane home : Nat) (tag : PeriodTag) (sl : Slice) : State :=
  let b := laneBlock lane
  match sliceFault sl with
  | some code =>
    let s := s.laneFault d lane code
    s.when (!s.spanUnavail d home) (·.spanSamples d home sl.tone tag State.pointSubstitute)
  | none =>
    if sl.eccUe then (s.eccCount d b sl.ecc).blockFault d b 3
    else
      let s := ((s.eccCount d b sl.ecc).storeTrace d home tag sl).acqSlice d sl
      let s := s.spanSamples d home sl.tone tag State.pointSample
      if sl.sentinel = 0 then s.modLane d home fun l => { l with passed := l.held.length }
      else s.laneFault d lane 1

/-- The spare of a takeover serves the slice: its first trace word arrives after the load completed (R152 step 3). -/
def Takeover.serves (t : Takeover) (ps : ProbeSet) (tag : PeriodTag) (sl : Slice) : Bool :=
  t.loaded.any fun x => decide ((x : Int) ≤ tag.start + 4 * ps.traceTick sl.tone sl.first)

/-- A lane works on a slice of the period that `tag` names, and on the sentinel after it. A slice of a span that is being taken over
is substituted until the spare serves (R152 step 1). -/
def State.laneTakes (s : State) (d lane : Nat) (tag : PeriodTag) (sl : Slice) : State :=
  let l := s.lane d lane
  let ps := (s.probe d).live
  let fits := fun (home : Nat) => (sl.first, sl.count) == s.sliceRange d home
  let loads := (s.blk d (laneBlock lane)).loading
  match l.test with
  | some (n, ok) => s.modLane d lane fun l => { l with test := some (n - 1, ok && sl.sentinel == 0) }
  | none =>
    if l.faulty then
      match loads.find? (·.failed == lane) with
      | some t => s.when (fits t.home && !t.serves ps tag sl) (·.spanSamples d t.home sl.tone tag State.pointSubstitute)
      | none => s
    else
      match s.servedBy d lane, loads.find? (·.spare == lane) with
      | some home, _ => s.when (fits home) (·.laneSlice d lane home tag sl)
      | none, some t =>
        if fits t.home && t.serves ps tag sl then (s.takeoverDone d t).laneSlice d lane t.home tag sl
        else s.when (sl.sentinel != 0) (·.laneFault d lane 1)
      | none, none =>
        match sliceFault sl with
        | some code => s.laneFault d lane code
        | none => s.when (sl.sentinel != 0) (·.laneFault d lane 1)

/-- A lane receives a slice of a period whose samples may still arrive (R109), and the sentinel after it. -/
def sliceReceived (d lane : Nat) (sl : Slice) (s : State) : State :=
  let ps := (s.probe d).live
  if !s.dieUp d || !ps.en || decide (ps.tones ≤ sl.tone) then s
  else
    match s.periodTag d sl.adc.period with
    | none => s
    | some tag => (s.adcStats d sl.adc).when (s.blkUp d (laneBlock lane)) (·.laneTakes d lane tag sl)

/-! ### The end of a lane's period (R112, R113, R136 to R139) -/

/-- The edge record a lane sends towards a neighbour: its points nearest it, nearest first (R136). -/
def State.edgeRecord (s : State) (d home : Nat) (upper : Bool) : EdgeRec :=
  let pts := if upper then (s.spanPoints d home).reverse else s.spanPoints d home
  ⟨(s.lane d home).period, (pts.take 54).map fun j => let p := tget (s.demod d).points {} j; (p.lowq, p.active)⟩

/-- Send the edge records of a period to both neighbours. -/
def State.sendEdges (s : State) (d home : Nat) : State :=
  [true, false].foldl (fun s upper =>
    match s.neighbour d home upper with
    | some k =>
      let l := s.die d
      s.setDie d { l with edgeOut := tpush l.edgeOut (2 * k + b2n (!upper)) (s.edgeRecord d home upper) }
    | none => s) s

/-- A neighbour's edge record arrives: side 1 is the neighbour above (R137). -/
def edgeRecordReceived (d lane : Nat) (upper : Bool) (s : State) : State :=
  let l := s.die d
  let key := 2 * lane + b2n upper
  match tget l.edgeOut [] key with
  | [] => s
  | r :: rest =>
    s.setDie d { l with edgeOut := tset l.edgeOut key rest, edgeIn := tset l.edgeIn key ((r :: tget l.edgeIn [] key).take 2) }

/-- A neighbour's point `i` places beyond the span's edge holds refresh back (R138, R139). -/
def State.neighbourHolds (s : State) (d home : Nat) (upper : Bool) (i : Nat) : Bool :=
  match s.neighbour d home upper with
  | none => false
  | some k =>
    if s.spanCount d k ≤ i then false
    else if (s.serverOf d k).isNone then true
    else
      match (tget (s.die d).edgeIn [] (2 * home + b2n upper)).find? fun r => (r.period + 1) % 2 ^ 32 == (s.lane d home).period with
      | some r => match r.flags[i]? with | some (lowq, active) => lowq || active | none => true
      | none => true

/-- The refresh of index j is suspended in this period (R112, R138). -/
def State.refreshHeld (s : State) (d home j : Nat) : Bool :=
  let reach := s.gauge d home + s.halfW d home
  let first := s.spanFirst d home
  let last := first + s.spanCount d home - 1
  let own := (s.spanPoints d home).any fun q =>
    decide (q ≤ j + reach) && decide (j ≤ q + reach) &&
      (let p := tget (s.demod d).points {} q; p.lowq || p.active)
  let above := (List.range (j + reach - last)).any (s.neighbourHolds d home true ·)
  let below := (List.range (reach - (j - first))).any (s.neighbourHolds d home false ·)
  own || above || below

/-- The reference of one polarisation after a refresh with this period's sample. -/
def refreshRef (refs : Table Word) (trace : Table TraceWord) (j k p : Nat) : Table Word :=
  match tfind refs (refKey j k p), tfind trace (64 * j + k) with
  | some r, some w =>
    if w.clip || w.incomplete then refs
    else
      let r := refValue r
      tset refs (refKey j k p) (refCode (r.add (((w.pol p).sub r).scale (1 / 4096))))
  | _, _ => refs

/-- The references a point's contributors use. -/
def State.heldRefs (s : State) (d home : Nat) (t : Table Word) (j : Nat) : List (Rat × Rat) :=
  (gaugeEnds (s.gauge d home) (s.halfW d home) j).flatMap fun (a, b) =>
    [a, b].flatMap fun i => (List.range (s.probe d).live.tones).flatMap fun k =>
      [0, 1].map fun p => let c := refValue (tget t 0 (refKey i.toNat k p)); (c.re, c.im)

/-- Add to the accumulators of a span's points what a refresh has moved into their references (R113). -/
def State.movedBy (s : State) (d home : Nat) (before after : Table Word) (points : Table Point) : Table Point :=
  let held := s.heldRefs d home
  (s.spanPoints d home).foldl (fun t j =>
    let x := held before j
    let y := held after j
    if x = y then t else let p := tget t {} j; tset t j { p with moved := p.moved + Config.refMoved x y }) points

/-- Refresh the references of a span's indices, and add to the accumulators of its points, and of those points of its neighbours
whose gauges reach into it, what it moved (R112, R113). -/
def State.refreshSpan (s : State) (d home : Nat) : State :=
  let m := s.demod d
  if !bitOf (s.reg (Reg.AQ_DMD_REF_CTL d)) 0 || m.acquiring.isSome then s
  else
    let tones := List.range (s.probe d).live.tones
    let refs := ((s.spanPoints d home).filter fun j => !s.refreshHeld d home j).foldl (fun t j =>
      tones.foldl (fun t k => refreshRef (refreshRef t m.trace j k 0) m.trace j k 1) t) m.refs
    let homes := home :: [true, false].filterMap (s.neighbour d home ·)
    s.setDemod d { m with refs := refs, points := homes.foldl (fun t i => s.movedBy d i m.refs refs t) m.points }

/-- The period's flags of a span's points start anew; a point whose samples all had Q = 0 carries BREAK next (R120). -/
def State.periodFlags (s : State) (d home : Nat) : State :=
  let m := s.demod d
  let pts := s.spanPoints d home
  let points := pts.foldl (fun t j =>
    let p := tget t {} j
    let dark := p.seen && !p.lit
    tset t j { p with brk := p.brk || dark, acqBrk := p.acqBrk && (!dark || s.acquires d j), lowq := false, active := false, seen := false, lit := false }) m.points
  s.setDemod d { m with points := points, trace := m.trace.filter fun (key, _) => !pts.contains (key / 64) }

/-- The end of a period for a lane's span (R136, R112): its points' flags start anew, whoever serves it. -/
def lanePeriodEnd (d lane : Nat) (s : State) : State :=
  let s := s.when (s.serverOf d lane).isSome fun s => (s.sendEdges d lane).refreshSpan d lane
  s.periodFlags d lane

/-! ### Noise and darkness (R121, R122, R476, R477) -/

def meanSquare (l : List Cx) : Rat := (l.map Cx.norm2).sum / l.length

def smooth64 (init : Bool) (old new : Rat) : Rat := if init then old + (new - old) / 64 else new

/-- The period is left out of the guard noise (R476). -/
def State.guardSkips (s : State) (d : Nat) : Bool :=
  let c := tget s.cal {} d
  c.phase == .b || c.afterB != 0

/-- The trace indices whose instants lie in a tone's tail window (R83). -/
def ProbeSet.tailIndices (p : ProbeSet) : List Nat :=
  let at0 : Rat := (p.nc : Rat) / 2 + (p.d0 : Rat) / 8
  let lo := ((((p.np : Rat) - p.nt - at0) / p.channels).ceil).toNat
  let hi := ((((p.np : Rat) - at0) / p.channels).floor).toNat
  (List.range (hi + 1 - lo)).map (lo + ·)

/-- The mean |x|² of the two outer channels over the period but its tail, of both polarisations (R476). -/
def State.guardPower (s : State) (d : Nat) (b : AdcBlock) : Rat :=
  let p := (s.probe d).live
  let shift := fld (s.reg (Reg.AQ_DFE_CTL d)) 0 4
  let x := fun pol => corrected (s.corrAt d b.period) b pol
  meanSquare ([0, p.channels - 1].flatMap fun c => [0, 1].flatMap fun pol =>
    (List.range ((p.np - p.nt) / p.channels)).map fun n => channelOut p.channels c 0 (x pol) ((n * p.channels : Nat) : Int)) / 4 ^ shift

/-- The guard noise floor after a measurement, where the period gives one (R476). -/
def State.guardTakes (s : State) (d : Nat) (guard : Option AdcBlock) : Option Rat :=
  let g := (s.demod d).guard
  match guard with
  | some b => if s.guardSkips d then g else some (smooth64 g.isSome (g.getD 0) (s.guardPower d b))
  | none => g

/-- A tone's noise figure and darkness after its tail window (R121, R122, R477): the power of the tail, its clean samples, the
guard noise, and the limit over it. -/
def ToneNoise.tail (n : ToneNoise) (tag : PeriodTag) (power : Rat) (clean : List TraceWord) (limit : Option Rat) : ToneNoise :=
  let rejected := limit.any fun l => decide (l < power)
  let rejects := if rejected then n.rejects + 1 else 0
  let passes := if rejected then 0 else n.passes + 1
  let notDark := if n.notDark then decide (passes < 16) else decide (4 ≤ rejects)
  let m := { n with
    rejects := rejects, passes := passes, notDark := notDark, rejected := n.rejected || rejected, period := some tag.count }
  if rejected || notDark || tag.incomplete || clean.isEmpty then m
  else { m with
    nx := smooth64 n.init n.nx (meanSquare (clean.map (·.pol 0)))
    ny := smooth64 n.init n.ny (meanSquare (clean.map (·.pol 1)))
    init := true, age := 0, stale := false }

/-- The tail window of a tone closes in the period that `tag` names: guard noise where the period gives it, saturation, darkness,
noise (R106, R121, R476, R477). -/
def State.tailTakes (s : State) (d k : Nat) (tag : PeriodTag) (adc : AdcBlock) (guard : Option AdcBlock) : State :=
  let floorN := s.guardTakes d guard
  let ws := (s.probe d).live.tailIndices.map (s.traceWord d tag adc k)
  let words := ws.map (·.word)
  let power := (meanSquare (words.map (·.pol 0)) + meanSquare (words.map (·.pol 1))) / 2
  let limit := floorN.map (· * ofDb ((fld (s.reg (Reg.AQ_CAL_ACQ d)) 21 7 : Rat) / 10))
  let n := tget (s.demod d).noise {} k
  let n1 := n.tail tag power (words.filter (!·.clip)) limit
  let s := s.setDemod d { s.demod d with guard := floorN, noise := tset (s.demod d).noise k n1 }
  (s.noteTrace d ws).when (n1.notDark && !n.notDark) (·.setEvt (Reg.AQ_CAL_EVT d) 3)

/-- A tone's tail window closes, T_p after the tone's firing (R83); the window of a period is measured once. -/
def tailWindowEnd (d k : Nat) (adc : AdcBlock) (guard : Option AdcBlock) (s : State) : State :=
  let ps := (s.probe d).live
  if !s.dieUp d || !ps.en || decide (ps.tones ≤ k) then s
  else
    match s.periodTag d adc.period with
    | none => s
    | some tag =>
      if s.fifths < tag.start + 4 * (ps.offset k + ps.np) ∨ (tget (s.demod d).noise {} k).period = some tag.count then s
      else ((guard.elim s (s.adcStats d ·)).adcStats d adc).tailTakes d k tag adc guard

/-- A period starts: every tone's noise figure ages, and is stale before its first measurement and after 64 whole periods without
one (R122). -/
def State.ageNoise (s : State) (d : Nat) : State :=
  let m := s.demod d
  let tones := List.range (s.probe d).live.tones
  let aged := tones.map fun k =>
    let n := tget m.noise {} k
    let age := min 256 (n.age + 1)
    (k, { n with age := age, stale := !n.init || decide (64 < age), rejected := false })
  let newly := aged.any fun (k, n) => n.stale && !(tget m.noise {} k).stale
  let s := s.setDemod d { m with noise := aged }
  s.when newly (·.setEvt (Reg.AQ_DFE_EVT d) 2)

/-! ### Writes (R128, R129) -/

/-- The value a register of R129 takes from a write, where the value keeps the ranges of its fields. -/
def dmdStored (o : Nat) (v : Word) : Option Word :=
  let f := fld v
  if o = 0x00 then some (lo32 (f 0 4))
  else if o = 0x40 then
    if 1 ≤ f 0 8 ∧ f 0 8 ≤ f 8 8 ∧ f 16 8 ≤ 240 then some (lo32 (f 0 24)) else none
  else if o = 0x44 then
    if f 0 8 ≤ 159 ∧ f 0 8 + 1 ≤ f 8 8 ∧ f 8 8 ≤ 160 then some (lo32 (f 0 16)) else none
  else if o = 0x48 then
    if 64 ≤ f 0 8 ∧ 1 ≤ f 8 4 then some (lo32 (f 0 12)) else none
  else if o = 0x4C then
    if 1 ≤ f 8 8 then some (word [(0, 1, f 0 1), (8, 8, f 8 8)]) else none
  else if 2 ≤ f 0 6 ∧ f 0 6 ≤ 50 ∧ f 6 3 ≤ 4 then some (lo32 (f 0 9)) else none

/-- The registers of R129. -/
def dmdPaced (o : Nat) : Bool :=
  o == 0 || o == 0x40 || o == 0x44 || o == 0x48 || o == 0x4C || (decide (0x100 ≤ o) && decide (o < 0x580))

/-- Put a value of R129 in force; a change of G or h breaks the lane's points (R120). -/
def State.dmdApply (s : State) (d a : Nat) (v : Word) : State :=
  let o := a - Reg.AQ_DFE_CTL d
  let was := s.reg a
  let s := s.setReg a v
  if 0x100 ≤ o ∧ o < 0x580 ∧ was ≠ v then s.spanBreak d ((o - 0x100) / 4) else s

/-- Accepted writes take effect at a period start of the port; a disabled port has none, and takes them at once. -/
def State.applyStaged (s : State) (d : Nat) : State :=
  let m := s.demod d
  m.staged.foldl (fun s (a, v) => s.dmdApply d a v) (s.setDemod d { m with staged := [] })

/-- A write to an AQn_DMD register. -/
def dmdWrite (s : State) (m : Master) (d o : Nat) (v : Word) : State :=
  if o = 0x2C then s.setMreg m (Reg.AQ_DFE_NOISE_SEL d) (lo32 (fld v 0 6))
  else if o = 0x64 then s.setMreg m (Reg.AQ_DMD_PROBE_SEL d) (lo32 (fld v 0 17))
  else if !dmdPaced o then s
  else
    match (if s.dev.quiet then dmdStored o v else none) with
    | none => s.setEvt (Reg.AQ_DMD_EVT d) 3
    | some w =>
      let dm := s.demod d
      let s := s.setDemod d { dm with staged := tset dm.staged (Reg.AQ_DFE_CTL d + o) w }
      let s := s.when (!s.portEnabled d) (·.applyStaged d)
      s.when (o == 0x4C && bitOf v 1) (·.reacqRequest d)

/-! ### Views -/

/-- A power in 1/16 dB relative to trace full scale, which the model takes as the square of the largest component, 16,383; a power
of 0 reads as the lowest value. -/
def powerField (p : Rat) : Nat := if p ≤ 0 then 0x8000 else toField 16 (clampInt (-32768) 32767 (roundRat (16 * dbRat (p / (16383 * 16383)))))

/-- The tone a selection names. -/
def State.selTone (s : State) (m : Master) (d a : Nat) : Nat := min (fld (s.mreg m a) 0 6) ((s.probe d).live.tones - 1)

/-- The latest word of the point a master has selected. -/
def State.probeWord (s : State) (m : Master) (d : Nat) : DWord :=
  let j := fld (s.mreg m (Reg.AQ_DMD_PROBE_SEL d)) 0 17
  if (s.probe d).live.delivered j then (tget (s.demod d).points {} j).word else 0

/-- A correction in the steps of its field. -/
def corrField (len : Nat) (x : Rat) : Nat := toField len (roundRat x)

/-- AQn_DMD registers that are views of the state. -/
def dmdView (s : State) (m : Master) (d o : Nat) : Option Word :=
  let dm := s.demod d
  let ps := (s.probe d).live
  let c := (tget s.cal {} d).live.corr
  let n := tget dm.noise {} (s.selTone m d (Reg.AQ_DFE_NOISE_SEL d))
  let g := fun i => corrField 16 (c.gain.getD i 1 * 16384)
  let iq := fun i => word [(0, 16, corrField 16 (c.iq.getD (2 * i) 0 * 16384)),
    (16, 16, corrField 16 ((1 + c.iq.getD (2 * i + 1) 0) * 16384))]
  match o with
  | 0x04 => some (if ps.en then word [(0, 7, ps.channels),
      (7, 11, ps.matchedTaps), (18, 2, ps.plan)] else 0)
  | 0x0C => some (word ((List.range 4).map fun i => (8 * i, 8, corrField 8 (c.ofs.getD i 0))))
  | 0x10 => some (word [(0, 16, g 0), (16, 16, g 1)])
  | 0x14 => some (word [(0, 16, g 2), (16, 16, g 3)])
  | 0x18 => some (word ((List.range 3).map fun i => (8 * i, 8, corrField 8 (2 * c.skew.getD i 0))))
  | 0x1C => some (iq 0)
  | 0x20 => some (iq 1)
  | 0x24 => some (match (tget s.cal {} d).ramp with | some r => lo32 (64 - r.done) | none => 0)
  | 0x30 => some (if n.init then word [(0, 16, powerField n.nx), (16, 16, powerField n.ny)] else 0)
  | 0x34 => some (if ps.en then word [(0, 8, min 255 (n.age - 1)), (8, 1, b2n n.stale)] else 0)
  | 0x50 => some (word [(0, 9, countOf laneNumbers fun i => s.spanCount d i != 0 && s.spanAcquired d i),
      (9, 1, b2n dm.acquiring.isSome), (10, 1, b2n dm.epochValid)])
  | 0x54 => some (lo32 (dm.epoch.getD 0))
  | 0x60 => some (lo32 (countOf dm.points fun (j, p) => ps.delivered j && !p.hist.isEmpty && decide ((p.word.toNat / 2 ^ 32) % 256 < s.qFade d)))
  | 0x68 => some (lo32 (s.probeWord m d).toNat)
  | _ => if dmdPaced o then tfind dm.staged (Reg.AQ_DFE_CTL d + o) else none

/-- A read of AQn_DMD_PROBE_LO latches PROBE_HI for the reader (R130). -/
def State.probeLo (s : State) (m : Master) (d : Nat) : State × Word :=
  let w := (s.probeWord m d).toNat
  (s.setMreg m (Reg.AQ_DMD_PROBE_HI d) (hi32 w), lo32 w)

/-- A read of AQn_DMD_EPOCH_LO latches EPOCH_HI for the reader (R47). -/
def State.epochLo (s : State) (m : Master) (d : Nat) : State × Word :=
  let w := (s.demod d).epoch.getD 0
  (s.setMreg m (Reg.AQ_DMD_EPOCH_HI d) (hi32 w), lo32 w)

/-! ### Meanings -/

/-- SLICE_RECEIVED (R146). -/
def execSliceReceived (dt d lane : Nat) (sl : Slice) (s : State) : Out := s.afterHb dt (sliceReceived d lane sl)

/-- LANE_PERIOD_END (R136). -/
def execLanePeriodEnd (dt d lane : Nat) (s : State) : Out := s.afterHb dt (lanePeriodEnd d lane)

/-- EDGE_RECORD_RECEIVED (R137). -/
def execEdgeRecordReceived (dt d lane : Nat) (upper : Bool) (s : State) : Out := s.afterHb dt (edgeRecordReceived d lane upper)

/-- REF_WINDOW_END (R483). -/
def execRefWindowEnd (dt d k j : Nat) (s : State) : Out := s.afterHb dt (refWindowEnd d k j)

/-- REACQ_COMPLETE (R484). -/
def execReacqComplete (dt d : Nat) (s : State) : Out := s.afterHb dt (reacqComplete d)

/-- REACQ_FORCE (R484). -/
def execReacqForce (dt d : Nat) (s : State) : Out := s.afterHb dt (reacqForce d)

/-- TAIL_WINDOW_END (R121). -/
def execTailWindowEnd (dt d k : Nat) (adc : AdcBlock) (guard : Option AdcBlock) (s : State) : Out :=
  s.afterHb dt (tailWindowEnd d k adc guard)

end Sys2Proof.Machine
end

