-- ==== Sys2Proof/Machine/Calib.lean ====
section
/-!
DEFINITION. In-gap calibration rounds, their limits and ramps, calibration sets, the AQn_CAL registers (Calibration and the Laser
Thermal Loop, R473 to R482, R493 to R495), and the start of a pulse period (R82, R97, R98).
-/
namespace Sys2Proof.Machine

def State.calPort (s : State) (d : Nat) : CalPort := tget s.cal {} d
def State.setCalPort (s : State) (d : Nat) (c : CalPort) : State := { s with cal := tset s.cal d c }
def State.calEvt (s : State) (d i : Nat) : State := s.setEvt (Reg.AQ_CAL_EVT d) i

/-- CAL_INTERVAL in ns and CAL_N. -/
def State.calInterval (s : State) (d : Nat) : Nat := ms (1000 * fld (s.reg (Reg.AQ_CAL_CTL d)) 1 12)
def State.calN (s : State) (d : Nat) : Nat := fld (s.reg (Reg.AQ_CAL_CTL d)) 13 13

/-- LB_PRESENT. -/
def State.lbPresent (s : State) (d : Nat) : Bool := bitOf (s.reg (Reg.AQ_OFE_CTL d)) 2

/-! ### Rounds (R474, R478) -/

/-- CAL_INTERVAL after its previous round began, a port's round starts where its conditions hold (R474). -/
def calRoundStart (d : Nat) (s : State) : State :=
  let c := s.calPort d
  let p := s.port d
  let due := match c.started with | some t => decide (s.calInterval d ≤ s.now - t) | none => true
  if bitOf (s.reg (Reg.AQ_CAL_CTL d)) 0 && due && c.phase == .none && p.light == .probing && p.tecLock &&
      (s.demod d).acquiring.isNone && c.ramp.isNone && (s.probe d).pend.isNone then
    s.setCalPort d { c with
      phase := .a, count := 0, outTail := 0, outOther := 0, started := some s.now, rounds := c.rounds + 1 }
  else s

/-- Phase A has had its periods; phase B follows where the loopback path is fitted (R474). -/
def calPhaseAEnd (d : Nat) (s : State) : State :=
  let c := s.calPort d
  if c.phase = .a ∧ s.calN d ≤ c.count ∧ s.lbPresent d then
    s.setCalPort d { c with phase := .b, count := 0, outTail := 0, outOther := 0 }
  else s

/-- Leave a phase: two periods follow a phase B before guard noise is measured again (R476). -/
def CalPort.leave (c : CalPort) : CalPort := { c with phase := .none, afterB := if c.phase = .b then 2 else c.afterB }

/-- A round is abandoned (R478). -/
def calRoundAbandon (d : Nat) (s : State) : State :=
  let c := s.calPort d
  let out := c.outTail + c.outOther
  let lost := decide (s.calN d < 4 * out)
  if c.phase ≠ .none ∧ ((s.port d).light ≠ .probing ∨ (s.probe d).pend.isSome ∨ (s.demod d).acquiring.isSome ∨ lost) then
    let cause := if lost then (if c.outOther < c.outTail then 4 else 5) else 0
    (s.setCalPort d { c.leave with cause := cause, discarded := 0, ended := c.ended + 1 }).calEvt d 2
  else s

/-! ### Limits (R479) -/

/-- A limit field of AQn_CAL_LIM0 to LIM3. -/
def State.calLim (s : State) (d i lo : Nat) : Rat := fld (s.reg (Reg.AQ_CAL_LIM d i)) lo 8

/-- Keep a result: within its absolute limit and, unless defaults are in force, within its step. -/
def keeps (defaults : Bool) (abs maxAbs step maxStep : Rat) : Bool :=
  decide (ratAbs abs ≤ maxAbs) && (defaults || decide (ratAbs step ≤ maxStep))

/-- Results of one quantity, each kept or discarded on its own: the values to come into force and whether one was discarded. -/
def keepEach (defaults : Bool) (maxAbs maxStep base : Rat) (old new : List Rat) : List Rat × Bool :=
  let r := (old.zip new).map fun (o, n) => (if keeps defaults (n - base) maxAbs (n - o) maxStep then n else o,
    keeps defaults (n - base) maxAbs (n - o) maxStep)
  (r.map (·.1), r.any (!·.2))

/-- Two results that stand or fall together: M21 and M22 of one polarisation, or the modulator's gain and phase. -/
def keepPair (ok : Bool) (old new : Rat × Rat) : (Rat × Rat) × Bool := if ok then (new, false) else (old, true)

/-- The mean of the tones' results. -/
def meanOf (l : List Rat) : Rat := l.sum / l.length

/-- A tone's results: amplitude and delay kept each on its own; a tone without a peak keeps its trims (R473). -/
def keepTones (defaults : Bool) (aMax aStep dMax dStep : Rat) (old : Table ToneTrim) (new : List (Option (Rat × Rat))) :
    Table ToneTrim × Bool × Bool :=
  let found := new.filterMap id
  let ma := meanOf (found.map (·.1))
  let md := meanOf (found.map (·.2))
  ((List.range new.length).zip new).foldl (fun (t, ba, bd) (k, r) =>
    let o := tget old {} k
    match r with
    | none => (t, true, true)
    | some (a, dl) =>
      let ka := keeps defaults (a - ma) aMax (a - o.amp) aStep
      let kd := keeps defaults (dl - md) dMax (dl - o.delay) dStep
      (tset t k ⟨if ka then a else o.amp, if kd then dl else o.delay⟩, ba || !ka, bd || !kd)) (old, false, false)

/-- What the acceptance of a round's results gives: the values to ramp to, the discarded quantities, and the cause shown. -/
structure Accepted where
  values    : CalValues
  discarded : Nat
  cause     : Nat
deriving DecidableEq, Repr

/-- The acceptance check at the end of a round (R479); the cause that a rule names for the phase B results is shown before a limit. -/
def State.acceptRound (s : State) (d : Nat) (r : RoundResult) (lb : Bool) : Accepted :=
  let c := s.calPort d
  let v := c.live
  let df := c.defaults
  let lim := s.calLim d
  let (ofs, b0) := keepEach df (lim 0 0) (lim 0 8) 0 v.corr.ofs r.ofs
  let (gain, b1) := keepEach df (lim 0 16 / 512) (lim 0 24 / 4096) 1 v.corr.gain r.gain
  let iqOk := fun i =>
    let n := fun k => r.iq.getD (2 * i + k) 0
    let o := fun k => v.corr.iq.getD (2 * i + k) 0
    [0, 1].all fun k => keeps df (n k) (lim 1 0 / 1024) (n k - o k) (lim 1 8 / 4096)
  let pick := fun i => if iqOk i then (r.iq.drop (2 * i)).take 2 else (v.corr.iq.drop (2 * i)).take 2
  let b2 := !(iqOk 0 && iqOk 1)
  let level := decide (-4400 ≤ r.level) && decide (r.level ≤ -2200)
  let phaseB := lb && level && !b2
  let (skew, b3) := if phaseB then keepEach df (lim 1 16 / 2) (lim 1 24 / 2) 0 v.corr.skew r.skew
    else (v.corr.skew, lb)
  let modOk := keeps df r.modG (lim 2 0 / 100) (r.modG - v.corr.modG) (lim 2 16 / 100) &&
    keeps df r.modP (lim 2 8 / 10) (r.modP - v.corr.modP) (lim 2 24 / 10)
  let (md, b4) := if phaseB then keepPair modOk (v.corr.modG, v.corr.modP) (r.modG, r.modP)
    else ((v.corr.modG, v.corr.modP), lb)
  let (trims, b5, b6) := if lb then
      keepTones df (lim 3 0 / 10) (lim 3 8 / 10) (lim 3 16 / 10) (lim 3 24 / 10) v.trims r.tones
    else (v.trims, false, false)
  let limit := b0 || b1 || b2 || b5 || b6 || (phaseB && (b3 || b4))
  { values := { corr := { ofs := ofs, gain := gain, iq := pick 0 ++ pick 1, skew := skew, modG := md.1, modP := md.2 }
                trims := trims }
    discarded := b2n b0 + 2 * b2n b1 + 4 * b2n b2 + 8 * b2n b3 + 16 * b2n b4 + 32 * b2n b5 + 64 * b2n b6
    cause := if lb && b2 then 2 else if lb && !level then 3 else if limit then 1 else 0 }

/-- A round ends: results are checked and a ramp towards the accepted ones waits for the next period start (R479, R480). -/
def calRoundEnd (d : Nat) (r : RoundResult) (s : State) : State :=
  let c := s.calPort d
  let lb := s.lbPresent d
  if s.calN d ≤ c.count ∧ (c.phase = .b ∨ (c.phase = .a ∧ !lb)) then
    let a := s.acceptRound d r (c.phase == .b)
    let some_ := decide (a.values ≠ c.live) || decide (a.discarded ≠ if lb then 127 else 7)
    let s := s.setCalPort d { c.leave with
      discarded := a.discarded, cause := a.cause, ended := c.ended + 1
      defaults := c.defaults && !some_
      accepted := if some_ then c.accepted + 1 else c.accepted
      rejected := if some_ then c.rejected else c.rejected + 1
      ramp := if some_ then some ⟨c.live, a.values, 0⟩ else none }
    let s := s.when some_ (·.calEvt d 0)
    s.when (a.discarded != 0) (·.calEvt d 1)
  else s

/-! ### Ramps (R480) -/

def mixRat (i : Nat) (old new : Rat) : Rat := old + (new - old) * i / 64
def mixList (i : Nat) (old new : List Rat) : List Rat := (old.zip new).map fun (o, n) => mixRat i o n

/-- The values of ramp period i. -/
def Ramp.at (r : Ramp) (i : Nat) : CalValues :=
  { corr :=
      { ofs := mixList i r.old.corr.ofs r.new.corr.ofs, gain := mixList i r.old.corr.gain r.new.corr.gain
        iq := mixList i r.old.corr.iq r.new.corr.iq, skew := mixList i r.old.corr.skew r.new.corr.skew
        modG := mixRat i r.old.corr.modG r.new.corr.modG, modP := mixRat i r.old.corr.modP r.new.corr.modP }
    trims := r.new.trims.map fun (k, t) =>
      let o := tget r.old.trims {} k
      (k, ⟨mixRat i o.amp t.amp, mixRat i o.delay t.delay⟩) }

/-- One ramp period begins. -/
def CalPort.rampStep (c : CalPort) : CalPort :=
  match c.ramp with
  | some r => if r.done < 64 then { c with live := r.at (r.done + 1), ramp := some { r with done := r.done + 1 } } else c
  | none => c

/-! ### Calibration sets (R481, R482) -/

/-- AQn_CAL_THM and AQn_CAL_PID registers, in block offsets. -/
def calParams : List Nat := [0x40, 0x44, 0x48, 0x4C, 0x50, 0x54, 0x58, 0x5C, 0x60, 0x64, 0x68]

/-- A port's part of a set: the live set's part with the values in force in place; trims of other plans stay. -/
def State.portCal (s : State) (d : Nat) (params : Bool) : PortCal :=
  let c := s.calPort d
  let old := tget (s.calSet.getD {}).ports {} d
  let plan := (s.probe d).live.plan
  { corr := c.live.corr
    trims := c.live.trims.foldl (fun t (k, v) => tset t (64 * plan + k) v) old.trims
    params := if params then calParams.map fun o => (o, s.reg (Reg.AQ_CAL_CTL d + o)) else old.params
    accepted := c.accepted, rejected := c.rejected }

/-- The set a round of port `d` writes: the live set with the round's values and HB's comparator trims in place (R480, R488). -/
def State.roundSet (s : State) (d : Nat) : CalSet :=
  let set := s.calSet.getD {}
  { ports := tset set.ports d (s.portCal d false), cmp := s.hbTrims }

/-- The set of CAL_STORE: the live values of every port and channel (R494). -/
def State.storeSet (s : State) : CalSet := { ports := (List.range 4).map fun d => (d, s.portCal d true), cmp := s.hbTrims }

/-- A set takes HB's trim reports with it. -/
def State.writeSet (s : State) (set : CalSet) : State := { s.bankQueue set with trimSince := none }

/-- The ramp has ended: a new calibration set is written (R480). -/
def calRampEnd (d : Nat) (s : State) : State :=
  match (s.calPort d).ramp with
  | some r =>
    if 64 ≤ r.done then
      let s := s.setCalPort d { s.calPort d with ramp := none, live := r.new }
      s.writeSet (s.roundSet d)
    else s
  | none => s

/-- The trims of the live plan in a set (R481): one it does not hold is a ratio of 1 and a delay of 0. -/
def State.planTrims (s : State) (d : Nat) (set : CalSet) : Table ToneTrim :=
  let ps := (s.probe d).live
  let pc := tget set.ports {} d
  (List.range ps.tones).filterMap fun k => (tfind pc.trims (64 * ps.plan + k)).map fun t => (k, t)

/-- At a port's first period the live set's values take effect without a ramp, else defaults (R481). -/
def State.loadCal (s : State) (d : Nat) : State :=
  let c := s.calPort d
  if c.loaded then s
  else
    match s.calSet with
    | none => s.setCalPort d { c with loaded := true, defaults := true, live := {} }
    | some set =>
      let pc := tget set.ports {} d
      let trims := s.planTrims d set
      s.setCalPort d { c with
        loaded := true, live := ⟨pc.corr, trims⟩, accepted := pc.accepted, rejected := pc.rejected
        defaults := trims.isEmpty }

/-- A bank write ends: with a set live, the thermal loops start (R427, R493). -/
def calBankWriteDone (s : State) : State :=
  let had := s.calSet.isSome
  let s := s.bankDone
  if had || s.calSet.isNone then s
  else (List.range 4).foldl (fun s d => (s.loopStart d).lightOn d) s

/-- 60 s after a trim report that no round has stored, HB writes a set (R488). -/
def trimSetWrite (s : State) : State :=
  match s.trimSince with
  | some t => if ms 60000 ≤ s.now - t then s.writeSet { (s.calSet.getD {}) with cmp := s.hbTrims } else s
  | none => s

/-- A trim report of FD arrives (R488). -/
def trimReportReceived (s : State) : State :=
  match s.trimReports with
  | (k, t) :: rest =>
    { s with trimReports := rest, hbTrims := tset s.hbTrims k t, trimSince := some (s.trimSince.getD s.now) }
  | [] => s

/-! ### Loop parameters and CAL_STORE (R493, R494) -/

/-- A float within two ends. -/
def floatIn (v : Word) (hi : Rat) : Bool := match floatVal v with | some x => decide (0 ≤ x) && decide (x ≤ hi) | none => false

/-- A loop parameter lies within the range of its field; `o` is its block offset. -/
def calParamOk (o : Nat) (v : Word) : Bool :=
  if o = 0x40 then decide (1000 ≤ fld v 0 17) && decide (fld v 0 17 ≤ 100000)
  else if o ≤ 0x4C then (floatVal v).isSome
  else if o = 0x50 ∨ o = 0x5C then floatIn v 1000
  else if o = 0x54 ∨ o = 0x60 then floatIn v 10000
  else if o = 0x58 ∨ o = 0x64 then floatIn v 10
  else decide (10 ≤ fld v 0 14) && decide (fld v 0 14 ≤ 10000) && decide (1 ≤ fld v 14 16)

/-- The value a parameter register keeps of a write. -/
def calParamStored (o : Nat) (v : Word) : Word :=
  if o = 0x40 then lo32 (fld v 0 17) else if o = 0x68 then lo32 (fld v 0 30) else v

/-- A write to a loop parameter (R493). -/
def State.calParamWrite (s : State) (d o : Nat) (v : Word) : State :=
  if s.dev.quiet && calParamOk o v then s.setReg (Reg.AQ_CAL_CTL d + o) (calParamStored o v) else s.calEvt d 6

/-- The parameters of a port allow CAL_STORE (R494). -/
def State.calParamsOk (s : State) (d : Nat) : Bool :=
  let a := Reg.AQ_CAL_THM_A d
  let t := steinhart (2 ^ 24) (fld (s.reg (Reg.AQ_CAL_THM_REF d)) 0 17)
    (s.calFloat (a 0)) (s.calFloat (a 1)) (s.calFloat (a 2))
  calParams.all (fun o => calParamOk o (s.reg (Reg.AQ_CAL_CTL d + o))) && decide (-200000 ≤ t) && decide (t ≤ 800000)

/-- CAL_STORE's arguments and parameters are good. -/
def State.calStoreOk (s : State) : Bool := (List.range 4).all fun d => !s.portEnabled d || s.calParamsOk d

/-! ### Writes and views of AQn_CAL -/

/-- A write to an AQn_CAL register (R495). -/
def calWrite (s : State) (m : Master) (d o : Nat) (v : Word) : State :=
  if o = 0x34 then s.setMreg m (Reg.AQ_CAL_TONE_SEL d) (lo32 (fld v 0 6))
  else if o = 0x00 then
    if s.dev.quiet && decide (10 ≤ fld v 1 12) && decide (fld v 1 12 ≤ 3600) && decide (256 ≤ fld v 13 13) &&
        decide (fld v 13 13 ≤ 4096) then
      let dm := s.demod d
      let s := s.setDemod d { dm with staged := tset dm.staged (Reg.AQ_CAL_CTL d) (lo32 (fld v 0 26)) }
      s.when (!s.portEnabled d) (·.applyStaged d)
    else s.setEvt (Reg.AQ_DMD_EVT d) 3
  else if calParams.contains o then s.calParamWrite d o v
  else s

/-- AQn_CAL registers that are views of the state. -/
def calView (s : State) (m : Master) (d o : Nat) : Option Word :=
  let c := s.calPort d
  let dm := s.demod d
  let dark := fun (base : Nat) => bitsWord fun i => (tget dm.noise {} (base + i)).notDark
  let l := (s.port d).loop
  match o with
  | 0x00 => tfind dm.staged (Reg.AQ_CAL_CTL d)
  | 0x04 => some (word [(0, 2, match c.phase with | .none => 0 | .a => 1 | .b => 2), (2, 1, b2n c.defaults),
      (3, 1, b2n (c.rounds % 2 == 1))])
  | 0x0C => some (word [(0, 7, c.discarded), (7, 3, c.cause), (10, 22, c.ended)])
  | 0x24 => some (match dm.guard with | some g => word [(0, 16, powerField g)] | none => 0)
  | 0x28 => some (dark 0)
  | 0x2C => some (dark 32)
  | 0x30 => some (word [(0, 16, corrField 16 (100 * c.live.corr.modG)), (16, 16, corrField 16 (100 * c.live.corr.modP))])
  | 0x38 =>
    let t := tget c.live.trims {} (s.selTone m d (Reg.AQ_CAL_TONE_SEL d))
    some (word [(0, 16, corrField 16 (100 * t.amp)), (16, 16, corrField 16 (100 * t.delay))])
  | 0x3C => some (lo32 dm.forced)
  | 0x6C => some (word [(0, 1, b2n (l.lastFine == some false)), (1, 1, b2n l.clamped), (2, 1, b2n l.slewed),
      (16, 16, toField 16 (clampInt (-32768) 32767 (roundRat (10000 * l.err))))])
  | _ => none

/-! ### Period start (R82, R97, R98, R102, R147) -/

/-- The load of a lane in complex MAC/s, times T_p in ticks (R147): COUNT × f_pt × 82 + D × 2.048 × 10⁶. -/
def State.laneLoad (s : State) (d i : Nat) : Rat :=
  let ps := (s.probe d).live
  let fpt : Rat := (ps.tones : Rat) / ((ps.np : Rat) * 8 / 10000000000)
  (s.spanCount d i : Rat) * fpt * 82 + (countOf (s.sensorsOf d) fun e => s.senHome d e == i : Nat) * 2048000

/-- The clocks of a die's blocks change at the first period start after a commit (R147). -/
def State.blockClocks (s : State) (d : Nat) : State :=
  if !(s.die d).clockDue then s
  else
    let fix := bitOf (s.reg (Reg.AQ_LBQ_CFG d)) 0
    let s := s.setDie d { s.die d with clockDue := false }
    blockNumbers.foldl (fun s b =>
      s.modBlk d b fun x => { x with slow := !fix && (blockLanes b).all fun i => decide (s.laneLoad d i ≤ 800000000) }) s

/-- The calibration round counts the period that ends, in or out (R478). -/
def State.roundPeriod (s : State) (d : Nat) : State :=
  let c := s.calPort d
  let tail := (s.demod d).noise.any fun (_, n) => n.rejected
  let other := (s.probe d).incomplete || !(s.port d).tecLock
  if c.phase = .none then s.setCalPort d { c with afterB := c.afterB - 1 }
  else s.setCalPort d { c with
    count := c.count + 1
    outTail := c.outTail + b2n tail
    outOther := c.outOther + b2n (!tail && other)
    afterB := if c.phase = .b then 0 else c.afterB - 1 }

/-- The new live set (R97): references are invalidated, noise starts anew, and a port that is enabled or disabled by it turns its
light accordingly (R61, R73). -/
def State.psyLive (s : State) (d : Nat) (set : ProbeSet) : State :=
  let p := s.probe d
  let was := p.live.en
  let s := s.setProbe d { p with live := set, pend := none, changeover := false, past := [] }
  let s := s.setDie d { s.die d with clockDue := true }
  let dm := s.demod d
  let s := s.setDemod d { dm with noise := [], guard := none, trace := [] }
  let c := s.calPort d
  let s := if p.live.plan = set.plan then s else
    let trims := s.planTrims d (s.calSet.getD {})
    s.setCalPort d { c with live := { c.live with trims := trims }, defaults := c.defaults || trims.isEmpty }
  let s := (s.reacquire d).setEvt (Reg.AQ_PSY_EVT d) 0
  if was && !set.en then s.portOff d
  else if !was && set.en then (s.loopStart d).lightOn d
  else s

/-- A period of the port starts at powered time `at5` (0.2 ns): stamp, count, firing where the probe drive runs. The period
before stays known where it ran under the same set. -/
def State.periodBegins (s : State) (d : Nat) (fire same : Bool) (at5 : Nat) : State :=
  let p := s.probe d
  s.setProbe d { p with
    count := (p.count + 1) % 4294967296, stamp := s.tcAt ((at5 + 4) / 5), startAt := at5, next := 0, incomplete := false
    past := if same then (s.periodNow d :: p.past).take 2 else []
    firing := fire && (s.port d).drive && (s.port d).light == .probing }

/-- A period start of an enabled port, with what it puts into effect: round counts, noise ages, staged writes but in an empty
period (R129), clocks, the live calibration set, ramps. -/
def State.periodOpens (s : State) (d : Nat) (fire same : Bool) (at5 : Nat) : State :=
  let s := ((s.roundPeriod d).ageNoise d).when fire (·.applyStaged d)
  let s := ((s.blockClocks d).periodBegins d fire same at5).loadCal d
  s.setCalPort d (s.calPort d).rampStep

/-- A pulse period starts (R82, R97), exactly N_p ticks after the one before (R87); the first of an enabled port at any time. -/
def periodStart (d : Nat) (s : State) : State :=
  let p := s.probe d
  let at5 := p.startAt + 4 * p.live.np
  if p.live.en && decide (s.fifths < at5) then s
  else
    match p.live.en, p.pend, p.changeover with
    | false, none, _ => s
    | false, some set, _ =>
      let s := s.psyLive d set
      if set.en then s.periodOpens d true false s.fifths else s
    | true, none, _ => s.periodOpens d true true at5
    | true, some _, false =>
      let s := s.periodOpens d false true at5
      s.setProbe d { s.probe d with changeover := true }
    | true, some set, true =>
      let s := s.psyLive d set
      if set.en then s.periodOpens d true false at5 else s

/-- The probe window is reached with the receiver ready: probe drive starts and the references are acquired (R62 step 6). -/
def probeStart (d : Nat) (s : State) : State :=
  if s.probeReady d then (s.setPort d { s.port d with light := .probing, drive := true, step := .idle }).reacquire d else s

/-! ### Meanings -/

/-- PERIOD_START (R82). -/
def execPeriodStart (dt d : Nat) (s : State) : Out := s.afterHb dt (periodStart d)

/-- TONE_FIRING (R82). -/
def execToneFiring (dt d k : Nat) (s : State) : Out :=
  s.afterHb dt fun s => toneFiring d k (tget (s.calPort d).live.trims {} k) s

/-- PROBE_START (R62). -/
def execProbeStart (dt d : Nat) (s : State) : Out := s.afterHb dt (probeStart d)

/-- CAL_ROUND_START (R474). -/
def execCalRoundStart (dt d : Nat) (s : State) : Out := s.afterHb dt (calRoundStart d)

/-- CAL_PHASE_A_END (R474). -/
def execCalPhaseAEnd (dt d : Nat) (s : State) : Out := s.afterHb dt (calPhaseAEnd d)

/-- CAL_ROUND_END (R479). -/
def execCalRoundEnd (dt d : Nat) (r : RoundResult) (s : State) : Out := s.afterHb dt (calRoundEnd d r)

/-- CAL_ROUND_ABANDON (R478). -/
def execCalRoundAbandon (dt d : Nat) (s : State) : Out := s.afterHb dt (calRoundAbandon d)

/-- CAL_RAMP_END (R480). -/
def execCalRampEnd (dt d : Nat) (s : State) : Out := s.afterHb dt (calRampEnd d)

/-- CAL_BANK_WRITE_DONE (R427). -/
def execCalBankWriteDone (dt : Nat) (s : State) : Out := s.afterHb dt calBankWriteDone

/-- TRIM_REPORT_RECEIVED (R488). -/
def execTrimReportReceived (dt : Nat) (s : State) : Out := s.afterHb dt trimReportReceived

/-- TRIM_SET_WRITE (R488). -/
def execTrimSetWrite (dt : Nat) (s : State) : Out := s.afterHb dt trimSetWrite

end Sys2Proof.Machine
end

