-- ==== Sys2Proof/Machine/Heads.lean ====
section
/-!
DEFINITION. Heads: the legacy sequence, the readings of a fibre head, fused heads, head faults and holds (Counting Points,
Sections and Their States, R191 to R214, R576). Pure functions of a head, used by both evaluation channels.
-/
namespace Sys2Proof.Machine

/-! ### The legacy sequence (R194 to R196) -/

/-- The table of R194: next state and the count changes of sides 1 and 2; none where the edge is not listed. -/
def SeqState.next (q : SeqState) (sys : Nat) (on : Bool) : Option (SeqState × Int × Int) :=
  match q, sys, on with
  | .idle, 0, true => some (.a1, 0, 0)
  | .idle, 1, true => some (.b2, 0, 0)
  | .a1, 1, true => some (.ab1, 0, 1)
  | .a1, 0, false => some (.idle, 0, 0)
  | .ab1, 0, false => some (.b1, 0, 0)
  | .ab1, 1, false => some (.a1, 0, -1)
  | .b1, 1, false => some (.idle, -1, 0)
  | .b1, 0, true => some (.ab1, 0, 0)
  | .b2, 0, true => some (.ab2, 1, 0)
  | .b2, 1, false => some (.idle, 0, 0)
  | .ab2, 1, false => some (.a2, 0, 0)
  | .ab2, 0, false => some (.b2, -1, 0)
  | .a2, 0, false => some (.idle, 0, -1)
  | .a2, 1, true => some (.ab2, 0, 0)
  | _, _, _ => none

/-- The states in which the two systems disagree (R195). -/
def SeqState.disagrees : SeqState → Bool
  | .a1 | .b1 | .b2 | .a2 => true
  | _ => false

/-- HB_CPT_STATE.SEQ. -/
def SeqState.code : SeqState → Nat
  | .idle => 0 | .a1 => 1 | .ab1 => 2 | .b1 => 3 | .b2 => 4 | .ab2 => 5 | .a2 => 6

/-- An input is unsettled or has a fault (R196). -/
def LegHead.bad (l : LegHead) : Bool := !l.setA || !l.setB || !l.fltA.isEmpty || !l.fltB.isEmpty

/-- Both systems free, settled and without fault (R213). -/
def LegHead.back (l : LegHead) : Bool := !l.bad && !l.outA && !l.outB

/-- The disagreement in progress at a time, 10 µs ticks; 0 where there is none (R195). -/
def LegHead.disc (l : LegHead) (t : Nat) : Nat := match l.since with | some u => (t - u) / 10000 | none => 0

/-- The inputs after a legacy-head event of the given kind (R291): settled flags, fault list, filter output. -/
def LegHead.input (l : LegHead) (sys kind cause : Nat) (out : Bool) : LegHead :=
  let upd := fun (f : List Nat) =>
    if kind = 2 then cause :: f.erase cause else if kind = 3 then f.erase cause else f
  if sys = 0 then { l with setA := l.setA || kind == 4, fltA := upd l.fltA, outA := out }
  else { l with setB := l.setB || kind == 4, fltB := upd l.fltB, outB := out }

/-- FD's measure of a disagreement after an event at time `t` (R195): it runs from an edge that leaves one system damped and the other
free, whether or not the head is in service, and ends when they agree. -/
def LegHead.measure (l : LegHead) (edge : Bool) (t : Nat) : LegHead :=
  if l.outA = l.outB then { l with since := none } else if edge then { l with since := some t } else l

/-- What FD knows of a comparator channel: settled, its output, its faults. -/
structure InputView where
  settled : Bool
  out     : Bool
  faults  : List Nat
deriving DecidableEq, Repr

/-- The inputs as FD's two channels stand. -/
def LegHead.view (l : LegHead) (a b : InputView) : LegHead :=
  let l := { l with setA := a.settled, outA := a.out, fltA := a.faults, setB := b.settled, outB := b.out, fltB := b.faults }
  if l.outA = l.outB then { l with since := none } else l

/-! ### Readings (R197 to R205) -/

/-- An entry at the tail of the gap, counted by R193: into side 2 in direction 1, into side 1 in direction 2. -/
def Reading.enter (r : Reading) (e : GapEntry) : Reading :=
  { r with gap := r.gap ++ [e], c1 := r.c1 + (if r.d = 2 then 1 else 0), c2 := r.c2 + (if r.d = 1 then 1 else 0) }

/-- The other direction with the gap list reversed. -/
def Reading.flip (r : Reading) : Reading := { r with d := if r.d = 0 then 0 else 3 - r.d, gap := r.gap.reverse }

/-- What an event needs of the structure and of the head: D in mm, TOL in per cent, G_MAX. -/
structure GapRule where
  dist : Nat
  tol  : Nat
  gmax : Nat
deriving DecidableEq, Repr

/-- The transit check of R201 for an exit at time `t`, speed `v`: D ÷ T lies between the two bounds, ends included. -/
def GapRule.transit (g : GapRule) (e : GapEntry) (x : GapEntry) : Bool :=
  if e.sys = x.sys ∨ !e.checked ∨ e.rev ≠ x.rev ∨ e.usable ∨ x.usable then true
  else
    let dt := x.t - e.t
    let big := g.dist * 36000000000
    dt != 0 && decide (min e.v x.v * (100 - g.tol) * dt ≤ big) && decide (big ≤ max e.v x.v * (100 + g.tol) * dt)

/-- Steps 2 and 3 of R200: an entry at the entry system of d, else an exit of the axle at the head of the gap list. -/
def GapRule.cross (g : GapRule) (x : GapEntry) (r : Reading) : Option Reading :=
  if x.sys + 1 = r.d then some (r.enter x)
  else
    match r.gap with
    | [] => none
    | e :: rest =>
      if g.transit e x then
        some { r with gap := rest, c1 := r.c1 - (if r.d = 1 then 1 else 0), c2 := r.c2 - (if r.d = 2 then 1 else 0) }
      else none

/-- A WHEEL event applied to one reading (R198, R200); `turn`: a reversal is possible, `split`: it splits the reading. -/
def GapRule.wheel (g : GapRule) (x : GapEntry) (turn split : Bool) (r : Reading) : List Reading :=
  let out :=
    if r.gap.isEmpty then
      if r.d = 2 - x.sys ∧ !turn then [] else [{ r with d := x.sys + 1 }.enter x]
    else if turn && split then (g.cross x r).toList ++ (g.cross x r.flip).toList
    else (g.cross x r).toList
  out.filter fun r => decide (r.gap.length ≤ g.gmax)

/-- A DEPART applied to one reading (R202): crossed with d kept, and not crossed with d and gap reversed. -/
def GapRule.depart (g : GapRule) (x : GapEntry) (r : Reading) : List Reading := g.wheel x true false r ++ [r.flip]

/-- Two readings agree under R203. -/
def Reading.agrees (a b : Reading) : Bool := a.d == b.d && a.gap.length == b.gap.length && a.c1 == b.c1 && a.c2 == b.c2

/-- The lowest-numbered of two agreeing readings: entries whose times differ are unchecked from then on. -/
def Reading.merge (a b : Reading) : Reading :=
  { a with gap := List.zipWith (fun e f => if e.t = f.t then e else { e with checked := false }) a.gap b.gap }

/-- Merge a reading into a list of readings that differ from each other. -/
def mergeReading : List Reading → Reading → List Reading
  | [], r => [r]
  | m :: t, r => if m.agrees r then m.merge r :: t else m :: mergeReading t r

/-- The readings after merging (R203). -/
def mergeReadings (rs : List Reading) : List Reading := rs.foldl mergeReading []

/-! ### A fibre head's core: one event -/

/-- What one event does to the core: the core after it, HB_CPT_EVT bits, a fault cause. -/
structure CoreOut where
  core  : FibCore
  evts  : List Nat := []
  fault : Option Nat := none
deriving DecidableEq, Repr

/-- How a head sees its counting point: the structure's limits, and what is fixed while an event is applied. -/
structure HeadRule where
  kind   : CpKind
  rule   : GapRule
  aMax   : Nat
  bridge : Nat
  /-- Systems a and b have an enabled sensor outside any unavailable span. -/
  okA    : Bool
  okB    : Bool
deriving DecidableEq, Repr

def SensorState.seen (x : SensorState) : Bool := x == .sighted || x == .standing

/-- R206: a sensor is FILLING, BLIND, disabled or in an unavailable span. -/
def HeadRule.blind (h : HeadRule) (c : FibCore) : Bool := !(h.okA && c.senA.seen && h.okB && c.senB.seen)

/-- Both sensors SIGHTED (R213, R576). -/
def HeadRule.sighted (h : HeadRule) (c : FibCore) : Bool := h.okA && h.okB && c.senA == .sighted && c.senB == .sighted

/-- A head starts under R197: one reading with d = none and an empty gap; final counts stay. -/
def FibCore.begin (c : FibCore) (waiting : Bool) : FibCore :=
  { readings := [{ c1 := c.base1, c2 := c.base2 }], base1 := c.base1, base2 := c.base2
    senA := c.senA, senB := c.senB, waiting := waiting }

/-- The sensor states after an event (R183). -/
def FibCore.sensor (c : FibCore) (ev : HeadEvent) : FibCore :=
  let new : Option SensorState := match ev.kind with
    | 1 => some .standing | 2 => some .sighted | 3 => some .blind | 4 => some .sighted | 5 => some .filling | _ => none
  match new with
  | none => c
  | some x => if ev.sys = 0 then { c with senA := x } else { c with senB := x }

/-- A reversal is possible between the head's previous event and one at `t` with speed `v` (R199): speeds in 0.01 km/h. -/
def FibCore.turn (c : FibCore) (aMax t v : Nat) : Bool :=
  match c.prev with
  | none => true
  | some (t0, v0) => decide ((v0 + v) * 10000000000 ≤ (t - t0) * 360 * aMax)

/-- Merge, resolve or fault after a WHEEL or DEPART (R203). A fused head resolves under R210 instead. -/
def FibCore.settle (c : FibCore) (fused : Bool) (now : Nat) (evts : List Nat) : CoreOut :=
  let rs := mergeReadings c.readings
  let c := { c with readings := rs }
  match rs with
  | [] => { core := c, evts := evts, fault := some 3 }
  | [r] =>
    if fused then { core := { c with split := none }, evts := evts }
    else { core := { c with split := none, wasSplit := false, base1 := r.c1, base2 := r.c2 }
           evts := if c.wasSplit then 3 :: evts else evts }
  | _ =>
    if 4 < rs.length then { core := c, evts := evts, fault := some 2 }
    else { core := { c with split := some (c.split.getD now), wasSplit := true }, evts := evts }

/-- The sighting of R206 and R576 after an event or a change of availability at time `t`. -/
def HeadRule.sighting (h : HeadRule) (c : FibCore) (t : Nat) (commit : Bool) (evts : List Nat) : CoreOut :=
  if c.waiting then { core := if h.sighted c then c.begin false else c, evts := evts }
  else if h.blind c then
    let sigA := h.okA && c.senA == .sighted
    let sigB := h.okB && c.senB == .sighted
    let u := match c.uns with
      | none =>
        { since := t, other := if sigA && !sigB then some 0 else if sigB && !sigA then some 1 else none
          calm := sigA != sigB, clear := c.readings.all (·.gap.isEmpty), commit := commit }
      | some u =>
        let on := match u.other with | some 0 => sigA | some _ => sigB | none => false
        { u with calm := u.calm && on, commit := u.commit || commit }
    { core := { c with uns := some u }, evts := evts }
  else
    match c.uns with
    | none => { core := c, evts := evts }
    | some u =>
      let c := { c with uns := none }
      if u.commit then { core := c, evts := evts }
      else if h.bridge != 0 && decide (t - u.since ≤ h.bridge) && u.calm && u.clear then { core := c, evts := 5 :: evts }
      else { core := c, evts := evts, fault := some 1 }

/-- One sensor event applied to the core (R199 to R206). -/
def HeadRule.event (h : HeadRule) (c : FibCore) (ev : HeadEvent) (now : Nat) : CoreOut :=
  let moves := decide (ev.kind ≤ 2) && !c.waiting
  let v := if ev.kind = 0 then ev.v else 0
  let turn := moves && c.turn h.aMax ev.t v
  let c := if moves then
      { c with
        rev := if turn then c.rev + 1 else c.rev, prev := some (ev.t, v)
        uns := c.uns.map fun u => if u.other = some ev.sys then { u with calm := false } else u }
    else c
  let c := c.sensor ev
  let x : GapEntry := { t := ev.t, v := v, sys := ev.sys, rev := c.rev, usable := ev.usable }
  let out := if !moves then { core := c } else match ev.kind with
    | 0 =>
      let splits := turn && c.readings.any (!·.gap.isEmpty)
      { c with readings := c.readings.flatMap (h.rule.wheel x turn true) }.settle (h.kind == CpKind.fused) now (if splits then [2] else [])
    | 2 => { c with readings := c.readings.flatMap (h.rule.depart x) }.settle (h.kind == CpKind.fused) now [2]
    | _ => { core := c }
  match out.fault with
  | some _ => out
  | none => h.sighting out.core ev.t (ev.kind == 5 && ev.tpl == 3) out.evts

/-! ### Heads -/

/-- A head fault (R211): the readings end; the last fault cause is kept. -/
def Head.fault (h : Head) (cause : Nat) : Head :=
  if h.faulty then h
  else { h with
    faulty := true, cause := cause, kept := [], disagree := none, evts := 0 :: h.evts
    core := { h.core with readings := [], uns := none, split := none, waiting := false } }

/-- The rule of a counting point for a head. -/
def ChanCfg.rule (g : ChanCfg) (c : CpCfg) (h : Head) : HeadRule :=
  { kind := c.kind, rule := { dist := c.dist, tol := g.tol, gmax := c.gmax }, aMax := g.aMax, bridge := g.bridge * 1000000
    okA := c.sa.isSome && !h.unaA, okB := c.sb.isSome && !h.unaB }

/-- What a core step at the instant `now` answers, taken into the head. A fused head that enters service with an input that is unsettled
or has a fault faults with LEGACY_INPUT (R196, R209, R576). -/
def Head.take (r : HeadRule) (now : Nat) (h : Head) (o : CoreOut) : Head :=
  let enters := h.core.waiting && !o.core.waiting
  let h := { h with core := o.core, evts := o.evts ++ h.evts, start := if enters then now else h.start }
  match o.fault with
  | some c => h.fault c
  | none => if enters && r.kind == .fused && h.leg.bad then h.fault 9 else h

/-- Apply an event as the newest of the kept set (R207: the last 16 events). -/
def Head.record (r : HeadRule) (now : Nat) (h : Head) (ev : HeadEvent) (instant : Nat) : Head :=
  if h.faulty then h
  else
    let kept := h.kept ++ [{ ev := ev, snap := h.core, instant := instant }]
    let h := { h with kept := kept.drop (kept.length - 16), dropped := h.dropped || decide (16 < kept.length) }
    h.take r now (r.event h.core ev now)

/-- Order of two events of a head (R207): event time, then system. -/
def HeadEvent.after (a b : HeadEvent) : Bool := decide (b.t < a.t) || (b.t == a.t && decide (b.sys < a.sys))

/-- The latest event that has reached the head, by event time and system (R207). -/
def Head.reached (h : Head) (ev : HeadEvent) : Head :=
  { h with last := match h.last with
      | none => some (ev.t, ev.sys)
      | some l => if l.1 < ev.t ∨ (l.1 = ev.t ∧ l.2 < ev.sys) then some (ev.t, ev.sys) else some l }

/-- The event comes after one that is later by R207. -/
def Head.late (h : Head) (ev : HeadEvent) : Bool :=
  h.kept.any (·.ev.after ev) || h.last.any fun l => decide (ev.t < l.1) || (ev.t == l.1 && decide (ev.sys < l.2))

/-- A released sensor event at a head in service. A late event takes the head back and re-applies, or faults it with ORDER (R207). -/
def Head.order (r : HeadRule) (now : Nat) (lastClear : Option Nat) (h : Head) (ev : HeadEvent) : Head :=
  if h.late ev && decide (ev.t < h.start) then h.fault 5
  else
    match h.kept.findIdx? (·.ev.after ev) with
    | none => h.record r now ev now
    | some i =>
      match h.kept[i]? with
      | none => h
      | some k =>
        let cleared := match lastClear with | some c => decide (k.instant ≤ c) | none => false
        if (i == 0 && h.dropped) || cleared then h.fault 5
        else
          let redo := h.kept.drop i
          let h := { h with core := k.snap, kept := h.kept.take i, evts := 4 :: h.evts }
          redo.foldl (fun h k => h.record r now k.ev k.instant) (h.record r now ev now)

/-- A released sensor event at its head, the release instant `now`; `lastClear`: when a section of the head last became Clear. A faulty or
waiting head takes the sensor's state alone (R213, R576). -/
def Head.apply (r : HeadRule) (settle now : Nat) (lastClear : Option Nat) (h : Head) (ev : HeadEvent) : Head :=
  let h' :=
    if h.faulty then { h with core := h.core.sensor ev }
    else if h.core.waiting then h.take r now (r.event h.core ev now)
    else { h with settle := if ev.kind ≤ 2 then max h.settle (ev.t + settle) else h.settle }.order r now lastClear ev
  h'.reached ev

/-- A disagreement that has reached T_D at time `t` faults the head (R195). -/
def Head.discrepancy (td t : Nat) (h : Head) : Head :=
  if !h.faulty && h.leg.seq.disagrees && h.leg.since.isSome && decide (td ≤ h.leg.disc t) then h.fault 8 else h

/-- A legacy-head event of kind `kind` at time `t` (R194 to R196). A fused head that waits takes the input's state alone (R576). -/
def Head.legacy (td : Nat) (h : Head) (sys kind cause : Nat) (out : Bool) (t : Nat) : Head :=
  let h := h.discrepancy td t
  let edge := decide (kind ≤ 1)
  let same := edge && h.leg.edge.map (· / 10000) == some (t / 10000)
  let leg := (h.leg.input sys kind cause out).measure edge t
  let h := { h with settle := max h.settle t, leg := if edge then { leg with edge := some t } else leg }
  if h.faulty || h.core.waiting then h
  else if h.leg.bad then h.fault 9
  else if !edge then h
  else if same then h.fault 7
  else
    match h.leg.seq.next sys (kind == 0) with
    | none => h.fault 7
    | some (q, d1, d2) =>
      { h with leg := { h.leg with seq := q, c1 := h.leg.c1 + d1, c2 := h.leg.c2 + d2 } }

/-- The head learns how FD's two channels stand: one that is unsettled or has a fault faults a head in service (R196). -/
def Head.inputs (a b : InputView) (h : Head) : Head :=
  let h := { h with leg := h.leg.view a b }
  if h.faulty || h.core.waiting || !h.leg.bad then h else h.fault 9

/-- The fused head is quiet (R210). -/
def Head.quiet (h : Head) : Bool :=
  h.leg.seq == .idle && h.core.senA != .standing && h.core.senB != .standing && h.core.readings.all (·.gap.isEmpty)

/-- Quiet moments of a fused head (R210): readings that differ from the legacy counts drop, one that is left resolves the head,
and none that matches is a disagreement. -/
def Head.fuse (now : Nat) (h : Head) : Head :=
  if h.faulty || h.core.waiting then h
  else if !h.quiet then { h with disagree := none }
  else
    let same := h.core.readings.filter fun r => r.c1 == h.leg.c1 && r.c2 == h.leg.c2
    match same with
    | [] => if h.disagree.isSome then h else { h with disagree := some now, evts := 6 :: h.evts }
    | [_] =>
      { h with
        disagree := none, evts := if h.core.wasSplit then 3 :: h.evts else h.evts
        core := { h.core with readings := same, base1 := h.leg.c1, base2 := h.leg.c2, split := none, wasSplit := false } }
    | _ => { h with disagree := none, core := { h.core with readings := same } }

/-- The cause of a head fault is gone (R213). -/
def Head.back (r : HeadRule) (h : Head) : Bool :=
  match r.kind with
  | .fibre => r.sighted h.core
  | .legacy => h.leg.back
  | .fused => r.sighted h.core && h.leg.back

/-- The head goes back into service and starts again under R197; its final counts stay. -/
def Head.restart (kind : CpKind) (now : Nat) (h : Head) : Head :=
  let fused := kind == .fused
  { h with
    faulty := false, kept := [], dropped := false, start := now, disagree := none
    core := h.core.begin false
    leg := { h.leg with
      seq := .idle
      c1 := if fused then h.core.base1 else h.leg.c1, c2 := if fused then h.core.base2 else h.leg.c2 } }

/-- A head as its channel starts (R197, R576): what no later event repeats, the sensors' states and the state of FD's inputs, is
kept from `old`. A head with a legacy part is faulty while an input is unsettled or has a fault (R196); a fibre or fused head waits, without
a fault, until both its sensors are SIGHTED. -/
def Head.fresh (now : Nat) (g : ChanCfg) (c : CpCfg) (old : Head) : Head :=
  let leg : LegHead := { setA := old.leg.setA, setB := old.leg.setB, outA := old.leg.outA, outB := old.leg.outB,
                         fltA := old.leg.fltA, fltB := old.leg.fltB, since := old.leg.since }
  let core : FibCore := { senA := old.core.senA, senB := old.core.senB }
  let h : Head := { leg := leg, core := core, unaA := old.unaA, unaB := old.unaB, start := now, last := old.last }
  let waits := c.kind != .legacy && !(g.rule c h).sighted core
  if !waits && c.kind != .fibre && leg.bad then { h with faulty := true, cause := 9, core := { core with waiting := false, readings := [] } }
  else { h with core := { core with waiting := waits } }

/-- The largest and smallest of a list of figures, `d` for an empty one. -/
def figureSpan (d : Int) (l : List Int) : Int × Int :=
  match l with
  | [] => (d, d)
  | x :: t => (t.foldl max x, t.foldl min x)

/-- High and low figure of a side (R204, R209), counted since the head's channel started. -/
def Head.figures (kind : CpKind) (h : Head) (side : Nat) : Int × Int :=
  let leg := if side = 1 then h.leg.c1 else h.leg.c2
  let fib := figureSpan (if side = 1 then h.core.base1 else h.core.base2)
    (h.core.readings.map fun r => if side = 1 then r.c1 else r.c2)
  match kind with
  | .fibre => fib
  | .legacy => (leg, leg)
  | .fused => if h.faulty then fib else (max leg fib.1, min leg fib.2)

/-- The head holds its sections Occupied (R206, R214, R576). -/
def Head.holding (r : HeadRule) (h : Head) : Bool :=
  match r.kind with
  | .legacy => false
  | _ => h.core.waiting || r.blind h.core || h.core.senA == .standing || h.core.senB == .standing

/-- A sensor's span becomes unavailable or available again at time `t` (R206, R157): the sensor starts again with the span. -/
def Head.available (g : ChanCfg) (c : CpCfg) (sys : Nat) (on : Bool) (t : Nat) (h : Head) : Head :=
  let h := if sys = 0 then { h with unaA := !on, core := { h.core with senA := .filling } }
    else { h with unaB := !on, core := { h.core with senB := .filling } }
  if h.faulty then h else h.take (g.rule c h) t ((g.rule c h).sighting h.core t false [])

/-- The states of the head's sensors as another channel knows them, at the instant `now` (R576). -/
def Head.sensors (g : ChanCfg) (c : CpCfg) (now : Nat) (other h : Head) : Head :=
  let h := { h with unaA := other.unaA, unaB := other.unaB, core := { h.core with senA := other.core.senA, senB := other.core.senB } }
  if h.faulty then h else h.take (g.rule c h) now ((g.rule c h).sighting h.core now false [])

/-- Every town-clock time the head holds, shifted by a step of `d` (R43). -/
def Head.shift (d : Nat) (h : Head) : Head :=
  let entry := fun (e : GapEntry) => { e with t := e.t + d }
  let core := fun (c : FibCore) => { c with
    readings := c.readings.map fun r => { r with gap := r.gap.map entry }
    prev := c.prev.map fun p => (p.1 + d, p.2), split := c.split.map (· + d)
    uns := c.uns.map fun u => { u with since := u.since + d } }
  { h with
    core := core h.core, start := h.start + d, last := h.last.map fun l => (l.1 + d, l.2), settle := h.settle + d, disagree := h.disagree.map (· + d)
    leg := { h.leg with since := h.leg.since.map (· + d), edge := h.leg.edge.map (· + d) }
    kept := h.kept.map fun k => { ev := { k.ev with t := k.ev.t + d }, snap := core k.snap, instant := k.instant + d } }

end Sys2Proof.Machine
end

