-- ==== Sys2Proof/Machine/Sections.lean ====
section
/-!
DEFINITION. An evaluation channel as a pure function of what reaches it: section counts, the Clear condition, the six section
states, resets, blocks, die silence and replay (Counting Points, Sections and Their States, R212 to R223, R576).
-/
namespace Sys2Proof.Machine

def Channel.head (g : Channel) (cp : Nat) : Head := tget g.heads {} cp
def Channel.setHead (g : Channel) (cp : Nat) (h : Head) : Channel := { g with heads := tset g.heads cp h }
def Channel.sec (g : Channel) (n : Nat) : Sec := tget g.secs {} n
def Channel.setSec (g : Channel) (n : Nat) (x : Sec) : Channel := { g with secs := tset g.secs n x }
def Channel.note (g : Channel) (n : ChanNote) : Channel := { g with notes := g.notes ++ [n] }

def ChanCfg.cp (c : ChanCfg) (n : Nat) : CpCfg := tget c.cps {} n
def ChanCfg.sec (c : ChanCfg) (n : Nat) : SecCfg := tget c.secs {} n

/-- Whether a counting point or a section is in use. -/
def ChanCfg.cpUsed (c : ChanCfg) (n : Nat) : Bool := (tfind c.cps n).isSome
def ChanCfg.secUsed (c : ChanCfg) (n : Nat) : Bool := (tfind c.secs n).isSome

/-- The rule of a counting point's head. -/
def Channel.rule (g : Channel) (cp : Nat) : HeadRule := g.cfg.rule (g.cfg.cp cp) (g.head cp)

/-- The counting points in use, and the sections. -/
def Channel.cpsUsed (g : Channel) : List Nat := g.cfg.cps.map (·.1)
def Channel.secsUsed (g : Channel) : List Nat := g.cfg.secs.map (·.1)

/-- The counting points with a sensor on a die, or in one span of it. -/
def ChanCfg.onDie (c : ChanCfg) (d : Nat) : List Nat :=
  (c.cps.filter fun (_, p) => (p.sa.any (·.die == d)) || (p.sb.any (·.die == d))).map (·.1)
def ChanCfg.inSpan (c : ChanCfg) (d home : Nat) : List Nat :=
  let at' := fun (x : SenPlace) => x.die == d && x.home == home
  (c.cps.filter fun (_, p) => p.sa.any at' || p.sb.any at').map (·.1)

/-- The counting point that legacy head `lh` serves. -/
def ChanCfg.ofLegacy (c : ChanCfg) (lh : Nat) : Option Nat :=
  (c.cps.find? fun (_, p) => p.kind != .fibre && p.lh == lh).map (·.1)

/-- Where the sensor of a counting point's system lies. -/
def CpCfg.sensor (p : CpCfg) (sys : Nat) : Option SenPlace := if sys = 0 then p.sa else p.sb

/-! ### Counts and the Clear condition (R216, R217) -/

/-- Sum of the high and low figures of a section's boundary entries. -/
def Channel.figures (g : Channel) (n : Nat) : Int × Int :=
  (g.cfg.sec n).bound.foldl (fun (hi, lo) (cp, side) =>
    let f := (g.head cp).figures (g.cfg.cp cp).kind side
    (hi + f.1, lo + f.2)) (0, 0)

/-- High and low count of a section (R216). -/
def Channel.counts (g : Channel) (n : Nat) : Int × Int :=
  let f := g.figures n
  (clampInt (-32768) 32767 (f.1 + (g.sec n).offHi), clampInt (-32768) 32767 (f.2 + (g.sec n).offLo))

/-- Both counts set to 0. -/
def Channel.zero (g : Channel) (n : Nat) : Channel :=
  let f := g.figures n
  g.setSec n { g.sec n with offHi := -f.1, offLo := -f.2, sweep := 0 }

/-- A boundary head is faulty, or holding. -/
def Channel.headFaulty (g : Channel) (n : Nat) : Bool := (g.cfg.sec n).bound.any fun (cp, _) => (g.head cp).faulty
def Channel.headHolding (g : Channel) (n : Nat) : Bool := (g.cfg.sec n).bound.any fun (cp, _) => (g.head cp).holding (g.rule cp)

/-- The horizon has passed the settle time of every event applied to a boundary head. -/
def Channel.settled (g : Channel) (n : Nat) : Bool := (g.cfg.sec n).bound.all fun (cp, _) => decide ((g.head cp).settle ≤ g.hz)

/-- The Clear condition of R217. -/
def Channel.clearCond (g : Channel) (n : Nat) : Bool :=
  g.counts n == (0, 0) && !g.headFaulty n && !g.headHolding n && g.settled n

/-! ### Section states (R218, R219) -/

/-- A section takes a state; a change to Clear keeps its instant unless it is the return from an Occupied-held. -/
def Channel.goto (g : Channel) (n : Nat) (st : SecSt) (keep : Bool := false) : Channel :=
  let x := g.sec n
  if x.st = st then g
  else
    (g.setSec n { x with st := st, clearAt := if st = .clear ∧ !keep then some g.hz else x.clearAt }).note (.change n)

/-- A disturbance with its cause: acted on, or recorded while Blocked (R218, R219). -/
def Channel.disturb (g : Channel) (n cause : Nat) : Channel :=
  let x := g.sec n
  if x.st = .blocked then g.setSec n { x with recorded := cause }
  else if x.st = .disturbed then g
  else
    let g := g.setSec n { x with cause := cause, prior := none }
    let g := if x.st = .pending then g.note (.sec 4) else g
    (g.goto n .disturbed).note (.sec 0)

/-- A boundary counting point of the section has a sensor on a silent die. -/
def Channel.onSilent (g : Channel) (n : Nat) : Bool :=
  (g.cfg.sec n).bound.any fun (cp, _) =>
    let p := g.cfg.cp cp
    let on := fun (x : SenPlace) => g.silent.contains x.die
    p.sa.any on || p.sb.any on

/-- The rows of R218 that need no command, in order; `full`: with the rows of the Clear condition and of the sweep. -/
def Channel.update (g : Channel) (full : Bool) (n : Nat) : Channel :=
  let x := g.sec n
  if x.st = .disturbed then g
  else
    let (hi, lo) := g.counts n
    if hi < 0 then g.disturb n 3
    else if 4095 < lo then g.disturb n 4
    else if x.st = .blocked then g
    else
      let g := g.setSec n { x with sweep := if x.st = .pending ∨ x.prior = some .pending then max x.sweep lo.toNat else x.sweep }
      if x.st ≠ .held ∧ g.onSilent n then
        ((g.setSec n { g.sec n with prior := some x.st }).goto n .held).note (.sec 1)
      else if !full then g
      else
        let ok := g.clearCond n
        match x.st with
        | .pending => if ok && decide (1 ≤ (g.sec n).sweep) then (g.goto n .clear).note (.sec 3) else g
        | .clear => if ok then g else g.goto n .occupied
        | .occupied => if ok then g.goto n .clear else g
        | _ => g

/-- Every section in use is re-evaluated. -/
def Channel.updateAll (g : Channel) (full : Bool) : Channel := g.secsUsed.foldl (fun g n => g.update full n) g

/-! ### What happens at a head (R211, R218) -/

/-- A head's new state: its reports go out, and a fault disturbs its sections with `cause`. -/
def Channel.putHead (g : Channel) (cp : Nat) (h : Head) (cause : Nat := 2) : Channel :=
  let was := (g.head cp).faulty
  let g := { g.setHead cp { h with evts := [] } with notes := g.notes ++ h.evts.reverse.map ChanNote.cpt }
  if h.faulty && !was then (g.cfg.cp cp).bounds.foldl (fun g (n, _) => g.disturb n cause) (g.note (.fault cp)) else g

/-- Faults a list of counting points in use (R212, R223). -/
def Channel.faultHeads (g : Channel) (cps : List Nat) (code : Nat) : Channel :=
  cps.foldl (fun g cp =>
    if g.cfg.cpUsed cp then g.putHead cp ((g.head cp).fault code) (if code = 11 then 5 else 2) else g) g

/-- After a head has changed: a fused head's quiet rule, then its sections; `full` on the ledger. -/
def Channel.headDone (g : Channel) (full : Bool) (cp : Nat) (h : Head) : Channel :=
  let h := if (g.cfg.cp cp).kind = .fused then h.fuse g.hz else h
  let g := g.putHead cp h
  (g.cfg.cp cp).bounds.foldl (fun g (n, _) => g.update full n) g

/-- When a section of the head last became Clear. -/
def Channel.lastClear (g : Channel) (cp : Nat) : Option Nat :=
  ((g.cfg.cp cp).bounds.filterMap fun (n, _) => (g.sec n).clearAt).max?

/-- The settle time of an event of R208. -/
def ChanCfg.settleOf (c : ChanCfg) (p : CpCfg) (kind tpl : Nat) : Nat :=
  tget c.settle 0 (16 * p.port + (if kind = 0 then tpl else 0))

/-- A released wheel event at its head (R200, R207). -/
def Channel.wheelEvent (g : Channel) (full : Bool) (cp : Nat) (ev : HeadEvent) : Channel :=
  if !g.cfg.cpUsed cp then g
  else
    let p := g.cfg.cp cp
    g.headDone full cp ((g.head cp).apply (g.rule cp) (g.cfg.settleOf p ev.kind ev.tpl) g.hz (g.lastClear cp) ev)

/-- A released legacy-head event at its head (R194). -/
def Channel.legacyEvent (g : Channel) (full : Bool) (lh sys kind cause : Nat) (out : Bool) (t : Nat) : Channel :=
  match g.cfg.ofLegacy lh with
  | none => g
  | some cp => g.headDone full cp ((g.head cp).legacy g.cfg.td sys kind cause out t)

/-- A released event's 32 bytes at the channel: dies 0 to 3 by R185, FD by R291. -/
def Channel.event (g : Channel) (full : Bool) (src : Nat) (b : List Byte) : Channel :=
  let emit := leNat (bytesAt b 0 8)
  let t := emit - leNat (bytesAt b 8 4)
  let id := leNat (bytesAt b 16 2)
  let g := { g with hz := max g.hz emit }
  if src = 4 then
    g.legacyEvent full (id % 32) (id / 32 % 2) (id / 64 % 8) (id / 512 % 8) (id / 4096 % 2 == 1) t
  else
    g.wheelEvent full (id % 4096)
      { sys := id / 4096 % 2, kind := id / 8192, t := t, v := leNat (bytesAt b 18 2)
        tpl := leNat (bytesAt b 20 4) / 2 ^ 20 % 16, usable := leNat (bytesAt b 26 2) / 2048 % 2 == 1 }

/-- The horizon moves on. -/
def Channel.horizon (g : Channel) (h : Nat) : Channel := { g with hz := max g.hz h }

/-- The counting points faulted for a discarded event or a sequence gap (R212): those of the span that the named lane serves, else
all of the die, and the one the event names. -/
def Channel.dataFault (g : Channel) (d : Nat) (span : Option Nat) (cp : Nat) : Channel :=
  let cps := match span with | some home => g.cfg.inSpan d home | none => g.cfg.onDie d
  g.faultHeads (if cps.contains cp then cps else cps ++ [cp]) 6

/-- A discarded legacy event, or a gap in its sequence (R212, R292). -/
def Channel.legacyDataFault (g : Channel) (lh : Nat) : Channel :=
  match g.cfg.ofLegacy lh with
  | some cp => g.faultHeads [cp] 6
  | none => g

/-- A span becomes unavailable or available again (R157, R206). -/
def Channel.spanAvailable (g : Channel) (full : Bool) (d home : Nat) (on : Bool) (t : Nat) : Channel :=
  (g.cfg.inSpan d home).foldl (fun g cp =>
    let p := g.cfg.cp cp
    let place : SenPlace := { die := d, home := home }
    let h := g.head cp
    let h := if p.sa = some place then h.available g.cfg p 0 on t else h
    let h := if p.sb = some place then h.available g.cfg p 1 on t else h
    g.headDone full cp h) g

/-- The channel learns how FD's comparator channels of some legacy heads stand (R196, R287). -/
def Channel.learnInputs (g : Channel) (full : Bool) (lhs : List Nat) (view : Nat → InputView) : Channel :=
  lhs.foldl (fun g lh =>
    match g.cfg.ofLegacy lh with
    | some cp => g.headDone full cp ((g.head cp).inputs (view (2 * lh)) (view (2 * lh + 1)))
    | none => g) g

/-- The channel learns the states of the sensors, and the silent dies, from the other one (R576). -/
def Channel.learnSensors (g : Channel) (full : Bool) (other : Channel) (silent : List Nat) : Channel :=
  { g with silent := silent }.cpsUsed.foldl (fun g cp =>
    g.headDone full cp ((g.head cp).sensors g.cfg (g.cfg.cp cp) g.hz (other.head cp))) { g with silent := silent }

/-- The dies have been reset: every head with sensors starts again and waits for them (R576). -/
def Channel.diesFresh (g : Channel) : Channel :=
  { g with heads := g.cfg.cps.map fun (cp, p) =>
      let h := g.head cp
      (cp, if p.kind = .legacy then h
        else Head.fresh g.hz g.cfg p { h with unaA := false, unaB := false, core := { h.core with senA := .filling, senB := .filling } }) }

/-! ### Time-driven head rules -/

/-- A legacy disagreement has reached T_D at time `t` (R195). -/
def Channel.discrepancy (g : Channel) (full : Bool) (lh t : Nat) : Channel :=
  match g.cfg.ofLegacy lh with
  | none => g
  | some cp => g.headDone full cp ((g.head cp).discrepancy g.cfg.td t)

/-- More than one reading has stayed live for RESOLVE_MAX (R203). -/
def Channel.unresolved (g : Channel) (full : Bool) (cp t : Nat) : Channel :=
  let h := g.head cp
  match h.core.split with
  | some u => if g.cfg.cpUsed cp && !h.faulty && decide (g.cfg.resolve * 1000000000 ≤ t - u) then g.headDone full cp (h.fault 4) else g
  | none => g

/-- A disagreement has lasted FUSE_WIN (R210). -/
def Channel.disagree (g : Channel) (full : Bool) (cp t : Nat) : Channel :=
  let h := g.head cp
  match h.disagree with
  | some u => if g.cfg.cpUsed cp && !h.faulty && decide (g.cfg.fuse * 1000000 ≤ t - u) then g.headDone full cp (h.fault 10) else g
  | none => g

/-- A faulty head whose cause is gone goes back into service (R213). -/
def Channel.headBack (g : Channel) (full : Bool) (cp : Nat) : Channel :=
  let h := g.head cp
  if g.cfg.cpUsed cp && h.faulty && h.back (g.rule cp) then
    (g.headDone full cp (h.restart (g.cfg.cp cp).kind g.hz)).note (.cpt 1)
  else g

/-! ### Start and commit (R5, R272, R405, R576) -/

/-- The oldest waiting direct reset of a section ends with a result; `code` is the command's result code. -/
def Channel.endReset (g : Channel) (n code : Nat) : Channel :=
  match (g.sec n).wait with
  | [] => g
  | (_, c) :: rest =>
    let g := { g.setSec n { g.sec n with wait := rest } with done := g.done ++ [(c, code)] }
    if code = 0 then g else g.note (.sec 4)

/-- All waiting direct resets of a section, or of every section, end with a result. -/
def Channel.endResetsOf (g : Channel) (n code : Nat) : Channel := (g.sec n).wait.foldl (fun g _ => g.endReset n code) g
def Channel.endResets (g : Channel) (code : Nat) : Channel := (g.secs.map (·.1)).foldl (fun g n => g.endResetsOf n code) g

/-- The waiting direct resets of some commands end with a result (R347). -/
def Channel.endResetsIf (g : Channel) (p : QueuedCmd → Bool) (code : Nat) : Channel :=
  g.secs.foldl (fun (g : Channel) (e : Nat × Sec) =>
    let (gone, kept) := (g.sec e.1).wait.partition fun (w : Nat × QueuedCmd) => p w.2
    let g := { g.setSec e.1 { g.sec e.1 with wait := kept } with done := g.done ++ gone.map fun (w : Nat × QueuedCmd) => (w.2, code) }
    if code = 0 then g else gone.foldl (fun g _ => g.note (.sec 4)) g) g

/-- Direct resets older than 10 s at time `t` end with a result (R221, R222). -/
def Channel.resetTimeout (g : Channel) (n t code : Nat) : Channel :=
  ((g.sec n).wait.filter fun (u, _) => decide (u + 10000000000 < t)).foldl (fun g _ => g.endReset n code) g

/-- The channel starts as at power-up (R5, R197, R272): every section Disturbed, every head started afresh. `stateCode` ends the
waiting direct resets (R320). -/
def Channel.powerUp (g : Channel) (stateCode : Nat) : Channel :=
  let g := g.endResets stateCode
  { g with
    heads := g.cfg.cps.map fun (cp, p) => (cp, Head.fresh g.hz g.cfg p (g.head cp))
    secs := g.cfg.secs.map fun (n, _) => (n, {})
    edges := [], served := false
    notes := g.notes ++ (if g.cfg.secs.isEmpty then [] else [ChanNote.sec 0]) ++
      (g.secsUsed.filter fun n => (g.sec n).st != SecSt.disturbed).map ChanNote.change }

/-- A structure takes effect (R405): heads whose counting point or limits change start afresh, others go on; a section new to
the structure, and every other affected one, is Blocked and records the commit. -/
def Channel.commit (g : Channel) (cfg : ChanCfg) (affected : List Nat) (stateCode : Nat) : Channel :=
  let old := g.cfg
  let same := fun (cp : Nat) (p : CpCfg) => tfind old.cps cp == some p &&
    { old with cps := [], secs := [], settle := [] } == { cfg with cps := [], secs := [], settle := [] } &&
    (List.range 16).all fun t => tget old.settle 0 (16 * p.port + t) == tget cfg.settle 0 (16 * p.port + t)
  let g := (g.secsUsed.filter fun n => !cfg.secUsed n).foldl (fun g n => g.endResetsOf n stateCode) g
  let g := { g with
    cfg := cfg
    heads := cfg.cps.map fun (cp, p) => (cp, if same cp p then g.head cp else Head.fresh g.hz cfg p (g.head cp)) }
  let g := { g with
    secs := cfg.secs.map fun (e : Nat × SecCfg) =>
      let n := e.1
      (n, if !old.secUsed n then { st := .blocked, cause := 0, commit := true }
        else if affected.contains n then
          let x := g.sec n
          if x.st = SecSt.blocked then { x with commit := true } else { x with st := .blocked, commit := true, recorded := 0, prior := none }
        else g.sec n)
    notes := g.notes ++ (cfg.secs.filter fun (e : Nat × SecCfg) =>
      !old.secUsed e.1 || (affected.contains e.1 && (g.sec e.1).st != SecSt.blocked)).map fun (e : Nat × SecCfg) => ChanNote.change e.1 }
  g.updateAll false

/-! ### Silence and replay (R218, R223) -/

/-- A die link is declared silent: its sections become Occupied-held. -/
def Channel.dieSilent (g : Channel) (d : Nat) : Channel :=
  { g with silent := if g.silent.contains d then g.silent else d :: g.silent }.updateAll false

/-- A silence ends in an accepted replay: held sections return to the state they had, then the rows apply. -/
def Channel.replayed (g : Channel) (full : Bool) (d : Nat) : Channel :=
  let g := { g with silent := g.silent.erase d }.note (.sec 2)
  g.secsUsed.foldl (fun g n =>
    let x := g.sec n
    if x.st = .held ∧ !g.onSilent n then
      ((g.setSec n { x with prior := none }).goto n (x.prior.getD .occupied) true).update full n
    else g) g

/-- A silence ends in a failed replay: every head with a sensor on the die faults with REPLAY. -/
def Channel.replayFailed (g : Channel) (d : Nat) : Channel :=
  { g with silent := g.silent.erase d }.faultHeads (g.cfg.onDie d) 11

/-! ### Commands and resets (R220 to R222) -/

/-- Results of section commands, as the channel names them. -/
inductive SecResult where
  | ok | waitEdge | state | headFault | noInput | held
deriving DecidableEq, Repr

/-- A direct reset completes: both counts are set to 0 and the section is Clear. -/
def Channel.resetDone (g : Channel) (n : Nat) : Channel := ((g.zero n).goto n .clear).note (.sec 3)

/-- Whether a time lies within 10 s of another (R221), 10.000 s included. -/
def near10 (a b : Nat) : Bool := decide (max a b - min a b ≤ 10000000000)

/-- SEC_RESET_PREP (R220). -/
def Channel.resetPrep (g : Channel) (n : Nat) : Channel × SecResult :=
  let x := g.sec n
  if x.st = .held then (g.note (.sec 4), .held)
  else if x.st ≠ .disturbed ∧ x.st ≠ .pending then (g.note (.sec 4), .state)
  else if g.headFaulty n then (g.note (.sec 4), .headFault)
  else ((g.zero n).goto n .pending, .ok)

/-- SEC_RESET_DIRECT at time `t` (R221); it waits for its edge, unless one lies at most 10 s back. -/
def Channel.resetDirect (g : Channel) (n t : Nat) (c : QueuedCmd) : Channel × SecResult :=
  let x := g.sec n
  match (g.cfg.sec n).rstin with
  | none => (g.note (.sec 4), .noInput)
  | some i =>
    if x.st = .held then (g.note (.sec 4), .held)
    else if x.st ≠ .disturbed then (g.note (.sec 4), .state)
    else if g.headFaulty n || g.headHolding n then (g.note (.sec 4), .headFault)
    else
      match tfind g.edges i with
      | some e => if near10 e t then (g.resetDone n, .ok) else (g.setSec n { x with wait := x.wait ++ [(t, c)] }, .waitEdge)
      | none => (g.setSec n { x with wait := x.wait ++ [(t, c)] }, .waitEdge)

/-- SEC_BLOCK (R218): allowed in every other state. -/
def Channel.block (g : Channel) (n : Nat) : Channel × SecResult :=
  let x := g.sec n
  if x.st = .blocked then (g, .state)
  else
    let was := x.st = .disturbed ∨ x.st = .pending
    ((g.setSec n { x with recorded := if was then max 1 x.cause else 0, commit := false, prior := none }).goto n .blocked, .ok)

/-- SEC_UNBLOCK (R218). -/
def Channel.unblock (g : Channel) (full : Bool) (n : Nat) : Channel × SecResult :=
  let x := g.sec n
  if x.st ≠ .blocked then (g, .state)
  else if x.commit ∨ x.recorded ≠ 0 then
    let g := g.setSec n { x with cause := if x.commit then 6 else x.recorded, recorded := 0, commit := false }
    ((g.goto n .disturbed).note (.sec 0), .ok)
  else ((g.goto n (if g.clearCond n then .clear else .occupied)).update full n, .ok)

/-- A reset-input edge outside Safe-stop (R221, R320): every direct reset pending on the input within the window ends on its own
section; `codes`: the result codes of OK, STATE and HEAD_FAULT. -/
def Channel.edge (g : Channel) (input t : Nat) (codes : Nat × Nat × Nat) : Channel :=
  let g := { g with edges := tset g.edges input t }
  g.secsUsed.foldl (fun g n =>
    if (g.cfg.sec n).rstin ≠ some input then g
    else
      ((g.sec n).wait.filter fun (u, _) => near10 u t).foldl (fun g _ =>
        if (g.sec n).st ≠ .disturbed then g.endReset n codes.2.1
        else if g.headFaulty n || g.headHolding n then g.endReset n codes.2.2
        else (g.resetDone n).endReset n codes.1) g) g

/-! ### Queries -/

def SecSt.code : SecSt → Nat
  | .clear => 0 | .occupied => 1 | .held => 2 | .disturbed => 3 | .pending => 4 | .blocked => 5

/-- The 4-bit state code of a section: Fh for an unused one. -/
def Channel.code (g : Channel) (n : Nat) : Nat := if g.cfg.secUsed n then (g.sec n).st.code else 15

/-- The section states of a channel: code by section number, sections in use only. -/
def Channel.states (g : Channel) : Table Nat := g.cfg.secs.map fun (n, _) => (n, (g.sec n).st.code)

/-- The time shift of a town-clock step (R43). -/
def Channel.shift (d : Nat) (g : Channel) : Channel :=
  { g with
    hz := g.hz + d
    heads := g.heads.map fun (cp, h) => (cp, h.shift d)
    secs := g.secs.map fun (n, x) =>
      (n, { x with wait := x.wait.map (fun (t, c) => (t + d, c)), clearAt := x.clearAt.map (· + d) })
    edges := g.edges.map fun (i, t) => (i, t + d) }

end Sys2Proof.Machine
end

