-- ==== Sys2Proof/Machine/FieldIn.lean ====
section
/-!
DEFINITION. The field die's inputs: comparator channels, legacy-head events, the main converter, field safety inputs and
comparator calibration (Field Die Inputs, R278 to R302; Calibration, R486 to R488).
-/
namespace Sys2Proof.Machine

def State.setFdin (s : State) (f : FieldInputs → FieldInputs) : State := { s with fdin := f s.fdin }
def State.wsc (s : State) (k : Nat) : Wsc := tget s.fdin.chans {} k
def State.setWsc (s : State) (k : Nat) (w : Wsc) : State := s.setFdin fun f => { f with chans := tset f.chans k w }
def State.fsi (s : State) (i : Nat) : FieldIn := tget s.fdin.fsi {} i
def State.bfb (s : State) (c : Nat) : FieldIn := tget s.fdin.bfb {} c

/-- Fields of CFG0 to CFG2. -/
def State.wscThr (s : State) (k : Nat) : Nat := fld (s.reg (Reg.FD_WSC_CFG0 k)) 0 10
def State.wscHys (s : State) (k : Nat) : Nat := fld (s.reg (Reg.FD_WSC_CFG0 k)) 10 7
def State.wscLow (s : State) (k : Nat) : Bool := bitOf (s.reg (Reg.FD_WSC_CFG0 k)) 17
def State.wscAbs (s : State) (k : Nat) : Bool := decide (k < 8) && bitOf (s.reg (Reg.FD_WSC_CFG0 k)) 18
def State.wscM (s : State) (k : Nat) : Nat := fld (s.reg (Reg.FD_WSC_CFG2 k)) 0 4
def State.wscN (s : State) (k : Nat) : Nat := fld (s.reg (Reg.FD_WSC_CFG2 k)) 4 4

/-- Set a bit of FD_WSC_EVT. -/
def State.wscEvt (s : State) (i : Nat) : State := s.setEvt Reg.FD_WSC_EVT i

/-! ### Legacy-head events (R286, R291) -/

/-- FD takes an event of channel `k` at time `t`: it waits for its turn, and the channel's event source is raised (R293). -/
def State.legacyHold (s : State) (k kind cause t : Nat) (stale : Bool) : State :=
  let e : HeldLegacy := { t := t, sys := k % 2, kind := kind, cause := cause, out := (s.wsc k).out, stale := stale }
  let x := tget s.fdin.legs {} (k / 2)
  (s.setFdin fun f => { f with legs := tset f.legs (k / 2) { x with held := insertBy (fun h => 2 * h.t + h.sys) e x.held } }).raise
    (256 + k) (lo32 k)

/-- No edge with an earlier event time can arise any more, of either system; of equal times system a goes first (R286). -/
def State.legacyDue (s : State) (lh : Nat) (e : HeldLegacy) : Bool :=
  let at' := fun (sys : Nat) => e.t + (s.wscN (2 * lh + sys) - 1) * 500
  decide (at' e.sys ≤ s.tc.fd) && if e.sys = 0 then decide (at' 1 ≤ s.tc.fd) else decide (at' 0 < s.tc.fd)

/-- FD emits the head's first held event once no edge of the other system with an earlier stamp can arise (R286). -/
def legacyEventEmit (lh : Nat) (s : State) : State :=
  let x := tget s.fdin.legs {} lh
  match x.held with
  | [] => s
  | e :: rest =>
    if !s.fdUp || !s.legacyDue lh e then s
    else
      let id := lh + 32 * e.sys + 64 * e.kind + 512 * e.cause + 4096 * b2n e.out + 8192 * b2n e.stale + 16384 * b2n s.tc.fdDegraded
      let level := fld (s.reg (Reg.FD_ADC_WS (2 * lh + e.sys))) 0 16
      let body := leBytes 8 s.tc.fd ++ leBytes 4 (min 0xFFFFFFFF (s.tc.fd - e.t)) ++ leBytes 4 x.seq ++ leBytes 2 id ++
        leBytes 2 level ++ leBytes 8 0
      (s.setFdin fun f => { f with legs := tset f.legs lh { held := rest, seq := (x.seq + 1) % 2 ^ 32 } }).send
        (.event 4 (withCheck 4 lh body))

/-! ### Samples (R281, R282, R300) -/

/-- How many of the last samples in a row pass. -/
def trailing {α : Type} (count : α → Nat) (p : α → Bool) (l : List α) : Nat :=
  ((l.reverse.takeWhile p).map count).foldl (· + ·) 0

/-- The number of samples of a list of runs. -/
def samplesOf (l : List WsRun) : Nat := trailing WsRun.count (fun _ => true) l

/-- A level lies below a code, or above it: 1,024 × V(WS) ÷ V(WREF), or V(WS) ÷ 4 mV in absolute mode (R281). -/
def wsBelow (abs : Bool) (x : WsRun) (c : Nat) : Bool := if abs then decide (x.pin < c * 4000) else decide (1024 * x.pin < c * x.ref)
def wsAbove (abs : Bool) (x : WsRun) (c : Nat) : Bool := if abs then decide (c * 4000 < x.pin) else decide (c * x.ref < 1024 * x.pin)

/-- A sample's class (R282): damped, free, or neither. -/
def State.wscClass (s : State) (k : Nat) (x : WsRun) : Option Bool :=
  let abs := s.wscAbs k
  if wsBelow abs x (s.wscThr k - s.wscHys k) then some (s.wscLow k)
  else if wsAbove abs x (s.wscThr k + s.wscHys k) then some (!s.wscLow k)
  else none

/-- The channel's samples since its filter last began: at its enable, or at the end of a hold (R287, R290). -/
def State.wscTaken (s : State) (k : Nat) : Nat :=
  let w := s.wsc k
  (s.now - max (w.en.getD 0) (w.refill.getD 0)) / 500 + 1

/-- The last `n` of the samples. -/
def lastSamples (n : Nat) (runs : List WsRun) : List WsRun :=
  let l := runs.flatMap fun x => List.replicate (min x.count n) x
  l.drop (l.length - n)

/-- The present sample's time on FD's copy of the town clock, which it samples by (R282, R285). -/
def State.wscTick (s : State) : Nat := s.tc.fd / 500 * 500

/-! ### The filter (R284, R285, R287, R288, R290) -/

/-- What the filter produces from its last M samples: damped, free, or nothing new (R284). After a hold it produces nothing before it has
refilled with M new samples (R290). -/
def State.wscFilter (s : State) (k : Nat) (runs : List WsRun) : Option Bool :=
  let w := s.wsc k
  let n := s.wscTaken k
  if w.refill.isSome && decide (n < s.wscM k) then none
  else
    let l := (lastSamples (min (s.wscM k) n) runs).map (s.wscClass k)
    if s.wscN k ≤ countOf l (· == some true) then some true
    else if s.wscN k ≤ countOf l (· == some false) then some false
    else none

/-- The samples show a dwell of more than 2 s (R288): from the channel's enable where they reach back to it, else over every sample whose
M samples they hold. -/
def State.wscDwells (s : State) (k : Nat) (runs : List WsRun) : Bool :=
  let m := s.wscM k
  let n := samplesOf runs
  let taken := s.wscTaken k
  let l := (runs.flatMap fun x => List.replicate (min x.count m) x).map (s.wscClass k)
  let wins := (List.range l.length).map fun i => (l.take (i + 1)).drop (i + 1 - m)
  let judged := if taken ≤ n then wins else wins.drop (m - 1)
  let span := if taken ≤ n then taken - 1 else n - m
  decide (2000000000 < span * 500) &&
    judged.all fun x => decide (countOf x (· == some true) < s.wscN k) && decide (countOf x (· == some false) < s.wscN k)

/-- WIN_LO, WIN_HI, and WIN_T in ns. -/
def State.winLo (s : State) (k : Nat) : Nat := fld (s.reg (Reg.FD_WSC_CFG1 k)) 0 10
def State.winHi (s : State) (k : Nat) : Nat := fld (s.reg (Reg.FD_WSC_CFG1 k)) 16 10
def State.winT (s : State) (k : Nat) : Nat := fld (s.reg (Reg.FD_WSC_CFG2 k)) 8 8 * 100000

/-- The last samples that pass span at least a time. -/
def spans (t : Nat) (p : WsRun → Bool) (runs : List WsRun) : Bool := decide (t < trailing WsRun.count p runs * 500)

/-- Level outside the window at every sample for WIN_T; `low`: below it (R289 codes 1h and 2h). -/
def State.outOfWindow (s : State) (k : Nat) (low : Bool) (runs : List WsRun) : Bool :=
  spans (s.winT k) (fun x => if low then wsBelow (s.wscAbs k) x (s.winLo k) else wsAbove (s.wscAbs k) x (s.winHi k)) runs

/-- Level from WIN_LO to WIN_HI at every sample for 100 ms. -/
def State.inWindow (s : State) (k : Nat) (runs : List WsRun) : Bool :=
  spans 100000000 (fun x => !wsBelow (s.wscAbs k) x (s.winLo k) && !wsAbove (s.wscAbs k) x (s.winHi k)) runs

/-- Capture stamp of an edge found at the present sample (R285). -/
def State.wscStamp (s : State) (k : Nat) : Nat := s.wscTick - (s.wscN k - 1) * 500

/-- A channel's output takes a value: the latch follows a damped one (R293). -/
def Wsc.output (w : Wsc) (damped : Bool) (now : Nat) : Wsc :=
  { w with out := damped, latch := w.latch || damped, freeAt := if damped then none else some now }

/-- A fault of a channel is set (R289): its FAULT event. -/
def State.wscFault (s : State) (k code : Nat) : State :=
  let w := s.wsc k
  if w.en.isNone || w.faults.contains code then s
  else ((s.setWsc k { w with faults := insertBy id code w.faults }).wscEvt 1).legacyHold k 2 code s.wscTick false

/-- A fault of a channel ends: its FAULT_END event. -/
def State.wscFaultEnd (s : State) (k code : Nat) : State :=
  let w := s.wsc k
  if !w.faults.contains code then s
  else ((s.setWsc k { w with faults := w.faults.erase code }).wscEvt 2).legacyHold k 3 code s.wscTick false

/-- In Watch a wake channel that becomes damped sends one wake request (R294). -/
def State.wscWake (s : State) (k : Nat) : State :=
  let w := s.wsc k
  if s.dev == .watch && bitOf (s.reg (Reg.FD_WSC_CFG2 k)) 17 && w.out && !w.woke then
    ((s.setWsc k { w with woke := true }).setFdin fun f => { f with wakes := f.wakes ++ [k] }).wscEvt 4
  else s

/-- The filter produces an output: the first one settles the channel (R287), a new one is an edge (R284), and either ends a dwell fault
(R288). A FAULT_END carries the output after it (R291). -/
def State.wscTake (s : State) (k : Nat) (damped : Bool) : State :=
  let w := s.wsc k
  if !w.settled then
    let s := (s.setWsc k ({ w with settled := true }.output damped s.now)).wscFaultEnd k 3
    ((s.wscEvt 3).legacyHold k 4 0 s.wscTick false).wscWake k
  else if damped = w.out then s.wscFaultEnd k 3
  else
    let t := s.wscStamp k
    let stale := match w.refill with | some u => decide (s.now < u + s.wscM k * 500) | none => false
    let s := s.setWsc k ({ w with edges := (w.edges + 1) % 2 ^ 24, stamp := t }.output damped s.now)
    let s := ((s.wscEvt 0).when stale (·.wscEvt 5)).wscFaultEnd k 3
    (s.legacyHold k (if damped then 0 else 1) 0 t stale).wscWake k

/-- The channel's filter runs: enabled, not held by calibration or by a REF fault. -/
def State.wscRuns (s : State) (k : Nat) : Bool :=
  let w := s.wsc k
  s.fdUp && w.en.isSome && !w.stale && !w.faults.contains 5

/-- The filter produces its first output (R287). -/
def channelSettle (k : Nat) (runs : List WsRun) (s : State) : State :=
  if s.wscRuns k && !(s.wsc k).settled then match s.wscFilter k runs with | some d => s.wscTake k d | none => s
  else s

/-- The filter changes its output (R284). -/
def legacyEdge (k : Nat) (runs : List WsRun) (s : State) : State :=
  if s.wscRuns k && (s.wsc k).settled then match s.wscFilter k runs with | some d => s.wscTake k d | none => s
  else s

/-- Dwell for more than 2 s (R288). -/
def channelDwellFault (k : Nat) (runs : List WsRun) (s : State) : State :=
  if s.wscRuns k && s.wscDwells k runs then s.wscFault k 3 else s

/-- Level outside the window for WIN_T (R289). -/
def channelWindowFault (k : Nat) (low : Bool) (runs : List WsRun) (s : State) : State :=
  if s.fdUp && !(s.wsc k).stale && s.outOfWindow k low runs then s.wscFault k (if low then 2 else 1) else s

/-- The end of an OPEN or SHORT fault, or of a DWELL fault with the filter's next output (R288, R289); DAC and REF faults end by their
counts in the converter's frames. -/
def channelFaultEnd (k code : Nat) (runs : List WsRun) (s : State) : State :=
  if code = 3 then
    if s.wscRuns k && (s.wsc k).faults.contains 3 then match s.wscFilter k runs with | some d => s.wscTake k d | none => s
    else s
  else if s.fdUp && !(s.wsc k).stale && decide (code ≤ 2) && s.inWindow k runs then s.wscFaultEnd k code
  else s

/-- A latch clear: the latch takes the filter output (R293). -/
def State.latchClear (s : State) (k : Nat) : State := let w := s.wsc k; s.setWsc k { w with latch := w.settled && w.out }

/-- A W1C write to FD_WSC_LATCH_LO or _HI: channels with LATCH_MODE = 0 (R293). -/
def wscLatchClear (hi : Bool) (mask : Word) (s : State) : State :=
  (List.range 32).foldl (fun s i =>
    let k := i + (if hi then 32 else 0)
    if bitOf mask i && !bitOf (s.reg (Reg.FD_WSC_CFG2 k)) 16 then s.latchClear k else s) s

/-- A cycle mark clears the latches of channels with LATCH_MODE = 1. -/
def State.latchMark (s : State) : State :=
  (List.range 64).foldl (fun s k => if bitOf (s.reg (Reg.FD_WSC_CFG2 k)) 16 then s.latchClear k else s) s

/-- A channel starts as at enable (R287), or is disabled. -/
def State.wscEnable (s : State) (k : Nat) : State :=
  let w := s.wsc k
  let keep : Wsc := { trim := w.trim, calLast := w.calLast, trimAt := w.trimAt, calAt := w.calAt }
  s.setWsc k { keep with en := if bitOf (s.reg (Reg.FD_WSC_CFG0 k)) 19 then some s.now else none }

/-! ### The main converter (R295 to R299) -/

/-- A DAC readback lies within ±4 codes of its expected output (R298): `code` the DAC's setting, `rb` the readback, `ref` WREF. -/
def dacPass (abs : Bool) (code rb ref : Nat) : Bool :=
  if abs then decide (((rb * 5000 : Int) - code * 262144).natAbs ≤ 16 * 65536)
  else decide (((rb * 1024 : Int) - code * ref).natAbs ≤ 4 * ref)

/-- V(WREF) lies from 2.000 to 4.500 V: converter codes of 5 V ÷ 65,536. -/
def refInRange (code : Nat) : Bool := decide (2 * 65536 ≤ 5 * code) && decide (10 * code ≤ 9 * 65536)

/-- The DAC readbacks of a channel in one frame (R289 code 4h). -/
def State.dacFrame (s : State) (k : Nat) (a : AdcScan) : State :=
  let w := s.wsc k
  if w.en.isNone then s
  else
    let abs := s.wscAbs k
    let ref := ((a.refs.getLastD []).getD (k / 2) 0)
    let win := s.reg (Reg.FD_WSC_CFG1 k)
    let ok := dacPass abs (s.wscThr k) (a.thr.getD k 0) ref && dacPass abs (fld win 0 10) (a.lo.getD k 0) ref &&
      dacPass abs (fld win 16 10) (a.hi.getD k 0) ref
    let s := s.setWsc k { w with dacBad := if ok then 0 else w.dacBad + 1, dacGood := if ok then w.dacGood + 1 else 0 }
    if !ok && decide (2 ≤ (s.wsc k).dacBad) && !w.faults.contains 4 then (s.wscFault k 4).setEvt Reg.FD_ADC_EVT 3
    else if decide (10 ≤ (s.wsc k).dacGood) then s.wscFaultEnd k 4
    else s

/-- One scan of a ratiometric channel's reference (R289 code 5h). -/
def State.refScan (s : State) (k : Nat) (scan : List Nat) : State :=
  let w := s.wsc k
  if w.en.isNone || s.wscAbs k then s
  else
    let ok := refInRange (scan.getD (k / 2) 0)
    let s := s.setWsc k { w with refBad := if ok then 0 else w.refBad + 1, refGood := if ok then w.refGood + 1 else 0 }
    if decide (2 ≤ (s.wsc k).refBad) && !w.faults.contains 5 then (s.wscFault k 5).setEvt Reg.FD_ADC_EVT 4
    else if decide (100 ≤ (s.wsc k).refGood) then s.wscFaultEnd k 5
    else s

/-- A converter frame is complete (R297, R298). -/
def adcFrame (a : AdcScan) (s : State) : State :=
  if !s.fdUp then s
  else
    let ks := List.range 64
    let s := ks.foldl (fun s k =>
      (s.setReg (Reg.FD_ADC_WS k) (word [(0, 16, a.pins.getD k 0), (16, 16, a.thr.getD k 0)])).setReg
        (Reg.FD_ADC_WIN k) (word [(0, 16, a.lo.getD k 0), (16, 16, a.hi.getD k 0)])) s
    let s := (List.range 32).foldl (fun s i => s.setReg (Reg.FD_ADC_REF i) (lo32 ((a.refs.getLastD []).getD i 0 % 65536))) s
    let s := s.setReg Reg.FD_ADC_MISC (word [(0, 16, toField 16 a.temp), (16, 16, a.vref)])
    let s := a.refs.foldl (fun s scan => ks.foldl (fun s k => s.refScan k scan) s) s
    ks.foldl (fun s k => s.dacFrame k a) s

/-- Whether a source of a converter input is used (R296). -/
def adcSourceUsed (input src : Nat) : Bool :=
  decide (input < 64) || (decide (input < 96) && (decide (src < 3) || decide (input < 68)))

/-- A Maintainer's conversion request (R299). -/
def adcRequest (v : Word) (s : State) : State :=
  let r : AdcReq := { input := fld v 0 7, src := fld v 7 2, avg := fld v 9 8 }
  if !s.fdUp || s.fdin.req.isSome || !adcSourceUsed r.input r.src then s.setEvt Reg.FD_ADC_EVT 1
  else (s.setFdin fun f => { f with req := some r }).setReg Reg.FD_ADC_REQ_RESULT (putFld (s.reg Reg.FD_ADC_REQ_RESULT) 16 1 0)

/-- The mean of conversions, rounded to the nearest code with halves rounded up. -/
def meanCode (codes : List Nat) : Nat := (2 * codes.foldl (· + ·) 0 + codes.length) / (2 * codes.length)

/-- The request finishes with its AVG + 1 conversions. -/
def adcRequestDone (codes : List Nat) (s : State) : State :=
  match s.fdin.req with
  | none => s
  | some r =>
    if codes.length ≠ r.avg + 1 then s
    else ((s.setFdin fun f => { f with req := none }).setReg Reg.FD_ADC_REQ_RESULT (word [(0, 16, meanCode codes), (16, 1, 1)])).setEvt
      Reg.FD_ADC_EVT 0

/-- A supply is out of range (R279). -/
def State.supplyBad (s : State) : Bool := decide (21 ≤ s.fdin.bad24) || decide (21 ≤ s.fdin.bad5)

/-- A sample of VF24 and VF5, in mV (R279). -/
def supplySample (vf24 vf5 : Nat) (s : State) : State :=
  if !s.fdUp then s
  else
    let ok24 := decide (18000 ≤ vf24) && decide (vf24 ≤ 36000)
    let ok5 := decide (4750 ≤ vf5) && decide (vf5 ≤ 5250)
    let s := s.setReg Reg.FD_ADC_SUPPLY (word [(0, 16, vf24), (16, 16, vf5)])
    let was := s.supplyBad
    let s := s.setFdin fun f => { f with
      sampled := true, bad24 := if ok24 then 0 else f.bad24 + 1, bad5 := if ok5 then 0 else f.bad5 + 1
      goodAt := if ok24 && ok5 then f.goodAt else s.now }
    s.when (!was && s.supplyBad) (·.setEvt Reg.FD_ADC_EVT 2)

/-! ### Field safety inputs (R300, R301) -/

/-- The class of a level in mV. -/
def levelClass (mv : Nat) : InputClass := if 15000 < mv then .high else if mv < 5000 then .low else .undefined

/-- An input holds a class for the last `n` samples. -/
def holdsClass (c : InputClass) (n : Nat) (runs : List LevelRun) : Bool :=
  decide (n ≤ trailing LevelRun.count (fun x => levelClass x.mv == c) runs)

/-- The state that an input takes, before inversion: a class held for 2,000 consecutive samples (1 ms). -/
def heldState (runs : List LevelRun) : Option Bool :=
  if holdsClass .high 2000 runs then some true else if holdsClass .low 2000 runs then some false else none

/-- An input undefined for more than 100 ms. -/
def undefinedLong (runs : List LevelRun) : Bool := holdsClass .undefined 200002 runs

/-- The inputs' states after CFG.INVERT: FSIi on; BFBc applied. -/
def State.fsiOn (s : State) (i : Nat) : Option Bool := (s.fsi i).high.map fun v => v != bitOf (s.reg Reg.FD_FSI_CFG) (8 + i)
def State.bfbOn (s : State) (c : Nat) : Option Bool := (s.bfb c).high.map fun v => v != bitOf (s.reg Reg.FD_BRK_CFG) (16 + c)

/-- An input takes a new state (R300). -/
def State.fsiTake (s : State) (i : Nat) (runs : List LevelRun) : State :=
  match bitOf (s.reg Reg.FD_FSI_CFG) i && s.fdUp, heldState runs with
  | true, some v =>
    let was := s.fsi i
    let s := s.setFdin fun f => { f with fsi := tset f.fsi i { high := some v, fault := false } }
    if was.high = some v then s else s.setEvt Reg.FD_FSI_EVT i
  | _, _ => s

/-- An input undefined for more than 100 ms has a fault. -/
def State.fsiBad (s : State) (i : Nat) (runs : List LevelRun) : State :=
  if bitOf (s.reg Reg.FD_FSI_CFG) i && s.fdUp && !(s.fsi i).fault && undefinedLong runs then
    (s.setFdin fun f => { f with fsi := tset f.fsi i { s.fsi i with fault := true } }).setEvt Reg.FD_FSI_EVT (8 + i)
  else s

/-- Inputs that the structure leaves disabled have no state: one enabled later begins without (R300). -/
def State.fsiDisabled (s : State) : State :=
  s.setFdin fun f => { f with fsi := f.fsi.filter fun (e : Nat × FieldIn) => bitOf (s.reg Reg.FD_FSI_CFG) e.1 }

/-- The input is in the state that inhibits (R301, R306): on, with a fault, or without a state yet. -/
def State.fsiInhibits (s : State) (i : Nat) : Bool := (s.fsi i).fault || s.fsiOn i != some false

/-! ### Comparator calibration (R486 to R488) -/

def State.fdCalCfg (s : State) (lo len : Nat) : Nat := fld (s.reg Reg.FD_CAL_CFG) lo len
def State.setFdCal (s : State) (f : FdCal → FdCal) : State := s.setFdin fun x => { x with cal := f x.cal }

/-- The next enabled channel after `k`, in ascending order round. -/
def State.nextChannel (s : State) (k : Nat) : Nat :=
  (((List.range 64).map fun i => (k + 1 + i) % 64).find? fun i => (s.wsc i).en.isSome).getD k

/-- A channel's output has been free for the last 1 s. -/
def State.freeFor1s (s : State) (k : Nat) : Bool :=
  match (s.wsc k).freeAt with | some t => (s.wsc k).settled && decide (1000000000 ≤ s.now - t) | none => false

/-- The conditions of R486 for a channel. -/
def State.calReady (s : State) (k : Nat) : Bool :=
  let other := if k % 2 = 0 then k + 1 else k - 1
  s.freeFor1s k && (s.freeFor1s other || (s.wsc other).en.isNone) && (s.wsc k).faults.isEmpty

/-- The next due channel is tried: held, or deferred for 1 s. -/
def State.calTry (s : State) : State :=
  let k := if (s.wsc s.fdin.cal.due).en.isSome then s.fdin.cal.due else s.nextChannel s.fdin.cal.due
  let w := s.wsc k
  let every := s.fdCalCfg 0 17 * 1000000000
  let due := match w.calAt with | some t => decide (every ≤ s.now - t) | none => true
  if every = 0 ∨ !s.fdUp ∨ !s.fdin.trims ∨ s.fdin.cal.hold.isSome ∨ w.en.isNone ∨ s.dev = .watch ∨ !due then s
  else if s.calReady k then
    (s.setWsc k { w with stale := true }).setFdCal fun c => { c with due := k, hold := some (k, s.now), deferred := none }
  else
    let from' := (s.fdin.cal.deferred.map (·.1)).getD s.now
    let s := s.setWsc k { w with calLast := 4 }
    let s := s.setFdCal fun c => { c with due := k, deferred := some (from', s.now + 1000000000) }
    s.when (decide (every < s.now - from')) (·.setEvt Reg.FD_CAL_EVT 3)

/-- The start of a hold: not while the due channel is deferred. -/
def cmpCalHoldStart (s : State) : State := if s.fdin.cal.deferred.isSome then s else s.calTry

/-- A deferred channel is tried again after 1 s. -/
def cmpCalRetry (s : State) : State :=
  match s.fdin.cal.deferred with
  | some (_, at') => if at' ≤ s.now then s.calTry else s
  | none => s

/-- A hold ends: the input returns to the pin and the filter refills (R290). -/
def State.holdEnds (s : State) (k : Nat) : State :=
  (s.setWsc k { s.wsc k with stale := false, refill := some s.now }).setFdCal fun c => { c with hold := none }

/-- A hold ends ABORTED: the trim stays, the channel is deferred (R487). -/
def State.holdAbort (s : State) : State :=
  match s.fdin.cal.hold with
  | none => s
  | some (k, _) =>
    let s := s.holdEnds k
    let s := s.setWsc k { s.wsc k with calLast := 3 }
    (s.setFdCal fun c => { c with deferred := some (s.now, s.now + 1000000000) }).setEvt Reg.FD_CAL_EVT 2

/-- A pin-guard reading (converter code) on the damped side of THR ends the hold (R487). -/
def cmpCalGuardAbort (code : Nat) (s : State) : State :=
  match s.fdin.cal.hold with
  | none => s
  | some (k, _) =>
    let thr := if s.wscAbs k then s.wscThr k * 262144 else s.wscThr k * fld (s.reg (Reg.FD_ADC_REF (k / 2))) 0 16
    let pin := if s.wscAbs k then code * 5000 else code * 1024
    if (if s.wscLow k then decide (pin < thr) else decide (thr < pin)) then s.holdAbort else s

/-- The hold ends with the level found, in quarter codes (R487, R488). -/
def cmpCalHoldEnd (level : Int) (s : State) : State :=
  match s.fdin.cal.hold with
  | none => s
  | some (k, _) =>
    let w := s.wsc k
    let ofs := level - 4 * s.wscThr k
    let ok := decide (ofs.natAbs ≤ s.fdCalCfg 17 7) && decide ((ofs - w.trim).natAbs ≤ s.fdCalCfg 24 7)
    let s := s.holdEnds k
    let w := s.wsc k
    let s := (s.setFdCal fun c => { c with due := s.nextChannel k })
    if ok then
      let s := s.setWsc k { w with trim := ofs, calLast := 1, trimAt := some s.now, calAt := some s.now }
      { s with trimReports := s.trimReports ++ [(k, ofs)] }.setEvt Reg.FD_CAL_EVT 0
    else (s.setWsc k { w with calLast := 2, calAt := some s.now }).setEvt Reg.FD_CAL_EVT 1

/-! ### Registers -/

/-- A word of one bit per channel from `base`. -/
def State.wscBits (s : State) (base : Nat) (f : Wsc → Bool) : Word := bitsWord fun i => f (s.wsc (base + i))

def Wsc.outCode (w : Wsc) : Nat := if w.en.isNone then 3 else if !w.settled then 0 else if w.out then 2 else 1

/-- FD_WSC registers that are views of the state, for a master; STAMP_HI is its latch. -/
def wscView (s : State) (o : Nat) : Option Word :=
  let damped := fun (w : Wsc) => w.settled && w.out
  let unset := fun (w : Wsc) => w.en.isSome && !w.settled
  match o with
  | 0x04 => some (s.wscBits 0 damped)
  | 0x08 => some (s.wscBits 32 damped)
  | 0x0C => some (s.wscBits 0 (·.latch))
  | 0x10 => some (s.wscBits 32 (·.latch))
  | 0x14 => some (s.wscBits 0 (!·.faults.isEmpty))
  | 0x18 => some (s.wscBits 32 (!·.faults.isEmpty))
  | 0x1C => some (s.wscBits 0 unset)
  | 0x20 => some (s.wscBits 32 unset)
  | _ =>
    if 0x100 ≤ o ∧ o < 0x500 ∧ o % 16 = 12 then
      let w := s.wsc ((o - 0x100) / 16)
      some (word [(0, 2, w.outCode), (2, 1, b2n w.latch), (3, 1, b2n w.stale), (4, 3, w.faults.headD 0), (8, 24, w.edges)])
    else none

/-- A read of FD_WSC_STAMP_LO latches the high half for the reader (R302). -/
def State.wscStampLo (s : State) (m : Master) : State × Word :=
  let t := (s.wsc (fld (s.mreg m Reg.FD_WSC_SEL) 0 6)).stamp
  (s.setMreg m Reg.FD_WSC_STAMP_HI (hi32 t), lo32 t)

/-- A write to an FD_WSC register other than the latches. -/
def wscWrite (s : State) (m : Master) (o : Nat) (v : Word) : State :=
  match o with
  | 0x0C => wscLatchClear false v s
  | 0x10 => wscLatchClear true v s
  | 0x24 => s.setMreg m Reg.FD_WSC_SEL (lo32 (fld v 0 6))
  | _ => s

/-- FD_ADC registers that are views of the state. -/
def adcView (s : State) (o : Nat) : Option Word :=
  if o = 0 then
    some (word [(0, 1, b2n s.fdin.req.isSome), (1, 9, min 256 (countOf s.outs.reads fun t => decide (s.now < t + 1000000))),
      (10, 1, b2n (s.fdin.sampled && !s.supplyBad))])
  else none

/-- FD_FSI_STATUS. -/
def State.fsiStatus (s : State) : Word :=
  bitsWord fun i =>
    if i < 8 then s.fsiOn i == some true
    else if i < 16 then (s.fsi (i - 8)).fault
    else if i < 24 then (s.fsi (i - 16)).high.isSome
    else false

/-- FD_CAL registers that are views of the state. -/
def fdcalView (s : State) (m : Master) (o : Nat) : Option Word :=
  match o with
  | 0x04 => some (word [(0, 1, b2n s.fdin.cal.hold.isSome), (1, 6, ((s.fdin.cal.hold.map (·.1)).getD s.fdin.cal.due))])
  | 0x10 =>
    let w := s.wsc (fld (s.mreg m Reg.FD_CAL_SEL) 0 6)
    let age := match w.trimAt with | some t => min 0x1FFFFF ((s.now - t) / 1000000000) | none => 0
    some (word [(0, 8, toField 8 w.trim), (8, 3, w.calLast), (11, 21, age)])
  | _ => none

/-! ### Meanings -/

/-- CHANNEL_SETTLE (R287). -/
def execChannelSettle (dt k : Nat) (runs : List WsRun) (s : State) : Out := s.after dt (channelSettle k runs)

/-- LEGACY_EDGE (R284). -/
def execLegacyEdge (dt k : Nat) (runs : List WsRun) (s : State) : Out := s.after dt (legacyEdge k runs)

/-- LEGACY_EVENT_EMIT (R286). -/
def execLegacyEventEmit (dt lh : Nat) (s : State) : Out := s.after dt (legacyEventEmit lh)

/-- CHANNEL_DWELL_FAULT (R288). -/
def execChannelDwellFault (dt : Nat) (k : Indexed (List WsRun)) (s : State) : Out := s.after dt (channelDwellFault k.idx k.val)

/-- CHANNEL_WINDOW_FAULT (R289). -/
def execChannelWindowFault (dt : Nat) (k : Indexed (List WsRun)) (low : Bool) (s : State) : Out :=
  s.after dt (channelWindowFault k.idx low k.val)

/-- CHANNEL_FAULT_END (R289). -/
def execChannelFaultEnd (dt : Nat) (k : Indexed (List WsRun)) (code : Nat) (s : State) : Out := s.after dt (channelFaultEnd k.idx code k.val)

/-- SUPPLY_SAMPLE (R279). -/
def execSupplySample (dt vf24 vf5 : Nat) (s : State) : Out := s.after dt (supplySample vf24 vf5)

/-- ADC_FRAME (R297). -/
def execAdcFrame (dt : Nat) (a : AdcScan) (s : State) : Out := s.after dt (adcFrame a)

/-- ADC_REQUEST_DONE (R299). -/
def execAdcRequestDone (dt : Nat) (codes : List Nat) (s : State) : Out := s.afterFd dt (adcRequestDone codes)

/-- CMP_CAL_HOLD_START (R487). -/
def execCmpCalHoldStart (dt : Nat) (s : State) : Out := s.afterFd dt cmpCalHoldStart

/-- CMP_CAL_RETRY (R486). -/
def execCmpCalRetry (dt : Nat) (s : State) : Out := s.afterFd dt cmpCalRetry

/-- CMP_CAL_GUARD_ABORT (R487). -/
def execCmpCalGuardAbort (dt code : Nat) (s : State) : Out := s.afterFd dt (cmpCalGuardAbort code)

/-- CMP_CAL_HOLD_END (R487). -/
def execCmpCalHoldEnd (dt : Nat) (level : Int) (s : State) : Out := s.afterFd dt (cmpCalHoldEnd level)

end Sys2Proof.Machine
end

