-- ==== Sys2Proof/Machine/Vital.lean ====
section
/-!
DEFINITION. The vital outputs as FD drives them: liveness of the two channels, the conditions of R268, inhibits, raising and
lowering (Safety Architecture, R265 to R269; Vital Outputs, R305 to R308, R313).
-/
namespace Sys2Proof.Machine

def State.setOuts (s : State) (f : Outputs → Outputs) : State := { s with outs := f s.outs }
def State.vo (s : State) (i : Nat) : Vo := tget s.outs.vo {} i
def State.setVo (s : State) (i : Nat) (v : Vo) : State := s.setOuts fun o => { o with vo := tset o.vo i v }
def State.group (s : State) (g : Nat) : VoGroup := tget s.outs.groups {} g
def State.setGroup (s : State) (g : Nat) (v : VoGroup) : State := s.setOuts fun o => { o with groups := tset o.groups g v }
def State.brake (s : State) (c : Nat) : Brake := tget s.outs.brk {} c
def State.setBrake (s : State) (c : Nat) (b : Brake) : State := s.setOuts fun o => { o with brk := tset o.brk c b }
def State.setFds (s : State) (f : FdSafe → FdSafe) : State := { s with fds := f s.fds }
def State.setSaf (s : State) (f : Saf → Saf) : State := { s with saf := f s.saf }
def State.setMrg (s : State) (f : Merge → Merge) : State := { s with mrg := f s.mrg }

def voNumbers : List Nat := List.range 32
def groupOutputs (g : Nat) : List Nat := (List.range 16).map (16 * g + ·)

/-! ### Liveness (R265) -/

/-- A pair is in service. -/
def Saf.inService (f : Saf) : Bool := f.a.st == .inService || f.b.st == .inService

/-- The processor channel is live. -/
def State.procLive (s : State) : Bool :=
  s.fdUp && !s.mrg.deadB && !s.fds.verdictLate && s.saf.inService && !s.fds.split

/-- The ledger channel is live. -/
def State.ledgerLive (s : State) : Bool :=
  s.fdUp && !s.mrg.deadA && !s.fds.markLate && !s.fds.fault && s.fds.digestOk

/-! ### Conditions of an output (R268, R306) -/

/-- FD_VO_CFG_i.EN. -/
def State.voEn (s : State) (i : Nat) : Bool := bitOf (s.reg (Reg.FD_VO_CFG i)) 0

/-- A brake output whose feedback is checked: enabled, and enabled in FD_BRK_CFG. -/
def State.brakeOn (s : State) (i : Nat) : Bool := decide (16 ≤ i) && s.voEn i && bitOf (s.reg Reg.FD_BRK_CFG) (i - 16)

/-- A brake test holds the output (R315). -/
def Brake.holds (b : Brake) : Bool := b.step == .apply || b.step == .hold

/-- The output-level inhibit of R306. -/
def State.voInhibit (s : State) (i : Nat) : Bool :=
  let c := s.reg (Reg.FD_VO_CFG i)
  (bitOf c 4 && s.fsiInhibits (fld c 1 3)) || (bitOf c 8 && s.fsiInhibits (fld c 5 3)) || !(s.vo i).latched.isEmpty ||
    (s.group (i / 16)).fault || !(s.group (i / 16)).on || (decide (16 ≤ i) && (s.brake (i - 16)).holds)

/-- Every section of a list is Clear in a table of state codes. -/
def allClear (states : Table Nat) (secs : List Nat) : Bool := secs.all fun n => tget states 15 n == 0

/-- Every row of R268 for output `i`. -/
def State.voAllowed (s : State) (i : Nat) : Bool :=
  s.voEn i && (s.dev == .service || s.dev == .degraded) && s.fds.first.isNone && !s.fds.split && s.procLive && s.ledgerLive &&
    (match s.fds.cmp with
      | some c => allClear c.proc (s.vo i).map && allClear c.led (s.vo i).map
      | none => false) &&
    ((s.vo i).map.all fun n => s.fds.led.code n == 0 && (tfind s.fds.hold n).isNone) && !s.voInhibit i

/-! ### Raising and lowering (R269, R308, R313) -/

/-- The output is energised: high, in its off-pulse test, or about to be raised. -/
def Vo.energised (v : Vo) : Bool := v.level || v.test.isSome || v.deferred

/-- A test runs in a group. -/
def State.testIn (s : State) (g : Nat) : Bool := (groupOutputs g).any fun i => (s.vo i).test.isSome

/-- BFBc shows applied, or released. -/
def State.applied (s : State) (c : Nat) : Bool := !(s.bfb c).fault && s.bfbOn c == some true
def State.released (s : State) (c : Nat) : Bool := !(s.bfb c).fault && s.bfbOn c == some false

/-- BFBc shows what VOi stands for. -/
def State.follows (s : State) (i : Nat) (level : Bool) : Bool := if level then s.released (i - 16) else s.applied (i - 16)

/-- The FEEDBACK limit starts with a change of a checked brake output to `level` outside a brake test, unless BFBc shows it already (R309,
R316). -/
def State.fbStart (s : State) (i : Nat) (level : Bool) : Option Nat :=
  if s.brakeOn i && (s.brake (i - 16)).step == .none && !s.follows i level then some s.now else none

/-- A running brake test ends with a result: 3 PASS, 4 to 6 failures, 7 ABORTED. -/
def State.brakeEnd (s : State) (c res : Nat) : State :=
  (s.setBrake c { step := .none, since := s.now, res := res }).setEvt Reg.FD_BRK_EVT (if res = 3 then 0 else 1)

/-- Raise VOi now; step 4 of a brake test begins (R315). -/
def State.voRaiseNow (s : State) (i : Nat) : State :=
  let s := s.setVo i { s.vo i with
    level := true, changed := some s.now, deferred := false, notOn := 0, notOff := 0, overrun := 0, below := none, fb := s.fbStart i true }
  if 16 ≤ i ∧ (s.brake (i - 16)).step = .okWait then
    if s.released (i - 16) then s.brakeEnd (i - 16) 3
    else s.setBrake (i - 16) { s.brake (i - 16) with step := .release, since := s.now }
  else s

/-- Raise VOi, or defer it while a test runs in its group (R313). -/
def State.voRaise (s : State) (i : Nat) : State :=
  if s.testIn (i / 16) then s.setVo i { s.vo i with deferred := true } else s.voRaiseNow i

/-- A deferred raise: made where R268 still allows it, else dropped. -/
def State.voResume (s : State) (i : Nat) : State :=
  if !(s.vo i).deferred then s
  else if s.voAllowed i then s.voRaiseNow i
  else s.setVo i { s.vo i with deferred := false }

/-- The raises that a finished test deferred. -/
def State.voUndefer (s : State) (g : Nat) : State :=
  if s.testIn g then s else (groupOutputs g).foldl State.voResume s

/-- Lower VOi; a running test is abandoned. -/
def State.voLower (s : State) (i : Nat) : State :=
  let v := s.vo i
  if !v.energised then s
  else
    let s := s.setVo i { v with
      level := false, changed := if v.level || v.test.isSome then some s.now else v.changed, test := none, deferred := false
      notOn := 0, notOff := 0, overrun := 0, below := none
      fb := if v.level || v.test.isSome then s.fbStart i false else v.fb }
    if v.test.isSome then s.voUndefer (i / 16) else s

/-- Every output that a de-energising cause concerns goes low (R269). A group check drives its outputs by itself. -/
def State.voRecheck (s : State) : State :=
  voNumbers.foldl (fun s i =>
    if (s.group (i / 16)).check.isNone && (s.vo i).energised && !s.voAllowed i then s.voLower i else s) s

/-- Every output goes low (R21, R272). -/
def State.voDrop (s : State) : State :=
  let s := s.setOuts fun o => { o with groups := o.groups.map fun (g, x) => (g, { x with check := none }) }
  voNumbers.foldl State.voLower s

/-- After a change of liveness: since when the processor channel has not been live (R271), and the outputs (R269). -/
def State.liveCheck (s : State) : State :=
  let live := s.procLive
  (s.setFds fun f => { f with deadAt := if live then none else some (f.deadAt.getD s.now) }).voRecheck

/-- A comparison has run: outputs follow R268. -/
def State.voCompared (s : State) : State :=
  voNumbers.foldl (fun s i => if s.voAllowed i && !(s.vo i).energised then s.voRaise i else s) s.voRecheck

/-! ### Brake tests that Safe-stop ends (R316) -/

/-- Every running brake test ends ABORTED. -/
def State.brakeAbort (s : State) : State :=
  (List.range 16).foldl (fun s c => if (s.brake c).step = .none then s else s.brakeEnd c 7) s

end Sys2Proof.Machine
end

