-- ==== Sys2Proof/Machine/Safe.lean ====
section
/-!
DEFINITION. The device state, Safe-stop and its causes, the pairs, Watch entry and wake as state changes (Safety Architecture,
R248 to R257, R265 to R275; States and Mode Combinations, R506 to R512; Power, Reset and Boot, R534, R535).
-/
namespace Sys2Proof.Machine

/-! ### What the channels report -/

/-- One report of the processor channel (R218, R224, R362). -/
def State.chanNote (s : State) (n : ChanNote) : State :=
  match n with
  | .cpt b => s.setEvt Reg.HB_CPT_EVT b
  | .sec b => s.setEvt Reg.HB_SEC_EVT b
  | .fault cp =>
    (s.setReg Reg.HB_CPT_FAULT_CNT (lo32 (min 0xFFFF ((s.reg Reg.HB_CPT_FAULT_CNT).toNat + 1)))).raise (528 + cp / 32) (lo32 (cp / 32))
  | .change n => s.raise (768 + n / 8) (lo32 (n / 8))

/-- HB_FRW_RESULT of a result code of R357 (R334). -/
def frwResultOf (code : Nat) : Nat :=
  match code with
  | 0 => 1 | 1 => 5 | 2 => 4 | 3 => 7 | 4 => 8 | 5 => 6 | 6 => 9 | 0xC => 3 | 0xD => 2 | _ => 4

/-- The end of a direct reset that waited: an entry of its own, and event source 4 (R352); HD7's own shows in the window (R334). -/
def State.resetEnded (s : State) (q : QueuedCmd × Nat) : State :=
  let s := (s.journalAdd s.tc.now q.1.cmd.dom q.2 q.1.code (argDigest q.1.cmd.args)).raise 4 4
  s.when (q.1.cmd.origin == .forerunner) fun s => { s with frw := { s.frw with result := frwResultOf q.2 } }

/-- Take over what the processor channel has to report. -/
def State.procDrain (s : State) : State :=
  let g := s.saf.chan
  let served := g.served || g.heads.any fun (_, h) => !h.faulty && !h.core.waiting
  let s := s.setSaf fun f => { f with chan := { g with notes := [], done := [], served := served } }
  g.done.foldl State.resetEnded (g.notes.foldl State.chanNote s)

/-- A change of the processor channel, while a pair (or core 0) runs it. -/
def State.procDo (s : State) (f : Channel → Channel) : State :=
  if s.saf.running then (s.setSaf fun x => { x with chan := f x.chan }).procDrain else s

/-- A change of what the processor channel knows, which it takes whether or not a pair runs it. -/
def State.procKeep (s : State) (f : Channel → Channel) : State :=
  if s.saf.running then s.procDo f else s.setSaf fun x => { x with chan := { f x.chan with notes := [], done := [] } }

/-- A change of the ledger; outputs whose sections it takes out of Clear go low (R269). -/
def State.ledDo (s : State) (f : Channel → Channel) : State :=
  if s.fdUp then (s.setFds fun x => { x with led := { f x.led with notes := [], done := [] } }).voRecheck else s

/-- The result code that ends a waiting direct reset at Safe-stop (R320). -/
def resState : Nat := 2

/-! ### Device state (R506 to R508) -/

/-- A change of the device state raises event source 12; leaving Service or Degraded de-energises the outputs (R268). Start asks
for the group checks of R310. -/
def State.enter (s : State) (d : DeviceState) : State :=
  if s.dev = d then s
  else
    let s := { s with dev := d }.raise 12 12
    (s.when (d == .start) (·.setOuts fun o => { o with checkDue := true })).voRecheck

/-- A die is excluded as a silent source for more than 100 ms (R275). -/
def State.excluded (s : State) (d : Nat) : Bool :=
  match tfind s.mrg.silent d with | some x => decide (100000000 < s.now - x.declared) | none => false

/-- A condition of R275 holds. -/
def State.degradedCond (s : State) : Bool :=
  (!s.boot.split && (s.saf.a.st != .inService || s.saf.b.st != .inService)) ||
    (List.range 4).any fun d => (s.die d).power && ((s.die d).dieFault || s.excluded d)

/-- Service and Degraded follow the conditions of R275. -/
def State.degCheck (s : State) : State :=
  if s.dev = .service ∧ s.degradedCond then s.enter .degraded
  else if s.dev = .degraded ∧ !s.degradedCond then s.enter .service
  else s

/-- The state that Start and Maintenance are left to. -/
def State.serve (s : State) : State := s.enter (if s.degradedCond then .degraded else .service)

/-! ### Watch (R534, R535) -/

/-- The homes of a die that carry sensors of the structure in force. -/
def ChanCfg.homes (c : ChanCfg) (d : Nat) : List Nat :=
  ((c.cps.flatMap fun (_, p) => (p.sa.toList ++ p.sb.toList)).filter (·.die == d)).map (·.home) |>.eraseDups

/-- Spans of a die become unavailable or available in both channels. -/
def State.homesAvailable (s : State) (d : Nat) (homes : List Nat) (on : Bool) : State :=
  homes.foldl (fun s h =>
    (s.procKeep fun g => g.spanAvailable false d h on s.tc.now).ledDo fun g => g.spanAvailable true d h on s.tc.now) s

/-- A die loses power: light off with the TEC, the laser 10 ms after the amplifier (R63, R65), blocks stopped, its in-gap round abandoned. -/
def State.dieSleep (s : State) (d : Nat) : State :=
  let c := s.calPort d
  let s := s.when (c.phase != .none) fun s =>
    (s.setCalPort d { c.leave with cause := 0, discarded := 0, ended := c.ended + 1 }).calEvt d 2
  let s := s.lightOff d .off true
  let s := blockNumbers.foldl (fun s b =>
    s.when ((s.blk d b).st == .running) fun s => (s.holdRoles d b).modBlk d b fun x => { x with st := .gated, loading := [] }) s
  let s := laneNumbers.foldl (fun s i =>
    s.when (s.spanCount d i != 0) (·.modLane d i fun l => { l with held := [], passed := 0, test := none, seq := 0 })) s
  let s := (s.sensorsOf d).foldl (fun s e => s.setSensor d e {}) s
  (s.setDie d { s.die d with power := false }).homesAvailable d (s.saf.chan.cfg.homes d) false

/-- A die is powered again: blocks run, their sequence counters start again, light comes on. -/
def State.dieWake (s : State) (d : Nat) : State :=
  let s := s.setDie d { s.die d with power := true, clockDue := true }
  let s := blockNumbers.foldl (fun s b =>
    s.when ((s.blk d b).st == .gated && (blockLanes b).any fun i => s.spanCount d i != 0) (·.modBlk d b fun x => { x with st := .running, back := true, floorAt := s.now })) s
  let s := s.setMrg fun m => { m with frames := tset m.frames (2 * d + 1) s.now }
  let s := s.homesAvailable d (s.saf.chan.cfg.homes d) true
  ((s.endLockout d).lightOn d)

/-- The dies are woken (R535): boot completion counts from here. -/
def State.wakeDies (s : State) : State :=
  let s := (List.range 4).foldl State.dieWake s
  { s with boot := { s.boot with since := s.now, refDropped := false, stage := 8 } }.setEvt Reg.HB_BOOT_EVT 3

/-- HB_BOOT_STATUS.STAGE. -/
def State.bootStage (s : State) (n : Nat) : State := { s with boot := { s.boot with stage := n } }

/-- A wake channel may send its request again. -/
def State.wakeArm (s : State) : State :=
  s.setFdin fun f => { f with chans := f.chans.map fun (k, w) => (k, { w with woke := false }) }

/-- The device enters Watch. -/
def State.sleep (s : State) : State :=
  ((((List.range 4).foldl State.dieSleep s).wakeArm).bootStage 7).enter .watch

/-- The device wakes into Start. -/
def State.wake (s : State) : State := if s.dev = .watch then s.wakeDies.enter .start else s

/-! ### Safe-stop (R271 to R273) -/

/-- FD_CMB_SSCAUSE. -/
def State.ssWord (s : State) : Word :=
  word [(0, 11, s.fds.causes.foldl (fun a k => a + 2 ^ k) 0), (16, 4, s.fds.first.getD 0), (20, 1, b2n s.fds.first.isSome)]

/-- HB_STR_ERROR: the last failure. -/
def State.strFail (s : State) (code detail frame : Nat) : State :=
  { s with str := { s.str with code := code, detail := detail, errFrame := frame } }

/-- The shadows of a commit before its latch are discarded (R406): back to VERIFIED. -/
def State.commitFail (s : State) (code : Nat) : State :=
  { s with str := { s.str with st := .verified, commit := none, last := 2 } }.strFail code 0 0 |>.setEvt Reg.HB_STR_EVT 3

/-- A used section's code in Safe-stop: Disturbed (R272). -/
def disturbAll (t : Table Nat) : Table Nat := t.map fun (e : Nat × Nat) => (e.1, if e.2 = 15 then 15 else 3)

/-- The bytes that a segment's check value covers: its header, then the codes of its 256 sections. -/
def Segment.bytes (x : Segment) : List Byte :=
  leBytes 8 x.cycle ++ leBytes 1 x.index ++ leBytes 1 (b2n x.pairB) ++ leBytes 16 x.key ++ leBytes 8 x.stamp ++
    (List.range 128).map fun i =>
      BitVec.ofNat 8 (tget x.states 15 (256 * x.index + 2 * i) + 16 * tget x.states 15 (256 * x.index + 2 * i + 1))

/-- A segment with its own check value (R252). -/
def Segment.sealed (x : Segment) : Segment := { x with check := crc crc32c x.bytes }

/-- A segment cut off in transmission fails its check (R255). -/
def Segment.cut (x : Segment) : Segment := { x with check := Nat.xor (crc crc32c x.bytes) 1 }

def Segment.whole (x : Segment) : Bool := x.check == crc crc32c x.bytes

/-- What has been formed and not compared at entry to Safe-stop carries Disturbed from then on, at HB and on FD (R272). -/
def Saf.disturb (f : Saf) : Saf :=
  { f with
    ready := f.ready.map fun (v : Verdict) => { v with states := disturbAll v.states }
    segs := f.segs.map fun (x : Segment) => { x with states := disturbAll x.states, other := disturbAll x.other }.sealed
    sentStates := disturbAll f.sentStates, sentOther := disturbAll f.sentOther }

/-- The fold word of code P and code H, in network byte order (R383). -/
def State.foldBytes (s : State) : List Byte := beBytes 4 (s.reg Reg.HB_LNK_SAFE_ID).toNat

/-- Two section codes of a telegram byte. -/
def disturbByte (b : Byte) : Byte :=
  let f := fun (c : Nat) => if c = 15 then 15 else 3
  BitVec.ofNat 8 (f (b.toNat % 16) + 16 * f (b.toNat / 16))

/-- A telegram that has been formed and not sent (R272): its section states lie behind the 40 bytes of its header. -/
def Telegram.disturb (fold : List Byte) (t : Telegram) : Telegram :=
  let payload := t.payload.take 40 ++ (t.payload.drop 40).map disturbByte
  { t with payload := payload, codeP := t.codeP.map fun _ => crc crc32c (fold ++ payload) }

def CycleStates.disturb (x : CycleStates) : CycleStates := { x with states := disturbAll x.states }

def FdSafe.disturb (f : FdSafe) : FdSafe :=
  { f with
    seqs := [], parts := f.parts.map fun (e : Nat × (List Nat × Table Nat)) => (e.1, e.2.1, disturbAll e.2.2)
    whole := f.whole.map fun (e : Nat × CycleStates) => (e.1, e.2.disturb)
    cycles := f.cycles.map fun (e : Nat × CycleStates) => (e.1, e.2.disturb) }

/-- HB goes along with FD's Safe-stop: the device state, the journal entry. -/
def State.ssFollow (s : State) : State :=
  let watch := s.dev == .watch
  let s := s.enter .safeStop
  let s := s.journalAdd s.tc.now 0xFF (s.fds.first.getD 0) 0x8005 s.ssWord
  s.when watch State.wakeDies

/-- Telegrams that wait show every section Disturbed. -/
def State.telegramsDisturb (s : State) : State :=
  { s with links := { s.links with telegrams := s.links.telegrams.map fun (e : Nat × Telegram) => (e.1, e.2.disturb s.foldBytes) } }

/-- Entry to Safe-stop (R272): outputs low, both channels restarted, brake tests and a commit before its latch ended. HB follows at
once where the start handshake has completed (R524). -/
def State.ssEnter (s : State) (k : Nat) : State :=
  let s := s.setFds fun f => { f with first := some k }
  let s := ((s.setEvt Reg.FD_CMB_EVT 2).voDrop).brakeAbort
  let s := s.ledDo (·.powerUp resState)
  let s := ((s.setFds FdSafe.disturb).setSaf Saf.disturb).telegramsDisturb
  let s := s.procDo (·.powerUp resState)
  let s := s.when (s.str.st == .committing) (·.commitFail 0x17)
  s.when s.boot.shaken State.ssFollow

/-- A cause of R271 arises; DISCORD (5h) and COMMAND (Ah) clear at entry, and the split latch knows neither PAIRS_LOST nor
VERDICT_LOSS (R512). -/
def State.causeRaise (s : State) (k : Nat) : State :=
  if s.fds.causes.contains k || (!s.fdUp && decide (2 ≤ k)) || (s.fds.split && (k == 2 || k == 3)) then s
  else
    let brief := k == 5 || k == 10
    let s := s.when (!brief) (·.setFds fun f => { f with causes := k :: f.causes })
    if s.fds.first.isSome then s
    else
      let s := s.ssEnter k
      s.when brief (·.setFds fun f => { f with cleared := s.tc.fd })

/-- A cause clears. -/
def State.causeClear (s : State) (k : Nat) : State :=
  if s.fds.causes.contains k then s.setFds fun f => { f with causes := f.causes.filter (· != k), cleared := s.tc.fd } else s

/-- EXIT_READY. -/
def State.exitReady (s : State) : Bool := s.fds.first.isSome && s.fds.causes.isEmpty

/-- Safe-stop is left on an edge of reset input `n` (R273). -/
def State.ssExit (s : State) (n : Nat) : State :=
  let s := s.setFds fun f => { f with first := none, seqs := [] }
  let s := (s.setEvt Reg.FD_CMB_EVT 3).setEvt Reg.FD_RST_EVT (12 + n)
  let s := s.ledDo (·.powerUp resState)
  let s := s.procDo (·.powerUp resState)
  (s.journalAdd s.tc.now 0xFF 0 0x8006 (lo32 n)).enter .start

/-! ### Pairs (R248, R249, R255 to R257) -/

/-- A pair, true for B. -/
def Saf.pair (f : Saf) (b : Bool) : PairSt := if b then f.b else f.a
def Saf.setPair (f : Saf) (b : Bool) (p : PairSt) : Saf := if b then { f with b := p } else { f with a := p }

/-- How FD's comparator channels stand. -/
def State.inputView (s : State) (k : Nat) : InputView :=
  let w := tget s.fdin.chans {} k
  { settled := w.settled, out := w.settled && w.out, faults := w.faults }

/-- Both channels know the comparator channels of some legacy heads as they stand: those that a commit restarts, all of them after an FD
reset or in the start handshake (R196, R287, R523). -/
def State.inputsKnown (s : State) (lhs : List Nat) : State :=
  let v := s.inputView
  (s.procKeep (·.learnInputs false lhs v)).ledDo (·.learnInputs true lhs v)

/-- The die links in silence whose replay has not failed (R223). -/
def State.openSilence (s : State) : List Nat := (s.mrg.silent.filter fun e => !e.2.failed).map (·.1)

/-- The processor channel starts as at power-up (R257, R576). -/
def State.procStart (s : State) : State :=
  let silent := s.openSilence
  (s.setSaf fun f => { f with running := true, chan := { f.chan with hz := s.mrg.hz, silent := silent } }).procDo fun g =>
    (g.powerUp resState).updateAll false

/-- The other pair takes over what is still to be sent (R255): its own states, for every segment not delivered. -/
def Segment.from (x : Segment) (b : Bool) : Segment :=
  if x.pairB = b then x else { x with pairB := b, states := x.other, other := x.states }.sealed

/-- The other pair becomes Active (R255): the segment that was in transmission is cut off, every one not delivered whole is sent from
that pair, and so is what the next telegram carries. -/
def Saf.failover (f : Saf) (b : Bool) : Saf :=
  { f with
    activeB := b, sentStates := f.sentOther, sentOther := f.sentStates
    segs := (f.segs.take 1).map Segment.cut ++ f.segs.map (·.from b) }

/-- A pair fault of a cause of R248, recorded where it is the pair's first. A returning pair fails its return with TEST_FAILED (R257). -/
def State.pairFault (s : State) (b : Bool) (cause : Nat) : State :=
  let p := s.saf.pair b
  if s.boot.split || (p.st != .inService && p.st != .returning) then s
  else
    let ret := p.st == .returning
    let p := { p with
      st := if cause = 8 then .halted else .faulted, cause := if p.cause != 0 then p.cause else if ret then 10 else cause, count := min 0xFFFF (p.count + 1)
      tested := false, copied := false, run := 0 }
    let s := (s.setSaf fun f => { f.setPair b p with diffs := 0 }).setEvt Reg.HB_SAF_EVT 0
    let s := s.when (cause == 5) (·.setEvt Reg.HB_SAF_EVT 5)
    let s := s.when ret fun s => (s.setSaf fun f => { f with busy := none, res := 4 }).setEvt Reg.HB_SAF_EVT 3
    let s := s.when (s.saf.activeB == b && (s.saf.pair !b).st == .inService) fun s =>
      (s.setSaf (·.failover !b)).setEvt Reg.HB_SAF_EVT 1
    if s.saf.inService then s.degCheck
    else
      let s := s.setSaf fun f => { f with running := false, ready := none, segs := [] }
      (s.when s.boot.shaken (·.causeRaise 2)).liveCheck

/-- A return ends in service; the first pair back is Active, and PAIRS_LOST clears. -/
def State.pairBack (s : State) (b : Bool) : State :=
  let alone := !s.saf.inService
  let s := s.setSaf fun f => { f.setPair b { f.pair b with st := .inService, tested := false, copied := false, run := 0 } with
    busy := none, res := 0, diffs := 0, activeB := if alone then b else f.activeB }
  ((s.setEvt Reg.HB_SAF_EVT 2).causeClear 2).degCheck

end Sys2Proof.Machine
end

