-- ==== Sys2Proof/Machine/Memory.lean ====
section
/-!
DEFINITION. Memory: the plaza at its global addresses (R546, R548) and the host memory behind the PCIe ports. A memory is the list
of its bytes that are not zero, by rising address; every other byte reads 0.
-/
namespace Sys2Proof.Machine

/-- The canonical form: strictly rising addresses, no zero byte. -/
def memWf : List Host.Cell → Bool
  | [] => true
  | [c] => c.2 != 0
  | c :: d :: t => c.2 != 0 && decide (c.1 < d.1) && memWf (d :: t)

/-- The byte at an address. -/
def memByte : List Host.Cell → Nat → Byte
  | [], _ => 0
  | c :: t, a => if c.1 = a then c.2 else memByte t a

/-- The cells of a byte list from an address on. -/
def memCells : Nat → List Byte → List Host.Cell
  | _, [] => []
  | a, b :: t => if b = 0 then memCells (a + 1) t else (a, b) :: memCells (a + 1) t

/-- The memory with a byte list stored from an address on. -/
def memStore (m : List Host.Cell) (a : Nat) (l : List Byte) : List Host.Cell :=
  m.filter (fun c => decide (c.1 < a)) ++ (memCells a l ++ m.filter (fun c => decide (a + l.length ≤ c.1)))

/-- `n` bytes from an address on. -/
def memLoad (m : List Host.Cell) (a n : Nat) : List Byte := (List.range n).map fun i => memByte m (a + i)

def State.load (s : State) (a n : Nat) : List Byte := memLoad s.mem a n
/-- START and LENGTH of a check-value unit; its MODE is block. -/
def State.cvuStart (s : State) (u : Nat) : Nat :=
  (s.reg (Reg.HB_CVU_START_LO u)).toNat + 2 ^ 32 * fld (s.reg (Reg.HB_CVU_START_HI u)) 0 16
def State.cvuLength (s : State) (u : Nat) : Nat := (s.reg (Reg.HB_CVU_LENGTH u)).toNat
def State.cvuBlock (s : State) (u : Nat) : Bool := !bitOf (s.reg (Reg.HB_CVU_CTL u)) 2

/-- The firmware sets the range of a unit, and what CV0 and CV1 expect of it (R463, R469). -/
def State.cvRange (s : State) (u : Nat) (content : List Byte) : State :=
  let s := (s.setReg (Reg.HB_CVU_START_LO u) (Config.cvuSetting u 0 content)).setReg (Reg.HB_CVU_START_HI u)
    (Config.cvuSetting u 1 content &&& 0xFFFF)
  let s := s.setReg (Reg.HB_CVU_LENGTH u) (Config.cvuSetting u 2 content)
  if u < 2 then s.setReg (Reg.HB_CVU_EXPECT_LO u) (Config.cvuSetting u 3 content) else s

/-- A store into the range of a running block pass makes that pass stale (R469). -/
def State.cvuTouched (s : State) (a n : Nat) : Table Cvu :=
  s.cvu.map fun (e : Nat × Cvu) =>
    (e.1, { e.2 with stale := e.2.stale ||
      (e.2.run && s.cvuBlock e.1 && decide (a < s.cvuStart e.1 + s.cvuLength e.1) && decide (s.cvuStart e.1 < a + n)) })

/-- Store a byte list from an address on. -/
def State.store (s : State) (a : Nat) (l : List Byte) : State :=
  { s with mem := memStore s.mem a l, cvu := s.cvuTouched a l.length }

/-- The key of host address `a` behind PCIe port `p`. -/
def hostAddr (p a : Nat) : Nat := 2 ^ 64 * (p + 1) + a % 2 ^ 64

/-- The plaza (R546) and its parts (R548). -/
def plazaBase : Nat := 0x1000000
def plazaEnd : Nat := 0x2000000
def shareBase : Nat := 0x1200000
def profileBase (p : Nat) : Nat := 0x1500000 + 0x40000 * p
def stagingBase : Nat := 0x1600000
def stagingSize : Nat := 0x200000

end Sys2Proof.Machine
end

