-- ==== Sys2Proof/Machine/Structure.lean ====
section
/-!
DEFINITION. Structure images: frames, what they set, how two images differ, affected sections and units, the evaluation channels'
configuration (Structure Images and Their Commit, R391 to R396, R401, R411).
-/
namespace Sys2Proof.Machine

/-! ### Frame types (R395) -/

/-- A frame's type and target address. -/
structure FrameKey where
  type  : Nat
  level : Nat
  die   : Nat
  index : Nat
deriving DecidableEq, Repr, Inhabited

def SFrame.key (f : SFrame) : FrameKey := ⟨f.type, f.level, f.die, f.index⟩

/-- TYPE, LEVEL, DIE and INDEX are valid together. Package and system frames carry DIE 4 (HB). -/
def FrameKey.valid (k : FrameKey) : Bool :=
  let at_ := fun (level : Nat) (die : Bool) (n : Nat) => k.level == level && die && decide (k.index < n)
  let aq := decide (k.die < 4)
  let hb := k.die == 4
  let fd := k.die == 5
  match k.type with
  | 0x01 | 0x02 | 0x03 | 0x05 | 0x06 => at_ 2 aq 1
  | 0x04 => at_ 2 aq 2048
  | 0x10 | 0x13 => at_ 1 hb 1
  | 0x11 => at_ 1 hb 4096
  | 0x12 => at_ 1 hb 2048
  | 0x20 => at_ 2 fd 64
  | 0x21 => at_ 2 fd 32
  | 0x22 | 0x23 => at_ 2 fd 1
  | 0x30 => at_ 1 hb 4
  | 0x31 => at_ 1 hb 64
  | 0x32 => at_ 4 aq 32
  | 0x40 => at_ 0 hb 2
  | 0x41 | 0x42 | 0xFF => at_ 0 hb 1
  | _ => false

/-- The safety class. -/
def FrameKey.safety (k : FrameKey) : Bool :=
  [0x01, 0x02, 0x03, 0x04, 0x05, 0x10, 0x11, 0x12, 0x13, 0x20, 0x21, 0x22, 0x23, 0x42].contains k.type

/-- FD's share of the structure (R396). -/
def FrameKey.fdShare (k : FrameKey) : Bool := [0x04, 0x05, 0x11, 0x12, 0x10, 0x13, 0x20, 0x21, 0x22, 0x23].contains k.type

/-- The targets of a frame (R396): dies 0 to 3, HB 4, FD 5. -/
def FrameKey.targets (k : FrameKey) : List Nat :=
  (if k.die < 4 then [k.die] else if k.die = 5 then [] else [4]) ++ (if k.fdShare then [5] else [])

/-! ### What frames set -/

/-- The bits of the register at a window offset that a frame sets (R395). No frame type names AQn_CAL_CTL, AQn_CAL_LIM, AQn_CAL_ACQ,
FD_CAL_CFG or the panel's registers, although their tables state structure defaults: a port's frames, FD's and LINKS may carry
them. -/
def FrameKey.mask (k : FrameKey) (a : Nat) : Word :=
  let all : Word := 0xFFFFFFFF
  let d := k.die
  let i := k.index
  let on := fun (b : Bool) => if b then all else 0
  let cal := a == Reg.AQ_CAL_CTL d || (decide (Reg.AQ_CAL_LIM d 0 ≤ a) && decide (a ≤ Reg.AQ_CAL_LIM d 3)) || a == Reg.AQ_CAL_ACQ d
  match k.type with
  | 0x01 =>
    if a = Reg.AQ_DMD_REF_CTL d then 0xFF01
    else on (cal || decide (Reg.AQ_TONE_PLAN d ≤ a ∧ a ≤ Reg.AQ_FIBRE_ZERO d) || a == Reg.AQ_DFE_CTL d ||
      decide (Reg.AQ_DMD_QUAL d ≤ a ∧ a ≤ Reg.AQ_DMD_UNWRAP d))
  | 0x02 => on (decide (Reg.AQ_LANE_SPAN d 0 ≤ a ∧ a ≤ Reg.AQ_LANE_SPAN d 287) ||
      decide (Reg.AQ_LANE_MEM d 0 ≤ a ∧ a ≤ Reg.AQ_LANE_MEM d 287) ||
      decide (Reg.AQ_DMD_LANE d 0 ≤ a ∧ a ≤ Reg.AQ_DMD_LANE d 287) || a == Reg.AQ_LBQ_CFG d)
  | 0x03 =>
    if a = Reg.AQ_OFE_CTL d then 4
    else if a = Reg.AQ_TEC_IMON d then 0x0FFF0000
    else on (a == Reg.AQ_OFE_TIMING d || a == Reg.AQ_DAC_SCALE d || a == Reg.AQ_TEC_SETPOINT d || a == Reg.AQ_TEC_LIMITS d)
  | 0x04 => on (decide (Reg.AQ_WSD_SENSOR d (4 * i) ≤ a ∧ a ≤ Reg.AQ_WSD_SENSOR d (4 * i + 2)))
  | 0x05 => on (cal || a == Reg.AQ_WSD_GATE d || a == Reg.AQ_WSD_TIMING d || a == Reg.AQ_WSD_AXLE d ||
      decide (Reg.AQ_WSD_TPL d 0 ≤ a ∧ a ≤ Reg.AQ_WSD_TPL d 15) || decide (Reg.AQ_WSD_TAPS d 0 ≤ a ∧ a ≤ Reg.AQ_WSD_TAPS d 511))
  | 0x06 => on (a == Reg.AQ_WSD_CMAP_CNT d || decide (Reg.AQ_WSD_CMAP d 0 ≤ a ∧ a ≤ Reg.AQ_WSD_CMAP d 8191))
  | 0x10 => on (decide (Reg.HB_CPT_FIBRE ≤ a ∧ a ≤ Reg.HB_CPT_LEGACY))
  | 0x13 => on (a == Reg.HB_FRM_CFG)
  | 0x20 => on (a == Reg.FD_WSC_CFG0 i || a == Reg.FD_WSC_CFG1 i || a == Reg.FD_WSC_CFG2 i || a == Reg.FD_CAL_CFG)
  | 0x21 =>
    if a = Reg.FD_BRK_CFG then (if 16 ≤ i then lo32 (65537 * 2 ^ (i - 16)) else 0)
    else on (a == Reg.FD_VO_CFG i || a == Reg.FD_VO_CUR i || a == Reg.FD_VO_TIMING || a == Reg.FD_VO_THR0 || a == Reg.FD_VO_THR1 ||
      (a == Reg.FD_BRK_TIME && decide (16 ≤ i)))
  | 0x22 => on (a == Reg.FD_CMB_CFG || a == Reg.FD_CAL_CFG)
  | 0x23 => on (a == Reg.FD_FSI_CFG)
  | 0x30 => on (a == Reg.HB_TPR_CFG i || a == Reg.HB_TPR_COEF i)
  | 0x31 => if a = Reg.HB_ACW_W_R0 i then 0x7FF else on (a == Reg.HB_ACW_W_R1 i || a == Reg.HB_ACW_W_R2 i)
  | 0x40 => on (decide (Reg.HB_EVR_ROUTE (512 * i) ≤ a ∧ a ≤ Reg.HB_EVR_ROUTE (512 * i + 511)))
  | 0x41 =>
    if a = Reg.HB_TC_CTL then 0xB
    else on (a == Reg.HB_LNK_ID || a == Reg.HB_LNK_SAFE_ID || a == Reg.HB_LNK_TLG_CFG || (blockOf a).any (fun x => x.1 == Block.net) ||
      a == Reg.HB_TC_SLEW_LIMIT || a == Reg.HB_TC_PTP_CFG || a == Reg.HB_TC_PPS_CFG || a == Reg.HB_PNL_DERATE)
  | 0x42 => on (decide (Reg.HB_HST_ROLE 0 ≤ a ∧ a ≤ Reg.HB_HST_ROLE 7))
  | _ => 0

/-- The masked register values of a frame. -/
def SFrame.words (f : SFrame) : List (Nat × Word × Word) :=
  ((Config.frameWords f.type f.die f.index f.payload).getD []).filterMap fun (a, v) =>
    let m := f.key.mask a
    if m = 0 then none else some (a, m, v)

/-- A register file with a masked value written into it. -/
def putMasked (t : Table Word) (a : Nat) (m v : Word) : Table Word :=
  tset t a ((((tfind t a).getD (resetOf a)) &&& ~~~m) ||| (v &&& m))

/-- What an image makes of the device: registers, counting points, sections, output mappings. -/
structure Plan where
  words  : Table Word := []
  points : Table (Nat × Nat × Int) := []
  secs   : Table SecCfg := []
  maps   : Table (List Nat) := []
deriving DecidableEq, Repr, Inhabited

def Plan.add (p : Plan) (f : SFrame) : Plan :=
  let p := { p with words := f.words.foldl (fun t (a, m, v) => putMasked t a m v) p.words }
  match f.type with
  | 0x11 =>
    let x := Config.framePoint f.payload
    if x.1 = 0 then p else { p with points := tset p.points f.index x }
  | 0x12 =>
    let (b, r) := Config.frameSection f.payload
    if b.isEmpty then p else { p with secs := tset p.secs f.index { bound := b, rstin := r } }
  | 0x21 => { p with maps := tset p.maps f.index (Config.frameOutput f.payload) }
  | _ => p

def planOf (frames : List SFrame) : Plan := frames.foldl Plan.add {}

/-- The machine that an image describes, for the questions that its rules ask. -/
def Plan.state (p : Plan) : State :=
  let s : State := { regs := p.words }
  (List.range 4).foldl (fun s d =>
    let s := (s.setProbe d { live := s.shadowSet d }).wpStore (16 + 2 * d) (s.reg (Reg.AQ_TEC_SETPOINT d))
    s.wpStore (17 + 2 * d) (s.reg (Reg.AQ_TEC_LIMITS d))) s

/-! ### Counting points and sections of an image -/

/-- A sensor as a head uses it: die, entry. -/
abbrev SenRef := Nat × Nat

/-- The enabled entry with a sensor ID (R170). -/
def State.senOf (c : State) (id : Nat) : Option SenRef :=
  (List.range 4).findSome? fun d => (c.sensorsOf d).findSome? fun e => if c.senId d e = id then some (d, e) else none

/-- Track position (mm) and line of a sensor entry. -/
def State.senTm (c : State) (x : SenRef) : Int := sext (c.reg (Reg.AQ_WSD_SENSOR x.1 (4 * x.2 + 2))).toNat 32
def State.senLine (c : State) (x : SenRef) : Nat := fld (c.senCfg x.1 x.2) 24 8

/-- MIN_AXLE of a port, cm. -/
def State.minAxle (c : State) (d : Nat) : Nat := fld (c.reg (Reg.AQ_WSD_AXLE d)) 10 10

def SenRef.place (c : State) (x : SenRef) : SenPlace := ⟨x.1, c.senHome x.1 x.2⟩

/-- The sections that a counting point bounds. -/
def boundsOf (secs : Table SecCfg) (cp : Nat) : List (Nat × Nat) :=
  secs.flatMap fun (n, x) => (x.bound.filter fun (c, _) => c == cp).map fun (_, side) => (n, side)

/-- A counting point's configuration (R191, R198). -/
def Plan.cpCfg (p : Plan) (c : State) (cp kind lh : Nat) : CpCfg :=
  let a := if kind = 2 then none else c.senOf (2 * cp)
  let b := if kind = 2 then none else c.senOf (2 * cp + 1)
  let port := ((a.or b).map (·.1)).getD 0
  let dist := match a, b with
    | some x, some y => (c.senTm x - c.senTm y).natAbs
    | _, _ => 0
  { kind := if kind = 1 then .fibre else if kind = 2 then .legacy else .fused
    port := port, lh := lh, dist := dist, gmax := if kind = 2 then 0 else dist / (10 * c.minAxle port) + 1
    sa := a.map (SenRef.place c), sb := b.map (SenRef.place c), bounds := boundsOf p.secs cp }

/-- T_tr of a template, ns (R176). -/
def State.trailing (c : State) (d t : Nat) : Nat := let x := c.template d t; (63 - x.c) * x.p * 500000

/-- settle_s of a template, ns (R208). -/
def State.settleTime (c : State) (d t : Nat) : Nat := max (c.trailing d (t - 1)) (c.trailing d t) + 1300000

/-- Forerunner mode and ownership as HB_FRM_CFG sets them (R322, R328). -/
def frmOwned (w : Word) (n : Nat) : Bool := bitOf w 0 && decide (2032 ≤ n) && bitOf w (16 + (n - 2032))

/-- What both evaluation channels take from an image. -/
def Plan.chanCfg (p : Plan) : ChanCfg :=
  let c := p.state
  let fib := c.reg Reg.HB_CPT_FIBRE
  let frm := c.reg Reg.HB_FRM_CFG
  { aMax := fld fib 0 6, tol := fld fib 6 6, resolve := fld fib 12 10
    bridge := fld (c.reg Reg.HB_CPT_BRIDGE) 0 11, fuse := fld (c.reg Reg.HB_CPT_FUSE) 0 14
    td := fld (c.reg Reg.HB_CPT_LEGACY) 0 18
    cps := p.points.map fun (cp, kind, lh, _) => (cp, p.cpCfg c cp kind lh)
    secs := p.secs.map fun (n, x) => (n, { x with forerunner := frmOwned frm n })
    settle := (List.range 64).map fun k => (k, c.settleTime (k / 16) (k % 16)) }

/-! ### Differences (R395, R401, R411) -/

/-- The payload of an image's frame. -/
def payloadOf (fs : List SFrame) (k : FrameKey) : Option (List Byte) := (fs.find? fun f => f.key == k).map (·.payload)

/-- The keys of the frames in which two images differ; END carries nothing. -/
def differing (old new : List SFrame) : List FrameKey :=
  (((new ++ old).map SFrame.key).eraseDups.filter fun k => k.type != 0xFF && payloadOf old k != payloadOf new k)

/-- Sections bounded by counting points that have a sensor on a port (R95). -/
def ChanCfg.secsOfPort (g : ChanCfg) (d : Nat) : List Nat :=
  (g.cps.filter fun (_, c) => c.sa.any (·.die == d) || c.sb.any (·.die == d)).flatMap fun (_, c) => c.bounds.map (·.1)

/-- Sections bounded by a counting point. -/
def ChanCfg.secsOfCp (g : ChanCfg) (cp : Nat) : List Nat := ((tfind g.cps cp).map fun c => c.bounds.map (·.1)).getD []

/-- The affected sections of a frame under one of the two structures (R395). -/
def Plan.affected (p : Plan) (g : ChanCfg) (k : FrameKey) : List Nat :=
  match k.type with
  | 0x01 | 0x02 | 0x03 | 0x05 => g.secsOfPort k.die
  | 0x04 =>
    let c := p.state
    if c.senEn k.die k.index then g.secsOfCp (c.senCp k.die k.index) else []
  | 0x10 | 0x22 | 0x23 => g.secs.map (·.1)
  | 0x11 => g.secsOfCp k.index
  | 0x12 => [k.index]
  | 0x13 => (List.range 16).map (2032 + ·)
  | 0x20 => (g.ofLegacy (k.index / 2)).toList.flatMap g.secsOfCp
  | 0x21 => tget p.maps [] k.index
  | _ => []

/-- The unit of a non-safety frame (R411): ports, host, windows, lane groups. -/
def FrameKey.units (k : FrameKey) : StrUnits :=
  match k.type with
  | 0x06 => { ports := 2 ^ k.die }
  | 0x30 => { ports := 2 ^ k.index }
  | 0x31 => { windows := 2 ^ k.index }
  | 0x32 => { groups := 2 ^ (32 * k.die + k.index) }
  | 0x40 | 0x41 => { host := true }
  | _ => {}

def StrUnits.or (a b : StrUnits) : StrUnits :=
  ⟨Nat.lor a.ports b.ports, a.host || b.host, Nat.lor a.windows b.windows, Nat.lor a.groups b.groups⟩

/-- The units of a set of differing frames. -/
def unitsOf (ks : List FrameKey) : StrUnits := ks.foldl (fun u k => if k.safety then u else u.or k.units) {}

/-- Every unit of `a` is one of `b`. -/
def StrUnits.within (a b : StrUnits) : Bool :=
  Nat.land a.ports b.ports == a.ports && (!a.host || b.host) && Nat.land a.windows b.windows == a.windows &&
    Nat.land a.groups b.groups == a.groups

/-- A frame belongs to named units. -/
def FrameKey.inUnits (k : FrameKey) (u : StrUnits) : Bool := !k.safety && k.units != {} && k.units.within u

/-- The frames of `old` with those of `new` in their place where `take` names their key. -/
def mixFrames (old new : List SFrame) (take : FrameKey → Bool) : List SFrame :=
  (old.filter fun f => !take f.key) ++ new.filter fun f => take f.key

/-- The live frames; none while no structure is live. -/
def State.liveFrames (s : State) : List SFrame := s.str.live.getD []

/-! ### Image bytes (R391 to R394) -/

/-- Header fields. -/
def imgLen (b : List Byte) : Nat := leNat (bytesAt b 12 4)
def imgFrames (b : List Byte) : Nat := leNat (bytesAt b 16 4)
def imgDigest (b : List Byte) : List Byte := bytesAt b 32 32

/-- The key hash of an image (R392). -/
def imgKeyHash (b : List Byte) : List Byte := sha256 (bytesAt b 64 64)

/-- The fuse slot that an image's key matches: programmed and not revoked. -/
def State.keySlot (s : State) (b : List Byte) : Option Nat :=
  (List.range 4).find? fun k => (tfind s.str.keys k) == some (imgKeyHash b) && !s.str.revoked.contains k

/-- The frame at the start of a byte list, without any check; none where the list is too short. -/
def frameAt (b : List Byte) : Option (SFrame × Nat) :=
  let len := leNat (bytesAt b 12 2)
  let total := (20 + len + 7) / 8 * 8
  if b.length < total then none
  else
    some ({ type := leNat (bytesAt b 0 2), level := leNat (bytesAt b 2 1), die := leNat (bytesAt b 3 1), index := leNat (bytesAt b 4 2)
            fseq := leNat (bytesAt b 8 4), payload := bytesAt b 16 len }, total)

/-- The check value of the frame at the start of a byte list matches (R394). -/
def frameSound (b : List Byte) : Bool :=
  let len := leNat (bytesAt b 12 2)
  lo32 (crc crc32c (bytesAt b 2 4 ++ bytesAt b 0 (16 + len))) == lo32 (leNat (bytesAt b (16 + len) 4))

/-- The bytes after the check value of a frame are 0. -/
def padZero (b : List Byte) (total : Nat) : Bool :=
  let len := leNat (bytesAt b 12 2)
  (bytesAt b (20 + len) (total - 20 - len)).all (· == 0)

/-- The length that a type requires. -/
def lengthOk (f : SFrame) : Bool :=
  decide (f.payload.length ≤ 4096) && f.payload.length % 4 == 0 &&
    (if f.type = 0xFF then f.payload.isEmpty else (Config.frameWords f.type f.die f.index f.payload).isSome)

/-- Step 3 of R400 over the frames from `seq` on: the frames, or the error code with FSEQ of the failing frame. -/
def parseFrames : (fuel seq count : Nat) → List SFrame → List Byte → List SFrame ⊕ (Nat × Nat)
  | 0, seq, _, _, _ => .inr (8, seq)
  | n + 1, seq, count, acc, b =>
    match frameAt b with
    | none => .inr (if b.isEmpty then 8 else 7, seq)
    | some (f, total) =>
      let rest := b.drop total
      let last := f.type == 0xFF
      if !frameSound b then .inr (7, seq)
      else if f.fseq ≠ seq ∨ last ≠ rest.isEmpty ∨ (last ∧ count ≠ seq) then .inr (8, f.fseq)
      else if !f.key.valid || acc.any (·.key == f.key) then .inr (9, f.fseq)
      else if !lengthOk f || !padZero b total then .inr (10, f.fseq)
      else if last then .inl (acc ++ [f])
      else parseFrames n (seq + 1) count (acc ++ [f]) rest

/-- The frames of an image whose frames have been checked before. -/
def imageFrames (b : List Byte) : List SFrame :=
  match parseFrames (b.length / 24 + 1) 1 (imgFrames b) [] (b.drop 192) with
  | .inl fs => fs
  | .inr _ => []

/-- Frames that every image carries (R395): ROLES, LINKS, FD_CMB, END, and OFE of every enabled port. -/
def framesPresent (fs : List SFrame) : Bool :=
  let has := fun (t d : Nat) => fs.any fun f => f.type == t && f.die == d
  let c := (planOf fs).state
  has 0x42 4 && has 0x41 4 && has 0x22 5 && has 0xFF 4 &&
    (List.range 4).all fun d => !(c.probe d).live.en || has 0x03 d

/-- Steps 1 to 3 of R400 over an image whose command names `len` bytes: the frames, or code and FSEQ. -/
def State.imageCheck (s : State) (len : Nat) (b : List Byte) : List SFrame ⊕ (Nat × Nat) :=
  let compat := leNat (bytesAt b 8 4)
  if bytesAt b 0 4 ≠ [0x4C, 0x59, 0x53, 0x54] ∨ leNat (bytesAt b 4 2) ≠ 3 ∨ leNat (bytesAt b 6 2) ≠ 64 then .inr (1, 0)
  else if compat / 2 ^ 16 ≠ 0x8440 ∨ compat / 256 % 256 ≠ 0 ∨ 0xB0 < compat % 256 then .inr (2, 0)
  else if imgLen b ≠ len ∨ len < 256 ∨ 2097152 < len then .inr (3, 0)
  else if (s.keySlot b).isNone then .inr (4, 0)
  else if !ecdsaOk (beNat (bytesAt b 64 32), beNat (bytesAt b 96 32)) (beNat (bytesAt b 128 32)) (beNat (bytesAt b 160 32)) (b.take 64) then
    .inr (5, 0)
  else if sha256 (b.drop 192) ≠ imgDigest b then .inr (6, 0)
  else
    match parseFrames (len / 24 + 1) 1 (imgFrames b) [] (b.drop 192) with
    | .inr e => .inr e
    | .inl fs => if framesPresent fs then .inl fs else .inr (9, 0)

end Sys2Proof.Machine
end

