-- ==== Sys2Proof/Machine/Staging.lean ====
section
/-!
DEFINITION. The staging state: how staging ends, what a verified image shows (Structure Images and Their Commit, R399, R401, R410,
R412).
-/
namespace Sys2Proof.Machine

def State.setStr (s : State) (f : Str → Str) : State := { s with str := f s.str }

/-- Staging ends. -/
def State.strIdle (s : State) : State := s.setStr fun x => { x with st := .idle, owner := none, staged := [], commit := none }

/-- The restoring commit that a STRUCT_ABORT in VERIFIED starts while a partial selection is in force (R412). It carries no new
epoch. -/
def State.restoring (s : State) (u : StrUnits) : Commit :=
  { full := false, units := u, epoch := (s.reg Reg.HB_STR_EPOCH).toNat, restore := true, safety := false, affected := []
    sframes := 0, dom := s.str.owner.getD 0, jseq := 0, since := s.now, targets := [], durable := true }

/-- An abort in any state but IDLE (R410); answers whether it was ignored. -/
def State.strAbort (s : State) : State × Bool :=
  if s.str.st = .latched then ((s.setStr fun x => { x with ignored := true }).setEvt Reg.HB_STR_EVT 5, true)
  else
    let back := if s.str.st = .verified then s.str.sel.map fun x => s.restoring x.1 else none
    let code := if s.str.st = .committing then 0x12 else s.str.code
    let s := s.strIdle.setStr fun x => { x with
      commit := back, last := 3, code := code, detail := if code = x.code then x.detail else 0, errFrame := if code = x.code then x.errFrame else 0 }
    (s.setEvt Reg.HB_STR_EVT 4, false)

/-- Staging is abandoned (R399): not once the commit is latched; journaled for the owner with CODE 0043h. -/
def State.strAbandon (s : State) : State :=
  match s.str.owner with
  | some d => if s.str.st = .latched ∨ s.str.st = .idle then s else (s.journalAdd s.tc.now d 0 0x43 0).strAbort.1
  | none => s

/-! ### What differs (R395, R401, R411) -/

/-- Sections affected by a change from one image to another. -/
def affectedOf (old new : List SFrame) : List Nat :=
  let ks := (differing old new).filter FrameKey.safety
  let po := planOf old
  let pn := planOf new
  sortBy id (ks.flatMap fun k => po.affected po.chanCfg k ++ pn.affected pn.chanCfg k).eraseDups

/-- The bitmap word `w` of a set of sections. -/
def sectionsWord (l : List Nat) (w : Nat) : Word := bitsWord fun i => l.contains (32 * w + i)

/-- The frames of the staged image. -/
def State.stagedFrames (s : State) : List SFrame := imageFrames s.str.staged

/-- The keys of the frames in which the staged image differs from the live structure. -/
def State.stagedDiff (s : State) : List FrameKey := differing s.liveFrames s.stagedFrames

/-- HB_STR_DIFF, HB_STR_UNITS, HB_STR_UNIT_WIN and HB_STR_UNIT_BLK as a passed verification shows them. -/
def State.showDiff (s : State) : State :=
  let ks := s.stagedDiff
  let u := unitsOf ks
  let n := countOf ks FrameKey.safety
  let s := s.setReg Reg.HB_STR_DIFF (word [(0, 16, min 0xFFFF n), (16, 16, min 0xFFFF (ks.length - n))])
  let s := s.setReg Reg.HB_STR_UNITS (word [(0, 4, u.ports), (4, 1, b2n u.host)])
  let s := (s.setReg Reg.HB_STR_UNIT_WIN_LO (lo32 u.windows)).setReg Reg.HB_STR_UNIT_WIN_HI (hi32 u.windows)
  (List.range 4).foldl (fun s n => s.setReg (Reg.HB_STR_UNIT_BLK n) (lo32 (u.groups / 2 ^ (32 * n)))) s

/-- HB_STR_AFFECT while the state is VERIFIED, COMMITTING or LATCHED. -/
def State.affectShown (s : State) (w : Nat) : Word :=
  match s.str.st with
  | .verified | .committing | .latched => sectionsWord (affectedOf s.liveFrames s.stagedFrames) w
  | _ => 0

end Sys2Proof.Machine
end

