-- ==== Sys2Proof/Machine/Merge.lean ====
section
/-!
DEFINITION. The package links and the package merge: frames and silence, watermarks, release in stamp order, die-link gaps and
their replay, what HB sends the ledger (Architecture, R16 to R38; R186, R188, R207, R212, R223).
-/
namespace Sys2Proof.Machine

/-! ### Frames and silence (R16, R17, R20, R21) -/

/-- A link's number: die links 0 to 3, ISO-A 4, ISO-B 5. -/
def linkCode : Link → Nat
  | .die d => d
  | .isoA => 4
  | .isoB => 5

/-- Powered time of the last valid frame on a link in one direction. -/
def State.frameAt (s : State) (link : Nat) (toHb : Bool) : Nat := tget s.mrg.frames 0 (2 * link + b2n toHb)

/-- An isolation channel (4 or 5) has had no valid frame for more than 5 ms in one of its directions. -/
def State.isoSilent (s : State) (link : Nat) : Bool :=
  decide (5000000 < s.now - s.frameAt link true) || decide (5000000 < s.now - s.frameAt link false)

/-- A valid frame arrives: a dead isolation channel that is no longer silent is live again. -/
def State.frameSeen (s : State) (link : Nat) (toHb : Bool) : State :=
  let s := s.setMrg fun m => { m with frames := tset m.frames (2 * link + b2n toHb) s.now }
  if link = 4 ∧ s.mrg.deadA ∧ !s.isoSilent 4 then (s.setMrg fun m => { m with deadA := false, goodA := s.now }).liveCheck
  else if link = 5 ∧ s.mrg.deadB ∧ !s.isoSilent 5 then (s.setMrg fun m => { m with deadB := false, goodB := s.now }).liveCheck
  else s

/-- A frame with its check value: a failing one is discarded and counted. -/
def linkFrame (link : Link) (toHb : Bool) (frame : List Byte) (check : Word) (s : State) : State :=
  let k := linkCode link
  if crc crc32c frame = check.toNat then s.frameSeen k toHb
  else s.setMrg fun m => { m with errors := tset m.errors k (tget m.errors 0 k + 1) }

/-- A die sends its watermark when 50 µs pass without another frame (R18); the present clock where no block of it counts (DESIGN
CHOICE). -/
def idleFrame (d : Nat) (s : State) : State :=
  if s.dieUp d then s.send (.frame (.die d) 0 ((s.dieWatermark d).getD s.tc.now) 0) else s

/-- FD sends its watermark (R34): no later event of it carries an earlier stamp. -/
def fdWatermark (s : State) : State := if s.fdUp then s.send (.frame .isoA 0 s.tc.fd 0) else s

/-! ### Live sources and the release horizon (R35) -/

/-- A source is live: a powered die without a die fault whose link is not silent; FD while it is a source. -/
def State.sourceLive (s : State) (src : Nat) : Bool :=
  if src = 4 then s.mrg.fdSource else s.dieUp src && (tfind s.mrg.silent src).isNone

/-- The lowest watermark of the live sources. -/
def State.lowestMark (s : State) : Option Nat :=
  (((List.range 5).filter s.sourceLive).map fun i => tget s.mrg.marks 0 i).min?

/-- Emission stamp of an event record. -/
def emitOf (b : List Byte) : Nat := leNat (bytesAt b 0 8)

/-- Global lane ID, or legacy-head number for FD. -/
def emitterOf (src : Nat) (b : List Byte) : Nat :=
  if src = 4 then leNat (bytesAt b 16 2) % 32 else leNat (bytesAt b 26 2) % 2048

/-- Sequence number of an event record. -/
def seqOf (b : List Byte) : Nat := leNat (bytesAt b 12 4)

/-- The ordering keys of R35 as one number. -/
def orderKey (src : Nat) (b : List Byte) : Nat :=
  ((emitOf b * 8 + src) * 2048 + emitterOf src b) * 2 ^ 32 + seqOf b

/-- The release horizon: the lowest live watermark, while no held event stands at or below it. -/
def State.horizon (s : State) : Nat :=
  match s.lowestMark with
  | some w => if s.mrg.held.any fun e => decide (emitOf e.2 ≤ w) then s.mrg.hz else max s.mrg.hz w
  | none => s.mrg.hz

/-! ### Checks of an event (R186 to R188, R212) -/

/-- Die and home lane (source 4: legacy head) that a receiver's structure gives an event. -/
def ChanCfg.eventHome (c : ChanCfg) (src : Nat) (b : List Byte) : Option (Nat × Nat) :=
  let id := leNat (bytesAt b 16 2)
  if src = 4 then (c.ofLegacy (id % 32)).map fun _ => (4, id % 32)
  else (((tfind c.cps (id % 4096)).bind fun p => p.sensor (id / 4096 % 2))).map fun x => (x.die, x.home)

/-- The event passes its CHECK. -/
def ChanCfg.eventOk (c : ChanCfg) (src : Nat) (b : List Byte) : Bool :=
  match c.eventHome src b with
  | some (d, home) => b.length == 32 && crcFold crc32c (d * 65536 + home) (bytesAt b 0 28) == leNat (bytesAt b 28 4)
  | none => false

/-- The next sequence number of a span: the account after it, and whether it leaves a gap. -/
def SeqTrack.take (t : SeqTrack) (seq : Nat) : SeqTrack × Bool :=
  let ok := match t.last with
    | none => true
    | some l => seq == (l + 1) % 2 ^ 32 || (t.restart && seq == 0)
  ({ last := some seq }, !ok)

/-- The account key of a span or legacy head. -/
def seqKey (p : Nat × Nat) : Nat := 1024 * p.1 + p.2

/-- A data fault of an event at one channel: the heads of R212. -/
def State.dataFaultOf (s : State) (src : Nat) (b : List Byte) (g : Channel) : Channel :=
  let id := leNat (bytesAt b 16 2)
  if src = 4 then g.legacyDataFault (id % 32)
  else
    let lane := emitterOf src b
    let span := if 288 * src ≤ lane ∧ lane < 288 * (src + 1) then s.servedBy src (lane - 288 * src) else none
    g.dataFault src span (id % 4096)

/-! ### To the ledger over ISO-A -/

/-- Replay ends at the head of ISO-A are taken at once. -/
def ledReplays : List IsoItem → State → State
  | .replayDone d :: t, s => ledReplays t ((s.setFds fun f => { f with lastKey := none }).ledDo (·.replayed true d))
  | l, s => s.setMrg fun m => { m with isoA := l }

/-- HB sends an item over ISO-A while the channel is live. -/
def State.isoSend (s : State) (i : IsoItem) : State :=
  if s.mrg.deadA || !s.fdUp || !s.boot.shaken then s else ledReplays (s.mrg.isoA ++ [i]) s

/-! ### Reception at HB (R34, R35, R38, R188) -/

/-- HB takes a watermark; the first one of FD after the start handshake makes FD a source again. -/
def watermarkReceived (src stamp : Nat) (s : State) : State :=
  let s := s.frameSeen src true
  let s := s.setMrg fun m => { m with marks := tset m.marks src (max stamp (tget m.marks 0 src)) }
  s.when (src == 4 && s.boot.shaken && !s.mrg.deadA) (·.setMrg fun m => { m with fdSource := true })

/-- HB receives an event: of a silent die it waits for the replay, else it is checked and held for release. An event of FD while FD is
out of service as a source never enters the live stream (R35, R38). -/
def sourceEvent (src : Nat) (b : List Byte) (s : State) : State :=
  let s := s.frameSeen src true
  match tfind s.mrg.silent src with
  | some x => s.setMrg fun m => { m with silent := tset m.silent src { x with late := x.late ++ [b] } }
  | none =>
    if src = 4 ∧ !s.mrg.fdSource then s
    else if s.saf.chan.cfg.eventOk src b then s.setMrg fun m => { m with held := m.held ++ [(src, b)] }
    else
      (s.setMrg fun m => { m with errors := tset m.errors src (tget m.errors 0 src + 1) }).procDo (s.dataFaultOf src b)

/-- HB's sequence check of a released event. -/
def State.hbSeq (s : State) (src : Nat) (b : List Byte) : State :=
  match s.saf.chan.cfg.eventHome src b with
  | none => s
  | some p =>
    let (t, gap) := (tget s.mrg.seqs {} (seqKey p)).take (seqOf b)
    let s := s.setMrg fun m => { m with seqs := tset m.seqs (seqKey p) t }
    s.when gap (·.procDo (s.dataFaultOf src b))

/-- One event is released to both channels (R36). -/
def State.releaseOne (hz : Nat) (replay : Bool) (s : State) (e : Nat × List Byte) : State :=
  let s := s.hbSeq e.1 e.2
  let s := s.setMrg fun m => { m with
    procIn := m.procIn ++ [.event e.1 e.2], sentAt := s.now
    lastKey := if replay then m.lastKey else orderKey e.1 e.2 }
  s.isoSend (.event e.1 e.2 hz replay)

/-- Release of every held event at or below the lowest live watermark, in key order (R35); nothing where no source is live (DESIGN
CHOICE). -/
def eventRelease (s : State) : State :=
  match s.lowestMark with
  | none => s
  | some w =>
    let out := sortBy (fun e => orderKey e.1 e.2) (s.mrg.held.filter fun e => decide (emitOf e.2 ≤ w))
    let s := s.setMrg fun m => { m with held := m.held.filter fun e => !decide (emitOf e.2 ≤ w), hz := max m.hz w }
    out.foldl (State.releaseOne w false) s

/-- 100 µs without a released event or a mark: HB sends a horizon mark (R207). -/
def horizonMarkSend (s : State) : State :=
  if s.now - s.mrg.sentAt < 100000 then s
  else
    let hz := s.horizon
    (s.setMrg fun m => { m with hz := hz, sentAt := s.now }).isoSend (.mark hz)

/-! ### Die-link gaps (R20, R38, R223, R275, R408) -/

/-- A die link passes 2 ms without a valid frame. -/
def dieLinkSilence (d : Nat) (s : State) : State :=
  let last := s.frameAt d true
  if !s.boot.up || !(s.die d).power || (tfind s.mrg.silent d).isSome || decide (s.now - last ≤ 2000000) then s
  else
    let s := s.setMrg fun m => { m with silent := tset m.silent d { since := last, declared := s.now } }
    ((s.procDo (·.dieSilent d)).ledDo (·.dieSilent d)).raise (70 + 32 * d) (lo32 d)

/-- The replay fails: heads with a sensor on the die fault with REPLAY in both channels. -/
def State.replayFail (s : State) (d : Nat) : State := (s.procDo (·.replayFailed d)).ledDo (·.replayFailed d)

/-- More than 100 ms after the last valid frame before a silence its replay fails. -/
def replayTimeout (d : Nat) (s : State) : State :=
  match tfind s.mrg.silent d with
  | some x =>
    if x.failed || decide (s.now - x.since ≤ 100000000) then s
    else (s.setMrg fun m => { m with silent := tset m.silent d { x with failed := true } }).replayFail d
  | none => s

/-- The events of a replay follow on from what HB last released, span by span. -/
def replayFollows (c : ChanCfg) (d : Nat) : List (List Byte) → Table SeqTrack → Bool
  | [], _ => true
  | b :: t, seqs =>
    match c.eventHome d b with
    | none => false
    | some p =>
      let (x, gap) := (tget seqs {} (seqKey p)).take (seqOf b)
      !gap && replayFollows c d t (tset seqs (seqKey p) x)

/-- Valid frames resume on a silent link: accepted replay, or failed replay; the die is a source again. A die that has not applied
the live structure cannot replay (R408). -/
def dieLinkResume (d : Nat) (s : State) : State :=
  match tfind s.mrg.silent d with
  | none => s
  | some x =>
    let s := s.frameSeen d true
    let evs := sortBy (orderKey d) (x.buffer ++ x.late)
    let late := s.str.behind.contains d
    let ok := decide (s.now - x.since ≤ 100000000) && !x.failed && !x.overrun && !late &&
      evs.all (s.saf.chan.cfg.eventOk d) && decide (evs.length ≤ 8192) && replayFollows s.saf.chan.cfg d evs s.mrg.seqs
    let s := s.setMrg fun m => { m with silent := tdel m.silent d }
    let s := s.setStr fun x => { x with behind := x.behind.filter (· != d) }
    let s :=
      if ok then
        let s := evs.foldl (fun s b => s.releaseOne s.mrg.hz true (d, b)) s
        (s.setMrg fun m => { m with procIn := m.procIn ++ [.replayDone d] }).isoSend (.replayDone d)
      else if x.failed then s else s.replayFail d
    (s.raise (70 + 32 * d) (lo32 d)).degCheck

/-- A die has been excluded for more than 100 ms: Degraded (R275). -/
def dieExclusion (_d : Nat) (s : State) : State := s.degCheck

/-! ### Isolation channels (R21) -/

/-- An isolation channel passes 5 ms without a valid frame: Safe-stop, once the start handshake has completed (R523). FD goes out of
service as a source whatever the cause, an FD reset included (R35). -/
def isoSilence (ch : IsoChannel) (s : State) : State :=
  match ch with
  | .a =>
    if s.mrg.deadA || !s.isoSilent 4 then s
    else if !s.fds.shaken then s.setMrg fun m => { m with fdSource := false }
    else ((s.setMrg fun m => { m with deadA := true, fdSource := false, isoA := [] }).causeRaise 0).liveCheck
  | .b =>
    if !s.fds.shaken || s.mrg.deadB || !s.isoSilent 5 then s
    else (((s.setMrg fun m => { m with deadB := true }).setSaf fun f => { f with segs := [] }).causeRaise 1).liveCheck

/-! ### Status of the dies (R28, R157, R186) -/

/-- A stalled crossing is a fault of the level that owns its destination island (R28). -/
def crossingFault (t : CrossingTarget) (s : State) : State :=
  match t with
  | .block d b => s.blockFault d b 1
  | .die d =>
    let s := (s.setDie d { s.die d with dieFault := true }).returnContained d
    let hit := s.str.st == .committing && s.str.commit.any fun c => c.targets.contains d
    (s.when hit (·.commitFail 0x11)).degCheck
  | .package => s.setMrg fun m => { m with pkgFaults := m.pkgFaults + 1 }

/-- A channel knows a span as unavailable. -/
def Channel.knowsAway (g : Channel) (d home : Nat) : Bool :=
  (g.cfg.inSpan d home).any fun cp =>
    let p := g.cfg.cp cp
    let place : SenPlace := { die := d, home := home }
    (p.sa == some place && (g.head cp).unaA) || (p.sb == some place && (g.head cp).unaB)

/-- The returned blocks of a die: HB accepts a restart of their spans and carries it to the ledger (R186). -/
def State.spanRestarts (s : State) (d b : Nat) : State :=
  if !(s.blk d b).back then s
  else
    let s := s.modBlk d b fun x => { x with back := false }
    ((blockLanes b).filter fun i => s.spanCount d i != 0).foldl (fun s i =>
      let k := seqKey (d, i)
      let s := s.setMrg fun m => { m with seqs := tset m.seqs k { tget m.seqs {} k with restart := true } }
      s.isoSend (.spanRestart d i)) s

/-- HB receives a die's status: spans whose availability has changed, returned blocks (R157, R186, R206). -/
def dieStatus (d : Nat) (s : State) : State :=
  if !(s.die d).power || (tfind s.mrg.silent d).isSome then s
  else
    let s := s.frameSeen d true
    let s := blockNumbers.foldl (fun s b => s.spanRestarts d b) s
    let moved := (s.saf.chan.cfg.homes d).filter fun h => s.saf.chan.knowsAway d h != s.spanUnavail d h
    (moved.foldl (fun s h => s.homesAvailable d [h] (!s.spanUnavail d h)) s).degCheck

/-! ### Meanings -/

/-- LINK_FRAME_RECEIVED (R17). -/
def execLinkFrameReceived (dt : Nat) (link : Link) (toHb : Bool) (frame : List Byte) (c : Word) (s : State) : Out :=
  s.after dt (linkFrame link toHb frame c)

/-- IDLE_FRAME_SEND (R18). -/
def execIdleFrameSend (dt d : Nat) (s : State) : Out := s.afterHb dt (idleFrame d)

/-- FD_WATERMARK_SEND (R34). -/
def execFdWatermarkSend (dt : Nat) (s : State) : Out := s.after dt fdWatermark

/-- WATERMARK_RECEIVED (R35). -/
def execWatermarkReceived (dt src stamp : Nat) (s : State) : Out := s.afterHb dt (watermarkReceived src stamp)

/-- SOURCE_EVENT_RECEIVED (R188). -/
def execSourceEventReceived (dt src : Nat) (b : List Byte) (s : State) : Out := s.afterHb dt (sourceEvent src b)

/-- EVENT_RELEASE (R35). -/
def execEventRelease (dt : Nat) (s : State) : Out := s.afterHb dt eventRelease

/-- HORIZON_MARK_SEND (R207). -/
def execHorizonMarkSend (dt : Nat) (s : State) : Out := s.afterHb dt horizonMarkSend

/-- DIE_LINK_SILENCE (R20). -/
def execDieLinkSilence (dt d : Nat) (s : State) : Out := s.afterHb dt (dieLinkSilence d)

/-- DIE_LINK_RESUME (R223). -/
def execDieLinkResume (dt d : Nat) (s : State) : Out := s.afterHb dt (dieLinkResume d)

/-- REPLAY_TIMEOUT (R223). -/
def execReplayTimeout (dt d : Nat) (s : State) : Out := s.afterHb dt (replayTimeout d)

/-- DIE_EXCLUSION_TIMEOUT (R275). -/
def execDieExclusionTimeout (dt d : Nat) (s : State) : Out := s.afterHb dt (dieExclusion d)

/-- ISO_CHANNEL_SILENCE (R21). -/
def execIsoChannelSilence (dt : Nat) (ch : IsoChannel) (s : State) : Out := s.after dt (isoSilence ch)

/-- CROSSING_FAULT (R28). -/
def execCrossingFault (dt : Nat) (t : CrossingTarget) (s : State) : Out := s.afterHb dt (crossingFault t)

/-- DIE_STATUS_FRAME (R157). -/
def execDieStatusFrame (dt d : Nat) (s : State) : Out := s.afterHb dt (dieStatus d)

end Sys2Proof.Machine
end

