-- ==== Sys2Proof/Machine/Combine.lean ====
section
/-!
DEFINITION. The ledger's reception over ISO-A, verdicts and their selection, the combination on FD, Safe-stop causes that clear,
pair faults and pair commands (Safety Architecture, R243 to R277).
-/
namespace Sys2Proof.Machine

/-! ### Limits of FD_CMB_CFG (R251, R265, R267, R273) -/

/-- A limit of FD_CMB_CFG: its structure default while no structure has been loaded. -/
def State.cmbLimit (s : State) (lo dflt : Nat) : Nat :=
  let v := fld (s.reg Reg.FD_CMB_CFG) lo 4
  if v = 0 then dflt else v

def State.discordMax (s : State) : Nat := s.cmbLimit 0 3
def State.verdictTmo (s : State) : Nat := s.cmbLimit 4 3
def State.agreeCyc (s : State) : Nat := s.cmbLimit 12 10
def State.exitMask (s : State) (n : Nat) : Bool := bitOf (s.reg Reg.FD_CMB_CFG) (8 + n)

/-- The length of the evaluation cycle, ns. -/
def State.cycleLen (s : State) : Nat :=
  match fld (s.reg Reg.FD_CMB_CFG) 16 2 with | 1 => 500000 | 2 => 2000000 | _ => 1000000

/-! ### Section commands at a channel (R351) -/

/-- The section number of a section command. -/
def QueuedCmd.section (q : QueuedCmd) : Nat := leNat (bytesAt q.cmd.args 0 2)

/-- A section command at its fencing point, which falls at time `t`; none for another code. -/
def Channel.command (g : Channel) (full : Bool) (t : Nat) (q : QueuedCmd) : Channel × Option SecResult :=
  match q.code with
  | 0x10 => let r := g.resetPrep q.section; (r.1, some r.2)
  | 0x11 => let r := g.resetDirect q.section t q; (r.1, some r.2)
  | 0x12 => let r := g.block q.section; (r.1, some r.2)
  | 0x13 => let r := g.unblock full q.section; (r.1, some r.2)
  | _ => (g, none)

/-! ### The ledger over ISO-A (R262, R263) -/

/-- The mark of cycle `n` has come. -/
def FdSafe.marked (f : FdSafe) (n : Nat) : Bool := decide (n ≤ f.mark) || f.markAhead.contains n

/-- A step message whose boundary FD has reached is applied before anything behind that boundary's mark (R43). -/
def State.fdStepDue (s : State) : Bool := s.tc.fdStep.any fun (x : Nat × Nat) => s.fds.marked x.2

/-- FD takes the item at the front of ISO-A where `f` knows its kind. -/
def isoFront (f : IsoItem → Option (State → State)) (s : State) : State :=
  if !s.fdUp || s.mrg.deadA || s.fdStepDue then s
  else
    match s.mrg.isoA with
    | [] => s
    | i :: t =>
      match f i with
      | none => s
      | some g =>
        let s := (s.setMrg fun m => { m with isoA := t }).frameSeen 4 false
        let s := g s
        ledReplays s.mrg.isoA s

/-- An event breaks the order of R36: a live one by its emission stamp, one of a replay by its keys. -/
def FdSafe.breaksOrder (f : FdSafe) (src : Nat) (b : List Byte) (replay : Bool) : Bool :=
  if replay then f.lastKey.any fun k => decide (orderKey src b < k)
  else f.lastEmit.any fun e => decide (emitOf b < e)

/-- The ledger's sequence check of an event (R212, R292). -/
def State.ledSeq (s : State) (src : Nat) (b : List Byte) : State :=
  match s.fds.led.cfg.eventHome src b with
  | none => s
  | some p =>
    let (t, gap) := (tget s.fds.seqs {} (seqKey p)).take (seqOf b)
    let s := s.setFds fun f => { f with seqs := tset f.seqs (seqKey p) t }
    s.when gap (·.ledDo (s.dataFaultOf src b))

/-- An event that fails its CHECK is discarded and counted, and the heads of R212 fault. -/
def State.ledDiscard (s : State) (src : Nat) (b : List Byte) : State :=
  let n := fld (s.reg Reg.FD_CMB_CHKERR) 0 16
  ((s.setReg Reg.FD_CMB_CHKERR (lo32 (min 0xFFFF (n + 1)))).setEvt Reg.FD_CMB_EVT 4).ledDo (s.dataFaultOf src b)

/-- The ledger takes a released or replayed event with its horizon. -/
def State.ledEvent (s : State) (src : Nat) (b : List Byte) (hz : Nat) (replay : Bool) : State :=
  if s.fds.breaksOrder src b replay then (s.setMrg fun m => { m with goodA := s.now }).causeRaise 0
  else
    let s := s.setFds fun f =>
      if replay then { f with lastKey := some (orderKey src b) } else { f with lastEmit := some (emitOf b) }
    let s := if s.fds.led.cfg.eventOk src b then (s.ledSeq src b).ledDo (·.event true src b) else s.ledDiscard src b
    s.ledDo fun g => (g.horizon hz).updateAll true

def releasedEventReceived : State → State :=
  isoFront fun i => match i with | .event src b hz replay => some fun s => s.ledEvent src b hz replay | _ => none

def horizonMarkReceived : State → State :=
  isoFront fun i => match i with | .mark hz => some (·.ledDo fun g => (g.horizon hz).updateAll true) | _ => none

/-- The span or legacy head may start again at sequence number 0 (R186). -/
def spanRestartReceived : State → State :=
  isoFront fun i =>
    match i with
    | .spanRestart d home => some fun s =>
        let k := seqKey (d, home)
        s.setFds fun f => { f with seqs := tset f.seqs k { tget f.seqs {} k with restart := true } }
    | _ => none

/-- Everything up to cycle `n` is recent enough (R265); c is the cycle that runs. -/
def State.recent (s : State) (n : Nat) : Bool := decide (s.saf.cycle ≤ n + s.verdictTmo)

/-- The last cycle of an unbroken account, once the cycles in `ahead` stand behind it, and those that still lie beyond a gap. -/
def unbroken : (fuel n : Nat) → (ahead : List Nat) → Nat × List Nat
  | 0, n, ahead => (n, ahead)
  | k + 1, n, ahead => if ahead.contains (n + 1) then unbroken k (n + 1) (ahead.filter (· != n + 1)) else (n, ahead)

/-- The account of R265 after cycle `x` has come. An account that is late begins anew with the first cycle that is recent (DESIGN
CHOICE): the cycles that were missed never come. -/
def accountTake (late recent : Bool) (n : Nat) (ahead : List Nat) (x : Nat) : Nat × List Nat :=
  if late then if recent then (x, []) else (n, ahead)
  else if x ≤ n then (n, ahead)
  else unbroken (ahead.length + 1) n (x :: ahead)

/-- A cycle mark: the commands of the cycle, the cycle state c at the horizon with the keys of the verdict's last event, the latches
of R284 (R263). -/
def State.ledCycle (s : State) (n tc hz key : Nat) (cmds : List QueuedCmd) : State :=
  let s := s.ledDo fun g => (cmds.foldl (fun (g : Channel) q => (g.command true tc q).1) (g.horizon hz)).updateAll true
  let a := accountTake s.fds.markLate (s.recent n) s.fds.mark s.fds.markAhead n
  let s := s.setFds fun f => { f with
    cycles := ((n, ⟨key, s.tc.fd, f.led.states⟩) :: f.cycles).take 16
    mark := a.1, markAhead := a.2, markLate := f.markLate && !s.recent n }
  s.latchMark.liveCheck

def cycleMarkReceived : State → State :=
  isoFront fun i => match i with | .cycle n tc hz key cmds => some fun s => s.ledCycle n tc hz key cmds | _ => none

/-! ### Verdicts (R252 to R254) -/

/-- What the selector sends of a section whose Active and Standby codes are given. -/
def selectCode (active standby : Nat) : Nat := if active = 0 ∧ standby ≠ 0 then standby else active

/-- The Standby's codes beside the Active's: sections the list does not reach take the Active's code. -/
def standbyStates : Table Nat → List Nat → Table Nat
  | [], _ => []
  | t, [] => t
  | (n, _) :: t, c :: l => (n, c) :: standbyStates t l

/-- The pairs form a second verdict: two pairs run the processor channel. -/
def Saf.twoRun (f : Saf) : Bool :=
  let p := f.pair (!f.activeB)
  p.st == .inService || (p.st == .returning && p.copied)

/-- The selector's account of a compared cycle: `diff` the sections that differ (R254, R257). -/
def State.selectNote (s : State) (diff : List Nat) : State :=
  let b := !s.saf.activeB
  match diff.getLast? with
  | none =>
    s.setSaf fun f =>
      let p := f.pair b
      { f.setPair b { p with run := if p.st = .returning then p.run + 1 else 0 } with diffs := 0 }
  | some sec =>
    let n := fld (s.reg Reg.HB_SAF_DISCORD) 0 16
    let s := (s.setReg Reg.HB_SAF_DISCORD (word [(0, 16, min 0xFFFF (n + diff.length)), (16, 11, sec)])).setEvt Reg.HB_SAF_EVT 4
    let s := s.setSaf fun f => { f.setPair b { f.pair b with run := 0 } with diffs := f.diffs + 1 }
    s.when (decide (3 ≤ s.saf.diffs)) (·.pairFault b 7)

/-- The selector sends the verdict of the cycle: eight segments of 256 sections. `standby`: the Standby's codes of the sections in
use, in rising order, where its verdict is there. -/
def verdictSend (standby : Option (List Nat)) (s : State) : State :=
  match s.saf.ready with
  | none => s
  | some v =>
    let two := !s.boot.split && s.saf.twoRun
    let other := match standby, two with | some l, true => standbyStates v.states l | _, _ => v.states
    let out := (v.states.zip other).map fun (e : (Nat × Nat) × (Nat × Nat)) => (e.1.1, selectCode e.1.2 e.2.2)
    let diff := ((v.states.zip other).filter fun (e : (Nat × Nat) × (Nat × Nat)) => e.1.2 != e.2.2).map fun e => e.1.1
    let seg := fun (i : Nat) => ({
      cycle := v.cycle, index := i, pairB := s.saf.activeB
      states := out.filter fun (e : Nat × Nat) => e.1 / 256 == i
      other := other.filter fun (e : Nat × Nat) => e.1 / 256 == i
      key := v.key, stamp := v.stamp } : Segment).sealed
    let go := s.fdUp && s.boot.shaken && !s.mrg.deadB
    let s := s.setSaf fun f => { f with
      ready := none, sentCycle := v.cycle, sentStates := out, sentOther := other, standbyIn := f.standbyIn || standby.isSome
      segs := if go then f.segs ++ (List.range 8).map seg else [] }
    s.when (two && standby.isSome) (·.selectNote diff)

/-- A pair's verdict is still missing 400 µs after the boundary (R248). -/
def verdictDeadline (b : Bool) (s : State) : State :=
  let missing := if s.saf.activeB = b then s.saf.ready.isSome else s.saf.twoRun && !s.saf.standbyIn
  if s.saf.running && missing && decide (s.saf.cycleAt + 400000 ≤ s.now) then s.pairFault b 6 else s

/-- FD takes the segment at the front of ISO-B; one that fails its check is discarded; the eighth completes the verdict of its cycle
(R253, R255, R265). -/
def verdictSegment (s : State) : State :=
  match s.saf.segs, s.fdUp && !s.mrg.deadB with
  | x :: t, true =>
    let s := s.setSaf fun f => { f with segs := t }
    if !x.whole then s.setMrg fun m => { m with errors := tset m.errors 5 (tget m.errors 0 5 + 1) }
    else
    let s := s.frameSeen 5 false
    let (have0, states0) := tget s.fds.parts ([], []) x.cycle
    let held := if have0.contains x.index then have0 else x.index :: have0
    let states := x.states.foldl (fun (t : Table Nat) (e : Nat × Nat) => tset t e.1 e.2) states0
    if held.length < 8 then s.setFds fun f => { f with parts := tset f.parts x.cycle (held, states) }
    else
      let a := accountTake s.fds.verdictLate (s.recent x.cycle) s.fds.verdict s.fds.verdictAhead x.cycle
      (s.setFds fun f => { f with
        parts := f.parts.filter fun (e : Nat × (List Nat × Table Nat)) => decide (x.cycle < e.1)
        whole := tset f.whole x.cycle ⟨x.key, x.stamp, states⟩, verdict := a.1, verdictAhead := a.2
        verdictLate := f.verdictLate && !s.recent x.cycle }).liveCheck
  | _, _ => s

/-! ### Liveness by time (R265, R271) -/

/-- A verdict or a cycle mark is missing at VERDICT_TMO. -/
def verdictTimeout (side : EvalSide) (s : State) : State :=
  if !s.fdUp then s
  else
    match side with
    | .processor =>
      if s.recent s.fds.verdict || s.fds.verdictLate then s
      else ((s.setFds fun f => { f with verdictLate := true }).setEvt Reg.FD_CMB_EVT 1).liveCheck
    | .ledger =>
      if s.recent s.fds.mark || s.fds.markLate then s
      else (s.setFds fun f => { f with markLate := true }).liveCheck

/-- The processor channel has not been live for 5 ms while ISO-B is live. -/
def verdictLoss (s : State) : State :=
  match s.fds.deadAt with
  | some t =>
    if s.fdUp && s.boot.shaken && !s.mrg.deadB && decide (max t s.mrg.goodB + 5000000 ≤ s.now) then s.causeRaise 3 else s
  | none => s

/-! ### Combination (R266, R267) -/

/-- The oldest cycle of which FD holds a whole verdict and the ledger's cycle state. -/
def FdSafe.comparable (f : FdSafe) : Option Compared :=
  f.whole.findSome? fun (e : Nat × CycleStates) => (tfind f.cycles e.1).map fun led => ⟨e.1, e.2.states, led.states⟩

/-- The sections that differ in a comparison: an unlisted section is unused, Fh. -/
def Compared.discords (c : Compared) : List Nat :=
  let keys := c.proc.map (·.1) ++ (c.led.map (·.1)).filter fun n => (tfind c.proc n).isNone
  keys.filter fun n => tget c.proc 15 n != tget c.led 15 n

/-- Discord holds after a comparison. -/
def holdsAfter (hold : Table Nat) (bad : List Nat) (agree : Nat) : Table Nat :=
  let kept := (hold.filter fun (e : Nat × Nat) => bad.contains e.1 || decide (e.2 + 1 < agree)).map fun (e : Nat × Nat) => (e.1, e.2 + 1)
  bad.foldl (fun (t : Table Nat) n => tset t n 0) kept

/-- FD compares a cycle and sets the outputs. -/
def combinationCompare (s : State) : State :=
  match s.fds.comparable, s.fdUp with
  | some c, true =>
    let bad := c.discords
    let s := s.setFds fun f => { f with
      cmp := some c, whole := f.whole.filter fun (e : Nat × CycleStates) => decide (c.cycle < e.1)
      hold := holdsAfter f.hold bad s.agreeCyc, run := if bad.isEmpty then 0 else min 15 (f.run + 1)
      discSec := bad.getLast?.getD f.discSec, discCount := (f.discCount + bad.length) % 65536 }
    let s := s.when (!bad.isEmpty) (·.setEvt Reg.FD_CMB_EVT 0)
    let s := s.when (decide (0 < s.fds.run) && decide (s.discordMax ≤ s.fds.run)) (·.causeRaise 5)
    s.voCompared
  | _, _ => s

/-! ### Safe-stop causes (R264, R271) -/

/-- The clearing condition of a cause, which has held for its time; DISCORD and COMMAND clear at entry. -/
def State.causeGone (s : State) (k : Nat) : Bool :=
  match k with
  | 0 => !s.mrg.deadA && s.boot.shaken && decide (s.mrg.goodA + 100000000 ≤ s.now)
  | 1 => !s.mrg.deadB && s.boot.shaken && decide (s.mrg.goodB + 100000000 ≤ s.now)
  | 2 => s.saf.inService
  | 3 => s.procLive
  | 4 => !s.fds.fault
  | 6 => !s.fds.internal
  | 7 => voNumbers.all fun i => !(s.vo i).stuck
  | 8 => !s.supplyBad && decide (s.fdin.goodAt + 1000000000 ≤ s.now)
  | 9 => s.fds.digestOk
  | _ => false

def safeStopCauseClear (k : Nat) (s : State) : State := if s.fdUp && s.causeGone k then s.causeClear k else s

/-- The copies of the ledger differ, or its RAM holds an uncorrectable error. -/
def ledgerFault (s : State) : State :=
  if s.fdUp then ((s.setFds fun f => { f with fault := true }).causeRaise 4).liveCheck else s

def ledgerScrub (r : ScrubResult) (s : State) : State :=
  if !s.fdUp then s
  else match r with
    | .clean => s
    | .corrected => s.setEvt Reg.FD_CMB_EVT 5
    | .uncorrectable => ledgerFault s

/-- A combiner rail fault or an oscillator fault of FD. -/
def fdInternalFault (s : State) : State :=
  if s.fdUp then (s.setFds fun f => { f with internal := true }).causeRaise 6 else s

/-- A supply has been out of range for 1 ms (R279). -/
def fieldSupplyFault (s : State) : State := if s.fdUp && s.supplyBad then s.causeRaise 8 else s

/-! ### Pairs (R245 to R250, R257, R260) -/

/-- Pair B. -/
def isB : Pair → Bool
  | .a => false
  | .b => true

/-- The code of R248 of what a comparator finds. -/
def mismatchCause : MismatchCause → Nat
  | .compare => 1
  | .parity => 3
  | .rail => 4

/-- A test mismatch in a pair that runs: it passes where exactly the inverted position is reported on both rails (R247). -/
def pairSelftest (b : Bool) (reports : List Nat) (railsOk : Bool) (s : State) : State :=
  let p := s.saf.pair b
  if s.boot.split || !(p.st == .inService || (p.st == .returning && p.tested)) then s
  else if railsOk && reports == [p.bit] then
    s.setSaf fun f => f.setPair b { p with passes := (p.passes + 1) % 65536, bit := (p.bit + 1) % Config.comparedBits }
  else s.pairFault b 2

/-- The result of a pair command; a refused one sets CMD_REFUSED (R277). -/
def State.safResult (s : State) (res : Nat) : State :=
  let s := s.setSaf fun f => { f with res := res }
  s.when (res != 0) (·.setEvt Reg.HB_SAF_EVT 6)

/-- The states in which a pair may be returned. -/
def State.returnAllowed (s : State) : Bool :=
  s.dev == .service || s.dev == .degraded || s.dev == .maintenance || s.dev == .safeStop

/-- A pair command runs. -/
def Saf.commandRuns (f : Saf) : Bool := f.busy.isSome || f.swap

def safReturn (b : Bool) (s : State) : State :=
  if s.boot.split || !s.returnAllowed then s.safResult 1
  else if s.saf.commandRuns then s.safResult 3
  else if (s.saf.pair b).st = .inService then s.safResult 2
  else (s.setSaf fun f => { f.setPair b { f.pair b with st := .returning } with busy := some b }).safResult 0

def safInject (b : Bool) (s : State) : State :=
  if s.boot.split || s.dev != .maintenance then s.safResult 1
  else if s.saf.commandRuns then s.safResult 3
  else if (s.saf.pair b).st != .inService then s.safResult 1
  else if (s.saf.pair !b).st != .inService then s.safResult 6
  else (s.safResult 0).pairFault b 9

def safSwap (s : State) : State :=
  if s.boot.split || s.dev != .maintenance then s.safResult 1
  else if s.saf.commandRuns then s.safResult 3
  else if s.saf.a.st != .inService || s.saf.b.st != .inService then s.safResult 1
  else (s.setSaf fun f => { f with swap := true }).safResult 0

/-- A write to HB_SAF_CMD by a master that may write it. -/
def safCommand (v : Word) (s : State) : State :=
  let b := bitOf v 2
  if s.boot.split then s.safResult 1
  else
    match fld v 0 2 with
    | 0 => safReturn b s
    | 1 => safInject b s
    | 2 => safSwap s
    | _ => s.safResult 5

/-- The self-test of a returning pair ends; with no pair in service it starts the processor channel (R257). -/
def returnSelftest (b pass : Bool) (s : State) : State :=
  let p := s.saf.pair b
  if s.saf.busy ≠ some b ∨ p.st ≠ .returning ∨ p.tested then s
  else if !pass then s.pairFault b 10
  else
    let s := s.setSaf fun f => f.setPair b { p with tested := true }
    s.when (!s.saf.inService) State.procStart

/-- 1,000 cycles without a selector difference. -/
def returnComplete (b : Bool) (s : State) : State :=
  let p := s.saf.pair b
  if p.st = .returning ∧ p.copied ∧ 1000 ≤ p.run then s.pairBack b else s

/-- A JTAG halt (R260). -/
def debugHalt (b : Bool) (s : State) : State :=
  let p := s.saf.pair b
  if s.boot.split || s.dev != .maintenance || !s.boot.jtagOpen || (p.st != .inService && p.st != .returning) then s.safResult 1
  else if p.st = .inService ∧ (s.saf.pair !b).st ≠ .inService then s.safResult 6
  else (s.safResult 0).pairFault b 8

/-! ### Views -/

def PairState.code : PairState → Nat
  | .inService => 0 | .faulted => 1 | .returning => 2 | .halted => 3

def safView (s : State) (o : Nat) : Option Word :=
  let f := s.saf
  let fault := fun (p : PairSt) => word [(0, 4, p.cause), (16, 16, p.count)]
  match o with
  | 0x00 => some (word [(0, 2, f.a.st.code), (2, 2, f.b.st.code), (4, 1, b2n f.activeB), (5, 1, b2n s.boot.split)])
  | 0x0C => some (word [(0, 1, b2n f.commandRuns), (1, 4, f.res)])
  | 0x10 => some (fault f.a)
  | 0x14 => some (fault f.b)
  | 0x18 => some (word [(0, 16, f.a.passes), (16, 16, f.b.passes)])
  | _ => none

/-- The states of sections 8w to 8w + 7, as HB_SEC_STATE codes them. -/
def stateWord (states : Table Nat) (w : Nat) : Word :=
  word ((List.range 8).map fun i => (4 * i, 4, tget states 15 (8 * w + i)))

def cmbView (s : State) (o : Nat) : Option Word :=
  let f := s.fds
  match o with
  | 0x00 => some (word [(0, 1, b2n s.procLive), (1, 1, b2n s.ledgerLive), (2, 1, b2n f.first.isSome), (3, 1, b2n f.split),
      (4, 1, b2n s.exitReady), (8, 4, f.run)])
  | 0x0C => some s.ssWord
  | 0x10 => some (word [(0, 11, f.discSec), (16, 16, f.discCount)])
  | 0x14 => some (lo32 ((f.cmp.map (·.cycle)).getD 0))
  | _ => if 0x100 ≤ o ∧ o < 0x500 then f.cmp.map fun c => stateWord c.led ((o - 0x100) / 4) else none

/-! ### Meanings -/

/-- RELEASED_EVENT_RECEIVED (R262). -/
def execReleasedEventReceived (dt : Nat) (s : State) : Out := s.afterFd dt releasedEventReceived

/-- HORIZON_MARK_RECEIVED (R207). -/
def execHorizonMarkReceived (dt : Nat) (s : State) : Out := s.afterFd dt horizonMarkReceived

/-- CYCLE_MARK_RECEIVED (R263). -/
def execCycleMarkReceived (dt : Nat) (s : State) : Out := s.afterFd dt cycleMarkReceived

/-- SPAN_RESTART_MARK_RECEIVED (R186). -/
def execSpanRestartMarkReceived (dt : Nat) (s : State) : Out := s.afterFd dt spanRestartReceived

/-- VERDICT_SEND (R253, R254). -/
def execVerdictSend (dt : Nat) (standby : Option (List Nat)) (s : State) : Out := s.afterHb dt (verdictSend standby)

/-- VERDICT_DEADLINE (R248). -/
def execVerdictDeadline (dt : Nat) (pr : Pair) (s : State) : Out := s.afterHb dt (verdictDeadline (isB pr))

/-- VERDICT_SEGMENT_RECEIVED (R253). -/
def execVerdictSegmentReceived (dt : Nat) (s : State) : Out := s.after dt verdictSegment

/-- COMBINATION_COMPARE (R266). -/
def execCombinationCompare (dt : Nat) (s : State) : Out := s.after dt combinationCompare

/-- VERDICT_TIMEOUT (R265). -/
def execVerdictTimeout (dt : Nat) (side : EvalSide) (s : State) : Out := s.after dt (verdictTimeout side)

/-- VERDICT_LOSS (R271). -/
def execVerdictLoss (dt : Nat) (s : State) : Out := s.after dt verdictLoss

/-- SAFE_STOP_CAUSE_CLEAR (R271). -/
def execSafeStopCauseClear (dt code : Nat) (s : State) : Out := s.after dt (safeStopCauseClear code)

/-- LEDGER_FAULT (R264). -/
def execLedgerFault (dt : Nat) (s : State) : Out := s.after dt ledgerFault

/-- LEDGER_SCRUB (R264). -/
def execLedgerScrub (dt : Nat) (r : ScrubResult) (s : State) : Out := s.after dt (ledgerScrub r)

/-- FD_INTERNAL_FAULT (R271). -/
def execFdInternalFault (dt : Nat) (s : State) : Out := s.after dt fdInternalFault

/-- FIELD_SUPPLY_FAULT (R279). -/
def execFieldSupplyFault (dt : Nat) (s : State) : Out := s.after dt fieldSupplyFault

/-- PAIR_COMPARATOR_MISMATCH (R245, R246). -/
def execPairComparatorMismatch (dt : Nat) (pr : Pair) (c : MismatchCause) (s : State) : Out :=
  s.afterHb dt (·.pairFault (isB pr) (mismatchCause c))

/-- PAIR_SELFTEST_INJECT (R247). -/
def execPairSelftestInject (dt : Nat) (pr : Pair) (reports : List Nat) (railsOk : Bool) (s : State) : Out :=
  s.afterHb dt (pairSelftest (isB pr) reports railsOk)

/-- PAIR_RETURN_SELFTEST_DONE (R257). -/
def execPairReturnSelftestDone (dt : Nat) (pr : Pair) (pass : Bool) (s : State) : Out :=
  s.afterHb dt (returnSelftest (isB pr) pass)

/-- PAIR_RETURN_COMPLETE (R257). -/
def execPairReturnComplete (dt : Nat) (pr : Pair) (s : State) : Out := s.afterHb dt (returnComplete (isB pr))

/-- DEBUG_HALT (R260). -/
def execDebugHalt (dt : Nat) (pr : Pair) (s : State) : Out := s.afterHb dt (debugHalt (isB pr))

end Sys2Proof.Machine
end

