-- ==== Sys2Proof/Machine/Dma.lean ====
section
/-!
DEFINITION. The state of the DMA engines: owners, doorbells, aborts, ends and stops of runs, status slots, the HB_DMA registers
(DMA Engines and Programs, R441 to R447, R455 to R458, R462).
-/
namespace Sys2Proof.Machine

def State.eng (s : State) (e : Nat) : DmaEng := tget s.dma {} e
def State.setEng (s : State) (e : Nat) (g : DmaEng) : State := { s with dma := tset s.dma e g }
def DmaEng.chan (g : DmaEng) (c : Nat) : DmaChan := tget g.chans {} c
def DmaEng.setChan (g : DmaEng) (c : Nat) (x : DmaChan) : DmaEng := { g with chans := tset g.chans c x }
def State.dmaChan (s : State) (e c : Nat) : DmaChan := (s.eng e).chan c
def State.modChan (s : State) (e c : Nat) (f : DmaChan → DmaChan) : State := s.setEng e ((s.eng e).setChan c (f (s.dmaChan e c)))

/-- The owner domain of an engine (R441); none for the hub firmware. -/
def State.dmaOwner (s : State) (e : Nat) : Option Nat :=
  if 6 ≤ e then none
  else if s.str.live.isNone then (if e < 2 then some e else none)
  else [0, 1].find? fun d => s.roleBit d (5 + e)

/-! ### Addresses (R443, R546, R547) -/

/-- Where a global address lies. -/
inductive DmaRegion where
  /-- register layout -/
  | regs
  /-- plaza, outside the parts below -/
  | plaza
  /-- vital working region of a pair -/
  | vital
  | profile
  | staging
  | nv
  /-- host aperture of a PCIe port -/
  | host (p : Nat)
  /-- nothing responds -/
  | hole
deriving DecidableEq, Repr

def dmaRegion (a : Nat) : DmaRegion :=
  if a < 0x400000 then .regs
  else if plazaBase ≤ a ∧ a < plazaEnd then
    let o := a - plazaBase
    if 0x300000 ≤ o ∧ o < 0x400000 then .vital
    else if 0x500000 ≤ o ∧ o < 0x600000 then .profile
    else if 0x600000 ≤ o ∧ o < 0x800000 then .staging
    else .plaza
  else if 0x2000000 ≤ a ∧ a < 0x3000000 then .nv
  else if 0x800000000000 ≤ a ∧ a < 0xC00000000000 then .host 0
  else if 0xC00000000000 ≤ a ∧ a < 0x1000000000000 then .host 1
  else .hole

/-- The memory key of a global address. -/
def dmaKey (a : Nat) : Nat :=
  match dmaRegion a with
  | .host p => hostAddr p (a - (if p = 0 then 0x800000000000 else 0xC00000000000))
  | _ => a

/-- An access violates R443: cause DMA_FOREIGN. The staging area has the rule of R398 besides. -/
def State.dmaForeign (s : State) (e a : Nat) (write : Bool) : Bool :=
  match s.dmaOwner e, dmaRegion a with
  | none, .nv => true
  | none, _ => false
  | some d, .host p => d != p
  | some _, .profile => write
  | some _, .staging => false
  | some _, _ => true

/-- An access to the staging area by a domain's engine while another domain, or none, owns staging: cause ROLE (R398). -/
def State.dmaRole (s : State) (e a : Nat) : Bool :=
  match s.dmaOwner e, dmaRegion a with
  | some d, .staging => s.str.owner != some d
  | _, _ => false

/-- An access that nothing answers, or that the plaza answers with an error: a bus error (R457). -/
def dmaDead (a : Nat) : Bool := dmaRegion a == .hole || dmaRegion a == .vital

/-! ### Check values (R452) -/

/-- CRC-32 as CODE_H of R384. -/
def crc32 : CrcParams := ⟨32, 0x04C11DB7, 0xFFFFFFFF, 0xFFFFFFFF, true, true⟩

/-- CRC-16/CCITT of R452. -/
def crc16ccitt : CrcParams := ⟨16, 0x1021, 0xFFFF, 0, false, false⟩

/-- The preset of a run, none for 11b. -/
def DmaRun.preset (r : DmaRun) : Option CrcParams :=
  match fld r.cfg 0 2 with
  | 0 => some crc32c
  | 1 => some crc32
  | 2 => some crc16ccitt
  | _ => none

/-- The initial running value. -/
def DmaRun.crcInit (r : DmaRun) : Nat := match r.preset with | some p => p.init % 2 ^ p.width | none => 0

/-- The value that a slot or a CRCSTORE shows. -/
def DmaRun.crcOut (r : DmaRun) : Nat := match r.preset with | some p => crcFinal p r.crc | none => 0

/-! ### The end of a run -/

/-- A status slot (R445), OWN = 0. -/
def DmaRun.slotBytes (r : DmaRun) (res : Nat) : List Byte :=
  leBytes 4 (res + 256 * min 15 r.progRetries) ++ leBytes 4 (min 0xFFFFFFFF r.progExec) ++ leBytes 4 r.crcOut ++ leBytes 4 r.pc

/-- Raise a channel's event source (R362, R462). -/
def State.dmaRaise (s : State) (e c : Nat) : State := s.raise (384 + 16 * e + c) (lo32 (16 * e + c))

/-- The channel's figures of a run (R462). -/
def DmaRun.figures (r : DmaRun) (x : DmaChan) : DmaChan :=
  { x with retries := min 15 r.retries, exec := min 0xFFFFFFFF r.exec, progs := r.progs, cur := r.prog }

/-- The run of an engine ends with a result; `slot`: its slot has been written (R446, R447, R462). -/
def State.dmaDone (s : State) (e res : Nat) (slot : Bool) : State :=
  match (s.eng e).run with
  | none => s
  | some r =>
    let x := r.figures (s.dmaChan e r.ch)
    let x := { x with st := if res = 8 then .frozen else .idle, res := res, slot := slot }
    let s := (s.setEng e { (s.eng e).setChan r.ch x with run := none }).setEvt (Reg.HB_DMA_EVT e) r.ch
    s.when (res != 0 || bitOf r.cfg 6) (·.dmaRaise e r.ch)

/-- A queued channel leaves the queue with a result. -/
def State.dmaUnqueue (s : State) (e c res : Nat) : State :=
  let g := s.eng e
  let s := s.setEng e { g.setChan c { g.chan c with st := .idle, res := res, slot := false } with queue := g.queue.filter (· != c) }
  s.dmaRaise e c

/-- The channels of an engine stop (R457). -/
def State.dmaStopEngine (s : State) (e : Nat) : State :=
  let s := s.dmaDone e 10 false
  (s.eng e).queue.foldl (fun s c => s.dmaUnqueue e c 10) s

/-- The engines of a domain stop. -/
def State.dmaStop (s : State) (d : Nat) : State :=
  ((List.range 6).filter fun e => s.dmaOwner e == some d).foldl State.dmaStopEngine s

/-! ### Doorbells and aborts (R455, R458) -/

/-- An access that is ignored: cause 1 doorbell, 2 configuration write, 3 ABORT_IDLE. -/
def State.dmaIgnore (s : State) (e c cause : Nat) : State :=
  (s.modChan e c fun x => { x with ignored := cause }).setEvt (Reg.HB_DMA_EVT e) (16 + c)

def dmaDoorbell (e c : Nat) (s : State) : State :=
  let g := s.eng e
  if (g.chan c).st ≠ .idle then s.dmaIgnore e c 1
  else s.setEng e { g.setChan c { g.chan c with st := .queued, abortIgn := false } with queue := g.queue ++ [c] }

/-- Change the run of an engine. -/
def State.setRun (s : State) (e : Nat) (r : DmaRun) : State := s.setEng e { s.eng e with run := some r }

/-- An abort of the running channel (R458): the final write-back begins, and it takes no abort any more. -/
def State.dmaAbortRun (s : State) (e : Nat) (r : DmaRun) : State :=
  match r.phase with
  | .writeBack _ => s.modChan e r.ch fun x => { x with abortIgn := true }
  | .slot => s.dmaDone e 2 false
  | _ => s.setRun e { r with phase := .writeBack 2, failed := false }

def dmaAbort (e c : Nat) (s : State) : State :=
  match (s.dmaChan e c).st with
  | .queued => s.dmaUnqueue e c 2
  | .running =>
    match (s.eng e).run with
    | some r => s.dmaAbortRun e r
    | none => s
  | _ => s.dmaIgnore e c 3

/-- The engine is free and takes the channel at the head of its queue (R455). -/
def dmaChannelStart (e : Nat) (s : State) : State :=
  let g := s.eng e
  match g.run, g.queue with
  | none, c :: rest =>
    let prog := (s.reg (Reg.HB_DMA_CH_PROG_LO e c)).toNat + 2 ^ 32 * (s.reg (Reg.HB_DMA_CH_PROG_HI e c)).toNat
    let b := (s.reg (Reg.HB_DMA_CH_BUDGET e c)).toNat
    let r : DmaRun := { ch := c, cfg := s.reg (Reg.HB_DMA_CH_CFG e c), budget := if b = 0 then 2 ^ 32 else b, prog := prog }
    let r := { r with crc := r.crcInit }
    s.setEng e { g.setChan c (r.figures { g.chan c with st := .running }) with queue := rest, run := some r }
  | _, _ => s

/-! ### Registers (R462) -/

/-- The stored part of a write to a channel's register `k`: CFG, PROG_LO, PROG_HI, BUDGET. -/
def dmaStored (k : Nat) (v : Word) : Word :=
  match k with
  | 0 => v &&& 0x7F
  | 1 => v &&& 0xFFFFFFF0
  | 2 => v &&& 0xFFFF
  | _ => v

/-- Writes of HB_DMA of engine `e`. -/
def dmaWrite (s : State) (e o : Nat) (v : Word) : State :=
  if o = 4 then dmaDoorbell e (fld v 0 4) s
  else if o = 8 then dmaAbort e (fld v 0 4) s
  else if 0x100 ≤ o ∧ o < 0x300 ∧ (o - 0x100) % 32 < 16 then
    let c := (o - 0x100) / 32
    let st := (s.dmaChan e c).st
    if st = .queued ∨ st = .running then s.dmaIgnore e c 2
    else s.setReg (0x300000 + 0x1000 * e + o) (dmaStored ((o - 0x100) % 32 / 4) v)
  else s

def dmaStCode : DmaSt → Nat
  | .idle => 0 | .queued => 1 | .running => 2 | .frozen => 3

/-- A channel with the figures of its run while it runs. -/
def State.dmaShown (s : State) (e c : Nat) : DmaChan :=
  match (s.eng e).run with
  | some r => if r.ch = c then r.figures (s.dmaChan e c) else s.dmaChan e c
  | none => s.dmaChan e c

/-- Views of HB_DMA. -/
def dmaView (s : State) (e o : Nat) : Option Word :=
  let g := s.eng e
  match o with
  | 0x0 => some (word [(0, 3, (s.dmaOwner e).getD 7), (3, 1, b2n g.run.isSome), (4, 4, (g.run.map (·.ch)).getD 0)])
  | 0xC => some (word [(0, 16, g.queue.foldl (fun a c => a + 2 ^ c) 0), (16, 4, g.queue.length)])
  | _ =>
    if 0x100 ≤ o ∧ o < 0x300 then
      let x := s.dmaShown e ((o - 0x100) / 32)
      match (o - 0x100) % 32 with
      | 0x10 => some (word [(0, 2, dmaStCode x.st), (2, 4, x.res), (6, 1, b2n x.abortIgn), (7, 1, b2n x.slot), (8, 2, x.ignored),
          (10, 4, x.retries)])
      | 0x14 => some (lo32 x.exec)
      | 0x18 => some (word [(0, 13, x.progs), (13, 19, x.cur / 16)])
      | 0x1C => some (lo32 x.sigval)
      | _ => none
    else none

/-! ### Meanings -/

/-- DMA_CHANNEL_START (R455). -/
def execDmaChannelStart (dt e : Nat) (s : State) : Out := s.afterHb dt (dmaChannelStart e)

end Sys2Proof.Machine
end

