-- ==== Sys2Proof/Machine/Cvu.lean ====
section
/-!
DEFINITION. Check-value units: settings, scan passes over the plaza and the NV store, faults they find, snoop units (Check-Value
Units, R463 to R472; the layout of the NV store, R418, R421, R426, R431, R434).
-/
namespace Sys2Proof.Machine

def State.cvUnit (s : State) (u : Nat) : Cvu := tget s.cvu {} u
def State.setCvUnit (s : State) (u : Nat) (c : Cvu) : State := { s with cvu := tset s.cvu u c }

/-! ### The NV store as a scan reads it (R418) -/

def nvBase : Nat := 0x2000000
def nvEnd : Nat := 0x3000000

/-- The 32 bytes of slot `b` of record `k` (R421). -/
def wpSlotBytes (k : Nat) (b : Bool) (x : WpSlot) : List Byte :=
  let body := leBytes 4 x.value.toNat ++ leBytes 4 k ++ leBytes 8 x.wear
  let c := crcFold crc32c (0xF00000 + 64 * k + 32 * b2n b) body
  body ++ leBytes 4 c ++ leBytes 4 c ++ List.replicate 8 0

/-- The byte at an offset of the NV store: content that the state does not hold is a free value. -/
def State.nvByte (s : State) (o : Nat) : Byte :=
  if o < 0x300000 then Config.nvByte o s.boot.fwGenA
  else if o < 0x600000 then Config.nvByte o s.boot.fwGenB
  else if o < 0xA00000 then
    let x := if o < 0x800000 then s.str.slotA else s.str.slotB
    match x.bytes[o % 0x200000]? with
    | some b => if x.sound then b else Config.nvByte o x.gen
    | none => Config.nvByte o x.gen
  else if o < 0xE00000 then
    match s.journal.find? fun e => (e.seq - 1) % journalSlots == (o - 0xA00000) / 32 with
    | some e => if e.sound then (jBytes e).getD (o % 32) 0 else Config.nvByte o e.seq
    | none => 0
  else if o < 0xE80000 then
    match s.clog.find? fun e => (e.seq - 1) % changeLogSlots == (o - 0xE00000) / 128 with
    | some e => if e.sound then e.bytes.getD (o % 128) 0 else Config.nvByte o e.seq
    | none => 0
  else if o < 0xEC0000 then Config.nvByte o s.bankA.gen
  else if o < 0xF00000 then Config.nvByte o s.bankB.gen
  else if o < 0xF10000 then
    let k := (o - 0xF00000) / 64
    let b := o % 64 / 32 == 1
    let r := s.wpRec k
    let x := if b then r.slot1 else r.slot0
    let j := o % 32
    let lost := if !x.ok1 && !x.ok2 then decide (j < 16) else (!x.ok1 && decide (16 ≤ j) && decide (j < 20)) ||
      (!x.ok2 && decide (20 ≤ j) && decide (j < 24))
    if lost then Config.nvByte o x.wear else (wpSlotBytes k b x).getD j 0
  else Config.nvByte o 0

/-- A byte of the plaza or of the NV store. -/
def State.scanByte (s : State) (a : Nat) : Byte := if nvBase ≤ a then s.nvByte (a - nvBase) else memByte s.mem a
def State.scanBytes (s : State) (a n : Nat) : List Byte := (List.range n).map fun i => s.scanByte (a + i)

/-- Regions of the NV store that are written while the device runs, and how far each has been written. -/
def State.nvMarks (s : State) : List (Nat × Nat × Nat) :=
  let wear := (s.wp.map fun (e : Nat × WpRec) => e.2.slot0.wear + e.2.slot1.wear).sum
  [(0, 0x300000, s.boot.fwGenA), (0x300000, 0x300000, s.boot.fwGenB), (0x600000, 0x200000, s.str.slotA.gen + s.str.slotA.bytes.length),
   (0x800000, 0x200000, s.str.slotB.gen + s.str.slotB.bytes.length), (0xA00000, 0x400000, s.jseq), (0xE00000, 0x80000, s.clgLast),
   (0xE80000, 0x40000, s.bankA.gen), (0xEC0000, 0x40000, s.bankB.gen), (0xF00000, 0x10000, wear)]

/-! ### Settings (R464, R465, R472) -/

def State.cvCtl (s : State) (u : Nat) : Word := s.reg (Reg.HB_CVU_CTL u)
def State.cvWidth (s : State) (u : Nat) : Nat := fld (s.cvCtl u) 6 7

/-- The 64-bit value of a register pair, its bits at and above W zero. -/
def State.cvPair (s : State) (u lo hi : Nat) : Nat := ((s.reg lo).toNat + 2 ^ 32 * (s.reg hi).toNat) % 2 ^ s.cvWidth u

/-- The computation of a unit. -/
def State.cvParams (s : State) (u : Nat) : CrcParams :=
  { width := s.cvWidth u, poly := s.cvPair u (Reg.HB_CVU_POLY_LO u) (Reg.HB_CVU_POLY_HI u)
    init := s.cvPair u (Reg.HB_CVU_INIT_LO u) (Reg.HB_CVU_INIT_HI u), xorout := s.cvPair u (Reg.HB_CVU_XOR_LO u) (Reg.HB_CVU_XOR_HI u)
    refin := bitOf (s.cvCtl u) 13, refout := bitOf (s.cvCtl u) 14 }

/-- The parameter set of a PRESET. -/
def presetOf (n : Nat) : Option CrcParams :=
  match n with
  | 1 => some crc32c
  | 2 => some crc32
  | 3 => some crc16ccitt
  | _ => none

/-- Load a parameter set. -/
def State.cvLoad (s : State) (u : Nat) (p : CrcParams) : State :=
  let c := s.cvCtl u
  let c := putFld (putFld (putFld c 6 7 p.width) 13 1 (b2n p.refin)) 14 1 (b2n p.refout)
  let s := (s.setReg (Reg.HB_CVU_CTL u) c).setReg (Reg.HB_CVU_POLY_LO u) (lo32 p.poly)
  let s := (s.setReg (Reg.HB_CVU_POLY_HI u) (hi32 p.poly)).setReg (Reg.HB_CVU_INIT_LO u) (lo32 p.init)
  let s := (s.setReg (Reg.HB_CVU_INIT_HI u) (hi32 p.init)).setReg (Reg.HB_CVU_XOR_LO u) (lo32 p.xorout)
  s.setReg (Reg.HB_CVU_XOR_HI u) (hi32 p.xorout)

/-- RECLEN, CHK1OFS, CHK2OFS. -/
def State.cvRec (s : State) (u : Nat) : Nat × Nat × Nat :=
  let w := s.reg (Reg.HB_CVU_REC u)
  (fld w 0 10, fld w 10 10, fld w 20 10)

/-! ### Starting and stopping (R463, R470) -/

/-- The period of a unit, ns. -/
def State.cvPeriod (s : State) (u : Nat) : Nat :=
  1000000000 * (match u with | 0 | 1 => 1 | 2 => 600 | 3 => 10 | _ => fld (s.cvCtl u) 18 8)
def State.cvPeriodic (s : State) (u : Nat) : Bool := decide (u < 4) || bitOf (s.cvCtl u) 3

/-- A start on demand is refused. -/
def State.cvRefused (s : State) (u : Nat) : Bool :=
  let a := s.cvuStart u
  let e := a + s.cvuLength u
  let (len, o1, o2) := s.cvRec u
  let w := s.cvWidth u
  let n := (w + 7) / 8
  let plaza := decide (plazaBase ≤ a) && decide (e ≤ plazaEnd)
  let nv := decide (nvBase ≤ a) && decide (e ≤ nvEnd)
  let vital := plaza && decide (a < plazaBase + 0x400000) && decide (plazaBase + 0x300000 < e)
  let system := nv && decide (nvBase + 0xF10000 < e)
  let badRec := !nv || len == 0 || s.cvuLength u % len != 0 || decide (len < o1 + n) || (bitOf (s.cvCtl u) 17 && decide (len < o2 + n))
  !(plaza || nv) || vital || system || (!s.cvuBlock u && badRec) || decide (w < 8) || decide (64 < w) ||
    (bitOf (s.cvCtl u) 3 && fld (s.cvCtl u) 18 8 == 0)

/-- A pass starts. -/
def State.cvStart (s : State) (u : Nat) : State :=
  s.setCvUnit u { s.cvUnit u with run := true, waiting := false, since := s.now, stale := false, marks := s.nvMarks.map fun (_, _, m) => m }

/-- CTL.GO of CV4 to CV7. -/
def State.cvGo (s : State) (u : Nat) : State :=
  if s.cvRefused u then (s.setCvUnit u { s.cvUnit u with last := 4, waiting := false }).setEvt Reg.HB_CVU_EVT 25
  else (s.setCvUnit u { s.cvUnit u with again := false }).cvStart u

/-- A write of CTL. -/
def State.cvCtlWrite (s : State) (u : Nat) (v : Word) : State :=
  let c := s.cvUnit u
  let stop := bitOf v 1
  if c.run && !stop then s.setEvt Reg.HB_CVU_EVT 25
  else if stop then (if c.run || c.waiting then s.setCvUnit u { c with run := false, waiting := false, last := 0 } else s)
  else
    let s := s.setReg (Reg.HB_CVU_CTL u) (v &&& 0x03FFFFCC)
    let s := match presetOf (fld v 4 2) with | some p => s.cvLoad u p | none => s
    let s := s.when (c.waiting && !bitOf v 3) (·.setCvUnit u { c with waiting := false })
    s.when (bitOf v 0) (·.cvGo u)

/-- Writes of HB_CVU by a Maintainer at block offset `o`; the registers of the other units are read-only. -/
def cvuWrite (s : State) (o : Nat) (v : Word) : State :=
  let u := (o - 0x100) / 0x40
  if o < 0x100 ∨ 0x400 ≤ o ∨ u < 4 ∨ 7 < u then s
  else if o % 0x40 = 0 then s.cvCtlWrite u v
  else if (s.cvUnit u).run then s.setEvt Reg.HB_CVU_EVT 25
  else
    let a := Reg.HB_CVU_EVT + o
    match o % 0x40 with
    | 0x28 => s.setReg a (v &&& 0xFFFF)
    | 0x30 => s.setReg a (v &&& 0x3FFFFFFF)
    | 0x38 | 0x3C => s
    | _ => s.setReg a v

def cvuPeriodicStart (u : Nat) (s : State) : State :=
  let c := s.cvUnit u
  if c.waiting && s.cvPeriodic u && decide (c.since + s.cvPeriod u ≤ s.now) then s.cvStart u else s

/-- The whole plaza is CV3's range. -/
def State.cvPlaza (s : State) : State :=
  (s.setReg (Reg.HB_CVU_START_LO 3) (lo32 plazaBase)).setReg (Reg.HB_CVU_LENGTH 3) (lo32 (plazaEnd - plazaBase))

/-- The settings that the firmware writes for its own units during Start (R463). `gen`: the generation of the firmware that runs. -/
def State.cvFirmware (s : State) (gen : Nat) : State :=
  let s := ((s.cvRange 0 (leBytes 8 gen)).cvRange 2 []).cvPlaza
  let s := [0, 1, 2, 3].foldl (fun s u =>
    let s := s.setReg (Reg.HB_CVU_CTL u) (word [(2, 1, b2n (u == 2)), (3, 1, 1), (18, 8, min 255 (s.cvPeriod u / 1000000000))])
    (s.when (u != 3) (·.cvLoad u crc32c)).setCvUnit u { waiting := true, since := s.now }) s
  [8, 9, 10, 11].foldl (fun s u => (s.cvLoad u crc32c).setCvUnit u { run := true, since := s.now }) s

/-! ### Faults (R467, R468) -/

/-- The global address of what a fault lies in. -/
def faultAddr : NvFault → Nat
  | .wp k b _ _ => nvBase + 0xF00000 + 64 * k + 32 * b2n b
  | .bank b _ _ => nvBase + (if b then 0xEC0000 else 0xE80000)
  | .journal q => nvBase + 0xA00000 + 32 * ((q - 1) % journalSlots)
  | .changeLog q => nvBase + 0xE00000 + 128 * ((q - 1) % changeLogSlots)
  | .strSlot b => nvBase + (if b then 0x800000 else 0x600000)
  | .fwSlot b => nvBase + (if b then 0x300000 else 0)
  | .word a => a

/-- A data fault: no stored check matches. -/
def faultData : NvFault → Bool
  | .wp _ _ a b | .bank _ a b => a && b
  | _ => true

def WpRec.slot (r : WpRec) (b : Bool) : WpSlot := if b then r.slot1 else r.slot0
def WpRec.setSlot (r : WpRec) (b : Bool) (x : WpSlot) : WpRec := if b then { r with slot1 := x } else { r with slot0 := x }

def State.bank (s : State) (b : Bool) : CalBank := if b then s.bankB else s.bankA
def State.setBank (s : State) (b : Bool) (x : CalBank) : State := if b then { s with bankB := x } else { s with bankA := x }

/-- What a fault leaves behind in the store. -/
def State.nvDamage (s : State) (f : NvFault) : State :=
  match f with
  | .wp k b x y =>
    let r := s.wpRec k
    let w := r.slot b
    { s with wp := tset s.wp k (r.setSlot b { w with ok1 := w.ok1 && !x, ok2 := w.ok2 && !y }) }
  | .bank b x y => s.when (x && y) fun s => s.setBank b { s.bank b with ok := false }
  | .journal q => { s with journal := s.journal.map fun (e : JEntry) => if e.seq = q then { e with sound := false } else e }
  | .changeLog q => { s with clog := s.clog.map fun (e : ClgEntry) => if e.seq = q then { e with sound := false } else e }
  | .strSlot b => { s with str := if b then { s.str with slotB := { s.str.slotB with sound := false } }
      else { s.str with slotA := { s.str.slotA with sound := false } } }
  | .fwSlot b => { s with boot := if b then { s.boot with fwSoundB := false } else { s.boot with fwSoundA := false } }
  | .word _ => s

/-- CV2 meets a WP slot: a data fault is rewritten with the register's value and a fresh WEAR, a check-value fault repaired. -/
def State.wpRepair (s : State) (k : Nat) (b data : Bool) : State :=
  let r := s.wpRec k
  let other := r.slot !b
  let r := if data then { r.setSlot b { value := s.wpValue k, wear := other.wear + 1 } with live1 := b }
    else { r.setSlot b { r.slot b with ok1 := true, ok2 := true } with repaired := true }
  { s with wp := tset s.wp k r }.setEvt Reg.HB_NV_EVT 5

/-- CV2's reaction to a fault. -/
def State.scrubFault (s : State) (f : NvFault) : State :=
  match f with
  | .wp k b x y => s.wpRepair k b (x && y)
  | .bank b x y =>
    if x && y then
      let live := s.liveBank == some b
      (s.nvDamage f).when live (·.setEvt Reg.HB_NV_EVT 4)
    else s.setEvt Reg.HB_NV_EVT 5
  | .changeLog _ => s
  | _ => s.nvDamage f

/-- HB_CVU_COUNTu gains mismatches and repairs. -/
def State.cvCount (s : State) (u bad fixed : Nat) : State :=
  let a := Reg.HB_CVU_COUNT u
  let w := s.reg a
  s.setReg a (word [(0, 16, min 0xFFFF (fld w 0 16 + bad)), (16, 16, min 0xFFFF (fld w 16 16 + fixed))])

/-- MISMATCH of a unit: its bit and its source. -/
def State.cvMismatch (s : State) (u : Nat) : State := (s.setEvt Reg.HB_CVU_EVT u).raise (516 + u) (lo32 u)

/-- REPAIRED also raises source 14. -/
def State.cvRepaired (s : State) : State := (s.setEvt Reg.HB_CVU_EVT 24).raise 14 (s.reg Reg.HB_NV_EVT)

/-! ### The end of a pass (R466 to R470) -/

/-- The outcome of a pass: records, the value computed, mismatches with the first one's address, repairs. -/
structure PassEnd where
  records : Nat := 0
  value   : Nat := 0
  bad     : Nat := 0
  first   : Nat := 0
  fixed   : Nat := 0
deriving DecidableEq, Repr

def PassEnd.miss (p : PassEnd) (a : Nat) : PassEnd := { p with bad := p.bad + 1, first := if p.bad = 0 then a else p.first }

/-- A block pass. -/
def State.blockPass (s : State) (u : Nat) (faults : List NvFault) : PassEnd :=
  let a := s.cvuStart u
  let n := s.cvuLength u
  let p := s.cvParams u
  let b := s.scanBytes a n
  let add := (s.reg (Reg.HB_CVU_FOLD_ADD u)).toNat
  let v := if fld (s.cvCtl u) 15 2 = 0 then crc p b else crcFold p add b
  let hit := faults.any fun f => decide (a ≤ faultAddr f) && decide (faultAddr f < a + n)
  let e : PassEnd := { records := 1, value := v }
  if hit || v != s.cvPair u (Reg.HB_CVU_EXPECT_LO u) (Reg.HB_CVU_EXPECT_HI u) then e.miss a else e

/-- One record of a record pass. -/
def State.recordCheck (s : State) (u : Nat) (faults : List NvFault) (e : PassEnd) (i : Nat) : PassEnd :=
  let (len, o1, o2) := s.cvRec u
  let a := s.cvuStart u + i * len
  let b := s.scanBytes a len
  if b.all (· == 0) then e
  else
    let p := s.cvParams u
    let n := (p.width + 7) / 8
    let add := (s.reg (Reg.HB_CVU_FOLD_ADD u)).toNat
    let v := match fld (s.cvCtl u) 15 2 with
      | 1 => crcFold p (add + i * len) (b.take o1)
      | 2 => crcFold p (add + i) (b.take o1)
      | _ => crc p (b.take o1)
    let at1 := leNat (bytesAt b o1 n) % 2 ^ p.width == v
    let at2 := leNat (bytesAt b o2 n) % 2 ^ p.width == v
    let two := bitOf (s.cvCtl u) 17
    let e := { e with records := e.records + 1, value := v }
    let f := faults.find? fun f => decide (a ≤ faultAddr f) && decide (faultAddr f < a + len)
    if f.any faultData then e.miss a
    else if two && (f.isSome || at1 != at2) then { e with fixed := e.fixed + 1 }
    else if at1 && (!two || at2) && f.isNone then e
    else e.miss a

def State.recordPass (s : State) (u : Nat) (faults : List NvFault) : PassEnd :=
  let len := (s.cvRec u).1
  (List.range (if len = 0 then 0 else s.cvuLength u / len)).foldl (s.recordCheck u faults) {}

/-- What the firmware's own units find is the operand alone. -/
def foundPass (faults : List NvFault) : PassEnd :=
  faults.foldl (fun e f => if faultData f then e.miss (faultAddr f) else { e with fixed := e.fixed + 1 }) {}

/-- A write has reached the range of a running block pass. -/
def State.cvStale (s : State) (u : Nat) : Bool :=
  let c := s.cvUnit u
  let a := s.cvuStart u
  let e := a + s.cvuLength u
  c.stale || (decide (4 ≤ u) && s.cvuBlock u &&
    (s.nvMarks.zip c.marks).any fun (x : (Nat × Nat × Nat) × Nat) =>
      decide (a < nvBase + x.1.1 + x.1.2.1) && decide (nvBase + x.1.1 < e) && x.1.2.2 != x.2)

/-- Record the outcome of a pass: DONE, counts, RESULT, BAD; a periodic unit waits for its next pass. -/
def State.passReport (s : State) (u : Nat) (e : PassEnd) : State :=
  let s := s.setCvUnit u { s.cvUnit u with
    run := false, waiting := s.cvPeriodic u, last := if e.bad = 0 then 1 else 2, records := e.records % 2 ^ 24, result := e.value
    bad := if e.bad = 0 then 0 else e.first }
  let s := (s.cvCount u e.bad e.fixed).setEvt Reg.HB_CVU_EVT (12 + u)
  let s := s.when (e.bad != 0) (·.cvMismatch u)
  s.when (e.fixed != 0) State.cvRepaired

/-- CV0 or CV1: the region is restored and the pass repeated; a second mismatch faults both pairs with MEM_UE. -/
def State.memoryPass (s : State) (u : Nat) (e : PassEnd) : State :=
  let again := (s.cvUnit u).again
  let s := s.passReport u e
  if e.bad = 0 then s.setCvUnit u { s.cvUnit u with again := false }
  else if again then ((s.setCvUnit u { s.cvUnit u with again := false }).pairFault false 5).pairFault true 5
  else (s.setCvUnit u { s.cvUnit u with again := true }).cvStart u

/-- What stands damaged in the regions that CV2 reads. -/
def State.standing (s : State) : List NvFault :=
  let wp := s.wp.flatMap fun (e : Nat × WpRec) => [false, true].filterMap fun b =>
    let x := e.2.slot b
    if x.ok1 && x.ok2 then none else some (NvFault.wp e.1 b (!x.ok1) (!x.ok2))
  let bank := [false, true].filterMap fun b => if (s.bank b).gen != 0 && !(s.bank b).ok then some (NvFault.bank b true true) else none
  let log := s.journal.filterMap fun (e : JEntry) => if e.sound then none else some (NvFault.journal e.seq)
  let str := [false, true].filterMap fun b =>
    let x := if b then s.str.slotB else s.str.slotA
    if x.gen != 0 && !x.sound then some (NvFault.strSlot b) else none
  let fw := [false, true].filterMap fun b =>
    if b then (if s.boot.fwGenB != 0 && !s.boot.fwSoundB then some (NvFault.fwSlot b) else none)
    else if s.boot.fwGenA != 0 && !s.boot.fwSoundA then some (NvFault.fwSlot b) else none
  fw ++ str ++ log ++ bank ++ wp

/-- What a round of CV2 meets: what has gone wrong by now and what stood damaged before; the change log is not its to check. -/
def State.roundFaults (s : State) (faults : List NvFault) : List NvFault :=
  let own := faults.filter fun f => match f with | .changeLog _ => false | _ => true
  let met := (own.foldl State.nvDamage s).standing
  met ++ own.filter fun f => !met.any fun g => faultAddr g == faultAddr f

/-- A record pass with two stored copies rewrites the copy that does not match (R467): in WP slots of its range. -/
def State.copiesMend (s : State) (u : Nat) : State :=
  let a := s.cvuStart u
  let inside := fun (x : Nat) => decide (a ≤ x) && decide (x < a + s.cvuLength u)
  if s.cvuBlock u || !bitOf (s.cvCtl u) 17 then s
  else
    { s with wp := s.wp.map fun (e : Nat × WpRec) => (e.1, [false, true].foldl (fun r b =>
        if (r.slot b).ok1 != (r.slot b).ok2 && inside (nvBase + 0xF00000 + 64 * e.1 + 32 * b2n b) then
          { r.setSlot b { r.slot b with ok1 := true, ok2 := true } with repaired := true }
        else r) e.2) }

def cvuPassEnd (u : Nat) (faults : List NvFault) (s : State) : State :=
  let c := s.cvUnit u
  if !c.run || decide (8 ≤ u) then s
  else if s.cvStale u then
    let s := (s.setCvUnit u { c with run := false, last := 3, stale := false }).setEvt Reg.HB_CVU_EVT (12 + u)
    s.when (s.cvPeriodic u) (·.cvStart u)
  else
    match u with
    | 0 | 1 => s.memoryPass u (foundPass faults)
    | 2 => ((s.roundFaults faults).foldl State.scrubFault s).passReport u (foundPass (s.roundFaults faults))
    | 3 => s.passReport u (foundPass faults)
    | _ =>
      let e := if s.cvuBlock u then s.blockPass u faults else s.recordPass u faults
      (((faults.filter faultData).foldl State.nvDamage s).copiesMend u).passReport u e

/-! ### Snoop units (R471) -/

/-- The word or words fed before a record: the fold word of CODE_P at CV8. -/
def State.snoopFold (s : State) (u : Nat) : List Byte :=
  if u = 8 then (leBytes 4 (s.reg Reg.HB_LNK_SAFE_ID).toNat).reverse else []

/-- A record passes a snoop unit, with the check value it carries and the receiver's verdict. -/
def snoopRecord (u : Nat) (record : List Byte) (check : DWord) (recvOk : Bool) (s : State) : State :=
  let c := s.cvUnit u
  if u < 8 ∨ 11 < u ∨ !c.run then s
  else
    let v := crc crc32c (s.snoopFold u ++ record)
    let ok := v == check.toNat % 2 ^ 32
    let s := s.setCvUnit u { c with
      records := (c.records + 1) % 2 ^ 24, result := v, last := if ok then 1 else 2, disagree := c.disagree || ok != recvOk }
    let s := s.when (!ok) (·.cvCount u 1 0)
    s.when (!ok || ok != recvOk) (·.cvMismatch u)

/-! ### Views -/

def cvuView (s : State) (o : Nat) : Option Word :=
  if 0x100 ≤ o ∧ o < 0x400 then
    let u := (o - 0x100) / 0x40
    let a := Reg.HB_CVU_EVT + o
    let lo := fun (x : Nat) => some (lo32 (x % 2 ^ s.cvWidth u))
    let hi := fun (x : Nat) => some (hi32 (x % 2 ^ s.cvWidth u))
    match o % 0x40 with
    | 0x04 | 0x0C | 0x14 | 0x1C => lo (s.reg a).toNat
    | 0x08 | 0x10 | 0x18 | 0x20 => hi (2 ^ 32 * (s.reg a).toNat)
    | 0x38 => some (lo32 (s.cvUnit u).result)
    | 0x3C => some (hi32 (s.cvUnit u).result)
    | _ => none
  else if 0x800 ≤ o ∧ o < 0x8C0 then
    let u := (o - 0x800) / 0x10
    let c := s.cvUnit u
    let st := if 8 ≤ u then (if c.run then 3 else 0) else if c.run then 1 else if c.waiting then 2 else 0
    match o % 0x10 with
    | 0x0 => some (word [(0, 2, st), (2, 3, c.last), (5, 1, b2n c.disagree), (8, 24, c.records)])
    | 0x8 => some (lo32 c.bad)
    | 0xC => some (lo32 (c.bad / 2 ^ 32 % 2 ^ 16))
    | _ => none
  else none

/-- A read of COUNT ends DISAGREE. -/
def State.cvCountRead (s : State) (u : Nat) : State := s.setCvUnit u { s.cvUnit u with disagree := false }

/-! ### Uncorrectable reads of a pair (R250) -/

/-- A pair reads an uncorrectable word: MEM_UE. A firmware or structure line, given by its plaza offset and the offset of its copy in
the NV store, is restored from that copy. -/
def pairUncorrectable (b : Bool) (line : Option (Nat × Nat)) (s : State) : State :=
  let s := match line with
    | some (p, n) => s.store (0x1000000 + p / 8 * 8 % 0x1000000) (s.scanBytes (nvBase + n / 8 * 8 % 0x1000000) 8)
    | none => s
  s.pairFault b 5

/-! ### Meanings -/

/-- PAIR_UNCORRECTABLE_READ (R250). -/
def execPairUncorrectableRead (dt : Nat) (pr : Pair × Option (Nat × Nat)) (s : State) : Out :=
  s.afterHb dt (pairUncorrectable (isB pr.1) pr.2)


/-- CVU_PERIODIC_START (R463). -/
def execCvuPeriodicStart (dt u : Nat) (s : State) : Out := s.afterHb dt (cvuPeriodicStart u)

/-- CVU_PASS_END (R466 to R469). -/
def execCvuPassEnd (dt u : Nat) (faults : List NvFault) (s : State) : Out := s.afterHb dt (cvuPassEnd u faults)

/-- CVU_SNOOP_RECORD (R471). -/
def execCvuSnoopRecord (dt u : Nat) (record : List Byte) (check : DWord) (recvOk : Bool) (s : State) : Out :=
  s.afterHb dt (snoopRecord u record check recvOk)

end Sys2Proof.Machine
end

