-- ==== Sys2Proof/Machine/Profile.lean ====
section
/-!
DEFINITION. Temperature-change profiles and acoustic windows (Temperature Profiles and Acoustic Windows, R225 to R242).
-/
namespace Sys2Proof.Machine

/-! ### Profiles -/

def State.tprPort (s : State) (p : Nat) : TprPort := tget s.tpr {} p
def State.setTpr (s : State) (p : Nat) (x : TprPort) : State := { s with tpr := tset s.tpr p x }

/-- Points per bin, coefficient (0.01 rad/(K·fm)) of a profile in force. -/
def TprPort.bin (x : TprPort) : Nat := fld x.cfg 0 11
def TprPort.ct (x : TprPort) : Nat := fld x.coef 0 15

/-- NBINS (R227); 0 while the port has no live probe set. -/
def State.tprBins (s : State) (p : Nat) : Nat :=
  let ps := (s.probe p).live
  let b := (s.tprPort p).bin
  if !ps.en || b == 0 then 0 else min 16384 ((ps.points + b - 1) / b)

/-- Records are formed. -/
def State.tprRuns (s : State) (p : Nat) : Bool :=
  let x := s.tprPort p
  bitOf x.cfg 11 && x.ct != 0 && s.tprBins p != 0

/-- The points of bin `b` (R227). -/
def State.binPoints (s : State) (p b : Nat) : List Nat :=
  let ps := (s.probe p).live
  let n := (s.tprPort p).bin
  ((List.range n).map (ps.jMin + b * n + ·)).filter fun j => decide (j ≤ ps.jMax)

/-- G × Δz of a point, fm (R228). -/
def State.tprArm (s : State) (p j : Nat) : Rat :=
  match s.homeOf p j with
  | some i => (s.gauge p i : Rat) * (s.probe p).live.dz
  | none => 0

/-- C_T × G × Δz of a point, rad/K (R228). -/
def State.tprDen (s : State) (p j : Nat) : Rat := ((s.tprPort p).ct : Rat) / 100 * s.tprArm p j

/-- The sums of a point for a second; empty where it gave no sample. -/
def Point.inSecond (x : Point) (sec : Nat) : SecSum :=
  if x.sum.sec = sec then x.sum else if x.sumOld.sec = sec then x.sumOld else {}

/-- u_j of a second, rad. -/
def SecSum.meanPhase (x : SecSum) : Rat := (x.u : Rat) / x.q * 2 * piRat / 65536

/-- A point contributes in a second: it is anchored and has given a sample of Q ≥ Q_FADE. -/
def Point.contributes (x : Point) (sec : Nat) : Bool := x.anchor.isSome && (x.inSecond sec).q != 0

/-- u_j + O_j of a second, rad. -/
def Point.change (x : Point) (sec : Nat) : Rat := (x.inSecond sec).meanPhase + x.anchor.getD 0

/-- ΔT_j, K. -/
def State.tprDelta (s : State) (p sec j : Nat) (x : Point) : Rat := x.change sec / s.tprDen p j

/-- The mean of ΔT over points. -/
def State.tprMean (s : State) (p sec : Nat) (l : List (Nat × Point)) : Rat :=
  (l.map fun (j, x) => s.tprDelta p sec j x).sum / l.length

/-- A point asks to be anchored again with the sums of second `sec`. -/
def Point.asks (x : Point) (sec : Nat) : Bool := x.reanchor.any fun n => decide (n ≤ sec)

/-- A point of a bin whose other anchored points are `others` is anchored again where a BREAK asks for it; one that is not anchored stays
so until the next re-acquisition (R229). C_T cancels. -/
def State.reanchor (s : State) (p sec j : Nat) (others : List (Nat × Point)) (x : Point) : Point :=
  let v := x.inSecond sec
  if !x.asks sec || v.q == 0 then x
  else
    let mean : Rat := (others.map fun (e : Nat × Point) => e.2.change sec / s.tprArm p e.1).sum / others.length
    { x with
      reanchor := none
      anchor := if x.anchor.isNone || others.isEmpty then none else some (mean * s.tprArm p j - v.meanPhase) }

/-- The points of a bin at the end of a second, anchored again where due. -/
def State.binAnchored (s : State) (p sec b : Nat) : List (Nat × Point) :=
  let pts := (s.binPoints p b).filterMap fun j => (tfind (s.demod p).points j).map fun x => (j, x)
  let others := pts.filter fun (_, x) => x.contributes sec && !x.asks sec
  pts.map fun (j, x) => (j, s.reanchor p sec j others x)

/-- A bin's value: mean (K), contributing points, their activity. -/
structure BinValue where
  mean   : Rat
  count  : Nat
  points : Nat
  active : Bool
deriving DecidableEq, Repr

/-- The value of a bin (R228). -/
def State.binValue (s : State) (p sec b : Nat) : BinValue :=
  let l := (s.binAnchored p sec b).filter fun (_, x) => x.contributes sec
  ⟨if l.isEmpty then 0 else s.tprMean p sec l, l.length, (s.binPoints p b).length, l.any fun (_, x) => (x.inSecond sec).active⟩

/-- COVER of a bin; 0 until the port's epoch is valid (R230, R232). -/
def BinValue.cover (v : BinValue) (valid : Bool) : Nat :=
  if !valid || v.count == 0 then 0 else clampNat 0 127 (roundRat ((v.count : Rat) * 127 / v.points)).toNat

/-- The 4-byte entry of a bin (R234), less the value of the reference bin. -/
def BinValue.entry (v : BinValue) (valid : Bool) (ref : Rat) : List Byte :=
  let dt := if v.count = 0 then 0 else clampInt (-8388607) 8388607 (roundRat ((v.mean - ref) * 1000))
  leBytes 4 (toField 24 dt + 2 ^ 24 * v.cover valid + 2 ^ 31 * b2n (v.count != 0 && v.active))

/-- A port's record of the second that ended at `sec` × 10⁹ ns + 10⁹ (R230, R234), and whether the reference bin was invalid. -/
def State.tprRecord (s : State) (p sec : Nat) : List Byte × Bool :=
  let x := s.tprPort p
  let m := s.demod p
  let vs := (List.range (s.tprBins p)).map (s.binValue p sec)
  let refBin := fld x.cfg 13 14
  let ref := vs[refBin]?
  let refOk := match ref with | some r => r.cover m.epochValid != 0 | none => false
  let sub := bitOf x.cfg 12 && refOk
  let refVal := if sub then (ref.map (·.mean)).getD 0 else 0
  let stepped := x.step.any fun (a, b) => sec == a || sec == b
  let head := leBytes 8 (sec * 1000000000) ++ leBytes 8 (m.epoch.getD 0) ++ leBytes 2 (s.tprBins p) ++ leBytes 2 x.bin ++
    leBytes 2 (if sub then refBin else 0xFFFF) ++ leBytes 1 p ++
    leBytes 1 (b2n (m.epochValid && x.epoch != m.epoch) + 2 * b2n stepped) ++ leBytes 4 x.ct
  let body := vs.flatMap fun v => v.entry m.epochValid refVal
  (head ++ leBytes 4 (crc crc32c (head ++ body)) ++ body, bitOf x.cfg 12 && !refOk)

/-- The points of a port once second `sec` is over: anchored again where due. -/
def State.tprTurn (s : State) (p sec : Nat) : State :=
  let pts := ((List.range (s.tprBins p)).flatMap (s.binAnchored p sec)).foldl (fun t (j, x) => tset t j x) (s.demod p).points
  s.setDemod p { s.demod p with points := pts }

/-- The second after `sec`: over a town-clock step, the one that the step leads to. -/
def TprPort.after (x : TprPort) (sec : Nat) : Nat :=
  match x.step with
  | some (a, b) => if sec = a then max (sec + 1) b else sec + 1
  | none => sec + 1

/-- CFG and COEF in force from the end of second `sec`: as written by then (R242). -/
def State.tprSettings (s : State) (p sec : Nat) : Word × Word :=
  match (s.tprPort p).wrote with
  | some (n, old) => if sec < n then old else (s.reg (Reg.HB_TPR_CFG p), s.reg (Reg.HB_TPR_COEF p))
  | none => (s.reg (Reg.HB_TPR_CFG p), s.reg (Reg.HB_TPR_COEF p))

/-- The record of second `sec` is ready: in the half of the profile area that is its turn, with its events (R232, R233). -/
def State.tprReady (s : State) (p sec : Nat) : State :=
  let x := s.tprPort p
  let (bytes, bad) := s.tprRecord p sec
  let s := s.store (profileBase p + 0x20000 * (x.records % 2)) bytes
  let epoch := if (s.demod p).epochValid then (s.demod p).epoch else x.epoch
  let s := s.setTpr p { x with records := (x.records + 1) % 65536, epoch := epoch }
  let s := s.setEvt Reg.HB_TPR_EVT 0
  let s := s.when (decide ((sec + 1) * 1000000000 + 50000000 < s.tc.now)) (·.setEvt Reg.HB_TPR_EVT 2)
  let s := s.when bad (·.setEvt Reg.HB_TPR_EVT 3)
  s.raise (512 + p) (lo32 p)

/-- A town-clock second has ended: the record of port `p` (R232, R233); settings written during the second take effect (R242). -/
def profileRecord (p : Nat) (s : State) : State :=
  let x := s.tprPort p
  let sec := x.next.getD (s.tc.now / 1000000000 - 1)
  if s.tc.now < (sec + 1) * 1000000000 then s
  else
    let s := (s.when (s.tprRuns p) (·.tprReady p sec)).tprTurn p sec
    let set := s.tprSettings p sec
    let y := s.tprPort p
    s.setTpr p { y with
      next := some (y.after sec), step := if y.step.any fun (_, b) => decide (b ≤ sec) then none else y.step, cfg := set.1, coef := set.2
      wrote := if y.wrote.any fun w => decide (w.1 ≤ sec) then none else y.wrote }

/-- A write to CFG or COEF keeps what was in force as its second began. -/
def State.tprNote (s : State) (p : Nat) : State :=
  let x := s.tprPort p
  let n := s.tc.now / 1000000000
  if x.wrote.any fun w => w.1 == n then s
  else s.setTpr p { x with wrote := some (n, s.reg (Reg.HB_TPR_CFG p), s.reg (Reg.HB_TPR_COEF p)) }

/-- Writes of HB_TPR. -/
def tprWrite (s : State) (o : Nat) (v : Word) : State :=
  if o < 0x40 ∧ o % 16 = 0 then (s.tprNote (o / 16)).setReg (0x10000 + o) (v &&& 0x07FFFFFF)
  else if o < 0x40 ∧ o % 16 = 4 then (s.tprNote (o / 16)).setReg (0x10000 + o) (v &&& 0x7FFF)
  else s

/-- Views of HB_TPR. -/
def tprView (s : State) (o : Nat) : Option Word :=
  if o < 0x40 ∧ o % 16 = 8 then
    let p := o / 16
    some (word [(0, 15, s.tprBins p), (15, 1, b2n (s.tprRuns p)), (16, 16, (s.tprPort p).records)])
  else none

/-! ### Acoustic windows -/

def State.acwReg (s : State) (w r : Nat) : Word := s.reg (Reg.HB_ACW_W_R0 w + 4 * r)
def State.acwPort (s : State) (w : Nat) : Nat := fld (s.acwReg w 0) 0 2
def State.acwCompact (s : State) (w : Nat) : Bool := fld (s.acwReg w 0) 2 2 == 1
/-- R = 2^DEC. -/
def State.acwDec (s : State) (w : Nat) : Nat := 2 ^ fld (s.acwReg w 0) 4 2
def State.acwStride (s : State) (w : Nat) : Nat := fld (s.acwReg w 0) 6 4 + 1
def State.acwDomain (s : State) (w : Nat) : Nat := fld (s.acwReg w 0) 10 1
def State.acwEn (s : State) (w : Nat) : Bool := bitOf (s.acwReg w 0) 11
def State.acwFirst (s : State) (w : Nat) : Nat := fld (s.acwReg w 1) 0 17
def State.acwCount (s : State) (w : Nat) : Nat := fld (s.acwReg w 2) 0 13
def State.acwBase (s : State) (w : Nat) : Nat := (s.acwReg w 3).toNat + 2 ^ 32 * (s.acwReg w 4).toNat
/-- Ring bytes. -/
def State.acwSize (s : State) (w : Nat) : Nat := fld (s.acwReg w 5) 0 19 * 4096
def State.acwCons (s : State) (w : Nat) : Nat := fld (s.acwReg w 7) 0 30
def State.acwRun (s : State) (w : Nat) : AcwRun := tget s.acw {} w
def State.setAcw (s : State) (w : Nat) (r : AcwRun) : State := { s with acw := tset s.acw w r }

/-- Bytes of a block (R237): `tones` of the port's plan, decimation, points, bytes per sample. -/
def acwBytes (tones dec count unit : Nat) : Nat := 32 + count * (tones / dec) * unit

/-- Bytes of a window's block. -/
def State.acwBlock (s : State) (w : Nat) : Nat :=
  acwBytes (s.probe (s.acwPort w)).live.tones (s.acwDec w) (s.acwCount w) (if s.acwCompact w then 4 else 8)

/-- The rate of blocks of `bytes` with a period of `np` ticks of 0.8 ns, bytes per second (R238). -/
def acwRate (bytes np : Nat) : Rat := (bytes : Rat) * 1250000000 / np

/-- HB_ACW_BUDGET: the rates of the enabled windows (R238). -/
def State.acwBudget (s : State) : Nat :=
  let on := (List.range 64).filter s.acwEn
  ((on.map fun w => acwRate (s.acwBlock w) (s.probe (s.acwPort w)).live.np).sum / 1000000).floor.toNat

/-- The words of a point for tones rR to rR + R − 1 that belong to period `per`; none for a tone without one. -/
def groupWords (x : Point) (per first n : Nat) : List (Option DWord) :=
  (List.range n).map fun i =>
    match tfind x.words (2 * (first + i) + per % 2) with
    | some (q, w) => if q = per then some w else none
    | none => none

/-- PHASE, Q and FLAGS of a word (R127). -/
def wordPhase (w : DWord) : Int := sext w.toNat 32
def wordQ (w : DWord) : Nat := w.toNat / 2 ^ 32 % 256
def wordFlags (w : DWord) : Nat := w.toNat / 2 ^ 40 % 256

/-- An output sample (R236). -/
def acwSample (held : Int) (qFade per first : Nat) (ws : List (Option DWord)) : DWord :=
  match ws with
  | [some w] => w
  | _ =>
    let l := ws.filterMap id
    let good := l.filter fun w => decide (qFade ≤ wordQ w)
    let q := (good.map wordQ).sum
    let phase := if q = 0 then held else roundRat (((good.map fun w => (wordQ w : Int) * wordPhase w).sum : Int) / (q : Rat))
    pointWord phase ((l.map wordQ).sum / ws.length) (l.foldl (fun f w => Nat.lor f (wordFlags w)) 0) first per

/-- The bytes of a sample. -/
def sampleBytes (compact : Bool) (w : DWord) : List Byte :=
  if compact then leBytes 4 (w.toNat % 2 ^ 24 + 2 ^ 24 * wordQ w) else leBytes 8 w.toNat

/-- The held phase of a group: that of the last word it has, as every faded word carries it (R119); else the point's last good one. -/
def heldPhase (x : Point) (ws : List (Option DWord)) : Int := ((ws.filterMap id).getLast?.map wordPhase).getD x.phase

/-- The samples of a window's block for period `per`, and UNAVAIL (R237). -/
def State.acwSamples (s : State) (w per : Nat) : List Byte × Bool :=
  let d := s.acwPort w
  let p := s.probe d
  let r := s.acwDec w
  let js := (List.range (s.acwCount w)).map fun i => s.acwFirst w + i * s.acwStride w
  let one := fun (k j : Nat) =>
    let x := tget (s.demod d).points {} j
    let away := match s.homeOf d j with | some i => (s.serverOf d i).isNone | none => true
    let ws := groupWords x per (k * r) r
    let held := heldPhase x ws
    let ws := if away then List.replicate r none else ws
    (acwSample held (s.qFade d) per (k * r) ws, ws.any (·.isNone))
  let all := (List.range (p.live.tones / r)).flatMap fun k => js.map (one k)
  (all.flatMap fun (v, _) => sampleBytes (s.acwCompact w) v, all.any (·.2))

/-- A block's header (R237). -/
def State.acwHeader (s : State) (w : Nat) (p : PeriodTag) (pad unavail : Bool) (gap len : Nat) : List Byte :=
  let d := s.acwPort w
  let cfg := s.acwReg w 0
  leBytes 8 p.stamp ++ leBytes 4 p.count ++
    leBytes 2 (w + 64 * d + 256 * (if pad then 3 else fld cfg 2 2) + 1024 * fld cfg 4 2 + 4096 * b2n unavail + 8192 * b2n p.incomplete) ++
    leBytes 2 (min 0xFFFF gap) ++ leBytes 4 (s.acwFirst w + 2 ^ 17 * (s.acwStride w - 1)) ++ leBytes 4 (s.acwCount w) ++
    leBytes 4 len ++ leBytes 4 0

/-- Bytes that wait in the export queue of PCIe port `p`. -/
def State.acwQueued (s : State) (p : Nat) : Nat :=
  ((tget s.acwq [] p).map fun o => (o.writes.map fun (_, b) => b.length).sum).sum

/-- The export queue of a PCIe port whose link is up empties into the rings; PROD moves after each block (R239). -/
def State.acwDrain (s : State) (p : Nat) : State :=
  if !(tget s.links.pcie {} p).up then s
  else
    (tget s.acwq [] p).foldl (fun s o =>
      (o.writes.foldl (fun s (a, b) => s.store (hostAddr p a) b) s).setReg (Reg.HB_ACW_W_R6 o.w) (lo32 o.next))
      { s with acwq := tset s.acwq p [] }

/-- A block is dropped whole (R240). -/
def State.acwDrop (s : State) (w : Nat) : State :=
  let n := (s.reg Reg.HB_ACW_DROP_CNT).toNat
  let s := s.setReg Reg.HB_ACW_DROP_CNT (lo32 (min 0xFFFFFFFF (n + 1)))
  ((s.setAcw w { s.acwRun w with gap := (s.acwRun w).gap + 1 }).setEvt Reg.HB_ACW_EVT 0).raise (320 + w) (lo32 w)

/-- Free bytes of a ring from the offset after the last block to CONS; the whole ring where they are equal. -/
def ringFree (size head cons : Nat) : Nat := if head = cons then size else (cons + size - head) % size

/-- The block of the period that `p` names goes to the export queue, or is dropped whole (R237 to R240). -/
def State.acwOut (s : State) (w : Nat) (p : PeriodTag) : State :=
  let r := s.acwRun w
  let s := s.setAcw w { r with start := p.count + 1 }
  let dom := s.acwDomain w
  let size := s.acwSize w
  let len := s.acwBlock w
  let wrap := decide (size < r.head + len)
  let pad := if wrap then size - r.head else 0
  let padLen := if 32 ≤ pad then 32 else 0
  if s.isFrozen (.host dom) || decide (ringFree size r.head (s.acwCons w) < pad + len) ||
      decide (4194304 < s.acwQueued dom + padLen + len) then s.acwDrop w
  else
    let (body, unavail) := s.acwSamples w p.count
    let start := if wrap then 0 else r.head
    let next := if start + len = size then 0 else start + len
    let block := s.acwHeader w p false unavail r.gap len ++ body
    let writes := (if padLen = 0 then [] else [(s.acwBase w + r.head, s.acwHeader w p true false r.gap pad)]) ++ [(s.acwBase w + start, block)]
    let s := s.setAcw w { start := p.count + 1, gap := 0, head := next }
    { s with acwq := tpush s.acwq dom ⟨w, writes, next⟩ }.acwDrain dom

/-- The oldest period from `start` on that has ended and is still known: its last samples arrive in the period after it. -/
def State.acwPeriod (s : State) (d start : Nat) : Option PeriodTag := ((s.probe d).past.reverse).find? fun t =>
    decide ((t.count + 2 ^ 32 - start % 2 ^ 32) % 2 ^ 32 < 2 ^ 31)

/-- The block of a period is ready (R237 to R240). -/
def acwBlockReady (w : Nat) (s : State) : State :=
  let r := s.acwRun w
  match s.acwEn w && (s.probe (s.acwPort w)).live.en, s.acwPeriod (s.acwPort w) r.start with
  | true, some p => s.acwOut w p
  | _, _ => s
/-- A write of EN (R241). -/
def acwEnable (w : Nat) (on : Bool) (s : State) : State :=
  let a := Reg.HB_ACW_W_R0 w
  if on = s.acwEn w then s
  else if !on then s.setReg a (putFld (s.reg a) 11 1 0)
  else if s.acwSize w < 2 * s.acwBlock w then s.setEvt Reg.HB_ACW_EVT 1
  else
    let s := (s.setReg a (putFld (s.reg a) 11 1 1)).setReg (Reg.HB_ACW_W_R6 w) 0
    (s.setReg (Reg.HB_ACW_W_R7 w) 0).setAcw w { start := (s.probe (s.acwPort w)).count + 1 }

/-- A ring register is written only while EN is 0; CONS at any time (R242). -/
def State.acwWriteOk (s : State) (m : Master) (w r : Nat) : Bool :=
  (match m with | .host d => d == s.acwDomain w | _ => false) && (r == 0 || r == 7 || !s.acwEn w)

/-- Writes of HB_ACW. -/
def acwWrite (s : State) (o : Nat) (v : Word) : State :=
  if 0x100 ≤ o ∧ o < 0x900 then
    let w := (o - 0x100) / 32
    match (o - 0x100) % 32 / 4 with
    | 0 => acwEnable w (bitOf v 11) s
    | 3 => s.setReg (Reg.HB_ACW_W_R3 w) (v &&& 0xFFFFF000)
    | 4 => s.setReg (Reg.HB_ACW_W_R4 w) v
    | 5 => s.setReg (Reg.HB_ACW_W_R5 w) (v &&& 0x7FFFF)
    | 7 => s.setReg (Reg.HB_ACW_W_R7 w) (v &&& 0x3FFFFFFF)
    | _ => s
  else s

/-- Views of HB_ACW. -/
def acwView (s : State) (o : Nat) : Option Word := if o = 0 then some (lo32 s.acwBudget) else none

/-! ### Meanings -/

/-- PROFILE_RECORD (R232). -/
def execProfileRecord (dt p : Nat) (s : State) : Out := s.afterHb dt (profileRecord p)

/-- ACW_BLOCK_READY (R239). -/
def execAcwBlockReady (dt w : Nat) (s : State) : Out := s.afterHb dt (acwBlockReady w)

end Sys2Proof.Machine
end

