-- ==== Sys2Proof/Machine/Hosts.lean ====
section
/-!
DEFINITION. Host domains: rejections, freezes, the Safety Owner lease, passwords and lockouts, snapshots, the HB_HST, HB_LEASE and
HB_SNAP registers (Host Domains, Roles, Leases and Freezes, R339 to R349, R356, R358 to R361, R366).
-/
namespace Sys2Proof.Machine

/-! ### Rejections (R352) -/

def State.domCmds (s : State) (d : Nat) : DomainCmds := tget s.cmds {} d
def State.modDomCmds (s : State) (d : Nat) (f : DomainCmds → DomainCmds) : State := { s with cmds := tset s.cmds d (f (s.domCmds d)) }

/-- Count a rejection of a domain. -/
def State.reject (s : State) (d code : Nat) : State :=
  s.modDomCmds d fun x => { x with rejCount := (x.rejCount + 1) % 65536, rejLast := code }

/-- A command counts as outstanding of its domain: HD7's resets by the key sequence do not. -/
def isCounted (o : CmdOrigin) : Bool := match o with | .forerunner => false | _ => true

/-- A command came from the mailbox. -/
def fromMailbox (o : CmdOrigin) : Bool := match o with | .mailbox _ => true | _ => false

/-- A command gets no response: the mailbox it came from is free. -/
def State.mboxFree (s : State) (o : CmdOrigin) : State := s.when (fromMailbox o) fun s => { s with links := { s.links with mboxBusy := false } }

/-- A queued command is discarded: counted under FFh, the mailbox it came from is free. -/
def State.discardOne (s : State) (q : QueuedCmd) : State :=
  let s := s.reject q.cmd.dom 0xFF
  let s := s.when (isCounted q.cmd.origin) (·.modDomCmds q.cmd.dom fun x => { x with outstanding := x.outstanding - 1 })
  s.mboxFree q.cmd.origin

/-- The queued commands of a domain are discarded without a response (R359). -/
def State.discardCmds (s : State) (d : Nat) : State :=
  let gone := s.queue.filter fun q => q.cmd.dom == d
  { gone.foldl State.discardOne s with queue := s.queue.filter fun q => q.cmd.dom != d }

/-! ### Direct resets whose right ends (R347) -/

/-- Waiting direct resets of a kind end with EDGE_TIMEOUT in both channels. -/
def State.endWaits (s : State) (p : QueuedCmd → Bool) : State := (s.procDo (·.endResetsIf p 5)).ledDo (·.endResetsIf p 5)

/-! ### The lease (R343 to R347) -/

def State.leaseEpoch (s : State) : Nat := (s.wpValue 0).toNat

/-- The lease ends: HB_LEASE_EVT bit `bit`, a device entry `entry` where the end has one of its own. -/
def State.leaseEnd (s : State) (bit : Nat) (entry : Option Nat) : State :=
  match s.lease.holder with
  | none => s
  | some h =>
    let s := { s with lease := { s.lease with holder := none, grace := false } }
    let s := match entry with
      | some code => s.journalAdd s.tc.now h 0 code (lo32 s.leaseEpoch)
      | none => s
    (s.setEvt Reg.HB_LEASE_EVT bit).endWaits fun q => q.cmd.origin != .forerunner

/-- The lease lapses at the first instant after 250 ms without a renewal. -/
def leaseLapse (s : State) : State :=
  if s.lease.holder.isSome ∧ s.lease.renewed + 250000000 < s.tc.now then s.leaseEnd 2 (some 0x8003) else s

/-- The lease enters grace. -/
def leaseGrace (s : State) : State :=
  if s.lease.holder.isSome ∧ !s.lease.grace ∧ s.lease.renewed + 200000000 ≤ s.tc.now then
    { s with lease := { s.lease with grace := true } }.setEvt Reg.HB_LEASE_EVT 5
  else s

/-- A rejected renewal. -/
def State.renewReject (s : State) (m : Master) (code : Nat) : State :=
  let s := s.setEvt Reg.HB_LEASE_EVT 6
  match m with
  | .host d => s.reject d code
  | _ => s

/-- A renewal by a master that may write HB_LEASE_RENEW (R344). -/
def leaseRenew (m : Master) (v : Word) (s : State) : State :=
  let s := leaseLapse s
  match m, s.lease.holder with
  | .host d, some h =>
    if h ≠ d ∨ v.toNat ≠ s.leaseEpoch then s.renewReject m 7
    else if s.tc.now < s.lease.renewed + 10000000 then s.renewReject m 9
    else { s with lease := { s.lease with renewed := s.tc.now, grace := false } }
  | _, _ => s.renewReject m 7

/-- Tokens of a bucket of `cap` that gains one each `period`, and the time up to which it has gained. -/
def bucketAt (tokens last now cap period : Nat) : Nat × Nat :=
  let k := (now - last) / period
  if cap ≤ tokens + k then (cap, now) else (tokens + k, last + k * period)

/-- The lease is granted to a domain with the next epoch. -/
def State.leaseGrant (s : State) (d : Nat) : State :=
  let e := if s.leaseEpoch = 0xFFFFFFFF then 1 else s.leaseEpoch + 1
  let s := s.wpStore 0 (lo32 e)
  { s with lease := { s.lease with holder := some d, renewed := s.tc.now, grace := false } }.setEvt Reg.HB_LEASE_EVT 0

/-! ### Freezes (R358 to R361) -/

def FreezeCause.code : FreezeCause → Nat
  | .window => 1 | .role => 2 | .dmaForeign => 3 | .closed => 4 | .coreRange => 5

def Frozen.kind : Frozen → Nat
  | .domain _ => 0 | .dma _ => 1 | .core _ => 2
def Frozen.index : Frozen → Nat
  | .domain d => d | .dma c => c | .core c => c

/-- REC0 of a freeze record. -/
def FreezeRec.rec0 (r : FreezeRec) : Word :=
  word [(0, 2, r.who.kind), (2, 7, r.who.index), (9, 3, r.cause.code), (12, 16, r.count)]

/-- A domain's entries and telegrams that wait to be sent are dropped. -/
def State.dropOutbound (s : State) (d : Nat) : State :=
  { s with
    due := s.due.filter fun e => e.dom != d
    links := { s.links with telegrams := tdel s.links.telegrams d } }

/-- What a freeze of a domain ends (R359, R399, R347). -/
def State.domainStops (s : State) (d : Nat) : State :=
  let s := ((s.discardCmds d).dmaStop d).dropOutbound d
  let s := s.when (s.str.owner == some d) State.strAbandon
  let s := s.when (s.lease.holder == some d) (·.leaseEnd 4 (some 0x8004))
  s.when (d == 7) (·.endWaits fun q => q.cmd.origin == .forerunner)

/-- The lowest free freeze record. -/
def State.freeRecord (s : State) : Option Nat := (List.range 32).find? fun k => (tfind s.frzRecs k).isNone

/-- A master is frozen with a record; with no record free FRZ_OVERFLOW is set. -/
def State.freezeAs (s : State) (r : FreezeRec) : State :=
  match s.freeRecord with
  | some k => { s with frozen := s.frozen ++ [r.who], frzRecs := tset s.frzRecs k r }
  | none => { s with frozen := s.frozen ++ [r.who], frzOver := true }

/-- A violation freezes its master (R360); a further one of a frozen master is counted. -/
def State.freeze (s : State) (who : Frozen) (cause : FreezeCause) (detail : Nat) : State :=
  if s.frozen.contains who then
    { s with frzRecs := s.frzRecs.map fun (k, r) => (k, if r.who = who then { r with count := min 0xFFFF (r.count + 1) } else r) }
  else
    let r : FreezeRec := ⟨who, cause, 0, s.tc.now, detail⟩
    let s := s.freezeAs r
    let dom := match who with | .domain d => d | _ => 0xFF
    let s := (s.journalAdd s.tc.now dom cause.code 0x8002 r.rec0).raise 3 3
    match who with
    | .domain d => s.domainStops d
    | .dma c => s.when (((s.eng (c / 16)).run.map (·.ch)) == some (c % 16)) (·.dmaDone (c / 16) 8 false)
    | .core _ => s

/-- A violation of a domain; the device's own masters commit none. -/
def State.violate (s : State) (m : Master) (cause : FreezeCause) (detail : Nat) : State :=
  match m with
  | .host d => s.freeze (.domain d) cause detail
  | .core c => s.freeze (.core c) .coreRange detail
  | .firmware => s

/-- A master is frozen no longer and its record is free. -/
def State.freezeEnds (s : State) (who : Frozen) : State :=
  { s with
    frozen := s.frozen.filter (· != who)
    frzRecs := s.frzRecs.filter fun (_, r) => r.who != who
    frzOver := s.frzOver && !s.frzRecs.any fun (_, r) => r.who == who }

/-- A freeze ends: its record is free (R361). -/
def State.thaw (s : State) (who : Frozen) : State :=
  let s := s.freezeEnds who
  match who with
  | .dma c => s.modChan (c / 16) (c % 16) fun x => { x with st := if x.st = .frozen then .idle else x.st }
  | _ => s

/-! ### Passwords (R356, R404) -/

/-- The delivery value. -/
def delivery : List Byte := List.replicate 12 0x30

def Password.isDefault (p : Password) : Bool := p.value == delivery

/-- Time left of a lockout, ns. -/
def Password.left (p : Password) (now : Nat) : Nat := match p.lockLeft with | some l => l - (now - p.lockAt) | none => 0
def Password.locked (p : Password) (now : Nat) : Bool := decide (0 < p.left now)

/-- Whole minutes left, rounded up. -/
def Password.minutes (p : Password) (now : Nat) : Nat := (p.left now + 59999999999) / 60000000000

/-- A lockout that has run out: the failure count starts again. -/
def Password.settle (p : Password) (now : Nat) : Password :=
  if p.lockLeft.isSome && !p.locked now then { p with lockLeft := none, fails := 0, savedMin := 0 } else p

/-- Length of the lockout after `streak` others: 15 minutes, doubled each time, at most 24 hours. -/
def lockoutLength (streak : Nat) : Nat := min 86400000000000 (900000000000 * 2 ^ min 7 streak)

/-- A wrong password: the fifth in a row starts a lockout. -/
def Password.wrong (p : Password) (now : Nat) : Password :=
  if p.fails + 1 < 5 then { p with fails := p.fails + 1 }
  else
    let len := lockoutLength p.streak
    { p with fails := 5, lockLeft := some len, lockAt := now, streak := p.streak + 1, savedMin := (len + 59999999999) / 60000000000 }

/-- A password is given: the result code of R357 and the new state. `set`: by the command that changes it. -/
def Password.check (p : Password) (given : List Byte) (now : Nat) (set : Bool) : Nat × Password :=
  let p := p.settle now
  if p.locked now then (0xB, p)
  else if !set && p.isDefault then (0xA, if given = delivery then p else p.wrong now)
  else if given = p.value then (0, { p with fails := 0, streak := 0 })
  else (0xA, p.wrong now)

/-- Twelve ASCII decimal digits. -/
def isPassword (l : List Byte) : Bool := l.length == 12 && l.all fun b => decide (0x30 ≤ b.toNat) && decide (b.toNat ≤ 0x39)

/-- HB_HST_PWD, HB_STR_PWD. -/
def Password.show (p : Password) (now : Nat) : Word :=
  let q := p.settle now
  word [(0, 3, q.fails), (3, 1, b2n (q.locked now)), (4, 1, b2n q.isDefault), (16, 11, q.minutes now)]

def passwordLockoutEnd (safety : Bool) (s : State) : State :=
  if safety then { s with safetyPwd := s.safetyPwd.settle s.now } else { s with maintPwd := s.maintPwd.settle s.now }

/-- The minutes left are kept in the NV system area. -/
def Password.save (p : Password) (now : Nat) : Password := if p.lockLeft.isSome then { p with savedMin := p.minutes now } else p

def lockoutTimeSave (s : State) : State :=
  if s.boot.pwrFail.isSome then s
  else { s with maintPwd := s.maintPwd.save s.now, safetyPwd := s.safetyPwd.save s.now }

/-- A lockout after a power loss goes on with the time kept. -/
def Password.resume (p : Password) (now : Nat) : Password :=
  if p.lockLeft.isSome ∧ p.savedMin ≠ 0 then { p with lockLeft := some (p.savedMin * 60000000000), lockAt := now } else { p with lockLeft := none }

/-! ### Snapshots (R366) -/

def DeviceState.code : DeviceState → Nat
  | .start => 0 | .service => 1 | .degraded => 2 | .maintenance => 3 | .watch => 4 | .safeStop => 5

/-- HB_SNAP_STATE.CALIB: comparator while a hold runs, else in-gap while a round runs (R489). -/
def State.calibMode (s : State) : Nat :=
  if s.fdin.cal.hold.isSome then 2 else if (List.range 4).any fun d => (s.calPort d).phase != .none then 1 else 0

/-- HB_SNAP_STATE.STRUCTURE (R417). -/
def State.structMode (s : State) : Nat :=
  match s.str.st with
  | .idle => 0 | .open | .verifying | .verified => 1 | .committing | .latched => 2

/-- Forerunner mode is on (R322). -/
def State.frmOn (s : State) : Bool := bitOf (s.reg Reg.HB_FRM_CFG) 0

def State.snapState (s : State) : Word :=
  word [(0, 3, s.dev.code), (3, 1, b2n s.boot.split), (4, 1, b2n s.frmOn), (5, 2, s.calibMode), (7, 2, s.structMode)
    , (9, 1, b2n s.lease.holder.isSome), (10, 3, s.lease.holder.getD 7), (13, 1, b2n (!s.frozen.isEmpty))]

def State.snap (s : State) (d : Nat) : Snapshot := tget s.snaps {} d

def snapshotTake (d : Nat) (s : State) : State :=
  { s with snaps := tset s.snaps d { s.snap d with requested := true, ready := false, due := false } }

/-- At a boundary, after the commands of its cycle: the values of every snapshot that is asked for. -/
def State.snapCapture (s : State) : State :=
  let x : Snapshot := {
    due := true, cycle := s.saf.cycle, stamp := s.saf.cycleTc, jseq := s.jseq, state := s.snapState
    epoch := lo32 s.leaseEpoch, struct := s.reg Reg.HB_STR_EPOCH, secs := (List.range 2048).map s.saf.chan.code }
  { s with snaps := s.snaps.map fun (d, y) => (d, if y.requested then x else y) }

/-- The buffer holds the snapshot: READY, and source 15 for its domain. -/
def snapshotFill (d : Nat) (s : State) : State :=
  if (s.snap d).due then
    let s := { s with snaps := tset s.snaps d { s.snap d with due := false, ready := true } }
    s.when (decide (d < 8)) (·.raiseTo 15 15 d)
  else s

/-! ### Views -/

/-- HB_HST registers, as master `m` reads them. -/
def hstView (s : State) (m : Master) (o : Nat) : Option Word :=
  let frozenBit := fun (k i : Nat) => s.frozen.any fun f => f.kind == k && f.index == i
  match o with
  | 0x00 => match m with
    | .host d => some (word [(0, 3, d), (3, 5, fld (s.roles d) 0 5), (8, 1, b2n (s.lease.holder == some d))])
    | _ => some 0
  | 0x04 => some (bitsWord fun i => if i < 8 then frozenBit 0 i else if i < 12 then frozenBit 2 (i - 8) else false)
  | 0x18 => some (word [(0, 6, s.frzRecs.length), (6, 1, b2n s.frzOver)])
  | 0x30 => some (s.maintPwd.show s.now)
  | _ =>
    if 0x08 ≤ o ∧ o < 0x18 then some (bitsWord fun i => frozenBit 1 (32 * ((o - 8) / 4) + i))
    else if 0x20 ≤ o ∧ o < 0x30 then
      match tfind s.frzRecs (fld (s.mreg m Reg.HB_HST_FRZ_SEL) 0 5), (o - 0x20) / 4 with
      | none, 0 => some 3
      | none, _ => some 0
      | some r, 0 => some r.rec0
      | some r, 1 => some (lo32 r.stamp)
      | some r, 2 => some (hi32 r.stamp)
      | some r, _ => some (lo32 r.detail)
    else if 0x40 ≤ o ∧ o < 0x60 then some (s.roles ((o - 0x40) / 4))
    else if 0x60 ≤ o ∧ o < 0x80 then
      let x := s.domCmds ((o - 0x60) / 4)
      some (word [(0, 16, x.rejCount), (16, 8, x.rejLast)])
    else none

/-- HB_LEASE registers. -/
def leaseView (s : State) (o : Nat) : Option Word :=
  match o with
  | 0x0 => some (word [(0, 1, b2n s.lease.holder.isSome), (1, 3, s.lease.holder.getD 7), (4, 1, b2n s.lease.grace)])
  | 0x4 => some (lo32 s.leaseEpoch)
  | 0xC => some (if s.lease.holder.isSome then lo32 (min 0xFFFF ((s.tc.now - s.lease.renewed) / 1000000)) else 0)
  | _ => none

/-- HB_SNAP registers of a domain. -/
def snapView (s : State) (d o : Nat) : Option Word :=
  let x := s.snap d
  match o with
  | 0x00 => some (word [(1, 1, b2n x.ready)])
  | 0x04 => some (lo32 x.cycle)
  | 0x08 => some (hi32 x.cycle)
  | 0x0C => some (lo32 x.stamp)
  | 0x10 => some (hi32 x.stamp)
  | 0x14 => some (lo32 x.jseq)
  | 0x18 => some (hi32 x.jseq)
  | 0x1C => some x.state
  | 0x20 => some x.epoch
  | 0x24 => some x.struct
  | _ =>
    if 0x100 ≤ o ∧ o < 0x500 then
      some (word ((List.range 8).map fun i => (4 * i, 4, x.secs.getD (8 * ((o - 0x100) / 4) + i) 0)))
    else none

/-! ### Meanings -/

/-- LEASE_GRACE (R345). -/
def execLeaseGrace (dt : Nat) (s : State) : Out := s.afterHb dt leaseGrace

/-- LEASE_LAPSE (R345, R346). -/
def execLeaseLapse (dt : Nat) (s : State) : Out := s.afterHb dt leaseLapse

/-- PASSWORD_LOCKOUT_END (R356). -/
def execPasswordLockoutEnd (dt : Nat) (safety : Bool) (s : State) : Out := s.afterHb dt (passwordLockoutEnd safety)

/-- LOCKOUT_TIME_SAVE (R356). -/
def execLockoutTimeSave (dt : Nat) (s : State) : Out := s.afterHb dt lockoutTimeSave

/-- SNAPSHOT_FILL (R366). -/
def execSnapshotFill (dt d : Nat) (s : State) : Out := s.afterHb dt (snapshotFill d)

end Sys2Proof.Machine
end

