-- ==== Sys2Proof/Machine/HostLinks.lean ====
section
/-!
DEFINITION. Host links: rings in host memory, event delivery, vital telegrams, Ethernet sessions and their datagrams, responses,
the mailbox, the HB_LNK, HB_NET and HB_EVR registers (Host Links and Vital Telegrams, R368 to R390; R363 to R365, R367).
-/
namespace Sys2Proof.Machine

/-! ### Link events and rings -/

/-- Set a bit of a domain's HB_LNK_EVT. -/
def State.lnkEvt (s : State) (d i : Nat) : State :=
  s.setMreg (.host d) Reg.HB_LNK_EVT (setBit (s.mreg (.host d) Reg.HB_LNK_EVT) i)

/-- Set a bit of HB_NET_EVT. -/
def State.netEvt (s : State) (i : Nat) : State := s.setEvt Reg.HB_NET_EVT i

/-- The base that a ring's _LO and _HI registers hold. -/
def State.ringBase (s : State) (d a : Nat) : Nat :=
  (s.mreg (.host d) a).toNat + 2 ^ 32 * (s.mreg (.host d) (a + 4)).toNat

/-- Size, producer and consumer index of the ring of domain `d` whose base register is `a`: the three registers follow the base. -/
def State.ringSize (s : State) (d a : Nat) : Nat := (s.mreg (.host d) (a + 8)).toNat
def State.ringProd (s : State) (d a : Nat) : Nat := (s.mreg (.host d) (a + 12)).toNat
def State.ringCons (s : State) (d a : Nat) : Nat := (s.mreg (.host d) (a + 16)).toNat

/-- The ring takes no entry: it is disabled, or PROD + 1 equals CONS. -/
def State.ringFull (s : State) (d a : Nat) : Bool :=
  let n := s.ringSize d a
  n == 0 || (s.ringProd d a + 1) % n == s.ringCons d a

/-- Write an entry of `l.length` bytes at PROD and advance PROD after it. -/
def State.ringPut (s : State) (d a : Nat) (l : List Byte) : State :=
  let p := s.ringProd d a
  (s.store (hostAddr d (s.ringBase d a + l.length * p)) l).setMreg (.host d) (a + 12) (lo32 ((p + 1) % s.ringSize d a))

/-! ### Sessions (R375 to R379) -/

def State.setLinks (s : State) (f : Links → Links) : State := { s with links := f s.links }
def State.session (s : State) (d : Nat) : Session := tget s.links.sessions {} d
def State.setSession (s : State) (d : Nat) (x : Session) : State := s.setLinks fun l => { l with sessions := tset l.sessions d x }
def State.ethPort (s : State) (p : Nat) : EthPort := tget s.links.eth {} p
def State.setEthPort (s : State) (p : Nat) (x : EthPort) : State := s.setLinks fun l => { l with eth := tset l.eth p x }

/-- HB_NET_BINDd. -/
def State.bind (s : State) (d : Nat) : Word := s.reg (Reg.HB_NET_BIND (d - 2))

/-- The bound Ethernet ports of a domain whose link is up. -/
def State.sessionPorts (s : State) (d : Nat) : List Nat :=
  [0, 1].filter fun p => bitOf (s.bind d) (1 + p) && (s.ethPort p).link != 0

/-- A datagram: envelope and body. -/
def datagramBytes (type flags num mseq : Nat) (body : List Byte) : List Byte :=
  beBytes 1 type ++ [3] ++ beBytes 2 (16 + body.length) ++ beBytes 1 flags ++ [0, 0, 0] ++ beBytes 4 num ++ beBytes 4 mseq ++ body

/-- Send a datagram on an open session: the next MSEQ, identical copies on every bound port whose link is up. -/
def State.sessionSend (s : State) (d type flags : Nat) (body : List Byte) : State :=
  let x := s.session d
  if !x.up then s
  else
    let q := x.mseq + 1
    let b := datagramBytes type flags x.num q body
    let s := s.setSession d { x with mseq := q, txAt := s.now }
    (s.sessionPorts d).foldl (fun s p => s.send (.datagram d p type q b)) s

/-- A command whose response nobody waits for any more. -/
def orphaned : CmdOrigin → CmdOrigin
  | .ring _ => .ring 8
  | .session _ m => .session 8 m
  | o => o

/-- The domain's link has gone down: responses that were held, or that its commands still owe, are not sent; its engines stop (R374). -/
def State.linkLost (s : State) (d : Nat) : State :=
  let lost := s.responses.filter fun r => r.dom == d
  let s := s.modDomCmds d fun x => { x with outstanding := x.outstanding - lost.length }
  let s := { s with
    responses := s.responses.filter fun r => r.dom != d
    queue := s.queue.map fun (q : QueuedCmd) => if q.cmd.dom = d then { q with cmd := { q.cmd with origin := orphaned q.cmd.origin } } else q }
  s.dmaStop d

/-- A session closes; `tell`: the device sends CLOSE. -/
def State.sessionEnd (s : State) (d : Nat) (tell : Bool) : State :=
  if !(s.session d).up then s
  else
    let s := s.when tell (·.sessionSend d 0x12 0 [])
    (((s.setSession d {}).linkLost d).lnkEvt d 0).netEvt 5

/-- An OPEN is accepted: a new session number, OPEN_ACK. -/
def State.sessionStart (s : State) (d nonce : Nat) : State :=
  let s := s.when (s.session d).up fun s => (s.setSession d {}).linkLost d
  let n := if (s.links.lastNum + 1) % 2 ^ 32 = 0 then 1 else s.links.lastNum + 1
  let s := s.setLinks fun l => { l with lastNum := n }
  let s := s.setSession d { up := true, num := n, rxAt := s.now, txAt := s.now }
  let s := s.sessionSend d 0x11 0 (beBytes 1 d ++ [0, 0, 0] ++ beBytes 4 nonce ++ beBytes 4 (s.reg Reg.HB_LNK_ID).toNat)
  (s.lnkEvt d 1).netEvt 5

/-- Count a discarded datagram of a port. -/
def State.netDrop (s : State) (p : Nat) : State :=
  let n := (s.reg (Reg.HB_NET_DROP p)).toNat
  (s.setReg (Reg.HB_NET_DROP p) (lo32 (min 0xFFFFFFFF (n + 1)))).netEvt 4

/-- The peer address that a binding names. -/
def State.peerAddr (s : State) (d : Nat) : Nat :=
  let k := d - 2
  if bitOf (s.bind d) 3 then
    [Reg.HB_NET_PEER_V6_0 k, Reg.HB_NET_PEER_V6_1 k, Reg.HB_NET_PEER_V6_2 k, Reg.HB_NET_PEER_V6_3 k].foldl
      (fun a r => a * 2 ^ 32 + (s.reg r).toNat) 0
  else (s.reg (Reg.HB_NET_PEER_V4 k)).toNat

/-- The domain whose enabled binding covers a source on a port (R376). -/
def State.boundDomain (s : State) (p src sport : Nat) : Option Nat :=
  [2, 3, 4, 5, 6].find? fun d =>
    let w := s.bind d
    bitOf w 0 && bitOf w (1 + p) && fld w 4 16 == sport && s.peerAddr d == src

/-- The body has the length its TYPE asks for (R375). -/
def bodyFits (type : Nat) (body : List Byte) : Bool :=
  match type with
  | 0x10 => body.length == 8
  | 0x12 | 0x13 => body.isEmpty
  | 0x20 => body.length == 64
  | 0x30 => body.length == 8
  | 0x32 => decide (8 ≤ body.length)
  | _ => false

/-- The envelope of a payload, where it is one a host may send. -/
def readEnvelope (p : Nat) (b : List Byte) : Option NetMsg :=
  let m : NetMsg := ⟨p, beNat (bytesAt b 0 1), beNat (bytesAt b 8 4), beNat (bytesAt b 12 4), b.drop 16⟩
  if 16 ≤ b.length ∧ bytesAt b 1 1 = [3] ∧ beNat (bytesAt b 2 2) = b.length ∧ bodyFits m.type m.body then some m else none

/-- The datagrams of the powered second in progress, this one included. -/
def EthPort.tick (x : EthPort) (now : Nat) : EthPort :=
  if x.second = now / 1000000000 then { x with count := x.count + 1 }
  else { x with second := now / 1000000000, count := 1, echoes := 0 }

/-- A datagram arrives at the local port: rate and binding, envelope, session; a request waits in the domain's inbox. -/
def ethReceive (p src sport : Nat) (b : List Byte) (s : State) : State :=
  if !bitOf (s.reg (Reg.HB_NET_CFG p)) 0 then s
  else
    let x := (s.ethPort p).tick s.now
    let s := s.setEthPort p x
    if 20000 < x.count then s.netDrop p
    else
      match s.boundDomain p src sport, readEnvelope p b with
      | some d, some m =>
        let y := s.session d
        if m.type = 0x10 then
          if beNat (bytesAt m.body 0 1) = d then s.setLinks fun l => { l with inbox := tpush l.inbox d m } else s.netDrop p
        else if !y.up || m.session != y.num then s.netDrop p
        else
          let s := s.setSession d { y with rxAt := s.now }
          if m.type = 0x13 then s else s.setLinks fun l => { l with inbox := tpush l.inbox d m }
      | _, _ => s.netDrop p

/-- The message at the front of a domain's inbox where it is of a type: it leaves the inbox. -/
def State.inboxTake (s : State) (d type : Nat) : Option (NetMsg × State) :=
  match tget s.links.inbox [] d with
  | m :: t => if m.type = type then some (m, s.setLinks fun l => { l with inbox := tset l.inbox d t }) else none
  | [] => none

def sessionOpen (d : Nat) (s : State) : State :=
  match s.inboxTake d 0x10 with
  | some (m, s) => s.sessionStart d (beNat (bytesAt m.body 4 4))
  | none => s

/-- A message belongs to the domain's current session. -/
def State.current (s : State) (d : Nat) (m : NetMsg) : Bool := (s.session d).up && m.session == (s.session d).num

def sessionClose (d : Nat) (s : State) : State :=
  match s.inboxTake d 0x12 with
  | some (m, s) => if s.current d m then s.sessionEnd d false else s.netDrop m.port
  | none => s

/-- 500 ms without a valid datagram; exactly 500.000 ms are accepted. -/
def sessionTimeout (d : Nat) (s : State) : State :=
  if (s.session d).up ∧ (s.session d).rxAt + 500000000 < s.now then s.sessionEnd d true else s

def keepaliveSend (d : Nat) (s : State) : State :=
  if (s.session d).up ∧ (s.session d).txAt + 100000000 ≤ s.now then s.sessionSend d 0x13 0 [] else s

/-- A request against the highest MSEQ accepted (R379): whether it is executed, and the state after it is noted, repeated or
discarded. -/
def State.sessionNote (s : State) (d : Nat) (m : NetMsg) : Bool × State :=
  let x := s.session d
  if !s.current d m then (false, s.netDrop m.port)
  else if x.high < m.mseq then
    let done := x.done.filter fun (e : Nat × Option (Nat × List Byte)) => decide (m.mseq ≤ e.1 + 63)
    (true, s.setSession d { x with high := m.mseq, done := tset done m.mseq none })
  else if m.mseq + 63 < x.high then (false, s.netDrop m.port)
  else
    match tfind x.done m.mseq with
    | none => (true, s.setSession d { x with done := tset x.done m.mseq none })
    | some none => (false, s)
    | some (some (t, b)) => (false, s.sessionSend d t 0 b)

/-- The response of a request is kept and sent. -/
def State.sessionAnswer (s : State) (d mseq type : Nat) (body : List Byte) : State :=
  let x := s.session d
  if !x.up then s
  else (s.setSession d { x with done := tset x.done mseq (some (type, body)) }).sessionSend d type 0 body

/-! ### Event delivery (R363 to R365, R387) -/

/-- An event entry (R364), little-endian or with each field in network byte order. -/
def DueEntry.bytes (e : DueEntry) (lost : Bool) (enc : Nat → Nat → List Byte) : List Byte :=
  enc 8 e.stamp ++ enc 2 (e.src + 32768 * b2n lost) ++ enc 2 e.merged ++ enc 4 e.data.toNat

/-! ### MSI-X (R544) -/

/-- Where BAR2 of its port's endpoint stands in the addresses that a PCIe domain names: above its 4 MiB window. -/
def bar2Base : Nat := 2 ^ 32

/-- The port and the BAR2 offset that a master's address names, where it names one. -/
def bar2At (m : Master) (a : Nat) : Option (Nat × Nat) :=
  match m with
  | .host d => if d < 2 ∧ bar2Base ≤ a ∧ a < bar2Base + 0x4000 then some (d, a - bar2Base) else none
  | _ => none

/-- Word `i` of the table: after reset every vector is masked and all else 0. -/
def Msix.word (x : Msix) (i : Nat) : Word := tget x.table (if i % 4 = 3 then 1 else 0) i

def Msix.masked (x : Msix) (v : Nat) : Bool := bitOf (x.word (4 * v + 3)) 0

/-- The bits of word `i` that a write reaches: the mask bit of a vector control; an address of whole words. -/
def msixMask (i : Nat) : Word := if i % 4 = 3 then 1 else if i % 4 = 0 then 0xFFFFFFFC else 0xFFFFFFFF

def State.msixOf (s : State) (p : Nat) : Msix := tget s.links.msix {} p
def State.setMsix (s : State) (p : Nat) (x : Msix) : State := s.setLinks fun l => { l with msix := tset l.msix p x }

/-- A vector is signalled: sent, or pending while its entry is masked. -/
def State.msixSignal (s : State) (p v : Nat) : State :=
  let x := s.msixOf p
  if x.masked v then s.setMsix p { x with pend := x.pend ||| BitVec.twoPow 64 v } else s.send (.msix p v)

/-- A word of BAR2: the table at 0000h, the pending bits at 2000h, elsewhere 0. -/
def State.bar2Word (s : State) (p o : Nat) : Word :=
  let x := s.msixOf p
  if o < 0x400 then x.word (o / 4)
  else if o = 0x2000 then x.pend.setWidth 32
  else if o = 0x2004 then (x.pend >>> 32).setWidth 32
  else 0

/-- A write to BAR2: only the table takes it. A vector unmasked while its bit is pending is sent, and the bit falls. -/
def State.bar2Store (s : State) (p o : Nat) (v : Word) : State :=
  if 0x400 ≤ o then s
  else
    let x := s.msixOf p
    let n := o / 16
    let y := { x with table := tset x.table (o / 4) (v &&& msixMask (o / 4)) }
    if x.pend.getLsbD n && !y.masked n then (s.setMsix p { y with pend := y.pend &&& ~~~BitVec.twoPow 64 n }).send (.msix p n)
    else s.setMsix p y

/-- A read of BAR2 completes: with all ones and an error for a frozen domain (R359). -/
def State.bar2Read (s : State) (m : Master) (p o : Nat) : State :=
  if s.isFrozen m then s.send (.reply m (bar2Base + o) 0xFFFFFFFF true) else s.send (.reply m (bar2Base + o) (s.bar2Word p o) false)

/-- A write to BAR2: a frozen domain's is dropped. -/
def State.bar2Write (s : State) (m : Master) (p o : Nat) (v : Word) : State := if s.isFrozen m then s else s.bar2Store p o v

/-- An entry for a PCIe domain goes into its ring, or is lost. -/
def State.ringEvent (s : State) (e : DueEntry) : State :=
  let a := Reg.HB_EVR_Q_BASE_LO
  if s.ringFull e.dom a then
    let n := (s.mreg (.host e.dom) Reg.HB_EVR_LOST).toNat
    let s := s.setMreg (.host e.dom) Reg.HB_EVR_LOST (lo32 (min 0xFFFFFFFF (n + 1)))
    if s.evOver.contains e.dom then s else { s with evOver := e.dom :: s.evOver }
  else
    let s := s.ringPut e.dom a (e.bytes (s.evOver.contains e.dom) leBytes)
    { s with evOver := s.evOver.filter (· != e.dom) }.msixSignal e.dom (fld (s.reg (Reg.HB_EVR_ROUTE e.src)) 8 6)

/-- Up to 64 entries that are due for an Ethernet domain leave as one event telegram; none on a closed session. -/
def eventTelegram (d : Nat) (s : State) : State :=
  let l := (s.due.filter fun e => e.dom == d).take 64
  if l.isEmpty then s
  else
    let rest := (s.due.filter fun e => e.dom == d).drop 64
    let x := s.session d
    let s := { s with due := (s.due.filter fun e => e.dom != d) ++ (if x.up then rest else []) }
    if !x.up then s
    else
      let s := s.setSession d { x with eseq := x.eseq + 1 }
      let body := beBytes 4 (s.reg Reg.HB_LNK_ID).toNat ++ beBytes 4 (x.eseq + 1) ++ beBytes 2 l.length ++ [0, 0] ++
        l.flatMap fun e => e.bytes false beBytes
      s.sessionSend d 2 0 (body ++ beBytes 4 (crc crc32c body))

/-- The entry that has waited longest for a domain is delivered. -/
def eventEntryDeliver (d : Nat) (s : State) : State :=
  if 2 ≤ d then eventTelegram d s
  else
    match s.due.find? fun e => e.dom == d with
    | some e => { s with due := s.due.erase e }.ringEvent e
    | none => s

/-! ### Vital telegrams (R383 to R385) -/

/-- The domain gets vital telegrams. -/
def State.telegramFor (s : State) (d : Nat) : Bool := decide (d < 7) && s.roleBit d 1 && !s.isFrozen (.host d)

/-- Processor states that telegrams carry: a pair, or core 0, is in service. -/
def State.codePValid (s : State) : Bool := s.boot.split || s.saf.inService

/-- FLAGS of a telegram. -/
def State.telegramFlags (s : State) : Nat :=
  b2n s.boot.split + 2 * b2n s.degradedCond + 4 * b2n s.tc.valid + 8 * b2n s.saf.activeB + 16 * b2n s.frmOn + 32 * b2n s.lease.grace

/-- Bytes 16 to 55. -/
def State.telegramHeader (s : State) (d tseq : Nat) : List Byte :=
  beBytes 4 (s.reg Reg.HB_LNK_ID).toNat ++ beBytes 8 s.saf.cycle ++ beBytes 8 s.saf.cycleTc ++ beBytes 4 tseq ++
    beBytes 4 (s.reg Reg.HB_STR_EPOCH).toNat ++ beBytes 4 s.leaseEpoch ++ beBytes 1 d ++ beBytes 1 (s.lease.holder.getD 0xFF) ++
    beBytes 1 s.dev.code ++ [0] ++ beBytes 2 s.telegramFlags ++ [0, 0]

/-- SECTIONS, bytes 56 to 1079: an unlisted section is Fh. -/
def sectionBytes (t : Table Nat) : List Byte :=
  (List.range 1024).map fun k => BitVec.ofNat 8 (tget t 15 (2 * k) + 16 * tget t 15 (2 * k + 1))

/-- The telegram of a domain leaves: into the telegram ring at slot TSEQ modulo SIZE, or as a datagram. -/
def State.telegramSend (s : State) (d : Nat) (codeH : Option Nat) : State :=
  match tfind s.links.telegrams d with
  | none => s
  | some t =>
    let s := s.setLinks fun l => { l with telegrams := tdel l.telegrams d }
    let flags := b2n codeH.isNone + 2 * b2n t.codeP.isNone
    let body := t.payload ++ beBytes 4 (t.codeP.getD 0) ++ beBytes 4 (codeH.getD 0)
    let n := s.ringSize d Reg.HB_LNK_TLGQ_BASE_LO
    let goes := if d < 2 then n != 0 else (s.session d).up
    let s := s.when (goes && codeH.isNone) (·.lnkEvt d 4)
    if !goes then s
    else if d < 2 then
      let q := beNat (bytesAt t.payload 20 4)
      (s.store (hostAddr d (s.ringBase d Reg.HB_LNK_TLGQ_BASE_LO + 2048 * (q % n))) (datagramBytes 1 flags 0 0 body)).setMreg
        (.host d) Reg.HB_LNK_TLGQ_LAST (lo32 q)
    else s.sessionSend d 1 flags body

/-- A telegram of the running cycle is formed for a domain; an older one that waits leaves first. -/
def telegramForm (d : Nat) (s : State) : State :=
  let div := max 1 (fld (s.reg Reg.HB_LNK_TLG_CFG) 0 7)
  let pv := s.codePValid
  if !s.telegramFor d || s.saf.cycle % div != 0 || tfind s.links.formed d == some s.saf.cycle || (pv && s.saf.sentCycle != s.saf.cycle) then s
  else
    let s := s.telegramSend d none
    let q := tget s.links.tseq 0 d % 0xFFFFFFFF + 1
    let head := s.telegramHeader d q
    let states := if pv then s.saf.sentStates else s.saf.chan.cfg.secs.map fun (e : Nat × SecCfg) => (e.1, 3)
    let payload := head ++ sectionBytes states
    let t : Telegram := ⟨s.saf.cycle, s.saf.cycleAt, payload, if pv then some (crc crc32c (s.foldBytes ++ payload)) else none⟩
    let s := s.setMreg (.host d) Reg.HB_LNK_TSEQ (lo32 q)
    s.setLinks fun l => { l with
      tseq := tset l.tseq d q, formed := tset l.formed d s.saf.cycle, telegrams := tset l.telegrams d t
      headers := if s.fdUp && s.boot.shaken && !s.mrg.deadB then l.headers ++ [(d, s.saf.cycle, head)] else l.headers }

/-- FD takes a telegram header and answers. While the ledger's cycle state is on its way, the header waits. -/
def headerReceived (s : State) : State :=
  match s.links.headers, s.fdUp && !s.mrg.deadB with
  | (d, c, head) :: t, true =>
    let answer := fun (x : Option Nat) => (s.setLinks fun l => { l with headers := t, codes := l.codes ++ [(d, c, x)] }).frameSeen 5 false
    if !s.ledgerLive then answer none
    else
      match tfind s.fds.cycles c with
      | some led => answer (some (crc crc32 (s.foldBytes ++ head ++ sectionBytes led.states)))
      | none => if s.fds.marked c then answer none else s
  | _, _ => s

/-- HB takes FD's answer for a domain: the telegram of its cycle leaves; a late answer is discarded. -/
def codeHReceived (d : Nat) (s : State) : State :=
  match s.links.codes.find? fun x => x.1 == d with
  | none => s
  | some x =>
    let s := (s.setLinks fun l => { l with codes := l.codes.erase x }).frameSeen 5 true
    match tfind s.links.telegrams d with
    | some t => if t.cycle = x.2.1 then s.telegramSend d x.2.2 else s
    | none => s

/-- 0.9 cycles after the boundary. -/
def telegramDeadline (d : Nat) (s : State) : State :=
  match tfind s.links.telegrams d with
  | some t => if 10 * t.since + 9 * s.cycleLen ≤ 10 * s.now then s.telegramSend d none else s
  | none => s

/-! ### Responses (R350, R370 to R372, R379, R382) -/

/-- The 32 bytes of a response. -/
def Response.bytes (r : Response) : List Byte :=
  leBytes 4 r.tag ++ leBytes 2 r.code ++ leBytes 1 r.result ++ [0] ++ leBytes 8 r.jseq ++ (r.data ++ List.replicate 16 0).take 16

/-- A response leaves, or is held while its ring is full. -/
def responseDeliver (d : Nat) (s : State) : State :=
  if s.boot.pwrFail.isSome then s else
  match s.responses.find? fun r => r.dom == d with
  | none => s
  | some r =>
    let gone := (({ s with responses := s.responses.erase r }.modDomCmds d fun x => { x with outstanding := x.outstanding - 1 }).send
      (.response r.result d r.tag r.code r.jseq))
    match r.origin with
    | .ring p =>
      if 2 ≤ p then gone
      else if s.ringFull p Reg.HB_LNK_RSPQ_BASE_LO then s.lnkEvt d 3
      else (gone.ringPut p Reg.HB_LNK_RSPQ_BASE_LO r.bytes).raise 4 4
    | .session p m => gone.sessionAnswer p m 0x21 (beBytes 4 m ++ r.bytes)
    | .mailbox _ =>
      let s := (List.range 8).foldl (fun s w => s.setMreg (.host 7) (Reg.HB_LNK_MRSP w) (bufWord r.bytes w)) gone
      s.setLinks fun l => { l with mboxBusy := false, mboxReady := true }
    | .forerunner => gone

/-! ### PCIe ports, Ethernet ports -/

/-- A hot reset, link-down or FLR: the domain's HB_LNK and HB_EVR_Q registers return to their reset values (R374), and so does the
MSI-X table of the endpoint. -/
def pcieReset (p : Nat) (s : State) : State :=
  let own := fun (k : Nat) =>
    k / 2 ^ 32 == p && ((decide (Reg.HB_LNK_STATUS ≤ k % 2 ^ 32) && decide (k % 2 ^ 32 < Reg.HB_NET_CFG 0)) ||
      (decide (Reg.HB_EVR_Q_BASE_LO ≤ k % 2 ^ 32) && decide (k % 2 ^ 32 ≤ Reg.HB_EVR_Q_CONS)))
  let s := { s with mregs := s.mregs.filter fun (e : Nat × Word) => !own e.1 }
  (s.setLinks fun l => { l with pcie := tset l.pcie p {}, msix := tdel l.msix p }).linkLost p

def pcieUp (p speed width : Nat) (s : State) : State :=
  ((s.setLinks fun l => { l with pcie := tset l.pcie p ⟨true, speed, width⟩ }).lnkEvt p 1).acwDrain p

/-- An Ethernet port's link changes: 0 down, 1 1000BASE-X where the fallback is allowed, 2 10GBASE-R. -/
def ethLink (p link : Nat) (s : State) : State :=
  let x := s.ethPort p
  let cfg := s.reg (Reg.HB_NET_CFG p)
  if link = x.link ∨ (link ≠ 0 ∧ !bitOf cfg 0) ∨ (link = 1 ∧ !bitOf cfg 1) then s
  else (s.setEthPort p { x with link := link }).netEvt (if link = 0 then 2 + p else p)

/-- An echo request: answered at up to 10 per second and port. -/
def icmpEcho (p : Nat) (b : List Byte) (s : State) : State :=
  let x := s.ethPort p
  let x := if x.second = s.now / 1000000000 then x else { x with second := s.now / 1000000000, count := 0, echoes := 0 }
  if x.link = 0 ∨ 10 ≤ x.echoes then s.setEthPort p x
  else (s.setEthPort p { x with echoes := x.echoes + 1 }).send (.packet p 0 b)

/-- The MAC address of a port, six octets. -/
def State.macBytes (s : State) (p : Nat) : List Byte :=
  beBytes 2 (fld (s.reg (Reg.HB_NET_MAC_HI p)) 0 16) ++ beBytes 4 (s.reg (Reg.HB_NET_MAC_LO p)).toNat

/-- The device's IPv6 address of a port. -/
def State.v6Addr (s : State) (p : Nat) : Nat :=
  [Reg.HB_NET_V6_0 p, Reg.HB_NET_V6_1 p, Reg.HB_NET_V6_2 p, Reg.HB_NET_V6_3 p].foldl (fun a r => a * 2 ^ 32 + (s.reg r).toNat) 0

/-- An ARP request or neighbour solicitation for an address of the device is answered. -/
def neighbourRequest (p addr : Nat) (s : State) : State :=
  let cfg := s.reg (Reg.HB_NET_CFG p)
  if (s.ethPort p).link != 0 && ((bitOf cfg 18 && addr == (s.reg (Reg.HB_NET_V4 p)).toNat) || (bitOf cfg 19 && addr == s.v6Addr p)) then
    s.send (.packet p 1 (s.macBytes p))
  else s

/-! ### Registers -/

/-- A stored ring size: 0, or held between its ends. -/
def ringEntries (v lo hi : Nat) : Nat := if v = 0 then 0 else clampNat lo hi v

/-- Set the registers of a list to 0 in a domain's copy. -/
def State.zeroMregs (s : State) (m : Master) (l : List Nat) : State := l.foldl (fun s a => s.setMreg m a 0) s

/-- A write of a base or size register of a ring: the indices start again at 0. -/
def State.ringConfig (s : State) (m : Master) (a : Nat) (v : Word) (resets : List Nat) : State := (s.setMreg m a v).zeroMregs m resets

/-- A PCIe domain. -/
def isPcie : Master → Bool
  | .host d => d < 2
  | _ => false

/-- Writes of HB_LNK at block offset `o`, but for HB_LNK_MBOX_CTL. -/
def lnkWrite (s : State) (m : Master) (o : Nat) (v : Word) : State :=
  let a := Reg.HB_LNK_STATUS + o
  let cmdq := [Reg.HB_LNK_CMDQ_PROD, Reg.HB_LNK_CMDQ_CONS]
  let rspq := [Reg.HB_LNK_RSPQ_PROD, Reg.HB_LNK_RSPQ_CONS]
  let size := lo32 (ringEntries (fld v 0 13) 16 4096)
  if isPcie m then
    match o with
    | 0x20 => s.ringConfig m a (v &&& 0xFFFFFFC0) cmdq
    | 0x24 => s.ringConfig m a v cmdq
    | 0x28 => s.ringConfig m a size cmdq
    | 0x2C => s.setMreg m a (v &&& 0x1FFF)
    | 0x40 => s.ringConfig m a (v &&& 0xFFFFFFC0) rspq
    | 0x44 => s.ringConfig m a v rspq
    | 0x48 => s.ringConfig m a size rspq
    | 0x50 => s.setMreg m a (v &&& 0x1FFF)
    | 0x60 => s.ringConfig m a (v &&& 0xFFFFFFC0) [Reg.HB_LNK_TLGQ_LAST]
    | 0x64 => s.ringConfig m a v [Reg.HB_LNK_TLGQ_LAST]
    | 0x68 => s.ringConfig m a (lo32 (ringEntries (fld v 0 9) 4 256)) [Reg.HB_LNK_TLGQ_LAST]
    | _ => s
  else if m = .host 7 ∧ 0x80 ≤ o ∧ o < 0xC0 ∧ !s.links.mboxBusy then s.setMreg m a v
  else s

/-- Writes of HB_EVR at block offset `o` by a master that may write them. -/
def evrWrite (s : State) (m : Master) (o : Nat) (v : Word) : State :=
  let a := Reg.HB_EVR_LOST + o
  let ix := [Reg.HB_EVR_Q_PROD, Reg.HB_EVR_Q_CONS]
  match o with
  | 0x4 => s.ringConfig m a (v &&& 0xFFFFFFF0) ix
  | 0x8 => s.ringConfig m a v ix
  | 0xC => s.ringConfig m a (lo32 (ringEntries (fld v 0 16) 64 65535)) ix
  | 0x14 => s.setMreg m a (v &&& 0xFFFF)
  | _ =>
    if 0x200 ≤ o ∧ o < 0x280 then s.setMreg m a v
    else if 0x1000 ≤ o then s.setReg a (v &&& 0x3FFF)
    else s

/-- HB_LNK_STATUS of a domain. -/
def State.lnkStatus (s : State) (d : Nat) : Word :=
  if d < 2 then let x := tget s.links.pcie {} d; word [(0, 1, b2n x.up), (1, 3, x.speed), (4, 3, x.width)]
  else if d < 7 then
    if (s.session d).up then
      let ps := s.sessionPorts d
      let speed := match ps with | p :: _ => if (s.ethPort p).link = 1 then 5 else 6 | [] => 0
      word [(0, 1, 1), (1, 3, speed), (7, 1, b2n (ps.contains 0)), (8, 1, b2n (ps.contains 1))]
    else 0
  else lo32 (b2n (s.boot.stage != 0))

/-- HB_LNK registers as a master reads them; the queue and mailbox registers that its domain has not read 0. -/
def lnkView (s : State) (m : Master) (o : Nat) : Option Word :=
  match o with
  | 0x00 => match m with | .host d => some (s.lnkStatus d) | _ => some 0
  | 0x08 | 0x0C | 0x10 => some (s.reg (Reg.HB_LNK_STATUS + o))
  | 0xC0 => some (if m = .host 7 then word [(1, 1, b2n s.links.mboxBusy), (2, 1, b2n s.links.mboxReady)] else 0)
  | _ =>
    if 0x20 ≤ o ∧ o < 0x80 then (if isPcie m then none else some 0)
    else if 0x80 ≤ o then (if m = .host 7 then none else some 0)
    else none

/-- HB_NET registers that are views of the state. -/
def netView (s : State) (o : Nat) : Option Word :=
  if o < 0x80 ∧ o % 0x40 = 0x20 then some (lo32 (s.ethPort (o / 0x40)).link)
  else if 0x100 ≤ o ∧ o < 0x240 then
    let x := s.session (2 + (o - 0x100) / 0x40)
    match o % 0x40 with
    | 0x18 => some (lo32 (if x.up then x.num else 0))
    | 0x1C => some (word [(0, 16, if x.up then min 0xFFFF ((s.now - x.rxAt) / 1000000) else 0), (16, 1, b2n x.up)])
    | _ => none
  else none

/-! ### Meanings -/

/-- EVENT_ENTRY_DELIVER (R363, R365). -/
def execEventEntryDeliver (dt d : Nat) (s : State) : Out := s.afterHb dt (eventEntryDeliver d)

/-- EVENT_TELEGRAM_SEND (R387). -/
def execEventTelegramSend (dt d : Nat) (s : State) : Out := s.afterHb dt (eventTelegram d)

/-- PCIE_PORT_RESET (R374). -/
def execPciePortReset (dt p : Nat) (s : State) : Out := s.afterHb dt (pcieReset p)

/-- PCIE_LINK_UP (R390). -/
def execPcieLinkUp (dt p speed width : Nat) (s : State) : Out := s.afterHb dt (pcieUp p speed width)

/-- VITAL_TELEGRAM_FORM (R383, R385). -/
def execVitalTelegramForm (dt d : Nat) (s : State) : Out := s.afterHb dt (telegramForm d)

/-- TELEGRAM_HEADER_RECEIVED (R383, R384). -/
def execTelegramHeaderReceived (dt : Nat) (s : State) : Out := s.after dt headerReceived

/-- CODE_H_RECEIVED (R383). -/
def execCodeHReceived (dt d : Nat) (s : State) : Out := s.afterHb dt (codeHReceived d)

/-- TELEGRAM_DEADLINE (R383). -/
def execTelegramDeadline (dt d : Nat) (s : State) : Out := s.afterHb dt (telegramDeadline d)

/-- SESSION_OPEN (R377). -/
def execSessionOpen (dt d : Nat) (s : State) : Out := s.afterHb dt (sessionOpen d)

/-- SESSION_CLOSE (R377). -/
def execSessionClose (dt d : Nat) (s : State) : Out := s.afterHb dt (sessionClose d)

/-- SESSION_TIMEOUT (R377). -/
def execSessionTimeout (dt d : Nat) (s : State) : Out := s.afterHb dt (sessionTimeout d)

/-- KEEPALIVE_SEND (R377). -/
def execKeepaliveSend (dt d : Nat) (s : State) : Out := s.afterHb dt (keepaliveSend d)

/-- ETH_LINK_CHANGE (R390). -/
def execEthLinkChange (dt p link : Nat) (s : State) : Out := s.afterHb dt (ethLink p link)

/-- ICMP_ECHO (R368). -/
def execIcmpEcho (dt p : Nat) (b : List Byte) (s : State) : Out := s.afterHb dt (icmpEcho p b)

/-- NEIGHBOUR_REQUEST (R368). -/
def execNeighbourRequest (dt p addr : Nat) (s : State) : Out := s.afterHb dt (neighbourRequest p addr)

end Sys2Proof.Machine
end

