-- ==== Sys2Proof/Machine/Outputs.lean ====
section
/-!
DEFINITION. Output readback and faults, group checks, off-pulse tests, brake tests, reset inputs and field safety inputs, and their
registers (Vital Outputs, Brake Demand and Reset Inputs, R303 to R321; R300, R301).
-/
namespace Sys2Proof.Machine

/-! ### Parameters -/

def us (n : Nat) : Nat := n * 1000

/-- OFFP_T, T_SW, V_OFF, V_ON. -/
def State.offpT (s : State) : Nat := us (fld (s.reg Reg.FD_VO_TIMING) 0 9)
def State.tSw (s : State) : Nat := us (fld (s.reg Reg.FD_VO_TIMING) 9 11)
def State.vThr (s : State) (i : Nat) : Word := s.reg (if i < 16 then Reg.FD_VO_THR0 else Reg.FD_VO_THR1)

/-- A reading in mV is on, or off (R307). -/
def State.readsOn (s : State) (i volts : Nat) : Bool := decide (fld (s.vThr i) 16 16 ≤ volts)
def State.readsOff (s : State) (i volts : Nat) : Bool := decide (volts ≤ fld (s.vThr i) 0 16)

/-- I_MIN, I_MAX (mA); a current in mA from VOIi in mV (SCALE: 10 mA/V). -/
def State.iMin (s : State) (i : Nat) : Nat := fld (s.reg (Reg.FD_VO_CUR i)) 0 12
def State.iMax (s : State) (i : Nat) : Nat := fld (s.reg (Reg.FD_VO_CUR i)) 12 12
def State.iScale (s : State) (i mv : Nat) : Nat := mv * fld (s.reg (Reg.FD_VO_CUR i)) 24 8 / 100

/-- BT_APPLY, BT_HOLD, BT_RELEASE. -/
def State.brkTime (s : State) (k : Nat) : Nat := fld (s.reg Reg.FD_BRK_TIME) (10 * k) 10 * 10000000

/-! ### Faults (R309) -/

/-- A fault of output `i`: STUCK_ON takes the group's supply away and is a Safe-stop cause, the others latch. -/
def State.voFault (s : State) (i code : Nat) : State :=
  let v := s.vo i
  if code = 1 then
    if v.stuck then s
    else
      let s := (s.setVo i { v with stuck := true, changed := none }).setEvt Reg.FD_VO_EVT 0
      let s := s.setGroup (i / 16) { s.group (i / 16) with on := false }
      s.voRecheck.causeRaise 7
  else if v.latched.contains code then s
  else
    let s := (s.setVo i { v with latched := code :: v.latched }).setEvt Reg.FD_VO_EVT 0
    s.voLower i

/-! ### Off-pulse test (R312, R313) -/

/-- A test ends: counted where both steps succeeded, a fault where one failed; the FEEDBACK limit did not run meanwhile. -/
def State.testEnd (s : State) (i : Nat) : State :=
  let v := s.vo i
  match v.test with
  | none => s
  | some t =>
    let ok := t.fell && t.rose
    let s := s.setVo i { v with
      test := none, fb := v.fb.map (· + (s.now - t.start)), passes := if ok then (v.passes + 1) % 65536 else v.passes }
    let s := s.voUndefer (i / 16)
    let s := s.when (!ok) (·.setEvt Reg.FD_VO_EVT 1)
    let s := s.when (!t.fell) (·.voFault i 1)
    s.when (!t.rose) (·.voFault i 2)

/-- A reading of the tested output. -/
def State.testReading (s : State) (i volts : Nat) (t : VoTest) : State :=
  match t.raised with
  | none => s.setVo i { s.vo i with test := some { t with fell := t.fell || (s.readsOff i volts && decide (s.now ≤ t.start + s.offpT)) } }
  | some r =>
    if s.readsOn i volts && decide (s.now ≤ r + us 200) then
      (s.setVo i { s.vo i with test := some { t with rose := true } }).testEnd i
    else s

def offPulseSlotStart (i : Nat) (s : State) : State :=
  let v := s.vo i
  let slot := decide (s.tc.fd % 100000000 = i * 3125000)
  if s.fdUp && s.voEn i && v.level && slot && v.test.isNone && (s.group (i / 16)).check.isNone then
    s.setVo i { v with level := false, changed := none, test := some { start := s.now } }
  else s

def offPulseRaise (i : Nat) (s : State) : State :=
  let v := s.vo i
  match v.test with
  | some t =>
    if t.raised.isNone && decide (t.start + s.offpT ≤ s.now) then
      s.setVo i { v with level := true, test := some { t with raised := some s.now } }
    else s
  | none => s

def offPulseEnd (i : Nat) (s : State) : State :=
  match (s.vo i).test with
  | some t => if t.raised.any fun r => decide (r + us 200 ≤ s.now) then s.testEnd i else s
  | none => s

/-! ### Readback (R307 to R309) -/

/-- The 1 ms checks of a current and, of a settled output, of a voltage. -/
def State.voMilli (s : State) (i volts ma : Nat) (settled : Bool) : State :=
  let v := s.vo i
  let v := { v with
    overrun := if v.level ∧ s.iMax i < ma then v.overrun + 1 else 0
    below := if v.level ∧ ma < s.iMin i then some (v.below.getD s.now) else none
    notOn := if settled && v.level && !s.readsOn i volts then v.notOn + 1 else 0
    notOff := if settled && !v.level && !s.readsOff i volts then v.notOff + 1 else 0 }
  let s := s.setVo i v
  let s := s.when (decide (2 ≤ v.notOff)) (·.voFault i 1)
  let s := s.when (decide (2 ≤ v.notOn)) (·.voFault i 2)
  s.when (decide (2 ≤ v.overrun)) (·.voFault i 3)

/-- `n` readback conversions: those of the last millisecond are kept. -/
def State.readsTaken (s : State) (n : Nat) : State :=
  s.setOuts fun o => { o with reads := List.replicate n s.now ++ o.reads.filter fun t => decide (s.now < t + 1000000) }

/-- A readback of output `i`: VOVi in mV; with VOIi in mV for a 1 ms reading, which FD_VO_READ shows. -/
def outputReadback (i volts : Nat) (current : Option Nat) (s : State) : State :=
  let v := s.vo i
  if !s.fdUp || !s.voEn i then s
  else
    let s := s.readsTaken (if current.isSome then 2 else 1)
    let s := match current with
      | some mv => s.setVo i { v with volt := min 0xFFFF volts, cur := min 0xFFFF (s.iScale i mv) }
      | none => s
    match v.test with
    | some t => s.testReading i volts t
    | none =>
      if (s.group (i / 16)).check.isSome then s
      else
        let settled := v.changed.isNone
        let confirms := (if v.level then s.readsOn i volts else s.readsOff i volts) &&
          v.changed.any fun t => decide (s.now ≤ t + s.tSw)
        let s := s.when confirms (·.setVo i { s.vo i with changed := none })
        match current with
        | some mv => s.voMilli i volts (s.iScale i mv) settled
        | none => s

/-- A change is still unconfirmed after T_SW. -/
def outputSwitchTimeout (i : Nat) (s : State) : State :=
  let v := s.vo i
  if v.changed.any fun t => decide (t + s.tSw < s.now) then
    (s.setVo i { v with changed := none }).voFault i (if v.level then 2 else 1)
  else s

/-- Every reading has been below I_MIN for 100 ms. -/
def openLoadTimeout (i : Nat) (s : State) : State :=
  let v := s.vo i
  if v.level && v.below.any fun t => decide (t + 100000000 ≤ s.now) then s.voFault i 4 else s

/-! ### Group check and retest (R310, R311) -/

/-- The check begins: VOGg low, every enabled VOi high. -/
def groupCheckStart (s : State) : State :=
  if s.fdUp && s.dev == .start && s.outs.checkDue then
    let s := s.setOuts fun o => { o with checkDue := false }
    [0, 1].foldl (fun s g =>
      let s := s.setGroup g { s.group g with on := false, check := some s.now }
      (groupOutputs g).foldl (fun s i => s.when (s.voEn i) (·.setVo i { s.vo i with level := true, changed := none })) s) s
  else s

/-- The check ends; `volts`: every reading of the group in its 500 µs. -/
def groupCheckDone (g : Nat) (volts : List Nat) (s : State) : State :=
  match (s.group g).check with
  | none => s
  | some t =>
    if s.now < t + us 500 then s
    else
      let ok := volts.all (s.readsOff (16 * g))
      let s := (groupOutputs g).foldl (fun s i =>
        s.when (s.vo i).level (·.setVo i { s.vo i with level := false, changed := some s.now })) s
      let stuck := (groupOutputs g).any fun i => (s.vo i).stuck
      let s := s.setGroup g { s.group g with check := none, on := ok && !stuck, fault := !ok }
      s.when (!ok) (·.setEvt Reg.FD_VO_EVT 2)

/-- The result of an output command; a refused one sets CMD_REFUSED. -/
def State.voResult (s : State) (res : Nat) : State :=
  let s := s.setOuts fun o => { o with voRes := res }
  s.when (res != 0) (·.setEvt Reg.FD_VO_EVT 3)

/-- A retest runs. -/
def State.retesting (s : State) : Bool := [0, 1].any fun g => (s.group g).retest.isSome

def voGroupRetest (g : Nat) (s : State) : State :=
  if 2 ≤ g then s.voResult 5
  else if s.retesting then s.voResult 3
  else if s.dev != .safeStop && s.dev != .maintenance then s.voResult 1
  else (s.setGroup g { s.group g with on := true, retest := some s.now }).voResult 0

/-- The retest ends; `volts`: every reading of the group in its 100 ms. -/
def groupRetestDone (g : Nat) (volts : List Nat) (s : State) : State :=
  match (s.group g).retest with
  | none => s
  | some t =>
    if s.now < t + 100000000 then s
    else if volts.all (s.readsOff (16 * g)) then
      let s := (groupOutputs g).foldl (fun s i => s.when (s.vo i).stuck (·.setVo i { s.vo i with stuck := false })) s
      let s := s.setGroup g { s.group g with retest := none, fault := false }
      let s := s.setOuts fun o => { o with voRes := 0 }
      s.when (s.causeGone 7) (·.causeClear 7)
    else
      let s := s.setGroup g { s.group g with retest := none, fault := true, on := false }
      ((s.setOuts fun o => { o with voRes := 4 }).setEvt Reg.FD_VO_EVT 2).voRecheck

/-- The FEEDBACK condition is still present: the feedback has a fault, or does not show the brake applied. -/
def State.feedbackBad (s : State) (i : Nat) : Bool := s.brakeOn i && !s.applied (i - 16)

def voFaultClear (i : Nat) (s : State) : State :=
  let v := s.vo i
  if s.retesting then s.voResult 3
  else if v.latched.isEmpty then s.voResult 2
  else if v.latched.contains 5 && s.feedbackBad i then s.voResult 1
  else (s.setVo i { v with latched := [], fb := none }).voResult 0

/-- A write to FD_VO_CMD by a master that may write it. -/
def voCommand (v : Word) (s : State) : State :=
  match fld v 0 2 with
  | 0 => voFaultClear (fld v 2 5) s
  | 1 => voGroupRetest (fld v 2 5) s
  | _ => s.voResult 5

/-! ### Brake tests and feedback (R314 to R316) -/

/-- A failed test: its result, and fault BRAKE_TEST. -/
def State.brakeFail (s : State) (c res : Nat) : State := (s.brakeEnd c res).voFault (16 + c) 6

/-- A test shows applied: step 3 begins. -/
def State.brakeHold (s : State) (c : Nat) : State := s.setBrake c { s.brake c with step := .hold, since := s.now }

/-- A brake test is asked for: FD's answer as FD_BRK_CMD_STATUS codes it. -/
def State.brakeStart (s : State) (c : Nat) : State × Nat :=
  if 16 ≤ c then (s, 4)
  else if s.dev == .safeStop || s.dev == .watch || s.fds.first.isSome then (s, 1)
  else if (s.brake c).step ≠ .none then (s, 2)
  else if !(s.vo (16 + c)).latched.isEmpty || !s.brakeOn (16 + c) then (s, 3)
  else
    let s := (s.setBrake c { step := .apply, since := s.now, res := 1 }).voRecheck
    (if s.applied c then s.brakeHold c else s, 0)

/-- A write to FD_BRK_CMD by a master that may write it. -/
def brakeCommand (c : Nat) (s : State) : State :=
  let r := s.brakeStart c
  r.1.setOuts fun o => { o with brkRes := r.2 }

/-- BFBc takes a state (R300). -/
def brakeFeedback (c : Nat) (runs : List LevelRun) (s : State) : State :=
  match s.fdUp, heldState runs with
  | true, some high =>
    let s := s.setFdin fun f => { f with bfb := tset f.bfb c { high := some high, fault := false } }
    let on := s.applied c
    let v := s.vo (16 + c)
    let s := s.when (v.fb.isSome && s.follows (16 + c) (v.level || v.test.isSome)) (·.setVo (16 + c) { v with fb := none })
    match (s.brake c).step with
    | .apply => if on then s.brakeHold c else s
    | .hold => if on then s else s.brakeFail c 5
    | .release => if on then s else s.brakeEnd c 3
    | _ => s
  | _, _ => s

/-- BFBc has been undefined for more than 100 ms (R300). -/
def brakeFeedbackFault (c : Nat) (runs : List LevelRun) (s : State) : State :=
  if !s.fdUp || (s.bfb c).fault || !undefinedLong runs then s
  else
    let s := s.setFdin fun f => { f with bfb := tset f.bfb c { s.bfb c with fault := true } }
    let s := s.when ((s.brake c).step == .hold) (·.brakeFail c 5)
    s.when (s.brakeOn (16 + c)) (·.voFault (16 + c) 5)

def brakeApplyTimeout (c : Nat) (s : State) : State :=
  let b := s.brake c
  if b.step = .apply ∧ b.since + s.brkTime 0 < s.now then s.brakeFail c 4 else s

def brakeHoldEnd (c : Nat) (s : State) : State :=
  let b := s.brake c
  if b.step = .hold ∧ b.since + s.brkTime 1 ≤ s.now then s.setBrake c { b with step := .okWait, since := s.now, res := 2 } else s

def brakeReleaseTimeout (c : Nat) (s : State) : State :=
  let b := s.brake c
  if b.step = .release ∧ b.since + s.brkTime 2 < s.now then s.brakeFail c 6 else s

/-- The FEEDBACK limit of a change of VOi passes (R309): not during an off-pulse test, nor during a brake test, which checks the same
(R316). -/
def brakeFeedbackTimeout (c : Nat) (s : State) : State :=
  let v := s.vo (16 + c)
  let limit := if v.level then s.brkTime 2 else s.brkTime 0
  if v.test.isNone && (s.brake c).step == .none && v.fb.any fun t => decide (t + limit < s.now) then
    (s.setVo (16 + c) { v with fb := none }).voFault (16 + c) 5
  else s

/-! ### Reset inputs (R317 to R320) -/

def State.rstIn (s : State) (n : Nat) : ResetIn := tget s.outs.rst {} n
def State.setRstIn (s : State) (n : Nat) (r : ResetIn) : State := s.setOuts fun o => { o with rst := tset o.rst n r }

/-- The pattern of two contacts: some true pressed, some false released, none disagree. -/
def rstPattern (no nc : InputClass) : Option Bool :=
  match no, nc with
  | .high, .low => some true
  | .low, .high => some false
  | _, _ => none

/-- An input of EXIT_MASK is STUCK or FAULT. -/
def State.exitBarred (s : State) : Bool :=
  (List.range 4).any fun n => s.exitMask n && ((s.rstIn n).st == .stuck || (s.rstIn n).st == .fault)

/-- The use of an edge (R319, R320): the exit from Safe-stop, or the direct resets that wait for it. -/
def State.rstEdge (s : State) (n : Nat) : State :=
  let r := s.rstIn n
  let start := s.tc.fd - (s.now - r.patAt.getD s.now)
  let s := (s.setRstIn n { r with start := start, edges := (r.edges + 1) % 256 }).setEvt Reg.FD_RST_EVT n
  if s.fds.first.isSome then
    if s.exitMask n && s.exitReady && decide (s.fds.cleared < start) && !s.exitBarred then s.ssExit n else s
  else
    let t := start + 19000000
    (s.procDo (·.edge n t (0, 2, 3))).ledDo (·.edge n t (0, 2, 3))

/-- The pattern of one sample of the two contacts (R317). -/
def samplePattern (x : Nat × Nat) : Option Bool := rstPattern (levelClass x.1) (levelClass x.2)

/-- The contacts as the last sample classifies them, and the pattern that has held for 20 samples, with its start. -/
def ResetIn.sample (r : ResetIn) (now : Nat) (samples : List (Nat × Nat)) : ResetIn :=
  match samples.getLast? with
  | none => r
  | some x =>
    let p := samplePattern x
    let n := trailing (fun _ => 1) (fun y => samplePattern y == p) samples
    let r := { r with no := levelClass x.1, nc := levelClass x.2 }
    if n < 20 ∨ r.pat = some p then r else { r with pat := some p, patAt := some (now - (n - 1) * 1000000) }

/-- A pattern has held for 20 samples. -/
def resetInputPattern (n : Nat) (samples : List (Nat × Nat)) (s : State) : State :=
  if !s.fdUp then s
  else
    let r := (s.rstIn n).sample s.now samples
    let go := fun (st : RstState) => s.setRstIn n { r with st := st, since := s.now }
    match r.st, r.pat with
    | .unknown, some (some false) => go .released
    | .unknown, some (some true) => go .pressed
    | .released, some (some true) => if r.since + 100000000 ≤ s.now then (go .pressed).rstEdge n else go .pressed
    | .pressed, some (some false) => go .released
    | .stuck, some (some false) => go .released
    | _, _ => s.setRstIn n r

/-- More than 10 s in PRESSED. -/
def resetInputStuck (n : Nat) (s : State) : State :=
  let r := s.rstIn n
  if s.fdUp && r.st == .pressed && decide (r.since + 10000000000 < s.now) then
    (s.setRstIn n { r with st := .stuck, since := s.now }).setEvt Reg.FD_RST_EVT (4 + n)
  else s

/-- The disagree pattern has held for 100 ms. -/
def resetInputFault (n : Nat) (s : State) : State :=
  let r := s.rstIn n
  if s.fdUp && r.st != .fault && r.pat == some none && (r.patAt.any fun t => decide (t + 100000000 ≤ s.now)) then
    (s.setRstIn n { r with st := .fault, since := s.now }).setEvt Reg.FD_RST_EVT (8 + n)
  else s

/-- The released pattern has held for 1 s in FAULT. -/
def resetInputFaultRelease (n : Nat) (s : State) : State :=
  let r := s.rstIn n
  if s.fdUp && r.st == .fault && r.pat == some (some false) && (r.patAt.any fun t => decide (t + 1000000000 ≤ s.now)) then
    s.setRstIn n { r with st := .released, since := s.now }
  else s

/-! ### Field safety inputs -/

def fsiStateChange (i : Nat) (runs : List LevelRun) (s : State) : State := (s.fsiTake i runs).voRecheck
def fsiFault (i : Nat) (runs : List LevelRun) (s : State) : State := (s.fsiBad i runs).voRecheck

/-! ### Views -/

/-- The lowest code of R309 present at an output; 0 none. -/
def State.voCode (s : State) (i : Nat) : Nat :=
  let v := s.vo i
  if v.stuck then 1
  else match v.latched.min? with
    | some c => c
    | none => if s.voEn i && (s.group (i / 16)).fault then 7 else 0

def voMapWord (l : List Nat) (k : Nat) : Word :=
  let part := fun (i at' : Nat) => match l[i]? with | some sec => [(at', 11, sec), (at' + 11, 1, 1)] | none => []
  word (part (2 * k) 0 ++ part (2 * k + 1) 16)

def groupFaulty (s : State) (g : Nat) : Bool := (s.group g).fault || (groupOutputs g).any fun i => (s.vo i).stuck

/-- FD_VO registers that are views of the state. -/
def voView (s : State) (m : Master) (o : Nat) : Option Word :=
  match o with
  | 0x00 => some (bitsWord fun i => (s.vo i).level)
  | 0x04 => some (bitsWord fun i => s.voCode i != 0)
  | 0x08 => some (bitsWord s.voInhibit)
  | 0x14 => some (word [(0, 1, b2n s.retesting), (1, 4, s.outs.voRes)])
  | 0x18 => some (word [(0, 1, b2n (s.group 0).on), (1, 1, b2n (s.group 1).on), (2, 1, b2n (groupFaulty s 0)),
      (3, 1, b2n (groupFaulty s 1))])
  | _ =>
    if 0x2C ≤ o ∧ o < 0x3C then some (voMapWord (s.vo (fld (s.mreg m Reg.FD_VO_SEL) 0 5)).map ((o - 0x2C) / 4))
    else if 0x100 ≤ o ∧ o < 0x300 then
      let i := (o - 0x100) / 16
      let v := s.vo i
      match (o - 0x100) % 16 with
      | 8 => some (word [(0, 4, s.voCode i), (4, 1, b2n v.level), (5, 1, b2n (s.voInhibit i)), (6, 1, b2n v.test.isSome),
          (16, 16, v.passes)])
      | 12 => some (word [(0, 16, v.volt), (16, 16, v.cur)])
      | _ => none
    else none

/-- FD_BRK registers that are views of the state. -/
def brkView (s : State) (o : Nat) : Option Word :=
  match o with
  | 0x04 => some (lo32 s.outs.brkRes)
  | 0x08 => some (bitsWord fun i => if i < 16 then s.applied i else (s.bfb (i - 16)).fault)
  | _ => if 0x100 ≤ o ∧ o < 0x140 then some (lo32 (s.brake ((o - 0x100) / 4)).res) else none

def rstCode : RstState → Nat
  | .unknown => 0 | .released => 1 | .pressed => 2 | .stuck => 3 | .fault => 4

/-- FD_RST registers that are views of the state. -/
def rstView (s : State) (m : Master) (o : Nat) : Option Word :=
  let four := List.range 4
  match o with
  | 0x00 => some (word (four.map fun n => (3 * n, 3, rstCode (s.rstIn n).st)))
  | 0x04 => some (word (four.map (fun n => (n, 1, b2n ((s.rstIn n).no == .high))) ++
      four.map (fun n => (4 + n, 1, b2n ((s.rstIn n).nc == .high))) ++
      four.map fun n => (8 + n, 1, b2n ((s.rstIn n).no == .undefined || (s.rstIn n).nc == .undefined))))
  | 0x10 => some (lo32 (s.rstIn (fld (s.mreg m Reg.FD_RST_SEL) 0 2)).start)
  | 0x18 => some (word (four.map fun n => (8 * n, 8, (s.rstIn n).edges)))
  | _ => none

/-- A read of FD_RST_START_LO latches FD_RST_START_HI for its master (R47). -/
def State.rstStartLo (s : State) (m : Master) : State × Word :=
  let t := (s.rstIn (fld (s.mreg m Reg.FD_RST_SEL) 0 2)).start
  (s.setMreg m Reg.FD_RST_START_HI (hi32 t), lo32 t)

/-! ### Meanings -/

/-- OUTPUT_READBACK (R307). -/
def execOutputReadback (dt i volts : Nat) (current : Option Nat) (s : State) : Out := s.after dt (outputReadback i volts current)

/-- OUTPUT_SWITCH_TIMEOUT (R308). -/
def execOutputSwitchTimeout (dt i : Nat) (s : State) : Out := s.afterFd dt (outputSwitchTimeout i)

/-- OPEN_LOAD_TIMEOUT (R309). -/
def execOpenLoadTimeout (dt i : Nat) (s : State) : Out := s.afterFd dt (openLoadTimeout i)

/-- GROUP_CHECK_START (R310). -/
def execGroupCheckStart (dt : Nat) (s : State) : Out := s.after dt groupCheckStart

/-- GROUP_CHECK_DONE (R310). -/
def execGroupCheckDone (dt g : Nat) (volts : List Nat) (s : State) : Out := s.afterFd dt (groupCheckDone g volts)

/-- GROUP_RETEST_DONE (R311). -/
def execGroupRetestDone (dt g : Nat) (volts : List Nat) (s : State) : Out := s.afterFd dt (groupRetestDone g volts)

/-- OFF_PULSE_SLOT_START (R312). -/
def execOffPulseSlotStart (dt i : Nat) (s : State) : Out := s.after dt (offPulseSlotStart i)

/-- OFF_PULSE_RAISE (R312). -/
def execOffPulseRaise (dt i : Nat) (s : State) : Out := s.afterFd dt (offPulseRaise i)

/-- OFF_PULSE_END (R312). -/
def execOffPulseEnd (dt i : Nat) (s : State) : Out := s.afterFd dt (offPulseEnd i)

/-- BRAKE_FEEDBACK_CHANGE (R315). -/
def execBrakeFeedbackChange (dt c : Nat) (runs : List LevelRun) (s : State) : Out := s.after dt (brakeFeedback c runs)

/-- BRAKE_FEEDBACK_FAULT (R309). -/
def execBrakeFeedbackFault (dt : Nat) (c : Indexed (List LevelRun)) (s : State) : Out := s.after dt (brakeFeedbackFault c.idx c.val)

/-- BRAKE_TEST_APPLY_TIMEOUT (R315). -/
def execBrakeTestApplyTimeout (dt c : Nat) (s : State) : Out := s.afterFd dt (brakeApplyTimeout c)

/-- BRAKE_TEST_HOLD_END (R315). -/
def execBrakeTestHoldEnd (dt c : Nat) (s : State) : Out := s.afterFd dt (brakeHoldEnd c)

/-- BRAKE_TEST_RELEASE_TIMEOUT (R315). -/
def execBrakeTestReleaseTimeout (dt c : Nat) (s : State) : Out := s.afterFd dt (brakeReleaseTimeout c)

/-- BRAKE_FEEDBACK_TIMEOUT (R309). -/
def execBrakeFeedbackTimeout (dt c : Nat) (s : State) : Out := s.afterFd dt (brakeFeedbackTimeout c)

/-- RESET_INPUT_PATTERN (R318). -/
def execResetInputPattern (dt n : Nat) (no nc : List Nat) (s : State) : Out := s.after dt (resetInputPattern n (no.zip nc))

/-- RESET_INPUT_STUCK (R318). -/
def execResetInputStuck (dt n : Nat) (s : State) : Out := s.after dt (resetInputStuck n)

/-- RESET_INPUT_FAULT (R318). -/
def execResetInputFault (dt n : Nat) (s : State) : Out := s.after dt (resetInputFault n)

/-- RESET_INPUT_FAULT_RELEASE (R318). -/
def execResetInputFaultRelease (dt n : Nat) (s : State) : Out := s.after dt (resetInputFaultRelease n)

/-- FSI_STATE_CHANGE (R300). -/
def execFsiStateChange (dt i : Nat) (runs : List LevelRun) (s : State) : Out := s.afterFd dt (fsiStateChange i runs)

/-- FSI_FAULT (R300). -/
def execFsiFault (dt : Nat) (i : Indexed (List LevelRun)) (s : State) : Out := s.afterFd dt (fsiFault i.idx i.val)

end Sys2Proof.Machine
end

