-- ==== Sys2Proof/Machine/StrRules.lean ====
section
/-!
DEFINITION. The rules by which the device refuses to commit a structure (R400 step 4, R573), over the machine that the image
describes: the number of the broken statement and a frame at which it is broken.
-/
namespace Sys2Proof.Machine

/-- The first element for which a check fails. -/
def firstBad {α : Type} (l : List α) (ok : α → Bool) : Option α := l.find? fun x => !ok x

/-- The port frame of a type. -/
def portKey (t d : Nat) : FrameKey := ⟨t, 2, d, 0⟩
def cpKey (cp : Nat) : FrameKey := ⟨0x11, 1, 4, cp⟩
def secKey (n : Nat) : FrameKey := ⟨0x12, 1, 4, n⟩
def senKey (x : SenRef) : FrameKey := ⟨0x04, 2, x.1, x.2⟩

/-- Enabled ports of the image. -/
def State.ports (c : State) : List Nat := (List.range 4).filter c.portEnabled

/-! ### Spans and memory (R133, R140) -/

/-- Lanes with a span. -/
def State.spans (c : State) (d : Nat) : List Nat := laneNumbers.filter fun i => c.spanCount d i != 0

/-- COUNT × f_pt is at most 4.0 × 10⁶ (R133). -/
def spanRateOk (ps : ProbeSet) (count : Nat) : Bool := decide (count * ps.tones * 1250000000 ≤ 4000000 * ps.np)

/-- G + h over a span's own lane and the lanes of the spans next to it (R133). -/
def State.reach (c : State) (d i : Nat) : Nat :=
  let ls := i :: ((c.neighbour d i true).toList ++ (c.neighbour d i false).toList)
  (ls.map (c.gauge d ·)).foldl max 0 + (ls.map (c.halfW d ·)).foldl max 0

def State.spansOk (c : State) (d : Nat) : Bool :=
  let ps := (c.probe d).live
  let on := c.spans d
  let each := on.all fun i =>
    let first := c.spanFirst d i
    let n := c.spanCount d i
    decide (ps.jMin ≤ first) && decide (first + n ≤ ps.jMax + 1) && decide (n ≤ 1024) && spanRateOk ps n &&
      (on.length == 1 || decide (c.reach d i ≤ n))
  let rising := (on.zip (on.drop 1)).all fun (i, k) => decide (c.spanFirst d i + c.spanCount d i ≤ c.spanFirst d k)
  each && rising

/-- Region of a lane: base and end, KiB. -/
def State.region (c : State) (d i : Nat) : Nat × Nat :=
  let w := c.reg (Reg.AQ_LANE_MEM d i)
  (fld w 0 10, fld w 0 10 + fld w 10 11)

def State.regionsOk (c : State) (d : Nat) : Bool :=
  let on := c.spans d
  on.all fun i =>
    let (b, e) := c.region d i
    decide (e ≤ 1024) && on.all fun k =>
      let (b', e') := c.region d k
      i == k || laneBlock i != laneBlock k || decide (e ≤ b') || decide (e' ≤ b)

/-! ### Chainage maps and sensors (R166 to R172) -/

/-- A breakpoint: FM (0.1 fm), KIND, LINE, TM (mm). -/
structure Break where
  fm   : Nat
  kind : Nat
  line : Nat
  tm   : Int
deriving DecidableEq, Repr

def State.cmap (c : State) (d : Nat) : List Break :=
  (List.range (fld (c.reg (Reg.AQ_WSD_CMAP_CNT d)) 0 13)).map fun b =>
    let w := c.reg (Reg.AQ_WSD_CMAP d (2 * b))
    ⟨fld w 0 20, fld w 20 2, fld w 22 8, sext (c.reg (Reg.AQ_WSD_CMAP d (2 * b + 1))).toNat 32⟩

/-- The segments of a map. -/
def segments (m : List Break) : List (Break × Break) := m.zip (m.drop 1)

/-- R166: 1 to 4,096 breakpoints, FM rising strictly. -/
def mapRises (m : List Break) : Bool := decide (1 ≤ m.length) && decide (m.length ≤ 4096) &&
  (segments m).all fun (a, b) => decide (a.fm < b.fm)

/-- R167: END on the last breakpoint only. -/
def mapEnds (m : List Break) : Bool := m.dropLast.all fun b => b.kind != 3

/-- R168: one line and a slope of 0.50 to 1.02 in a LINEAR segment (mm against 0.1 fm). -/
def mapSlopes (m : List Break) : Bool :=
  (segments m).all fun (a, b) =>
    a.kind != 0 || (a.line == b.line &&
      let dt := (b.tm - a.tm).natAbs
      let df := (b.fm - a.fm) * 100
      decide (df * 50 ≤ dt * 100) && decide (dt * 100 ≤ df * 102))

/-- The segment in which a fibre position (fm) lies. -/
def segmentAt (m : List Break) (z : Rat) : Option (Break × Break) :=
  (segments m).find? fun (a, b) => decide ((a.fm : Rat) / 10 ≤ z) && decide (z < (b.fm : Rat) / 10)

/-- The LINEAR segment in which a fibre position lies. -/
def linearAt (m : List Break) (z : Rat) : Option (Break × Break) := (segmentAt m z).filter (·.1.kind == 0)

/-- The track position (mm) in a LINEAR segment. -/
def trackAt (s : Break × Break) (z : Rat) : Rat :=
  s.1.tm + (z - (s.1.fm : Rat) / 10) * (s.2.tm - s.1.tm) / (((s.2.fm : Rat) - s.1.fm) / 10)

/-- A track position rounded to 1 mm, halves away from zero (R167). -/
def toMm (x : Rat) : Int := if 0 ≤ x then (x + 1 / 2).floor else -(-x + 1 / 2).floor

/-- The track position (mm) and line of a fibre position (R167): none in a VOID segment and outside the map. -/
def trackPos (m : List Break) (z : Rat) : Option (Int × Nat) :=
  match segmentAt m z with
  | some s => if s.1.kind = 0 then some (toMm (trackAt s z), s.1.line) else if s.1.kind = 1 then some (s.1.tm, s.1.line) else none
  | none => none

/-- R171: the sensor's point and gauges lie in one span and one LINEAR segment, and its track position is the map's to 1 mm. -/
def State.sensorOk (c : State) (x : SenRef) : Bool :=
  let (d, e) := x
  let j := c.senJ d e
  match c.homeOf d j with
  | none => false
  | some i =>
    let dz := (c.probe d).live.dz
    let g := c.gauge d i
    let h := c.halfW d i
    let m := c.cmap d
    let at_ := fun (k : Int) => linearAt m ((k : Rat) * dz)
    let lo : Int := (j : Int) - h - (g / 2 : Nat)
    let hi : Int := (j : Int) + h - (g / 2 : Nat) + g
    match at_ lo, trackPos m ((c.pos2 d i j : Rat) / 2 * dz) with
    | some s, some (mm, _) => at_ hi == some s && decide ((mm - c.senTm x).natAbs ≤ 1)
    | _, _ => false

/-- All enabled sensors. -/
def State.allSensors (c : State) : List SenRef := (List.range 4).flatMap fun d => (c.sensorsOf d).map fun e => (d, e)

/-- R172: HOME is the lane whose span holds J, and no lane is home to more than 16 sensors. -/
def State.homeOk (c : State) (x : SenRef) : Bool :=
  let home := c.senHome x.1 x.2
  c.homeOf x.1 (c.senJ x.1 x.2) == some home && decide (countOf (c.sensorsOf x.1) (fun e => c.senHome x.1 e == home) ≤ 16)

/-! ### Templates (R176) -/

def State.templatesOk (c : State) (d : Nat) : Bool :=
  let t := (List.range 16).map (c.template d)
  t.all (fun x => decide (1 ≤ x.p) && decide (x.p ≤ 23) && decide (1 ≤ x.c) && decide (x.c ≤ 62) && decide (x.lo < x.hi) &&
      decide ((63 - x.c) * x.p ≤ 69) && (decide (x.lo < 60) || decide ((63 - x.c) * x.p ≤ 3))) &&
    (t.zip (t.drop 1)).all (fun (a, b) => a.hi == b.lo) && t.head?.any (·.lo == 3) && t.getLast?.any (·.hi == 400)

/-! ### Counting points and sections (R191, R215, R323) -/

def Plan.pointOk (p : Plan) (c : State) (cp : Nat) (x : Nat × Nat × Int) : Bool :=
  let (kind, lh, centre) := x
  let fibre := kind == 1 || kind == 3
  let sensors := match c.senOf (2 * cp), c.senOf (2 * cp + 1) with
    | some a, some b =>
      let d := (c.senTm a - c.senTm b).natAbs
      a.1 == b.1 && c.senLine a == c.senLine b && decide (2000 ≤ d) && decide (d ≤ 8000) &&
        (kind != 3 || (decide (min (c.senTm a) (c.senTm b) < centre) && decide (centre < max (c.senTm a) (c.senTm b))))
    | _, _ => false
  decide (1 ≤ kind) && decide (kind ≤ 3) && (!fibre || sensors) &&
    (kind == 1 || (decide (lh < 32) && countOf p.points (fun (_, k, l, _) => k != 1 && l == lh) == 1))

def Plan.pointsOk (p : Plan) (g : ChanCfg) : Bool :=
  decide (countOf p.points (fun (_, k, _) => k == 3) ≤ 32) &&
    (List.range 4).all fun d => decide (countOf g.cps (fun (_, x) => x.kind != CpKind.legacy && x.port == d) ≤ 1024)

def Plan.sectionOk (p : Plan) (n : Nat) (x : SecCfg) : Bool :=
  decide (1 ≤ x.bound.length) && decide (x.bound.length ≤ 8) && x.rstin.all (fun i => decide (i < 4)) && decide (n < 2048) &&
    x.bound.all fun (cp, side) => (side == 1 || side == 2) && (tfind p.points cp).isSome &&
      decide (((boundsOf p.secs cp).map (·.1)).eraseDups.length ≤ 4)

def Plan.forerunnerOk (p : Plan) (frm : Word) (n : Nat) (x : SecCfg) : Bool :=
  !bitOf frm 0 || decide (n < 2032) || x.bound.all fun (cp, _) => (tfind p.points cp).any fun (k, _) => k == 2

/-! ### Windows (R235, R238) -/

def State.windowOk (c : State) (w : Nat) : Bool :=
  let d := c.acwPort w
  let n := c.acwCount w
  n == 0 || (decide (((n * c.acwStride w : Nat) : Rat) * (c.probe d).live.dz ≤ 5000) &&
    (List.range n).all fun i => (c.homeOf d (c.acwFirst w + i * c.acwStride w)).isSome)

/-- The rates of all defined windows add up to at most 12.0 × 10⁹ bytes per second. -/
def State.windowRate (c : State) : Rat :=
  (((List.range 64).filter fun w => c.acwCount w != 0).map fun w => acwRate (c.acwBlock w) (c.probe (c.acwPort w)).live.np).sum

/-! ### Field die (R283, R305) -/

def State.wscOk (c : State) (k : Nat) : Bool :=
  let w0 := c.reg (Reg.FD_WSC_CFG0 k)
  let w1 := c.reg (Reg.FD_WSC_CFG1 k)
  let w2 := c.reg (Reg.FD_WSC_CFG2 k)
  let thr := fld w0 0 10
  let hys := fld w0 10 7
  let m := fld w2 0 4
  !bitOf w0 19 || (decide (2 ≤ hys) && decide (hys ≤ 127) && decide (fld w1 0 10 + 16 + hys ≤ thr) &&
    decide (thr + hys + 16 ≤ fld w1 16 10) && decide (fld w1 16 10 ≤ 1000) && decide (3 ≤ m) &&
    decide (m / 2 + 1 ≤ fld w2 4 4) && decide (fld w2 4 4 ≤ m) && (!bitOf w0 18 || decide (k < 8)))

def State.outputOk (c : State) (i : Nat) : Bool :=
  let w := c.reg (Reg.FD_VO_CFG i)
  let en := fun (k : Nat) => bitOf (c.reg Reg.FD_FSI_CFG) k
  !bitOf w 0 || ((!bitOf w 4 || en (fld w 1 3)) && (!bitOf w 8 || en (fld w 5 3)))

/-! ### Ranges (R573) -/

/-- Fields of a word lie in their ranges: (low bit, length, least, largest). -/
def rangesOk (w : Word) (l : List (Nat × Nat × Nat × Nat)) : Bool :=
  l.all fun (lo, len, a, b) => decide (a ≤ fld w lo len) && decide (fld w lo len ≤ b)

def State.portRanges (c : State) (d : Nat) : Bool :=
  let qual := c.reg (Reg.AQ_DMD_QUAL d)
  let rho := c.reg (Reg.AQ_DMD_RHO d)
  rangesOk (c.reg (Reg.AQ_CHIRP d)) [(14, 6, 0, 50), (20, 8, 16, 255)] &&
    rangesOk qual [(0, 8, 1, fld qual 8 8), (16, 8, 0, 240)] && rangesOk rho [(0, 8, 0, 159), (8, 8, fld rho 0 8 + 1, 160)] &&
    rangesOk (c.reg (Reg.AQ_DMD_UNWRAP d)) [(0, 8, 64, 255), (8, 4, 1, 15)] && rangesOk (c.reg (Reg.AQ_DMD_REF_CTL d)) [(8, 8, 1, 255)]

def State.laneRanges (c : State) (d : Nat) : Bool :=
  (c.spans d).all fun i => rangesOk (c.reg (Reg.AQ_DMD_LANE d i)) [(0, 6, 2, 50), (6, 3, 0, 4)]

def State.ofeRanges (c : State) (d : Nat) : Bool :=
  let lim := c.reg (Reg.AQ_TEC_LIMITS d)
  rangesOk (c.reg (Reg.AQ_OFE_TIMING d)) [(0, 10, 10, 1000), (10, 6, 1, 63)] && setpointOk (c.reg (Reg.AQ_TEC_SETPOINT d)) &&
    rangesOk lim [(0, 10, 64, 1023), (10, 6, 1, 63), (16, 8, 1, 255), (24, 8, fld lim 10 6, 255)]

def State.detRanges (c : State) (d : Nat) : Bool :=
  rangesOk (c.reg (Reg.AQ_WSD_GATE d)) [(0, 8, 128, 255), (8, 8, fld (c.reg (Reg.AQ_DMD_QUAL d)) 0 8, 255), (20, 4, 1, 15)] &&
    rangesOk (c.reg (Reg.AQ_WSD_TIMING d)) [(0, 8, 8, 255), (8, 4, 2, 15), (12, 12, 10, 4095)] &&
    rangesOk (c.reg (Reg.AQ_WSD_AXLE d)) [(0, 10, 50, 1000), (10, 10, 80, 400)]

def State.cptRanges (c : State) : Bool :=
  rangesOk (c.reg Reg.HB_CPT_FIBRE) [(0, 6, 5, 50), (6, 6, 5, 50), (12, 10, 10, 600)] &&
    rangesOk (c.reg Reg.HB_CPT_BRIDGE) [(0, 11, 0, 2000)] && rangesOk (c.reg Reg.HB_CPT_FUSE) [(0, 14, 100, 10000)] &&
    rangesOk (c.reg Reg.HB_CPT_LEGACY) [(0, 18, 2000, 200000)]

def State.voRanges (c : State) (i : Nat) : Bool :=
  let cur := c.reg (Reg.FD_VO_CUR i)
  let thr := c.reg (if i < 16 then Reg.FD_VO_THR0 else Reg.FD_VO_THR1)
  rangesOk (c.reg Reg.FD_VO_TIMING) [(0, 9, 50, 500), (9, 11, 200, 1500)] && rangesOk thr [(16, 16, fld thr 0 16 + 2000, 36000)] &&
    rangesOk cur [(12, 12, fld cur 0 12 + 1, 4095), (24, 8, 1, 255)] &&
    (decide (i < 16) || rangesOk (c.reg Reg.FD_BRK_TIME) [(0, 10, 10, 1000), (10, 10, 0, 1000), (20, 10, 10, 1000)])

/-- A register that an image sets lies in its ranges; one that it leaves alone is not asked. -/
def Plan.ranges (p : Plan) (a : Nat) (l : List (Nat × Nat × Nat × Nat)) : Bool :=
  match tfind p.words a with | some w => rangesOk w l | none => true

/-- Calibration parameters of a port that its frames carry. -/
def Plan.calRanges (p : Plan) (d : Nat) : Bool :=
  p.ranges (Reg.AQ_CAL_CTL d) [(1, 12, 10, 3600), (13, 13, 256, 4096)] && p.ranges (Reg.AQ_CAL_LIM d 1) [(16, 8, 0, 127)] &&
    p.ranges (Reg.AQ_CAL_ACQ d) [(0, 13, 64, 4096), (13, 8, 128, 255), (21, 7, 10, 100)]

/-- FD_CAL_CFG where FD's frames carry it: CMP_INTERVAL is 0 or 60 to 86,400. -/
def Plan.fdCalRanges (p : Plan) : Bool :=
  match tfind p.words Reg.FD_CAL_CFG with
  | some w => (fld w 0 17 == 0 || rangesOk w [(0, 17, 60, 86400)]) && rangesOk w [(17, 7, 1, 127), (24, 7, 1, 127)]
  | none => true

/-- HB_PNL_DERATE where LINKS carries it: D1 below D0, FLOOR at most 256. -/
def Plan.derateOk (p : Plan) : Bool :=
  match tfind p.words Reg.HB_PNL_DERATE with
  | some w => decide (fld w 10 10 < fld w 0 10) && decide (fld w 20 9 ≤ 256)
  | none => true

/-- HB_TPR_CFG and HB_TPR_COEF of a profile that is enabled. -/
def State.tprRanges (c : State) (q : Nat) : Bool :=
  let w := c.reg (Reg.HB_TPR_CFG q)
  let ps := (c.probe q).live
  rangesOk w [(0, 11, 8, 1024)] && (!ps.en || decide (fld w 13 14 * fld w 0 11 < max 1 ps.points)) &&
    (fld (c.reg (Reg.HB_TPR_COEF q)) 0 15 == 0 || rangesOk (c.reg (Reg.HB_TPR_COEF q)) [(0, 15, 1000, 20000)])

/-- The role fields that only one domain may have: FORERUNNER is HD7's. -/
def State.roleRanges (c : State) : Bool := (List.range 7).all fun d => !bitOf (c.reg (Reg.HB_HST_ROLE d)) 4

/-- A CPOINT or SECTION frame of an unused item carries nothing else (R572). -/
def unusedZero (f : SFrame) : Bool :=
  match f.type with
  | 0x11 => let x := Config.framePoint f.payload; x.1 != 0 || (x.2.1 == 0 && x.2.2 == 0)
  | 0x12 => let x := Config.frameSection f.payload; !x.1.isEmpty || x.2.isNone
  | _ => true

/-- Every masked word of the frames of a key is 0, for an item that is not enabled. -/
def frameZero (fs : List SFrame) (k : FrameKey) : Bool :=
  (fs.filter fun f => f.key == k).all fun f => f.words.all fun (_, m, v) => v &&& m == 0

/-! ### All rules, in the order of their numbers -/

/-- The first broken rule and a frame at which it is broken. -/
def brokenRule (fs : List SFrame) : Option (Nat × FrameKey) :=
  let p := planOf fs
  let c := p.state
  let g := p.chanCfg
  let ports := c.ports
  let off := (List.range 4).filter fun d => !c.portEnabled d
  let frm := c.reg Reg.HB_FRM_CFG
  let cmb := c.reg Reg.FD_CMB_CFG
  let on := fun (r : Nat) (o : Option FrameKey) => o.map fun k => (r, k)
  let port := fun (r t : Nat) (ok : Nat → Bool) => on r ((firstBad ports ok).map (portKey t))
  let maps := (List.range 4).filter fun d => fs.any fun f => f.key == portKey 0x06 d
  let chans := (List.range 64).filter fun k => bitOf (c.reg (Reg.FD_WSC_CFG0 k)) 19
  let outs := (List.range 32).filter fun i => bitOf (c.reg (Reg.FD_VO_CFG i)) 0
  [ port 81 0x01 fun d => (c.probe d).live.check == 0,
    port 133 0x02 c.spansOk,
    port 140 0x02 c.regionsOk,
    on 166 ((firstBad maps fun d => mapRises (c.cmap d)).map (portKey 0x06)),
    on 167 ((firstBad maps fun d => mapEnds (c.cmap d)).map (portKey 0x06)),
    on 168 ((firstBad maps fun d => mapSlopes (c.cmap d)).map (portKey 0x06)),
    on 170 ((firstBad c.allSensors fun x => countOf c.allSensors (fun y => c.senId y.1 y.2 == c.senId x.1 x.2) == 1).map senKey),
    on 171 ((firstBad c.allSensors c.sensorOk).map senKey),
    on 172 ((firstBad c.allSensors c.homeOk).map senKey),
    port 176 0x05 c.templatesOk,
    on 191 ((firstBad p.points fun (cp, x) => p.pointOk c cp x).map fun (cp, _) => cpKey cp),
    on 191 (if p.pointsOk g then none else some (cpKey ((p.points.head?.map (·.1)).getD 0))),
    on 215 ((firstBad p.secs fun (n, x) => p.sectionOk n x).map fun (n, _) => secKey n),
    on 235 ((firstBad (List.range 64) c.windowOk).map fun w => ⟨0x31, 1, 4, w⟩),
    on 238 (if c.windowRate ≤ 12000000000 then none else ((List.range 64).find? fun w => c.acwCount w != 0).map fun w => ⟨0x31, 1, 4, w⟩),
    on 251 (if fld cmb 16 2 = 3 then some ⟨0x22, 2, 5, 0⟩ else none),
    on 273 (if fld cmb 8 4 = 0 then some ⟨0x22, 2, 5, 0⟩ else none),
    on 283 ((firstBad chans c.wscOk).map fun k => ⟨0x20, 2, 5, k⟩),
    on 305 ((firstBad outs fun i => c.outputOk i && decide (1 ≤ (tget p.maps [] i).length) && decide ((tget p.maps [] i).length ≤ 8)).map
      fun i => ⟨0x21, 2, 5, i⟩),
    on 323 ((firstBad p.secs fun (n, x) => p.forerunnerOk frm n x).map fun (n, _) => secKey n),
    on 382 (if bitOf (c.reg (Reg.HB_HST_ROLE 7)) 1 then some ⟨0x42, 0, 4, 0⟩ else none),
    on 441 (if Nat.land (fld (c.reg (Reg.HB_HST_ROLE 0)) 5 6) (fld (c.reg (Reg.HB_HST_ROLE 1)) 5 6) == 0 &&
        [2, 3, 4, 5, 6, 7].all (fun d => fld (c.reg (Reg.HB_HST_ROLE d)) 5 6 == 0) then none else some ⟨0x42, 0, 4, 0⟩),
    port 573 0x01 c.portRanges,
    port 573 0x02 c.laneRanges,
    port 573 0x03 c.ofeRanges,
    port 573 0x05 c.detRanges,
    on 573 ((firstBad c.allSensors fun x => decide (4 ≤ c.ampMin x.1 x.2)).map senKey),
    on 573 (if p.points.isEmpty || c.cptRanges then none else some ⟨0x10, 1, 4, 0⟩),
    on 573 ((firstBad chans fun k => rangesOk (c.reg (Reg.FD_WSC_CFG2 k)) [(8, 8, 1, 255)]).map fun k => ⟨0x20, 2, 5, k⟩),
    on 573 ((firstBad outs c.voRanges).map fun i => ⟨0x21, 2, 5, i⟩),
    on 573 (if rangesOk cmb [(0, 4, 1, 15), (4, 4, 2, 15), (12, 4, 1, 15)] then none else some ⟨0x22, 2, 5, 0⟩),
    on 573 ((firstBad ((List.range 4).filter fun q => bitOf (c.reg (Reg.HB_TPR_CFG q)) 11) c.tprRanges).map fun q => ⟨0x30, 1, 4, q⟩),
    port 573 0x05 p.calRanges,
    on 573 (if p.fdCalRanges then none else some ⟨0x22, 2, 5, 0⟩),
    on 573 (if c.roleRanges then none else some ⟨0x42, 0, 4, 0⟩),
    on 573 ((firstBad fs unusedZero).map SFrame.key),
    on 573 ((firstBad ((List.range 64).filter fun w => c.acwCount w != 0) fun w => decide (fld (c.acwReg w 0) 2 2 ≤ 1)).map
      fun w => ⟨0x31, 1, 4, w⟩),
    on 573 (if rangesOk (c.reg Reg.HB_LNK_TLG_CFG) [(0, 7, 1, 100)] && rangesOk (c.reg Reg.HB_NET_LOCAL) [(0, 16, 1024, 65535)] &&
        rangesOk (c.reg Reg.HB_TC_SLEW_LIMIT) [(0, 9, 1, 500)] && p.derateOk then none else some ⟨0x41, 0, 4, 0⟩),
    on 573 (((off.flatMap fun d => [portKey 0x01 d, portKey 0x02 d, portKey 0x03 d, portKey 0x05 d]) ++
        ((List.range 4).flatMap fun d => ((List.range 2048).filter fun e => !c.senEn d e).map fun e => senKey (d, e)) ++
        (((List.range 64).filter fun k => !chans.contains k).map fun k => (⟨0x20, 2, 5, k⟩ : FrameKey)) ++
        (((List.range 32).filter fun i => !outs.contains i).map fun i => (⟨0x21, 2, 5, i⟩ : FrameKey))).find? fun k =>
      !frameZero fs k || (k.type == 0x21 && !(tget p.maps [] k.index).isEmpty))
  ].findSome? id

/-- The broken rule of an image: DETAIL and FSEQ of HB_STR_ERR_FRAME. -/
def ruleError (fs : List SFrame) : Option (Nat × Nat) :=
  (brokenRule fs).map fun (r, k) => (r, ((fs.find? fun f => f.key == k).map (·.fseq)).getD 0)

end Sys2Proof.Machine
end

