-- ==== Sys2Proof/Machine/StrCmd.lean ====
section
/-!
DEFINITION. Structure commands, verification, distribution, latch and effect of a commit, the staging aperture (Structure Images and
Their Commit, R397 to R414; R95, R135, R147, R148, R153, R162, R173, R175, R186, R226, R283, R340, R346, R575).
-/
namespace Sys2Proof.Machine

/-- The result of a command: its code (R357) and DATA bytes 16 to 31 of its response (R350). -/
structure CmdRes where
  code : Nat
  data : List Byte := []
deriving DecidableEq, Repr

/-! ### Staging (R397 to R401) -/

/-- No structure is live and the device is in Start (R403, R404, R355). -/
def State.firstStart (s : State) : Bool := s.dev == .start && s.str.live.isNone

/-- A structure command is rejected with STATE. -/
def State.strStateFail (s : State) : State × CmdRes := (s.strFail 0x17 0 0, ⟨2, []⟩)

def strOpen (d : Nat) (s : State) : State × CmdRes :=
  if s.str.sel.isSome then (s.strFail 0x13 0 0, ⟨2, []⟩)
  else if s.str.st ≠ .idle ∨ s.dev = .watch ∨ s.dev = .safeStop then s.strStateFail
  else ((s.setStr fun x => { x with st := .open, owner := some d, used := s.now }).strFail 0 0 0, ⟨0, []⟩)

def strVerify (d len : Nat) (s : State) : State × CmdRes :=
  if s.str.owner ≠ some d ∨ s.str.st ≠ .open then s.strStateFail
  else (s.setStr fun x => { x with st := .verifying, verifyLen := len }, ⟨0, []⟩)

/-- The NV slot that does not hold the live base image; slot A while no structure is live. -/
def State.stageSlotB (s : State) : Bool := if s.str.live.isNone then false else !s.str.baseB

/-- A verification ends with a failure. -/
def State.verifyFail (s : State) (code detail frame : Nat) : State :=
  ((s.setStr fun x => { x with st := .open }).strFail code detail frame).setEvt Reg.HB_STR_EVT 1

/-- The verification ends (R400, R401); `nvOk`: the image reaches the NV slot. -/
def verifyComplete (nvOk : Bool) (s : State) : State :=
  if s.str.st ≠ .verifying then s
  else
    let b := s.load stagingBase (clampNat 256 stagingSize s.str.verifyLen)
    match s.imageCheck s.str.verifyLen b with
    | .inr (code, fseq) => s.verifyFail code 0 fseq
    | .inl fs =>
      match ruleError fs with
      | some (rule, fseq) => s.verifyFail 0xB rule fseq
      | none =>
        let b' := if nvOk then b else []
        let slot : ImgSlot := { gen := 0, bytes := b', sound := nvOk }
        if s.boot.pwrFail.isSome then s.verifyFail 0x16 0 0
        else if !nvOk then
          (s.setStr fun x => if s.stageSlotB then { x with slotB := slot } else { x with slotA := slot }).verifyFail 0x16 0 0
        else
          let s := s.setStr fun x =>
            if s.stageSlotB then { x with st := .verified, staged := b, slotB := slot } else { x with st := .verified, staged := b, slotA := slot }
          s.showDiff.setEvt Reg.HB_STR_EVT 0

/-- 600 s without staging access or structure command of the owner. -/
def stagingTimeout (s : State) : State :=
  if s.str.owner.isSome ∧ s.str.used + 600000000000 ≤ s.now then s.strAbandon else s

/-- A write of the staging area at byte `i`, by its owner or by the device's own masters. -/
def State.stageStore (s : State) (i : Nat) (l : List Byte) : State :=
  let s := s.setStr fun x => { x with used := s.now }
  if s.str.st = .open then s.store (stagingBase + i) l else s.setEvt Reg.HB_STR_EVT 6

/-- The byte of the staging area that offset `off` of the aperture shows. -/
def State.stageIndex (s : State) (off : Nat) : Nat := 65536 * fld (s.reg Reg.HB_STR_STAGE_PAGE) 0 5 + off % 65536

/-- Whether a master may touch the staging area (R398). -/
def State.stageAllowed (s : State) (m : Master) : Bool :=
  match m with
  | .host d => s.str.owner == some d
  | _ => true

/-- A read at offset `off` of the aperture, by a master that may read it. -/
def State.stageRead (s : State) (off : Nat) : State × Word :=
  (s.setStr fun x => { x with used := s.now }, lo32 (leNat (s.load (stagingBase + s.stageIndex off) 4)))

/-! ### STRUCT_COMMIT (R402 to R405) -/

/-- The arguments of STRUCT_COMMIT (R415). Bits of the host byte above bit 0 name no unit; they stand among the ports that do not
exist. -/
structure CommitArgs where
  partly : Bool
  units  : StrUnits
  epoch  : Nat
  pwd    : List Byte
deriving DecidableEq, Repr

def commitArgs (a : List Byte) : CommitArgs :=
  { partly := leNat (bytesAt a 0 1) != 0
    units := { ports := leNat (bytesAt a 1 1) + 256 * (leNat (bytesAt a 2 1) / 2), host := leNat (bytesAt a 2 1) % 2 == 1
               windows := leNat (bytesAt a 20 8), groups := leNat (bytesAt a 28 16) }
    epoch := leNat (bytesAt a 4 4), pwd := bytesAt a 8 12 }

/-- The frames that a commit makes live. -/
def State.commitFrames (s : State) (full : Bool) (u : StrUnits) : List SFrame :=
  if full then s.stagedFrames else mixFrames s.liveFrames s.stagedFrames (·.inUnits u)

/-- The keys of the frames that a commit takes. -/
def State.commitKeys (s : State) (a : CommitArgs) : List FrameKey :=
  if a.partly then s.stagedDiff.filter (·.inUnits a.units) else s.stagedDiff

/-- The lowest affected section that is used in the live structure and not Blocked. -/
def State.notBlocked (s : State) (affected : List Nat) : Option Nat :=
  affected.find? fun n => s.saf.chan.cfg.secUsed n && (s.saf.chan.sec n).st != .blocked

/-- The conditions of R403 that need no password: the result code, HB_STR_ERROR code of the first that fails. -/
def State.commitBarred (s : State) (d : Nat) (a : CommitArgs) : Option (Nat × Nat) :=
  let serving := s.dev == .service || s.dev == .degraded || s.dev == .maintenance
  if !serving && !s.firstStart then some (2, 0x17)
  else if s.str.st ≠ .verified ∨ s.str.owner ≠ some d then some (2, 0x17)
  else if a.epoch ≤ s.str.epochMax then some (0xC, 0x15)
  else if a.partly && s.str.live.isNone then some (2, 0x17)
  else if a.partly && !a.units.within (unitsOf s.stagedDiff) then some (0xC, 0x14)
  else if (s.commitKeys a).any fun k => decide (k.die < 4) && !s.sourceLive k.die then some (2, 0x11)
  else none

/-- The condition of R403 on the safety password: result and HB_STR_ERROR code where it fails. -/
def State.commitPassword (s : State) (pwd : List Byte) : State × Option (Nat × Nat) :=
  let (r, p) := s.safetyPwd.check pwd s.now false
  ({ s with safetyPwd := p }, if r = 0 then none else if r = 0xB then some (r, 0xF) else some (r, 0xE))

/-- The commit is accepted: COMMITTING (R406). -/
def State.commitStart (s : State) (d : Nat) (a : CommitArgs) (keys : List FrameKey) (affected : List Nat) : State :=
  let c : Commit := {
    full := !a.partly, units := a.units, epoch := a.epoch, safety := !a.partly && keys.any FrameKey.safety
    affected := affected, sframes := countOf keys FrameKey.safety, dom := d, jseq := s.jseq + 1, since := s.now
    targets := (keys.flatMap FrameKey.targets).eraseDups }
  s.setStr fun x => { x with st := .committing, commit := some c, safety := c.safety, ignored := false }

/-- STRUCT_COMMIT at its fencing point (R402, R403). A partial commit is refused with RULE where the structure that it would make live
breaks a rule (R235, R238). -/
def strCommit (d : Nat) (args : List Byte) (s : State) : State × CmdRes :=
  let a := commitArgs args
  match s.commitBarred d a with
  | some (r, e) => (s.strFail e 0 0, ⟨r, []⟩)
  | none =>
    let keys := s.commitKeys a
    if a.partly then
      match ruleError (s.commitFrames false a.units) with
      | some (rule, fseq) => (s.strFail 0xB rule fseq, ⟨2, []⟩)
      | none => (s.commitStart d a keys [], ⟨0, []⟩)
    else if !keys.any FrameKey.safety then (s.commitStart d a keys [], ⟨0, []⟩)
    else
      let affected := affectedOf s.liveFrames s.stagedFrames
      match s.commitPassword a.pwd with
      | (s, some (r, e)) => (s.strFail e 0 0, ⟨r, []⟩)
      | (s, none) =>
        match s.notBlocked affected with
        | some n => (s.strFail 0xC n 0, ⟨2, []⟩)
        | none => if s.clgFull then (s.strFail 0xD 0 0, ⟨2, []⟩) else (s.commitStart d a keys affected, ⟨0, []⟩)

/-- SEC_UNBLOCK of an affected section while a safety commit is COMMITTING or LATCHED is rejected (R405). -/
def State.commitHolds (s : State) (n : Nat) : Bool :=
  (s.str.st == .committing || s.str.st == .latched) && s.str.commit.any fun c => c.affected.contains n

/-! ### STRUCT_ABORT, STRUCT_PWD_SET (R410, R404) -/

def strAbortCmd (d : Nat) (s : State) : State × CmdRes :=
  if (s.str.owner ≠ some d ∧ !s.roleBit d 2) ∨ s.str.st = .idle then s.strStateFail
  else
    let (s, ignored) := s.strAbort
    (s, ⟨0, [BitVec.ofNat 8 (b2n ignored)]⟩)

/-- Bytes 0 to 95 of a change-log entry (R413). -/
def clgBody (stamp jseq old new kind dom key sframes : Nat) (affected : List Nat) (digest : List Byte) (seq : Nat) : List Byte :=
  let bitmap := (List.range 64).flatMap fun w => leBytes 4 (sectionsWord affected w).toNat
  leBytes 8 seq ++ leBytes 8 stamp ++ leBytes 8 jseq ++ leBytes 4 old ++ leBytes 4 new ++ leBytes 1 kind ++ leBytes 1 dom ++ leBytes 1 key ++
    [0] ++ leBytes 2 affected.length ++ leBytes 2 sframes ++ digest ++ (sha256 bitmap).take 16 ++ List.replicate 8 0

/-- Entries the change log holds. -/
def State.clgCount (s : State) : Nat := s.clgLast + 1 - s.clgFirst

/-- Append a change-log entry; LOG_WARN at 3,840. -/
def State.clgAppend (s : State) (body : Nat → List Byte) : State :=
  let s := s.clgAdd body
  s.when (decide (3840 ≤ s.clgCount)) (·.setEvt Reg.HB_STR_EVT 7)

def zeroDigest : List Byte := List.replicate 32 0

/-- STRUCT_PWD_SET: the old password, then the new one. -/
def strPwdSet (args : List Byte) (s : State) : State × CmdRes :=
  if s.str.st ≠ .idle ∨ (s.dev ≠ .maintenance ∧ !s.firstStart) then s.strStateFail
  else
    let (r, p) := s.safetyPwd.check (bytesAt args 0 12) s.now true
    let s := { s with safetyPwd := p }
    if r ≠ 0 then (s.strFail (if r = 0xB then 0xF else 0xE) 0 0, ⟨r, []⟩)
    else if s.clgFull then (s.strFail 0xD 0 0, ⟨2, []⟩)
    else (s, ⟨0, []⟩)

/-- What an accepted STRUCT_PWD_SET of domain `d` makes durable after its entry. -/
def State.strPwdStore (s : State) (d : Nat) (args : List Byte) : State :=
  let e := (s.reg Reg.HB_STR_EPOCH).toNat
  { s with safetyPwd := { s.safetyPwd with value := bytesAt args 12 12 } }.clgAppend
    (clgBody s.tc.now s.jseq e e 3 d 0xFF 0 [] zeroDigest)

/-! ### Distribution and latch (R406, R407) -/

/-- A target can take frames. -/
def State.targetLive (s : State) (t : Nat) : Bool :=
  if t < 4 then s.sourceLive t else if t = 5 then s.fdUp && s.boot.shaken && !s.mrg.deadA && !s.mrg.deadB else true

/-- A target has received its frames; `ok`: each passes the checks of R394 there. -/
def strFrameReceived (t : Nat) (ok : Bool) (s : State) : State :=
  match s.str.st, s.str.commit with
  | .committing, some c =>
    if !c.targets.contains t || c.shadows.contains t then s
    else if !ok ∨ (t < 4 ∧ (s.die t).dieFault) then s.commitFail 0x11
    else if s.targetLive t then s.setStr fun x => { x with commit := some { c with shadows := t :: c.shadows } }
    else s
  | _, _ => s

/-- 250.000 ms from the fencing point are still within the limit. -/
def Commit.late (c : Commit) (now : Nat) : Bool := decide (c.since + 250000000 < now)

def strFrameAck (t : Nat) (s : State) : State :=
  match s.str.st, s.str.commit with
  | .committing, some c =>
    if c.late s.now then s
    else
      let acks := if c.shadows.contains t && !c.acks.contains t then t :: c.acks else c.acks
      let st := if c.targets.all acks.contains then StrState.latched else .committing
      s.setStr fun x => { x with st := st, commit := some { c with acks := acks } }
  | _, _ => s

def commitDistribTimeout (s : State) : State :=
  match s.str.st, s.str.commit with
  | .committing, some c => if c.late s.now then s.commitFail 0x10 else s
  | _, _ => s

/-- Step 1 of R407: the change-log entry of a safety commit. -/
def State.commitLog (s : State) (c : Commit) : State :=
  s.when c.safety (·.clgAppend (clgBody s.tc.now c.jseq (s.reg Reg.HB_STR_EPOCH).toNat c.epoch 1 c.dom ((s.keySlot s.str.staged).getD 0xFF)
    c.sframes c.affected (imgDigest s.str.staged)))

/-- Step 2: the highest epoch. -/
def State.commitEpoch (s : State) (c : Commit) : State := s.setStr fun x => { x with epochMax := max x.epochMax c.epoch }

/-- Step 3: the generation word of the staged slot, or the partial-selection record, which names the units committed from the staged
slot so far (R412). -/
def State.commitBase (s : State) (c : Commit) : State :=
  let gen := max s.str.slotA.gen s.str.slotB.gen + 1
  let b := s.stageSlotB
  s.setStr fun x =>
    if !c.full then { x with sel := some ((x.sel.map fun y => y.1.or c.units).getD c.units, c.epoch) }
    else if b then { x with slotB := { x.slotB with gen := gen, epoch := c.epoch }, baseB := true, sel := none }
    else { x with slotA := { x.slotA with gen := gen, epoch := c.epoch }, baseB := false, sel := none }

/-- The first `n` of the three writes of R407, in their order. -/
def State.commitWrites (s : State) (c : Commit) (n : Nat) : State :=
  let s := s.when (decide (1 ≤ n)) (·.commitLog c)
  let s := s.when (decide (2 ≤ n)) (·.commitEpoch c)
  if 3 ≤ n then (s.commitBase c).setStr fun x => { x with commit := some { c with durable := true } } else s

/-- The writes of R407 are durable, or one fails: the first `n` of the three were durable before it. -/
def commitNvWritesDone (n : Nat) (s : State) : State :=
  match s.str.st, s.str.commit with
  | .latched, some c =>
    if c.durable then s
    else if s.boot.pwrFail.isSome then s.commitFail 0x16
    else
      let s := s.commitWrites c n
      s.when (decide (n < 3)) (·.commitFail 0x16)
  | _, _ => s

/-! ### The effect of a structure -/

/-- The registers that differing frames touch, with their masks. -/
def touched (ks : List FrameKey) (old new : List SFrame) : List (Nat × Word) :=
  (old ++ new).flatMap fun f => if ks.contains f.key then f.words.map fun (a, m, _) => (a, m) else []

/-- The image enables a port. -/
def Plan.enables (p : Plan) (d : Nat) : Bool := bitOf ((tfind p.words (Reg.AQ_TONE_PLAN d)).getD 0) 2

/-- A register takes the value that the structure gives it: WP records as R575 says, demodulation registers with what they break, the clock's as written. -/
def State.structWord (s : State) (plan : Plan) (bad : List Nat) (a : Nat) (m : Word) : State :=
  let v := (tfind plan.words a).getD (resetOf a)
  let w := (s.reg a &&& ~~~m) ||| (v &&& m)
  match wpRecordOf a with
  | some k =>
    if (tfind plan.words a).isNone || !plan.enables ((k - 16) / 2) then s
    else s.wpDevice bad k v
  | none =>
    match blockOf a with
    | some (.dmd, d, o) => if dmdPaced o then s.dmdApply d a w else s.setReg a w
    | some (.tc, _, o) => tcWrite s o w
    | _ => s.setReg a w

/-- A lane that no longer has a span to serve stands by again, where its block has no spare. -/
def State.spareBack (s : State) (d i : Nat) : State :=
  s.when (!(s.lane d i).faulty && (s.blk d (laneBlock i)).spare.isNone)
    (·.modBlk d (laneBlock i) fun x => { x with spare := some (i % 9) })

/-- Who serves a changed span (R153): its own lane, or the spare that has taken it; where its own lane is faulty and no spare has
it, it is lost as at a fault. -/
def State.spanServed (s : State) (d i : Nat) : State :=
  let l := s.lane d i
  let load := s.takeoverOf d i
  let s := s.modBlk d (laneBlock i) fun x => { x with loading := x.loading.filter (·.home != i) }
  let s := match load with | some t => s.spareBack d t.spare | none => s
  if s.spanCount d i = 0 then
    match l.taken with
    | some t => (s.modLane d i fun l => { l with taken := none }).spareBack d t
    | none => s
  else s.when (l.faulty && l.taken.isNone) (·.spanLost d i i)

/-- A changed span: its lane starts clean and its sequence may start again at 0 (R153, R186). -/
def State.spanChanged (s : State) (d i : Nat) : State :=
  let s := (s.modLane d i fun l => { l with unavail := false, held := [], passed := 0, seq := 0 }).spanServed d i
  let k := seqKey (d, i)
  let s := s.setMrg fun m => { m with seqs := tset m.seqs k { tget m.seqs {} k with restart := true } }
  s.setFds fun f => { f with seqs := tset f.seqs k { tget f.seqs {} k with restart := true } }

/-- A block after a commit: it runs where it has spans. -/
def State.blockCommit (s : State) (d b : Nat) : State :=
  let used := (blockLanes b).any fun i => s.spanCount d i != 0
  match (s.blk d b).st with
  | .gated => s.when (used && (s.die d).power) (·.modBlk d b fun x => { x with st := .running, back := true, floorAt := s.now })
  | .running => s.when (!used) fun s => (s.holdRoles d b).modBlk d b fun x => { x with st := .gated, loading := [] }
  | _ => s

/-- A sensor after a commit: one that the commit touches starts again, or ends where it is not enabled. -/
def State.sensorCommit (s : State) (d e : Nat) (changed : Bool) : State :=
  if !changed then s
  else if s.senEn d e then s.sensorRestart d e 3 s.tc.now
  else { s with sensors := tdel s.sensors (2048 * d + e) }

/-- A die after a commit: an ended return, changed spans, gated blocks, probe set, sensors, laser settings. -/
def State.dieCommit (s : State) (old : State) (ks : List FrameKey) (d : Nat) : State :=
  let has := fun (t : Nat) => ks.any fun k => k.type == t && k.die == d
  let s := s.returnCommitted d
  let s := s.setDie d { s.die d with clockDue := true }
  let spans := laneNumbers.filter fun i => s.reg (Reg.AQ_LANE_SPAN d i) != old.reg (Reg.AQ_LANE_SPAN d i)
  let s := spans.foldl (fun s i => s.spanChanged d i) s
  let s := blockNumbers.foldl (fun s b => s.blockCommit d b) s
  let s := s.when (!spans.isEmpty) (·.reacquire d)
  let p := s.probe d
  let sh := s.shadowSet d
  let s := s.when (has 0x01 && (p.pend.isSome || decide (sh ≠ old.shadowSet d))) fun s =>
    calRoundAbandon d (s.setProbe d { p with pend := some sh, check := 0 })
  let changed := fun (e : Nat) => has 0x05 || ks.any fun k => k.type == 0x04 && k.die == d && k.index == e
  let s := (List.range 2048).foldl (fun s e => s.sensorCommit d e (changed e)) s
  s.when (has 0x03) (·.settingsChanged old d)

/-- The bytes of a frame as the digest of R261 takes them. -/
def SFrame.bytes (f : SFrame) : List Byte :=
  leBytes 1 f.type ++ leBytes 1 f.level ++ leBytes 1 f.die ++ leBytes 2 f.index ++ leBytes 4 f.payload.length ++ f.payload

/-- FD's share of a structure (R396), and the digest of it. -/
def fdFrames (l : List SFrame) : List SFrame := l.filter fun f => f.key.targets.contains 5
def fdDigest (l : List SFrame) : List Byte := sha256 (l.flatMap SFrame.bytes)

/-- FD compares the digest of its structure copy with the one HB sends of the structure in force (R261). -/
def State.digestCheck (s : State) : State :=
  let ok := fdDigest s.fds.copy == fdDigest (fdFrames s.liveFrames)
  ((s.setFds fun f => { f with digestOk := ok }).when (!ok) (·.causeRaise 9)).liveCheck

/-- FD takes its share as delivered over ISO-B, and compares the digests. -/
def State.fdDeliver (s : State) (frames : List SFrame) : State :=
  if s.fdUp then (s.setFds fun f => { f with copy := fdFrames frames }).digestCheck else s

/-- FD after a commit: a hold on a changed channel ends, changed channels start again (R283, R515), outputs name their sections. -/
def State.fdCommit (s : State) (plan : Plan) (ks : List FrameKey) : State :=
  let s := (ks.filter (·.type == 0x20)).foldl (fun s k =>
    let held := s.fdin.cal.hold.any fun (c, _) => c == k.index
    (s.when held State.holdAbort).wscEnable k.index) s
  let s := s.inputsKnown ((ks.filter (·.type == 0x20)).map fun k => k.index / 2).eraseDups
  let s := s.fsiDisabled
  let s := (ks.filter (·.type == 0x21)).foldl (fun s k => s.setVo k.index { s.vo k.index with map := tget plan.maps [] k.index }) s
  s.voRecheck

/-- Both channels apply the new structure (R405). -/
def State.chanCommit (s : State) (cfg : ChanCfg) (affected : List Nat) : State :=
  let s := if s.saf.running then s.procDo (·.commit cfg affected resState)
    else s.setSaf fun f => { f with chan := { f.chan with cfg := cfg } }
  s.ledDo (·.commit cfg affected resState)

/-- Acoustic windows whose CFG, FIRST or COUNT changes stop (R226). -/
def State.windowCommit (s : State) (old : State) (ks : List FrameKey) : State :=
  (ks.filter (·.type == 0x31)).foldl (fun s k =>
    let w := k.index
    let a := Reg.HB_ACW_W_R0 w
    if (s.reg a &&& 0x7FF, s.acwReg w 1, s.acwReg w 2) = (old.reg a &&& 0x7FF, old.acwReg w 1, old.acwReg w 2) then s
    else (s.setReg a (putFld (s.reg a) 11 1 0)).setAcw w {}) s

/-- Forerunner mode after a commit: latches released when the mode changes, counters cleared where the head's counting point
changes, waits ended where ownership goes (R333, R335, R347). -/
def State.frwCommit (s : State) (old : State) : State :=
  let before := old.saf.chan.cfg
  let now := s.saf.chan.cfg
  let point := fun (c : ChanCfg) (lh : Nat) => (c.ofLegacy lh).map fun cp => (cp, c.cp cp)
  let s := s.when (s.frmOn != old.frmOn) fun s => { s with frw := { s.frw with cntLatch := none, tsLatch := none } }
  let s := { s with frw := { s.frw with counts := s.frw.counts.filter fun (lh, _) => point before lh == point now lh } }
  let frm := s.reg Reg.HB_FRM_CFG
  s.endWaits fun q => q.cmd.origin == .forerunner && !frmOwned frm q.section

/-- Roles after a commit: domains close or open, the lease ends where its holder loses the Partner role, engines that change hands stop
(R340, R346, R457). -/
def State.roleCommit (s : State) (old : State) : State :=
  let s := (List.range 8).foldl (fun s d =>
    if s.domClosed d then s.when (!s.isFrozen (.host d)) (·.freeze (.domain d) .closed 0)
    else if old.domClosed d then s.thaw (.domain d)
    else s) s
  let lost := s.lease.holder.any fun h => !s.roleBit h 1
  let s := s.when lost (·.leaseEnd 7 (some 0x8007))
  (List.range 6).foldl (fun s e => s.when (s.dmaOwner e != old.dmaOwner e) (·.dmaStopEngine e)) s

/-- CV1's settings follow HB's share of the live structure (R463, R469). -/
def State.cvStructure (s : State) : State :=
  s.cvRange 1 ((s.liveFrames.filter fun f => f.key.targets.contains 4).flatMap SFrame.bytes)

/-- A structure becomes live: registers, channels, dies, FD, windows, forerunner window, roles. -/
def State.applyStructure (s : State) (frames : List SFrame) (affected bad : List Nat) : State :=
  let ks := differing s.liveFrames frames
  let plan := planOf frames
  let old := s
  let s := (touched ks s.liveFrames frames).eraseDups.foldl (fun s x => s.structWord plan bad x.1 x.2) s
  let s := s.setStr fun x => { x with live := some frames }
  let s := (s.chanCommit plan.chanCfg affected).fdDeliver frames
  let s := (List.range 4).foldl (fun s d => s.dieCommit old ks d) s
  ((((s.fdCommit plan ks).windowCommit old ks).frwCommit old).roleCommit old).cvStructure

/-- Dies that are not live at the effect boundary apply their shadow later (R408). -/
def State.markBehind (s : State) (targets : List Nat) : State :=
  s.setStr fun x => { x with behind := (x.behind ++ targets.filter fun t => decide (t < 4) && !s.sourceLive t).eraseDups }

/-- The powered time of the next boundary: one cycle length after the last one, by the length in force before it (R251). -/
def State.dueTime (s : State) : Nat := s.saf.dueAt.getD (s.saf.cycleAt + s.cycleLen)

/-- The boundary of a cycle is due. -/
def State.boundaryDue (s : State) : Bool := decide (s.dueTime ≤ s.now)

/-- A restoring commit (R412). -/
def State.restoreEffect (s : State) (c : Commit) (bad : List Nat) : State :=
  let base := imageFrames (if s.str.baseB then s.str.slotB.bytes else s.str.slotA.bytes)
  let s := s.applyStructure (mixFrames s.liveFrames base (·.inUnits c.units)) [] bad
  s.setStr fun x => { x with commit := none, sel := none }

/-- A commit takes effect: COMMITTED; after a full one the state is IDLE, after a partial one VERIFIED (R407, R412). -/
def State.fullEffect (s : State) (c : Commit) (bad : List Nat) : State :=
  let key := s.keySlot s.str.staged
  let s := (s.applyStructure (s.commitFrames c.full c.units) c.affected bad).markBehind c.targets
  let s := (s.setReg Reg.HB_STR_EPOCH (lo32 c.epoch)).setStr fun x => { x with commit := none, last := 1 }
  let s := if c.full then s.strIdle.setStr fun x => { x with liveKey := key.getD x.liveKey } else (s.setStr fun x => { x with st := .verified }).showDiff
  s.setEvt Reg.HB_STR_EVT 2

/-- The effect of the commit that is due at a boundary (R407). `bad`: the WP records whose NV write fails (R575). -/
def State.commitTakes (s : State) (bad : List Nat) : State :=
  match s.str.commit with
  | some c =>
    if c.restore then s.restoreEffect c bad
    else if s.str.st = .latched ∧ c.durable then s.fullEffect c bad
    else s
  | none => s

/-- A commit takes effect at its boundary; a new cycle length counts from there (R251). -/
def commitEffect (bad : List Nat) (s : State) : State :=
  if s.boundaryDue then (s.commitTakes bad).setSaf fun f => { f with dueAt := some s.dueTime } else s

/-! ### HB_STR views -/

def strStCode : StrState → Nat
  | .idle => 0 | .open => 1 | .verifying => 2 | .verified => 3 | .committing => 4 | .latched => 5

/-- HB_STR registers that are views of the state. -/
def strView (s : State) (o : Nat) : Option Word :=
  let x := s.str
  match o with
  | 0x00 => some (word [(0, 3, strStCode x.st), (3, 3, x.owner.getD 0), (6, 1, b2n x.owner.isSome), (7, 1, b2n x.baseB),
      (8, 1, b2n x.sel.isSome), (9, 1, b2n x.live.isNone), (10, 2, x.last), (12, 1, b2n x.ignored), (13, 1, b2n x.safety)])
  | 0x0C => some (lo32 x.epochMax)
  | 0x10 => some (word [(0, 8, x.code), (16, 16, x.detail)])
  | 0x14 => some (lo32 x.errFrame)
  | 0x3C => some (word [(0, 13, s.clgCount), (13, 1, b2n s.clgFull), (14, 1, b2n (decide (3840 ≤ s.clgCount)))])
  | 0x40 => some (word [(0, 4, x.keys.foldl (fun a (k, _) => a + 2 ^ k) 0), (4, 4, x.revoked.foldl (fun a k => a + 2 ^ k) 0), (8, 2, x.liveKey)])
  | 0x44 => some (s.safetyPwd.show s.now)
  | 0x48 => some (lo32 x.slotA.gen)
  | 0x4C => some (lo32 x.slotB.gen)
  | _ =>
    if 0x60 ≤ o ∧ o < 0x80 then
      some (if x.live.isNone then 0 else bufWord (imgDigest (if x.baseB then x.slotB.bytes else x.slotA.bytes)) ((o - 0x60) / 4))
    else if 0x100 ≤ o ∧ o < 0x200 then some (s.affectShown ((o - 0x100) / 4))
    else none

/-! ### Meanings -/

/-- STAGING_TIMEOUT (R399). -/
def execStagingTimeout (dt : Nat) (s : State) : Out := s.afterHb dt stagingTimeout

/-- VERIFY_COMPLETE (R400, R401). -/
def execVerifyComplete (x : Timed Bool) (s : State) : Out := s.afterHb x.dt (verifyComplete x.val)

/-- STRUCT_FRAME_RECEIVED (R406). -/
def execStructFrameReceived (dt : Nat) (t : Indexed Bool) (s : State) : Out := s.afterHb dt (strFrameReceived t.idx t.val)

/-- STRUCT_FRAME_ACK (R406). -/
def execStructFrameAck (dt t : Nat) (s : State) : Out := s.afterHb dt (strFrameAck t)

/-- COMMIT_DISTRIB_TIMEOUT (R406). -/
def execCommitDistribTimeout (dt : Nat) (s : State) : Out := s.afterHb dt commitDistribTimeout

/-- COMMIT_NV_WRITES_DONE (R407). -/
def execCommitNvWritesDone (x : Timed Nat) (s : State) : Out := s.afterHb x.dt (commitNvWritesDone x.val)

/-- COMMIT_EFFECT (R407). -/
def execCommitEffect (x : Timed (List Nat)) (s : State) : Out := s.afterHb x.dt (commitEffect x.val)

end Sys2Proof.Machine
end

