-- ==== Sys2Proof/Machine/Boot.lean ====
section
/-!
DEFINITION. Power failure, resets of the logic side and of FD, the boot steps, the start handshake, loading the structure at boot,
fuses, signed settings and firmware, wake requests (Power, Reset and Boot, R516 to R536; R423, R424, R428, R437 to R439, R575).
-/
namespace Sys2Proof.Machine

def State.setBoot (s : State) (f : Boot → Boot) : State := { s with boot := f s.boot }

/-! ### Reset of the logic side (R522, R524) -/

/-- A register of FD, which no reset of the logic side reaches. -/
def isFdReg (a : Nat) : Bool := decide (0x200000 ≤ a) && decide (a < 0x210000)

/-- What a logic-side reset leaves of the boot state: fuses, the system area of the NV store, the pins. -/
def Boot.afterReset (b : Boot) (now cause : Nat) : Boot :=
  { up := true, cause := cause, since := now, watchdogs := if cause = 2 then min 255 (b.watchdogs + 1) else 0, fdResets := b.fdResets
    splitFuse := b.splitFuse, fwKeys := b.fwKeys, uid := b.uid, record := b.record, fwGenA := b.fwGenA, fwGenB := b.fwGenB
    fwSoundA := b.fwSoundA, fwSoundB := b.fwSoundB, porst := b.porst, pfHold := b.pfHold, openFlag := b.openFlag
    signalled := b.signalled, unsignalled := b.unsignalled }

/-- What a logic-side reset leaves of the structure state: the NV slots, the selection record, the highest epoch, the key fuses. -/
def Str.afterReset (x : Str) : Str :=
  { slotA := x.slotA, slotB := x.slotB, sel := x.sel, epochMax := x.epochMax, keys := x.keys, revoked := x.revoked }

/-- A logic-side reset: AQ0 to AQ3 and HB, the town clock included; FD and the NV store are not reached. `cause` as HB_BOOT_RESET
codes it. The front ends of a PWR_FAIL reset keep their lasers until step 3 of the light-off lowers them (R520). -/
def State.logicReset (s : State) (cause : Nat) : State :=
  let n : State := {
    pending := s.pending, now := s.now, sent := s.sent, freeCount := s.freeCount
    tc := { fd := s.tc.fd, fdSlew := s.tc.fdSlew, fdDegraded := s.tc.fdDegraded }
    regs := s.regs.filter fun (e : Nat × Word) => isFdReg e.1
    mregs := s.mregs.filter fun (e : Nat × Word) => isFdReg (e.1 % 2 ^ 32)
    boot := s.boot.afterReset s.now cause
    fdUp := s.fdUp, fdin := s.fdin, outs := { s.outs with checkDue := true }, fds := s.fds
    ofe := if cause = 1 then s.ofe.map fun (e : Nat × Ofe) => (e.1, { laserEn := e.2.laserEn, offFrom := e.2.offFrom }) else []
    mrg := { frames := s.mrg.frames.filter fun (e : Nat × Nat) => decide (8 ≤ e.1)
             deadA := s.mrg.deadA, deadB := s.mrg.deadB, goodA := s.mrg.goodA, goodB := s.mrg.goodB }
    str := s.str.afterReset
    mem := s.mem.filter fun c => decide (2 ^ 64 ≤ c.1) && decide (c.1 < 3 * 2 ^ 64)
    maintPwd := s.maintPwd, safetyPwd := s.safetyPwd
    wp := s.wp.map fun (e : Nat × WpRec) => (e.1, { e.2 with tokens := 64, repaired := false })
    journal := s.journal, jseq := s.jseq, clog := s.clog, clgLast := s.clgLast, clgFirst := s.clgFirst, clgAnchor := s.clgAnchor
    bankA := s.bankA, bankB := s.bankB, tokensAt := s.now }
  n.voRecheck

/-- PORST_N has been low for `low` ns (R517): from 10 µs on, the logic side is held in reset. -/
def porstAsserted (low : Nat) (s : State) : State :=
  if 10000 ≤ low then (s.logicReset 0).setBoot fun b => { b with porst := true, up := false } else s

/-- PORST_N is released with supplies and REFCLK in range. -/
def powerOnReset (s : State) : State := (s.logicReset 0).setBoot fun b => { b with porst := false, pfHold := false }

/-! ### PWR_FAIL_N (R437, R520) -/

/-- What a latched commit's writes come to when PWR_FAIL_N is taken: those in progress complete, none is started (R437 step 2). -/
def State.commitCut (s : State) : State :=
  match s.str.st, s.str.commit with
  | .latched, some c =>
    if c.durable then s
    else
      { s with freeCount := s.freeCount + 1 }.commitWrites c (Config.nvStepsDone s.freeCount)
  | _, _ => s

/-- Commands and responses that wait, and bank writes, are abandoned. -/
def State.failQueues (s : State) : State := { s with queue := [], responses := [], bankWriting := none, bankWaiting := none }

/-- PWR_FAIL_N is taken, once low for 1 µs (R436): the arbiter closes, bank writes are abandoned, light-off on every port (R64). -/
def pwrFailTaken (low : Nat) (s : State) : State :=
  if !s.boot.up || s.boot.pwrFail.isSome || decide (low < 1000) then s
  else
    let s := s.commitCut
    let s := s.setBoot fun b => { b with pwrFail := some s.now, discarded := s.queue.length }
    let s := s.failQueues
    (List.range 4).foldl (fun s d => s.lightOff d .off false) s

/-- The POWER_LOSS entry is durable, the open flag cleared, the store write-protected (R437 step 5). -/
def powerLossDurable (s : State) : State :=
  if s.boot.pwrFail.isNone || s.boot.writeProt then s
  else
    (s.journalAdd s.tc.now 0xFF 0 0x8001 (lo32 s.boot.discarded)).setBoot fun b =>
      { b with openFlag := false, signalled := (b.signalled + 1) % 65536, writeProt := true }

/-- 2 ms after PWR_FAIL_N was taken the logic side is reset and held. -/
def pwrFailReset (s : State) : State :=
  match s.boot.pwrFail with
  | some t =>
    if t + 2000000 ≤ s.now then (s.logicReset 1).setBoot fun b => { b with pfHold := true, up := false } else s
  | none => s

/-- PWR_FAIL_N has been high for `high` ns: from 10 ms on, the reset held for it ends. -/
def pwrFailRelease (high : Nat) (s : State) : State :=
  if s.boot.pfHold && decide (10000000 ≤ high) then s.setBoot fun b => { b with pfHold := false, up := !b.porst, since := s.now } else s

/-- A whole 100 ms from reset, the last that has passed: every WP register gains a token (R424). -/
def wpTokenAdd (s : State) : State :=
  if s.now < s.tokensAt + 100000000 then s
  else
    { s with
      wp := s.wp.map fun (e : Nat × WpRec) => (e.1, { e.2 with tokens := min 64 (e.2.tokens + 1) })
      tokensAt := s.now - (s.now - s.tokensAt) % 100000000 }

/-! ### FD (R518, R521, R523) -/

/-- FD out of reset: ledger, inputs, outputs and registers as at power-up; its Safe-stop causes stay, LEDGER and FD_INTERNAL
excepted. The start handshake begins again where firmware runs. -/
def State.fdCleared (s : State) : State :=
  let f := s.fds
  let running := s.boot.up && s.boot.stage != 0 && s.boot.stage != 15
  { s with
    fdUp := true, fdin := {}, outs := { checkDue := s.dev == DeviceState.start }
    regs := s.regs.filter fun (e : Nat × Word) => !isFdReg e.1
    mregs := s.mregs.filter fun (e : Nat × Word) => !isFdReg (e.1 % 2 ^ 32)
    tc := { s.tc with fd := 0, fdSlew := 0, fdDegraded := false, fdStep := none }
    fds := { causes := f.causes.filter fun k => k != 4 && k != 6, first := f.first, resets := (f.resets + 1) % 256, deadAt := some s.now }
    saf := { s.saf with segs := [] }
    mrg := { s.mrg with isoA := [] }
    boot := { s.boot with shaken := false, handshake := if running then some s.now else none } }

/-- FD comes out of reset, and its channels learn what its inputs show. -/
def State.fdFresh (s : State) : State := s.fdCleared.inputsKnown (List.range 32)

/-- VF5 has been at `mv` or above for `held` ns: above 4.50 V for 10 ms, FD leaves reset. -/
def fdPowerOn (mv held : Nat) (s : State) : State :=
  if s.fdUp ∨ mv ≤ 4500 ∨ held < 10000000 then s else s.fdFresh

/-- FD_RESET (R533): FD that its supply holds in reset stays there. -/
def fdReset (s : State) : State := if s.fdUp then s.fdFresh else s

/-- VF5 is at `mv`: below 4.40 V, FD drives nothing any more. -/
def fdBrownout (mv : Nat) (s : State) : State :=
  if s.fdUp && decide (mv < 4400) then { s with fdUp := false, outs := {}, fdin := {}, trimReports := [] }.liveCheck else s

/-! ### Boot ROM (R423, R428, R438, R525, R532) -/

/-- A slot of a record pair that is valid, and with a check-value fault (R423). -/
def WpSlot.valid (x : WpSlot) : Bool := x.ok1 || x.ok2
def WpSlot.half (x : WpSlot) : Bool := x.ok1 != x.ok2
def WpSlot.mended (x : WpSlot) : WpSlot := { x with ok1 := x.valid, ok2 := x.valid }

/-- A record pair as the ROM takes it. -/
def WpRec.loaded (r : WpRec) : WpRec :=
  { slot0 := r.slot0.mended, slot1 := r.slot1.mended
    live1 := r.slot1.valid && (!r.slot0.valid || decide (r.slot0.wear < r.slot1.wear))
    lost := !r.slot0.valid && !r.slot1.valid, repaired := r.slot0.half || r.slot1.half, tokens := r.tokens }

/-- The record pairs at boot. -/
def State.wpLoad (s : State) : State :=
  let s := { s with wp := s.wp.map fun (e : Nat × WpRec) => (e.1, e.2.loaded) }
  let s := s.when (s.wp.any fun (e : Nat × WpRec) => e.2.repaired) (·.setEvt Reg.HB_NV_EVT 5)
  s.when (s.wp.any fun (e : Nat × WpRec) => e.2.lost) (·.setEvt Reg.HB_NV_EVT 2)

/-- A check-value fault of a calibration bank. -/
def bankHalf (f : NvFault) : Bool := match f with | .bank _ x y => x != y | _ => false

/-- The thermistor and loop parameters of the live set go to AQn_CAL_THM and AQn_CAL_PID (R493). -/
def State.paramsLoad (s : State) : State :=
  (List.range 4).foldl (fun s d => (tget (s.calSet.getD {}).ports {} d).params.foldl (fun s (e : Nat × Word) =>
    s.setReg (Reg.AQ_CAL_CTL d + e.1) e.2) s) s

/-- The banks at boot: the parameters and the comparator trims of the live set. -/
def State.bankLoad (s : State) (faults : List NvFault) : State :=
  let s := s.when (faults.any bankHalf) (·.setEvt Reg.HB_NV_EVT 5)
  let s := s.when (!s.bankA.valid || !s.bankB.valid) (·.setEvt Reg.HB_NV_EVT 4)
  { s.paramsLoad with hbTrims := (s.calSet.getD {}).cmp }

/-- The base slot by the generation rule of R428: none where both words are 0; true is slot B. -/
def Str.base (x : Str) : Option Bool :=
  if x.slotA.gen = 0 ∧ x.slotB.gen = 0 then none else some (decide (x.slotA.gen < x.slotB.gen))

def Str.slot (x : Str) (b : Bool) : ImgSlot := if b then x.slotB else x.slotA

/-- The bytes of the base image; nothing where there is none or its slot does not hold what was written. -/
def Str.baseBytes (x : Str) : List Byte :=
  match x.base with
  | some b => if (x.slot b).sound then (x.slot b).bytes else []
  | none => []

/-- Verification of a signature over `msg` with the public key in an image's key block. -/
def keyVerifies (image sig msg : List Byte) : Bool :=
  ecdsaOk (beNat (bytesAt image 64 32), beNat (bytesAt image 96 32)) (beNat (sig.take 32)) (beNat (sig.drop 32)) msg

/-- A settings record passes its check (R532). -/
def State.recordOk (s : State) (r : List Byte) : Bool :=
  r.length == 96 && leNat (r.take 8) == s.boot.uid && decide (192 ≤ s.str.baseBytes.length) &&
    keyVerifies s.str.baseBytes (r.drop 32) (r.take 32)

def settingsOf (r : List Byte) : Settings :=
  let f := leNat (bytesAt r 8 1)
  { split := f % 2 == 1, jtag := f / 2 % 2 == 1, blow := f / 4 % 2 == 1, expiry := leNat (bytesAt r 16 8) }

/-- The settings record at boot; BLOW_SPLIT programs its fuse. -/
def State.settingsLoad (s : State) : State :=
  if s.boot.record.isEmpty then s
  else if s.recordOk s.boot.record then
    let x := settingsOf s.boot.record
    s.setBoot fun b => { b with settings := some x, splitFuse := b.splitFuse || x.blow }
  else s.setEvt Reg.HB_BOOT_EVT 4

/-- HB_NV_PWR. -/
def State.nvPwr (s : State) : Word := word [(0, 16, s.boot.signalled), (16, 16, s.boot.unsignalled)]

/-- The journal at boot: numbering goes on from the highest valid entry; an unsignalled power loss is recorded; BOOT follows. -/
def State.journalBoot (s : State) : State :=
  let top := ((s.journal.find? fun (e : JEntry) => e.sound).map fun e => (e.seq, e.stamp)).getD (0, s.tc.now)
  let s := { s with jseq := top.1, journal := s.journal.filter fun (e : JEntry) => decide (e.seq ≤ top.1) }
  let s := if s.boot.openFlag then
      (s.journalAdd top.2 0xFF 1 0x8001 0).setBoot fun b =>
        { b with unsignalled := (b.unsignalled + 1) % 65536, lastUnsignalled := true }
    else s
  (s.setBoot fun b => { b with openFlag := true }).journalAdd s.tc.now 0xFF 0 0x8000 s.nvPwr

/-- Step 3 of R525: the thermal loop of every port enabled in the base structure starts. -/
def State.loopsStart (s : State) : State :=
  let p := planOf (imageFrames s.str.baseBytes)
  (List.range 4).foldl (fun s d =>
    if !p.enables d then s
    else if s.thermalReady d then s.setPort d ((s.port d).tecOn s.now)
    else s.thermalMissing d) s

/-- The lockouts of the two passwords go on. -/
def State.passwordsResume (s : State) : State :=
  { s with maintPwd := s.maintPwd.resume s.now, safetyPwd := s.safetyPwd.resume s.now }

/-- Steps 1 to 3 of R525; `faults`: what has gone wrong in the store since it was written. -/
def bootRomStart (faults : List NvFault) (s : State) : State :=
  if s.boot.stage ≠ 0 ∨ s.boot.nvLoaded then s
  else
    let s := faults.foldl State.nvDamage s
    let s := ((s.wpLoad.bankLoad faults).settingsLoad).journalBoot
    (s.passwordsResume.setBoot fun b => { b with nvLoaded := true }).loopsStart

/-! ### Firmware (R527, R528) -/

/-- Firmware slot `b` verifies. -/
def Boot.fwOk (x : Boot) (b : Bool) : Bool := if b then x.fwGenB != 0 && x.fwSoundB else x.fwGenA != 0 && x.fwSoundA

/-- The slot tried first: the one with the higher generation, after two consecutive watchdog resets the other one. -/
def Boot.fwFirst (x : Boot) : Bool := decide (x.fwGenA < x.fwGenB) != decide (2 ≤ x.watchdogs)

/-- Step 4 of R525: the cores are released; the start handshake begins. -/
def State.firmwareRuns (s : State) (b : Bool) : State :=
  let split := s.boot.splitFuse || s.boot.settings.any (·.split)
  let jtag := s.boot.settings.any fun x => x.jtag && (x.expiry == 0 || decide (s.tc.now < x.expiry))
  let s := s.setBoot fun x => { x with stage := 1, fwB := b, split := split, jtagOpen := jtag, handshake := some s.now }
  (s.setSaf fun f => { f with cycleAt := s.now, cycleTc := s.tc.now }).procStart.cvFirmware (if b then s.boot.fwGenB else s.boot.fwGenA)

def firmwareVerified (s : State) : State :=
  if s.boot.stage ≠ 0 ∨ !s.boot.nvLoaded then s
  else
    let first := s.boot.fwFirst
    if s.boot.fwOk first then s.firmwareRuns first
    else if s.boot.fwOk (!first) then (s.firmwareRuns (!first)).setEvt Reg.HB_BOOT_EVT 1
    else s.setBoot fun b => { b with stage := 15 }

/-- 5 s in steps 1 to 4. -/
def bootWatchdog (s : State) : State :=
  if s.boot.stage = 0 ∧ s.boot.since + 5000000000 ≤ s.now then s.logicReset 2 else s

/-- Key hash of a firmware image against the programmed firmware key fuses. -/
def State.fwKeyOk (s : State) (b : List Byte) : Bool :=
  (List.range 2).any fun k => s.boot.fwKeys / 2 ^ k % 2 == 1 && Config.fwKeyHash k == imgKeyHash b

/-- Verification of a firmware image (R527): the code of R416 of the first failure, 0 when it passes. -/
def State.fwCheck (s : State) (b : List Byte) (len : Nat) : Nat :=
  let compat := leNat (bytesAt b 8 4)
  if bytesAt b 0 4 ≠ [0x4C, 0x59, 0x46, 0x57] ∨ leNat (bytesAt b 4 2) ≠ 1 ∨ leNat (bytesAt b 6 2) ≠ 64 then 1
  else if compat / 2 ^ 16 ≠ 0x8440 ∨ compat / 256 % 256 ≠ 0 ∨ 0xB0 < compat % 256 then 2
  else if imgLen b ≠ len ∨ len < 256 ∨ 2097152 < len then 3
  else if !s.fwKeyOk b then 4
  else if !keyVerifies b (bytesAt b 128 64) (b.take 64) then 5
  else if sha256 (b.drop 192) ≠ imgDigest b then 6
  else if imgFrames b ≠ 0 then 8
  else 0

/-- A verified image goes into slot `b`, generation word last. -/
def Boot.fwWrite (x : Boot) (b : Bool) : Boot :=
  let gen := max x.fwGenA x.fwGenB + 1
  if b then { x with fwGenB := gen, fwSoundB := true } else { x with fwGenA := gen, fwSoundA := true }

/-- The recovery aperture's bytes (R528) in the memory map of the state. -/
def recoveryBase : Nat := 3 * 2 ^ 64

/-- HB_BOOT_RCV_CTL.GO: verify and install into the slot with the lower generation, then reset. -/
def recoveryInstall (s : State) : State :=
  if s.boot.stage ≠ 15 then s
  else
    let len := leNat (s.load (recoveryBase + 12) 4)
    let b := s.load recoveryBase (min len 2097152)
    if s.fwCheck b len ≠ 0 then s
    else (s.setBoot fun x => x.fwWrite (decide (x.fwGenB < x.fwGenA))).logicReset 2

/-! ### The start handshake (R524, R526) -/

/-- FD's registers, outputs and ledger as a structure gives them. -/
def State.fdShare (s : State) (frames : List SFrame) : State :=
  let plan := planOf frames
  let old := s
  let s := (plan.words.filter fun (e : Nat × Word) => isFdReg e.1 && s.reg e.1 != e.2).foldl (fun s (e : Nat × Word) => s.setReg e.1 e.2) s
  let s := (List.range 64).foldl (fun s k =>
    s.when ((List.range 3).any fun i => s.reg (Reg.FD_WSC_CFG0 k + 4 * i) != old.reg (Reg.FD_WSC_CFG0 k + 4 * i)) (·.wscEnable k)) s
  let s := voNumbers.foldl (fun s i => s.setVo i { s.vo i with map := tget plan.maps [] i }) s
  let s := s.fsiDisabled.fdDeliver frames
  s.when (s.fds.led.cfg != plan.chanCfg) (·.ledDo fun g => { g with cfg := plan.chanCfg }.powerUp resState)

/-- FD's copy takes HB's time in the start handshake: the new time base after a logic-side reset, which resets the town clock (R522,
DEDUCED); otherwise a copy that stands ahead is not set back, but slowed (R40). -/
def TownClock.handed (t : TownClock) (fresh : Bool) : TownClock :=
  let fd := if fresh then t.now else max t.fd t.now
  { t with fd := fd, fdSlew := (t.now : Int) - fd, fdDegraded := false, fdStep := none }

/-- The start handshake completes: core configuration, trims and town-clock time to FD, reset count, causes and split latch back. With
no pair in service Safe-stop follows (R256). -/
def startHandshake (s : State) : State :=
  if s.boot.handshake.isNone || !s.fdUp then s
  else
    let n := s.saf.cycle
    let fresh := s.boot.stage == 1
    let frames := [8, 9, 10, 11].foldl (fun t k => tset t k s.now) s.mrg.frames
    let s := s.setBoot fun b => { b with
      handshake := none, shaken := true, fdResets := s.fds.resets % 256, stage := if b.stage = 1 then 2 else b.stage }
    let s := s.setMrg fun m => { m with
      frames := frames, isoA := [], deadA := false, deadB := false
      goodA := if m.deadA then s.now else m.goodA, goodB := if m.deadB then s.now else m.goodB }
    let s := s.setSaf fun f => { f with segs := [] }
    let s := s.setTc fun t => t.handed fresh
    let s := s.setFdin fun f => { f with trims := true }
    let s := (List.range 64).foldl (fun s k => s.setWsc k { s.wsc k with trim := tget s.hbTrims 0 k }) s
    let s := s.setFds fun f => { f with
      shaken := true, split := f.split || s.boot.split, verdict := n, mark := n, verdictAhead := [], markAhead := []
      verdictLate := true, markLate := true, deadAt := some s.now
      cycles := [], parts := [], whole := [], lastEmit := none, lastKey := none, seqs := if fresh then [] else f.seqs
      led := { f.led with hz := min f.led.hz s.tc.now }, cleared := min f.cleared s.tc.now }
    let s := s.when fresh (·.ledDo (·.diesFresh))
    let s := match s.str.live with | some fs => s.fdShare fs | none => s
    let s := s.setMrg fun m => { m with seqs := m.seqs.map fun (e : Nat × SeqTrack) => (e.1, { e.2 with restart := e.2.restart || decide (4096 ≤ e.1) }) }
    let s := (s.when (!fresh) (·.ledDo (·.learnSensors true s.saf.chan s.openSilence))).inputsKnown (List.range 32)
    let s := (s.when (s.fds.first.isSome && s.dev != .safeStop) State.ssFollow).liveCheck
    s.when (!s.saf.inService && !s.boot.split) (·.causeRaise 2)

/-- 2 s without completion: FD_LATE, and the handshake begins again. -/
def handshakeRetry (s : State) : State :=
  match s.boot.handshake with
  | some t =>
    if t + 2000000000 ≤ s.now then (s.setBoot fun b => { b with handshake := some s.now }).setEvt Reg.HB_BOOT_EVT 2 else s
  | none => s

/-! ### Loading the structure (R409, R529, R575) -/

/-- The image of the base slot passes its signature and digest checks. -/
def imageSigned (b : List Byte) : Bool :=
  decide (192 ≤ b.length) && keyVerifies b (bytesAt b 128 64) (b.take 64) && decide (sha256 (b.drop 192) = imgDigest b)

/-- The change-log entry of a safety commit that power loss kept from taking effect: the newest COMMIT entry, whose epoch neither
the base nor the selection has reached and that no NOT_TAKEN entry names. -/
def State.lostCommit (s : State) (reached : Nat) : Option (List Byte) :=
  match s.clog.find? fun (e : ClgEntry) => leNat (bytesAt e.bytes 32 1) == 1 with
  | some e =>
    let epoch := bytesAt e.bytes 28 4
    let named := s.clog.any fun (x : ClgEntry) => leNat (bytesAt x.bytes 32 1) == 2 && bytesAt x.bytes 28 4 == epoch
    if leNat epoch ≤ reached ∨ named then none else some e.bytes
  | none => none

/-- NOT_TAKEN (R409). -/
def State.notTaken (s : State) (reached : Nat) : State :=
  match s.lostCommit reached with
  | some b =>
    if s.clgFull then s
    else s.clgAppend fun seq => leBytes 8 seq ++ leBytes 8 s.tc.now ++ bytesAt b 16 16 ++ [2] ++ bytesAt b 33 63
  | none => s

/-- A register of the logic side at boot: a WP register only where its record is lost or out of range (R575). -/
def State.bootWord (s : State) (plan : Plan) (bad : List Nat) (e : Nat × Word) : State :=
  if isFdReg e.1 then s
  else
    match wpRecordOf e.1 with
    | some k =>
      let d := (k - 16) / 2
      let ok := if k % 2 = 0 then setpointOk (s.wpValue k) else limitsWhole (s.wpValue k)
      if !plan.enables d || (ok && !(s.wpRec k).lost) then s else s.wpDevice bad k e.2
    | none =>
      match blockOf e.1 with
      | some (.tc, _, o) => tcWrite s o e.2
      | _ => s.setReg e.1 e.2

/-- A die at boot: blocks that serve no span are gated, the probe set takes effect at the next period start. -/
def State.dieLoad (s : State) (d : Nat) : State :=
  let s := s.setDie d { s.die d with clockDue := true, loaded := true }
  let s := blockNumbers.foldl (fun s b =>
    s.when (!(blockLanes b).any fun i => s.spanCount d i != 0) (·.modBlk d b fun x => { x with st := .gated, loading := [] })) s
  let s := s.setProbe d { s.probe d with pend := some (s.shadowSet d), check := 0 }
  (s.sensorsOf d).foldl (fun s e => s.setSensor d e {}) s

/-- A port that the structure enables. -/
def State.portDue (s : State) (d : Nat) : Bool := ((s.probe d).pend.getD (s.probe d).live).en

/-- Step 7 of R525: the light-on order of an enabled port runs, so that its LIGHT is set at boot (R12, R62). -/
def State.bootLight (s : State) (d : Nat) : State :=
  if s.portDue d then (s.setReg (Reg.AQ_OFE_CTL d) (setBit (s.reg (Reg.AQ_OFE_CTL d)) 0)).lightOn d else s

/-- The structure in force at boot goes to HB, the dies and FD. -/
def State.bootStructure (s : State) (frames : List SFrame) (bad : List Nat) : State :=
  let plan := planOf frames
  let old := s
  let s := plan.words.foldl (fun s e => s.bootWord plan bad e) s
  let s := s.setStr fun x => { x with live := some frames }
  let s := s.setSaf fun f => { f with chan := { f.chan with cfg := plan.chanCfg } }
  let s := s.procDo (·.powerUp resState)
  let s := (List.range 4).foldl State.dieLoad s
  let s := ((s.when s.fdUp (·.fdShare frames)).inputsKnown (List.range 32)).roleCommit old
  ((List.range 4).foldl State.bootLight s).cvStructure

/-- Step 6 of R525. `bad`: the WP records whose NV write fails. -/
def structureLoad (bad : List Nat) (s : State) : State :=
  if s.boot.stage ≠ 2 then s
  else
    let s := s.setBoot fun b => { b with stage := 3 }
    let reached := max (((s.str.base.map fun b => (s.str.slot b).epoch)).getD 0) ((s.str.sel.map (·.2)).getD 0)
    let s := s.notTaken reached
    match s.str.base with
    | none => s
    | some b =>
      let bytes := s.str.baseBytes
      if !imageSigned bytes then s.setBoot fun x => { x with structFail := true }
      else
        let base := imageFrames bytes
        let frames := match s.str.sel with
          | some (u, _) => mixFrames base (imageFrames (s.str.slot (!b)).bytes) (·.inUnits u)
          | none => base
        let epoch := ((s.str.sel.map (·.2)).getD (s.str.slot b).epoch)
        let s := s.setStr fun x => { x with baseB := b, liveKey := (s.keySlot bytes).getD 0, epochMax := max x.epochMax epoch }
        ((s.setReg Reg.HB_STR_EPOCH (lo32 epoch)).bootStructure frames bad).setBoot fun x => { x with stage := 4 }

/-! ### Boot completion (R530, R535) -/

/-- The conditions of R530. -/
def State.bootReady (s : State) : Bool :=
  s.str.live.isSome && s.boot.shaken && !s.mrg.deadA && !s.mrg.deadB && (s.saf.inService || s.boot.split) &&
    (s.boot.refDropped || (List.range 4).all fun d =>
      !s.portDue d || (s.demod d).epochValid || (s.port d).light == .dark || (s.port d).light == .shutdown)

def bootComplete (s : State) : State :=
  if s.dev ≠ .start ∨ !s.bootReady then s
  else
    let s := if s.boot.stage = 6 then s
      else (s.setBoot fun b => { b with stage := 6, bootMs := (s.now - b.since) / 1000000 }).setEvt Reg.HB_BOOT_EVT 0
    s.serve

/-- 30 s from reset release or from wake. -/
def bootRefTimeout (s : State) : State :=
  if s.dev = .start ∧ s.boot.since + 30000000000 ≤ s.now then s.setBoot fun b => { b with refDropped := true } else s

/-- EXPIRY of the settings record passes. -/
def jtagExpiry (s : State) : State :=
  if s.boot.settings.any fun x => x.expiry != 0 && decide (x.expiry ≤ s.tc.now) then s.setBoot fun b => { b with jtagOpen := false } else s

/-- HB takes a wake request of FD; outside Watch it is ignored. -/
def wakeRequest (s : State) : State :=
  match s.fdin.wakes with
  | [] => s
  | _ :: t =>
    if !s.fdUp || s.mrg.deadB || !s.boot.shaken then s
    else ((s.setFdin fun f => { f with wakes := t }).frameSeen 5 true).wake

/-- A DEVICE_RESET whose response has left resets the logic side (R533). -/
def State.deviceResets (s : State) : State :=
  if s.boot.resetDue.isSome && !s.responses.any (fun r => r.code == 0x70) then s.logicReset 3 else s

/-! ### Commands of this chapter (R531 to R534) -/

/-- WATCH_ENTER, refused with STATE under R509. -/
def watchEnter (s : State) : State × CmdRes :=
  let busy := s.structMode != 0 || s.fdin.cal.hold.isSome || ((List.range 16).any fun c => (s.brake c).step != .none) ||
    !s.mrg.silent.isEmpty || s.saf.chan.secs.any fun (e : Nat × Sec) => e.2.st == .held
  if busy then (s, ⟨2, []⟩) else (s.sleep, ⟨0, []⟩)

/-- FW_INSTALL by the staging owner. -/
def fwInstall (d len : Nat) (s : State) : State × CmdRes :=
  if s.str.owner ≠ some d ∨ s.str.st ≠ .open then s.strStateFail
  else
    let b := s.load stagingBase (min len stagingSize)
    let e := s.fwCheck b len
    if e ≠ 0 then (s.strFail e 0 0, ⟨0xC, []⟩)
    else ((s.setBoot fun x => x.fwWrite (!x.fwB)).strIdle, ⟨0, []⟩)

/-- The states in which the key fuses may be programmed. -/
def State.keysAllowed (s : State) : Bool := s.dev == .maintenance || s.firstStart

/-- A maintenance password given to a command other than PASSWORD_SET. -/
def State.maintCheck (s : State) (given : List Byte) : State × Nat :=
  let (r, p) := s.maintPwd.check given s.now false
  ({ s with maintPwd := p }, r)

/-- KEY_PROGRAM: slot, hash, password. -/
def keyProgram (args : List Byte) (s : State) : State × CmdRes :=
  let k := leNat (bytesAt args 0 1)
  if !s.keysAllowed then (s, ⟨2, []⟩)
  else
    match s.maintCheck (bytesAt args 36 12) with
    | (s, 0) =>
      if (tfind s.str.keys k).isSome then (s, ⟨2, []⟩)
      else (s.setStr fun x => { x with keys := tset x.keys k (bytesAt args 4 32) }, ⟨0, []⟩)
    | (s, r) => (s, ⟨r, []⟩)

/-- KEY_REVOKE: slot, password. -/
def keyRevoke (args : List Byte) (s : State) : State × CmdRes :=
  let k := leNat (bytesAt args 0 1)
  if !s.keysAllowed then (s, ⟨2, []⟩)
  else
    match s.maintCheck (bytesAt args 4 12) with
    | (s, 0) =>
      let left := s.str.keys.any fun (e : Nat × List Byte) => e.1 != k && !s.str.revoked.contains e.1
      if (s.str.live.isSome && s.str.liveKey == k) || !left then (s, ⟨2, []⟩)
      else (s.setStr fun x => { x with revoked := if x.revoked.contains k then x.revoked else k :: x.revoked }, ⟨0, []⟩)
    | (s, r) => (s, ⟨r, []⟩)

/-- SETTINGS_SET: the record at the foot of the staging area, written by the staging owner; FLAGS 0 clears the one before. -/
def settingsSet (s : State) : State × CmdRes :=
  if s.str.owner.isNone then (s, ⟨2, []⟩)
  else
    let r := s.load stagingBase 96
    if !s.recordOk r then (s, ⟨0xC, []⟩)
    else (s.setBoot fun b => { b with record := if leNat (bytesAt r 8 1) = 0 then [] else r }, ⟨0, []⟩)

/-! ### HB_BOOT (R536) -/

/-- STAGE: with a structure live, REFERENCES once a port is PROBING. -/
def State.stageCode (s : State) : Nat :=
  if s.boot.stage = 4 ∧ (List.range 4).any (fun d => (s.port d).light == .probing) then 5 else s.boot.stage

def bootView (s : State) (o : Nat) : Option Word :=
  let b := s.boot
  match o with
  | 0x00 => some (word [(0, 4, s.stageCode), (4, 1, b2n b.fwB), (5, 1, b2n b.structFail), (6, 1, b2n b.split), (7, 1, b2n b.jtagOpen)])
  | 0x08 => some (word [(0, 3, b.cause), (16, 8, b.watchdogs), (24, 8, b.fdResets)])
  | 0x0C => some (lo32 b.bootMs)
  | 0x10 => some (word [(0, 1, b2n b.splitFuse), (1, 1, b2n (s.recordOk b.record)), (2, 2, b.fwKeys)])
  | 0x14 => some (lo32 b.uid)
  | 0x18 => some (hi32 b.uid)
  | _ => none

/-- Byte offset in the recovery image of offset `o` of the aperture. -/
def State.recoveryIndex (s : State) (o : Nat) : Nat := 65536 * fld (s.reg Reg.HB_BOOT_RCV_CTL) 0 5 + o % 65536

/-- Writes of HB_BOOT_RCV_CTL and of the aperture, open in ROM_FAIL alone. -/
def bootWrite (s : State) (o : Nat) (v : Word) : State :=
  if o = 0x1C then
    let s := s.setReg Reg.HB_BOOT_RCV_CTL (lo32 (fld v 0 5))
    s.when (bitOf v 5) recoveryInstall
  else if 0x10000 ≤ o then s.store (recoveryBase + s.recoveryIndex o) (leBytes 4 v.toNat)
  else s

/-! ### Meanings -/

/-- PORST_N_ASSERTED (R517). -/
def execPorstNAsserted (x : Timed Nat) (s : State) : Out := s.after x.dt (porstAsserted x.val)

/-- POWER_ON_RESET (R517). -/
def execPowerOnReset (dt : Nat) (s : State) : Out := s.after dt powerOnReset

/-- PWR_FAIL_TAKEN (R437). -/
def execPwrFailTaken (x : Timed Nat) (s : State) : Out := s.after x.dt (pwrFailTaken x.val)

/-- POWER_LOSS_ENTRY_DURABLE (R437). -/
def execPowerLossEntryDurable (dt : Nat) (s : State) : Out := s.afterHb dt powerLossDurable

/-- PWR_FAIL_RESET (R520). -/
def execPwrFailReset (dt : Nat) (s : State) : Out := s.afterHb dt pwrFailReset

/-- PWR_FAIL_RELEASE (R520). -/
def execPwrFailRelease (x : Timed Nat) (s : State) : Out := s.after x.dt (pwrFailRelease x.val)

/-- WP_TOKEN_ADD (R424). -/
def execWpTokenAdd (dt : Nat) (s : State) : Out := s.afterHb dt wpTokenAdd

/-- FD_POWER_ON (R518). -/
def execFdPowerOn (x : Timed (Nat × Nat)) (s : State) : Out := s.after x.dt (fdPowerOn x.val.1 x.val.2)

/-- FD_BROWNOUT (R518). -/
def execFdBrownout (x : Timed Nat) (s : State) : Out := s.after x.dt (fdBrownout x.val)

/-- BOOT_ROM_START (R525). -/
def execBootRomStart (dt : Nat) (faults : List NvFault) (s : State) : Out := s.afterHb dt (bootRomStart faults)

/-- FIRMWARE_VERIFIED (R527). -/
def execFirmwareVerified (dt : Nat) (s : State) : Out := s.afterHb dt firmwareVerified

/-- BOOT_WATCHDOG (R528). -/
def execBootWatchdog (dt : Nat) (s : State) : Out := s.afterHb dt bootWatchdog

/-- START_HANDSHAKE (R526). -/
def execStartHandshake (dt : Nat) (s : State) : Out := s.afterHb dt startHandshake

/-- HANDSHAKE_RETRY (R526). -/
def execHandshakeRetry (dt : Nat) (s : State) : Out := s.afterHb dt handshakeRetry

/-- STRUCTURE_LOAD (R529). -/
def execStructureLoad (x : Timed (List Nat)) (s : State) : Out := s.afterHb x.dt (structureLoad x.val)

/-- BOOT_COMPLETE (R530). -/
def execBootComplete (dt : Nat) (s : State) : Out := s.afterHb dt bootComplete

/-- BOOT_REF_TIMEOUT (R530). -/
def execBootRefTimeout (dt : Nat) (s : State) : Out := s.afterHb dt bootRefTimeout

/-- JTAG_EXPIRY (R532). -/
def execJtagExpiry (dt : Nat) (s : State) : Out := s.afterHb dt jtagExpiry

/-- WAKE_REQUEST_RECEIVED (R535). -/
def execWakeRequestReceived (dt : Nat) (s : State) : Out := s.afterHb dt wakeRequest

/-- RESPONSE_DELIVER (R352, R370, R379, R382). -/
def execResponseDeliver (dt d : Nat) (s : State) : Out := s.afterHb dt fun s => (responseDeliver d s).deviceResets

end Sys2Proof.Machine
end

