-- ==== Sys2Proof/Machine/ClockStep.lean ====
section
/-!
DEFINITION. A step of the town clock: every held time that starts or refers to a running interval, or belongs to a kept event, moves
with it (Architecture, R43).
-/
namespace Sys2Proof.Machine

/-! ### Shifts -/

def HeldEvent.shift (d : Nat) (e : HeldEvent) : HeldEvent := { e with time := e.time + d }
def Lane.shift (d : Nat) (l : Lane) : Lane := { l with held := l.held.map (·.shift d) }
def Blk.shift (d : Nat) (b : Blk) : Blk := { b with floor := b.floor + d }
def DieLbq.shift (d : Nat) (x : DieLbq) : DieLbq :=
  { x with
    lanes := x.lanes.map fun (e : Nat × Lane) => (e.1, e.2.shift d)
    blks := x.blks.map fun (e : Nat × Blk) => (e.1, e.2.shift d) }

/-- A sensor's sample numbers count half milliseconds of the town clock. -/
def SensorDue.shift (k : Nat) : SensorDue → SensorDue
  | .halt n l q => .halt (n + k) l q
  | .standTimeout n q => .standTimeout (n + k) q

def Sensor.shift (d : Nat) (x : Sensor) : Sensor :=
  let k := d / 500000
  { x with n := x.n.map (· + k), haltAt := x.haltAt + k, lastCross := x.lastCross.map (· + d), due := x.due.map (·.shift k) }

def Point.shift (d : Nat) (p : Point) : Point := { p with recent := p.recent.map fun (x : PointSample) => { x with t := x.t + (d : Rat) } }
def Demod.shift (d : Nat) (m : Demod) : Demod := { m with points := m.points.map fun (e : Nat × Point) => (e.1, e.2.shift d) }

def LegTx.shift (d : Nat) (x : LegTx) : LegTx := { x with held := x.held.map fun (e : HeldLegacy) => { e with t := e.t + d } }

/-- An event record after a step: its emission stamp moves, and its check value with it. The check value is affine over the record,
so that the fold word of R187 does not enter. -/
def shiftEvent (d : Nat) (b : List Byte) : List Byte :=
  let old := bytesAt b 0 28
  let new := leBytes 8 (emitOf b + d) ++ bytesAt b 8 20
  new ++ leBytes 4 (Nat.xor (leNat (bytesAt b 28 4)) (Nat.xor (crc crc32c old) (crc crc32c new))) ++ b.drop 32

def Silence.shift (d : Nat) (x : Silence) : Silence :=
  { x with buffer := x.buffer.map (shiftEvent d), late := x.late.map (shiftEvent d) }

def ProcItem.shift (d : Nat) : ProcItem → ProcItem
  | .event src b => .event src (shiftEvent d b)
  | .replayDone k => .replayDone k

def IsoItem.shift (d : Nat) : IsoItem → IsoItem
  | .event src b hz replay => .event src (shiftEvent d b) (hz + d) replay
  | .mark hz => .mark (hz + d)
  | i => i

/-- What ISO-A carries behind the mark of the cycle whose boundary steps the clock. -/
def isoShift (d n : Nat) (l : List IsoItem) : List IsoItem :=
  let isMark : IsoItem → Bool := fun i => match i with | .cycle k _ _ _ _ => k == n | _ => false
  if l.any isMark then
    let i := l.findIdx isMark + 1
    l.take i ++ (l.drop i).map (·.shift d)
  else l.map (·.shift d)

/-- The package merge after a step: watermarks, horizons, and every event that is kept and not yet applied. -/
def Merge.shift (d n : Nat) (m : Merge) : Merge :=
  { m with
    marks := m.marks.map fun (e : Nat × Nat) => (e.1, e.2 + d), hz := m.hz + d, lastKey := m.lastKey + d * 2 ^ 46
    held := m.held.map fun (e : Nat × List Byte) => (e.1, shiftEvent d e.2)
    silent := m.silent.map fun (e : Nat × Silence) => (e.1, e.2.shift d)
    procIn := m.procIn.map (·.shift d), isoA := isoShift d n m.isoA }

/-- The logic side after a step of `d` ns; the clock is valid from then on (HB_TC_STATUS.VALID). -/
def State.stepHb (s : State) (d : Nat) : State :=
  { s with
    tc := { s.tc with
      now := s.tc.now + d, valid := true, offset := s.tc.offset - d, stepPending := none
      ptpSync := s.tc.ptpSync.map fun (x : Nat × Nat × Int) => (x.1, x.2.1 + d, x.2.2)
      ptpDelay := s.tc.ptpDelay.map fun (x : Nat × Nat) => (x.1, x.2 + d) }
    lease := { s.lease with renewed := s.lease.renewed + d, tokenAt := s.lease.tokenAt + d }
    saf := { s.saf with chan := s.saf.chan.shift d, cycleTc := s.saf.cycleTc + d }
    mrg := s.mrg.shift d s.saf.cycle
    lbq := s.lbq.map fun (e : Nat × DieLbq) => (e.1, e.2.shift d)
    sensors := s.sensors.map fun (e : Nat × Sensor) => (e.1, e.2.shift d)
    dmd := s.dmd.map fun (e : Nat × Demod) => (e.1, e.2.shift d)
    psy := s.psy.map fun (e : Nat × Psy) => (e.1, { e.2 with stamp := e.2.stamp + d, past := e.2.past.map fun t => { t with stamp := t.stamp + d } })
    frw := { s.frw with
      first := s.frw.first.map fun (x : Nat × Nat × Nat) => (x.1, x.2.1, x.2.2 + d), key := s.frw.key.map (· + d) }
    merge := s.merge.map fun (e : Nat × (Nat × Nat)) => (e.1, (e.2.1 + d, e.2.2))
    tpr := s.tpr.map fun (e : Nat × TprPort) => (e.1, { e.2 with step := some (s.tc.now / 1000000000, (s.tc.now + d) / 1000000000) }) }

/-- FD after a step of `d` ns. -/
def State.stepFd (s : State) (d : Nat) : State :=
  { s with
    tc := { s.tc with fd := s.tc.fd + d, fdStep := none }
    fds := { s.fds with led := s.fds.led.shift d, cleared := s.fds.cleared + d }
    fdin := { s.fdin with legs := s.fdin.legs.map fun (e : Nat × LegTx) => (e.1, e.2.shift d) }
    outs := { s.outs with rst := s.outs.rst.map fun (e : Nat × ResetIn) => (e.1, { e.2 with start := e.2.start + d }) } }

/-! ### The step -/

/-- Every event stamped before the boundary has been released: the live watermarks have reached it and no such event is held. -/
def State.releasedTo (s : State) (t : Nat) : Bool :=
  (s.lowestMark.all fun w => decide (t ≤ w)) && !s.mrg.held.any fun e => decide (emitOf e.2 < t)

/-- A pending step at a boundary, once every event stamped before it is released: applied, or refused where the target no longer lies
ahead or the state no longer allows it. FD gets a step message. -/
def tcStepApply (s : State) : State :=
  match s.tc.stepPending with
  | none => s
  | some k =>
    if s.saf.cycleAt ≠ s.now ∨ !s.releasedTo s.saf.cycleTc then s
    else if !s.dev.quiet || decide (s.stepTarget k ≤ s.tc.now) then
      (s.setTc fun t => { t with stepPending := none }).setEvt Reg.HB_TC_EVT 3
    else
      let d := s.stepTarget k - s.tc.now
      let s := s.stepHb d
      s.when (s.fdUp && s.boot.shaken) (·.setTc fun t => { t with fdStep := some (((t.fdStep.map (·.1)).getD 0) + d, s.saf.cycle) })

/-- FD takes the step message; it applies the step at the same boundary, so not before that boundary's cycle mark while ISO-A is live. -/
def tcStepMessage (s : State) : State :=
  match s.tc.fdStep with
  | some (d, n) => if s.fdUp && (s.mrg.deadA || s.fds.marked n) then (s.stepFd d).frameSeen 5 false else s
  | none => s

/-! ### Meanings -/

/-- TC_STEP_APPLY (R43). -/
def execTcStepApply (dt : Nat) (s : State) : Out := s.afterHb dt tcStepApply

/-- TC_STEP_MESSAGE (R43). -/
def execTcStepMessage (dt : Nat) (s : State) : Out := s.after dt tcStepMessage

end Sys2Proof.Machine
end

