-- ==== Sys2Proof/Machine/Forerunner.lean ====
section
/-!
DEFINITION. Forerunner mode: the window HB_FRW on the SPI port, the double-write rule, the key sequence, counters and timestamps
(Forerunner Mode, R322 to R338).
-/
namespace Sys2Proof.Machine

def State.setFrw (s : State) (f : Frw → Frw) : State := { s with frw := f s.frw }

/-- The section number of window section `v` (R322). -/
def frwSection (v : Nat) : Nat := 2031 + v

/-- HD7 owns section `n` (R328). -/
def State.frwOwns (s : State) (n : Nat) : Bool := frmOwned (s.reg Reg.HB_FRM_CFG) n && !s.isFrozen (.host 7)

/-- HD7 owns at least one section. -/
def State.frwOwner (s : State) : Bool := (List.range 16).any fun i => s.frwOwns (2032 + i)

/-! ### Counters and timestamps (R333, R336) -/

/-- Changes of CNT_D1 and CNT_D2 with a step of a head's sequence, modulo 256. -/
def frwCount (was now : SeqState) (c : Nat × Nat) : Nat × Nat :=
  match was, now with
  | .a1, .ab1 => ((c.1 + 1) % 256, c.2)
  | .ab1, .a1 => ((c.1 + 255) % 256, c.2)
  | .b2, .ab2 => (c.1, (c.2 + 1) % 256)
  | .ab2, .b2 => (c.1, (c.2 + 255) % 256)
  | _, _ => c

/-- The processor channel has applied an event of legacy head `lh`, which took the head's sequence from `was` to `now`. -/
def Frw.track (f : Frw) (lh kind t : Nat) (was now : SeqState) : Frw :=
  { f with
    counts := tset f.counts lh (frwCount was now (tget f.counts (0, 0) lh))
    stamps := if kind ≤ 1 then tset f.stamps lh t else f.stamps }

/-! ### Results -/

/-- A pair or key sequence is refused with a result. -/
def State.frwRefuse (s : State) (res : Nat) : State :=
  let n := fld (s.reg Reg.HB_FRM_REFUSED) 0 16
  ((s.setFrw fun f => { f with result := res }).setReg Reg.HB_FRM_REFUSED (lo32 (min 0xFFFF (n + 1)))).setEvt Reg.HB_FRM_EVT 1

/-- A pair or key sequence takes effect. -/
def State.frwDone (s : State) (res : Nat) : State := (s.setFrw fun f => { f with result := res }).setEvt Reg.HB_FRM_EVT 0

/-- An access that completes nothing cancels a pair and ends a key sequence (R331, R334). -/
def State.frwBreak (s : State) : State :=
  let open_ := s.frw.first.isSome
  let s := s.setFrw fun f => { f with first := none, key := none }
  s.when open_ (·.setEvt Reg.HB_FRM_EVT 2)

/-! ### Control registers (R331, R332) -/

/-- A completed pair for a head or a section; `head`: the register names a head and asks for any owned section. -/
def State.frwPair (s : State) (a v : Nat) : State :=
  if a = 0x12 then
    if v = 0 ∨ 16 < v then s.frwRefuse 3
    else if !s.frwOwns (frwSection v) then s.frwRefuse 2
    else (s.setFrw fun f => { f with rstSel := v }).frwDone 1
  else if v = 0 ∨ 32 < v then s.frwRefuse 3
  else if !s.frwOwner then s.frwRefuse 2
  else if a = 0x11 then (s.setFrw fun f => { f with counts := tset f.counts (v - 1) (0, 0) }).frwDone 1
  else
    let s := s.when s.fdUp (wscLatchClear (decide (16 < v)) (lo32 (3 * 2 ^ (2 * (v - 1) % 32))))
    s.frwDone 1

/-- A write to a control register: the second of a pair acts, any other starts one; each is refused while the mode is off (R325). -/
def frwControl (a : Nat) (v : Byte) (s : State) : State :=
  if s.isFrozen (.host 7) then s
  else if !s.frmOn then s.frwBreak.frwRefuse 4
  else
    let t := s.tc.now
    match s.frw.first with
    | some (a0, v0, t0) =>
      if a0 = a ∧ v0 = v.toNat ∧ t ≤ t0 + 10000000 then (s.setFrw fun f => { f with first := none, key := none }).frwPair a v.toNat
      else s.frwBreak.setFrw fun f => { f with first := some (a, v.toNat, t) }
    | none => s.setFrw fun f => { f with first := some (a, v.toNat, t), key := none }

/-! ### The reset key (R334) -/

/-- HD7's reset of a window section, as the record of the command it stands for. -/
def State.frwCommand (s : State) (n : Nat) : QueuedCmd :=
  { code := if ((s.saf.chan.cfg.sec n).rstin).isSome then 0x11 else 0x10
    cmd := { origin := .forerunner, dom := 7, tag := 0, epoch := 0, args := leBytes 2 n } }

/-- A5h after 5Ah: the reset for RST_SEL is given, and waits for its fencing point. -/
def State.frwReset (s : State) : State :=
  let v := s.frw.rstSel
  let s := s.setFrw fun f => { f with rstSel := 0 }
  if v = 0 then s.frwRefuse 3
  else
    let n := frwSection v
    if !s.frwOwns n then s.frwRefuse 2
    else if !s.saf.chan.cfg.secUsed n then s.frwRefuse 3
    else if s.boot.pwrFail.isSome then s
    else { s with queue := s.queue ++ [s.frwCommand n] }

/-- A write to HB_FRW_RST_KEY. -/
def frwKey (v : Byte) (s : State) : State :=
  if s.isFrozen (.host 7) then s
  else
    let key := s.frw.key
    let s := s.frwBreak
    if !s.frmOn then s.frwRefuse 4
    else if v = 0x5A then s.setFrw fun f => { f with key := some s.tc.now }
    else if v = 0xA5 then
      match key with
      | some t => if s.tc.now ≤ t + 2000000 then s.frwReset else s
      | none => s
    else s

/-! ### Selections and reads -/

/-- A write to HEAD_SEL or SEC_SEL. -/
def frwSelect (sec : Bool) (v : Byte) (s : State) : State :=
  if s.isFrozen (.host 7) then s
  else
    let s := s.frwBreak
    let n := v.toNat
    if n = 0 ∨ (if sec then 16 else 32) < n then s.setFrw fun f => { f with result := 3 }
    else s.setFrw fun f => if sec then { f with sec := n } else { f with head := n }

/-- A byte of flags, bit 0 first. -/
def bitsByte (l : List Bool) : Nat := (l.zipIdx).foldl (fun a (b, i) => a + b2n b * 2 ^ i) 0

/-- HB_FRW_STATUS. -/
def State.frwStatus (s : State) : Nat :=
  bitsByte [s.frmOn, s.frwOwner, (s.dev == .service || s.dev == .degraded) && !s.boot.split, s.dev == .safeStop,
    s.frw.cntLatch.isSome, s.frw.tsLatch.isSome]

/-- HB_FRW_HEAD_STAT. -/
def State.frwHeadStat (s : State) : Nat :=
  let lh := s.frw.head - 1
  let a := s.wsc (2 * lh)
  let b := s.wsc (2 * lh + 1)
  let cp := s.saf.chan.cfg.ofLegacy lh
  let faulty := match cp with | some n => (s.saf.chan.head n).faulty | none => false
  let unsettled := fun (w : Wsc) => w.en.isSome && !w.settled
  bitsByte [a.settled && a.out, b.settled && b.out, a.latch, b.latch, faulty, unsettled a || unsettled b, cp.isSome]

/-- HB_FRW_SEC_STATE. -/
def State.frwSecState (s : State) : Nat :=
  let n := frwSection s.frw.sec
  let c := s.saf.chan.cfg.sec n
  let used := s.saf.chan.cfg.secUsed n
  let x := s.saf.chan.sec n
  let st := if !used then 1 else match x.st with | .clear => 0 | .disturbed => 2 | .pending => 3 | _ => 1
  st + 4 * bitsByte [used && x.st == .held, used && x.st == .blocked, s.frwOwns n, c.rstin.isSome, used && !x.wait.isEmpty, !used]

/-- The high count of the selected section, 16 bits. -/
def State.frwCountWord (s : State) : Nat :=
  let n := frwSection s.frw.sec
  if s.saf.running && s.saf.chan.cfg.secUsed n then toField 16 (s.saf.chan.counts n).1 else 0

/-- The timestamp of the selected head. -/
def State.frwStamp (s : State) : Nat := match tfind s.frw.stamps (s.frw.head - 1) with | some t => t / 2000000 % 65536 | none => 0

/-- OCC1 and OCC2: sections that are not Clear. -/
def State.frwOcc (s : State) (k : Nat) : Nat :=
  bitsByte ((List.range 8).map fun i => !(s.saf.running && s.saf.chan.code (2032 + 8 * k + i) == 0))

/-- The register at a window address; while the mode is off most read 00h (R325). -/
def State.frwReg (s : State) (a : Nat) : Nat :=
  if !s.frmOn ∧ 3 ≤ a then 0
  else match a with
  | 0x00 => 0x32
  | 0x01 => 4
  | 0x02 => s.frwStatus
  | 0x03 => s.frw.result
  | 0x04 => s.frw.head
  | 0x05 => s.frw.sec
  | 0x06 => s.frwHeadStat
  | 0x07 => (tget s.frw.counts (0, 0) (s.frw.head - 1)).1
  | 0x08 => (tget s.frw.counts (0, 0) (s.frw.head - 1)).2
  | 0x09 => s.frwStamp % 256
  | 0x0A => (s.frw.tsLatch).getD (s.frwStamp / 256)
  | 0x0B => if s.saf.running then s.frwSecState else 2
  | 0x0C => s.frwCountWord % 256
  | 0x0D => (s.frw.cntLatch).getD (s.frwCountWord / 256)
  | 0x0E => s.frwOcc 0
  | 0x0F => s.frwOcc 1
  | 0x12 => s.frw.rstSel
  | _ => 0

/-- What a read does to the latches (R335). -/
def State.frwLatches (s : State) (a : Nat) : State :=
  if !s.frmOn then s
  else match a with
  | 0x09 => s.setFrw fun f => { f with tsLatch := some (f.tsLatch.getD (s.frwStamp / 256)) }
  | 0x0A => s.setFrw fun f => { f with tsLatch := none }
  | 0x0C => s.setFrw fun f => { f with cntLatch := some (f.cntLatch.getD (s.frwCountWord / 256)) }
  | 0x0D => s.setFrw fun f => { f with cntLatch := none }
  | _ => s

/-- A read frame. -/
def frwRead (a : Nat) (s : State) : State :=
  if s.isFrozen (.host 7) then s.send (.frwByte a 0xFF)
  else
    let s := s.frwBreak
    (s.frwLatches a).send (.frwByte a (BitVec.ofNat 8 (s.frwReg a)))

/-! ### Meanings -/

/-- FRW_SPI_READ (R326, R327). -/
def execFrwSpiRead (dt a : Nat) (s : State) : Out := s.afterHb dt (frwRead a)

/-- FRW_LATCH_CLR (R331): one write frame to LATCH_CLR. -/
def execFrwLatchClr (dt : Nat) (v : Byte) (s : State) : Out := s.afterHb dt (frwControl 0x10 v)

/-- FRW_CNT_CLR (R333): one write frame to CNT_CLR. -/
def execFrwCntClr (dt : Nat) (v : Byte) (s : State) : Out := s.afterHb dt (frwControl 0x11 v)

/-- FRW_RST_SEL (R334): one write frame to RST_SEL. -/
def execFrwRstSel (dt : Nat) (v : Byte) (s : State) : Out := s.afterHb dt (frwControl 0x12 v)

/-- FRW_RST_KEY (R334). -/
def execFrwRstKey (dt : Nat) (v : Byte) (s : State) : Out := s.afterHb dt (frwKey v)

/-- FRW_HEAD_SEL_WRITE (R337). -/
def execFrwHeadSelWrite (dt : Nat) (v : Byte) (s : State) : Out := s.afterHb dt (frwSelect false v)

/-- FRW_SEC_SEL_WRITE (R337). -/
def execFrwSecSelWrite (dt : Nat) (v : Byte) (s : State) : Out := s.afterHb dt (frwSelect true v)

/-- FRW_COUNT_LO_READ (R335). -/
def execFrwCountLoRead (dt : Nat) (s : State) : Out := s.afterHb dt (frwRead 0x0C)

/-- FRW_COUNT_HI_READ (R335). -/
def execFrwCountHiRead (dt : Nat) (s : State) : Out := s.afterHb dt (frwRead 0x0D)

/-- FRW_TS_LO_READ (R335). -/
def execFrwTsLoRead (dt : Nat) (s : State) : Out := s.afterHb dt (frwRead 0x09)

/-- FRW_TS_HI_READ (R335). -/
def execFrwTsHiRead (dt : Nat) (s : State) : Out := s.afterHb dt (frwRead 0x0A)

end Sys2Proof.Machine
end

