-- ==== Sys2Proof/Machine/Commands.lean ====
section
/-!
DEFINITION. The commands of host domains: the arbiter's checks, the fencing point, the effect of every command, its journal entry and
its response (Host Domains, Roles, Leases and Freezes, R343 to R357, R361; R274, R314, R329, R334, R415, R435, R494, R533).
-/
namespace Sys2Proof.Machine

/-! ### Records (R350) -/

/-- The domain that a command's path belongs to. -/
def originDom (o : CmdOrigin) : Nat :=
  match o with
  | .ring d => d
  | .session d _ => d
  | _ => 7

/-- A 64-byte record. ARGLEN above 48 gives more arguments than any command has. -/
def recordCmd (o : CmdOrigin) (r : List Byte) : QueuedCmd :=
  { code := leNat (bytesAt r 0 2)
    cmd := {
      origin := o, dom := originDom o, tag := leNat (bytesAt r 4 4), epoch := leNat (bytesAt r 8 4)
      args := bytesAt (r ++ List.replicate 64 0) 16 (min 49 (leNat (bytesAt r 12 4))) } }

/-- ARGLEN of a defined CODE (R355, R415, R435, R494, R533). -/
def argLen (code : Nat) : Option Nat :=
  match code with
  | 0x01 | 0x02 | 0x03 => some 0
  | 0x10 | 0x11 | 0x12 | 0x13 => some 2
  | 0x14 => some 1
  | 0x15 | 0x20 | 0x21 => some 0
  | 0x30 => some 14
  | 0x31 => some 24
  | 0x32 => some 0
  | 0x40 => some 0
  | 0x41 => some 4
  | 0x42 => some 44
  | 0x43 => some 0
  | 0x44 => some 24
  | 0x50 => some 36
  | 0x60 => some 0
  | 0x70 | 0x71 => some 0
  | 0x72 => some 4
  | 0x73 => some 48
  | 0x74 => some 16
  | 0x75 | 0x76 | 0x77 => some 0
  | _ => none

/-- First byte and length of what the journal digest takes as 0: the passwords (R353). -/
def passwordAt (code : Nat) : Nat × Nat :=
  match code with
  | 0x30 => (2, 12)
  | 0x31 | 0x44 => (0, 24)
  | 0x42 => (8, 12)
  | 0x50 => (24, 12)
  | 0x73 => (36, 12)
  | 0x74 => (4, 12)
  | _ => (0, 0)

/-- The arguments with the password bytes 0. -/
def QueuedCmd.shown (q : QueuedCmd) : List Byte :=
  let (i, n) := passwordAt q.code
  q.cmd.args.take i ++ List.replicate n 0 ++ q.cmd.args.drop (i + n)

/-! ### The arbiter (R351, R354, R355) -/

/-- A domain may send a command: the role it asks for, or the staging ownership of R415. -/
def State.mayCommand (s : State) (code d : Nat) : Bool :=
  let owner := s.str.owner == some d
  match code with
  | 0x01 | 0x02 | 0x10 | 0x11 | 0x14 => s.roleBit d 1
  | 0x15 => s.roleBit d 1 || s.roleBit d 2
  | 0x40 => s.roleBit d 3
  | 0x41 | 0x42 => owner || s.roleBit d 3
  | 0x43 => owner || s.roleBit d 2 || s.roleBit d 3
  | _ => s.roleBit d 2

/-- Byte `i` of the arguments. -/
def QueuedCmd.argByte (q : QueuedCmd) (i : Nat) : Nat := leNat (bytesAt q.cmd.args i 1)

/-- The arguments name what exists. -/
def State.argsOk (s : State) (q : QueuedCmd) : Bool :=
  match q.code with
  | 0x10 | 0x11 | 0x12 | 0x13 => decide (q.section ≤ 2047) && s.saf.chan.cfg.secUsed q.section
  | 0x14 => decide (q.argByte 0 ≤ 15)
  | 0x30 => match q.argByte 0 with
    | 0 => decide (q.argByte 1 < 8)
    | 1 => decide (q.argByte 1 < 128)
    | 2 => decide (q.argByte 1 < 4)
    | _ => false
  | 0x31 => isPassword (bytesAt q.cmd.args 12 12) && bytesAt q.cmd.args 12 12 != delivery
  | 0x42 => decide (q.argByte 0 ≤ 1)
  | 0x44 => isPassword (bytesAt q.cmd.args 12 12)
  | 0x73 | 0x74 => decide (q.argByte 0 ≤ 3)
  | _ => true

/-- How a command fares at the arbiter. -/
inductive Admission where
  | admitted
  | violation
  | rejected (code : Nat)
deriving DecidableEq, Repr

/-- The checks in their order: code, role, arguments, pacing. -/
def State.admission (s : State) (q : QueuedCmd) (paced : Bool) : Admission :=
  if argLen q.code ≠ some q.cmd.args.length then .rejected 0xE
  else if !s.mayCommand q.code q.cmd.dom then .violation
  else if !s.argsOk q then .rejected 0xC
  else if paced then .rejected 9
  else .admitted

/-- A response is due. -/
def State.respond (s : State) (q : QueuedCmd) (code jseq : Nat) (data : List Byte) : State :=
  { s with responses := s.responses ++ [⟨q.cmd.origin, q.cmd.dom, q.cmd.tag, q.code, code, jseq, data⟩] }

/-- Hub firmware serves no domain: the ROM has found no firmware (R528, R540). -/
def State.romFail (s : State) : Bool := s.boot.stage == 15

/-- A command enters the arbiter; one that is admitted goes on with `go`. -/
def State.arbiter (s : State) (q : QueuedCmd) (go : State → State) : State :=
  let d := q.cmd.dom
  if s.boot.pwrFail.isSome || s.romFail then s
  else if s.isFrozen (.host d) || s.domClosed d then (s.reject d 0xFF).mboxFree q.cmd.origin
  else
    let x := s.domCmds d
    let (tokens, last) := bucketAt x.tokens x.tokenAt s.now 64 1000000
    let paced := tokens == 0 || decide (64 ≤ x.outstanding)
    let s := s.modDomCmds d fun x => { x with tokens := tokens - 1, tokenAt := last, outstanding := x.outstanding + 1 }
    match s.admission q paced with
    | .violation =>
      ((s.modDomCmds d fun x => { x with outstanding := x.outstanding - 1 }).mboxFree q.cmd.origin).freeze (.domain d) .role q.code
    | .rejected k => (s.reject d k).respond q k 0 []
    | .admitted => go s

/-- A submitted record enters the arbiter and waits for its fencing point. -/
def submit (o : CmdOrigin) (r : List Byte) (s : State) : State :=
  let q := recordCmd o r
  s.arbiter q fun s => { s with queue := s.queue ++ [q] }

/-! ### Lease commands (R343, R346, R348, R349) -/

/-- DATA of a lease result: bytes 16 to 23 of the response. -/
def State.leaseData (s : State) : List Byte := leBytes 1 (s.lease.holder.getD 0xFF) ++ [0, 0, 0] ++ leBytes 4 s.leaseEpoch

/-- The sender holds the lease and its command carries the current epoch. -/
def State.fenced (s : State) (q : QueuedCmd) : Bool := s.lease.holder == some q.cmd.dom && q.cmd.epoch == s.leaseEpoch

/-- The lease epoch is checked: safety commands, and the Safety Owner's SAFE_STOP, which is a Safety Partner's unless it is a
Maintainer's with EPOCH 0. -/
def State.needsLease (s : State) (q : QueuedCmd) : Bool :=
  match q.code with
  | 0x10 | 0x11 | 0x14 => isCounted q.cmd.origin
  | 0x15 => s.roleBit q.cmd.dom 1 && !(s.roleBit q.cmd.dom 2 && q.cmd.epoch == 0)
  | _ => false

def leaseAcquire (d : Nat) (s : State) : State × CmdRes :=
  if s.lease.holder.isSome then (s, ⟨8, s.leaseData⟩)
  else
    let (tokens, last) := bucketAt s.lease.tokens s.lease.tokenAt s.tc.now 8 1000000000
    let s := { s with lease := { s.lease with tokens := tokens - 1, tokenAt := last } }
    if tokens = 0 then (s, ⟨9, []⟩)
    else
      let s := s.leaseGrant d
      (s, ⟨0, s.leaseData⟩)

/-- A release is the holder's; it carries no epoch (R346, R350). -/
def leaseRelease (d : Nat) (s : State) : State × CmdRes :=
  if s.lease.holder ≠ some d then (s, ⟨7, s.leaseData⟩)
  else
    let s := s.leaseEnd 1 none
    (s, ⟨0, s.leaseData⟩)

def leaseRevoke (s : State) : State × CmdRes :=
  if s.dev ≠ .maintenance ∨ s.lease.holder.isNone then (s, ⟨2, []⟩)
  else
    let s := s.leaseEnd 3 none
    (s, ⟨0, s.leaseData⟩)

/-! ### Section commands (R218 to R222, R329, R334) -/

/-- The result code of a channel's answer. -/
def SecResult.code : SecResult → Nat
  | .ok => 0 | .waitEdge => 1 | .state => 2 | .headFault => 3 | .noInput => 4 | .held => 6

/-- A preparatory or direct reset, not a block. -/
def QueuedCmd.isReset (q : QueuedCmd) : Bool := q.code == 0x10 || q.code == 0x11

/-- The reset is not the sender's to give: HD7's for a section it does not own, a native one for a section HD7 owns (R328, R329). -/
def State.notOwner (s : State) (q : QueuedCmd) : Bool := q.isReset && isCounted q.cmd.origin == s.frwOwns q.section

/-- The device state, the commit or the processor channel does not allow a section command. -/
def State.sectionBarred (s : State) (q : QueuedCmd) : Bool :=
  let states := s.dev == .service || s.dev == .degraded || (!q.isReset && s.dev == .maintenance)
  !states || !s.saf.running || (q.code == 0x13 && s.commitHolds q.section)

/-- A section command at the processor channel, at time `t`. -/
def sectionCommand (t : Nat) (q : QueuedCmd) (s : State) : State × CmdRes :=
  if s.notOwner q then (s, ⟨0xD, []⟩)
  else if !s.saf.chan.cfg.secUsed q.section then (s, ⟨0xC, []⟩)
  else if s.sectionBarred q then (s, ⟨2, []⟩)
  else
    let (g, r) := s.saf.chan.command false t q
    ((s.setSaf fun f => { f with chan := g }).procDrain, ⟨(r.map SecResult.code).getD 2, []⟩)

/-! ### BRAKE_TEST, SAFE_STOP, Maintenance, LEDGER_SELFTEST -/

/-- The result code of what FD_BRK_CMD_STATUS codes. -/
def brakeCode (r : Nat) : Nat :=
  match r with
  | 0 => 0 | 2 => 0x10 | 3 => 0xF | 4 => 0xC | _ => 2

def brakeTest (c : Nat) (s : State) : State × CmdRes :=
  if s.dev = .safeStop ∨ s.dev = .watch ∨ !s.fdUp then (s, ⟨2, []⟩)
  else
    let (s, r) := s.brakeStart c
    (s, ⟨brakeCode r, []⟩)

/-- Allowed in some device states, with an effect that does not fail there. -/
def State.stateCmd (s : State) (ok : Bool) (f : State → State) : State × CmdRes := if ok then (f s, ⟨0, []⟩) else (s, ⟨2, []⟩)

/-- The ledger self-test is run again: it clears the ledger fault, and the ledger starts as at power-up (R271, R274). -/
def ledgerSelftest (s : State) : State :=
  (s.setFds fun f => { f with fault := false }).ledDo (·.powerUp resState)

/-! ### UNFREEZE, PASSWORD_SET, LOG_ACK, CAL_STORE (R356, R361, R435, R494) -/

/-- The master that UNFREEZE names. -/
def QueuedCmd.frozenName (q : QueuedCmd) : Frozen :=
  match q.argByte 0 with
  | 0 => .domain (q.argByte 1)
  | 1 => .dma (q.argByte 1)
  | _ => .core (q.argByte 1)

/-- A domain that is closed, as UNFREEZE names it. -/
def State.closedName (s : State) (f : Frozen) : Bool := match f with | .domain d => s.domClosed d | _ => false

def unfreeze (q : QueuedCmd) (s : State) : State × CmdRes :=
  let who := q.frozenName
  if s.closedName who then (s, ⟨2, []⟩)
  else
    match s.maintCheck (bytesAt q.cmd.args 2 12) with
    | (s, 0) => if s.frozen.contains who then (s.thaw who, ⟨0, []⟩) else (s, ⟨0x11, []⟩)
    | (s, r) => (s, ⟨r, []⟩)

def passwordSet (q : QueuedCmd) (s : State) : State × CmdRes :=
  if s.dev ≠ .maintenance ∧ !s.firstStart then (s, ⟨2, []⟩)
  else
    let (r, p) := s.maintPwd.check (bytesAt q.cmd.args 0 12) s.now true
    ({ s with maintPwd := if r = 0 then { p with value := bytesAt q.cmd.args 12 12 } else p }, ⟨r, []⟩)

/-- The states of LOG_ACK. -/
def State.ackAllowed (s : State) : Bool :=
  (s.dev == .service || s.dev == .degraded || s.dev == .maintenance || s.dev == .safeStop) &&
    s.str.st != .committing && s.str.st != .latched

/-- The entry that LOG_ACK names, where the log holds it and its CHAIN bytes match. -/
def State.ackEntry (s : State) (q : QueuedCmd) : Option ClgEntry :=
  s.clog.find? fun e => decide (e.seq = leNat (bytesAt q.cmd.args 0 8)) && decide (s.clgFirst ≤ e.seq) &&
    bytesAt e.bytes 96 16 == bytesAt q.cmd.args 8 16

/-- The entries up to `e` are freed. -/
def State.logAck (s : State) (e : ClgEntry) : State :=
  { s with clgAnchor := bytesAt e.bytes 96 32, clgFirst := e.seq + 1, clog := s.clog.filter fun x => decide (e.seq < x.seq) }.setEvt
    Reg.HB_CLG_EVT 0

def logAckCmd (q : QueuedCmd) (s : State) : State × CmdRes :=
  if !s.ackAllowed then (s, ⟨2, []⟩)
  else
    match s.ackEntry q with
    | none => (s, ⟨0xC, []⟩)
    | some e =>
      match s.maintCheck (bytesAt q.cmd.args 24 12) with
      | (s, 0) => (s.logAck e, ⟨0, []⟩)
      | (s, r) => (s, ⟨r, []⟩)

def calStore (s : State) : State × CmdRes :=
  if s.dev ≠ .start ∧ s.dev ≠ .maintenance then (s, ⟨2, []⟩)
  else if !s.calStoreOk then (s, ⟨0xC, []⟩)
  else (s.writeSet s.storeSet, ⟨0, []⟩)

/-! ### The fencing point (R348, R351, R352) -/

/-- A structure command of the staging owner starts its 600 s again (R399). -/
def State.strTouch (s : State) (d : Nat) : State := s.when (s.str.owner == some d) (·.setStr fun x => { x with used := s.now })

/-- Commands in Service and Degraded; in Maintenance. -/
def State.serving (s : State) : Bool := s.dev == .service || s.dev == .degraded
def State.inMaint (s : State) : Bool := s.dev == .maintenance

/-- What a command that passes the lease check does at its fencing point, at time `t`. -/
def State.effect (s : State) (t : Nat) (q : QueuedCmd) : State × CmdRes :=
  let d := q.cmd.dom
  let a := q.cmd.args
  match q.code with
  | 0x01 => leaseAcquire d s
  | 0x02 => leaseRelease d s
  | 0x03 => leaseRevoke s
  | 0x10 | 0x11 | 0x12 | 0x13 => sectionCommand t q s
  | 0x14 => brakeTest (q.argByte 0) s
  | 0x15 => s.stateCmd (s.dev != .safeStop) id
  | 0x20 => s.stateCmd s.serving (·.enter .maintenance)
  | 0x21 => s.stateCmd s.inMaint State.serve
  | 0x30 => unfreeze q s
  | 0x31 => passwordSet q s
  | 0x32 => s.stateCmd (s.dev == .safeStop && s.fdUp) ledgerSelftest
  | 0x40 => strOpen d s
  | 0x41 => strVerify d (leNat (bytesAt a 0 4)) (s.strTouch d)
  | 0x42 => strCommit d a (s.strTouch d)
  | 0x43 => strAbortCmd d (s.strTouch d)
  | 0x44 => strPwdSet a (s.strTouch d)
  | 0x50 => logAckCmd q s
  | 0x60 => calStore s
  | 0x70 => s.stateCmd (s.inMaint || s.dev == .safeStop) fun s => s.setBoot fun b => { b with resetDue := some s.now }
  | 0x71 => s.stateCmd (s.dev == .safeStop) fdReset
  | 0x72 => if s.inMaint then fwInstall d (leNat (bytesAt a 0 4)) s else (s, ⟨2, []⟩)
  | 0x73 => keyProgram a s
  | 0x74 => keyRevoke a s
  | 0x75 => if s.inMaint then settingsSet s else (s, ⟨2, []⟩)
  | 0x76 => if s.serving then watchEnter s else (s, ⟨2, []⟩)
  | 0x77 => s.stateCmd (s.dev == .watch) State.wake
  | _ => (s, ⟨0xE, []⟩)

/-- What follows the journal entry: the entry of Safe-stop comes after the command's own, and so does that of a new password. -/
def State.cmdPost (s : State) (q : QueuedCmd) : State :=
  match q.code with
  | 0x15 => s.causeRaise 10
  | 0x44 => s.strPwdStore q.cmd.dom q.cmd.args
  | _ => s

/-- The journal digest of an accepted command: the epoch of a grant, else over the arguments (R429). -/
def State.cmdDigest (s : State) (q : QueuedCmd) : Word := if q.code = 0x01 then lo32 s.leaseEpoch else argDigest q.shown

/-- An accepted command is journaled, then answered. -/
def State.accepted (s : State) (t : Nat) (q : QueuedCmd) (r : CmdRes) : State :=
  let s := s.journalAdd t q.cmd.dom r.code q.code (s.cmdDigest q)
  let jseq := s.jseq
  let s := s.cmdPost q
  if isCounted q.cmd.origin then s.respond q r.code jseq r.data else s.frwDone (frwResultOf r.code)

/-- A refused command is counted and answered; a reset of the key sequence shows in the window. -/
def State.refused (s : State) (q : QueuedCmd) (r : CmdRes) : State :=
  if isCounted q.cmd.origin then (s.reject q.cmd.dom r.code).respond q r.code 0 r.data else s.frwRefuse (frwResultOf r.code)

/-- A command is applied at its fencing point, which falls at time `t`; answers its result code. -/
def State.applyCmd (s : State) (t : Nat) (q : QueuedCmd) : State × Nat :=
  let s := leaseLapse s
  let (s, r) := if s.needsLease q && !s.fenced q then (s, ⟨7, s.leaseData⟩) else s.effect t q
  (if r.code ≤ 1 then s.accepted t q r else s.refused q r, r.code)

/-! ### Commands of the table -/

/-- A section command, which the ledger takes too. -/
def QueuedCmd.isSection (q : QueuedCmd) : Bool := decide (0x10 ≤ q.code) && decide (q.code ≤ 0x13)

/-- The cycle mark of cycle `c` that waits last on ISO-A takes one more command; none where none waits. -/
def markAdd (q : QueuedCmd) (c : Nat) : List IsoItem → Option (List IsoItem)
  | [] => none
  | i :: t =>
    match markAdd q c t with
    | some t => some (i :: t)
    | none => match i with
      | .cycle n tc hz key cmds => if n = c then some (.cycle n tc hz key (cmds ++ [q]) :: t) else none
      | _ => none

/-- The ledger's share of a section command given between boundaries: with the mark of the running cycle while that waits, else at
once. -/
def State.ledSection (s : State) (t : Nat) (q : QueuedCmd) : State :=
  match markAdd q s.saf.cycle s.mrg.isoA with
  | some l => s.setMrg fun m => { m with isoA := l }
  | none => s.ledDo fun g => ((g.command true t q).1).updateAll true

/-- A command whose submission and fencing point fall together: the arbiter's checks, then its effect. -/
def directCommand (code : Nat) (c : Command) (s : State) : State :=
  let q : QueuedCmd := ⟨code, c⟩
  s.arbiter q fun s =>
    let (s, k) := s.applyCmd s.tc.now q
    s.when (q.isSection && decide (k ≤ 1)) (·.ledSection s.tc.now q)

/-! ### Meanings -/

/-- LEASE_ACQUIRE (R343, R349). -/
def execLeaseAcquire (dt : Nat) (c : Command) (s : State) : Out := s.afterHb dt (directCommand 0x01 c)

/-- LEASE_RELEASE (R346). -/
def execLeaseRelease (dt : Nat) (c : Command) (s : State) : Out := s.afterHb dt (directCommand 0x02 c)

/-- LEASE_REVOKE (R346). -/
def execLeaseRevoke (dt : Nat) (c : Command) (s : State) : Out := s.afterHb dt (directCommand 0x03 c)

/-- SEC_RESET_PREP (R220, R222). -/
def execSecResetPrep (dt : Nat) (c : Command) (s : State) : Out := s.afterHb dt (directCommand 0x10 c)

/-- SEC_RESET_DIRECT (R221, R222). -/
def execSecResetDirect (dt : Nat) (c : Command) (s : State) : Out := s.afterHb dt (directCommand 0x11 c)

/-- SEC_BLOCK (R218). -/
def execSecBlock (dt : Nat) (c : Command) (s : State) : Out := s.afterHb dt (directCommand 0x12 c)

/-- SEC_UNBLOCK (R218, R405). -/
def execSecUnblock (dt : Nat) (c : Command) (s : State) : Out := s.afterHb dt (directCommand 0x13 c)

/-- BRAKE_TEST (R314, R355). -/
def execBrakeTest (dt : Nat) (c : Command) (s : State) : Out := s.afterHb dt (directCommand 0x14 c)

/-- SAFE_STOP (R355, R271). -/
def execSafeStop (dt : Nat) (c : Command) (s : State) : Out := s.afterHb dt (directCommand 0x15 c)

/-- MAINT_ENTER (R355). -/
def execMaintEnter (dt : Nat) (c : Command) (s : State) : Out := s.afterHb dt (directCommand 0x20 c)

/-- MAINT_LEAVE (R355). -/
def execMaintLeave (dt : Nat) (c : Command) (s : State) : Out := s.afterHb dt (directCommand 0x21 c)

/-- UNFREEZE (R361). -/
def execUnfreeze (dt : Nat) (c : Command) (s : State) : Out := s.afterHb dt (directCommand 0x30 c)

/-- PASSWORD_SET (R356). -/
def execPasswordSet (dt : Nat) (c : Command) (s : State) : Out := s.afterHb dt (directCommand 0x31 c)

/-- LEDGER_SELFTEST (R274). -/
def execLedgerSelftest (dt : Nat) (c : Command) (s : State) : Out := s.afterHb dt (directCommand 0x32 c)

/-- STRUCT_OPEN (R397, R415). -/
def execStructOpen (dt : Nat) (c : Command) (s : State) : Out := s.afterHb dt (directCommand 0x40 c)

/-- STRUCT_VERIFY (R400, R415). -/
def execStructVerify (dt : Nat) (c : Command) (s : State) : Out := s.afterHb dt (directCommand 0x41 c)

/-- STRUCT_COMMIT (R402, R403). -/
def execStructCommit (dt : Nat) (c : Command) (s : State) : Out := s.afterHb dt (directCommand 0x42 c)

/-- STRUCT_ABORT (R410). -/
def execStructAbort (dt : Nat) (c : Command) (s : State) : Out := s.afterHb dt (directCommand 0x43 c)

/-- STRUCT_PWD_SET (R404). -/
def execStructPwdSet (dt : Nat) (c : Command) (s : State) : Out := s.afterHb dt (directCommand 0x44 c)

/-- LOG_ACK (R435). -/
def execLogAck (dt : Nat) (c : Command) (s : State) : Out := s.afterHb dt (directCommand 0x50 c)

/-- CAL_STORE (R494). -/
def execCalStore (dt : Nat) (c : Command) (s : State) : Out := s.afterHb dt (directCommand 0x60 c)

/-- DEVICE_RESET (R533). -/
def execDeviceReset (dt : Nat) (c : Command) (s : State) : Out := s.afterHb dt (directCommand 0x70 c)

/-- FD_RESET (R533). -/
def execFdReset (dt : Nat) (c : Command) (s : State) : Out := s.afterHb dt (directCommand 0x71 c)

/-- FW_INSTALL (R533). -/
def execFwInstall (dt : Nat) (c : Command) (s : State) : Out := s.afterHb dt (directCommand 0x72 c)

/-- KEY_PROGRAM (R531, R533). -/
def execKeyProgram (dt : Nat) (c : Command) (s : State) : Out := s.afterHb dt (directCommand 0x73 c)

/-- KEY_REVOKE (R531, R533). -/
def execKeyRevoke (dt : Nat) (c : Command) (s : State) : Out := s.afterHb dt (directCommand 0x74 c)

/-- SETTINGS_SET (R532, R533). -/
def execSettingsSet (dt : Nat) (c : Command) (s : State) : Out := s.afterHb dt (directCommand 0x75 c)

/-- WATCH_ENTER (R534). -/
def execWatchEnter (dt : Nat) (c : Command) (s : State) : Out := s.afterHb dt (directCommand 0x76 c)

/-- WATCH_LEAVE (R535). -/
def execWatchLeave (dt : Nat) (c : Command) (s : State) : Out := s.afterHb dt (directCommand 0x77 c)

end Sys2Proof.Machine
end

