-- ==== Sys2Proof/Machine/Boundary.lean ====
section
/-!
DEFINITION. The evaluation-cycle boundary (Safety Architecture, R251, R252, R257, R263; Host Domains, R351, R366; Structure Images,
R407; Forerunner Mode, R333, R336).
-/
namespace Sys2Proof.Machine

/-! ### The released stream at the processor channel -/

/-- What an event tells a channel that does not run: the states of sensors and legacy inputs, which no later event repeats. -/
def Channel.keepInputs (g : Channel) (src : Nat) (b : List Byte) : Channel :=
  let id := leNat (bytesAt b 16 2)
  if src = 4 then
    match g.cfg.ofLegacy (id % 32) with
    | some cp =>
      let h := g.head cp
      g.setHead cp { h with leg := h.leg.input (id / 32 % 2) (id / 64 % 8) (id / 512 % 8) (id / 4096 % 2 == 1) }
    | none => g
  else
    let cp := id % 4096
    let ev : HeadEvent := { sys := id / 4096 % 2, kind := id / 8192, t := 0, v := 0, tpl := leNat (bytesAt b 20 4) / 2 ^ 20 % 16, usable := false }
    if g.cfg.cpUsed cp then g.setHead cp { g.head cp with core := (g.head cp).core.sensor ev } else g

/-- The legacy sequence of the head that an event names. -/
def Channel.seqOfEvent (g : Channel) (b : List Byte) : SeqState :=
  match g.cfg.ofLegacy (leNat (bytesAt b 16 2) % 32) with
  | some cp => (g.head cp).leg.seq
  | none => .idle

/-- The window's counters and timestamps after a legacy event that took the sequence from `was` to its present state. -/
def State.frwTrack (s : State) (b : List Byte) (was : SeqState) : State :=
  let id := leNat (bytesAt b 16 2)
  s.setFrw fun f => f.track (id % 32) (id / 64 % 8) (emitOf b - leNat (bytesAt b 8 4)) was (s.saf.chan.seqOfEvent b)

/-- The processor channel takes one item of the released stream. -/
def State.procItem (s : State) (i : ProcItem) : State :=
  match i with
  | .event src b =>
    if !s.saf.running then s.setSaf fun f => { f with chan := f.chan.keepInputs src b }
    else
      let was := s.saf.chan.seqOfEvent b
      let s := s.procDo fun g => (g.event false src b).updateAll false
      s.when (src == 4) (·.frwTrack b was)
  | .replayDone d => s.procDo (·.replayed false d)

/-- The events of the cycle, up to its horizon. -/
def State.procEvents (s : State) : State :=
  let l := s.mrg.procIn
  l.foldl State.procItem (s.setMrg fun m => { m with procIn := [] })

/-! ### Pairs at the boundary (R257) -/

/-- A requested swap takes place while both pairs are in service. -/
def State.pairsSwap (s : State) : State :=
  if !s.saf.swap then s
  else if s.saf.a.st = .inService ∧ s.saf.b.st = .inService then s.setSaf fun f => { f with swap := false, activeB := !f.activeB }
  else s.setSaf fun f => { f with swap := false }

/-- A returning pair that has passed its self-test: it takes the vital state, or with no pair in service is in service at once, its
processor channel started as at power-up where that has not been done. -/
def State.pairJoins (s : State) (b : Bool) : State :=
  let p := s.saf.pair b
  if p.st ≠ .returning ∨ !p.tested then s
  else if s.saf.inService then s.setSaf fun f => f.setPair b { p with copied := true }
  else (s.when (!s.saf.running) State.procStart).pairBack b

/-! ### The commands of the cycle (R351) -/

/-- One command; the section commands that the cycle mark carries so far. A SAFE_STOP restarts both channels. -/
def fenceOne (x : State × List QueuedCmd) (q : QueuedCmd) : State × List QueuedCmd :=
  let (s, k) := x.1.applyCmd x.1.saf.cycleTc q
  (s, if decide (k ≤ 1) && q.code == 0x15 then [] else if decide (k ≤ 1) && q.isSection then x.2 ++ [q] else x.2)

/-- Every command that waits, in the order of the arbiter. -/
def State.fence (s : State) : State × List QueuedCmd := s.queue.foldl fenceOne ({ s with queue := [] }, [])

/-! ### The boundary -/

/-- The next cycle begins at the boundary that was due at `t` (R251): boundaries stay one cycle length apart. -/
def State.cycleNext (s : State) (t : Nat) : State :=
  s.setSaf fun f => { f with
    cycle := f.cycle + 1, cycleAt := t, cycleTc := s.tcAt t, dueAt := none, standbyIn := false, ready := none }

/-- The verdict of the cycle is ready (R252), and the cycle mark goes to the ledger (R263). -/
def State.cycleClose (s : State) (hz : Nat) (cmds : List QueuedCmd) : State :=
  let s := s.procDo fun g => (g.horizon hz).updateAll true
  let s := s.when s.saf.running (·.setSaf fun f => { f with ready := some ⟨f.cycle, f.chan.states, s.mrg.lastKey, s.tc.now⟩ })
  s.isoSend (.cycle s.saf.cycle s.saf.cycleTc hz s.mrg.lastKey cmds)

/-- Firmware runs, so that the cycles run. -/
def State.cyclesRun (s : State) : Bool := s.boot.stage != 0 && s.boot.stage != 15

def cycleBoundary (s : State) : State :=
  if !s.cyclesRun || !s.boundaryDue then s
  else
    let s := ((((s.commitTakes []).cycleNext s.dueTime).pairsSwap).pairJoins false).pairJoins true
    let hz := s.horizon
    let s := (s.setMrg fun m => { m with hz := hz }).procEvents
    let s := s.procDo fun g => (g.horizon hz).updateAll true
    let (s, cmds) := s.fence
    (s.cycleClose hz cmds).snapCapture

/-! ### Meanings -/

/-- CYCLE_BOUNDARY (R251, R351). -/
def execCycleBoundary (dt : Nat) (s : State) : Out := s.afterHb dt cycleBoundary

end Sys2Proof.Machine
end

