-- ==== Sys2Proof/Machine/ChannelView.lean ====
section
/-!
DEFINITION. The time-driven rows of heads and direct resets, and the HB_CPT and HB_SEC registers as views of the processor channel
(Counting Points, Sections and Their States, R195, R203, R210, R213, R221, R224).
-/
namespace Sys2Proof.Machine

/-- A rule at one channel, which takes the time that the channel measures it on. -/
def State.atSide (s : State) (side : EvalSide) (f : (full : Bool) → (t : Nat) → Channel → Channel) : State :=
  match side with
  | .processor => s.procDo (f false s.tc.now)
  | .ledger => s.ledDo (f true s.tc.fd)

/-- Both channels take the count of a disagreement from FD (R195). -/
def legacyDiscrepancy (side : EvalSide) (lh : Nat) (s : State) : State :=
  s.atSide side fun full _ g => g.discrepancy full lh s.tc.fd

def headUnresolved (side : EvalSide) (cp : Nat) (s : State) : State := s.atSide side fun full t g => g.unresolved full cp t
def fusedDisagree (side : EvalSide) (cp : Nat) (s : State) : State := s.atSide side fun full t g => g.disagree full cp t
def headBackInService (side : EvalSide) (cp : Nat) (s : State) : State := s.atSide side fun full _ g => g.headBack full cp

/-- The result code EDGE_TIMEOUT of R357. -/
def resEdgeTimeout : Nat := 5

/-- Direct resets of a section that have waited more than 10 s, in both channels. -/
def directResetTimeout (sec : Nat) (s : State) : State :=
  (s.procDo (·.resetTimeout sec s.tc.now resEdgeTimeout)).ledDo (·.resetTimeout sec s.tc.fd resEdgeTimeout)

/-! ### HB_CPT -/

/-- HB_CPT_SECT0 and SECT1: two of the sections that a counting point bounds. -/
def boundWord (l : List (Nat × Nat)) (k : Nat) : Word :=
  let part := fun (i at' : Nat) =>
    match l[i]? with
    | some (sec, side) => [(at', 11, sec), (at' + 11, 1, side - 1), (at' + 12, 1, 1)]
    | none => []
  word (part (2 * k) 0 ++ part (2 * k + 1) 16)

def cpKindCode : CpKind → Nat
  | .fibre => 1 | .legacy => 2 | .fused => 3

/-- HB_CPT_CFG. -/
def cpCfgWord (p : CpCfg) : Word :=
  let fib := p.kind != .legacy
  word [(0, 2, cpKindCode p.kind), (2, 2, if fib then p.port else 0), (4, 5, if p.kind = .fibre then 0 else p.lh),
    (9, 10, if fib then p.dist / 10 else 0), (19, 4, if fib then p.gmax else 0)]

/-- HB_CPT_STATE of a counting point in use; `fdNow`: FD's town clock. A head that is not yet in service shows as a faulty one
(R576). -/
def headWord (r : HeadRule) (h : Head) (fdNow : Nat) : Word :=
  word [(0, 2, if h.faulty || h.core.waiting then 2 else if h.holding r then 1 else 0), (2, 4, h.cause),
    (6, 3, if r.kind = .legacy then 0 else h.core.readings.length),
    (9, 4, (h.core.readings.map (·.gap.length)).foldl max 0), (13, 3, if r.kind = .fibre then 0 else h.leg.seq.code),
    (16, 1, b2n (r.kind == .fused && !h.faulty && h.quiet)), (17, 15, min 0x7FFF (h.leg.disc fdNow))]

/-- HB_CPT_TALLY: the figures of R204 and R209 since the last resolution; a legacy head keeps nothing unresolved. -/
def tallyWord (r : HeadRule) (h : Head) : Word :=
  if r.kind = .legacy then 0
  else
    let one := h.figures r.kind 1
    let two := h.figures r.kind 2
    let b1 := h.core.base1
    let b2 := h.core.base2
    word [(0, 8, toField 8 (one.1 - b1)), (8, 8, toField 8 (one.2 - b1)), (16, 8, toField 8 (two.1 - b2)),
      (24, 8, toField 8 (two.2 - b2))]

/-- HB_CPT registers that are views of the state; the others hold what was loaded or written. While no pair runs the processor
channel they hold their reset values (R224). -/
def cptView (s : State) (m : Master) (o : Nat) : Option Word :=
  let g := s.saf.chan
  let cp := fld (s.mreg m Reg.HB_CPT_SEL) 0 12
  let p := tfind g.cfg.cps cp
  let run := s.saf.running
  match o with
  | 0x00 =>
    some (if run then word [(0, 13, countOf g.heads fun (_, h) => h.faulty),
      (13, 13, countOf g.heads fun (_, h) => decide (1 < h.core.readings.length))] else 0)
  | 0x1C => some ((p.map cpCfgWord).getD 0)
  | 0x20 => some ((p.map fun p => boundWord p.bounds 0).getD 0)
  | 0x24 => some ((p.map fun p => boundWord p.bounds 1).getD 0)
  | 0x28 => some (if !run then 0 else if p.isSome then headWord (g.rule cp) (g.head cp) s.tc.fd else 3)
  | 0x2C => some (if run && p.isSome then tallyWord (g.rule cp) (g.head cp) else 0)
  | _ =>
    if 0x100 ≤ o ∧ o < 0x300 then
      some (if run && g.served then
        bitsWord fun i => let h := g.head (8 * (o - 0x100) + i)
        (tfind g.cfg.cps (8 * (o - 0x100) + i)).isSome && (h.faulty || h.core.waiting)
      else 0xFFFFFFFF)
    else none

/-! ### HB_SEC -/

/-- HB_SEC_DETAIL. -/
def Channel.detailWord (g : Channel) (n : Nat) : Word :=
  let x := g.sec n
  if !g.cfg.secUsed n then 15
  else
    word [(0, 4, x.st.code), (4, 4, x.cause), (8, 1, b2n (g.headHolding n)),
      (9, 1, b2n (g.counts n == (0, 0) && !g.settled n)), (10, 1, b2n (!x.wait.isEmpty)),
      (11, 1, b2n (x.st == .blocked && (x.recorded != 0 || x.commit))), (12, 12, min 4095 x.sweep)]

/-- HB_SEC_BOUNDk: boundary entries 2k and 2k + 1. -/
def entryWord (l : List (Nat × Nat)) (k : Nat) : Word :=
  let part := fun (i at' : Nat) =>
    match l[i]? with
    | some (cp, side) => [(at', 12, cp), (at' + 12, 1, side - 1), (at' + 13, 1, 1)]
    | none => []
  word (part (2 * k) 0 ++ part (2 * k + 1) 16)

/-- HB_SEC_CFG of a section; 0 boundary entries and no reset input where the structure leaves it unused. -/
def secCfgWord (live : Bool) (c : Option SecCfg) : Word :=
  match c with
  | some c => word [(0, 4, c.bound.length), (4, 3, c.rstin.getD 7), (7, 1, b2n c.forerunner)]
  | none => if live then 0x70 else 0

def Channel.inState (g : Channel) (st : SecSt) : Nat := countOf g.secs fun (_, x) => x.st == st

/-- HB_SEC registers that are views of the state. -/
def secView (s : State) (m : Master) (o : Nat) : Option Word :=
  let g := s.saf.chan
  let n := fld (s.mreg m Reg.HB_SEC_SEL) 0 11
  let run := s.saf.running
  let pair := fun (a b : SecSt) => if run then word [(0, 12, g.inState a), (16, 12, g.inState b)] else 0
  match o with
  | 0x00 => some (pair .clear .occupied)
  | 0x04 => some (pair .held .disturbed)
  | 0x08 => some (pair .pending .blocked)
  | 0x14 => some (secCfgWord s.str.live.isSome (tfind g.cfg.secs n))
  | 0x28 =>
    some (if run && g.cfg.secUsed n then
      let c := g.counts n
      word [(0, 16, toField 16 c.1), (16, 16, toField 16 c.2)] else 0)
  | 0x2C => some (if run then g.detailWord n else 0x13)
  | _ =>
    if 0x18 ≤ o ∧ o < 0x28 then some (((tfind g.cfg.secs n).map fun c => entryWord c.bound ((o - 0x18) / 4)).getD 0)
    else if 0x100 ≤ o ∧ o < 0x500 then some (if run then stateWord g.states ((o - 0x100) / 4) else 0x33333333)
    else none

/-! ### Meanings -/

/-- LEGACY_DISCREPANCY_TIMEOUT (R195). -/
def execLegacyDiscrepancyTimeout (dt : Nat) (side : EvalSide) (lh : Nat) (s : State) : Out :=
  s.after dt (legacyDiscrepancy side lh)

/-- HEAD_UNRESOLVED (R203). -/
def execHeadUnresolved (dt : Nat) (side : EvalSide) (cp : Nat) (s : State) : Out := s.after dt (headUnresolved side cp)

/-- FUSED_DISAGREE (R210). -/
def execFusedDisagree (dt : Nat) (side : EvalSide) (cp : Nat) (s : State) : Out := s.after dt (fusedDisagree side cp)

/-- HEAD_BACK_IN_SERVICE (R213). -/
def execHeadBackInService (dt : Nat) (side : EvalSide) (cp : Nat) (s : State) : Out := s.after dt (headBackInService side cp)

/-- DIRECT_RESET_TIMEOUT (R221). -/
def execDirectResetTimeout (dt sec : Nat) (s : State) : Out := s.after dt (directResetTimeout sec)

end Sys2Proof.Machine
end

