-- ==== Sys2Proof/Machine/Panel.lean ====
section
/-!
DEFINITION. The cabinet panel and the indicator chain, and the levels of their outputs (Cabinet Panel and Indicator Chain, R496 to R505).
-/
namespace Sys2Proof.Machine

def State.setPanel (s : State) (f : Panel → Panel) : State := { s with panel := f s.panel }

/-- MATRIX_EN, CHAIN_EN, LAMP_TEST. -/
def State.matrixOn (s : State) : Bool := bitOf (s.reg Reg.HB_PNL_CTL) 0 && s.dev != .watch
def State.chainOn (s : State) : Bool := bitOf (s.reg Reg.HB_PNL_CTL) 1
def State.lampTest (s : State) : Bool := bitOf (s.reg Reg.HB_PNL_CTL) 2

/-! ### Matrix (R497 to R501) -/

/-- A register whose writes wait for the next frame: gamma table, pixel buffer. -/
def pnlBuffered (a : Nat) : Bool :=
  (decide (Reg.HB_PNL_GAMMA 0 ≤ a) && decide (a < Reg.HB_PNL_GAMMA 64)) || (decide (Reg.HB_PNL_PIX 0 ≤ a) && decide (a < Reg.HB_PNL_PIX 128))

/-- The scan stops: every row and column is off. -/
def Panel.blank (p : Panel) : Panel := { p with row := none, duty := [], test := none, frameAt := none }

/-- A frame starts, 5 ms after the one before. -/
def panelFrameStart (s : State) : State :=
  if !s.matrixOn then s.setPanel Panel.blank
  else if s.panel.frameAt.any fun t => decide (s.now < t + 5000000) then s
  else
    s.setPanel fun p => { p.blank with
      frame := s.tc.now % 1000000000 / 5000000, frameAt := some s.now
      live := s.regs.filter fun (e : Nat × Word) => pnlBuffered e.1
      bright := fld (s.reg Reg.HB_PNL_CTL) 8 8 }

/-- The level of pixel (r, c) in force. -/
def Panel.level (p : Panel) (r c : Nat) : Nat := fld (tget p.live 0 (Reg.HB_PNL_PIX (8 * r + c / 4))) (8 * (c % 4)) 6

/-- Duty of a level in low-speed cycles (R499). -/
def Panel.dutyOf (p : Panel) (v : Nat) : Nat :=
  if v = 0 then 0 else fld (tget p.live 0 (Reg.HB_PNL_GAMMA v)) 0 16 * p.bright * p.der / 65280

/-- The result of one open-LED test of LED (r, c) (R501). -/
def State.ledTest (s : State) (r c : Nat) (pass : Bool) : State :=
  let (f, g) := tget s.panel.tests (0, 0) (32 * r + c)
  let x : Nat × Nat := if pass then (0, min 3 (g + 1)) else (min 3 (f + 1), 0)
  let s := s.setPanel fun p => { p with tests := tset p.tests (32 * r + c) x }
  let a := Reg.HB_PNL_OPEN r
  if x.1 = 3 then
    if bitOf (s.reg a) c then s else (s.setReg a (setBit (s.reg a) c)).setEvt Reg.HB_PNL_EVT 0
  else if x.2 = 3 then s.setReg a (putFld (s.reg a) c 1 0)
  else s

/-- When the slot of row `r` starts: each slot lasts 312.5 µs. -/
def Panel.slotStart (p : Panel) (r : Nat) : Nat := p.frameAt.getD 0 + 312500 * r

/-- The next row slot of a frame; `sense`: PNL_SENSE was high throughout the last 1.0 µs of the test window. -/
def panelRowSlot (sense : Bool) (s : State) : State :=
  let r := match s.panel.row with | none => 0 | some r => r + 1
  if !s.matrixOn then s.setPanel Panel.blank
  else if s.panel.frameAt.isNone ∨ 15 < r ∨ s.now < s.panel.slotStart r then s
  else
    let test := if s.lampTest || decide (31 < s.panel.frame) then none else some s.panel.frame
    let s := s.setPanel fun p => { p with
      row := some r, test := test, duty := (List.range 32).map fun c => p.dutyOf (if s.lampTest then 63 else p.level r c) }
    match test with
    | some c => s.ledTest r c sense
    | none => s

/-- The level of PNL_CHAIN: cells of 1.25 µs, a 1 high for 0.80 µs and a 0 for 0.40 µs, most significant bit first; low otherwise
(R502). -/
def State.chainLevel (s : State) : Bool :=
  match s.panel.chainAt with
  | none => false
  | some t =>
    let k := (s.now - t) / 1250
    match s.panel.chain[k / 8]? with
    | some b => decide ((s.now - t) % 1250 < if b.getLsbD (7 - k % 8) then 800 else 400)
    | none => false

/-- The levels of the panel's outputs now (R497, R502). -/
def State.panelPins (s : State) : PanelPins :=
  let p := s.panel
  let off : PanelPins := { chain := s.chainLevel }
  match p.row with
  | none => off
  | some r =>
    let t := (s.now - p.slotStart r) / 5
    if !s.matrixOn then off
    else if t < 400 then { off with pre := true }
    else if t < 1200 then
      match p.test with
      | some c => { off with rows := BitVec.ofNat 16 (2 ^ r), cols := BitVec.ofNat 32 (2 ^ c) }
      | none => off
    else if t < 2500 ∨ 62500 ≤ t then off
    else { off with
      rows := BitVec.ofNat 16 (2 ^ r)
      cols := bitsWord fun c => decide (t < 2500 + p.duty.getD c 0) }

/-- DER of a code (R500). -/
def derate (w : Word) (code : Nat) : Nat :=
  let d0 := fld w 0 10
  let d1 := fld w 10 10
  let fl := fld w 20 9
  if d0 ≤ code then 256
  else if code ≤ d1 then fl
  else (256 * (d0 - d1) - (256 - fl) * (d0 - code)) / (d0 - d1)

/-- PNL_NTC is read, every 100 ms. -/
def panelNtcRead (v : Nat) (s : State) : State :=
  let w := s.reg Reg.HB_PNL_DERATE
  let v := v % 1024
  if s.panel.ntcAt.any fun t => decide (s.now < t + 100000000) then s
  else if 1020 ≤ v ∨ v ≤ 3 then
    (s.setPanel fun p => { p with ntcAt := some s.now, ntc := v, der := fld w 20 9, ntcFault := true, ntcGood := 0 }).setEvt Reg.HB_PNL_EVT 1
  else
    let p := s.panel
    let held := p.ntcFault && decide (p.ntcGood + 1 < 10)
    s.setPanel fun p => { p with
      ntcAt := some s.now, ntc := v, der := if held then fld w 20 9 else derate w v, ntcFault := held, ntcGood := if held then p.ntcGood + 1 else 0 }

/-! ### Chain (R502 to R504) -/

/-- CHAIN_PERIOD ms, LATCH µs, MODULES. -/
def chainCfg (w : Word) : Nat × Nat × Nat := (fld w 0 10, fld w 16 8, fld w 24 7)

/-- The length of a chain frame in whole milliseconds: 24 bit cells of 1.25 µs a module, and the latch. -/
def chainMs (modules latch : Nat) : Nat := (modules * 30 + latch + 999) / 1000

def chainFrame (s : State) : State :=
  let (period, _, n) := chainCfg (s.reg Reg.HB_PNL_CHAIN_CFG)
  let due := match s.panel.chainAt with | some t => decide (t + period * 1000000 ≤ s.now) | none => true
  let watch := s.dev == .watch
  if !s.chainOn || n == 0 || (watch && s.panel.blanked) || !(due || watch) then s
  else
    let bits := (List.range n).flatMap fun m => if watch then [0, 0, 0] else beBytes 3 (fld (s.reg (Reg.HB_PNL_CHAIN m)) 0 24)
    (s.setPanel fun p => { p with chainAt := some s.now, chain := bits, blanked := watch }).send (.chain bits)

/-! ### Registers -/

/-- HB_PNL_CHAIN_CFG as stored. -/
def chainStored (v : Word) : Word :=
  let n := min 64 (fld v 24 7)
  let l := max 50 (fld v 16 8)
  let p := max 1 (max (fld v 0 10) (if n = 0 then 1 else chainMs n l))
  word [(0, 10, p), (16, 8, l), (24, 7, n)]

/-- Writes of HB_PNL by a Maintainer at block offset `o`. -/
def pnlWrite (s : State) (o : Nat) (v : Word) : State :=
  let a := Reg.HB_PNL_CTL + o
  match o with
  | 0x00 =>
    let s := s.setReg a (v &&& 0xFF07)
    if bitOf v 0 then s else s.setPanel Panel.blank
  | 0x0C => if fld v 0 10 ≤ fld v 10 10 then s else s.setReg a (v &&& 0x1FFFFFFF)
  | 0x10 => s.setReg a (chainStored v)
  | _ =>
    if 0x100 ≤ o ∧ o < 0x200 then s.setReg a (lo32 (min 60000 (fld v 0 16)))
    else if 0x400 ≤ o ∧ o < 0x600 then s.setReg a (v &&& 0x3F3F3F3F)
    else if 0x800 ≤ o ∧ o < 0x900 then s.setReg a (v &&& 0xFFFFFF)
    else s

def pnlView (s : State) (o : Nat) : Option Word :=
  if o = 4 then some (word [(0, 10, s.panel.ntc), (10, 9, s.panel.der), (19, 1, b2n s.panel.ntcFault)]) else none

/-! ### Meanings -/

/-- PANEL_FRAME_START (R498). -/
def execPanelFrameStart (dt : Nat) (s : State) : Out := s.afterHb dt panelFrameStart

/-- PANEL_ROW_SLOT (R497, R501). -/
def execPanelRowSlot (dt : Nat) (sense : Bool) (s : State) : Out := s.afterHb dt (panelRowSlot sense)

/-- PANEL_NTC_READ (R500). -/
def execPanelNtcRead (dt v : Nat) (s : State) : Out := s.afterHb dt (panelNtcRead v)

/-- CHAIN_FRAME (R502). -/
def execChainFrame (dt : Nat) (s : State) : Out := s.afterHb dt chainFrame

end Sys2Proof.Machine
end

