-- ==== Sys2Proof/Machine/Bus.lean ====
section
/-!
DEFINITION. Register accesses: what a word address is to a master, the role rules, reserved bits, reads and writes of every register
block (Address Map, R537 to R548; R9 to R11; R358, R359; the role rules of R48, R77, R99, R128, R165, R242, R277, R302, R321, R344,
R367, R398, R472, R495, R505).
-/
namespace Sys2Proof.Machine

/-! ### What an address is to a master (R538, R540, R542) -/

/-- What an access meets. -/
inductive Reach where
  /-- a violation of a cause -/
  | closed (cause : FreezeCause)
  /-- a block that cannot answer -/
  | dead
  | reserved
  /-- the staging aperture at an offset -/
  | stage (off : Nat)
  /-- a listed register: block, die or engine, block offset, table row -/
  | register (b : Block) (n o : Nat) (row : RegRow)
deriving DecidableEq, Repr

/-- A master whose domain is closed. -/
def State.closedMaster (s : State) (m : Master) : Bool := match m with | .host d => s.domClosed d | _ => false

/-- Blocks that not every master sees, and the parts of HB_BOOT that are open in ROM_FAIL alone. -/
def State.sees (s : State) (m : Master) (b : Block) (n o : Nat) : Bool :=
  match b with
  | .dma => match m with | .host d => s.dmaOwner n == some d | _ => true
  | .boot => s.romFail || (decide (o < 0x10000) && o != 0x1C)
  | _ => true

/-- In ROM_FAIL only HB_BOOT and its aperture are open, to HD0 and HD7 (R528). -/
def State.romClosed (s : State) (m : Master) (b : Block) : Bool := s.romFail && !(b == .boot && (m == .host 0 || m == .host 7))

/-- ISO-B carries FD's answers. -/
def State.isoBLive (s : State) : Bool := s.fdUp && s.boot.shaken && !s.mrg.deadB

/-- The block's die does not answer. -/
def State.blockDead (s : State) (b : Block) (n : Nat) : Bool :=
  match b with
  | .ofe | .psy | .dmd | .lbq | .cal | .wsd => !s.sourceLive n
  | .cmb | .wsc | .adc | .fsi | .vo | .brk | .rst | .fdcal => !s.isoBLive
  | _ => false

/-- What window offset `a`, a word address, is to a master. -/
def State.meets (s : State) (m : Master) (a : Nat) : Reach :=
  if s.closedMaster m then .closed .window
  else if 0x210000 ≤ a ∧ a < 0x220000 ∧ !s.romFail then if s.stageAllowed m then .stage (a - 0x210000) else .closed .role
  else
    match blockOf a with
    | none => .closed .window
    | some (b, n, o) =>
      if s.romClosed m b || !s.sees m b n o then .closed .window
      else if s.blockDead b n then .dead
      else match b.row? o with
        | none => .reserved
        | some r => .register b n o r

/-- A violation by a register access: a frozen master's is counted (R360); a domain that is closed without a freeze record has none. -/
def State.offend (s : State) (m : Master) (cause : FreezeCause) (a : Nat) : State :=
  if s.closedMaster m && !s.isFrozen m then s else s.violate m cause a

/-! ### Role rules -/

/-- The role that a write of a listed register asks for. -/
def writeRole (b : Block) (o : Nat) : Role :=
  match b with
  | .tc => if o = 0x34 then .none else .configurator
  | .ofe => if o = 0x08 ∨ o = 0x14 ∨ o = 0x18 then .none else .configurator
  | .psy => if o = 0x24 then .none else .configurator
  | .dmd => if o = 0x08 ∨ o = 0x5C ∨ o = 0x2C ∨ o = 0x64 then .none else .configurator
  | .cal => if o = 0x08 ∨ o = 0x34 then .none else .configurator
  | .tpr => if o < 0x40 ∧ o % 16 < 8 then .configurator else .none
  | .evr => if 0x1000 ≤ o then .configurator else .none
  | .lbq | .saf | .adc => if o = 0x08 then .maintainer else .none
  | .vo => if o = 0x10 then .maintainer else .none
  | .brk => if o = 0x00 then .maintainer else .none
  | .pnl => if o = 0x08 then .none else .maintainer
  | .cvu =>
    if (0x200 ≤ o ∧ o < 0x300) ∨ (0x840 ≤ o ∧ o < 0x880) then .maintainer else .none
  | .lease => if o = 0x08 then .partner else .none
  | _ => .none

/-- CFG, RING_LO, RING_HI, RING_SIZE and CONS of a window, which the domain named in its DOMAIN alone may write (R242). -/
def acwOwned (r : Nat) : Bool := r == 0 || (decide (3 ≤ r) && decide (r ≤ 5)) || r == 7

/-- A write that breaks a role rule of its register: by role, or by domain (R242, R367, R398). The device's own masters break none. -/
def State.writeDenied (s : State) (m : Master) (b : Block) (o : Nat) : Bool :=
  match m with
  | .host d =>
    !s.holdsRole m (writeRole b o) ||
      (match b with
      | .lease => o == 0x04
      | .str => o == 0x18 && s.str.owner != some d
      | .acw =>
        let r := (o - 0x100) % 32 / 4
        decide (0x100 ≤ o) && acwOwned r && !s.acwWriteOk m ((o - 0x100) / 32) r
      | _ => false)
  | .firmware | .core _ => b == .acw && decide (0x100 ≤ o) && acwOwned ((o - 0x100) % 32 / 4)

/-! ### Reserved bits (R11) -/

/-- Bits `k` and above. -/
def above (k : Nat) : Word := BitVec.ofNat 32 (2 ^ 32 - 2 ^ k)

/-- The reserved bits of the writable registers of the HB blocks. -/
def hbReserved (b : Block) (o : Nat) : Word :=
  match b, o with
  | .tc, 0x08 => above 4
  | .tc, 0x18 => above 9
  | .tc, 0x24 => 0xFE00
  | .tc, 0x28 => above 17
  | .tc, 0x34 => above 6
  | .saf, 0x04 => above 7
  | .saf, 0x08 => above 3
  | .hst, 0x1C => above 5
  | .lease, 0x10 => above 8
  | .evr, _ => if o = 0x0C ∨ o = 0x14 then above 16 else if 0x1000 ≤ o then above 14 else 0
  | .snap, 0x00 => above 2
  | .lnk, 0x04 => above 5
  | .lnk, 0x68 => above 9
  | .lnk, 0xC0 => above 3
  | .lnk, _ => if o = 0x28 ∨ o = 0x2C ∨ o = 0x48 ∨ o = 0x50 then above 13 else 0
  | .net, 0x84 => above 6
  | .str, 0x04 => above 8
  | .str, 0x18 => above 5
  | .nv, 0x04 => above 7
  | .nv, 0x0C => above 10
  | .jnl, 0x1C => above 2
  | .clg, 0x1C => above 2
  | .cpt, 0x04 => above 7
  | .cpt, 0x18 => above 12
  | .sec, 0x0C => above 5
  | .sec, 0x10 => above 11
  | .frm, 0x04 => above 3
  | .tpr, 0x40 => above 4
  | .tpr, _ => if o % 16 = 0 then above 27 else above 15
  | .acw, 0x04 => above 2
  | .acw, _ =>
    match o % 32 / 4 with
    | 0 => above 12
    | 5 => above 19
    | 7 => above 30
    | _ => 0
  | .cvu, 0x00 => above 26
  | .cvu, _ =>
    if o < 0x200 ∨ 0x300 ≤ o then 0
    else match o % 0x40 with
      | 0x00 => above 26
      | 0x28 => above 16
      | 0x30 => above 30
      | _ => 0
  | .pnl, 0x00 => 0xFFFF00F8
  | .pnl, 0x08 => above 2
  | .pnl, 0x0C => above 29
  | .pnl, 0x10 => 0x8000FC00
  | .pnl, _ => if o < 0x200 then above 16 else if o < 0x800 then 0xC0C0C0C0 else above 24
  | .boot, 0x04 => above 5
  | .boot, 0x1C => above 6
  | .dma, 0x04 => above 4
  | .dma, 0x08 => above 4
  | .dma, _ =>
    if o < 0x100 then 0
    else match o % 32 with
      | 0 => above 7
      | 8 => above 16
      | _ => 0
  | _, _ => 0

/-- The reserved bits of the writable registers of an acquisition die. -/
def aqReserved (b : Block) (o : Nat) : Word :=
  match b, o with
  | .ofe, 0x00 => above 3
  | .ofe, 0x08 => above 12
  | .ofe, 0x10 => above 18
  | .ofe, 0x1C => above 8
  | .ofe, 0x34 => 0xF000F000
  | .psy, 0x00 => above 3
  | .psy, 0x04 => above 21
  | .psy, 0x08 => above 18
  | .psy, 0x0C => above 28
  | .psy, 0x10 => above 20
  | .psy, 0x14 => above 14
  | .psy, 0x18 => above 16
  | .psy, 0x1C => above 1
  | .psy, 0x24 => above 3
  | .dmd, 0x00 => above 4
  | .dmd, 0x08 => above 3
  | .dmd, 0x2C => above 6
  | .dmd, 0x40 => above 24
  | .dmd, 0x44 => above 16
  | .dmd, 0x48 => above 12
  | .dmd, 0x4C => 0xFFFF00FC
  | .dmd, 0x5C => above 4
  | .dmd, 0x64 => above 17
  | .dmd, _ => if 0x100 ≤ o then above 9 else 0
  | .lbq, 0x04 => above 9
  | .lbq, 0x08 => above 13
  | .wsd, 0x14 => above 6
  | .wsd, 0x20 => above 11
  | .cal, 0x00 => above 26
  | .cal, 0x08 => above 7
  | .cal, 0x34 => above 6
  | .cal, 0x40 => above 17
  | .cal, 0x68 => above 30
  | _, _ => 0

/-- The reserved bits of the writable registers of FD. -/
def fdReserved (b : Block) (o : Nat) : Word :=
  match b, o with
  | .cmb, 0x04 => above 6
  | .wsc, 0x00 => above 6
  | .wsc, 0x24 => above 6
  | .adc, 0x04 => above 5
  | .adc, 0x08 => above 17
  | .fsi, 0x08 => above 16
  | .vo, 0x0C => above 4
  | .vo, 0x10 => above 7
  | .vo, 0x28 => above 5
  | .brk, 0x00 => above 4
  | .brk, 0x0C => above 2
  | .rst, 0x08 => above 16
  | .rst, 0x0C => above 2
  | .fdcal, 0x08 => above 4
  | .fdcal, 0x0C => above 6
  | _, _ => 0

/-- The reserved bits of the read-only registers that a structure sets (R10); COUNT of a span at position 8 is always 0. -/
def structReserved (b : Block) (o : Nat) : Word :=
  match b with
  | .cpt => if o = 0x08 then above 22 else if o = 0x0C then above 11 else if o = 0x10 then above 14 else if o = 0x14 then above 18 else 0
  | .frm => if o = 0 then 0xFFFE else 0
  | .hst => if 0x40 ≤ o ∧ o < 0x60 then above 11 else 0
  | .lnk => if o = 0x10 then above 7 else 0
  | .net =>
    if o = 0x00 ∨ o = 0x40 then above 20 else if o = 0x08 ∨ o = 0x48 then above 16 else if o = 0x80 then above 28
    else if 0x100 ≤ o ∧ o % 0x40 = 0 then above 20 else 0
  | .lbq =>
    if o = 0x10 then above 1
    else if 0x400 ≤ o ∧ o < 0x880 then (if (o - 0x400) / 4 % 9 = 8 then above 17 else above 28)
    else if 0x900 ≤ o ∧ o < 0xD80 then above 21 else 0
  | .wsd =>
    if o = 0x00 ∨ o = 0x04 then above 24 else if o = 0x08 then above 20 else if o = 0x1C then above 13
    else if 0x100 ≤ o ∧ o < 0x140 then above 29
    else if 0x4000 ≤ o ∧ o < 0xC000 then (if o % 16 = 0 then 0x8000 else if o % 16 = 4 then above 26 else 0)
    else if 0xC000 ≤ o ∧ o % 8 = 0 then above 30 else 0
  | .cal => if o = 0x20 then above 28 else 0
  | .cmb => if o = 0x08 then above 18 else 0
  | .wsc =>
    if o < 0x100 then 0
    else if o % 16 = 0 then above 20 else if o % 16 = 4 then 0xFC00FC00 else if o % 16 = 8 then above 18 else 0
  | .fsi => if o = 0x04 then above 16 else 0
  | .vo => if o = 0x1C then above 20 else if 0x100 ≤ o ∧ o % 16 = 0 then above 13 else 0
  | .brk => if o = 0x10 then above 30 else 0
  | .fdcal => if o = 0 then 0x80000000 else 0
  | _ => 0

/-- The reserved bits of a writable register. -/
def reservedBits (b : Block) (o : Nat) : Word := hbReserved b o ||| aqReserved b o ||| fdReserved b o

/-- A write puts a one into a reserved bit. -/
def hitsReserved (b : Block) (o : Nat) (row : RegRow) (v : Word) : Bool :=
  row.access != .ro && row.access != .rc && v &&& reservedBits b o != 0

/-! ### Own copies (R541) -/

/-- The listed register is one of which every master has its own copy, held as written or latched. -/
def ownCopy (b : Block) (o : Nat) : Bool :=
  match b with
  | .hst => o == 0x1C
  | .evr => decide (o < 0x280)
  | .lnk => o != 0x08 && o != 0x0C && o != 0x10
  | .nv => o == 0x08 || o == 0x0C
  | .cpt => o == 0x18
  | .sec => o == 0x10
  | .dmd => o == 0x2C || o == 0x58 || o == 0x64 || o == 0x6C
  | .psy => o == 0x34 || o == 0x3C
  | .wsd => o == 0x20 || (decide (0x28 ≤ o) && decide (o < 0x44))
  | .wsc => o == 0x24 || o == 0x2C
  | .tc => o == 0x04
  | .vo => o == 0x28
  | .rst => o == 0x0C || o == 0x14
  | .cal => o == 0x34
  | .fdcal => o == 0x0C
  | _ => false

def State.setCopy (s : State) (m : Master) (own : Bool) (a : Nat) (v : Word) : State := if own then s.setMreg m a v else s.setReg a v
def State.getCopy (s : State) (m : Master) (own : Bool) (a : Nat) : Word := if own then s.mreg m a else s.reg a

/-! ### Reads -/

/-- Registers that are views of the state. -/
def State.blockView (s : State) (m : Master) (b : Block) (n o : Nat) : Option Word :=
  match b with
  | .tc => tcView s o
  | .saf => safView s o
  | .hst => hstView s m o
  | .lease => leaseView s o
  | .evr => none
  | .snap => snapView s (masterCode m) o
  | .lnk => lnkView s m o
  | .net => netView s o
  | .str => strView s o
  | .nv => nvView s m o
  | .jnl => jnlView s m o
  | .clg => clgView s m o
  | .cpt => if o = 0x30 ∧ !s.saf.running then some 0 else cptView s m o
  | .sec => secView s m o
  | .frm => none
  | .tpr => tprView s o
  | .acw => acwView s o
  | .cvu => cvuView s o
  | .pnl => pnlView s o
  | .boot => if 0x10000 ≤ o then some (lo32 (leNat (s.load (recoveryBase + s.recoveryIndex o) 4))) else bootView s o
  | .ofe => ofeView s n o
  | .psy => psyView s n o
  | .dmd => dmdView s m n o
  | .lbq => lbqView s n o
  | .cal => calView s m n o
  | .wsd => wsdView s m n o
  | .cmb => cmbView s o
  | .wsc => wscView s o
  | .adc => adcView s o
  | .fsi => if o = 0 then some s.fsiStatus else none
  | .vo => voView s m o
  | .brk => brkView s o
  | .rst => rstView s m o
  | .fdcal => fdcalView s m o
  | .dma => dmaView s n o

/-- The value of a register that boot loads is known (R12): of the NV store by step 3, of the device's own state from step 6. Values
of the structure are 0 until it is live. -/
def State.valueKnown (s : State) (b : Block) (o : Nat) : Bool :=
  let nv := s.boot.nvLoaded
  let own := decide (3 ≤ s.boot.stage) && s.boot.stage != 15
  match b with
  | .ofe => nv || !(o == 0x20 || o == 0x24)
  | .lease => nv || o != 0x04
  | .nv => nv || !(o == 0x1C || o == 0x20 || o == 0x24)
  | .jnl => nv || decide (0x10 ≤ o)
  | .clg => nv || (decide (0x10 ≤ o) && !(decide (0x20 ≤ o) && decide (o < 0x40)))
  | .hst => own || o != 0x30
  | .str => own || !(o == 0 || o == 0x08 || o == 0x0C || (decide (0x3C ≤ o) && decide (o < 0x80)))
  | .boot => own || !(o == 0x08 || (decide (0x10 ≤ o) && decide (o ≤ 0x18)))
  | .dma => own || o != 0
  | _ => true

/-- The value that a listed register shows: reserved bits read 0 (R10), and a value that boot has not loaded reads 0 (R12). -/
def State.regValue (s : State) (m : Master) (a : Nat) (b : Block) (n o : Nat) (row : RegRow) : Word :=
  if row.access = .wo || !s.valueKnown b o then 0
  else (s.blockView m b n o).getD (s.getCopy m (ownCopy b o) a) &&& ~~~(reservedBits b o ||| structReserved b o)

/-- Reads that latch further registers for the reader (R47, R100, R130, R190, R302, R321, R433, R434). -/
def State.latchRead (s : State) (m : Master) (b : Block) (n o : Nat) : Option (State × Word) :=
  match b, o with
  | .tc, 0x00 => some (s.tcNowLo m)
  | .psy, 0x38 => some (s.periodStampLo m n)
  | .dmd, 0x54 => some (s.epochLo m n)
  | .dmd, 0x68 => some (s.probeLo m n)
  | .wsd, 0x24 => some (s.wsdLast0 m n)
  | .wsc, 0x28 => some (s.wscStampLo m)
  | .rst, 0x10 => some (s.rstStartLo m)
  | .jnl, 0x20 => some (s.jnlEntry0 m)
  | .jnl, 0x3C => some (s.jnlEntry7 m)
  | .clg, 0x80 => some (s.clgEntry0 m)
  | .clg, 0xFC => some (s.clgEntry31 m)
  | _, _ => none

/-- The clearing of a read-and-clear register; the read of a unit's COUNT ends its DISAGREE too. -/
def State.readClear (s : State) (a : Nat) (b : Block) (o : Nat) (row : RegRow) : State :=
  if row.access = .rc then
    let s := s.setReg a row.reset
    s.when (b == .cvu) (·.cvCountRead ((o - 0x800) / 0x10))
  else s

/-- A read of a listed register. -/
def State.regRead (s : State) (m : Master) (a : Nat) (b : Block) (n o : Nat) (row : RegRow) : State × Word :=
  (s.latchRead m b n o).getD (s.readClear a b o row, s.regValue m a b n o row)

/-- All ones. -/
def allOnes : Word := 0xFFFFFFFF

/-- A read of the word at window offset `a`: the state, the value, and whether with an error completion. -/
def State.busRead (s : State) (m : Master) (a : Nat) : State × Word × Bool :=
  match s.meets m a, s.isFrozen m with
  | .closed c, _ => (s.offend m c a, allOnes, true)
  | _, true => (s, allOnes, true)
  | .dead, _ => (s, allOnes, true)
  | .reserved, _ => (s, 0, false)
  | .stage off, _ => ((s.stageRead off).1, (s.stageRead off).2, false)
  | .register b n o row, _ => ((s.regRead m a b n o row).1, (s.regRead m a b n o row).2, false)

/-! ### Writes -/

/-- Registers that hold a master's selection: the bits that a write keeps. -/
def selectMask (b : Block) (o : Nat) : Option Word :=
  match b, o with
  | .hst, 0x1C => some 0x1F
  | .nv, 0x0C => some 0x3FF
  | .cpt, 0x18 => some 0xFFF
  | .sec, 0x10 => some 0x7FF
  | .vo, 0x28 => some 0x1F
  | .rst, 0x0C => some 0x3
  | .fdcal, 0x0C => some 0x3F
  | _, _ => none

/-- A write of HB_JNL's or HB_CLG's cursor: the upper half is staged, the lower half takes it (R433, R434). -/
def State.cursorWrite (s : State) (m : Master) (clg hi : Bool) (v : Word) : State :=
  let f := fun (c : LogCursor) => if hi then c.writeHi v else c.writeLo v
  if clg then s.setCCursor m (f (s.cCursor m)) else s.setJCursor m (f (s.jCursor m))

/-- A write of HB_STR_STAGE_PAGE. -/
def State.pageWrite (s : State) (v : Word) : State := s.setReg Reg.HB_STR_STAGE_PAGE (lo32 (fld v 0 5))

/-- The reserved bytes of a command record are 0 (R350). -/
def recordClean (r : List Byte) : Bool := leNat (bytesAt r 2 2) == 0

/-- The record that the mailbox holds. -/
def State.mboxRecord (s : State) : List Byte := (List.range 16).flatMap fun w => leBytes 4 (s.mreg (.host 7) (Reg.HB_LNK_MBOX w)).toNat

/-- A write of HB_LNK_MBOX_CTL (R382); none where the record's reserved bytes are not 0. -/
def State.mboxWrite (s : State) (m : Master) (v : Word) : Option State :=
  if m ≠ .host 7 ∨ !bitOf v 0 then some s
  else if s.links.mboxBusy then some (s.lnkEvt 7 2)
  else if !recordClean s.mboxRecord then none
  else some (submit (.mailbox m) s.mboxRecord (s.setLinks fun l => { l with mboxBusy := true, mboxReady := false }))

/-- A write of a listed register that is not read-only, by a master that may write it. `nvOk`: a write-persistent value reaches the
NV store. -/
def State.regWrite (s : State) (m : Master) (a : Nat) (b : Block) (n o : Nat) (v : Word) (nvOk : Bool) : State :=
  match b with
  | .tc => tcWrite s o v
  | .saf => safCommand v s
  | .lease => if o = 0x08 then leaseRenew m v s else s
  | .evr => evrWrite s m o v
  | .snap => s.when (bitOf v 0) (snapshotTake (masterCode m))
  | .lnk => lnkWrite s m o v
  | .str => s.pageWrite v
  | .jnl => s.cursorWrite m false (o == 0x14) v
  | .clg => s.cursorWrite m true (o == 0x14) v
  | .tpr => tprWrite s o v
  | .acw => acwWrite s o v
  | .cvu => cvuWrite s o v
  | .pnl => pnlWrite s o v
  | .boot => bootWrite s o v
  | .ofe =>
    if o = 0x20 then s.setpointWrite m n v nvOk
    else if o = 0x24 then s.limitsWrite m n v nvOk
    else ofeWrite s m n o v
  | .psy => psyWrite s n o v
  | .dmd => dmdWrite s m n o v
  | .lbq => lbqWrite s n o v
  | .cal => calWrite s m n o v
  | .wsd => wsdWrite s m n o v
  | .wsc => wscWrite s m o v
  | .adc => adcRequest v s
  | .brk => brakeCommand (fld v 0 4) s
  | .dma => dmaWrite s n o v
  | .vo => if o = 0x10 then voCommand v s else s.setMreg m a (v &&& 0x1F)
  | _ => match selectMask b o with
    | some k => s.setMreg m a (v &&& k)
    | none => s

/-- A write of a W1C register; the latches of FD_WSC follow R293. -/
def State.clearWrite (s : State) (m : Master) (a : Nat) (b : Block) (o : Nat) (v : Word) : State :=
  if b = .wsc ∧ o ≠ 0 then wscWrite s m o v
  else s.setCopy m (ownCopy b o) a (s.getCopy m (ownCopy b o) a &&& ~~~v)

/-- A write of a listed register by a master that may write it; none where R11 leaves the behaviour undefined. -/
def State.listedWrite (s : State) (m : Master) (a : Nat) (b : Block) (n o : Nat) (row : RegRow) (v : Word) (nvOk : Bool) : Option State :=
  if hitsReserved b o row v then none
  else
    match row.access with
    | .ro | .rc => some s
    | .w1c => some (s.clearWrite m a b o v)
    | _ => if b = .lnk ∧ o = 0xC0 then s.mboxWrite m v else some (s.regWrite m a b n o v nvOk)

/-- A write of 0 to AQn_OFE_CTL.LIGHT of a die that Watch has taken power from: refused, with REFUSED set (R66). -/
def State.watchRefuse (s : State) (m : Master) (a : Nat) (v : Word) : State :=
  match blockOf a with
  | some (.ofe, d, 0) =>
    s.when (s.dev == .watch && s.holdsRole m .configurator && bitOf (s.reg a) 0 && !bitOf v 0) (·.setEvt (Reg.AQ_OFE_EVT d) 10)
  | _ => s

/-- A write of the word at window offset `a`: the state and whether it was a violation or the master is frozen; none where R11
leaves the behaviour undefined. -/
def State.busWrite (s : State) (m : Master) (a : Nat) (v : Word) (nvOk : Bool) : Option (State × Bool) :=
  match s.meets m a, s.isFrozen m with
  | .closed c, _ => some (s.offend m c a, true)
  | .register b n o row, fr =>
    if s.writeDenied m b o then some (s.offend m .role a, true)
    else if fr then some (s, true)
    else (s.listedWrite m a b n o row v nvOk).map fun t => (t, false)
  | .stage off, false => some (s.stageStore (s.stageIndex off) (leBytes 4 v.toNat), false)
  | .dead, false => some (s.watchRefuse m a v, false)
  | _, fr => some (s, fr)

end Sys2Proof.Machine
end

