-- ==== Sys2Proof/Machine/DmaRun.lean ====
section
/-!
DEFINITION. Programs of the DMA engines: fetches, instructions, write-backs, retries (DMA Engines and Programs, R443 to R458).

A program's accesses to host memory read what the command brings (`data`, the host bytes in the order read) and write the model's
host memory; too few bytes are a failing burst (R457).
-/
namespace Sys2Proof.Machine

/-! ### Accesses -/

/-- How an access ends: done; a violation of R443 or of R398 at an address; a failing burst; undefined (R11). -/
inductive DmaEnd where
  | done
  | foreign (a : Nat)
  | role (a : Nat)
  | failed
  | undefined
deriving DecidableEq, Repr

/-- Why the access to a byte address is not performed. -/
def State.dmaBar (s : State) (e a : Nat) (write : Bool) : Option DmaEnd :=
  if s.dmaForeign e a write then some (.foreign a)
  else if s.dmaRole e a then some (.role a)
  else if dmaDead a then some .failed
  else none

/-- A transfer in hand: the state, the host bytes still to come, the register word read last, the bytes gathered for a register
word, the bytes moved. -/
structure Mover where
  s    : State
  data : List Byte
  word : Word := 0
  gather : List Byte := []
  got  : List Byte := []
deriving DecidableEq, Repr

/-- Read the byte at `a`; `first`: it is the first of its access. Registers are read word by word (R537). -/
def Mover.loadByte (v : Mover) (first : Bool) (a : Nat) : Option (Mover × Byte) :=
  match dmaRegion a with
  | .host _ =>
    match v.data with
    | b :: t => some ({ v with data := t }, b)
    | [] => none
  | .regs =>
    if first || a % 4 == 0 then
      let r := v.s.busRead .firmware (a - a % 4)
      if r.2.2 then none else some ({ v with s := r.1, word := r.2.1 }, BitVec.ofNat 8 (r.2.1.toNat / 256 ^ (a % 4)))
    else some (v, BitVec.ofNat 8 (v.word.toNat / 256 ^ (a % 4)))
  | .staging => some ({ v with s := v.s.setStr fun x => { x with used := v.s.now } }, memByte v.s.mem a)
  | _ => some (v, memByte v.s.mem a)

/-- Write the byte at `a`: a register takes whole words (R537), the staging area follows R398; none where R11 leaves it undefined. -/
def Mover.storeByte (v : Mover) (a : Nat) (b : Byte) : Option Mover :=
  match dmaRegion a with
  | .regs =>
    let g := if a % 4 = 0 then [b] else if v.gather.length = a % 4 then v.gather ++ [b] else []
    if g.length = 4 then (v.s.busWrite .firmware (a - 3) (lo32 (leNat g)) true).map fun r => { v with s := r.1, gather := [] }
    else some { v with gather := g }
  | .staging => some { v with s := v.s.stageStore (a - stagingBase) [b] }
  | _ => some { v with s := v.s.store (dmaKey a) [b] }

/-- Addresses are 48 bits wide. -/
def dmaAddr (a : Int) : Nat := (a % (2 ^ 48 : Nat)).toNat

/-- Move one byte. -/
def Mover.moveByte (e : Nat) (v : Mover) (first : Bool) (src dst : Nat) : Mover × DmaEnd :=
  match v.s.dmaBar e src false, v.s.dmaBar e dst true with
  | some x, _ => (v, x)
  | _, some x => (v, x)
  | none, none =>
    match v.loadByte first src with
    | none => (v, .failed)
    | some (v, b) =>
      match v.storeByte dst b with
      | none => (v, .undefined)
      | some v => ({ v with got := b :: v.got }, .done)

/-- Move `n` bytes from byte `i` of the transfer on, in ascending address order. -/
def Mover.moveBytes (e src dst : Nat) : (n i : Nat) → Mover → Bool → Mover × DmaEnd
  | 0, _, v, _ => (v, .done)
  | n + 1, i, v, first =>
    match v.moveByte e first ((src + i) % 2 ^ 48) ((dst + i) % 2 ^ 48) with
    | (v, .done) => Mover.moveBytes e src dst n (i + 1) v false
    | r => r

/-- Read `n` bytes from `a` on. -/
def Mover.readBytes (e a : Nat) : (n i : Nat) → Mover → Mover × DmaEnd
  | 0, _, v => (v, .done)
  | n + 1, i, v =>
    match v.s.dmaBar e ((a + i) % 2 ^ 48) false with
    | some x => (v, x)
    | none =>
      match v.loadByte (i == 0) ((a + i) % 2 ^ 48) with
      | none => (v, .failed)
      | some (v, b) => Mover.readBytes e a n (i + 1) { v with got := b :: v.got }

/-- Write a byte list from `a` on. -/
def Mover.writeBytes (e a : Nat) : List Byte → (i : Nat) → Mover → Mover × DmaEnd
  | [], _, v => (v, .done)
  | b :: t, i, v =>
    match v.s.dmaBar e ((a + i) % 2 ^ 48) true with
    | some x => (v, x)
    | none =>
      match v.storeByte ((a + i) % 2 ^ 48) b with
      | none => (v, .undefined)
      | some v => Mover.writeBytes e a t (i + 1) v

/-- `n` bytes from `a` on, the state after reading them, and how it ended. -/
def State.dmaRead (s : State) (e a n : Nat) (data : List Byte) : State × List Byte × DmaEnd :=
  let r := Mover.readBytes e a n 0 { s := s, data := data }
  (r.1.s, r.1.got.reverse, r.2)

/-- Write `l` from `a` on. -/
def State.dmaPut (s : State) (e a : Nat) (l : List Byte) : State × DmaEnd :=
  let r := Mover.writeBytes e a l 0 { s := s, data := [] }
  (r.1.s, r.2)

/-! ### Fields of an instruction -/

/-- Little-endian field of an instruction. -/
def insNat (b : List Byte) (i n : Nat) : Nat := leNat (bytesAt b i n)
def insOp (b : List Byte) : Nat := insNat b 0 1 % 16
def insFlag (b : List Byte) (i : Nat) : Bool := (insNat b 0 1 / 2 ^ i) % 2 == 1

/-- Bytes [i, j) are 0. -/
def insZero (b : List Byte) (i j : Nat) : Bool := insNat b i (j - i) == 0

/-! ### How a run goes on -/

/-- The final write-back of a result begins. -/
def State.dmaHalt (s : State) (e : Nat) (r : DmaRun) (res : Nat) : State := s.setRun e { r with phase := .writeBack res, failed := false }

/-- Retries are exhausted: no slot where the failing access is a fetch or a write-back, that of an END with LINK included (R446). -/
def State.dmaExhausted (s : State) (e : Nat) (r : DmaRun) : State :=
  match r.phase with
  | .instr b => if insOp b = 6 then (s.setRun e r).dmaDone e 3 false else s.dmaHalt e r 3
  | .wait .. => s.dmaHalt e r 3
  | _ => (s.setRun e r).dmaDone e 3 false

/-- The burst of the access in hand fails (R457): a retry follows while CFG.RETRY allows one. -/
def State.dmaFail (s : State) (e : Nat) (r : DmaRun) : State :=
  if fld r.cfg 2 4 ≤ r.tries then s.dmaExhausted e r else s.setRun e { r with failed := true }

/-- An access that was not done ends as R443, R398 and R457 say; none where it is undefined. -/
def State.dmaStopped (s : State) (e : Nat) (r : DmaRun) (x : DmaEnd) : Option State :=
  match x with
  | .done => some (s.setRun e r)
  | .foreign a => some ((s.setRun e r).freeze (.dma (16 * e + r.ch)) .dmaForeign a)
  | .role a =>
    match s.dmaOwner e with
    | some d => some ((s.setRun e r).violate (.host d) .role a)
    | none => some (s.setRun e r)
  | .failed => some (s.dmaFail e r)
  | .undefined => none

/-- The next instruction of the program. -/
def DmaRun.advance (r : DmaRun) : DmaRun := { r with pc := r.pc + 16, phase := .fetch, tries := 0, moved := 0 }

/-- The run stands where `r` stood: no write of its own has ended or aborted it. -/
def State.standsAt (s : State) (e : Nat) (r : DmaRun) : Bool := (s.eng e).run.map (·.phase) == some r.phase

/-! ### Instructions (R448 to R454) -/

/-- The address of the instruction at the program counter. -/
def DmaRun.addr (r : DmaRun) : Nat := (r.prog + r.pc) % 2 ^ 48

/-- A LOOP that the top of the stack does not belong to, with the stack full. -/
def DmaRun.stackFull (r : DmaRun) : Bool :=
  match r.stack with
  | a :: _ :: _ => a.addr != r.addr
  | _ => false

/-- The instruction is valid, but for the route of a WAIT (R454). -/
def DmaRun.valid (r : DmaRun) (b : List Byte) : Bool :=
  let up := insNat b 0 1 / 16
  match insOp b with
  | 1 => insNat b 13 3 != 0 && (!insFlag b 5 || r.preset.isSome)
  | 2 =>
    up == 0 && insZero b 2 4 && insNat b 1 1 != 0 && insNat b 4 4 != 0 && decide (16 + 16 * insNat b 1 1 ≤ r.pc) && !r.stackFull
  | 3 => up / 2 == 0 && insZero b 1 4 && (!insFlag b 4 || decide (insNat b 8 8 < 1024))
  | 4 =>
    up / 2 == 0 && insZero b 4 16 &&
      (if insFlag b 4 then insZero b 2 4 && decide (insNat b 1 1 < 16) && insNat b 1 1 != r.ch else insZero b 1 2)
  | 5 => up / 4 == 0 && insZero b 7 16 && r.preset.isSome
  | 6 => up / 2 == 0 && insZero b 7 16 && (if insFlag b 4 then insNat b 1 6 % 16 == 0 else insNat b 1 6 == 0)
  | _ => false

/-- The reserved bits of a status slot's first word are 0 (R445). -/
def slotClean (b : List Byte) : Bool := insNat b 0 4 / 16 % 16 == 0 && insNat b 0 4 / 4096 % 2 ^ 19 == 0

/-- A fetched slot: OWN = 0 halts with NOT_OWNED (R444); none where a reserved bit of it is set. -/
def State.dmaSlotFetched (s : State) (e : Nat) (r : DmaRun) (b : List Byte) : Option State :=
  if !slotClean b then none
  else if insNat b 3 1 < 128 then some ((s.setRun e r).dmaDone e 9 false)
  else some (s.setRun e { r with phase := .fetch, pc := 16, tries := 0 })

/-- A fetched instruction begins; an invalid one halts (R453, R454). -/
def State.dmaInsFetched (s : State) (e : Nat) (r : DmaRun) (b : List Byte) : State :=
  if r.valid b then s.setRun e { r with phase := .instr b, exec := r.exec + 1, progExec := r.progExec + 1, tries := 0 }
  else s.dmaHalt e r 6

/-- A fetch of 16 bytes for the run in hand. -/
def State.dmaFetch (s : State) (e : Nat) (r : DmaRun) (data : List Byte) : Option State :=
  let a := match r.phase with | .slot => r.prog | _ => r.addr
  match s.dmaRead e a 16 data, r.phase with
  | (s, b, .done), .slot => s.dmaSlotFetched e r b
  | (s, b, .done), _ => some (s.dmaInsFetched e r b)
  | (s, _, x), _ => s.dmaStopped e r x

/-- DMA_PROGRAM_FETCH: the slot of a program, or its next instruction. -/
def dmaProgramFetch (e : Nat) (data : List Byte) (s : State) : Option State :=
  match (s.eng e).run with
  | none => some s
  | some r =>
    if r.failed then some s
    else
      match r.phase with
      | .slot => s.dmaFetch e r data
      | .fetch => if r.budget ≤ r.exec then some (s.dmaHalt e r 4) else s.dmaFetch e r data
      | _ => some s

/-- The instruction in hand where its OP is `op` and no retry is awaited. -/
def State.dmaIns (s : State) (e op : Nat) : Option (DmaRun × List Byte) :=
  match (s.eng e).run with
  | some r =>
    match r.phase with
    | .instr b => if insOp b = op ∧ !r.failed then some (r, b) else none
    | _ => none
  | none => none

def DmaRun.soff (r : DmaRun) : Int := r.stack.foldl (fun a x => a + x.soff) 0
def DmaRun.doff (r : DmaRun) : Int := r.stack.foldl (fun a x => a + x.doff) 0

/-- An address with the loop offsets where the flag asks for them. -/
def withOffset (a : Nat) (use : Bool) (off : Int) : Nat := dmaAddr ((a : Int) + if use then off else 0)

/-- The bytes enter the running check value (R452). -/
def DmaRun.feed (r : DmaRun) (b : List Byte) (got : List Byte) : DmaRun :=
  match r.preset, insFlag b 5 with
  | some p, true => { r with crc := crcFeed p r.crc got }
  | _, _ => r

/-- MOVE. -/
def dmaMove (e : Nat) (data : List Byte) (s : State) : Option State :=
  match s.dmaIns e 1 with
  | none => some s
  | some (r, b) =>
    let src := withOffset (insNat b 1 6) (insFlag b 6) r.soff
    let dst := withOffset (insNat b 7 6) (insFlag b 7) r.doff
    let (v, x) := Mover.moveBytes e src dst (insNat b 13 3 - r.moved) r.moved { s := s, data := data } true
    let got := v.got.reverse
    let r := { r.feed b got with moved := r.moved + got.length, tries := if got.isEmpty then r.tries else 0 }
    match x, v.s.standsAt e r with
    | .undefined, _ => none
    | _, false => some v.s
    | .done, true => some (v.s.setRun e r.advance)
    | x, true => v.s.dmaStopped e r x

/-- LOOP (R450). -/
def dmaLoop (e : Nat) (s : State) : State :=
  match s.dmaIns e 2 with
  | none => s
  | some (r, b) =>
    let (top, rest) : DmaLoop × List DmaLoop :=
      match r.stack with
      | t :: u => if t.addr = r.addr then ({ t with left := t.left - 1 }, u) else (⟨r.addr, insNat b 4 4 - 1, 0, 0⟩, t :: u)
      | [] => (⟨r.addr, insNat b 4 4 - 1, 0, 0⟩, [])
    if 0 < top.left then
      let top := { top with soff := top.soff + sext (insNat b 8 4) 32, doff := top.doff + sext (insNat b 12 4) 32 }
      s.setRun e { r with stack := top :: rest, pc := r.pc - 16 * insNat b 1 1, phase := .fetch }
    else s.setRun e { r with stack := rest, pc := r.pc + 16, phase := .fetch }

/-- What a WAIT waits for has come: the time, or a raise of the source beyond `raises`. -/
def State.waitOver (s : State) (b : List Byte) (raises : Nat) : Bool :=
  if insFlag b 4 then decide (raises < tget s.raised 0 (insNat b 8 8 % 1024)) else decide (insNat b 8 8 ≤ s.tc.now)

/-- The source of a WAIT is routed to the engine's owner. -/
def State.waitRouted (s : State) (e : Nat) (b : List Byte) : Bool :=
  match s.dmaOwner e with
  | some d => !insFlag b 4 || bitOf (s.reg (Reg.HB_EVR_ROUTE (insNat b 8 8 % 1024))) d
  | none => true

/-- WAIT starts (R451). -/
def dmaWait (e : Nat) (s : State) : State :=
  match s.dmaIns e 3 with
  | none => s
  | some (r, b) =>
    let raises := tget s.raised 0 (insNat b 8 8 % 1024)
    if !s.waitRouted e b then s.dmaHalt e { r with exec := r.exec - 1, progExec := r.progExec - 1 } 6
    else if s.waitOver b raises then s.setRun e r.advance
    else s.setRun e { r with phase := .wait b s.now raises }

def dmaWaitSatisfied (e : Nat) (s : State) : State :=
  match (s.eng e).run with
  | some r =>
    match r.phase with
    | .wait b _ raises => if s.waitOver b raises then s.setRun e r.advance else s
    | _ => s
  | none => s

def dmaWaitTimeout (e : Nat) (s : State) : State :=
  match (s.eng e).run with
  | some r =>
    match r.phase with
    | .wait b since raises =>
      let tmo := insNat b 4 4
      if tmo ≠ 0 ∧ since + 1000 * tmo ≤ s.now ∧ !s.waitOver b raises then s.dmaHalt e r 7 else s
    | _ => s
  | none => s

/-- SIGNAL (R451). -/
def dmaSignal (e : Nat) (s : State) : State :=
  match s.dmaIns e 4 with
  | none => s
  | some (r, b) =>
    let s := s.setRun e r.advance
    if insFlag b 4 then dmaDoorbell e (insNat b 1 1) s
    else (s.modChan e r.ch fun x => { x with sigval := insNat b 2 2 }).dmaRaise e r.ch

/-- CRCSTORE (R451). -/
def dmaCrcstore (e : Nat) (s : State) : Option State :=
  match s.dmaIns e 5 with
  | none => some s
  | some (r, b) =>
    let a := withOffset (insNat b 1 6) (insFlag b 5) r.doff
    let (t, x) := s.dmaPut e a (leBytes 4 r.crcOut)
    match x, t.standsAt e r with
    | .undefined, _ => none
    | _, false => some t
    | .done, true => some (t.setRun e { r with crc := if insFlag b 4 then r.crcInit else r.crc }.advance)
    | x, true => t.dmaStopped e r x

/-- END with LINK: the slot carries LINKED and the run goes on at NEXT; in the 4,096th program it halts (R451, R456). -/
def State.dmaLink (s : State) (e : Nat) (r : DmaRun) (b : List Byte) : Option State :=
  if 4096 ≤ r.progs then some (s.dmaHalt e r 5)
  else
    match s.dmaPut e r.prog (r.slotBytes 1) with
    | (s, .done) =>
      some (s.setRun e { r with
        prog := insNat b 1 6, pc := 16, phase := .slot, progs := r.progs + 1, progExec := 0, progRetries := 0, tries := 0, moved := 0 })
    | (s, x) => s.dmaStopped e r x

/-- The final write-back of a result ends, and the run with it. -/
def State.dmaFinish (s : State) (e : Nat) (r : DmaRun) (res : Nat) : Option State :=
  match s.dmaPut e r.prog (r.slotBytes res) with
  | (s, .done) => some (s.dmaDone e res true)
  | (s, x) => s.dmaStopped e r x

/-- DMA_END: an END links, or its final write-back begins; a final write-back that has begun ends. -/
def dmaEnd (e : Nat) (s : State) : Option State :=
  match (s.eng e).run with
  | none => some s
  | some r =>
    match r.phase with
    | .writeBack res => s.dmaFinish e r res
    | _ =>
      match s.dmaIns e 6 with
      | none => some s
      | some (r, b) => if insFlag b 4 then s.dmaLink e r b else some (s.dmaHalt e r 0)

/-- 1 µs after a failed burst: the retry. One that passes lets the access in hand be made again. -/
def dmaBusRetry (e : Nat) (ok : Bool) (s : State) : State :=
  match (s.eng e).run with
  | some r =>
    if !r.failed then s
    else
      let r := { r with tries := r.tries + 1, retries := r.retries + 1, progRetries := r.progRetries + 1 }
      if ok then s.setRun e { r with failed := false }
      else if fld r.cfg 2 4 ≤ r.tries then s.dmaExhausted e r
      else s.setRun e r
  | none => s

end Sys2Proof.Machine
end

