-- ==== Sys2Proof/Machine/Access.lean ====
section
/-!
DEFINITION. The commands that are register accesses, by whatever path: PCIe and core accesses, Ethernet sessions, SPI frames, the
command rings, programs of the DMA engines (R9, R358, R370, R371, R379, R381, R382, R537, R538).
-/
namespace Sys2Proof.Machine

/-! ### Shapes of a command -/

/-- A command of the logic side whose effect may be undefined: the fault stands for that. -/
def State.tryHb (s : State) (dt : Nat) (flt : Fault) (f : State → Option State) : Out :=
  if (s.elapse dt).boot.up then
    match f (s.elapse dt) with
    | some t => .next t
    | none => .fault flt
  else .next (s.elapse dt)

/-- The effect of a write of the word at `a`, none where it is undefined. -/
def State.writeWord (s : State) (m : Master) (a : Nat) (v : Word) (nvOk : Bool) : Option State := (s.busWrite m a v nvOk).map (·.1)

/-- The effect of a read of the word at `a`, with its completion. -/
def State.readWord (s : State) (m : Master) (a : Nat) : State :=
  let r := s.busRead m a
  r.1.send (.reply m a r.2.1 r.2.2)

/-- A command that writes the register at `a` with the value `v` forms from the state. -/
def State.writeRow (s : State) (dt : Nat) (m : Master) (a : Nat) (v : State → Word) : Out :=
  s.tryHb dt (.reservedField a) fun s => s.writeWord m a (v s) true

/-- A command that reads the register at `a`. -/
def State.readRow (s : State) (dt : Nat) (m : Master) (a : Nat) : Out := s.afterHb dt (·.readWord m a)

/-- What the register at `a` shows a master, with no effect. -/
def State.peek (s : State) (m : Master) (a : Nat) : Word :=
  match blockOf a with
  | some (b, n, o) => match b.row? o with
    | some row => s.regValue m a b n o row
    | none => 0
  | none => 0

/-! ### Any register -/

/-- REGISTER_WRITE (R9, R537, R544): a write that does not cover a whole word is dropped. -/
def execRegisterWrite (dt : Nat) (m : Master) (a : Nat) (v : Word) (s : State) : Out :=
  if a % 4 ≠ 0 then .next (s.elapse dt)
  else
    match bar2At m a with
    | some (p, o) => s.afterHb dt (·.bar2Write m p o v)
    | none => s.writeRow dt m a fun _ => v

/-- REGISTER_READ (R538, R542, R544): a read returns the whole word its address lies in. -/
def execRegisterRead (dt : Nat) (m : Master) (a : Nat) (s : State) : Out :=
  match bar2At m (a - a % 4) with
  | some (p, o) => s.afterHb dt (·.bar2Read m p o)
  | none => s.readRow dt m (a - a % 4)

/-! ### Town clock -/

/-- TC_STEP_REQUEST (R43). -/
def execTcStepRequest (dt : Nat) (m : Master) (s : State) : Out :=
  s.writeRow dt m Reg.HB_TC_CTL fun s => s.peek m Reg.HB_TC_CTL ||| 4

/-- TC_NOW_LO_READ (R47). -/
def execTcNowLoRead (dt : Nat) (m : Master) (s : State) : Out := s.readRow dt m Reg.HB_TC_NOW_LO

/-! ### Acquisition dies -/

/-- OFE_LIGHT_ON (R62). -/
def execOfeLightOn (dt : Nat) (m : Master) (d : Nat) (s : State) : Out :=
  s.writeRow dt m (Reg.AQ_OFE_CTL d) fun s => s.peek m (Reg.AQ_OFE_CTL d) ||| 1

/-- OFE_LIGHT_OFF (R63). -/
def execOfeLightOff (dt : Nat) (m : Master) (d : Nat) (s : State) : Out :=
  s.writeRow dt m (Reg.AQ_OFE_CTL d) fun s => s.peek m (Reg.AQ_OFE_CTL d) &&& 0xFFFFFFFE

/-- OFE_RESTART (R574). -/
def execOfeRestart (dt : Nat) (m : Master) (d : Nat) (s : State) : Out :=
  s.writeRow dt m (Reg.AQ_OFE_CTL d) fun s => s.peek m (Reg.AQ_OFE_CTL d) ||| 2

/-- TEC_SETPOINT_WRITE (R74, R424, R425). -/
def execTecSetpointWrite (dt : Nat) (m : Master) (d : Nat) (v : Word) (nvOk : Bool) (s : State) : Out :=
  s.tryHb dt (.reservedField (Reg.AQ_TEC_SETPOINT d)) (·.writeWord m (Reg.AQ_TEC_SETPOINT d) v nvOk)

/-- TEC_LIMITS_WRITE (R74, R424, R425). -/
def execTecLimitsWrite (dt : Nat) (m : Master) (d : Nat) (v : Word) (nvOk : Bool) (s : State) : Out :=
  s.tryHb dt (.reservedField (Reg.AQ_TEC_LIMITS d)) (·.writeWord m (Reg.AQ_TEC_LIMITS d) v nvOk)

/-- PSY_APPLY_GO (R93). -/
def execPsyApplyGo (dt : Nat) (m : Master) (d : Nat) (s : State) : Out := s.writeRow dt m (Reg.AQ_PSY_APPLY d) fun _ => 1

/-- DMD_REACQ_REQUEST (R114). -/
def execDmdReacqRequest (dt : Nat) (m : Master) (d : Nat) (s : State) : Out :=
  s.writeRow dt m (Reg.AQ_DMD_REF_CTL d) fun s => s.peek m (Reg.AQ_DMD_REF_CTL d) ||| 2

/-- DMD_PROBE_LO_READ (R130). -/
def execDmdProbeLoRead (dt : Nat) (m : Master) (d : Nat) (s : State) : Out := s.readRow dt m (Reg.AQ_DMD_PROBE_LO d)

/-- DMD_EPOCH_LO_READ (R47). -/
def execDmdEpochLoRead (dt : Nat) (m : Master) (d : Nat) (s : State) : Out := s.readRow dt m (Reg.AQ_DMD_EPOCH_LO d)

/-- PERIOD_STAMP_LO_READ (R100). -/
def execPeriodStampLoRead (dt : Nat) (m : Master) (d : Nat) (s : State) : Out := s.readRow dt m (Reg.AQ_PERIOD_STAMP_LO d)

/-- AQn_LBQ_CMD: operation (0 return, 1 inject), level and index. -/
def lbqWord (op level index : Nat) : Word := word [(0, 2, op), (2, 2, level), (4, 9, index)]

/-- LBQ_RETURN_LANE (R160). -/
def execLbqReturnLane (dt : Nat) (m : Master) (d i : Nat) (s : State) : Out := s.writeRow dt m (Reg.AQ_LBQ_CMD d) fun _ => lbqWord 0 0 i

/-- LBQ_RETURN_BLOCK (R161). -/
def execLbqReturnBlock (dt : Nat) (m : Master) (d b : Nat) (s : State) : Out := s.writeRow dt m (Reg.AQ_LBQ_CMD d) fun _ => lbqWord 0 1 b

/-- LBQ_RETURN_QUARTER (R161). -/
def execLbqReturnQuarter (dt : Nat) (m : Master) (d q : Nat) (s : State) : Out := s.writeRow dt m (Reg.AQ_LBQ_CMD d) fun _ => lbqWord 0 2 q

/-- LBQ_INJECT (R163). -/
def execLbqInject (dt : Nat) (m : Master) (d level index : Nat) (s : State) : Out :=
  s.writeRow dt m (Reg.AQ_LBQ_CMD d) fun _ => lbqWord 1 level index

/-- WSD_LAST0_READ (R190). -/
def execWsdLast0Read (dt : Nat) (m : Master) (d : Nat) (s : State) : Out := s.readRow dt m (Reg.AQ_WSD_LAST d 0)

/-- CAL_PARAM_WRITE (R493). -/
def execCalParamWrite (dt : Nat) (m : Master) (d off : Nat) (v : Word) (s : State) : Out :=
  s.writeRow dt m (Reg.AQ_CAL_CTL d + off) fun _ => v

/-! ### Acoustic windows, pairs -/

/-- ACW_ENABLE (R241). -/
def execAcwEnable (dt : Nat) (m : Master) (w : Nat) (s : State) : Out := s.writeRow dt m (Reg.HB_ACW_W_R0 w) fun _ => 0x800

/-- ACW_DISABLE (R241). -/
def execAcwDisable (dt : Nat) (m : Master) (w : Nat) (s : State) : Out := s.writeRow dt m (Reg.HB_ACW_W_R0 w) fun _ => 0

/-- HB_SAF_CMD: operation (0 return, 1 inject, 2 swap) and pair. -/
def safWord (op : Nat) (pr : Pair) : Word := word [(0, 2, op), (2, 1, if pr = .b then 1 else 0)]

/-- PAIR_RETURN (R257). -/
def execPairReturn (dt : Nat) (m : Master) (pr : Pair) (s : State) : Out := s.writeRow dt m Reg.HB_SAF_CMD fun _ => safWord 0 pr

/-- PAIR_INJECT (R257). -/
def execPairInject (dt : Nat) (m : Master) (pr : Pair) (s : State) : Out := s.writeRow dt m Reg.HB_SAF_CMD fun _ => safWord 1 pr

/-- PAIR_SWAP (R257). -/
def execPairSwap (dt : Nat) (m : Master) (s : State) : Out := s.writeRow dt m Reg.HB_SAF_CMD fun _ => safWord 2 .a

/-! ### Field die -/

/-- WSC_LATCH_CLEAR (R293). -/
def execWscLatchClear (dt : Nat) (m : Master) (hi : Bool) (mask : Word) (s : State) : Out :=
  s.writeRow dt m (if hi then Reg.FD_WSC_LATCH_HI else Reg.FD_WSC_LATCH_LO) fun _ => mask

/-- WSC_STAMP_LO_READ (R302). -/
def execWscStampLoRead (dt : Nat) (m : Master) (s : State) : Out := s.readRow dt m Reg.FD_WSC_STAMP_LO

/-- ADC_REQUEST (R299). -/
def execAdcRequest (dt : Nat) (m : Master) (v : Word) (s : State) : Out := s.writeRow dt m Reg.FD_ADC_REQ fun _ => v

/-- VO_FAULT_CLEAR (R309). -/
def execVoFaultClear (dt : Nat) (m : Master) (i : Nat) (s : State) : Out :=
  s.writeRow dt m Reg.FD_VO_CMD fun _ => word [(2, 5, i)]

/-- VO_GROUP_RETEST (R311). -/
def execVoGroupRetest (dt : Nat) (m : Master) (g : Nat) (s : State) : Out :=
  s.writeRow dt m Reg.FD_VO_CMD fun _ => word [(0, 2, 1), (2, 5, g)]

/-- BRAKE_TEST_START (R314). -/
def execBrakeTestStart (dt : Nat) (m : Master) (c : Nat) (s : State) : Out := s.writeRow dt m Reg.FD_BRK_CMD fun _ => word [(0, 4, c)]

/-- RST_START_LO_READ (R321). -/
def execRstStartLoRead (dt : Nat) (m : Master) (s : State) : Out := s.readRow dt m Reg.FD_RST_START_LO

/-! ### Host domains and links -/

/-- LEASE_RENEW (R344). -/
def execLeaseRenew (dt : Nat) (m : Master) (v : Word) (s : State) : Out := s.writeRow dt m Reg.HB_LEASE_RENEW fun _ => v

/-- SNAPSHOT_TAKE (R366). -/
def execSnapshotTake (dt : Nat) (m : Master) (s : State) : Out := s.writeRow dt m Reg.HB_SNAP_CTL fun _ => 1

/-- EVR_QUEUE_CONFIG_WRITE (R365). -/
def execEvrQueueConfigWrite (dt : Nat) (m : Master) (a : Nat) (v : Word) (s : State) : Out := s.writeRow dt m a fun _ => v

/-- LNK_QUEUE_CONFIG_WRITE (R390). -/
def execLnkQueueConfigWrite (dt : Nat) (m : Master) (a : Nat) (v : Word) (s : State) : Out := s.writeRow dt m a fun _ => v

/-- CMDQ_DOORBELL (R370). -/
def execCmdqDoorbell (dt : Nat) (m : Master) (v : Word) (s : State) : Out := s.writeRow dt m Reg.HB_LNK_CMDQ_PROD fun _ => v

/-- MBOX_SUBMIT (R382). -/
def execMboxSubmit (dt : Nat) (m : Master) (s : State) : Out := s.writeRow dt m Reg.HB_LNK_MBOX_CTL fun _ => 1

/-- STAGE_WRITE (R398). -/
def execStageWrite (dt : Nat) (m : Master) (off : Nat) (v : Word) (s : State) : Out :=
  s.writeRow dt m (0x210000 + off % 0x10000) fun _ => v

/-- A record is fetched from a domain's command ring: not while 64 commands are outstanding (R371), nor for a frozen domain. -/
def State.fetchable (s : State) (d : Nat) : Bool :=
  let a := Reg.HB_LNK_CMDQ_BASE_LO
  decide (d < 2) && s.ringSize d a != 0 && s.ringProd d a != s.ringCons d a && decide ((s.domCmds d).outstanding < 64) &&
    !s.isFrozen (.host d) && !s.domClosed d && s.boot.pwrFail.isNone && !s.romFail

/-- The next record of the ring enters the arbiter and CMDQ_CONS advances. -/
def recordFetch (d : Nat) (r : List Byte) (s : State) : Option State :=
  if !s.fetchable d then some s
  else if !recordClean r then none
  else
    let a := Reg.HB_LNK_CMDQ_BASE_LO
    some (submit (.ring d) r (s.setMreg (.host d) Reg.HB_LNK_CMDQ_CONS (lo32 ((s.ringCons d a + 1) % s.ringSize d a))))

/-- COMMAND_RECORD_FETCH (R370, R371). -/
def execCommandRecordFetch (dt d : Nat) (r : List Byte) (s : State) : Out := s.tryHb dt .reservedBytes (recordFetch d r)

/-- COMMAND_ARBITER_ENTRY (R351). -/
def execCommandArbiterEntry (dt : Nat) (o : CmdOrigin) (r : List Byte) (s : State) : Out :=
  s.tryHb dt .reservedBytes fun s => if recordClean r then some (submit o r s) else none

/-! ### Ethernet sessions (R379) -/

/-- The session's request at the front of the domain's inbox, where it is of a type and to be executed; else the state after it. -/
def State.sessionTake (s : State) (d type : Nat) : State × Option NetMsg :=
  match s.inboxTake d type with
  | none => (s, none)
  | some (m, s) =>
    let r := s.sessionNote d m
    (r.2, if r.1 then some m else none)

/-- A COMMAND is submitted. -/
def sessionCommand (d : Nat) (s : State) : Option State :=
  match s.sessionTake d 0x20 with
  | (s, none) => some s
  | (s, some m) => if recordClean m.body then some (submit (.session d m.mseq) m.body s) else none

/-- SESSION_COMMAND (R379). -/
def execSessionCommand (dt d : Nat) (s : State) : Out := s.tryHb dt .reservedBytes (sessionCommand d)

/-- The access of a READ or WRITE: its offset and word count, where it is well formed. -/
def accessOf (m : NetMsg) : Option (Nat × Nat) :=
  let off := beNat (bytesAt m.body 0 4)
  let n := beNat (bytesAt m.body 4 2)
  if off % 4 = 0 ∧ 1 ≤ n ∧ n ≤ 64 ∧ off + 4 * n ≤ 0x400000 then some (off, n) else none

/-- Read `n` words in ascending order; the first error ends the access. -/
def State.readWords (s : State) (m : Master) : (n a : Nat) → State × List Word × Bool
  | 0, _ => (s, [], false)
  | n + 1, a =>
    match s.busRead m a with
    | (s, _, true) => (s, [], true)
    | (s, w, false) =>
      let r := State.readWords s m n (a + 4)
      (r.1, w :: r.2.1, r.2.2)

/-- Write a list of words in ascending order; the first error ends the access. None where R11 leaves a word undefined. -/
def State.writeWords (s : State) (m : Master) : (a : Nat) → List Word → Option (State × Bool)
  | _, [] => some (s, false)
  | a, w :: t =>
    match s.busWrite m a w true with
    | none => none
    | some (s, true) => some (s, true)
    | some (s, false) => State.writeWords s m (a + 4) t

/-- The body of a READ_RESP or WRITE_RESP. -/
def accessReply (mseq status : Nat) (words : List Word) : List Byte :=
  beBytes 4 mseq ++ beBytes 1 status ++ [0, 0, 0] ++ words.flatMap fun w => beBytes 4 w.toNat

def sessionRead (d : Nat) (s : State) : State :=
  match s.sessionTake d 0x30 with
  | (s, none) => s
  | (s, some m) =>
    match accessOf m with
    | none => s.sessionAnswer d m.mseq 0x31 (accessReply m.mseq 2 [])
    | some (off, n) =>
      match s.readWords (.host d) n off with
      | (s, _, true) => s.sessionAnswer d m.mseq 0x31 (accessReply m.mseq 1 (List.replicate n allOnes))
      | (s, ws, false) => s.sessionAnswer d m.mseq 0x31 (accessReply m.mseq 0 ws)

/-- The words of a WRITE. -/
def writeData (m : NetMsg) (n : Nat) : List Word := (List.range n).map fun i => lo32 (beNat (bytesAt m.body (8 + 4 * i) 4))

def sessionWrite (d : Nat) (s : State) : Option State :=
  match s.sessionTake d 0x32 with
  | (s, none) => some s
  | (s, some m) =>
    match accessOf m with
    | none => some (s.sessionAnswer d m.mseq 0x33 (accessReply m.mseq 2 []))
    | some (off, n) =>
      if m.body.length ≠ 8 + 4 * n then some (s.sessionAnswer d m.mseq 0x33 (accessReply m.mseq 2 []))
      else (s.writeWords (.host d) off (writeData m n)).map fun r =>
        r.1.sessionAnswer d m.mseq 0x33 (accessReply m.mseq (if r.2 then 1 else 0) [])

/-- SESSION_READ (R379). -/
def execSessionRead (dt d : Nat) (s : State) : Out := s.afterHb dt (sessionRead d)

/-- SESSION_WRITE (R379). -/
def execSessionWrite (dt d : Nat) (s : State) : Out := s.tryHb dt (.reservedField 0) (sessionWrite d)

/-- The reserved bytes of an envelope that HB would take are not 0. -/
def State.envelopeDirty (s : State) (p src sport : Nat) (b : List Byte) : Bool :=
  bitOf (s.reg (Reg.HB_NET_CFG p)) 0 && decide (((s.ethPort p).tick s.now).count ≤ 20000) && (s.boundDomain p src sport).isSome &&
    (readEnvelope p b).isSome && leNat (bytesAt b 5 3) != 0

/-- ETH_DATAGRAM_RECEIVE (R375, R376). -/
def execEthDatagramReceive (dt p src sport : Nat) (b : List Byte) (s : State) : Out :=
  s.tryHb dt .reservedBytes fun s => if s.envelopeDirty p src sport b then none else some (ethReceive p src sport b s)

/-! ### SPI (R381) -/

/-- A well-formed SPI offset. -/
def spiOk (off : Nat) : Bool := off % 4 == 0 && decide (off < 0x400000)

def spiRead (off : Nat) (s : State) : State :=
  if !spiOk off then s.send (.spi none 0xE1)
  else
    let r := s.busRead (.host 7) off
    r.1.send (.spi (some r.2.1) (if r.2.2 then 0xE0 else 0))

def spiWrite (off : Nat) (v : Word) (s : State) : Option State :=
  if !spiOk off then some (s.send (.spi none 0xE1))
  else (s.busWrite (.host 7) off v true).map fun r => r.1.send (.spi none (if r.2 then 0xE0 else 0))

/-- SPI_NATIVE_READ (R381). -/
def execSpiNativeRead (dt off : Nat) (s : State) : Out := s.afterHb dt (spiRead off)

/-- SPI_NATIVE_WRITE (R381). -/
def execSpiNativeWrite (dt off : Nat) (v : Word) (s : State) : Out := s.tryHb dt (.reservedField off) (spiWrite off v)

/-! ### Journal and change log (R433, R434) -/

/-- JNL_CURSOR_HI_WRITE (R433). -/
def execJnlCursorHiWrite (dt : Nat) (m : Master) (v : Word) (s : State) : Out := s.writeRow dt m Reg.HB_JNL_CURSOR_HI fun _ => v

/-- JNL_CURSOR_LO_WRITE (R433). -/
def execJnlCursorLoWrite (dt : Nat) (m : Master) (v : Word) (s : State) : Out := s.writeRow dt m Reg.HB_JNL_CURSOR_LO fun _ => v

/-- JNL_ENTRY0_READ (R433). -/
def execJnlEntry0Read (dt : Nat) (m : Master) (s : State) : Out := s.readRow dt m (Reg.HB_JNL_ENTRY 0)

/-- JNL_ENTRY7_READ (R433). -/
def execJnlEntry7Read (dt : Nat) (m : Master) (s : State) : Out := s.readRow dt m (Reg.HB_JNL_ENTRY 7)

/-- CLG_CURSOR_HI_WRITE (R434). -/
def execClgCursorHiWrite (dt : Nat) (m : Master) (v : Word) (s : State) : Out := s.writeRow dt m Reg.HB_CLG_CURSOR_HI fun _ => v

/-- CLG_CURSOR_LO_WRITE (R434). -/
def execClgCursorLoWrite (dt : Nat) (m : Master) (v : Word) (s : State) : Out := s.writeRow dt m Reg.HB_CLG_CURSOR_LO fun _ => v

/-- CLG_ENTRY0_READ (R434). -/
def execClgEntry0Read (dt : Nat) (m : Master) (s : State) : Out := s.readRow dt m (Reg.HB_CLG_ENTRY 0)

/-- CLG_ENTRY31_READ (R434). -/
def execClgEntry31Read (dt : Nat) (m : Master) (s : State) : Out := s.readRow dt m (Reg.HB_CLG_ENTRY 31)

/-! ### DMA engines -/

/-- DMA_DOORBELL (R455). -/
def execDmaDoorbell (dt : Nat) (m : Master) (e : Nat) (v : Word) (s : State) : Out := s.writeRow dt m (Reg.HB_DMA_DBELL e) fun _ => v

/-- DMA_ABORT (R458). -/
def execDmaAbort (dt : Nat) (m : Master) (e : Nat) (v : Word) (s : State) : Out := s.writeRow dt m (Reg.HB_DMA_ABORT e) fun _ => v

/-- DMA_PROGRAM_FETCH (R444). -/
def execDmaProgramFetch (dt e : Nat) (data : List Byte) (s : State) : Out := s.tryHb dt .reservedBytes (dmaProgramFetch e data)

/-- DMA_MOVE (R448). -/
def execDmaMove (dt e : Nat) (data : List Byte) (s : State) : Out := s.tryHb dt (.reservedField 0) (dmaMove e data)

/-- DMA_LOOP (R449, R450). -/
def execDmaLoop (dt e : Nat) (s : State) : Out := s.afterHb dt (dmaLoop e)

/-- DMA_WAIT (R451). -/
def execDmaWait (dt e : Nat) (s : State) : Out := s.afterHb dt (dmaWait e)

/-- DMA_WAIT_SATISFIED (R451). -/
def execDmaWaitSatisfied (dt e : Nat) (s : State) : Out := s.afterHb dt (dmaWaitSatisfied e)

/-- DMA_WAIT_TIMEOUT (R451). -/
def execDmaWaitTimeout (dt e : Nat) (s : State) : Out := s.afterHb dt (dmaWaitTimeout e)

/-- DMA_SIGNAL (R451). -/
def execDmaSignal (dt e : Nat) (s : State) : Out := s.afterHb dt (dmaSignal e)

/-- DMA_CRCSTORE (R451). -/
def execDmaCrcstore (dt e : Nat) (s : State) : Out := s.tryHb dt (.reservedField 0) (dmaCrcstore e)

/-- DMA_END (R451, R456). -/
def execDmaEnd (dt e : Nat) (s : State) : Out := s.tryHb dt (.reservedField 0) (dmaEnd e)

/-- DMA_BUS_RETRY (R457). -/
def execDmaBusRetry (dt e : Nat) (ok : Bool) (s : State) : Out := s.afterHb dt (dmaBusRetry e ok)

/-! ### Check-value units, boot, hub cores -/

/-- CVU_GO (R470). -/
def execCvuGo (dt : Nat) (m : Master) (u : Nat) (s : State) : Out :=
  s.writeRow dt m (Reg.HB_CVU_CTL u) fun s => s.peek m (Reg.HB_CVU_CTL u) ||| 1

/-- CVU_STOP (R470). -/
def execCvuStop (dt : Nat) (m : Master) (u : Nat) (s : State) : Out :=
  s.writeRow dt m (Reg.HB_CVU_CTL u) fun s => s.peek m (Reg.HB_CVU_CTL u) ||| 2

/-- CVU_PRESET_LOAD (R465). -/
def execCvuPresetLoad (dt : Nat) (m : Master) (u p : Nat) (s : State) : Out :=
  s.writeRow dt m (Reg.HB_CVU_CTL u) fun s => putFld (s.peek m (Reg.HB_CVU_CTL u)) 4 2 p

/-- RECOVERY_INSTALL (R528). -/
def execRecoveryInstall (dt : Nat) (m : Master) (s : State) : Out :=
  s.writeRow dt m Reg.HB_BOOT_RCV_CTL fun s => s.peek m Reg.HB_BOOT_RCV_CTL ||| 0x20

/-- An access of a hub core outside the regions that its boot configuration allows: in the split configuration a violation of the
core (R358, R546); in the paired configuration a bus error to the core alone. -/
def hubCoreAccess (c a : Nat) (s : State) : State := s.when s.boot.split (·.violate (.core c) .coreRange a)

/-- HUB_CORE_ACCESS (R358). -/
def execHubCoreAccess (dt core addr : Nat) (s : State) : Out := s.afterHb dt (hubCoreAccess core addr)

end Sys2Proof.Machine
end

