-- ==== Sys2Proof/Machine/Dispatch.lean ====
section
/-!
DEFINITION. The meaning of every command: one arm per row of the operation table.
-/
namespace Sys2Proof.Machine

def exec (i : Instr) (s : State) : Host.Outcome State Fault Refusal :=
  match i with
  | .registerWrite dt m a v => Sys2Proof.Machine.execRegisterWrite dt m a v s
  | .linkFrameReceived dt link toHb frame crc => Sys2Proof.Machine.execLinkFrameReceived dt link toHb frame crc s
  | .idleFrameSend dt d => Sys2Proof.Machine.execIdleFrameSend dt d s
  | .stampFloorSend dt d b => Sys2Proof.Machine.execStampFloorSend dt d b s
  | .fdWatermarkSend dt => Sys2Proof.Machine.execFdWatermarkSend dt s
  | .watermarkReceived dt src stamp => Sys2Proof.Machine.execWatermarkReceived dt src stamp s
  | .sourceEventReceived dt src ev => Sys2Proof.Machine.execSourceEventReceived dt src ev s
  | .eventRelease dt => Sys2Proof.Machine.execEventRelease dt s
  | .dieLinkSilence dt d => Sys2Proof.Machine.execDieLinkSilence dt d s
  | .dieLinkResume dt d => Sys2Proof.Machine.execDieLinkResume dt d s
  | .replayTimeout dt d => Sys2Proof.Machine.execReplayTimeout dt d s
  | .isoChannelSilence dt ch => Sys2Proof.Machine.execIsoChannelSilence dt ch s
  | .crossingFault dt t => Sys2Proof.Machine.execCrossingFault dt t s
  | .cycleBoundary dt => Sys2Proof.Machine.execCycleBoundary dt s
  | .horizonMarkSend dt => Sys2Proof.Machine.execHorizonMarkSend dt s
  | .ptpMessageReceived dt msg => Sys2Proof.Machine.execPtpMessageReceived dt msg s
  | .ppsEdge dt falling => Sys2Proof.Machine.execPpsEdge dt falling s
  | .ppsEdgeMissing dt => Sys2Proof.Machine.execPpsEdgeMissing dt s
  | .tcHoldoverEntry dt => Sys2Proof.Machine.execTcHoldoverEntry dt s
  | .tcStepRequest dt m => Sys2Proof.Machine.execTcStepRequest dt m s
  | .tcStepApply dt => Sys2Proof.Machine.execTcStepApply dt s
  | .tcStepMessage dt => Sys2Proof.Machine.execTcStepMessage dt s
  | .tcSlewMessage dt err => Sys2Proof.Machine.execTcSlewMessage dt err s
  | .fdSkewDetect dt skew => Sys2Proof.Machine.execFdSkewDetect dt skew s
  | .fdSkewRecover dt skew => Sys2Proof.Machine.execFdSkewRecover dt skew s
  | .tcNowLoRead dt m => Sys2Proof.Machine.execTcNowLoRead dt m s
  | .ofeLightOn dt m d => Sys2Proof.Machine.execOfeLightOn dt m d s
  | .ofeLightOff dt m d => Sys2Proof.Machine.execOfeLightOff dt m d s
  | .ofeRestart dt m d => Sys2Proof.Machine.execOfeRestart dt m d s
  | .laserWindowReached dt d => Sys2Proof.Machine.execLaserWindowReached dt d s
  | .laserOkRise dt d => Sys2Proof.Machine.execLaserOkRise dt d s
  | .laserOkTimeout dt d => Sys2Proof.Machine.execLaserOkTimeout dt d s
  | .ampEnable dt d => Sys2Proof.Machine.execAmpEnable dt d s
  | .ampCheckEnd dt d held => Sys2Proof.Machine.execAmpCheckEnd dt d held s
  | .probeStart dt d => Sys2Proof.Machine.execProbeStart dt d s
  | .laserOffDelay dt d => Sys2Proof.Machine.execLaserOffDelay dt d s
  | .interlockOpen dt d => Sys2Proof.Machine.execInterlockOpen dt d s
  | .interlockClosedHold dt d => Sys2Proof.Machine.execInterlockClosedHold dt d s
  | .ampFault dt d => Sys2Proof.Machine.execAmpFault dt d s
  | .ampRetry dt d => Sys2Proof.Machine.execAmpRetry dt d s
  | .laserOkLoss dt d => Sys2Proof.Machine.execLaserOkLoss dt d s
  | .rxOkFall dt d => Sys2Proof.Machine.execRxOkFall dt d s
  | .thmSample dt d vTop vMid imon pins => Sys2Proof.Machine.execThmSample dt d vTop vMid imon pins s
  | .tecLoopStep dt d => Sys2Proof.Machine.execTecLoopStep dt d s
  | .tecOvercurrent dt d => Sys2Proof.Machine.execTecOvercurrent dt d s
  | .probeWindowUnlocked dt d => Sys2Proof.Machine.execProbeWindowUnlocked dt d s
  | .tecSetpointWrite dt m d v nvOk => Sys2Proof.Machine.execTecSetpointWrite dt m d v nvOk s
  | .tecLimitsWrite dt m d v nvOk => Sys2Proof.Machine.execTecLimitsWrite dt m d v nvOk s
  | .pwrFailTaken x => Sys2Proof.Machine.execPwrFailTaken x s
  | .powerLossEntryDurable dt => Sys2Proof.Machine.execPowerLossEntryDurable dt s
  | .psyApplyGo dt m d => Sys2Proof.Machine.execPsyApplyGo dt m d s
  | .periodStart dt d => Sys2Proof.Machine.execPeriodStart dt d s
  | .toneFiring dt d k => Sys2Proof.Machine.execToneFiring dt d k s
  | .tailWindowEnd dt d k adc guard => Sys2Proof.Machine.execTailWindowEnd dt d k adc guard s
  | .sliceReceived dt d lane slice => Sys2Proof.Machine.execSliceReceived dt d lane slice s
  | .spareLoadComplete dt d b => Sys2Proof.Machine.execSpareLoadComplete dt d b s
  | .lanePeriodEnd dt d lane => Sys2Proof.Machine.execLanePeriodEnd dt d lane s
  | .edgeRecordReceived dt d lane upper => Sys2Proof.Machine.execEdgeRecordReceived dt d lane upper s
  | .dmdReacqRequest dt m d => Sys2Proof.Machine.execDmdReacqRequest dt m d s
  | .refWindowEnd dt d k j => Sys2Proof.Machine.execRefWindowEnd dt d k j s
  | .reacqComplete dt d => Sys2Proof.Machine.execReacqComplete dt d s
  | .reacqForce dt d => Sys2Proof.Machine.execReacqForce dt d s
  | .dmdProbeLoRead dt m d => Sys2Proof.Machine.execDmdProbeLoRead dt m d s
  | .dmdEpochLoRead dt m d => Sys2Proof.Machine.execDmdEpochLoRead dt m d s
  | .periodStampLoRead dt m d => Sys2Proof.Machine.execPeriodStampLoRead dt m d s
  | .arbiterFault dt d b => Sys2Proof.Machine.execArbiterFault dt d b s
  | .memScrub dt d b result => Sys2Proof.Machine.execMemScrub dt d b result s
  | .blockPllUnlock dt d b => Sys2Proof.Machine.execBlockPllUnlock dt d b s
  | .stampFloorMissing dt d b => Sys2Proof.Machine.execStampFloorMissing dt d b s
  | .blockPowerDown dt d b => Sys2Proof.Machine.execBlockPowerDown dt d b s
  | .quarterHeartbeatLoss dt d q => Sys2Proof.Machine.execQuarterHeartbeatLoss dt d q s
  | .dieStatusFrame dt d => Sys2Proof.Machine.execDieStatusFrame dt d s
  | .lbqReturnLane dt m d lane => Sys2Proof.Machine.execLbqReturnLane dt m d lane s
  | .laneReturnTestEnd dt d lane => Sys2Proof.Machine.execLaneReturnTestEnd dt d lane s
  | .lbqReturnBlock dt m d b => Sys2Proof.Machine.execLbqReturnBlock dt m d b s
  | .lbqReturnQuarter dt m d q => Sys2Proof.Machine.execLbqReturnQuarter dt m d q s
  | .blockReturnComplete dt d b pass => Sys2Proof.Machine.execBlockReturnComplete dt d b pass s
  | .lbqInject dt m d level index => Sys2Proof.Machine.execLbqInject dt m d level index s
  | .detectionSample dt d e => Sys2Proof.Machine.execDetectionSample dt d e s
  | .sensorHalt dt d e => Sys2Proof.Machine.execSensorHalt dt d e s
  | .standTimeout dt d e => Sys2Proof.Machine.execStandTimeout dt d e s
  | .wheelEventEmit dt d lane => Sys2Proof.Machine.execWheelEventEmit dt d lane s
  | .wsdLast0Read dt m d => Sys2Proof.Machine.execWsdLast0Read dt m d s
  | .releasedEventReceived dt => Sys2Proof.Machine.execReleasedEventReceived dt s
  | .horizonMarkReceived dt => Sys2Proof.Machine.execHorizonMarkReceived dt s
  | .cycleMarkReceived dt => Sys2Proof.Machine.execCycleMarkReceived dt s
  | .spanRestartMarkReceived dt => Sys2Proof.Machine.execSpanRestartMarkReceived dt s
  | .legacyDiscrepancyTimeout dt ch lh => Sys2Proof.Machine.execLegacyDiscrepancyTimeout dt ch lh s
  | .headUnresolved dt ch cp => Sys2Proof.Machine.execHeadUnresolved dt ch cp s
  | .fusedDisagree dt ch cp => Sys2Proof.Machine.execFusedDisagree dt ch cp s
  | .headBackInService dt ch cp => Sys2Proof.Machine.execHeadBackInService dt ch cp s
  | .directResetTimeout dt sec => Sys2Proof.Machine.execDirectResetTimeout dt sec s
  | .profileRecord dt p => Sys2Proof.Machine.execProfileRecord dt p s
  | .acwBlockReady dt w => Sys2Proof.Machine.execAcwBlockReady dt w s
  | .acwEnable dt m w => Sys2Proof.Machine.execAcwEnable dt m w s
  | .acwDisable dt m w => Sys2Proof.Machine.execAcwDisable dt m w s
  | .pairComparatorMismatch dt pr cause => Sys2Proof.Machine.execPairComparatorMismatch dt pr cause s
  | .pairSelftestInject dt pr reports railsOk => Sys2Proof.Machine.execPairSelftestInject dt pr reports railsOk s
  | .verdictDeadline dt pr => Sys2Proof.Machine.execVerdictDeadline dt pr s
  | .verdictSend dt standby => Sys2Proof.Machine.execVerdictSend dt standby s
  | .verdictSegmentReceived dt => Sys2Proof.Machine.execVerdictSegmentReceived dt s
  | .combinationCompare dt => Sys2Proof.Machine.execCombinationCompare dt s
  | .verdictTimeout dt ch => Sys2Proof.Machine.execVerdictTimeout dt ch s
  | .verdictLoss dt => Sys2Proof.Machine.execVerdictLoss dt s
  | .safeStopCauseClear dt code => Sys2Proof.Machine.execSafeStopCauseClear dt code s
  | .ledgerFault dt => Sys2Proof.Machine.execLedgerFault dt s
  | .ledgerScrub dt result => Sys2Proof.Machine.execLedgerScrub dt result s
  | .pairReturn dt m pr => Sys2Proof.Machine.execPairReturn dt m pr s
  | .pairReturnSelftestDone dt pr pass => Sys2Proof.Machine.execPairReturnSelftestDone dt pr pass s
  | .pairReturnComplete dt pr => Sys2Proof.Machine.execPairReturnComplete dt pr s
  | .pairInject dt m pr => Sys2Proof.Machine.execPairInject dt m pr s
  | .pairSwap dt m => Sys2Proof.Machine.execPairSwap dt m s
  | .debugHalt dt pr => Sys2Proof.Machine.execDebugHalt dt pr s
  | .telegramHeaderReceived dt => Sys2Proof.Machine.execTelegramHeaderReceived dt s
  | .channelSettle dt k runs => Sys2Proof.Machine.execChannelSettle dt k runs s
  | .legacyEdge dt k runs => Sys2Proof.Machine.execLegacyEdge dt k runs s
  | .legacyEventEmit dt lh => Sys2Proof.Machine.execLegacyEventEmit dt lh s
  | .channelDwellFault dt k => Sys2Proof.Machine.execChannelDwellFault dt k s
  | .channelWindowFault dt k low => Sys2Proof.Machine.execChannelWindowFault dt k low s
  | .channelFaultEnd dt k code => Sys2Proof.Machine.execChannelFaultEnd dt k code s
  | .wscLatchClear dt m hi mask => Sys2Proof.Machine.execWscLatchClear dt m hi mask s
  | .wscStampLoRead dt m => Sys2Proof.Machine.execWscStampLoRead dt m s
  | .supplySample dt vf24 vf5 => Sys2Proof.Machine.execSupplySample dt vf24 vf5 s
  | .fieldSupplyFault dt => Sys2Proof.Machine.execFieldSupplyFault dt s
  | .adcFrame dt scan => Sys2Proof.Machine.execAdcFrame dt scan s
  | .adcRequest dt m v => Sys2Proof.Machine.execAdcRequest dt m v s
  | .adcRequestDone dt codes => Sys2Proof.Machine.execAdcRequestDone dt codes s
  | .fsiStateChange dt k runs => Sys2Proof.Machine.execFsiStateChange dt k runs s
  | .fsiFault dt k => Sys2Proof.Machine.execFsiFault dt k s
  | .outputReadback dt k volts current => Sys2Proof.Machine.execOutputReadback dt k volts current s
  | .outputSwitchTimeout dt k => Sys2Proof.Machine.execOutputSwitchTimeout dt k s
  | .openLoadTimeout dt k => Sys2Proof.Machine.execOpenLoadTimeout dt k s
  | .groupCheckStart dt => Sys2Proof.Machine.execGroupCheckStart dt s
  | .groupCheckDone dt g volts => Sys2Proof.Machine.execGroupCheckDone dt g volts s
  | .voFaultClear dt m k => Sys2Proof.Machine.execVoFaultClear dt m k s
  | .voGroupRetest dt m g => Sys2Proof.Machine.execVoGroupRetest dt m g s
  | .groupRetestDone dt g volts => Sys2Proof.Machine.execGroupRetestDone dt g volts s
  | .offPulseSlotStart dt k => Sys2Proof.Machine.execOffPulseSlotStart dt k s
  | .offPulseRaise dt k => Sys2Proof.Machine.execOffPulseRaise dt k s
  | .offPulseEnd dt k => Sys2Proof.Machine.execOffPulseEnd dt k s
  | .brakeTestStart dt m c => Sys2Proof.Machine.execBrakeTestStart dt m c s
  | .brakeFeedbackChange dt c runs => Sys2Proof.Machine.execBrakeFeedbackChange dt c runs s
  | .brakeTestApplyTimeout dt c => Sys2Proof.Machine.execBrakeTestApplyTimeout dt c s
  | .brakeTestHoldEnd dt c => Sys2Proof.Machine.execBrakeTestHoldEnd dt c s
  | .brakeTestReleaseTimeout dt c => Sys2Proof.Machine.execBrakeTestReleaseTimeout dt c s
  | .brakeFeedbackTimeout dt c => Sys2Proof.Machine.execBrakeFeedbackTimeout dt c s
  | .resetInputPattern dt n no nc => Sys2Proof.Machine.execResetInputPattern dt n no nc s
  | .resetInputStuck dt n => Sys2Proof.Machine.execResetInputStuck dt n s
  | .resetInputFault dt n => Sys2Proof.Machine.execResetInputFault dt n s
  | .rstStartLoRead dt m => Sys2Proof.Machine.execRstStartLoRead dt m s
  | .frwSpiRead dt a => Sys2Proof.Machine.execFrwSpiRead dt a s
  | .frwLatchClr dt v => Sys2Proof.Machine.execFrwLatchClr dt v s
  | .frwCntClr dt v => Sys2Proof.Machine.execFrwCntClr dt v s
  | .frwRstSel dt v => Sys2Proof.Machine.execFrwRstSel dt v s
  | .frwRstKey dt v => Sys2Proof.Machine.execFrwRstKey dt v s
  | .frwHeadSelWrite dt v => Sys2Proof.Machine.execFrwHeadSelWrite dt v s
  | .frwSecSelWrite dt v => Sys2Proof.Machine.execFrwSecSelWrite dt v s
  | .frwCountLoRead dt => Sys2Proof.Machine.execFrwCountLoRead dt s
  | .frwCountHiRead dt => Sys2Proof.Machine.execFrwCountHiRead dt s
  | .frwTsLoRead dt => Sys2Proof.Machine.execFrwTsLoRead dt s
  | .frwTsHiRead dt => Sys2Proof.Machine.execFrwTsHiRead dt s
  | .commandArbiterEntry dt origin record => Sys2Proof.Machine.execCommandArbiterEntry dt origin record s
  | .leaseAcquire dt c => Sys2Proof.Machine.execLeaseAcquire dt c s
  | .leaseRelease dt c => Sys2Proof.Machine.execLeaseRelease dt c s
  | .leaseRevoke dt c => Sys2Proof.Machine.execLeaseRevoke dt c s
  | .leaseRenew dt m v => Sys2Proof.Machine.execLeaseRenew dt m v s
  | .leaseGrace dt => Sys2Proof.Machine.execLeaseGrace dt s
  | .leaseLapse dt => Sys2Proof.Machine.execLeaseLapse dt s
  | .secResetPrep dt c => Sys2Proof.Machine.execSecResetPrep dt c s
  | .secResetDirect dt c => Sys2Proof.Machine.execSecResetDirect dt c s
  | .secBlock dt c => Sys2Proof.Machine.execSecBlock dt c s
  | .secUnblock dt c => Sys2Proof.Machine.execSecUnblock dt c s
  | .brakeTest dt c => Sys2Proof.Machine.execBrakeTest dt c s
  | .safeStop dt c => Sys2Proof.Machine.execSafeStop dt c s
  | .maintEnter dt c => Sys2Proof.Machine.execMaintEnter dt c s
  | .maintLeave dt c => Sys2Proof.Machine.execMaintLeave dt c s
  | .unfreeze dt c => Sys2Proof.Machine.execUnfreeze dt c s
  | .passwordSet dt c => Sys2Proof.Machine.execPasswordSet dt c s
  | .passwordLockoutEnd dt safety => Sys2Proof.Machine.execPasswordLockoutEnd dt safety s
  | .lockoutTimeSave dt => Sys2Proof.Machine.execLockoutTimeSave dt s
  | .ledgerSelftest dt c => Sys2Proof.Machine.execLedgerSelftest dt c s
  | .eventEntryDeliver dt dom => Sys2Proof.Machine.execEventEntryDeliver dt dom s
  | .eventTelegramSend dt dom => Sys2Proof.Machine.execEventTelegramSend dt dom s
  | .snapshotTake dt m => Sys2Proof.Machine.execSnapshotTake dt m s
  | .snapshotFill dt dom => Sys2Proof.Machine.execSnapshotFill dt dom s
  | .evrQueueConfigWrite dt m a v => Sys2Proof.Machine.execEvrQueueConfigWrite dt m a v s
  | .cmdqDoorbell dt m v => Sys2Proof.Machine.execCmdqDoorbell dt m v s
  | .commandRecordFetch dt dom record => Sys2Proof.Machine.execCommandRecordFetch dt dom record s
  | .responseDeliver dt dom => Sys2Proof.Machine.execResponseDeliver dt dom s
  | .lnkQueueConfigWrite dt m a v => Sys2Proof.Machine.execLnkQueueConfigWrite dt m a v s
  | .pciePortReset dt p => Sys2Proof.Machine.execPciePortReset dt p s
  | .vitalTelegramForm dt dom => Sys2Proof.Machine.execVitalTelegramForm dt dom s
  | .codeHReceived dt dom => Sys2Proof.Machine.execCodeHReceived dt dom s
  | .telegramDeadline dt dom => Sys2Proof.Machine.execTelegramDeadline dt dom s
  | .ethDatagramReceive dt port src sport payload => Sys2Proof.Machine.execEthDatagramReceive dt port src sport payload s
  | .sessionOpen dt dom => Sys2Proof.Machine.execSessionOpen dt dom s
  | .sessionClose dt dom => Sys2Proof.Machine.execSessionClose dt dom s
  | .sessionTimeout dt dom => Sys2Proof.Machine.execSessionTimeout dt dom s
  | .keepaliveSend dt dom => Sys2Proof.Machine.execKeepaliveSend dt dom s
  | .sessionCommand dt dom => Sys2Proof.Machine.execSessionCommand dt dom s
  | .sessionRead dt dom => Sys2Proof.Machine.execSessionRead dt dom s
  | .sessionWrite dt dom => Sys2Proof.Machine.execSessionWrite dt dom s
  | .ethLinkChange dt p link => Sys2Proof.Machine.execEthLinkChange dt p link s
  | .icmpEcho dt p payload => Sys2Proof.Machine.execIcmpEcho dt p payload s
  | .neighbourRequest dt p addr => Sys2Proof.Machine.execNeighbourRequest dt p addr s
  | .spiNativeRead dt off => Sys2Proof.Machine.execSpiNativeRead dt off s
  | .spiNativeWrite dt off v => Sys2Proof.Machine.execSpiNativeWrite dt off v s
  | .mboxSubmit dt m => Sys2Proof.Machine.execMboxSubmit dt m s
  | .stageWrite dt m off v => Sys2Proof.Machine.execStageWrite dt m off v s
  | .stagingTimeout dt => Sys2Proof.Machine.execStagingTimeout dt s
  | .structOpen dt c => Sys2Proof.Machine.execStructOpen dt c s
  | .structVerify dt c => Sys2Proof.Machine.execStructVerify dt c s
  | .verifyComplete x => Sys2Proof.Machine.execVerifyComplete x s
  | .structCommit dt c => Sys2Proof.Machine.execStructCommit dt c s
  | .structFrameReceived dt target => Sys2Proof.Machine.execStructFrameReceived dt target s
  | .structFrameAck dt target => Sys2Proof.Machine.execStructFrameAck dt target s
  | .commitDistribTimeout dt => Sys2Proof.Machine.execCommitDistribTimeout dt s
  | .commitNvWritesDone x => Sys2Proof.Machine.execCommitNvWritesDone x s
  | .commitEffect x => Sys2Proof.Machine.execCommitEffect x s
  | .structAbort dt c => Sys2Proof.Machine.execStructAbort dt c s
  | .structPwdSet dt c => Sys2Proof.Machine.execStructPwdSet dt c s
  | .wpTokenAdd dt => Sys2Proof.Machine.execWpTokenAdd dt s
  | .calBankWriteDone dt => Sys2Proof.Machine.execCalBankWriteDone dt s
  | .jnlCursorHiWrite dt m v => Sys2Proof.Machine.execJnlCursorHiWrite dt m v s
  | .jnlCursorLoWrite dt m v => Sys2Proof.Machine.execJnlCursorLoWrite dt m v s
  | .jnlEntry0Read dt m => Sys2Proof.Machine.execJnlEntry0Read dt m s
  | .jnlEntry7Read dt m => Sys2Proof.Machine.execJnlEntry7Read dt m s
  | .clgCursorHiWrite dt m v => Sys2Proof.Machine.execClgCursorHiWrite dt m v s
  | .clgCursorLoWrite dt m v => Sys2Proof.Machine.execClgCursorLoWrite dt m v s
  | .clgEntry0Read dt m => Sys2Proof.Machine.execClgEntry0Read dt m s
  | .clgEntry31Read dt m => Sys2Proof.Machine.execClgEntry31Read dt m s
  | .logAck dt c => Sys2Proof.Machine.execLogAck dt c s
  | .dmaDoorbell dt m e v => Sys2Proof.Machine.execDmaDoorbell dt m e v s
  | .dmaChannelStart dt e => Sys2Proof.Machine.execDmaChannelStart dt e s
  | .dmaProgramFetch dt e data => Sys2Proof.Machine.execDmaProgramFetch dt e data s
  | .dmaMove dt e data => Sys2Proof.Machine.execDmaMove dt e data s
  | .dmaLoop dt e => Sys2Proof.Machine.execDmaLoop dt e s
  | .dmaWait dt e => Sys2Proof.Machine.execDmaWait dt e s
  | .dmaWaitSatisfied dt e => Sys2Proof.Machine.execDmaWaitSatisfied dt e s
  | .dmaWaitTimeout dt e => Sys2Proof.Machine.execDmaWaitTimeout dt e s
  | .dmaSignal dt e => Sys2Proof.Machine.execDmaSignal dt e s
  | .dmaCrcstore dt e => Sys2Proof.Machine.execDmaCrcstore dt e s
  | .dmaEnd dt e => Sys2Proof.Machine.execDmaEnd dt e s
  | .dmaBusRetry dt e ok => Sys2Proof.Machine.execDmaBusRetry dt e ok s
  | .dmaAbort dt m e v => Sys2Proof.Machine.execDmaAbort dt m e v s
  | .cvuGo dt m u => Sys2Proof.Machine.execCvuGo dt m u s
  | .cvuStop dt m u => Sys2Proof.Machine.execCvuStop dt m u s
  | .cvuPresetLoad dt m u p => Sys2Proof.Machine.execCvuPresetLoad dt m u p s
  | .cvuPeriodicStart dt u => Sys2Proof.Machine.execCvuPeriodicStart dt u s
  | .cvuPassEnd dt u faults => Sys2Proof.Machine.execCvuPassEnd dt u faults s
  | .cvuSnoopRecord dt u record check recvOk => Sys2Proof.Machine.execCvuSnoopRecord dt u record check recvOk s
  | .calRoundStart dt d => Sys2Proof.Machine.execCalRoundStart dt d s
  | .calPhaseAEnd dt d => Sys2Proof.Machine.execCalPhaseAEnd dt d s
  | .calRoundEnd dt d r => Sys2Proof.Machine.execCalRoundEnd dt d r s
  | .calRoundAbandon dt d => Sys2Proof.Machine.execCalRoundAbandon dt d s
  | .calRampEnd dt d => Sys2Proof.Machine.execCalRampEnd dt d s
  | .calParamWrite dt m d off v => Sys2Proof.Machine.execCalParamWrite dt m d off v s
  | .calStore dt c => Sys2Proof.Machine.execCalStore dt c s
  | .cmpCalHoldStart dt => Sys2Proof.Machine.execCmpCalHoldStart dt s
  | .cmpCalRetry dt => Sys2Proof.Machine.execCmpCalRetry dt s
  | .cmpCalGuardAbort dt code => Sys2Proof.Machine.execCmpCalGuardAbort dt code s
  | .cmpCalHoldEnd dt level => Sys2Proof.Machine.execCmpCalHoldEnd dt level s
  | .trimReportReceived dt => Sys2Proof.Machine.execTrimReportReceived dt s
  | .trimSetWrite dt => Sys2Proof.Machine.execTrimSetWrite dt s
  | .panelFrameStart dt => Sys2Proof.Machine.execPanelFrameStart dt s
  | .panelRowSlot dt sense => Sys2Proof.Machine.execPanelRowSlot dt sense s
  | .panelNtcRead dt v => Sys2Proof.Machine.execPanelNtcRead dt v s
  | .chainFrame dt => Sys2Proof.Machine.execChainFrame dt s
  | .powerOnReset dt => Sys2Proof.Machine.execPowerOnReset dt s
  | .pwrFailReset dt => Sys2Proof.Machine.execPwrFailReset dt s
  | .pwrFailRelease x => Sys2Proof.Machine.execPwrFailRelease x s
  | .fdPowerOn x => Sys2Proof.Machine.execFdPowerOn x s
  | .fdBrownout x => Sys2Proof.Machine.execFdBrownout x s
  | .bootRomStart dt faults => Sys2Proof.Machine.execBootRomStart dt faults s
  | .firmwareVerified dt => Sys2Proof.Machine.execFirmwareVerified dt s
  | .bootWatchdog dt => Sys2Proof.Machine.execBootWatchdog dt s
  | .recoveryInstall dt m => Sys2Proof.Machine.execRecoveryInstall dt m s
  | .startHandshake dt => Sys2Proof.Machine.execStartHandshake dt s
  | .handshakeRetry dt => Sys2Proof.Machine.execHandshakeRetry dt s
  | .structureLoad x => Sys2Proof.Machine.execStructureLoad x s
  | .bootComplete dt => Sys2Proof.Machine.execBootComplete dt s
  | .bootRefTimeout dt => Sys2Proof.Machine.execBootRefTimeout dt s
  | .jtagExpiry dt => Sys2Proof.Machine.execJtagExpiry dt s
  | .deviceReset dt c => Sys2Proof.Machine.execDeviceReset dt c s
  | .fdReset dt c => Sys2Proof.Machine.execFdReset dt c s
  | .fwInstall dt c => Sys2Proof.Machine.execFwInstall dt c s
  | .keyProgram dt c => Sys2Proof.Machine.execKeyProgram dt c s
  | .keyRevoke dt c => Sys2Proof.Machine.execKeyRevoke dt c s
  | .settingsSet dt c => Sys2Proof.Machine.execSettingsSet dt c s
  | .watchEnter dt c => Sys2Proof.Machine.execWatchEnter dt c s
  | .watchLeave dt c => Sys2Proof.Machine.execWatchLeave dt c s
  | .wakeRequestReceived dt => Sys2Proof.Machine.execWakeRequestReceived dt s
  | .registerRead dt m a => Sys2Proof.Machine.execRegisterRead dt m a s
  | .porstNAsserted x => Sys2Proof.Machine.execPorstNAsserted x s
  | .dieExclusionTimeout dt d => Sys2Proof.Machine.execDieExclusionTimeout dt d s
  | .fdInternalFault dt => Sys2Proof.Machine.execFdInternalFault dt s
  | .pairUncorrectableRead dt pr => Sys2Proof.Machine.execPairUncorrectableRead dt pr s
  | .quarterParityFault dt d q => Sys2Proof.Machine.execQuarterParityFault dt d q s
  | .brakeFeedbackFault dt c => Sys2Proof.Machine.execBrakeFeedbackFault dt c s
  | .resetInputFaultRelease dt n => Sys2Proof.Machine.execResetInputFaultRelease dt n s
  | .pcieLinkUp dt p speed width => Sys2Proof.Machine.execPcieLinkUp dt p speed width s
  | .ptpDelayReqSend dt => Sys2Proof.Machine.execPtpDelayReqSend dt s
  | .hubCoreAccess dt core addr => Sys2Proof.Machine.execHubCoreAccess dt core addr s

end Sys2Proof.Machine
end

