-- ==== Sys2Proof/Safety.lean ====
section
/-!
DEFINITION. The terms the statements use: the parts of the state, what a command leaves unchanged, and the canonical form of the
data of the state.
-/
namespace Sys2Proof.Machine

/-- The parts of the state. `time` is powered time with the town clock and its copies, `events` what raising a source writes beside a
domain's pending bits, `commands` what waits for the arbiter and the responses, `freeze` the frozen masters with their records,
`store` the NV store's records, journal, change log and banks, `trims` the comparator trims on their way to a bank. -/
inductive Part where
  | time | dev | regs | copies | boot | fdUp | ofe | psy | dmd | lbq | sensors | cal | trims | fdin | outs | mrg | saf | fds | str
  | tpr | acw | frw | links | dma | cvu | panel | mem | lease | freeze | passwords | commands | events | sent | snaps | store
  | pending | free
deriving DecidableEq, Repr

/-- A part has the same contents in two states. -/
def Part.same (s t : State) : Part → Prop
  | .time => t.now = s.now ∧ t.tc = s.tc
  | .dev => t.dev = s.dev
  | .regs => t.regs = s.regs
  | .copies => t.mregs = s.mregs
  | .boot => t.boot = s.boot
  | .fdUp => t.fdUp = s.fdUp
  | .ofe => t.ofe = s.ofe
  | .psy => t.psy = s.psy
  | .dmd => t.dmd = s.dmd
  | .lbq => t.lbq = s.lbq
  | .sensors => t.sensors = s.sensors
  | .cal => t.cal = s.cal
  | .trims => t.hbTrims = s.hbTrims ∧ t.trimReports = s.trimReports ∧ t.trimSince = s.trimSince
  | .fdin => t.fdin = s.fdin
  | .outs => t.outs = s.outs
  | .mrg => t.mrg = s.mrg
  | .saf => t.saf = s.saf
  | .fds => t.fds = s.fds
  | .str => t.str = s.str
  | .tpr => t.tpr = s.tpr
  | .acw => t.acw = s.acw ∧ t.acwq = s.acwq
  | .frw => t.frw = s.frw
  | .links => t.links = s.links
  | .dma => t.dma = s.dma
  | .cvu => t.cvu = s.cvu
  | .panel => t.panel = s.panel
  | .mem => t.mem = s.mem
  | .lease => t.lease = s.lease
  | .freeze => t.frozen = s.frozen ∧ t.frzRecs = s.frzRecs ∧ t.frzOver = s.frzOver
  | .passwords => t.maintPwd = s.maintPwd ∧ t.safetyPwd = s.safetyPwd
  | .commands => t.queue = s.queue ∧ t.cmds = s.cmds ∧ t.responses = s.responses
  | .events => t.raised = s.raised ∧ t.due = s.due ∧ t.evOver = s.evOver ∧ t.merge = s.merge
  | .sent => t.sent = s.sent
  | .snaps => t.snaps = s.snaps
  | .store => t.wp = s.wp ∧ t.journal = s.journal ∧ t.jseq = s.jseq ∧ t.jcur = s.jcur ∧ t.clog = s.clog ∧ t.clgLast = s.clgLast ∧
      t.clgFirst = s.clgFirst ∧ t.clgAnchor = s.clgAnchor ∧ t.clgCur = s.clgCur ∧ t.bankA = s.bankA ∧ t.bankB = s.bankB ∧
      t.bankWriting = s.bankWriting ∧ t.bankWaiting = s.bankWaiting ∧ t.tokensAt = s.tokensAt
  | .pending => t.pending = s.pending
  | .free => t.freeCount = s.freeCount

/-- The only parts that differ between two states are listed. -/
structure OnlyParts (ps : List Part) (s t : State) : Prop where
  same : ∀ p, p ∉ ps → p.same s t

/-- What a command changes: of the parts at most the listed ones beside registers and copies, of the registers at most the listed
ones, and of the masters' copies at most the pending bits of events, which raising a source sets (R363). -/
structure Changes (ps : List Part) (regs : List Nat) (s t : State) : Prop where
  parts : OnlyParts (.regs :: .copies :: ps) s t
  regs : ∀ a, a ∉ regs → t.reg a = s.reg a
  copies : ∀ m a, a < 2 ^ 32 → (∀ i, i < 32 → a ≠ Reg.HB_EVR_PEND i) → t.mreg m a = s.mreg m a

/-- A master's read of the word at a window offset reaches a listed register. -/
def State.mayRead (s : State) (m : Master) (a : Nat) : Bool :=
  match s.meets m a with
  | .register _ _ _ _ => !s.isFrozen m
  | _ => false

/-- A master's write of the word at a window offset reaches a listed register and breaks no role rule. -/
def State.mayWrite (s : State) (m : Master) (a : Nat) : Bool :=
  match s.meets m a with
  | .register b _ o _ => !s.isFrozen m && !s.writeDenied m b o
  | _ => false

/-- A channel whose reports have been taken. -/
def Channel.reported (g : Channel) : Channel := { g with notes := [], done := [] }

/-- The channel of a side, whether it runs, and the clock it measures on. -/
def State.chanAt (s : State) (side : EvalSide) : Channel := match side with | .processor => s.saf.chan | .ledger => s.fds.led
def State.chanRuns (s : State) (side : EvalSide) : Bool := match side with | .processor => s.saf.running | .ledger => s.fdUp
def State.chanClock (s : State) (side : EvalSide) : Nat := match side with | .processor => s.tc.now | .ledger => s.tc.fd

/-- A head stands faulty with a cause, and no section that it bounds is anything but Disturbed or Blocked (R211). -/
def HeadFaulted (g : Channel) (cp cause : Nat) : Prop :=
  (g.head cp).faulty = true ∧ (g.head cp).cause = cause ∧
    ∀ x, x ∈ (g.cfg.cp cp).bounds → (g.sec x.1).st = .disturbed ∨ (g.sec x.1).st = .blocked

/-- The cause that a pair fault leaves recorded: the pair's first one, which nothing clears (R248). -/
def firstCause (p : PairSt) (cause : Nat) : Nat := if p.cause = 0 then cause else p.cause

/-- What the freeze of a master leaves (R360): the master among the frozen, its record where one was free, its journal entry (later
entries may follow it), and the pending bit of the freeze source at every domain that receives it. -/
def FreezeShown (r : FreezeRec) (s t : State) : Prop :=
  r.who ∈ t.frozen ∧ (∀ f, f ∈ s.frozen → f ∈ t.frozen) ∧
    (∀ k, s.freeRecord = some k → k < 32 ∧ tfind s.frzRecs k = none ∧ tfind t.frzRecs k = some r ∧
      ∀ j, j ≠ k → tfind t.frzRecs j = tfind s.frzRecs j) ∧
    (s.freeRecord = none → t.frzOver = true ∧ t.frzRecs = s.frzRecs) ∧
    (∃ later, t.journal = (later ++ ⟨s.jseq + 1, r.stamp, (match r.who with | .domain d => d | _ => 0xFF), r.cause.code, 0x8002, r.rec0,
      s.reg Reg.HB_STR_EPOCH, true⟩ :: s.journal).take journalSlots) ∧
    ∀ d, d < 8 → s.receives d 3 = true → bitOf (t.mreg (.host d) (Reg.HB_EVR_PEND 0)) 3 = true

/-- The vital outputs are guarded (R268, R269, R272, R310): outside a group check an output that is energised belongs to a device in
Service or Degraded whose FD is not in Safe-stop, and in a group check no off-pulse test runs and no raise is deferred. -/
def State.outputsGuarded (s : State) : Prop :=
  ∀ i, i < 32 →
    ((s.group (i / 16)).check = none → (s.vo i).energised = true →
      (s.dev = .service ∨ s.dev = .degraded) ∧ s.fds.first = none) ∧
    ((s.group (i / 16)).check ≠ none → (s.vo i).test = none ∧ (s.vo i).deferred = false)

/-- The lease has not run out (R345). -/
def State.leaseHolds (s : State) : Bool := s.lease.holder.isNone || decide (s.tc.now ≤ s.lease.renewed + 250000000)

/-- The arbiter admits a command of a domain, while no lease has run out: the domain is open and not frozen, a token is left, fewer
than 64 commands are outstanding, and the checks of R351 pass. -/
def State.hears (s : State) (q : QueuedCmd) : Bool :=
  s.boot.up && s.boot.pwrFail.isNone && !s.romFail && !s.isFrozen (.host q.cmd.dom) && !s.domClosed q.cmd.dom && s.leaseHolds &&
    (bucketAt (s.domCmds q.cmd.dom).tokens (s.domCmds q.cmd.dom).tokenAt s.now 64 1000000).1 != 0 &&
    decide ((s.domCmds q.cmd.dom).outstanding < 64) && isCounted q.cmd.origin && decide (s.admission q false = .admitted)

/-- Between two states exactly one response has become due: that of a command, with a result code. -/
def Answered (q : QueuedCmd) (code : Nat) (s t : State) : Prop :=
  ∃ jseq data, t.responses = s.responses ++ [⟨q.cmd.origin, q.cmd.dom, q.cmd.tag, q.code, code, jseq, data⟩]

end Sys2Proof.Machine
end

