-- ==== Sys2Proof/Certificates/Slice0/Obligations.lean ====
section
/-!
DEFINITION. The statements about the LY8440. `e` is everywhere the state after the time `dt` that passed before the command.
-/
open Sys2Proof Sys2Proof.Machine

/-- PTP_MESSAGE_RECEIVED, PTP_DELAY_REQ_SEND, PPS_EDGE, PPS_EDGE_MISSING, TC_HOLDOVER_ENTRY (R41, R42, R45). The sequence number of a
Delay_Req counts up modulo 65,536 (log entry 8). -/
def Obligations.DisciplineMeasuresAndHolds : Prop :=
  (∀ dt s e g, s.elapse dt = e → e.boot.up = true → e.tcSrc = 1 → g.port = 0 → g.domain = fld (e.reg Reg.HB_TC_PTP_CFG) 0 8 →
    g.kind = .announce → e.ptpAccepts g = true → ∃ t, exec (.ptpMessageReceived dt g) s = .next t ∧
      t.tc.ptpMaster = some (g.master, g.rank) ∧ t.tc.utc = g.utcOffset % 2 ^ 16 ∧ t.tc.utcValid = g.utcValid ∧
      t.tc.now = e.tc.now ∧ t.tc.offset = e.tc.offset ∧ t.tc.disc = e.tc.disc ∧ OnlyParts [.time] e t) ∧
  (∀ dt s e g mean rank, s.elapse dt = e → e.boot.up = true → e.tcSrc = 2 → g.port = 1 →
    g.domain = fld (e.reg Reg.HB_TC_PTP_CFG) 0 8 → g.kind = .sync → g.twoStep = false → e.tc.ptpMaster = some (g.master, rank) →
    e.tc.ptpMean = some mean → ∃ t, exec (.ptpMessageReceived dt g) s = .next t ∧
      t.tc.offset = -((e.tc.now : Int) - g.stamp - g.correction - mean) ∧ t.tc.lastSync = e.now ∧ t.tc.now = e.tc.now ∧
      Changes [.time, .events] [Reg.HB_TC_EVT] e t) ∧
  (∀ dt s e m rank, s.elapse dt = e → e.boot.up = true → e.tcSrc = 1 ∨ e.tcSrc = 2 → e.tc.ptpMaster = some (m, rank) →
    exec (.ptpDelayReqSend dt) s =
      .next ({ e with tc := { e.tc with
        ptpDelaySeq := (e.tc.ptpDelaySeq + 1) % 65536
        ptpDelay := some ((e.tc.ptpDelaySeq + 1) % 65536, e.tc.now) } }.send
        (.packet (e.tcSrc - 1) 319 (leBytes 8 m ++ leBytes 2 ((e.tc.ptpDelaySeq + 1) % 65536))))) ∧
  (∀ dt s e falling, s.elapse dt = e → e.boot.up = true → e.tcSrc = 3 → bitOf (e.reg Reg.HB_TC_PPS_CFG) 16 = falling →
    e.tc.disc ≠ .locked → ((e.tc.now : Int) - fld (e.reg Reg.HB_TC_PPS_CFG) 0 16) % 1000000000 < 500000000 →
    ∃ t, exec (.ppsEdge dt falling) s = .next t ∧
      t.tc.offset = -(((e.tc.now : Int) - fld (e.reg Reg.HB_TC_PPS_CFG) 0 16) % 1000000000) ∧ t.tc.missed = 0 ∧
      t.tc.now = e.tc.now ∧ Changes [.time, .events] [Reg.HB_TC_EVT] e t) ∧
  (∀ dt s e, s.elapse dt = e → e.boot.up = true → e.tcSrc = 3 →
    exec (.ppsEdgeMissing dt) s = .next { e with tc := { e.tc with missed := e.tc.missed + 1, good := 0 } }) ∧
  (∀ dt s e, s.elapse dt = e → e.boot.up = true → e.tcSrc = 3 → 3 ≤ e.tc.missed → e.tc.disc = .locked →
    ∃ t, exec (.tcHoldoverEntry dt) s = .next t ∧ t.tc = { e.tc with disc := .holdover, good := 0, holdStart := e.now } ∧
      bitOf (t.reg Reg.HB_TC_EVT) 1 = true ∧ bitOf (t.reg Reg.HB_TC_EVT) 2 = true ∧
      Changes [.time, .events] [Reg.HB_TC_EVT] e t)

/-- TC_STEP_REQUEST, TC_STEP_APPLY, TC_STEP_MESSAGE, TC_SLEW_MESSAGE, FD_SKEW_DETECT, FD_SKEW_RECOVER, TC_NOW_LO_READ (R40, R43, R46,
R47). That FD's copy takes the skew the row states is the model's reading (log entry 9). -/
def Obligations.StepsSlewsAndSkew : Prop :=
  (∀ dt s e m, s.elapse dt = e → e.boot.up = true → e.mayWrite m Reg.HB_TC_CTL = true →
    e.dev.quiet = true → e.tcSrc ≠ 3 → e.tc.now < e.tcSet →
    ∃ t, exec (.tcStepRequest dt m) s = .next t ∧ t.tc = { e.tc with stepPending := some .set } ∧
      Changes [.time] [Reg.HB_TC_CTL] e t) ∧
  (∀ dt s e, s.elapse dt = e → e.boot.up = true → e.tc.stepPending = some .set → e.saf.cycleAt = e.now →
    e.releasedTo e.saf.cycleTc = true → e.dev.quiet = true → e.tcSrc ≠ 3 → e.tc.now < e.tcSet →
    e.fdUp = true → e.boot.shaken = true → e.tc.fdStep = none → ∃ t, exec (.tcStepApply dt) s = .next t ∧
      t.tc.now = e.tcSet ∧ t.tc.valid = true ∧ t.tc.stepPending = none ∧ t.tc.fdStep = some (e.tcSet - e.tc.now, e.saf.cycle) ∧ t.tc.fd = e.tc.fd ∧
      t.regs = e.regs ∧ t.now = e.now) ∧
  (∀ dt s e d n, s.elapse dt = e → e.fdUp = true → e.tc.fdStep = some (d, n) → e.fds.marked n = true →
    ∃ t, exec (.tcStepMessage dt) s = .next t ∧ t.tc = { e.tc with fd := e.tc.fd + d, fdStep := none } ∧
      OnlyParts [.time, .regs, .copies, .fdin, .outs, .mrg, .fds, .events] e t) ∧
  (∀ dt s e err, s.elapse dt = e → e.fdUp = true →
    exec (.tcSlewMessage dt err) s =
      .next { e with tc := { e.tc with fdSlew := (e.tc.now : Int) - e.tc.fd + clampInt (-50) 50 err } }) ∧
  (∀ dt s e skew, s.elapse dt = e → e.boot.up = true → 500 < skew.natAbs →
    exec (.fdSkewDetect dt skew) s =
      .next ({ e with tc := { e.tc with fd := max s.tc.fd (e.tc.now + skew).toNat, fdDegraded := true } }.setEvt Reg.HB_TC_EVT 5)) ∧
  (∀ dt s e skew, s.elapse dt = e → e.boot.up = true → skew.natAbs < 50 →
    exec (.fdSkewRecover dt skew) s =
      .next { e with tc := { e.tc with fd := max s.tc.fd (e.tc.now + skew).toNat, fdDegraded := false } }) ∧
  (∀ dt s e m, s.elapse dt = e → e.boot.up = true → e.mayRead m Reg.HB_TC_NOW_LO = true →
    exec (.tcNowLoRead dt m) s =
      .next ((e.setMreg m Reg.HB_TC_NOW_HI (hi32 e.tc.now)).send (.reply m Reg.HB_TC_NOW_LO (lo32 e.tc.now) false)))

/-- LASER_WINDOW_REACHED, LASER_OK_RISE, LASER_OK_TIMEOUT, AMP_ENABLE, AMP_CHECK_END, LASER_OFF_DELAY, INTERLOCK_OPEN,
INTERLOCK_CLOSED_HOLD, AMP_FAULT, AMP_RETRY, LASER_OK_LOSS, RX_OK_FALL (R62, R63, R67 to R69). -/
def Obligations.LightOrderAdvances : Prop :=
  (∀ dt s e d, s.elapse dt = e → e.boot.up = true → (e.port d).step = .laserWindow → (e.port d).tecEn = true →
    ((e.port d).temp - e.tecSet d).natAbs ≤ fld (e.tecLimits d) 10 6 * 1000 → exec (.laserWindowReached dt d) s =
      .next (e.setPort d { e.port d with
        laserEn := true, laserEnAt := e.now, offFrom := none, winSeen := true, step := .laserOk })) ∧
  (∀ dt s e d, s.elapse dt = e → e.boot.up = true → e.portEnabled d = true → (e.port d).step = .laserOk → exec (.laserOkRise dt d) s =
      .next (e.setPort d { e.port d with laserOk := true, step := if (e.port d).closed then .ampDelay else .idle, laserOkAt := e.now })) ∧
  (∀ dt s e d, s.elapse dt = e → e.boot.up = true → (e.port d).step = .laserOk →
    fld (e.reg (Reg.AQ_OFE_TIMING d)) 0 10 * 1000000 ≤ e.now - (e.port d).laserEnAt → exec (.laserOkTimeout dt d) s =
      .next ((e.setPort d { e.port d with laserEn := false, light := (e.port d).shown .dark, step := .idle, lockout := .laser }).setEvt
        (Reg.AQ_OFE_EVT d) 3)) ∧
  (∀ dt s e d, s.elapse dt = e → e.boot.up = true → (e.port d).step = .ampDelay → (e.port d).closed = true →
    (e.port d).laserEn = true → 10000000 ≤ e.now - (e.port d).laserOkAt → exec (.ampEnable dt d) s =
      .next (e.setPort d { e.port d with ampEn := true, ampEnAt := e.now, step := .ampCheck })) ∧
  (∀ dt s e d, s.elapse dt = e → e.boot.up = true → (e.port d).step = .ampCheck → 100000000 ≤ e.now - (e.port d).ampEnAt →
    exec (.ampCheckEnd dt d true) s =
      .next (e.setPort d { e.port d with ampFltN := true, attempt := 0, retrying := false, step := .probe })) ∧
  (∀ dt s e d t0, s.elapse dt = e → (e.port d).offFrom = some t0 → 10000000 ≤ e.now - t0 → exec (.laserOffDelay dt d) s =
      .next (e.setPort d (if (e.port d).offTec then { (e.port d).tecOff with laserEn := false, offFrom := none, offTec := false }
        else { e.port d with laserEn := false, offFrom := none, offTec := false }))) ∧
  (∀ dt s e d, s.elapse dt = e → e.boot.up = true → e.portEnabled d = true → (e.port d).light ≠ .off →
    (e.probe d).firing = true → exec (.interlockOpen dt d) s =
      .next (((e.setPort d { e.port d with
        intlkN := false, hold := true, intlkLow := e.now, drive := false, ampEn := false, outProbeSince := none, light := .shutdown
        step := if (e.port d).step = .laserOk then .laserOk else .idle }).setProbe d
          { e.probe d with firing := false, incomplete := true }).setEvt (Reg.AQ_OFE_EVT d) 0)) ∧
  (∀ dt s e d, s.elapse dt = e → e.boot.up = true → e.portEnabled d = true → (e.port d).light = .shutdown →
    (e.port d).lockout = .none → e.lightReq d = true → e.thermalReady d = true → (e.port d).tecEn = true →
    (e.port d).retrying = false → (e.port d).intlkLow + 1000000000 ≤ e.now →
    ∃ t, exec (.interlockClosedHold dt d) s = .next t ∧ (t.port d).intlkN = true ∧ (t.port d).hold = false ∧
      (t.port d).light = .warming ∧ (t.port d).laserEn = (e.port d).laserEn ∧
      ((e.port d).laserEn = true → (e.port d).offFrom = none →
        (t.port d).step = if (e.port d).step = .laserOk then .laserOk else .ampDelay) ∧
      ((e.port d).laserEn = false → (t.port d).step = .laserWindow) ∧ OnlyParts [.ofe] e t) ∧
  (∀ dt s e d, s.elapse dt = e → e.boot.up = true → e.portEnabled d = true → (e.port d).ampEn = true →
    50000000 ≤ e.now - (e.port d).ampEnAt → (e.port d).step = .probe → 0 < e.retryMax d →
    ∃ t, exec (.ampFault dt d) s = .next t ∧ (t.port d).ampFltN = false ∧ (t.port d).ampEn = false ∧
      (t.port d).drive = false ∧ (t.port d).retrying = true ∧ (t.port d).attempt = 0 ∧ (t.port d).retryFrom = e.now ∧
      (t.port d).light = (if (e.port d).light = .shutdown then .shutdown else .dark) ∧ (t.probe d).firing = false ∧
      bitOf (t.reg (Reg.AQ_OFE_EVT d)) 1 = true ∧ Changes [.ofe, .psy, .events] [Reg.AQ_OFE_EVT d] e t) ∧
  (∀ dt s e d, s.elapse dt = e → e.boot.up = true → (e.port d).retrying = true → (e.port d).light = .dark →
    (e.port d).step = .idle → (e.port d).closed = true → (e.port d).laserEn = true → (e.port d).lockout = .none →
    fld (e.reg (Reg.AQ_OFE_TIMING d)) 10 6 * 1000000000 ≤ e.now - (e.port d).retryFrom → exec (.ampRetry dt d) s =
      .next (e.setPort d { e.port d with ampEn := true, ampEnAt := e.now, step := .ampCheck })) ∧
  (∀ dt s e d, s.elapse dt = e → e.boot.up = true → e.portEnabled d = true → (e.port d).laserEn = true →
    ∃ t, exec (.laserOkLoss dt d) s = .next t ∧ (t.port d).laserOk = false ∧ (t.port d).ampEn = false ∧
      (t.port d).drive = false ∧ (t.port d).offFrom = some ((e.port d).offFrom.getD e.now) ∧
      (t.port d).lockout = (if (e.port d).lockout = .thermal then .thermal else .laser) ∧
      (t.port d).tecEn = (e.port d).tecEn ∧ bitOf (t.reg (Reg.AQ_OFE_EVT d)) 3 = true ∧
      Changes [.ofe, .psy, .events] [Reg.AQ_OFE_EVT d] e t) ∧
  (∀ dt s e d, s.elapse dt = e → e.boot.up = true → e.portEnabled d = true → exec (.rxOkFall dt d) s =
      .next ((e.setPort d { e.port d with rxOk := false }).setEvt (Reg.AQ_OFE_EVT d) 4))

/-- THM_SAMPLE, TEC_LOOP_STEP, TEC_OVERCURRENT, PROBE_WINDOW_UNLOCKED, OFE_LIGHT_ON, OFE_LIGHT_OFF, OFE_RESTART, TEC_SETPOINT_WRITE,
TEC_LIMITS_WRITE (R62, R66, R67, R72, R74, R491, R574). -/
def Obligations.ThermalLoopAndSettings : Prop :=
  (∀ dt s e d vTop vMid imon pins, s.elapse dt = e → e.boot.up = true → e.portEnabled d = true →
    ∃ t, exec (.thmSample dt d vTop vMid imon pins) s = .next t ∧
      (t.port d).ratio = thermistorRatio vTop vMid ∧ (t.port d).imon = min imon 0xFFF ∧ (t.port d).laserOk = pins.laserOk ∧
      (t.port d).ampFltN = pins.ampFltN ∧ (t.port d).rxOk = pins.rxOk ∧ (t.port d).intlkN = pins.intlkN ∧
      (t.port d).loop = (e.port d).loop ∧ Changes [.ofe, .psy, .events] [Reg.AQ_OFE_EVT d] e t) ∧
  (∀ dt s e d, s.elapse dt = e → e.boot.up = true → (e.port d).tecEn = true → ∃ l, exec (.tecLoopStep dt d) s =
      .next (e.setPort d { e.port d with
        loop := l, tecDir := decide (0 < l.uPrev), duty := min 0xFFFF (roundRat (ratAbs l.uPrev * 65536)).toNat
        turnAt := if decide (0 < l.uPrev) = (e.port d).tecDir then (e.port d).turnAt else e.now }) ∧
      l.err = (e.tecSet d : Rat) / 10000 - ((e.port d).temp : Rat) / 10000 ∧ l.tPrev = ((e.port d).temp : Rat) / 10000) ∧
  (∀ dt s e d t0, s.elapse dt = e → e.boot.up = true → (e.port d).tecEn = true → (e.port d).imonSince = some t0 →
    100000000 ≤ e.now - t0 → ∃ t, exec (.tecOvercurrent dt d) s = .next t ∧ (t.port d).tecEn = false ∧ (t.port d).ampEn = false ∧
      (t.port d).drive = false ∧ (t.port d).lockout = .thermal ∧ bitOf (t.reg (Reg.AQ_OFE_EVT d)) 7 = true ∧
      Changes [.ofe, .psy, .events] [Reg.AQ_OFE_EVT d] e t) ∧
  (∀ dt s e d t0, s.elapse dt = e → e.boot.up = true → (e.port d).light = .probing → (e.port d).outProbeSince = some t0 →
    1000000000 ≤ e.now - t0 → exec (.probeWindowUnlocked dt d) s =
      .next ((e.setPort d { e.port d with outProbeSince := none }).setEvt (Reg.AQ_OFE_EVT d) 8)) ∧
  (∀ dt s e m d, s.elapse dt = e → e.boot.up = true → d < 4 → e.mayWrite m (Reg.AQ_OFE_CTL d) = true →
    bitOf (e.reg (Reg.AQ_OFE_CTL d)) 0 = false → e.boot.pwrFail = none → e.portEnabled d = true → e.thermalReady d = true →
    (e.port d).lockout = .none → (e.port d).light = .off → (e.port d).closed = true → ∃ t, exec (.ofeLightOn dt m d) s = .next t ∧
      bitOf (t.reg (Reg.AQ_OFE_CTL d)) 0 = true ∧ (t.port d).light = .warming ∧ (t.port d).step = .laserWindow ∧ (t.port d).tecEn = true ∧
      Changes [.ofe] [Reg.AQ_OFE_CTL d] e t) ∧
  (∀ dt s e m d, s.elapse dt = e → e.boot.up = true → d < 4 → e.mayWrite m (Reg.AQ_OFE_CTL d) = true →
    bitOf (e.reg (Reg.AQ_OFE_CTL d)) 0 = true → e.dev.quiet = true → ∃ t, exec (.ofeLightOff dt m d) s = .next t ∧
      bitOf (t.reg (Reg.AQ_OFE_CTL d)) 0 = false ∧ (t.port d).light = .off ∧ (t.port d).drive = false ∧ (t.port d).ampEn = false ∧
      (t.port d).offFrom = (if (e.port d).laserEn then some ((e.port d).offFrom.getD e.now) else none) ∧
      (t.port d).tecEn = (e.port d).tecEn ∧
      (t.probe d).firing = false ∧ Changes [.ofe, .psy] [Reg.AQ_OFE_CTL d] e t) ∧
  (∀ dt s e m d, s.elapse dt = e → e.boot.up = true → d < 4 → e.mayWrite m (Reg.AQ_OFE_CTL d) = true →
    bitOf (e.reg (Reg.AQ_OFE_CTL d)) 0 = true → e.boot.pwrFail = none → e.portEnabled d = true → e.thermalReady d = true →
    (e.port d).lockout = .thermal → (e.port d).closed = true → ∃ t, exec (.ofeRestart dt m d) s = .next t ∧
      (t.port d).lockout = .none ∧ (t.port d).light = .warming ∧ (t.port d).step = .laserWindow ∧ (t.port d).tecEn = true ∧
      (t.port d).attempt = 0 ∧ Changes [.ofe] [Reg.AQ_OFE_CTL d] e t) ∧
  (∀ dt s e m d v, s.elapse dt = e → e.boot.up = true → d < 4 → e.mayWrite m (Reg.AQ_TEC_SETPOINT d) = true →
    e.boot.pwrFail = none → 0 < (e.wpRec (16 + 2 * d)).tokens → 50000 ≤ sext v.toNat 32 → sext v.toNat 32 ≤ 500000 →
    ∃ t, exec (.tecSetpointWrite dt m d v true) s = .next t ∧ t.wpValue (16 + 2 * d) = v ∧
      (t.wpRec (16 + 2 * d)).tokens = (e.wpRec (16 + 2 * d)).tokens - 1 ∧
      (∀ k, k ≠ 16 + 2 * d → t.wpRec k = e.wpRec k) ∧
      Changes [.ofe, .store, .events] [Reg.AQ_OFE_EVT d, Reg.AQ_CAL_EVT d] e t) ∧
  (∀ dt s e m d v, s.elapse dt = e → e.boot.up = true → d < 4 → e.mayWrite m (Reg.AQ_TEC_LIMITS d) = true →
    e.boot.pwrFail = none → 0 < (e.wpRec (17 + 2 * d)).tokens → 64 ≤ fld v 0 10 → 1 ≤ fld v 10 6 → 1 ≤ fld v 16 8 →
    fld v 10 6 ≤ fld v 24 8 → ∃ t, exec (.tecLimitsWrite dt m d v true) s = .next t ∧ t.wpValue (17 + 2 * d) = v ∧
      (t.wpRec (17 + 2 * d)).tokens = (e.wpRec (17 + 2 * d)).tokens - 1 ∧
      Changes [.ofe, .store, .events] [Reg.AQ_OFE_EVT d, Reg.AQ_CAL_EVT d] e t)

/-- PERIOD_START, TONE_FIRING, PROBE_START, PSY_APPLY_GO, PERIOD_STAMP_LO_READ (R62, R82, R93, R97, R98, R100). -/
def Obligations.PulsePeriods : Prop :=
  (∀ dt s e d, s.elapse dt = e → e.boot.up = true → (e.probe d).live.en = true →
    e.fifths < (e.probe d).startAt + 4 * (e.probe d).live.np → exec (.periodStart dt d) s = .next e) ∧
  (∀ dt s e d, s.elapse dt = e → e.boot.up = true → (e.probe d).live.en = true → (e.probe d).pend = none →
    (e.probe d).startAt + 4 * (e.probe d).live.np ≤ e.fifths →
    ∃ t, exec (.periodStart dt d) s = .next t ∧ (t.probe d).count = ((e.probe d).count + 1) % 4294967296 ∧
      (t.probe d).startAt = (e.probe d).startAt + 4 * (e.probe d).live.np ∧
      (t.probe d).stamp = e.tcAt (((e.probe d).startAt + 4 * (e.probe d).live.np + 4) / 5) ∧ (t.probe d).incomplete = false ∧ (t.probe d).live = (e.probe d).live ∧
      (t.probe d).firing = ((e.port d).drive && (e.port d).light == .probing) ∧ (∀ k, k ≠ d → t.probe k = e.probe k) ∧
      t.ofe = e.ofe ∧ OnlyParts [.regs, .copies, .psy, .dmd, .lbq, .cal, .events] e t) ∧
  (∀ dt s e d p, s.elapse dt = e → e.boot.up = true → (e.probe d).live.en = true → (e.probe d).pend = some p →
    (e.probe d).changeover = false → (e.probe d).startAt + 4 * (e.probe d).live.np ≤ e.fifths → ∃ t, exec (.periodStart dt d) s = .next t ∧ (t.probe d).changeover = true ∧
      (t.probe d).pend = some p ∧ (t.probe d).live = (e.probe d).live ∧ (t.probe d).firing = false ∧
      (t.probe d).count = ((e.probe d).count + 1) % 4294967296 ∧ (t.demod d).staged = (e.demod d).staged) ∧
  (∀ dt s e d p, s.elapse dt = e → e.boot.up = true → (e.probe d).live.en = true → (e.probe d).pend = some p →
    (e.probe d).changeover = true → (e.probe d).startAt + 4 * (e.probe d).live.np ≤ e.fifths → p.en = true →
    ∃ t, exec (.periodStart dt d) s = .next t ∧ (t.probe d).live = p ∧ (t.probe d).pend = none ∧
      (t.probe d).changeover = false ∧ (t.probe d).count = ((e.probe d).count + 1) % 4294967296 ∧
      (t.probe d).startAt = (e.probe d).startAt + 4 * (e.probe d).live.np ∧
      bitOf (t.reg (Reg.AQ_PSY_EVT d)) 0 = true) ∧
  (∀ dt s e d k, s.elapse dt = e → e.boot.up = true → (e.probe d).firing = true → k < (e.probe d).live.tones → (e.probe d).next ≤ k →
    (e.probe d).startAt + 4 * (k * (e.probe d).live.np / (e.probe d).live.tones) ≤ e.fifths →
    ∃ c, exec (.toneFiring dt d k) s = .next (e.setProbe d { e.probe d with next := k + 1, chirp := some c }) ∧ c.tone = k ∧
      c.offset = k * (e.probe d).live.np / (e.probe d).live.tones ∧ c.dur = (e.probe d).live.nc ∧
      c.taper = (e.probe d).live.taper ∧ c.level = ((e.probe d).live.level : Rat) / 256 ∧
      c.f1 - c.f0 = 8 / 10 * (e.probe d).live.chanWidth) ∧
  (∀ dt s e d, s.elapse dt = e → e.boot.up = true → (e.port d).step = .probe → (e.port d).rxOk = true → (e.port d).closed = true →
    ((e.port d).temp - e.tecSet d).natAbs ≤ fld (e.tecLimits d) 16 8 * 10 → ∃ t, exec (.probeStart dt d) s = .next t ∧
      t.port d = { e.port d with light := .probing, drive := true, step := .idle } ∧ (t.demod d).acquiring = some e.now ∧
      Changes [.ofe, .dmd, .lbq, .events] [Reg.AQ_DMD_EVT d] e t) ∧
  (∀ dt s e m d, s.elapse dt = e → e.boot.up = true → d < 4 → e.mayWrite m (Reg.AQ_PSY_APPLY d) = true →
    (e.probe d).pend = none → e.dev.quiet = true → (e.shadowSet d).check = 0 → exec (.psyApplyGo dt m d) s =
      .next (e.setProbe d { e.probe d with check := 0, pend := some (e.shadowSet d) })) ∧
  (∀ dt s e m d, s.elapse dt = e → e.boot.up = true → d < 4 → e.mayWrite m (Reg.AQ_PSY_APPLY d) = true →
    (e.probe d).pend = none → e.dev.quiet = false → exec (.psyApplyGo dt m d) s =
      .next ((e.setProbe d { e.probe d with check := 8 }).setEvt (Reg.AQ_PSY_EVT d) 1)) ∧
  (∀ dt s e m d, s.elapse dt = e → e.boot.up = true → d < 4 → e.mayRead m (Reg.AQ_PERIOD_STAMP_LO d) = true →
    exec (.periodStampLoRead dt m d) s =
      .next (((e.setMreg m (Reg.AQ_PERIOD_STAMP_HI d) (hi32 (e.probe d).stamp)).setMreg m (Reg.AQ_PERIOD_CNT d)
        (lo32 (e.probe d).count)).send (.reply m (Reg.AQ_PERIOD_STAMP_LO d) (lo32 (e.probe d).stamp) false)))

/-- CAL_ROUND_START, CAL_PHASE_A_END, CAL_ROUND_END, CAL_ROUND_ABANDON, CAL_RAMP_END, CAL_BANK_WRITE_DONE, TRIM_REPORT_RECEIVED,
TRIM_SET_WRITE, CAL_PARAM_WRITE (R427, R474, R478 to R480, R488, R493). -/
def Obligations.CalibrationRounds : Prop :=
  (∀ dt s e d t0, s.elapse dt = e → e.boot.up = true → bitOf (e.reg (Reg.AQ_CAL_CTL d)) 0 = true →
    (e.calPort d).started = some t0 → fld (e.reg (Reg.AQ_CAL_CTL d)) 1 12 * 1000000000 ≤ e.now - t0 →
    (e.calPort d).phase = .none → (e.calPort d).ramp = none → (e.port d).light = .probing → (e.port d).tecLock = true →
    (e.demod d).acquiring = none → (e.probe d).pend = none → exec (.calRoundStart dt d) s =
      .next (e.setCalPort d { e.calPort d with
        phase := .a, count := 0, outTail := 0, outOther := 0, started := some e.now, rounds := (e.calPort d).rounds + 1 })) ∧
  (∀ dt s e d, s.elapse dt = e → e.boot.up = true → (e.calPort d).phase = .a →
    fld (e.reg (Reg.AQ_CAL_CTL d)) 13 13 ≤ (e.calPort d).count → bitOf (e.reg (Reg.AQ_OFE_CTL d)) 2 = true →
    exec (.calPhaseAEnd dt d) s =
      .next (e.setCalPort d { e.calPort d with phase := .b, count := 0, outTail := 0, outOther := 0 })) ∧
  (∀ dt s e d r, s.elapse dt = e → e.boot.up = true → (e.calPort d).phase = .b →
    fld (e.reg (Reg.AQ_CAL_CTL d)) 13 13 ≤ (e.calPort d).count → (e.acceptRound d r true).discarded = 0 →
    ∃ t, exec (.calRoundEnd dt d r) s = .next t ∧
      (t.calPort d).ramp = some ⟨(e.calPort d).live, (e.acceptRound d r true).values, 0⟩ ∧ (t.calPort d).phase = .none ∧
      (t.calPort d).live = (e.calPort d).live ∧ (t.calPort d).defaults = false ∧ (t.calPort d).afterB = 2 ∧
      (t.calPort d).accepted = (e.calPort d).accepted + 1 ∧ (t.calPort d).ended = (e.calPort d).ended + 1 ∧
      bitOf (t.reg (Reg.AQ_CAL_EVT d)) 0 = true ∧ Changes [.cal, .events] [Reg.AQ_CAL_EVT d] e t) ∧
  (∀ dt s e d, s.elapse dt = e → e.boot.up = true → (e.calPort d).phase = .a →
    fld (e.reg (Reg.AQ_CAL_CTL d)) 13 13 < 4 * ((e.calPort d).outTail + (e.calPort d).outOther) →
    (e.calPort d).outOther < (e.calPort d).outTail → exec (.calRoundAbandon dt d) s =
      .next ((e.setCalPort d { e.calPort d with
        phase := .none, cause := 4, discarded := 0, ended := (e.calPort d).ended + 1 }).setEvt (Reg.AQ_CAL_EVT d) 2)) ∧
  (∀ dt s e d r, s.elapse dt = e → e.boot.up = true → (e.calPort d).ramp = some r → 64 ≤ r.done → e.boot.pwrFail = none →
    e.bankWriting = none → ∃ t, exec (.calRampEnd dt d) s = .next t ∧ (t.calPort d).ramp = none ∧ (t.calPort d).live = r.new ∧
      t.bankWriting.isSome = true ∧ t.calSet = e.calSet ∧ t.trimSince = none ∧
      OnlyParts [.cal, .trims, .store] e t) ∧
  (∀ dt s e b set, s.elapse dt = e → e.boot.up = true → e.bankWriting = some (b, set) → e.bankWaiting = none →
    e.calSet.isSome = true → ∃ t, exec (.calBankWriteDone dt) s = .next t ∧ t.bankWriting = none ∧
      (if b then t.bankB else t.bankA).set = set ∧ (if b then t.bankB else t.bankA).ok = true ∧
      (if b then t.bankA else t.bankB) = (if b then e.bankA else e.bankB) ∧ bitOf (t.reg Reg.HB_NV_EVT) 3 = true ∧
      Changes [.store, .events] [Reg.HB_NV_EVT] e t) ∧
  (∀ dt s e k v rest, s.elapse dt = e → e.boot.up = true → e.trimReports = (k, v) :: rest →
    exec (.trimReportReceived dt) s =
      .next { e with trimReports := rest, hbTrims := tset e.hbTrims k v, trimSince := some (e.trimSince.getD e.now) }) ∧
  (∀ dt s e t0, s.elapse dt = e → e.boot.up = true → e.trimSince = some t0 → 60000000000 ≤ e.now - t0 →
    e.boot.pwrFail = none → e.bankWriting.isSome = true → exec (.trimSetWrite dt) s =
      .next { e with bankWaiting := some { (e.calSet.getD {}) with cmp := e.hbTrims }, trimSince := none }) ∧
  (∀ dt s e m d off v, s.elapse dt = e → e.boot.up = true → d < 4 → off ∈ calParams →
    e.mayWrite m (Reg.AQ_CAL_CTL d + off) = true → e.dev.quiet = true → calParamOk off v = true →
    (off = 0x40 → v.toNat < 131072) → (off = 0x68 → v.toNat < 1073741824) →
    exec (.calParamWrite dt m d off v) s = .next (e.setReg (Reg.AQ_CAL_CTL d + off) v))

/-- SLICE_RECEIVED, LANE_PERIOD_END, EDGE_RECORD_RECEIVED, TAIL_WINDOW_END (R83, R106, R109, R112, R121, R136, R137, R146, R477). -/
def Obligations.DemodulationProceeds : Prop :=
  (∀ dt s e d lane home sl tag, s.elapse dt = e → e.boot.up = true → e.blkUp d (laneBlock lane) = true →
    (e.probe d).live.en = true → sl.tone < (e.probe d).live.tones → e.periodTag d sl.adc.period = some tag →
    (e.lane d lane).test = none → (e.lane d lane).faulty = false → e.servedBy d lane = some home →
    (sl.first, sl.count) = e.sliceRange d home → sliceFault sl = none → sl.eccUe = false → sl.sentinel = 0 →
    ∃ t, exec (.sliceReceived dt d lane sl) s = .next t ∧
      (∀ i, i < sl.count → tfind (t.demod d).trace (64 * (sl.first + i) + sl.tone) =
        some (e.traceWord d tag sl.adc sl.tone (sl.first + i)).word) ∧
      (t.lane d home).passed = (e.lane d home).held.length ∧ (t.lane d lane).faulty = false ∧
      (t.demod d).refs = (e.demod d).refs ∧ OnlyParts [.regs, .copies, .psy, .dmd, .lbq, .events] e t) ∧
  (∀ dt s e d lane sl, s.elapse dt = e → e.boot.up = true → e.periodTag d sl.adc.period = none →
    exec (.sliceReceived dt d lane sl) s = .next e) ∧
  (∀ dt s e d lane, s.elapse dt = e → e.boot.up = true → ∃ t, exec (.lanePeriodEnd dt d lane) s = .next t ∧
      (∀ j, j ∈ e.spanPoints d lane → ((tget (t.demod d).points {} j).lowq = false ∧ (tget (t.demod d).points {} j).active = false ∧
        (tget (t.demod d).points {} j).seen = false ∧ ∀ k, k < 64 → tfind (t.demod d).trace (64 * j + k) = none)) ∧
      (bitOf (e.reg (Reg.AQ_DMD_REF_CTL d)) 0 = false → (t.demod d).refs = (e.demod d).refs) ∧
      (t.demod d).noise = (e.demod d).noise ∧ OnlyParts [.dmd, .lbq] e t) ∧
  (∀ dt s e d lane upper r rest, s.elapse dt = e → e.boot.up = true →
    tget (e.die d).edgeOut [] (2 * lane + b2n upper) = r :: rest → exec (.edgeRecordReceived dt d lane upper) s =
      .next (e.setDie d { e.die d with
        edgeOut := tset (e.die d).edgeOut (2 * lane + b2n upper) rest
        edgeIn := tset (e.die d).edgeIn (2 * lane + b2n upper) ((r :: tget (e.die d).edgeIn [] (2 * lane + b2n upper)).take 2) })) ∧
  (∀ dt s e d k adc tag, s.elapse dt = e → e.boot.up = true → e.dieUp d = true → (e.probe d).live.en = true →
    k < (e.probe d).live.tones → e.periodTag d adc.period = some tag →
    tag.start + 4 * ((e.probe d).live.offset k + (e.probe d).live.np) ≤ e.fifths →
    (tget (e.demod d).noise {} k).period ≠ some tag.count → (e.demod d).guard = none →
    ∃ t, exec (.tailWindowEnd dt d k adc none) s = .next t ∧ (t.demod d).guard = none ∧
      (tget (t.demod d).noise {} k).period = some tag.count ∧ (tget (t.demod d).noise {} k).rejects = 0 ∧
      (tget (t.demod d).noise {} k).passes = (tget (e.demod d).noise {} k).passes + 1 ∧
      (∀ i, i ≠ k → tget (t.demod d).noise {} i = tget (e.demod d).noise {} i) ∧ (t.demod d).refs = (e.demod d).refs ∧
      OnlyParts [.regs, .copies, .psy, .dmd, .events] e t) ∧
  (∀ dt s e d k adc guard tag, s.elapse dt = e → e.boot.up = true → e.periodTag d adc.period = some tag →
    (tget (e.demod d).noise {} k).period = some tag.count → exec (.tailWindowEnd dt d k adc guard) s = .next e)

/-- DMD_REACQ_REQUEST, REF_WINDOW_END, REACQ_COMPLETE, REACQ_FORCE, DMD_PROBE_LO_READ, DMD_EPOCH_LO_READ (R111, R114, R130, R483,
R484). -/
def Obligations.ReferencesAreAcquired : Prop :=
  (∀ dt s e m d, s.elapse dt = e → e.boot.up = true → d < 4 → e.mayWrite m (Reg.AQ_DMD_REF_CTL d) = true → e.dev.quiet = true →
    1 ≤ fld (e.peek m (Reg.AQ_DMD_REF_CTL d)) 8 8 → e.portEnabled d = true → (e.demod d).acquiring = none →
    ∃ t, exec (.dmdReacqRequest dt m d) s = .next t ∧ (t.demod d).acquiring = some e.now ∧ (t.demod d).refs = [] ∧
      (t.demod d).epochValid = false ∧ (t.demod d).epoch = (e.demod d).epoch ∧ bitOf (t.reg (Reg.AQ_DMD_EVT d)) 1 = true) ∧
  (∀ dt s e d k j, s.elapse dt = e → e.boot.up = true → (e.demod d).acquiring.isSome = true → 0 < e.acqN d →
    e.acqN d ≤ (tget (e.demod d).acq {} (refKey j k 0)).n → (tget (e.demod d).acq {} (refKey j k 1)).n < e.acqN d →
    (fld (e.reg (Reg.AQ_CAL_ACQ d)) 13 8 : Rat) / 256 * (tget (e.demod d).acq {} (refKey j k 0)).mag ≤
      (tget (e.demod d).acq {} (refKey j k 0)).sum.abs → exec (.refWindowEnd dt d k j) s =
      .next (e.setDemod d { e.demod d with
        refs := tset (e.demod d).refs (refKey j k 0)
          (refCode ((tget (e.demod d).acq {} (refKey j k 0)).sum.scale (1 / (e.acqN d : Rat))))
        acq := tdel (e.demod d).acq (refKey j k 0) })) ∧
  (∀ dt s e d, s.elapse dt = e → e.boot.up = true → (e.demod d).acquiring.isSome = true →
    (∀ b, b < 32 → (e.blk d b).acquiring = none) → (∀ i, i ∈ e.workingSpans d → e.spanAcquired d i = true) →
    ∃ t, exec (.reacqComplete dt d) s = .next t ∧ (t.demod d).acquiring = none ∧ (t.demod d).epoch = some e.tc.now ∧
      (t.demod d).epochValid = true ∧ (t.demod d).refs = (e.demod d).refs ∧ bitOf (t.reg (Reg.AQ_DMD_EVT d)) 0 = true ∧
      bitOf (t.reg Reg.HB_TPR_EVT) 1 = true ∧ Changes [.dmd, .events] [Reg.AQ_DMD_EVT d, Reg.HB_TPR_EVT] e t) ∧
  (∀ dt s e d t0, s.elapse dt = e → e.boot.up = true → (e.demod d).acquiring = some t0 → 10000000000 ≤ e.now - t0 →
    (∀ b, b < 32 → (e.blk d b).acquiring = none) → ∃ t, exec (.reacqForce dt d) s = .next t ∧ (t.demod d).acquiring = none ∧
      (t.demod d).acq = [] ∧ (t.demod d).epoch = some e.tc.now ∧ (t.demod d).epochValid = true ∧
      (∀ key c, tfind (e.demod d).refs key = some c → tfind (t.demod d).refs key = some c) ∧
      Changes [.dmd, .events] [Reg.AQ_DMD_EVT d, Reg.AQ_CAL_EVT d, Reg.HB_TPR_EVT] e t) ∧
  (∀ dt s e m d, s.elapse dt = e → e.boot.up = true → d < 4 → e.mayRead m (Reg.AQ_DMD_PROBE_LO d) = true →
    exec (.dmdProbeLoRead dt m d) s = .next ((e.setMreg m (Reg.AQ_DMD_PROBE_HI d) (hi32 (e.probeWord m d).toNat)).send
      (.reply m (Reg.AQ_DMD_PROBE_LO d) (lo32 (e.probeWord m d).toNat) false))) ∧
  (∀ dt s e m d, s.elapse dt = e → e.boot.up = true → d < 4 → e.mayRead m (Reg.AQ_DMD_EPOCH_LO d) = true →
    exec (.dmdEpochLoRead dt m d) s = .next ((e.setMreg m (Reg.AQ_DMD_EPOCH_HI d) (hi32 ((e.demod d).epoch.getD 0))).send
      (.reply m (Reg.AQ_DMD_EPOCH_LO d) (lo32 ((e.demod d).epoch.getD 0)) false)))

/-- SPARE_LOAD_COMPLETE, ARBITER_FAULT, MEM_SCRUB, BLOCK_PLL_UNLOCK, STAMP_FLOOR_SEND, STAMP_FLOOR_MISSING, BLOCK_POWER_DOWN,
QUARTER_HEARTBEAT_LOSS, QUARTER_PARITY_FAULT (R33, R143, R144, R152, R156 to R158). -/
def Obligations.UnitsFail : Prop :=
  (∀ dt s e d b x, s.elapse dt = e → e.boot.up = true → e.blkUp d b = true → (e.blk d b).loading.find? (·.loaded.isNone) = some x →
    ∃ t, exec (.spareLoadComplete dt d b) s = .next t ∧
      (t.blk d b).loading = (e.blk d b).loading.map (fun y => if y.home = x.home then { y with loaded := some e.fifths } else y) ∧
      (∀ k, k ≠ b → t.blk d k = e.blk d k) ∧ (∀ i, t.lane d i = e.lane d i) ∧ (∀ k, k ≠ d → t.die k = e.die k) ∧
      OnlyParts [.lbq] e t) ∧
  (∀ dt s e d b, s.elapse dt = e → e.boot.up = true → (e.blk d b).st ≠ .faulty → e.dieUp d = true → (e.die d).busy = none →
    ∃ t, exec (.arbiterFault dt d b) s = .next t ∧ (t.blk d b).st = .faulty ∧ (t.blk d b).cause = 4 ∧
      (t.blk d b).faultAt = e.now ∧ (∀ k, k ≠ b → t.blk d k = e.blk d k) ∧ (∀ k, k ≠ d → t.die k = e.die k) ∧
      (∀ i, i ∈ blockLanes b → (t.lane d i).held = []) ∧ bitOf (t.reg (Reg.AQ_LBQ_EVT d)) 3 = true ∧
      Changes [.lbq, .events] [Reg.AQ_LBQ_EVT d] e t) ∧
  (∀ dt s e d b, s.elapse dt = e → e.boot.up = true → e.blkUp d b = true → exec (.memScrub dt d b .corrected) s =
      .next ((e.setReg (Reg.AQ_BLK_ECC d b) (lo32 (min 0xFFFF ((e.reg (Reg.AQ_BLK_ECC d b)).toNat + 1)))).setEvt
        (Reg.AQ_LBQ_EVT d) 7)) ∧
  (∀ dt s e d b, s.elapse dt = e → e.boot.up = true → exec (.memScrub dt d b .clean) s = .next e) ∧
  (∀ dt s e d b, s.elapse dt = e → e.boot.up = true → e.blkUp d b = true →
    ∃ t, exec (.memScrub dt d b .uncorrectable) s = .next t ∧ (t.blk d b).st = .faulty ∧ (t.blk d b).cause = 3 ∧
      (∀ k, k ≠ b → t.blk d k = e.blk d k) ∧ Changes [.lbq, .events] [Reg.AQ_LBQ_EVT d] e t) ∧
  (∀ dt s e d b, s.elapse dt = e → e.boot.up = true → (e.blk d b).st ≠ .faulty → e.dieUp d = true → (e.die d).busy = none →
    ∃ t, exec (.blockPllUnlock dt d b) s = .next t ∧ (t.blk d b).st = .faulty ∧ (t.blk d b).cause = 2 ∧
      (∀ k, k ≠ b → t.blk d k = e.blk d k) ∧ Changes [.lbq, .events] [Reg.AQ_LBQ_EVT d] e t) ∧
  (∀ dt s e d b, s.elapse dt = e → e.boot.up = true → e.blkUp d b = true → exec (.stampFloorSend dt d b) s =
      .next (e.setDie d ((e.die d).setBlk b { e.blk d b with floor := e.tc.now, floorAt := e.now }))) ∧
  (∀ dt s e d b, s.elapse dt = e → e.boot.up = true → e.blkUp d b = true → 20000 ≤ e.now - (e.blk d b).floorAt →
    ∃ t, exec (.stampFloorMissing dt d b) s = .next t ∧ (t.blk d b).st = .faulty ∧
      (t.blk d b).cause = 5 ∧ (∀ k, k ≠ b → t.blk d k = e.blk d k) ∧ Changes [.lbq, .events] [Reg.AQ_LBQ_EVT d] e t) ∧
  (∀ dt s e d b, s.elapse dt = e → e.boot.up = true → (e.blk d b).st = .faulty → exec (.blockPowerDown dt d b) s =
      .next (e.setDie d ((e.die d).setBlk b { e.blk d b with off := true }))) ∧
  (∀ dt s e d q, s.elapse dt = e → e.boot.up = true → ((e.die d).qtr q).st ≠ .faulty → e.dieUp d = true →
    ∃ t, exec (.quarterHeartbeatLoss dt d q) s = .next t ∧ (t.die d).qtr q = { st := .faulty, cause := 1 } ∧
      (∀ i, i < 4 → (t.blk d (4 * q + i)).st = .faulty) ∧
      (∀ i, i < 4 → (e.blk d (4 * q + i)).st ≠ .faulty → (t.blk d (4 * q + i)).cause = 6) ∧
      (∀ b, blockQuarter b ≠ q → t.blk d b = e.blk d b) ∧
      bitOf (t.reg (Reg.AQ_LBQ_EVT d)) 4 = true ∧ Changes [.lbq, .events] [Reg.AQ_LBQ_EVT d] e t) ∧
  (∀ dt s e d q, s.elapse dt = e → e.boot.up = true → ((e.die d).qtr q).st ≠ .faulty → e.dieUp d = true →
    ∃ t, exec (.quarterParityFault dt d q) s = .next t ∧ (t.die d).qtr q = { st := .faulty, cause := 2 } ∧
      (∀ i, i < 4 → (t.blk d (4 * q + i)).st = .faulty) ∧
      (∀ i, i < 4 → (e.blk d (4 * q + i)).st ≠ .faulty → (t.blk d (4 * q + i)).cause = 6) ∧
      (∀ b, blockQuarter b ≠ q → t.blk d b = e.blk d b) ∧
      bitOf (t.reg (Reg.AQ_LBQ_EVT d)) 4 = true ∧ Changes [.lbq, .events] [Reg.AQ_LBQ_EVT d] e t)

/-- LBQ_RETURN_LANE, LANE_RETURN_TEST_END, LBQ_RETURN_BLOCK, LBQ_RETURN_QUARTER, BLOCK_RETURN_COMPLETE, LBQ_INJECT (R153, R160 to
R163). -/
def Obligations.UnitsReturn : Prop :=
  (∀ dt s e m d i, s.elapse dt = e → e.boot.up = true → d < 4 → i < 288 → e.mayWrite m (Reg.AQ_LBQ_CMD d) = true →
    (e.die d).busy = none → (e.lane d i).faulty = true → e.blkUp d (laneBlock i) = true →
    ∃ t, exec (.lbqReturnLane dt m d i) s = .next t ∧ (t.lane d i).test = some (64, true) ∧ (t.die d).busy = some (.lane i) ∧
      (t.die d).result = 0 ∧ (t.die d).kept = false ∧ (∀ k, k ≠ i → t.lane d k = e.lane d k) ∧ OnlyParts [.lbq] e t) ∧
  (∀ dt s e d i away, s.elapse dt = e → e.boot.up = true → (e.lane d i).test = some (0, true) → (e.die d).busy = some (.lane i) →
    (e.die d).kept = false →
    ((blockLanes (laneBlock i)).find? fun k => e.spanCount d k != 0 && (e.lane d k).unavail) = away →
    ∃ t, exec (.laneReturnTestEnd dt d i) s = .next t ∧
      (t.lane d i).faulty = false ∧ (t.lane d i).cause = 0 ∧ (t.lane d i).test = none ∧ (t.die d).busy = none ∧
      (t.die d).result = 0 ∧
      (away = none → (t.blk d (laneBlock i)).spare = some ((e.blk d (laneBlock i)).spare.getD (i % 9)) ∧
        (t.blk d (laneBlock i)).loading = (e.blk d (laneBlock i)).loading) ∧
      (∀ home, away = some home → (t.lane d home).unavail = false ∧ (t.blk d (laneBlock i)).loading =
        (e.blk d (laneBlock i)).loading ++ [{ home := home, spare := i, failed := home, begun := e.now }]) ∧
      bitOf (t.reg (Reg.AQ_LBQ_EVT d)) 5 = true ∧ Changes [.lbq, .events] [Reg.AQ_LBQ_EVT d] e t) ∧
  (∀ dt s e d i n, s.elapse dt = e → e.boot.up = true → (e.lane d i).test = some (n, false) → (e.die d).busy = some (.lane i) →
    (e.die d).kept = false → ∃ t, exec (.laneReturnTestEnd dt d i) s = .next t ∧ (t.lane d i).cause = 6 ∧
      (t.lane d i).faulty = (e.lane d i).faulty ∧ (t.lane d i).test = none ∧ (t.die d).busy = none ∧ (t.die d).result = 4 ∧
      bitOf (t.reg (Reg.AQ_LBQ_EVT d)) 6 = true ∧ Changes [.lbq, .events] [Reg.AQ_LBQ_EVT d] e t) ∧
  (∀ dt s e m d b, s.elapse dt = e → e.boot.up = true → d < 4 → b < 32 → e.mayWrite m (Reg.AQ_LBQ_CMD d) = true →
    e.dev = .maintenance → (e.die d).busy = none → (e.blk d b).st = .faulty → ((e.die d).qtr (blockQuarter b)).st ≠ .faulty →
    ∃ t, exec (.lbqReturnBlock dt m d b) s = .next t ∧ (t.blk d b).st = .returning ∧ (t.die d).busy = some (.block b) ∧
      (t.die d).result = 0 ∧ (∀ k, k ≠ b → t.blk d k = e.blk d k) ∧ OnlyParts [.lbq] e t) ∧
  (∀ dt s e m d q, s.elapse dt = e → e.boot.up = true → d < 4 → q < 8 → e.mayWrite m (Reg.AQ_LBQ_CMD d) = true →
    e.dev = .maintenance → (e.die d).busy = none → ((e.die d).qtr q).st = .faulty →
    (∃ i, i < 4 ∧ (e.blk d (4 * q + i)).st = .faulty ∧ (e.blk d (4 * q + i)).cause = 6) →
    ∃ t, exec (.lbqReturnQuarter dt m d q) s = .next t ∧ ((t.die d).qtr q).st = .returning ∧
      (∀ i, i < 4 → (e.blk d (4 * q + i)).st = .faulty → (e.blk d (4 * q + i)).cause = 6 → (t.blk d (4 * q + i)).st = .returning) ∧
      (t.die d).busy = some (.quarter q) ∧ (t.die d).result = 0 ∧ (∀ k, blockQuarter k ≠ q → t.blk d k = e.blk d k) ∧
      OnlyParts [.lbq] e t) ∧
  (∀ dt s e d b, s.elapse dt = e → e.boot.up = true → (e.blk d b).st = .returning → (e.die d).busy = some (.block b) →
    (e.die d).kept = false → ∃ t, exec (.blockReturnComplete dt d b true) s = .next t ∧
      ((∃ i, i ∈ blockLanes b ∧ e.spanCount d i ≠ 0) → (t.blk d b).st = .running ∧ (t.blk d b).acquiring = some e.now) ∧
      ((∀ i, i ∈ blockLanes b → e.spanCount d i = 0) → (t.blk d b).st = .gated ∧ (t.blk d b).acquiring = none) ∧
      (t.blk d b).floor = e.tc.now ∧
      (∀ i, i ∈ blockLanes b → (t.lane d i).faulty = false ∧ (t.lane d i).unavail = false) ∧ (t.die d).busy = none ∧
      (t.die d).result = 0 ∧ bitOf (t.reg (Reg.AQ_LBQ_EVT d)) 5 = true ∧
      Changes [.lbq, .dmd, .sensors, .events] [Reg.AQ_LBQ_EVT d] e t) ∧
  (∀ dt s e d b, s.elapse dt = e → e.boot.up = true → (e.blk d b).st = .returning → (e.die d).busy = some (.block b) →
    (e.die d).kept = false → ∃ t, exec (.blockReturnComplete dt d b false) s = .next t ∧
      (t.blk d b).st = .faulty ∧ (t.blk d b).cause = 8 ∧ (t.die d).busy = none ∧ (t.die d).result = 4 ∧
      bitOf (t.reg (Reg.AQ_LBQ_EVT d)) 6 = true ∧ Changes [.lbq, .events] [Reg.AQ_LBQ_EVT d] e t) ∧
  (∀ dt s e m d b, s.elapse dt = e → e.boot.up = true → d < 4 → b < 32 → e.mayWrite m (Reg.AQ_LBQ_CMD d) = true →
    e.dev = .maintenance → (e.die d).busy = none → (e.blk d b).st ≠ .faulty → e.dieUp d = true →
    ∃ t, exec (.lbqInject dt m d 1 b) s = .next t ∧ (t.blk d b).st = .faulty ∧ (t.blk d b).cause = 7 ∧ (t.die d).result = 0 ∧
      (∀ k, k ≠ b → t.blk d k = e.blk d k) ∧ Changes [.lbq, .events] [Reg.AQ_LBQ_EVT d] e t) ∧
  (∀ dt s e m d i, s.elapse dt = e → e.boot.up = true → d < 4 → i < 288 → e.mayWrite m (Reg.AQ_LBQ_CMD d) = true →
    e.dev = .maintenance → (e.die d).busy = none → (e.lane d i).faulty = false → e.dieUp d = true →
    ∃ t, exec (.lbqInject dt m d 0 i) s = .next t ∧ (t.lane d i).faulty = true ∧ (t.lane d i).cause = 5 ∧ (t.die d).result = 0 ∧
      bitOf (t.reg (Reg.AQ_LBQ_EVT d)) 0 = true ∧ Changes [.lbq, .events] [Reg.AQ_LBQ_EVT d] e t) ∧
  (∀ dt s e m d q, s.elapse dt = e → e.boot.up = true → d < 4 → q < 8 → e.mayWrite m (Reg.AQ_LBQ_CMD d) = true →
    e.dev = .maintenance → (e.die d).busy = none → ((e.die d).qtr q).st ≠ .faulty → e.dieUp d = true →
    ∃ t, exec (.lbqInject dt m d 2 q) s = .next t ∧ (t.die d).qtr q = { st := .faulty, cause := 3 } ∧ (t.die d).result = 0 ∧
      (∀ i, i < 4 → (t.blk d (4 * q + i)).st = .faulty) ∧ Changes [.lbq, .events] [Reg.AQ_LBQ_EVT d] e t)

/-- DETECTION_SAMPLE, SENSOR_HALT, STAND_TIMEOUT, WHEEL_EVENT_EMIT, WSD_LAST0_READ (R151, R174, R175, R183 to R187, R190). -/
def Obligations.SensorsDecide : Prop :=
  (∀ dt s e d i n pts, s.elapse dt = e → e.boot.up = true → (e.sensor d i).due = none → e.sensorOn d i = true →
    e.sampleNext (e.sensor d i) = n → n * 500000 ≤ e.tc.now →
    ((tget (tget e.dmd {} d).points {} (e.senJ d i)).recent.filter fun p =>
      decide (((n * 500000 : Nat) : Rat) - 500000 < p.t) && decide (p.t ≤ ((n * 500000 : Nat) : Rat))) = pts →
    pts.find? (·.brk) = none → (e.sensor d i).hist ≠ [] → ∃ t, exec (.detectionSample dt d i) s = .next t ∧
      (t.sensor d i).n = some n ∧
      (t.sensor d i).hist = (detSample pts (fld (e.reg (Reg.AQ_DMD_QUAL d)) 0 8) (bitOf (e.senCfg d i) 14)
        ((e.sensor d i).hist.headD ⟨0, 0, true⟩).y :: (e.sensor d i).hist).take 1452 ∧
      (∀ k l, 2048 * k + l ≠ 2048 * d + i → t.sensor k l = e.sensor k l) ∧
      Changes [.sensors, .lbq, .events] [Reg.AQ_WSD_EVT d, Reg.AQ_WSD_SUPP_CNT d] e t) ∧
  (∀ dt s e d i n p, s.elapse dt = e → e.boot.up = true → (e.sensor d i).due = none → e.sensorOn d i = true →
    e.sampleNext (e.sensor d i) = n → n * 500000 ≤ e.tc.now →
    ((tget (tget e.dmd {} d).points {} (e.senJ d i)).recent.filter fun p =>
      decide (((n * 500000 : Nat) : Rat) - 500000 < p.t) && decide (p.t ≤ ((n * 500000 : Nat) : Rat))).find? (·.brk) = some p →
    ∃ t, exec (.detectionSample dt d i) s = .next t ∧
      t.sensor d i = { n := some n, lastCross := (e.sensor d i).lastCross, lastTpl := (e.sensor d i).lastTpl } ∧
      (t.lane d (e.senHome d i)).held =
        (e.lane d (e.senHome d i)).held ++ [{ entry := i, kind := 5, time := p.t.floor.toNat, tpl := 1 }] ∧
      bitOf (t.reg (Reg.AQ_WSD_EVT d)) 0 = true ∧ Changes [.sensors, .lbq, .events] [Reg.AQ_WSD_EVT d] e t) ∧
  (∀ dt s e d i n level q, s.elapse dt = e → e.boot.up = true → (e.sensor d i).due = some (.halt n level q) →
    ∃ t, exec (.sensorHalt dt d i) s = .next t ∧
      t.sensor d i = { e.sensor d i with due := none, level := level, haltAt := n, st := .standing } ∧
      (t.lane d (e.senHome d i)).held =
        (e.lane d (e.senHome d i)).held ++ [{ entry := i, kind := 1, time := n * 500000 - 250000, qev := q, amp := ampField level }] ∧
      bitOf (t.reg (Reg.AQ_WSD_EVT d)) 3 = true ∧ Changes [.sensors, .lbq, .events] [Reg.AQ_WSD_EVT d] e t) ∧
  (∀ dt s e d i n q, s.elapse dt = e → e.boot.up = true → (e.sensor d i).due = some (.standTimeout n q) →
    ∃ t, exec (.standTimeout dt d i) s = .next t ∧ t.sensor d i = { e.sensor d i with due := none, st := .blind } ∧
      (t.lane d (e.senHome d i)).held =
        (e.lane d (e.senHome d i)).held ++ [{ entry := i, kind := 3, time := n * 500000 - 250000, tpl := 4, qev := q }] ∧
      bitOf (t.reg (Reg.AQ_WSD_EVT d)) 4 = true ∧ Changes [.sensors, .lbq, .events] [Reg.AQ_WSD_EVT d] e t) ∧
  (∀ dt s e d lane home ev b, s.elapse dt = e → e.boot.up = true → e.servedBy d lane = some home →
    (e.lane d home).held = [ev] → (e.lane d home).passed = 1 → tfind e.mrg.silent d = none →
    withCheck d home (eventBody e.tc.now (min 0xFFFFFFFF (e.tc.now - ev.time)) (e.lane d home).seq (e.senCp d ev.entry)
      (e.senSys d ev.entry) ev.kind (min 0xFFFF ev.speed) (e.senFibre d ev.entry) ev.tpl ev.qev ev.amp (288 * d + lane)
      ev.usable ev.limit) = b → ∃ t, exec (.wheelEventEmit dt d lane) s = .next t ∧ t.sent = .event d b :: e.sent ∧
      t.lane d home = { e.lane d home with held := [], passed := 0, seq := ((e.lane d home).seq + 1) % 2 ^ 32 } ∧
      (t.sensor d ev.entry).last = b ∧ OnlyParts [.lbq, .sensors, .sent] e t) ∧
  (∀ dt s e m d b, s.elapse dt = e → e.boot.up = true → d < 4 → e.mayRead m (Reg.AQ_WSD_LAST d 0) = true →
    (e.sensor d (fld (e.mreg m (Reg.AQ_WSD_SEL d)) 0 11)).last = b → ∃ t, exec (.wsdLast0Read dt m d) s = .next t ∧
      t.sent = .reply m (Reg.AQ_WSD_LAST d 0) (bufWord b 0) false :: e.sent ∧
      (∀ i, i < 7 → t.mreg m (Reg.AQ_WSD_LAST d (i + 1)) = bufWord b (i + 1)) ∧ OnlyParts [.copies, .sent] e t)

/-- LINK_FRAME_RECEIVED, IDLE_FRAME_SEND, FD_WATERMARK_SEND, WATERMARK_RECEIVED, SOURCE_EVENT_RECEIVED, EVENT_RELEASE,
HORIZON_MARK_SEND (R17, R18, R34 to R36, R188, R207). -/
def Obligations.MergeReceivesAndReleases : Prop :=
  (∀ dt s e d toHb frame c, s.elapse dt = e → d < 4 → crc crc32c frame = BitVec.toNat c → exec (.linkFrameReceived dt (.die d) toHb frame c) s =
      .next (e.setMrg fun m => { m with frames := tset m.frames (2 * d + b2n toHb) e.now })) ∧
  (∀ dt s e link toHb frame c, s.elapse dt = e → crc crc32c frame ≠ BitVec.toNat c →
    exec (.linkFrameReceived dt link toHb frame c) s =
      .next (e.setMrg fun m => { m with errors := tset m.errors (linkCode link) (tget m.errors 0 (linkCode link) + 1) })) ∧
  (∀ dt s e d, s.elapse dt = e → e.boot.up = true → e.dieUp d = true → exec (.idleFrameSend dt d) s =
      .next (e.send (.frame (.die d) 0 ((e.dieWatermark d).getD e.tc.now) 0))) ∧
  (∀ dt s e, s.elapse dt = e → e.fdUp = true → exec (.fdWatermarkSend dt) s = .next (e.send (.frame .isoA 0 e.tc.fd 0))) ∧
  (∀ dt s e stamp, s.elapse dt = e → e.boot.up = true → e.boot.shaken = true → e.mrg.deadA = false →
    ∃ t, exec (.watermarkReceived dt 4 stamp) s = .next t ∧ t.mrg.fdSource = true ∧
      tget t.mrg.marks 0 4 = max stamp (tget e.mrg.marks 0 4) ∧ t.frameAt 4 true = e.now ∧ OnlyParts [.mrg] e t) ∧
  (∀ dt s e src stamp, s.elapse dt = e → e.boot.up = true → src < 4 → ∃ t, exec (.watermarkReceived dt src stamp) s = .next t ∧
      tget t.mrg.marks 0 src = max stamp (tget e.mrg.marks 0 src) ∧
      (∀ k, k ≠ src → tget t.mrg.marks 0 k = tget e.mrg.marks 0 k) ∧ t.frameAt src true = e.now ∧ t.mrg.held = e.mrg.held ∧
      OnlyParts [.mrg] e t) ∧
  (∀ dt s e b, s.elapse dt = e → e.boot.up = true → tfind e.mrg.silent 4 = none → e.mrg.fdSource = false → e.mrg.deadA = false →
    ∃ t, exec (.sourceEventReceived dt 4 b) s = .next t ∧ t.mrg.held = e.mrg.held ∧ t.mrg.errors = e.mrg.errors ∧
      OnlyParts [.mrg] e t) ∧
  (∀ dt s e src b, s.elapse dt = e → e.boot.up = true → src ≤ 4 → (src = 4 → e.mrg.fdSource = true ∧ e.mrg.deadA = false) →
    tfind e.mrg.silent src = none → e.saf.chan.cfg.eventOk src b = true → ∃ t, exec (.sourceEventReceived dt src b) s = .next t ∧
      t.mrg.held = e.mrg.held ++ [(src, b)] ∧ t.frameAt src true = e.now ∧ t.mrg.errors = e.mrg.errors ∧ OnlyParts [.mrg] e t) ∧
  (∀ dt s e w, s.elapse dt = e → e.boot.up = true → e.lowestMark = some w → ∃ t, exec (.eventRelease dt) s = .next t ∧
      t.mrg.held = (e.mrg.held.filter fun x => !decide (emitOf x.2 ≤ w)) ∧ t.mrg.hz = max e.mrg.hz w ∧
      t.mrg.procIn = e.mrg.procIn ++
        (sortBy (fun x => orderKey x.1 x.2) (e.mrg.held.filter fun x => decide (emitOf x.2 ≤ w))).map (fun x => .event x.1 x.2) ∧
      OnlyParts [.regs, .copies, .outs, .mrg, .saf, .fds, .frw, .events, .store] e t) ∧
  (∀ dt s e, s.elapse dt = e → e.boot.up = true → 100000 ≤ e.now - e.mrg.sentAt → e.mrg.deadA = false → e.fdUp = true →
    e.boot.shaken = true → e.mrg.isoA = [] → ∃ t, exec (.horizonMarkSend dt) s = .next t ∧ t.mrg.hz = e.horizon ∧
      t.mrg.sentAt = e.now ∧ t.mrg.isoA = [.mark e.horizon] ∧ OnlyParts [.mrg] e t)

/-- DIE_LINK_SILENCE, REPLAY_TIMEOUT, DIE_LINK_RESUME, DIE_EXCLUSION_TIMEOUT, ISO_CHANNEL_SILENCE, CROSSING_FAULT, DIE_STATUS_FRAME
(R20, R21, R28, R157, R223, R275). -/
def Obligations.SilencesAndCrossings : Prop :=
  (∀ dt s e d, s.elapse dt = e → e.boot.up = true → (e.die d).power = true → tfind e.mrg.silent d = none →
    2000000 < e.now - e.frameAt d true → ∃ t, exec (.dieLinkSilence dt d) s = .next t ∧
      tfind t.mrg.silent d = some { since := e.frameAt d true, declared := e.now } ∧ t.mrg.held = e.mrg.held ∧
      t.mrg.marks = e.mrg.marks) ∧
  (∀ dt s e d x, s.elapse dt = e → e.boot.up = true → tfind e.mrg.silent d = some x → x.failed = false →
    100000000 < e.now - x.since → ∃ t, exec (.replayTimeout dt d) s = .next t ∧
      tfind t.mrg.silent d = some { x with failed := true } ∧ t.mrg.held = e.mrg.held) ∧
  (∀ dt s e d x, s.elapse dt = e → e.boot.up = true → d < 4 → tfind e.mrg.silent d = some x → x.failed = true →
    ∃ t, exec (.dieLinkResume dt d) s = .next t ∧ tfind t.mrg.silent d = none ∧ t.frameAt d true = e.now ∧
      d ∉ t.str.behind ∧ t.mrg.procIn = e.mrg.procIn ∧ t.mrg.seqs = e.mrg.seqs) ∧
  (∀ dt s e d x, s.elapse dt = e → e.boot.up = true → d < 4 → e.dev = .service → (e.die d).power = true →
    tfind e.mrg.silent d = some x → 100000000 < e.now - x.declared → ∃ t, exec (.dieExclusionTimeout dt d) s = .next t ∧
      t.dev = .degraded ∧ OnlyParts [.dev, .regs, .copies, .outs, .events] e t) ∧
  (∀ dt s e, s.elapse dt = e → e.fds.shaken = true → e.mrg.deadA = false → 5000000 < e.now - e.frameAt 4 true →
    e.fds.causes = [] →
    ∃ t, exec (.isoChannelSilence dt .a) s = .next t ∧ t.mrg.deadA = true ∧ t.mrg.fdSource = false ∧ t.mrg.isoA = [] ∧
      0 ∈ t.fds.causes ∧ t.fds.first.isSome = true) ∧
  (∀ dt s e, s.elapse dt = e → e.fds.shaken = true → e.mrg.deadB = false → 5000000 < e.now - e.frameAt 5 false →
    e.fds.causes = [] →
    ∃ t, exec (.isoChannelSilence dt .b) s = .next t ∧ t.mrg.deadB = true ∧ 1 ∈ t.fds.causes ∧ t.fds.first.isSome = true) ∧
  (∀ dt s e d x evs, s.elapse dt = e → e.boot.up = true → d < 4 → tfind e.mrg.silent d = some x → x.failed = false →
    x.overrun = false → d ∉ e.str.behind → e.now - x.since ≤ 100000000 → sortBy (orderKey d) (x.buffer ++ x.late) = evs →
    evs.length ≤ 8192 → evs.all (e.saf.chan.cfg.eventOk d) = true → replayFollows e.saf.chan.cfg d evs e.mrg.seqs = true →
    ∃ t, exec (.dieLinkResume dt d) s = .next t ∧ tfind t.mrg.silent d = none ∧ t.frameAt d true = e.now ∧
      t.mrg.procIn = e.mrg.procIn ++ evs.map (.event d) ++ [.replayDone d] ∧ t.mrg.held = e.mrg.held) ∧
  (∀ dt s e d b, s.elapse dt = e → e.boot.up = true → (e.blk d b).st ≠ .faulty → e.dieUp d = true → (e.die d).busy = none →
    ∃ t, exec (.crossingFault dt (.block d b)) s = .next t ∧ (t.blk d b).st = .faulty ∧ (t.blk d b).cause = 1 ∧
      Changes [.lbq, .events] [Reg.AQ_LBQ_EVT d] e t) ∧
  (∀ dt s e d, s.elapse dt = e → e.boot.up = true → d < 4 → (e.die d).power = true → e.dev = .service → e.str.st ≠ .committing →
    ∃ t, exec (.crossingFault dt (.die d)) s = .next t ∧ (t.die d).dieFault = true ∧ (t.die d).busy = none ∧ t.dev = .degraded ∧
      ((e.die d).busy = none → t.die d = { e.die d with dieFault := true }) ∧ t.str = e.str) ∧
  (∀ dt s e, s.elapse dt = e → e.boot.up = true → exec (.crossingFault dt .package) s =
      .next (e.setMrg fun m => { m with pkgFaults := m.pkgFaults + 1 })) ∧
  (∀ dt s e d, s.elapse dt = e → e.boot.up = true → d < 4 → (e.die d).power = true → tfind e.mrg.silent d = none →
    ∃ t, exec (.dieStatusFrame dt d) s = .next t ∧ t.frameAt d true = e.now ∧
      (∀ b, b < 32 → (t.blk d b).back = false ∧ (t.blk d b).st = (e.blk d b).st) ∧ t.mrg.held = e.mrg.held)

/-- RELEASED_EVENT_RECEIVED, HORIZON_MARK_RECEIVED, CYCLE_MARK_RECEIVED, SPAN_RESTART_MARK_RECEIVED, VERDICT_SEGMENT_RECEIVED,
COMBINATION_COMPARE (R31, R37, R186, R207, R253, R262, R263, R265 to
R267). -/
def Obligations.FdTakesWhatHbSends : Prop :=
  (∀ dt s e src b hz p, s.elapse dt = e → e.fdUp = true → e.mrg.deadA = false → e.fdStepDue = false →
    e.mrg.isoA = [.event src b hz false] →
    e.fds.breaksOrder src b false = false → e.fds.led.cfg.eventOk src b = true → e.fds.led.cfg.eventHome src b = some p →
    ((tget e.fds.seqs {} (seqKey p)).take (seqOf b)).2 = false → ∃ t, exec (.releasedEventReceived dt) s = .next t ∧
      t.mrg.isoA = [] ∧ t.frameAt 4 false = e.now ∧ t.fds.lastEmit = some (emitOf b) ∧ t.fds.causes = e.fds.causes ∧
      t.fds.led = (((e.fds.led.event true src b).reported.horizon hz).updateAll true).reported ∧ OnlyParts [.regs, .copies, .outs, .mrg, .fds, .events] e t) ∧
  (∀ dt s e hz, s.elapse dt = e → e.fdUp = true → e.mrg.deadA = false → e.fdStepDue = false →
    e.mrg.isoA = [.mark hz] →
    ∃ t, exec (.horizonMarkReceived dt) s = .next t ∧ t.mrg.isoA = [] ∧ t.frameAt 4 false = e.now ∧
      t.fds.led = ((e.fds.led.horizon hz).updateAll true).reported ∧ t.fds.cycles = e.fds.cycles ∧
      OnlyParts [.regs, .copies, .outs, .mrg, .fds, .events] e t) ∧
  (∀ dt s e n tc hz key cmds, s.elapse dt = e → e.fdUp = true → e.mrg.deadA = false → e.fdStepDue = false →
    e.mrg.isoA = [.cycle n tc hz key cmds] → ∃ t, exec (.cycleMarkReceived dt) s = .next t ∧ t.mrg.isoA = [] ∧
      (t.fds.mark, t.fds.markAhead) = accountTake e.fds.markLate (e.recent n) e.fds.mark e.fds.markAhead n ∧
      (e.fds.markLate = false → e.fds.markAhead = [] → n = e.fds.mark + 1 → t.fds.mark = n ∧ t.fds.markAhead = []) ∧
      t.fds.markLate = (e.fds.markLate && !e.recent n) ∧
      t.fds.led = ((cmds.foldl (fun (g : Channel) q => (g.command true tc q).1) (e.fds.led.horizon hz)).updateAll true).reported ∧
      t.fds.cycles = ((n, ⟨key, e.tc.fd, t.fds.led.states⟩) :: e.fds.cycles).take 16 ∧ t.fds.causes = e.fds.causes) ∧
  (∀ dt s e d home, s.elapse dt = e → e.fdUp = true → e.mrg.deadA = false → e.fdStepDue = false →
    e.mrg.isoA = [.spanRestart d home] →
    ∃ t, exec (.spanRestartMarkReceived dt) s = .next t ∧ t.mrg.isoA = [] ∧
      t.fds = { e.fds with seqs := tset e.fds.seqs (seqKey (d, home)) { tget e.fds.seqs {} (seqKey (d, home)) with restart := true } } ∧
      OnlyParts [.mrg, .fds] e t) ∧
  (∀ dt s e x rest, s.elapse dt = e → e.fdUp = true → e.mrg.deadB = false → e.saf.segs = x :: rest →
    x.whole = true → tfind e.fds.parts x.cycle = none → ∃ t, exec (.verdictSegmentReceived dt) s = .next t ∧ t.saf.segs = rest ∧
      t.frameAt 5 false = e.now ∧
      t.fds = { e.fds with parts :=
        (tset e.fds.parts x.cycle ([x.index], x.states.foldl (fun (u : Table Nat) (y : Nat × Nat) => tset u y.1 y.2) [])) } ∧
      OnlyParts [.mrg, .saf, .fds] e t) ∧
  (∀ dt s e x rest held states, s.elapse dt = e → e.fdUp = true → e.mrg.deadB = false → e.saf.segs = x :: rest →
    x.whole = true → tfind e.fds.parts x.cycle = some (held, states) → held.contains x.index = false → held.length = 7 →
    ∃ t, exec (.verdictSegmentReceived dt) s = .next t ∧ t.saf.segs = rest ∧
      (t.fds.verdict, t.fds.verdictAhead) =
        accountTake e.fds.verdictLate (e.recent x.cycle) e.fds.verdict e.fds.verdictAhead x.cycle ∧
      t.fds.verdictLate = (e.fds.verdictLate && !e.recent x.cycle) ∧
      tfind t.fds.whole x.cycle =
        some ⟨x.key, x.stamp, x.states.foldl (fun (u : Table Nat) (y : Nat × Nat) => tset u y.1 y.2) states⟩) ∧
  (∀ dt s e x rest, s.elapse dt = e → e.fdUp = true → e.mrg.deadB = false → e.saf.segs = x :: rest → x.whole = false →
    ∃ t, exec (.verdictSegmentReceived dt) s = .next t ∧ t.saf.segs = rest ∧ t.fds = e.fds ∧
      tget t.mrg.errors 0 5 = tget e.mrg.errors 0 5 + 1 ∧ OnlyParts [.mrg, .saf] e t) ∧
  (∀ dt s e c, s.elapse dt = e → e.fdUp = true → e.fds.comparable = some c → c.discords = [] →
    ∃ t, exec (.combinationCompare dt) s = .next t ∧ t.fds.cmp = some c ∧ t.fds.run = 0 ∧ t.fds.causes = e.fds.causes ∧
      t.fds.discCount = e.fds.discCount % 65536 ∧ t.fds.whole = (e.fds.whole.filter fun y => decide (c.cycle < y.1)) ∧
      OnlyParts [.regs, .copies, .outs, .fds, .events] e t)

/-- VERDICT_SEND, VERDICT_TIMEOUT, VERDICT_LOSS, SAFE_STOP_CAUSE_CLEAR, LEDGER_FAULT, LEDGER_SCRUB, FD_INTERNAL_FAULT,
FIELD_SUPPLY_FAULT (R252, R253, R264, R265, R271, R279). -/
def Obligations.VerdictsAndCauses : Prop :=
  (∀ dt s e v, s.elapse dt = e → e.boot.up = true → e.saf.ready = some v → e.fdUp = true → e.boot.shaken = true →
    e.mrg.deadB = false → ∃ t, exec (.verdictSend dt none) s = .next t ∧ t.saf.ready = none ∧ t.saf.sentCycle = v.cycle ∧
      t.saf.sentStates = v.states ∧ (t.saf.segs.drop e.saf.segs.length).map (·.index) = List.range 8 ∧
      (∀ x, x ∈ t.saf.segs.drop e.saf.segs.length → x.cycle = v.cycle ∧ x.pairB = e.saf.activeB ∧ x.key = v.key ∧ x.stamp = v.stamp ∧ x.whole = true ∧
        x.states = v.states.filter fun y => y.1 / 256 == x.index) ∧ OnlyParts [.saf] e t) ∧
  (∀ dt s e, s.elapse dt = e → e.fdUp = true → e.fds.verdict + e.verdictTmo < e.saf.cycle → e.fds.verdictLate = false →
    ∃ t, exec (.verdictTimeout dt .processor) s = .next t ∧ t.fds.verdictLate = true ∧ t.procLive = false ∧
      bitOf (t.reg Reg.FD_CMB_EVT) 1 = true ∧ t.fds.causes = e.fds.causes) ∧
  (∀ dt s e, s.elapse dt = e → e.fdUp = true → e.fds.mark + e.verdictTmo < e.saf.cycle → e.fds.markLate = false →
    ∃ t, exec (.verdictTimeout dt .ledger) s = .next t ∧ t.fds.markLate = true ∧ t.ledgerLive = false ∧
      t.fds.causes = e.fds.causes) ∧
  (∀ dt s e t0, s.elapse dt = e → e.fdUp = true → e.boot.shaken = true → e.mrg.deadB = false → e.fds.deadAt = some t0 →
    t0 + 5000000 ≤ e.now → e.mrg.goodB + 5000000 ≤ e.now → e.fds.causes = [] → e.fds.split = false →
    ∃ t, exec (.verdictLoss dt) s = .next t ∧ 3 ∈ t.fds.causes ∧ t.fds.first.isSome = true) ∧
  (∀ dt s e k, s.elapse dt = e → e.fdUp = true → k ∈ e.fds.causes → e.causeGone k = true →
    exec (.safeStopCauseClear dt k) s =
      .next (e.setFds fun f => { f with causes := f.causes.filter (· != k), cleared := e.tc.fd })) ∧
  (∀ dt s e, s.elapse dt = e → e.fdUp = true → e.fds.causes = [] → ∃ t, exec (.ledgerFault dt) s = .next t ∧
      t.fds.fault = true ∧ 4 ∈ t.fds.causes ∧ t.ledgerLive = false ∧ t.fds.first.isSome = true) ∧
  (∀ dt s e, s.elapse dt = e → e.fdUp = true → exec (.ledgerScrub dt .corrected) s = .next (e.setEvt Reg.FD_CMB_EVT 5)) ∧
  (∀ dt s e, s.elapse dt = e → e.fdUp = true → e.fds.causes = [] → ∃ t, exec (.ledgerScrub dt .uncorrectable) s = .next t ∧
      t.fds.fault = true ∧ 4 ∈ t.fds.causes) ∧
  (∀ dt s e, s.elapse dt = e → e.fdUp = true → e.fds.causes = [] → ∃ t, exec (.fdInternalFault dt) s = .next t ∧
      t.fds.internal = true ∧ 6 ∈ t.fds.causes ∧ t.fds.first.isSome = true) ∧
  (∀ dt s e, s.elapse dt = e → e.fdUp = true → e.supplyBad = true → e.fds.causes = [] →
    ∃ t, exec (.fieldSupplyFault dt) s = .next t ∧ 8 ∈ t.fds.causes ∧ t.fds.first.isSome = true)

/-- PAIR_COMPARATOR_MISMATCH, PAIR_UNCORRECTABLE_READ, VERDICT_DEADLINE, PAIR_SELFTEST_INJECT, PAIR_RETURN,
PAIR_RETURN_SELFTEST_DONE, PAIR_RETURN_COMPLETE, PAIR_INJECT, PAIR_SWAP, DEBUG_HALT (R245 to R250, R255, R257, R260). -/
def Obligations.PairsFailAndReturn : Prop :=
  (∀ dt s e pr c, s.elapse dt = e → e.boot.up = true → e.boot.split = false → e.saf.a.st = .inService → e.saf.b.st = .inService →
    ∃ t, exec (.pairComparatorMismatch dt pr c) s = .next t ∧ (t.saf.pair (isB pr)).st = .faulted ∧
      (t.saf.pair (isB pr)).cause = firstCause (e.saf.pair (isB pr)) (mismatchCause c) ∧ t.saf.activeB = (if e.saf.activeB = isB pr then !isB pr else e.saf.activeB) ∧
      t.saf.pair (!isB pr) = e.saf.pair (!isB pr) ∧ t.saf.running = e.saf.running ∧ t.fds.causes = e.fds.causes) ∧
  (∀ dt s e pr line, s.elapse dt = e → e.boot.up = true → e.boot.split = false → e.saf.a.st = .inService → e.saf.b.st = .inService →
    ∃ t, exec (.pairUncorrectableRead dt ⟨pr, line⟩) s = .next t ∧ (t.saf.pair (isB pr)).st = .faulted ∧
      (t.saf.pair (isB pr)).cause = firstCause (e.saf.pair (isB pr)) 5 ∧ (line = none → t.mem = e.mem) ∧
      (∀ p n, line = some (p, n) →
        t.mem = (e.store (0x1000000 + p / 8 * 8 % 0x1000000) (e.scanBytes (nvBase + n / 8 * 8 % 0x1000000) 8)).mem) ∧
      t.saf.pair (!isB pr) = e.saf.pair (!isB pr) ∧ bitOf (t.reg Reg.HB_SAF_EVT) 5 = true) ∧
  (∀ dt s e, s.elapse dt = e → e.boot.up = true → e.boot.split = false → e.saf.a.st = .inService → e.saf.b.st = .inService →
    e.saf.running = true → e.saf.activeB = false → e.saf.ready.isSome = true → e.saf.cycleAt + 400000 ≤ e.now →
    ∃ t, exec (.verdictDeadline dt .a) s = .next t ∧ t.saf.a.st = .faulted ∧ t.saf.a.cause = firstCause e.saf.a 6 ∧ t.saf.activeB = true ∧
      t.saf.b = e.saf.b ∧ t.saf.ready = e.saf.ready) ∧
  (∀ dt s e, s.elapse dt = e → e.boot.up = true → e.boot.split = false → e.saf.a.st = .inService →
    exec (.pairSelftestInject dt .a [e.saf.a.bit] true) s =
      .next (e.setSaf fun f => { f with
        a := { e.saf.a with passes := (e.saf.a.passes + 1) % 65536, bit := (e.saf.a.bit + 1) % Config.comparedBits } })) ∧
  (∀ dt s e m pr, s.elapse dt = e → e.boot.up = true → e.mayWrite m Reg.HB_SAF_CMD = true → e.boot.split = false →
    e.dev = .maintenance → e.saf.busy = none → e.saf.swap = false → (e.saf.pair (isB pr)).st = .faulted →
    ∃ t, exec (.pairReturn dt m pr) s = .next t ∧ (t.saf.pair (isB pr)).st = .returning ∧ t.saf.busy = some (isB pr) ∧
      t.saf.res = 0 ∧ t.saf.pair (!isB pr) = e.saf.pair (!isB pr) ∧ OnlyParts [.saf] e t) ∧
  (∀ dt s e, s.elapse dt = e → e.boot.up = true → e.saf.busy = some true → e.saf.b.st = .returning → e.saf.b.tested = false →
    e.saf.a.st = .inService → exec (.pairReturnSelftestDone dt .b true) s =
      .next (e.setSaf fun f => { f with b := { e.saf.b with tested := true } })) ∧
  (∀ dt s e, s.elapse dt = e → e.boot.up = true → e.saf.b.st = .returning → e.saf.b.copied = true → 1000 ≤ e.saf.b.run →
    e.saf.a.st = .inService → e.dev = .maintenance → ∃ t, exec (.pairReturnComplete dt .b) s = .next t ∧
      t.saf.b = { e.saf.b with st := .inService, tested := false, copied := false, run := 0 } ∧ t.saf.busy = none ∧
      t.saf.a = e.saf.a ∧ t.saf.activeB = e.saf.activeB ∧ bitOf (t.reg Reg.HB_SAF_EVT) 2 = true ∧ t.dev = .maintenance) ∧
  (∀ dt s e m, s.elapse dt = e → e.boot.up = true → e.mayWrite m Reg.HB_SAF_CMD = true → e.boot.split = false →
    e.dev = .maintenance → e.saf.busy = none → e.saf.swap = false → e.saf.a.st = .inService → e.saf.b.st = .inService →
    ∃ t, exec (.pairInject dt m .a) s = .next t ∧ t.saf.a.st = .faulted ∧ t.saf.a.cause = firstCause e.saf.a 9 ∧ t.saf.b = e.saf.b ∧
      t.saf.activeB = true ∧ t.saf.res = 0) ∧
  (∀ dt s e m, s.elapse dt = e → e.boot.up = true → e.mayWrite m Reg.HB_SAF_CMD = true → e.boot.split = false →
    e.dev = .maintenance → e.saf.busy = none → e.saf.swap = false → e.saf.a.st = .inService → e.saf.b.st = .inService →
    exec (.pairSwap dt m) s = .next (e.setSaf fun f => { f with swap := true, res := 0 })) ∧
  (∀ dt s e, s.elapse dt = e → e.boot.up = true → e.boot.split = false → e.dev = .maintenance → e.boot.jtagOpen = true →
    e.saf.a.st = .inService → e.saf.b.st = .inService → ∃ t, exec (.debugHalt dt .a) s = .next t ∧ t.saf.a.st = .halted ∧
      t.saf.a.cause = firstCause e.saf.a 8 ∧ t.saf.b = e.saf.b ∧ t.saf.activeB = true)

/-- CHANNEL_SETTLE, LEGACY_EDGE, LEGACY_EVENT_EMIT, CHANNEL_DWELL_FAULT, CHANNEL_WINDOW_FAULT, CHANNEL_FAULT_END, WSC_LATCH_CLEAR,
WSC_STAMP_LO_READ (R284 to R289, R293, R302). -/
def Obligations.ComparatorChannels : Prop :=
  (∀ dt s e k runs damped, s.elapse dt = e → e.wscRuns k = true → (e.wsc k).settled = false →
    e.wscFilter k runs = some damped → ∃ t, exec (.channelSettle dt k runs) s = .next t ∧
      { t.wsc k with woke := (e.wsc k).woke } = { e.wsc k with
        settled := true, out := damped, latch := (e.wsc k).latch || damped, freeAt := if damped then none else some e.now
        faults := (e.wsc k).faults.erase 3 } ∧
      (e.dev ≠ .watch → (t.wsc k).woke = (e.wsc k).woke) ∧ (∀ i, i ≠ k → t.wsc i = e.wsc i) ∧
      (tget t.fdin.legs {} (k / 2)).held.length =
        (tget e.fdin.legs {} (k / 2)).held.length + 1 + b2n ((e.wsc k).faults.contains 3) ∧
      bitOf (t.reg Reg.FD_WSC_EVT) 3 = true ∧ Changes [.fdin, .events] [Reg.FD_WSC_EVT] e t) ∧
  (∀ dt s e k runs damped, s.elapse dt = e → e.wscRuns k = true → (e.wsc k).settled = true →
    e.wscFilter k runs = some damped → (e.wsc k).out ≠ damped → ∃ t, exec (.legacyEdge dt k runs) s = .next t ∧
      { t.wsc k with woke := (e.wsc k).woke } = { e.wsc k with
        edges := ((e.wsc k).edges + 1) % 2 ^ 24, stamp := e.tc.fd / 500 * 500 - (e.wscN k - 1) * 500, out := damped
        latch := (e.wsc k).latch || damped, freeAt := if damped then none else some e.now
        faults := (e.wsc k).faults.erase 3 } ∧
      (e.dev ≠ .watch → (t.wsc k).woke = (e.wsc k).woke) ∧ (∀ i, i ≠ k → t.wsc i = e.wsc i) ∧
      (tget t.fdin.legs {} (k / 2)).held.length =
        (tget e.fdin.legs {} (k / 2)).held.length + 1 + b2n ((e.wsc k).faults.contains 3) ∧
      bitOf (t.reg Reg.FD_WSC_EVT) 0 = true ∧ Changes [.fdin, .events] [Reg.FD_WSC_EVT] e t) ∧
  (∀ dt s e lh x ev rest body, s.elapse dt = e → e.fdUp = true → tget e.fdin.legs {} lh = x → x.held = ev :: rest →
    e.legacyDue lh ev = true →
    leBytes 8 e.tc.fd ++ leBytes 4 (min 0xFFFFFFFF (e.tc.fd - ev.t)) ++ leBytes 4 x.seq ++
      leBytes 2 (lh + 32 * ev.sys + 64 * ev.kind + 512 * ev.cause + 4096 * b2n ev.out + 8192 * b2n ev.stale +
        16384 * b2n e.tc.fdDegraded) ++
      leBytes 2 (fld (e.reg (Reg.FD_ADC_WS (2 * lh + ev.sys))) 0 16) ++ leBytes 8 0 = body →
    exec (.legacyEventEmit dt lh) s =
      .next ((e.setFdin fun f => { f with legs := tset f.legs lh { held := rest, seq := (x.seq + 1) % 2 ^ 32 } }).send
        (.event 4 (withCheck 4 lh body)))) ∧
  (∀ dt s e k runs, s.elapse dt = e → e.wscRuns k = true → 3 ∉ (e.wsc k).faults → e.wscDwells k runs = true →
    ∃ t, exec (.channelDwellFault dt ⟨k, runs⟩) s = .next t ∧
      t.wsc k = { e.wsc k with faults := insertBy id 3 (e.wsc k).faults } ∧ (∀ i, i ≠ k → t.wsc i = e.wsc i) ∧
      (tget t.fdin.legs {} (k / 2)).held.length = (tget e.fdin.legs {} (k / 2)).held.length + 1 ∧
      bitOf (t.reg Reg.FD_WSC_EVT) 1 = true ∧ Changes [.fdin, .events] [Reg.FD_WSC_EVT] e t) ∧
  (∀ dt s e k low runs, s.elapse dt = e → e.fdUp = true → (e.wsc k).en.isSome = true → (e.wsc k).stale = false →
    (if low then 2 else 1) ∉ (e.wsc k).faults → e.outOfWindow k low runs = true →
    ∃ t, exec (.channelWindowFault dt ⟨k, runs⟩ low) s = .next t ∧
      t.wsc k = { e.wsc k with faults := insertBy id (if low then 2 else 1) (e.wsc k).faults } ∧
      (∀ i, i ≠ k → t.wsc i = e.wsc i) ∧
      (tget t.fdin.legs {} (k / 2)).held.length = (tget e.fdin.legs {} (k / 2)).held.length + 1 ∧
      bitOf (t.reg Reg.FD_WSC_EVT) 1 = true ∧ Changes [.fdin, .events] [Reg.FD_WSC_EVT] e t) ∧
  (∀ dt s e k c runs, s.elapse dt = e → e.fdUp = true → c = 1 ∨ c = 2 → c ∈ (e.wsc k).faults → (e.wsc k).stale = false →
    e.inWindow k runs = true → ∃ t, exec (.channelFaultEnd dt ⟨k, runs⟩ c) s = .next t ∧
      t.wsc k = { e.wsc k with faults := (e.wsc k).faults.erase c } ∧ (∀ i, i ≠ k → t.wsc i = e.wsc i) ∧
      bitOf (t.reg Reg.FD_WSC_EVT) 2 = true ∧ Changes [.fdin, .events] [Reg.FD_WSC_EVT] e t) ∧
  (∀ dt s e k runs, s.elapse dt = e → e.wscRuns k = true → 3 ∈ (e.wsc k).faults → (e.wsc k).settled = true →
    e.wscFilter k runs = some (e.wsc k).out → ∃ t, exec (.channelFaultEnd dt ⟨k, runs⟩ 3) s = .next t ∧
      t.wsc k = { e.wsc k with faults := (e.wsc k).faults.erase 3 } ∧ (∀ i, i ≠ k → t.wsc i = e.wsc i) ∧
      bitOf (t.reg Reg.FD_WSC_EVT) 2 = true ∧ Changes [.fdin, .events] [Reg.FD_WSC_EVT] e t) ∧
  (∀ dt s e m hi mask, s.elapse dt = e → e.boot.up = true →
    e.mayWrite m (if hi then Reg.FD_WSC_LATCH_HI else Reg.FD_WSC_LATCH_LO) = true →
    ∃ t, exec (.wscLatchClear dt m hi mask) s = .next t ∧ (∀ i, i < 32 → t.wsc (i + (if hi then 32 else 0)) =
        if bitOf mask i && !bitOf (e.reg (Reg.FD_WSC_CFG2 (i + (if hi then 32 else 0)))) 16 then
          { e.wsc (i + (if hi then 32 else 0)) with
            latch := (e.wsc (i + (if hi then 32 else 0))).settled && (e.wsc (i + (if hi then 32 else 0))).out }
        else e.wsc (i + (if hi then 32 else 0))) ∧ OnlyParts [.fdin] e t) ∧
  (∀ dt s e m st, s.elapse dt = e → e.boot.up = true → e.mayRead m Reg.FD_WSC_STAMP_LO = true →
    (e.wsc (fld (e.mreg m Reg.FD_WSC_SEL) 0 6)).stamp = st → exec (.wscStampLoRead dt m) s =
      .next ((e.setMreg m Reg.FD_WSC_STAMP_HI (hi32 st)).send (.reply m Reg.FD_WSC_STAMP_LO (lo32 st) false)))

/-- SUPPLY_SAMPLE, ADC_FRAME, ADC_REQUEST, ADC_REQUEST_DONE, FSI_STATE_CHANGE, FSI_FAULT, CMP_CAL_HOLD_START, CMP_CAL_RETRY,
CMP_CAL_GUARD_ABORT, CMP_CAL_HOLD_END (R279, R290, R297, R299, R300, R486 to R488). -/
def Obligations.ConverterAndTrims : Prop :=
  (∀ dt s e a b, s.elapse dt = e → e.fdUp = true → a < 18000 → 4750 ≤ b → b ≤ 5250 → exec (.supplySample dt a b) s =
      .next (((e.setReg Reg.FD_ADC_SUPPLY (word [(0, 16, a), (16, 16, b)])).setFdin fun f => { f with
        sampled := true, bad24 := f.bad24 + 1, bad5 := 0, goodAt := e.now }).when
          (!e.supplyBad && decide (21 ≤ e.fdin.bad24 + 1)) (·.setEvt Reg.FD_ADC_EVT 2))) ∧
  (∀ dt s e a b, s.elapse dt = e → e.fdUp = true → 18000 ≤ a → a ≤ 36000 → 4750 ≤ b → b ≤ 5250 → exec (.supplySample dt a b) s =
      .next ((e.setReg Reg.FD_ADC_SUPPLY (word [(0, 16, a), (16, 16, b)])).setFdin fun f => { f with
        sampled := true, bad24 := 0, bad5 := 0 })) ∧
  (∀ dt s e a, s.elapse dt = e → e.fdUp = true → ∃ t, exec (.adcFrame dt a) s = .next t ∧
      (∀ k, k < 64 → t.reg (Reg.FD_ADC_WS k) = word [(0, 16, a.pins.getD k 0), (16, 16, a.thr.getD k 0)] ∧
        t.reg (Reg.FD_ADC_WIN k) = word [(0, 16, a.lo.getD k 0), (16, 16, a.hi.getD k 0)]) ∧
      t.reg Reg.FD_ADC_MISC = word [(0, 16, toField 16 a.temp), (16, 16, a.vref)] ∧
      OnlyParts [.regs, .copies, .fdin, .events] e t) ∧
  (∀ dt s e m v, s.elapse dt = e → e.boot.up = true → e.fdUp = true → e.mayWrite m Reg.FD_ADC_REQ = true →
    BitVec.toNat v < 131072 →
    e.fdin.req = none → adcSourceUsed (fld v 0 7) (fld v 7 2) = true → exec (.adcRequest dt m v) s =
      .next ((e.setFdin fun f => { f with req := some { input := fld v 0 7, src := fld v 7 2, avg := fld v 9 8 } }).setReg
        Reg.FD_ADC_REQ_RESULT (putFld (e.reg Reg.FD_ADC_REQ_RESULT) 16 1 0))) ∧
  (∀ dt s e r codes total, s.elapse dt = e → e.fdUp = true → e.fdin.req = some r → codes.length = r.avg + 1 → codes.sum = total →
    exec (.adcRequestDone dt codes) s =
      .next (((e.setFdin fun f => { f with req := none }).setReg Reg.FD_ADC_REQ_RESULT
        (word [(0, 16, (2 * total + codes.length) / (2 * codes.length)), (16, 1, 1)])).setEvt Reg.FD_ADC_EVT 0)) ∧
  (∀ dt s e k runs v, s.elapse dt = e → e.fdUp = true → k < 8 → bitOf (e.reg Reg.FD_FSI_CFG) k = true →
    heldState runs = some v → (e.fsi k).high ≠ some v → ∃ t, exec (.fsiStateChange dt k runs) s = .next t ∧
      t.fsi k = { high := some v, fault := false } ∧ t.fsiInhibits k = (v != bitOf (e.reg Reg.FD_FSI_CFG) (8 + k)) ∧
      (∀ i, i ≠ k → t.fsi i = e.fsi i) ∧
      bitOf (t.reg Reg.FD_FSI_EVT) k = true ∧ Changes [.fdin, .outs, .events] [Reg.FD_FSI_EVT, Reg.FD_BRK_EVT] e t) ∧
  (∀ dt s e k runs, s.elapse dt = e → e.fdUp = true → k < 8 → bitOf (e.reg Reg.FD_FSI_CFG) k = true → (e.fsi k).fault = false →
    undefinedLong runs = true → ∃ t, exec (.fsiFault dt ⟨k, runs⟩) s = .next t ∧ t.fsi k = { e.fsi k with fault := true } ∧
      t.fsiInhibits k = true ∧ (∀ i, i ≠ k → t.fsi i = e.fsi i) ∧
      bitOf (t.reg Reg.FD_FSI_EVT) (8 + k) = true) ∧
  (∀ dt s e k, s.elapse dt = e → e.fdUp = true → e.fdin.cal.deferred = none → e.fdin.cal.hold = none → e.fdin.cal.due = k →
    0 < fld (e.reg Reg.FD_CAL_CFG) 0 17 → e.fdin.trims = true → (e.wsc k).en.isSome = true → e.dev ≠ .watch →
    (e.wsc k).calAt = none → e.calReady k = true → exec (.cmpCalHoldStart dt) s =
      .next ((e.setWsc k { e.wsc k with stale := true }).setFdCal fun c => { c with
        due := k, hold := some (k, e.now), deferred := none })) ∧
  (∀ dt s e k t0 t1, s.elapse dt = e → e.fdUp = true → e.fdin.cal.deferred = some (t0, t1) → t1 ≤ e.now → e.fdin.cal.hold = none →
    e.fdin.cal.due = k → e.now - t0 ≤ fld (e.reg Reg.FD_CAL_CFG) 0 17 * 1000000000 → 0 < fld (e.reg Reg.FD_CAL_CFG) 0 17 →
    e.fdin.trims = true → (e.wsc k).en.isSome = true → e.dev ≠ .watch → (e.wsc k).calAt = none → e.calReady k = false →
    exec (.cmpCalRetry dt) s =
      .next ((e.setWsc k { e.wsc k with calLast := 4 }).setFdCal fun c => { c with
        due := k, deferred := some (t0, e.now + 1000000000) })) ∧
  (∀ dt s e k t0 c, s.elapse dt = e → e.fdUp = true → e.fdin.cal.hold = some (k, t0) → e.wscLow k = false → e.wscAbs k = true →
    e.wscThr k * 262144 < c * 5000 → ∃ t, exec (.cmpCalGuardAbort dt c) s = .next t ∧
      t.wsc k = { e.wsc k with stale := false, refill := some e.now, calLast := 3 } ∧ t.fdin.cal.hold = none ∧
      t.fdin.cal.deferred = some (e.now, e.now + 1000000000) ∧ bitOf (t.reg Reg.FD_CAL_EVT) 2 = true ∧
      Changes [.fdin, .events] [Reg.FD_CAL_EVT] e t) ∧
  (∀ dt s e k t0 level, s.elapse dt = e → e.fdUp = true → e.fdin.cal.hold = some (k, t0) →
    (level - 4 * (e.wscThr k : Int)).natAbs ≤ fld (e.reg Reg.FD_CAL_CFG) 17 7 →
    (level - 4 * (e.wscThr k : Int) - (e.wsc k).trim).natAbs ≤ fld (e.reg Reg.FD_CAL_CFG) 24 7 →
    ∃ t, exec (.cmpCalHoldEnd dt level) s = .next t ∧ t.wsc k = { e.wsc k with
        stale := false, refill := some e.now, trim := level - 4 * (e.wscThr k : Int), calLast := 1, trimAt := some e.now
        calAt := some e.now } ∧ t.fdin.cal.hold = none ∧
      t.trimReports = e.trimReports ++ [(k, level - 4 * (e.wscThr k : Int))] ∧ bitOf (t.reg Reg.FD_CAL_EVT) 0 = true ∧
      Changes [.fdin, .trims, .events] [Reg.FD_CAL_EVT] e t)

/-- OUTPUT_READBACK, OUTPUT_SWITCH_TIMEOUT, OPEN_LOAD_TIMEOUT, GROUP_CHECK_START, GROUP_CHECK_DONE, VO_FAULT_CLEAR, VO_GROUP_RETEST,
GROUP_RETEST_DONE, OFF_PULSE_SLOT_START, OFF_PULSE_RAISE, OFF_PULSE_END (R307 to R312). -/
def Obligations.OutputsAreChecked : Prop :=
  (∀ dt s e k volts t0, s.elapse dt = e → e.fdUp = true → e.voEn k = true → (e.vo k).test = none → (e.group (k / 16)).check = none →
    (e.vo k).changed = some t0 → e.now ≤ t0 + e.tSw → (e.vo k).level = true → e.readsOn k volts = true →
    exec (.outputReadback dt k volts none) s = .next ((e.readsTaken 1).setVo k { e.vo k with changed := none })) ∧
  (∀ dt s e k mv volts, s.elapse dt = e → e.fdUp = true → e.voEn k = true → (e.vo k).test = none → (e.group (k / 16)).check = none →
    (e.vo k).changed = none → (e.vo k).level = false → e.readsOff k volts = true → ∃ t, exec (.outputReadback dt k volts (some mv)) s = .next t ∧
      (t.vo k).volt = min 0xFFFF volts ∧ (t.vo k).cur = min 0xFFFF (e.iScale k mv) ∧ (t.vo k).notOff = 0 ∧
      (t.vo k).overrun = 0 ∧ (t.vo k).latched = (e.vo k).latched ∧ (∀ i, i ≠ k → t.vo i = e.vo i) ∧ OnlyParts [.outs] e t) ∧
  (∀ dt s e k t0, s.elapse dt = e → e.fdUp = true → k < 32 → (e.vo k).changed = some t0 → t0 + e.tSw < e.now → (e.vo k).level = true →
    (e.vo k).test = none → (e.vo k).latched = [] → ∃ t, exec (.outputSwitchTimeout dt k) s = .next t ∧
      (t.vo k).latched = [2] ∧ (t.vo k).level = false ∧ bitOf (t.reg Reg.FD_VO_EVT) 0 = true ∧
      Changes [.outs, .events] [Reg.FD_VO_EVT] e t) ∧
  (∀ dt s e k t0, s.elapse dt = e → e.fdUp = true → k < 32 → (e.vo k).level = true → (e.vo k).test = none → (e.vo k).below = some t0 →
    t0 + 100000000 ≤ e.now → (e.vo k).latched = [] → ∃ t, exec (.openLoadTimeout dt k) s = .next t ∧
      (t.vo k).latched = [4] ∧ (t.vo k).level = false ∧ bitOf (t.reg Reg.FD_VO_EVT) 0 = true ∧
      Changes [.outs, .events] [Reg.FD_VO_EVT] e t) ∧
  (∀ dt s e, s.elapse dt = e → e.fdUp = true → e.dev = .start → e.outs.checkDue = true → ∃ t, exec (.groupCheckStart dt) s = .next t ∧
      t.outs.checkDue = false ∧ (∀ g, g < 2 → (t.group g).on = false ∧ (t.group g).check = some e.now) ∧
      (∀ i, i < 32 → e.voEn i = true → (t.vo i).level = true) ∧ (∀ i, i < 32 → e.voEn i = false → t.vo i = e.vo i) ∧
      OnlyParts [.outs] e t) ∧
  (∀ dt s e g volts t0, s.elapse dt = e → e.fdUp = true → g < 2 → (e.group g).check = some t0 → t0 + 500000 ≤ e.now →
    (∀ i, i ∈ groupOutputs g → (e.vo i).stuck = false) → volts.all (e.readsOff (16 * g)) = true →
    ∃ t, exec (.groupCheckDone dt g volts) s = .next t ∧ t.group g = { e.group g with check := none, on := true, fault := false } ∧
      (∀ i, i ∈ groupOutputs g → (t.vo i).level = false) ∧ OnlyParts [.outs] e t) ∧
  (∀ dt s e m k, s.elapse dt = e → e.boot.up = true → e.mayWrite m Reg.FD_VO_CMD = true → k < 32 → e.retesting = false →
    (e.vo k).latched ≠ [] → (e.vo k).latched.contains 5 = false → exec (.voFaultClear dt m k) s =
      .next ((e.setVo k { e.vo k with latched := [], fb := none }).setOuts fun o => { o with voRes := 0 })) ∧
  (∀ dt s e m g, s.elapse dt = e → e.boot.up = true → e.mayWrite m Reg.FD_VO_CMD = true → g < 2 → e.retesting = false →
    e.dev = .maintenance → exec (.voGroupRetest dt m g) s =
      .next ((e.setGroup g { e.group g with on := true, retest := some e.now }).setOuts fun o => { o with voRes := 0 })) ∧
  (∀ dt s e g volts t0, s.elapse dt = e → e.fdUp = true → g < 2 → (e.group g).retest = some t0 → t0 + 100000000 ≤ e.now →
    volts.all (e.readsOff (16 * g)) = true → e.fds.causes = [] → ∃ t, exec (.groupRetestDone dt g volts) s = .next t ∧
      t.group g = { e.group g with retest := none, fault := false } ∧ t.outs.voRes = 0 ∧
      (∀ i, i ∈ groupOutputs g → (t.vo i).stuck = false) ∧ OnlyParts [.outs] e t) ∧
  (∀ dt s e k, s.elapse dt = e → e.fdUp = true → e.voEn k = true → (e.vo k).level = true → e.tc.fd % 100000000 = k * 3125000 →
    (e.vo k).test = none → (e.group (k / 16)).check = none → exec (.offPulseSlotStart dt k) s =
      .next (e.setVo k { e.vo k with level := false, changed := none, test := some { start := e.now } })) ∧
  (∀ dt s e k x, s.elapse dt = e → e.fdUp = true → (e.vo k).test = some x → x.raised = none → x.start + e.offpT ≤ e.now →
    exec (.offPulseRaise dt k) s = .next (e.setVo k { e.vo k with level := true, test := some { x with raised := some e.now } })) ∧
  (∀ dt s e k x r, s.elapse dt = e → e.fdUp = true → k < 32 → (e.vo k).test = some x → x.raised = some r → r + 200000 ≤ e.now →
    x.fell = true → x.rose = false → (e.vo k).level = true → (e.vo k).latched = [] → (e.vo k).deferred = false →
    (∀ i, i ∈ groupOutputs (k / 16) → i ≠ k → (e.vo i).deferred = false) → ∃ t, exec (.offPulseEnd dt k) s = .next t ∧
      (t.vo k).test = none ∧ (t.vo k).latched = [2] ∧ (t.vo k).level = false ∧ bitOf (t.reg Reg.FD_VO_EVT) 1 = true ∧
      Changes [.outs, .events] [Reg.FD_VO_EVT] e t)

/-- BRAKE_TEST_START, BRAKE_FEEDBACK_CHANGE, BRAKE_FEEDBACK_FAULT, BRAKE_TEST_APPLY_TIMEOUT, BRAKE_TEST_HOLD_END,
BRAKE_TEST_RELEASE_TIMEOUT, BRAKE_FEEDBACK_TIMEOUT, RESET_INPUT_PATTERN, RESET_INPUT_STUCK, RESET_INPUT_FAULT,
RESET_INPUT_FAULT_RELEASE, RST_START_LO_READ (R300, R309, R314, R315, R317, R318, R321). -/
def Obligations.BrakesAndResetInputs : Prop :=
  (∀ dt s e m c, s.elapse dt = e → e.boot.up = true → e.mayWrite m Reg.FD_BRK_CMD = true → c < 16 → e.dev = .maintenance →
    e.fds.first = none → (e.brake c).step = .none → (e.vo (16 + c)).latched = [] → e.brakeOn (16 + c) = true →
    e.applied c = false → ∃ t, exec (.brakeTestStart dt m c) s = .next t ∧
      t.brake c = { step := .apply, since := e.now, res := 1 } ∧ t.outs.brkRes = 0 ∧
      ((e.group ((16 + c) / 16)).check = none → (t.vo (16 + c)).level = false)) ∧
  (∀ dt s e c runs v, s.elapse dt = e → e.fdUp = true → c < 16 → (e.brake c).step = .none → heldState runs = some v →
    ∃ t, exec (.brakeFeedbackChange dt c runs) s = .next t ∧ t.bfb c = { high := some v, fault := false } ∧
      ((v != bitOf (e.reg Reg.FD_BRK_CFG) (16 + c)) = !((e.vo (16 + c)).level || (e.vo (16 + c)).test.isSome) →
        t.vo (16 + c) = { e.vo (16 + c) with fb := none }) ∧
      ((v != bitOf (e.reg Reg.FD_BRK_CFG) (16 + c)) = ((e.vo (16 + c)).level || (e.vo (16 + c)).test.isSome) → t.vo (16 + c) = e.vo (16 + c)) ∧
      t.brake c = e.brake c ∧ OnlyParts [.fdin, .outs] e t) ∧
  (∀ dt s e c runs v, s.elapse dt = e → e.fdUp = true → c < 16 → (e.brake c).step = .apply → heldState runs = some v →
    v ≠ bitOf (e.reg Reg.FD_BRK_CFG) (16 + c) → ∃ t, exec (.brakeFeedbackChange dt c runs) s = .next t ∧
      t.brake c = { e.brake c with step := .hold, since := e.now } ∧ t.bfb c = { high := some v, fault := false } ∧
      OnlyParts [.fdin, .outs] e t) ∧
  (∀ dt s e c runs v, s.elapse dt = e → e.fdUp = true → c < 16 → (e.brake c).step = .release → heldState runs = some v →
    v = bitOf (e.reg Reg.FD_BRK_CFG) (16 + c) → ∃ t, exec (.brakeFeedbackChange dt c runs) s = .next t ∧
      t.brake c = { step := .none, since := e.now, res := 3 } ∧ t.bfb c = { high := some v, fault := false } ∧
      bitOf (t.reg Reg.FD_BRK_EVT) 0 = true ∧ Changes [.fdin, .outs, .events] [Reg.FD_BRK_EVT] e t) ∧
  (∀ dt s e c runs, s.elapse dt = e → e.fdUp = true → c < 16 → (e.bfb c).fault = false → undefinedLong runs = true →
    e.brakeOn (16 + c) = true → (e.brake c).step = .none → (e.vo (16 + c)).latched = [] → (e.vo (16 + c)).test = none →
    ∃ t, exec (.brakeFeedbackFault dt ⟨c, runs⟩) s = .next t ∧ t.bfb c = { e.bfb c with fault := true } ∧
      (t.vo (16 + c)).latched = [5] ∧ (t.vo (16 + c)).level = false ∧ Changes [.fdin, .outs, .events] [Reg.FD_VO_EVT] e t) ∧
  (∀ dt s e c, s.elapse dt = e → e.fdUp = true → c < 16 → (e.brake c).step = .apply → (e.brake c).since + e.brkTime 0 < e.now →
    (e.vo (16 + c)).latched = [] → (e.vo (16 + c)).test = none → ∃ t, exec (.brakeTestApplyTimeout dt c) s = .next t ∧
      t.brake c = { step := .none, since := e.now, res := 4 } ∧ (t.vo (16 + c)).latched = [6] ∧
      bitOf (t.reg Reg.FD_BRK_EVT) 1 = true ∧ Changes [.outs, .events] [Reg.FD_BRK_EVT, Reg.FD_VO_EVT] e t) ∧
  (∀ dt s e c, s.elapse dt = e → e.fdUp = true → (e.brake c).step = .hold → (e.brake c).since + e.brkTime 1 ≤ e.now →
    exec (.brakeTestHoldEnd dt c) s = .next (e.setBrake c { e.brake c with step := .okWait, since := e.now, res := 2 })) ∧
  (∀ dt s e c, s.elapse dt = e → e.fdUp = true → c < 16 → (e.brake c).step = .release → (e.brake c).since + e.brkTime 2 < e.now →
    (e.vo (16 + c)).latched = [] → (e.vo (16 + c)).test = none → ∃ t, exec (.brakeTestReleaseTimeout dt c) s = .next t ∧
      t.brake c = { step := .none, since := e.now, res := 6 } ∧ (t.vo (16 + c)).latched = [6] ∧ (t.vo (16 + c)).level = false ∧
      Changes [.outs, .events] [Reg.FD_BRK_EVT, Reg.FD_VO_EVT] e t) ∧
  (∀ dt s e c t0, s.elapse dt = e → e.fdUp = true → c < 16 → (e.vo (16 + c)).test = none → (e.vo (16 + c)).fb = some t0 →
    (e.vo (16 + c)).level = true → t0 + e.brkTime 2 < e.now → (e.brake c).step = .none → (e.vo (16 + c)).latched = [] →
    ∃ t, exec (.brakeFeedbackTimeout dt c) s = .next t ∧ (t.vo (16 + c)).latched = [5] ∧ (t.vo (16 + c)).level = false ∧
      Changes [.outs, .events] [Reg.FD_VO_EVT] e t) ∧
  (∀ (r : ResetIn) now p samples, samples.length = 20 → (∀ x, x ∈ samples → samplePattern x = p) → r.pat ≠ some p →
    (r.sample now samples).pat = some p ∧ (r.sample now samples).patAt = some (now - 19000000)) ∧
  (∀ dt s e n no nc r, s.elapse dt = e → e.fdUp = true → (e.rstIn n).sample e.now (no.zip nc) = r → r.pat = some (some false) →
    (e.rstIn n).st = .unknown ∨ (e.rstIn n).st = .pressed ∨ (e.rstIn n).st = .stuck →
    exec (.resetInputPattern dt n no nc) s = .next (e.setRstIn n { r with st := .released, since := e.now })) ∧
  (∀ dt s e n no nc r t0, s.elapse dt = e → e.fdUp = true → (e.rstIn n).sample e.now (no.zip nc) = r → r.pat = some (some true) →
    r.patAt = some t0 → (e.rstIn n).st = .released → (e.rstIn n).since + 100000000 ≤ e.now →
    e.fds.first = none → ∃ t, exec (.resetInputPattern dt n no nc) s = .next t ∧ (t.rstIn n).st = .pressed ∧
      (t.rstIn n).start = e.tc.fd - (e.now - t0) ∧ (t.rstIn n).edges = ((e.rstIn n).edges + 1) % 256 ∧
      bitOf (t.reg Reg.FD_RST_EVT) n = decide (n < 32) ∧ t.dev = e.dev) ∧
  (∀ dt s e n, s.elapse dt = e → e.fdUp = true → (e.rstIn n).st = .pressed → (e.rstIn n).since + 10000000000 < e.now →
    exec (.resetInputStuck dt n) s =
      .next ((e.setRstIn n { e.rstIn n with st := .stuck, since := e.now }).setEvt Reg.FD_RST_EVT (4 + n))) ∧
  (∀ dt s e n t0, s.elapse dt = e → e.fdUp = true → (e.rstIn n).st ≠ .fault → (e.rstIn n).pat = some none →
    (e.rstIn n).patAt = some t0 → t0 + 100000000 ≤ e.now → exec (.resetInputFault dt n) s =
      .next ((e.setRstIn n { e.rstIn n with st := .fault, since := e.now }).setEvt Reg.FD_RST_EVT (8 + n))) ∧
  (∀ dt s e n t0, s.elapse dt = e → e.fdUp = true → (e.rstIn n).st = .fault →
    (e.rstIn n).pat = some (some false) → (e.rstIn n).patAt = some t0 → t0 + 1000000000 ≤ e.now →
    exec (.resetInputFaultRelease dt n) s = .next (e.setRstIn n { e.rstIn n with st := .released, since := e.now })) ∧
  (∀ dt s e m st, s.elapse dt = e → e.boot.up = true → e.mayRead m Reg.FD_RST_START_LO = true →
    (e.rstIn (fld (e.mreg m Reg.FD_RST_SEL) 0 2)).start = st → exec (.rstStartLoRead dt m) s =
      .next ((e.setMreg m Reg.FD_RST_START_HI (hi32 st)).send (.reply m Reg.FD_RST_START_LO (lo32 st) false)))

/-- LEGACY_DISCREPANCY_TIMEOUT, HEAD_UNRESOLVED, FUSED_DISAGREE, HEAD_BACK_IN_SERVICE, DIRECT_RESET_TIMEOUT, CYCLE_BOUNDARY (R195,
R203, R210, R211, R213, R221, R251, R252, R263). -/
def Obligations.ChannelTimers : Prop :=
  (∀ dt s e side lh cp u, s.elapse dt = e → e.chanRuns side = true → (e.chanAt side).cfg.ofLegacy lh = some cp →
    ((e.chanAt side).head cp).faulty = false → ((e.chanAt side).head cp).leg.seq.disagrees = true →
    ((e.chanAt side).head cp).leg.since = some u →
    (e.chanAt side).cfg.td ≤ (e.tc.fd - u) / 10000 → ∃ t, exec (.legacyDiscrepancyTimeout dt side lh) s = .next t ∧
      HeadFaulted (t.chanAt side) cp 8 ∧ OnlyParts [.regs, .copies, .outs, .saf, .fds, .frw, .events, .store] e t) ∧
  (∀ dt s e side cp u, s.elapse dt = e → e.chanRuns side = true → (e.chanAt side).cfg.cpUsed cp = true →
    ((e.chanAt side).head cp).faulty = false → ((e.chanAt side).head cp).core.split = some u →
    (e.chanAt side).cfg.resolve * 1000000000 ≤ e.chanClock side - u → ∃ t, exec (.headUnresolved dt side cp) s = .next t ∧
      HeadFaulted (t.chanAt side) cp 4 ∧ OnlyParts [.regs, .copies, .outs, .saf, .fds, .frw, .events, .store] e t) ∧
  (∀ dt s e side cp u, s.elapse dt = e → e.chanRuns side = true → (e.chanAt side).cfg.cpUsed cp = true →
    ((e.chanAt side).head cp).faulty = false → ((e.chanAt side).head cp).disagree = some u →
    (e.chanAt side).cfg.fuse * 1000000 ≤ e.chanClock side - u → ∃ t, exec (.fusedDisagree dt side cp) s = .next t ∧
      HeadFaulted (t.chanAt side) cp 10 ∧ OnlyParts [.regs, .copies, .outs, .saf, .fds, .frw, .events, .store] e t) ∧
  (∀ dt s e side cp, s.elapse dt = e → e.chanRuns side = true → (e.chanAt side).cfg.cpUsed cp = true →
    ((e.chanAt side).head cp).faulty = true → ((e.chanAt side).head cp).back ((e.chanAt side).rule cp) = true →
    ∃ t, exec (.headBackInService dt side cp) s = .next t ∧ ((t.chanAt side).head cp).faulty = false ∧
      ((t.chanAt side).head cp).core.readings =
        [{ c1 := ((e.chanAt side).head cp).core.base1, c2 := ((e.chanAt side).head cp).core.base2 }] ∧
      OnlyParts [.regs, .copies, .outs, .saf, .fds, .frw, .events, .store] e t) ∧
  (∀ dt s e n u q, s.elapse dt = e → e.saf.running = true → (e.saf.chan.sec n).wait = [(u, q)] → u + 10000000000 < e.tc.now →
    ∃ t, exec (.directResetTimeout dt n) s = .next t ∧ (t.saf.chan.sec n).wait = [] ∧ (t.saf.chan.sec n).st = (e.saf.chan.sec n).st ∧
      t.saf.chan.counts n = e.saf.chan.counts n ∧ bitOf (t.reg Reg.HB_SEC_EVT) 4 = true ∧
      OnlyParts [.regs, .copies, .outs, .saf, .fds, .frw, .events, .store] e t) ∧
  (∀ dt s e, s.elapse dt = e → e.boot.up = true → e.cyclesRun = true → e.boundaryDue = true → e.str.commit = none → e.queue = [] →
    e.mrg.procIn = [] → e.saf.swap = false → e.saf.a.st = .inService → e.saf.b.st = .inService → e.saf.running = true →
    e.mrg.deadA = false → e.fdUp = true → e.boot.shaken = true → e.mrg.isoA = [] → ∃ t, exec (.cycleBoundary dt) s = .next t ∧
      t.saf.cycle = e.saf.cycle + 1 ∧ t.saf.cycleAt = e.dueTime ∧ t.saf.cycleTc = e.tcAt e.dueTime ∧ t.mrg.hz = e.horizon ∧
      t.saf.ready = some ⟨e.saf.cycle + 1, t.saf.chan.states, e.mrg.lastKey, e.tc.now⟩ ∧
      t.mrg.isoA = [.cycle (e.saf.cycle + 1) (e.tcAt e.dueTime) e.horizon e.mrg.lastKey []] ∧ t.saf.a = e.saf.a ∧ t.saf.b = e.saf.b)

/-- PROFILE_RECORD, ACW_BLOCK_READY, ACW_ENABLE, ACW_DISABLE (R232, R233, R236, R237, R239 to R242). -/
def Obligations.ProfilesAndWindows : Prop :=
  (∀ dt s e p sec, s.elapse dt = e → e.boot.up = true → e.tprRuns p = true →
    (e.tprPort p).next.getD (e.tc.now / 1000000000 - 1) = sec → (sec + 1) * 1000000000 ≤ e.tc.now →
    ∃ t, exec (.profileRecord dt p) s = .next t ∧
      t.mem = memStore e.mem (profileBase p + 0x20000 * ((e.tprPort p).records % 2)) (e.tprRecord p sec).1 ∧
      (t.tprPort p).records = ((e.tprPort p).records + 1) % 65536 ∧
      (t.tprPort p).epoch = (if (e.demod p).epochValid then (e.demod p).epoch else (e.tprPort p).epoch) ∧
      (t.tprPort p).next = some ((e.tprPort p).after sec) ∧
      ((t.tprPort p).cfg, (t.tprPort p).coef) = e.tprSettings p sec ∧ (∀ q, q ≠ p → t.tprPort q = e.tprPort q) ∧ bitOf (t.reg Reg.HB_TPR_EVT) 0 = true ∧
      Changes [.dmd, .tpr, .cvu, .mem, .events] [Reg.HB_TPR_EVT] e t) ∧
  (∀ dt s e p sec, s.elapse dt = e → e.boot.up = true → e.tprRuns p = false →
    (e.tprPort p).next.getD (e.tc.now / 1000000000 - 1) = sec → (sec + 1) * 1000000000 ≤ e.tc.now →
    ∃ t, exec (.profileRecord dt p) s = .next t ∧ (t.tprPort p).records = (e.tprPort p).records ∧
      (t.tprPort p).next = some ((e.tprPort p).after sec) ∧ ((t.tprPort p).cfg, (t.tprPort p).coef) = e.tprSettings p sec ∧
      OnlyParts [.dmd, .tpr] e t) ∧
  (∀ dt s e p sec, s.elapse dt = e → e.boot.up = true → (e.tprPort p).next = some sec → e.tc.now < (sec + 1) * 1000000000 →
    exec (.profileRecord dt p) s = .next e) ∧
  (∀ dt s e w p, s.elapse dt = e → e.boot.up = true → e.acwEn w = true → (e.probe (e.acwPort w)).live.en = true →
    e.acwPeriod (e.acwPort w) (e.acwRun w).start = some p → e.isFrozen (.host (e.acwDomain w)) = false →
    (e.acwRun w).head + e.acwBlock w ≤ e.acwSize w →
    e.acwBlock w ≤ ringFree (e.acwSize w) (e.acwRun w).head (e.acwCons w) → e.acwQueued (e.acwDomain w) + e.acwBlock w ≤ 4194304 →
    (tget e.links.pcie {} (e.acwDomain w)).up = false → ∃ t, exec (.acwBlockReady dt w) s = .next t ∧
      tget t.acwq [] (e.acwDomain w) = tget e.acwq [] (e.acwDomain w) ++ [⟨w,
        [(e.acwBase w + (e.acwRun w).head,
          e.acwHeader w p false (e.acwSamples w p.count).2 (e.acwRun w).gap (e.acwBlock w) ++ (e.acwSamples w p.count).1)],
        if (e.acwRun w).head + e.acwBlock w = e.acwSize w then 0 else (e.acwRun w).head + e.acwBlock w⟩] ∧
      (t.acwRun w).gap = 0 ∧ (t.acwRun w).start = p.count + 1 ∧ OnlyParts [.acw] e t) ∧
  (∀ dt s e w p pad, s.elapse dt = e → e.boot.up = true → e.acwEn w = true → (e.probe (e.acwPort w)).live.en = true →
    e.acwPeriod (e.acwPort w) (e.acwRun w).start = some p → e.isFrozen (.host (e.acwDomain w)) = false →
    e.acwSize w < (e.acwRun w).head + e.acwBlock w → e.acwSize w - (e.acwRun w).head = pad → 32 ≤ pad → e.acwBlock w < e.acwSize w →
    pad + e.acwBlock w ≤ ringFree (e.acwSize w) (e.acwRun w).head (e.acwCons w) →
    e.acwQueued (e.acwDomain w) + 32 + e.acwBlock w ≤ 4194304 →
    (tget e.links.pcie {} (e.acwDomain w)).up = false → ∃ t, exec (.acwBlockReady dt w) s = .next t ∧
      tget t.acwq [] (e.acwDomain w) = tget e.acwq [] (e.acwDomain w) ++ [⟨w,
        [(e.acwBase w + (e.acwRun w).head, e.acwHeader w p true false (e.acwRun w).gap pad),
         (e.acwBase w, e.acwHeader w p false (e.acwSamples w p.count).2 (e.acwRun w).gap (e.acwBlock w) ++ (e.acwSamples w p.count).1)],
        e.acwBlock w⟩] ∧ OnlyParts [.acw] e t) ∧
  (∀ dt s e w p, s.elapse dt = e → e.boot.up = true → e.acwEn w = true → (e.probe (e.acwPort w)).live.en = true →
    e.acwPeriod (e.acwPort w) (e.acwRun w).start = some p →
    e.isFrozen (.host (e.acwDomain w)) = true ∨
      ringFree (e.acwSize w) (e.acwRun w).head (e.acwCons w) < e.acwBlock w ∨
      4194304 < e.acwQueued (e.acwDomain w) + e.acwBlock w → ∃ t, exec (.acwBlockReady dt w) s = .next t ∧
      t.acwq = e.acwq ∧ t.acwRun w = { e.acwRun w with gap := (e.acwRun w).gap + 1, start := p.count + 1 } ∧
      t.reg Reg.HB_ACW_DROP_CNT = lo32 (min 0xFFFFFFFF ((e.reg Reg.HB_ACW_DROP_CNT).toNat + 1)) ∧
      bitOf (t.reg Reg.HB_ACW_EVT) 0 = true ∧ Changes [.acw, .events] [Reg.HB_ACW_DROP_CNT, Reg.HB_ACW_EVT] e t) ∧
  (∀ dt s e m w, s.elapse dt = e → e.boot.up = true → w < 64 → e.mayWrite m (Reg.HB_ACW_W_R0 w) = true → e.acwEn w = false →
    2 * e.acwBlock w ≤ e.acwSize w → ∃ t, exec (.acwEnable dt m w) s = .next t ∧ t.acwEn w = true ∧
      t.reg (Reg.HB_ACW_W_R6 w) = 0 ∧ t.reg (Reg.HB_ACW_W_R7 w) = 0 ∧
      t.acwRun w = { start := (e.probe (e.acwPort w)).count + 1 } ∧
      Changes [.acw, .events] [Reg.HB_ACW_W_R0 w, Reg.HB_ACW_W_R6 w, Reg.HB_ACW_W_R7 w] e t) ∧
  (∀ dt s e m w, s.elapse dt = e → e.boot.up = true → w < 64 → e.mayWrite m (Reg.HB_ACW_W_R0 w) = true → e.acwEn w = true →
    ∃ t, exec (.acwDisable dt m w) s = .next t ∧ t.acwEn w = false ∧ t.acwq = e.acwq ∧ t.acw = e.acw ∧
      Changes [] [Reg.HB_ACW_W_R0 w] e t)

/-- FRW_SPI_READ, FRW_LATCH_CLR, FRW_CNT_CLR, FRW_RST_SEL, FRW_RST_KEY, FRW_HEAD_SEL_WRITE, FRW_SEC_SEL_WRITE, FRW_COUNT_LO_READ,
FRW_COUNT_HI_READ, FRW_TS_LO_READ, FRW_TS_HI_READ, TELEGRAM_HEADER_RECEIVED (R325 to R337, R383). -/
def Obligations.ForerunnerWindow : Prop :=
  (∀ dt s e a, s.elapse dt = e → e.boot.up = true → e.isFrozen (.host 7) = false → e.frw.first = none →
    a ∉ [0x09, 0x0A, 0x0C, 0x0D] → exec (.frwSpiRead dt a) s =
      .next ((e.setFrw fun f => { f with first := none, key := none }).send (.frwByte a (BitVec.ofNat 8 (e.frwReg a))))) ∧
  (∀ dt s e a, s.elapse dt = e → e.boot.up = true → e.isFrozen (.host 7) = true →
    exec (.frwSpiRead dt a) s = .next (e.send (.frwByte a 0xFF))) ∧
  (∀ dt s e v, s.elapse dt = e → e.boot.up = true → e.isFrozen (.host 7) = false → e.frmOn = false → e.frw.first = none →
    ∃ t, exec (.frwLatchClr dt v) s = .next t ∧ t.frw = { e.frw with key := none, result := 4 } ∧ t.fdin = e.fdin ∧
      OnlyParts [.regs, .copies, .frw, .events] e t) ∧
  (∀ dt s e v, s.elapse dt = e → e.boot.up = true → e.isFrozen (.host 7) = false → e.frmOn = true → e.frw.first = none →
    exec (.frwLatchClr dt v) s = .next (e.setFrw fun f => { f with first := some (0x10, v.toNat, e.tc.now), key := none })) ∧
  (∀ dt s e (v : Byte) t0, s.elapse dt = e → e.boot.up = true → e.fdUp = true → e.isFrozen (.host 7) = false → e.frmOn = true →
    e.frwOwner = true → e.frw.first = some (0x10, v.toNat, t0) → e.tc.now ≤ t0 + 10000000 → 1 ≤ v.toNat → v.toNat ≤ 32 →
    bitOf (e.reg (Reg.FD_WSC_CFG2 (2 * (v.toNat - 1)))) 16 = false → (e.wsc (2 * (v.toNat - 1))).out = false →
    ∃ t, exec (.frwLatchClr dt v) s = .next t ∧ (t.wsc (2 * (v.toNat - 1))).latch = false ∧ t.frw.result = 1 ∧ t.frw.first = none ∧
      t.frw.counts = e.frw.counts ∧ bitOf (t.reg Reg.HB_FRM_EVT) 0 = true) ∧
  (∀ dt s e (v : Byte) t0, s.elapse dt = e → e.boot.up = true → e.isFrozen (.host 7) = false → e.frmOn = true → e.frwOwner = true →
    e.frw.first = some (0x11, v.toNat, t0) → e.tc.now ≤ t0 + 10000000 → 1 ≤ v.toNat → v.toNat ≤ 32 →
    ∃ t, exec (.frwCntClr dt v) s = .next t ∧ tget t.frw.counts (0, 0) (v.toNat - 1) = (0, 0) ∧ t.frw.result = 1 ∧
      t.frw.first = none ∧ (∀ k, k ≠ v.toNat - 1 → tget t.frw.counts (0, 0) k = tget e.frw.counts (0, 0) k) ∧
      Changes [.frw, .events] [Reg.HB_FRM_EVT] e t) ∧
  (∀ dt s e (v : Byte) t0, s.elapse dt = e → e.boot.up = true → e.isFrozen (.host 7) = false → e.frmOn = true →
    e.frwOwns (frwSection v.toNat) = true → e.frw.first = some (0x12, v.toNat, t0) → e.tc.now ≤ t0 + 10000000 → 1 ≤ v.toNat →
    v.toNat ≤ 16 → ∃ t, exec (.frwRstSel dt v) s = .next t ∧ t.frw.rstSel = v.toNat ∧ t.frw.result = 1 ∧ t.frw.first = none ∧
      Changes [.frw, .events] [Reg.HB_FRM_EVT] e t) ∧
  (∀ dt s e, s.elapse dt = e → e.boot.up = true → e.isFrozen (.host 7) = false → e.frmOn = true → e.frw.first = none →
    exec (.frwRstKey dt 0x5A) s = .next (e.setFrw fun f => { f with first := none, key := some e.tc.now })) ∧
  (∀ dt s e t0, s.elapse dt = e → e.boot.up = true → e.isFrozen (.host 7) = false → e.frmOn = true → e.frw.first = none →
    e.frw.key = some t0 → e.tc.now ≤ t0 + 2000000 → e.frw.rstSel ≠ 0 → e.frwOwns (frwSection e.frw.rstSel) = true →
    e.saf.chan.cfg.secUsed (frwSection e.frw.rstSel) = true → e.boot.pwrFail = none → ∃ t, exec (.frwRstKey dt 0xA5) s = .next t ∧
      t.queue = e.queue ++ [e.frwCommand (frwSection e.frw.rstSel)] ∧ t.frw = { e.frw with first := none, key := none, rstSel := 0 } ∧
      OnlyParts [.frw, .commands] e t) ∧
  (∀ dt s e (v : Byte), s.elapse dt = e → e.boot.up = true → e.isFrozen (.host 7) = false → e.frw.first = none → 1 ≤ v.toNat →
    v.toNat ≤ 32 → exec (.frwHeadSelWrite dt v) s = .next (e.setFrw fun f => { f with first := none, key := none, head := v.toNat })) ∧
  (∀ dt s e (v : Byte), s.elapse dt = e → e.boot.up = true → e.isFrozen (.host 7) = false → e.frw.first = none → 1 ≤ v.toNat →
    v.toNat ≤ 16 → exec (.frwSecSelWrite dt v) s = .next (e.setFrw fun f => { f with first := none, key := none, sec := v.toNat })) ∧
  (∀ dt s e, s.elapse dt = e → e.boot.up = true → e.isFrozen (.host 7) = false → e.frmOn = true → e.frw.first = none →
    e.frw.cntLatch = none → exec (.frwCountLoRead dt) s =
      .next ((e.setFrw fun f => { f with first := none, key := none, cntLatch := some (e.frwCountWord / 256) }).send
        (.frwByte 0x0C (BitVec.ofNat 8 (e.frwCountWord % 256))))) ∧
  (∀ dt s e b, s.elapse dt = e → e.boot.up = true → e.isFrozen (.host 7) = false → e.frmOn = true → e.frw.first = none →
    e.frw.cntLatch = some b → exec (.frwCountHiRead dt) s =
      .next ((e.setFrw fun f => { f with first := none, key := none, cntLatch := none }).send (.frwByte 0x0D (BitVec.ofNat 8 b)))) ∧
  (∀ dt s e, s.elapse dt = e → e.boot.up = true → e.isFrozen (.host 7) = false → e.frmOn = true → e.frw.first = none →
    e.frw.tsLatch = none → exec (.frwTsLoRead dt) s =
      .next ((e.setFrw fun f => { f with first := none, key := none, tsLatch := some (e.frwStamp / 256) }).send
        (.frwByte 0x09 (BitVec.ofNat 8 (e.frwStamp % 256))))) ∧
  (∀ dt s e b, s.elapse dt = e → e.boot.up = true → e.isFrozen (.host 7) = false → e.frmOn = true → e.frw.first = none →
    e.frw.tsLatch = some b → exec (.frwTsHiRead dt) s =
      .next ((e.setFrw fun f => { f with first := none, key := none, tsLatch := none }).send (.frwByte 0x0A (BitVec.ofNat 8 b)))) ∧
  (∀ dt s e d c head rest led, s.elapse dt = e → e.fdUp = true → e.mrg.deadB = false → e.links.headers = (d, c, head) :: rest →
    e.ledgerLive = true → tfind e.fds.cycles c = some led → ∃ t, exec (.telegramHeaderReceived dt) s = .next t ∧
      t.links.headers = rest ∧ t.frameAt 5 false = e.now ∧
      t.links.codes = e.links.codes ++ [(d, c, some (crc crc32 (e.foldBytes ++ head ++ sectionBytes led.states)))] ∧
      OnlyParts [.mrg, .links] e t)

/-- LEASE_ACQUIRE, LEASE_RELEASE, LEASE_REVOKE, LEASE_RENEW, LEASE_GRACE, LEASE_LAPSE, COMMAND_ARBITER_ENTRY (R343 to R346, R349,
R351). -/
def Obligations.LeaseIsGrantedAndEnds : Prop :=
  (∀ dt s e c, s.elapse dt = e → e.hears ⟨0x01, c⟩ = true → e.lease.holder = none →
    (bucketAt e.lease.tokens e.lease.tokenAt e.tc.now 8 1000000000).1 ≠ 0 → ∃ t, exec (.leaseAcquire dt c) s = .next t ∧
      t.lease.holder = some c.dom ∧ t.lease.renewed = e.tc.now ∧ t.lease.grace = false ∧
      t.leaseEpoch = (if e.leaseEpoch = 0xFFFFFFFF then 1 else e.leaseEpoch + 1) ∧ bitOf (t.reg Reg.HB_LEASE_EVT) 0 = true ∧
      Answered ⟨0x01, c⟩ 0 e t ∧ OnlyParts [.regs, .copies, .lease, .commands, .events, .store] e t) ∧
  (∀ dt s e c, s.elapse dt = e → e.hears ⟨0x02, c⟩ = true → e.lease.holder = some c.dom → ∃ t, exec (.leaseRelease dt c) s = .next t ∧
      t.lease.holder = none ∧ t.lease.grace = false ∧ t.leaseEpoch = e.leaseEpoch ∧ bitOf (t.reg Reg.HB_LEASE_EVT) 1 = true ∧
      Answered ⟨0x02, c⟩ 0 e t) ∧
  (∀ dt s e c h, s.elapse dt = e → e.hears ⟨0x03, c⟩ = true → e.dev = .maintenance → e.lease.holder = some h →
    ∃ t, exec (.leaseRevoke dt c) s = .next t ∧ t.lease.holder = none ∧ t.lease.grace = false ∧ t.leaseEpoch = e.leaseEpoch ∧
      bitOf (t.reg Reg.HB_LEASE_EVT) 3 = true ∧ Answered ⟨0x03, c⟩ 0 e t) ∧
  (∀ dt s e d v, s.elapse dt = e → e.boot.up = true → e.mayWrite (.host d) Reg.HB_LEASE_RENEW = true → e.lease.holder = some d →
    BitVec.toNat v = e.leaseEpoch → e.lease.renewed + 10000000 ≤ e.tc.now → e.tc.now ≤ e.lease.renewed + 250000000 →
    exec (.leaseRenew dt (.host d) v) s = .next { e with lease := { e.lease with renewed := e.tc.now, grace := false } }) ∧
  (∀ dt s e h, s.elapse dt = e → e.boot.up = true → e.lease.holder = some h → e.lease.grace = false →
    e.lease.renewed + 200000000 ≤ e.tc.now → exec (.leaseGrace dt) s =
      .next ({ e with lease := { e.lease with grace := true } }.setEvt Reg.HB_LEASE_EVT 5)) ∧
  (∀ dt s e h, s.elapse dt = e → e.boot.up = true → e.lease.holder = some h → e.lease.renewed + 250000000 < e.tc.now →
    ∃ t, exec (.leaseLapse dt) s = .next t ∧ t.lease = { e.lease with holder := none, grace := false } ∧
      t.leaseEpoch = e.leaseEpoch ∧ bitOf (t.reg Reg.HB_LEASE_EVT) 2 = true ∧ t.responses = e.responses) ∧
  (∀ dt s e o r, s.elapse dt = e → recordClean r = true → e.hears (recordCmd o r) = true →
    ∃ t, exec (.commandArbiterEntry dt o r) s = .next t ∧ t.queue = e.queue ++ [recordCmd o r] ∧ t.responses = e.responses ∧
      (t.domCmds (originDom o)).outstanding = (e.domCmds (originDom o)).outstanding + 1 ∧ OnlyParts [.commands] e t)

/-- SEC_RESET_PREP, SEC_RESET_DIRECT, SEC_BLOCK, SEC_UNBLOCK (R218, R220 to R222, R351, R354). -/
def Obligations.SectionCommands : Prop :=
  (∀ dt s e c n, s.elapse dt = e → e.hears ⟨0x10, c⟩ = true → e.fenced ⟨0x10, c⟩ = true → n = QueuedCmd.section ⟨0x10, c⟩ →
    e.saf.running = true → e.serving = true → e.frwOwns n = false →
    (e.saf.chan.sec n).st = .disturbed ∨ (e.saf.chan.sec n).st = .pending →
    e.saf.chan.headFaulty n = false → ∃ t, exec (.secResetPrep dt c) s = .next t ∧ (t.saf.chan.sec n).st = .pending ∧
      t.saf.chan.counts n = (0, 0) ∧ (t.saf.chan.sec n).sweep = 0 ∧ (∀ k, k ≠ n → t.saf.chan.sec k = e.saf.chan.sec k) ∧
      t.saf.chan.heads = e.saf.chan.heads ∧ Answered ⟨0x10, c⟩ 0 e t) ∧
  (∀ dt s e c n k x, s.elapse dt = e → e.hears ⟨0x11, c⟩ = true → e.fenced ⟨0x11, c⟩ = true → n = QueuedCmd.section ⟨0x11, c⟩ →
    e.saf.running = true → e.serving = true → e.frwOwns n = false → (e.saf.chan.sec n).st = .disturbed →
    e.saf.chan.headFaulty n = false → e.saf.chan.headHolding n = false → (e.saf.chan.cfg.sec n).rstin = some k →
    tfind e.saf.chan.edges k = some x → near10 x e.tc.now = true → ∃ t, exec (.secResetDirect dt c) s = .next t ∧
      (t.saf.chan.sec n).st = .clear ∧ t.saf.chan.counts n = (0, 0) ∧ (∀ k, k ≠ n → t.saf.chan.sec k = e.saf.chan.sec k) ∧
      t.saf.chan.heads = e.saf.chan.heads ∧ Answered ⟨0x11, c⟩ 0 e t) ∧
  (∀ dt s e c n k, s.elapse dt = e → e.hears ⟨0x11, c⟩ = true → e.fenced ⟨0x11, c⟩ = true → n = QueuedCmd.section ⟨0x11, c⟩ →
    e.saf.running = true → e.serving = true → e.frwOwns n = false → (e.saf.chan.sec n).st = .disturbed →
    e.saf.chan.headFaulty n = false → e.saf.chan.headHolding n = false → (e.saf.chan.cfg.sec n).rstin = some k →
    (∀ x, tfind e.saf.chan.edges k = some x → near10 x e.tc.now = false) → ∃ t, exec (.secResetDirect dt c) s = .next t ∧
      t.saf.chan.sec n = { e.saf.chan.sec n with wait := (e.saf.chan.sec n).wait ++ [(e.tc.now, ⟨0x11, c⟩)] } ∧
      t.saf.chan.heads = e.saf.chan.heads ∧ Answered ⟨0x11, c⟩ 1 e t) ∧
  (∀ dt s e c n, s.elapse dt = e → e.hears ⟨0x12, c⟩ = true → n = QueuedCmd.section ⟨0x12, c⟩ → e.saf.running = true →
    e.serving = true ∨ e.dev = .maintenance → (e.saf.chan.sec n).st ≠ .blocked → ∃ t, exec (.secBlock dt c) s = .next t ∧ (t.saf.chan.sec n).st = .blocked ∧
      t.saf.chan.counts n = e.saf.chan.counts n ∧ (∀ k, k ≠ n → t.saf.chan.sec k = e.saf.chan.sec k) ∧
      t.saf.chan.heads = e.saf.chan.heads ∧ Answered ⟨0x12, c⟩ 0 e t) ∧
  (∀ dt s e c n, s.elapse dt = e → e.hears ⟨0x13, c⟩ = true → n = QueuedCmd.section ⟨0x13, c⟩ → e.saf.running = true →
    e.serving = true ∨ e.dev = .maintenance → e.commitHolds n = false → (e.saf.chan.sec n).st = .blocked →
    (e.saf.chan.sec n).commit = true ∨ (e.saf.chan.sec n).recorded ≠ 0 → ∃ t, exec (.secUnblock dt c) s = .next t ∧ (t.saf.chan.sec n).st = .disturbed ∧
      (t.saf.chan.sec n).cause = (if (e.saf.chan.sec n).commit then 6 else (e.saf.chan.sec n).recorded) ∧ (t.saf.chan.sec n).recorded = 0 ∧
      (∀ k, k ≠ n → t.saf.chan.sec k = e.saf.chan.sec k) ∧ t.saf.chan.heads = e.saf.chan.heads ∧ Answered ⟨0x13, c⟩ 0 e t) ∧
  (∀ dt s e c n, s.elapse dt = e → e.hears ⟨0x13, c⟩ = true → n = QueuedCmd.section ⟨0x13, c⟩ → e.saf.running = true →
    e.serving = true ∨ e.dev = .maintenance → e.commitHolds n = false → (e.saf.chan.sec n).st = .blocked → (e.saf.chan.sec n).commit = false →
    (e.saf.chan.sec n).recorded = 0 → ∃ t, exec (.secUnblock dt c) s = .next t ∧ (t.saf.chan.sec n).st ≠ .blocked ∧
      (∀ k, k ≠ n → t.saf.chan.sec k = e.saf.chan.sec k) ∧ t.saf.chan.heads = e.saf.chan.heads ∧ Answered ⟨0x13, c⟩ 0 e t)

/-- BRAKE_TEST, SAFE_STOP, MAINT_ENTER, MAINT_LEAVE, UNFREEZE, PASSWORD_SET, PASSWORD_LOCKOUT_END, LOCKOUT_TIME_SAVE, LEDGER_SELFTEST
(R271, R272, R274, R314, R355, R356, R361). -/
def Obligations.DeviceCommands : Prop :=
  (∀ dt s e c k, s.elapse dt = e → e.hears ⟨0x14, c⟩ = true → e.fenced ⟨0x14, c⟩ = true → k = QueuedCmd.argByte ⟨0x14, c⟩ 0 →
    e.fdUp = true → e.dev = .maintenance → e.fds.first = none → (e.brake k).step = .none → (e.vo (16 + k)).latched = [] →
    e.brakeOn (16 + k) = true → e.applied k = false → ∃ t, exec (.brakeTest dt c) s = .next t ∧
      t.brake k = { step := .apply, since := e.now, res := 1 } ∧ Answered ⟨0x14, c⟩ 0 e t) ∧
  (∀ dt s e c, s.elapse dt = e → e.hears ⟨0x15, c⟩ = true → e.roleBit c.dom 2 = true → c.epoch = 0 → e.dev = .service →
    e.fdUp = true → e.boot.shaken = true → e.fds.causes = [] → e.fds.first = none → ∃ t, exec (.safeStop dt c) s = .next t ∧
      t.dev = .safeStop ∧ t.fds.first = some 10 ∧ t.fds.causes = [] ∧ bitOf (t.reg Reg.FD_CMB_EVT) 2 = true ∧
      Answered ⟨0x15, c⟩ 0 e t) ∧
  (∀ dt s e c, s.elapse dt = e → e.hears ⟨0x20, c⟩ = true → e.dev = .service ∨ e.dev = .degraded →
    ∃ t, exec (.maintEnter dt c) s = .next t ∧ t.dev = .maintenance ∧ t.str = e.str ∧ t.lease = e.lease ∧
      Answered ⟨0x20, c⟩ 0 e t) ∧
  (∀ dt s e c, s.elapse dt = e → e.hears ⟨0x21, c⟩ = true → e.dev = .maintenance → ∃ t, exec (.maintLeave dt c) s = .next t ∧
      t.dev = (if e.degradedCond then .degraded else .service) ∧ Answered ⟨0x21, c⟩ 0 e t) ∧
  (∀ dt s e c who, s.elapse dt = e → e.hears ⟨0x30, c⟩ = true → who = QueuedCmd.frozenName ⟨0x30, c⟩ → e.closedName who = false →
    (e.maintPwd.check (bytesAt c.args 2 12) e.now false).1 = 0 → who ∈ e.frozen → ∃ t, exec (.unfreeze dt c) s = .next t ∧
      who ∉ t.frozen ∧ (∀ x, x ∈ t.frzRecs → x.2.who ≠ who) ∧ (∀ x, x ≠ who → (x ∈ t.frozen ↔ x ∈ e.frozen)) ∧
      Answered ⟨0x30, c⟩ 0 e t) ∧
  (∀ dt s e c, s.elapse dt = e → e.hears ⟨0x31, c⟩ = true → e.dev = .maintenance →
    (e.maintPwd.check (bytesAt c.args 0 12) e.now true).1 = 0 → ∃ t, exec (.passwordSet dt c) s = .next t ∧
      t.maintPwd.value = bytesAt c.args 12 12 ∧ t.maintPwd.fails = 0 ∧ t.safetyPwd = e.safetyPwd ∧ Answered ⟨0x31, c⟩ 0 e t) ∧
  (∀ dt s e, s.elapse dt = e → e.boot.up = true → exec (.passwordLockoutEnd dt false) s =
      .next { e with maintPwd := e.maintPwd.settle e.now }) ∧
  (∀ dt s e, s.elapse dt = e → e.boot.up = true → exec (.passwordLockoutEnd dt true) s =
      .next { e with safetyPwd := e.safetyPwd.settle e.now }) ∧
  (∀ dt s e, s.elapse dt = e → e.boot.up = true → e.boot.pwrFail = none → exec (.lockoutTimeSave dt) s =
      .next { e with maintPwd := e.maintPwd.save e.now, safetyPwd := e.safetyPwd.save e.now }) ∧
  (∀ dt s e c, s.elapse dt = e → e.hears ⟨0x32, c⟩ = true → e.dev = .safeStop → e.fdUp = true →
    ∃ t, exec (.ledgerSelftest dt c) s = .next t ∧ t.fds.fault = false ∧ t.fds.causes = e.fds.causes ∧ t.dev = .safeStop ∧
      (∀ x, x ∈ t.fds.led.secs → x.2.st = .disturbed) ∧ Answered ⟨0x32, c⟩ 0 e t)

/-- STRUCT_OPEN, STAGE_WRITE, STRUCT_VERIFY, VERIFY_COMPLETE, STAGING_TIMEOUT, STRUCT_ABORT, STRUCT_PWD_SET (R397 to R401, R404,
R410). -/
def Obligations.StagingProceeds : Prop :=
  (∀ dt s e c, s.elapse dt = e → e.hears ⟨0x40, c⟩ = true → e.str.st = .idle → e.str.sel = none → e.dev ≠ .watch → e.dev ≠ .safeStop →
    ∃ t, exec (.structOpen dt c) s = .next t ∧
      t.str = { e.str with st := .open, owner := some c.dom, used := e.now, code := 0, detail := 0, errFrame := 0 } ∧
      Answered ⟨0x40, c⟩ 0 e t ∧ OnlyParts [.regs, .copies, .str, .commands, .events, .store] e t) ∧
  (∀ dt s e m off v, s.elapse dt = e → e.boot.up = true → e.closedMaster m = false → e.romFail = false → e.isFrozen m = false →
    e.stageAllowed m = true → off < 65536 → e.str.st = .open → exec (.stageWrite dt m off v) s =
      .next ((e.setStr fun x => { x with used := e.now }).store (stagingBase + e.stageIndex off) (leBytes 4 v.toNat))) ∧
  (∀ dt s e m off v, s.elapse dt = e → e.boot.up = true → e.closedMaster m = false → e.romFail = false → e.isFrozen m = false →
    e.stageAllowed m = true → off < 65536 → e.str.st ≠ .open → exec (.stageWrite dt m off v) s =
      .next ((e.setStr fun x => { x with used := e.now }).setEvt Reg.HB_STR_EVT 6)) ∧
  (∀ dt s e c, s.elapse dt = e → e.hears ⟨0x41, c⟩ = true → e.str.st = .open → e.str.owner = some c.dom →
    ∃ t, exec (.structVerify dt c) s = .next t ∧
      t.str = { e.str with st := .verifying, verifyLen := leNat (bytesAt c.args 0 4), used := e.now } ∧ Answered ⟨0x41, c⟩ 0 e t) ∧
  (∀ dt s e nvOk b, s.elapse dt = e → e.boot.up = true → e.str.st = .verifying →
    b = e.load stagingBase (min e.str.verifyLen stagingSize) →
    ∃ t, exec (.verifyComplete ⟨dt, nvOk⟩) s = .next t ∧ t.str.owner = e.str.owner ∧ t.str.live = e.str.live ∧
      (∀ code fseq, e.imageCheck e.str.verifyLen b = .inr (code, fseq) →
        t = (e.setStr fun x => { x with st := .open, code := code, detail := 0, errFrame := fseq }).setEvt Reg.HB_STR_EVT 1) ∧
      (∀ fs rule fseq, e.imageCheck e.str.verifyLen b = .inl fs → ruleError fs = some (rule, fseq) →
        t = (e.setStr fun x => { x with st := .open, code := 0xB, detail := rule, errFrame := fseq }).setEvt Reg.HB_STR_EVT 1) ∧
      (∀ fs, e.imageCheck e.str.verifyLen b = .inl fs → ruleError fs = none → nvOk = true → e.boot.pwrFail = none →
        t.str.st = .verified ∧ t.str.staged = b ∧
        (if e.stageSlotB then t.str.slotB else t.str.slotA) = { gen := 0, bytes := b, sound := true } ∧
        (if e.stageSlotB then t.str.slotA = e.str.slotA else t.str.slotB = e.str.slotB) ∧
        bitOf (t.reg Reg.HB_STR_EVT) 0 = true ∧ OnlyParts [.regs, .copies, .str, .events] e t) ∧
      (∀ fs, e.imageCheck e.str.verifyLen b = .inl fs → ruleError fs = none → nvOk = false ∨ e.boot.pwrFail ≠ none →
        t.str.st = .open ∧ t.str.code = 0x16 ∧ t.str.staged = e.str.staged ∧ bitOf (t.reg Reg.HB_STR_EVT) 1 = true ∧
        Changes [.str, .events] [Reg.HB_STR_EVT] e t)) ∧
  (∀ dt s e d, s.elapse dt = e → e.boot.up = true → e.str.owner = some d → e.str.used + 600000000000 ≤ e.now → e.str.st = .open →
    ∃ t, exec (.stagingTimeout dt) s = .next t ∧
      t.str = { e.str with st := .idle, owner := none, staged := [], commit := none, last := 3 } ∧
      bitOf (t.reg Reg.HB_STR_EVT) 4 = true) ∧
  (∀ dt s e c, s.elapse dt = e → e.hears ⟨0x43, c⟩ = true → e.str.owner = some c.dom → e.str.st = .open →
    ∃ t, exec (.structAbort dt c) s = .next t ∧ t.str.st = .idle ∧ t.str.owner = none ∧ t.str.last = 3 ∧ t.str.live = e.str.live ∧
      bitOf (t.reg Reg.HB_STR_EVT) 4 = true ∧ Answered ⟨0x43, c⟩ 0 e t) ∧
  (∀ dt s e c, s.elapse dt = e → e.hears ⟨0x43, c⟩ = true → e.str.owner = some c.dom → e.str.st = .latched →
    ∃ t, exec (.structAbort dt c) s = .next t ∧ t.str.st = .latched ∧ t.str.commit = e.str.commit ∧ t.str.ignored = true ∧
      bitOf (t.reg Reg.HB_STR_EVT) 5 = true ∧ Answered ⟨0x43, c⟩ 0 e t) ∧
  (∀ dt s e c, s.elapse dt = e → e.hears ⟨0x44, c⟩ = true → e.str.st = .idle → e.str.owner = none → e.dev = .maintenance →
    (e.safetyPwd.check (bytesAt c.args 0 12) e.now true).1 = 0 → e.clgFull = false → ∃ t, exec (.structPwdSet dt c) s = .next t ∧
      t.safetyPwd.value = bytesAt c.args 12 12 ∧ t.maintPwd = e.maintPwd ∧ t.clgLast = e.clgLast + 1 ∧ t.str = e.str ∧
      Answered ⟨0x44, c⟩ 0 e t)

/-- STRUCT_COMMIT, STRUCT_FRAME_RECEIVED, STRUCT_FRAME_ACK, COMMIT_DISTRIB_TIMEOUT, COMMIT_NV_WRITES_DONE, COMMIT_EFFECT (R402, R403,
R405 to R407). -/
def Obligations.CommitProceeds : Prop :=
  (∀ dt s e c a, s.elapse dt = e → e.hears ⟨0x42, c⟩ = true → a = commitArgs c.args → e.commitBarred c.dom a = none →
    (a.partly = true ∧ ruleError (e.commitFrames false a.units) = none ∨
      a.partly = false ∧ (e.commitKeys a).any FrameKey.safety = false) → ∃ t x, exec (.structCommit dt c) s = .next t ∧
      t.str.st = .committing ∧ t.str.commit = some x ∧ x.full = !a.partly ∧ x.epoch = a.epoch ∧ x.safety = false ∧ x.shadows = [] ∧
      x.acks = [] ∧ x.durable = false ∧ x.since = e.now ∧ x.dom = c.dom ∧ t.str.live = e.str.live ∧ t.safetyPwd = e.safetyPwd ∧
      Answered ⟨0x42, c⟩ 0 e t) ∧
  (∀ dt s e c a, s.elapse dt = e → e.hears ⟨0x42, c⟩ = true → a = commitArgs c.args → e.commitBarred c.dom a = none →
    a.partly = false → (e.commitKeys a).any FrameKey.safety = true → (e.safetyPwd.check a.pwd e.now false).1 = 0 →
    e.notBlocked (affectedOf e.liveFrames e.stagedFrames) = none → e.clgFull = false → ∃ t x, exec (.structCommit dt c) s = .next t ∧
      t.str.st = .committing ∧ t.str.commit = some x ∧ x.full = true ∧ x.epoch = a.epoch ∧ x.safety = true ∧
      x.affected = affectedOf e.liveFrames e.stagedFrames ∧ x.durable = false ∧ t.str.live = e.str.live ∧ Answered ⟨0x42, c⟩ 0 e t) ∧
  (∀ dt s e c a rule fseq, s.elapse dt = e → e.hears ⟨0x42, c⟩ = true → a = commitArgs c.args → e.commitBarred c.dom a = none →
    a.partly = true → ruleError (e.commitFrames false a.units) = some (rule, fseq) → ∃ t, exec (.structCommit dt c) s = .next t ∧
      t.str.st = e.str.st ∧ t.str.commit = e.str.commit ∧ t.str.code = 0xB ∧ t.str.detail = rule ∧ t.str.errFrame = fseq ∧
      Answered ⟨0x42, c⟩ 2 e t) ∧
  (∀ dt s e k c, s.elapse dt = e → e.boot.up = true → e.str.st = .committing → e.str.commit = some c → c.targets.contains k = true →
    c.shadows.contains k = false → exec (.structFrameReceived dt ⟨k, false⟩) s = .next ((e.setStr fun x => { x with
      st := .verified, commit := none, last := 2, code := 0x11, detail := 0, errFrame := 0 }).setEvt Reg.HB_STR_EVT 3)) ∧
  (∀ dt s e k c, s.elapse dt = e → e.boot.up = true → e.str.st = .committing → e.str.commit = some c → c.targets.contains k = true →
    c.shadows.contains k = false → (k < 4 → (e.die k).dieFault = false) → e.targetLive k = true →
    exec (.structFrameReceived dt ⟨k, true⟩) s = .next (e.setStr fun x => { x with commit := some { c with shadows := k :: c.shadows } })) ∧
  (∀ dt s e k c, s.elapse dt = e → e.boot.up = true → e.str.st = .committing → e.str.commit = some c → e.now ≤ c.since + 250000000 →
    c.shadows.contains k = true → c.acks.contains k = false → c.targets.all (k :: c.acks).contains = true →
    exec (.structFrameAck dt k) s =
      .next (e.setStr fun x => { x with st := .latched, commit := some { c with acks := k :: c.acks } })) ∧
  (∀ dt s e k c, s.elapse dt = e → e.boot.up = true → e.str.st = .committing → e.str.commit = some c → e.now ≤ c.since + 250000000 →
    c.shadows.contains k = true → c.acks.contains k = false → c.targets.all (k :: c.acks).contains = false →
    exec (.structFrameAck dt k) s = .next (e.setStr fun x => { x with commit := some { c with acks := k :: c.acks } })) ∧
  (∀ dt s e c, s.elapse dt = e → e.boot.up = true → e.str.st = .committing → e.str.commit = some c → c.since + 250000000 < e.now →
    exec (.commitDistribTimeout dt) s = .next ((e.setStr fun x => { x with
      st := .verified, commit := none, last := 2, code := 0x10, detail := 0, errFrame := 0 }).setEvt Reg.HB_STR_EVT 3)) ∧
  (∀ dt s e c, s.elapse dt = e → e.boot.up = true → e.str.st = .latched → e.str.commit = some c → c.durable = false → c.safety = false →
    c.full = true → e.boot.pwrFail = none → ∃ t, exec (.commitNvWritesDone ⟨dt, 3⟩) s = .next t ∧
      t.str.commit = some { c with durable := true } ∧ t.str.epochMax = max e.str.epochMax c.epoch ∧ t.str.baseB = e.stageSlotB ∧
      (if e.stageSlotB then t.str.slotB else t.str.slotA).gen = max e.str.slotA.gen e.str.slotB.gen + 1 ∧
      (if e.stageSlotB then t.str.slotB else t.str.slotA).epoch = c.epoch ∧
      (if e.stageSlotB then t.str.slotA else t.str.slotB) = (if e.stageSlotB then e.str.slotA else e.str.slotB) ∧
      t.str.sel = none ∧ t.str.live = e.str.live ∧ OnlyParts [.str] e t) ∧
  (∀ dt s e c, s.elapse dt = e → e.boot.up = true → e.str.st = .latched → e.str.commit = some c → c.safety = true →
    c.durable = false → e.boot.pwrFail = none → ∃ t, exec (.commitNvWritesDone ⟨dt, 3⟩) s = .next t ∧ t.clgLast = e.clgLast + 1 ∧
      t.str.commit = some { c with durable := true }) ∧
  (∀ dt s e c n, s.elapse dt = e → e.boot.up = true → e.str.st = .latched → e.str.commit = some c → c.durable = false → n < 3 →
    e.boot.pwrFail = none → ∃ t, exec (.commitNvWritesDone ⟨dt, n⟩) s = .next t ∧ t.str.st = .verified ∧ t.str.commit = none ∧
      t.str.code = 0x16 ∧ t.str.epochMax = (if n = 2 then max e.str.epochMax c.epoch else e.str.epochMax) ∧
      t.clgLast = e.clgLast + b2n (c.safety && decide (1 ≤ n)) ∧ t.str.live = e.str.live ∧ t.str.slotA = e.str.slotA ∧
      t.str.slotB = e.str.slotB ∧ t.str.sel = e.str.sel ∧ bitOf (t.reg Reg.HB_STR_EVT) 3 = true) ∧
  (∀ dt s e c nvBad, s.elapse dt = e → e.boot.up = true → e.boundaryDue = true → e.str.st = .latched → e.str.commit = some c →
    c.restore = false → c.durable = true → c.full = false → ∃ t, exec (.commitEffect ⟨dt, nvBad⟩) s = .next t ∧ t.str.st = .verified ∧
      t.str.commit = none ∧ t.str.live = some (e.commitFrames false c.units) ∧ t.str.last = 1 ∧ t.str.owner = e.str.owner ∧
      t.reg Reg.HB_STR_EPOCH = lo32 c.epoch ∧ t.saf.dueAt = some e.dueTime ∧ bitOf (t.reg Reg.HB_STR_EVT) 2 = true) ∧
  (∀ dt s e c nvBad, s.elapse dt = e → e.boot.up = true → e.boundaryDue = true → e.str.st = .latched → e.str.commit = some c →
    c.restore = false → c.durable = true → c.full = true → ∃ t, exec (.commitEffect ⟨dt, nvBad⟩) s = .next t ∧ t.str.st = .idle ∧
      t.str.commit = none ∧ t.str.live = some e.stagedFrames ∧ t.str.last = 1 ∧ t.str.owner = none ∧
      t.reg Reg.HB_STR_EPOCH = lo32 c.epoch ∧ t.saf.dueAt = some e.dueTime ∧ bitOf (t.reg Reg.HB_STR_EVT) 2 = true)

/-- EVENT_ENTRY_DELIVER, EVENT_TELEGRAM_SEND, SNAPSHOT_TAKE, SNAPSHOT_FILL, EVR_QUEUE_CONFIG_WRITE, CMDQ_DOORBELL,
COMMAND_RECORD_FETCH, RESPONSE_DELIVER, LNK_QUEUE_CONFIG_WRITE, PCIE_PORT_RESET, PCIE_LINK_UP, MBOX_SUBMIT (R363 to R366, R370 to R374,
R382, R387, R390, R544). That a masked vector waits in the pending bit array is the PCI Express standard's rule (log entry 148). -/
def Obligations.EventsSnapshotsRings : Prop :=
  (∀ dt s e x rest, s.elapse dt = e → e.boot.up = true → x.dom < 2 → e.due = x :: rest →
    e.ringFull x.dom Reg.HB_EVR_Q_BASE_LO = false → e.evOver.contains x.dom = false →
    (e.msixOf x.dom).masked (fld (e.reg (Reg.HB_EVR_ROUTE x.src)) 8 6) = true →
    ∃ t, exec (.eventEntryDeliver dt x.dom) s = .next t ∧ t.due = rest ∧ t.sent = e.sent ∧
      t.msixOf x.dom = { e.msixOf x.dom with
        pend := (e.msixOf x.dom).pend ||| BitVec.twoPow 64 (fld (e.reg (Reg.HB_EVR_ROUTE x.src)) 8 6) } ∧
      t.mem = memStore e.mem (hostAddr x.dom (e.ringBase x.dom Reg.HB_EVR_Q_BASE_LO + 16 * e.ringProd x.dom Reg.HB_EVR_Q_BASE_LO))
        (x.bytes false leBytes) ∧ OnlyParts [.copies, .events, .cvu, .mem, .links] e t) ∧
  (∀ dt s e x rest, s.elapse dt = e → e.boot.up = true → x.dom < 2 → e.due = x :: rest →
    e.ringFull x.dom Reg.HB_EVR_Q_BASE_LO = false → e.evOver.contains x.dom = false →
    (e.msixOf x.dom).masked (fld (e.reg (Reg.HB_EVR_ROUTE x.src)) 8 6) = false →
    ∃ t, exec (.eventEntryDeliver dt x.dom) s = .next t ∧ t.due = rest ∧
      t.mem = memStore e.mem (hostAddr x.dom (e.ringBase x.dom Reg.HB_EVR_Q_BASE_LO + 16 * e.ringProd x.dom Reg.HB_EVR_Q_BASE_LO))
        (x.bytes false leBytes) ∧
      t.ringProd x.dom Reg.HB_EVR_Q_BASE_LO =
        (e.ringProd x.dom Reg.HB_EVR_Q_BASE_LO + 1) % e.ringSize x.dom Reg.HB_EVR_Q_BASE_LO ∧
      t.sent = .msix x.dom (fld (e.reg (Reg.HB_EVR_ROUTE x.src)) 8 6) :: e.sent ∧
      OnlyParts [.copies, .events, .cvu, .mem, .sent] e t) ∧
  (∀ dt s e x rest, s.elapse dt = e → e.boot.up = true → x.dom < 2 → e.due = x :: rest →
    e.ringFull x.dom Reg.HB_EVR_Q_BASE_LO = true → ∃ t, exec (.eventEntryDeliver dt x.dom) s = .next t ∧ t.due = rest ∧
      t.mreg (.host x.dom) Reg.HB_EVR_LOST = lo32 (min 0xFFFFFFFF ((e.mreg (.host x.dom) Reg.HB_EVR_LOST).toNat + 1)) ∧
      x.dom ∈ t.evOver ∧ OnlyParts [.copies, .events] e t) ∧
  (∀ dt s e d, s.elapse dt = e → e.boot.up = true → (e.session d).up = true → (e.due.filter fun x => x.dom == d) ≠ [] →
    ∃ t, exec (.eventTelegramSend dt d) s = .next t ∧
      (t.due.filter fun x => x.dom == d) = (e.due.filter fun x => x.dom == d).drop 64 ∧
      (t.due.filter fun x => x.dom != d) = (e.due.filter fun x => x.dom != d) ∧ (t.session d).eseq = (e.session d).eseq + 1 ∧
      (t.session d).mseq = (e.session d).mseq + 1 ∧ t.sent.length = e.sent.length + (e.sessionPorts d).length ∧
      OnlyParts [.links, .events, .sent] e t) ∧
  (∀ dt s e m, s.elapse dt = e → e.boot.up = true → e.mayWrite m Reg.HB_SNAP_CTL = true → exec (.snapshotTake dt m) s =
      .next { e with
        snaps := tset e.snaps (masterCode m) { e.snap (masterCode m) with requested := true, ready := false, due := false } }) ∧
  (∀ dt s e d, s.elapse dt = e → e.boot.up = true → d < 8 → (e.snap d).due = true → ∃ t, exec (.snapshotFill dt d) s = .next t ∧
      t.snap d = { e.snap d with due := false, ready := true } ∧
      (e.receives d 15 = true → bitOf (t.mreg (.host d) (Reg.HB_EVR_PEND 0)) 15 = true) ∧
      OnlyParts [.copies, .events, .snaps] e t) ∧
  (∀ dt s e m v, s.elapse dt = e → e.boot.up = true → e.mayWrite m Reg.HB_EVR_Q_BASE_LO = true →
    exec (.evrQueueConfigWrite dt m Reg.HB_EVR_Q_BASE_LO v) s = .next (((e.setMreg m Reg.HB_EVR_Q_BASE_LO (v &&& 0xFFFFFFF0)).setMreg m
      Reg.HB_EVR_Q_PROD 0).setMreg m Reg.HB_EVR_Q_CONS 0)) ∧
  (∀ dt s e m v, s.elapse dt = e → e.boot.up = true → e.mayWrite m Reg.HB_EVR_Q_SIZE = true → v.toNat < 65536 →
    exec (.evrQueueConfigWrite dt m Reg.HB_EVR_Q_SIZE v) s =
      .next (((e.setMreg m Reg.HB_EVR_Q_SIZE (lo32 (if v.toNat = 0 then 0 else clampNat 64 65535 v.toNat))).setMreg m
        Reg.HB_EVR_Q_PROD 0).setMreg m Reg.HB_EVR_Q_CONS 0)) ∧
  (∀ dt s e m v, s.elapse dt = e → e.boot.up = true → isPcie m = true → e.mayWrite m Reg.HB_LNK_CMDQ_PROD = true →
    v.toNat < 8192 → exec (.cmdqDoorbell dt m v) s = .next (e.setMreg m Reg.HB_LNK_CMDQ_PROD v)) ∧
  (∀ dt s e d r, s.elapse dt = e → e.fetchable d = true → recordClean r = true → e.hears (recordCmd (.ring d) r) = true →
    ∃ t, exec (.commandRecordFetch dt d r) s = .next t ∧ t.queue = e.queue ++ [recordCmd (.ring d) r] ∧
      t.ringCons d Reg.HB_LNK_CMDQ_BASE_LO = (e.ringCons d Reg.HB_LNK_CMDQ_BASE_LO + 1) % e.ringSize d Reg.HB_LNK_CMDQ_BASE_LO ∧
      (t.domCmds d).outstanding = (e.domCmds d).outstanding + 1 ∧ OnlyParts [.copies, .commands] e t) ∧
  (∀ dt s e d p r rest, s.elapse dt = e → e.boot.up = true → e.boot.pwrFail = none → e.boot.resetDue = none →
    e.responses = r :: rest → r.dom = d → r.origin = .ring p → p < 2 → e.ringFull p Reg.HB_LNK_RSPQ_BASE_LO = false → ∃ t, exec (.responseDeliver dt d) s = .next t ∧
      t.responses = rest ∧ (t.domCmds d).outstanding = (e.domCmds d).outstanding - 1 ∧
      t.mem = memStore e.mem (hostAddr p (e.ringBase p Reg.HB_LNK_RSPQ_BASE_LO + 32 * e.ringProd p Reg.HB_LNK_RSPQ_BASE_LO)) r.bytes ∧
      t.ringProd p Reg.HB_LNK_RSPQ_BASE_LO =
        (e.ringProd p Reg.HB_LNK_RSPQ_BASE_LO + 1) % e.ringSize p Reg.HB_LNK_RSPQ_BASE_LO) ∧
  (∀ dt s e d m r rest, s.elapse dt = e → e.boot.up = true → e.boot.pwrFail = none → e.boot.resetDue = none →
    e.responses = r :: rest → r.dom = d → r.origin = .mailbox m → ∃ t, exec (.responseDeliver dt d) s = .next t ∧ t.responses = rest ∧ t.links.mboxBusy = false ∧
      t.links.mboxReady = true ∧ (∀ w, w < 8 → t.mreg (.host 7) (Reg.HB_LNK_MRSP w) = bufWord r.bytes w) ∧ t.mem = e.mem) ∧
  (∀ dt s e m v, s.elapse dt = e → e.boot.up = true → isPcie m = true → e.mayWrite m Reg.HB_LNK_CMDQ_BASE_LO = true →
    exec (.lnkQueueConfigWrite dt m Reg.HB_LNK_CMDQ_BASE_LO v) s = .next (((e.setMreg m Reg.HB_LNK_CMDQ_BASE_LO (v &&& 0xFFFFFFC0)).setMreg
      m Reg.HB_LNK_CMDQ_PROD 0).setMreg m Reg.HB_LNK_CMDQ_CONS 0)) ∧
  (∀ dt s e m v, s.elapse dt = e → e.boot.up = true → isPcie m = true → e.mayWrite m Reg.HB_LNK_TLGQ_SIZE = true → v.toNat < 512 →
    exec (.lnkQueueConfigWrite dt m Reg.HB_LNK_TLGQ_SIZE v) s = .next ((e.setMreg m Reg.HB_LNK_TLGQ_SIZE
      (lo32 (if v.toNat = 0 then 0 else clampNat 4 256 v.toNat))).setMreg m Reg.HB_LNK_TLGQ_LAST 0)) ∧
  (∀ dt s e p, s.elapse dt = e → e.boot.up = true → p < 2 → ∃ t, exec (.pciePortReset dt p) s = .next t ∧
      tget t.links.pcie {} p = {} ∧ t.msixOf p = {} ∧ (∀ r, r ∈ t.responses ↔ r ∈ e.responses ∧ r.dom ≠ p) ∧
      (∀ a, Reg.HB_LNK_STATUS ≤ a → a < Reg.HB_NET_CFG 0 → t.mreg (.host p) a = resetOf a)) ∧
  (∀ dt s e p x v n, s.elapse dt = e → e.boot.up = true → p < 2 → e.isFrozen (.host p) = false → x % 4 = 0 → x < 0x400 → n = x / 16 →
    ∃ t, exec (.registerWrite dt (.host p) (bar2Base + x) v) s = .next t ∧ (t.msixOf p).word (x / 4) = v &&& msixMask (x / 4) ∧
      (∀ i, i ≠ x / 4 → (t.msixOf p).word i = (e.msixOf p).word i) ∧
      (∀ i, i < 64 → ((t.msixOf p).pend.getLsbD i = ((e.msixOf p).pend.getLsbD i && (i != n || (t.msixOf p).masked n)))) ∧
      t.sent = (if (e.msixOf p).pend.getLsbD n = true ∧ (t.msixOf p).masked n = false then .msix p n :: e.sent else e.sent) ∧
      (∀ q, q ≠ p → t.msixOf q = e.msixOf q) ∧ OnlyParts [.links, .sent] e t) ∧
  (∀ dt s e p x v, s.elapse dt = e → e.boot.up = true → p < 2 → x % 4 = 0 → x < 0x4000 → 0x400 ≤ x ∨ e.isFrozen (.host p) = true →
    exec (.registerWrite dt (.host p) (bar2Base + x) v) s = .next e) ∧
  (∀ dt s e p x, s.elapse dt = e → e.boot.up = true → p < 2 → x % 4 = 0 → x < 0x4000 → e.isFrozen (.host p) = false →
    exec (.registerRead dt (.host p) (bar2Base + x)) s = .next (e.send (.reply (.host p) (bar2Base + x)
      (if x < 0x400 then (e.msixOf p).word (x / 4)
        else if x = 0x2000 then (e.msixOf p).pend.setWidth 32
        else if x = 0x2004 then ((e.msixOf p).pend >>> 32).setWidth 32 else 0) false))) ∧
  (∀ dt s e p sp w, s.elapse dt = e → e.boot.up = true → p < 2 → ∃ t, exec (.pcieLinkUp dt p sp w) s = .next t ∧
      tget t.links.pcie {} p = ⟨true, sp, w⟩ ∧ tget t.acwq [] p = [] ∧ bitOf (t.mreg (.host p) Reg.HB_LNK_EVT) 1 = true ∧
      OnlyParts [.regs, .copies, .acw, .links, .cvu, .mem] e t) ∧
  (∀ dt s e, s.elapse dt = e → e.mayWrite (.host 7) Reg.HB_LNK_MBOX_CTL = true → e.links.mboxBusy = false →
    recordClean e.mboxRecord = true → e.hears (recordCmd (.mailbox (.host 7)) e.mboxRecord) = true →
    ∃ t, exec (.mboxSubmit dt (.host 7)) s = .next t ∧ t.queue = e.queue ++ [recordCmd (.mailbox (.host 7)) e.mboxRecord] ∧
      t.links = { e.links with mboxBusy := true, mboxReady := false } ∧ OnlyParts [.links, .commands] e t) ∧
  (∀ dt s e, s.elapse dt = e → e.boot.up = true → e.mayWrite (.host 7) Reg.HB_LNK_MBOX_CTL = true → e.links.mboxBusy = true →
    exec (.mboxSubmit dt (.host 7)) s = .next (e.lnkEvt 7 2))

/-- VITAL_TELEGRAM_FORM, CODE_H_RECEIVED, TELEGRAM_DEADLINE (R383 to R386). -/
def Obligations.VitalTelegrams : Prop :=
  (∀ dt s e d, s.elapse dt = e → e.boot.up = true → e.telegramFor d = true → e.codePValid = true → e.saf.sentCycle = e.saf.cycle →
    e.saf.cycle % max 1 (fld (e.reg Reg.HB_LNK_TLG_CFG) 0 7) = 0 → tfind e.links.formed d ≠ some e.saf.cycle →
    tfind e.links.telegrams d = none → e.fdUp = true → e.boot.shaken = true → e.mrg.deadB = false →
    ∃ t q head, exec (.vitalTelegramForm dt d) s = .next t ∧ q = tget e.links.tseq 0 d % 0xFFFFFFFF + 1 ∧ head = e.telegramHeader d q ∧
      tget t.links.tseq 0 d = q ∧ t.mreg (.host d) Reg.HB_LNK_TSEQ = lo32 q ∧
      t.links.headers = e.links.headers ++ [(d, e.saf.cycle, head)] ∧
      tfind t.links.telegrams d = some ⟨e.saf.cycle, e.saf.cycleAt, head ++ sectionBytes e.saf.sentStates,
        some (crc crc32c (e.foldBytes ++ (head ++ sectionBytes e.saf.sentStates)))⟩ ∧ OnlyParts [.copies, .links] e t) ∧
  (∀ dt s e d c h x p rest, s.elapse dt = e → e.boot.up = true → e.mrg.deadB = false → d < 2 → e.links.codes = (d, c, some h) :: rest →
    tfind e.links.telegrams d = some x → x.cycle = c → x.codeP = some p → e.ringSize d Reg.HB_LNK_TLGQ_BASE_LO ≠ 0 →
    ∃ t, exec (.codeHReceived dt d) s = .next t ∧ t.links.codes = rest ∧ tfind t.links.telegrams d = none ∧
      t.mreg (.host d) Reg.HB_LNK_TLGQ_LAST = lo32 (beNat (bytesAt x.payload 20 4)) ∧
      t.mem = memStore e.mem (hostAddr d (e.ringBase d Reg.HB_LNK_TLGQ_BASE_LO +
          2048 * (beNat (bytesAt x.payload 20 4) % e.ringSize d Reg.HB_LNK_TLGQ_BASE_LO)))
        (datagramBytes 1 0 0 0 (x.payload ++ beBytes 4 p ++ beBytes 4 h)) ∧ OnlyParts [.copies, .mrg, .links, .cvu, .mem] e t) ∧
  (∀ dt s e d c h x p rest, s.elapse dt = e → e.boot.up = true → e.mrg.deadB = false → 2 ≤ d → e.links.codes = (d, c, some h) :: rest →
    tfind e.links.telegrams d = some x → x.cycle = c → x.codeP = some p → (e.session d).up = true →
    ∃ t, exec (.codeHReceived dt d) s = .next t ∧ t.links.codes = rest ∧ tfind t.links.telegrams d = none ∧
      (t.session d).mseq = (e.session d).mseq + 1 ∧ (t.session d).txAt = e.now ∧
      (∀ k, k ∈ e.sessionPorts d → .datagram d k 1 ((e.session d).mseq + 1) (datagramBytes 1 0 (e.session d).num ((e.session d).mseq + 1)
        (x.payload ++ beBytes 4 p ++ beBytes 4 h)) ∈ t.sent) ∧ OnlyParts [.mrg, .links, .sent] e t) ∧
  (∀ dt s e d x p, s.elapse dt = e → e.boot.up = true → d < 2 → tfind e.links.telegrams d = some x → x.codeP = some p →
    10 * x.since + 9 * e.cycleLen ≤ 10 * e.now → e.ringSize d Reg.HB_LNK_TLGQ_BASE_LO ≠ 0 →
    ∃ t, exec (.telegramDeadline dt d) s = .next t ∧ tfind t.links.telegrams d = none ∧
      bitOf (t.mreg (.host d) Reg.HB_LNK_EVT) 4 = true ∧
      t.mem = memStore e.mem (hostAddr d (e.ringBase d Reg.HB_LNK_TLGQ_BASE_LO +
          2048 * (beNat (bytesAt x.payload 20 4) % e.ringSize d Reg.HB_LNK_TLGQ_BASE_LO)))
        (datagramBytes 1 1 0 0 (x.payload ++ beBytes 4 p ++ beBytes 4 0)) ∧ OnlyParts [.copies, .links, .cvu, .mem] e t)

/-- ETH_DATAGRAM_RECEIVE, SESSION_OPEN, SESSION_CLOSE, SESSION_TIMEOUT, KEEPALIVE_SEND, SESSION_COMMAND, SESSION_READ, SESSION_WRITE,
ETH_LINK_CHANGE, ICMP_ECHO, NEIGHBOUR_REQUEST, SPI_NATIVE_READ, SPI_NATIVE_WRITE (R368, R375 to R381, R390). -/
def Obligations.SessionsAndSpi : Prop :=
  (∀ dt s e p src sport b d m, s.elapse dt = e → e.boot.up = true → bitOf (e.reg (Reg.HB_NET_CFG p)) 0 = true →
    ((e.ethPort p).tick e.now).count ≤ 20000 → e.boundDomain p src sport = some d → readEnvelope p b = some m →
    leNat (bytesAt b 5 3) = 0 → m.type ≠ 0x10 → m.type ≠ 0x13 → (e.session d).up = true → m.session = (e.session d).num →
    ∃ t, exec (.ethDatagramReceive dt p src sport b) s = .next t ∧ tget t.links.inbox [] d = tget e.links.inbox [] d ++ [m] ∧
      t.session d = { e.session d with rxAt := e.now } ∧ OnlyParts [.links] e t) ∧
  (∀ dt s e p src sport b, s.elapse dt = e → e.boot.up = true → p < 2 → bitOf (e.reg (Reg.HB_NET_CFG p)) 0 = true →
    ((e.ethPort p).tick e.now).count ≤ 20000 → e.boundDomain p src sport = none →
    ∃ t, exec (.ethDatagramReceive dt p src sport b) s = .next t ∧ t.links.inbox = e.links.inbox ∧
      t.links.sessions = e.links.sessions ∧
      t.reg (Reg.HB_NET_DROP p) = lo32 (min 0xFFFFFFFF ((e.reg (Reg.HB_NET_DROP p)).toNat + 1)) ∧
      Changes [.links, .events] [Reg.HB_NET_DROP p, Reg.HB_NET_EVT] e t) ∧
  (∀ dt s e d m rest, s.elapse dt = e → e.boot.up = true → tget e.links.inbox [] d = m :: rest → m.type = 0x10 →
    (e.session d).up = false → ∃ t, exec (.sessionOpen dt d) s = .next t ∧ (t.session d).up = true ∧
      (t.session d).num = (if (e.links.lastNum + 1) % 2 ^ 32 = 0 then 1 else e.links.lastNum + 1) ∧ (t.session d).rxAt = e.now ∧
      (t.session d).mseq = 1 ∧ tget t.links.inbox [] d = rest ∧ bitOf (t.mreg (.host d) Reg.HB_LNK_EVT) 1 = true) ∧
  (∀ dt s e d m rest, s.elapse dt = e → e.boot.up = true → tget e.links.inbox [] d = m :: rest → m.type = 0x12 → e.current d m = true →
    ∃ t, exec (.sessionClose dt d) s = .next t ∧ t.session d = {} ∧ tget t.links.inbox [] d = rest ∧
      (∀ r, r ∈ t.responses ↔ r ∈ e.responses ∧ r.dom ≠ d) ∧ bitOf (t.mreg (.host d) Reg.HB_LNK_EVT) 0 = true) ∧
  (∀ dt s e d, s.elapse dt = e → e.boot.up = true → (e.session d).up = true → (e.session d).rxAt + 500000000 < e.now →
    ∃ t, exec (.sessionTimeout dt d) s = .next t ∧ t.session d = {} ∧ (∀ r, r ∈ t.responses ↔ r ∈ e.responses ∧ r.dom ≠ d) ∧
      bitOf (t.mreg (.host d) Reg.HB_LNK_EVT) 0 = true) ∧
  (∀ dt s e d, s.elapse dt = e → e.boot.up = true → (e.session d).up = true → (e.session d).txAt + 100000000 ≤ e.now →
    ∃ t, exec (.keepaliveSend dt d) s = .next t ∧ t.session d = { e.session d with mseq := (e.session d).mseq + 1, txAt := e.now } ∧
      t.sent.length = e.sent.length + (e.sessionPorts d).length ∧ OnlyParts [.links, .sent] e t) ∧
  (∀ dt s e d m rest, s.elapse dt = e → tget e.links.inbox [] d = m :: rest → m.type = 0x20 → e.current d m = true →
    (e.session d).high < m.mseq → recordClean m.body = true → e.hears (recordCmd (.session d m.mseq) m.body) = true →
    ∃ t, exec (.sessionCommand dt d) s = .next t ∧ t.queue = e.queue ++ [recordCmd (.session d m.mseq) m.body] ∧
      tget t.links.inbox [] d = rest ∧ (t.session d).high = m.mseq ∧ OnlyParts [.links, .commands] e t) ∧
  (∀ dt s e d m e1 off, s.elapse dt = e → e.boot.up = true → e.sessionTake d 0x30 = (e1, some m) → accessOf m = some (off, 1) →
    e1.mayRead (.host d) off = true → exec (.sessionRead dt d) s =
      .next ((e1.busRead (.host d) off).1.sessionAnswer d m.mseq 0x31 (accessReply m.mseq 0 [(e1.busRead (.host d) off).2.1]))) ∧
  (∀ dt s e d m e1, s.elapse dt = e → e.boot.up = true → e.sessionTake d 0x30 = (e1, some m) → accessOf m = none →
    exec (.sessionRead dt d) s = .next (e1.sessionAnswer d m.mseq 0x31 (accessReply m.mseq 2 []))) ∧
  (∀ dt s e d m e1 e2 off, s.elapse dt = e → e.boot.up = true → e.sessionTake d 0x32 = (e1, some m) → accessOf m = some (off, 1) →
    m.body.length = 12 → e1.busWrite (.host d) off (lo32 (beNat (bytesAt m.body 8 4))) true = some (e2, false) →
    exec (.sessionWrite dt d) s = .next (e2.sessionAnswer d m.mseq 0x33 (accessReply m.mseq 0 []))) ∧
  (∀ dt s e p link, s.elapse dt = e → e.boot.up = true → link ≠ (e.ethPort p).link → bitOf (e.reg (Reg.HB_NET_CFG p)) 0 = true →
    (link = 1 → bitOf (e.reg (Reg.HB_NET_CFG p)) 1 = true) → exec (.ethLinkChange dt p link) s =
      .next ((e.setEthPort p { e.ethPort p with link := link }).netEvt (if link = 0 then 2 + p else p))) ∧
  (∀ dt s e p b, s.elapse dt = e → e.boot.up = true → (e.ethPort p).second = e.now / 1000000000 → (e.ethPort p).link ≠ 0 →
    (e.ethPort p).echoes < 10 → exec (.icmpEcho dt p b) s =
      .next ((e.setEthPort p { e.ethPort p with echoes := (e.ethPort p).echoes + 1 }).send (.packet p 0 b))) ∧
  (∀ dt s e p, s.elapse dt = e → e.boot.up = true → (e.ethPort p).link ≠ 0 → bitOf (e.reg (Reg.HB_NET_CFG p)) 18 = true →
    exec (.neighbourRequest dt p (e.reg (Reg.HB_NET_V4 p)).toNat) s = .next (e.send (.packet p 1 (e.macBytes p)))) ∧
  (∀ dt s e off, s.elapse dt = e → e.boot.up = true → spiOk off = true → e.mayRead (.host 7) off = true →
    exec (.spiNativeRead dt off) s = .next ((e.busRead (.host 7) off).1.send (.spi (some (e.busRead (.host 7) off).2.1) 0))) ∧
  (∀ dt s e off, s.elapse dt = e → e.boot.up = true → spiOk off = false →
    exec (.spiNativeRead dt off) s = .next (e.send (.spi none 0xE1))) ∧
  (∀ dt s e off v t, s.elapse dt = e → e.boot.up = true → spiOk off = true → e.busWrite (.host 7) off v true = some (t, false) →
    exec (.spiNativeWrite dt off v) s = .next (t.send (.spi none 0))) ∧
  (∀ dt s e off v, s.elapse dt = e → e.boot.up = true → spiOk off = false →
    exec (.spiNativeWrite dt off v) s = .next (e.send (.spi none 0xE1)))

/-- WP_TOKEN_ADD, JNL_CURSOR_HI_WRITE, JNL_CURSOR_LO_WRITE, JNL_ENTRY0_READ, JNL_ENTRY7_READ, CLG_CURSOR_HI_WRITE,
CLG_CURSOR_LO_WRITE, CLG_ENTRY0_READ, CLG_ENTRY31_READ, LOG_ACK, CAL_STORE (R424, R427, R433 to R435, R494). -/
def Obligations.StoreAndLogs : Prop :=
  (∀ dt s e, s.elapse dt = e → e.boot.up = true → e.tokensAt + 100000000 ≤ e.now → ∃ t, exec (.wpTokenAdd dt) s = .next t ∧
      t.tokensAt = e.now - (e.now - e.tokensAt) % 100000000 ∧
      (∀ k r, tfind e.wp k = some r → tfind t.wp k = some { r with tokens := min 64 (r.tokens + 1) }) ∧ OnlyParts [.store] e t) ∧
  (∀ dt s e m v, s.elapse dt = e → e.boot.up = true → e.mayWrite m Reg.HB_JNL_CURSOR_HI = true →
    exec (.jnlCursorHiWrite dt m v) s = .next (e.setJCursor m { e.jCursor m with staged := v.toNat })) ∧
  (∀ dt s e m v, s.elapse dt = e → e.boot.up = true → e.mayWrite m Reg.HB_JNL_CURSOR_LO = true →
    exec (.jnlCursorLoWrite dt m v) s = .next (e.setJCursor m { e.jCursor m with pos := (e.jCursor m).staged * 2 ^ 32 + v.toNat })) ∧
  (∀ dt s e m x, s.elapse dt = e → e.boot.up = true → e.mayRead m (Reg.HB_JNL_ENTRY 0) = true → (e.jCursor m).pos ≤ e.jnlHead →
    e.jnlTail ≤ (e.jCursor m).pos → e.journal.find? (fun y => y.seq == (e.jCursor m).pos) = some x → x.sound = true →
    exec (.jnlEntry0Read dt m) s = .next ((e.setJCursor m { e.jCursor m with status := 0, buffer := jBytes x }).send
      (.reply m (Reg.HB_JNL_ENTRY 0) (bufWord (jBytes x) 0) false))) ∧
  (∀ dt s e m, s.elapse dt = e → e.boot.up = true → e.mayRead m (Reg.HB_JNL_ENTRY 0) = true → e.jnlHead < (e.jCursor m).pos →
    exec (.jnlEntry0Read dt m) s = .next ((e.setJCursor m { e.jCursor m with status := 1, buffer := [] }).send
      (.reply m (Reg.HB_JNL_ENTRY 0) 0 false))) ∧
  (∀ dt s e m, s.elapse dt = e → e.boot.up = true → e.mayRead m (Reg.HB_JNL_ENTRY 7) = true →
    exec (.jnlEntry7Read dt m) s = .next ((e.setJCursor m { e.jCursor m with pos := (e.jCursor m).pos + 1 }).send
      (.reply m (Reg.HB_JNL_ENTRY 7) (bufWord (e.jCursor m).buffer 7) false))) ∧
  (∀ dt s e m v, s.elapse dt = e → e.boot.up = true → e.mayWrite m Reg.HB_CLG_CURSOR_HI = true →
    exec (.clgCursorHiWrite dt m v) s = .next (e.setCCursor m { e.cCursor m with staged := v.toNat })) ∧
  (∀ dt s e m v, s.elapse dt = e → e.boot.up = true → e.mayWrite m Reg.HB_CLG_CURSOR_LO = true →
    exec (.clgCursorLoWrite dt m v) s = .next (e.setCCursor m { e.cCursor m with pos := (e.cCursor m).staged * 2 ^ 32 + v.toNat })) ∧
  (∀ dt s e m x, s.elapse dt = e → e.boot.up = true → e.mayRead m (Reg.HB_CLG_ENTRY 0) = true → (e.cCursor m).pos ≤ e.clgLast →
    e.clgFirst ≤ (e.cCursor m).pos → e.clog.find? (fun y => y.seq == (e.cCursor m).pos) = some x → x.sound = true →
    exec (.clgEntry0Read dt m) s = .next ((e.setCCursor m { e.cCursor m with status := 0, buffer := x.bytes }).send
      (.reply m (Reg.HB_CLG_ENTRY 0) (bufWord x.bytes 0) false))) ∧
  (∀ dt s e m, s.elapse dt = e → e.boot.up = true → e.mayRead m (Reg.HB_CLG_ENTRY 0) = true → e.clgLast < (e.cCursor m).pos →
    exec (.clgEntry0Read dt m) s = .next ((e.setCCursor m { e.cCursor m with status := 1, buffer := [] }).send
      (.reply m (Reg.HB_CLG_ENTRY 0) 0 false))) ∧
  (∀ dt s e m, s.elapse dt = e → e.boot.up = true → e.mayRead m (Reg.HB_CLG_ENTRY 31) = true →
    exec (.clgEntry31Read dt m) s = .next ((e.setCCursor m { e.cCursor m with pos := (e.cCursor m).pos + 1 }).send
      (.reply m (Reg.HB_CLG_ENTRY 31) (bufWord (e.cCursor m).buffer 31) false))) ∧
  (∀ dt s e c x, s.elapse dt = e → e.hears ⟨0x50, c⟩ = true → e.ackAllowed = true → e.ackEntry ⟨0x50, c⟩ = some x →
    (e.maintPwd.check (bytesAt c.args 24 12) e.now false).1 = 0 → ∃ t, exec (.logAck dt c) s = .next t ∧ t.clgFirst = x.seq + 1 ∧
      t.clgAnchor = bytesAt x.bytes 96 32 ∧ t.clog = e.clog.filter (fun y => decide (x.seq < y.seq)) ∧ t.clgLast = e.clgLast ∧
      bitOf (t.reg Reg.HB_CLG_EVT) 0 = true ∧ Answered ⟨0x50, c⟩ 0 e t) ∧
  (∀ dt s e c, s.elapse dt = e → e.hears ⟨0x60, c⟩ = true → e.dev = .maintenance → e.calStoreOk = true → e.bankWriting = none →
    ∃ t, exec (.calStore dt c) s = .next t ∧ t.bankWriting = some (e.liveBank == some false, e.storeSet) ∧ t.trimSince = none ∧
      Answered ⟨0x60, c⟩ 0 e t)

/-- DMA_DOORBELL, DMA_CHANNEL_START, DMA_ABORT, DMA_END, DMA_BUS_RETRY (R445 to R447, R451, R455 to R458). -/
def Obligations.DmaRunsAndEnds : Prop :=
  (∀ dt s e m k c, s.elapse dt = e → e.boot.up = true → k < 6 → c < 16 → e.mayWrite m (Reg.HB_DMA_DBELL k) = true →
    (e.dmaChan k c).st = .idle → exec (.dmaDoorbell dt m k (lo32 c)) s = .next (e.setEng k
      { (e.eng k).setChan c { e.dmaChan k c with st := .queued, abortIgn := false } with queue := (e.eng k).queue ++ [c] })) ∧
  (∀ dt s e m k c, s.elapse dt = e → e.boot.up = true → k < 6 → c < 16 → e.mayWrite m (Reg.HB_DMA_DBELL k) = true →
    (e.dmaChan k c).st ≠ .idle → exec (.dmaDoorbell dt m k (lo32 c)) s =
      .next ((e.modChan k c fun x => { x with ignored := 1 }).setEvt (Reg.HB_DMA_EVT k) (16 + c))) ∧
  (∀ dt s e k c rest, s.elapse dt = e → e.boot.up = true → (e.eng k).run = none → (e.eng k).queue = c :: rest →
    ∃ t r, exec (.dmaChannelStart dt k) s = .next t ∧ (t.eng k).run = some r ∧ r.ch = c ∧ r.phase = .slot ∧
      r.prog = (e.reg (Reg.HB_DMA_CH_PROG_LO k c)).toNat + 2 ^ 32 * (e.reg (Reg.HB_DMA_CH_PROG_HI k c)).toNat ∧
      r.budget = (if (e.reg (Reg.HB_DMA_CH_BUDGET k c)).toNat = 0 then 2 ^ 32 else (e.reg (Reg.HB_DMA_CH_BUDGET k c)).toNat) ∧
      (t.eng k).queue = rest ∧ (t.dmaChan k c).st = .running ∧ (∀ x, x ≠ k → t.eng x = e.eng x) ∧ OnlyParts [.dma] e t) ∧
  (∀ dt s e m k c, s.elapse dt = e → e.boot.up = true → k < 6 → c < 16 → e.mayWrite m (Reg.HB_DMA_ABORT k) = true →
    (e.dmaChan k c).st = .queued → ∃ t, exec (.dmaAbort dt m k (lo32 c)) s = .next t ∧ (t.dmaChan k c).st = .idle ∧
      (t.dmaChan k c).res = 2 ∧ (t.dmaChan k c).slot = false ∧ (t.eng k).queue = (e.eng k).queue.filter (· != c) ∧
      (t.eng k).run = (e.eng k).run ∧ Changes [.dma, .events] [] e t) ∧
  (∀ dt s e m k c r, s.elapse dt = e → e.boot.up = true → k < 6 → c < 16 → e.mayWrite m (Reg.HB_DMA_ABORT k) = true →
    (e.dmaChan k c).st = .running → (e.eng k).run = some r → r.phase = .fetch → exec (.dmaAbort dt m k (lo32 c)) s =
      .next (e.setRun k { r with phase := .writeBack 2, failed := false })) ∧
  (∀ dt s e k r b, s.elapse dt = e → e.boot.up = true → e.dmaIns k 6 = some (r, b) → insFlag b 4 = false →
    exec (.dmaEnd dt k) s = .next (e.setRun k { r with phase := .writeBack 0, failed := false })) ∧
  (∀ dt s e k r res t1, s.elapse dt = e → e.boot.up = true → k < 6 → (e.eng k).run = some r → r.phase = .writeBack res → res ≠ 8 →
    e.dmaPut k r.prog (r.slotBytes res) = (t1, .done) → (t1.eng k).run = some r → ∃ t, exec (.dmaEnd dt k) s = .next t ∧
      (t.eng k).run = none ∧ (t.dmaChan k r.ch).st = .idle ∧ (t.dmaChan k r.ch).res = res ∧ (t.dmaChan k r.ch).slot = true ∧
      (r.ch < 32 → bitOf (t.reg (Reg.HB_DMA_EVT k)) r.ch = true) ∧ t.mem = t1.mem) ∧
  (∀ dt s e k r b t1, s.elapse dt = e → e.boot.up = true → e.dmaIns k 6 = some (r, b) → insFlag b 4 = true → r.progs < 4096 →
    e.dmaPut k r.prog (r.slotBytes 1) = (t1, .done) → exec (.dmaEnd dt k) s = .next (t1.setRun k { r with
      prog := insNat b 1 6, pc := 16, phase := .slot, progs := r.progs + 1, progExec := 0, progRetries := 0, tries := 0, moved := 0 })) ∧
  (∀ dt s e k r, s.elapse dt = e → e.boot.up = true → (e.eng k).run = some r → r.failed = true → exec (.dmaBusRetry dt k true) s =
      .next (e.setRun k { r with failed := false, tries := r.tries + 1, retries := r.retries + 1, progRetries := r.progRetries + 1 })) ∧
  (∀ dt s e k r b, s.elapse dt = e → e.boot.up = true → (e.eng k).run = some r → r.failed = true → r.phase = .instr b →
    insOp b ≠ 6 → fld r.cfg 2 4 ≤ r.tries + 1 → ∃ t x, exec (.dmaBusRetry dt k false) s = .next t ∧ (t.eng k).run = some x ∧
      x.phase = .writeBack 3 ∧ x.ch = r.ch ∧ OnlyParts [.dma] e t)

/-- DMA_PROGRAM_FETCH, DMA_MOVE, DMA_LOOP, DMA_WAIT, DMA_WAIT_SATISFIED, DMA_WAIT_TIMEOUT, DMA_SIGNAL, DMA_CRCSTORE (R444, R448 to
R454). -/
def Obligations.DmaInstructions : Prop :=
  (∀ dt s e k data r e1 b, s.elapse dt = e → e.boot.up = true → (e.eng k).run = some r → r.failed = false → r.phase = .slot →
    e.dmaRead k r.prog 16 data = (e1, b, .done) → slotClean b = true → 128 ≤ insNat b 3 1 →
    exec (.dmaProgramFetch dt k data) s = .next (e1.setRun k { r with phase := .fetch, pc := 16, tries := 0 })) ∧
  (∀ dt s e k data r e1 b, s.elapse dt = e → e.boot.up = true → (e.eng k).run = some r → r.failed = false → r.phase = .fetch →
    r.exec < r.budget → e.dmaRead k r.addr 16 data = (e1, b, .done) → r.valid b = true → exec (.dmaProgramFetch dt k data) s =
      .next (e1.setRun k { r with phase := .instr b, exec := r.exec + 1, progExec := r.progExec + 1, tries := 0 })) ∧
  (∀ dt s e k data r e1 b, s.elapse dt = e → e.boot.up = true → (e.eng k).run = some r → r.failed = false → r.phase = .fetch →
    r.exec < r.budget → e.dmaRead k r.addr 16 data = (e1, b, .done) → r.valid b = false → exec (.dmaProgramFetch dt k data) s =
      .next (e1.setRun k { r with phase := .writeBack 6, failed := false })) ∧
  (∀ dt s e k data r, s.elapse dt = e → e.boot.up = true → (e.eng k).run = some r → r.failed = false → r.phase = .fetch →
    r.budget ≤ r.exec → exec (.dmaProgramFetch dt k data) s = .next (e.setRun k { r with phase := .writeBack 4, failed := false })) ∧
  (∀ dt s e k data r b v, s.elapse dt = e → e.boot.up = true → e.dmaIns k 1 = some (r, b) →
    Mover.moveBytes k (withOffset (insNat b 1 6) (insFlag b 6) r.soff) (withOffset (insNat b 7 6) (insFlag b 7) r.doff)
      (insNat b 13 3 - r.moved) r.moved { s := e, data := data } true = (v, .done) → v.s.standsAt k r = true →
    exec (.dmaMove dt k data) s = .next (v.s.setRun k (r.feed b v.got.reverse).advance)) ∧
  (∀ dt s e k r b, s.elapse dt = e → e.boot.up = true → e.dmaIns k 2 = some (r, b) → r.stack = [] → 2 ≤ insNat b 4 4 →
    exec (.dmaLoop dt k) s = .next (e.setRun k { r with
      stack := [⟨r.addr, insNat b 4 4 - 1, sext (insNat b 8 4) 32, sext (insNat b 12 4) 32⟩]
      pc := r.pc - 16 * insNat b 1 1, phase := .fetch })) ∧
  (∀ dt s e k r b x rest, s.elapse dt = e → e.boot.up = true → e.dmaIns k 2 = some (r, b) → r.stack = x :: rest → x.addr = r.addr →
    x.left ≤ 1 → exec (.dmaLoop dt k) s = .next (e.setRun k { r with stack := rest, pc := r.pc + 16, phase := .fetch })) ∧
  (∀ dt s e k r b, s.elapse dt = e → e.boot.up = true → e.dmaIns k 3 = some (r, b) → insFlag b 4 = false → insNat b 8 8 ≤ e.tc.now →
    exec (.dmaWait dt k) s = .next (e.setRun k r.advance)) ∧
  (∀ dt s e k r b, s.elapse dt = e → e.boot.up = true → e.dmaIns k 3 = some (r, b) → insFlag b 4 = false → e.tc.now < insNat b 8 8 →
    exec (.dmaWait dt k) s = .next (e.setRun k { r with phase := .wait b e.now (tget e.raised 0 (insNat b 8 8 % 1024)) })) ∧
  (∀ dt s e k r b t0 n, s.elapse dt = e → e.boot.up = true → (e.eng k).run = some r → r.phase = .wait b t0 n → insFlag b 4 = true →
    n < tget e.raised 0 (insNat b 8 8 % 1024) → exec (.dmaWaitSatisfied dt k) s = .next (e.setRun k r.advance)) ∧
  (∀ dt s e k r b t0 n, s.elapse dt = e → e.boot.up = true → (e.eng k).run = some r → r.phase = .wait b t0 n →
    e.waitOver b n = false → insNat b 4 4 ≠ 0 → t0 + 1000 * insNat b 4 4 ≤ e.now →
    exec (.dmaWaitTimeout dt k) s = .next (e.setRun k { r with phase := .writeBack 7, failed := false })) ∧
  (∀ dt s e k r b, s.elapse dt = e → e.boot.up = true → e.dmaIns k 4 = some (r, b) → insFlag b 4 = false →
    exec (.dmaSignal dt k) s = .next (((e.setRun k r.advance).modChan k r.ch fun x => { x with sigval := insNat b 2 2 }).raise
      (384 + 16 * k + r.ch) (lo32 (16 * k + r.ch)))) ∧
  (∀ dt s e k r b t1, s.elapse dt = e → e.boot.up = true → e.dmaIns k 5 = some (r, b) →
    e.dmaPut k (withOffset (insNat b 1 6) (insFlag b 5) r.doff) (leBytes 4 r.crcOut) = (t1, .done) → t1.standsAt k r = true →
    exec (.dmaCrcstore dt k) s = .next (t1.setRun k ({ r with crc := if insFlag b 4 then r.crcInit else r.crc }.advance)))

/-- CVU_GO, CVU_STOP, CVU_PRESET_LOAD, CVU_PERIODIC_START, CVU_PASS_END, CVU_SNOOP_RECORD (R463, R465 to R471). -/
def Obligations.CheckValueUnits : Prop :=
  (∀ dt s e m u, s.elapse dt = e → e.boot.up = true → 4 ≤ u → u < 8 → e.mayWrite m (Reg.HB_CVU_CTL u) = true →
    e.reg (Reg.HB_CVU_CTL u) &&& 0xFC000033 = 0 → (e.cvUnit u).run = false → (e.cvUnit u).waiting = false → e.cvRefused u = false →
    ∃ t, exec (.cvuGo dt m u) s = .next t ∧ (t.cvUnit u).run = true ∧ (t.cvUnit u).since = e.now ∧ (t.cvUnit u).stale = false ∧
      t.reg (Reg.HB_CVU_CTL u) = e.reg (Reg.HB_CVU_CTL u) ∧ (∀ k, k ≠ u → t.cvUnit k = e.cvUnit k) ∧
      Changes [.cvu] [Reg.HB_CVU_CTL u] e t) ∧
  (∀ dt s e m u, s.elapse dt = e → e.boot.up = true → 4 ≤ u → u < 8 → e.mayWrite m (Reg.HB_CVU_CTL u) = true →
    e.reg (Reg.HB_CVU_CTL u) &&& 0xFC000033 = 0 → (e.cvUnit u).run = false → (e.cvUnit u).waiting = false → e.cvRefused u = true →
    ∃ t, exec (.cvuGo dt m u) s = .next t ∧ t.cvUnit u = { e.cvUnit u with last := 4, waiting := false } ∧
      bitOf (t.reg Reg.HB_CVU_EVT) 25 = true ∧ Changes [.cvu, .events] [Reg.HB_CVU_CTL u, Reg.HB_CVU_EVT] e t) ∧
  (∀ dt s e m u, s.elapse dt = e → e.boot.up = true → 4 ≤ u → u < 8 → e.mayWrite m (Reg.HB_CVU_CTL u) = true →
    e.reg (Reg.HB_CVU_CTL u) &&& 0xFC000033 = 0 → (e.cvUnit u).run = true → exec (.cvuStop dt m u) s =
      .next (e.setCvUnit u { e.cvUnit u with run := false, waiting := false, last := 0 })) ∧
  (∀ dt s e m u p x, s.elapse dt = e → e.boot.up = true → 4 ≤ u → u < 8 → e.mayWrite m (Reg.HB_CVU_CTL u) = true →
    e.reg (Reg.HB_CVU_CTL u) &&& 0xFC000033 = 0 → (e.cvUnit u).run = false → presetOf p = some x →
    ∃ t, exec (.cvuPresetLoad dt m u p) s = .next t ∧ t.cvParams u = x ∧ (∀ k, k ≠ u → t.cvParams k = e.cvParams k) ∧
      OnlyParts [.regs, .cvu] e t) ∧
  (∀ dt s e u, s.elapse dt = e → e.boot.up = true → (e.cvUnit u).waiting = true → e.cvPeriodic u = true →
    (e.cvUnit u).since + e.cvPeriod u ≤ e.now → exec (.cvuPeriodicStart dt u) s = .next (e.setCvUnit u { e.cvUnit u with
      run := true, waiting := false, since := e.now, stale := false, marks := e.nvMarks.map fun (_, _, m) => m })) ∧
  (∀ dt s e, s.elapse dt = e → e.boot.up = true → (e.cvUnit 3).run = true → (e.cvUnit 3).stale = false →
    ∃ t, exec (.cvuPassEnd dt 3 []) s = .next t ∧ (t.cvUnit 3).run = false ∧ (t.cvUnit 3).waiting = true ∧ (t.cvUnit 3).last = 1 ∧
      bitOf (t.reg Reg.HB_CVU_EVT) 15 = true ∧ (∀ k, k ≠ 3 → t.cvUnit k = e.cvUnit k) ∧
      Changes [.cvu, .events] [Reg.HB_CVU_EVT, Reg.HB_CVU_COUNT 3] e t) ∧
  (∀ dt s e u fs, s.elapse dt = e → e.boot.up = true → u < 8 → (e.cvUnit u).run = true → e.cvStale u = true → e.cvPeriodic u = false →
    ∃ t, exec (.cvuPassEnd dt u fs) s = .next t ∧ t.cvUnit u = { e.cvUnit u with run := false, last := 3, stale := false } ∧
      bitOf (t.reg Reg.HB_CVU_EVT) (12 + u) = true ∧ Changes [.cvu, .events] [Reg.HB_CVU_EVT] e t) ∧
  (∀ dt s e u, s.elapse dt = e → e.boot.up = true → 4 ≤ u → u < 8 → (e.cvUnit u).run = true → e.cvStale u = false →
    e.cvuBlock u = true → (e.blockPass u []).bad = 0 → ∃ t, exec (.cvuPassEnd dt u []) s = .next t ∧ (t.cvUnit u).run = false ∧
      (t.cvUnit u).last = 1 ∧ (t.cvUnit u).result = (e.blockPass u []).value ∧ (t.cvUnit u).bad = 0 ∧
      bitOf (t.reg Reg.HB_CVU_EVT) (12 + u) = true) ∧
  (∀ dt s e u b chk, s.elapse dt = e → e.boot.up = true → 8 ≤ u → u < 12 → (e.cvUnit u).run = true →
    crc crc32c (e.snoopFold u ++ b) = BitVec.toNat chk % 2 ^ 32 → exec (.cvuSnoopRecord dt u b chk true) s =
      .next (e.setCvUnit u { e.cvUnit u with
        records := ((e.cvUnit u).records + 1) % 2 ^ 24, result := crc crc32c (e.snoopFold u ++ b), last := 1 })) ∧
  (∀ dt s e u b chk rx, s.elapse dt = e → e.boot.up = true → 8 ≤ u → u < 12 → (e.cvUnit u).run = true →
    crc crc32c (e.snoopFold u ++ b) ≠ BitVec.toNat chk % 2 ^ 32 → ∃ t, exec (.cvuSnoopRecord dt u b chk rx) s = .next t ∧
      (t.cvUnit u).last = 2 ∧ (t.cvUnit u).records = ((e.cvUnit u).records + 1) % 2 ^ 24 ∧
      ((t.cvUnit u).disagree = ((e.cvUnit u).disagree || rx)) ∧ bitOf (t.reg Reg.HB_CVU_EVT) u = true ∧
      Changes [.cvu, .events] [Reg.HB_CVU_EVT, Reg.HB_CVU_COUNT u] e t)

/-- PANEL_FRAME_START, PANEL_ROW_SLOT, PANEL_NTC_READ, CHAIN_FRAME (R497 to R502). That a row given before its time changes nothing is
the model's choice (log entry 132). -/
def Obligations.PanelAndChain : Prop :=
  (∀ dt s e, s.elapse dt = e → e.boot.up = true → e.matrixOn = true → (∀ k, e.panel.frameAt = some k → k + 5000000 ≤ e.now) →
    exec (.panelFrameStart dt) s = .next (e.setPanel fun p => { p with
      frame := e.tc.now % 1000000000 / 5000000, row := none, duty := [], test := none, frameAt := some e.now
      live := e.regs.filter fun x => pnlBuffered x.1, bright := fld (e.reg Reg.HB_PNL_CTL) 8 8 })) ∧
  (∀ dt s e k, s.elapse dt = e → e.boot.up = true → e.matrixOn = true → e.panel.frameAt = some k → e.now < k + 5000000 →
    exec (.panelFrameStart dt) s = .next e) ∧
  (∀ dt s e sn k r, s.elapse dt = e → e.boot.up = true → e.matrixOn = true → e.lampTest = true ∨ 31 < e.panel.frame →
    e.panel.frameAt = some k → (e.panel.row = none ∧ r = 0 ∨ e.panel.row.isSome = true ∧ r = e.panel.row.getD 0 + 1) → r ≤ 15 →
    k + 312500 * r ≤ e.now → exec (.panelRowSlot dt sn) s = .next (e.setPanel fun p => { p with
      row := some r, test := none
      duty := (List.range 32).map fun c => e.panel.dutyOf (if e.lampTest = true then 63 else e.panel.level r c) })) ∧
  (∀ dt s e sn k r c x, s.elapse dt = e → e.boot.up = true → e.matrixOn = true → e.lampTest = false → e.panel.frame = c → c ≤ 31 →
    e.panel.frameAt = some k → (e.panel.row = none ∧ r = 0 ∨ e.panel.row.isSome = true ∧ r = e.panel.row.getD 0 + 1) → r ≤ 15 →
    k + 312500 * r ≤ e.now →
    x = (if sn = true then (0, min 3 ((tget e.panel.tests (0, 0) (32 * r + c)).2 + 1))
      else (min 3 ((tget e.panel.tests (0, 0) (32 * r + c)).1 + 1), 0)) →
    ∃ t, exec (.panelRowSlot dt sn) s = .next t ∧ t.panel.row = some r ∧ t.panel.test = some c ∧
      (t.panel.duty = (List.range 32).map fun j => e.panel.dutyOf (e.panel.level r j)) ∧ tget t.panel.tests (0, 0) (32 * r + c) = x ∧
      bitOf (t.reg (Reg.HB_PNL_OPEN r)) c = (x.1 == 3 || (x.2 != 3 && bitOf (e.reg (Reg.HB_PNL_OPEN r)) c)) ∧
      (∀ j, j ≠ c → bitOf (t.reg (Reg.HB_PNL_OPEN r)) j = bitOf (e.reg (Reg.HB_PNL_OPEN r)) j) ∧
      (x.1 = 3 → bitOf (e.reg (Reg.HB_PNL_OPEN r)) c = false → bitOf (t.reg Reg.HB_PNL_EVT) 0 = true) ∧
      Changes [.panel, .events] [Reg.HB_PNL_OPEN r, Reg.HB_PNL_EVT] e t) ∧
  (∀ dt s e sn k r, s.elapse dt = e → e.boot.up = true → e.matrixOn = true → e.panel.frameAt = some k →
    (e.panel.row = none ∧ r = 0 ∨ e.panel.row.isSome = true ∧ r = e.panel.row.getD 0 + 1) → e.now < k + 312500 * r →
    exec (.panelRowSlot dt sn) s = .next e) ∧
  (∀ dt s e v, s.elapse dt = e → e.boot.up = true → (∀ k, e.panel.ntcAt = some k → k + 100000000 ≤ e.now) → 3 < v → v < 1020 →
    exec (.panelNtcRead dt v) s = .next (e.setPanel fun p => { p with
      ntcAt := some e.now, ntc := v
      der := if p.ntcFault && decide (p.ntcGood < 9) then fld (e.reg Reg.HB_PNL_DERATE) 20 9 else derate (e.reg Reg.HB_PNL_DERATE) v
      ntcFault := p.ntcFault && decide (p.ntcGood < 9)
      ntcGood := if p.ntcFault && decide (p.ntcGood < 9) then p.ntcGood + 1 else 0 })) ∧
  (∀ dt s e v, s.elapse dt = e → e.boot.up = true → (∀ k, e.panel.ntcAt = some k → k + 100000000 ≤ e.now) →
    v ≤ 3 ∨ 1020 ≤ v ∧ v < 1024 → exec (.panelNtcRead dt v) s = .next ((e.setPanel fun p => { p with
      ntcAt := some e.now, ntc := v, der := fld (e.reg Reg.HB_PNL_DERATE) 20 9, ntcFault := true, ntcGood := 0 }).setEvt
        Reg.HB_PNL_EVT 1)) ∧
  (∀ dt s e v k, s.elapse dt = e → e.boot.up = true → e.panel.ntcAt = some k → e.now < k + 100000000 →
    exec (.panelNtcRead dt v) s = .next e) ∧
  (∀ dt s e c b, s.elapse dt = e → e.boot.up = true → e.chainOn = true → c = chainCfg (e.reg Reg.HB_PNL_CHAIN_CFG) → c.2.2 ≠ 0 →
    e.dev ≠ .watch → (∀ k, e.panel.chainAt = some k → k + c.1 * 1000000 ≤ e.now) →
    b = ((List.range c.2.2).flatMap fun k => beBytes 3 (fld (e.reg (Reg.HB_PNL_CHAIN k)) 0 24)) → exec (.chainFrame dt) s =
      .next ((e.setPanel fun p => { p with chainAt := some e.now, chain := b, blanked := false }).send (.chain b))) ∧
  (∀ dt s e c, s.elapse dt = e → e.boot.up = true → e.chainOn = true → c = chainCfg (e.reg Reg.HB_PNL_CHAIN_CFG) → c.2.2 ≠ 0 →
    e.dev = .watch → e.panel.blanked = false → exec (.chainFrame dt) s =
      .next ((e.setPanel fun p => { p with
        chainAt := some e.now, chain := (List.range c.2.2).flatMap fun _ => [0, 0, 0], blanked := true }).send
          (.chain ((List.range c.2.2).flatMap fun _ => [0, 0, 0]))))

/-- PORST_N_ASSERTED, POWER_ON_RESET, PWR_FAIL_TAKEN, POWER_LOSS_ENTRY_DURABLE, PWR_FAIL_RESET, PWR_FAIL_RELEASE, FD_POWER_ON,
FD_BROWNOUT, FD_RESET, DEVICE_RESET, RESPONSE_DELIVER (R437, R517 to R524, R533). That the device counts from town-clock time 0 after
a reset of the logic side is the model's reading of R12, and that DEVICE_RESET acts with the departure of its response is its
choice within the 10 ms of R533. -/
def Obligations.PowerFailsAndResets : Prop :=
  (∀ dt s e low, s.elapse dt = e → 10000 ≤ low → ∃ t, exec (.porstNAsserted ⟨dt, low⟩) s = .next t ∧ t.boot.up = false ∧ t.boot.porst = true ∧
      t.boot.cause = 0 ∧ t.tc.now = 0 ∧ t.saf = {} ∧ t.lease = {} ∧ t.queue = [] ∧ t.fds = e.fds ∧ t.fdin = e.fdin ∧
      t.journal = e.journal ∧ t.clog = e.clog ∧ t.frozen = []) ∧
  (∀ dt s e low, s.elapse dt = e → low < 10000 → exec (.porstNAsserted ⟨dt, low⟩) s = .next e) ∧
  (∀ dt s e, s.elapse dt = e → ∃ t, exec (.powerOnReset dt) s = .next t ∧ t.boot.up = true ∧ t.boot.porst = false ∧
      t.boot.cause = 0 ∧ t.boot.since = e.now ∧ t.boot.stage = 0 ∧ t.dev = .start ∧ t.fds = e.fds ∧ t.journal = e.journal) ∧
  (∀ dt s e low, s.elapse dt = e → e.boot.up = true → e.boot.pwrFail = none → 1000 ≤ low → ∃ t, exec (.pwrFailTaken ⟨dt, low⟩) s = .next t ∧
      t.boot = { e.boot with pwrFail := some e.now, discarded := e.queue.length } ∧ t.queue = [] ∧ t.responses = [] ∧
      t.bankWriting = none ∧ t.bankWaiting = none ∧
      (∀ d, d < 4 → (t.port d).light = .off ∧ (t.port d).drive = false ∧ (t.port d).ampEn = false ∧
        (t.port d).laserEn = (e.port d).laserEn ∧ (t.port d).tecEn = (e.port d).tecEn ∧ (t.probe d).firing = false) ∧
      (e.str.st ≠ .latched ∨ (∃ c, e.str.commit = some c ∧ c.durable = true) →
        OnlyParts [.boot, .ofe, .psy, .commands, .store] e t ∧ t.journal = e.journal ∧ t.clog = e.clog)) ∧
  (∀ dt s e low, s.elapse dt = e → low < 1000 → exec (.pwrFailTaken ⟨dt, low⟩) s = .next e) ∧
  (∀ dt s e k, s.elapse dt = e → e.boot.up = true → e.boot.pwrFail = some k → e.boot.writeProt = false →
    ∃ t, exec (.powerLossEntryDurable dt) s = .next t ∧ t.boot = { e.boot with
        openFlag := false, signalled := (e.boot.signalled + 1) % 65536, writeProt := true } ∧
      t.journal.head? = some ⟨e.jseq + 1, e.tc.now, 0xFF, 0, 0x8001, lo32 e.boot.discarded, e.reg Reg.HB_STR_EPOCH, true⟩ ∧
      Changes [.boot, .store, .events] [Reg.HB_JNL_EVT] e t) ∧
  (∀ dt s e k, s.elapse dt = e → e.boot.up = true → e.boot.pwrFail = some k → k + 2000000 ≤ e.now →
    ∃ t, exec (.pwrFailReset dt) s = .next t ∧ t.boot.up = false ∧ t.boot.cause = 1 ∧ t.boot.pfHold = true ∧ t.boot.pwrFail = none ∧
      (∀ d, (t.port d).laserEn = (e.port d).laserEn ∧ (t.port d).offFrom = (e.port d).offFrom) ∧ t.fds = e.fds ∧
      t.journal = e.journal) ∧
  (∀ dt s e high, s.elapse dt = e → e.boot.pfHold = true → 10000000 ≤ high → exec (.pwrFailRelease ⟨dt, high⟩) s =
      .next { e with boot := { e.boot with pfHold := false, up := !e.boot.porst, since := e.now } }) ∧
  (∀ dt s e high, s.elapse dt = e → high < 10000000 → exec (.pwrFailRelease ⟨dt, high⟩) s = .next e) ∧
  (∀ dt s e mv held, s.elapse dt = e → mv ≤ 4500 ∨ held < 10000000 → exec (.fdPowerOn ⟨dt, mv, held⟩) s = .next e) ∧
  (∀ dt s e mv held, s.elapse dt = e → e.fdUp = false → 4500 < mv → 10000000 ≤ held →
    ∃ t, exec (.fdPowerOn ⟨dt, mv, held⟩) s = .next t ∧ t.fdUp = true ∧ t.fdin = {} ∧
      t.fds.led = {} ∧ t.fds.split = false ∧ t.fds.resets = (e.fds.resets + 1) % 256 ∧ t.fds.first = e.fds.first ∧
      (∀ i, (t.vo i).energised = false) ∧ t.boot.shaken = false ∧ t.dev = e.dev ∧
      t.tc.fd = 0 ∧ (∀ a, isFdReg a = true → t.reg a = resetOf a) ∧
      OnlyParts [.time, .regs, .copies, .boot, .fdUp, .fdin, .outs, .mrg, .saf, .fds, .events, .frw, .store] e t) ∧
  (∀ dt s e mv, s.elapse dt = e → 4400 ≤ mv → exec (.fdBrownout ⟨dt, mv⟩) s = .next e) ∧
  (∀ dt s e mv, s.elapse dt = e → e.fdUp = true → mv < 4400 → ∃ t, exec (.fdBrownout ⟨dt, mv⟩) s = .next t ∧ t.fdUp = false ∧ t.fdin = {} ∧
      (∀ i, (t.vo i).energised = false) ∧ t.dev = e.dev ∧ t.fds.causes = e.fds.causes ∧
      Changes [.fdUp, .fdin, .outs, .trims, .fds, .events] [] e t) ∧
  (∀ dt s e c, s.elapse dt = e → e.hears ⟨0x71, c⟩ = true → e.dev = .safeStop → e.fdUp = false →
    ∃ t, exec (.fdReset dt c) s = .next t ∧ t.fdUp = false ∧ t.fds = e.fds ∧ Answered ⟨0x71, c⟩ 0 e t) ∧
  (∀ dt s e c, s.elapse dt = e → e.hears ⟨0x71, c⟩ = true → e.dev = .safeStop → e.fdUp = true → ∃ t, exec (.fdReset dt c) s = .next t ∧
      t.fdUp = true ∧ t.fdin = {} ∧ t.fds.led = {} ∧ t.fds.split = false ∧ t.fds.resets = (e.fds.resets + 1) % 256 ∧
      t.fds.first = e.fds.first ∧ t.boot.shaken = false ∧ t.dev = .safeStop ∧ Answered ⟨0x71, c⟩ 0 e t) ∧
  (∀ dt s e c, s.elapse dt = e → e.hears ⟨0x70, c⟩ = true → e.dev = .maintenance ∨ e.dev = .safeStop →
    ∃ t, exec (.deviceReset dt c) s = .next t ∧ t.boot = { e.boot with resetDue := some e.now } ∧ t.dev = e.dev ∧
      Answered ⟨0x70, c⟩ 0 e t) ∧
  (∀ dt s e d r k, s.elapse dt = e → e.boot.up = true → e.boot.pwrFail = none → e.boot.resetDue = some k → e.responses = [r] →
    r.dom = d → r.origin = .mailbox (.host 7) → ∃ t, exec (.responseDeliver dt d) s = .next t ∧
      .response r.result d r.tag r.code r.jseq ∈ t.sent ∧ t.boot.cause = 3 ∧ t.boot.stage = 0 ∧ t.boot.resetDue = none ∧
      t.dev = .start ∧ t.responses = [] ∧ t.fds = e.fds ∧ t.journal = e.journal)

/-- BOOT_ROM_START, FIRMWARE_VERIFIED, BOOT_WATCHDOG, RECOVERY_INSTALL, START_HANDSHAKE, HANDSHAKE_RETRY, STRUCTURE_LOAD,
BOOT_COMPLETE, BOOT_REF_TIMEOUT, JTAG_EXPIRY (R428, R438, R508, R525 to R530, R532). -/
def Obligations.BootProceeds : Prop :=
  (∀ dt s e top, s.elapse dt = e → e.boot.up = true → e.boot.stage = 0 → e.boot.nvLoaded = false → e.boot.writeProt = false →
    top = ((e.journal.find? fun j => j.sound).map fun j => j.seq).getD 0 →
    ∃ t, exec (.bootRomStart dt []) s = .next t ∧ t.boot.nvLoaded = true ∧ t.boot.openFlag = true ∧ t.boot.stage = 0 ∧
      t.boot.unsignalled = (if e.boot.openFlag = true then (e.boot.unsignalled + 1) % 65536 else e.boot.unsignalled) ∧
      t.boot.signalled = e.boot.signalled ∧ t.jseq = top + (if e.boot.openFlag = true then 2 else 1) ∧
      t.journal.head? = some ⟨t.jseq, e.tc.now, 0xFF, 0, 0x8000, t.nvPwr, e.reg Reg.HB_STR_EPOCH, true⟩ ∧
      OnlyParts [.regs, .copies, .boot, .ofe, .trims, .str, .passwords, .events, .store] e t) ∧
  (∀ dt s e, s.elapse dt = e → e.boot.up = true → e.boot.stage = 0 → e.boot.nvLoaded = true → e.boot.fwOk e.boot.fwFirst = true →
    ∃ t, exec (.firmwareVerified dt) s = .next t ∧ t.boot.stage = 1 ∧ t.boot.fwB = e.boot.fwFirst ∧
      t.boot.split = (e.boot.splitFuse || e.boot.settings.any (·.split)) ∧ t.boot.handshake = some e.now ∧ t.saf.running = true ∧
      t.saf.cycleAt = e.now ∧ (∀ x, x ∈ t.saf.chan.secs → x.2.st = .disturbed) ∧
      (∀ u, u < 4 → (t.cvUnit u).run = false ∧ (t.cvUnit u).waiting = true) ∧ (∀ u, 8 ≤ u → u < 12 → (t.cvUnit u).run = true)) ∧
  (∀ dt s e, s.elapse dt = e → e.boot.up = true → e.boot.stage = 0 → e.boot.nvLoaded = true → e.boot.fwOk e.boot.fwFirst = false →
    e.boot.fwOk (!e.boot.fwFirst) = true → ∃ t, exec (.firmwareVerified dt) s = .next t ∧ t.boot.stage = 1 ∧
      t.boot.fwB = (!e.boot.fwFirst) ∧ bitOf (t.reg Reg.HB_BOOT_EVT) 1 = true) ∧
  (∀ dt s e, s.elapse dt = e → e.boot.up = true → e.boot.stage = 0 → e.boot.nvLoaded = true → e.boot.fwOk e.boot.fwFirst = false →
    e.boot.fwOk (!e.boot.fwFirst) = false → exec (.firmwareVerified dt) s = .next { e with boot := { e.boot with stage := 15 } }) ∧
  (∀ dt s e, s.elapse dt = e → e.boot.up = true → e.boot.stage = 0 → e.boot.since + 5000000000 ≤ e.now →
    ∃ t, exec (.bootWatchdog dt) s = .next t ∧ t.boot.cause = 2 ∧ t.boot.watchdogs = min 255 (e.boot.watchdogs + 1) ∧
      t.boot.since = e.now ∧ t.boot.nvLoaded = false ∧ t.journal = e.journal ∧ t.fds = e.fds) ∧
  (∀ dt s e m n, s.elapse dt = e → e.boot.up = true → e.mayWrite m Reg.HB_BOOT_RCV_CTL = true → e.boot.stage = 15 →
    BitVec.toNat (e.reg Reg.HB_BOOT_RCV_CTL) < 32 → n = leNat (e.load (recoveryBase + 12) 4) →
    ∃ t, exec (.recoveryInstall dt m) s = .next t ∧
      (e.fwCheck (e.load recoveryBase (min n 2097152)) n = 0 → t.boot.cause = 2 ∧ t.boot.stage = 0 ∧
        t.boot.fwGenA = (if e.boot.fwGenB < e.boot.fwGenA then e.boot.fwGenA else max e.boot.fwGenA e.boot.fwGenB + 1) ∧
        t.boot.fwGenB = (if e.boot.fwGenB < e.boot.fwGenA then max e.boot.fwGenA e.boot.fwGenB + 1 else e.boot.fwGenB)) ∧
      (e.fwCheck (e.load recoveryBase (min n 2097152)) n ≠ 0 → t.boot = e.boot ∧ OnlyParts [.regs] e t)) ∧
  (∀ dt s e k, s.elapse dt = e → e.boot.up = true → e.boot.handshake = some k → e.fdUp = true → e.fds.first = none →
    e.saf.inService = true ∨ e.boot.split = true → ∃ t, exec (.startHandshake dt) s = .next t ∧ t.boot.handshake = none ∧ t.boot.shaken = true ∧
      t.boot.fdResets = e.fds.resets % 256 ∧ t.boot.stage = (if e.boot.stage = 1 then 2 else e.boot.stage) ∧
      t.tc.fd = (if e.boot.stage = 1 then e.tc.now else max e.tc.fd e.tc.now) ∧ t.tc.fdSlew = (e.tc.now : Int) - t.tc.fd ∧
      t.fds.verdict = e.saf.cycle ∧ t.fds.mark = e.saf.cycle ∧ t.mrg.deadA = false ∧ t.mrg.deadB = false ∧ t.fds.split = (e.fds.split || e.boot.split) ∧ t.fds.cycles = [] ∧
      t.dev = e.dev) ∧
  (∀ dt s e k, s.elapse dt = e → e.boot.up = true → e.boot.handshake = some k → e.fdUp = true → e.fds.first.isSome = true →
    e.saf.inService = true ∨ e.boot.split = true → ∃ t, exec (.startHandshake dt) s = .next t ∧ t.boot.shaken = true ∧
      t.dev = .safeStop ∧ t.fds.causes = e.fds.causes ∧ t.fds.first = e.fds.first) ∧
  (∀ dt s e k, s.elapse dt = e → e.boot.up = true → e.boot.handshake = some k → e.fdUp = true → e.fds.first = none →
    e.saf.inService = false → e.boot.split = false → e.fds.split = false → 2 ∉ e.fds.causes → ∃ t,
      exec (.startHandshake dt) s = .next t ∧ t.boot.shaken = true ∧ t.dev = .safeStop ∧ t.fds.first = some 2 ∧
      t.fds.causes = 2 :: e.fds.causes) ∧
  (∀ dt s e k, s.elapse dt = e → e.boot.up = true → e.boot.handshake = some k → k + 2000000000 ≤ e.now → exec (.handshakeRetry dt) s =
      .next ({ e with boot := { e.boot with handshake := some e.now } }.setEvt Reg.HB_BOOT_EVT 2)) ∧
  (∀ dt s e b bad, s.elapse dt = e → e.boot.up = true → e.boot.stage = 2 → e.clog = [] → e.str.base = some b → e.str.sel = none →
    ∃ t, exec (.structureLoad ⟨dt, bad⟩) s = .next t ∧
      (imageSigned e.str.baseBytes = true → t.str.live = some (imageFrames e.str.baseBytes) ∧ t.str.baseB = b ∧ t.boot.stage = 4) ∧
      (imageSigned e.str.baseBytes = false →
        t = { e with boot := { e.boot with stage := 3, structFail := true } })) ∧
  (∀ dt s e bad, s.elapse dt = e → e.boot.up = true → e.boot.stage = 2 → e.clog = [] → e.str.base = none →
    exec (.structureLoad ⟨dt, bad⟩) s = .next { e with boot := { e.boot with stage := 3 } }) ∧
  (∀ dt s e, s.elapse dt = e → e.boot.up = true → e.dev = .start → e.boot.stage ≠ 6 → e.str.live.isSome = true →
    e.boot.shaken = true → e.mrg.deadA = false → e.mrg.deadB = false → e.saf.inService = true ∨ e.boot.split = true →
    e.boot.refDropped = true ∨ (∀ d, d < 4 → e.portDue d = true →
      (e.demod d).epochValid = true ∨ (e.port d).light = .dark ∨ (e.port d).light = .shutdown) →
    ∃ t, exec (.bootComplete dt) s = .next t ∧ t.dev = (if e.degradedCond then .degraded else .service) ∧ t.boot.stage = 6 ∧
      t.boot.bootMs = (e.now - e.boot.since) / 1000000 ∧ bitOf (t.reg Reg.HB_BOOT_EVT) 0 = true) ∧
  (∀ dt s e, s.elapse dt = e → e.boot.up = true → e.dev = .start → e.str.live = none ∨ e.boot.shaken = false ∨
    e.mrg.deadA = true ∨ e.mrg.deadB = true ∨ (e.saf.inService = false ∧ e.boot.split = false) ∨ (e.boot.refDropped = false ∧ ∃ d, d < 4 ∧
      e.portDue d = true ∧ (e.demod d).epochValid = false ∧ (e.port d).light ≠ .dark ∧ (e.port d).light ≠ .shutdown) →
    exec (.bootComplete dt) s = .next e) ∧
  (∀ dt s e, s.elapse dt = e → e.boot.up = true → e.dev = .start → e.boot.since + 30000000000 ≤ e.now →
    exec (.bootRefTimeout dt) s = .next { e with boot := { e.boot with refDropped := true } }) ∧
  (∀ dt s e x, s.elapse dt = e → e.boot.up = true → e.boot.settings = some x → x.expiry ≠ 0 → x.expiry ≤ e.tc.now →
    exec (.jtagExpiry dt) s = .next { e with boot := { e.boot with jtagOpen := false } })

/-- FW_INSTALL, KEY_PROGRAM, KEY_REVOKE, SETTINGS_SET, WATCH_ENTER, WATCH_LEAVE, WAKE_REQUEST_RECEIVED (R531 to R535). -/
def Obligations.BootCommands : Prop :=
  (∀ dt s e c k, s.elapse dt = e → e.hears ⟨0x73, c⟩ = true → e.dev = .maintenance → k = leNat (bytesAt c.args 0 1) →
    (e.maintPwd.check (bytesAt c.args 36 12) e.now false).1 = 0 → tfind e.str.keys k = none → ∃ t, exec (.keyProgram dt c) s = .next t ∧
      tfind t.str.keys k = some (bytesAt c.args 4 32) ∧ (∀ j, j ≠ k → tfind t.str.keys j = tfind e.str.keys j) ∧
      t.str.revoked = e.str.revoked ∧ Answered ⟨0x73, c⟩ 0 e t ∧
      OnlyParts [.regs, .copies, .str, .passwords, .commands, .events, .store] e t) ∧
  (∀ dt s e c k, s.elapse dt = e → e.hears ⟨0x73, c⟩ = true → e.dev = .maintenance → k = leNat (bytesAt c.args 0 1) →
    (e.maintPwd.check (bytesAt c.args 36 12) e.now false).1 = 0 → (tfind e.str.keys k).isSome = true →
    ∃ t, exec (.keyProgram dt c) s = .next t ∧ t.str = e.str ∧ Answered ⟨0x73, c⟩ 2 e t) ∧
  (∀ dt s e c k j h, s.elapse dt = e → e.hears ⟨0x74, c⟩ = true → e.dev = .maintenance → k = leNat (bytesAt c.args 0 1) →
    (e.maintPwd.check (bytesAt c.args 4 12) e.now false).1 = 0 → j ≠ k → tfind e.str.keys j = some h → j ∉ e.str.revoked →
    (e.str.live = none ∨ e.str.liveKey ≠ k) → ∃ t, exec (.keyRevoke dt c) s = .next t ∧ k ∈ t.str.revoked ∧
      (∀ i, i ≠ k → (i ∈ t.str.revoked ↔ i ∈ e.str.revoked)) ∧ t.str.keys = e.str.keys ∧ Answered ⟨0x74, c⟩ 0 e t) ∧
  (∀ dt s e c n b, s.elapse dt = e → e.hears ⟨0x72, c⟩ = true → e.dev = .maintenance → e.str.owner = some c.dom → e.str.st = .open →
    n = leNat (bytesAt c.args 0 4) → b = e.load stagingBase (min n stagingSize) → ∃ t, exec (.fwInstall dt c) s = .next t ∧
      (e.fwCheck b n = 0 → t.boot = e.boot.fwWrite (!e.boot.fwB) ∧ t.str.st = .idle ∧ t.str.owner = none ∧
        Answered ⟨0x72, c⟩ 0 e t) ∧
      (e.fwCheck b n ≠ 0 → t.boot = e.boot ∧ t.str = { e.str with code := e.fwCheck b n, detail := 0, errFrame := 0 } ∧
        Answered ⟨0x72, c⟩ 0xC e t)) ∧
  (∀ dt s e c d r, s.elapse dt = e → e.hears ⟨0x75, c⟩ = true → e.dev = .maintenance → e.str.owner = some d →
    r = e.load stagingBase 96 → ∃ t, exec (.settingsSet dt c) s = .next t ∧ t.boot = { e.boot with
        record := if e.recordOk r then (if leNat (bytesAt r 8 1) = 0 then [] else r) else e.boot.record } ∧
      Answered ⟨0x75, c⟩ (if e.recordOk r then 0 else 0xC) e t) ∧
  (∀ dt s e c, s.elapse dt = e → e.hears ⟨0x76, c⟩ = true → e.dev = .service ∨ e.dev = .degraded → e.structMode = 0 →
    e.fdin.cal.hold = none → (∀ k, (e.brake k).step = .none) → e.mrg.silent = [] →
    (∀ x, x ∈ e.saf.chan.secs → x.2.st ≠ .held) → ∃ t, exec (.watchEnter dt c) s = .next t ∧ t.dev = .watch ∧
      (∀ d, d < 4 → (t.die d).power = false ∧ (t.port d).light = .off ∧ (t.port d).drive = false ∧ (t.port d).ampEn = false ∧
        (t.port d).laserEn = (e.port d).laserEn ∧ ((e.port d).laserEn = false → (t.port d).tecEn = false) ∧
        ((e.port d).laserEn = true → (t.port d).offTec = true ∧ (t.port d).offFrom = some ((e.port d).offFrom.getD e.now))) ∧
      (∀ i, i < 32 → (e.group (i / 16)).check = none → (t.vo i).energised = false) ∧ t.boot.stage = 7 ∧ Answered ⟨0x76, c⟩ 0 e t) ∧
  (∀ dt s e c, s.elapse dt = e → e.hears ⟨0x77, c⟩ = true → e.dev = .watch → ∃ t, exec (.watchLeave dt c) s = .next t ∧
      t.dev = .start ∧ (∀ d, d < 4 → (t.die d).power = true) ∧ t.boot.since = e.now ∧ t.boot.stage = 8 ∧
      t.boot.refDropped = false ∧ bitOf (t.reg Reg.HB_BOOT_EVT) 3 = true ∧ Answered ⟨0x77, c⟩ 0 e t) ∧
  (∀ dt s e w l, s.elapse dt = e → e.boot.up = true → e.boot.shaken = true → e.fdUp = true → e.mrg.deadB = false →
    e.fdin.wakes = w :: l → e.dev = .watch → ∃ t, exec (.wakeRequestReceived dt) s = .next t ∧ t.dev = .start ∧ t.fdin.wakes = l ∧
      (∀ d, d < 4 → (t.die d).power = true) ∧ t.boot.since = e.now ∧ bitOf (t.reg Reg.HB_BOOT_EVT) 3 = true) ∧
  (∀ dt s e w l, s.elapse dt = e → e.boot.up = true → e.boot.shaken = true → e.fdUp = true → e.mrg.deadB = false →
    e.fdin.wakes = w :: l → e.dev ≠ .watch → ∃ t, exec (.wakeRequestReceived dt) s = .next t ∧ t.dev = e.dev ∧ t.fdin.wakes = l ∧
      t.boot = e.boot ∧ OnlyParts [.fdin, .mrg] e t)

/-- REGISTER_WRITE, REGISTER_READ, HUB_CORE_ACCESS (R9 to R11, R340, R358 to R360, R537, R538, R541, R542, R546). The fault where a
write puts a one into a reserved bit stands for the behaviour that R11 leaves undefined. -/
def Obligations.RegistersAreAccessed : Prop :=
  (∀ dt s e m a v, s.elapse dt = e → a % 4 ≠ 0 → exec (.registerWrite dt m a v) s = .next e) ∧
  (∀ dt s e m a v b n o row, s.elapse dt = e → e.boot.up = true → a % 4 = 0 → e.mayWrite m a = true → blockOf a = some (b, n, o) →
    b.row? o = some row → (row.access = .ro ∨ row.access = .rc) → exec (.registerWrite dt m a v) s = .next e) ∧
  (∀ dt s e m a v b n o row, s.elapse dt = e → e.boot.up = true → a % 4 = 0 → e.mayWrite m a = true → blockOf a = some (b, n, o) →
    b.row? o = some row → row.access = .w1c → b ≠ .wsc → hitsReserved b o row v = false → exec (.registerWrite dt m a v) s =
      .next (e.setCopy m (ownCopy b o) a (e.getCopy m (ownCopy b o) a &&& ~~~v))) ∧
  (∀ dt s e m v, s.elapse dt = e → e.boot.up = true → e.mayWrite m Reg.HB_HST_FRZ_SEL = true → BitVec.toNat v < 32 →
    exec (.registerWrite dt m Reg.HB_HST_FRZ_SEL v) s = .next (e.setMreg m Reg.HB_HST_FRZ_SEL v)) ∧
  (∀ dt s e m a v b n o row, s.elapse dt = e → e.boot.up = true → a % 4 = 0 → e.mayWrite m a = true → blockOf a = some (b, n, o) →
    b.row? o = some row → hitsReserved b o row v = true → exec (.registerWrite dt m a v) s = .fault (.reservedField a)) ∧
  (∀ dt s e m a v, s.elapse dt = e → e.boot.up = true → a % 4 = 0 →
    e.meets m a = .reserved ∨ e.meets m a = .dead ∧ (∀ d, blockOf a ≠ some (.ofe, d, 0)) → exec (.registerWrite dt m a v) s = .next e) ∧
  (∀ dt s e d a v c, s.elapse dt = e → e.boot.up = true → a % 4 = 0 → bar2At (.host d) a = none → e.boot.writeProt = false → e.domClosed d = false →
    .domain d ∉ e.frozen → e.meets (.host d) a = .closed c → ∃ t, exec (.registerWrite dt (.host d) a v) s = .next t ∧
      FreezeShown ⟨.domain d, c, 0, e.tc.now, a⟩ e t) ∧
  (∀ dt s e d a v b n o row, s.elapse dt = e → e.boot.up = true → a % 4 = 0 → e.boot.writeProt = false → e.domClosed d = false →
    .domain d ∉ e.frozen → e.meets (.host d) a = .register b n o row → e.writeDenied (.host d) b o = true →
    ∃ t, exec (.registerWrite dt (.host d) a v) s = .next t ∧ FreezeShown ⟨.domain d, .role, 0, e.tc.now, a⟩ e t) ∧
  (∀ dt s e m a v b n o row, s.elapse dt = e → e.boot.up = true → a % 4 = 0 → e.isFrozen m = true → e.meets m a = .register b n o row →
    e.writeDenied m b o = false → exec (.registerWrite dt m a v) s = .next e) ∧
  (∀ dt s m a, exec (.registerRead dt m a) s = exec (.registerRead dt m (a - a % 4)) s) ∧
  (∀ dt s e m a b n o row, s.elapse dt = e → e.boot.up = true → a % 4 = 0 → e.mayRead m a = true → blockOf a = some (b, n, o) →
    b.row? o = some row → row.access ≠ .rc → e.latchRead m b n o = none → exec (.registerRead dt m a) s =
      .next (e.send (.reply m a (e.peek m a) false))) ∧
  (∀ dt s e m a b n o row, s.elapse dt = e → e.boot.up = true → a % 4 = 0 → e.mayRead m a = true → blockOf a = some (b, n, o) →
    b.row? o = some row → row.access = .rc → b ≠ .cvu → exec (.registerRead dt m a) s =
      .next ((e.setReg a row.reset).send (.reply m a (e.peek m a) false))) ∧
  (∀ dt s e m a b n o row, s.elapse dt = e → e.boot.up = true → a % 4 = 0 → e.mayRead m a = true → blockOf a = some (b, n, o) →
    b.row? o = some row → row.access = .rc → b = .cvu → exec (.registerRead dt m a) s =
      .next (((e.setReg a row.reset).cvCountRead ((o - 0x800) / 0x10)).send (.reply m a (e.peek m a) false))) ∧
  (∀ dt s e m a, s.elapse dt = e → e.boot.up = true → a % 4 = 0 → e.isFrozen m = false → e.meets m a = .reserved →
    exec (.registerRead dt m a) s = .next (e.send (.reply m a 0 false))) ∧
  (∀ dt s e m a, s.elapse dt = e → e.boot.up = true → a % 4 = 0 → e.meets m a = .dead →
    exec (.registerRead dt m a) s = .next (e.send (.reply m a 0xFFFFFFFF true))) ∧
  (∀ dt s e m a b n o row, s.elapse dt = e → e.boot.up = true → a % 4 = 0 → e.isFrozen m = true → e.meets m a = .register b n o row →
    exec (.registerRead dt m a) s = .next (e.send (.reply m a 0xFFFFFFFF true))) ∧
  (∀ dt s e d a c, s.elapse dt = e → e.boot.up = true → a % 4 = 0 → bar2At (.host d) a = none → e.boot.writeProt = false → e.domClosed d = false →
    .domain d ∉ e.frozen → e.meets (.host d) a = .closed c → ∃ t, exec (.registerRead dt (.host d) a) s = .next t ∧
      FreezeShown ⟨.domain d, c, 0, e.tc.now, a⟩ e t ∧ t.sent.head? = some (.reply (.host d) a 0xFFFFFFFF true)) ∧
  (∀ dt s e c a, s.elapse dt = e → e.boot.up = true → e.boot.writeProt = false → e.boot.split = true → .core c ∉ e.frozen →
    ∃ t, exec (.hubCoreAccess dt c a) s = .next t ∧ FreezeShown ⟨.core c, .coreRange, 0, e.tc.now, a⟩ e t ∧
      OnlyParts [.regs, .copies, .freeze, .events, .store] e t) ∧
  (∀ dt s e c a, s.elapse dt = e → e.boot.up = true → e.boot.split = false → exec (.hubCoreAccess dt c a) s = .next e)

/-- R66: REGISTER_WRITE of AQn_OFE_CTL and OFE_LIGHT_OFF. -/
def Obligations.LightOffRefusedWhileServing : Prop :=
  (∀ dt s e m d v a, s.elapse dt = e → e.boot.up = true → d < 4 → a = Reg.AQ_OFE_CTL d → e.mayWrite m a = true →
    v &&& 0xFFFFFFF8 = 0 → bitOf v 0 = false → bitOf (e.reg a) 0 = true → ∃ t, exec (.registerWrite dt m a v) s = .next t ∧
      t.frozen = e.frozen ∧
      (e.dev = .service ∨ e.dev = .degraded ∨ e.dev = .watch →
        bitOf (t.reg a) 0 = true ∧ bitOf (t.reg (Reg.AQ_OFE_EVT d)) 10 = true) ∧
      (e.dev = .start ∨ e.dev = .maintenance ∨ e.dev = .safeStop → bitOf (t.reg a) 0 = false ∧
        (bitOf v 1 = false → (t.port d).light = .off ∧ (t.port d).drive = false ∧ (t.port d).ampEn = false))) ∧
  (∀ dt s e m d a, s.elapse dt = e → e.boot.up = true → d < 4 → a = Reg.AQ_OFE_CTL d → e.mayWrite m a = true →
    e.reg a &&& 0xFFFFFFFA = 0 → bitOf (e.reg a) 0 = true → ∃ t, exec (.ofeLightOff dt m d) s = .next t ∧ t.frozen = e.frozen ∧
      (e.dev = .service ∨ e.dev = .degraded ∨ e.dev = .watch →
        bitOf (t.reg a) 0 = true ∧ bitOf (t.reg (Reg.AQ_OFE_EVT d)) 10 = true ∧ OnlyParts [.regs, .copies, .events] e t) ∧
      (e.dev = .start ∨ e.dev = .maintenance ∨ e.dev = .safeStop → bitOf (t.reg a) 0 = false ∧ (t.port d).light = .off ∧
        (t.port d).drive = false ∧ (t.port d).ampEn = false ∧ Changes [.ofe, .psy] [a] e t)) ∧
  (∀ dt s e m d v a c, s.elapse dt = e → e.boot.up = true → d < 4 → a = Reg.AQ_OFE_CTL d → e.meets m a = .dead → e.isFrozen m = false →
    e.holdsRole m .configurator = true → e.dev = .watch → bitOf (e.reg a) 0 = true → bitOf v 0 = false →
    c = .registerWrite dt m a v ∨ c = .ofeLightOff dt m d → ∃ t, exec c s = .next t ∧ bitOf (t.reg a) 0 = true ∧
      bitOf (t.reg (Reg.AQ_OFE_EVT d)) 10 = true ∧ t.frozen = e.frozen ∧ OnlyParts [.regs, .copies, .events] e t)

/-- R94: REGISTER_WRITE of AQn_PSY_APPLY and PSY_APPLY_GO. -/
def Obligations.DirectApplyStates : Prop :=
  ∀ dt s e m d c, s.elapse dt = e → e.boot.up = true → d < 4 → e.mayWrite m (Reg.AQ_PSY_APPLY d) = true → (e.probe d).pend = none →
    c = .psyApplyGo dt m d ∨ c = .registerWrite dt m (Reg.AQ_PSY_APPLY d) 1 →
    (e.dev = .service ∨ e.dev = .degraded ∨ e.dev = .watch → ∃ t, exec c s = .next t ∧
      t.probe d = { e.probe d with check := 8 } ∧ (∀ k, k ≠ d → t.probe k = e.probe k) ∧
      bitOf (t.reg (Reg.AQ_PSY_EVT d)) 1 = true ∧ t.frozen = e.frozen ∧ Changes [.psy, .events] [Reg.AQ_PSY_EVT d] e t) ∧
    (e.dev = .start ∨ e.dev = .maintenance ∨ e.dev = .safeStop → (e.shadowSet d).check = 0 → exec c s =
      .next (e.setProbe d { e.probe d with check := 0, pend := some (e.shadowSet d) }))

/-- R47: TC_NOW_LO_READ and REGISTER_READ. -/
def Obligations.TimeIsLatchedPerMaster : Prop :=
  (∀ dt s e m c, s.elapse dt = e → e.boot.up = true → e.mayRead m Reg.HB_TC_NOW_LO = true →
    c = .tcNowLoRead dt m ∨ c = .registerRead dt m Reg.HB_TC_NOW_LO → ∃ t, exec c s = .next t ∧
      t.mreg m Reg.HB_TC_NOW_HI = hi32 e.tc.now ∧ t.sent.head? = some (.reply m Reg.HB_TC_NOW_LO (lo32 e.tc.now) false) ∧
      (∀ x, masterCode x ≠ masterCode m → t.mreg x Reg.HB_TC_NOW_HI = e.mreg x Reg.HB_TC_NOW_HI) ∧ OnlyParts [.copies, .sent] e t) ∧
  (∀ dt s e m, s.elapse dt = e → e.boot.up = true → e.mayRead m Reg.HB_TC_NOW_HI = true → exec (.registerRead dt m Reg.HB_TC_NOW_HI) s =
      .next (e.send (.reply m Reg.HB_TC_NOW_HI (e.mreg m Reg.HB_TC_NOW_HI) false))) ∧
  (∀ dt s m a t x, exec (.registerRead dt m a) s = .next t → masterCode x ≠ masterCode m →
    t.mreg x Reg.HB_TC_NOW_HI = s.mreg x Reg.HB_TC_NOW_HI)

/-- R161: LBQ_RETURN_BLOCK and LBQ_RETURN_QUARTER. -/
def Obligations.UnitsReturnInMaintenance : Prop :=
  ∀ dt s e m d, s.elapse dt = e → e.boot.up = true → d < 4 → e.mayWrite m (Reg.AQ_LBQ_CMD d) = true → (e.die d).busy = none →
    (∀ b, b < 32 → (e.blk d b).st = .faulty → ((e.die d).qtr (blockQuarter b)).st ≠ .faulty → ∃ t,
      exec (.lbqReturnBlock dt m d b) s = .next t ∧
      (e.dev = .maintenance → (t.blk d b).st = .returning ∧ (t.die d).busy = some (.block b)) ∧
      (e.dev ≠ .maintenance → (t.die d).result = 1 ∧ bitOf (t.reg (Reg.AQ_LBQ_EVT d)) 8 = true ∧ (∀ k, t.blk d k = e.blk d k) ∧
        (∀ k, t.lane d k = e.lane d k) ∧ (∀ q, (t.die d).qtr q = (e.die d).qtr q) ∧ t.frozen = e.frozen)) ∧
    (∀ q, q < 8 → ((e.die d).qtr q).st = .faulty → ∃ t, exec (.lbqReturnQuarter dt m d q) s = .next t ∧
      (e.dev = .maintenance → ((t.die d).qtr q).st ≠ .faulty ∧ (∀ b, blockQuarter b = q → (e.blk d b).st = .faulty →
        (e.blk d b).cause = 6 → b < 32 → (t.blk d b).st = .returning)) ∧
      (e.dev ≠ .maintenance → (t.die d).result = 1 ∧ bitOf (t.reg (Reg.AQ_LBQ_EVT d)) 8 = true ∧ (∀ k, t.blk d k = e.blk d k) ∧
        (∀ k, t.lane d k = e.lane d k) ∧ (∀ k, (t.die d).qtr k = (e.die d).qtr k) ∧ t.frozen = e.frozen))

/-- R48, R99: REGISTER_WRITE. -/
def Obligations.ConfiguratorWrites : Prop :=
  ∀ dt s e d a v b n o row, s.elapse dt = e → e.boot.up = true → a % 4 = 0 → e.boot.writeProt = false → e.domClosed d = false →
    .domain d ∉ e.frozen → e.meets (.host d) a = .register b n o row → (b = .tc ∧ o ≠ 0x34 ∨ b = .psy ∧ o ≠ 0x24) →
    (e.roleBit d 3 = false → ∃ t, exec (.registerWrite dt (.host d) a v) s = .next t ∧
      FreezeShown ⟨.domain d, .role, 0, e.tc.now, a⟩ e t ∧ t.tc = e.tc ∧ t.psy = e.psy) ∧
    (e.roleBit d 3 = true → hitsReserved b o row v = false → ∃ t, exec (.registerWrite dt (.host d) a v) s = .next t ∧
      t.frozen = e.frozen ∧ t.frzRecs = e.frzRecs)

/-- R360, of the one operation through which every violation goes. That nothing is journaled once the store is write-protected is
R437's. -/
def Obligations.FreezesAreRecorded : Prop :=
  (∀ e who cause x, who ∉ e.frozen → e.boot.writeProt = false → FreezeShown ⟨who, cause, 0, e.tc.now, x⟩ e (State.freeze e who cause x)) ∧
  (∀ e m cause x d, d < 8 → bitOf ((State.freeze e (.domain d) cause x).peek m Reg.HB_HST_FROZEN) d = true) ∧
  (∀ e m cause x c, c < 4 → bitOf ((State.freeze e (.core c) cause x).peek m Reg.HB_HST_FROZEN) (8 + c) = true) ∧
  (∀ e m cause x c, c < 128 →
    bitOf ((State.freeze e (.dma c) cause x).peek m (Reg.HB_HST_FROZEN_DMA (c / 32))) (c % 32) = true) ∧
  (∀ e who cause x, who ∈ e.frozen → ∃ t, t = State.freeze e who cause x ∧ t.frozen = e.frozen ∧ t.frzOver = e.frzOver ∧
    t.journal = e.journal ∧ OnlyParts [.freeze] e t ∧
    ∀ k, tfind t.frzRecs k = (tfind e.frzRecs k).map fun r => if r.who = who then { r with count := min 0xFFFF (r.count + 1) } else r)

/-- The step of the block. That the block idles on an empty queue is the model's choice (log entry 1). -/
def Obligations.StepTakesTheFront : Prop :=
  (∀ s c rest, s.pending = c :: rest → step s = exec c { s with pending := rest }) ∧ (∀ s, s.pending = [] → step s = .next s)

/-- Every row of the table has a meaning, and only `step` takes commands from the queue. -/
def Obligations.NoCommandIsRefused : Prop :=
  (∀ c s r, exec c s ≠ .refused r) ∧ (∀ c s t, exec c s = .next t → t.pending = s.pending)

/-- Powered time, by which the device measures its own intervals, never decreases, whatever resets the step contains. -/
def Obligations.PoweredTimeNeverFalls : Prop := ∀ s t, step s = .next t → s.now ≤ t.now

/-- The canonical form of the plaza's and the host memories' bytes. -/
def Obligations.MemoryStaysCanonical : Prop := ∀ s t, memWf s.mem = true → step s = .next t → memWf t.mem = true

/-- The headline of the output chapter: whatever command arrives, no vital output is energised outside Service and Degraded. -/
def Obligations.OutputsStayGuarded : Prop := ∀ s t, s.outputsGuarded → step s = .next t → t.outputsGuarded

/-- The reset state; the values of registers for which R12 gives a dash are 0 until they are loaded. -/
def Obligations.AfterReset : Prop :=
  ∃ s, s = State.reset ∧ s.dev = .start ∧ s.boot.stage = 0 ∧ s.boot.nvLoaded = false ∧ (∀ a, s.reg a = resetOf a) ∧
    (∀ m a, s.mreg m a = resetOf a) ∧ s.tc.now = 0 ∧ s.lease.holder = none ∧ s.frozen = [] ∧ s.str.live = none ∧
    (∀ d, (s.port d).light = .off ∧ (s.port d).laserEn = false ∧ (s.port d).ampEn = false ∧ (s.port d).drive = false) ∧
    (∀ i, (s.vo i).energised = false) ∧ s.pending = [] ∧ s.queue = [] ∧ s.responses = [] ∧ s.boot.shaken = false ∧
    memWf s.mem = true ∧ s.outputsGuarded

/-- REGISTER_WRITE, REGISTER_READ, COMMAND_ARBITER_ENTRY and the command rows of a frozen domain. -/
def Obligations.FrozenDomainChangesNothing : Prop :=
  (∀ dt s e d a v t, s.elapse dt = e → e.isFrozen (.host d) = true → exec (.registerWrite dt (.host d) a v) s = .next t →
    OnlyParts [.freeze] e t) ∧
  (∀ dt s e d a t, s.elapse dt = e → e.isFrozen (.host d) = true → exec (.registerRead dt (.host d) a) s = .next t →
    OnlyParts [.freeze, .sent] e t) ∧
  (∀ dt s e o r t, s.elapse dt = e → e.isFrozen (.host (originDom o)) = true → exec (.commandArbiterEntry dt o r) s = .next t →
    OnlyParts [.links, .commands] e t) ∧
  (∀ dt s e c t x, s.elapse dt = e → e.isFrozen (.host c.dom) = true →
    x ∈ [Instr.secResetPrep dt c, .secResetDirect dt c, .secBlock dt c, .secUnblock dt c, .brakeTest dt c, .safeStop dt c,
      .leaseAcquire dt c, .leaseRelease dt c, .maintEnter dt c, .maintLeave dt c, .structOpen dt c, .structVerify dt c,
      .structCommit dt c, .structAbort dt c, .deviceReset dt c, .fdReset dt c, .watchEnter dt c] →
    exec x s = .next t → OnlyParts [.links, .commands] e t)

/-- Entry to Safe-stop, of the one operation through which every cause goes. DISCORD and COMMAND clear at entry. -/
def Obligations.SafeStopDropsEverything : Prop :=
  (∀ e k, e.fdUp = true → e.boot.shaken = true → e.fds.first = none → k ∉ e.fds.causes → e.fds.split = false → e.dev ≠ .watch →
    ∃ t, t = State.causeRaise e k ∧ t.dev = .safeStop ∧ t.fds.first = some k ∧ (∀ i, i < 32 → (t.vo i).energised = false) ∧
      (∀ x, x ∈ t.fds.led.secs → x.2.st = .disturbed) ∧ (e.saf.running = true → ∀ x, x ∈ t.saf.chan.secs → x.2.st = .disturbed) ∧
      (∀ c, c < 16 → (t.brake c).step = .none) ∧ (e.str.st = .committing → t.str.st = .verified) ∧
      t.fds.causes = (if k = 5 ∨ k = 10 then e.fds.causes else k :: e.fds.causes)) ∧
  (∀ e k f, e.fdUp = true → e.fds.first = some f → k ∉ e.fds.causes → e.fds.split = false → k ≠ 5 → k ≠ 10 →
    State.causeRaise e k = { e with fds := { e.fds with causes := k :: e.fds.causes } }) ∧
  (∀ e k, k ∈ e.fds.causes → State.causeRaise e k = e)

/-- The frames of the rows of Machine/FrontEnd, Calib, Demod, Lanes, Detector, Profile: what each of them leaves unchanged, the
time that passes apart. -/
def Obligations.AcquisitionFrames : Prop :=
  (∀ dt d s s', exec (.laserWindowReached dt d) s = .next s' → OnlyParts [.ofe] (s.elapse dt) s') ∧
  (∀ dt d s s', exec (.laserOkRise dt d) s = .next s' → OnlyParts [.ofe] (s.elapse dt) s') ∧
  (∀ dt d s s', exec (.laserOkTimeout dt d) s = .next s' → OnlyParts [.regs, .copies, .ofe, .events] (s.elapse dt) s') ∧
  (∀ dt d s s', exec (.ampEnable dt d) s = .next s' → OnlyParts [.ofe] (s.elapse dt) s') ∧
  (∀ dt d held s s', exec (.ampCheckEnd dt d held) s = .next s' → OnlyParts [.regs, .copies, .ofe, .psy, .events] (s.elapse dt) s') ∧
  (∀ dt d s s', exec (.laserOffDelay dt d) s = .next s' → OnlyParts [.ofe] (s.elapse dt) s') ∧
  (∀ dt d s s', exec (.interlockOpen dt d) s = .next s' → OnlyParts [.regs, .copies, .ofe, .psy, .events] (s.elapse dt) s') ∧
  (∀ dt d s s', exec (.interlockClosedHold dt d) s = .next s' → OnlyParts [.regs, .copies, .ofe, .events] (s.elapse dt) s') ∧
  (∀ dt d s s', exec (.ampFault dt d) s = .next s' → OnlyParts [.regs, .copies, .ofe, .psy, .events] (s.elapse dt) s') ∧
  (∀ dt d s s', exec (.ampRetry dt d) s = .next s' → OnlyParts [.ofe] (s.elapse dt) s') ∧
  (∀ dt d s s', exec (.laserOkLoss dt d) s = .next s' → OnlyParts [.regs, .copies, .ofe, .psy, .events] (s.elapse dt) s') ∧
  (∀ dt d s s', exec (.rxOkFall dt d) s = .next s' → OnlyParts [.regs, .copies, .ofe, .events] (s.elapse dt) s') ∧
  (∀ dt d vTop vMid imon pins s s', exec (.thmSample dt d vTop vMid imon pins) s = .next s' → OnlyParts [.regs, .copies, .ofe,
    .psy, .events] (s.elapse dt) s') ∧
  (∀ dt d s s', exec (.tecLoopStep dt d) s = .next s' → OnlyParts [.ofe] (s.elapse dt) s') ∧
  (∀ dt d s s', exec (.tecOvercurrent dt d) s = .next s' → OnlyParts [.regs, .copies, .ofe, .psy, .events] (s.elapse dt) s') ∧
  (∀ dt d s s', exec (.probeWindowUnlocked dt d) s = .next s' → OnlyParts [.regs, .copies, .ofe, .events] (s.elapse dt) s') ∧
  (∀ dt d s s', exec (.probeStart dt d) s = .next s' → OnlyParts [.regs, .copies, .ofe, .dmd, .lbq, .events] (s.elapse dt) s') ∧
  (∀ dt d s s', exec (.periodStart dt d) s = .next s' → OnlyParts [.regs, .copies, .ofe, .psy, .dmd, .lbq, .cal, .events] (s.elapse
    dt) s') ∧
  (∀ dt d k s s', exec (.toneFiring dt d k) s = .next s' → OnlyParts [.psy] (s.elapse dt) s') ∧
  (∀ dt s s', exec (.calBankWriteDone dt) s = .next s' → OnlyParts [.regs, .copies, .ofe, .events, .store] (s.elapse dt) s') ∧
  (∀ dt d s s', exec (.calRoundStart dt d) s = .next s' → OnlyParts [.cal] (s.elapse dt) s') ∧
  (∀ dt d s s', exec (.calPhaseAEnd dt d) s = .next s' → OnlyParts [.cal] (s.elapse dt) s') ∧
  (∀ dt d r s s', exec (.calRoundEnd dt d r) s = .next s' → OnlyParts [.regs, .copies, .cal, .events] (s.elapse dt) s') ∧
  (∀ dt d s s', exec (.calRoundAbandon dt d) s = .next s' → OnlyParts [.regs, .copies, .cal, .events] (s.elapse dt) s') ∧
  (∀ dt d s s', exec (.calRampEnd dt d) s = .next s' → OnlyParts [.cal, .trims, .store] (s.elapse dt) s') ∧
  (∀ dt s s', exec (.trimReportReceived dt) s = .next s' → OnlyParts [.trims] (s.elapse dt) s') ∧
  (∀ dt s s', exec (.trimSetWrite dt) s = .next s' → OnlyParts [.trims, .store] (s.elapse dt) s') ∧
  (∀ dt d k adc guard s s', exec (.tailWindowEnd dt d k adc guard) s = .next s' → OnlyParts [.regs, .copies, .psy, .dmd, .events]
    (s.elapse dt) s') ∧
  (∀ dt d lane slice s s', exec (.sliceReceived dt d lane slice) s = .next s' → OnlyParts [.regs, .copies, .psy, .dmd, .lbq,
    .sensors, .events] (s.elapse dt) s') ∧
  (∀ dt d lane s s', exec (.lanePeriodEnd dt d lane) s = .next s' → OnlyParts [.dmd, .lbq] (s.elapse dt) s') ∧
  (∀ dt d lane upper s s', exec (.edgeRecordReceived dt d lane upper) s = .next s' → OnlyParts [.lbq] (s.elapse dt) s') ∧
  (∀ dt d k j s s', exec (.refWindowEnd dt d k j) s = .next s' → OnlyParts [.dmd] (s.elapse dt) s') ∧
  (∀ dt d s s', exec (.reacqComplete dt d) s = .next s' → OnlyParts [.regs, .copies, .dmd, .lbq, .events] (s.elapse dt) s') ∧
  (∀ dt d s s', exec (.reacqForce dt d) s = .next s' → OnlyParts [.regs, .copies, .dmd, .lbq, .events] (s.elapse dt) s') ∧
  (∀ dt d b s s', exec (.stampFloorSend dt d b) s = .next s' → OnlyParts [.lbq] (s.elapse dt) s') ∧
  (∀ dt d b s s', exec (.spareLoadComplete dt d b) s = .next s' → OnlyParts [.lbq] (s.elapse dt) s') ∧
  (∀ dt d b s s', exec (.arbiterFault dt d b) s = .next s' → OnlyParts [.regs, .copies, .lbq, .events] (s.elapse dt) s') ∧
  (∀ dt d b result s s', exec (.memScrub dt d b result) s = .next s' → OnlyParts [.regs, .copies, .lbq, .events] (s.elapse dt) s') ∧
  (∀ dt d b s s', exec (.blockPllUnlock dt d b) s = .next s' → OnlyParts [.regs, .copies, .lbq, .events] (s.elapse dt) s') ∧
  (∀ dt d b s s', exec (.stampFloorMissing dt d b) s = .next s' → OnlyParts [.regs, .copies, .lbq, .events] (s.elapse dt) s') ∧
  (∀ dt d b s s', exec (.blockPowerDown dt d b) s = .next s' → OnlyParts [.lbq] (s.elapse dt) s') ∧
  (∀ dt d q s s', exec (.quarterHeartbeatLoss dt d q) s = .next s' → OnlyParts [.regs, .copies, .lbq, .events] (s.elapse dt) s') ∧
  (∀ dt d lane s s', exec (.laneReturnTestEnd dt d lane) s = .next s' → OnlyParts [.regs, .copies, .lbq, .events] (s.elapse dt) s') ∧
  (∀ dt d b pass s s', exec (.blockReturnComplete dt d b pass) s = .next s' → OnlyParts [.regs, .copies, .dmd, .lbq, .sensors,
    .events] (s.elapse dt) s') ∧
  (∀ dt d q s s', exec (.quarterParityFault dt d q) s = .next s' → OnlyParts [.regs, .copies, .lbq, .events] (s.elapse dt) s') ∧
  (∀ dt d e s s', exec (.detectionSample dt d e) s = .next s' → OnlyParts [.regs, .copies, .lbq, .sensors, .events] (s.elapse dt)
    s') ∧
  (∀ dt d e s s', exec (.sensorHalt dt d e) s = .next s' → OnlyParts [.regs, .copies, .lbq, .sensors, .events] (s.elapse dt) s') ∧
  (∀ dt d e s s', exec (.standTimeout dt d e) s = .next s' → OnlyParts [.regs, .copies, .lbq, .sensors, .events] (s.elapse dt) s') ∧
  (∀ dt d lane s s', exec (.wheelEventEmit dt d lane) s = .next s' → OnlyParts [.lbq, .sensors, .mrg, .sent] (s.elapse dt) s') ∧
  (∀ dt p s s', exec (.profileRecord dt p) s = .next s' → OnlyParts [.regs, .copies, .dmd, .tpr, .cvu, .mem, .events] (s.elapse dt)
    s') ∧
  (∀ dt w s s', exec (.acwBlockReady dt w) s = .next s' → OnlyParts [.regs, .copies, .acw, .cvu, .mem, .events] (s.elapse dt) s')

/-- The frames of the rows of Machine/Clock, ClockStep, Merge, Combine, ChannelView: what each of them leaves unchanged, the time
that passes apart. -/
def Obligations.ChannelFrames : Prop :=
  (∀ dt msg s s', exec (.ptpMessageReceived dt msg) s = .next s' → OnlyParts [.time, .regs, .copies, .events] (s.elapse dt) s') ∧
  (∀ dt falling s s', exec (.ppsEdge dt falling) s = .next s' → OnlyParts [.time, .regs, .copies, .events] (s.elapse dt) s') ∧
  (∀ dt s s', exec (.ppsEdgeMissing dt) s = .next s' → OnlyParts [.time] (s.elapse dt) s') ∧
  (∀ dt s s', exec (.tcHoldoverEntry dt) s = .next s' → OnlyParts [.time, .regs, .copies, .events] (s.elapse dt) s') ∧
  (∀ dt err s s', exec (.tcSlewMessage dt err) s = .next s' → OnlyParts [.time] (s.elapse dt) s') ∧
  (∀ dt skew s s', exec (.fdSkewDetect dt skew) s = .next s' → OnlyParts [.time, .regs, .copies, .events] (s.elapse dt) s') ∧
  (∀ dt skew s s', exec (.fdSkewRecover dt skew) s = .next s' → OnlyParts [.time] (s.elapse dt) s') ∧
  (∀ dt s s', exec (.ptpDelayReqSend dt) s = .next s' → OnlyParts [.time, .sent] (s.elapse dt) s') ∧
  (∀ dt s s', exec (.tcStepApply dt) s = .next s' → OnlyParts [.time, .regs, .copies, .psy, .dmd, .lbq, .sensors, .mrg, .saf, .tpr,
    .frw, .lease, .events] (s.elapse dt) s') ∧
  (∀ dt s s', exec (.tcStepMessage dt) s = .next s' → OnlyParts [.time, .regs, .copies, .fdin, .outs, .mrg, .fds, .events]
    (s.elapse dt) s') ∧
  (∀ dt link toHb frame crc s s', exec (.linkFrameReceived dt link toHb frame crc) s = .next s' → OnlyParts [.regs, .copies, .outs,
    .mrg, .fds, .events] (s.elapse dt) s') ∧
  (∀ dt d s s', exec (.idleFrameSend dt d) s = .next s' → OnlyParts [.sent] (s.elapse dt) s') ∧
  (∀ dt s s', exec (.fdWatermarkSend dt) s = .next s' → OnlyParts [.sent] (s.elapse dt) s') ∧
  (∀ dt src stamp s s', exec (.watermarkReceived dt src stamp) s = .next s' → OnlyParts [.regs, .copies, .outs, .mrg, .fds,
    .events] (s.elapse dt) s') ∧
  (∀ dt src ev s s', exec (.sourceEventReceived dt src ev) s = .next s' → OnlyParts [.regs, .copies, .outs, .mrg, .saf, .fds, .frw,
    .events, .store] (s.elapse dt) s') ∧
  (∀ dt s s', exec (.eventRelease dt) s = .next s' → OnlyParts [.regs, .copies, .outs, .mrg, .saf, .fds, .frw, .events, .store]
    (s.elapse dt) s') ∧
  (∀ dt d s s', exec (.dieLinkSilence dt d) s = .next s' → OnlyParts [.regs, .copies, .outs, .mrg, .saf, .fds, .frw, .events,
    .store] (s.elapse dt) s') ∧
  (∀ dt d s s', exec (.dieLinkResume dt d) s = .next s' → OnlyParts [.dev, .regs, .copies, .outs, .mrg, .saf, .fds, .str, .frw,
    .events, .store] (s.elapse dt) s') ∧
  (∀ dt d s s', exec (.replayTimeout dt d) s = .next s' → OnlyParts [.regs, .copies, .outs, .mrg, .saf, .fds, .frw, .events,
    .store] (s.elapse dt) s') ∧
  (∀ dt ch s s', exec (.isoChannelSilence dt ch) s = .next s' → OnlyParts [.dev, .regs, .copies, .boot, .ofe, .lbq, .outs, .mrg,
    .saf, .fds, .str, .frw, .links, .events, .store] (s.elapse dt) s') ∧
  (∀ dt t s s', exec (.crossingFault dt t) s = .next s' → OnlyParts [.dev, .regs, .copies, .lbq, .outs, .mrg, .str, .events]
    (s.elapse dt) s') ∧
  (∀ dt s s', exec (.horizonMarkSend dt) s = .next s' → OnlyParts [.regs, .copies, .outs, .mrg, .fds, .events] (s.elapse dt) s') ∧
  (∀ dt d s s', exec (.dieStatusFrame dt d) s = .next s' → OnlyParts [.dev, .regs, .copies, .lbq, .outs, .mrg, .saf, .fds, .frw,
    .events, .store] (s.elapse dt) s') ∧
  (∀ dt d s s', exec (.dieExclusionTimeout dt d) s = .next s' → OnlyParts [.dev, .regs, .copies, .outs, .events] (s.elapse dt) s') ∧
  (∀ dt s s', exec (.releasedEventReceived dt) s = .next s' → OnlyParts [.dev, .regs, .copies, .boot, .ofe, .lbq, .outs, .mrg,
    .saf, .fds, .str, .frw, .links, .events, .store] (s.elapse dt) s') ∧
  (∀ dt s s', exec (.horizonMarkReceived dt) s = .next s' → OnlyParts [.regs, .copies, .outs, .mrg, .fds, .events] (s.elapse dt)
    s') ∧
  (∀ dt s s', exec (.cycleMarkReceived dt) s = .next s' → OnlyParts [.regs, .copies, .fdin, .outs, .mrg, .fds, .events] (s.elapse
    dt) s') ∧
  (∀ dt s s', exec (.spanRestartMarkReceived dt) s = .next s' → OnlyParts [.regs, .copies, .outs, .mrg, .fds, .events] (s.elapse
    dt) s') ∧
  (∀ dt pr cause s s', exec (.pairComparatorMismatch dt pr cause) s = .next s' → OnlyParts [.dev, .regs, .copies, .boot, .ofe,
    .lbq, .outs, .mrg, .saf, .fds, .str, .frw, .links, .events, .store] (s.elapse dt) s') ∧
  (∀ dt pr reports railsOk s s', exec (.pairSelftestInject dt pr reports railsOk) s = .next s' → OnlyParts [.dev, .regs, .copies,
    .boot, .ofe, .lbq, .outs, .mrg, .saf, .fds, .str, .frw, .links, .events, .store] (s.elapse dt) s') ∧
  (∀ dt pr s s', exec (.verdictDeadline dt pr) s = .next s' → OnlyParts [.dev, .regs, .copies, .boot, .ofe, .lbq, .outs, .mrg,
    .saf, .fds, .str, .frw, .links, .events, .store] (s.elapse dt) s') ∧
  (∀ dt standby s s', exec (.verdictSend dt standby) s = .next s' → OnlyParts [.dev, .regs, .copies, .boot, .ofe, .lbq, .outs,
    .mrg, .saf, .fds, .str, .frw, .links, .events, .store] (s.elapse dt) s') ∧
  (∀ dt s s', exec (.verdictSegmentReceived dt) s = .next s' → OnlyParts [.regs, .copies, .outs, .mrg, .saf, .fds, .events]
    (s.elapse dt) s') ∧
  (∀ dt s s', exec (.combinationCompare dt) s = .next s' → OnlyParts [.dev, .regs, .copies, .boot, .ofe, .lbq, .outs, .mrg, .saf,
    .fds, .str, .frw, .links, .events, .store] (s.elapse dt) s') ∧
  (∀ dt ch s s', exec (.verdictTimeout dt ch) s = .next s' → OnlyParts [.regs, .copies, .outs, .fds, .events] (s.elapse dt) s') ∧
  (∀ dt s s', exec (.verdictLoss dt) s = .next s' → OnlyParts [.dev, .regs, .copies, .boot, .ofe, .lbq, .outs, .mrg, .saf, .fds,
    .str, .frw, .links, .events, .store] (s.elapse dt) s') ∧
  (∀ dt code s s', exec (.safeStopCauseClear dt code) s = .next s' → OnlyParts [.fds] (s.elapse dt) s') ∧
  (∀ dt s s', exec (.ledgerFault dt) s = .next s' → OnlyParts [.dev, .regs, .copies, .boot, .ofe, .lbq, .outs, .mrg, .saf, .fds,
    .str, .frw, .links, .events, .store] (s.elapse dt) s') ∧
  (∀ dt result s s', exec (.ledgerScrub dt result) s = .next s' → OnlyParts [.dev, .regs, .copies, .boot, .ofe, .lbq, .outs, .mrg,
    .saf, .fds, .str, .frw, .links, .events, .store] (s.elapse dt) s') ∧
  (∀ dt pr pass s s', exec (.pairReturnSelftestDone dt pr pass) s = .next s' → OnlyParts [.dev, .regs, .copies, .boot, .ofe, .lbq,
    .outs, .mrg, .saf, .fds, .str, .frw, .links, .events, .store] (s.elapse dt) s') ∧
  (∀ dt pr s s', exec (.pairReturnComplete dt pr) s = .next s' → OnlyParts [.dev, .regs, .copies, .outs, .saf, .fds, .events]
    (s.elapse dt) s') ∧
  (∀ dt pr s s', exec (.debugHalt dt pr) s = .next s' → OnlyParts [.dev, .regs, .copies, .boot, .ofe, .lbq, .outs, .mrg, .saf,
    .fds, .str, .frw, .links, .events, .store] (s.elapse dt) s') ∧
  (∀ dt s s', exec (.fieldSupplyFault dt) s = .next s' → OnlyParts [.dev, .regs, .copies, .boot, .ofe, .lbq, .outs, .mrg, .saf,
    .fds, .str, .frw, .links, .events, .store] (s.elapse dt) s') ∧
  (∀ dt s s', exec (.fdInternalFault dt) s = .next s' → OnlyParts [.dev, .regs, .copies, .boot, .ofe, .lbq, .outs, .mrg, .saf,
    .fds, .str, .frw, .links, .events, .store] (s.elapse dt) s') ∧
  (∀ dt ch lh s s', exec (.legacyDiscrepancyTimeout dt ch lh) s = .next s' → OnlyParts [.regs, .copies, .outs, .saf, .fds, .frw,
    .events, .store] (s.elapse dt) s') ∧
  (∀ dt ch cp s s', exec (.headUnresolved dt ch cp) s = .next s' → OnlyParts [.regs, .copies, .outs, .saf, .fds, .frw, .events,
    .store] (s.elapse dt) s') ∧
  (∀ dt ch cp s s', exec (.fusedDisagree dt ch cp) s = .next s' → OnlyParts [.regs, .copies, .outs, .saf, .fds, .frw, .events,
    .store] (s.elapse dt) s') ∧
  (∀ dt ch cp s s', exec (.headBackInService dt ch cp) s = .next s' → OnlyParts [.regs, .copies, .outs, .saf, .fds, .frw, .events,
    .store] (s.elapse dt) s') ∧
  (∀ dt sec s s', exec (.directResetTimeout dt sec) s = .next s' → OnlyParts [.regs, .copies, .outs, .saf, .fds, .frw, .events,
    .store] (s.elapse dt) s')

/-- The frames of the rows of Machine/FieldIn, Outputs: what each of them leaves unchanged, the time that passes apart. -/
def Obligations.FieldFrames : Prop :=
  (∀ dt k runs s s', exec (.channelSettle dt k runs) s = .next s' → OnlyParts [.regs, .copies, .fdin, .events] (s.elapse dt) s') ∧
  (∀ dt k runs s s', exec (.legacyEdge dt k runs) s = .next s' → OnlyParts [.regs, .copies, .fdin, .events] (s.elapse dt) s') ∧
  (∀ dt lh s s', exec (.legacyEventEmit dt lh) s = .next s' → OnlyParts [.fdin, .sent] (s.elapse dt) s') ∧
  (∀ dt k s s', exec (.channelDwellFault dt k) s = .next s' → OnlyParts [.regs, .copies, .fdin, .events] (s.elapse dt) s') ∧
  (∀ dt k low s s', exec (.channelWindowFault dt k low) s = .next s' → OnlyParts [.regs, .copies, .fdin, .events] (s.elapse dt) s') ∧
  (∀ dt k code s s', exec (.channelFaultEnd dt k code) s = .next s' → OnlyParts [.regs, .copies, .fdin, .events] (s.elapse dt) s') ∧
  (∀ dt vf24 vf5 s s', exec (.supplySample dt vf24 vf5) s = .next s' → OnlyParts [.regs, .copies, .fdin, .events] (s.elapse dt) s') ∧
  (∀ dt scan s s', exec (.adcFrame dt scan) s = .next s' → OnlyParts [.regs, .copies, .fdin, .events] (s.elapse dt) s') ∧
  (∀ dt codes s s', exec (.adcRequestDone dt codes) s = .next s' → OnlyParts [.regs, .copies, .fdin, .events] (s.elapse dt) s') ∧
  (∀ dt s s', exec (.cmpCalHoldStart dt) s = .next s' → OnlyParts [.regs, .copies, .fdin, .events] (s.elapse dt) s') ∧
  (∀ dt s s', exec (.cmpCalRetry dt) s = .next s' → OnlyParts [.regs, .copies, .fdin, .events] (s.elapse dt) s') ∧
  (∀ dt code s s', exec (.cmpCalGuardAbort dt code) s = .next s' → OnlyParts [.regs, .copies, .fdin, .events] (s.elapse dt) s') ∧
  (∀ dt level s s', exec (.cmpCalHoldEnd dt level) s = .next s' → OnlyParts [.regs, .copies, .trims, .fdin, .events] (s.elapse dt)
    s') ∧
  (∀ dt k runs s s', exec (.fsiStateChange dt k runs) s = .next s' → OnlyParts [.regs, .copies, .fdin, .outs, .events] (s.elapse
    dt) s') ∧
  (∀ dt k s s', exec (.fsiFault dt k) s = .next s' → OnlyParts [.regs, .copies, .fdin, .outs, .events] (s.elapse dt) s') ∧
  (∀ dt k volts current s s', exec (.outputReadback dt k volts current) s = .next s' → OnlyParts [.dev, .regs, .copies, .boot,
    .ofe, .lbq, .outs, .mrg, .saf, .fds, .str, .frw, .links, .events, .store] (s.elapse dt) s') ∧
  (∀ dt k s s', exec (.outputSwitchTimeout dt k) s = .next s' → OnlyParts [.dev, .regs, .copies, .boot, .ofe, .lbq, .outs, .mrg,
    .saf, .fds, .str, .frw, .links, .events, .store] (s.elapse dt) s') ∧
  (∀ dt k s s', exec (.openLoadTimeout dt k) s = .next s' → OnlyParts [.dev, .regs, .copies, .boot, .ofe, .lbq, .outs, .mrg, .saf,
    .fds, .str, .frw, .links, .events, .store] (s.elapse dt) s') ∧
  (∀ dt s s', exec (.groupCheckStart dt) s = .next s' → OnlyParts [.outs] (s.elapse dt) s') ∧
  (∀ dt g volts s s', exec (.groupCheckDone dt g volts) s = .next s' → OnlyParts [.regs, .copies, .outs, .events] (s.elapse dt) s') ∧
  (∀ dt g volts s s', exec (.groupRetestDone dt g volts) s = .next s' → OnlyParts [.regs, .copies, .outs, .fds, .events] (s.elapse
    dt) s') ∧
  (∀ dt k s s', exec (.offPulseSlotStart dt k) s = .next s' → OnlyParts [.outs] (s.elapse dt) s') ∧
  (∀ dt k s s', exec (.offPulseRaise dt k) s = .next s' → OnlyParts [.outs] (s.elapse dt) s') ∧
  (∀ dt k s s', exec (.offPulseEnd dt k) s = .next s' → OnlyParts [.dev, .regs, .copies, .boot, .ofe, .lbq, .outs, .mrg, .saf,
    .fds, .str, .frw, .links, .events, .store] (s.elapse dt) s') ∧
  (∀ dt c runs s s', exec (.brakeFeedbackChange dt c runs) s = .next s' → OnlyParts [.dev, .regs, .copies, .boot, .ofe, .lbq,
    .fdin, .outs, .mrg, .saf, .fds, .str, .frw, .links, .events, .store] (s.elapse dt) s') ∧
  (∀ dt c s s', exec (.brakeTestApplyTimeout dt c) s = .next s' → OnlyParts [.dev, .regs, .copies, .boot, .ofe, .lbq, .outs, .mrg,
    .saf, .fds, .str, .frw, .links, .events, .store] (s.elapse dt) s') ∧
  (∀ dt c s s', exec (.brakeTestHoldEnd dt c) s = .next s' → OnlyParts [.outs] (s.elapse dt) s') ∧
  (∀ dt c s s', exec (.brakeTestReleaseTimeout dt c) s = .next s' → OnlyParts [.dev, .regs, .copies, .boot, .ofe, .lbq, .outs,
    .mrg, .saf, .fds, .str, .frw, .links, .events, .store] (s.elapse dt) s') ∧
  (∀ dt c s s', exec (.brakeFeedbackTimeout dt c) s = .next s' → OnlyParts [.dev, .regs, .copies, .boot, .ofe, .lbq, .outs, .mrg,
    .saf, .fds, .str, .frw, .links, .events, .store] (s.elapse dt) s') ∧
  (∀ dt n no nc s s', exec (.resetInputPattern dt n no nc) s = .next s' → OnlyParts [.dev, .regs, .copies, .outs, .saf, .fds, .frw,
    .events, .store] (s.elapse dt) s') ∧
  (∀ dt n s s', exec (.resetInputStuck dt n) s = .next s' → OnlyParts [.regs, .copies, .outs, .events] (s.elapse dt) s') ∧
  (∀ dt n s s', exec (.resetInputFault dt n) s = .next s' → OnlyParts [.regs, .copies, .outs, .events] (s.elapse dt) s') ∧
  (∀ dt c s s', exec (.brakeFeedbackFault dt c) s = .next s' → OnlyParts [.dev, .regs, .copies, .boot, .ofe, .lbq, .fdin, .outs,
    .mrg, .saf, .fds, .str, .frw, .links, .events, .store] (s.elapse dt) s') ∧
  (∀ dt n s s', exec (.resetInputFaultRelease dt n) s = .next s' → OnlyParts [.outs] (s.elapse dt) s')

/-- The frames of the rows of Machine/HostLinks, Forerunner, Access, Hosts, StrCmd, Dma, Cvu, Panel, Boot: what each of them
leaves unchanged, the time that passes apart. -/
def Obligations.HostFrames : Prop :=
  (∀ dt s s', exec (.telegramHeaderReceived dt) s = .next s' → OnlyParts [.regs, .copies, .outs, .mrg, .fds, .links, .events]
    (s.elapse dt) s') ∧
  (∀ dt dom s s', exec (.eventEntryDeliver dt dom) s = .next s' → OnlyParts [.copies, .links, .cvu, .mem, .events, .sent] (s.elapse
    dt) s') ∧
  (∀ dt dom s s', exec (.eventTelegramSend dt dom) s = .next s' → OnlyParts [.links, .events, .sent] (s.elapse dt) s') ∧
  (∀ dt p s s', exec (.pciePortReset dt p) s = .next s' → OnlyParts [.regs, .copies, .links, .dma, .commands, .events] (s.elapse
    dt) s') ∧
  (∀ dt dom s s', exec (.vitalTelegramForm dt dom) s = .next s' → OnlyParts [.copies, .links, .cvu, .mem, .sent] (s.elapse dt) s') ∧
  (∀ dt dom s s', exec (.codeHReceived dt dom) s = .next s' → OnlyParts [.regs, .copies, .outs, .mrg, .fds, .links, .cvu, .mem,
    .events, .sent] (s.elapse dt) s') ∧
  (∀ dt dom s s', exec (.telegramDeadline dt dom) s = .next s' → OnlyParts [.copies, .links, .cvu, .mem, .sent] (s.elapse dt) s') ∧
  (∀ dt dom s s', exec (.sessionOpen dt dom) s = .next s' → OnlyParts [.regs, .copies, .links, .dma, .commands, .events, .sent]
    (s.elapse dt) s') ∧
  (∀ dt dom s s', exec (.sessionClose dt dom) s = .next s' → OnlyParts [.regs, .copies, .links, .dma, .commands, .events, .sent]
    (s.elapse dt) s') ∧
  (∀ dt dom s s', exec (.sessionTimeout dt dom) s = .next s' → OnlyParts [.regs, .copies, .links, .dma, .commands, .events, .sent]
    (s.elapse dt) s') ∧
  (∀ dt dom s s', exec (.keepaliveSend dt dom) s = .next s' → OnlyParts [.links, .sent] (s.elapse dt) s') ∧
  (∀ dt p link s s', exec (.ethLinkChange dt p link) s = .next s' → OnlyParts [.regs, .copies, .links, .events] (s.elapse dt) s') ∧
  (∀ dt p payload s s', exec (.icmpEcho dt p payload) s = .next s' → OnlyParts [.links, .sent] (s.elapse dt) s') ∧
  (∀ dt p addr s s', exec (.neighbourRequest dt p addr) s = .next s' → OnlyParts [.sent] (s.elapse dt) s') ∧
  (∀ dt p speed width s s', exec (.pcieLinkUp dt p speed width) s = .next s' → OnlyParts [.regs, .copies, .acw, .links, .cvu, .mem]
    (s.elapse dt) s') ∧
  (∀ dt a s s', exec (.frwSpiRead dt a) s = .next s' → OnlyParts [.regs, .copies, .frw, .events, .sent] (s.elapse dt) s') ∧
  (∀ dt v s s', exec (.frwLatchClr dt v) s = .next s' → OnlyParts [.regs, .copies, .fdin, .frw, .events] (s.elapse dt) s') ∧
  (∀ dt v s s', exec (.frwCntClr dt v) s = .next s' → OnlyParts [.regs, .copies, .fdin, .frw, .events] (s.elapse dt) s') ∧
  (∀ dt v s s', exec (.frwRstSel dt v) s = .next s' → OnlyParts [.regs, .copies, .fdin, .frw, .events] (s.elapse dt) s') ∧
  (∀ dt v s s', exec (.frwRstKey dt v) s = .next s' → OnlyParts [.regs, .copies, .frw, .commands, .events] (s.elapse dt) s') ∧
  (∀ dt v s s', exec (.frwHeadSelWrite dt v) s = .next s' → OnlyParts [.regs, .copies, .frw, .events] (s.elapse dt) s') ∧
  (∀ dt v s s', exec (.frwSecSelWrite dt v) s = .next s' → OnlyParts [.regs, .copies, .frw, .events] (s.elapse dt) s') ∧
  (∀ dt s s', exec (.frwCountLoRead dt) s = .next s' → OnlyParts [.regs, .copies, .frw, .events, .sent] (s.elapse dt) s') ∧
  (∀ dt s s', exec (.frwCountHiRead dt) s = .next s' → OnlyParts [.regs, .copies, .frw, .events, .sent] (s.elapse dt) s') ∧
  (∀ dt s s', exec (.frwTsLoRead dt) s = .next s' → OnlyParts [.regs, .copies, .frw, .events, .sent] (s.elapse dt) s') ∧
  (∀ dt s s', exec (.frwTsHiRead dt) s = .next s' → OnlyParts [.regs, .copies, .frw, .events, .sent] (s.elapse dt) s') ∧
  (∀ dt origin record s s', exec (.commandArbiterEntry dt origin record) s = .next s' → OnlyParts [.regs, .copies, .outs, .saf,
    .fds, .str, .frw, .links, .dma, .lease, .freeze, .commands, .events, .store] (s.elapse dt) s') ∧
  (∀ dt dom record s s', exec (.commandRecordFetch dt dom record) s = .next s' → OnlyParts [.regs, .copies, .outs, .saf, .fds,
    .str, .frw, .links, .dma, .lease, .freeze, .commands, .events, .store] (s.elapse dt) s') ∧
  (∀ dt port src sport payload s s', exec (.ethDatagramReceive dt port src sport payload) s = .next s' → OnlyParts [.regs, .copies,
    .links, .events] (s.elapse dt) s') ∧
  (∀ dt dom s s', exec (.sessionCommand dt dom) s = .next s' → OnlyParts [.regs, .copies, .outs, .saf, .fds, .str, .frw, .links,
    .dma, .lease, .freeze, .commands, .events, .sent, .store] (s.elapse dt) s') ∧
  (∀ dt e s s', exec (.dmaLoop dt e) s = .next s' → OnlyParts [.dma] (s.elapse dt) s') ∧
  (∀ dt e s s', exec (.dmaWait dt e) s = .next s' → OnlyParts [.dma] (s.elapse dt) s') ∧
  (∀ dt e s s', exec (.dmaWaitSatisfied dt e) s = .next s' → OnlyParts [.dma] (s.elapse dt) s') ∧
  (∀ dt e s s', exec (.dmaWaitTimeout dt e) s = .next s' → OnlyParts [.dma] (s.elapse dt) s') ∧
  (∀ dt e s s', exec (.dmaSignal dt e) s = .next s' → OnlyParts [.regs, .copies, .dma, .events] (s.elapse dt) s') ∧
  (∀ dt e ok s s', exec (.dmaBusRetry dt e ok) s = .next s' → OnlyParts [.regs, .copies, .dma, .events] (s.elapse dt) s') ∧
  (∀ dt core addr s s', exec (.hubCoreAccess dt core addr) s = .next s' → OnlyParts [.regs, .copies, .outs, .saf, .fds, .str, .frw,
    .links, .dma, .lease, .freeze, .commands, .events, .store] (s.elapse dt) s') ∧
  (∀ dt s s', exec (.leaseGrace dt) s = .next s' → OnlyParts [.regs, .copies, .lease, .events] (s.elapse dt) s') ∧
  (∀ dt s s', exec (.leaseLapse dt) s = .next s' → OnlyParts [.regs, .copies, .outs, .saf, .fds, .frw, .lease, .events, .store]
    (s.elapse dt) s') ∧
  (∀ dt safety s s', exec (.passwordLockoutEnd dt safety) s = .next s' → OnlyParts [.passwords] (s.elapse dt) s') ∧
  (∀ dt s s', exec (.lockoutTimeSave dt) s = .next s' → OnlyParts [.passwords] (s.elapse dt) s') ∧
  (∀ dt dom s s', exec (.snapshotFill dt dom) s = .next s' → OnlyParts [.copies, .events, .snaps] (s.elapse dt) s') ∧
  (∀ dt s s', exec (.stagingTimeout dt) s = .next s' → OnlyParts [.regs, .copies, .str, .events, .store] (s.elapse dt) s') ∧
  (∀ x s s', exec (.verifyComplete x) s = .next s' → OnlyParts [.regs, .copies, .str, .events] (s.elapse x.dt) s') ∧
  (∀ dt target s s', exec (.structFrameReceived dt target) s = .next s' → OnlyParts [.regs, .copies, .str, .events] (s.elapse dt)
    s') ∧
  (∀ dt target s s', exec (.structFrameAck dt target) s = .next s' → OnlyParts [.str] (s.elapse dt) s') ∧
  (∀ dt s s', exec (.commitDistribTimeout dt) s = .next s' → OnlyParts [.regs, .copies, .str, .events] (s.elapse dt) s') ∧
  (∀ x s s', exec (.commitNvWritesDone x) s = .next s' → OnlyParts [.regs, .copies, .str, .events, .store] (s.elapse x.dt) s') ∧
  (∀ x s s', exec (.commitEffect x) s = .next s' → OnlyParts [.time, .dev, .regs, .copies, .boot, .ofe, .psy, .dmd, .lbq, .sensors,
    .cal, .fdin, .outs, .mrg, .saf, .fds, .str, .acw, .frw, .links, .dma, .lease, .freeze, .commands, .events, .store] (s.elapse
    x.dt) s') ∧
  (∀ dt e s s', exec (.dmaChannelStart dt e) s = .next s' → OnlyParts [.dma] (s.elapse dt) s') ∧
  (∀ dt u s s', exec (.cvuPeriodicStart dt u) s = .next s' → OnlyParts [.cvu] (s.elapse dt) s') ∧
  (∀ dt u faults s s', exec (.cvuPassEnd dt u faults) s = .next s' → OnlyParts [.dev, .regs, .copies, .boot, .ofe, .lbq, .outs,
    .mrg, .saf, .fds, .str, .frw, .links, .cvu, .events, .store] (s.elapse dt) s') ∧
  (∀ dt u record check recvOk s s', exec (.cvuSnoopRecord dt u record check recvOk) s = .next s' → OnlyParts [.regs, .copies, .cvu,
    .events] (s.elapse dt) s') ∧
  (∀ dt pr s s', exec (.pairUncorrectableRead dt pr) s = .next s' → OnlyParts [.dev, .regs, .copies, .boot, .ofe, .lbq, .outs,
    .mrg, .saf, .fds, .str, .frw, .links, .cvu, .mem, .events, .store] (s.elapse dt) s') ∧
  (∀ dt s s', exec (.panelFrameStart dt) s = .next s' → OnlyParts [.panel] (s.elapse dt) s') ∧
  (∀ dt sense s s', exec (.panelRowSlot dt sense) s = .next s' → OnlyParts [.regs, .copies, .panel, .events] (s.elapse dt) s') ∧
  (∀ dt v s s', exec (.panelNtcRead dt v) s = .next s' → OnlyParts [.regs, .copies, .panel, .events] (s.elapse dt) s') ∧
  (∀ dt s s', exec (.chainFrame dt) s = .next s' → OnlyParts [.panel, .sent] (s.elapse dt) s') ∧
  (∀ x s s', exec (.pwrFailTaken x) s = .next s' → OnlyParts [.regs, .copies, .boot, .ofe, .psy, .str, .commands, .events, .store,
    .free] (s.elapse x.dt) s') ∧
  (∀ dt s s', exec (.powerLossEntryDurable dt) s = .next s' → OnlyParts [.regs, .copies, .boot, .events, .store] (s.elapse dt) s') ∧
  (∀ dt dom s s', exec (.responseDeliver dt dom) s = .next s' → OnlyParts [.time, .dev, .regs, .copies, .boot, .ofe, .psy, .dmd,
    .lbq, .sensors, .cal, .trims, .outs, .mrg, .saf, .str, .tpr, .acw, .frw, .links, .dma, .cvu, .panel, .mem, .lease, .freeze,
    .commands, .events, .sent, .snaps, .store] (s.elapse dt) s') ∧
  (∀ dt s s', exec (.wpTokenAdd dt) s = .next s' → OnlyParts [.store] (s.elapse dt) s') ∧
  (∀ dt s s', exec (.powerOnReset dt) s = .next s' → OnlyParts [.time, .dev, .regs, .copies, .boot, .ofe, .psy, .dmd, .lbq,
    .sensors, .cal, .trims, .outs, .mrg, .saf, .str, .tpr, .acw, .frw, .links, .dma, .cvu, .panel, .mem, .lease, .freeze,
    .commands, .events, .snaps, .store] (s.elapse dt) s') ∧
  (∀ dt s s', exec (.pwrFailReset dt) s = .next s' → OnlyParts [.time, .dev, .regs, .copies, .boot, .ofe, .psy, .dmd, .lbq,
    .sensors, .cal, .trims, .outs, .mrg, .saf, .str, .tpr, .acw, .frw, .links, .dma, .cvu, .panel, .mem, .lease, .freeze,
    .commands, .events, .snaps, .store] (s.elapse dt) s') ∧
  (∀ x s s', exec (.pwrFailRelease x) s = .next s' → OnlyParts [.boot] (s.elapse x.dt) s') ∧
  (∀ x s s', exec (.fdPowerOn x) s = .next s' → OnlyParts [.time, .regs, .copies, .boot, .fdUp, .fdin, .outs, .mrg, .saf, .fds,
    .frw, .events, .store] (s.elapse x.dt) s') ∧
  (∀ x s s', exec (.fdBrownout x) s = .next s' → OnlyParts [.regs, .copies, .fdUp, .trims, .fdin, .outs, .fds, .events] (s.elapse
    x.dt) s') ∧
  (∀ dt faults s s', exec (.bootRomStart dt faults) s = .next s' → OnlyParts [.regs, .copies, .boot, .ofe, .trims, .str,
    .passwords, .events, .store] (s.elapse dt) s') ∧
  (∀ dt s s', exec (.firmwareVerified dt) s = .next s' → OnlyParts [.regs, .copies, .boot, .saf, .frw, .cvu, .events, .store]
    (s.elapse dt) s') ∧
  (∀ dt s s', exec (.bootWatchdog dt) s = .next s' → OnlyParts [.time, .dev, .regs, .copies, .boot, .ofe, .psy, .dmd, .lbq,
    .sensors, .cal, .trims, .outs, .mrg, .saf, .str, .tpr, .acw, .frw, .links, .dma, .cvu, .panel, .mem, .lease, .freeze,
    .commands, .events, .snaps, .store] (s.elapse dt) s') ∧
  (∀ dt s s', exec (.startHandshake dt) s = .next s' → OnlyParts [.time, .dev, .regs, .copies, .boot, .ofe, .lbq, .fdin, .outs,
    .mrg, .saf, .fds, .str, .frw, .links, .events, .store] (s.elapse dt) s') ∧
  (∀ dt s s', exec (.handshakeRetry dt) s = .next s' → OnlyParts [.regs, .copies, .boot, .events] (s.elapse dt) s') ∧
  (∀ x s s', exec (.structureLoad x) s = .next s' → OnlyParts [.time, .dev, .regs, .copies, .boot, .ofe, .psy, .lbq, .sensors,
    .fdin, .outs, .mrg, .saf, .fds, .str, .frw, .links, .dma, .lease, .freeze, .commands, .events, .store] (s.elapse x.dt) s') ∧
  (∀ dt s s', exec (.bootComplete dt) s = .next s' → OnlyParts [.dev, .regs, .copies, .boot, .outs, .events] (s.elapse dt) s') ∧
  (∀ dt s s', exec (.bootRefTimeout dt) s = .next s' → OnlyParts [.boot] (s.elapse dt) s') ∧
  (∀ dt s s', exec (.jtagExpiry dt) s = .next s' → OnlyParts [.boot] (s.elapse dt) s') ∧
  (∀ dt s s', exec (.wakeRequestReceived dt) s = .next s' → OnlyParts [.dev, .regs, .copies, .boot, .ofe, .lbq, .fdin, .outs, .mrg,
    .saf, .fds, .frw, .events, .store] (s.elapse dt) s') ∧
  (∀ x s s', exec (.porstNAsserted x) s = .next s' → OnlyParts [.time, .dev, .regs, .copies, .boot, .ofe, .psy, .dmd, .lbq,
    .sensors, .cal, .trims, .outs, .mrg, .saf, .str, .tpr, .acw, .frw, .links, .dma, .cvu, .panel, .mem, .lease, .freeze,
    .commands, .events, .snaps, .store] (s.elapse x.dt) s')
end

