-- ==== Sys2Proof/Laws/State.lean ====
section
/-!
SUPPORT. One lemma per field of the state and per update: an update changes its own field and no other.
-/
namespace Sys2Proof.Machine

variable (s : State)

/-! ### setReg -/

@[simp] theorem State.setReg_pending (a : Nat) (v : Word) : (s.setReg a v).pending = s.pending := rfl
@[simp] theorem State.setReg_now (a : Nat) (v : Word) : (s.setReg a v).now = s.now := rfl
@[simp] theorem State.setReg_dev (a : Nat) (v : Word) : (s.setReg a v).dev = s.dev := rfl
@[simp] theorem State.setReg_tc (a : Nat) (v : Word) : (s.setReg a v).tc = s.tc := rfl
@[simp] theorem State.setReg_regs (a : Nat) (v : Word) : (s.setReg a v).regs = tset s.regs a v := rfl
@[simp] theorem State.setReg_mregs (a : Nat) (v : Word) : (s.setReg a v).mregs = s.mregs := rfl
@[simp] theorem State.setReg_boot (a : Nat) (v : Word) : (s.setReg a v).boot = s.boot := rfl
@[simp] theorem State.setReg_fdUp (a : Nat) (v : Word) : (s.setReg a v).fdUp = s.fdUp := rfl
@[simp] theorem State.setReg_ofe (a : Nat) (v : Word) : (s.setReg a v).ofe = s.ofe := rfl
@[simp] theorem State.setReg_psy (a : Nat) (v : Word) : (s.setReg a v).psy = s.psy := rfl
@[simp] theorem State.setReg_dmd (a : Nat) (v : Word) : (s.setReg a v).dmd = s.dmd := rfl
@[simp] theorem State.setReg_lbq (a : Nat) (v : Word) : (s.setReg a v).lbq = s.lbq := rfl
@[simp] theorem State.setReg_sensors (a : Nat) (v : Word) : (s.setReg a v).sensors = s.sensors := rfl
@[simp] theorem State.setReg_cal (a : Nat) (v : Word) : (s.setReg a v).cal = s.cal := rfl
@[simp] theorem State.setReg_hbTrims (a : Nat) (v : Word) : (s.setReg a v).hbTrims = s.hbTrims := rfl
@[simp] theorem State.setReg_trimReports (a : Nat) (v : Word) : (s.setReg a v).trimReports = s.trimReports := rfl
@[simp] theorem State.setReg_trimSince (a : Nat) (v : Word) : (s.setReg a v).trimSince = s.trimSince := rfl
@[simp] theorem State.setReg_fdin (a : Nat) (v : Word) : (s.setReg a v).fdin = s.fdin := rfl
@[simp] theorem State.setReg_outs (a : Nat) (v : Word) : (s.setReg a v).outs = s.outs := rfl
@[simp] theorem State.setReg_mrg (a : Nat) (v : Word) : (s.setReg a v).mrg = s.mrg := rfl
@[simp] theorem State.setReg_saf (a : Nat) (v : Word) : (s.setReg a v).saf = s.saf := rfl
@[simp] theorem State.setReg_fds (a : Nat) (v : Word) : (s.setReg a v).fds = s.fds := rfl
@[simp] theorem State.setReg_str (a : Nat) (v : Word) : (s.setReg a v).str = s.str := rfl
@[simp] theorem State.setReg_tpr (a : Nat) (v : Word) : (s.setReg a v).tpr = s.tpr := rfl
@[simp] theorem State.setReg_acw (a : Nat) (v : Word) : (s.setReg a v).acw = s.acw := rfl
@[simp] theorem State.setReg_acwq (a : Nat) (v : Word) : (s.setReg a v).acwq = s.acwq := rfl
@[simp] theorem State.setReg_frw (a : Nat) (v : Word) : (s.setReg a v).frw = s.frw := rfl
@[simp] theorem State.setReg_links (a : Nat) (v : Word) : (s.setReg a v).links = s.links := rfl
@[simp] theorem State.setReg_dma (a : Nat) (v : Word) : (s.setReg a v).dma = s.dma := rfl
@[simp] theorem State.setReg_cvu (a : Nat) (v : Word) : (s.setReg a v).cvu = s.cvu := rfl
@[simp] theorem State.setReg_panel (a : Nat) (v : Word) : (s.setReg a v).panel = s.panel := rfl
@[simp] theorem State.setReg_mem (a : Nat) (v : Word) : (s.setReg a v).mem = s.mem := rfl
@[simp] theorem State.setReg_lease (a : Nat) (v : Word) : (s.setReg a v).lease = s.lease := rfl
@[simp] theorem State.setReg_frozen (a : Nat) (v : Word) : (s.setReg a v).frozen = s.frozen := rfl
@[simp] theorem State.setReg_frzRecs (a : Nat) (v : Word) : (s.setReg a v).frzRecs = s.frzRecs := rfl
@[simp] theorem State.setReg_frzOver (a : Nat) (v : Word) : (s.setReg a v).frzOver = s.frzOver := rfl
@[simp] theorem State.setReg_maintPwd (a : Nat) (v : Word) : (s.setReg a v).maintPwd = s.maintPwd := rfl
@[simp] theorem State.setReg_safetyPwd (a : Nat) (v : Word) : (s.setReg a v).safetyPwd = s.safetyPwd := rfl
@[simp] theorem State.setReg_queue (a : Nat) (v : Word) : (s.setReg a v).queue = s.queue := rfl
@[simp] theorem State.setReg_cmds (a : Nat) (v : Word) : (s.setReg a v).cmds = s.cmds := rfl
@[simp] theorem State.setReg_responses (a : Nat) (v : Word) : (s.setReg a v).responses = s.responses := rfl
@[simp] theorem State.setReg_raised (a : Nat) (v : Word) : (s.setReg a v).raised = s.raised := rfl
@[simp] theorem State.setReg_due (a : Nat) (v : Word) : (s.setReg a v).due = s.due := rfl
@[simp] theorem State.setReg_evOver (a : Nat) (v : Word) : (s.setReg a v).evOver = s.evOver := rfl
@[simp] theorem State.setReg_merge (a : Nat) (v : Word) : (s.setReg a v).merge = s.merge := rfl
@[simp] theorem State.setReg_sent (a : Nat) (v : Word) : (s.setReg a v).sent = s.sent := rfl
@[simp] theorem State.setReg_snaps (a : Nat) (v : Word) : (s.setReg a v).snaps = s.snaps := rfl
@[simp] theorem State.setReg_wp (a : Nat) (v : Word) : (s.setReg a v).wp = s.wp := rfl
@[simp] theorem State.setReg_journal (a : Nat) (v : Word) : (s.setReg a v).journal = s.journal := rfl
@[simp] theorem State.setReg_jseq (a : Nat) (v : Word) : (s.setReg a v).jseq = s.jseq := rfl
@[simp] theorem State.setReg_jcur (a : Nat) (v : Word) : (s.setReg a v).jcur = s.jcur := rfl
@[simp] theorem State.setReg_clog (a : Nat) (v : Word) : (s.setReg a v).clog = s.clog := rfl
@[simp] theorem State.setReg_clgLast (a : Nat) (v : Word) : (s.setReg a v).clgLast = s.clgLast := rfl
@[simp] theorem State.setReg_clgFirst (a : Nat) (v : Word) : (s.setReg a v).clgFirst = s.clgFirst := rfl
@[simp] theorem State.setReg_clgAnchor (a : Nat) (v : Word) : (s.setReg a v).clgAnchor = s.clgAnchor := rfl
@[simp] theorem State.setReg_clgCur (a : Nat) (v : Word) : (s.setReg a v).clgCur = s.clgCur := rfl
@[simp] theorem State.setReg_bankA (a : Nat) (v : Word) : (s.setReg a v).bankA = s.bankA := rfl
@[simp] theorem State.setReg_bankB (a : Nat) (v : Word) : (s.setReg a v).bankB = s.bankB := rfl
@[simp] theorem State.setReg_bankWriting (a : Nat) (v : Word) : (s.setReg a v).bankWriting = s.bankWriting := rfl
@[simp] theorem State.setReg_bankWaiting (a : Nat) (v : Word) : (s.setReg a v).bankWaiting = s.bankWaiting := rfl
@[simp] theorem State.setReg_tokensAt (a : Nat) (v : Word) : (s.setReg a v).tokensAt = s.tokensAt := rfl
@[simp] theorem State.setReg_freeCount (a : Nat) (v : Word) : (s.setReg a v).freeCount = s.freeCount := rfl

/-! ### setMreg -/

@[simp] theorem State.setMreg_pending (m : Master) (a : Nat) (v : Word) : (s.setMreg m a v).pending = s.pending := rfl
@[simp] theorem State.setMreg_now (m : Master) (a : Nat) (v : Word) : (s.setMreg m a v).now = s.now := rfl
@[simp] theorem State.setMreg_dev (m : Master) (a : Nat) (v : Word) : (s.setMreg m a v).dev = s.dev := rfl
@[simp] theorem State.setMreg_tc (m : Master) (a : Nat) (v : Word) : (s.setMreg m a v).tc = s.tc := rfl
@[simp] theorem State.setMreg_regs (m : Master) (a : Nat) (v : Word) : (s.setMreg m a v).regs = s.regs := rfl
@[simp] theorem State.setMreg_mregs (m : Master) (a : Nat) (v : Word) : (s.setMreg m a v).mregs = tset s.mregs (masterCode m * 2 ^ 32 + a) v := rfl
@[simp] theorem State.setMreg_boot (m : Master) (a : Nat) (v : Word) : (s.setMreg m a v).boot = s.boot := rfl
@[simp] theorem State.setMreg_fdUp (m : Master) (a : Nat) (v : Word) : (s.setMreg m a v).fdUp = s.fdUp := rfl
@[simp] theorem State.setMreg_ofe (m : Master) (a : Nat) (v : Word) : (s.setMreg m a v).ofe = s.ofe := rfl
@[simp] theorem State.setMreg_psy (m : Master) (a : Nat) (v : Word) : (s.setMreg m a v).psy = s.psy := rfl
@[simp] theorem State.setMreg_dmd (m : Master) (a : Nat) (v : Word) : (s.setMreg m a v).dmd = s.dmd := rfl
@[simp] theorem State.setMreg_lbq (m : Master) (a : Nat) (v : Word) : (s.setMreg m a v).lbq = s.lbq := rfl
@[simp] theorem State.setMreg_sensors (m : Master) (a : Nat) (v : Word) : (s.setMreg m a v).sensors = s.sensors := rfl
@[simp] theorem State.setMreg_cal (m : Master) (a : Nat) (v : Word) : (s.setMreg m a v).cal = s.cal := rfl
@[simp] theorem State.setMreg_hbTrims (m : Master) (a : Nat) (v : Word) : (s.setMreg m a v).hbTrims = s.hbTrims := rfl
@[simp] theorem State.setMreg_trimReports (m : Master) (a : Nat) (v : Word) : (s.setMreg m a v).trimReports = s.trimReports := rfl
@[simp] theorem State.setMreg_trimSince (m : Master) (a : Nat) (v : Word) : (s.setMreg m a v).trimSince = s.trimSince := rfl
@[simp] theorem State.setMreg_fdin (m : Master) (a : Nat) (v : Word) : (s.setMreg m a v).fdin = s.fdin := rfl
@[simp] theorem State.setMreg_outs (m : Master) (a : Nat) (v : Word) : (s.setMreg m a v).outs = s.outs := rfl
@[simp] theorem State.setMreg_mrg (m : Master) (a : Nat) (v : Word) : (s.setMreg m a v).mrg = s.mrg := rfl
@[simp] theorem State.setMreg_saf (m : Master) (a : Nat) (v : Word) : (s.setMreg m a v).saf = s.saf := rfl
@[simp] theorem State.setMreg_fds (m : Master) (a : Nat) (v : Word) : (s.setMreg m a v).fds = s.fds := rfl
@[simp] theorem State.setMreg_str (m : Master) (a : Nat) (v : Word) : (s.setMreg m a v).str = s.str := rfl
@[simp] theorem State.setMreg_tpr (m : Master) (a : Nat) (v : Word) : (s.setMreg m a v).tpr = s.tpr := rfl
@[simp] theorem State.setMreg_acw (m : Master) (a : Nat) (v : Word) : (s.setMreg m a v).acw = s.acw := rfl
@[simp] theorem State.setMreg_acwq (m : Master) (a : Nat) (v : Word) : (s.setMreg m a v).acwq = s.acwq := rfl
@[simp] theorem State.setMreg_frw (m : Master) (a : Nat) (v : Word) : (s.setMreg m a v).frw = s.frw := rfl
@[simp] theorem State.setMreg_links (m : Master) (a : Nat) (v : Word) : (s.setMreg m a v).links = s.links := rfl
@[simp] theorem State.setMreg_dma (m : Master) (a : Nat) (v : Word) : (s.setMreg m a v).dma = s.dma := rfl
@[simp] theorem State.setMreg_cvu (m : Master) (a : Nat) (v : Word) : (s.setMreg m a v).cvu = s.cvu := rfl
@[simp] theorem State.setMreg_panel (m : Master) (a : Nat) (v : Word) : (s.setMreg m a v).panel = s.panel := rfl
@[simp] theorem State.setMreg_mem (m : Master) (a : Nat) (v : Word) : (s.setMreg m a v).mem = s.mem := rfl
@[simp] theorem State.setMreg_lease (m : Master) (a : Nat) (v : Word) : (s.setMreg m a v).lease = s.lease := rfl
@[simp] theorem State.setMreg_frozen (m : Master) (a : Nat) (v : Word) : (s.setMreg m a v).frozen = s.frozen := rfl
@[simp] theorem State.setMreg_frzRecs (m : Master) (a : Nat) (v : Word) : (s.setMreg m a v).frzRecs = s.frzRecs := rfl
@[simp] theorem State.setMreg_frzOver (m : Master) (a : Nat) (v : Word) : (s.setMreg m a v).frzOver = s.frzOver := rfl
@[simp] theorem State.setMreg_maintPwd (m : Master) (a : Nat) (v : Word) : (s.setMreg m a v).maintPwd = s.maintPwd := rfl
@[simp] theorem State.setMreg_safetyPwd (m : Master) (a : Nat) (v : Word) : (s.setMreg m a v).safetyPwd = s.safetyPwd := rfl
@[simp] theorem State.setMreg_queue (m : Master) (a : Nat) (v : Word) : (s.setMreg m a v).queue = s.queue := rfl
@[simp] theorem State.setMreg_cmds (m : Master) (a : Nat) (v : Word) : (s.setMreg m a v).cmds = s.cmds := rfl
@[simp] theorem State.setMreg_responses (m : Master) (a : Nat) (v : Word) : (s.setMreg m a v).responses = s.responses := rfl
@[simp] theorem State.setMreg_raised (m : Master) (a : Nat) (v : Word) : (s.setMreg m a v).raised = s.raised := rfl
@[simp] theorem State.setMreg_due (m : Master) (a : Nat) (v : Word) : (s.setMreg m a v).due = s.due := rfl
@[simp] theorem State.setMreg_evOver (m : Master) (a : Nat) (v : Word) : (s.setMreg m a v).evOver = s.evOver := rfl
@[simp] theorem State.setMreg_merge (m : Master) (a : Nat) (v : Word) : (s.setMreg m a v).merge = s.merge := rfl
@[simp] theorem State.setMreg_sent (m : Master) (a : Nat) (v : Word) : (s.setMreg m a v).sent = s.sent := rfl
@[simp] theorem State.setMreg_snaps (m : Master) (a : Nat) (v : Word) : (s.setMreg m a v).snaps = s.snaps := rfl
@[simp] theorem State.setMreg_wp (m : Master) (a : Nat) (v : Word) : (s.setMreg m a v).wp = s.wp := rfl
@[simp] theorem State.setMreg_journal (m : Master) (a : Nat) (v : Word) : (s.setMreg m a v).journal = s.journal := rfl
@[simp] theorem State.setMreg_jseq (m : Master) (a : Nat) (v : Word) : (s.setMreg m a v).jseq = s.jseq := rfl
@[simp] theorem State.setMreg_jcur (m : Master) (a : Nat) (v : Word) : (s.setMreg m a v).jcur = s.jcur := rfl
@[simp] theorem State.setMreg_clog (m : Master) (a : Nat) (v : Word) : (s.setMreg m a v).clog = s.clog := rfl
@[simp] theorem State.setMreg_clgLast (m : Master) (a : Nat) (v : Word) : (s.setMreg m a v).clgLast = s.clgLast := rfl
@[simp] theorem State.setMreg_clgFirst (m : Master) (a : Nat) (v : Word) : (s.setMreg m a v).clgFirst = s.clgFirst := rfl
@[simp] theorem State.setMreg_clgAnchor (m : Master) (a : Nat) (v : Word) : (s.setMreg m a v).clgAnchor = s.clgAnchor := rfl
@[simp] theorem State.setMreg_clgCur (m : Master) (a : Nat) (v : Word) : (s.setMreg m a v).clgCur = s.clgCur := rfl
@[simp] theorem State.setMreg_bankA (m : Master) (a : Nat) (v : Word) : (s.setMreg m a v).bankA = s.bankA := rfl
@[simp] theorem State.setMreg_bankB (m : Master) (a : Nat) (v : Word) : (s.setMreg m a v).bankB = s.bankB := rfl
@[simp] theorem State.setMreg_bankWriting (m : Master) (a : Nat) (v : Word) : (s.setMreg m a v).bankWriting = s.bankWriting := rfl
@[simp] theorem State.setMreg_bankWaiting (m : Master) (a : Nat) (v : Word) : (s.setMreg m a v).bankWaiting = s.bankWaiting := rfl
@[simp] theorem State.setMreg_tokensAt (m : Master) (a : Nat) (v : Word) : (s.setMreg m a v).tokensAt = s.tokensAt := rfl
@[simp] theorem State.setMreg_freeCount (m : Master) (a : Nat) (v : Word) : (s.setMreg m a v).freeCount = s.freeCount := rfl

/-! ### send -/

@[simp] theorem State.send_pending (o : Sent) : (s.send o).pending = s.pending := rfl
@[simp] theorem State.send_now (o : Sent) : (s.send o).now = s.now := rfl
@[simp] theorem State.send_dev (o : Sent) : (s.send o).dev = s.dev := rfl
@[simp] theorem State.send_tc (o : Sent) : (s.send o).tc = s.tc := rfl
@[simp] theorem State.send_regs (o : Sent) : (s.send o).regs = s.regs := rfl
@[simp] theorem State.send_mregs (o : Sent) : (s.send o).mregs = s.mregs := rfl
@[simp] theorem State.send_boot (o : Sent) : (s.send o).boot = s.boot := rfl
@[simp] theorem State.send_fdUp (o : Sent) : (s.send o).fdUp = s.fdUp := rfl
@[simp] theorem State.send_ofe (o : Sent) : (s.send o).ofe = s.ofe := rfl
@[simp] theorem State.send_psy (o : Sent) : (s.send o).psy = s.psy := rfl
@[simp] theorem State.send_dmd (o : Sent) : (s.send o).dmd = s.dmd := rfl
@[simp] theorem State.send_lbq (o : Sent) : (s.send o).lbq = s.lbq := rfl
@[simp] theorem State.send_sensors (o : Sent) : (s.send o).sensors = s.sensors := rfl
@[simp] theorem State.send_cal (o : Sent) : (s.send o).cal = s.cal := rfl
@[simp] theorem State.send_hbTrims (o : Sent) : (s.send o).hbTrims = s.hbTrims := rfl
@[simp] theorem State.send_trimReports (o : Sent) : (s.send o).trimReports = s.trimReports := rfl
@[simp] theorem State.send_trimSince (o : Sent) : (s.send o).trimSince = s.trimSince := rfl
@[simp] theorem State.send_fdin (o : Sent) : (s.send o).fdin = s.fdin := rfl
@[simp] theorem State.send_outs (o : Sent) : (s.send o).outs = s.outs := rfl
@[simp] theorem State.send_mrg (o : Sent) : (s.send o).mrg = s.mrg := rfl
@[simp] theorem State.send_saf (o : Sent) : (s.send o).saf = s.saf := rfl
@[simp] theorem State.send_fds (o : Sent) : (s.send o).fds = s.fds := rfl
@[simp] theorem State.send_str (o : Sent) : (s.send o).str = s.str := rfl
@[simp] theorem State.send_tpr (o : Sent) : (s.send o).tpr = s.tpr := rfl
@[simp] theorem State.send_acw (o : Sent) : (s.send o).acw = s.acw := rfl
@[simp] theorem State.send_acwq (o : Sent) : (s.send o).acwq = s.acwq := rfl
@[simp] theorem State.send_frw (o : Sent) : (s.send o).frw = s.frw := rfl
@[simp] theorem State.send_links (o : Sent) : (s.send o).links = s.links := rfl
@[simp] theorem State.send_dma (o : Sent) : (s.send o).dma = s.dma := rfl
@[simp] theorem State.send_cvu (o : Sent) : (s.send o).cvu = s.cvu := rfl
@[simp] theorem State.send_panel (o : Sent) : (s.send o).panel = s.panel := rfl
@[simp] theorem State.send_mem (o : Sent) : (s.send o).mem = s.mem := rfl
@[simp] theorem State.send_lease (o : Sent) : (s.send o).lease = s.lease := rfl
@[simp] theorem State.send_frozen (o : Sent) : (s.send o).frozen = s.frozen := rfl
@[simp] theorem State.send_frzRecs (o : Sent) : (s.send o).frzRecs = s.frzRecs := rfl
@[simp] theorem State.send_frzOver (o : Sent) : (s.send o).frzOver = s.frzOver := rfl
@[simp] theorem State.send_maintPwd (o : Sent) : (s.send o).maintPwd = s.maintPwd := rfl
@[simp] theorem State.send_safetyPwd (o : Sent) : (s.send o).safetyPwd = s.safetyPwd := rfl
@[simp] theorem State.send_queue (o : Sent) : (s.send o).queue = s.queue := rfl
@[simp] theorem State.send_cmds (o : Sent) : (s.send o).cmds = s.cmds := rfl
@[simp] theorem State.send_responses (o : Sent) : (s.send o).responses = s.responses := rfl
@[simp] theorem State.send_raised (o : Sent) : (s.send o).raised = s.raised := rfl
@[simp] theorem State.send_due (o : Sent) : (s.send o).due = s.due := rfl
@[simp] theorem State.send_evOver (o : Sent) : (s.send o).evOver = s.evOver := rfl
@[simp] theorem State.send_merge (o : Sent) : (s.send o).merge = s.merge := rfl
@[simp] theorem State.send_sent (o : Sent) : (s.send o).sent = o :: s.sent := rfl
@[simp] theorem State.send_snaps (o : Sent) : (s.send o).snaps = s.snaps := rfl
@[simp] theorem State.send_wp (o : Sent) : (s.send o).wp = s.wp := rfl
@[simp] theorem State.send_journal (o : Sent) : (s.send o).journal = s.journal := rfl
@[simp] theorem State.send_jseq (o : Sent) : (s.send o).jseq = s.jseq := rfl
@[simp] theorem State.send_jcur (o : Sent) : (s.send o).jcur = s.jcur := rfl
@[simp] theorem State.send_clog (o : Sent) : (s.send o).clog = s.clog := rfl
@[simp] theorem State.send_clgLast (o : Sent) : (s.send o).clgLast = s.clgLast := rfl
@[simp] theorem State.send_clgFirst (o : Sent) : (s.send o).clgFirst = s.clgFirst := rfl
@[simp] theorem State.send_clgAnchor (o : Sent) : (s.send o).clgAnchor = s.clgAnchor := rfl
@[simp] theorem State.send_clgCur (o : Sent) : (s.send o).clgCur = s.clgCur := rfl
@[simp] theorem State.send_bankA (o : Sent) : (s.send o).bankA = s.bankA := rfl
@[simp] theorem State.send_bankB (o : Sent) : (s.send o).bankB = s.bankB := rfl
@[simp] theorem State.send_bankWriting (o : Sent) : (s.send o).bankWriting = s.bankWriting := rfl
@[simp] theorem State.send_bankWaiting (o : Sent) : (s.send o).bankWaiting = s.bankWaiting := rfl
@[simp] theorem State.send_tokensAt (o : Sent) : (s.send o).tokensAt = s.tokensAt := rfl
@[simp] theorem State.send_freeCount (o : Sent) : (s.send o).freeCount = s.freeCount := rfl

/-! ### setBoot -/

@[simp] theorem State.setBoot_pending (f : Boot → Boot) : (s.setBoot f).pending = s.pending := rfl
@[simp] theorem State.setBoot_now (f : Boot → Boot) : (s.setBoot f).now = s.now := rfl
@[simp] theorem State.setBoot_dev (f : Boot → Boot) : (s.setBoot f).dev = s.dev := rfl
@[simp] theorem State.setBoot_tc (f : Boot → Boot) : (s.setBoot f).tc = s.tc := rfl
@[simp] theorem State.setBoot_regs (f : Boot → Boot) : (s.setBoot f).regs = s.regs := rfl
@[simp] theorem State.setBoot_mregs (f : Boot → Boot) : (s.setBoot f).mregs = s.mregs := rfl
@[simp] theorem State.setBoot_boot (f : Boot → Boot) : (s.setBoot f).boot = f s.boot := rfl
@[simp] theorem State.setBoot_fdUp (f : Boot → Boot) : (s.setBoot f).fdUp = s.fdUp := rfl
@[simp] theorem State.setBoot_ofe (f : Boot → Boot) : (s.setBoot f).ofe = s.ofe := rfl
@[simp] theorem State.setBoot_psy (f : Boot → Boot) : (s.setBoot f).psy = s.psy := rfl
@[simp] theorem State.setBoot_dmd (f : Boot → Boot) : (s.setBoot f).dmd = s.dmd := rfl
@[simp] theorem State.setBoot_lbq (f : Boot → Boot) : (s.setBoot f).lbq = s.lbq := rfl
@[simp] theorem State.setBoot_sensors (f : Boot → Boot) : (s.setBoot f).sensors = s.sensors := rfl
@[simp] theorem State.setBoot_cal (f : Boot → Boot) : (s.setBoot f).cal = s.cal := rfl
@[simp] theorem State.setBoot_hbTrims (f : Boot → Boot) : (s.setBoot f).hbTrims = s.hbTrims := rfl
@[simp] theorem State.setBoot_trimReports (f : Boot → Boot) : (s.setBoot f).trimReports = s.trimReports := rfl
@[simp] theorem State.setBoot_trimSince (f : Boot → Boot) : (s.setBoot f).trimSince = s.trimSince := rfl
@[simp] theorem State.setBoot_fdin (f : Boot → Boot) : (s.setBoot f).fdin = s.fdin := rfl
@[simp] theorem State.setBoot_outs (f : Boot → Boot) : (s.setBoot f).outs = s.outs := rfl
@[simp] theorem State.setBoot_mrg (f : Boot → Boot) : (s.setBoot f).mrg = s.mrg := rfl
@[simp] theorem State.setBoot_saf (f : Boot → Boot) : (s.setBoot f).saf = s.saf := rfl
@[simp] theorem State.setBoot_fds (f : Boot → Boot) : (s.setBoot f).fds = s.fds := rfl
@[simp] theorem State.setBoot_str (f : Boot → Boot) : (s.setBoot f).str = s.str := rfl
@[simp] theorem State.setBoot_tpr (f : Boot → Boot) : (s.setBoot f).tpr = s.tpr := rfl
@[simp] theorem State.setBoot_acw (f : Boot → Boot) : (s.setBoot f).acw = s.acw := rfl
@[simp] theorem State.setBoot_acwq (f : Boot → Boot) : (s.setBoot f).acwq = s.acwq := rfl
@[simp] theorem State.setBoot_frw (f : Boot → Boot) : (s.setBoot f).frw = s.frw := rfl
@[simp] theorem State.setBoot_links (f : Boot → Boot) : (s.setBoot f).links = s.links := rfl
@[simp] theorem State.setBoot_dma (f : Boot → Boot) : (s.setBoot f).dma = s.dma := rfl
@[simp] theorem State.setBoot_cvu (f : Boot → Boot) : (s.setBoot f).cvu = s.cvu := rfl
@[simp] theorem State.setBoot_panel (f : Boot → Boot) : (s.setBoot f).panel = s.panel := rfl
@[simp] theorem State.setBoot_mem (f : Boot → Boot) : (s.setBoot f).mem = s.mem := rfl
@[simp] theorem State.setBoot_lease (f : Boot → Boot) : (s.setBoot f).lease = s.lease := rfl
@[simp] theorem State.setBoot_frozen (f : Boot → Boot) : (s.setBoot f).frozen = s.frozen := rfl
@[simp] theorem State.setBoot_frzRecs (f : Boot → Boot) : (s.setBoot f).frzRecs = s.frzRecs := rfl
@[simp] theorem State.setBoot_frzOver (f : Boot → Boot) : (s.setBoot f).frzOver = s.frzOver := rfl
@[simp] theorem State.setBoot_maintPwd (f : Boot → Boot) : (s.setBoot f).maintPwd = s.maintPwd := rfl
@[simp] theorem State.setBoot_safetyPwd (f : Boot → Boot) : (s.setBoot f).safetyPwd = s.safetyPwd := rfl
@[simp] theorem State.setBoot_queue (f : Boot → Boot) : (s.setBoot f).queue = s.queue := rfl
@[simp] theorem State.setBoot_cmds (f : Boot → Boot) : (s.setBoot f).cmds = s.cmds := rfl
@[simp] theorem State.setBoot_responses (f : Boot → Boot) : (s.setBoot f).responses = s.responses := rfl
@[simp] theorem State.setBoot_raised (f : Boot → Boot) : (s.setBoot f).raised = s.raised := rfl
@[simp] theorem State.setBoot_due (f : Boot → Boot) : (s.setBoot f).due = s.due := rfl
@[simp] theorem State.setBoot_evOver (f : Boot → Boot) : (s.setBoot f).evOver = s.evOver := rfl
@[simp] theorem State.setBoot_merge (f : Boot → Boot) : (s.setBoot f).merge = s.merge := rfl
@[simp] theorem State.setBoot_sent (f : Boot → Boot) : (s.setBoot f).sent = s.sent := rfl
@[simp] theorem State.setBoot_snaps (f : Boot → Boot) : (s.setBoot f).snaps = s.snaps := rfl
@[simp] theorem State.setBoot_wp (f : Boot → Boot) : (s.setBoot f).wp = s.wp := rfl
@[simp] theorem State.setBoot_journal (f : Boot → Boot) : (s.setBoot f).journal = s.journal := rfl
@[simp] theorem State.setBoot_jseq (f : Boot → Boot) : (s.setBoot f).jseq = s.jseq := rfl
@[simp] theorem State.setBoot_jcur (f : Boot → Boot) : (s.setBoot f).jcur = s.jcur := rfl
@[simp] theorem State.setBoot_clog (f : Boot → Boot) : (s.setBoot f).clog = s.clog := rfl
@[simp] theorem State.setBoot_clgLast (f : Boot → Boot) : (s.setBoot f).clgLast = s.clgLast := rfl
@[simp] theorem State.setBoot_clgFirst (f : Boot → Boot) : (s.setBoot f).clgFirst = s.clgFirst := rfl
@[simp] theorem State.setBoot_clgAnchor (f : Boot → Boot) : (s.setBoot f).clgAnchor = s.clgAnchor := rfl
@[simp] theorem State.setBoot_clgCur (f : Boot → Boot) : (s.setBoot f).clgCur = s.clgCur := rfl
@[simp] theorem State.setBoot_bankA (f : Boot → Boot) : (s.setBoot f).bankA = s.bankA := rfl
@[simp] theorem State.setBoot_bankB (f : Boot → Boot) : (s.setBoot f).bankB = s.bankB := rfl
@[simp] theorem State.setBoot_bankWriting (f : Boot → Boot) : (s.setBoot f).bankWriting = s.bankWriting := rfl
@[simp] theorem State.setBoot_bankWaiting (f : Boot → Boot) : (s.setBoot f).bankWaiting = s.bankWaiting := rfl
@[simp] theorem State.setBoot_tokensAt (f : Boot → Boot) : (s.setBoot f).tokensAt = s.tokensAt := rfl
@[simp] theorem State.setBoot_freeCount (f : Boot → Boot) : (s.setBoot f).freeCount = s.freeCount := rfl

/-! ### setTc -/

@[simp] theorem State.setTc_pending (f : TownClock → TownClock) : (s.setTc f).pending = s.pending := rfl
@[simp] theorem State.setTc_now (f : TownClock → TownClock) : (s.setTc f).now = s.now := rfl
@[simp] theorem State.setTc_dev (f : TownClock → TownClock) : (s.setTc f).dev = s.dev := rfl
@[simp] theorem State.setTc_tc (f : TownClock → TownClock) : (s.setTc f).tc = f s.tc := rfl
@[simp] theorem State.setTc_regs (f : TownClock → TownClock) : (s.setTc f).regs = s.regs := rfl
@[simp] theorem State.setTc_mregs (f : TownClock → TownClock) : (s.setTc f).mregs = s.mregs := rfl
@[simp] theorem State.setTc_boot (f : TownClock → TownClock) : (s.setTc f).boot = s.boot := rfl
@[simp] theorem State.setTc_fdUp (f : TownClock → TownClock) : (s.setTc f).fdUp = s.fdUp := rfl
@[simp] theorem State.setTc_ofe (f : TownClock → TownClock) : (s.setTc f).ofe = s.ofe := rfl
@[simp] theorem State.setTc_psy (f : TownClock → TownClock) : (s.setTc f).psy = s.psy := rfl
@[simp] theorem State.setTc_dmd (f : TownClock → TownClock) : (s.setTc f).dmd = s.dmd := rfl
@[simp] theorem State.setTc_lbq (f : TownClock → TownClock) : (s.setTc f).lbq = s.lbq := rfl
@[simp] theorem State.setTc_sensors (f : TownClock → TownClock) : (s.setTc f).sensors = s.sensors := rfl
@[simp] theorem State.setTc_cal (f : TownClock → TownClock) : (s.setTc f).cal = s.cal := rfl
@[simp] theorem State.setTc_hbTrims (f : TownClock → TownClock) : (s.setTc f).hbTrims = s.hbTrims := rfl
@[simp] theorem State.setTc_trimReports (f : TownClock → TownClock) : (s.setTc f).trimReports = s.trimReports := rfl
@[simp] theorem State.setTc_trimSince (f : TownClock → TownClock) : (s.setTc f).trimSince = s.trimSince := rfl
@[simp] theorem State.setTc_fdin (f : TownClock → TownClock) : (s.setTc f).fdin = s.fdin := rfl
@[simp] theorem State.setTc_outs (f : TownClock → TownClock) : (s.setTc f).outs = s.outs := rfl
@[simp] theorem State.setTc_mrg (f : TownClock → TownClock) : (s.setTc f).mrg = s.mrg := rfl
@[simp] theorem State.setTc_saf (f : TownClock → TownClock) : (s.setTc f).saf = s.saf := rfl
@[simp] theorem State.setTc_fds (f : TownClock → TownClock) : (s.setTc f).fds = s.fds := rfl
@[simp] theorem State.setTc_str (f : TownClock → TownClock) : (s.setTc f).str = s.str := rfl
@[simp] theorem State.setTc_tpr (f : TownClock → TownClock) : (s.setTc f).tpr = s.tpr := rfl
@[simp] theorem State.setTc_acw (f : TownClock → TownClock) : (s.setTc f).acw = s.acw := rfl
@[simp] theorem State.setTc_acwq (f : TownClock → TownClock) : (s.setTc f).acwq = s.acwq := rfl
@[simp] theorem State.setTc_frw (f : TownClock → TownClock) : (s.setTc f).frw = s.frw := rfl
@[simp] theorem State.setTc_links (f : TownClock → TownClock) : (s.setTc f).links = s.links := rfl
@[simp] theorem State.setTc_dma (f : TownClock → TownClock) : (s.setTc f).dma = s.dma := rfl
@[simp] theorem State.setTc_cvu (f : TownClock → TownClock) : (s.setTc f).cvu = s.cvu := rfl
@[simp] theorem State.setTc_panel (f : TownClock → TownClock) : (s.setTc f).panel = s.panel := rfl
@[simp] theorem State.setTc_mem (f : TownClock → TownClock) : (s.setTc f).mem = s.mem := rfl
@[simp] theorem State.setTc_lease (f : TownClock → TownClock) : (s.setTc f).lease = s.lease := rfl
@[simp] theorem State.setTc_frozen (f : TownClock → TownClock) : (s.setTc f).frozen = s.frozen := rfl
@[simp] theorem State.setTc_frzRecs (f : TownClock → TownClock) : (s.setTc f).frzRecs = s.frzRecs := rfl
@[simp] theorem State.setTc_frzOver (f : TownClock → TownClock) : (s.setTc f).frzOver = s.frzOver := rfl
@[simp] theorem State.setTc_maintPwd (f : TownClock → TownClock) : (s.setTc f).maintPwd = s.maintPwd := rfl
@[simp] theorem State.setTc_safetyPwd (f : TownClock → TownClock) : (s.setTc f).safetyPwd = s.safetyPwd := rfl
@[simp] theorem State.setTc_queue (f : TownClock → TownClock) : (s.setTc f).queue = s.queue := rfl
@[simp] theorem State.setTc_cmds (f : TownClock → TownClock) : (s.setTc f).cmds = s.cmds := rfl
@[simp] theorem State.setTc_responses (f : TownClock → TownClock) : (s.setTc f).responses = s.responses := rfl
@[simp] theorem State.setTc_raised (f : TownClock → TownClock) : (s.setTc f).raised = s.raised := rfl
@[simp] theorem State.setTc_due (f : TownClock → TownClock) : (s.setTc f).due = s.due := rfl
@[simp] theorem State.setTc_evOver (f : TownClock → TownClock) : (s.setTc f).evOver = s.evOver := rfl
@[simp] theorem State.setTc_merge (f : TownClock → TownClock) : (s.setTc f).merge = s.merge := rfl
@[simp] theorem State.setTc_sent (f : TownClock → TownClock) : (s.setTc f).sent = s.sent := rfl
@[simp] theorem State.setTc_snaps (f : TownClock → TownClock) : (s.setTc f).snaps = s.snaps := rfl
@[simp] theorem State.setTc_wp (f : TownClock → TownClock) : (s.setTc f).wp = s.wp := rfl
@[simp] theorem State.setTc_journal (f : TownClock → TownClock) : (s.setTc f).journal = s.journal := rfl
@[simp] theorem State.setTc_jseq (f : TownClock → TownClock) : (s.setTc f).jseq = s.jseq := rfl
@[simp] theorem State.setTc_jcur (f : TownClock → TownClock) : (s.setTc f).jcur = s.jcur := rfl
@[simp] theorem State.setTc_clog (f : TownClock → TownClock) : (s.setTc f).clog = s.clog := rfl
@[simp] theorem State.setTc_clgLast (f : TownClock → TownClock) : (s.setTc f).clgLast = s.clgLast := rfl
@[simp] theorem State.setTc_clgFirst (f : TownClock → TownClock) : (s.setTc f).clgFirst = s.clgFirst := rfl
@[simp] theorem State.setTc_clgAnchor (f : TownClock → TownClock) : (s.setTc f).clgAnchor = s.clgAnchor := rfl
@[simp] theorem State.setTc_clgCur (f : TownClock → TownClock) : (s.setTc f).clgCur = s.clgCur := rfl
@[simp] theorem State.setTc_bankA (f : TownClock → TownClock) : (s.setTc f).bankA = s.bankA := rfl
@[simp] theorem State.setTc_bankB (f : TownClock → TownClock) : (s.setTc f).bankB = s.bankB := rfl
@[simp] theorem State.setTc_bankWriting (f : TownClock → TownClock) : (s.setTc f).bankWriting = s.bankWriting := rfl
@[simp] theorem State.setTc_bankWaiting (f : TownClock → TownClock) : (s.setTc f).bankWaiting = s.bankWaiting := rfl
@[simp] theorem State.setTc_tokensAt (f : TownClock → TownClock) : (s.setTc f).tokensAt = s.tokensAt := rfl
@[simp] theorem State.setTc_freeCount (f : TownClock → TownClock) : (s.setTc f).freeCount = s.freeCount := rfl

/-! ### setPort -/

@[simp] theorem State.setPort_pending (d : Nat) (o : Ofe) : (s.setPort d o).pending = s.pending := rfl
@[simp] theorem State.setPort_now (d : Nat) (o : Ofe) : (s.setPort d o).now = s.now := rfl
@[simp] theorem State.setPort_dev (d : Nat) (o : Ofe) : (s.setPort d o).dev = s.dev := rfl
@[simp] theorem State.setPort_tc (d : Nat) (o : Ofe) : (s.setPort d o).tc = s.tc := rfl
@[simp] theorem State.setPort_regs (d : Nat) (o : Ofe) : (s.setPort d o).regs = s.regs := rfl
@[simp] theorem State.setPort_mregs (d : Nat) (o : Ofe) : (s.setPort d o).mregs = s.mregs := rfl
@[simp] theorem State.setPort_boot (d : Nat) (o : Ofe) : (s.setPort d o).boot = s.boot := rfl
@[simp] theorem State.setPort_fdUp (d : Nat) (o : Ofe) : (s.setPort d o).fdUp = s.fdUp := rfl
@[simp] theorem State.setPort_ofe (d : Nat) (o : Ofe) : (s.setPort d o).ofe = tset s.ofe d o := rfl
@[simp] theorem State.setPort_psy (d : Nat) (o : Ofe) : (s.setPort d o).psy = s.psy := rfl
@[simp] theorem State.setPort_dmd (d : Nat) (o : Ofe) : (s.setPort d o).dmd = s.dmd := rfl
@[simp] theorem State.setPort_lbq (d : Nat) (o : Ofe) : (s.setPort d o).lbq = s.lbq := rfl
@[simp] theorem State.setPort_sensors (d : Nat) (o : Ofe) : (s.setPort d o).sensors = s.sensors := rfl
@[simp] theorem State.setPort_cal (d : Nat) (o : Ofe) : (s.setPort d o).cal = s.cal := rfl
@[simp] theorem State.setPort_hbTrims (d : Nat) (o : Ofe) : (s.setPort d o).hbTrims = s.hbTrims := rfl
@[simp] theorem State.setPort_trimReports (d : Nat) (o : Ofe) : (s.setPort d o).trimReports = s.trimReports := rfl
@[simp] theorem State.setPort_trimSince (d : Nat) (o : Ofe) : (s.setPort d o).trimSince = s.trimSince := rfl
@[simp] theorem State.setPort_fdin (d : Nat) (o : Ofe) : (s.setPort d o).fdin = s.fdin := rfl
@[simp] theorem State.setPort_outs (d : Nat) (o : Ofe) : (s.setPort d o).outs = s.outs := rfl
@[simp] theorem State.setPort_mrg (d : Nat) (o : Ofe) : (s.setPort d o).mrg = s.mrg := rfl
@[simp] theorem State.setPort_saf (d : Nat) (o : Ofe) : (s.setPort d o).saf = s.saf := rfl
@[simp] theorem State.setPort_fds (d : Nat) (o : Ofe) : (s.setPort d o).fds = s.fds := rfl
@[simp] theorem State.setPort_str (d : Nat) (o : Ofe) : (s.setPort d o).str = s.str := rfl
@[simp] theorem State.setPort_tpr (d : Nat) (o : Ofe) : (s.setPort d o).tpr = s.tpr := rfl
@[simp] theorem State.setPort_acw (d : Nat) (o : Ofe) : (s.setPort d o).acw = s.acw := rfl
@[simp] theorem State.setPort_acwq (d : Nat) (o : Ofe) : (s.setPort d o).acwq = s.acwq := rfl
@[simp] theorem State.setPort_frw (d : Nat) (o : Ofe) : (s.setPort d o).frw = s.frw := rfl
@[simp] theorem State.setPort_links (d : Nat) (o : Ofe) : (s.setPort d o).links = s.links := rfl
@[simp] theorem State.setPort_dma (d : Nat) (o : Ofe) : (s.setPort d o).dma = s.dma := rfl
@[simp] theorem State.setPort_cvu (d : Nat) (o : Ofe) : (s.setPort d o).cvu = s.cvu := rfl
@[simp] theorem State.setPort_panel (d : Nat) (o : Ofe) : (s.setPort d o).panel = s.panel := rfl
@[simp] theorem State.setPort_mem (d : Nat) (o : Ofe) : (s.setPort d o).mem = s.mem := rfl
@[simp] theorem State.setPort_lease (d : Nat) (o : Ofe) : (s.setPort d o).lease = s.lease := rfl
@[simp] theorem State.setPort_frozen (d : Nat) (o : Ofe) : (s.setPort d o).frozen = s.frozen := rfl
@[simp] theorem State.setPort_frzRecs (d : Nat) (o : Ofe) : (s.setPort d o).frzRecs = s.frzRecs := rfl
@[simp] theorem State.setPort_frzOver (d : Nat) (o : Ofe) : (s.setPort d o).frzOver = s.frzOver := rfl
@[simp] theorem State.setPort_maintPwd (d : Nat) (o : Ofe) : (s.setPort d o).maintPwd = s.maintPwd := rfl
@[simp] theorem State.setPort_safetyPwd (d : Nat) (o : Ofe) : (s.setPort d o).safetyPwd = s.safetyPwd := rfl
@[simp] theorem State.setPort_queue (d : Nat) (o : Ofe) : (s.setPort d o).queue = s.queue := rfl
@[simp] theorem State.setPort_cmds (d : Nat) (o : Ofe) : (s.setPort d o).cmds = s.cmds := rfl
@[simp] theorem State.setPort_responses (d : Nat) (o : Ofe) : (s.setPort d o).responses = s.responses := rfl
@[simp] theorem State.setPort_raised (d : Nat) (o : Ofe) : (s.setPort d o).raised = s.raised := rfl
@[simp] theorem State.setPort_due (d : Nat) (o : Ofe) : (s.setPort d o).due = s.due := rfl
@[simp] theorem State.setPort_evOver (d : Nat) (o : Ofe) : (s.setPort d o).evOver = s.evOver := rfl
@[simp] theorem State.setPort_merge (d : Nat) (o : Ofe) : (s.setPort d o).merge = s.merge := rfl
@[simp] theorem State.setPort_sent (d : Nat) (o : Ofe) : (s.setPort d o).sent = s.sent := rfl
@[simp] theorem State.setPort_snaps (d : Nat) (o : Ofe) : (s.setPort d o).snaps = s.snaps := rfl
@[simp] theorem State.setPort_wp (d : Nat) (o : Ofe) : (s.setPort d o).wp = s.wp := rfl
@[simp] theorem State.setPort_journal (d : Nat) (o : Ofe) : (s.setPort d o).journal = s.journal := rfl
@[simp] theorem State.setPort_jseq (d : Nat) (o : Ofe) : (s.setPort d o).jseq = s.jseq := rfl
@[simp] theorem State.setPort_jcur (d : Nat) (o : Ofe) : (s.setPort d o).jcur = s.jcur := rfl
@[simp] theorem State.setPort_clog (d : Nat) (o : Ofe) : (s.setPort d o).clog = s.clog := rfl
@[simp] theorem State.setPort_clgLast (d : Nat) (o : Ofe) : (s.setPort d o).clgLast = s.clgLast := rfl
@[simp] theorem State.setPort_clgFirst (d : Nat) (o : Ofe) : (s.setPort d o).clgFirst = s.clgFirst := rfl
@[simp] theorem State.setPort_clgAnchor (d : Nat) (o : Ofe) : (s.setPort d o).clgAnchor = s.clgAnchor := rfl
@[simp] theorem State.setPort_clgCur (d : Nat) (o : Ofe) : (s.setPort d o).clgCur = s.clgCur := rfl
@[simp] theorem State.setPort_bankA (d : Nat) (o : Ofe) : (s.setPort d o).bankA = s.bankA := rfl
@[simp] theorem State.setPort_bankB (d : Nat) (o : Ofe) : (s.setPort d o).bankB = s.bankB := rfl
@[simp] theorem State.setPort_bankWriting (d : Nat) (o : Ofe) : (s.setPort d o).bankWriting = s.bankWriting := rfl
@[simp] theorem State.setPort_bankWaiting (d : Nat) (o : Ofe) : (s.setPort d o).bankWaiting = s.bankWaiting := rfl
@[simp] theorem State.setPort_tokensAt (d : Nat) (o : Ofe) : (s.setPort d o).tokensAt = s.tokensAt := rfl
@[simp] theorem State.setPort_freeCount (d : Nat) (o : Ofe) : (s.setPort d o).freeCount = s.freeCount := rfl

/-! ### setProbe -/

@[simp] theorem State.setProbe_pending (d : Nat) (p : Psy) : (s.setProbe d p).pending = s.pending := rfl
@[simp] theorem State.setProbe_now (d : Nat) (p : Psy) : (s.setProbe d p).now = s.now := rfl
@[simp] theorem State.setProbe_dev (d : Nat) (p : Psy) : (s.setProbe d p).dev = s.dev := rfl
@[simp] theorem State.setProbe_tc (d : Nat) (p : Psy) : (s.setProbe d p).tc = s.tc := rfl
@[simp] theorem State.setProbe_regs (d : Nat) (p : Psy) : (s.setProbe d p).regs = s.regs := rfl
@[simp] theorem State.setProbe_mregs (d : Nat) (p : Psy) : (s.setProbe d p).mregs = s.mregs := rfl
@[simp] theorem State.setProbe_boot (d : Nat) (p : Psy) : (s.setProbe d p).boot = s.boot := rfl
@[simp] theorem State.setProbe_fdUp (d : Nat) (p : Psy) : (s.setProbe d p).fdUp = s.fdUp := rfl
@[simp] theorem State.setProbe_ofe (d : Nat) (p : Psy) : (s.setProbe d p).ofe = s.ofe := rfl
@[simp] theorem State.setProbe_psy (d : Nat) (p : Psy) : (s.setProbe d p).psy = tset s.psy d p := rfl
@[simp] theorem State.setProbe_dmd (d : Nat) (p : Psy) : (s.setProbe d p).dmd = s.dmd := rfl
@[simp] theorem State.setProbe_lbq (d : Nat) (p : Psy) : (s.setProbe d p).lbq = s.lbq := rfl
@[simp] theorem State.setProbe_sensors (d : Nat) (p : Psy) : (s.setProbe d p).sensors = s.sensors := rfl
@[simp] theorem State.setProbe_cal (d : Nat) (p : Psy) : (s.setProbe d p).cal = s.cal := rfl
@[simp] theorem State.setProbe_hbTrims (d : Nat) (p : Psy) : (s.setProbe d p).hbTrims = s.hbTrims := rfl
@[simp] theorem State.setProbe_trimReports (d : Nat) (p : Psy) : (s.setProbe d p).trimReports = s.trimReports := rfl
@[simp] theorem State.setProbe_trimSince (d : Nat) (p : Psy) : (s.setProbe d p).trimSince = s.trimSince := rfl
@[simp] theorem State.setProbe_fdin (d : Nat) (p : Psy) : (s.setProbe d p).fdin = s.fdin := rfl
@[simp] theorem State.setProbe_outs (d : Nat) (p : Psy) : (s.setProbe d p).outs = s.outs := rfl
@[simp] theorem State.setProbe_mrg (d : Nat) (p : Psy) : (s.setProbe d p).mrg = s.mrg := rfl
@[simp] theorem State.setProbe_saf (d : Nat) (p : Psy) : (s.setProbe d p).saf = s.saf := rfl
@[simp] theorem State.setProbe_fds (d : Nat) (p : Psy) : (s.setProbe d p).fds = s.fds := rfl
@[simp] theorem State.setProbe_str (d : Nat) (p : Psy) : (s.setProbe d p).str = s.str := rfl
@[simp] theorem State.setProbe_tpr (d : Nat) (p : Psy) : (s.setProbe d p).tpr = s.tpr := rfl
@[simp] theorem State.setProbe_acw (d : Nat) (p : Psy) : (s.setProbe d p).acw = s.acw := rfl
@[simp] theorem State.setProbe_acwq (d : Nat) (p : Psy) : (s.setProbe d p).acwq = s.acwq := rfl
@[simp] theorem State.setProbe_frw (d : Nat) (p : Psy) : (s.setProbe d p).frw = s.frw := rfl
@[simp] theorem State.setProbe_links (d : Nat) (p : Psy) : (s.setProbe d p).links = s.links := rfl
@[simp] theorem State.setProbe_dma (d : Nat) (p : Psy) : (s.setProbe d p).dma = s.dma := rfl
@[simp] theorem State.setProbe_cvu (d : Nat) (p : Psy) : (s.setProbe d p).cvu = s.cvu := rfl
@[simp] theorem State.setProbe_panel (d : Nat) (p : Psy) : (s.setProbe d p).panel = s.panel := rfl
@[simp] theorem State.setProbe_mem (d : Nat) (p : Psy) : (s.setProbe d p).mem = s.mem := rfl
@[simp] theorem State.setProbe_lease (d : Nat) (p : Psy) : (s.setProbe d p).lease = s.lease := rfl
@[simp] theorem State.setProbe_frozen (d : Nat) (p : Psy) : (s.setProbe d p).frozen = s.frozen := rfl
@[simp] theorem State.setProbe_frzRecs (d : Nat) (p : Psy) : (s.setProbe d p).frzRecs = s.frzRecs := rfl
@[simp] theorem State.setProbe_frzOver (d : Nat) (p : Psy) : (s.setProbe d p).frzOver = s.frzOver := rfl
@[simp] theorem State.setProbe_maintPwd (d : Nat) (p : Psy) : (s.setProbe d p).maintPwd = s.maintPwd := rfl
@[simp] theorem State.setProbe_safetyPwd (d : Nat) (p : Psy) : (s.setProbe d p).safetyPwd = s.safetyPwd := rfl
@[simp] theorem State.setProbe_queue (d : Nat) (p : Psy) : (s.setProbe d p).queue = s.queue := rfl
@[simp] theorem State.setProbe_cmds (d : Nat) (p : Psy) : (s.setProbe d p).cmds = s.cmds := rfl
@[simp] theorem State.setProbe_responses (d : Nat) (p : Psy) : (s.setProbe d p).responses = s.responses := rfl
@[simp] theorem State.setProbe_raised (d : Nat) (p : Psy) : (s.setProbe d p).raised = s.raised := rfl
@[simp] theorem State.setProbe_due (d : Nat) (p : Psy) : (s.setProbe d p).due = s.due := rfl
@[simp] theorem State.setProbe_evOver (d : Nat) (p : Psy) : (s.setProbe d p).evOver = s.evOver := rfl
@[simp] theorem State.setProbe_merge (d : Nat) (p : Psy) : (s.setProbe d p).merge = s.merge := rfl
@[simp] theorem State.setProbe_sent (d : Nat) (p : Psy) : (s.setProbe d p).sent = s.sent := rfl
@[simp] theorem State.setProbe_snaps (d : Nat) (p : Psy) : (s.setProbe d p).snaps = s.snaps := rfl
@[simp] theorem State.setProbe_wp (d : Nat) (p : Psy) : (s.setProbe d p).wp = s.wp := rfl
@[simp] theorem State.setProbe_journal (d : Nat) (p : Psy) : (s.setProbe d p).journal = s.journal := rfl
@[simp] theorem State.setProbe_jseq (d : Nat) (p : Psy) : (s.setProbe d p).jseq = s.jseq := rfl
@[simp] theorem State.setProbe_jcur (d : Nat) (p : Psy) : (s.setProbe d p).jcur = s.jcur := rfl
@[simp] theorem State.setProbe_clog (d : Nat) (p : Psy) : (s.setProbe d p).clog = s.clog := rfl
@[simp] theorem State.setProbe_clgLast (d : Nat) (p : Psy) : (s.setProbe d p).clgLast = s.clgLast := rfl
@[simp] theorem State.setProbe_clgFirst (d : Nat) (p : Psy) : (s.setProbe d p).clgFirst = s.clgFirst := rfl
@[simp] theorem State.setProbe_clgAnchor (d : Nat) (p : Psy) : (s.setProbe d p).clgAnchor = s.clgAnchor := rfl
@[simp] theorem State.setProbe_clgCur (d : Nat) (p : Psy) : (s.setProbe d p).clgCur = s.clgCur := rfl
@[simp] theorem State.setProbe_bankA (d : Nat) (p : Psy) : (s.setProbe d p).bankA = s.bankA := rfl
@[simp] theorem State.setProbe_bankB (d : Nat) (p : Psy) : (s.setProbe d p).bankB = s.bankB := rfl
@[simp] theorem State.setProbe_bankWriting (d : Nat) (p : Psy) : (s.setProbe d p).bankWriting = s.bankWriting := rfl
@[simp] theorem State.setProbe_bankWaiting (d : Nat) (p : Psy) : (s.setProbe d p).bankWaiting = s.bankWaiting := rfl
@[simp] theorem State.setProbe_tokensAt (d : Nat) (p : Psy) : (s.setProbe d p).tokensAt = s.tokensAt := rfl
@[simp] theorem State.setProbe_freeCount (d : Nat) (p : Psy) : (s.setProbe d p).freeCount = s.freeCount := rfl

/-! ### setDemod -/

@[simp] theorem State.setDemod_pending (d : Nat) (m : Demod) : (s.setDemod d m).pending = s.pending := rfl
@[simp] theorem State.setDemod_now (d : Nat) (m : Demod) : (s.setDemod d m).now = s.now := rfl
@[simp] theorem State.setDemod_dev (d : Nat) (m : Demod) : (s.setDemod d m).dev = s.dev := rfl
@[simp] theorem State.setDemod_tc (d : Nat) (m : Demod) : (s.setDemod d m).tc = s.tc := rfl
@[simp] theorem State.setDemod_regs (d : Nat) (m : Demod) : (s.setDemod d m).regs = s.regs := rfl
@[simp] theorem State.setDemod_mregs (d : Nat) (m : Demod) : (s.setDemod d m).mregs = s.mregs := rfl
@[simp] theorem State.setDemod_boot (d : Nat) (m : Demod) : (s.setDemod d m).boot = s.boot := rfl
@[simp] theorem State.setDemod_fdUp (d : Nat) (m : Demod) : (s.setDemod d m).fdUp = s.fdUp := rfl
@[simp] theorem State.setDemod_ofe (d : Nat) (m : Demod) : (s.setDemod d m).ofe = s.ofe := rfl
@[simp] theorem State.setDemod_psy (d : Nat) (m : Demod) : (s.setDemod d m).psy = s.psy := rfl
@[simp] theorem State.setDemod_dmd (d : Nat) (m : Demod) : (s.setDemod d m).dmd = tset s.dmd d m := rfl
@[simp] theorem State.setDemod_lbq (d : Nat) (m : Demod) : (s.setDemod d m).lbq = s.lbq := rfl
@[simp] theorem State.setDemod_sensors (d : Nat) (m : Demod) : (s.setDemod d m).sensors = s.sensors := rfl
@[simp] theorem State.setDemod_cal (d : Nat) (m : Demod) : (s.setDemod d m).cal = s.cal := rfl
@[simp] theorem State.setDemod_hbTrims (d : Nat) (m : Demod) : (s.setDemod d m).hbTrims = s.hbTrims := rfl
@[simp] theorem State.setDemod_trimReports (d : Nat) (m : Demod) : (s.setDemod d m).trimReports = s.trimReports := rfl
@[simp] theorem State.setDemod_trimSince (d : Nat) (m : Demod) : (s.setDemod d m).trimSince = s.trimSince := rfl
@[simp] theorem State.setDemod_fdin (d : Nat) (m : Demod) : (s.setDemod d m).fdin = s.fdin := rfl
@[simp] theorem State.setDemod_outs (d : Nat) (m : Demod) : (s.setDemod d m).outs = s.outs := rfl
@[simp] theorem State.setDemod_mrg (d : Nat) (m : Demod) : (s.setDemod d m).mrg = s.mrg := rfl
@[simp] theorem State.setDemod_saf (d : Nat) (m : Demod) : (s.setDemod d m).saf = s.saf := rfl
@[simp] theorem State.setDemod_fds (d : Nat) (m : Demod) : (s.setDemod d m).fds = s.fds := rfl
@[simp] theorem State.setDemod_str (d : Nat) (m : Demod) : (s.setDemod d m).str = s.str := rfl
@[simp] theorem State.setDemod_tpr (d : Nat) (m : Demod) : (s.setDemod d m).tpr = s.tpr := rfl
@[simp] theorem State.setDemod_acw (d : Nat) (m : Demod) : (s.setDemod d m).acw = s.acw := rfl
@[simp] theorem State.setDemod_acwq (d : Nat) (m : Demod) : (s.setDemod d m).acwq = s.acwq := rfl
@[simp] theorem State.setDemod_frw (d : Nat) (m : Demod) : (s.setDemod d m).frw = s.frw := rfl
@[simp] theorem State.setDemod_links (d : Nat) (m : Demod) : (s.setDemod d m).links = s.links := rfl
@[simp] theorem State.setDemod_dma (d : Nat) (m : Demod) : (s.setDemod d m).dma = s.dma := rfl
@[simp] theorem State.setDemod_cvu (d : Nat) (m : Demod) : (s.setDemod d m).cvu = s.cvu := rfl
@[simp] theorem State.setDemod_panel (d : Nat) (m : Demod) : (s.setDemod d m).panel = s.panel := rfl
@[simp] theorem State.setDemod_mem (d : Nat) (m : Demod) : (s.setDemod d m).mem = s.mem := rfl
@[simp] theorem State.setDemod_lease (d : Nat) (m : Demod) : (s.setDemod d m).lease = s.lease := rfl
@[simp] theorem State.setDemod_frozen (d : Nat) (m : Demod) : (s.setDemod d m).frozen = s.frozen := rfl
@[simp] theorem State.setDemod_frzRecs (d : Nat) (m : Demod) : (s.setDemod d m).frzRecs = s.frzRecs := rfl
@[simp] theorem State.setDemod_frzOver (d : Nat) (m : Demod) : (s.setDemod d m).frzOver = s.frzOver := rfl
@[simp] theorem State.setDemod_maintPwd (d : Nat) (m : Demod) : (s.setDemod d m).maintPwd = s.maintPwd := rfl
@[simp] theorem State.setDemod_safetyPwd (d : Nat) (m : Demod) : (s.setDemod d m).safetyPwd = s.safetyPwd := rfl
@[simp] theorem State.setDemod_queue (d : Nat) (m : Demod) : (s.setDemod d m).queue = s.queue := rfl
@[simp] theorem State.setDemod_cmds (d : Nat) (m : Demod) : (s.setDemod d m).cmds = s.cmds := rfl
@[simp] theorem State.setDemod_responses (d : Nat) (m : Demod) : (s.setDemod d m).responses = s.responses := rfl
@[simp] theorem State.setDemod_raised (d : Nat) (m : Demod) : (s.setDemod d m).raised = s.raised := rfl
@[simp] theorem State.setDemod_due (d : Nat) (m : Demod) : (s.setDemod d m).due = s.due := rfl
@[simp] theorem State.setDemod_evOver (d : Nat) (m : Demod) : (s.setDemod d m).evOver = s.evOver := rfl
@[simp] theorem State.setDemod_merge (d : Nat) (m : Demod) : (s.setDemod d m).merge = s.merge := rfl
@[simp] theorem State.setDemod_sent (d : Nat) (m : Demod) : (s.setDemod d m).sent = s.sent := rfl
@[simp] theorem State.setDemod_snaps (d : Nat) (m : Demod) : (s.setDemod d m).snaps = s.snaps := rfl
@[simp] theorem State.setDemod_wp (d : Nat) (m : Demod) : (s.setDemod d m).wp = s.wp := rfl
@[simp] theorem State.setDemod_journal (d : Nat) (m : Demod) : (s.setDemod d m).journal = s.journal := rfl
@[simp] theorem State.setDemod_jseq (d : Nat) (m : Demod) : (s.setDemod d m).jseq = s.jseq := rfl
@[simp] theorem State.setDemod_jcur (d : Nat) (m : Demod) : (s.setDemod d m).jcur = s.jcur := rfl
@[simp] theorem State.setDemod_clog (d : Nat) (m : Demod) : (s.setDemod d m).clog = s.clog := rfl
@[simp] theorem State.setDemod_clgLast (d : Nat) (m : Demod) : (s.setDemod d m).clgLast = s.clgLast := rfl
@[simp] theorem State.setDemod_clgFirst (d : Nat) (m : Demod) : (s.setDemod d m).clgFirst = s.clgFirst := rfl
@[simp] theorem State.setDemod_clgAnchor (d : Nat) (m : Demod) : (s.setDemod d m).clgAnchor = s.clgAnchor := rfl
@[simp] theorem State.setDemod_clgCur (d : Nat) (m : Demod) : (s.setDemod d m).clgCur = s.clgCur := rfl
@[simp] theorem State.setDemod_bankA (d : Nat) (m : Demod) : (s.setDemod d m).bankA = s.bankA := rfl
@[simp] theorem State.setDemod_bankB (d : Nat) (m : Demod) : (s.setDemod d m).bankB = s.bankB := rfl
@[simp] theorem State.setDemod_bankWriting (d : Nat) (m : Demod) : (s.setDemod d m).bankWriting = s.bankWriting := rfl
@[simp] theorem State.setDemod_bankWaiting (d : Nat) (m : Demod) : (s.setDemod d m).bankWaiting = s.bankWaiting := rfl
@[simp] theorem State.setDemod_tokensAt (d : Nat) (m : Demod) : (s.setDemod d m).tokensAt = s.tokensAt := rfl
@[simp] theorem State.setDemod_freeCount (d : Nat) (m : Demod) : (s.setDemod d m).freeCount = s.freeCount := rfl

/-! ### setDie -/

@[simp] theorem State.setDie_pending (d : Nat) (l : DieLbq) : (s.setDie d l).pending = s.pending := rfl
@[simp] theorem State.setDie_now (d : Nat) (l : DieLbq) : (s.setDie d l).now = s.now := rfl
@[simp] theorem State.setDie_dev (d : Nat) (l : DieLbq) : (s.setDie d l).dev = s.dev := rfl
@[simp] theorem State.setDie_tc (d : Nat) (l : DieLbq) : (s.setDie d l).tc = s.tc := rfl
@[simp] theorem State.setDie_regs (d : Nat) (l : DieLbq) : (s.setDie d l).regs = s.regs := rfl
@[simp] theorem State.setDie_mregs (d : Nat) (l : DieLbq) : (s.setDie d l).mregs = s.mregs := rfl
@[simp] theorem State.setDie_boot (d : Nat) (l : DieLbq) : (s.setDie d l).boot = s.boot := rfl
@[simp] theorem State.setDie_fdUp (d : Nat) (l : DieLbq) : (s.setDie d l).fdUp = s.fdUp := rfl
@[simp] theorem State.setDie_ofe (d : Nat) (l : DieLbq) : (s.setDie d l).ofe = s.ofe := rfl
@[simp] theorem State.setDie_psy (d : Nat) (l : DieLbq) : (s.setDie d l).psy = s.psy := rfl
@[simp] theorem State.setDie_dmd (d : Nat) (l : DieLbq) : (s.setDie d l).dmd = s.dmd := rfl
@[simp] theorem State.setDie_lbq (d : Nat) (l : DieLbq) : (s.setDie d l).lbq = tset s.lbq d l := rfl
@[simp] theorem State.setDie_sensors (d : Nat) (l : DieLbq) : (s.setDie d l).sensors = s.sensors := rfl
@[simp] theorem State.setDie_cal (d : Nat) (l : DieLbq) : (s.setDie d l).cal = s.cal := rfl
@[simp] theorem State.setDie_hbTrims (d : Nat) (l : DieLbq) : (s.setDie d l).hbTrims = s.hbTrims := rfl
@[simp] theorem State.setDie_trimReports (d : Nat) (l : DieLbq) : (s.setDie d l).trimReports = s.trimReports := rfl
@[simp] theorem State.setDie_trimSince (d : Nat) (l : DieLbq) : (s.setDie d l).trimSince = s.trimSince := rfl
@[simp] theorem State.setDie_fdin (d : Nat) (l : DieLbq) : (s.setDie d l).fdin = s.fdin := rfl
@[simp] theorem State.setDie_outs (d : Nat) (l : DieLbq) : (s.setDie d l).outs = s.outs := rfl
@[simp] theorem State.setDie_mrg (d : Nat) (l : DieLbq) : (s.setDie d l).mrg = s.mrg := rfl
@[simp] theorem State.setDie_saf (d : Nat) (l : DieLbq) : (s.setDie d l).saf = s.saf := rfl
@[simp] theorem State.setDie_fds (d : Nat) (l : DieLbq) : (s.setDie d l).fds = s.fds := rfl
@[simp] theorem State.setDie_str (d : Nat) (l : DieLbq) : (s.setDie d l).str = s.str := rfl
@[simp] theorem State.setDie_tpr (d : Nat) (l : DieLbq) : (s.setDie d l).tpr = s.tpr := rfl
@[simp] theorem State.setDie_acw (d : Nat) (l : DieLbq) : (s.setDie d l).acw = s.acw := rfl
@[simp] theorem State.setDie_acwq (d : Nat) (l : DieLbq) : (s.setDie d l).acwq = s.acwq := rfl
@[simp] theorem State.setDie_frw (d : Nat) (l : DieLbq) : (s.setDie d l).frw = s.frw := rfl
@[simp] theorem State.setDie_links (d : Nat) (l : DieLbq) : (s.setDie d l).links = s.links := rfl
@[simp] theorem State.setDie_dma (d : Nat) (l : DieLbq) : (s.setDie d l).dma = s.dma := rfl
@[simp] theorem State.setDie_cvu (d : Nat) (l : DieLbq) : (s.setDie d l).cvu = s.cvu := rfl
@[simp] theorem State.setDie_panel (d : Nat) (l : DieLbq) : (s.setDie d l).panel = s.panel := rfl
@[simp] theorem State.setDie_mem (d : Nat) (l : DieLbq) : (s.setDie d l).mem = s.mem := rfl
@[simp] theorem State.setDie_lease (d : Nat) (l : DieLbq) : (s.setDie d l).lease = s.lease := rfl
@[simp] theorem State.setDie_frozen (d : Nat) (l : DieLbq) : (s.setDie d l).frozen = s.frozen := rfl
@[simp] theorem State.setDie_frzRecs (d : Nat) (l : DieLbq) : (s.setDie d l).frzRecs = s.frzRecs := rfl
@[simp] theorem State.setDie_frzOver (d : Nat) (l : DieLbq) : (s.setDie d l).frzOver = s.frzOver := rfl
@[simp] theorem State.setDie_maintPwd (d : Nat) (l : DieLbq) : (s.setDie d l).maintPwd = s.maintPwd := rfl
@[simp] theorem State.setDie_safetyPwd (d : Nat) (l : DieLbq) : (s.setDie d l).safetyPwd = s.safetyPwd := rfl
@[simp] theorem State.setDie_queue (d : Nat) (l : DieLbq) : (s.setDie d l).queue = s.queue := rfl
@[simp] theorem State.setDie_cmds (d : Nat) (l : DieLbq) : (s.setDie d l).cmds = s.cmds := rfl
@[simp] theorem State.setDie_responses (d : Nat) (l : DieLbq) : (s.setDie d l).responses = s.responses := rfl
@[simp] theorem State.setDie_raised (d : Nat) (l : DieLbq) : (s.setDie d l).raised = s.raised := rfl
@[simp] theorem State.setDie_due (d : Nat) (l : DieLbq) : (s.setDie d l).due = s.due := rfl
@[simp] theorem State.setDie_evOver (d : Nat) (l : DieLbq) : (s.setDie d l).evOver = s.evOver := rfl
@[simp] theorem State.setDie_merge (d : Nat) (l : DieLbq) : (s.setDie d l).merge = s.merge := rfl
@[simp] theorem State.setDie_sent (d : Nat) (l : DieLbq) : (s.setDie d l).sent = s.sent := rfl
@[simp] theorem State.setDie_snaps (d : Nat) (l : DieLbq) : (s.setDie d l).snaps = s.snaps := rfl
@[simp] theorem State.setDie_wp (d : Nat) (l : DieLbq) : (s.setDie d l).wp = s.wp := rfl
@[simp] theorem State.setDie_journal (d : Nat) (l : DieLbq) : (s.setDie d l).journal = s.journal := rfl
@[simp] theorem State.setDie_jseq (d : Nat) (l : DieLbq) : (s.setDie d l).jseq = s.jseq := rfl
@[simp] theorem State.setDie_jcur (d : Nat) (l : DieLbq) : (s.setDie d l).jcur = s.jcur := rfl
@[simp] theorem State.setDie_clog (d : Nat) (l : DieLbq) : (s.setDie d l).clog = s.clog := rfl
@[simp] theorem State.setDie_clgLast (d : Nat) (l : DieLbq) : (s.setDie d l).clgLast = s.clgLast := rfl
@[simp] theorem State.setDie_clgFirst (d : Nat) (l : DieLbq) : (s.setDie d l).clgFirst = s.clgFirst := rfl
@[simp] theorem State.setDie_clgAnchor (d : Nat) (l : DieLbq) : (s.setDie d l).clgAnchor = s.clgAnchor := rfl
@[simp] theorem State.setDie_clgCur (d : Nat) (l : DieLbq) : (s.setDie d l).clgCur = s.clgCur := rfl
@[simp] theorem State.setDie_bankA (d : Nat) (l : DieLbq) : (s.setDie d l).bankA = s.bankA := rfl
@[simp] theorem State.setDie_bankB (d : Nat) (l : DieLbq) : (s.setDie d l).bankB = s.bankB := rfl
@[simp] theorem State.setDie_bankWriting (d : Nat) (l : DieLbq) : (s.setDie d l).bankWriting = s.bankWriting := rfl
@[simp] theorem State.setDie_bankWaiting (d : Nat) (l : DieLbq) : (s.setDie d l).bankWaiting = s.bankWaiting := rfl
@[simp] theorem State.setDie_tokensAt (d : Nat) (l : DieLbq) : (s.setDie d l).tokensAt = s.tokensAt := rfl
@[simp] theorem State.setDie_freeCount (d : Nat) (l : DieLbq) : (s.setDie d l).freeCount = s.freeCount := rfl

/-! ### setSensor -/

@[simp] theorem State.setSensor_pending (d e : Nat) (x : Sensor) : (s.setSensor d e x).pending = s.pending := rfl
@[simp] theorem State.setSensor_now (d e : Nat) (x : Sensor) : (s.setSensor d e x).now = s.now := rfl
@[simp] theorem State.setSensor_dev (d e : Nat) (x : Sensor) : (s.setSensor d e x).dev = s.dev := rfl
@[simp] theorem State.setSensor_tc (d e : Nat) (x : Sensor) : (s.setSensor d e x).tc = s.tc := rfl
@[simp] theorem State.setSensor_regs (d e : Nat) (x : Sensor) : (s.setSensor d e x).regs = s.regs := rfl
@[simp] theorem State.setSensor_mregs (d e : Nat) (x : Sensor) : (s.setSensor d e x).mregs = s.mregs := rfl
@[simp] theorem State.setSensor_boot (d e : Nat) (x : Sensor) : (s.setSensor d e x).boot = s.boot := rfl
@[simp] theorem State.setSensor_fdUp (d e : Nat) (x : Sensor) : (s.setSensor d e x).fdUp = s.fdUp := rfl
@[simp] theorem State.setSensor_ofe (d e : Nat) (x : Sensor) : (s.setSensor d e x).ofe = s.ofe := rfl
@[simp] theorem State.setSensor_psy (d e : Nat) (x : Sensor) : (s.setSensor d e x).psy = s.psy := rfl
@[simp] theorem State.setSensor_dmd (d e : Nat) (x : Sensor) : (s.setSensor d e x).dmd = s.dmd := rfl
@[simp] theorem State.setSensor_lbq (d e : Nat) (x : Sensor) : (s.setSensor d e x).lbq = s.lbq := rfl
@[simp] theorem State.setSensor_sensors (d e : Nat) (x : Sensor) : (s.setSensor d e x).sensors = tset s.sensors (2048 * d + e) x := rfl
@[simp] theorem State.setSensor_cal (d e : Nat) (x : Sensor) : (s.setSensor d e x).cal = s.cal := rfl
@[simp] theorem State.setSensor_hbTrims (d e : Nat) (x : Sensor) : (s.setSensor d e x).hbTrims = s.hbTrims := rfl
@[simp] theorem State.setSensor_trimReports (d e : Nat) (x : Sensor) : (s.setSensor d e x).trimReports = s.trimReports := rfl
@[simp] theorem State.setSensor_trimSince (d e : Nat) (x : Sensor) : (s.setSensor d e x).trimSince = s.trimSince := rfl
@[simp] theorem State.setSensor_fdin (d e : Nat) (x : Sensor) : (s.setSensor d e x).fdin = s.fdin := rfl
@[simp] theorem State.setSensor_outs (d e : Nat) (x : Sensor) : (s.setSensor d e x).outs = s.outs := rfl
@[simp] theorem State.setSensor_mrg (d e : Nat) (x : Sensor) : (s.setSensor d e x).mrg = s.mrg := rfl
@[simp] theorem State.setSensor_saf (d e : Nat) (x : Sensor) : (s.setSensor d e x).saf = s.saf := rfl
@[simp] theorem State.setSensor_fds (d e : Nat) (x : Sensor) : (s.setSensor d e x).fds = s.fds := rfl
@[simp] theorem State.setSensor_str (d e : Nat) (x : Sensor) : (s.setSensor d e x).str = s.str := rfl
@[simp] theorem State.setSensor_tpr (d e : Nat) (x : Sensor) : (s.setSensor d e x).tpr = s.tpr := rfl
@[simp] theorem State.setSensor_acw (d e : Nat) (x : Sensor) : (s.setSensor d e x).acw = s.acw := rfl
@[simp] theorem State.setSensor_acwq (d e : Nat) (x : Sensor) : (s.setSensor d e x).acwq = s.acwq := rfl
@[simp] theorem State.setSensor_frw (d e : Nat) (x : Sensor) : (s.setSensor d e x).frw = s.frw := rfl
@[simp] theorem State.setSensor_links (d e : Nat) (x : Sensor) : (s.setSensor d e x).links = s.links := rfl
@[simp] theorem State.setSensor_dma (d e : Nat) (x : Sensor) : (s.setSensor d e x).dma = s.dma := rfl
@[simp] theorem State.setSensor_cvu (d e : Nat) (x : Sensor) : (s.setSensor d e x).cvu = s.cvu := rfl
@[simp] theorem State.setSensor_panel (d e : Nat) (x : Sensor) : (s.setSensor d e x).panel = s.panel := rfl
@[simp] theorem State.setSensor_mem (d e : Nat) (x : Sensor) : (s.setSensor d e x).mem = s.mem := rfl
@[simp] theorem State.setSensor_lease (d e : Nat) (x : Sensor) : (s.setSensor d e x).lease = s.lease := rfl
@[simp] theorem State.setSensor_frozen (d e : Nat) (x : Sensor) : (s.setSensor d e x).frozen = s.frozen := rfl
@[simp] theorem State.setSensor_frzRecs (d e : Nat) (x : Sensor) : (s.setSensor d e x).frzRecs = s.frzRecs := rfl
@[simp] theorem State.setSensor_frzOver (d e : Nat) (x : Sensor) : (s.setSensor d e x).frzOver = s.frzOver := rfl
@[simp] theorem State.setSensor_maintPwd (d e : Nat) (x : Sensor) : (s.setSensor d e x).maintPwd = s.maintPwd := rfl
@[simp] theorem State.setSensor_safetyPwd (d e : Nat) (x : Sensor) : (s.setSensor d e x).safetyPwd = s.safetyPwd := rfl
@[simp] theorem State.setSensor_queue (d e : Nat) (x : Sensor) : (s.setSensor d e x).queue = s.queue := rfl
@[simp] theorem State.setSensor_cmds (d e : Nat) (x : Sensor) : (s.setSensor d e x).cmds = s.cmds := rfl
@[simp] theorem State.setSensor_responses (d e : Nat) (x : Sensor) : (s.setSensor d e x).responses = s.responses := rfl
@[simp] theorem State.setSensor_raised (d e : Nat) (x : Sensor) : (s.setSensor d e x).raised = s.raised := rfl
@[simp] theorem State.setSensor_due (d e : Nat) (x : Sensor) : (s.setSensor d e x).due = s.due := rfl
@[simp] theorem State.setSensor_evOver (d e : Nat) (x : Sensor) : (s.setSensor d e x).evOver = s.evOver := rfl
@[simp] theorem State.setSensor_merge (d e : Nat) (x : Sensor) : (s.setSensor d e x).merge = s.merge := rfl
@[simp] theorem State.setSensor_sent (d e : Nat) (x : Sensor) : (s.setSensor d e x).sent = s.sent := rfl
@[simp] theorem State.setSensor_snaps (d e : Nat) (x : Sensor) : (s.setSensor d e x).snaps = s.snaps := rfl
@[simp] theorem State.setSensor_wp (d e : Nat) (x : Sensor) : (s.setSensor d e x).wp = s.wp := rfl
@[simp] theorem State.setSensor_journal (d e : Nat) (x : Sensor) : (s.setSensor d e x).journal = s.journal := rfl
@[simp] theorem State.setSensor_jseq (d e : Nat) (x : Sensor) : (s.setSensor d e x).jseq = s.jseq := rfl
@[simp] theorem State.setSensor_jcur (d e : Nat) (x : Sensor) : (s.setSensor d e x).jcur = s.jcur := rfl
@[simp] theorem State.setSensor_clog (d e : Nat) (x : Sensor) : (s.setSensor d e x).clog = s.clog := rfl
@[simp] theorem State.setSensor_clgLast (d e : Nat) (x : Sensor) : (s.setSensor d e x).clgLast = s.clgLast := rfl
@[simp] theorem State.setSensor_clgFirst (d e : Nat) (x : Sensor) : (s.setSensor d e x).clgFirst = s.clgFirst := rfl
@[simp] theorem State.setSensor_clgAnchor (d e : Nat) (x : Sensor) : (s.setSensor d e x).clgAnchor = s.clgAnchor := rfl
@[simp] theorem State.setSensor_clgCur (d e : Nat) (x : Sensor) : (s.setSensor d e x).clgCur = s.clgCur := rfl
@[simp] theorem State.setSensor_bankA (d e : Nat) (x : Sensor) : (s.setSensor d e x).bankA = s.bankA := rfl
@[simp] theorem State.setSensor_bankB (d e : Nat) (x : Sensor) : (s.setSensor d e x).bankB = s.bankB := rfl
@[simp] theorem State.setSensor_bankWriting (d e : Nat) (x : Sensor) : (s.setSensor d e x).bankWriting = s.bankWriting := rfl
@[simp] theorem State.setSensor_bankWaiting (d e : Nat) (x : Sensor) : (s.setSensor d e x).bankWaiting = s.bankWaiting := rfl
@[simp] theorem State.setSensor_tokensAt (d e : Nat) (x : Sensor) : (s.setSensor d e x).tokensAt = s.tokensAt := rfl
@[simp] theorem State.setSensor_freeCount (d e : Nat) (x : Sensor) : (s.setSensor d e x).freeCount = s.freeCount := rfl

/-! ### setCalPort -/

@[simp] theorem State.setCalPort_pending (d : Nat) (c : CalPort) : (s.setCalPort d c).pending = s.pending := rfl
@[simp] theorem State.setCalPort_now (d : Nat) (c : CalPort) : (s.setCalPort d c).now = s.now := rfl
@[simp] theorem State.setCalPort_dev (d : Nat) (c : CalPort) : (s.setCalPort d c).dev = s.dev := rfl
@[simp] theorem State.setCalPort_tc (d : Nat) (c : CalPort) : (s.setCalPort d c).tc = s.tc := rfl
@[simp] theorem State.setCalPort_regs (d : Nat) (c : CalPort) : (s.setCalPort d c).regs = s.regs := rfl
@[simp] theorem State.setCalPort_mregs (d : Nat) (c : CalPort) : (s.setCalPort d c).mregs = s.mregs := rfl
@[simp] theorem State.setCalPort_boot (d : Nat) (c : CalPort) : (s.setCalPort d c).boot = s.boot := rfl
@[simp] theorem State.setCalPort_fdUp (d : Nat) (c : CalPort) : (s.setCalPort d c).fdUp = s.fdUp := rfl
@[simp] theorem State.setCalPort_ofe (d : Nat) (c : CalPort) : (s.setCalPort d c).ofe = s.ofe := rfl
@[simp] theorem State.setCalPort_psy (d : Nat) (c : CalPort) : (s.setCalPort d c).psy = s.psy := rfl
@[simp] theorem State.setCalPort_dmd (d : Nat) (c : CalPort) : (s.setCalPort d c).dmd = s.dmd := rfl
@[simp] theorem State.setCalPort_lbq (d : Nat) (c : CalPort) : (s.setCalPort d c).lbq = s.lbq := rfl
@[simp] theorem State.setCalPort_sensors (d : Nat) (c : CalPort) : (s.setCalPort d c).sensors = s.sensors := rfl
@[simp] theorem State.setCalPort_cal (d : Nat) (c : CalPort) : (s.setCalPort d c).cal = tset s.cal d c := rfl
@[simp] theorem State.setCalPort_hbTrims (d : Nat) (c : CalPort) : (s.setCalPort d c).hbTrims = s.hbTrims := rfl
@[simp] theorem State.setCalPort_trimReports (d : Nat) (c : CalPort) : (s.setCalPort d c).trimReports = s.trimReports := rfl
@[simp] theorem State.setCalPort_trimSince (d : Nat) (c : CalPort) : (s.setCalPort d c).trimSince = s.trimSince := rfl
@[simp] theorem State.setCalPort_fdin (d : Nat) (c : CalPort) : (s.setCalPort d c).fdin = s.fdin := rfl
@[simp] theorem State.setCalPort_outs (d : Nat) (c : CalPort) : (s.setCalPort d c).outs = s.outs := rfl
@[simp] theorem State.setCalPort_mrg (d : Nat) (c : CalPort) : (s.setCalPort d c).mrg = s.mrg := rfl
@[simp] theorem State.setCalPort_saf (d : Nat) (c : CalPort) : (s.setCalPort d c).saf = s.saf := rfl
@[simp] theorem State.setCalPort_fds (d : Nat) (c : CalPort) : (s.setCalPort d c).fds = s.fds := rfl
@[simp] theorem State.setCalPort_str (d : Nat) (c : CalPort) : (s.setCalPort d c).str = s.str := rfl
@[simp] theorem State.setCalPort_tpr (d : Nat) (c : CalPort) : (s.setCalPort d c).tpr = s.tpr := rfl
@[simp] theorem State.setCalPort_acw (d : Nat) (c : CalPort) : (s.setCalPort d c).acw = s.acw := rfl
@[simp] theorem State.setCalPort_acwq (d : Nat) (c : CalPort) : (s.setCalPort d c).acwq = s.acwq := rfl
@[simp] theorem State.setCalPort_frw (d : Nat) (c : CalPort) : (s.setCalPort d c).frw = s.frw := rfl
@[simp] theorem State.setCalPort_links (d : Nat) (c : CalPort) : (s.setCalPort d c).links = s.links := rfl
@[simp] theorem State.setCalPort_dma (d : Nat) (c : CalPort) : (s.setCalPort d c).dma = s.dma := rfl
@[simp] theorem State.setCalPort_cvu (d : Nat) (c : CalPort) : (s.setCalPort d c).cvu = s.cvu := rfl
@[simp] theorem State.setCalPort_panel (d : Nat) (c : CalPort) : (s.setCalPort d c).panel = s.panel := rfl
@[simp] theorem State.setCalPort_mem (d : Nat) (c : CalPort) : (s.setCalPort d c).mem = s.mem := rfl
@[simp] theorem State.setCalPort_lease (d : Nat) (c : CalPort) : (s.setCalPort d c).lease = s.lease := rfl
@[simp] theorem State.setCalPort_frozen (d : Nat) (c : CalPort) : (s.setCalPort d c).frozen = s.frozen := rfl
@[simp] theorem State.setCalPort_frzRecs (d : Nat) (c : CalPort) : (s.setCalPort d c).frzRecs = s.frzRecs := rfl
@[simp] theorem State.setCalPort_frzOver (d : Nat) (c : CalPort) : (s.setCalPort d c).frzOver = s.frzOver := rfl
@[simp] theorem State.setCalPort_maintPwd (d : Nat) (c : CalPort) : (s.setCalPort d c).maintPwd = s.maintPwd := rfl
@[simp] theorem State.setCalPort_safetyPwd (d : Nat) (c : CalPort) : (s.setCalPort d c).safetyPwd = s.safetyPwd := rfl
@[simp] theorem State.setCalPort_queue (d : Nat) (c : CalPort) : (s.setCalPort d c).queue = s.queue := rfl
@[simp] theorem State.setCalPort_cmds (d : Nat) (c : CalPort) : (s.setCalPort d c).cmds = s.cmds := rfl
@[simp] theorem State.setCalPort_responses (d : Nat) (c : CalPort) : (s.setCalPort d c).responses = s.responses := rfl
@[simp] theorem State.setCalPort_raised (d : Nat) (c : CalPort) : (s.setCalPort d c).raised = s.raised := rfl
@[simp] theorem State.setCalPort_due (d : Nat) (c : CalPort) : (s.setCalPort d c).due = s.due := rfl
@[simp] theorem State.setCalPort_evOver (d : Nat) (c : CalPort) : (s.setCalPort d c).evOver = s.evOver := rfl
@[simp] theorem State.setCalPort_merge (d : Nat) (c : CalPort) : (s.setCalPort d c).merge = s.merge := rfl
@[simp] theorem State.setCalPort_sent (d : Nat) (c : CalPort) : (s.setCalPort d c).sent = s.sent := rfl
@[simp] theorem State.setCalPort_snaps (d : Nat) (c : CalPort) : (s.setCalPort d c).snaps = s.snaps := rfl
@[simp] theorem State.setCalPort_wp (d : Nat) (c : CalPort) : (s.setCalPort d c).wp = s.wp := rfl
@[simp] theorem State.setCalPort_journal (d : Nat) (c : CalPort) : (s.setCalPort d c).journal = s.journal := rfl
@[simp] theorem State.setCalPort_jseq (d : Nat) (c : CalPort) : (s.setCalPort d c).jseq = s.jseq := rfl
@[simp] theorem State.setCalPort_jcur (d : Nat) (c : CalPort) : (s.setCalPort d c).jcur = s.jcur := rfl
@[simp] theorem State.setCalPort_clog (d : Nat) (c : CalPort) : (s.setCalPort d c).clog = s.clog := rfl
@[simp] theorem State.setCalPort_clgLast (d : Nat) (c : CalPort) : (s.setCalPort d c).clgLast = s.clgLast := rfl
@[simp] theorem State.setCalPort_clgFirst (d : Nat) (c : CalPort) : (s.setCalPort d c).clgFirst = s.clgFirst := rfl
@[simp] theorem State.setCalPort_clgAnchor (d : Nat) (c : CalPort) : (s.setCalPort d c).clgAnchor = s.clgAnchor := rfl
@[simp] theorem State.setCalPort_clgCur (d : Nat) (c : CalPort) : (s.setCalPort d c).clgCur = s.clgCur := rfl
@[simp] theorem State.setCalPort_bankA (d : Nat) (c : CalPort) : (s.setCalPort d c).bankA = s.bankA := rfl
@[simp] theorem State.setCalPort_bankB (d : Nat) (c : CalPort) : (s.setCalPort d c).bankB = s.bankB := rfl
@[simp] theorem State.setCalPort_bankWriting (d : Nat) (c : CalPort) : (s.setCalPort d c).bankWriting = s.bankWriting := rfl
@[simp] theorem State.setCalPort_bankWaiting (d : Nat) (c : CalPort) : (s.setCalPort d c).bankWaiting = s.bankWaiting := rfl
@[simp] theorem State.setCalPort_tokensAt (d : Nat) (c : CalPort) : (s.setCalPort d c).tokensAt = s.tokensAt := rfl
@[simp] theorem State.setCalPort_freeCount (d : Nat) (c : CalPort) : (s.setCalPort d c).freeCount = s.freeCount := rfl

/-! ### setFdin -/

@[simp] theorem State.setFdin_pending (f : FieldInputs → FieldInputs) : (s.setFdin f).pending = s.pending := rfl
@[simp] theorem State.setFdin_now (f : FieldInputs → FieldInputs) : (s.setFdin f).now = s.now := rfl
@[simp] theorem State.setFdin_dev (f : FieldInputs → FieldInputs) : (s.setFdin f).dev = s.dev := rfl
@[simp] theorem State.setFdin_tc (f : FieldInputs → FieldInputs) : (s.setFdin f).tc = s.tc := rfl
@[simp] theorem State.setFdin_regs (f : FieldInputs → FieldInputs) : (s.setFdin f).regs = s.regs := rfl
@[simp] theorem State.setFdin_mregs (f : FieldInputs → FieldInputs) : (s.setFdin f).mregs = s.mregs := rfl
@[simp] theorem State.setFdin_boot (f : FieldInputs → FieldInputs) : (s.setFdin f).boot = s.boot := rfl
@[simp] theorem State.setFdin_fdUp (f : FieldInputs → FieldInputs) : (s.setFdin f).fdUp = s.fdUp := rfl
@[simp] theorem State.setFdin_ofe (f : FieldInputs → FieldInputs) : (s.setFdin f).ofe = s.ofe := rfl
@[simp] theorem State.setFdin_psy (f : FieldInputs → FieldInputs) : (s.setFdin f).psy = s.psy := rfl
@[simp] theorem State.setFdin_dmd (f : FieldInputs → FieldInputs) : (s.setFdin f).dmd = s.dmd := rfl
@[simp] theorem State.setFdin_lbq (f : FieldInputs → FieldInputs) : (s.setFdin f).lbq = s.lbq := rfl
@[simp] theorem State.setFdin_sensors (f : FieldInputs → FieldInputs) : (s.setFdin f).sensors = s.sensors := rfl
@[simp] theorem State.setFdin_cal (f : FieldInputs → FieldInputs) : (s.setFdin f).cal = s.cal := rfl
@[simp] theorem State.setFdin_hbTrims (f : FieldInputs → FieldInputs) : (s.setFdin f).hbTrims = s.hbTrims := rfl
@[simp] theorem State.setFdin_trimReports (f : FieldInputs → FieldInputs) : (s.setFdin f).trimReports = s.trimReports := rfl
@[simp] theorem State.setFdin_trimSince (f : FieldInputs → FieldInputs) : (s.setFdin f).trimSince = s.trimSince := rfl
@[simp] theorem State.setFdin_fdin (f : FieldInputs → FieldInputs) : (s.setFdin f).fdin = f s.fdin := rfl
@[simp] theorem State.setFdin_outs (f : FieldInputs → FieldInputs) : (s.setFdin f).outs = s.outs := rfl
@[simp] theorem State.setFdin_mrg (f : FieldInputs → FieldInputs) : (s.setFdin f).mrg = s.mrg := rfl
@[simp] theorem State.setFdin_saf (f : FieldInputs → FieldInputs) : (s.setFdin f).saf = s.saf := rfl
@[simp] theorem State.setFdin_fds (f : FieldInputs → FieldInputs) : (s.setFdin f).fds = s.fds := rfl
@[simp] theorem State.setFdin_str (f : FieldInputs → FieldInputs) : (s.setFdin f).str = s.str := rfl
@[simp] theorem State.setFdin_tpr (f : FieldInputs → FieldInputs) : (s.setFdin f).tpr = s.tpr := rfl
@[simp] theorem State.setFdin_acw (f : FieldInputs → FieldInputs) : (s.setFdin f).acw = s.acw := rfl
@[simp] theorem State.setFdin_acwq (f : FieldInputs → FieldInputs) : (s.setFdin f).acwq = s.acwq := rfl
@[simp] theorem State.setFdin_frw (f : FieldInputs → FieldInputs) : (s.setFdin f).frw = s.frw := rfl
@[simp] theorem State.setFdin_links (f : FieldInputs → FieldInputs) : (s.setFdin f).links = s.links := rfl
@[simp] theorem State.setFdin_dma (f : FieldInputs → FieldInputs) : (s.setFdin f).dma = s.dma := rfl
@[simp] theorem State.setFdin_cvu (f : FieldInputs → FieldInputs) : (s.setFdin f).cvu = s.cvu := rfl
@[simp] theorem State.setFdin_panel (f : FieldInputs → FieldInputs) : (s.setFdin f).panel = s.panel := rfl
@[simp] theorem State.setFdin_mem (f : FieldInputs → FieldInputs) : (s.setFdin f).mem = s.mem := rfl
@[simp] theorem State.setFdin_lease (f : FieldInputs → FieldInputs) : (s.setFdin f).lease = s.lease := rfl
@[simp] theorem State.setFdin_frozen (f : FieldInputs → FieldInputs) : (s.setFdin f).frozen = s.frozen := rfl
@[simp] theorem State.setFdin_frzRecs (f : FieldInputs → FieldInputs) : (s.setFdin f).frzRecs = s.frzRecs := rfl
@[simp] theorem State.setFdin_frzOver (f : FieldInputs → FieldInputs) : (s.setFdin f).frzOver = s.frzOver := rfl
@[simp] theorem State.setFdin_maintPwd (f : FieldInputs → FieldInputs) : (s.setFdin f).maintPwd = s.maintPwd := rfl
@[simp] theorem State.setFdin_safetyPwd (f : FieldInputs → FieldInputs) : (s.setFdin f).safetyPwd = s.safetyPwd := rfl
@[simp] theorem State.setFdin_queue (f : FieldInputs → FieldInputs) : (s.setFdin f).queue = s.queue := rfl
@[simp] theorem State.setFdin_cmds (f : FieldInputs → FieldInputs) : (s.setFdin f).cmds = s.cmds := rfl
@[simp] theorem State.setFdin_responses (f : FieldInputs → FieldInputs) : (s.setFdin f).responses = s.responses := rfl
@[simp] theorem State.setFdin_raised (f : FieldInputs → FieldInputs) : (s.setFdin f).raised = s.raised := rfl
@[simp] theorem State.setFdin_due (f : FieldInputs → FieldInputs) : (s.setFdin f).due = s.due := rfl
@[simp] theorem State.setFdin_evOver (f : FieldInputs → FieldInputs) : (s.setFdin f).evOver = s.evOver := rfl
@[simp] theorem State.setFdin_merge (f : FieldInputs → FieldInputs) : (s.setFdin f).merge = s.merge := rfl
@[simp] theorem State.setFdin_sent (f : FieldInputs → FieldInputs) : (s.setFdin f).sent = s.sent := rfl
@[simp] theorem State.setFdin_snaps (f : FieldInputs → FieldInputs) : (s.setFdin f).snaps = s.snaps := rfl
@[simp] theorem State.setFdin_wp (f : FieldInputs → FieldInputs) : (s.setFdin f).wp = s.wp := rfl
@[simp] theorem State.setFdin_journal (f : FieldInputs → FieldInputs) : (s.setFdin f).journal = s.journal := rfl
@[simp] theorem State.setFdin_jseq (f : FieldInputs → FieldInputs) : (s.setFdin f).jseq = s.jseq := rfl
@[simp] theorem State.setFdin_jcur (f : FieldInputs → FieldInputs) : (s.setFdin f).jcur = s.jcur := rfl
@[simp] theorem State.setFdin_clog (f : FieldInputs → FieldInputs) : (s.setFdin f).clog = s.clog := rfl
@[simp] theorem State.setFdin_clgLast (f : FieldInputs → FieldInputs) : (s.setFdin f).clgLast = s.clgLast := rfl
@[simp] theorem State.setFdin_clgFirst (f : FieldInputs → FieldInputs) : (s.setFdin f).clgFirst = s.clgFirst := rfl
@[simp] theorem State.setFdin_clgAnchor (f : FieldInputs → FieldInputs) : (s.setFdin f).clgAnchor = s.clgAnchor := rfl
@[simp] theorem State.setFdin_clgCur (f : FieldInputs → FieldInputs) : (s.setFdin f).clgCur = s.clgCur := rfl
@[simp] theorem State.setFdin_bankA (f : FieldInputs → FieldInputs) : (s.setFdin f).bankA = s.bankA := rfl
@[simp] theorem State.setFdin_bankB (f : FieldInputs → FieldInputs) : (s.setFdin f).bankB = s.bankB := rfl
@[simp] theorem State.setFdin_bankWriting (f : FieldInputs → FieldInputs) : (s.setFdin f).bankWriting = s.bankWriting := rfl
@[simp] theorem State.setFdin_bankWaiting (f : FieldInputs → FieldInputs) : (s.setFdin f).bankWaiting = s.bankWaiting := rfl
@[simp] theorem State.setFdin_tokensAt (f : FieldInputs → FieldInputs) : (s.setFdin f).tokensAt = s.tokensAt := rfl
@[simp] theorem State.setFdin_freeCount (f : FieldInputs → FieldInputs) : (s.setFdin f).freeCount = s.freeCount := rfl

/-! ### setOuts -/

@[simp] theorem State.setOuts_pending (f : Outputs → Outputs) : (s.setOuts f).pending = s.pending := rfl
@[simp] theorem State.setOuts_now (f : Outputs → Outputs) : (s.setOuts f).now = s.now := rfl
@[simp] theorem State.setOuts_dev (f : Outputs → Outputs) : (s.setOuts f).dev = s.dev := rfl
@[simp] theorem State.setOuts_tc (f : Outputs → Outputs) : (s.setOuts f).tc = s.tc := rfl
@[simp] theorem State.setOuts_regs (f : Outputs → Outputs) : (s.setOuts f).regs = s.regs := rfl
@[simp] theorem State.setOuts_mregs (f : Outputs → Outputs) : (s.setOuts f).mregs = s.mregs := rfl
@[simp] theorem State.setOuts_boot (f : Outputs → Outputs) : (s.setOuts f).boot = s.boot := rfl
@[simp] theorem State.setOuts_fdUp (f : Outputs → Outputs) : (s.setOuts f).fdUp = s.fdUp := rfl
@[simp] theorem State.setOuts_ofe (f : Outputs → Outputs) : (s.setOuts f).ofe = s.ofe := rfl
@[simp] theorem State.setOuts_psy (f : Outputs → Outputs) : (s.setOuts f).psy = s.psy := rfl
@[simp] theorem State.setOuts_dmd (f : Outputs → Outputs) : (s.setOuts f).dmd = s.dmd := rfl
@[simp] theorem State.setOuts_lbq (f : Outputs → Outputs) : (s.setOuts f).lbq = s.lbq := rfl
@[simp] theorem State.setOuts_sensors (f : Outputs → Outputs) : (s.setOuts f).sensors = s.sensors := rfl
@[simp] theorem State.setOuts_cal (f : Outputs → Outputs) : (s.setOuts f).cal = s.cal := rfl
@[simp] theorem State.setOuts_hbTrims (f : Outputs → Outputs) : (s.setOuts f).hbTrims = s.hbTrims := rfl
@[simp] theorem State.setOuts_trimReports (f : Outputs → Outputs) : (s.setOuts f).trimReports = s.trimReports := rfl
@[simp] theorem State.setOuts_trimSince (f : Outputs → Outputs) : (s.setOuts f).trimSince = s.trimSince := rfl
@[simp] theorem State.setOuts_fdin (f : Outputs → Outputs) : (s.setOuts f).fdin = s.fdin := rfl
@[simp] theorem State.setOuts_outs (f : Outputs → Outputs) : (s.setOuts f).outs = f s.outs := rfl
@[simp] theorem State.setOuts_mrg (f : Outputs → Outputs) : (s.setOuts f).mrg = s.mrg := rfl
@[simp] theorem State.setOuts_saf (f : Outputs → Outputs) : (s.setOuts f).saf = s.saf := rfl
@[simp] theorem State.setOuts_fds (f : Outputs → Outputs) : (s.setOuts f).fds = s.fds := rfl
@[simp] theorem State.setOuts_str (f : Outputs → Outputs) : (s.setOuts f).str = s.str := rfl
@[simp] theorem State.setOuts_tpr (f : Outputs → Outputs) : (s.setOuts f).tpr = s.tpr := rfl
@[simp] theorem State.setOuts_acw (f : Outputs → Outputs) : (s.setOuts f).acw = s.acw := rfl
@[simp] theorem State.setOuts_acwq (f : Outputs → Outputs) : (s.setOuts f).acwq = s.acwq := rfl
@[simp] theorem State.setOuts_frw (f : Outputs → Outputs) : (s.setOuts f).frw = s.frw := rfl
@[simp] theorem State.setOuts_links (f : Outputs → Outputs) : (s.setOuts f).links = s.links := rfl
@[simp] theorem State.setOuts_dma (f : Outputs → Outputs) : (s.setOuts f).dma = s.dma := rfl
@[simp] theorem State.setOuts_cvu (f : Outputs → Outputs) : (s.setOuts f).cvu = s.cvu := rfl
@[simp] theorem State.setOuts_panel (f : Outputs → Outputs) : (s.setOuts f).panel = s.panel := rfl
@[simp] theorem State.setOuts_mem (f : Outputs → Outputs) : (s.setOuts f).mem = s.mem := rfl
@[simp] theorem State.setOuts_lease (f : Outputs → Outputs) : (s.setOuts f).lease = s.lease := rfl
@[simp] theorem State.setOuts_frozen (f : Outputs → Outputs) : (s.setOuts f).frozen = s.frozen := rfl
@[simp] theorem State.setOuts_frzRecs (f : Outputs → Outputs) : (s.setOuts f).frzRecs = s.frzRecs := rfl
@[simp] theorem State.setOuts_frzOver (f : Outputs → Outputs) : (s.setOuts f).frzOver = s.frzOver := rfl
@[simp] theorem State.setOuts_maintPwd (f : Outputs → Outputs) : (s.setOuts f).maintPwd = s.maintPwd := rfl
@[simp] theorem State.setOuts_safetyPwd (f : Outputs → Outputs) : (s.setOuts f).safetyPwd = s.safetyPwd := rfl
@[simp] theorem State.setOuts_queue (f : Outputs → Outputs) : (s.setOuts f).queue = s.queue := rfl
@[simp] theorem State.setOuts_cmds (f : Outputs → Outputs) : (s.setOuts f).cmds = s.cmds := rfl
@[simp] theorem State.setOuts_responses (f : Outputs → Outputs) : (s.setOuts f).responses = s.responses := rfl
@[simp] theorem State.setOuts_raised (f : Outputs → Outputs) : (s.setOuts f).raised = s.raised := rfl
@[simp] theorem State.setOuts_due (f : Outputs → Outputs) : (s.setOuts f).due = s.due := rfl
@[simp] theorem State.setOuts_evOver (f : Outputs → Outputs) : (s.setOuts f).evOver = s.evOver := rfl
@[simp] theorem State.setOuts_merge (f : Outputs → Outputs) : (s.setOuts f).merge = s.merge := rfl
@[simp] theorem State.setOuts_sent (f : Outputs → Outputs) : (s.setOuts f).sent = s.sent := rfl
@[simp] theorem State.setOuts_snaps (f : Outputs → Outputs) : (s.setOuts f).snaps = s.snaps := rfl
@[simp] theorem State.setOuts_wp (f : Outputs → Outputs) : (s.setOuts f).wp = s.wp := rfl
@[simp] theorem State.setOuts_journal (f : Outputs → Outputs) : (s.setOuts f).journal = s.journal := rfl
@[simp] theorem State.setOuts_jseq (f : Outputs → Outputs) : (s.setOuts f).jseq = s.jseq := rfl
@[simp] theorem State.setOuts_jcur (f : Outputs → Outputs) : (s.setOuts f).jcur = s.jcur := rfl
@[simp] theorem State.setOuts_clog (f : Outputs → Outputs) : (s.setOuts f).clog = s.clog := rfl
@[simp] theorem State.setOuts_clgLast (f : Outputs → Outputs) : (s.setOuts f).clgLast = s.clgLast := rfl
@[simp] theorem State.setOuts_clgFirst (f : Outputs → Outputs) : (s.setOuts f).clgFirst = s.clgFirst := rfl
@[simp] theorem State.setOuts_clgAnchor (f : Outputs → Outputs) : (s.setOuts f).clgAnchor = s.clgAnchor := rfl
@[simp] theorem State.setOuts_clgCur (f : Outputs → Outputs) : (s.setOuts f).clgCur = s.clgCur := rfl
@[simp] theorem State.setOuts_bankA (f : Outputs → Outputs) : (s.setOuts f).bankA = s.bankA := rfl
@[simp] theorem State.setOuts_bankB (f : Outputs → Outputs) : (s.setOuts f).bankB = s.bankB := rfl
@[simp] theorem State.setOuts_bankWriting (f : Outputs → Outputs) : (s.setOuts f).bankWriting = s.bankWriting := rfl
@[simp] theorem State.setOuts_bankWaiting (f : Outputs → Outputs) : (s.setOuts f).bankWaiting = s.bankWaiting := rfl
@[simp] theorem State.setOuts_tokensAt (f : Outputs → Outputs) : (s.setOuts f).tokensAt = s.tokensAt := rfl
@[simp] theorem State.setOuts_freeCount (f : Outputs → Outputs) : (s.setOuts f).freeCount = s.freeCount := rfl

/-! ### setMrg -/

@[simp] theorem State.setMrg_pending (f : Merge → Merge) : (s.setMrg f).pending = s.pending := rfl
@[simp] theorem State.setMrg_now (f : Merge → Merge) : (s.setMrg f).now = s.now := rfl
@[simp] theorem State.setMrg_dev (f : Merge → Merge) : (s.setMrg f).dev = s.dev := rfl
@[simp] theorem State.setMrg_tc (f : Merge → Merge) : (s.setMrg f).tc = s.tc := rfl
@[simp] theorem State.setMrg_regs (f : Merge → Merge) : (s.setMrg f).regs = s.regs := rfl
@[simp] theorem State.setMrg_mregs (f : Merge → Merge) : (s.setMrg f).mregs = s.mregs := rfl
@[simp] theorem State.setMrg_boot (f : Merge → Merge) : (s.setMrg f).boot = s.boot := rfl
@[simp] theorem State.setMrg_fdUp (f : Merge → Merge) : (s.setMrg f).fdUp = s.fdUp := rfl
@[simp] theorem State.setMrg_ofe (f : Merge → Merge) : (s.setMrg f).ofe = s.ofe := rfl
@[simp] theorem State.setMrg_psy (f : Merge → Merge) : (s.setMrg f).psy = s.psy := rfl
@[simp] theorem State.setMrg_dmd (f : Merge → Merge) : (s.setMrg f).dmd = s.dmd := rfl
@[simp] theorem State.setMrg_lbq (f : Merge → Merge) : (s.setMrg f).lbq = s.lbq := rfl
@[simp] theorem State.setMrg_sensors (f : Merge → Merge) : (s.setMrg f).sensors = s.sensors := rfl
@[simp] theorem State.setMrg_cal (f : Merge → Merge) : (s.setMrg f).cal = s.cal := rfl
@[simp] theorem State.setMrg_hbTrims (f : Merge → Merge) : (s.setMrg f).hbTrims = s.hbTrims := rfl
@[simp] theorem State.setMrg_trimReports (f : Merge → Merge) : (s.setMrg f).trimReports = s.trimReports := rfl
@[simp] theorem State.setMrg_trimSince (f : Merge → Merge) : (s.setMrg f).trimSince = s.trimSince := rfl
@[simp] theorem State.setMrg_fdin (f : Merge → Merge) : (s.setMrg f).fdin = s.fdin := rfl
@[simp] theorem State.setMrg_outs (f : Merge → Merge) : (s.setMrg f).outs = s.outs := rfl
@[simp] theorem State.setMrg_mrg (f : Merge → Merge) : (s.setMrg f).mrg = f s.mrg := rfl
@[simp] theorem State.setMrg_saf (f : Merge → Merge) : (s.setMrg f).saf = s.saf := rfl
@[simp] theorem State.setMrg_fds (f : Merge → Merge) : (s.setMrg f).fds = s.fds := rfl
@[simp] theorem State.setMrg_str (f : Merge → Merge) : (s.setMrg f).str = s.str := rfl
@[simp] theorem State.setMrg_tpr (f : Merge → Merge) : (s.setMrg f).tpr = s.tpr := rfl
@[simp] theorem State.setMrg_acw (f : Merge → Merge) : (s.setMrg f).acw = s.acw := rfl
@[simp] theorem State.setMrg_acwq (f : Merge → Merge) : (s.setMrg f).acwq = s.acwq := rfl
@[simp] theorem State.setMrg_frw (f : Merge → Merge) : (s.setMrg f).frw = s.frw := rfl
@[simp] theorem State.setMrg_links (f : Merge → Merge) : (s.setMrg f).links = s.links := rfl
@[simp] theorem State.setMrg_dma (f : Merge → Merge) : (s.setMrg f).dma = s.dma := rfl
@[simp] theorem State.setMrg_cvu (f : Merge → Merge) : (s.setMrg f).cvu = s.cvu := rfl
@[simp] theorem State.setMrg_panel (f : Merge → Merge) : (s.setMrg f).panel = s.panel := rfl
@[simp] theorem State.setMrg_mem (f : Merge → Merge) : (s.setMrg f).mem = s.mem := rfl
@[simp] theorem State.setMrg_lease (f : Merge → Merge) : (s.setMrg f).lease = s.lease := rfl
@[simp] theorem State.setMrg_frozen (f : Merge → Merge) : (s.setMrg f).frozen = s.frozen := rfl
@[simp] theorem State.setMrg_frzRecs (f : Merge → Merge) : (s.setMrg f).frzRecs = s.frzRecs := rfl
@[simp] theorem State.setMrg_frzOver (f : Merge → Merge) : (s.setMrg f).frzOver = s.frzOver := rfl
@[simp] theorem State.setMrg_maintPwd (f : Merge → Merge) : (s.setMrg f).maintPwd = s.maintPwd := rfl
@[simp] theorem State.setMrg_safetyPwd (f : Merge → Merge) : (s.setMrg f).safetyPwd = s.safetyPwd := rfl
@[simp] theorem State.setMrg_queue (f : Merge → Merge) : (s.setMrg f).queue = s.queue := rfl
@[simp] theorem State.setMrg_cmds (f : Merge → Merge) : (s.setMrg f).cmds = s.cmds := rfl
@[simp] theorem State.setMrg_responses (f : Merge → Merge) : (s.setMrg f).responses = s.responses := rfl
@[simp] theorem State.setMrg_raised (f : Merge → Merge) : (s.setMrg f).raised = s.raised := rfl
@[simp] theorem State.setMrg_due (f : Merge → Merge) : (s.setMrg f).due = s.due := rfl
@[simp] theorem State.setMrg_evOver (f : Merge → Merge) : (s.setMrg f).evOver = s.evOver := rfl
@[simp] theorem State.setMrg_merge (f : Merge → Merge) : (s.setMrg f).merge = s.merge := rfl
@[simp] theorem State.setMrg_sent (f : Merge → Merge) : (s.setMrg f).sent = s.sent := rfl
@[simp] theorem State.setMrg_snaps (f : Merge → Merge) : (s.setMrg f).snaps = s.snaps := rfl
@[simp] theorem State.setMrg_wp (f : Merge → Merge) : (s.setMrg f).wp = s.wp := rfl
@[simp] theorem State.setMrg_journal (f : Merge → Merge) : (s.setMrg f).journal = s.journal := rfl
@[simp] theorem State.setMrg_jseq (f : Merge → Merge) : (s.setMrg f).jseq = s.jseq := rfl
@[simp] theorem State.setMrg_jcur (f : Merge → Merge) : (s.setMrg f).jcur = s.jcur := rfl
@[simp] theorem State.setMrg_clog (f : Merge → Merge) : (s.setMrg f).clog = s.clog := rfl
@[simp] theorem State.setMrg_clgLast (f : Merge → Merge) : (s.setMrg f).clgLast = s.clgLast := rfl
@[simp] theorem State.setMrg_clgFirst (f : Merge → Merge) : (s.setMrg f).clgFirst = s.clgFirst := rfl
@[simp] theorem State.setMrg_clgAnchor (f : Merge → Merge) : (s.setMrg f).clgAnchor = s.clgAnchor := rfl
@[simp] theorem State.setMrg_clgCur (f : Merge → Merge) : (s.setMrg f).clgCur = s.clgCur := rfl
@[simp] theorem State.setMrg_bankA (f : Merge → Merge) : (s.setMrg f).bankA = s.bankA := rfl
@[simp] theorem State.setMrg_bankB (f : Merge → Merge) : (s.setMrg f).bankB = s.bankB := rfl
@[simp] theorem State.setMrg_bankWriting (f : Merge → Merge) : (s.setMrg f).bankWriting = s.bankWriting := rfl
@[simp] theorem State.setMrg_bankWaiting (f : Merge → Merge) : (s.setMrg f).bankWaiting = s.bankWaiting := rfl
@[simp] theorem State.setMrg_tokensAt (f : Merge → Merge) : (s.setMrg f).tokensAt = s.tokensAt := rfl
@[simp] theorem State.setMrg_freeCount (f : Merge → Merge) : (s.setMrg f).freeCount = s.freeCount := rfl

/-! ### setSaf -/

@[simp] theorem State.setSaf_pending (f : Saf → Saf) : (s.setSaf f).pending = s.pending := rfl
@[simp] theorem State.setSaf_now (f : Saf → Saf) : (s.setSaf f).now = s.now := rfl
@[simp] theorem State.setSaf_dev (f : Saf → Saf) : (s.setSaf f).dev = s.dev := rfl
@[simp] theorem State.setSaf_tc (f : Saf → Saf) : (s.setSaf f).tc = s.tc := rfl
@[simp] theorem State.setSaf_regs (f : Saf → Saf) : (s.setSaf f).regs = s.regs := rfl
@[simp] theorem State.setSaf_mregs (f : Saf → Saf) : (s.setSaf f).mregs = s.mregs := rfl
@[simp] theorem State.setSaf_boot (f : Saf → Saf) : (s.setSaf f).boot = s.boot := rfl
@[simp] theorem State.setSaf_fdUp (f : Saf → Saf) : (s.setSaf f).fdUp = s.fdUp := rfl
@[simp] theorem State.setSaf_ofe (f : Saf → Saf) : (s.setSaf f).ofe = s.ofe := rfl
@[simp] theorem State.setSaf_psy (f : Saf → Saf) : (s.setSaf f).psy = s.psy := rfl
@[simp] theorem State.setSaf_dmd (f : Saf → Saf) : (s.setSaf f).dmd = s.dmd := rfl
@[simp] theorem State.setSaf_lbq (f : Saf → Saf) : (s.setSaf f).lbq = s.lbq := rfl
@[simp] theorem State.setSaf_sensors (f : Saf → Saf) : (s.setSaf f).sensors = s.sensors := rfl
@[simp] theorem State.setSaf_cal (f : Saf → Saf) : (s.setSaf f).cal = s.cal := rfl
@[simp] theorem State.setSaf_hbTrims (f : Saf → Saf) : (s.setSaf f).hbTrims = s.hbTrims := rfl
@[simp] theorem State.setSaf_trimReports (f : Saf → Saf) : (s.setSaf f).trimReports = s.trimReports := rfl
@[simp] theorem State.setSaf_trimSince (f : Saf → Saf) : (s.setSaf f).trimSince = s.trimSince := rfl
@[simp] theorem State.setSaf_fdin (f : Saf → Saf) : (s.setSaf f).fdin = s.fdin := rfl
@[simp] theorem State.setSaf_outs (f : Saf → Saf) : (s.setSaf f).outs = s.outs := rfl
@[simp] theorem State.setSaf_mrg (f : Saf → Saf) : (s.setSaf f).mrg = s.mrg := rfl
@[simp] theorem State.setSaf_saf (f : Saf → Saf) : (s.setSaf f).saf = f s.saf := rfl
@[simp] theorem State.setSaf_fds (f : Saf → Saf) : (s.setSaf f).fds = s.fds := rfl
@[simp] theorem State.setSaf_str (f : Saf → Saf) : (s.setSaf f).str = s.str := rfl
@[simp] theorem State.setSaf_tpr (f : Saf → Saf) : (s.setSaf f).tpr = s.tpr := rfl
@[simp] theorem State.setSaf_acw (f : Saf → Saf) : (s.setSaf f).acw = s.acw := rfl
@[simp] theorem State.setSaf_acwq (f : Saf → Saf) : (s.setSaf f).acwq = s.acwq := rfl
@[simp] theorem State.setSaf_frw (f : Saf → Saf) : (s.setSaf f).frw = s.frw := rfl
@[simp] theorem State.setSaf_links (f : Saf → Saf) : (s.setSaf f).links = s.links := rfl
@[simp] theorem State.setSaf_dma (f : Saf → Saf) : (s.setSaf f).dma = s.dma := rfl
@[simp] theorem State.setSaf_cvu (f : Saf → Saf) : (s.setSaf f).cvu = s.cvu := rfl
@[simp] theorem State.setSaf_panel (f : Saf → Saf) : (s.setSaf f).panel = s.panel := rfl
@[simp] theorem State.setSaf_mem (f : Saf → Saf) : (s.setSaf f).mem = s.mem := rfl
@[simp] theorem State.setSaf_lease (f : Saf → Saf) : (s.setSaf f).lease = s.lease := rfl
@[simp] theorem State.setSaf_frozen (f : Saf → Saf) : (s.setSaf f).frozen = s.frozen := rfl
@[simp] theorem State.setSaf_frzRecs (f : Saf → Saf) : (s.setSaf f).frzRecs = s.frzRecs := rfl
@[simp] theorem State.setSaf_frzOver (f : Saf → Saf) : (s.setSaf f).frzOver = s.frzOver := rfl
@[simp] theorem State.setSaf_maintPwd (f : Saf → Saf) : (s.setSaf f).maintPwd = s.maintPwd := rfl
@[simp] theorem State.setSaf_safetyPwd (f : Saf → Saf) : (s.setSaf f).safetyPwd = s.safetyPwd := rfl
@[simp] theorem State.setSaf_queue (f : Saf → Saf) : (s.setSaf f).queue = s.queue := rfl
@[simp] theorem State.setSaf_cmds (f : Saf → Saf) : (s.setSaf f).cmds = s.cmds := rfl
@[simp] theorem State.setSaf_responses (f : Saf → Saf) : (s.setSaf f).responses = s.responses := rfl
@[simp] theorem State.setSaf_raised (f : Saf → Saf) : (s.setSaf f).raised = s.raised := rfl
@[simp] theorem State.setSaf_due (f : Saf → Saf) : (s.setSaf f).due = s.due := rfl
@[simp] theorem State.setSaf_evOver (f : Saf → Saf) : (s.setSaf f).evOver = s.evOver := rfl
@[simp] theorem State.setSaf_merge (f : Saf → Saf) : (s.setSaf f).merge = s.merge := rfl
@[simp] theorem State.setSaf_sent (f : Saf → Saf) : (s.setSaf f).sent = s.sent := rfl
@[simp] theorem State.setSaf_snaps (f : Saf → Saf) : (s.setSaf f).snaps = s.snaps := rfl
@[simp] theorem State.setSaf_wp (f : Saf → Saf) : (s.setSaf f).wp = s.wp := rfl
@[simp] theorem State.setSaf_journal (f : Saf → Saf) : (s.setSaf f).journal = s.journal := rfl
@[simp] theorem State.setSaf_jseq (f : Saf → Saf) : (s.setSaf f).jseq = s.jseq := rfl
@[simp] theorem State.setSaf_jcur (f : Saf → Saf) : (s.setSaf f).jcur = s.jcur := rfl
@[simp] theorem State.setSaf_clog (f : Saf → Saf) : (s.setSaf f).clog = s.clog := rfl
@[simp] theorem State.setSaf_clgLast (f : Saf → Saf) : (s.setSaf f).clgLast = s.clgLast := rfl
@[simp] theorem State.setSaf_clgFirst (f : Saf → Saf) : (s.setSaf f).clgFirst = s.clgFirst := rfl
@[simp] theorem State.setSaf_clgAnchor (f : Saf → Saf) : (s.setSaf f).clgAnchor = s.clgAnchor := rfl
@[simp] theorem State.setSaf_clgCur (f : Saf → Saf) : (s.setSaf f).clgCur = s.clgCur := rfl
@[simp] theorem State.setSaf_bankA (f : Saf → Saf) : (s.setSaf f).bankA = s.bankA := rfl
@[simp] theorem State.setSaf_bankB (f : Saf → Saf) : (s.setSaf f).bankB = s.bankB := rfl
@[simp] theorem State.setSaf_bankWriting (f : Saf → Saf) : (s.setSaf f).bankWriting = s.bankWriting := rfl
@[simp] theorem State.setSaf_bankWaiting (f : Saf → Saf) : (s.setSaf f).bankWaiting = s.bankWaiting := rfl
@[simp] theorem State.setSaf_tokensAt (f : Saf → Saf) : (s.setSaf f).tokensAt = s.tokensAt := rfl
@[simp] theorem State.setSaf_freeCount (f : Saf → Saf) : (s.setSaf f).freeCount = s.freeCount := rfl

/-! ### setFds -/

@[simp] theorem State.setFds_pending (f : FdSafe → FdSafe) : (s.setFds f).pending = s.pending := rfl
@[simp] theorem State.setFds_now (f : FdSafe → FdSafe) : (s.setFds f).now = s.now := rfl
@[simp] theorem State.setFds_dev (f : FdSafe → FdSafe) : (s.setFds f).dev = s.dev := rfl
@[simp] theorem State.setFds_tc (f : FdSafe → FdSafe) : (s.setFds f).tc = s.tc := rfl
@[simp] theorem State.setFds_regs (f : FdSafe → FdSafe) : (s.setFds f).regs = s.regs := rfl
@[simp] theorem State.setFds_mregs (f : FdSafe → FdSafe) : (s.setFds f).mregs = s.mregs := rfl
@[simp] theorem State.setFds_boot (f : FdSafe → FdSafe) : (s.setFds f).boot = s.boot := rfl
@[simp] theorem State.setFds_fdUp (f : FdSafe → FdSafe) : (s.setFds f).fdUp = s.fdUp := rfl
@[simp] theorem State.setFds_ofe (f : FdSafe → FdSafe) : (s.setFds f).ofe = s.ofe := rfl
@[simp] theorem State.setFds_psy (f : FdSafe → FdSafe) : (s.setFds f).psy = s.psy := rfl
@[simp] theorem State.setFds_dmd (f : FdSafe → FdSafe) : (s.setFds f).dmd = s.dmd := rfl
@[simp] theorem State.setFds_lbq (f : FdSafe → FdSafe) : (s.setFds f).lbq = s.lbq := rfl
@[simp] theorem State.setFds_sensors (f : FdSafe → FdSafe) : (s.setFds f).sensors = s.sensors := rfl
@[simp] theorem State.setFds_cal (f : FdSafe → FdSafe) : (s.setFds f).cal = s.cal := rfl
@[simp] theorem State.setFds_hbTrims (f : FdSafe → FdSafe) : (s.setFds f).hbTrims = s.hbTrims := rfl
@[simp] theorem State.setFds_trimReports (f : FdSafe → FdSafe) : (s.setFds f).trimReports = s.trimReports := rfl
@[simp] theorem State.setFds_trimSince (f : FdSafe → FdSafe) : (s.setFds f).trimSince = s.trimSince := rfl
@[simp] theorem State.setFds_fdin (f : FdSafe → FdSafe) : (s.setFds f).fdin = s.fdin := rfl
@[simp] theorem State.setFds_outs (f : FdSafe → FdSafe) : (s.setFds f).outs = s.outs := rfl
@[simp] theorem State.setFds_mrg (f : FdSafe → FdSafe) : (s.setFds f).mrg = s.mrg := rfl
@[simp] theorem State.setFds_saf (f : FdSafe → FdSafe) : (s.setFds f).saf = s.saf := rfl
@[simp] theorem State.setFds_fds (f : FdSafe → FdSafe) : (s.setFds f).fds = f s.fds := rfl
@[simp] theorem State.setFds_str (f : FdSafe → FdSafe) : (s.setFds f).str = s.str := rfl
@[simp] theorem State.setFds_tpr (f : FdSafe → FdSafe) : (s.setFds f).tpr = s.tpr := rfl
@[simp] theorem State.setFds_acw (f : FdSafe → FdSafe) : (s.setFds f).acw = s.acw := rfl
@[simp] theorem State.setFds_acwq (f : FdSafe → FdSafe) : (s.setFds f).acwq = s.acwq := rfl
@[simp] theorem State.setFds_frw (f : FdSafe → FdSafe) : (s.setFds f).frw = s.frw := rfl
@[simp] theorem State.setFds_links (f : FdSafe → FdSafe) : (s.setFds f).links = s.links := rfl
@[simp] theorem State.setFds_dma (f : FdSafe → FdSafe) : (s.setFds f).dma = s.dma := rfl
@[simp] theorem State.setFds_cvu (f : FdSafe → FdSafe) : (s.setFds f).cvu = s.cvu := rfl
@[simp] theorem State.setFds_panel (f : FdSafe → FdSafe) : (s.setFds f).panel = s.panel := rfl
@[simp] theorem State.setFds_mem (f : FdSafe → FdSafe) : (s.setFds f).mem = s.mem := rfl
@[simp] theorem State.setFds_lease (f : FdSafe → FdSafe) : (s.setFds f).lease = s.lease := rfl
@[simp] theorem State.setFds_frozen (f : FdSafe → FdSafe) : (s.setFds f).frozen = s.frozen := rfl
@[simp] theorem State.setFds_frzRecs (f : FdSafe → FdSafe) : (s.setFds f).frzRecs = s.frzRecs := rfl
@[simp] theorem State.setFds_frzOver (f : FdSafe → FdSafe) : (s.setFds f).frzOver = s.frzOver := rfl
@[simp] theorem State.setFds_maintPwd (f : FdSafe → FdSafe) : (s.setFds f).maintPwd = s.maintPwd := rfl
@[simp] theorem State.setFds_safetyPwd (f : FdSafe → FdSafe) : (s.setFds f).safetyPwd = s.safetyPwd := rfl
@[simp] theorem State.setFds_queue (f : FdSafe → FdSafe) : (s.setFds f).queue = s.queue := rfl
@[simp] theorem State.setFds_cmds (f : FdSafe → FdSafe) : (s.setFds f).cmds = s.cmds := rfl
@[simp] theorem State.setFds_responses (f : FdSafe → FdSafe) : (s.setFds f).responses = s.responses := rfl
@[simp] theorem State.setFds_raised (f : FdSafe → FdSafe) : (s.setFds f).raised = s.raised := rfl
@[simp] theorem State.setFds_due (f : FdSafe → FdSafe) : (s.setFds f).due = s.due := rfl
@[simp] theorem State.setFds_evOver (f : FdSafe → FdSafe) : (s.setFds f).evOver = s.evOver := rfl
@[simp] theorem State.setFds_merge (f : FdSafe → FdSafe) : (s.setFds f).merge = s.merge := rfl
@[simp] theorem State.setFds_sent (f : FdSafe → FdSafe) : (s.setFds f).sent = s.sent := rfl
@[simp] theorem State.setFds_snaps (f : FdSafe → FdSafe) : (s.setFds f).snaps = s.snaps := rfl
@[simp] theorem State.setFds_wp (f : FdSafe → FdSafe) : (s.setFds f).wp = s.wp := rfl
@[simp] theorem State.setFds_journal (f : FdSafe → FdSafe) : (s.setFds f).journal = s.journal := rfl
@[simp] theorem State.setFds_jseq (f : FdSafe → FdSafe) : (s.setFds f).jseq = s.jseq := rfl
@[simp] theorem State.setFds_jcur (f : FdSafe → FdSafe) : (s.setFds f).jcur = s.jcur := rfl
@[simp] theorem State.setFds_clog (f : FdSafe → FdSafe) : (s.setFds f).clog = s.clog := rfl
@[simp] theorem State.setFds_clgLast (f : FdSafe → FdSafe) : (s.setFds f).clgLast = s.clgLast := rfl
@[simp] theorem State.setFds_clgFirst (f : FdSafe → FdSafe) : (s.setFds f).clgFirst = s.clgFirst := rfl
@[simp] theorem State.setFds_clgAnchor (f : FdSafe → FdSafe) : (s.setFds f).clgAnchor = s.clgAnchor := rfl
@[simp] theorem State.setFds_clgCur (f : FdSafe → FdSafe) : (s.setFds f).clgCur = s.clgCur := rfl
@[simp] theorem State.setFds_bankA (f : FdSafe → FdSafe) : (s.setFds f).bankA = s.bankA := rfl
@[simp] theorem State.setFds_bankB (f : FdSafe → FdSafe) : (s.setFds f).bankB = s.bankB := rfl
@[simp] theorem State.setFds_bankWriting (f : FdSafe → FdSafe) : (s.setFds f).bankWriting = s.bankWriting := rfl
@[simp] theorem State.setFds_bankWaiting (f : FdSafe → FdSafe) : (s.setFds f).bankWaiting = s.bankWaiting := rfl
@[simp] theorem State.setFds_tokensAt (f : FdSafe → FdSafe) : (s.setFds f).tokensAt = s.tokensAt := rfl
@[simp] theorem State.setFds_freeCount (f : FdSafe → FdSafe) : (s.setFds f).freeCount = s.freeCount := rfl

/-! ### setStr -/

@[simp] theorem State.setStr_pending (f : Str → Str) : (s.setStr f).pending = s.pending := rfl
@[simp] theorem State.setStr_now (f : Str → Str) : (s.setStr f).now = s.now := rfl
@[simp] theorem State.setStr_dev (f : Str → Str) : (s.setStr f).dev = s.dev := rfl
@[simp] theorem State.setStr_tc (f : Str → Str) : (s.setStr f).tc = s.tc := rfl
@[simp] theorem State.setStr_regs (f : Str → Str) : (s.setStr f).regs = s.regs := rfl
@[simp] theorem State.setStr_mregs (f : Str → Str) : (s.setStr f).mregs = s.mregs := rfl
@[simp] theorem State.setStr_boot (f : Str → Str) : (s.setStr f).boot = s.boot := rfl
@[simp] theorem State.setStr_fdUp (f : Str → Str) : (s.setStr f).fdUp = s.fdUp := rfl
@[simp] theorem State.setStr_ofe (f : Str → Str) : (s.setStr f).ofe = s.ofe := rfl
@[simp] theorem State.setStr_psy (f : Str → Str) : (s.setStr f).psy = s.psy := rfl
@[simp] theorem State.setStr_dmd (f : Str → Str) : (s.setStr f).dmd = s.dmd := rfl
@[simp] theorem State.setStr_lbq (f : Str → Str) : (s.setStr f).lbq = s.lbq := rfl
@[simp] theorem State.setStr_sensors (f : Str → Str) : (s.setStr f).sensors = s.sensors := rfl
@[simp] theorem State.setStr_cal (f : Str → Str) : (s.setStr f).cal = s.cal := rfl
@[simp] theorem State.setStr_hbTrims (f : Str → Str) : (s.setStr f).hbTrims = s.hbTrims := rfl
@[simp] theorem State.setStr_trimReports (f : Str → Str) : (s.setStr f).trimReports = s.trimReports := rfl
@[simp] theorem State.setStr_trimSince (f : Str → Str) : (s.setStr f).trimSince = s.trimSince := rfl
@[simp] theorem State.setStr_fdin (f : Str → Str) : (s.setStr f).fdin = s.fdin := rfl
@[simp] theorem State.setStr_outs (f : Str → Str) : (s.setStr f).outs = s.outs := rfl
@[simp] theorem State.setStr_mrg (f : Str → Str) : (s.setStr f).mrg = s.mrg := rfl
@[simp] theorem State.setStr_saf (f : Str → Str) : (s.setStr f).saf = s.saf := rfl
@[simp] theorem State.setStr_fds (f : Str → Str) : (s.setStr f).fds = s.fds := rfl
@[simp] theorem State.setStr_str (f : Str → Str) : (s.setStr f).str = f s.str := rfl
@[simp] theorem State.setStr_tpr (f : Str → Str) : (s.setStr f).tpr = s.tpr := rfl
@[simp] theorem State.setStr_acw (f : Str → Str) : (s.setStr f).acw = s.acw := rfl
@[simp] theorem State.setStr_acwq (f : Str → Str) : (s.setStr f).acwq = s.acwq := rfl
@[simp] theorem State.setStr_frw (f : Str → Str) : (s.setStr f).frw = s.frw := rfl
@[simp] theorem State.setStr_links (f : Str → Str) : (s.setStr f).links = s.links := rfl
@[simp] theorem State.setStr_dma (f : Str → Str) : (s.setStr f).dma = s.dma := rfl
@[simp] theorem State.setStr_cvu (f : Str → Str) : (s.setStr f).cvu = s.cvu := rfl
@[simp] theorem State.setStr_panel (f : Str → Str) : (s.setStr f).panel = s.panel := rfl
@[simp] theorem State.setStr_mem (f : Str → Str) : (s.setStr f).mem = s.mem := rfl
@[simp] theorem State.setStr_lease (f : Str → Str) : (s.setStr f).lease = s.lease := rfl
@[simp] theorem State.setStr_frozen (f : Str → Str) : (s.setStr f).frozen = s.frozen := rfl
@[simp] theorem State.setStr_frzRecs (f : Str → Str) : (s.setStr f).frzRecs = s.frzRecs := rfl
@[simp] theorem State.setStr_frzOver (f : Str → Str) : (s.setStr f).frzOver = s.frzOver := rfl
@[simp] theorem State.setStr_maintPwd (f : Str → Str) : (s.setStr f).maintPwd = s.maintPwd := rfl
@[simp] theorem State.setStr_safetyPwd (f : Str → Str) : (s.setStr f).safetyPwd = s.safetyPwd := rfl
@[simp] theorem State.setStr_queue (f : Str → Str) : (s.setStr f).queue = s.queue := rfl
@[simp] theorem State.setStr_cmds (f : Str → Str) : (s.setStr f).cmds = s.cmds := rfl
@[simp] theorem State.setStr_responses (f : Str → Str) : (s.setStr f).responses = s.responses := rfl
@[simp] theorem State.setStr_raised (f : Str → Str) : (s.setStr f).raised = s.raised := rfl
@[simp] theorem State.setStr_due (f : Str → Str) : (s.setStr f).due = s.due := rfl
@[simp] theorem State.setStr_evOver (f : Str → Str) : (s.setStr f).evOver = s.evOver := rfl
@[simp] theorem State.setStr_merge (f : Str → Str) : (s.setStr f).merge = s.merge := rfl
@[simp] theorem State.setStr_sent (f : Str → Str) : (s.setStr f).sent = s.sent := rfl
@[simp] theorem State.setStr_snaps (f : Str → Str) : (s.setStr f).snaps = s.snaps := rfl
@[simp] theorem State.setStr_wp (f : Str → Str) : (s.setStr f).wp = s.wp := rfl
@[simp] theorem State.setStr_journal (f : Str → Str) : (s.setStr f).journal = s.journal := rfl
@[simp] theorem State.setStr_jseq (f : Str → Str) : (s.setStr f).jseq = s.jseq := rfl
@[simp] theorem State.setStr_jcur (f : Str → Str) : (s.setStr f).jcur = s.jcur := rfl
@[simp] theorem State.setStr_clog (f : Str → Str) : (s.setStr f).clog = s.clog := rfl
@[simp] theorem State.setStr_clgLast (f : Str → Str) : (s.setStr f).clgLast = s.clgLast := rfl
@[simp] theorem State.setStr_clgFirst (f : Str → Str) : (s.setStr f).clgFirst = s.clgFirst := rfl
@[simp] theorem State.setStr_clgAnchor (f : Str → Str) : (s.setStr f).clgAnchor = s.clgAnchor := rfl
@[simp] theorem State.setStr_clgCur (f : Str → Str) : (s.setStr f).clgCur = s.clgCur := rfl
@[simp] theorem State.setStr_bankA (f : Str → Str) : (s.setStr f).bankA = s.bankA := rfl
@[simp] theorem State.setStr_bankB (f : Str → Str) : (s.setStr f).bankB = s.bankB := rfl
@[simp] theorem State.setStr_bankWriting (f : Str → Str) : (s.setStr f).bankWriting = s.bankWriting := rfl
@[simp] theorem State.setStr_bankWaiting (f : Str → Str) : (s.setStr f).bankWaiting = s.bankWaiting := rfl
@[simp] theorem State.setStr_tokensAt (f : Str → Str) : (s.setStr f).tokensAt = s.tokensAt := rfl
@[simp] theorem State.setStr_freeCount (f : Str → Str) : (s.setStr f).freeCount = s.freeCount := rfl

/-! ### setTpr -/

@[simp] theorem State.setTpr_pending (p : Nat) (x : TprPort) : (s.setTpr p x).pending = s.pending := rfl
@[simp] theorem State.setTpr_now (p : Nat) (x : TprPort) : (s.setTpr p x).now = s.now := rfl
@[simp] theorem State.setTpr_dev (p : Nat) (x : TprPort) : (s.setTpr p x).dev = s.dev := rfl
@[simp] theorem State.setTpr_tc (p : Nat) (x : TprPort) : (s.setTpr p x).tc = s.tc := rfl
@[simp] theorem State.setTpr_regs (p : Nat) (x : TprPort) : (s.setTpr p x).regs = s.regs := rfl
@[simp] theorem State.setTpr_mregs (p : Nat) (x : TprPort) : (s.setTpr p x).mregs = s.mregs := rfl
@[simp] theorem State.setTpr_boot (p : Nat) (x : TprPort) : (s.setTpr p x).boot = s.boot := rfl
@[simp] theorem State.setTpr_fdUp (p : Nat) (x : TprPort) : (s.setTpr p x).fdUp = s.fdUp := rfl
@[simp] theorem State.setTpr_ofe (p : Nat) (x : TprPort) : (s.setTpr p x).ofe = s.ofe := rfl
@[simp] theorem State.setTpr_psy (p : Nat) (x : TprPort) : (s.setTpr p x).psy = s.psy := rfl
@[simp] theorem State.setTpr_dmd (p : Nat) (x : TprPort) : (s.setTpr p x).dmd = s.dmd := rfl
@[simp] theorem State.setTpr_lbq (p : Nat) (x : TprPort) : (s.setTpr p x).lbq = s.lbq := rfl
@[simp] theorem State.setTpr_sensors (p : Nat) (x : TprPort) : (s.setTpr p x).sensors = s.sensors := rfl
@[simp] theorem State.setTpr_cal (p : Nat) (x : TprPort) : (s.setTpr p x).cal = s.cal := rfl
@[simp] theorem State.setTpr_hbTrims (p : Nat) (x : TprPort) : (s.setTpr p x).hbTrims = s.hbTrims := rfl
@[simp] theorem State.setTpr_trimReports (p : Nat) (x : TprPort) : (s.setTpr p x).trimReports = s.trimReports := rfl
@[simp] theorem State.setTpr_trimSince (p : Nat) (x : TprPort) : (s.setTpr p x).trimSince = s.trimSince := rfl
@[simp] theorem State.setTpr_fdin (p : Nat) (x : TprPort) : (s.setTpr p x).fdin = s.fdin := rfl
@[simp] theorem State.setTpr_outs (p : Nat) (x : TprPort) : (s.setTpr p x).outs = s.outs := rfl
@[simp] theorem State.setTpr_mrg (p : Nat) (x : TprPort) : (s.setTpr p x).mrg = s.mrg := rfl
@[simp] theorem State.setTpr_saf (p : Nat) (x : TprPort) : (s.setTpr p x).saf = s.saf := rfl
@[simp] theorem State.setTpr_fds (p : Nat) (x : TprPort) : (s.setTpr p x).fds = s.fds := rfl
@[simp] theorem State.setTpr_str (p : Nat) (x : TprPort) : (s.setTpr p x).str = s.str := rfl
@[simp] theorem State.setTpr_tpr (p : Nat) (x : TprPort) : (s.setTpr p x).tpr = tset s.tpr p x := rfl
@[simp] theorem State.setTpr_acw (p : Nat) (x : TprPort) : (s.setTpr p x).acw = s.acw := rfl
@[simp] theorem State.setTpr_acwq (p : Nat) (x : TprPort) : (s.setTpr p x).acwq = s.acwq := rfl
@[simp] theorem State.setTpr_frw (p : Nat) (x : TprPort) : (s.setTpr p x).frw = s.frw := rfl
@[simp] theorem State.setTpr_links (p : Nat) (x : TprPort) : (s.setTpr p x).links = s.links := rfl
@[simp] theorem State.setTpr_dma (p : Nat) (x : TprPort) : (s.setTpr p x).dma = s.dma := rfl
@[simp] theorem State.setTpr_cvu (p : Nat) (x : TprPort) : (s.setTpr p x).cvu = s.cvu := rfl
@[simp] theorem State.setTpr_panel (p : Nat) (x : TprPort) : (s.setTpr p x).panel = s.panel := rfl
@[simp] theorem State.setTpr_mem (p : Nat) (x : TprPort) : (s.setTpr p x).mem = s.mem := rfl
@[simp] theorem State.setTpr_lease (p : Nat) (x : TprPort) : (s.setTpr p x).lease = s.lease := rfl
@[simp] theorem State.setTpr_frozen (p : Nat) (x : TprPort) : (s.setTpr p x).frozen = s.frozen := rfl
@[simp] theorem State.setTpr_frzRecs (p : Nat) (x : TprPort) : (s.setTpr p x).frzRecs = s.frzRecs := rfl
@[simp] theorem State.setTpr_frzOver (p : Nat) (x : TprPort) : (s.setTpr p x).frzOver = s.frzOver := rfl
@[simp] theorem State.setTpr_maintPwd (p : Nat) (x : TprPort) : (s.setTpr p x).maintPwd = s.maintPwd := rfl
@[simp] theorem State.setTpr_safetyPwd (p : Nat) (x : TprPort) : (s.setTpr p x).safetyPwd = s.safetyPwd := rfl
@[simp] theorem State.setTpr_queue (p : Nat) (x : TprPort) : (s.setTpr p x).queue = s.queue := rfl
@[simp] theorem State.setTpr_cmds (p : Nat) (x : TprPort) : (s.setTpr p x).cmds = s.cmds := rfl
@[simp] theorem State.setTpr_responses (p : Nat) (x : TprPort) : (s.setTpr p x).responses = s.responses := rfl
@[simp] theorem State.setTpr_raised (p : Nat) (x : TprPort) : (s.setTpr p x).raised = s.raised := rfl
@[simp] theorem State.setTpr_due (p : Nat) (x : TprPort) : (s.setTpr p x).due = s.due := rfl
@[simp] theorem State.setTpr_evOver (p : Nat) (x : TprPort) : (s.setTpr p x).evOver = s.evOver := rfl
@[simp] theorem State.setTpr_merge (p : Nat) (x : TprPort) : (s.setTpr p x).merge = s.merge := rfl
@[simp] theorem State.setTpr_sent (p : Nat) (x : TprPort) : (s.setTpr p x).sent = s.sent := rfl
@[simp] theorem State.setTpr_snaps (p : Nat) (x : TprPort) : (s.setTpr p x).snaps = s.snaps := rfl
@[simp] theorem State.setTpr_wp (p : Nat) (x : TprPort) : (s.setTpr p x).wp = s.wp := rfl
@[simp] theorem State.setTpr_journal (p : Nat) (x : TprPort) : (s.setTpr p x).journal = s.journal := rfl
@[simp] theorem State.setTpr_jseq (p : Nat) (x : TprPort) : (s.setTpr p x).jseq = s.jseq := rfl
@[simp] theorem State.setTpr_jcur (p : Nat) (x : TprPort) : (s.setTpr p x).jcur = s.jcur := rfl
@[simp] theorem State.setTpr_clog (p : Nat) (x : TprPort) : (s.setTpr p x).clog = s.clog := rfl
@[simp] theorem State.setTpr_clgLast (p : Nat) (x : TprPort) : (s.setTpr p x).clgLast = s.clgLast := rfl
@[simp] theorem State.setTpr_clgFirst (p : Nat) (x : TprPort) : (s.setTpr p x).clgFirst = s.clgFirst := rfl
@[simp] theorem State.setTpr_clgAnchor (p : Nat) (x : TprPort) : (s.setTpr p x).clgAnchor = s.clgAnchor := rfl
@[simp] theorem State.setTpr_clgCur (p : Nat) (x : TprPort) : (s.setTpr p x).clgCur = s.clgCur := rfl
@[simp] theorem State.setTpr_bankA (p : Nat) (x : TprPort) : (s.setTpr p x).bankA = s.bankA := rfl
@[simp] theorem State.setTpr_bankB (p : Nat) (x : TprPort) : (s.setTpr p x).bankB = s.bankB := rfl
@[simp] theorem State.setTpr_bankWriting (p : Nat) (x : TprPort) : (s.setTpr p x).bankWriting = s.bankWriting := rfl
@[simp] theorem State.setTpr_bankWaiting (p : Nat) (x : TprPort) : (s.setTpr p x).bankWaiting = s.bankWaiting := rfl
@[simp] theorem State.setTpr_tokensAt (p : Nat) (x : TprPort) : (s.setTpr p x).tokensAt = s.tokensAt := rfl
@[simp] theorem State.setTpr_freeCount (p : Nat) (x : TprPort) : (s.setTpr p x).freeCount = s.freeCount := rfl

/-! ### setAcw -/

@[simp] theorem State.setAcw_pending (w : Nat) (r : AcwRun) : (s.setAcw w r).pending = s.pending := rfl
@[simp] theorem State.setAcw_now (w : Nat) (r : AcwRun) : (s.setAcw w r).now = s.now := rfl
@[simp] theorem State.setAcw_dev (w : Nat) (r : AcwRun) : (s.setAcw w r).dev = s.dev := rfl
@[simp] theorem State.setAcw_tc (w : Nat) (r : AcwRun) : (s.setAcw w r).tc = s.tc := rfl
@[simp] theorem State.setAcw_regs (w : Nat) (r : AcwRun) : (s.setAcw w r).regs = s.regs := rfl
@[simp] theorem State.setAcw_mregs (w : Nat) (r : AcwRun) : (s.setAcw w r).mregs = s.mregs := rfl
@[simp] theorem State.setAcw_boot (w : Nat) (r : AcwRun) : (s.setAcw w r).boot = s.boot := rfl
@[simp] theorem State.setAcw_fdUp (w : Nat) (r : AcwRun) : (s.setAcw w r).fdUp = s.fdUp := rfl
@[simp] theorem State.setAcw_ofe (w : Nat) (r : AcwRun) : (s.setAcw w r).ofe = s.ofe := rfl
@[simp] theorem State.setAcw_psy (w : Nat) (r : AcwRun) : (s.setAcw w r).psy = s.psy := rfl
@[simp] theorem State.setAcw_dmd (w : Nat) (r : AcwRun) : (s.setAcw w r).dmd = s.dmd := rfl
@[simp] theorem State.setAcw_lbq (w : Nat) (r : AcwRun) : (s.setAcw w r).lbq = s.lbq := rfl
@[simp] theorem State.setAcw_sensors (w : Nat) (r : AcwRun) : (s.setAcw w r).sensors = s.sensors := rfl
@[simp] theorem State.setAcw_cal (w : Nat) (r : AcwRun) : (s.setAcw w r).cal = s.cal := rfl
@[simp] theorem State.setAcw_hbTrims (w : Nat) (r : AcwRun) : (s.setAcw w r).hbTrims = s.hbTrims := rfl
@[simp] theorem State.setAcw_trimReports (w : Nat) (r : AcwRun) : (s.setAcw w r).trimReports = s.trimReports := rfl
@[simp] theorem State.setAcw_trimSince (w : Nat) (r : AcwRun) : (s.setAcw w r).trimSince = s.trimSince := rfl
@[simp] theorem State.setAcw_fdin (w : Nat) (r : AcwRun) : (s.setAcw w r).fdin = s.fdin := rfl
@[simp] theorem State.setAcw_outs (w : Nat) (r : AcwRun) : (s.setAcw w r).outs = s.outs := rfl
@[simp] theorem State.setAcw_mrg (w : Nat) (r : AcwRun) : (s.setAcw w r).mrg = s.mrg := rfl
@[simp] theorem State.setAcw_saf (w : Nat) (r : AcwRun) : (s.setAcw w r).saf = s.saf := rfl
@[simp] theorem State.setAcw_fds (w : Nat) (r : AcwRun) : (s.setAcw w r).fds = s.fds := rfl
@[simp] theorem State.setAcw_str (w : Nat) (r : AcwRun) : (s.setAcw w r).str = s.str := rfl
@[simp] theorem State.setAcw_tpr (w : Nat) (r : AcwRun) : (s.setAcw w r).tpr = s.tpr := rfl
@[simp] theorem State.setAcw_acw (w : Nat) (r : AcwRun) : (s.setAcw w r).acw = tset s.acw w r := rfl
@[simp] theorem State.setAcw_acwq (w : Nat) (r : AcwRun) : (s.setAcw w r).acwq = s.acwq := rfl
@[simp] theorem State.setAcw_frw (w : Nat) (r : AcwRun) : (s.setAcw w r).frw = s.frw := rfl
@[simp] theorem State.setAcw_links (w : Nat) (r : AcwRun) : (s.setAcw w r).links = s.links := rfl
@[simp] theorem State.setAcw_dma (w : Nat) (r : AcwRun) : (s.setAcw w r).dma = s.dma := rfl
@[simp] theorem State.setAcw_cvu (w : Nat) (r : AcwRun) : (s.setAcw w r).cvu = s.cvu := rfl
@[simp] theorem State.setAcw_panel (w : Nat) (r : AcwRun) : (s.setAcw w r).panel = s.panel := rfl
@[simp] theorem State.setAcw_mem (w : Nat) (r : AcwRun) : (s.setAcw w r).mem = s.mem := rfl
@[simp] theorem State.setAcw_lease (w : Nat) (r : AcwRun) : (s.setAcw w r).lease = s.lease := rfl
@[simp] theorem State.setAcw_frozen (w : Nat) (r : AcwRun) : (s.setAcw w r).frozen = s.frozen := rfl
@[simp] theorem State.setAcw_frzRecs (w : Nat) (r : AcwRun) : (s.setAcw w r).frzRecs = s.frzRecs := rfl
@[simp] theorem State.setAcw_frzOver (w : Nat) (r : AcwRun) : (s.setAcw w r).frzOver = s.frzOver := rfl
@[simp] theorem State.setAcw_maintPwd (w : Nat) (r : AcwRun) : (s.setAcw w r).maintPwd = s.maintPwd := rfl
@[simp] theorem State.setAcw_safetyPwd (w : Nat) (r : AcwRun) : (s.setAcw w r).safetyPwd = s.safetyPwd := rfl
@[simp] theorem State.setAcw_queue (w : Nat) (r : AcwRun) : (s.setAcw w r).queue = s.queue := rfl
@[simp] theorem State.setAcw_cmds (w : Nat) (r : AcwRun) : (s.setAcw w r).cmds = s.cmds := rfl
@[simp] theorem State.setAcw_responses (w : Nat) (r : AcwRun) : (s.setAcw w r).responses = s.responses := rfl
@[simp] theorem State.setAcw_raised (w : Nat) (r : AcwRun) : (s.setAcw w r).raised = s.raised := rfl
@[simp] theorem State.setAcw_due (w : Nat) (r : AcwRun) : (s.setAcw w r).due = s.due := rfl
@[simp] theorem State.setAcw_evOver (w : Nat) (r : AcwRun) : (s.setAcw w r).evOver = s.evOver := rfl
@[simp] theorem State.setAcw_merge (w : Nat) (r : AcwRun) : (s.setAcw w r).merge = s.merge := rfl
@[simp] theorem State.setAcw_sent (w : Nat) (r : AcwRun) : (s.setAcw w r).sent = s.sent := rfl
@[simp] theorem State.setAcw_snaps (w : Nat) (r : AcwRun) : (s.setAcw w r).snaps = s.snaps := rfl
@[simp] theorem State.setAcw_wp (w : Nat) (r : AcwRun) : (s.setAcw w r).wp = s.wp := rfl
@[simp] theorem State.setAcw_journal (w : Nat) (r : AcwRun) : (s.setAcw w r).journal = s.journal := rfl
@[simp] theorem State.setAcw_jseq (w : Nat) (r : AcwRun) : (s.setAcw w r).jseq = s.jseq := rfl
@[simp] theorem State.setAcw_jcur (w : Nat) (r : AcwRun) : (s.setAcw w r).jcur = s.jcur := rfl
@[simp] theorem State.setAcw_clog (w : Nat) (r : AcwRun) : (s.setAcw w r).clog = s.clog := rfl
@[simp] theorem State.setAcw_clgLast (w : Nat) (r : AcwRun) : (s.setAcw w r).clgLast = s.clgLast := rfl
@[simp] theorem State.setAcw_clgFirst (w : Nat) (r : AcwRun) : (s.setAcw w r).clgFirst = s.clgFirst := rfl
@[simp] theorem State.setAcw_clgAnchor (w : Nat) (r : AcwRun) : (s.setAcw w r).clgAnchor = s.clgAnchor := rfl
@[simp] theorem State.setAcw_clgCur (w : Nat) (r : AcwRun) : (s.setAcw w r).clgCur = s.clgCur := rfl
@[simp] theorem State.setAcw_bankA (w : Nat) (r : AcwRun) : (s.setAcw w r).bankA = s.bankA := rfl
@[simp] theorem State.setAcw_bankB (w : Nat) (r : AcwRun) : (s.setAcw w r).bankB = s.bankB := rfl
@[simp] theorem State.setAcw_bankWriting (w : Nat) (r : AcwRun) : (s.setAcw w r).bankWriting = s.bankWriting := rfl
@[simp] theorem State.setAcw_bankWaiting (w : Nat) (r : AcwRun) : (s.setAcw w r).bankWaiting = s.bankWaiting := rfl
@[simp] theorem State.setAcw_tokensAt (w : Nat) (r : AcwRun) : (s.setAcw w r).tokensAt = s.tokensAt := rfl
@[simp] theorem State.setAcw_freeCount (w : Nat) (r : AcwRun) : (s.setAcw w r).freeCount = s.freeCount := rfl

/-! ### setFrw -/

@[simp] theorem State.setFrw_pending (f : Frw → Frw) : (s.setFrw f).pending = s.pending := rfl
@[simp] theorem State.setFrw_now (f : Frw → Frw) : (s.setFrw f).now = s.now := rfl
@[simp] theorem State.setFrw_dev (f : Frw → Frw) : (s.setFrw f).dev = s.dev := rfl
@[simp] theorem State.setFrw_tc (f : Frw → Frw) : (s.setFrw f).tc = s.tc := rfl
@[simp] theorem State.setFrw_regs (f : Frw → Frw) : (s.setFrw f).regs = s.regs := rfl
@[simp] theorem State.setFrw_mregs (f : Frw → Frw) : (s.setFrw f).mregs = s.mregs := rfl
@[simp] theorem State.setFrw_boot (f : Frw → Frw) : (s.setFrw f).boot = s.boot := rfl
@[simp] theorem State.setFrw_fdUp (f : Frw → Frw) : (s.setFrw f).fdUp = s.fdUp := rfl
@[simp] theorem State.setFrw_ofe (f : Frw → Frw) : (s.setFrw f).ofe = s.ofe := rfl
@[simp] theorem State.setFrw_psy (f : Frw → Frw) : (s.setFrw f).psy = s.psy := rfl
@[simp] theorem State.setFrw_dmd (f : Frw → Frw) : (s.setFrw f).dmd = s.dmd := rfl
@[simp] theorem State.setFrw_lbq (f : Frw → Frw) : (s.setFrw f).lbq = s.lbq := rfl
@[simp] theorem State.setFrw_sensors (f : Frw → Frw) : (s.setFrw f).sensors = s.sensors := rfl
@[simp] theorem State.setFrw_cal (f : Frw → Frw) : (s.setFrw f).cal = s.cal := rfl
@[simp] theorem State.setFrw_hbTrims (f : Frw → Frw) : (s.setFrw f).hbTrims = s.hbTrims := rfl
@[simp] theorem State.setFrw_trimReports (f : Frw → Frw) : (s.setFrw f).trimReports = s.trimReports := rfl
@[simp] theorem State.setFrw_trimSince (f : Frw → Frw) : (s.setFrw f).trimSince = s.trimSince := rfl
@[simp] theorem State.setFrw_fdin (f : Frw → Frw) : (s.setFrw f).fdin = s.fdin := rfl
@[simp] theorem State.setFrw_outs (f : Frw → Frw) : (s.setFrw f).outs = s.outs := rfl
@[simp] theorem State.setFrw_mrg (f : Frw → Frw) : (s.setFrw f).mrg = s.mrg := rfl
@[simp] theorem State.setFrw_saf (f : Frw → Frw) : (s.setFrw f).saf = s.saf := rfl
@[simp] theorem State.setFrw_fds (f : Frw → Frw) : (s.setFrw f).fds = s.fds := rfl
@[simp] theorem State.setFrw_str (f : Frw → Frw) : (s.setFrw f).str = s.str := rfl
@[simp] theorem State.setFrw_tpr (f : Frw → Frw) : (s.setFrw f).tpr = s.tpr := rfl
@[simp] theorem State.setFrw_acw (f : Frw → Frw) : (s.setFrw f).acw = s.acw := rfl
@[simp] theorem State.setFrw_acwq (f : Frw → Frw) : (s.setFrw f).acwq = s.acwq := rfl
@[simp] theorem State.setFrw_frw (f : Frw → Frw) : (s.setFrw f).frw = f s.frw := rfl
@[simp] theorem State.setFrw_links (f : Frw → Frw) : (s.setFrw f).links = s.links := rfl
@[simp] theorem State.setFrw_dma (f : Frw → Frw) : (s.setFrw f).dma = s.dma := rfl
@[simp] theorem State.setFrw_cvu (f : Frw → Frw) : (s.setFrw f).cvu = s.cvu := rfl
@[simp] theorem State.setFrw_panel (f : Frw → Frw) : (s.setFrw f).panel = s.panel := rfl
@[simp] theorem State.setFrw_mem (f : Frw → Frw) : (s.setFrw f).mem = s.mem := rfl
@[simp] theorem State.setFrw_lease (f : Frw → Frw) : (s.setFrw f).lease = s.lease := rfl
@[simp] theorem State.setFrw_frozen (f : Frw → Frw) : (s.setFrw f).frozen = s.frozen := rfl
@[simp] theorem State.setFrw_frzRecs (f : Frw → Frw) : (s.setFrw f).frzRecs = s.frzRecs := rfl
@[simp] theorem State.setFrw_frzOver (f : Frw → Frw) : (s.setFrw f).frzOver = s.frzOver := rfl
@[simp] theorem State.setFrw_maintPwd (f : Frw → Frw) : (s.setFrw f).maintPwd = s.maintPwd := rfl
@[simp] theorem State.setFrw_safetyPwd (f : Frw → Frw) : (s.setFrw f).safetyPwd = s.safetyPwd := rfl
@[simp] theorem State.setFrw_queue (f : Frw → Frw) : (s.setFrw f).queue = s.queue := rfl
@[simp] theorem State.setFrw_cmds (f : Frw → Frw) : (s.setFrw f).cmds = s.cmds := rfl
@[simp] theorem State.setFrw_responses (f : Frw → Frw) : (s.setFrw f).responses = s.responses := rfl
@[simp] theorem State.setFrw_raised (f : Frw → Frw) : (s.setFrw f).raised = s.raised := rfl
@[simp] theorem State.setFrw_due (f : Frw → Frw) : (s.setFrw f).due = s.due := rfl
@[simp] theorem State.setFrw_evOver (f : Frw → Frw) : (s.setFrw f).evOver = s.evOver := rfl
@[simp] theorem State.setFrw_merge (f : Frw → Frw) : (s.setFrw f).merge = s.merge := rfl
@[simp] theorem State.setFrw_sent (f : Frw → Frw) : (s.setFrw f).sent = s.sent := rfl
@[simp] theorem State.setFrw_snaps (f : Frw → Frw) : (s.setFrw f).snaps = s.snaps := rfl
@[simp] theorem State.setFrw_wp (f : Frw → Frw) : (s.setFrw f).wp = s.wp := rfl
@[simp] theorem State.setFrw_journal (f : Frw → Frw) : (s.setFrw f).journal = s.journal := rfl
@[simp] theorem State.setFrw_jseq (f : Frw → Frw) : (s.setFrw f).jseq = s.jseq := rfl
@[simp] theorem State.setFrw_jcur (f : Frw → Frw) : (s.setFrw f).jcur = s.jcur := rfl
@[simp] theorem State.setFrw_clog (f : Frw → Frw) : (s.setFrw f).clog = s.clog := rfl
@[simp] theorem State.setFrw_clgLast (f : Frw → Frw) : (s.setFrw f).clgLast = s.clgLast := rfl
@[simp] theorem State.setFrw_clgFirst (f : Frw → Frw) : (s.setFrw f).clgFirst = s.clgFirst := rfl
@[simp] theorem State.setFrw_clgAnchor (f : Frw → Frw) : (s.setFrw f).clgAnchor = s.clgAnchor := rfl
@[simp] theorem State.setFrw_clgCur (f : Frw → Frw) : (s.setFrw f).clgCur = s.clgCur := rfl
@[simp] theorem State.setFrw_bankA (f : Frw → Frw) : (s.setFrw f).bankA = s.bankA := rfl
@[simp] theorem State.setFrw_bankB (f : Frw → Frw) : (s.setFrw f).bankB = s.bankB := rfl
@[simp] theorem State.setFrw_bankWriting (f : Frw → Frw) : (s.setFrw f).bankWriting = s.bankWriting := rfl
@[simp] theorem State.setFrw_bankWaiting (f : Frw → Frw) : (s.setFrw f).bankWaiting = s.bankWaiting := rfl
@[simp] theorem State.setFrw_tokensAt (f : Frw → Frw) : (s.setFrw f).tokensAt = s.tokensAt := rfl
@[simp] theorem State.setFrw_freeCount (f : Frw → Frw) : (s.setFrw f).freeCount = s.freeCount := rfl

/-! ### setLinks -/

@[simp] theorem State.setLinks_pending (f : Links → Links) : (s.setLinks f).pending = s.pending := rfl
@[simp] theorem State.setLinks_now (f : Links → Links) : (s.setLinks f).now = s.now := rfl
@[simp] theorem State.setLinks_dev (f : Links → Links) : (s.setLinks f).dev = s.dev := rfl
@[simp] theorem State.setLinks_tc (f : Links → Links) : (s.setLinks f).tc = s.tc := rfl
@[simp] theorem State.setLinks_regs (f : Links → Links) : (s.setLinks f).regs = s.regs := rfl
@[simp] theorem State.setLinks_mregs (f : Links → Links) : (s.setLinks f).mregs = s.mregs := rfl
@[simp] theorem State.setLinks_boot (f : Links → Links) : (s.setLinks f).boot = s.boot := rfl
@[simp] theorem State.setLinks_fdUp (f : Links → Links) : (s.setLinks f).fdUp = s.fdUp := rfl
@[simp] theorem State.setLinks_ofe (f : Links → Links) : (s.setLinks f).ofe = s.ofe := rfl
@[simp] theorem State.setLinks_psy (f : Links → Links) : (s.setLinks f).psy = s.psy := rfl
@[simp] theorem State.setLinks_dmd (f : Links → Links) : (s.setLinks f).dmd = s.dmd := rfl
@[simp] theorem State.setLinks_lbq (f : Links → Links) : (s.setLinks f).lbq = s.lbq := rfl
@[simp] theorem State.setLinks_sensors (f : Links → Links) : (s.setLinks f).sensors = s.sensors := rfl
@[simp] theorem State.setLinks_cal (f : Links → Links) : (s.setLinks f).cal = s.cal := rfl
@[simp] theorem State.setLinks_hbTrims (f : Links → Links) : (s.setLinks f).hbTrims = s.hbTrims := rfl
@[simp] theorem State.setLinks_trimReports (f : Links → Links) : (s.setLinks f).trimReports = s.trimReports := rfl
@[simp] theorem State.setLinks_trimSince (f : Links → Links) : (s.setLinks f).trimSince = s.trimSince := rfl
@[simp] theorem State.setLinks_fdin (f : Links → Links) : (s.setLinks f).fdin = s.fdin := rfl
@[simp] theorem State.setLinks_outs (f : Links → Links) : (s.setLinks f).outs = s.outs := rfl
@[simp] theorem State.setLinks_mrg (f : Links → Links) : (s.setLinks f).mrg = s.mrg := rfl
@[simp] theorem State.setLinks_saf (f : Links → Links) : (s.setLinks f).saf = s.saf := rfl
@[simp] theorem State.setLinks_fds (f : Links → Links) : (s.setLinks f).fds = s.fds := rfl
@[simp] theorem State.setLinks_str (f : Links → Links) : (s.setLinks f).str = s.str := rfl
@[simp] theorem State.setLinks_tpr (f : Links → Links) : (s.setLinks f).tpr = s.tpr := rfl
@[simp] theorem State.setLinks_acw (f : Links → Links) : (s.setLinks f).acw = s.acw := rfl
@[simp] theorem State.setLinks_acwq (f : Links → Links) : (s.setLinks f).acwq = s.acwq := rfl
@[simp] theorem State.setLinks_frw (f : Links → Links) : (s.setLinks f).frw = s.frw := rfl
@[simp] theorem State.setLinks_links (f : Links → Links) : (s.setLinks f).links = f s.links := rfl
@[simp] theorem State.setLinks_dma (f : Links → Links) : (s.setLinks f).dma = s.dma := rfl
@[simp] theorem State.setLinks_cvu (f : Links → Links) : (s.setLinks f).cvu = s.cvu := rfl
@[simp] theorem State.setLinks_panel (f : Links → Links) : (s.setLinks f).panel = s.panel := rfl
@[simp] theorem State.setLinks_mem (f : Links → Links) : (s.setLinks f).mem = s.mem := rfl
@[simp] theorem State.setLinks_lease (f : Links → Links) : (s.setLinks f).lease = s.lease := rfl
@[simp] theorem State.setLinks_frozen (f : Links → Links) : (s.setLinks f).frozen = s.frozen := rfl
@[simp] theorem State.setLinks_frzRecs (f : Links → Links) : (s.setLinks f).frzRecs = s.frzRecs := rfl
@[simp] theorem State.setLinks_frzOver (f : Links → Links) : (s.setLinks f).frzOver = s.frzOver := rfl
@[simp] theorem State.setLinks_maintPwd (f : Links → Links) : (s.setLinks f).maintPwd = s.maintPwd := rfl
@[simp] theorem State.setLinks_safetyPwd (f : Links → Links) : (s.setLinks f).safetyPwd = s.safetyPwd := rfl
@[simp] theorem State.setLinks_queue (f : Links → Links) : (s.setLinks f).queue = s.queue := rfl
@[simp] theorem State.setLinks_cmds (f : Links → Links) : (s.setLinks f).cmds = s.cmds := rfl
@[simp] theorem State.setLinks_responses (f : Links → Links) : (s.setLinks f).responses = s.responses := rfl
@[simp] theorem State.setLinks_raised (f : Links → Links) : (s.setLinks f).raised = s.raised := rfl
@[simp] theorem State.setLinks_due (f : Links → Links) : (s.setLinks f).due = s.due := rfl
@[simp] theorem State.setLinks_evOver (f : Links → Links) : (s.setLinks f).evOver = s.evOver := rfl
@[simp] theorem State.setLinks_merge (f : Links → Links) : (s.setLinks f).merge = s.merge := rfl
@[simp] theorem State.setLinks_sent (f : Links → Links) : (s.setLinks f).sent = s.sent := rfl
@[simp] theorem State.setLinks_snaps (f : Links → Links) : (s.setLinks f).snaps = s.snaps := rfl
@[simp] theorem State.setLinks_wp (f : Links → Links) : (s.setLinks f).wp = s.wp := rfl
@[simp] theorem State.setLinks_journal (f : Links → Links) : (s.setLinks f).journal = s.journal := rfl
@[simp] theorem State.setLinks_jseq (f : Links → Links) : (s.setLinks f).jseq = s.jseq := rfl
@[simp] theorem State.setLinks_jcur (f : Links → Links) : (s.setLinks f).jcur = s.jcur := rfl
@[simp] theorem State.setLinks_clog (f : Links → Links) : (s.setLinks f).clog = s.clog := rfl
@[simp] theorem State.setLinks_clgLast (f : Links → Links) : (s.setLinks f).clgLast = s.clgLast := rfl
@[simp] theorem State.setLinks_clgFirst (f : Links → Links) : (s.setLinks f).clgFirst = s.clgFirst := rfl
@[simp] theorem State.setLinks_clgAnchor (f : Links → Links) : (s.setLinks f).clgAnchor = s.clgAnchor := rfl
@[simp] theorem State.setLinks_clgCur (f : Links → Links) : (s.setLinks f).clgCur = s.clgCur := rfl
@[simp] theorem State.setLinks_bankA (f : Links → Links) : (s.setLinks f).bankA = s.bankA := rfl
@[simp] theorem State.setLinks_bankB (f : Links → Links) : (s.setLinks f).bankB = s.bankB := rfl
@[simp] theorem State.setLinks_bankWriting (f : Links → Links) : (s.setLinks f).bankWriting = s.bankWriting := rfl
@[simp] theorem State.setLinks_bankWaiting (f : Links → Links) : (s.setLinks f).bankWaiting = s.bankWaiting := rfl
@[simp] theorem State.setLinks_tokensAt (f : Links → Links) : (s.setLinks f).tokensAt = s.tokensAt := rfl
@[simp] theorem State.setLinks_freeCount (f : Links → Links) : (s.setLinks f).freeCount = s.freeCount := rfl

/-! ### setEng -/

@[simp] theorem State.setEng_pending (e : Nat) (g : DmaEng) : (s.setEng e g).pending = s.pending := rfl
@[simp] theorem State.setEng_now (e : Nat) (g : DmaEng) : (s.setEng e g).now = s.now := rfl
@[simp] theorem State.setEng_dev (e : Nat) (g : DmaEng) : (s.setEng e g).dev = s.dev := rfl
@[simp] theorem State.setEng_tc (e : Nat) (g : DmaEng) : (s.setEng e g).tc = s.tc := rfl
@[simp] theorem State.setEng_regs (e : Nat) (g : DmaEng) : (s.setEng e g).regs = s.regs := rfl
@[simp] theorem State.setEng_mregs (e : Nat) (g : DmaEng) : (s.setEng e g).mregs = s.mregs := rfl
@[simp] theorem State.setEng_boot (e : Nat) (g : DmaEng) : (s.setEng e g).boot = s.boot := rfl
@[simp] theorem State.setEng_fdUp (e : Nat) (g : DmaEng) : (s.setEng e g).fdUp = s.fdUp := rfl
@[simp] theorem State.setEng_ofe (e : Nat) (g : DmaEng) : (s.setEng e g).ofe = s.ofe := rfl
@[simp] theorem State.setEng_psy (e : Nat) (g : DmaEng) : (s.setEng e g).psy = s.psy := rfl
@[simp] theorem State.setEng_dmd (e : Nat) (g : DmaEng) : (s.setEng e g).dmd = s.dmd := rfl
@[simp] theorem State.setEng_lbq (e : Nat) (g : DmaEng) : (s.setEng e g).lbq = s.lbq := rfl
@[simp] theorem State.setEng_sensors (e : Nat) (g : DmaEng) : (s.setEng e g).sensors = s.sensors := rfl
@[simp] theorem State.setEng_cal (e : Nat) (g : DmaEng) : (s.setEng e g).cal = s.cal := rfl
@[simp] theorem State.setEng_hbTrims (e : Nat) (g : DmaEng) : (s.setEng e g).hbTrims = s.hbTrims := rfl
@[simp] theorem State.setEng_trimReports (e : Nat) (g : DmaEng) : (s.setEng e g).trimReports = s.trimReports := rfl
@[simp] theorem State.setEng_trimSince (e : Nat) (g : DmaEng) : (s.setEng e g).trimSince = s.trimSince := rfl
@[simp] theorem State.setEng_fdin (e : Nat) (g : DmaEng) : (s.setEng e g).fdin = s.fdin := rfl
@[simp] theorem State.setEng_outs (e : Nat) (g : DmaEng) : (s.setEng e g).outs = s.outs := rfl
@[simp] theorem State.setEng_mrg (e : Nat) (g : DmaEng) : (s.setEng e g).mrg = s.mrg := rfl
@[simp] theorem State.setEng_saf (e : Nat) (g : DmaEng) : (s.setEng e g).saf = s.saf := rfl
@[simp] theorem State.setEng_fds (e : Nat) (g : DmaEng) : (s.setEng e g).fds = s.fds := rfl
@[simp] theorem State.setEng_str (e : Nat) (g : DmaEng) : (s.setEng e g).str = s.str := rfl
@[simp] theorem State.setEng_tpr (e : Nat) (g : DmaEng) : (s.setEng e g).tpr = s.tpr := rfl
@[simp] theorem State.setEng_acw (e : Nat) (g : DmaEng) : (s.setEng e g).acw = s.acw := rfl
@[simp] theorem State.setEng_acwq (e : Nat) (g : DmaEng) : (s.setEng e g).acwq = s.acwq := rfl
@[simp] theorem State.setEng_frw (e : Nat) (g : DmaEng) : (s.setEng e g).frw = s.frw := rfl
@[simp] theorem State.setEng_links (e : Nat) (g : DmaEng) : (s.setEng e g).links = s.links := rfl
@[simp] theorem State.setEng_dma (e : Nat) (g : DmaEng) : (s.setEng e g).dma = tset s.dma e g := rfl
@[simp] theorem State.setEng_cvu (e : Nat) (g : DmaEng) : (s.setEng e g).cvu = s.cvu := rfl
@[simp] theorem State.setEng_panel (e : Nat) (g : DmaEng) : (s.setEng e g).panel = s.panel := rfl
@[simp] theorem State.setEng_mem (e : Nat) (g : DmaEng) : (s.setEng e g).mem = s.mem := rfl
@[simp] theorem State.setEng_lease (e : Nat) (g : DmaEng) : (s.setEng e g).lease = s.lease := rfl
@[simp] theorem State.setEng_frozen (e : Nat) (g : DmaEng) : (s.setEng e g).frozen = s.frozen := rfl
@[simp] theorem State.setEng_frzRecs (e : Nat) (g : DmaEng) : (s.setEng e g).frzRecs = s.frzRecs := rfl
@[simp] theorem State.setEng_frzOver (e : Nat) (g : DmaEng) : (s.setEng e g).frzOver = s.frzOver := rfl
@[simp] theorem State.setEng_maintPwd (e : Nat) (g : DmaEng) : (s.setEng e g).maintPwd = s.maintPwd := rfl
@[simp] theorem State.setEng_safetyPwd (e : Nat) (g : DmaEng) : (s.setEng e g).safetyPwd = s.safetyPwd := rfl
@[simp] theorem State.setEng_queue (e : Nat) (g : DmaEng) : (s.setEng e g).queue = s.queue := rfl
@[simp] theorem State.setEng_cmds (e : Nat) (g : DmaEng) : (s.setEng e g).cmds = s.cmds := rfl
@[simp] theorem State.setEng_responses (e : Nat) (g : DmaEng) : (s.setEng e g).responses = s.responses := rfl
@[simp] theorem State.setEng_raised (e : Nat) (g : DmaEng) : (s.setEng e g).raised = s.raised := rfl
@[simp] theorem State.setEng_due (e : Nat) (g : DmaEng) : (s.setEng e g).due = s.due := rfl
@[simp] theorem State.setEng_evOver (e : Nat) (g : DmaEng) : (s.setEng e g).evOver = s.evOver := rfl
@[simp] theorem State.setEng_merge (e : Nat) (g : DmaEng) : (s.setEng e g).merge = s.merge := rfl
@[simp] theorem State.setEng_sent (e : Nat) (g : DmaEng) : (s.setEng e g).sent = s.sent := rfl
@[simp] theorem State.setEng_snaps (e : Nat) (g : DmaEng) : (s.setEng e g).snaps = s.snaps := rfl
@[simp] theorem State.setEng_wp (e : Nat) (g : DmaEng) : (s.setEng e g).wp = s.wp := rfl
@[simp] theorem State.setEng_journal (e : Nat) (g : DmaEng) : (s.setEng e g).journal = s.journal := rfl
@[simp] theorem State.setEng_jseq (e : Nat) (g : DmaEng) : (s.setEng e g).jseq = s.jseq := rfl
@[simp] theorem State.setEng_jcur (e : Nat) (g : DmaEng) : (s.setEng e g).jcur = s.jcur := rfl
@[simp] theorem State.setEng_clog (e : Nat) (g : DmaEng) : (s.setEng e g).clog = s.clog := rfl
@[simp] theorem State.setEng_clgLast (e : Nat) (g : DmaEng) : (s.setEng e g).clgLast = s.clgLast := rfl
@[simp] theorem State.setEng_clgFirst (e : Nat) (g : DmaEng) : (s.setEng e g).clgFirst = s.clgFirst := rfl
@[simp] theorem State.setEng_clgAnchor (e : Nat) (g : DmaEng) : (s.setEng e g).clgAnchor = s.clgAnchor := rfl
@[simp] theorem State.setEng_clgCur (e : Nat) (g : DmaEng) : (s.setEng e g).clgCur = s.clgCur := rfl
@[simp] theorem State.setEng_bankA (e : Nat) (g : DmaEng) : (s.setEng e g).bankA = s.bankA := rfl
@[simp] theorem State.setEng_bankB (e : Nat) (g : DmaEng) : (s.setEng e g).bankB = s.bankB := rfl
@[simp] theorem State.setEng_bankWriting (e : Nat) (g : DmaEng) : (s.setEng e g).bankWriting = s.bankWriting := rfl
@[simp] theorem State.setEng_bankWaiting (e : Nat) (g : DmaEng) : (s.setEng e g).bankWaiting = s.bankWaiting := rfl
@[simp] theorem State.setEng_tokensAt (e : Nat) (g : DmaEng) : (s.setEng e g).tokensAt = s.tokensAt := rfl
@[simp] theorem State.setEng_freeCount (e : Nat) (g : DmaEng) : (s.setEng e g).freeCount = s.freeCount := rfl

/-! ### setCvUnit -/

@[simp] theorem State.setCvUnit_pending (u : Nat) (c : Cvu) : (s.setCvUnit u c).pending = s.pending := rfl
@[simp] theorem State.setCvUnit_now (u : Nat) (c : Cvu) : (s.setCvUnit u c).now = s.now := rfl
@[simp] theorem State.setCvUnit_dev (u : Nat) (c : Cvu) : (s.setCvUnit u c).dev = s.dev := rfl
@[simp] theorem State.setCvUnit_tc (u : Nat) (c : Cvu) : (s.setCvUnit u c).tc = s.tc := rfl
@[simp] theorem State.setCvUnit_regs (u : Nat) (c : Cvu) : (s.setCvUnit u c).regs = s.regs := rfl
@[simp] theorem State.setCvUnit_mregs (u : Nat) (c : Cvu) : (s.setCvUnit u c).mregs = s.mregs := rfl
@[simp] theorem State.setCvUnit_boot (u : Nat) (c : Cvu) : (s.setCvUnit u c).boot = s.boot := rfl
@[simp] theorem State.setCvUnit_fdUp (u : Nat) (c : Cvu) : (s.setCvUnit u c).fdUp = s.fdUp := rfl
@[simp] theorem State.setCvUnit_ofe (u : Nat) (c : Cvu) : (s.setCvUnit u c).ofe = s.ofe := rfl
@[simp] theorem State.setCvUnit_psy (u : Nat) (c : Cvu) : (s.setCvUnit u c).psy = s.psy := rfl
@[simp] theorem State.setCvUnit_dmd (u : Nat) (c : Cvu) : (s.setCvUnit u c).dmd = s.dmd := rfl
@[simp] theorem State.setCvUnit_lbq (u : Nat) (c : Cvu) : (s.setCvUnit u c).lbq = s.lbq := rfl
@[simp] theorem State.setCvUnit_sensors (u : Nat) (c : Cvu) : (s.setCvUnit u c).sensors = s.sensors := rfl
@[simp] theorem State.setCvUnit_cal (u : Nat) (c : Cvu) : (s.setCvUnit u c).cal = s.cal := rfl
@[simp] theorem State.setCvUnit_hbTrims (u : Nat) (c : Cvu) : (s.setCvUnit u c).hbTrims = s.hbTrims := rfl
@[simp] theorem State.setCvUnit_trimReports (u : Nat) (c : Cvu) : (s.setCvUnit u c).trimReports = s.trimReports := rfl
@[simp] theorem State.setCvUnit_trimSince (u : Nat) (c : Cvu) : (s.setCvUnit u c).trimSince = s.trimSince := rfl
@[simp] theorem State.setCvUnit_fdin (u : Nat) (c : Cvu) : (s.setCvUnit u c).fdin = s.fdin := rfl
@[simp] theorem State.setCvUnit_outs (u : Nat) (c : Cvu) : (s.setCvUnit u c).outs = s.outs := rfl
@[simp] theorem State.setCvUnit_mrg (u : Nat) (c : Cvu) : (s.setCvUnit u c).mrg = s.mrg := rfl
@[simp] theorem State.setCvUnit_saf (u : Nat) (c : Cvu) : (s.setCvUnit u c).saf = s.saf := rfl
@[simp] theorem State.setCvUnit_fds (u : Nat) (c : Cvu) : (s.setCvUnit u c).fds = s.fds := rfl
@[simp] theorem State.setCvUnit_str (u : Nat) (c : Cvu) : (s.setCvUnit u c).str = s.str := rfl
@[simp] theorem State.setCvUnit_tpr (u : Nat) (c : Cvu) : (s.setCvUnit u c).tpr = s.tpr := rfl
@[simp] theorem State.setCvUnit_acw (u : Nat) (c : Cvu) : (s.setCvUnit u c).acw = s.acw := rfl
@[simp] theorem State.setCvUnit_acwq (u : Nat) (c : Cvu) : (s.setCvUnit u c).acwq = s.acwq := rfl
@[simp] theorem State.setCvUnit_frw (u : Nat) (c : Cvu) : (s.setCvUnit u c).frw = s.frw := rfl
@[simp] theorem State.setCvUnit_links (u : Nat) (c : Cvu) : (s.setCvUnit u c).links = s.links := rfl
@[simp] theorem State.setCvUnit_dma (u : Nat) (c : Cvu) : (s.setCvUnit u c).dma = s.dma := rfl
@[simp] theorem State.setCvUnit_cvu (u : Nat) (c : Cvu) : (s.setCvUnit u c).cvu = tset s.cvu u c := rfl
@[simp] theorem State.setCvUnit_panel (u : Nat) (c : Cvu) : (s.setCvUnit u c).panel = s.panel := rfl
@[simp] theorem State.setCvUnit_mem (u : Nat) (c : Cvu) : (s.setCvUnit u c).mem = s.mem := rfl
@[simp] theorem State.setCvUnit_lease (u : Nat) (c : Cvu) : (s.setCvUnit u c).lease = s.lease := rfl
@[simp] theorem State.setCvUnit_frozen (u : Nat) (c : Cvu) : (s.setCvUnit u c).frozen = s.frozen := rfl
@[simp] theorem State.setCvUnit_frzRecs (u : Nat) (c : Cvu) : (s.setCvUnit u c).frzRecs = s.frzRecs := rfl
@[simp] theorem State.setCvUnit_frzOver (u : Nat) (c : Cvu) : (s.setCvUnit u c).frzOver = s.frzOver := rfl
@[simp] theorem State.setCvUnit_maintPwd (u : Nat) (c : Cvu) : (s.setCvUnit u c).maintPwd = s.maintPwd := rfl
@[simp] theorem State.setCvUnit_safetyPwd (u : Nat) (c : Cvu) : (s.setCvUnit u c).safetyPwd = s.safetyPwd := rfl
@[simp] theorem State.setCvUnit_queue (u : Nat) (c : Cvu) : (s.setCvUnit u c).queue = s.queue := rfl
@[simp] theorem State.setCvUnit_cmds (u : Nat) (c : Cvu) : (s.setCvUnit u c).cmds = s.cmds := rfl
@[simp] theorem State.setCvUnit_responses (u : Nat) (c : Cvu) : (s.setCvUnit u c).responses = s.responses := rfl
@[simp] theorem State.setCvUnit_raised (u : Nat) (c : Cvu) : (s.setCvUnit u c).raised = s.raised := rfl
@[simp] theorem State.setCvUnit_due (u : Nat) (c : Cvu) : (s.setCvUnit u c).due = s.due := rfl
@[simp] theorem State.setCvUnit_evOver (u : Nat) (c : Cvu) : (s.setCvUnit u c).evOver = s.evOver := rfl
@[simp] theorem State.setCvUnit_merge (u : Nat) (c : Cvu) : (s.setCvUnit u c).merge = s.merge := rfl
@[simp] theorem State.setCvUnit_sent (u : Nat) (c : Cvu) : (s.setCvUnit u c).sent = s.sent := rfl
@[simp] theorem State.setCvUnit_snaps (u : Nat) (c : Cvu) : (s.setCvUnit u c).snaps = s.snaps := rfl
@[simp] theorem State.setCvUnit_wp (u : Nat) (c : Cvu) : (s.setCvUnit u c).wp = s.wp := rfl
@[simp] theorem State.setCvUnit_journal (u : Nat) (c : Cvu) : (s.setCvUnit u c).journal = s.journal := rfl
@[simp] theorem State.setCvUnit_jseq (u : Nat) (c : Cvu) : (s.setCvUnit u c).jseq = s.jseq := rfl
@[simp] theorem State.setCvUnit_jcur (u : Nat) (c : Cvu) : (s.setCvUnit u c).jcur = s.jcur := rfl
@[simp] theorem State.setCvUnit_clog (u : Nat) (c : Cvu) : (s.setCvUnit u c).clog = s.clog := rfl
@[simp] theorem State.setCvUnit_clgLast (u : Nat) (c : Cvu) : (s.setCvUnit u c).clgLast = s.clgLast := rfl
@[simp] theorem State.setCvUnit_clgFirst (u : Nat) (c : Cvu) : (s.setCvUnit u c).clgFirst = s.clgFirst := rfl
@[simp] theorem State.setCvUnit_clgAnchor (u : Nat) (c : Cvu) : (s.setCvUnit u c).clgAnchor = s.clgAnchor := rfl
@[simp] theorem State.setCvUnit_clgCur (u : Nat) (c : Cvu) : (s.setCvUnit u c).clgCur = s.clgCur := rfl
@[simp] theorem State.setCvUnit_bankA (u : Nat) (c : Cvu) : (s.setCvUnit u c).bankA = s.bankA := rfl
@[simp] theorem State.setCvUnit_bankB (u : Nat) (c : Cvu) : (s.setCvUnit u c).bankB = s.bankB := rfl
@[simp] theorem State.setCvUnit_bankWriting (u : Nat) (c : Cvu) : (s.setCvUnit u c).bankWriting = s.bankWriting := rfl
@[simp] theorem State.setCvUnit_bankWaiting (u : Nat) (c : Cvu) : (s.setCvUnit u c).bankWaiting = s.bankWaiting := rfl
@[simp] theorem State.setCvUnit_tokensAt (u : Nat) (c : Cvu) : (s.setCvUnit u c).tokensAt = s.tokensAt := rfl
@[simp] theorem State.setCvUnit_freeCount (u : Nat) (c : Cvu) : (s.setCvUnit u c).freeCount = s.freeCount := rfl

/-! ### setPanel -/

@[simp] theorem State.setPanel_pending (f : Panel → Panel) : (s.setPanel f).pending = s.pending := rfl
@[simp] theorem State.setPanel_now (f : Panel → Panel) : (s.setPanel f).now = s.now := rfl
@[simp] theorem State.setPanel_dev (f : Panel → Panel) : (s.setPanel f).dev = s.dev := rfl
@[simp] theorem State.setPanel_tc (f : Panel → Panel) : (s.setPanel f).tc = s.tc := rfl
@[simp] theorem State.setPanel_regs (f : Panel → Panel) : (s.setPanel f).regs = s.regs := rfl
@[simp] theorem State.setPanel_mregs (f : Panel → Panel) : (s.setPanel f).mregs = s.mregs := rfl
@[simp] theorem State.setPanel_boot (f : Panel → Panel) : (s.setPanel f).boot = s.boot := rfl
@[simp] theorem State.setPanel_fdUp (f : Panel → Panel) : (s.setPanel f).fdUp = s.fdUp := rfl
@[simp] theorem State.setPanel_ofe (f : Panel → Panel) : (s.setPanel f).ofe = s.ofe := rfl
@[simp] theorem State.setPanel_psy (f : Panel → Panel) : (s.setPanel f).psy = s.psy := rfl
@[simp] theorem State.setPanel_dmd (f : Panel → Panel) : (s.setPanel f).dmd = s.dmd := rfl
@[simp] theorem State.setPanel_lbq (f : Panel → Panel) : (s.setPanel f).lbq = s.lbq := rfl
@[simp] theorem State.setPanel_sensors (f : Panel → Panel) : (s.setPanel f).sensors = s.sensors := rfl
@[simp] theorem State.setPanel_cal (f : Panel → Panel) : (s.setPanel f).cal = s.cal := rfl
@[simp] theorem State.setPanel_hbTrims (f : Panel → Panel) : (s.setPanel f).hbTrims = s.hbTrims := rfl
@[simp] theorem State.setPanel_trimReports (f : Panel → Panel) : (s.setPanel f).trimReports = s.trimReports := rfl
@[simp] theorem State.setPanel_trimSince (f : Panel → Panel) : (s.setPanel f).trimSince = s.trimSince := rfl
@[simp] theorem State.setPanel_fdin (f : Panel → Panel) : (s.setPanel f).fdin = s.fdin := rfl
@[simp] theorem State.setPanel_outs (f : Panel → Panel) : (s.setPanel f).outs = s.outs := rfl
@[simp] theorem State.setPanel_mrg (f : Panel → Panel) : (s.setPanel f).mrg = s.mrg := rfl
@[simp] theorem State.setPanel_saf (f : Panel → Panel) : (s.setPanel f).saf = s.saf := rfl
@[simp] theorem State.setPanel_fds (f : Panel → Panel) : (s.setPanel f).fds = s.fds := rfl
@[simp] theorem State.setPanel_str (f : Panel → Panel) : (s.setPanel f).str = s.str := rfl
@[simp] theorem State.setPanel_tpr (f : Panel → Panel) : (s.setPanel f).tpr = s.tpr := rfl
@[simp] theorem State.setPanel_acw (f : Panel → Panel) : (s.setPanel f).acw = s.acw := rfl
@[simp] theorem State.setPanel_acwq (f : Panel → Panel) : (s.setPanel f).acwq = s.acwq := rfl
@[simp] theorem State.setPanel_frw (f : Panel → Panel) : (s.setPanel f).frw = s.frw := rfl
@[simp] theorem State.setPanel_links (f : Panel → Panel) : (s.setPanel f).links = s.links := rfl
@[simp] theorem State.setPanel_dma (f : Panel → Panel) : (s.setPanel f).dma = s.dma := rfl
@[simp] theorem State.setPanel_cvu (f : Panel → Panel) : (s.setPanel f).cvu = s.cvu := rfl
@[simp] theorem State.setPanel_panel (f : Panel → Panel) : (s.setPanel f).panel = f s.panel := rfl
@[simp] theorem State.setPanel_mem (f : Panel → Panel) : (s.setPanel f).mem = s.mem := rfl
@[simp] theorem State.setPanel_lease (f : Panel → Panel) : (s.setPanel f).lease = s.lease := rfl
@[simp] theorem State.setPanel_frozen (f : Panel → Panel) : (s.setPanel f).frozen = s.frozen := rfl
@[simp] theorem State.setPanel_frzRecs (f : Panel → Panel) : (s.setPanel f).frzRecs = s.frzRecs := rfl
@[simp] theorem State.setPanel_frzOver (f : Panel → Panel) : (s.setPanel f).frzOver = s.frzOver := rfl
@[simp] theorem State.setPanel_maintPwd (f : Panel → Panel) : (s.setPanel f).maintPwd = s.maintPwd := rfl
@[simp] theorem State.setPanel_safetyPwd (f : Panel → Panel) : (s.setPanel f).safetyPwd = s.safetyPwd := rfl
@[simp] theorem State.setPanel_queue (f : Panel → Panel) : (s.setPanel f).queue = s.queue := rfl
@[simp] theorem State.setPanel_cmds (f : Panel → Panel) : (s.setPanel f).cmds = s.cmds := rfl
@[simp] theorem State.setPanel_responses (f : Panel → Panel) : (s.setPanel f).responses = s.responses := rfl
@[simp] theorem State.setPanel_raised (f : Panel → Panel) : (s.setPanel f).raised = s.raised := rfl
@[simp] theorem State.setPanel_due (f : Panel → Panel) : (s.setPanel f).due = s.due := rfl
@[simp] theorem State.setPanel_evOver (f : Panel → Panel) : (s.setPanel f).evOver = s.evOver := rfl
@[simp] theorem State.setPanel_merge (f : Panel → Panel) : (s.setPanel f).merge = s.merge := rfl
@[simp] theorem State.setPanel_sent (f : Panel → Panel) : (s.setPanel f).sent = s.sent := rfl
@[simp] theorem State.setPanel_snaps (f : Panel → Panel) : (s.setPanel f).snaps = s.snaps := rfl
@[simp] theorem State.setPanel_wp (f : Panel → Panel) : (s.setPanel f).wp = s.wp := rfl
@[simp] theorem State.setPanel_journal (f : Panel → Panel) : (s.setPanel f).journal = s.journal := rfl
@[simp] theorem State.setPanel_jseq (f : Panel → Panel) : (s.setPanel f).jseq = s.jseq := rfl
@[simp] theorem State.setPanel_jcur (f : Panel → Panel) : (s.setPanel f).jcur = s.jcur := rfl
@[simp] theorem State.setPanel_clog (f : Panel → Panel) : (s.setPanel f).clog = s.clog := rfl
@[simp] theorem State.setPanel_clgLast (f : Panel → Panel) : (s.setPanel f).clgLast = s.clgLast := rfl
@[simp] theorem State.setPanel_clgFirst (f : Panel → Panel) : (s.setPanel f).clgFirst = s.clgFirst := rfl
@[simp] theorem State.setPanel_clgAnchor (f : Panel → Panel) : (s.setPanel f).clgAnchor = s.clgAnchor := rfl
@[simp] theorem State.setPanel_clgCur (f : Panel → Panel) : (s.setPanel f).clgCur = s.clgCur := rfl
@[simp] theorem State.setPanel_bankA (f : Panel → Panel) : (s.setPanel f).bankA = s.bankA := rfl
@[simp] theorem State.setPanel_bankB (f : Panel → Panel) : (s.setPanel f).bankB = s.bankB := rfl
@[simp] theorem State.setPanel_bankWriting (f : Panel → Panel) : (s.setPanel f).bankWriting = s.bankWriting := rfl
@[simp] theorem State.setPanel_bankWaiting (f : Panel → Panel) : (s.setPanel f).bankWaiting = s.bankWaiting := rfl
@[simp] theorem State.setPanel_tokensAt (f : Panel → Panel) : (s.setPanel f).tokensAt = s.tokensAt := rfl
@[simp] theorem State.setPanel_freeCount (f : Panel → Panel) : (s.setPanel f).freeCount = s.freeCount := rfl

/-! ### modDomCmds -/

@[simp] theorem State.modDomCmds_pending (d : Nat) (f : DomainCmds → DomainCmds) : (s.modDomCmds d f).pending = s.pending := rfl
@[simp] theorem State.modDomCmds_now (d : Nat) (f : DomainCmds → DomainCmds) : (s.modDomCmds d f).now = s.now := rfl
@[simp] theorem State.modDomCmds_dev (d : Nat) (f : DomainCmds → DomainCmds) : (s.modDomCmds d f).dev = s.dev := rfl
@[simp] theorem State.modDomCmds_tc (d : Nat) (f : DomainCmds → DomainCmds) : (s.modDomCmds d f).tc = s.tc := rfl
@[simp] theorem State.modDomCmds_regs (d : Nat) (f : DomainCmds → DomainCmds) : (s.modDomCmds d f).regs = s.regs := rfl
@[simp] theorem State.modDomCmds_mregs (d : Nat) (f : DomainCmds → DomainCmds) : (s.modDomCmds d f).mregs = s.mregs := rfl
@[simp] theorem State.modDomCmds_boot (d : Nat) (f : DomainCmds → DomainCmds) : (s.modDomCmds d f).boot = s.boot := rfl
@[simp] theorem State.modDomCmds_fdUp (d : Nat) (f : DomainCmds → DomainCmds) : (s.modDomCmds d f).fdUp = s.fdUp := rfl
@[simp] theorem State.modDomCmds_ofe (d : Nat) (f : DomainCmds → DomainCmds) : (s.modDomCmds d f).ofe = s.ofe := rfl
@[simp] theorem State.modDomCmds_psy (d : Nat) (f : DomainCmds → DomainCmds) : (s.modDomCmds d f).psy = s.psy := rfl
@[simp] theorem State.modDomCmds_dmd (d : Nat) (f : DomainCmds → DomainCmds) : (s.modDomCmds d f).dmd = s.dmd := rfl
@[simp] theorem State.modDomCmds_lbq (d : Nat) (f : DomainCmds → DomainCmds) : (s.modDomCmds d f).lbq = s.lbq := rfl
@[simp] theorem State.modDomCmds_sensors (d : Nat) (f : DomainCmds → DomainCmds) : (s.modDomCmds d f).sensors = s.sensors := rfl
@[simp] theorem State.modDomCmds_cal (d : Nat) (f : DomainCmds → DomainCmds) : (s.modDomCmds d f).cal = s.cal := rfl
@[simp] theorem State.modDomCmds_hbTrims (d : Nat) (f : DomainCmds → DomainCmds) : (s.modDomCmds d f).hbTrims = s.hbTrims := rfl
@[simp] theorem State.modDomCmds_trimReports (d : Nat) (f : DomainCmds → DomainCmds) : (s.modDomCmds d f).trimReports = s.trimReports := rfl
@[simp] theorem State.modDomCmds_trimSince (d : Nat) (f : DomainCmds → DomainCmds) : (s.modDomCmds d f).trimSince = s.trimSince := rfl
@[simp] theorem State.modDomCmds_fdin (d : Nat) (f : DomainCmds → DomainCmds) : (s.modDomCmds d f).fdin = s.fdin := rfl
@[simp] theorem State.modDomCmds_outs (d : Nat) (f : DomainCmds → DomainCmds) : (s.modDomCmds d f).outs = s.outs := rfl
@[simp] theorem State.modDomCmds_mrg (d : Nat) (f : DomainCmds → DomainCmds) : (s.modDomCmds d f).mrg = s.mrg := rfl
@[simp] theorem State.modDomCmds_saf (d : Nat) (f : DomainCmds → DomainCmds) : (s.modDomCmds d f).saf = s.saf := rfl
@[simp] theorem State.modDomCmds_fds (d : Nat) (f : DomainCmds → DomainCmds) : (s.modDomCmds d f).fds = s.fds := rfl
@[simp] theorem State.modDomCmds_str (d : Nat) (f : DomainCmds → DomainCmds) : (s.modDomCmds d f).str = s.str := rfl
@[simp] theorem State.modDomCmds_tpr (d : Nat) (f : DomainCmds → DomainCmds) : (s.modDomCmds d f).tpr = s.tpr := rfl
@[simp] theorem State.modDomCmds_acw (d : Nat) (f : DomainCmds → DomainCmds) : (s.modDomCmds d f).acw = s.acw := rfl
@[simp] theorem State.modDomCmds_acwq (d : Nat) (f : DomainCmds → DomainCmds) : (s.modDomCmds d f).acwq = s.acwq := rfl
@[simp] theorem State.modDomCmds_frw (d : Nat) (f : DomainCmds → DomainCmds) : (s.modDomCmds d f).frw = s.frw := rfl
@[simp] theorem State.modDomCmds_links (d : Nat) (f : DomainCmds → DomainCmds) : (s.modDomCmds d f).links = s.links := rfl
@[simp] theorem State.modDomCmds_dma (d : Nat) (f : DomainCmds → DomainCmds) : (s.modDomCmds d f).dma = s.dma := rfl
@[simp] theorem State.modDomCmds_cvu (d : Nat) (f : DomainCmds → DomainCmds) : (s.modDomCmds d f).cvu = s.cvu := rfl
@[simp] theorem State.modDomCmds_panel (d : Nat) (f : DomainCmds → DomainCmds) : (s.modDomCmds d f).panel = s.panel := rfl
@[simp] theorem State.modDomCmds_mem (d : Nat) (f : DomainCmds → DomainCmds) : (s.modDomCmds d f).mem = s.mem := rfl
@[simp] theorem State.modDomCmds_lease (d : Nat) (f : DomainCmds → DomainCmds) : (s.modDomCmds d f).lease = s.lease := rfl
@[simp] theorem State.modDomCmds_frozen (d : Nat) (f : DomainCmds → DomainCmds) : (s.modDomCmds d f).frozen = s.frozen := rfl
@[simp] theorem State.modDomCmds_frzRecs (d : Nat) (f : DomainCmds → DomainCmds) : (s.modDomCmds d f).frzRecs = s.frzRecs := rfl
@[simp] theorem State.modDomCmds_frzOver (d : Nat) (f : DomainCmds → DomainCmds) : (s.modDomCmds d f).frzOver = s.frzOver := rfl
@[simp] theorem State.modDomCmds_maintPwd (d : Nat) (f : DomainCmds → DomainCmds) : (s.modDomCmds d f).maintPwd = s.maintPwd := rfl
@[simp] theorem State.modDomCmds_safetyPwd (d : Nat) (f : DomainCmds → DomainCmds) : (s.modDomCmds d f).safetyPwd = s.safetyPwd := rfl
@[simp] theorem State.modDomCmds_queue (d : Nat) (f : DomainCmds → DomainCmds) : (s.modDomCmds d f).queue = s.queue := rfl
@[simp] theorem State.modDomCmds_cmds (d : Nat) (f : DomainCmds → DomainCmds) : (s.modDomCmds d f).cmds = tset s.cmds d (f (s.domCmds d)) := rfl
@[simp] theorem State.modDomCmds_responses (d : Nat) (f : DomainCmds → DomainCmds) : (s.modDomCmds d f).responses = s.responses := rfl
@[simp] theorem State.modDomCmds_raised (d : Nat) (f : DomainCmds → DomainCmds) : (s.modDomCmds d f).raised = s.raised := rfl
@[simp] theorem State.modDomCmds_due (d : Nat) (f : DomainCmds → DomainCmds) : (s.modDomCmds d f).due = s.due := rfl
@[simp] theorem State.modDomCmds_evOver (d : Nat) (f : DomainCmds → DomainCmds) : (s.modDomCmds d f).evOver = s.evOver := rfl
@[simp] theorem State.modDomCmds_merge (d : Nat) (f : DomainCmds → DomainCmds) : (s.modDomCmds d f).merge = s.merge := rfl
@[simp] theorem State.modDomCmds_sent (d : Nat) (f : DomainCmds → DomainCmds) : (s.modDomCmds d f).sent = s.sent := rfl
@[simp] theorem State.modDomCmds_snaps (d : Nat) (f : DomainCmds → DomainCmds) : (s.modDomCmds d f).snaps = s.snaps := rfl
@[simp] theorem State.modDomCmds_wp (d : Nat) (f : DomainCmds → DomainCmds) : (s.modDomCmds d f).wp = s.wp := rfl
@[simp] theorem State.modDomCmds_journal (d : Nat) (f : DomainCmds → DomainCmds) : (s.modDomCmds d f).journal = s.journal := rfl
@[simp] theorem State.modDomCmds_jseq (d : Nat) (f : DomainCmds → DomainCmds) : (s.modDomCmds d f).jseq = s.jseq := rfl
@[simp] theorem State.modDomCmds_jcur (d : Nat) (f : DomainCmds → DomainCmds) : (s.modDomCmds d f).jcur = s.jcur := rfl
@[simp] theorem State.modDomCmds_clog (d : Nat) (f : DomainCmds → DomainCmds) : (s.modDomCmds d f).clog = s.clog := rfl
@[simp] theorem State.modDomCmds_clgLast (d : Nat) (f : DomainCmds → DomainCmds) : (s.modDomCmds d f).clgLast = s.clgLast := rfl
@[simp] theorem State.modDomCmds_clgFirst (d : Nat) (f : DomainCmds → DomainCmds) : (s.modDomCmds d f).clgFirst = s.clgFirst := rfl
@[simp] theorem State.modDomCmds_clgAnchor (d : Nat) (f : DomainCmds → DomainCmds) : (s.modDomCmds d f).clgAnchor = s.clgAnchor := rfl
@[simp] theorem State.modDomCmds_clgCur (d : Nat) (f : DomainCmds → DomainCmds) : (s.modDomCmds d f).clgCur = s.clgCur := rfl
@[simp] theorem State.modDomCmds_bankA (d : Nat) (f : DomainCmds → DomainCmds) : (s.modDomCmds d f).bankA = s.bankA := rfl
@[simp] theorem State.modDomCmds_bankB (d : Nat) (f : DomainCmds → DomainCmds) : (s.modDomCmds d f).bankB = s.bankB := rfl
@[simp] theorem State.modDomCmds_bankWriting (d : Nat) (f : DomainCmds → DomainCmds) : (s.modDomCmds d f).bankWriting = s.bankWriting := rfl
@[simp] theorem State.modDomCmds_bankWaiting (d : Nat) (f : DomainCmds → DomainCmds) : (s.modDomCmds d f).bankWaiting = s.bankWaiting := rfl
@[simp] theorem State.modDomCmds_tokensAt (d : Nat) (f : DomainCmds → DomainCmds) : (s.modDomCmds d f).tokensAt = s.tokensAt := rfl
@[simp] theorem State.modDomCmds_freeCount (d : Nat) (f : DomainCmds → DomainCmds) : (s.modDomCmds d f).freeCount = s.freeCount := rfl

/-! ### setJCursor -/

@[simp] theorem State.setJCursor_pending (m : Master) (c : LogCursor) : (s.setJCursor m c).pending = s.pending := rfl
@[simp] theorem State.setJCursor_now (m : Master) (c : LogCursor) : (s.setJCursor m c).now = s.now := rfl
@[simp] theorem State.setJCursor_dev (m : Master) (c : LogCursor) : (s.setJCursor m c).dev = s.dev := rfl
@[simp] theorem State.setJCursor_tc (m : Master) (c : LogCursor) : (s.setJCursor m c).tc = s.tc := rfl
@[simp] theorem State.setJCursor_regs (m : Master) (c : LogCursor) : (s.setJCursor m c).regs = s.regs := rfl
@[simp] theorem State.setJCursor_mregs (m : Master) (c : LogCursor) : (s.setJCursor m c).mregs = s.mregs := rfl
@[simp] theorem State.setJCursor_boot (m : Master) (c : LogCursor) : (s.setJCursor m c).boot = s.boot := rfl
@[simp] theorem State.setJCursor_fdUp (m : Master) (c : LogCursor) : (s.setJCursor m c).fdUp = s.fdUp := rfl
@[simp] theorem State.setJCursor_ofe (m : Master) (c : LogCursor) : (s.setJCursor m c).ofe = s.ofe := rfl
@[simp] theorem State.setJCursor_psy (m : Master) (c : LogCursor) : (s.setJCursor m c).psy = s.psy := rfl
@[simp] theorem State.setJCursor_dmd (m : Master) (c : LogCursor) : (s.setJCursor m c).dmd = s.dmd := rfl
@[simp] theorem State.setJCursor_lbq (m : Master) (c : LogCursor) : (s.setJCursor m c).lbq = s.lbq := rfl
@[simp] theorem State.setJCursor_sensors (m : Master) (c : LogCursor) : (s.setJCursor m c).sensors = s.sensors := rfl
@[simp] theorem State.setJCursor_cal (m : Master) (c : LogCursor) : (s.setJCursor m c).cal = s.cal := rfl
@[simp] theorem State.setJCursor_hbTrims (m : Master) (c : LogCursor) : (s.setJCursor m c).hbTrims = s.hbTrims := rfl
@[simp] theorem State.setJCursor_trimReports (m : Master) (c : LogCursor) : (s.setJCursor m c).trimReports = s.trimReports := rfl
@[simp] theorem State.setJCursor_trimSince (m : Master) (c : LogCursor) : (s.setJCursor m c).trimSince = s.trimSince := rfl
@[simp] theorem State.setJCursor_fdin (m : Master) (c : LogCursor) : (s.setJCursor m c).fdin = s.fdin := rfl
@[simp] theorem State.setJCursor_outs (m : Master) (c : LogCursor) : (s.setJCursor m c).outs = s.outs := rfl
@[simp] theorem State.setJCursor_mrg (m : Master) (c : LogCursor) : (s.setJCursor m c).mrg = s.mrg := rfl
@[simp] theorem State.setJCursor_saf (m : Master) (c : LogCursor) : (s.setJCursor m c).saf = s.saf := rfl
@[simp] theorem State.setJCursor_fds (m : Master) (c : LogCursor) : (s.setJCursor m c).fds = s.fds := rfl
@[simp] theorem State.setJCursor_str (m : Master) (c : LogCursor) : (s.setJCursor m c).str = s.str := rfl
@[simp] theorem State.setJCursor_tpr (m : Master) (c : LogCursor) : (s.setJCursor m c).tpr = s.tpr := rfl
@[simp] theorem State.setJCursor_acw (m : Master) (c : LogCursor) : (s.setJCursor m c).acw = s.acw := rfl
@[simp] theorem State.setJCursor_acwq (m : Master) (c : LogCursor) : (s.setJCursor m c).acwq = s.acwq := rfl
@[simp] theorem State.setJCursor_frw (m : Master) (c : LogCursor) : (s.setJCursor m c).frw = s.frw := rfl
@[simp] theorem State.setJCursor_links (m : Master) (c : LogCursor) : (s.setJCursor m c).links = s.links := rfl
@[simp] theorem State.setJCursor_dma (m : Master) (c : LogCursor) : (s.setJCursor m c).dma = s.dma := rfl
@[simp] theorem State.setJCursor_cvu (m : Master) (c : LogCursor) : (s.setJCursor m c).cvu = s.cvu := rfl
@[simp] theorem State.setJCursor_panel (m : Master) (c : LogCursor) : (s.setJCursor m c).panel = s.panel := rfl
@[simp] theorem State.setJCursor_mem (m : Master) (c : LogCursor) : (s.setJCursor m c).mem = s.mem := rfl
@[simp] theorem State.setJCursor_lease (m : Master) (c : LogCursor) : (s.setJCursor m c).lease = s.lease := rfl
@[simp] theorem State.setJCursor_frozen (m : Master) (c : LogCursor) : (s.setJCursor m c).frozen = s.frozen := rfl
@[simp] theorem State.setJCursor_frzRecs (m : Master) (c : LogCursor) : (s.setJCursor m c).frzRecs = s.frzRecs := rfl
@[simp] theorem State.setJCursor_frzOver (m : Master) (c : LogCursor) : (s.setJCursor m c).frzOver = s.frzOver := rfl
@[simp] theorem State.setJCursor_maintPwd (m : Master) (c : LogCursor) : (s.setJCursor m c).maintPwd = s.maintPwd := rfl
@[simp] theorem State.setJCursor_safetyPwd (m : Master) (c : LogCursor) : (s.setJCursor m c).safetyPwd = s.safetyPwd := rfl
@[simp] theorem State.setJCursor_queue (m : Master) (c : LogCursor) : (s.setJCursor m c).queue = s.queue := rfl
@[simp] theorem State.setJCursor_cmds (m : Master) (c : LogCursor) : (s.setJCursor m c).cmds = s.cmds := rfl
@[simp] theorem State.setJCursor_responses (m : Master) (c : LogCursor) : (s.setJCursor m c).responses = s.responses := rfl
@[simp] theorem State.setJCursor_raised (m : Master) (c : LogCursor) : (s.setJCursor m c).raised = s.raised := rfl
@[simp] theorem State.setJCursor_due (m : Master) (c : LogCursor) : (s.setJCursor m c).due = s.due := rfl
@[simp] theorem State.setJCursor_evOver (m : Master) (c : LogCursor) : (s.setJCursor m c).evOver = s.evOver := rfl
@[simp] theorem State.setJCursor_merge (m : Master) (c : LogCursor) : (s.setJCursor m c).merge = s.merge := rfl
@[simp] theorem State.setJCursor_sent (m : Master) (c : LogCursor) : (s.setJCursor m c).sent = s.sent := rfl
@[simp] theorem State.setJCursor_snaps (m : Master) (c : LogCursor) : (s.setJCursor m c).snaps = s.snaps := rfl
@[simp] theorem State.setJCursor_wp (m : Master) (c : LogCursor) : (s.setJCursor m c).wp = s.wp := rfl
@[simp] theorem State.setJCursor_journal (m : Master) (c : LogCursor) : (s.setJCursor m c).journal = s.journal := rfl
@[simp] theorem State.setJCursor_jseq (m : Master) (c : LogCursor) : (s.setJCursor m c).jseq = s.jseq := rfl
@[simp] theorem State.setJCursor_jcur (m : Master) (c : LogCursor) : (s.setJCursor m c).jcur = tset s.jcur (masterCode m) c := rfl
@[simp] theorem State.setJCursor_clog (m : Master) (c : LogCursor) : (s.setJCursor m c).clog = s.clog := rfl
@[simp] theorem State.setJCursor_clgLast (m : Master) (c : LogCursor) : (s.setJCursor m c).clgLast = s.clgLast := rfl
@[simp] theorem State.setJCursor_clgFirst (m : Master) (c : LogCursor) : (s.setJCursor m c).clgFirst = s.clgFirst := rfl
@[simp] theorem State.setJCursor_clgAnchor (m : Master) (c : LogCursor) : (s.setJCursor m c).clgAnchor = s.clgAnchor := rfl
@[simp] theorem State.setJCursor_clgCur (m : Master) (c : LogCursor) : (s.setJCursor m c).clgCur = s.clgCur := rfl
@[simp] theorem State.setJCursor_bankA (m : Master) (c : LogCursor) : (s.setJCursor m c).bankA = s.bankA := rfl
@[simp] theorem State.setJCursor_bankB (m : Master) (c : LogCursor) : (s.setJCursor m c).bankB = s.bankB := rfl
@[simp] theorem State.setJCursor_bankWriting (m : Master) (c : LogCursor) : (s.setJCursor m c).bankWriting = s.bankWriting := rfl
@[simp] theorem State.setJCursor_bankWaiting (m : Master) (c : LogCursor) : (s.setJCursor m c).bankWaiting = s.bankWaiting := rfl
@[simp] theorem State.setJCursor_tokensAt (m : Master) (c : LogCursor) : (s.setJCursor m c).tokensAt = s.tokensAt := rfl
@[simp] theorem State.setJCursor_freeCount (m : Master) (c : LogCursor) : (s.setJCursor m c).freeCount = s.freeCount := rfl

/-! ### setCCursor -/

@[simp] theorem State.setCCursor_pending (m : Master) (c : LogCursor) : (s.setCCursor m c).pending = s.pending := rfl
@[simp] theorem State.setCCursor_now (m : Master) (c : LogCursor) : (s.setCCursor m c).now = s.now := rfl
@[simp] theorem State.setCCursor_dev (m : Master) (c : LogCursor) : (s.setCCursor m c).dev = s.dev := rfl
@[simp] theorem State.setCCursor_tc (m : Master) (c : LogCursor) : (s.setCCursor m c).tc = s.tc := rfl
@[simp] theorem State.setCCursor_regs (m : Master) (c : LogCursor) : (s.setCCursor m c).regs = s.regs := rfl
@[simp] theorem State.setCCursor_mregs (m : Master) (c : LogCursor) : (s.setCCursor m c).mregs = s.mregs := rfl
@[simp] theorem State.setCCursor_boot (m : Master) (c : LogCursor) : (s.setCCursor m c).boot = s.boot := rfl
@[simp] theorem State.setCCursor_fdUp (m : Master) (c : LogCursor) : (s.setCCursor m c).fdUp = s.fdUp := rfl
@[simp] theorem State.setCCursor_ofe (m : Master) (c : LogCursor) : (s.setCCursor m c).ofe = s.ofe := rfl
@[simp] theorem State.setCCursor_psy (m : Master) (c : LogCursor) : (s.setCCursor m c).psy = s.psy := rfl
@[simp] theorem State.setCCursor_dmd (m : Master) (c : LogCursor) : (s.setCCursor m c).dmd = s.dmd := rfl
@[simp] theorem State.setCCursor_lbq (m : Master) (c : LogCursor) : (s.setCCursor m c).lbq = s.lbq := rfl
@[simp] theorem State.setCCursor_sensors (m : Master) (c : LogCursor) : (s.setCCursor m c).sensors = s.sensors := rfl
@[simp] theorem State.setCCursor_cal (m : Master) (c : LogCursor) : (s.setCCursor m c).cal = s.cal := rfl
@[simp] theorem State.setCCursor_hbTrims (m : Master) (c : LogCursor) : (s.setCCursor m c).hbTrims = s.hbTrims := rfl
@[simp] theorem State.setCCursor_trimReports (m : Master) (c : LogCursor) : (s.setCCursor m c).trimReports = s.trimReports := rfl
@[simp] theorem State.setCCursor_trimSince (m : Master) (c : LogCursor) : (s.setCCursor m c).trimSince = s.trimSince := rfl
@[simp] theorem State.setCCursor_fdin (m : Master) (c : LogCursor) : (s.setCCursor m c).fdin = s.fdin := rfl
@[simp] theorem State.setCCursor_outs (m : Master) (c : LogCursor) : (s.setCCursor m c).outs = s.outs := rfl
@[simp] theorem State.setCCursor_mrg (m : Master) (c : LogCursor) : (s.setCCursor m c).mrg = s.mrg := rfl
@[simp] theorem State.setCCursor_saf (m : Master) (c : LogCursor) : (s.setCCursor m c).saf = s.saf := rfl
@[simp] theorem State.setCCursor_fds (m : Master) (c : LogCursor) : (s.setCCursor m c).fds = s.fds := rfl
@[simp] theorem State.setCCursor_str (m : Master) (c : LogCursor) : (s.setCCursor m c).str = s.str := rfl
@[simp] theorem State.setCCursor_tpr (m : Master) (c : LogCursor) : (s.setCCursor m c).tpr = s.tpr := rfl
@[simp] theorem State.setCCursor_acw (m : Master) (c : LogCursor) : (s.setCCursor m c).acw = s.acw := rfl
@[simp] theorem State.setCCursor_acwq (m : Master) (c : LogCursor) : (s.setCCursor m c).acwq = s.acwq := rfl
@[simp] theorem State.setCCursor_frw (m : Master) (c : LogCursor) : (s.setCCursor m c).frw = s.frw := rfl
@[simp] theorem State.setCCursor_links (m : Master) (c : LogCursor) : (s.setCCursor m c).links = s.links := rfl
@[simp] theorem State.setCCursor_dma (m : Master) (c : LogCursor) : (s.setCCursor m c).dma = s.dma := rfl
@[simp] theorem State.setCCursor_cvu (m : Master) (c : LogCursor) : (s.setCCursor m c).cvu = s.cvu := rfl
@[simp] theorem State.setCCursor_panel (m : Master) (c : LogCursor) : (s.setCCursor m c).panel = s.panel := rfl
@[simp] theorem State.setCCursor_mem (m : Master) (c : LogCursor) : (s.setCCursor m c).mem = s.mem := rfl
@[simp] theorem State.setCCursor_lease (m : Master) (c : LogCursor) : (s.setCCursor m c).lease = s.lease := rfl
@[simp] theorem State.setCCursor_frozen (m : Master) (c : LogCursor) : (s.setCCursor m c).frozen = s.frozen := rfl
@[simp] theorem State.setCCursor_frzRecs (m : Master) (c : LogCursor) : (s.setCCursor m c).frzRecs = s.frzRecs := rfl
@[simp] theorem State.setCCursor_frzOver (m : Master) (c : LogCursor) : (s.setCCursor m c).frzOver = s.frzOver := rfl
@[simp] theorem State.setCCursor_maintPwd (m : Master) (c : LogCursor) : (s.setCCursor m c).maintPwd = s.maintPwd := rfl
@[simp] theorem State.setCCursor_safetyPwd (m : Master) (c : LogCursor) : (s.setCCursor m c).safetyPwd = s.safetyPwd := rfl
@[simp] theorem State.setCCursor_queue (m : Master) (c : LogCursor) : (s.setCCursor m c).queue = s.queue := rfl
@[simp] theorem State.setCCursor_cmds (m : Master) (c : LogCursor) : (s.setCCursor m c).cmds = s.cmds := rfl
@[simp] theorem State.setCCursor_responses (m : Master) (c : LogCursor) : (s.setCCursor m c).responses = s.responses := rfl
@[simp] theorem State.setCCursor_raised (m : Master) (c : LogCursor) : (s.setCCursor m c).raised = s.raised := rfl
@[simp] theorem State.setCCursor_due (m : Master) (c : LogCursor) : (s.setCCursor m c).due = s.due := rfl
@[simp] theorem State.setCCursor_evOver (m : Master) (c : LogCursor) : (s.setCCursor m c).evOver = s.evOver := rfl
@[simp] theorem State.setCCursor_merge (m : Master) (c : LogCursor) : (s.setCCursor m c).merge = s.merge := rfl
@[simp] theorem State.setCCursor_sent (m : Master) (c : LogCursor) : (s.setCCursor m c).sent = s.sent := rfl
@[simp] theorem State.setCCursor_snaps (m : Master) (c : LogCursor) : (s.setCCursor m c).snaps = s.snaps := rfl
@[simp] theorem State.setCCursor_wp (m : Master) (c : LogCursor) : (s.setCCursor m c).wp = s.wp := rfl
@[simp] theorem State.setCCursor_journal (m : Master) (c : LogCursor) : (s.setCCursor m c).journal = s.journal := rfl
@[simp] theorem State.setCCursor_jseq (m : Master) (c : LogCursor) : (s.setCCursor m c).jseq = s.jseq := rfl
@[simp] theorem State.setCCursor_jcur (m : Master) (c : LogCursor) : (s.setCCursor m c).jcur = s.jcur := rfl
@[simp] theorem State.setCCursor_clog (m : Master) (c : LogCursor) : (s.setCCursor m c).clog = s.clog := rfl
@[simp] theorem State.setCCursor_clgLast (m : Master) (c : LogCursor) : (s.setCCursor m c).clgLast = s.clgLast := rfl
@[simp] theorem State.setCCursor_clgFirst (m : Master) (c : LogCursor) : (s.setCCursor m c).clgFirst = s.clgFirst := rfl
@[simp] theorem State.setCCursor_clgAnchor (m : Master) (c : LogCursor) : (s.setCCursor m c).clgAnchor = s.clgAnchor := rfl
@[simp] theorem State.setCCursor_clgCur (m : Master) (c : LogCursor) : (s.setCCursor m c).clgCur = tset s.clgCur (masterCode m) c := rfl
@[simp] theorem State.setCCursor_bankA (m : Master) (c : LogCursor) : (s.setCCursor m c).bankA = s.bankA := rfl
@[simp] theorem State.setCCursor_bankB (m : Master) (c : LogCursor) : (s.setCCursor m c).bankB = s.bankB := rfl
@[simp] theorem State.setCCursor_bankWriting (m : Master) (c : LogCursor) : (s.setCCursor m c).bankWriting = s.bankWriting := rfl
@[simp] theorem State.setCCursor_bankWaiting (m : Master) (c : LogCursor) : (s.setCCursor m c).bankWaiting = s.bankWaiting := rfl
@[simp] theorem State.setCCursor_tokensAt (m : Master) (c : LogCursor) : (s.setCCursor m c).tokensAt = s.tokensAt := rfl
@[simp] theorem State.setCCursor_freeCount (m : Master) (c : LogCursor) : (s.setCCursor m c).freeCount = s.freeCount := rfl

end Sys2Proof.Machine
end

