-- ==== Sys2Proof/Laws/Parts.lean ====
section
/-!
SUPPORT. The algebra of what stays unchanged: OnlyParts is an equivalence that grows with its list, and passes through tests and
repetitions.
-/
namespace Sys2Proof.Machine

@[simp] theorem Part.same_refl (p : Part) (s : State) : p.same s s := by cases p <;> simp [Part.same]

theorem Part.same_trans {p : Part} {s t u : State} (h : p.same s t) (k : p.same t u) : p.same s u := by
  cases p <;> simp_all [Part.same]

theorem Part.same_symm {p : Part} {s t : State} (h : p.same s t) : p.same t s := by
  cases p <;> simp_all [Part.same]

@[simp] theorem OnlyParts.refl (ps : List Part) (s : State) : OnlyParts ps s s := ⟨fun p _ => p.same_refl s⟩

theorem OnlyParts.trans {ps : List Part} {s t u : State} (h : OnlyParts ps s t) (k : OnlyParts ps t u) : OnlyParts ps s u :=
  ⟨fun p hp => Part.same_trans (h.same p hp) (k.same p hp)⟩

theorem OnlyParts.symm {ps : List Part} {s t : State} (h : OnlyParts ps s t) : OnlyParts ps t s :=
  ⟨fun p hp => Part.same_symm (h.same p hp)⟩

/-- Every part of one list stands in the other. -/
def within (ps qs : List Part) : Bool := ps.all qs.contains

theorem within.trans {ps qs rs : List Part} (h : within ps qs = true) (k : within qs rs = true) : within ps rs = true := by
  simp only [within, List.all_eq_true, List.contains_iff_mem] at *
  exact fun p hp => k p (h p hp)

theorem OnlyParts.mono {ps qs : List Part} {s t : State} (h : OnlyParts ps s t) (hs : within ps qs = true) : OnlyParts qs s t := by
  refine ⟨fun p hp => h.same p fun hm => hp ?_⟩
  simp [within] at hs
  exact hs p hm

/-- A change of listed parts can be put in or left out. -/
theorem OnlyParts.through {ps qs : List Part} {r s t : State} (k : OnlyParts ps s t) (hs : within ps qs = true) :
    OnlyParts qs r t ↔ OnlyParts qs r s :=
  ⟨fun h => h.trans (k.mono hs).symm, fun h => h.trans (k.mono hs)⟩

@[simp] theorem ite_parts {ps : List Part} {r t u : State} {c : Prop} [Decidable c] :
    OnlyParts ps r (if c then t else u) ↔ if c then OnlyParts ps r t else OnlyParts ps r u := by split <;> rfl

@[simp] theorem State.when_parts {ps : List Part} {r s : State} {b : Bool} {f : State → State} (k : OnlyParts ps s (f s)) :
    OnlyParts ps r (s.when b f) ↔ OnlyParts ps r s := by
  unfold State.when
  split
  · exact OnlyParts.through k (by simp [within])
  · rfl

@[simp] theorem foldl_parts {α : Type} {ps : List Part} {r t : State} {f : State → α → State} {l : List α}
    (k : ∀ x u, OnlyParts ps u (f u x)) : OnlyParts ps r (l.foldl f t) ↔ OnlyParts ps r t := by
  induction l generalizing t with
  | nil => rfl
  | cons a l ih => exact ih.trans (OnlyParts.through (k a t) (by simp [within]))

/-! ### One field of the state replaced -/

@[simp] theorem State.with_pending_parts {ps : List Part} {r t : State} {x : List Instr} (h : within [.pending] ps = true) :
    OnlyParts ps r { t with pending := x } ↔ OnlyParts ps r t :=
  OnlyParts.through ⟨fun p hp => by cases p <;> first | exact absurd (by decide) hp | simp [Part.same]⟩ h

@[simp] theorem State.with_now_parts {ps : List Part} {r t : State} {x : Nat} (h : within [.time] ps = true) :
    OnlyParts ps r { t with now := x } ↔ OnlyParts ps r t :=
  OnlyParts.through ⟨fun p hp => by cases p <;> first | exact absurd (by decide) hp | simp [Part.same]⟩ h

@[simp] theorem State.with_dev_parts {ps : List Part} {r t : State} {x : DeviceState} (h : within [.dev] ps = true) :
    OnlyParts ps r { t with dev := x } ↔ OnlyParts ps r t :=
  OnlyParts.through ⟨fun p hp => by cases p <;> first | exact absurd (by decide) hp | simp [Part.same]⟩ h

@[simp] theorem State.with_tc_parts {ps : List Part} {r t : State} {x : TownClock} (h : within [.time] ps = true) :
    OnlyParts ps r { t with tc := x } ↔ OnlyParts ps r t :=
  OnlyParts.through ⟨fun p hp => by cases p <;> first | exact absurd (by decide) hp | simp [Part.same]⟩ h

@[simp] theorem State.with_regs_parts {ps : List Part} {r t : State} {x : Table Word} (h : within [.regs] ps = true) :
    OnlyParts ps r { t with regs := x } ↔ OnlyParts ps r t :=
  OnlyParts.through ⟨fun p hp => by cases p <;> first | exact absurd (by decide) hp | simp [Part.same]⟩ h

@[simp] theorem State.with_mregs_parts {ps : List Part} {r t : State} {x : Table Word} (h : within [.copies] ps = true) :
    OnlyParts ps r { t with mregs := x } ↔ OnlyParts ps r t :=
  OnlyParts.through ⟨fun p hp => by cases p <;> first | exact absurd (by decide) hp | simp [Part.same]⟩ h

@[simp] theorem State.with_boot_parts {ps : List Part} {r t : State} {x : Boot} (h : within [.boot] ps = true) :
    OnlyParts ps r { t with boot := x } ↔ OnlyParts ps r t :=
  OnlyParts.through ⟨fun p hp => by cases p <;> first | exact absurd (by decide) hp | simp [Part.same]⟩ h

@[simp] theorem State.with_fdUp_parts {ps : List Part} {r t : State} {x : Bool} (h : within [.fdUp] ps = true) :
    OnlyParts ps r { t with fdUp := x } ↔ OnlyParts ps r t :=
  OnlyParts.through ⟨fun p hp => by cases p <;> first | exact absurd (by decide) hp | simp [Part.same]⟩ h

@[simp] theorem State.with_ofe_parts {ps : List Part} {r t : State} {x : Table Ofe} (h : within [.ofe] ps = true) :
    OnlyParts ps r { t with ofe := x } ↔ OnlyParts ps r t :=
  OnlyParts.through ⟨fun p hp => by cases p <;> first | exact absurd (by decide) hp | simp [Part.same]⟩ h

@[simp] theorem State.with_psy_parts {ps : List Part} {r t : State} {x : Table Psy} (h : within [.psy] ps = true) :
    OnlyParts ps r { t with psy := x } ↔ OnlyParts ps r t :=
  OnlyParts.through ⟨fun p hp => by cases p <;> first | exact absurd (by decide) hp | simp [Part.same]⟩ h

@[simp] theorem State.with_dmd_parts {ps : List Part} {r t : State} {x : Table Demod} (h : within [.dmd] ps = true) :
    OnlyParts ps r { t with dmd := x } ↔ OnlyParts ps r t :=
  OnlyParts.through ⟨fun p hp => by cases p <;> first | exact absurd (by decide) hp | simp [Part.same]⟩ h

@[simp] theorem State.with_lbq_parts {ps : List Part} {r t : State} {x : Table DieLbq} (h : within [.lbq] ps = true) :
    OnlyParts ps r { t with lbq := x } ↔ OnlyParts ps r t :=
  OnlyParts.through ⟨fun p hp => by cases p <;> first | exact absurd (by decide) hp | simp [Part.same]⟩ h

@[simp] theorem State.with_sensors_parts {ps : List Part} {r t : State} {x : Table Sensor} (h : within [.sensors] ps = true) :
    OnlyParts ps r { t with sensors := x } ↔ OnlyParts ps r t :=
  OnlyParts.through ⟨fun p hp => by cases p <;> first | exact absurd (by decide) hp | simp [Part.same]⟩ h

@[simp] theorem State.with_cal_parts {ps : List Part} {r t : State} {x : Table CalPort} (h : within [.cal] ps = true) :
    OnlyParts ps r { t with cal := x } ↔ OnlyParts ps r t :=
  OnlyParts.through ⟨fun p hp => by cases p <;> first | exact absurd (by decide) hp | simp [Part.same]⟩ h

@[simp] theorem State.with_hbTrims_parts {ps : List Part} {r t : State} {x : Table Int} (h : within [.trims] ps = true) :
    OnlyParts ps r { t with hbTrims := x } ↔ OnlyParts ps r t :=
  OnlyParts.through ⟨fun p hp => by cases p <;> first | exact absurd (by decide) hp | simp [Part.same]⟩ h

@[simp] theorem State.with_trimReports_parts {ps : List Part} {r t : State} {x : List (Nat × Int)} (h : within [.trims] ps = true) :
    OnlyParts ps r { t with trimReports := x } ↔ OnlyParts ps r t :=
  OnlyParts.through ⟨fun p hp => by cases p <;> first | exact absurd (by decide) hp | simp [Part.same]⟩ h

@[simp] theorem State.with_trimSince_parts {ps : List Part} {r t : State} {x : Option Nat} (h : within [.trims] ps = true) :
    OnlyParts ps r { t with trimSince := x } ↔ OnlyParts ps r t :=
  OnlyParts.through ⟨fun p hp => by cases p <;> first | exact absurd (by decide) hp | simp [Part.same]⟩ h

@[simp] theorem State.with_fdin_parts {ps : List Part} {r t : State} {x : FieldInputs} (h : within [.fdin] ps = true) :
    OnlyParts ps r { t with fdin := x } ↔ OnlyParts ps r t :=
  OnlyParts.through ⟨fun p hp => by cases p <;> first | exact absurd (by decide) hp | simp [Part.same]⟩ h

@[simp] theorem State.with_outs_parts {ps : List Part} {r t : State} {x : Outputs} (h : within [.outs] ps = true) :
    OnlyParts ps r { t with outs := x } ↔ OnlyParts ps r t :=
  OnlyParts.through ⟨fun p hp => by cases p <;> first | exact absurd (by decide) hp | simp [Part.same]⟩ h

@[simp] theorem State.with_mrg_parts {ps : List Part} {r t : State} {x : Merge} (h : within [.mrg] ps = true) :
    OnlyParts ps r { t with mrg := x } ↔ OnlyParts ps r t :=
  OnlyParts.through ⟨fun p hp => by cases p <;> first | exact absurd (by decide) hp | simp [Part.same]⟩ h

@[simp] theorem State.with_saf_parts {ps : List Part} {r t : State} {x : Saf} (h : within [.saf] ps = true) :
    OnlyParts ps r { t with saf := x } ↔ OnlyParts ps r t :=
  OnlyParts.through ⟨fun p hp => by cases p <;> first | exact absurd (by decide) hp | simp [Part.same]⟩ h

@[simp] theorem State.with_fds_parts {ps : List Part} {r t : State} {x : FdSafe} (h : within [.fds] ps = true) :
    OnlyParts ps r { t with fds := x } ↔ OnlyParts ps r t :=
  OnlyParts.through ⟨fun p hp => by cases p <;> first | exact absurd (by decide) hp | simp [Part.same]⟩ h

@[simp] theorem State.with_str_parts {ps : List Part} {r t : State} {x : Str} (h : within [.str] ps = true) :
    OnlyParts ps r { t with str := x } ↔ OnlyParts ps r t :=
  OnlyParts.through ⟨fun p hp => by cases p <;> first | exact absurd (by decide) hp | simp [Part.same]⟩ h

@[simp] theorem State.with_tpr_parts {ps : List Part} {r t : State} {x : Table TprPort} (h : within [.tpr] ps = true) :
    OnlyParts ps r { t with tpr := x } ↔ OnlyParts ps r t :=
  OnlyParts.through ⟨fun p hp => by cases p <;> first | exact absurd (by decide) hp | simp [Part.same]⟩ h

@[simp] theorem State.with_acw_parts {ps : List Part} {r t : State} {x : Table AcwRun} (h : within [.acw] ps = true) :
    OnlyParts ps r { t with acw := x } ↔ OnlyParts ps r t :=
  OnlyParts.through ⟨fun p hp => by cases p <;> first | exact absurd (by decide) hp | simp [Part.same]⟩ h

@[simp] theorem State.with_acwq_parts {ps : List Part} {r t : State} {x : Table (List AcwOut)} (h : within [.acw] ps = true) :
    OnlyParts ps r { t with acwq := x } ↔ OnlyParts ps r t :=
  OnlyParts.through ⟨fun p hp => by cases p <;> first | exact absurd (by decide) hp | simp [Part.same]⟩ h

@[simp] theorem State.with_frw_parts {ps : List Part} {r t : State} {x : Frw} (h : within [.frw] ps = true) :
    OnlyParts ps r { t with frw := x } ↔ OnlyParts ps r t :=
  OnlyParts.through ⟨fun p hp => by cases p <;> first | exact absurd (by decide) hp | simp [Part.same]⟩ h

@[simp] theorem State.with_links_parts {ps : List Part} {r t : State} {x : Links} (h : within [.links] ps = true) :
    OnlyParts ps r { t with links := x } ↔ OnlyParts ps r t :=
  OnlyParts.through ⟨fun p hp => by cases p <;> first | exact absurd (by decide) hp | simp [Part.same]⟩ h

@[simp] theorem State.with_dma_parts {ps : List Part} {r t : State} {x : Table DmaEng} (h : within [.dma] ps = true) :
    OnlyParts ps r { t with dma := x } ↔ OnlyParts ps r t :=
  OnlyParts.through ⟨fun p hp => by cases p <;> first | exact absurd (by decide) hp | simp [Part.same]⟩ h

@[simp] theorem State.with_cvu_parts {ps : List Part} {r t : State} {x : Table Cvu} (h : within [.cvu] ps = true) :
    OnlyParts ps r { t with cvu := x } ↔ OnlyParts ps r t :=
  OnlyParts.through ⟨fun p hp => by cases p <;> first | exact absurd (by decide) hp | simp [Part.same]⟩ h

@[simp] theorem State.with_panel_parts {ps : List Part} {r t : State} {x : Panel} (h : within [.panel] ps = true) :
    OnlyParts ps r { t with panel := x } ↔ OnlyParts ps r t :=
  OnlyParts.through ⟨fun p hp => by cases p <;> first | exact absurd (by decide) hp | simp [Part.same]⟩ h

@[simp] theorem State.with_mem_parts {ps : List Part} {r t : State} {x : List Host.Cell} (h : within [.mem] ps = true) :
    OnlyParts ps r { t with mem := x } ↔ OnlyParts ps r t :=
  OnlyParts.through ⟨fun p hp => by cases p <;> first | exact absurd (by decide) hp | simp [Part.same]⟩ h

@[simp] theorem State.with_lease_parts {ps : List Part} {r t : State} {x : Lease} (h : within [.lease] ps = true) :
    OnlyParts ps r { t with lease := x } ↔ OnlyParts ps r t :=
  OnlyParts.through ⟨fun p hp => by cases p <;> first | exact absurd (by decide) hp | simp [Part.same]⟩ h

@[simp] theorem State.with_frozen_parts {ps : List Part} {r t : State} {x : List Frozen} (h : within [.freeze] ps = true) :
    OnlyParts ps r { t with frozen := x } ↔ OnlyParts ps r t :=
  OnlyParts.through ⟨fun p hp => by cases p <;> first | exact absurd (by decide) hp | simp [Part.same]⟩ h

@[simp] theorem State.with_frzRecs_parts {ps : List Part} {r t : State} {x : List (Nat × FreezeRec)} (h : within [.freeze] ps = true) :
    OnlyParts ps r { t with frzRecs := x } ↔ OnlyParts ps r t :=
  OnlyParts.through ⟨fun p hp => by cases p <;> first | exact absurd (by decide) hp | simp [Part.same]⟩ h

@[simp] theorem State.with_frzOver_parts {ps : List Part} {r t : State} {x : Bool} (h : within [.freeze] ps = true) :
    OnlyParts ps r { t with frzOver := x } ↔ OnlyParts ps r t :=
  OnlyParts.through ⟨fun p hp => by cases p <;> first | exact absurd (by decide) hp | simp [Part.same]⟩ h

@[simp] theorem State.with_maintPwd_parts {ps : List Part} {r t : State} {x : Password} (h : within [.passwords] ps = true) :
    OnlyParts ps r { t with maintPwd := x } ↔ OnlyParts ps r t :=
  OnlyParts.through ⟨fun p hp => by cases p <;> first | exact absurd (by decide) hp | simp [Part.same]⟩ h

@[simp] theorem State.with_safetyPwd_parts {ps : List Part} {r t : State} {x : Password} (h : within [.passwords] ps = true) :
    OnlyParts ps r { t with safetyPwd := x } ↔ OnlyParts ps r t :=
  OnlyParts.through ⟨fun p hp => by cases p <;> first | exact absurd (by decide) hp | simp [Part.same]⟩ h

@[simp] theorem State.with_queue_parts {ps : List Part} {r t : State} {x : List QueuedCmd} (h : within [.commands] ps = true) :
    OnlyParts ps r { t with queue := x } ↔ OnlyParts ps r t :=
  OnlyParts.through ⟨fun p hp => by cases p <;> first | exact absurd (by decide) hp | simp [Part.same]⟩ h

@[simp] theorem State.with_cmds_parts {ps : List Part} {r t : State} {x : Table DomainCmds} (h : within [.commands] ps = true) :
    OnlyParts ps r { t with cmds := x } ↔ OnlyParts ps r t :=
  OnlyParts.through ⟨fun p hp => by cases p <;> first | exact absurd (by decide) hp | simp [Part.same]⟩ h

@[simp] theorem State.with_responses_parts {ps : List Part} {r t : State} {x : List Response} (h : within [.commands] ps = true) :
    OnlyParts ps r { t with responses := x } ↔ OnlyParts ps r t :=
  OnlyParts.through ⟨fun p hp => by cases p <;> first | exact absurd (by decide) hp | simp [Part.same]⟩ h

@[simp] theorem State.with_raised_parts {ps : List Part} {r t : State} {x : Table Nat} (h : within [.events] ps = true) :
    OnlyParts ps r { t with raised := x } ↔ OnlyParts ps r t :=
  OnlyParts.through ⟨fun p hp => by cases p <;> first | exact absurd (by decide) hp | simp [Part.same]⟩ h

@[simp] theorem State.with_due_parts {ps : List Part} {r t : State} {x : List DueEntry} (h : within [.events] ps = true) :
    OnlyParts ps r { t with due := x } ↔ OnlyParts ps r t :=
  OnlyParts.through ⟨fun p hp => by cases p <;> first | exact absurd (by decide) hp | simp [Part.same]⟩ h

@[simp] theorem State.with_evOver_parts {ps : List Part} {r t : State} {x : List Nat} (h : within [.events] ps = true) :
    OnlyParts ps r { t with evOver := x } ↔ OnlyParts ps r t :=
  OnlyParts.through ⟨fun p hp => by cases p <;> first | exact absurd (by decide) hp | simp [Part.same]⟩ h

@[simp] theorem State.with_merge_parts {ps : List Part} {r t : State} {x : Table (Nat × Nat)} (h : within [.events] ps = true) :
    OnlyParts ps r { t with merge := x } ↔ OnlyParts ps r t :=
  OnlyParts.through ⟨fun p hp => by cases p <;> first | exact absurd (by decide) hp | simp [Part.same]⟩ h

@[simp] theorem State.with_sent_parts {ps : List Part} {r t : State} {x : List Sent} (h : within [.sent] ps = true) :
    OnlyParts ps r { t with sent := x } ↔ OnlyParts ps r t :=
  OnlyParts.through ⟨fun p hp => by cases p <;> first | exact absurd (by decide) hp | simp [Part.same]⟩ h

@[simp] theorem State.with_snaps_parts {ps : List Part} {r t : State} {x : Table Snapshot} (h : within [.snaps] ps = true) :
    OnlyParts ps r { t with snaps := x } ↔ OnlyParts ps r t :=
  OnlyParts.through ⟨fun p hp => by cases p <;> first | exact absurd (by decide) hp | simp [Part.same]⟩ h

@[simp] theorem State.with_wp_parts {ps : List Part} {r t : State} {x : Table WpRec} (h : within [.store] ps = true) :
    OnlyParts ps r { t with wp := x } ↔ OnlyParts ps r t :=
  OnlyParts.through ⟨fun p hp => by cases p <;> first | exact absurd (by decide) hp | simp [Part.same]⟩ h

@[simp] theorem State.with_journal_parts {ps : List Part} {r t : State} {x : List JEntry} (h : within [.store] ps = true) :
    OnlyParts ps r { t with journal := x } ↔ OnlyParts ps r t :=
  OnlyParts.through ⟨fun p hp => by cases p <;> first | exact absurd (by decide) hp | simp [Part.same]⟩ h

@[simp] theorem State.with_jseq_parts {ps : List Part} {r t : State} {x : Nat} (h : within [.store] ps = true) :
    OnlyParts ps r { t with jseq := x } ↔ OnlyParts ps r t :=
  OnlyParts.through ⟨fun p hp => by cases p <;> first | exact absurd (by decide) hp | simp [Part.same]⟩ h

@[simp] theorem State.with_jcur_parts {ps : List Part} {r t : State} {x : Table LogCursor} (h : within [.store] ps = true) :
    OnlyParts ps r { t with jcur := x } ↔ OnlyParts ps r t :=
  OnlyParts.through ⟨fun p hp => by cases p <;> first | exact absurd (by decide) hp | simp [Part.same]⟩ h

@[simp] theorem State.with_clog_parts {ps : List Part} {r t : State} {x : List ClgEntry} (h : within [.store] ps = true) :
    OnlyParts ps r { t with clog := x } ↔ OnlyParts ps r t :=
  OnlyParts.through ⟨fun p hp => by cases p <;> first | exact absurd (by decide) hp | simp [Part.same]⟩ h

@[simp] theorem State.with_clgLast_parts {ps : List Part} {r t : State} {x : Nat} (h : within [.store] ps = true) :
    OnlyParts ps r { t with clgLast := x } ↔ OnlyParts ps r t :=
  OnlyParts.through ⟨fun p hp => by cases p <;> first | exact absurd (by decide) hp | simp [Part.same]⟩ h

@[simp] theorem State.with_clgFirst_parts {ps : List Part} {r t : State} {x : Nat} (h : within [.store] ps = true) :
    OnlyParts ps r { t with clgFirst := x } ↔ OnlyParts ps r t :=
  OnlyParts.through ⟨fun p hp => by cases p <;> first | exact absurd (by decide) hp | simp [Part.same]⟩ h

@[simp] theorem State.with_clgAnchor_parts {ps : List Part} {r t : State} {x : List Byte} (h : within [.store] ps = true) :
    OnlyParts ps r { t with clgAnchor := x } ↔ OnlyParts ps r t :=
  OnlyParts.through ⟨fun p hp => by cases p <;> first | exact absurd (by decide) hp | simp [Part.same]⟩ h

@[simp] theorem State.with_clgCur_parts {ps : List Part} {r t : State} {x : Table LogCursor} (h : within [.store] ps = true) :
    OnlyParts ps r { t with clgCur := x } ↔ OnlyParts ps r t :=
  OnlyParts.through ⟨fun p hp => by cases p <;> first | exact absurd (by decide) hp | simp [Part.same]⟩ h

@[simp] theorem State.with_bankA_parts {ps : List Part} {r t : State} {x : CalBank} (h : within [.store] ps = true) :
    OnlyParts ps r { t with bankA := x } ↔ OnlyParts ps r t :=
  OnlyParts.through ⟨fun p hp => by cases p <;> first | exact absurd (by decide) hp | simp [Part.same]⟩ h

@[simp] theorem State.with_bankB_parts {ps : List Part} {r t : State} {x : CalBank} (h : within [.store] ps = true) :
    OnlyParts ps r { t with bankB := x } ↔ OnlyParts ps r t :=
  OnlyParts.through ⟨fun p hp => by cases p <;> first | exact absurd (by decide) hp | simp [Part.same]⟩ h

@[simp] theorem State.with_bankWriting_parts {ps : List Part} {r t : State} {x : Option (Bool × CalSet)} (h : within [.store] ps = true) :
    OnlyParts ps r { t with bankWriting := x } ↔ OnlyParts ps r t :=
  OnlyParts.through ⟨fun p hp => by cases p <;> first | exact absurd (by decide) hp | simp [Part.same]⟩ h

@[simp] theorem State.with_bankWaiting_parts {ps : List Part} {r t : State} {x : Option CalSet} (h : within [.store] ps = true) :
    OnlyParts ps r { t with bankWaiting := x } ↔ OnlyParts ps r t :=
  OnlyParts.through ⟨fun p hp => by cases p <;> first | exact absurd (by decide) hp | simp [Part.same]⟩ h
@[simp] theorem State.with_tokensAt_parts {ps : List Part} {r t : State} {x : Nat} (h : within [.store] ps = true) :
    OnlyParts ps r { t with tokensAt := x } ↔ OnlyParts ps r t :=
  OnlyParts.through ⟨fun p hp => by cases p <;> first | exact absurd (by decide) hp | simp [Part.same]⟩ h

@[simp] theorem State.with_freeCount_parts {ps : List Part} {r t : State} {x : Nat} (h : within [.free] ps = true) :
    OnlyParts ps r { t with freeCount := x } ↔ OnlyParts ps r t :=
  OnlyParts.through ⟨fun p hp => by cases p <;> first | exact absurd (by decide) hp | simp [Part.same]⟩ h

end Sys2Proof.Machine
end

