-- ==== Sys2Proof/Laws/OpsParts.lean ====
section
/-!
SUPPORT. What the operations of Machine/Ops leave unchanged.
-/
namespace Sys2Proof.Machine

@[simp] theorem State.setReg_parts {q0 : List Part} {z0 : State} (s : State) (a : Nat) (v : Word) (h0 : within [.regs] q0 = true) :
    OnlyParts q0 z0 (State.setReg s a v) ↔ OnlyParts q0 z0 s := by
  refine OnlyParts.through (ps := [.regs]) ?_ h0
  exact ⟨fun p hp => by cases p <;> first | exact absurd (by decide) hp | simp [Part.same]⟩

@[simp] theorem State.setMreg_parts {q0 : List Part} {z0 : State} (s : State) (m : Master) (a : Nat) (v : Word)
    (h0 : within [.copies] q0 = true) :
    OnlyParts q0 z0 (State.setMreg s m a v) ↔ OnlyParts q0 z0 s := by
  refine OnlyParts.through (ps := [.copies]) ?_ h0
  exact ⟨fun p hp => by cases p <;> first | exact absurd (by decide) hp | simp [Part.same]⟩

@[simp] theorem State.raiseTo_parts {q0 : List Part} {z0 : State} (src : Nat) (data : Word) (s : State) (d : Nat)
    (h0 : within [.copies, .events] q0 = true) :
    OnlyParts q0 z0 (State.raiseTo src data s d) ↔ OnlyParts q0 z0 s := by
  refine OnlyParts.through (ps := [.copies, .events]) ?_ h0
  simp only [State.raiseTo]
  (repeat' split) <;> first | (simp +decide; done) | exact ⟨fun p hp => by cases p <;> first | exact absurd (by decide) hp | simp [Part.same]⟩

@[simp] theorem State.raise_parts {q0 : List Part} {z0 : State} (s : State) (src : Nat) (data : Word)
    (h0 : within [.copies, .events] q0 = true) :
    OnlyParts q0 z0 (State.raise s src data) ↔ OnlyParts q0 z0 s := by
  refine OnlyParts.through (ps := [.copies, .events]) ?_ h0
  simp +decide [State.raise]

@[simp] theorem State.setEvt_parts {q0 : List Part} {z0 : State} (s : State) (a : Nat) (i : Nat)
    (h0 : within [.regs, .copies, .events] q0 = true) :
    OnlyParts q0 z0 (State.setEvt s a i) ↔ OnlyParts q0 z0 s := by
  refine OnlyParts.through (ps := [.regs, .copies, .events]) ?_ h0
  simp only [State.setEvt]
  (repeat' split) <;> simp +decide

@[simp] theorem State.send_parts {q0 : List Part} {z0 : State} (s : State) (o : Sent) (h0 : within [.sent] q0 = true) :
    OnlyParts q0 z0 (State.send s o) ↔ OnlyParts q0 z0 s := by
  refine OnlyParts.through (ps := [.sent]) ?_ h0
  exact ⟨fun p hp => by cases p <;> first | exact absurd (by decide) hp | simp [Part.same]⟩

@[simp] theorem State.elapse_parts {q0 : List Part} {z0 : State} (s : State) (dt : Nat) (h0 : within [.time] q0 = true) :
    OnlyParts q0 z0 (State.elapse s dt) ↔ OnlyParts q0 z0 s := by
  refine OnlyParts.through (ps := [.time]) ?_ h0
  simp only [State.elapse]
  (repeat' split) <;> first | (simp +decide; done) | exact ⟨fun p hp => by cases p <;> first | exact absurd (by decide) hp | simp [Part.same]⟩

end Sys2Proof.Machine
end

