-- ==== Sys2Proof/Laws/PersistParts.lean ====
section
/-!
SUPPORT. What the operations of Machine/Persist leave unchanged.
-/
namespace Sys2Proof.Machine

@[simp] theorem State.wpStore_parts {q0 : List Part} {z0 : State} (s : State) (k : Nat) (v : Word) (h0 : within [.store] q0 = true) :
    OnlyParts q0 z0 (State.wpStore s k v) ↔ OnlyParts q0 z0 s := by
  refine OnlyParts.through (ps := [.store]) ?_ h0
  simp only [State.wpStore]
  (repeat' split) <;> first | (simp +decide; done) | exact ⟨fun p hp => by cases p <;> first | exact absurd (by decide) hp | simp [Part.same]⟩

@[simp] theorem State.wpDevice_parts {q0 : List Part} {z0 : State} (s : State) (bad : List Nat) (k : Nat) (v : Word)
    (h0 : within [.regs, .copies, .events, .store] q0 = true) :
    OnlyParts q0 z0 (State.wpDevice s bad k v) ↔ OnlyParts q0 z0 s := by
  refine OnlyParts.through (ps := [.regs, .copies, .events, .store]) ?_ h0
  simp +decide [State.wpDevice]

@[simp] theorem State.wpReject_parts {q0 : List Part} {z0 : State} (s : State) (m : Master) (k : Nat) (cause : Nat) (evtBit : Nat)
    (h0 : within [.regs, .copies, .events] q0 = true) :
    OnlyParts q0 z0 (State.wpReject s m k cause evtBit) ↔ OnlyParts q0 z0 s := by
  refine OnlyParts.through (ps := [.regs, .copies, .events]) ?_ h0
  simp +decide [State.wpReject]

@[simp] theorem State.wpWrite_parts {q0 : List Part} {z0 : State} (s : State) (m : Master) (k : Nat) (v : Word) (inRange : Bool) (nvOk : Bool)
    (h0 : within [.regs, .copies, .events, .store] q0 = true) :
    OnlyParts q0 z0 (State.wpWrite s m k v inRange nvOk) ↔ OnlyParts q0 z0 s := by
  refine OnlyParts.through (ps := [.regs, .copies, .events, .store]) ?_ h0
  simp only [State.wpWrite]
  (repeat' split) <;> first | (simp +decide; done) | exact ⟨fun p hp => by cases p <;> first | exact absurd (by decide) hp | simp [Part.same]⟩

@[simp] theorem State.journalAdd_parts {q0 : List Part} {z0 : State} (s : State) (stamp : Nat) (dom : Nat) (result : Nat) (code : Nat) (digest : Word)
    (h0 : within [.regs, .copies, .events, .store] q0 = true) :
    OnlyParts q0 z0 (State.journalAdd s stamp dom result code digest) ↔ OnlyParts q0 z0 s := by
  refine OnlyParts.through (ps := [.regs, .copies, .events, .store]) ?_ h0
  simp only [State.journalAdd]
  (repeat' split) <;> first | (simp +decide; done) | (simp +decide <;> exact ⟨fun p hp => by cases p <;> first | exact absurd (by decide) hp | simp [Part.same]⟩)

@[simp] theorem State.setJCursor_parts {q0 : List Part} {z0 : State} (s : State) (m : Master) (c : LogCursor)
    (h0 : within [.store] q0 = true) :
    OnlyParts q0 z0 (State.setJCursor s m c) ↔ OnlyParts q0 z0 s := by
  refine OnlyParts.through (ps := [.store]) ?_ h0
  exact ⟨fun p hp => by cases p <;> first | exact absurd (by decide) hp | simp [Part.same]⟩

@[simp] theorem State.setCCursor_parts {q0 : List Part} {z0 : State} (s : State) (m : Master) (c : LogCursor)
    (h0 : within [.store] q0 = true) :
    OnlyParts q0 z0 (State.setCCursor s m c) ↔ OnlyParts q0 z0 s := by
  refine OnlyParts.through (ps := [.store]) ?_ h0
  exact ⟨fun p hp => by cases p <;> first | exact absurd (by decide) hp | simp [Part.same]⟩

@[simp] theorem State.jnlEntry0_parts {q0 : List Part} {z0 : State} (s : State) (m : Master)
    (h0 : within [.regs, .copies, .events, .store] q0 = true) :
    OnlyParts q0 z0 (State.jnlEntry0 s m).1 ↔ OnlyParts q0 z0 s := by
  refine OnlyParts.through (ps := [.regs, .copies, .events, .store]) ?_ h0
  simp +decide [State.jnlEntry0]

@[simp] theorem State.jnlEntry7_parts {q0 : List Part} {z0 : State} (s : State) (m : Master) (h0 : within [.store] q0 = true) :
    OnlyParts q0 z0 (State.jnlEntry7 s m).1 ↔ OnlyParts q0 z0 s := by
  refine OnlyParts.through (ps := [.store]) ?_ h0
  simp +decide [State.jnlEntry7]

@[simp] theorem State.clgEntry0_parts {q0 : List Part} {z0 : State} (s : State) (m : Master)
    (h0 : within [.regs, .copies, .events, .store] q0 = true) :
    OnlyParts q0 z0 (State.clgEntry0 s m).1 ↔ OnlyParts q0 z0 s := by
  refine OnlyParts.through (ps := [.regs, .copies, .events, .store]) ?_ h0
  simp +decide [State.clgEntry0]

@[simp] theorem State.clgEntry31_parts {q0 : List Part} {z0 : State} (s : State) (m : Master) (h0 : within [.store] q0 = true) :
    OnlyParts q0 z0 (State.clgEntry31 s m).1 ↔ OnlyParts q0 z0 s := by
  refine OnlyParts.through (ps := [.store]) ?_ h0
  simp +decide [State.clgEntry31]

@[simp] theorem State.clgAdd_parts {q0 : List Part} {z0 : State} (s : State) (body : Nat → List Byte) (h0 : within [.store] q0 = true) :
    OnlyParts q0 z0 (State.clgAdd s body) ↔ OnlyParts q0 z0 s := by
  refine OnlyParts.through (ps := [.store]) ?_ h0
  simp only [State.clgAdd]
  (repeat' split) <;> first | (simp +decide; done) | exact ⟨fun p hp => by cases p <;> first | exact absurd (by decide) hp | simp [Part.same]⟩

@[simp] theorem State.bankStart_parts {q0 : List Part} {z0 : State} (s : State) (set : CalSet) (h0 : within [.store] q0 = true) :
    OnlyParts q0 z0 (State.bankStart s set) ↔ OnlyParts q0 z0 s := by
  refine OnlyParts.through (ps := [.store]) ?_ h0
  simp only [State.bankStart]
  (repeat' split) <;> first | (simp +decide; done) | exact ⟨fun p hp => by cases p <;> first | exact absurd (by decide) hp | simp [Part.same]⟩

@[simp] theorem State.bankQueue_parts {q0 : List Part} {z0 : State} (s : State) (set : CalSet) (h0 : within [.store] q0 = true) :
    OnlyParts q0 z0 (State.bankQueue s set) ↔ OnlyParts q0 z0 s := by
  refine OnlyParts.through (ps := [.store]) ?_ h0
  simp only [State.bankQueue]
  (repeat' split) <;> first | (simp +decide; done) | exact ⟨fun p hp => by cases p <;> first | exact absurd (by decide) hp | simp [Part.same]⟩

@[simp] theorem State.bankDone_parts {q0 : List Part} {z0 : State} (s : State) (h0 : within [.regs, .copies, .events, .store] q0 = true) :
    OnlyParts q0 z0 (State.bankDone s) ↔ OnlyParts q0 z0 s := by
  refine OnlyParts.through (ps := [.regs, .copies, .events, .store]) ?_ h0
  simp only [State.bankDone]
  (repeat' split) <;> first | (simp +decide; done) | (simp +decide <;> exact ⟨fun p hp => by cases p <;> first | exact absurd (by decide) hp | simp [Part.same]⟩)

end Sys2Proof.Machine
end

