-- ==== Sys2Proof/Laws/FrontEndParts.lean ====
section
/-!
SUPPORT. What the operations of Machine/FrontEnd leave unchanged.
-/
namespace Sys2Proof.Machine

@[simp] theorem State.setPort_parts {q0 : List Part} {z0 : State} (s : State) (d : Nat) (o : Ofe) (h0 : within [.ofe] q0 = true) :
    OnlyParts q0 z0 (State.setPort s d o) ↔ OnlyParts q0 z0 s := by
  refine OnlyParts.through (ps := [.ofe]) ?_ h0
  exact ⟨fun p hp => by cases p <;> first | exact absurd (by decide) hp | simp [Part.same]⟩

@[simp] theorem State.setProbe_parts {q0 : List Part} {z0 : State} (s : State) (d : Nat) (p : Psy) (h0 : within [.psy] q0 = true) :
    OnlyParts q0 z0 (State.setProbe s d p) ↔ OnlyParts q0 z0 s := by
  refine OnlyParts.through (ps := [.psy]) ?_ h0
  exact ⟨fun p hp => by cases p <;> first | exact absurd (by decide) hp | simp [Part.same]⟩

@[simp] theorem State.psyApply_parts {q0 : List Part} {z0 : State} (s : State) (d : Nat)
    (h0 : within [.regs, .copies, .psy, .events] q0 = true) :
    OnlyParts q0 z0 (State.psyApply s d) ↔ OnlyParts q0 z0 s := by
  refine OnlyParts.through (ps := [.regs, .copies, .psy, .events]) ?_ h0
  simp +decide [State.psyApply]

@[simp] theorem State.stopFiring_parts {q0 : List Part} {z0 : State} (s : State) (d : Nat) (h0 : within [.psy] q0 = true) :
    OnlyParts q0 z0 (State.stopFiring s d) ↔ OnlyParts q0 z0 s := by
  refine OnlyParts.through (ps := [.psy]) ?_ h0
  simp +decide [State.stopFiring]

@[simp] theorem State.thermalMissing_parts {q0 : List Part} {z0 : State} (s : State) (d : Nat)
    (h0 : within [.regs, .copies, .events] q0 = true) :
    OnlyParts q0 z0 (State.thermalMissing s d) ↔ OnlyParts q0 z0 s := by
  refine OnlyParts.through (ps := [.regs, .copies, .events]) ?_ h0
  simp +decide [State.thermalMissing]

@[simp] theorem State.loopStart_parts {q0 : List Part} {z0 : State} (s : State) (d : Nat)
    (h0 : within [.regs, .copies, .ofe, .events] q0 = true) :
    OnlyParts q0 z0 (State.loopStart s d) ↔ OnlyParts q0 z0 s := by
  refine OnlyParts.through (ps := [.regs, .copies, .ofe, .events]) ?_ h0
  simp +decide [State.loopStart]

@[simp] theorem State.resumeOrder_parts {q0 : List Part} {z0 : State} (s : State) (d : Nat)
    (h0 : within [.regs, .copies, .ofe, .events] q0 = true) :
    OnlyParts q0 z0 (State.resumeOrder s d) ↔ OnlyParts q0 z0 s := by
  refine OnlyParts.through (ps := [.regs, .copies, .ofe, .events]) ?_ h0
  simp +decide [State.resumeOrder]

@[simp] theorem State.lightOn_parts {q0 : List Part} {z0 : State} (s : State) (d : Nat)
    (h0 : within [.regs, .copies, .ofe, .events] q0 = true) :
    OnlyParts q0 z0 (State.lightOn s d) ↔ OnlyParts q0 z0 s := by
  refine OnlyParts.through (ps := [.regs, .copies, .ofe, .events]) ?_ h0
  simp +decide [State.lightOn]

@[simp] theorem State.endLockout_parts {q0 : List Part} {z0 : State} (s : State) (d : Nat)
    (h0 : within [.regs, .copies, .ofe, .events] q0 = true) :
    OnlyParts q0 z0 (State.endLockout s d) ↔ OnlyParts q0 z0 s := by
  refine OnlyParts.through (ps := [.regs, .copies, .ofe, .events]) ?_ h0
  simp only [State.endLockout]
  (repeat' split) <;> simp +decide

@[simp] theorem State.lightOff_parts {q0 : List Part} {z0 : State} (s : State) (d : Nat) (light : LightState) (tec : Bool)
    (h0 : within [.ofe, .psy] q0 = true) :
    OnlyParts q0 z0 (State.lightOff s d light tec) ↔ OnlyParts q0 z0 s := by
  refine OnlyParts.through (ps := [.ofe, .psy]) ?_ h0
  simp +decide [State.lightOff]

@[simp] theorem State.thermalFault_parts {q0 : List Part} {z0 : State} (s : State) (d : Nat) (evt : Nat)
    (h0 : within [.regs, .copies, .ofe, .psy, .events] q0 = true) :
    OnlyParts q0 z0 (State.thermalFault s d evt) ↔ OnlyParts q0 z0 s := by
  refine OnlyParts.through (ps := [.regs, .copies, .ofe, .psy, .events]) ?_ h0
  simp +decide [State.thermalFault]

@[simp] theorem State.portOff_parts {q0 : List Part} {z0 : State} (s : State) (d : Nat) (h0 : within [.ofe, .psy] q0 = true) :
    OnlyParts q0 z0 (State.portOff s d) ↔ OnlyParts q0 z0 s := by
  refine OnlyParts.through (ps := [.ofe, .psy]) ?_ h0
  simp +decide [State.portOff]

@[simp] theorem State.ampFaultTaken_parts {q0 : List Part} {z0 : State} (s : State) (d : Nat)
    (h0 : within [.regs, .copies, .ofe, .psy, .events] q0 = true) :
    OnlyParts q0 z0 (State.ampFaultTaken s d) ↔ OnlyParts q0 z0 s := by
  refine OnlyParts.through (ps := [.regs, .copies, .ofe, .psy, .events]) ?_ h0
  simp +decide [State.ampFaultTaken]

@[simp] theorem State.attemptFailed_parts {q0 : List Part} {z0 : State} (s : State) (d : Nat)
    (h0 : within [.regs, .copies, .ofe, .events] q0 = true) :
    OnlyParts q0 z0 (State.attemptFailed s d) ↔ OnlyParts q0 z0 s := by
  refine OnlyParts.through (ps := [.regs, .copies, .ofe, .events]) ?_ h0
  simp +decide [State.attemptFailed]

@[simp] theorem laserWindowReached_parts {q0 : List Part} {z0 : State} (d : Nat) (s : State) (h0 : within [.ofe] q0 = true) :
    OnlyParts q0 z0 (laserWindowReached d s) ↔ OnlyParts q0 z0 s := by
  refine OnlyParts.through (ps := [.ofe]) ?_ h0
  simp +decide [laserWindowReached]

@[simp] theorem laserOkRise_parts {q0 : List Part} {z0 : State} (d : Nat) (s : State) (h0 : within [.ofe] q0 = true) :
    OnlyParts q0 z0 (laserOkRise d s) ↔ OnlyParts q0 z0 s := by
  refine OnlyParts.through (ps := [.ofe]) ?_ h0
  simp +decide [laserOkRise]

@[simp] theorem laserOkTimeout_parts {q0 : List Part} {z0 : State} (d : Nat) (s : State)
    (h0 : within [.regs, .copies, .ofe, .events] q0 = true) :
    OnlyParts q0 z0 (laserOkTimeout d s) ↔ OnlyParts q0 z0 s := by
  refine OnlyParts.through (ps := [.regs, .copies, .ofe, .events]) ?_ h0
  simp +decide [laserOkTimeout]

@[simp] theorem ampEnable_parts {q0 : List Part} {z0 : State} (d : Nat) (s : State) (h0 : within [.ofe] q0 = true) :
    OnlyParts q0 z0 (ampEnable d s) ↔ OnlyParts q0 z0 s := by
  refine OnlyParts.through (ps := [.ofe]) ?_ h0
  simp +decide [ampEnable]

@[simp] theorem ampCheckEnd_parts {q0 : List Part} {z0 : State} (d : Nat) (held : Bool) (s : State)
    (h0 : within [.regs, .copies, .ofe, .psy, .events] q0 = true) :
    OnlyParts q0 z0 (ampCheckEnd d held s) ↔ OnlyParts q0 z0 s := by
  refine OnlyParts.through (ps := [.regs, .copies, .ofe, .psy, .events]) ?_ h0
  simp +decide [ampCheckEnd]

@[simp] theorem laserOffDelay_parts {q0 : List Part} {z0 : State} (d : Nat) (s : State) (h0 : within [.ofe] q0 = true) :
    OnlyParts q0 z0 (laserOffDelay d s) ↔ OnlyParts q0 z0 s := by
  refine OnlyParts.through (ps := [.ofe]) ?_ h0
  simp only [laserOffDelay]
  (repeat' split) <;> simp +decide

@[simp] theorem interlockOpen_parts {q0 : List Part} {z0 : State} (d : Nat) (s : State)
    (h0 : within [.regs, .copies, .ofe, .psy, .events] q0 = true) :
    OnlyParts q0 z0 (interlockOpen d s) ↔ OnlyParts q0 z0 s := by
  refine OnlyParts.through (ps := [.regs, .copies, .ofe, .psy, .events]) ?_ h0
  simp +decide [interlockOpen]

@[simp] theorem interlockClosedHold_parts {q0 : List Part} {z0 : State} (d : Nat) (s : State)
    (h0 : within [.regs, .copies, .ofe, .events] q0 = true) :
    OnlyParts q0 z0 (interlockClosedHold d s) ↔ OnlyParts q0 z0 s := by
  refine OnlyParts.through (ps := [.regs, .copies, .ofe, .events]) ?_ h0
  simp +decide [interlockClosedHold]

@[simp] theorem ampFault_parts {q0 : List Part} {z0 : State} (d : Nat) (s : State)
    (h0 : within [.regs, .copies, .ofe, .psy, .events] q0 = true) :
    OnlyParts q0 z0 (ampFault d s) ↔ OnlyParts q0 z0 s := by
  refine OnlyParts.through (ps := [.regs, .copies, .ofe, .psy, .events]) ?_ h0
  simp +decide [ampFault]

@[simp] theorem ampRetry_parts {q0 : List Part} {z0 : State} (d : Nat) (s : State) (h0 : within [.ofe] q0 = true) :
    OnlyParts q0 z0 (ampRetry d s) ↔ OnlyParts q0 z0 s := by
  refine OnlyParts.through (ps := [.ofe]) ?_ h0
  simp +decide [ampRetry]

@[simp] theorem laserOkLoss_parts {q0 : List Part} {z0 : State} (d : Nat) (s : State)
    (h0 : within [.regs, .copies, .ofe, .psy, .events] q0 = true) :
    OnlyParts q0 z0 (laserOkLoss d s) ↔ OnlyParts q0 z0 s := by
  refine OnlyParts.through (ps := [.regs, .copies, .ofe, .psy, .events]) ?_ h0
  simp +decide [laserOkLoss]

@[simp] theorem rxOkFall_parts {q0 : List Part} {z0 : State} (d : Nat) (s : State) (h0 : within [.regs, .copies, .ofe, .events] q0 = true) :
    OnlyParts q0 z0 (rxOkFall d s) ↔ OnlyParts q0 z0 s := by
  refine OnlyParts.through (ps := [.regs, .copies, .ofe, .events]) ?_ h0
  simp +decide [rxOkFall]

@[simp] theorem pinsTake_parts {q0 : List Part} {z0 : State} (d : Nat) (pins : PortPins) (s : State)
    (h0 : within [.regs, .copies, .ofe, .psy, .events] q0 = true) :
    OnlyParts q0 z0 (pinsTake d pins s) ↔ OnlyParts q0 z0 s := by
  refine OnlyParts.through (ps := [.regs, .copies, .ofe, .psy, .events]) ?_ h0
  simp +decide [pinsTake]

@[simp] theorem thmSample_parts {q0 : List Part} {z0 : State} (d : Nat) (vTop : Nat) (vMid : Nat) (imon : Nat) (pins : PortPins) (s : State)
    (h0 : within [.regs, .copies, .ofe, .psy, .events] q0 = true) :
    OnlyParts q0 z0 (thmSample d vTop vMid imon pins s) ↔ OnlyParts q0 z0 s := by
  refine OnlyParts.through (ps := [.regs, .copies, .ofe, .psy, .events]) ?_ h0
  simp +decide [thmSample]

@[simp] theorem tecOvercurrent_parts {q0 : List Part} {z0 : State} (d : Nat) (s : State)
    (h0 : within [.regs, .copies, .ofe, .psy, .events] q0 = true) :
    OnlyParts q0 z0 (tecOvercurrent d s) ↔ OnlyParts q0 z0 s := by
  refine OnlyParts.through (ps := [.regs, .copies, .ofe, .psy, .events]) ?_ h0
  simp only [tecOvercurrent]
  (repeat' split) <;> simp +decide

@[simp] theorem probeWindowUnlocked_parts {q0 : List Part} {z0 : State} (d : Nat) (s : State)
    (h0 : within [.regs, .copies, .ofe, .events] q0 = true) :
    OnlyParts q0 z0 (probeWindowUnlocked d s) ↔ OnlyParts q0 z0 s := by
  refine OnlyParts.through (ps := [.regs, .copies, .ofe, .events]) ?_ h0
  simp only [probeWindowUnlocked]
  (repeat' split) <;> simp +decide

@[simp] theorem tecLoopStep_parts {q0 : List Part} {z0 : State} (d : Nat) (s : State) (h0 : within [.ofe] q0 = true) :
    OnlyParts q0 z0 (tecLoopStep d s) ↔ OnlyParts q0 z0 s := by
  refine OnlyParts.through (ps := [.ofe]) ?_ h0
  simp +decide [tecLoopStep]

@[simp] theorem State.settingsChanged_parts {q0 : List Part} {z0 : State} (s : State) (old : State) (d : Nat)
    (h0 : within [.regs, .copies, .ofe, .events] q0 = true) :
    OnlyParts q0 z0 (State.settingsChanged s old d) ↔ OnlyParts q0 z0 s := by
  refine OnlyParts.through (ps := [.regs, .copies, .ofe, .events]) ?_ h0
  simp +decide [State.settingsChanged]

@[simp] theorem State.setpointWrite_parts {q0 : List Part} {z0 : State} (s : State) (m : Master) (d : Nat) (v : Word) (nvOk : Bool)
    (h0 : within [.regs, .copies, .ofe, .events, .store] q0 = true) :
    OnlyParts q0 z0 (State.setpointWrite s m d v nvOk) ↔ OnlyParts q0 z0 s := by
  refine OnlyParts.through (ps := [.regs, .copies, .ofe, .events, .store]) ?_ h0
  simp +decide [State.setpointWrite]

@[simp] theorem State.limitsWrite_parts {q0 : List Part} {z0 : State} (s : State) (m : Master) (d : Nat) (v : Word) (nvOk : Bool)
    (h0 : within [.regs, .copies, .ofe, .events, .store] q0 = true) :
    OnlyParts q0 z0 (State.limitsWrite s m d v nvOk) ↔ OnlyParts q0 z0 s := by
  refine OnlyParts.through (ps := [.regs, .copies, .ofe, .events, .store]) ?_ h0
  simp +decide [State.limitsWrite]

@[simp] theorem State.ofeCtlWrite_parts {q0 : List Part} {z0 : State} (s : State) (d : Nat) (v : Word)
    (h0 : within [.regs, .copies, .ofe, .psy, .events] q0 = true) :
    OnlyParts q0 z0 (State.ofeCtlWrite s d v) ↔ OnlyParts q0 z0 s := by
  refine OnlyParts.through (ps := [.regs, .copies, .ofe, .psy, .events]) ?_ h0
  simp only [State.ofeCtlWrite]
  (repeat' split) <;> simp +decide

@[simp] theorem ofeWrite_parts {q0 : List Part} {z0 : State} (s : State) (m : Master) (d : Nat) (o : Nat) (v : Word)
    (h0 : within [.regs, .copies, .ofe, .psy, .events, .store] q0 = true) :
    OnlyParts q0 z0 (ofeWrite s m d o v) ↔ OnlyParts q0 z0 s := by
  refine OnlyParts.through (ps := [.regs, .copies, .ofe, .psy, .events, .store]) ?_ h0
  simp only [ofeWrite]
  (repeat' split) <;> simp +decide

@[simp] theorem psyWrite_parts {q0 : List Part} {z0 : State} (s : State) (d : Nat) (o : Nat) (v : Word)
    (h0 : within [.regs, .copies, .psy, .events] q0 = true) :
    OnlyParts q0 z0 (psyWrite s d o v) ↔ OnlyParts q0 z0 s := by
  refine OnlyParts.through (ps := [.regs, .copies, .psy, .events]) ?_ h0
  simp only [psyWrite]
  (repeat' split) <;> simp +decide

@[simp] theorem State.periodStampLo_parts {q0 : List Part} {z0 : State} (s : State) (m : Master) (d : Nat)
    (h0 : within [.copies] q0 = true) :
    OnlyParts q0 z0 (State.periodStampLo s m d).1 ↔ OnlyParts q0 z0 s := by
  refine OnlyParts.through (ps := [.copies]) ?_ h0
  simp +decide [State.periodStampLo]

@[simp] theorem toneFiring_parts {q0 : List Part} {z0 : State} (d : Nat) (k : Nat) (trim : ToneTrim) (s : State)
    (h0 : within [.psy] q0 = true) :
    OnlyParts q0 z0 (toneFiring d k trim s) ↔ OnlyParts q0 z0 s := by
  refine OnlyParts.through (ps := [.psy]) ?_ h0
  simp +decide [toneFiring]

end Sys2Proof.Machine
end

