-- ==== Sys2Proof/Laws/ClockParts.lean ====
section
/-!
SUPPORT. What the operations of Machine/Clock leave unchanged.
-/
namespace Sys2Proof.Machine

@[simp] theorem State.setTc_parts {q0 : List Part} {z0 : State} (s : State) (f : TownClock → TownClock) (h0 : within [.time] q0 = true) :
    OnlyParts q0 z0 (State.setTc s f) ↔ OnlyParts q0 z0 s := by
  refine OnlyParts.through (ps := [.time]) ?_ h0
  exact ⟨fun p hp => by cases p <;> first | exact absurd (by decide) hp | simp [Part.same]⟩

@[simp] theorem State.stepRequest_parts {q0 : List Part} {z0 : State} (s : State) (k : StepKind)
    (h0 : within [.time, .regs, .copies, .events] q0 = true) :
    OnlyParts q0 z0 (State.stepRequest s k) ↔ OnlyParts q0 z0 s := by
  refine OnlyParts.through (ps := [.time, .regs, .copies, .events]) ?_ h0
  simp +decide [State.stepRequest]

@[simp] theorem State.tcLock_parts {q0 : List Part} {z0 : State} (s : State) (h0 : within [.time, .regs, .copies, .events] q0 = true) :
    OnlyParts q0 z0 (State.tcLock s) ↔ OnlyParts q0 z0 s := by
  refine OnlyParts.through (ps := [.time, .regs, .copies, .events]) ?_ h0
  simp +decide [State.tcLock]

@[simp] theorem State.tcMeasure_parts {q0 : List Part} {z0 : State} (s : State) (off : Int)
    (h0 : within [.time, .regs, .copies, .events] q0 = true) :
    OnlyParts q0 z0 (State.tcMeasure s off) ↔ OnlyParts q0 z0 s := by
  refine OnlyParts.through (ps := [.time, .regs, .copies, .events]) ?_ h0
  simp +decide [State.tcMeasure]

@[simp] theorem State.ptpM2S_parts {q0 : List Part} {z0 : State} (s : State) (diff : Int)
    (h0 : within [.time, .regs, .copies, .events] q0 = true) :
    OnlyParts q0 z0 (State.ptpM2S s diff) ↔ OnlyParts q0 z0 s := by
  refine OnlyParts.through (ps := [.time, .regs, .copies, .events]) ?_ h0
  simp only [State.ptpM2S]
  (repeat' split) <;> simp +decide

@[simp] theorem ptpMessage_parts {q0 : List Part} {z0 : State} (g : PtpMessage) (s : State)
    (h0 : within [.time, .regs, .copies, .events] q0 = true) :
    OnlyParts q0 z0 (ptpMessage g s) ↔ OnlyParts q0 z0 s := by
  refine OnlyParts.through (ps := [.time, .regs, .copies, .events]) ?_ h0
  simp only [ptpMessage]
  (repeat' split) <;> simp +decide

@[simp] theorem ptpDelayReq_parts {q0 : List Part} {z0 : State} (s : State) (h0 : within [.time, .sent] q0 = true) :
    OnlyParts q0 z0 (ptpDelayReq s) ↔ OnlyParts q0 z0 s := by
  refine OnlyParts.through (ps := [.time, .sent]) ?_ h0
  simp only [ptpDelayReq]
  (repeat' split) <;> simp +decide

@[simp] theorem State.ppsMissed_parts {q0 : List Part} {z0 : State} (s : State) (h0 : within [.time] q0 = true) :
    OnlyParts q0 z0 (State.ppsMissed s) ↔ OnlyParts q0 z0 s := by
  refine OnlyParts.through (ps := [.time]) ?_ h0
  simp +decide [State.ppsMissed]

@[simp] theorem ppsEdge_parts {q0 : List Part} {z0 : State} (falling : Bool) (s : State)
    (h0 : within [.time, .regs, .copies, .events] q0 = true) :
    OnlyParts q0 z0 (ppsEdge falling s) ↔ OnlyParts q0 z0 s := by
  refine OnlyParts.through (ps := [.time, .regs, .copies, .events]) ?_ h0
  simp +decide [ppsEdge]

@[simp] theorem ppsEdgeMissing_parts {q0 : List Part} {z0 : State} (s : State) (h0 : within [.time] q0 = true) :
    OnlyParts q0 z0 (ppsEdgeMissing s) ↔ OnlyParts q0 z0 s := by
  refine OnlyParts.through (ps := [.time]) ?_ h0
  simp +decide [ppsEdgeMissing]

@[simp] theorem holdoverEntry_parts {q0 : List Part} {z0 : State} (s : State) (h0 : within [.time, .regs, .copies, .events] q0 = true) :
    OnlyParts q0 z0 (holdoverEntry s) ↔ OnlyParts q0 z0 s := by
  refine OnlyParts.through (ps := [.time, .regs, .copies, .events]) ?_ h0
  simp +decide [holdoverEntry]

@[simp] theorem slewMessage_parts {q0 : List Part} {z0 : State} (err : Int) (s : State) (h0 : within [.time] q0 = true) :
    OnlyParts q0 z0 (slewMessage err s) ↔ OnlyParts q0 z0 s := by
  refine OnlyParts.through (ps := [.time]) ?_ h0
  simp +decide [slewMessage]

@[simp] theorem skewDetect_parts {q0 : List Part} {z0 : State} (floor : Nat) (skew : Int) (s : State)
    (h0 : within [.time, .regs, .copies, .events] q0 = true) :
    OnlyParts q0 z0 (skewDetect floor skew s) ↔ OnlyParts q0 z0 s := by
  refine OnlyParts.through (ps := [.time, .regs, .copies, .events]) ?_ h0
  simp +decide [skewDetect]

@[simp] theorem skewRecover_parts {q0 : List Part} {z0 : State} (floor : Nat) (skew : Int) (s : State) (h0 : within [.time] q0 = true) :
    OnlyParts q0 z0 (skewRecover floor skew s) ↔ OnlyParts q0 z0 s := by
  refine OnlyParts.through (ps := [.time]) ?_ h0
  simp +decide [skewRecover]

@[simp] theorem tcWrite_parts {q0 : List Part} {z0 : State} (s : State) (o : Nat) (v : Word)
    (h0 : within [.time, .regs, .copies, .events] q0 = true) :
    OnlyParts q0 z0 (tcWrite s o v) ↔ OnlyParts q0 z0 s := by
  refine OnlyParts.through (ps := [.time, .regs, .copies, .events]) ?_ h0
  simp only [tcWrite, State.when]
  (repeat' split) <;> first | (simp +decide; done) | exact ⟨fun p hp => by cases p <;> first | exact absurd (by decide) hp | simp [Part.same]⟩

@[simp] theorem State.tcNowLo_parts {q0 : List Part} {z0 : State} (s : State) (m : Master) (h0 : within [.copies] q0 = true) :
    OnlyParts q0 z0 (State.tcNowLo s m).1 ↔ OnlyParts q0 z0 s := by
  refine OnlyParts.through (ps := [.copies]) ?_ h0
  simp +decide [State.tcNowLo]

end Sys2Proof.Machine
end

