-- ==== Sys2Proof/Laws/SpansParts.lean ====
section
/-!
SUPPORT. What the operations of Machine/Spans leave unchanged.
-/
namespace Sys2Proof.Machine

@[simp] theorem State.setDie_parts {q0 : List Part} {z0 : State} (s : State) (d : Nat) (l : DieLbq) (h0 : within [.lbq] q0 = true) :
    OnlyParts q0 z0 (State.setDie s d l) ↔ OnlyParts q0 z0 s := by
  refine OnlyParts.through (ps := [.lbq]) ?_ h0
  exact ⟨fun p hp => by cases p <;> first | exact absurd (by decide) hp | simp [Part.same]⟩

@[simp] theorem State.modLane_parts {q0 : List Part} {z0 : State} (s : State) (d : Nat) (i : Nat) (f : Lane → Lane)
    (h0 : within [.lbq] q0 = true) :
    OnlyParts q0 z0 (State.modLane s d i f) ↔ OnlyParts q0 z0 s := by
  refine OnlyParts.through (ps := [.lbq]) ?_ h0
  simp +decide [State.modLane]

@[simp] theorem State.modBlk_parts {q0 : List Part} {z0 : State} (s : State) (d : Nat) (b : Nat) (f : Blk → Blk)
    (h0 : within [.lbq] q0 = true) :
    OnlyParts q0 z0 (State.modBlk s d b f) ↔ OnlyParts q0 z0 s := by
  refine OnlyParts.through (ps := [.lbq]) ?_ h0
  simp +decide [State.modBlk]

@[simp] theorem State.holdRoles_parts {q0 : List Part} {z0 : State} (s : State) (d : Nat) (b : Nat) (h0 : within [.lbq] q0 = true) :
    OnlyParts q0 z0 (State.holdRoles s d b) ↔ OnlyParts q0 z0 s := by
  refine OnlyParts.through (ps := [.lbq]) ?_ h0
  simp +decide [State.holdRoles]

end Sys2Proof.Machine
end

