-- ==== Sys2Proof/Laws/DetectorParts.lean ====
section
/-!
SUPPORT. What the operations of Machine/Detector leave unchanged.
-/
namespace Sys2Proof.Machine

@[simp] theorem State.setSensor_parts {q0 : List Part} {z0 : State} (s : State) (d : Nat) (e : Nat) (x : Sensor)
    (h0 : within [.sensors] q0 = true) :
    OnlyParts q0 z0 (State.setSensor s d e x) ↔ OnlyParts q0 z0 s := by
  refine OnlyParts.through (ps := [.sensors]) ?_ h0
  exact ⟨fun p hp => by cases p <;> first | exact absurd (by decide) hp | simp [Part.same]⟩

@[simp] theorem State.holdEvent_parts {q0 : List Part} {z0 : State} (s : State) (d : Nat) (ev : HeldEvent) (h0 : within [.lbq] q0 = true) :
    OnlyParts q0 z0 (State.holdEvent s d ev) ↔ OnlyParts q0 z0 s := by
  refine OnlyParts.through (ps := [.lbq]) ?_ h0
  simp +decide [State.holdEvent]

@[simp] theorem State.sensorRestart_parts {q0 : List Part} {z0 : State} (s : State) (d : Nat) (e : Nat) (cause : Nat) (time : Nat)
    (h0 : within [.regs, .copies, .lbq, .sensors, .events] q0 = true) :
    OnlyParts q0 z0 (State.sensorRestart s d e cause time) ↔ OnlyParts q0 z0 s := by
  refine OnlyParts.through (ps := [.regs, .copies, .lbq, .sensors, .events]) ?_ h0
  simp +decide [State.sensorRestart]

@[simp] theorem State.spanSensorsRestart_parts {q0 : List Part} {z0 : State} (s : State) (d : Nat) (home : Nat) (cause : Nat)
    (h0 : within [.regs, .copies, .lbq, .sensors, .events] q0 = true) :
    OnlyParts q0 z0 (State.spanSensorsRestart s d home cause) ↔ OnlyParts q0 z0 s := by
  refine OnlyParts.through (ps := [.regs, .copies, .lbq, .sensors, .events]) ?_ h0
  simp +decide [State.spanSensorsRestart]

@[simp] theorem State.sensorGo_parts {q0 : List Part} {z0 : State} (s : State) (d : Nat) (e : Nat) (n : Nat) (st : SensorState) (kind : Nat) (tpl : Nat) (qev : Nat) (amp : Nat) (evt : Nat)
    (h0 : within [.regs, .copies, .lbq, .sensors, .events] q0 = true) :
    OnlyParts q0 z0 (State.sensorGo s d e n st kind tpl qev amp evt) ↔ OnlyParts q0 z0 s := by
  refine OnlyParts.through (ps := [.regs, .copies, .lbq, .sensors, .events]) ?_ h0
  simp +decide [State.sensorGo]

@[simp] theorem State.sensorBlind_parts {q0 : List Part} {z0 : State} (s : State) (d : Nat) (e : Nat) (n : Nat) (cause : Nat) (q : Nat)
    (h0 : within [.regs, .copies, .lbq, .sensors, .events] q0 = true) :
    OnlyParts q0 z0 (State.sensorBlind s d e n cause q) ↔ OnlyParts q0 z0 s := by
  refine OnlyParts.through (ps := [.regs, .copies, .lbq, .sensors, .events]) ?_ h0
  simp +decide [State.sensorBlind]

@[simp] theorem State.sensorDue_parts {q0 : List Part} {z0 : State} (s : State) (d : Nat) (e : Nat)
    (h0 : within [.regs, .copies, .lbq, .sensors, .events] q0 = true) :
    OnlyParts q0 z0 (State.sensorDue s d e) ↔ OnlyParts q0 z0 s := by
  refine OnlyParts.through (ps := [.regs, .copies, .lbq, .sensors, .events]) ?_ h0
  simp only [State.sensorDue]
  (repeat' split) <;> simp +decide

@[simp] theorem State.wheelDecided_parts {q0 : List Part} {z0 : State} (s : State) (d : Nat) (e : Nat) (t : Nat) (cross : Nat) (qev : Nat) (usable : Bool) (cur : List Fit)
    (h0 : within [.lbq, .sensors] q0 = true) :
    OnlyParts q0 z0 (State.wheelDecided s d e t cross qev usable cur) ↔ OnlyParts q0 z0 s := by
  refine OnlyParts.through (ps := [.lbq, .sensors]) ?_ h0
  simp +decide [State.wheelDecided]

@[simp] theorem State.sensorTriggers_parts {q0 : List Part} {z0 : State} (s : State) (d : Nat) (e : Nat) (n : Nat) (old : Sensor) (hist : List DetSample) (fits : List Fit)
    (h0 : within [.regs, .copies, .lbq, .sensors, .events] q0 = true) :
    OnlyParts q0 z0 (State.sensorTriggers s d e n old hist fits) ↔ OnlyParts q0 z0 s := by
  refine OnlyParts.through (ps := [.regs, .copies, .lbq, .sensors, .events]) ?_ h0
  simp only [State.sensorTriggers]
  (repeat' split) <;> simp +decide

@[simp] theorem detectionSample_parts {q0 : List Part} {z0 : State} (d : Nat) (e : Nat) (s : State)
    (h0 : within [.regs, .copies, .lbq, .sensors, .events] q0 = true) :
    OnlyParts q0 z0 (detectionSample d e s) ↔ OnlyParts q0 z0 s := by
  refine OnlyParts.through (ps := [.regs, .copies, .lbq, .sensors, .events]) ?_ h0
  simp only [detectionSample]
  (repeat' split) <;> simp +decide

@[simp] theorem State.dieSend_parts {q0 : List Part} {z0 : State} (s : State) (d : Nat) (bytes : List Byte)
    (h0 : within [.mrg, .sent] q0 = true) :
    OnlyParts q0 z0 (State.dieSend s d bytes) ↔ OnlyParts q0 z0 s := by
  refine OnlyParts.through (ps := [.mrg, .sent]) ?_ h0
  simp only [State.dieSend]
  (repeat' split) <;> simp +decide

@[simp] theorem State.emitEvent_parts {q0 : List Part} {z0 : State} (d : Nat) (home : Nat) (lane : Nat) (s : State) (ev : HeldEvent)
    (h0 : within [.lbq, .sensors, .mrg, .sent] q0 = true) :
    OnlyParts q0 z0 (State.emitEvent d home lane s ev) ↔ OnlyParts q0 z0 s := by
  refine OnlyParts.through (ps := [.lbq, .sensors, .mrg, .sent]) ?_ h0
  simp +decide [State.emitEvent]

@[simp] theorem wheelEventEmit_parts {q0 : List Part} {z0 : State} (d : Nat) (lane : Nat) (s : State)
    (h0 : within [.lbq, .sensors, .mrg, .sent] q0 = true) :
    OnlyParts q0 z0 (wheelEventEmit d lane s) ↔ OnlyParts q0 z0 s := by
  refine OnlyParts.through (ps := [.lbq, .sensors, .mrg, .sent]) ?_ h0
  simp only [wheelEventEmit]
  (repeat' split) <;> simp +decide

@[simp] theorem State.wsdLast0_parts {q0 : List Part} {z0 : State} (s : State) (m : Master) (d : Nat) (h0 : within [.copies] q0 = true) :
    OnlyParts q0 z0 (State.wsdLast0 s m d).1 ↔ OnlyParts q0 z0 s := by
  refine OnlyParts.through (ps := [.copies]) ?_ h0
  simp +decide [State.wsdLast0]

@[simp] theorem wsdWrite_parts {q0 : List Part} {z0 : State} (s : State) (m : Master) (d : Nat) (o : Nat) (v : Word)
    (h0 : within [.copies] q0 = true) :
    OnlyParts q0 z0 (wsdWrite s m d o v) ↔ OnlyParts q0 z0 s := by
  refine OnlyParts.through (ps := [.copies]) ?_ h0
  simp only [wsdWrite]
  (repeat' split) <;> simp +decide

end Sys2Proof.Machine
end

