-- ==== Sys2Proof/Laws/LanesParts.lean ====
section
/-!
SUPPORT. What the operations of Machine/Lanes leave unchanged.
-/
namespace Sys2Proof.Machine

@[simp] theorem State.setDemod_parts {q0 : List Part} {z0 : State} (s : State) (d : Nat) (m : Demod) (h0 : within [.dmd] q0 = true) :
    OnlyParts q0 z0 (State.setDemod s d m) ↔ OnlyParts q0 z0 s := by
  refine OnlyParts.through (ps := [.dmd]) ?_ h0
  exact ⟨fun p hp => by cases p <;> first | exact absurd (by decide) hp | simp [Part.same]⟩

@[simp] theorem State.lbqEvt_parts {q0 : List Part} {z0 : State} (s : State) (d : Nat) (i : Nat)
    (h0 : within [.regs, .copies, .events] q0 = true) :
    OnlyParts q0 z0 (State.lbqEvt s d i) ↔ OnlyParts q0 z0 s := by
  refine OnlyParts.through (ps := [.regs, .copies, .events]) ?_ h0
  simp +decide [State.lbqEvt]

@[simp] theorem State.returnEnds_parts {q0 : List Part} {z0 : State} (s : State) (d : Nat) (result : Nat)
    (h0 : within [.regs, .copies, .lbq, .events] q0 = true) :
    OnlyParts q0 z0 (State.returnEnds s d result) ↔ OnlyParts q0 z0 s := by
  refine OnlyParts.through (ps := [.regs, .copies, .lbq, .events]) ?_ h0
  simp +decide [State.returnEnds]

@[simp] theorem State.spanBreak_parts {q0 : List Part} {z0 : State} (s : State) (d : Nat) (home : Nat) (h0 : within [.dmd] q0 = true) :
    OnlyParts q0 z0 (State.spanBreak s d home) ↔ OnlyParts q0 z0 s := by
  refine OnlyParts.through (ps := [.dmd]) ?_ h0
  simp +decide [State.spanBreak]

@[simp] theorem State.spanAway_parts {q0 : List Part} {z0 : State} (s : State) (d : Nat) (home : Nat)
    (h0 : within [.regs, .copies, .lbq, .events] q0 = true) :
    OnlyParts q0 z0 (State.spanAway s d home) ↔ OnlyParts q0 z0 s := by
  refine OnlyParts.through (ps := [.regs, .copies, .lbq, .events]) ?_ h0
  simp +decide [State.spanAway]

@[simp] theorem State.takeoverBegin_parts {q0 : List Part} {z0 : State} (s : State) (d : Nat) (home : Nat) (spare : Nat) (failed : Nat)
    (h0 : within [.lbq] q0 = true) :
    OnlyParts q0 z0 (State.takeoverBegin s d home spare failed) ↔ OnlyParts q0 z0 s := by
  refine OnlyParts.through (ps := [.lbq]) ?_ h0
  simp +decide [State.takeoverBegin]

@[simp] theorem State.spanLost_parts {q0 : List Part} {z0 : State} (s : State) (d : Nat) (home : Nat) (failed : Nat)
    (h0 : within [.regs, .copies, .lbq, .events] q0 = true) :
    OnlyParts q0 z0 (State.spanLost s d home failed) ↔ OnlyParts q0 z0 s := by
  refine OnlyParts.through (ps := [.regs, .copies, .lbq, .events]) ?_ h0
  simp only [State.spanLost]
  (repeat' split) <;> simp +decide

@[simp] theorem State.laneFault_parts {q0 : List Part} {z0 : State} (s : State) (d : Nat) (i : Nat) (cause : Nat)
    (h0 : within [.regs, .copies, .lbq, .events] q0 = true) :
    OnlyParts q0 z0 (State.laneFault s d i cause) ↔ OnlyParts q0 z0 s := by
  refine OnlyParts.through (ps := [.regs, .copies, .lbq, .events]) ?_ h0
  simp only [State.laneFault]
  (repeat' split) <;> simp +decide

@[simp] theorem State.lanePromote_parts {q0 : List Part} {z0 : State} (s : State) (d : Nat) (i : Nat) (h0 : within [.lbq] q0 = true) :
    OnlyParts q0 z0 (State.lanePromote s d i) ↔ OnlyParts q0 z0 s := by
  refine OnlyParts.through (ps := [.lbq]) ?_ h0
  simp only [State.lanePromote]
  (repeat' split) <;> simp +decide

@[simp] theorem spareLoadComplete_parts {q0 : List Part} {z0 : State} (d : Nat) (b : Nat) (s : State) (h0 : within [.lbq] q0 = true) :
    OnlyParts q0 z0 (spareLoadComplete d b s) ↔ OnlyParts q0 z0 s := by
  refine OnlyParts.through (ps := [.lbq]) ?_ h0
  simp only [spareLoadComplete]
  (repeat' split) <;> simp +decide

@[simp] theorem State.takeoverDone_parts {q0 : List Part} {z0 : State} (s : State) (d : Nat) (t : Takeover)
    (h0 : within [.regs, .copies, .dmd, .lbq, .sensors, .events] q0 = true) :
    OnlyParts q0 z0 (State.takeoverDone s d t) ↔ OnlyParts q0 z0 s := by
  refine OnlyParts.through (ps := [.regs, .copies, .dmd, .lbq, .sensors, .events]) ?_ h0
  simp +decide [State.takeoverDone]

@[simp] theorem State.quarterProgress_parts {q0 : List Part} {z0 : State} (s : State) (d : Nat) (b : Nat) (pass : Bool)
    (h0 : within [.regs, .copies, .lbq, .events] q0 = true) :
    OnlyParts q0 z0 (State.quarterProgress s d b pass) ↔ OnlyParts q0 z0 s := by
  refine OnlyParts.through (ps := [.regs, .copies, .lbq, .events]) ?_ h0
  simp only [State.quarterProgress]
  (repeat' split) <;> simp +decide

@[simp] theorem State.blockFault_parts {q0 : List Part} {z0 : State} (s : State) (d : Nat) (b : Nat) (cause : Nat)
    (h0 : within [.regs, .copies, .lbq, .events] q0 = true) :
    OnlyParts q0 z0 (State.blockFault s d b cause) ↔ OnlyParts q0 z0 s := by
  refine OnlyParts.through (ps := [.regs, .copies, .lbq, .events]) ?_ h0
  simp only [State.blockFault]
  (repeat' split) <;> simp +decide

@[simp] theorem State.quarterFault_parts {q0 : List Part} {z0 : State} (s : State) (d : Nat) (q : Nat) (cause : Nat)
    (h0 : within [.regs, .copies, .lbq, .events] q0 = true) :
    OnlyParts q0 z0 (State.quarterFault s d q cause) ↔ OnlyParts q0 z0 s := by
  refine OnlyParts.through (ps := [.regs, .copies, .lbq, .events]) ?_ h0
  simp only [State.quarterFault]
  (repeat' split) <;> simp +decide

@[simp] theorem blockPowerDown_parts {q0 : List Part} {z0 : State} (d : Nat) (b : Nat) (s : State) (h0 : within [.lbq] q0 = true) :
    OnlyParts q0 z0 (blockPowerDown d b s) ↔ OnlyParts q0 z0 s := by
  refine OnlyParts.through (ps := [.lbq]) ?_ h0
  simp +decide [blockPowerDown]

@[simp] theorem memScrub_parts {q0 : List Part} {z0 : State} (d : Nat) (b : Nat) (r : ScrubResult) (s : State)
    (h0 : within [.regs, .copies, .lbq, .events] q0 = true) :
    OnlyParts q0 z0 (memScrub d b r s) ↔ OnlyParts q0 z0 s := by
  refine OnlyParts.through (ps := [.regs, .copies, .lbq, .events]) ?_ h0
  simp only [memScrub]
  (repeat' split) <;> simp +decide

@[simp] theorem stampFloorSend_parts {q0 : List Part} {z0 : State} (d : Nat) (b : Nat) (s : State) (h0 : within [.lbq] q0 = true) :
    OnlyParts q0 z0 (stampFloorSend d b s) ↔ OnlyParts q0 z0 s := by
  refine OnlyParts.through (ps := [.lbq]) ?_ h0
  simp +decide [stampFloorSend]

@[simp] theorem stampFloorMissing_parts {q0 : List Part} {z0 : State} (d : Nat) (b : Nat) (s : State)
    (h0 : within [.regs, .copies, .lbq, .events] q0 = true) :
    OnlyParts q0 z0 (stampFloorMissing d b s) ↔ OnlyParts q0 z0 s := by
  refine OnlyParts.through (ps := [.regs, .copies, .lbq, .events]) ?_ h0
  simp +decide [stampFloorMissing]

@[simp] theorem State.lbqRefuse_parts {q0 : List Part} {z0 : State} (s : State) (d : Nat) (result : Nat) (refused : Bool)
    (h0 : within [.regs, .copies, .lbq, .events] q0 = true) :
    OnlyParts q0 z0 (State.lbqRefuse s d result refused) ↔ OnlyParts q0 z0 s := by
  refine OnlyParts.through (ps := [.regs, .copies, .lbq, .events]) ?_ h0
  simp +decide [State.lbqRefuse]

@[simp] theorem State.blockReturning_parts {q0 : List Part} {z0 : State} (s : State) (d : Nat) (b : Nat) (h0 : within [.lbq] q0 = true) :
    OnlyParts q0 z0 (State.blockReturning s d b) ↔ OnlyParts q0 z0 s := by
  refine OnlyParts.through (ps := [.lbq]) ?_ h0
  simp +decide [State.blockReturning]

@[simp] theorem State.returnLane_parts {q0 : List Part} {z0 : State} (s : State) (d : Nat) (i : Nat)
    (h0 : within [.regs, .copies, .lbq, .events] q0 = true) :
    OnlyParts q0 z0 (State.returnLane s d i) ↔ OnlyParts q0 z0 s := by
  refine OnlyParts.through (ps := [.regs, .copies, .lbq, .events]) ?_ h0
  simp +decide [State.returnLane]

@[simp] theorem State.returnBlock_parts {q0 : List Part} {z0 : State} (s : State) (d : Nat) (b : Nat)
    (h0 : within [.regs, .copies, .lbq, .events] q0 = true) :
    OnlyParts q0 z0 (State.returnBlock s d b) ↔ OnlyParts q0 z0 s := by
  refine OnlyParts.through (ps := [.regs, .copies, .lbq, .events]) ?_ h0
  simp +decide [State.returnBlock]

@[simp] theorem State.returnQuarter_parts {q0 : List Part} {z0 : State} (s : State) (d : Nat) (q : Nat)
    (h0 : within [.regs, .copies, .lbq, .events] q0 = true) :
    OnlyParts q0 z0 (State.returnQuarter s d q) ↔ OnlyParts q0 z0 s := by
  refine OnlyParts.through (ps := [.regs, .copies, .lbq, .events]) ?_ h0
  simp +decide [State.returnQuarter]

@[simp] theorem State.inject_parts {q0 : List Part} {z0 : State} (s : State) (d : Nat) (t : LbqTarget)
    (h0 : within [.regs, .copies, .lbq, .events] q0 = true) :
    OnlyParts q0 z0 (State.inject s d t) ↔ OnlyParts q0 z0 s := by
  refine OnlyParts.through (ps := [.regs, .copies, .lbq, .events]) ?_ h0
  simp only [State.inject]
  (repeat' split) <;> simp +decide

@[simp] theorem State.lbqCmd_parts {q0 : List Part} {z0 : State} (s : State) (d : Nat) (v : Word)
    (h0 : within [.regs, .copies, .lbq, .events] q0 = true) :
    OnlyParts q0 z0 (State.lbqCmd s d v) ↔ OnlyParts q0 z0 s := by
  refine OnlyParts.through (ps := [.regs, .copies, .lbq, .events]) ?_ h0
  simp only [State.lbqCmd]
  (repeat' split) <;> simp +decide

@[simp] theorem laneReturnTestEnd_parts {q0 : List Part} {z0 : State} (d : Nat) (i : Nat) (s : State)
    (h0 : within [.regs, .copies, .lbq, .events] q0 = true) :
    OnlyParts q0 z0 (laneReturnTestEnd d i s) ↔ OnlyParts q0 z0 s := by
  refine OnlyParts.through (ps := [.regs, .copies, .lbq, .events]) ?_ h0
  simp only [laneReturnTestEnd]
  (repeat' split) <;> simp +decide

@[simp] theorem State.blockBack_parts {q0 : List Part} {z0 : State} (s : State) (d : Nat) (b : Nat)
    (h0 : within [.dmd, .lbq, .sensors] q0 = true) :
    OnlyParts q0 z0 (State.blockBack s d b) ↔ OnlyParts q0 z0 s := by
  refine OnlyParts.through (ps := [.dmd, .lbq, .sensors]) ?_ h0
  simp only [State.blockBack]
  refine (foldl_parts fun x u => ?_).2 ?_
  · refine (foldl_parts fun y v => ?_).2 ?_ <;> simp +decide
  · refine (State.setDemod_parts _ _ _ (by decide)).2 ((foldl_parts fun x u => ?_).2 ?_) <;> simp +decide

@[simp] theorem blockReturnComplete_parts {q0 : List Part} {z0 : State} (d : Nat) (b : Nat) (pass : Bool) (s : State)
    (h0 : within [.regs, .copies, .dmd, .lbq, .sensors, .events] q0 = true) :
    OnlyParts q0 z0 (blockReturnComplete d b pass s) ↔ OnlyParts q0 z0 s := by
  refine OnlyParts.through (ps := [.regs, .copies, .dmd, .lbq, .sensors, .events]) ?_ h0
  simp only [blockReturnComplete]
  (repeat' split) <;> simp +decide

@[simp] theorem State.returnUndone_parts {q0 : List Part} {z0 : State} (s : State) (d : Nat) (t : LbqTarget)
    (h0 : within [.lbq] q0 = true) :
    OnlyParts q0 z0 (State.returnUndone s d t) ↔ OnlyParts q0 z0 s := by
  refine OnlyParts.through (ps := [.lbq]) ?_ h0
  simp only [State.returnUndone]
  (repeat' split) <;> simp +decide

@[simp] theorem State.returnCommitted_parts {q0 : List Part} {z0 : State} (s : State) (d : Nat) (h0 : within [.lbq] q0 = true) :
    OnlyParts q0 z0 (State.returnCommitted s d) ↔ OnlyParts q0 z0 s := by
  refine OnlyParts.through (ps := [.lbq]) ?_ h0
  simp only [State.returnCommitted]
  (repeat' split) <;> simp +decide

@[simp] theorem State.returnContained_parts {q0 : List Part} {z0 : State} (s : State) (d : Nat)
    (h0 : within [.regs, .copies, .lbq, .events] q0 = true) :
    OnlyParts q0 z0 (State.returnContained s d) ↔ OnlyParts q0 z0 s := by
  refine OnlyParts.through (ps := [.regs, .copies, .lbq, .events]) ?_ h0
  simp only [State.returnContained]
  (repeat' split) <;> simp +decide

@[simp] theorem lbqWrite_parts {q0 : List Part} {z0 : State} (s : State) (d : Nat) (o : Nat) (v : Word)
    (h0 : within [.regs, .copies, .lbq, .events] q0 = true) :
    OnlyParts q0 z0 (lbqWrite s d o v) ↔ OnlyParts q0 z0 s := by
  refine OnlyParts.through (ps := [.regs, .copies, .lbq, .events]) ?_ h0
  simp +decide [lbqWrite]

end Sys2Proof.Machine
end

