-- ==== Sys2Proof/Laws/DspParts.lean ====
section
/-!
SUPPORT. What the operations of Machine/Dsp leave unchanged.
-/
namespace Sys2Proof.Machine

@[simp] theorem State.noteTrace_parts {q0 : List Part} {z0 : State} (s : State) (d : Nat) (l : List Traced)
    (h0 : within [.regs, .copies, .events] q0 = true) :
    OnlyParts q0 z0 (State.noteTrace s d l) ↔ OnlyParts q0 z0 s := by
  refine OnlyParts.through (ps := [.regs, .copies, .events]) ?_ h0
  simp +decide [State.noteTrace]

@[simp] theorem State.adcStats_parts {q0 : List Part} {z0 : State} (s : State) (d : Nat) (b : AdcBlock)
    (h0 : within [.regs, .psy] q0 = true) :
    OnlyParts q0 z0 (State.adcStats s d b) ↔ OnlyParts q0 z0 s := by
  refine OnlyParts.through (ps := [.regs, .psy]) ?_ h0
  simp only [State.adcStats]
  (repeat' split) <;> simp +decide

end Sys2Proof.Machine
end

