-- ==== Sys2Proof/Laws/DemodParts.lean ====
section
/-!
SUPPORT. What the operations of Machine/Demod leave unchanged.
-/
namespace Sys2Proof.Machine

@[simp] theorem State.storeTrace_parts {q0 : List Part} {z0 : State} (s : State) (d : Nat) (home : Nat) (tag : PeriodTag) (sl : Slice)
    (h0 : within [.regs, .copies, .dmd, .events] q0 = true) :
    OnlyParts q0 z0 (State.storeTrace s d home tag sl) ↔ OnlyParts q0 z0 s := by
  refine OnlyParts.through (ps := [.regs, .copies, .dmd, .events]) ?_ h0
  simp +decide [State.storeTrace]

@[simp] theorem State.pointSample_parts {q0 : List Part} {z0 : State} (tag : PeriodTag) (d : Nat) (home : Nat) (k : Nat) (s : State) (j : Nat)
    (h0 : within [.dmd] q0 = true) :
    OnlyParts q0 z0 (State.pointSample tag d home k s j) ↔ OnlyParts q0 z0 s := by
  refine OnlyParts.through (ps := [.dmd]) ?_ h0
  simp +decide [State.pointSample]

@[simp] theorem State.pointSubstitute_parts {q0 : List Part} {z0 : State} (tag : PeriodTag) (d : Nat) (home : Nat) (k : Nat) (s : State) (j : Nat)
    (h0 : within [.dmd] q0 = true) :
    OnlyParts q0 z0 (State.pointSubstitute tag d home k s j) ↔ OnlyParts q0 z0 s := by
  refine OnlyParts.through (ps := [.dmd]) ?_ h0
  simp +decide [State.pointSubstitute]

@[simp] theorem State.acqSlice_parts {q0 : List Part} {z0 : State} (s : State) (d : Nat) (sl : Slice) (h0 : within [.dmd] q0 = true) :
    OnlyParts q0 z0 (State.acqSlice s d sl) ↔ OnlyParts q0 z0 s := by
  refine OnlyParts.through (ps := [.dmd]) ?_ h0
  simp +decide [State.acqSlice]

@[simp] theorem refWindowEnd_parts {q0 : List Part} {z0 : State} (d : Nat) (k : Nat) (j : Nat) (s : State) (h0 : within [.dmd] q0 = true) :
    OnlyParts q0 z0 (refWindowEnd d k j s) ↔ OnlyParts q0 z0 s := by
  refine OnlyParts.through (ps := [.dmd]) ?_ h0
  simp +decide [refWindowEnd]

@[simp] theorem State.reacquire_parts {q0 : List Part} {z0 : State} (s : State) (d : Nat)
    (h0 : within [.regs, .copies, .dmd, .lbq, .events] q0 = true) :
    OnlyParts q0 z0 (State.reacquire s d) ↔ OnlyParts q0 z0 s := by
  refine OnlyParts.through (ps := [.regs, .copies, .dmd, .lbq, .events]) ?_ h0
  simp only [State.reacquire, State.when]
  (repeat' split) <;> first | (simp +decide; done) | exact ⟨fun p hp => by cases p <;> first | exact absurd (by decide) hp | simp [Part.same]⟩

@[simp] theorem State.reacqRequest_parts {q0 : List Part} {z0 : State} (s : State) (d : Nat)
    (h0 : within [.regs, .copies, .dmd, .lbq, .events] q0 = true) :
    OnlyParts q0 z0 (State.reacqRequest s d) ↔ OnlyParts q0 z0 s := by
  refine OnlyParts.through (ps := [.regs, .copies, .dmd, .lbq, .events]) ?_ h0
  simp +decide [State.reacqRequest]

@[simp] theorem State.reacqDone_parts {q0 : List Part} {z0 : State} (s : State) (d : Nat)
    (h0 : within [.regs, .copies, .dmd, .events] q0 = true) :
    OnlyParts q0 z0 (State.reacqDone s d) ↔ OnlyParts q0 z0 s := by
  refine OnlyParts.through (ps := [.regs, .copies, .dmd, .events]) ?_ h0
  simp +decide [State.reacqDone]

@[simp] theorem reacqComplete_parts {q0 : List Part} {z0 : State} (d : Nat) (s : State)
    (h0 : within [.regs, .copies, .dmd, .lbq, .events] q0 = true) :
    OnlyParts q0 z0 (reacqComplete d s) ↔ OnlyParts q0 z0 s := by
  refine OnlyParts.through (ps := [.regs, .copies, .dmd, .lbq, .events]) ?_ h0
  simp only [reacqComplete]
  (repeat' split) <;> simp (maxDischargeDepth := 7) +decide

@[simp] theorem State.forceAcq_parts {q0 : List Part} {z0 : State} (s : State) (d : Nat) (inSpan : Nat → Bool)
    (h0 : within [.regs, .copies, .dmd, .events] q0 = true) :
    OnlyParts q0 z0 (State.forceAcq s d inSpan) ↔ OnlyParts q0 z0 s := by
  refine OnlyParts.through (ps := [.regs, .copies, .dmd, .events]) ?_ h0
  simp +decide [State.forceAcq]

@[simp] theorem reacqForce_parts {q0 : List Part} {z0 : State} (d : Nat) (s : State)
    (h0 : within [.regs, .copies, .dmd, .lbq, .events] q0 = true) :
    OnlyParts q0 z0 (reacqForce d s) ↔ OnlyParts q0 z0 s := by
  refine OnlyParts.through (ps := [.regs, .copies, .dmd, .lbq, .events]) ?_ h0
  simp only [reacqForce, State.when]
  (repeat' split) <;> first | (simp +decide; done) | exact ⟨fun p hp => by cases p <;> first | exact absurd (by decide) hp | simp [Part.same]⟩

@[simp] theorem State.spanSamples_parts {q0 : List Part} {z0 : State} (s : State) (d home k : Nat) (tag : PeriodTag)
    (f : PeriodTag → Nat → Nat → Nat → State → Nat → State) (hf : ∀ u j, OnlyParts q0 u (f tag d home k u j))
    (h0 : within [.dmd, .lbq] q0 = true) : OnlyParts q0 z0 (s.spanSamples d home k tag f) ↔ OnlyParts q0 z0 s := by
  refine OnlyParts.through (ps := q0) ?_ (by simp [within])
  simp only [State.spanSamples]
  exact (foldl_parts fun x u => hf _ _).2 ((State.modLane_parts _ _ _ _ (within.trans (by decide) h0)).2 (OnlyParts.refl ..))

@[simp] theorem State.eccCount_parts {q0 : List Part} {z0 : State} (s : State) (d : Nat) (b : Nat) (n : Nat)
    (h0 : within [.regs, .copies, .events] q0 = true) :
    OnlyParts q0 z0 (State.eccCount s d b n) ↔ OnlyParts q0 z0 s := by
  refine OnlyParts.through (ps := [.regs, .copies, .events]) ?_ h0
  simp +decide [State.eccCount]

@[simp] theorem State.laneSlice_parts {q0 : List Part} {z0 : State} (s : State) (d : Nat) (lane : Nat) (home : Nat) (tag : PeriodTag) (sl : Slice)
    (h0 : within [.regs, .copies, .dmd, .lbq, .events] q0 = true) :
    OnlyParts q0 z0 (State.laneSlice s d lane home tag sl) ↔ OnlyParts q0 z0 s := by
  refine OnlyParts.through (ps := [.regs, .copies, .dmd, .lbq, .events]) ?_ h0
  simp only [State.laneSlice]
  (repeat' split) <;> simp (maxDischargeDepth := 7) +decide

@[simp] theorem State.laneTakes_parts {q0 : List Part} {z0 : State} (s : State) (d : Nat) (lane : Nat) (tag : PeriodTag) (sl : Slice)
    (h0 : within [.regs, .copies, .dmd, .lbq, .sensors, .events] q0 = true) :
    OnlyParts q0 z0 (State.laneTakes s d lane tag sl) ↔ OnlyParts q0 z0 s := by
  refine OnlyParts.through (ps := [.regs, .copies, .dmd, .lbq, .sensors, .events]) ?_ h0
  simp only [State.laneTakes]
  (repeat' split) <;> simp (maxDischargeDepth := 7) +decide

@[simp] theorem sliceReceived_parts {q0 : List Part} {z0 : State} (d : Nat) (lane : Nat) (sl : Slice) (s : State)
    (h0 : within [.regs, .copies, .psy, .dmd, .lbq, .sensors, .events] q0 = true) :
    OnlyParts q0 z0 (sliceReceived d lane sl s) ↔ OnlyParts q0 z0 s := by
  refine OnlyParts.through (ps := [.regs, .copies, .psy, .dmd, .lbq, .sensors, .events]) ?_ h0
  simp only [sliceReceived]
  (repeat' split) <;> simp +decide

@[simp] theorem State.sendEdges_parts {q0 : List Part} {z0 : State} (s : State) (d : Nat) (home : Nat) (h0 : within [.lbq] q0 = true) :
    OnlyParts q0 z0 (State.sendEdges s d home) ↔ OnlyParts q0 z0 s := by
  refine OnlyParts.through (ps := [.lbq]) ?_ h0
  simp only [State.sendEdges]
  refine (foldl_parts fun x u => ?_).2 (by simp +decide)
  (repeat' split) <;> simp +decide

@[simp] theorem edgeRecordReceived_parts {q0 : List Part} {z0 : State} (d : Nat) (lane : Nat) (upper : Bool) (s : State)
    (h0 : within [.lbq] q0 = true) :
    OnlyParts q0 z0 (edgeRecordReceived d lane upper s) ↔ OnlyParts q0 z0 s := by
  refine OnlyParts.through (ps := [.lbq]) ?_ h0
  simp only [edgeRecordReceived]
  (repeat' split) <;> simp +decide

@[simp] theorem State.refreshSpan_parts {q0 : List Part} {z0 : State} (s : State) (d : Nat) (home : Nat) (h0 : within [.dmd] q0 = true) :
    OnlyParts q0 z0 (State.refreshSpan s d home) ↔ OnlyParts q0 z0 s := by
  refine OnlyParts.through (ps := [.dmd]) ?_ h0
  simp +decide [State.refreshSpan]

@[simp] theorem State.periodFlags_parts {q0 : List Part} {z0 : State} (s : State) (d : Nat) (home : Nat) (h0 : within [.dmd] q0 = true) :
    OnlyParts q0 z0 (State.periodFlags s d home) ↔ OnlyParts q0 z0 s := by
  refine OnlyParts.through (ps := [.dmd]) ?_ h0
  simp +decide [State.periodFlags]

@[simp] theorem lanePeriodEnd_parts {q0 : List Part} {z0 : State} (d : Nat) (lane : Nat) (s : State) (h0 : within [.dmd, .lbq] q0 = true) :
    OnlyParts q0 z0 (lanePeriodEnd d lane s) ↔ OnlyParts q0 z0 s := by
  refine OnlyParts.through (ps := [.dmd, .lbq]) ?_ h0
  simp +decide [lanePeriodEnd]

@[simp] theorem State.tailTakes_parts {q0 : List Part} {z0 : State} (s : State) (d : Nat) (k : Nat) (tag : PeriodTag) (adc : AdcBlock) (guard : Option AdcBlock)
    (h0 : within [.regs, .copies, .dmd, .events] q0 = true) :
    OnlyParts q0 z0 (State.tailTakes s d k tag adc guard) ↔ OnlyParts q0 z0 s := by
  refine OnlyParts.through (ps := [.regs, .copies, .dmd, .events]) ?_ h0
  simp +decide [State.tailTakes]

@[simp] theorem tailWindowEnd_parts {q0 : List Part} {z0 : State} (d : Nat) (k : Nat) (adc : AdcBlock) (guard : Option AdcBlock) (s : State)
    (h0 : within [.regs, .copies, .psy, .dmd, .events] q0 = true) :
    OnlyParts q0 z0 (tailWindowEnd d k adc guard s) ↔ OnlyParts q0 z0 s := by
  refine OnlyParts.through (ps := [.regs, .copies, .psy, .dmd, .events]) ?_ h0
  simp only [tailWindowEnd]
  (repeat' split) <;> cases guard <;> simp (maxDischargeDepth := 7) +decide

@[simp] theorem State.ageNoise_parts {q0 : List Part} {z0 : State} (s : State) (d : Nat)
    (h0 : within [.regs, .copies, .dmd, .events] q0 = true) :
    OnlyParts q0 z0 (State.ageNoise s d) ↔ OnlyParts q0 z0 s := by
  refine OnlyParts.through (ps := [.regs, .copies, .dmd, .events]) ?_ h0
  simp +decide [State.ageNoise]

@[simp] theorem State.dmdApply_parts {q0 : List Part} {z0 : State} (s : State) (d : Nat) (a : Nat) (v : Word)
    (h0 : within [.regs, .dmd] q0 = true) :
    OnlyParts q0 z0 (State.dmdApply s d a v) ↔ OnlyParts q0 z0 s := by
  refine OnlyParts.through (ps := [.regs, .dmd]) ?_ h0
  simp +decide [State.dmdApply]

@[simp] theorem State.applyStaged_parts {q0 : List Part} {z0 : State} (s : State) (d : Nat) (h0 : within [.regs, .dmd] q0 = true) :
    OnlyParts q0 z0 (State.applyStaged s d) ↔ OnlyParts q0 z0 s := by
  refine OnlyParts.through (ps := [.regs, .dmd]) ?_ h0
  simp +decide [State.applyStaged]

@[simp] theorem dmdWrite_parts {q0 : List Part} {z0 : State} (s : State) (m : Master) (d : Nat) (o : Nat) (v : Word)
    (h0 : within [.regs, .copies, .dmd, .lbq, .events] q0 = true) :
    OnlyParts q0 z0 (dmdWrite s m d o v) ↔ OnlyParts q0 z0 s := by
  refine OnlyParts.through (ps := [.regs, .copies, .dmd, .lbq, .events]) ?_ h0
  simp only [dmdWrite]
  (repeat' split) <;> simp +decide

@[simp] theorem State.probeLo_parts {q0 : List Part} {z0 : State} (s : State) (m : Master) (d : Nat) (h0 : within [.copies] q0 = true) :
    OnlyParts q0 z0 (State.probeLo s m d).1 ↔ OnlyParts q0 z0 s := by
  refine OnlyParts.through (ps := [.copies]) ?_ h0
  simp +decide [State.probeLo]

@[simp] theorem State.epochLo_parts {q0 : List Part} {z0 : State} (s : State) (m : Master) (d : Nat) (h0 : within [.copies] q0 = true) :
    OnlyParts q0 z0 (State.epochLo s m d).1 ↔ OnlyParts q0 z0 s := by
  refine OnlyParts.through (ps := [.copies]) ?_ h0
  simp +decide [State.epochLo]

end Sys2Proof.Machine
end

