-- ==== Sys2Proof/Laws/CalibParts.lean ====
section
/-!
SUPPORT. What the operations of Machine/Calib leave unchanged.
-/
namespace Sys2Proof.Machine

@[simp] theorem State.setCalPort_parts {q0 : List Part} {z0 : State} (s : State) (d : Nat) (c : CalPort) (h0 : within [.cal] q0 = true) :
    OnlyParts q0 z0 (State.setCalPort s d c) ↔ OnlyParts q0 z0 s := by
  refine OnlyParts.through (ps := [.cal]) ?_ h0
  exact ⟨fun p hp => by cases p <;> first | exact absurd (by decide) hp | simp [Part.same]⟩

@[simp] theorem State.calEvt_parts {q0 : List Part} {z0 : State} (s : State) (d : Nat) (i : Nat)
    (h0 : within [.regs, .copies, .events] q0 = true) :
    OnlyParts q0 z0 (State.calEvt s d i) ↔ OnlyParts q0 z0 s := by
  refine OnlyParts.through (ps := [.regs, .copies, .events]) ?_ h0
  simp +decide [State.calEvt]

@[simp] theorem calRoundStart_parts {q0 : List Part} {z0 : State} (d : Nat) (s : State) (h0 : within [.cal] q0 = true) :
    OnlyParts q0 z0 (calRoundStart d s) ↔ OnlyParts q0 z0 s := by
  refine OnlyParts.through (ps := [.cal]) ?_ h0
  simp +decide [calRoundStart]

@[simp] theorem calPhaseAEnd_parts {q0 : List Part} {z0 : State} (d : Nat) (s : State) (h0 : within [.cal] q0 = true) :
    OnlyParts q0 z0 (calPhaseAEnd d s) ↔ OnlyParts q0 z0 s := by
  refine OnlyParts.through (ps := [.cal]) ?_ h0
  simp +decide [calPhaseAEnd]

@[simp] theorem calRoundAbandon_parts {q0 : List Part} {z0 : State} (d : Nat) (s : State)
    (h0 : within [.regs, .copies, .cal, .events] q0 = true) :
    OnlyParts q0 z0 (calRoundAbandon d s) ↔ OnlyParts q0 z0 s := by
  refine OnlyParts.through (ps := [.regs, .copies, .cal, .events]) ?_ h0
  simp +decide [calRoundAbandon]

@[simp] theorem calRoundEnd_parts {q0 : List Part} {z0 : State} (d : Nat) (r : RoundResult) (s : State)
    (h0 : within [.regs, .copies, .cal, .events] q0 = true) :
    OnlyParts q0 z0 (calRoundEnd d r s) ↔ OnlyParts q0 z0 s := by
  refine OnlyParts.through (ps := [.regs, .copies, .cal, .events]) ?_ h0
  simp +decide [calRoundEnd]

@[simp] theorem State.writeSet_parts {q0 : List Part} {z0 : State} (s : State) (set : CalSet) (h0 : within [.trims, .store] q0 = true) :
    OnlyParts q0 z0 (State.writeSet s set) ↔ OnlyParts q0 z0 s := by
  refine OnlyParts.through (ps := [.trims, .store]) ?_ h0
  simp +decide [State.writeSet]

@[simp] theorem calRampEnd_parts {q0 : List Part} {z0 : State} (d : Nat) (s : State) (h0 : within [.cal, .trims, .store] q0 = true) :
    OnlyParts q0 z0 (calRampEnd d s) ↔ OnlyParts q0 z0 s := by
  refine OnlyParts.through (ps := [.cal, .trims, .store]) ?_ h0
  simp only [calRampEnd]
  (repeat' split) <;> simp +decide

@[simp] theorem State.loadCal_parts {q0 : List Part} {z0 : State} (s : State) (d : Nat) (h0 : within [.cal] q0 = true) :
    OnlyParts q0 z0 (State.loadCal s d) ↔ OnlyParts q0 z0 s := by
  refine OnlyParts.through (ps := [.cal]) ?_ h0
  simp only [State.loadCal]
  (repeat' split) <;> simp +decide

@[simp] theorem calBankWriteDone_parts {q0 : List Part} {z0 : State} (s : State)
    (h0 : within [.regs, .copies, .ofe, .events, .store] q0 = true) :
    OnlyParts q0 z0 (calBankWriteDone s) ↔ OnlyParts q0 z0 s := by
  refine OnlyParts.through (ps := [.regs, .copies, .ofe, .events, .store]) ?_ h0
  simp +decide [calBankWriteDone]

@[simp] theorem trimSetWrite_parts {q0 : List Part} {z0 : State} (s : State) (h0 : within [.trims, .store] q0 = true) :
    OnlyParts q0 z0 (trimSetWrite s) ↔ OnlyParts q0 z0 s := by
  refine OnlyParts.through (ps := [.trims, .store]) ?_ h0
  simp only [trimSetWrite]
  (repeat' split) <;> simp +decide

@[simp] theorem trimReportReceived_parts {q0 : List Part} {z0 : State} (s : State) (h0 : within [.trims] q0 = true) :
    OnlyParts q0 z0 (trimReportReceived s) ↔ OnlyParts q0 z0 s := by
  refine OnlyParts.through (ps := [.trims]) ?_ h0
  simp only [trimReportReceived]
  (repeat' split) <;> first | (simp +decide; done) | exact ⟨fun p hp => by cases p <;> first | exact absurd (by decide) hp | simp [Part.same]⟩

@[simp] theorem State.calParamWrite_parts {q0 : List Part} {z0 : State} (s : State) (d : Nat) (o : Nat) (v : Word)
    (h0 : within [.regs, .copies, .events] q0 = true) :
    OnlyParts q0 z0 (State.calParamWrite s d o v) ↔ OnlyParts q0 z0 s := by
  refine OnlyParts.through (ps := [.regs, .copies, .events]) ?_ h0
  simp +decide [State.calParamWrite]

@[simp] theorem calWrite_parts {q0 : List Part} {z0 : State} (s : State) (m : Master) (d : Nat) (o : Nat) (v : Word)
    (h0 : within [.regs, .copies, .dmd, .events] q0 = true) :
    OnlyParts q0 z0 (calWrite s m d o v) ↔ OnlyParts q0 z0 s := by
  refine OnlyParts.through (ps := [.regs, .copies, .dmd, .events]) ?_ h0
  simp +decide [calWrite]

@[simp] theorem State.blockClocks_parts {q0 : List Part} {z0 : State} (s : State) (d : Nat) (h0 : within [.lbq] q0 = true) :
    OnlyParts q0 z0 (State.blockClocks s d) ↔ OnlyParts q0 z0 s := by
  refine OnlyParts.through (ps := [.lbq]) ?_ h0
  simp +decide [State.blockClocks]

@[simp] theorem State.roundPeriod_parts {q0 : List Part} {z0 : State} (s : State) (d : Nat) (h0 : within [.cal] q0 = true) :
    OnlyParts q0 z0 (State.roundPeriod s d) ↔ OnlyParts q0 z0 s := by
  refine OnlyParts.through (ps := [.cal]) ?_ h0
  simp +decide [State.roundPeriod]

@[simp] theorem State.psyLive_parts {q0 : List Part} {z0 : State} (s : State) (d : Nat) (set : ProbeSet)
    (h0 : within [.regs, .copies, .ofe, .psy, .dmd, .lbq, .cal, .events] q0 = true) :
    OnlyParts q0 z0 (State.psyLive s d set) ↔ OnlyParts q0 z0 s := by
  refine OnlyParts.through (ps := [.regs, .copies, .ofe, .psy, .dmd, .lbq, .cal, .events]) ?_ h0
  simp +decide [State.psyLive]

@[simp] theorem State.periodBegins_parts {q0 : List Part} {z0 : State} (s : State) (d : Nat) (fire : Bool) (same : Bool) (at5 : Nat)
    (h0 : within [.psy] q0 = true) :
    OnlyParts q0 z0 (State.periodBegins s d fire same at5) ↔ OnlyParts q0 z0 s := by
  refine OnlyParts.through (ps := [.psy]) ?_ h0
  simp +decide [State.periodBegins]

@[simp] theorem State.periodOpens_parts {q0 : List Part} {z0 : State} (s : State) (d : Nat) (fire : Bool) (same : Bool) (at5 : Nat)
    (h0 : within [.regs, .copies, .psy, .dmd, .lbq, .cal, .events] q0 = true) :
    OnlyParts q0 z0 (State.periodOpens s d fire same at5) ↔ OnlyParts q0 z0 s := by
  refine OnlyParts.through (ps := [.regs, .copies, .psy, .dmd, .lbq, .cal, .events]) ?_ h0
  simp +decide [State.periodOpens]

@[simp] theorem periodStart_parts {q0 : List Part} {z0 : State} (d : Nat) (s : State)
    (h0 : within [.regs, .copies, .ofe, .psy, .dmd, .lbq, .cal, .events] q0 = true) :
    OnlyParts q0 z0 (periodStart d s) ↔ OnlyParts q0 z0 s := by
  refine OnlyParts.through (ps := [.regs, .copies, .ofe, .psy, .dmd, .lbq, .cal, .events]) ?_ h0
  simp only [periodStart]
  (repeat' split) <;> simp +decide

@[simp] theorem probeStart_parts {q0 : List Part} {z0 : State} (d : Nat) (s : State)
    (h0 : within [.regs, .copies, .ofe, .dmd, .lbq, .events] q0 = true) :
    OnlyParts q0 z0 (probeStart d s) ↔ OnlyParts q0 z0 s := by
  refine OnlyParts.through (ps := [.regs, .copies, .ofe, .dmd, .lbq, .events]) ?_ h0
  simp +decide [probeStart]

end Sys2Proof.Machine
end

