-- ==== Sys2Proof/Laws/MemoryParts.lean ====
section
/-!
SUPPORT. What the operations of Machine/Memory leave unchanged.
-/
namespace Sys2Proof.Machine

@[simp] theorem State.cvRange_parts {q0 : List Part} {z0 : State} (s : State) (u : Nat) (content : List Byte)
    (h0 : within [.regs] q0 = true) :
    OnlyParts q0 z0 (State.cvRange s u content) ↔ OnlyParts q0 z0 s := by
  refine OnlyParts.through (ps := [.regs]) ?_ h0
  simp +decide [State.cvRange]

@[simp] theorem State.store_parts {q0 : List Part} {z0 : State} (s : State) (a : Nat) (l : List Byte) (h0 : within [.cvu, .mem] q0 = true) :
    OnlyParts q0 z0 (State.store s a l) ↔ OnlyParts q0 z0 s := by
  refine OnlyParts.through (ps := [.cvu, .mem]) ?_ h0
  simp only [State.store]
  (repeat' split) <;> first | (simp +decide; done) | exact ⟨fun p hp => by cases p <;> first | exact absurd (by decide) hp | simp [Part.same]⟩

end Sys2Proof.Machine
end

