-- ==== Sys2Proof/Laws/StagingParts.lean ====
section
/-!
SUPPORT. What the operations of Machine/Staging leave unchanged.
-/
namespace Sys2Proof.Machine

@[simp] theorem State.setStr_parts {q0 : List Part} {z0 : State} (s : State) (f : Str → Str) (h0 : within [.str] q0 = true) :
    OnlyParts q0 z0 (State.setStr s f) ↔ OnlyParts q0 z0 s := by
  refine OnlyParts.through (ps := [.str]) ?_ h0
  exact ⟨fun p hp => by cases p <;> first | exact absurd (by decide) hp | simp [Part.same]⟩

@[simp] theorem State.strIdle_parts {q0 : List Part} {z0 : State} (s : State) (h0 : within [.str] q0 = true) :
    OnlyParts q0 z0 (State.strIdle s) ↔ OnlyParts q0 z0 s := by
  refine OnlyParts.through (ps := [.str]) ?_ h0
  simp +decide [State.strIdle]

@[simp] theorem State.strAbort_parts {q0 : List Part} {z0 : State} (s : State) (h0 : within [.regs, .copies, .str, .events] q0 = true) :
    OnlyParts q0 z0 (State.strAbort s).1 ↔ OnlyParts q0 z0 s := by
  refine OnlyParts.through (ps := [.regs, .copies, .str, .events]) ?_ h0
  simp only [State.strAbort]
  (repeat' split) <;> simp +decide

@[simp] theorem State.strAbandon_parts {q0 : List Part} {z0 : State} (s : State)
    (h0 : within [.regs, .copies, .str, .events, .store] q0 = true) :
    OnlyParts q0 z0 (State.strAbandon s) ↔ OnlyParts q0 z0 s := by
  refine OnlyParts.through (ps := [.regs, .copies, .str, .events, .store]) ?_ h0
  simp only [State.strAbandon]
  (repeat' split) <;> simp +decide

@[simp] theorem State.showDiff_parts {q0 : List Part} {z0 : State} (s : State) (h0 : within [.regs] q0 = true) :
    OnlyParts q0 z0 (State.showDiff s) ↔ OnlyParts q0 z0 s := by
  refine OnlyParts.through (ps := [.regs]) ?_ h0
  simp +decide [State.showDiff]

end Sys2Proof.Machine
end

