-- ==== Sys2Proof/Laws/FieldInParts.lean ====
section
/-!
SUPPORT. What the operations of Machine/FieldIn leave unchanged.
-/
namespace Sys2Proof.Machine

@[simp] theorem State.setFdin_parts {q0 : List Part} {z0 : State} (s : State) (f : FieldInputs → FieldInputs)
    (h0 : within [.fdin] q0 = true) :
    OnlyParts q0 z0 (State.setFdin s f) ↔ OnlyParts q0 z0 s := by
  refine OnlyParts.through (ps := [.fdin]) ?_ h0
  exact ⟨fun p hp => by cases p <;> first | exact absurd (by decide) hp | simp [Part.same]⟩

@[simp] theorem State.setWsc_parts {q0 : List Part} {z0 : State} (s : State) (k : Nat) (w : Wsc) (h0 : within [.fdin] q0 = true) :
    OnlyParts q0 z0 (State.setWsc s k w) ↔ OnlyParts q0 z0 s := by
  refine OnlyParts.through (ps := [.fdin]) ?_ h0
  simp +decide [State.setWsc]

@[simp] theorem State.wscEvt_parts {q0 : List Part} {z0 : State} (s : State) (i : Nat) (h0 : within [.regs, .copies, .events] q0 = true) :
    OnlyParts q0 z0 (State.wscEvt s i) ↔ OnlyParts q0 z0 s := by
  refine OnlyParts.through (ps := [.regs, .copies, .events]) ?_ h0
  simp +decide [State.wscEvt]

@[simp] theorem State.legacyHold_parts {q0 : List Part} {z0 : State} (s : State) (k : Nat) (kind : Nat) (cause : Nat) (t : Nat) (stale : Bool)
    (h0 : within [.copies, .fdin, .events] q0 = true) :
    OnlyParts q0 z0 (State.legacyHold s k kind cause t stale) ↔ OnlyParts q0 z0 s := by
  refine OnlyParts.through (ps := [.copies, .fdin, .events]) ?_ h0
  simp +decide [State.legacyHold]

@[simp] theorem legacyEventEmit_parts {q0 : List Part} {z0 : State} (lh : Nat) (s : State) (h0 : within [.fdin, .sent] q0 = true) :
    OnlyParts q0 z0 (legacyEventEmit lh s) ↔ OnlyParts q0 z0 s := by
  refine OnlyParts.through (ps := [.fdin, .sent]) ?_ h0
  simp only [legacyEventEmit]
  (repeat' split) <;> simp +decide

@[simp] theorem State.wscFault_parts {q0 : List Part} {z0 : State} (s : State) (k : Nat) (code : Nat)
    (h0 : within [.regs, .copies, .fdin, .events] q0 = true) :
    OnlyParts q0 z0 (State.wscFault s k code) ↔ OnlyParts q0 z0 s := by
  refine OnlyParts.through (ps := [.regs, .copies, .fdin, .events]) ?_ h0
  simp +decide [State.wscFault]

@[simp] theorem State.wscFaultEnd_parts {q0 : List Part} {z0 : State} (s : State) (k : Nat) (code : Nat)
    (h0 : within [.regs, .copies, .fdin, .events] q0 = true) :
    OnlyParts q0 z0 (State.wscFaultEnd s k code) ↔ OnlyParts q0 z0 s := by
  refine OnlyParts.through (ps := [.regs, .copies, .fdin, .events]) ?_ h0
  simp +decide [State.wscFaultEnd]

@[simp] theorem State.wscWake_parts {q0 : List Part} {z0 : State} (s : State) (k : Nat)
    (h0 : within [.regs, .copies, .fdin, .events] q0 = true) :
    OnlyParts q0 z0 (State.wscWake s k) ↔ OnlyParts q0 z0 s := by
  refine OnlyParts.through (ps := [.regs, .copies, .fdin, .events]) ?_ h0
  simp +decide [State.wscWake]

@[simp] theorem State.wscTake_parts {q0 : List Part} {z0 : State} (s : State) (k : Nat) (damped : Bool)
    (h0 : within [.regs, .copies, .fdin, .events] q0 = true) :
    OnlyParts q0 z0 (State.wscTake s k damped) ↔ OnlyParts q0 z0 s := by
  refine OnlyParts.through (ps := [.regs, .copies, .fdin, .events]) ?_ h0
  simp +decide [State.wscTake]

@[simp] theorem channelSettle_parts {q0 : List Part} {z0 : State} (k : Nat) (runs : List WsRun) (s : State)
    (h0 : within [.regs, .copies, .fdin, .events] q0 = true) :
    OnlyParts q0 z0 (channelSettle k runs s) ↔ OnlyParts q0 z0 s := by
  refine OnlyParts.through (ps := [.regs, .copies, .fdin, .events]) ?_ h0
  simp only [channelSettle]
  (repeat' split) <;> simp +decide

@[simp] theorem legacyEdge_parts {q0 : List Part} {z0 : State} (k : Nat) (runs : List WsRun) (s : State)
    (h0 : within [.regs, .copies, .fdin, .events] q0 = true) :
    OnlyParts q0 z0 (legacyEdge k runs s) ↔ OnlyParts q0 z0 s := by
  refine OnlyParts.through (ps := [.regs, .copies, .fdin, .events]) ?_ h0
  simp only [legacyEdge]
  (repeat' split) <;> simp +decide

@[simp] theorem channelDwellFault_parts {q0 : List Part} {z0 : State} (k : Nat) (runs : List WsRun) (s : State)
    (h0 : within [.regs, .copies, .fdin, .events] q0 = true) :
    OnlyParts q0 z0 (channelDwellFault k runs s) ↔ OnlyParts q0 z0 s := by
  refine OnlyParts.through (ps := [.regs, .copies, .fdin, .events]) ?_ h0
  simp only [channelDwellFault]
  (repeat' split) <;> simp +decide

@[simp] theorem channelWindowFault_parts {q0 : List Part} {z0 : State} (k : Nat) (low : Bool) (runs : List WsRun) (s : State)
    (h0 : within [.regs, .copies, .fdin, .events] q0 = true) :
    OnlyParts q0 z0 (channelWindowFault k low runs s) ↔ OnlyParts q0 z0 s := by
  refine OnlyParts.through (ps := [.regs, .copies, .fdin, .events]) ?_ h0
  simp +decide [channelWindowFault]

@[simp] theorem channelFaultEnd_parts {q0 : List Part} {z0 : State} (k : Nat) (code : Nat) (runs : List WsRun) (s : State)
    (h0 : within [.regs, .copies, .fdin, .events] q0 = true) :
    OnlyParts q0 z0 (channelFaultEnd k code runs s) ↔ OnlyParts q0 z0 s := by
  refine OnlyParts.through (ps := [.regs, .copies, .fdin, .events]) ?_ h0
  simp only [channelFaultEnd]
  (repeat' split) <;> simp +decide

@[simp] theorem State.latchClear_parts {q0 : List Part} {z0 : State} (s : State) (k : Nat) (h0 : within [.fdin] q0 = true) :
    OnlyParts q0 z0 (State.latchClear s k) ↔ OnlyParts q0 z0 s := by
  refine OnlyParts.through (ps := [.fdin]) ?_ h0
  simp +decide [State.latchClear]

@[simp] theorem wscLatchClear_parts {q0 : List Part} {z0 : State} (hi : Bool) (mask : Word) (s : State) (h0 : within [.fdin] q0 = true) :
    OnlyParts q0 z0 (wscLatchClear hi mask s) ↔ OnlyParts q0 z0 s := by
  refine OnlyParts.through (ps := [.fdin]) ?_ h0
  simp +decide [wscLatchClear]

@[simp] theorem State.latchMark_parts {q0 : List Part} {z0 : State} (s : State) (h0 : within [.fdin] q0 = true) :
    OnlyParts q0 z0 (State.latchMark s) ↔ OnlyParts q0 z0 s := by
  refine OnlyParts.through (ps := [.fdin]) ?_ h0
  simp +decide [State.latchMark]

@[simp] theorem State.wscEnable_parts {q0 : List Part} {z0 : State} (s : State) (k : Nat) (h0 : within [.fdin] q0 = true) :
    OnlyParts q0 z0 (State.wscEnable s k) ↔ OnlyParts q0 z0 s := by
  refine OnlyParts.through (ps := [.fdin]) ?_ h0
  simp +decide [State.wscEnable]

@[simp] theorem State.dacFrame_parts {q0 : List Part} {z0 : State} (s : State) (k : Nat) (a : AdcScan)
    (h0 : within [.regs, .copies, .fdin, .events] q0 = true) :
    OnlyParts q0 z0 (State.dacFrame s k a) ↔ OnlyParts q0 z0 s := by
  refine OnlyParts.through (ps := [.regs, .copies, .fdin, .events]) ?_ h0
  simp +decide [State.dacFrame]

@[simp] theorem State.refScan_parts {q0 : List Part} {z0 : State} (s : State) (k : Nat) (scan : List Nat)
    (h0 : within [.regs, .copies, .fdin, .events] q0 = true) :
    OnlyParts q0 z0 (State.refScan s k scan) ↔ OnlyParts q0 z0 s := by
  refine OnlyParts.through (ps := [.regs, .copies, .fdin, .events]) ?_ h0
  simp +decide [State.refScan]

@[simp] theorem adcFrame_parts {q0 : List Part} {z0 : State} (a : AdcScan) (s : State)
    (h0 : within [.regs, .copies, .fdin, .events] q0 = true) :
    OnlyParts q0 z0 (adcFrame a s) ↔ OnlyParts q0 z0 s := by
  refine OnlyParts.through (ps := [.regs, .copies, .fdin, .events]) ?_ h0
  simp only [adcFrame]
  (repeat' split) <;> simp (maxDischargeDepth := 7) +decide

@[simp] theorem adcRequest_parts {q0 : List Part} {z0 : State} (v : Word) (s : State)
    (h0 : within [.regs, .copies, .fdin, .events] q0 = true) :
    OnlyParts q0 z0 (adcRequest v s) ↔ OnlyParts q0 z0 s := by
  refine OnlyParts.through (ps := [.regs, .copies, .fdin, .events]) ?_ h0
  simp +decide [adcRequest]

@[simp] theorem adcRequestDone_parts {q0 : List Part} {z0 : State} (codes : List Nat) (s : State)
    (h0 : within [.regs, .copies, .fdin, .events] q0 = true) :
    OnlyParts q0 z0 (adcRequestDone codes s) ↔ OnlyParts q0 z0 s := by
  refine OnlyParts.through (ps := [.regs, .copies, .fdin, .events]) ?_ h0
  simp only [adcRequestDone]
  (repeat' split) <;> simp +decide

@[simp] theorem supplySample_parts {q0 : List Part} {z0 : State} (vf24 : Nat) (vf5 : Nat) (s : State)
    (h0 : within [.regs, .copies, .fdin, .events] q0 = true) :
    OnlyParts q0 z0 (supplySample vf24 vf5 s) ↔ OnlyParts q0 z0 s := by
  refine OnlyParts.through (ps := [.regs, .copies, .fdin, .events]) ?_ h0
  simp +decide [supplySample]

@[simp] theorem State.fsiTake_parts {q0 : List Part} {z0 : State} (s : State) (i : Nat) (runs : List LevelRun)
    (h0 : within [.regs, .copies, .fdin, .events] q0 = true) :
    OnlyParts q0 z0 (State.fsiTake s i runs) ↔ OnlyParts q0 z0 s := by
  refine OnlyParts.through (ps := [.regs, .copies, .fdin, .events]) ?_ h0
  simp only [State.fsiTake]
  (repeat' split) <;> simp +decide

@[simp] theorem State.fsiBad_parts {q0 : List Part} {z0 : State} (s : State) (i : Nat) (runs : List LevelRun)
    (h0 : within [.regs, .copies, .fdin, .events] q0 = true) :
    OnlyParts q0 z0 (State.fsiBad s i runs) ↔ OnlyParts q0 z0 s := by
  refine OnlyParts.through (ps := [.regs, .copies, .fdin, .events]) ?_ h0
  simp +decide [State.fsiBad]

@[simp] theorem State.fsiDisabled_parts {q0 : List Part} {z0 : State} (s : State) (h0 : within [.fdin] q0 = true) :
    OnlyParts q0 z0 (State.fsiDisabled s) ↔ OnlyParts q0 z0 s := by
  refine OnlyParts.through (ps := [.fdin]) ?_ h0
  simp +decide [State.fsiDisabled]

@[simp] theorem State.setFdCal_parts {q0 : List Part} {z0 : State} (s : State) (f : FdCal → FdCal) (h0 : within [.fdin] q0 = true) :
    OnlyParts q0 z0 (State.setFdCal s f) ↔ OnlyParts q0 z0 s := by
  refine OnlyParts.through (ps := [.fdin]) ?_ h0
  simp +decide [State.setFdCal]

@[simp] theorem State.calTry_parts {q0 : List Part} {z0 : State} (s : State) (h0 : within [.regs, .copies, .fdin, .events] q0 = true) :
    OnlyParts q0 z0 (State.calTry s) ↔ OnlyParts q0 z0 s := by
  refine OnlyParts.through (ps := [.regs, .copies, .fdin, .events]) ?_ h0
  simp +decide [State.calTry]

@[simp] theorem cmpCalHoldStart_parts {q0 : List Part} {z0 : State} (s : State) (h0 : within [.regs, .copies, .fdin, .events] q0 = true) :
    OnlyParts q0 z0 (cmpCalHoldStart s) ↔ OnlyParts q0 z0 s := by
  refine OnlyParts.through (ps := [.regs, .copies, .fdin, .events]) ?_ h0
  simp +decide [cmpCalHoldStart]

@[simp] theorem cmpCalRetry_parts {q0 : List Part} {z0 : State} (s : State) (h0 : within [.regs, .copies, .fdin, .events] q0 = true) :
    OnlyParts q0 z0 (cmpCalRetry s) ↔ OnlyParts q0 z0 s := by
  refine OnlyParts.through (ps := [.regs, .copies, .fdin, .events]) ?_ h0
  simp only [cmpCalRetry]
  (repeat' split) <;> simp +decide

@[simp] theorem State.holdEnds_parts {q0 : List Part} {z0 : State} (s : State) (k : Nat) (h0 : within [.fdin] q0 = true) :
    OnlyParts q0 z0 (State.holdEnds s k) ↔ OnlyParts q0 z0 s := by
  refine OnlyParts.through (ps := [.fdin]) ?_ h0
  simp +decide [State.holdEnds]

@[simp] theorem State.holdAbort_parts {q0 : List Part} {z0 : State} (s : State) (h0 : within [.regs, .copies, .fdin, .events] q0 = true) :
    OnlyParts q0 z0 (State.holdAbort s) ↔ OnlyParts q0 z0 s := by
  refine OnlyParts.through (ps := [.regs, .copies, .fdin, .events]) ?_ h0
  simp only [State.holdAbort]
  (repeat' split) <;> simp +decide

@[simp] theorem cmpCalGuardAbort_parts {q0 : List Part} {z0 : State} (code : Nat) (s : State)
    (h0 : within [.regs, .copies, .fdin, .events] q0 = true) :
    OnlyParts q0 z0 (cmpCalGuardAbort code s) ↔ OnlyParts q0 z0 s := by
  refine OnlyParts.through (ps := [.regs, .copies, .fdin, .events]) ?_ h0
  simp only [cmpCalGuardAbort]
  (repeat' split) <;> simp +decide

@[simp] theorem cmpCalHoldEnd_parts {q0 : List Part} {z0 : State} (level : Int) (s : State)
    (h0 : within [.regs, .copies, .trims, .fdin, .events] q0 = true) :
    OnlyParts q0 z0 (cmpCalHoldEnd level s) ↔ OnlyParts q0 z0 s := by
  refine OnlyParts.through (ps := [.regs, .copies, .trims, .fdin, .events]) ?_ h0
  simp only [cmpCalHoldEnd]
  (repeat' split) <;> simp +decide

@[simp] theorem State.wscStampLo_parts {q0 : List Part} {z0 : State} (s : State) (m : Master) (h0 : within [.copies] q0 = true) :
    OnlyParts q0 z0 (State.wscStampLo s m).1 ↔ OnlyParts q0 z0 s := by
  refine OnlyParts.through (ps := [.copies]) ?_ h0
  simp +decide [State.wscStampLo]

@[simp] theorem wscWrite_parts {q0 : List Part} {z0 : State} (s : State) (m : Master) (o : Nat) (v : Word)
    (h0 : within [.copies, .fdin] q0 = true) :
    OnlyParts q0 z0 (wscWrite s m o v) ↔ OnlyParts q0 z0 s := by
  refine OnlyParts.through (ps := [.copies, .fdin]) ?_ h0
  simp only [wscWrite]
  (repeat' split) <;> simp +decide

end Sys2Proof.Machine
end

