-- ==== Sys2Proof/Laws/VitalParts.lean ====
section
/-!
SUPPORT. What the operations of Machine/Vital leave unchanged.
-/
namespace Sys2Proof.Machine

@[simp] theorem State.setOuts_parts {q0 : List Part} {z0 : State} (s : State) (f : Outputs → Outputs) (h0 : within [.outs] q0 = true) :
    OnlyParts q0 z0 (State.setOuts s f) ↔ OnlyParts q0 z0 s := by
  refine OnlyParts.through (ps := [.outs]) ?_ h0
  exact ⟨fun p hp => by cases p <;> first | exact absurd (by decide) hp | simp [Part.same]⟩

@[simp] theorem State.setVo_parts {q0 : List Part} {z0 : State} (s : State) (i : Nat) (v : Vo) (h0 : within [.outs] q0 = true) :
    OnlyParts q0 z0 (State.setVo s i v) ↔ OnlyParts q0 z0 s := by
  refine OnlyParts.through (ps := [.outs]) ?_ h0
  simp +decide [State.setVo]

@[simp] theorem State.setGroup_parts {q0 : List Part} {z0 : State} (s : State) (g : Nat) (v : VoGroup) (h0 : within [.outs] q0 = true) :
    OnlyParts q0 z0 (State.setGroup s g v) ↔ OnlyParts q0 z0 s := by
  refine OnlyParts.through (ps := [.outs]) ?_ h0
  simp +decide [State.setGroup]

@[simp] theorem State.setBrake_parts {q0 : List Part} {z0 : State} (s : State) (c : Nat) (b : Brake) (h0 : within [.outs] q0 = true) :
    OnlyParts q0 z0 (State.setBrake s c b) ↔ OnlyParts q0 z0 s := by
  refine OnlyParts.through (ps := [.outs]) ?_ h0
  simp +decide [State.setBrake]

@[simp] theorem State.setFds_parts {q0 : List Part} {z0 : State} (s : State) (f : FdSafe → FdSafe) (h0 : within [.fds] q0 = true) :
    OnlyParts q0 z0 (State.setFds s f) ↔ OnlyParts q0 z0 s := by
  refine OnlyParts.through (ps := [.fds]) ?_ h0
  exact ⟨fun p hp => by cases p <;> first | exact absurd (by decide) hp | simp [Part.same]⟩

@[simp] theorem State.setSaf_parts {q0 : List Part} {z0 : State} (s : State) (f : Saf → Saf) (h0 : within [.saf] q0 = true) :
    OnlyParts q0 z0 (State.setSaf s f) ↔ OnlyParts q0 z0 s := by
  refine OnlyParts.through (ps := [.saf]) ?_ h0
  exact ⟨fun p hp => by cases p <;> first | exact absurd (by decide) hp | simp [Part.same]⟩

@[simp] theorem State.setMrg_parts {q0 : List Part} {z0 : State} (s : State) (f : Merge → Merge) (h0 : within [.mrg] q0 = true) :
    OnlyParts q0 z0 (State.setMrg s f) ↔ OnlyParts q0 z0 s := by
  refine OnlyParts.through (ps := [.mrg]) ?_ h0
  exact ⟨fun p hp => by cases p <;> first | exact absurd (by decide) hp | simp [Part.same]⟩

@[simp] theorem State.brakeEnd_parts {q0 : List Part} {z0 : State} (s : State) (c : Nat) (res : Nat)
    (h0 : within [.regs, .copies, .outs, .events] q0 = true) :
    OnlyParts q0 z0 (State.brakeEnd s c res) ↔ OnlyParts q0 z0 s := by
  refine OnlyParts.through (ps := [.regs, .copies, .outs, .events]) ?_ h0
  simp +decide [State.brakeEnd]

@[simp] theorem State.voRaiseNow_parts {q0 : List Part} {z0 : State} (s : State) (i : Nat)
    (h0 : within [.regs, .copies, .outs, .events] q0 = true) :
    OnlyParts q0 z0 (State.voRaiseNow s i) ↔ OnlyParts q0 z0 s := by
  refine OnlyParts.through (ps := [.regs, .copies, .outs, .events]) ?_ h0
  simp +decide [State.voRaiseNow]

@[simp] theorem State.voRaise_parts {q0 : List Part} {z0 : State} (s : State) (i : Nat)
    (h0 : within [.regs, .copies, .outs, .events] q0 = true) :
    OnlyParts q0 z0 (State.voRaise s i) ↔ OnlyParts q0 z0 s := by
  refine OnlyParts.through (ps := [.regs, .copies, .outs, .events]) ?_ h0
  simp +decide [State.voRaise]

@[simp] theorem State.voResume_parts {q0 : List Part} {z0 : State} (s : State) (i : Nat)
    (h0 : within [.regs, .copies, .outs, .events] q0 = true) :
    OnlyParts q0 z0 (State.voResume s i) ↔ OnlyParts q0 z0 s := by
  refine OnlyParts.through (ps := [.regs, .copies, .outs, .events]) ?_ h0
  simp +decide [State.voResume]

@[simp] theorem State.voUndefer_parts {q0 : List Part} {z0 : State} (s : State) (g : Nat)
    (h0 : within [.regs, .copies, .outs, .events] q0 = true) :
    OnlyParts q0 z0 (State.voUndefer s g) ↔ OnlyParts q0 z0 s := by
  refine OnlyParts.through (ps := [.regs, .copies, .outs, .events]) ?_ h0
  simp +decide [State.voUndefer]

@[simp] theorem State.voLower_parts {q0 : List Part} {z0 : State} (s : State) (i : Nat)
    (h0 : within [.regs, .copies, .outs, .events] q0 = true) :
    OnlyParts q0 z0 (State.voLower s i) ↔ OnlyParts q0 z0 s := by
  refine OnlyParts.through (ps := [.regs, .copies, .outs, .events]) ?_ h0
  simp +decide [State.voLower]

@[simp] theorem State.voRecheck_parts {q0 : List Part} {z0 : State} (s : State) (h0 : within [.regs, .copies, .outs, .events] q0 = true) :
    OnlyParts q0 z0 (State.voRecheck s) ↔ OnlyParts q0 z0 s := by
  refine OnlyParts.through (ps := [.regs, .copies, .outs, .events]) ?_ h0
  simp +decide [State.voRecheck]

@[simp] theorem State.voDrop_parts {q0 : List Part} {z0 : State} (s : State) (h0 : within [.regs, .copies, .outs, .events] q0 = true) :
    OnlyParts q0 z0 (State.voDrop s) ↔ OnlyParts q0 z0 s := by
  refine OnlyParts.through (ps := [.regs, .copies, .outs, .events]) ?_ h0
  simp +decide [State.voDrop]

@[simp] theorem State.liveCheck_parts {q0 : List Part} {z0 : State} (s : State)
    (h0 : within [.regs, .copies, .outs, .fds, .events] q0 = true) :
    OnlyParts q0 z0 (State.liveCheck s) ↔ OnlyParts q0 z0 s := by
  refine OnlyParts.through (ps := [.regs, .copies, .outs, .fds, .events]) ?_ h0
  simp +decide [State.liveCheck]

@[simp] theorem State.voCompared_parts {q0 : List Part} {z0 : State} (s : State) (h0 : within [.regs, .copies, .outs, .events] q0 = true) :
    OnlyParts q0 z0 (State.voCompared s) ↔ OnlyParts q0 z0 s := by
  refine OnlyParts.through (ps := [.regs, .copies, .outs, .events]) ?_ h0
  simp +decide [State.voCompared]

@[simp] theorem State.brakeAbort_parts {q0 : List Part} {z0 : State} (s : State) (h0 : within [.regs, .copies, .outs, .events] q0 = true) :
    OnlyParts q0 z0 (State.brakeAbort s) ↔ OnlyParts q0 z0 s := by
  refine OnlyParts.through (ps := [.regs, .copies, .outs, .events]) ?_ h0
  simp +decide [State.brakeAbort]

end Sys2Proof.Machine
end

