-- ==== Sys2Proof/Laws/SafeParts.lean ====
section
/-!
SUPPORT. What the operations of Machine/Safe leave unchanged.
-/
namespace Sys2Proof.Machine

@[simp] theorem State.chanNote_parts {q0 : List Part} {z0 : State} (s : State) (n : ChanNote)
    (h0 : within [.regs, .copies, .events] q0 = true) :
    OnlyParts q0 z0 (State.chanNote s n) ↔ OnlyParts q0 z0 s := by
  refine OnlyParts.through (ps := [.regs, .copies, .events]) ?_ h0
  simp only [State.chanNote]
  (repeat' split) <;> simp +decide

@[simp] theorem State.resetEnded_parts {q0 : List Part} {z0 : State} (s : State) (q : QueuedCmd × Nat)
    (h0 : within [.regs, .copies, .frw, .events, .store] q0 = true) :
    OnlyParts q0 z0 (State.resetEnded s q) ↔ OnlyParts q0 z0 s := by
  refine OnlyParts.through (ps := [.regs, .copies, .frw, .events, .store]) ?_ h0
  simp +decide [State.resetEnded]

@[simp] theorem State.procDrain_parts {q0 : List Part} {z0 : State} (s : State)
    (h0 : within [.regs, .copies, .saf, .frw, .events, .store] q0 = true) :
    OnlyParts q0 z0 (State.procDrain s) ↔ OnlyParts q0 z0 s := by
  refine OnlyParts.through (ps := [.regs, .copies, .saf, .frw, .events, .store]) ?_ h0
  simp +decide [State.procDrain]

@[simp] theorem State.procDo_parts {q0 : List Part} {z0 : State} (s : State) (f : Channel → Channel)
    (h0 : within [.regs, .copies, .saf, .frw, .events, .store] q0 = true) :
    OnlyParts q0 z0 (State.procDo s f) ↔ OnlyParts q0 z0 s := by
  refine OnlyParts.through (ps := [.regs, .copies, .saf, .frw, .events, .store]) ?_ h0
  simp +decide [State.procDo]

@[simp] theorem State.procKeep_parts {q0 : List Part} {z0 : State} (s : State) (f : Channel → Channel)
    (h0 : within [.regs, .copies, .saf, .frw, .events, .store] q0 = true) :
    OnlyParts q0 z0 (State.procKeep s f) ↔ OnlyParts q0 z0 s := by
  refine OnlyParts.through (ps := [.regs, .copies, .saf, .frw, .events, .store]) ?_ h0
  simp +decide [State.procKeep]

@[simp] theorem State.ledDo_parts {q0 : List Part} {z0 : State} (s : State) (f : Channel → Channel)
    (h0 : within [.regs, .copies, .outs, .fds, .events] q0 = true) :
    OnlyParts q0 z0 (State.ledDo s f) ↔ OnlyParts q0 z0 s := by
  refine OnlyParts.through (ps := [.regs, .copies, .outs, .fds, .events]) ?_ h0
  simp +decide [State.ledDo]

@[simp] theorem State.enter_parts {q0 : List Part} {z0 : State} (s : State) (d : DeviceState)
    (h0 : within [.dev, .regs, .copies, .outs, .events] q0 = true) :
    OnlyParts q0 z0 (State.enter s d) ↔ OnlyParts q0 z0 s := by
  refine OnlyParts.through (ps := [.dev, .regs, .copies, .outs, .events]) ?_ h0
  simp +decide [State.enter]

@[simp] theorem State.degCheck_parts {q0 : List Part} {z0 : State} (s : State)
    (h0 : within [.dev, .regs, .copies, .outs, .events] q0 = true) :
    OnlyParts q0 z0 (State.degCheck s) ↔ OnlyParts q0 z0 s := by
  refine OnlyParts.through (ps := [.dev, .regs, .copies, .outs, .events]) ?_ h0
  simp +decide [State.degCheck]

@[simp] theorem State.serve_parts {q0 : List Part} {z0 : State} (s : State) (h0 : within [.dev, .regs, .copies, .outs, .events] q0 = true) :
    OnlyParts q0 z0 (State.serve s) ↔ OnlyParts q0 z0 s := by
  refine OnlyParts.through (ps := [.dev, .regs, .copies, .outs, .events]) ?_ h0
  simp +decide [State.serve]

@[simp] theorem State.homesAvailable_parts {q0 : List Part} {z0 : State} (s : State) (d : Nat) (homes : List Nat) (on : Bool)
    (h0 : within [.regs, .copies, .outs, .saf, .fds, .frw, .events, .store] q0 = true) :
    OnlyParts q0 z0 (State.homesAvailable s d homes on) ↔ OnlyParts q0 z0 s := by
  refine OnlyParts.through (ps := [.regs, .copies, .outs, .saf, .fds, .frw, .events, .store]) ?_ h0
  simp +decide [State.homesAvailable]

@[simp] theorem State.dieSleep_parts {q0 : List Part} {z0 : State} (s : State) (d : Nat)
    (h0 : within [.regs, .copies, .ofe, .psy, .lbq, .sensors, .cal, .outs, .saf, .fds, .frw, .events, .store] q0 = true) :
    OnlyParts q0 z0 (State.dieSleep s d) ↔ OnlyParts q0 z0 s := by
  refine OnlyParts.through (ps := [.regs, .copies, .ofe, .psy, .lbq, .sensors, .cal, .outs, .saf, .fds, .frw, .events, .store]) ?_ h0
  simp only [State.dieSleep]
  (repeat' split) <;> simp (maxDischargeDepth := 7) +decide

@[simp] theorem State.dieWake_parts {q0 : List Part} {z0 : State} (s : State) (d : Nat)
    (h0 : within [.regs, .copies, .ofe, .lbq, .outs, .mrg, .saf, .fds, .frw, .events, .store] q0 = true) :
    OnlyParts q0 z0 (State.dieWake s d) ↔ OnlyParts q0 z0 s := by
  refine OnlyParts.through (ps := [.regs, .copies, .ofe, .lbq, .outs, .mrg, .saf, .fds, .frw, .events, .store]) ?_ h0
  simp only [State.dieWake]
  (repeat' split) <;> simp (maxDischargeDepth := 7) +decide

@[simp] theorem State.wakeDies_parts {q0 : List Part} {z0 : State} (s : State)
    (h0 : within [.regs, .copies, .boot, .ofe, .lbq, .outs, .mrg, .saf, .fds, .frw, .events, .store] q0 = true) :
    OnlyParts q0 z0 (State.wakeDies s) ↔ OnlyParts q0 z0 s := by
  refine OnlyParts.through (ps := [.regs, .copies, .boot, .ofe, .lbq, .outs, .mrg, .saf, .fds, .frw, .events, .store]) ?_ h0
  simp +decide [State.wakeDies]

@[simp] theorem State.bootStage_parts {q0 : List Part} {z0 : State} (s : State) (n : Nat) (h0 : within [.boot] q0 = true) :
    OnlyParts q0 z0 (State.bootStage s n) ↔ OnlyParts q0 z0 s := by
  refine OnlyParts.through (ps := [.boot]) ?_ h0
  simp +decide [State.bootStage]

@[simp] theorem State.wakeArm_parts {q0 : List Part} {z0 : State} (s : State) (h0 : within [.fdin] q0 = true) :
    OnlyParts q0 z0 (State.wakeArm s) ↔ OnlyParts q0 z0 s := by
  refine OnlyParts.through (ps := [.fdin]) ?_ h0
  simp +decide [State.wakeArm]

@[simp] theorem State.sleep_parts {q0 : List Part} {z0 : State} (s : State)
    (h0 : within [.dev, .regs, .copies, .boot, .ofe, .psy, .lbq, .sensors, .cal, .fdin, .outs, .saf, .fds, .frw, .events, .store] q0 = true) :
    OnlyParts q0 z0 (State.sleep s) ↔ OnlyParts q0 z0 s := by
  refine OnlyParts.through (ps := [.dev, .regs, .copies, .boot, .ofe, .psy, .lbq, .sensors, .cal, .fdin, .outs, .saf, .fds, .frw, .events, .store]) ?_ h0
  simp +decide [State.sleep]

@[simp] theorem State.wake_parts {q0 : List Part} {z0 : State} (s : State)
    (h0 : within [.dev, .regs, .copies, .boot, .ofe, .lbq, .outs, .mrg, .saf, .fds, .frw, .events, .store] q0 = true) :
    OnlyParts q0 z0 (State.wake s) ↔ OnlyParts q0 z0 s := by
  refine OnlyParts.through (ps := [.dev, .regs, .copies, .boot, .ofe, .lbq, .outs, .mrg, .saf, .fds, .frw, .events, .store]) ?_ h0
  simp +decide [State.wake]

@[simp] theorem State.strFail_parts {q0 : List Part} {z0 : State} (s : State) (code : Nat) (detail : Nat) (frame : Nat)
    (h0 : within [.str] q0 = true) :
    OnlyParts q0 z0 (State.strFail s code detail frame) ↔ OnlyParts q0 z0 s := by
  refine OnlyParts.through (ps := [.str]) ?_ h0
  simp +decide [State.strFail]

@[simp] theorem State.commitFail_parts {q0 : List Part} {z0 : State} (s : State) (code : Nat)
    (h0 : within [.regs, .copies, .str, .events] q0 = true) :
    OnlyParts q0 z0 (State.commitFail s code) ↔ OnlyParts q0 z0 s := by
  refine OnlyParts.through (ps := [.regs, .copies, .str, .events]) ?_ h0
  simp +decide [State.commitFail]

@[simp] theorem State.ssFollow_parts {q0 : List Part} {z0 : State} (s : State)
    (h0 : within [.dev, .regs, .copies, .boot, .ofe, .lbq, .outs, .mrg, .saf, .fds, .frw, .events, .store] q0 = true) :
    OnlyParts q0 z0 (State.ssFollow s) ↔ OnlyParts q0 z0 s := by
  refine OnlyParts.through (ps := [.dev, .regs, .copies, .boot, .ofe, .lbq, .outs, .mrg, .saf, .fds, .frw, .events, .store]) ?_ h0
  simp +decide [State.ssFollow]

@[simp] theorem State.telegramsDisturb_parts {q0 : List Part} {z0 : State} (s : State) (h0 : within [.links] q0 = true) :
    OnlyParts q0 z0 (State.telegramsDisturb s) ↔ OnlyParts q0 z0 s := by
  refine OnlyParts.through (ps := [.links]) ?_ h0
  simp +decide [State.telegramsDisturb]

@[simp] theorem State.ssEnter_parts {q0 : List Part} {z0 : State} (s : State) (k : Nat)
    (h0 : within [.dev, .regs, .copies, .boot, .ofe, .lbq, .outs, .mrg, .saf, .fds, .str, .frw, .links, .events, .store] q0 = true) :
    OnlyParts q0 z0 (State.ssEnter s k) ↔ OnlyParts q0 z0 s := by
  refine OnlyParts.through (ps := [.dev, .regs, .copies, .boot, .ofe, .lbq, .outs, .mrg, .saf, .fds, .str, .frw, .links, .events, .store]) ?_ h0
  simp +decide [State.ssEnter]

@[simp] theorem State.causeRaise_parts {q0 : List Part} {z0 : State} (s : State) (k : Nat)
    (h0 : within [.dev, .regs, .copies, .boot, .ofe, .lbq, .outs, .mrg, .saf, .fds, .str, .frw, .links, .events, .store] q0 = true) :
    OnlyParts q0 z0 (State.causeRaise s k) ↔ OnlyParts q0 z0 s := by
  refine OnlyParts.through (ps := [.dev, .regs, .copies, .boot, .ofe, .lbq, .outs, .mrg, .saf, .fds, .str, .frw, .links, .events, .store]) ?_ h0
  simp +decide [State.causeRaise]

@[simp] theorem State.causeClear_parts {q0 : List Part} {z0 : State} (s : State) (k : Nat) (h0 : within [.fds] q0 = true) :
    OnlyParts q0 z0 (State.causeClear s k) ↔ OnlyParts q0 z0 s := by
  refine OnlyParts.through (ps := [.fds]) ?_ h0
  simp +decide [State.causeClear]

@[simp] theorem State.ssExit_parts {q0 : List Part} {z0 : State} (s : State) (n : Nat)
    (h0 : within [.dev, .regs, .copies, .outs, .saf, .fds, .frw, .events, .store] q0 = true) :
    OnlyParts q0 z0 (State.ssExit s n) ↔ OnlyParts q0 z0 s := by
  refine OnlyParts.through (ps := [.dev, .regs, .copies, .outs, .saf, .fds, .frw, .events, .store]) ?_ h0
  simp +decide [State.ssExit]

@[simp] theorem State.inputsKnown_parts {q0 : List Part} {z0 : State} (s : State) (lhs : List Nat)
    (h0 : within [.regs, .copies, .outs, .saf, .fds, .frw, .events, .store] q0 = true) :
    OnlyParts q0 z0 (State.inputsKnown s lhs) ↔ OnlyParts q0 z0 s := by
  refine OnlyParts.through (ps := [.regs, .copies, .outs, .saf, .fds, .frw, .events, .store]) ?_ h0
  simp +decide [State.inputsKnown]

@[simp] theorem State.procStart_parts {q0 : List Part} {z0 : State} (s : State)
    (h0 : within [.regs, .copies, .saf, .frw, .events, .store] q0 = true) :
    OnlyParts q0 z0 (State.procStart s) ↔ OnlyParts q0 z0 s := by
  refine OnlyParts.through (ps := [.regs, .copies, .saf, .frw, .events, .store]) ?_ h0
  simp +decide [State.procStart]

@[simp] theorem State.pairFault_parts {q0 : List Part} {z0 : State} (s : State) (b : Bool) (cause : Nat)
    (h0 : within [.dev, .regs, .copies, .boot, .ofe, .lbq, .outs, .mrg, .saf, .fds, .str, .frw, .links, .events, .store] q0 = true) :
    OnlyParts q0 z0 (State.pairFault s b cause) ↔ OnlyParts q0 z0 s := by
  refine OnlyParts.through (ps := [.dev, .regs, .copies, .boot, .ofe, .lbq, .outs, .mrg, .saf, .fds, .str, .frw, .links, .events, .store]) ?_ h0
  simp +decide [State.pairFault]

@[simp] theorem State.pairBack_parts {q0 : List Part} {z0 : State} (s : State) (b : Bool)
    (h0 : within [.dev, .regs, .copies, .outs, .saf, .fds, .events] q0 = true) :
    OnlyParts q0 z0 (State.pairBack s b) ↔ OnlyParts q0 z0 s := by
  refine OnlyParts.through (ps := [.dev, .regs, .copies, .outs, .saf, .fds, .events]) ?_ h0
  simp +decide [State.pairBack]

end Sys2Proof.Machine
end

