-- ==== Sys2Proof/Laws/ProfileParts.lean ====
section
/-!
SUPPORT. What the operations of Machine/Profile leave unchanged.
-/
namespace Sys2Proof.Machine

@[simp] theorem State.setTpr_parts {q0 : List Part} {z0 : State} (s : State) (p : Nat) (x : TprPort) (h0 : within [.tpr] q0 = true) :
    OnlyParts q0 z0 (State.setTpr s p x) ↔ OnlyParts q0 z0 s := by
  refine OnlyParts.through (ps := [.tpr]) ?_ h0
  exact ⟨fun p hp => by cases p <;> first | exact absurd (by decide) hp | simp [Part.same]⟩

@[simp] theorem State.tprTurn_parts {q0 : List Part} {z0 : State} (s : State) (p : Nat) (sec : Nat) (h0 : within [.dmd] q0 = true) :
    OnlyParts q0 z0 (State.tprTurn s p sec) ↔ OnlyParts q0 z0 s := by
  refine OnlyParts.through (ps := [.dmd]) ?_ h0
  simp +decide [State.tprTurn]

@[simp] theorem State.tprReady_parts {q0 : List Part} {z0 : State} (s : State) (p : Nat) (sec : Nat)
    (h0 : within [.regs, .copies, .tpr, .cvu, .mem, .events] q0 = true) :
    OnlyParts q0 z0 (State.tprReady s p sec) ↔ OnlyParts q0 z0 s := by
  refine OnlyParts.through (ps := [.regs, .copies, .tpr, .cvu, .mem, .events]) ?_ h0
  simp +decide [State.tprReady]

@[simp] theorem profileRecord_parts {q0 : List Part} {z0 : State} (p : Nat) (s : State)
    (h0 : within [.regs, .copies, .dmd, .tpr, .cvu, .mem, .events] q0 = true) :
    OnlyParts q0 z0 (profileRecord p s) ↔ OnlyParts q0 z0 s := by
  refine OnlyParts.through (ps := [.regs, .copies, .dmd, .tpr, .cvu, .mem, .events]) ?_ h0
  simp +decide [profileRecord]

@[simp] theorem State.tprNote_parts {q0 : List Part} {z0 : State} (s : State) (p : Nat) (h0 : within [.tpr] q0 = true) :
    OnlyParts q0 z0 (State.tprNote s p) ↔ OnlyParts q0 z0 s := by
  refine OnlyParts.through (ps := [.tpr]) ?_ h0
  simp +decide [State.tprNote]

@[simp] theorem tprWrite_parts {q0 : List Part} {z0 : State} (s : State) (o : Nat) (v : Word) (h0 : within [.regs, .tpr] q0 = true) :
    OnlyParts q0 z0 (tprWrite s o v) ↔ OnlyParts q0 z0 s := by
  refine OnlyParts.through (ps := [.regs, .tpr]) ?_ h0
  simp +decide [tprWrite]

@[simp] theorem State.setAcw_parts {q0 : List Part} {z0 : State} (s : State) (w : Nat) (r : AcwRun) (h0 : within [.acw] q0 = true) :
    OnlyParts q0 z0 (State.setAcw s w r) ↔ OnlyParts q0 z0 s := by
  refine OnlyParts.through (ps := [.acw]) ?_ h0
  exact ⟨fun p hp => by cases p <;> first | exact absurd (by decide) hp | simp [Part.same]⟩

@[simp] theorem State.acwDrain_parts {q0 : List Part} {z0 : State} (s : State) (p : Nat) (h0 : within [.regs, .acw, .cvu, .mem] q0 = true) :
    OnlyParts q0 z0 (State.acwDrain s p) ↔ OnlyParts q0 z0 s := by
  refine OnlyParts.through (ps := [.regs, .acw, .cvu, .mem]) ?_ h0
  simp only [State.acwDrain]
  (repeat' split) <;> simp (maxDischargeDepth := 7) +decide

@[simp] theorem State.acwDrop_parts {q0 : List Part} {z0 : State} (s : State) (w : Nat)
    (h0 : within [.regs, .copies, .acw, .events] q0 = true) :
    OnlyParts q0 z0 (State.acwDrop s w) ↔ OnlyParts q0 z0 s := by
  refine OnlyParts.through (ps := [.regs, .copies, .acw, .events]) ?_ h0
  simp +decide [State.acwDrop]

@[simp] theorem State.acwOut_parts {q0 : List Part} {z0 : State} (s : State) (w : Nat) (p : PeriodTag)
    (h0 : within [.regs, .copies, .acw, .cvu, .mem, .events] q0 = true) :
    OnlyParts q0 z0 (State.acwOut s w p) ↔ OnlyParts q0 z0 s := by
  refine OnlyParts.through (ps := [.regs, .copies, .acw, .cvu, .mem, .events]) ?_ h0
  simp only [State.acwOut]
  (repeat' split) <;> first | (simp +decide; done) | (simp +decide <;> exact ⟨fun p hp => by cases p <;> first | exact absurd (by decide) hp | simp [Part.same]⟩)

@[simp] theorem acwBlockReady_parts {q0 : List Part} {z0 : State} (w : Nat) (s : State)
    (h0 : within [.regs, .copies, .acw, .cvu, .mem, .events] q0 = true) :
    OnlyParts q0 z0 (acwBlockReady w s) ↔ OnlyParts q0 z0 s := by
  refine OnlyParts.through (ps := [.regs, .copies, .acw, .cvu, .mem, .events]) ?_ h0
  simp only [acwBlockReady]
  (repeat' split) <;> simp +decide

@[simp] theorem acwEnable_parts {q0 : List Part} {z0 : State} (w : Nat) (on : Bool) (s : State)
    (h0 : within [.regs, .copies, .acw, .events] q0 = true) :
    OnlyParts q0 z0 (acwEnable w on s) ↔ OnlyParts q0 z0 s := by
  refine OnlyParts.through (ps := [.regs, .copies, .acw, .events]) ?_ h0
  simp +decide [acwEnable]

@[simp] theorem acwWrite_parts {q0 : List Part} {z0 : State} (s : State) (o : Nat) (v : Word)
    (h0 : within [.regs, .copies, .acw, .events] q0 = true) :
    OnlyParts q0 z0 (acwWrite s o v) ↔ OnlyParts q0 z0 s := by
  refine OnlyParts.through (ps := [.regs, .copies, .acw, .events]) ?_ h0
  simp only [acwWrite]
  (repeat' split) <;> simp +decide

end Sys2Proof.Machine
end

