-- ==== Sys2Proof/Laws/DmaParts.lean ====
section
/-!
SUPPORT. What the operations of Machine/Dma leave unchanged.
-/
namespace Sys2Proof.Machine

@[simp] theorem State.setEng_parts {q0 : List Part} {z0 : State} (s : State) (e : Nat) (g : DmaEng) (h0 : within [.dma] q0 = true) :
    OnlyParts q0 z0 (State.setEng s e g) ↔ OnlyParts q0 z0 s := by
  refine OnlyParts.through (ps := [.dma]) ?_ h0
  exact ⟨fun p hp => by cases p <;> first | exact absurd (by decide) hp | simp [Part.same]⟩

@[simp] theorem State.modChan_parts {q0 : List Part} {z0 : State} (s : State) (e : Nat) (c : Nat) (f : DmaChan → DmaChan)
    (h0 : within [.dma] q0 = true) :
    OnlyParts q0 z0 (State.modChan s e c f) ↔ OnlyParts q0 z0 s := by
  refine OnlyParts.through (ps := [.dma]) ?_ h0
  simp +decide [State.modChan]

@[simp] theorem State.dmaRaise_parts {q0 : List Part} {z0 : State} (s : State) (e : Nat) (c : Nat)
    (h0 : within [.copies, .events] q0 = true) :
    OnlyParts q0 z0 (State.dmaRaise s e c) ↔ OnlyParts q0 z0 s := by
  refine OnlyParts.through (ps := [.copies, .events]) ?_ h0
  simp +decide [State.dmaRaise]

@[simp] theorem State.dmaDone_parts {q0 : List Part} {z0 : State} (s : State) (e : Nat) (res : Nat) (slot : Bool)
    (h0 : within [.regs, .copies, .dma, .events] q0 = true) :
    OnlyParts q0 z0 (State.dmaDone s e res slot) ↔ OnlyParts q0 z0 s := by
  refine OnlyParts.through (ps := [.regs, .copies, .dma, .events]) ?_ h0
  simp only [State.dmaDone]
  (repeat' split) <;> simp +decide

@[simp] theorem State.dmaUnqueue_parts {q0 : List Part} {z0 : State} (s : State) (e : Nat) (c : Nat) (res : Nat)
    (h0 : within [.copies, .dma, .events] q0 = true) :
    OnlyParts q0 z0 (State.dmaUnqueue s e c res) ↔ OnlyParts q0 z0 s := by
  refine OnlyParts.through (ps := [.copies, .dma, .events]) ?_ h0
  simp +decide [State.dmaUnqueue]

@[simp] theorem State.dmaStopEngine_parts {q0 : List Part} {z0 : State} (s : State) (e : Nat)
    (h0 : within [.regs, .copies, .dma, .events] q0 = true) :
    OnlyParts q0 z0 (State.dmaStopEngine s e) ↔ OnlyParts q0 z0 s := by
  refine OnlyParts.through (ps := [.regs, .copies, .dma, .events]) ?_ h0
  simp +decide [State.dmaStopEngine]

@[simp] theorem State.dmaStop_parts {q0 : List Part} {z0 : State} (s : State) (d : Nat)
    (h0 : within [.regs, .copies, .dma, .events] q0 = true) :
    OnlyParts q0 z0 (State.dmaStop s d) ↔ OnlyParts q0 z0 s := by
  refine OnlyParts.through (ps := [.regs, .copies, .dma, .events]) ?_ h0
  simp +decide [State.dmaStop]

@[simp] theorem State.dmaIgnore_parts {q0 : List Part} {z0 : State} (s : State) (e : Nat) (c : Nat) (cause : Nat)
    (h0 : within [.regs, .copies, .dma, .events] q0 = true) :
    OnlyParts q0 z0 (State.dmaIgnore s e c cause) ↔ OnlyParts q0 z0 s := by
  refine OnlyParts.through (ps := [.regs, .copies, .dma, .events]) ?_ h0
  simp +decide [State.dmaIgnore]

@[simp] theorem dmaDoorbell_parts {q0 : List Part} {z0 : State} (e : Nat) (c : Nat) (s : State)
    (h0 : within [.regs, .copies, .dma, .events] q0 = true) :
    OnlyParts q0 z0 (dmaDoorbell e c s) ↔ OnlyParts q0 z0 s := by
  refine OnlyParts.through (ps := [.regs, .copies, .dma, .events]) ?_ h0
  simp +decide [dmaDoorbell]

@[simp] theorem State.setRun_parts {q0 : List Part} {z0 : State} (s : State) (e : Nat) (r : DmaRun) (h0 : within [.dma] q0 = true) :
    OnlyParts q0 z0 (State.setRun s e r) ↔ OnlyParts q0 z0 s := by
  refine OnlyParts.through (ps := [.dma]) ?_ h0
  simp +decide [State.setRun]

@[simp] theorem State.dmaAbortRun_parts {q0 : List Part} {z0 : State} (s : State) (e : Nat) (r : DmaRun)
    (h0 : within [.regs, .copies, .dma, .events] q0 = true) :
    OnlyParts q0 z0 (State.dmaAbortRun s e r) ↔ OnlyParts q0 z0 s := by
  refine OnlyParts.through (ps := [.regs, .copies, .dma, .events]) ?_ h0
  simp only [State.dmaAbortRun]
  (repeat' split) <;> simp +decide

@[simp] theorem dmaAbort_parts {q0 : List Part} {z0 : State} (e : Nat) (c : Nat) (s : State)
    (h0 : within [.regs, .copies, .dma, .events] q0 = true) :
    OnlyParts q0 z0 (dmaAbort e c s) ↔ OnlyParts q0 z0 s := by
  refine OnlyParts.through (ps := [.regs, .copies, .dma, .events]) ?_ h0
  simp only [dmaAbort]
  (repeat' split) <;> simp +decide

@[simp] theorem dmaChannelStart_parts {q0 : List Part} {z0 : State} (e : Nat) (s : State) (h0 : within [.dma] q0 = true) :
    OnlyParts q0 z0 (dmaChannelStart e s) ↔ OnlyParts q0 z0 s := by
  refine OnlyParts.through (ps := [.dma]) ?_ h0
  simp only [dmaChannelStart]
  (repeat' split) <;> simp +decide

@[simp] theorem dmaWrite_parts {q0 : List Part} {z0 : State} (s : State) (e : Nat) (o : Nat) (v : Word)
    (h0 : within [.regs, .copies, .dma, .events] q0 = true) :
    OnlyParts q0 z0 (dmaWrite s e o v) ↔ OnlyParts q0 z0 s := by
  refine OnlyParts.through (ps := [.regs, .copies, .dma, .events]) ?_ h0
  simp +decide [dmaWrite]

end Sys2Proof.Machine
end

