-- ==== Sys2Proof/Laws/MergeParts.lean ====
section
/-!
SUPPORT. What the operations of Machine/Merge leave unchanged.
-/
namespace Sys2Proof.Machine

@[simp] theorem State.frameSeen_parts {q0 : List Part} {z0 : State} (s : State) (link : Nat) (toHb : Bool)
    (h0 : within [.regs, .copies, .outs, .mrg, .fds, .events] q0 = true) :
    OnlyParts q0 z0 (State.frameSeen s link toHb) ↔ OnlyParts q0 z0 s := by
  refine OnlyParts.through (ps := [.regs, .copies, .outs, .mrg, .fds, .events]) ?_ h0
  simp +decide [State.frameSeen]

@[simp] theorem linkFrame_parts {q0 : List Part} {z0 : State} (link : Link) (toHb : Bool) (frame : List Byte) (check : Word) (s : State)
    (h0 : within [.regs, .copies, .outs, .mrg, .fds, .events] q0 = true) :
    OnlyParts q0 z0 (linkFrame link toHb frame check s) ↔ OnlyParts q0 z0 s := by
  refine OnlyParts.through (ps := [.regs, .copies, .outs, .mrg, .fds, .events]) ?_ h0
  simp +decide [linkFrame]

@[simp] theorem idleFrame_parts {q0 : List Part} {z0 : State} (d : Nat) (s : State) (h0 : within [.sent] q0 = true) :
    OnlyParts q0 z0 (idleFrame d s) ↔ OnlyParts q0 z0 s := by
  refine OnlyParts.through (ps := [.sent]) ?_ h0
  simp +decide [idleFrame]

@[simp] theorem fdWatermark_parts {q0 : List Part} {z0 : State} (s : State) (h0 : within [.sent] q0 = true) :
    OnlyParts q0 z0 (fdWatermark s) ↔ OnlyParts q0 z0 s := by
  refine OnlyParts.through (ps := [.sent]) ?_ h0
  simp +decide [fdWatermark]

@[simp] theorem ledReplays_parts {q0 : List Part} {z0 : State} (l : List IsoItem) (s : State)
    (h0 : within [.regs, .copies, .outs, .mrg, .fds, .events] q0 = true) : OnlyParts q0 z0 (ledReplays l s) ↔ OnlyParts q0 z0 s := by
  refine OnlyParts.through (ps := [.regs, .copies, .outs, .mrg, .fds, .events]) ?_ h0
  induction l generalizing s with
  | nil => simp +decide [ledReplays]
  | cons i t ih =>
    cases i <;> simp +decide [ledReplays]
    exact OnlyParts.trans (by simp +decide) (ih _)

@[simp] theorem State.isoSend_parts {q0 : List Part} {z0 : State} (s : State) (i : IsoItem)
    (h0 : within [.regs, .copies, .outs, .mrg, .fds, .events] q0 = true) :
    OnlyParts q0 z0 (State.isoSend s i) ↔ OnlyParts q0 z0 s := by
  refine OnlyParts.through (ps := [.regs, .copies, .outs, .mrg, .fds, .events]) ?_ h0
  simp +decide [State.isoSend]

@[simp] theorem watermarkReceived_parts {q0 : List Part} {z0 : State} (src : Nat) (stamp : Nat) (s : State)
    (h0 : within [.regs, .copies, .outs, .mrg, .fds, .events] q0 = true) :
    OnlyParts q0 z0 (watermarkReceived src stamp s) ↔ OnlyParts q0 z0 s := by
  refine OnlyParts.through (ps := [.regs, .copies, .outs, .mrg, .fds, .events]) ?_ h0
  simp +decide [watermarkReceived]

@[simp] theorem sourceEvent_parts {q0 : List Part} {z0 : State} (src : Nat) (b : List Byte) (s : State)
    (h0 : within [.regs, .copies, .outs, .mrg, .saf, .fds, .frw, .events, .store] q0 = true) :
    OnlyParts q0 z0 (sourceEvent src b s) ↔ OnlyParts q0 z0 s := by
  refine OnlyParts.through (ps := [.regs, .copies, .outs, .mrg, .saf, .fds, .frw, .events, .store]) ?_ h0
  simp only [sourceEvent]
  (repeat' split) <;> simp +decide

@[simp] theorem State.hbSeq_parts {q0 : List Part} {z0 : State} (s : State) (src : Nat) (b : List Byte)
    (h0 : within [.regs, .copies, .mrg, .saf, .frw, .events, .store] q0 = true) :
    OnlyParts q0 z0 (State.hbSeq s src b) ↔ OnlyParts q0 z0 s := by
  refine OnlyParts.through (ps := [.regs, .copies, .mrg, .saf, .frw, .events, .store]) ?_ h0
  simp only [State.hbSeq]
  (repeat' split) <;> simp +decide

@[simp] theorem State.releaseOne_parts {q0 : List Part} {z0 : State} (hz : Nat) (replay : Bool) (s : State) (e : Nat × List Byte)
    (h0 : within [.regs, .copies, .outs, .mrg, .saf, .fds, .frw, .events, .store] q0 = true) :
    OnlyParts q0 z0 (State.releaseOne hz replay s e) ↔ OnlyParts q0 z0 s := by
  refine OnlyParts.through (ps := [.regs, .copies, .outs, .mrg, .saf, .fds, .frw, .events, .store]) ?_ h0
  simp +decide [State.releaseOne]

@[simp] theorem eventRelease_parts {q0 : List Part} {z0 : State} (s : State)
    (h0 : within [.regs, .copies, .outs, .mrg, .saf, .fds, .frw, .events, .store] q0 = true) :
    OnlyParts q0 z0 (eventRelease s) ↔ OnlyParts q0 z0 s := by
  refine OnlyParts.through (ps := [.regs, .copies, .outs, .mrg, .saf, .fds, .frw, .events, .store]) ?_ h0
  simp only [eventRelease]
  (repeat' split) <;> simp +decide

@[simp] theorem horizonMarkSend_parts {q0 : List Part} {z0 : State} (s : State)
    (h0 : within [.regs, .copies, .outs, .mrg, .fds, .events] q0 = true) :
    OnlyParts q0 z0 (horizonMarkSend s) ↔ OnlyParts q0 z0 s := by
  refine OnlyParts.through (ps := [.regs, .copies, .outs, .mrg, .fds, .events]) ?_ h0
  simp +decide [horizonMarkSend]

@[simp] theorem dieLinkSilence_parts {q0 : List Part} {z0 : State} (d : Nat) (s : State)
    (h0 : within [.regs, .copies, .outs, .mrg, .saf, .fds, .frw, .events, .store] q0 = true) :
    OnlyParts q0 z0 (dieLinkSilence d s) ↔ OnlyParts q0 z0 s := by
  refine OnlyParts.through (ps := [.regs, .copies, .outs, .mrg, .saf, .fds, .frw, .events, .store]) ?_ h0
  simp +decide [dieLinkSilence]

@[simp] theorem State.replayFail_parts {q0 : List Part} {z0 : State} (s : State) (d : Nat)
    (h0 : within [.regs, .copies, .outs, .saf, .fds, .frw, .events, .store] q0 = true) :
    OnlyParts q0 z0 (State.replayFail s d) ↔ OnlyParts q0 z0 s := by
  refine OnlyParts.through (ps := [.regs, .copies, .outs, .saf, .fds, .frw, .events, .store]) ?_ h0
  simp +decide [State.replayFail]

@[simp] theorem replayTimeout_parts {q0 : List Part} {z0 : State} (d : Nat) (s : State)
    (h0 : within [.regs, .copies, .outs, .mrg, .saf, .fds, .frw, .events, .store] q0 = true) :
    OnlyParts q0 z0 (replayTimeout d s) ↔ OnlyParts q0 z0 s := by
  refine OnlyParts.through (ps := [.regs, .copies, .outs, .mrg, .saf, .fds, .frw, .events, .store]) ?_ h0
  simp only [replayTimeout]
  (repeat' split) <;> simp +decide

@[simp] theorem dieLinkResume_parts {q0 : List Part} {z0 : State} (d : Nat) (s : State)
    (h0 : within [.dev, .regs, .copies, .outs, .mrg, .saf, .fds, .str, .frw, .events, .store] q0 = true) :
    OnlyParts q0 z0 (dieLinkResume d s) ↔ OnlyParts q0 z0 s := by
  refine OnlyParts.through (ps := [.dev, .regs, .copies, .outs, .mrg, .saf, .fds, .str, .frw, .events, .store]) ?_ h0
  simp only [dieLinkResume]
  (repeat' split) <;> simp +decide

@[simp] theorem dieExclusion_parts {q0 : List Part} {z0 : State} (_d : Nat) (s : State)
    (h0 : within [.dev, .regs, .copies, .outs, .events] q0 = true) :
    OnlyParts q0 z0 (dieExclusion _d s) ↔ OnlyParts q0 z0 s := by
  refine OnlyParts.through (ps := [.dev, .regs, .copies, .outs, .events]) ?_ h0
  simp +decide [dieExclusion]

@[simp] theorem isoSilence_parts {q0 : List Part} {z0 : State} (ch : IsoChannel) (s : State)
    (h0 : within [.dev, .regs, .copies, .boot, .ofe, .lbq, .outs, .mrg, .saf, .fds, .str, .frw, .links, .events, .store] q0 = true) :
    OnlyParts q0 z0 (isoSilence ch s) ↔ OnlyParts q0 z0 s := by
  refine OnlyParts.through (ps := [.dev, .regs, .copies, .boot, .ofe, .lbq, .outs, .mrg, .saf, .fds, .str, .frw, .links, .events, .store]) ?_ h0
  simp only [isoSilence]
  (repeat' split) <;> simp +decide

@[simp] theorem crossingFault_parts {q0 : List Part} {z0 : State} (t : CrossingTarget) (s : State)
    (h0 : within [.dev, .regs, .copies, .lbq, .outs, .mrg, .str, .events] q0 = true) :
    OnlyParts q0 z0 (crossingFault t s) ↔ OnlyParts q0 z0 s := by
  refine OnlyParts.through (ps := [.dev, .regs, .copies, .lbq, .outs, .mrg, .str, .events]) ?_ h0
  simp only [crossingFault]
  (repeat' split) <;> simp +decide

@[simp] theorem State.spanRestarts_parts {q0 : List Part} {z0 : State} (s : State) (d : Nat) (b : Nat)
    (h0 : within [.regs, .copies, .lbq, .outs, .mrg, .fds, .events] q0 = true) :
    OnlyParts q0 z0 (State.spanRestarts s d b) ↔ OnlyParts q0 z0 s := by
  refine OnlyParts.through (ps := [.regs, .copies, .lbq, .outs, .mrg, .fds, .events]) ?_ h0
  simp +decide [State.spanRestarts]

@[simp] theorem dieStatus_parts {q0 : List Part} {z0 : State} (d : Nat) (s : State)
    (h0 : within [.dev, .regs, .copies, .lbq, .outs, .mrg, .saf, .fds, .frw, .events, .store] q0 = true) :
    OnlyParts q0 z0 (dieStatus d s) ↔ OnlyParts q0 z0 s := by
  refine OnlyParts.through (ps := [.dev, .regs, .copies, .lbq, .outs, .mrg, .saf, .fds, .frw, .events, .store]) ?_ h0
  simp +decide [dieStatus]

end Sys2Proof.Machine
end

