-- ==== Sys2Proof/Laws/CombineParts.lean ====
section
/-!
SUPPORT. What the operations of Machine/Combine leave unchanged.
-/
namespace Sys2Proof.Machine

theorem isoFront_parts {q0 : List Part} {z0 : State} (f : IsoItem → Option (State → State)) (s : State)
    (hf : ∀ i g u, f i = some g → OnlyParts q0 u (g u)) (h0 : within [.regs, .copies, .outs, .mrg, .fds, .events] q0 = true) :
    OnlyParts q0 z0 (isoFront f s) ↔ OnlyParts q0 z0 s := by
  refine OnlyParts.through (ps := q0) ?_ (by simp [within])
  simp only [isoFront]
  (repeat' split) <;> try exact OnlyParts.refl ..
  refine (ledReplays_parts _ _ h0).2 (OnlyParts.trans ?_ (hf _ _ _ ‹_›))
  exact (State.frameSeen_parts _ _ _ h0).2 ((State.setMrg_parts _ _ (within.trans (by decide) h0)).2 (OnlyParts.refl ..))

@[simp] theorem State.ledSeq_parts {q0 : List Part} {z0 : State} (s : State) (src : Nat) (b : List Byte)
    (h0 : within [.regs, .copies, .outs, .fds, .events] q0 = true) :
    OnlyParts q0 z0 (State.ledSeq s src b) ↔ OnlyParts q0 z0 s := by
  refine OnlyParts.through (ps := [.regs, .copies, .outs, .fds, .events]) ?_ h0
  simp only [State.ledSeq]
  (repeat' split) <;> simp +decide

@[simp] theorem State.ledDiscard_parts {q0 : List Part} {z0 : State} (s : State) (src : Nat) (b : List Byte)
    (h0 : within [.regs, .copies, .outs, .fds, .events] q0 = true) :
    OnlyParts q0 z0 (State.ledDiscard s src b) ↔ OnlyParts q0 z0 s := by
  refine OnlyParts.through (ps := [.regs, .copies, .outs, .fds, .events]) ?_ h0
  simp +decide [State.ledDiscard]

@[simp] theorem State.ledEvent_parts {q0 : List Part} {z0 : State} (s : State) (src : Nat) (b : List Byte) (hz : Nat) (replay : Bool)
    (h0 : within [.dev, .regs, .copies, .boot, .ofe, .lbq, .outs, .mrg, .saf, .fds, .str, .frw, .links, .events, .store] q0 = true) :
    OnlyParts q0 z0 (State.ledEvent s src b hz replay) ↔ OnlyParts q0 z0 s := by
  refine OnlyParts.through (ps := [.dev, .regs, .copies, .boot, .ofe, .lbq, .outs, .mrg, .saf, .fds, .str, .frw, .links, .events, .store]) ?_ h0
  simp only [State.ledEvent]
  (repeat' split) <;> simp +decide

@[simp] theorem releasedEventReceived_parts {q0 : List Part} {z0 : State} (s : State)
    (h0 : within [.dev, .regs, .copies, .boot, .ofe, .lbq, .outs, .mrg, .saf, .fds, .str, .frw, .links, .events, .store] q0 = true) :
    OnlyParts q0 z0 (releasedEventReceived s) ↔ OnlyParts q0 z0 s := by
  refine OnlyParts.through (ps := [.dev, .regs, .copies, .boot, .ofe, .lbq, .outs, .mrg, .saf, .fds, .str, .frw, .links, .events, .store]) ?_ h0
  refine (isoFront_parts _ _ (fun i g u h => ?_) (by decide)).2 (OnlyParts.refl ..)
  cases i <;> simp at h <;> subst h <;> simp +decide

@[simp] theorem horizonMarkReceived_parts {q0 : List Part} {z0 : State} (s : State)
    (h0 : within [.regs, .copies, .outs, .mrg, .fds, .events] q0 = true) :
    OnlyParts q0 z0 (horizonMarkReceived s) ↔ OnlyParts q0 z0 s := by
  refine OnlyParts.through (ps := [.regs, .copies, .outs, .mrg, .fds, .events]) ?_ h0
  refine (isoFront_parts _ _ (fun i g u h => ?_) (by decide)).2 (OnlyParts.refl ..)
  cases i <;> simp at h <;> subst h <;> simp +decide

@[simp] theorem spanRestartReceived_parts {q0 : List Part} {z0 : State} (s : State)
    (h0 : within [.regs, .copies, .outs, .mrg, .fds, .events] q0 = true) :
    OnlyParts q0 z0 (spanRestartReceived s) ↔ OnlyParts q0 z0 s := by
  refine OnlyParts.through (ps := [.regs, .copies, .outs, .mrg, .fds, .events]) ?_ h0
  refine (isoFront_parts _ _ (fun i g u h => ?_) (by decide)).2 (OnlyParts.refl ..)
  cases i <;> simp at h <;> subst h <;> simp +decide

@[simp] theorem State.ledCycle_parts {q0 : List Part} {z0 : State} (s : State) (n : Nat) (tc : Nat) (hz : Nat) (key : Nat) (cmds : List QueuedCmd)
    (h0 : within [.regs, .copies, .fdin, .outs, .fds, .events] q0 = true) :
    OnlyParts q0 z0 (State.ledCycle s n tc hz key cmds) ↔ OnlyParts q0 z0 s := by
  refine OnlyParts.through (ps := [.regs, .copies, .fdin, .outs, .fds, .events]) ?_ h0
  simp +decide [State.ledCycle]

@[simp] theorem cycleMarkReceived_parts {q0 : List Part} {z0 : State} (s : State)
    (h0 : within [.regs, .copies, .fdin, .outs, .mrg, .fds, .events] q0 = true) :
    OnlyParts q0 z0 (cycleMarkReceived s) ↔ OnlyParts q0 z0 s := by
  refine OnlyParts.through (ps := [.regs, .copies, .fdin, .outs, .mrg, .fds, .events]) ?_ h0
  refine (isoFront_parts _ _ (fun i g u h => ?_) (by decide)).2 (OnlyParts.refl ..)
  cases i <;> simp at h <;> subst h <;> simp +decide

@[simp] theorem State.selectNote_parts {q0 : List Part} {z0 : State} (s : State) (diff : List Nat)
    (h0 : within [.dev, .regs, .copies, .boot, .ofe, .lbq, .outs, .mrg, .saf, .fds, .str, .frw, .links, .events, .store] q0 = true) :
    OnlyParts q0 z0 (State.selectNote s diff) ↔ OnlyParts q0 z0 s := by
  refine OnlyParts.through (ps := [.dev, .regs, .copies, .boot, .ofe, .lbq, .outs, .mrg, .saf, .fds, .str, .frw, .links, .events, .store]) ?_ h0
  simp only [State.selectNote]
  (repeat' split) <;> simp +decide

@[simp] theorem verdictSend_parts {q0 : List Part} {z0 : State} (standby : Option (List Nat)) (s : State)
    (h0 : within [.dev, .regs, .copies, .boot, .ofe, .lbq, .outs, .mrg, .saf, .fds, .str, .frw, .links, .events, .store] q0 = true) :
    OnlyParts q0 z0 (verdictSend standby s) ↔ OnlyParts q0 z0 s := by
  refine OnlyParts.through (ps := [.dev, .regs, .copies, .boot, .ofe, .lbq, .outs, .mrg, .saf, .fds, .str, .frw, .links, .events, .store]) ?_ h0
  simp only [verdictSend]
  (repeat' split) <;> simp +decide

@[simp] theorem verdictDeadline_parts {q0 : List Part} {z0 : State} (b : Bool) (s : State)
    (h0 : within [.dev, .regs, .copies, .boot, .ofe, .lbq, .outs, .mrg, .saf, .fds, .str, .frw, .links, .events, .store] q0 = true) :
    OnlyParts q0 z0 (verdictDeadline b s) ↔ OnlyParts q0 z0 s := by
  refine OnlyParts.through (ps := [.dev, .regs, .copies, .boot, .ofe, .lbq, .outs, .mrg, .saf, .fds, .str, .frw, .links, .events, .store]) ?_ h0
  simp +decide [verdictDeadline]

@[simp] theorem verdictSegment_parts {q0 : List Part} {z0 : State} (s : State)
    (h0 : within [.regs, .copies, .outs, .mrg, .saf, .fds, .events] q0 = true) :
    OnlyParts q0 z0 (verdictSegment s) ↔ OnlyParts q0 z0 s := by
  refine OnlyParts.through (ps := [.regs, .copies, .outs, .mrg, .saf, .fds, .events]) ?_ h0
  simp only [verdictSegment]
  (repeat' split) <;> simp +decide

@[simp] theorem verdictTimeout_parts {q0 : List Part} {z0 : State} (side : EvalSide) (s : State)
    (h0 : within [.regs, .copies, .outs, .fds, .events] q0 = true) :
    OnlyParts q0 z0 (verdictTimeout side s) ↔ OnlyParts q0 z0 s := by
  refine OnlyParts.through (ps := [.regs, .copies, .outs, .fds, .events]) ?_ h0
  simp only [verdictTimeout]
  (repeat' split) <;> simp +decide

@[simp] theorem verdictLoss_parts {q0 : List Part} {z0 : State} (s : State)
    (h0 : within [.dev, .regs, .copies, .boot, .ofe, .lbq, .outs, .mrg, .saf, .fds, .str, .frw, .links, .events, .store] q0 = true) :
    OnlyParts q0 z0 (verdictLoss s) ↔ OnlyParts q0 z0 s := by
  refine OnlyParts.through (ps := [.dev, .regs, .copies, .boot, .ofe, .lbq, .outs, .mrg, .saf, .fds, .str, .frw, .links, .events, .store]) ?_ h0
  simp only [verdictLoss]
  (repeat' split) <;> simp +decide

@[simp] theorem combinationCompare_parts {q0 : List Part} {z0 : State} (s : State)
    (h0 : within [.dev, .regs, .copies, .boot, .ofe, .lbq, .outs, .mrg, .saf, .fds, .str, .frw, .links, .events, .store] q0 = true) :
    OnlyParts q0 z0 (combinationCompare s) ↔ OnlyParts q0 z0 s := by
  refine OnlyParts.through (ps := [.dev, .regs, .copies, .boot, .ofe, .lbq, .outs, .mrg, .saf, .fds, .str, .frw, .links, .events, .store]) ?_ h0
  simp only [combinationCompare]
  (repeat' split) <;> simp +decide

@[simp] theorem safeStopCauseClear_parts {q0 : List Part} {z0 : State} (k : Nat) (s : State) (h0 : within [.fds] q0 = true) :
    OnlyParts q0 z0 (safeStopCauseClear k s) ↔ OnlyParts q0 z0 s := by
  refine OnlyParts.through (ps := [.fds]) ?_ h0
  simp +decide [safeStopCauseClear]

@[simp] theorem ledgerFault_parts {q0 : List Part} {z0 : State} (s : State)
    (h0 : within [.dev, .regs, .copies, .boot, .ofe, .lbq, .outs, .mrg, .saf, .fds, .str, .frw, .links, .events, .store] q0 = true) :
    OnlyParts q0 z0 (ledgerFault s) ↔ OnlyParts q0 z0 s := by
  refine OnlyParts.through (ps := [.dev, .regs, .copies, .boot, .ofe, .lbq, .outs, .mrg, .saf, .fds, .str, .frw, .links, .events, .store]) ?_ h0
  simp +decide [ledgerFault]

@[simp] theorem ledgerScrub_parts {q0 : List Part} {z0 : State} (r : ScrubResult) (s : State)
    (h0 : within [.dev, .regs, .copies, .boot, .ofe, .lbq, .outs, .mrg, .saf, .fds, .str, .frw, .links, .events, .store] q0 = true) :
    OnlyParts q0 z0 (ledgerScrub r s) ↔ OnlyParts q0 z0 s := by
  refine OnlyParts.through (ps := [.dev, .regs, .copies, .boot, .ofe, .lbq, .outs, .mrg, .saf, .fds, .str, .frw, .links, .events, .store]) ?_ h0
  simp only [ledgerScrub]
  (repeat' split) <;> simp +decide

@[simp] theorem fdInternalFault_parts {q0 : List Part} {z0 : State} (s : State)
    (h0 : within [.dev, .regs, .copies, .boot, .ofe, .lbq, .outs, .mrg, .saf, .fds, .str, .frw, .links, .events, .store] q0 = true) :
    OnlyParts q0 z0 (fdInternalFault s) ↔ OnlyParts q0 z0 s := by
  refine OnlyParts.through (ps := [.dev, .regs, .copies, .boot, .ofe, .lbq, .outs, .mrg, .saf, .fds, .str, .frw, .links, .events, .store]) ?_ h0
  simp +decide [fdInternalFault]

@[simp] theorem fieldSupplyFault_parts {q0 : List Part} {z0 : State} (s : State)
    (h0 : within [.dev, .regs, .copies, .boot, .ofe, .lbq, .outs, .mrg, .saf, .fds, .str, .frw, .links, .events, .store] q0 = true) :
    OnlyParts q0 z0 (fieldSupplyFault s) ↔ OnlyParts q0 z0 s := by
  refine OnlyParts.through (ps := [.dev, .regs, .copies, .boot, .ofe, .lbq, .outs, .mrg, .saf, .fds, .str, .frw, .links, .events, .store]) ?_ h0
  simp +decide [fieldSupplyFault]

@[simp] theorem pairSelftest_parts {q0 : List Part} {z0 : State} (b : Bool) (reports : List Nat) (railsOk : Bool) (s : State)
    (h0 : within [.dev, .regs, .copies, .boot, .ofe, .lbq, .outs, .mrg, .saf, .fds, .str, .frw, .links, .events, .store] q0 = true) :
    OnlyParts q0 z0 (pairSelftest b reports railsOk s) ↔ OnlyParts q0 z0 s := by
  refine OnlyParts.through (ps := [.dev, .regs, .copies, .boot, .ofe, .lbq, .outs, .mrg, .saf, .fds, .str, .frw, .links, .events, .store]) ?_ h0
  simp +decide [pairSelftest]

@[simp] theorem State.safResult_parts {q0 : List Part} {z0 : State} (s : State) (res : Nat)
    (h0 : within [.regs, .copies, .saf, .events] q0 = true) :
    OnlyParts q0 z0 (State.safResult s res) ↔ OnlyParts q0 z0 s := by
  refine OnlyParts.through (ps := [.regs, .copies, .saf, .events]) ?_ h0
  simp +decide [State.safResult]

@[simp] theorem safReturn_parts {q0 : List Part} {z0 : State} (b : Bool) (s : State)
    (h0 : within [.regs, .copies, .saf, .events] q0 = true) :
    OnlyParts q0 z0 (safReturn b s) ↔ OnlyParts q0 z0 s := by
  refine OnlyParts.through (ps := [.regs, .copies, .saf, .events]) ?_ h0
  simp +decide [safReturn]

@[simp] theorem safInject_parts {q0 : List Part} {z0 : State} (b : Bool) (s : State)
    (h0 : within [.dev, .regs, .copies, .boot, .ofe, .lbq, .outs, .mrg, .saf, .fds, .str, .frw, .links, .events, .store] q0 = true) :
    OnlyParts q0 z0 (safInject b s) ↔ OnlyParts q0 z0 s := by
  refine OnlyParts.through (ps := [.dev, .regs, .copies, .boot, .ofe, .lbq, .outs, .mrg, .saf, .fds, .str, .frw, .links, .events, .store]) ?_ h0
  simp +decide [safInject]

@[simp] theorem safSwap_parts {q0 : List Part} {z0 : State} (s : State) (h0 : within [.regs, .copies, .saf, .events] q0 = true) :
    OnlyParts q0 z0 (safSwap s) ↔ OnlyParts q0 z0 s := by
  refine OnlyParts.through (ps := [.regs, .copies, .saf, .events]) ?_ h0
  simp +decide [safSwap]

@[simp] theorem safCommand_parts {q0 : List Part} {z0 : State} (v : Word) (s : State)
    (h0 : within [.dev, .regs, .copies, .boot, .ofe, .lbq, .outs, .mrg, .saf, .fds, .str, .frw, .links, .events, .store] q0 = true) :
    OnlyParts q0 z0 (safCommand v s) ↔ OnlyParts q0 z0 s := by
  refine OnlyParts.through (ps := [.dev, .regs, .copies, .boot, .ofe, .lbq, .outs, .mrg, .saf, .fds, .str, .frw, .links, .events, .store]) ?_ h0
  simp only [safCommand]
  (repeat' split) <;> simp +decide

@[simp] theorem returnSelftest_parts {q0 : List Part} {z0 : State} (b : Bool) (pass : Bool) (s : State)
    (h0 : within [.dev, .regs, .copies, .boot, .ofe, .lbq, .outs, .mrg, .saf, .fds, .str, .frw, .links, .events, .store] q0 = true) :
    OnlyParts q0 z0 (returnSelftest b pass s) ↔ OnlyParts q0 z0 s := by
  refine OnlyParts.through (ps := [.dev, .regs, .copies, .boot, .ofe, .lbq, .outs, .mrg, .saf, .fds, .str, .frw, .links, .events, .store]) ?_ h0
  simp +decide [returnSelftest]

@[simp] theorem returnComplete_parts {q0 : List Part} {z0 : State} (b : Bool) (s : State)
    (h0 : within [.dev, .regs, .copies, .outs, .saf, .fds, .events] q0 = true) :
    OnlyParts q0 z0 (returnComplete b s) ↔ OnlyParts q0 z0 s := by
  refine OnlyParts.through (ps := [.dev, .regs, .copies, .outs, .saf, .fds, .events]) ?_ h0
  simp +decide [returnComplete]

@[simp] theorem debugHalt_parts {q0 : List Part} {z0 : State} (b : Bool) (s : State)
    (h0 : within [.dev, .regs, .copies, .boot, .ofe, .lbq, .outs, .mrg, .saf, .fds, .str, .frw, .links, .events, .store] q0 = true) :
    OnlyParts q0 z0 (debugHalt b s) ↔ OnlyParts q0 z0 s := by
  refine OnlyParts.through (ps := [.dev, .regs, .copies, .boot, .ofe, .lbq, .outs, .mrg, .saf, .fds, .str, .frw, .links, .events, .store]) ?_ h0
  simp +decide [debugHalt]

end Sys2Proof.Machine
end

