-- ==== Sys2Proof/Laws/HostsParts.lean ====
section
/-!
SUPPORT. What the operations of Machine/Hosts leave unchanged.
-/
namespace Sys2Proof.Machine

@[simp] theorem State.modDomCmds_parts {q0 : List Part} {z0 : State} (s : State) (d : Nat) (f : DomainCmds → DomainCmds)
    (h0 : within [.commands] q0 = true) :
    OnlyParts q0 z0 (State.modDomCmds s d f) ↔ OnlyParts q0 z0 s := by
  refine OnlyParts.through (ps := [.commands]) ?_ h0
  exact ⟨fun p hp => by cases p <;> first | exact absurd (by decide) hp | simp [Part.same]⟩

@[simp] theorem State.reject_parts {q0 : List Part} {z0 : State} (s : State) (d : Nat) (code : Nat) (h0 : within [.commands] q0 = true) :
    OnlyParts q0 z0 (State.reject s d code) ↔ OnlyParts q0 z0 s := by
  refine OnlyParts.through (ps := [.commands]) ?_ h0
  simp +decide [State.reject]

@[simp] theorem State.mboxFree_parts {q0 : List Part} {z0 : State} (s : State) (o : CmdOrigin) (h0 : within [.links] q0 = true) :
    OnlyParts q0 z0 (State.mboxFree s o) ↔ OnlyParts q0 z0 s := by
  refine OnlyParts.through (ps := [.links]) ?_ h0
  simp +decide [State.mboxFree]

@[simp] theorem State.discardOne_parts {q0 : List Part} {z0 : State} (s : State) (q : QueuedCmd)
    (h0 : within [.links, .commands] q0 = true) :
    OnlyParts q0 z0 (State.discardOne s q) ↔ OnlyParts q0 z0 s := by
  refine OnlyParts.through (ps := [.links, .commands]) ?_ h0
  simp +decide [State.discardOne]

@[simp] theorem State.discardCmds_parts {q0 : List Part} {z0 : State} (s : State) (d : Nat) (h0 : within [.links, .commands] q0 = true) :
    OnlyParts q0 z0 (State.discardCmds s d) ↔ OnlyParts q0 z0 s := by
  refine OnlyParts.through (ps := [.links, .commands]) ?_ h0
  simp +decide [State.discardCmds]

@[simp] theorem State.endWaits_parts {q0 : List Part} {z0 : State} (s : State) (p : QueuedCmd → Bool)
    (h0 : within [.regs, .copies, .outs, .saf, .fds, .frw, .events, .store] q0 = true) :
    OnlyParts q0 z0 (State.endWaits s p) ↔ OnlyParts q0 z0 s := by
  refine OnlyParts.through (ps := [.regs, .copies, .outs, .saf, .fds, .frw, .events, .store]) ?_ h0
  simp +decide [State.endWaits]

@[simp] theorem State.leaseEnd_parts {q0 : List Part} {z0 : State} (s : State) (bit : Nat) (entry : Option Nat)
    (h0 : within [.regs, .copies, .outs, .saf, .fds, .frw, .lease, .events, .store] q0 = true) :
    OnlyParts q0 z0 (State.leaseEnd s bit entry) ↔ OnlyParts q0 z0 s := by
  refine OnlyParts.through (ps := [.regs, .copies, .outs, .saf, .fds, .frw, .lease, .events, .store]) ?_ h0
  simp only [State.leaseEnd]
  (repeat' split) <;> simp +decide

@[simp] theorem leaseLapse_parts {q0 : List Part} {z0 : State} (s : State)
    (h0 : within [.regs, .copies, .outs, .saf, .fds, .frw, .lease, .events, .store] q0 = true) :
    OnlyParts q0 z0 (leaseLapse s) ↔ OnlyParts q0 z0 s := by
  refine OnlyParts.through (ps := [.regs, .copies, .outs, .saf, .fds, .frw, .lease, .events, .store]) ?_ h0
  simp +decide [leaseLapse]

@[simp] theorem leaseGrace_parts {q0 : List Part} {z0 : State} (s : State) (h0 : within [.regs, .copies, .lease, .events] q0 = true) :
    OnlyParts q0 z0 (leaseGrace s) ↔ OnlyParts q0 z0 s := by
  refine OnlyParts.through (ps := [.regs, .copies, .lease, .events]) ?_ h0
  simp +decide [leaseGrace]

@[simp] theorem State.renewReject_parts {q0 : List Part} {z0 : State} (s : State) (m : Master) (code : Nat)
    (h0 : within [.regs, .copies, .commands, .events] q0 = true) :
    OnlyParts q0 z0 (State.renewReject s m code) ↔ OnlyParts q0 z0 s := by
  refine OnlyParts.through (ps := [.regs, .copies, .commands, .events]) ?_ h0
  simp only [State.renewReject]
  (repeat' split) <;> simp +decide

@[simp] theorem leaseRenew_parts {q0 : List Part} {z0 : State} (m : Master) (v : Word) (s : State)
    (h0 : within [.regs, .copies, .outs, .saf, .fds, .frw, .lease, .commands, .events, .store] q0 = true) :
    OnlyParts q0 z0 (leaseRenew m v s) ↔ OnlyParts q0 z0 s := by
  refine OnlyParts.through (ps := [.regs, .copies, .outs, .saf, .fds, .frw, .lease, .commands, .events, .store]) ?_ h0
  simp only [leaseRenew]
  (repeat' split) <;> simp +decide

@[simp] theorem State.leaseGrant_parts {q0 : List Part} {z0 : State} (s : State) (d : Nat)
    (h0 : within [.regs, .copies, .lease, .events, .store] q0 = true) :
    OnlyParts q0 z0 (State.leaseGrant s d) ↔ OnlyParts q0 z0 s := by
  refine OnlyParts.through (ps := [.regs, .copies, .lease, .events, .store]) ?_ h0
  simp +decide [State.leaseGrant]

@[simp] theorem State.dropOutbound_parts {q0 : List Part} {z0 : State} (s : State) (d : Nat) (h0 : within [.links, .events] q0 = true) :
    OnlyParts q0 z0 (State.dropOutbound s d) ↔ OnlyParts q0 z0 s := by
  refine OnlyParts.through (ps := [.links, .events]) ?_ h0
  simp only [State.dropOutbound]
  (repeat' split) <;> first | (simp +decide; done) | exact ⟨fun p hp => by cases p <;> first | exact absurd (by decide) hp | simp [Part.same]⟩

@[simp] theorem State.domainStops_parts {q0 : List Part} {z0 : State} (s : State) (d : Nat)
    (h0 : within [.regs, .copies, .outs, .saf, .fds, .str, .frw, .links, .dma, .lease, .commands, .events, .store] q0 = true) :
    OnlyParts q0 z0 (State.domainStops s d) ↔ OnlyParts q0 z0 s := by
  refine OnlyParts.through (ps := [.regs, .copies, .outs, .saf, .fds, .str, .frw, .links, .dma, .lease, .commands, .events, .store]) ?_ h0
  simp +decide [State.domainStops]

@[simp] theorem State.freezeAs_parts {q0 : List Part} {z0 : State} (s : State) (r : FreezeRec) (h0 : within [.freeze] q0 = true) :
    OnlyParts q0 z0 (State.freezeAs s r) ↔ OnlyParts q0 z0 s := by
  refine OnlyParts.through (ps := [.freeze]) ?_ h0
  simp only [State.freezeAs]
  (repeat' split) <;> first | (simp +decide; done) | exact ⟨fun p hp => by cases p <;> first | exact absurd (by decide) hp | simp [Part.same]⟩

@[simp] theorem State.freeze_parts {q0 : List Part} {z0 : State} (s : State) (who : Frozen) (cause : FreezeCause) (detail : Nat)
    (h0 : within [.regs, .copies, .outs, .saf, .fds, .str, .frw, .links, .dma, .lease, .freeze, .commands, .events, .store] q0 = true) :
    OnlyParts q0 z0 (State.freeze s who cause detail) ↔ OnlyParts q0 z0 s := by
  refine OnlyParts.through (ps := [.regs, .copies, .outs, .saf, .fds, .str, .frw, .links, .dma, .lease, .freeze, .commands, .events, .store]) ?_ h0
  unfold State.freeze
  (repeat' split) <;> first | (simp +decide; done) | exact ⟨fun p hp => by cases p <;> first | exact absurd (by decide) hp | simp [Part.same]⟩

@[simp] theorem State.violate_parts {q0 : List Part} {z0 : State} (s : State) (m : Master) (cause : FreezeCause) (detail : Nat)
    (h0 : within [.regs, .copies, .outs, .saf, .fds, .str, .frw, .links, .dma, .lease, .freeze, .commands, .events, .store] q0 = true) :
    OnlyParts q0 z0 (State.violate s m cause detail) ↔ OnlyParts q0 z0 s := by
  refine OnlyParts.through (ps := [.regs, .copies, .outs, .saf, .fds, .str, .frw, .links, .dma, .lease, .freeze, .commands, .events, .store]) ?_ h0
  simp only [State.violate]
  (repeat' split) <;> simp +decide

@[simp] theorem State.freezeEnds_parts {q0 : List Part} {z0 : State} (s : State) (who : Frozen) (h0 : within [.freeze] q0 = true) :
    OnlyParts q0 z0 (State.freezeEnds s who) ↔ OnlyParts q0 z0 s := by
  refine OnlyParts.through (ps := [.freeze]) ?_ h0
  simp only [State.freezeEnds]
  (repeat' split) <;> first | (simp +decide; done) | exact ⟨fun p hp => by cases p <;> first | exact absurd (by decide) hp | simp [Part.same]⟩

@[simp] theorem State.thaw_parts {q0 : List Part} {z0 : State} (s : State) (who : Frozen) (h0 : within [.dma, .freeze] q0 = true) :
    OnlyParts q0 z0 (State.thaw s who) ↔ OnlyParts q0 z0 s := by
  refine OnlyParts.through (ps := [.dma, .freeze]) ?_ h0
  simp only [State.thaw]
  (repeat' split) <;> simp +decide

@[simp] theorem passwordLockoutEnd_parts {q0 : List Part} {z0 : State} (safety : Bool) (s : State) (h0 : within [.passwords] q0 = true) :
    OnlyParts q0 z0 (passwordLockoutEnd safety s) ↔ OnlyParts q0 z0 s := by
  refine OnlyParts.through (ps := [.passwords]) ?_ h0
  simp +decide [passwordLockoutEnd]

@[simp] theorem lockoutTimeSave_parts {q0 : List Part} {z0 : State} (s : State) (h0 : within [.passwords] q0 = true) :
    OnlyParts q0 z0 (lockoutTimeSave s) ↔ OnlyParts q0 z0 s := by
  refine OnlyParts.through (ps := [.passwords]) ?_ h0
  simp only [lockoutTimeSave]
  (repeat' split) <;> first | (simp +decide; done) | exact ⟨fun p hp => by cases p <;> first | exact absurd (by decide) hp | simp [Part.same]⟩

@[simp] theorem snapshotTake_parts {q0 : List Part} {z0 : State} (d : Nat) (s : State) (h0 : within [.snaps] q0 = true) :
    OnlyParts q0 z0 (snapshotTake d s) ↔ OnlyParts q0 z0 s := by
  refine OnlyParts.through (ps := [.snaps]) ?_ h0
  simp +decide [snapshotTake]

@[simp] theorem State.snapCapture_parts {q0 : List Part} {z0 : State} (s : State) (h0 : within [.snaps] q0 = true) :
    OnlyParts q0 z0 (State.snapCapture s) ↔ OnlyParts q0 z0 s := by
  refine OnlyParts.through (ps := [.snaps]) ?_ h0
  simp +decide [State.snapCapture]

@[simp] theorem snapshotFill_parts {q0 : List Part} {z0 : State} (d : Nat) (s : State) (h0 : within [.copies, .events, .snaps] q0 = true) :
    OnlyParts q0 z0 (snapshotFill d s) ↔ OnlyParts q0 z0 s := by
  refine OnlyParts.through (ps := [.copies, .events, .snaps]) ?_ h0
  simp +decide [snapshotFill]

end Sys2Proof.Machine
end

