-- ==== Sys2Proof/Laws/StrCmdParts.lean ====
section
/-!
SUPPORT. What the operations of Machine/StrCmd leave unchanged.
-/
namespace Sys2Proof.Machine

@[simp] theorem State.strStateFail_parts {q0 : List Part} {z0 : State} (s : State) (h0 : within [.str] q0 = true) :
    OnlyParts q0 z0 (State.strStateFail s).1 ↔ OnlyParts q0 z0 s := by
  refine OnlyParts.through (ps := [.str]) ?_ h0
  simp +decide [State.strStateFail]

@[simp] theorem strOpen_parts {q0 : List Part} {z0 : State} (d : Nat) (s : State) (h0 : within [.str] q0 = true) :
    OnlyParts q0 z0 (strOpen d s).1 ↔ OnlyParts q0 z0 s := by
  refine OnlyParts.through (ps := [.str]) ?_ h0
  simp only [strOpen]
  (repeat' split) <;> simp +decide

@[simp] theorem strVerify_parts {q0 : List Part} {z0 : State} (d : Nat) (len : Nat) (s : State) (h0 : within [.str] q0 = true) :
    OnlyParts q0 z0 (strVerify d len s).1 ↔ OnlyParts q0 z0 s := by
  refine OnlyParts.through (ps := [.str]) ?_ h0
  simp only [strVerify]
  (repeat' split) <;> simp +decide

@[simp] theorem State.verifyFail_parts {q0 : List Part} {z0 : State} (s : State) (code : Nat) (detail : Nat) (frame : Nat)
    (h0 : within [.regs, .copies, .str, .events] q0 = true) :
    OnlyParts q0 z0 (State.verifyFail s code detail frame) ↔ OnlyParts q0 z0 s := by
  refine OnlyParts.through (ps := [.regs, .copies, .str, .events]) ?_ h0
  simp +decide [State.verifyFail]

@[simp] theorem verifyComplete_parts {q0 : List Part} {z0 : State} (nvOk : Bool) (s : State)
    (h0 : within [.regs, .copies, .str, .events] q0 = true) :
    OnlyParts q0 z0 (verifyComplete nvOk s) ↔ OnlyParts q0 z0 s := by
  refine OnlyParts.through (ps := [.regs, .copies, .str, .events]) ?_ h0
  simp only [verifyComplete]
  (repeat' split) <;> simp +decide

@[simp] theorem stagingTimeout_parts {q0 : List Part} {z0 : State} (s : State)
    (h0 : within [.regs, .copies, .str, .events, .store] q0 = true) :
    OnlyParts q0 z0 (stagingTimeout s) ↔ OnlyParts q0 z0 s := by
  refine OnlyParts.through (ps := [.regs, .copies, .str, .events, .store]) ?_ h0
  simp +decide [stagingTimeout]

@[simp] theorem State.stageStore_parts {q0 : List Part} {z0 : State} (s : State) (i : Nat) (l : List Byte)
    (h0 : within [.regs, .copies, .str, .cvu, .mem, .events] q0 = true) :
    OnlyParts q0 z0 (State.stageStore s i l) ↔ OnlyParts q0 z0 s := by
  refine OnlyParts.through (ps := [.regs, .copies, .str, .cvu, .mem, .events]) ?_ h0
  simp only [State.stageStore]
  (repeat' split) <;> simp +decide

@[simp] theorem State.stageRead_parts {q0 : List Part} {z0 : State} (s : State) (off : Nat) (h0 : within [.str] q0 = true) :
    OnlyParts q0 z0 (State.stageRead s off).1 ↔ OnlyParts q0 z0 s := by
  refine OnlyParts.through (ps := [.str]) ?_ h0
  simp +decide [State.stageRead]

@[simp] theorem State.commitPassword_parts {q0 : List Part} {z0 : State} (s : State) (pwd : List Byte)
    (h0 : within [.passwords] q0 = true) :
    OnlyParts q0 z0 (State.commitPassword s pwd).1 ↔ OnlyParts q0 z0 s := by
  refine OnlyParts.through (ps := [.passwords]) ?_ h0
  simp +decide [State.commitPassword]

@[simp] theorem State.commitStart_parts {q0 : List Part} {z0 : State} (s : State) (d : Nat) (a : CommitArgs) (keys : List FrameKey) (affected : List Nat)
    (h0 : within [.str] q0 = true) :
    OnlyParts q0 z0 (State.commitStart s d a keys affected) ↔ OnlyParts q0 z0 s := by
  refine OnlyParts.through (ps := [.str]) ?_ h0
  simp +decide [State.commitStart]

@[simp] theorem strCommit_parts {q0 : List Part} {z0 : State} (d : Nat) (args : List Byte) (s : State)
    (h0 : within [.str, .passwords] q0 = true) :
    OnlyParts q0 z0 (strCommit d args s).1 ↔ OnlyParts q0 z0 s := by
  refine OnlyParts.through (ps := [.str, .passwords]) ?_ h0
  have k : OnlyParts [.str, .passwords] s (s.commitPassword (commitArgs args).pwd).1 := by simp +decide
  cases hm : s.commitPassword (commitArgs args).pwd with
  | mk t r =>
    rw [hm] at k
    simp only [strCommit, hm]
    (repeat' split) <;> first | (simp; done) | (simp +decide; done) | (simp_all +decide; done)

@[simp] theorem strAbortCmd_parts {q0 : List Part} {z0 : State} (d : Nat) (s : State)
    (h0 : within [.regs, .copies, .str, .events] q0 = true) :
    OnlyParts q0 z0 (strAbortCmd d s).1 ↔ OnlyParts q0 z0 s := by
  refine OnlyParts.through (ps := [.regs, .copies, .str, .events]) ?_ h0
  simp only [strAbortCmd]
  (repeat' split) <;> simp +decide

@[simp] theorem State.clgAppend_parts {q0 : List Part} {z0 : State} (s : State) (body : Nat → List Byte)
    (h0 : within [.regs, .copies, .events, .store] q0 = true) :
    OnlyParts q0 z0 (State.clgAppend s body) ↔ OnlyParts q0 z0 s := by
  refine OnlyParts.through (ps := [.regs, .copies, .events, .store]) ?_ h0
  simp +decide [State.clgAppend]

@[simp] theorem strPwdSet_parts {q0 : List Part} {z0 : State} (args : List Byte) (s : State) (h0 : within [.str, .passwords] q0 = true) :
    OnlyParts q0 z0 (strPwdSet args s).1 ↔ OnlyParts q0 z0 s := by
  refine OnlyParts.through (ps := [.str, .passwords]) ?_ h0
  simp only [strPwdSet]
  (repeat' split) <;> simp +decide

@[simp] theorem State.strPwdStore_parts {q0 : List Part} {z0 : State} (s : State) (d : Nat) (args : List Byte)
    (h0 : within [.regs, .copies, .passwords, .events, .store] q0 = true) :
    OnlyParts q0 z0 (State.strPwdStore s d args) ↔ OnlyParts q0 z0 s := by
  refine OnlyParts.through (ps := [.regs, .copies, .passwords, .events, .store]) ?_ h0
  simp +decide [State.strPwdStore]

@[simp] theorem strFrameReceived_parts {q0 : List Part} {z0 : State} (t : Nat) (ok : Bool) (s : State)
    (h0 : within [.regs, .copies, .str, .events] q0 = true) :
    OnlyParts q0 z0 (strFrameReceived t ok s) ↔ OnlyParts q0 z0 s := by
  refine OnlyParts.through (ps := [.regs, .copies, .str, .events]) ?_ h0
  simp only [strFrameReceived]
  (repeat' split) <;> simp +decide

@[simp] theorem strFrameAck_parts {q0 : List Part} {z0 : State} (t : Nat) (s : State) (h0 : within [.str] q0 = true) :
    OnlyParts q0 z0 (strFrameAck t s) ↔ OnlyParts q0 z0 s := by
  refine OnlyParts.through (ps := [.str]) ?_ h0
  simp only [strFrameAck]
  (repeat' split) <;> simp +decide

@[simp] theorem commitDistribTimeout_parts {q0 : List Part} {z0 : State} (s : State)
    (h0 : within [.regs, .copies, .str, .events] q0 = true) :
    OnlyParts q0 z0 (commitDistribTimeout s) ↔ OnlyParts q0 z0 s := by
  refine OnlyParts.through (ps := [.regs, .copies, .str, .events]) ?_ h0
  simp only [commitDistribTimeout]
  (repeat' split) <;> simp +decide

@[simp] theorem State.commitLog_parts {q0 : List Part} {z0 : State} (s : State) (c : Commit)
    (h0 : within [.regs, .copies, .events, .store] q0 = true) :
    OnlyParts q0 z0 (State.commitLog s c) ↔ OnlyParts q0 z0 s := by
  refine OnlyParts.through (ps := [.regs, .copies, .events, .store]) ?_ h0
  simp +decide [State.commitLog]

@[simp] theorem State.commitEpoch_parts {q0 : List Part} {z0 : State} (s : State) (c : Commit) (h0 : within [.str] q0 = true) :
    OnlyParts q0 z0 (State.commitEpoch s c) ↔ OnlyParts q0 z0 s := by
  refine OnlyParts.through (ps := [.str]) ?_ h0
  simp +decide [State.commitEpoch]

@[simp] theorem State.commitBase_parts {q0 : List Part} {z0 : State} (s : State) (c : Commit) (h0 : within [.str] q0 = true) :
    OnlyParts q0 z0 (State.commitBase s c) ↔ OnlyParts q0 z0 s := by
  refine OnlyParts.through (ps := [.str]) ?_ h0
  simp +decide [State.commitBase]

@[simp] theorem State.commitWrites_parts {q0 : List Part} {z0 : State} (s : State) (c : Commit) (n : Nat)
    (h0 : within [.regs, .copies, .str, .events, .store] q0 = true) :
    OnlyParts q0 z0 (State.commitWrites s c n) ↔ OnlyParts q0 z0 s := by
  refine OnlyParts.through (ps := [.regs, .copies, .str, .events, .store]) ?_ h0
  simp +decide [State.commitWrites]

@[simp] theorem commitNvWritesDone_parts {q0 : List Part} {z0 : State} (n : Nat) (s : State)
    (h0 : within [.regs, .copies, .str, .events, .store] q0 = true) :
    OnlyParts q0 z0 (commitNvWritesDone n s) ↔ OnlyParts q0 z0 s := by
  refine OnlyParts.through (ps := [.regs, .copies, .str, .events, .store]) ?_ h0
  simp only [commitNvWritesDone]
  (repeat' split) <;> simp +decide

@[simp] theorem State.structWord_parts {q0 : List Part} {z0 : State} (s : State) (plan : Plan) (bad : List Nat) (a : Nat) (m : Word)
    (h0 : within [.time, .regs, .copies, .dmd, .events, .store] q0 = true) :
    OnlyParts q0 z0 (State.structWord s plan bad a m) ↔ OnlyParts q0 z0 s := by
  refine OnlyParts.through (ps := [.time, .regs, .copies, .dmd, .events, .store]) ?_ h0
  simp only [State.structWord]
  (repeat' split) <;> simp +decide

@[simp] theorem State.spareBack_parts {q0 : List Part} {z0 : State} (s : State) (d : Nat) (i : Nat) (h0 : within [.lbq] q0 = true) :
    OnlyParts q0 z0 (State.spareBack s d i) ↔ OnlyParts q0 z0 s := by
  refine OnlyParts.through (ps := [.lbq]) ?_ h0
  simp +decide [State.spareBack]

@[simp] theorem State.spanServed_parts {q0 : List Part} {z0 : State} (s : State) (d : Nat) (i : Nat)
    (h0 : within [.regs, .copies, .lbq, .events] q0 = true) :
    OnlyParts q0 z0 (State.spanServed s d i) ↔ OnlyParts q0 z0 s := by
  refine OnlyParts.through (ps := [.regs, .copies, .lbq, .events]) ?_ h0
  simp only [State.spanServed]
  (repeat' split) <;> simp +decide

@[simp] theorem State.spanChanged_parts {q0 : List Part} {z0 : State} (s : State) (d : Nat) (i : Nat)
    (h0 : within [.regs, .copies, .lbq, .mrg, .fds, .events] q0 = true) :
    OnlyParts q0 z0 (State.spanChanged s d i) ↔ OnlyParts q0 z0 s := by
  refine OnlyParts.through (ps := [.regs, .copies, .lbq, .mrg, .fds, .events]) ?_ h0
  simp +decide [State.spanChanged]

@[simp] theorem State.blockCommit_parts {q0 : List Part} {z0 : State} (s : State) (d : Nat) (b : Nat) (h0 : within [.lbq] q0 = true) :
    OnlyParts q0 z0 (State.blockCommit s d b) ↔ OnlyParts q0 z0 s := by
  refine OnlyParts.through (ps := [.lbq]) ?_ h0
  simp only [State.blockCommit]
  (repeat' split) <;> simp +decide

@[simp] theorem State.sensorCommit_parts {q0 : List Part} {z0 : State} (s : State) (d : Nat) (e : Nat) (changed : Bool)
    (h0 : within [.regs, .copies, .lbq, .sensors, .events] q0 = true) :
    OnlyParts q0 z0 (State.sensorCommit s d e changed) ↔ OnlyParts q0 z0 s := by
  refine OnlyParts.through (ps := [.regs, .copies, .lbq, .sensors, .events]) ?_ h0
  simp +decide [State.sensorCommit]

@[simp] theorem State.dieCommit_parts {q0 : List Part} {z0 : State} (s : State) (old : State) (ks : List FrameKey) (d : Nat)
    (h0 : within [.regs, .copies, .ofe, .psy, .dmd, .lbq, .sensors, .cal, .mrg, .fds, .events] q0 = true) :
    OnlyParts q0 z0 (State.dieCommit s old ks d) ↔ OnlyParts q0 z0 s := by
  refine OnlyParts.through (ps := [.regs, .copies, .ofe, .psy, .dmd, .lbq, .sensors, .cal, .mrg, .fds, .events]) ?_ h0
  simp +decide [State.dieCommit]

@[simp] theorem State.digestCheck_parts {q0 : List Part} {z0 : State} (s : State)
    (h0 : within [.dev, .regs, .copies, .boot, .ofe, .lbq, .outs, .mrg, .saf, .fds, .str, .frw, .links, .events, .store] q0 = true) :
    OnlyParts q0 z0 (State.digestCheck s) ↔ OnlyParts q0 z0 s := by
  refine OnlyParts.through (ps := [.dev, .regs, .copies, .boot, .ofe, .lbq, .outs, .mrg, .saf, .fds, .str, .frw, .links, .events, .store]) ?_ h0
  simp +decide [State.digestCheck]

@[simp] theorem State.fdDeliver_parts {q0 : List Part} {z0 : State} (s : State) (frames : List SFrame)
    (h0 : within [.dev, .regs, .copies, .boot, .ofe, .lbq, .outs, .mrg, .saf, .fds, .str, .frw, .links, .events, .store] q0 = true) :
    OnlyParts q0 z0 (State.fdDeliver s frames) ↔ OnlyParts q0 z0 s := by
  refine OnlyParts.through (ps := [.dev, .regs, .copies, .boot, .ofe, .lbq, .outs, .mrg, .saf, .fds, .str, .frw, .links, .events, .store]) ?_ h0
  simp +decide [State.fdDeliver]

@[simp] theorem State.fdCommit_parts {q0 : List Part} {z0 : State} (s : State) (plan : Plan) (ks : List FrameKey)
    (h0 : within [.regs, .copies, .fdin, .outs, .saf, .fds, .frw, .events, .store] q0 = true) :
    OnlyParts q0 z0 (State.fdCommit s plan ks) ↔ OnlyParts q0 z0 s := by
  refine OnlyParts.through (ps := [.regs, .copies, .fdin, .outs, .saf, .fds, .frw, .events, .store]) ?_ h0
  simp only [State.fdCommit]
  (repeat' split) <;> simp (maxDischargeDepth := 7) +decide

@[simp] theorem State.chanCommit_parts {q0 : List Part} {z0 : State} (s : State) (cfg : ChanCfg) (affected : List Nat)
    (h0 : within [.regs, .copies, .outs, .saf, .fds, .frw, .events, .store] q0 = true) :
    OnlyParts q0 z0 (State.chanCommit s cfg affected) ↔ OnlyParts q0 z0 s := by
  refine OnlyParts.through (ps := [.regs, .copies, .outs, .saf, .fds, .frw, .events, .store]) ?_ h0
  simp +decide [State.chanCommit]

@[simp] theorem State.windowCommit_parts {q0 : List Part} {z0 : State} (s : State) (old : State) (ks : List FrameKey)
    (h0 : within [.regs, .acw] q0 = true) :
    OnlyParts q0 z0 (State.windowCommit s old ks) ↔ OnlyParts q0 z0 s := by
  refine OnlyParts.through (ps := [.regs, .acw]) ?_ h0
  simp +decide [State.windowCommit]

@[simp] theorem State.frwCommit_parts {q0 : List Part} {z0 : State} (s : State) (old : State)
    (h0 : within [.regs, .copies, .outs, .saf, .fds, .frw, .events, .store] q0 = true) :
    OnlyParts q0 z0 (State.frwCommit s old) ↔ OnlyParts q0 z0 s := by
  refine OnlyParts.through (ps := [.regs, .copies, .outs, .saf, .fds, .frw, .events, .store]) ?_ h0
  simp +decide [State.frwCommit]

@[simp] theorem State.roleCommit_parts {q0 : List Part} {z0 : State} (s : State) (old : State)
    (h0 : within [.regs, .copies, .outs, .saf, .fds, .str, .frw, .links, .dma, .lease, .freeze, .commands, .events, .store] q0 = true) :
    OnlyParts q0 z0 (State.roleCommit s old) ↔ OnlyParts q0 z0 s := by
  refine OnlyParts.through (ps := [.regs, .copies, .outs, .saf, .fds, .str, .frw, .links, .dma, .lease, .freeze, .commands, .events, .store]) ?_ h0
  simp only [State.roleCommit]
  (repeat' split) <;> simp (maxDischargeDepth := 7) +decide

@[simp] theorem State.cvStructure_parts {q0 : List Part} {z0 : State} (s : State) (h0 : within [.regs] q0 = true) :
    OnlyParts q0 z0 (State.cvStructure s) ↔ OnlyParts q0 z0 s := by
  refine OnlyParts.through (ps := [.regs]) ?_ h0
  simp +decide [State.cvStructure]

@[simp] theorem State.applyStructure_parts {q0 : List Part} {z0 : State} (s : State) (frames : List SFrame) (affected : List Nat) (bad : List Nat)
    (h0 : within [.time, .dev, .regs, .copies, .boot, .ofe, .psy, .dmd, .lbq, .sensors, .cal, .fdin, .outs, .mrg, .saf, .fds, .str, .acw, .frw, .links, .dma, .lease, .freeze, .commands, .events, .store] q0 = true) :
    OnlyParts q0 z0 (State.applyStructure s frames affected bad) ↔ OnlyParts q0 z0 s := by
  refine OnlyParts.through (ps := [.time, .dev, .regs, .copies, .boot, .ofe, .psy, .dmd, .lbq, .sensors, .cal, .fdin, .outs, .mrg, .saf, .fds, .str, .acw, .frw, .links, .dma, .lease, .freeze, .commands, .events, .store]) ?_ h0
  simp +decide [State.applyStructure]

@[simp] theorem State.markBehind_parts {q0 : List Part} {z0 : State} (s : State) (targets : List Nat) (h0 : within [.str] q0 = true) :
    OnlyParts q0 z0 (State.markBehind s targets) ↔ OnlyParts q0 z0 s := by
  refine OnlyParts.through (ps := [.str]) ?_ h0
  simp +decide [State.markBehind]

@[simp] theorem State.restoreEffect_parts {q0 : List Part} {z0 : State} (s : State) (c : Commit) (bad : List Nat)
    (h0 : within [.time, .dev, .regs, .copies, .boot, .ofe, .psy, .dmd, .lbq, .sensors, .cal, .fdin, .outs, .mrg, .saf, .fds, .str, .acw, .frw, .links, .dma, .lease, .freeze, .commands, .events, .store] q0 = true) :
    OnlyParts q0 z0 (State.restoreEffect s c bad) ↔ OnlyParts q0 z0 s := by
  refine OnlyParts.through (ps := [.time, .dev, .regs, .copies, .boot, .ofe, .psy, .dmd, .lbq, .sensors, .cal, .fdin, .outs, .mrg, .saf, .fds, .str, .acw, .frw, .links, .dma, .lease, .freeze, .commands, .events, .store]) ?_ h0
  simp +decide [State.restoreEffect]

@[simp] theorem State.fullEffect_parts {q0 : List Part} {z0 : State} (s : State) (c : Commit) (bad : List Nat)
    (h0 : within [.time, .dev, .regs, .copies, .boot, .ofe, .psy, .dmd, .lbq, .sensors, .cal, .fdin, .outs, .mrg, .saf, .fds, .str, .acw, .frw, .links, .dma, .lease, .freeze, .commands, .events, .store] q0 = true) :
    OnlyParts q0 z0 (State.fullEffect s c bad) ↔ OnlyParts q0 z0 s := by
  refine OnlyParts.through (ps := [.time, .dev, .regs, .copies, .boot, .ofe, .psy, .dmd, .lbq, .sensors, .cal, .fdin, .outs, .mrg, .saf, .fds, .str, .acw, .frw, .links, .dma, .lease, .freeze, .commands, .events, .store]) ?_ h0
  simp +decide [State.fullEffect]

@[simp] theorem State.commitTakes_parts {q0 : List Part} {z0 : State} (s : State) (bad : List Nat)
    (h0 : within [.time, .dev, .regs, .copies, .boot, .ofe, .psy, .dmd, .lbq, .sensors, .cal, .fdin, .outs, .mrg, .saf, .fds, .str, .acw, .frw, .links, .dma, .lease, .freeze, .commands, .events, .store] q0 = true) :
    OnlyParts q0 z0 (State.commitTakes s bad) ↔ OnlyParts q0 z0 s := by
  refine OnlyParts.through (ps := [.time, .dev, .regs, .copies, .boot, .ofe, .psy, .dmd, .lbq, .sensors, .cal, .fdin, .outs, .mrg, .saf, .fds, .str, .acw, .frw, .links, .dma, .lease, .freeze, .commands, .events, .store]) ?_ h0
  simp only [State.commitTakes]
  (repeat' split) <;> simp +decide

@[simp] theorem commitEffect_parts {q0 : List Part} {z0 : State} (bad : List Nat) (s : State)
    (h0 : within [.time, .dev, .regs, .copies, .boot, .ofe, .psy, .dmd, .lbq, .sensors, .cal, .fdin, .outs, .mrg, .saf, .fds, .str, .acw, .frw, .links, .dma, .lease, .freeze, .commands, .events, .store] q0 = true) :
    OnlyParts q0 z0 (commitEffect bad s) ↔ OnlyParts q0 z0 s := by
  refine OnlyParts.through (ps := [.time, .dev, .regs, .copies, .boot, .ofe, .psy, .dmd, .lbq, .sensors, .cal, .fdin, .outs, .mrg, .saf, .fds, .str, .acw, .frw, .links, .dma, .lease, .freeze, .commands, .events, .store]) ?_ h0
  simp +decide [commitEffect]

end Sys2Proof.Machine
end

