-- ==== Sys2Proof/Laws/HostLinksParts.lean ====
section
/-!
SUPPORT. What the operations of Machine/HostLinks leave unchanged.
-/
namespace Sys2Proof.Machine

@[simp] theorem State.lnkEvt_parts {q0 : List Part} {z0 : State} (s : State) (d : Nat) (i : Nat) (h0 : within [.copies] q0 = true) :
    OnlyParts q0 z0 (State.lnkEvt s d i) ↔ OnlyParts q0 z0 s := by
  refine OnlyParts.through (ps := [.copies]) ?_ h0
  simp +decide [State.lnkEvt]

@[simp] theorem State.netEvt_parts {q0 : List Part} {z0 : State} (s : State) (i : Nat) (h0 : within [.regs, .copies, .events] q0 = true) :
    OnlyParts q0 z0 (State.netEvt s i) ↔ OnlyParts q0 z0 s := by
  refine OnlyParts.through (ps := [.regs, .copies, .events]) ?_ h0
  simp +decide [State.netEvt]

@[simp] theorem State.ringPut_parts {q0 : List Part} {z0 : State} (s : State) (d : Nat) (a : Nat) (l : List Byte)
    (h0 : within [.copies, .cvu, .mem] q0 = true) :
    OnlyParts q0 z0 (State.ringPut s d a l) ↔ OnlyParts q0 z0 s := by
  refine OnlyParts.through (ps := [.copies, .cvu, .mem]) ?_ h0
  simp +decide [State.ringPut]

@[simp] theorem State.setLinks_parts {q0 : List Part} {z0 : State} (s : State) (f : Links → Links) (h0 : within [.links] q0 = true) :
    OnlyParts q0 z0 (State.setLinks s f) ↔ OnlyParts q0 z0 s := by
  refine OnlyParts.through (ps := [.links]) ?_ h0
  exact ⟨fun p hp => by cases p <;> first | exact absurd (by decide) hp | simp [Part.same]⟩

@[simp] theorem State.setSession_parts {q0 : List Part} {z0 : State} (s : State) (d : Nat) (x : Session) (h0 : within [.links] q0 = true) :
    OnlyParts q0 z0 (State.setSession s d x) ↔ OnlyParts q0 z0 s := by
  refine OnlyParts.through (ps := [.links]) ?_ h0
  simp +decide [State.setSession]

@[simp] theorem State.setEthPort_parts {q0 : List Part} {z0 : State} (s : State) (p : Nat) (x : EthPort) (h0 : within [.links] q0 = true) :
    OnlyParts q0 z0 (State.setEthPort s p x) ↔ OnlyParts q0 z0 s := by
  refine OnlyParts.through (ps := [.links]) ?_ h0
  simp +decide [State.setEthPort]

@[simp] theorem State.sessionSend_parts {q0 : List Part} {z0 : State} (s : State) (d : Nat) (type : Nat) (flags : Nat) (body : List Byte)
    (h0 : within [.links, .sent] q0 = true) :
    OnlyParts q0 z0 (State.sessionSend s d type flags body) ↔ OnlyParts q0 z0 s := by
  refine OnlyParts.through (ps := [.links, .sent]) ?_ h0
  simp +decide [State.sessionSend]

@[simp] theorem State.linkLost_parts {q0 : List Part} {z0 : State} (s : State) (d : Nat)
    (h0 : within [.regs, .copies, .dma, .commands, .events] q0 = true) :
    OnlyParts q0 z0 (State.linkLost s d) ↔ OnlyParts q0 z0 s := by
  refine OnlyParts.through (ps := [.regs, .copies, .dma, .commands, .events]) ?_ h0
  simp only [State.linkLost]
  (repeat' split) <;> first | (simp +decide; done) | (simp +decide <;> exact ⟨fun p hp => by cases p <;> first | exact absurd (by decide) hp | simp [Part.same]⟩)

@[simp] theorem State.sessionEnd_parts {q0 : List Part} {z0 : State} (s : State) (d : Nat) (tell : Bool)
    (h0 : within [.regs, .copies, .links, .dma, .commands, .events, .sent] q0 = true) :
    OnlyParts q0 z0 (State.sessionEnd s d tell) ↔ OnlyParts q0 z0 s := by
  refine OnlyParts.through (ps := [.regs, .copies, .links, .dma, .commands, .events, .sent]) ?_ h0
  simp +decide [State.sessionEnd]

@[simp] theorem State.sessionStart_parts {q0 : List Part} {z0 : State} (s : State) (d : Nat) (nonce : Nat)
    (h0 : within [.regs, .copies, .links, .dma, .commands, .events, .sent] q0 = true) :
    OnlyParts q0 z0 (State.sessionStart s d nonce) ↔ OnlyParts q0 z0 s := by
  refine OnlyParts.through (ps := [.regs, .copies, .links, .dma, .commands, .events, .sent]) ?_ h0
  simp +decide [State.sessionStart]

@[simp] theorem State.netDrop_parts {q0 : List Part} {z0 : State} (s : State) (p : Nat) (h0 : within [.regs, .copies, .events] q0 = true) :
    OnlyParts q0 z0 (State.netDrop s p) ↔ OnlyParts q0 z0 s := by
  refine OnlyParts.through (ps := [.regs, .copies, .events]) ?_ h0
  simp +decide [State.netDrop]

@[simp] theorem ethReceive_parts {q0 : List Part} {z0 : State} (p : Nat) (src : Nat) (sport : Nat) (b : List Byte) (s : State)
    (h0 : within [.regs, .copies, .links, .events] q0 = true) :
    OnlyParts q0 z0 (ethReceive p src sport b s) ↔ OnlyParts q0 z0 s := by
  refine OnlyParts.through (ps := [.regs, .copies, .links, .events]) ?_ h0
  simp only [ethReceive]
  (repeat' split) <;> simp +decide

theorem State.inboxTake_parts {s u : State} {d type : Nat} {m : NetMsg} (h : s.inboxTake d type = some (m, u)) :
    OnlyParts [.links] s u := by
  simp only [State.inboxTake] at h
  (repeat' split at h) <;> simp at h
  obtain ⟨-, rfl⟩ := h
  simp +decide

@[simp] theorem sessionOpen_parts {q0 : List Part} {z0 : State} (d : Nat) (s : State)
    (h0 : within [.regs, .copies, .links, .dma, .commands, .events, .sent] q0 = true) :
    OnlyParts q0 z0 (sessionOpen d s) ↔ OnlyParts q0 z0 s := by
  refine OnlyParts.through (ps := [.regs, .copies, .links, .dma, .commands, .events, .sent]) ?_ h0
  simp only [sessionOpen]
  split
  · rename_i h
    refine OnlyParts.trans ((State.inboxTake_parts h).mono (by decide)) ?_
    (repeat' split) <;> simp +decide
  · simp

@[simp] theorem sessionClose_parts {q0 : List Part} {z0 : State} (d : Nat) (s : State)
    (h0 : within [.regs, .copies, .links, .dma, .commands, .events, .sent] q0 = true) :
    OnlyParts q0 z0 (sessionClose d s) ↔ OnlyParts q0 z0 s := by
  refine OnlyParts.through (ps := [.regs, .copies, .links, .dma, .commands, .events, .sent]) ?_ h0
  simp only [sessionClose]
  split
  · rename_i h
    refine OnlyParts.trans ((State.inboxTake_parts h).mono (by decide)) ?_
    (repeat' split) <;> simp +decide
  · simp

@[simp] theorem sessionTimeout_parts {q0 : List Part} {z0 : State} (d : Nat) (s : State)
    (h0 : within [.regs, .copies, .links, .dma, .commands, .events, .sent] q0 = true) :
    OnlyParts q0 z0 (sessionTimeout d s) ↔ OnlyParts q0 z0 s := by
  refine OnlyParts.through (ps := [.regs, .copies, .links, .dma, .commands, .events, .sent]) ?_ h0
  simp +decide [sessionTimeout]

@[simp] theorem keepaliveSend_parts {q0 : List Part} {z0 : State} (d : Nat) (s : State) (h0 : within [.links, .sent] q0 = true) :
    OnlyParts q0 z0 (keepaliveSend d s) ↔ OnlyParts q0 z0 s := by
  refine OnlyParts.through (ps := [.links, .sent]) ?_ h0
  simp +decide [keepaliveSend]

@[simp] theorem State.sessionAnswer_parts {q0 : List Part} {z0 : State} (s : State) (d : Nat) (mseq : Nat) (type : Nat) (body : List Byte)
    (h0 : within [.links, .sent] q0 = true) :
    OnlyParts q0 z0 (State.sessionAnswer s d mseq type body) ↔ OnlyParts q0 z0 s := by
  refine OnlyParts.through (ps := [.links, .sent]) ?_ h0
  simp +decide [State.sessionAnswer]

@[simp] theorem State.setMsix_parts {q0 : List Part} {z0 : State} (s : State) (p : Nat) (x : Msix) (h0 : within [.links] q0 = true) :
    OnlyParts q0 z0 (State.setMsix s p x) ↔ OnlyParts q0 z0 s := by
  refine OnlyParts.through (ps := [.links]) ?_ h0
  simp +decide [State.setMsix]

@[simp] theorem State.msixSignal_parts {q0 : List Part} {z0 : State} (s : State) (p : Nat) (v : Nat)
    (h0 : within [.links, .sent] q0 = true) :
    OnlyParts q0 z0 (State.msixSignal s p v) ↔ OnlyParts q0 z0 s := by
  refine OnlyParts.through (ps := [.links, .sent]) ?_ h0
  simp +decide [State.msixSignal]

@[simp] theorem State.bar2Store_parts {q0 : List Part} {z0 : State} (s : State) (p : Nat) (o : Nat) (v : Word)
    (h0 : within [.links, .sent] q0 = true) :
    OnlyParts q0 z0 (State.bar2Store s p o v) ↔ OnlyParts q0 z0 s := by
  refine OnlyParts.through (ps := [.links, .sent]) ?_ h0
  simp +decide [State.bar2Store]

@[simp] theorem State.bar2Read_parts {q0 : List Part} {z0 : State} (s : State) (m : Master) (p : Nat) (o : Nat)
    (h0 : within [.sent] q0 = true) :
    OnlyParts q0 z0 (State.bar2Read s m p o) ↔ OnlyParts q0 z0 s := by
  refine OnlyParts.through (ps := [.sent]) ?_ h0
  simp +decide [State.bar2Read]

@[simp] theorem State.bar2Write_parts {q0 : List Part} {z0 : State} (s : State) (m : Master) (p : Nat) (o : Nat) (v : Word)
    (h0 : within [.links, .sent] q0 = true) :
    OnlyParts q0 z0 (State.bar2Write s m p o v) ↔ OnlyParts q0 z0 s := by
  refine OnlyParts.through (ps := [.links, .sent]) ?_ h0
  simp +decide [State.bar2Write]

@[simp] theorem State.ringEvent_parts {q0 : List Part} {z0 : State} (s : State) (e : DueEntry)
    (h0 : within [.copies, .links, .cvu, .mem, .events, .sent] q0 = true) :
    OnlyParts q0 z0 (State.ringEvent s e) ↔ OnlyParts q0 z0 s := by
  refine OnlyParts.through (ps := [.copies, .links, .cvu, .mem, .events, .sent]) ?_ h0
  simp only [State.ringEvent]
  (repeat' split) <;> first | (simp +decide; done) | exact ⟨fun p hp => by cases p <;> first | exact absurd (by decide) hp | simp [Part.same]⟩

@[simp] theorem eventTelegram_parts {q0 : List Part} {z0 : State} (d : Nat) (s : State) (h0 : within [.links, .events, .sent] q0 = true) :
    OnlyParts q0 z0 (eventTelegram d s) ↔ OnlyParts q0 z0 s := by
  refine OnlyParts.through (ps := [.links, .events, .sent]) ?_ h0
  simp +decide [eventTelegram]

@[simp] theorem eventEntryDeliver_parts {q0 : List Part} {z0 : State} (d : Nat) (s : State)
    (h0 : within [.copies, .links, .cvu, .mem, .events, .sent] q0 = true) :
    OnlyParts q0 z0 (eventEntryDeliver d s) ↔ OnlyParts q0 z0 s := by
  refine OnlyParts.through (ps := [.copies, .links, .cvu, .mem, .events, .sent]) ?_ h0
  simp only [eventEntryDeliver]
  (repeat' split) <;> simp +decide

@[simp] theorem State.telegramSend_parts {q0 : List Part} {z0 : State} (s : State) (d : Nat) (codeH : Option Nat)
    (h0 : within [.copies, .links, .cvu, .mem, .sent] q0 = true) :
    OnlyParts q0 z0 (State.telegramSend s d codeH) ↔ OnlyParts q0 z0 s := by
  refine OnlyParts.through (ps := [.copies, .links, .cvu, .mem, .sent]) ?_ h0
  simp only [State.telegramSend]
  (repeat' split) <;> simp +decide

@[simp] theorem telegramForm_parts {q0 : List Part} {z0 : State} (d : Nat) (s : State)
    (h0 : within [.copies, .links, .cvu, .mem, .sent] q0 = true) :
    OnlyParts q0 z0 (telegramForm d s) ↔ OnlyParts q0 z0 s := by
  refine OnlyParts.through (ps := [.copies, .links, .cvu, .mem, .sent]) ?_ h0
  simp +decide [telegramForm]

@[simp] theorem headerReceived_parts {q0 : List Part} {z0 : State} (s : State)
    (h0 : within [.regs, .copies, .outs, .mrg, .fds, .links, .events] q0 = true) :
    OnlyParts q0 z0 (headerReceived s) ↔ OnlyParts q0 z0 s := by
  refine OnlyParts.through (ps := [.regs, .copies, .outs, .mrg, .fds, .links, .events]) ?_ h0
  simp only [headerReceived]
  (repeat' split) <;> simp +decide

@[simp] theorem codeHReceived_parts {q0 : List Part} {z0 : State} (d : Nat) (s : State)
    (h0 : within [.regs, .copies, .outs, .mrg, .fds, .links, .cvu, .mem, .events, .sent] q0 = true) :
    OnlyParts q0 z0 (codeHReceived d s) ↔ OnlyParts q0 z0 s := by
  refine OnlyParts.through (ps := [.regs, .copies, .outs, .mrg, .fds, .links, .cvu, .mem, .events, .sent]) ?_ h0
  simp only [codeHReceived]
  (repeat' split) <;> simp +decide

@[simp] theorem telegramDeadline_parts {q0 : List Part} {z0 : State} (d : Nat) (s : State)
    (h0 : within [.copies, .links, .cvu, .mem, .sent] q0 = true) :
    OnlyParts q0 z0 (telegramDeadline d s) ↔ OnlyParts q0 z0 s := by
  refine OnlyParts.through (ps := [.copies, .links, .cvu, .mem, .sent]) ?_ h0
  simp only [telegramDeadline]
  (repeat' split) <;> simp +decide

@[simp] theorem responseDeliver_parts {q0 : List Part} {z0 : State} (d : Nat) (s : State)
    (h0 : within [.copies, .links, .cvu, .mem, .commands, .events, .sent] q0 = true) :
    OnlyParts q0 z0 (responseDeliver d s) ↔ OnlyParts q0 z0 s := by
  refine OnlyParts.through (ps := [.copies, .links, .cvu, .mem, .commands, .events, .sent]) ?_ h0
  simp only [responseDeliver]
  (repeat' split) <;> simp +decide

@[simp] theorem pcieReset_parts {q0 : List Part} {z0 : State} (p : Nat) (s : State)
    (h0 : within [.regs, .copies, .links, .dma, .commands, .events] q0 = true) :
    OnlyParts q0 z0 (pcieReset p s) ↔ OnlyParts q0 z0 s := by
  refine OnlyParts.through (ps := [.regs, .copies, .links, .dma, .commands, .events]) ?_ h0
  simp +decide [pcieReset]

@[simp] theorem pcieUp_parts {q0 : List Part} {z0 : State} (p : Nat) (speed : Nat) (width : Nat) (s : State)
    (h0 : within [.regs, .copies, .acw, .links, .cvu, .mem] q0 = true) :
    OnlyParts q0 z0 (pcieUp p speed width s) ↔ OnlyParts q0 z0 s := by
  refine OnlyParts.through (ps := [.regs, .copies, .acw, .links, .cvu, .mem]) ?_ h0
  simp +decide [pcieUp]

@[simp] theorem ethLink_parts {q0 : List Part} {z0 : State} (p : Nat) (link : Nat) (s : State)
    (h0 : within [.regs, .copies, .links, .events] q0 = true) :
    OnlyParts q0 z0 (ethLink p link s) ↔ OnlyParts q0 z0 s := by
  refine OnlyParts.through (ps := [.regs, .copies, .links, .events]) ?_ h0
  simp +decide [ethLink]

@[simp] theorem icmpEcho_parts {q0 : List Part} {z0 : State} (p : Nat) (b : List Byte) (s : State) (h0 : within [.links, .sent] q0 = true) :
    OnlyParts q0 z0 (icmpEcho p b s) ↔ OnlyParts q0 z0 s := by
  refine OnlyParts.through (ps := [.links, .sent]) ?_ h0
  simp +decide [icmpEcho]

@[simp] theorem neighbourRequest_parts {q0 : List Part} {z0 : State} (p : Nat) (addr : Nat) (s : State) (h0 : within [.sent] q0 = true) :
    OnlyParts q0 z0 (neighbourRequest p addr s) ↔ OnlyParts q0 z0 s := by
  refine OnlyParts.through (ps := [.sent]) ?_ h0
  simp +decide [neighbourRequest]

@[simp] theorem State.zeroMregs_parts {q0 : List Part} {z0 : State} (s : State) (m : Master) (l : List Nat)
    (h0 : within [.copies] q0 = true) :
    OnlyParts q0 z0 (State.zeroMregs s m l) ↔ OnlyParts q0 z0 s := by
  refine OnlyParts.through (ps := [.copies]) ?_ h0
  simp +decide [State.zeroMregs]

@[simp] theorem State.ringConfig_parts {q0 : List Part} {z0 : State} (s : State) (m : Master) (a : Nat) (v : Word) (resets : List Nat)
    (h0 : within [.copies] q0 = true) :
    OnlyParts q0 z0 (State.ringConfig s m a v resets) ↔ OnlyParts q0 z0 s := by
  refine OnlyParts.through (ps := [.copies]) ?_ h0
  simp +decide [State.ringConfig]

@[simp] theorem lnkWrite_parts {q0 : List Part} {z0 : State} (s : State) (m : Master) (o : Nat) (v : Word)
    (h0 : within [.copies] q0 = true) :
    OnlyParts q0 z0 (lnkWrite s m o v) ↔ OnlyParts q0 z0 s := by
  refine OnlyParts.through (ps := [.copies]) ?_ h0
  simp only [lnkWrite]
  (repeat' split) <;> simp +decide

@[simp] theorem evrWrite_parts {q0 : List Part} {z0 : State} (s : State) (m : Master) (o : Nat) (v : Word)
    (h0 : within [.regs, .copies] q0 = true) :
    OnlyParts q0 z0 (evrWrite s m o v) ↔ OnlyParts q0 z0 s := by
  refine OnlyParts.through (ps := [.regs, .copies]) ?_ h0
  simp only [evrWrite]
  (repeat' split) <;> simp +decide

end Sys2Proof.Machine
end

