-- ==== Sys2Proof/Laws/CvuParts.lean ====
section
/-!
SUPPORT. What the operations of Machine/Cvu leave unchanged.
-/
namespace Sys2Proof.Machine

@[simp] theorem State.setCvUnit_parts {q0 : List Part} {z0 : State} (s : State) (u : Nat) (c : Cvu) (h0 : within [.cvu] q0 = true) :
    OnlyParts q0 z0 (State.setCvUnit s u c) ↔ OnlyParts q0 z0 s := by
  refine OnlyParts.through (ps := [.cvu]) ?_ h0
  exact ⟨fun p hp => by cases p <;> first | exact absurd (by decide) hp | simp [Part.same]⟩

@[simp] theorem State.cvLoad_parts {q0 : List Part} {z0 : State} (s : State) (u : Nat) (p : CrcParams) (h0 : within [.regs] q0 = true) :
    OnlyParts q0 z0 (State.cvLoad s u p) ↔ OnlyParts q0 z0 s := by
  refine OnlyParts.through (ps := [.regs]) ?_ h0
  simp +decide [State.cvLoad]

@[simp] theorem State.cvStart_parts {q0 : List Part} {z0 : State} (s : State) (u : Nat) (h0 : within [.cvu] q0 = true) :
    OnlyParts q0 z0 (State.cvStart s u) ↔ OnlyParts q0 z0 s := by
  refine OnlyParts.through (ps := [.cvu]) ?_ h0
  simp +decide [State.cvStart]

@[simp] theorem State.cvGo_parts {q0 : List Part} {z0 : State} (s : State) (u : Nat)
    (h0 : within [.regs, .copies, .cvu, .events] q0 = true) :
    OnlyParts q0 z0 (State.cvGo s u) ↔ OnlyParts q0 z0 s := by
  refine OnlyParts.through (ps := [.regs, .copies, .cvu, .events]) ?_ h0
  simp +decide [State.cvGo]

@[simp] theorem State.cvCtlWrite_parts {q0 : List Part} {z0 : State} (s : State) (u : Nat) (v : Word)
    (h0 : within [.regs, .copies, .cvu, .events] q0 = true) :
    OnlyParts q0 z0 (State.cvCtlWrite s u v) ↔ OnlyParts q0 z0 s := by
  refine OnlyParts.through (ps := [.regs, .copies, .cvu, .events]) ?_ h0
  simp only [State.cvCtlWrite]
  (repeat' split) <;> simp +decide

@[simp] theorem cvuWrite_parts {q0 : List Part} {z0 : State} (s : State) (o : Nat) (v : Word)
    (h0 : within [.regs, .copies, .cvu, .events] q0 = true) :
    OnlyParts q0 z0 (cvuWrite s o v) ↔ OnlyParts q0 z0 s := by
  refine OnlyParts.through (ps := [.regs, .copies, .cvu, .events]) ?_ h0
  simp only [cvuWrite]
  (repeat' split) <;> simp +decide

@[simp] theorem cvuPeriodicStart_parts {q0 : List Part} {z0 : State} (u : Nat) (s : State) (h0 : within [.cvu] q0 = true) :
    OnlyParts q0 z0 (cvuPeriodicStart u s) ↔ OnlyParts q0 z0 s := by
  refine OnlyParts.through (ps := [.cvu]) ?_ h0
  simp +decide [cvuPeriodicStart]

@[simp] theorem State.cvPlaza_parts {q0 : List Part} {z0 : State} (s : State) (h0 : within [.regs] q0 = true) :
    OnlyParts q0 z0 (State.cvPlaza s) ↔ OnlyParts q0 z0 s := by
  refine OnlyParts.through (ps := [.regs]) ?_ h0
  simp +decide [State.cvPlaza]

@[simp] theorem State.cvFirmware_parts {q0 : List Part} {z0 : State} (s : State) (gen : Nat) (h0 : within [.regs, .cvu] q0 = true) :
    OnlyParts q0 z0 (State.cvFirmware s gen) ↔ OnlyParts q0 z0 s := by
  refine OnlyParts.through (ps := [.regs, .cvu]) ?_ h0
  simp only [State.cvFirmware]
  refine (foldl_parts fun x u => ?_).2 ((foldl_parts fun x u => ?_).2 ?_) <;> simp +decide

@[simp] theorem State.setBank_parts {q0 : List Part} {z0 : State} (s : State) (b : Bool) (x : CalBank) (h0 : within [.store] q0 = true) :
    OnlyParts q0 z0 (State.setBank s b x) ↔ OnlyParts q0 z0 s := by
  refine OnlyParts.through (ps := [.store]) ?_ h0
  simp +decide [State.setBank]

@[simp] theorem State.nvDamage_parts {q0 : List Part} {z0 : State} (s : State) (f : NvFault) (h0 : within [.boot, .str, .store] q0 = true) :
    OnlyParts q0 z0 (State.nvDamage s f) ↔ OnlyParts q0 z0 s := by
  refine OnlyParts.through (ps := [.boot, .str, .store]) ?_ h0
  simp only [State.nvDamage]
  (repeat' split) <;> simp +decide

@[simp] theorem State.wpRepair_parts {q0 : List Part} {z0 : State} (s : State) (k : Nat) (b : Bool) (data : Bool)
    (h0 : within [.regs, .copies, .events, .store] q0 = true) :
    OnlyParts q0 z0 (State.wpRepair s k b data) ↔ OnlyParts q0 z0 s := by
  refine OnlyParts.through (ps := [.regs, .copies, .events, .store]) ?_ h0
  simp +decide [State.wpRepair]

@[simp] theorem State.scrubFault_parts {q0 : List Part} {z0 : State} (s : State) (f : NvFault)
    (h0 : within [.regs, .copies, .boot, .str, .events, .store] q0 = true) :
    OnlyParts q0 z0 (State.scrubFault s f) ↔ OnlyParts q0 z0 s := by
  refine OnlyParts.through (ps := [.regs, .copies, .boot, .str, .events, .store]) ?_ h0
  simp only [State.scrubFault]
  (repeat' split) <;> simp +decide

@[simp] theorem State.cvCount_parts {q0 : List Part} {z0 : State} (s : State) (u : Nat) (bad : Nat) (fixed : Nat)
    (h0 : within [.regs] q0 = true) :
    OnlyParts q0 z0 (State.cvCount s u bad fixed) ↔ OnlyParts q0 z0 s := by
  refine OnlyParts.through (ps := [.regs]) ?_ h0
  simp +decide [State.cvCount]

@[simp] theorem State.cvMismatch_parts {q0 : List Part} {z0 : State} (s : State) (u : Nat)
    (h0 : within [.regs, .copies, .events] q0 = true) :
    OnlyParts q0 z0 (State.cvMismatch s u) ↔ OnlyParts q0 z0 s := by
  refine OnlyParts.through (ps := [.regs, .copies, .events]) ?_ h0
  simp +decide [State.cvMismatch]

@[simp] theorem State.cvRepaired_parts {q0 : List Part} {z0 : State} (s : State) (h0 : within [.regs, .copies, .events] q0 = true) :
    OnlyParts q0 z0 (State.cvRepaired s) ↔ OnlyParts q0 z0 s := by
  refine OnlyParts.through (ps := [.regs, .copies, .events]) ?_ h0
  simp +decide [State.cvRepaired]

@[simp] theorem State.passReport_parts {q0 : List Part} {z0 : State} (s : State) (u : Nat) (e : PassEnd)
    (h0 : within [.regs, .copies, .cvu, .events] q0 = true) :
    OnlyParts q0 z0 (State.passReport s u e) ↔ OnlyParts q0 z0 s := by
  refine OnlyParts.through (ps := [.regs, .copies, .cvu, .events]) ?_ h0
  simp +decide [State.passReport]

@[simp] theorem State.memoryPass_parts {q0 : List Part} {z0 : State} (s : State) (u : Nat) (e : PassEnd)
    (h0 : within [.dev, .regs, .copies, .boot, .ofe, .lbq, .outs, .mrg, .saf, .fds, .str, .frw, .links, .cvu, .events, .store] q0 = true) :
    OnlyParts q0 z0 (State.memoryPass s u e) ↔ OnlyParts q0 z0 s := by
  refine OnlyParts.through (ps := [.dev, .regs, .copies, .boot, .ofe, .lbq, .outs, .mrg, .saf, .fds, .str, .frw, .links, .cvu, .events, .store]) ?_ h0
  simp +decide [State.memoryPass]

@[simp] theorem State.copiesMend_parts {q0 : List Part} {z0 : State} (s : State) (u : Nat) (h0 : within [.store] q0 = true) :
    OnlyParts q0 z0 (State.copiesMend s u) ↔ OnlyParts q0 z0 s := by
  refine OnlyParts.through (ps := [.store]) ?_ h0
  simp only [State.copiesMend]
  split <;> simp +decide

@[simp] theorem cvuPassEnd_parts {q0 : List Part} {z0 : State} (u : Nat) (faults : List NvFault) (s : State)
    (h0 : within [.dev, .regs, .copies, .boot, .ofe, .lbq, .outs, .mrg, .saf, .fds, .str, .frw, .links, .cvu, .events, .store] q0 = true) :
    OnlyParts q0 z0 (cvuPassEnd u faults s) ↔ OnlyParts q0 z0 s := by
  refine OnlyParts.through (ps := [.dev, .regs, .copies, .boot, .ofe, .lbq, .outs, .mrg, .saf, .fds, .str, .frw, .links, .cvu, .events, .store]) ?_ h0
  simp only [cvuPassEnd]
  (repeat' split) <;> simp +decide

@[simp] theorem snoopRecord_parts {q0 : List Part} {z0 : State} (u : Nat) (record : List Byte) (check : DWord) (recvOk : Bool) (s : State)
    (h0 : within [.regs, .copies, .cvu, .events] q0 = true) :
    OnlyParts q0 z0 (snoopRecord u record check recvOk s) ↔ OnlyParts q0 z0 s := by
  refine OnlyParts.through (ps := [.regs, .copies, .cvu, .events]) ?_ h0
  simp +decide [snoopRecord]

@[simp] theorem State.cvCountRead_parts {q0 : List Part} {z0 : State} (s : State) (u : Nat) (h0 : within [.cvu] q0 = true) :
    OnlyParts q0 z0 (State.cvCountRead s u) ↔ OnlyParts q0 z0 s := by
  refine OnlyParts.through (ps := [.cvu]) ?_ h0
  simp +decide [State.cvCountRead]

@[simp] theorem pairUncorrectable_parts {q0 : List Part} {z0 : State} (b : Bool) (line : Option (Nat × Nat)) (s : State)
    (h0 : within [.dev, .regs, .copies, .boot, .ofe, .lbq, .outs, .mrg, .saf, .fds, .str, .frw, .links, .cvu, .mem, .events, .store] q0 = true) :
    OnlyParts q0 z0 (pairUncorrectable b line s) ↔ OnlyParts q0 z0 s := by
  refine OnlyParts.through (ps := [.dev, .regs, .copies, .boot, .ofe, .lbq, .outs, .mrg, .saf, .fds, .str, .frw, .links, .cvu, .mem, .events, .store]) ?_ h0
  simp only [pairUncorrectable]
  (repeat' split) <;> simp +decide

end Sys2Proof.Machine
end

