-- ==== Sys2Proof/Laws/OutputsParts.lean ====
section
/-!
SUPPORT. What the operations of Machine/Outputs leave unchanged.
-/
namespace Sys2Proof.Machine

@[simp] theorem State.voFault_parts {q0 : List Part} {z0 : State} (s : State) (i : Nat) (code : Nat)
    (h0 : within [.dev, .regs, .copies, .boot, .ofe, .lbq, .outs, .mrg, .saf, .fds, .str, .frw, .links, .events, .store] q0 = true) :
    OnlyParts q0 z0 (State.voFault s i code) ↔ OnlyParts q0 z0 s := by
  refine OnlyParts.through (ps := [.dev, .regs, .copies, .boot, .ofe, .lbq, .outs, .mrg, .saf, .fds, .str, .frw, .links, .events, .store]) ?_ h0
  simp +decide [State.voFault]

@[simp] theorem State.testEnd_parts {q0 : List Part} {z0 : State} (s : State) (i : Nat)
    (h0 : within [.dev, .regs, .copies, .boot, .ofe, .lbq, .outs, .mrg, .saf, .fds, .str, .frw, .links, .events, .store] q0 = true) :
    OnlyParts q0 z0 (State.testEnd s i) ↔ OnlyParts q0 z0 s := by
  refine OnlyParts.through (ps := [.dev, .regs, .copies, .boot, .ofe, .lbq, .outs, .mrg, .saf, .fds, .str, .frw, .links, .events, .store]) ?_ h0
  simp only [State.testEnd]
  (repeat' split) <;> simp +decide

@[simp] theorem State.testReading_parts {q0 : List Part} {z0 : State} (s : State) (i : Nat) (volts : Nat) (t : VoTest)
    (h0 : within [.dev, .regs, .copies, .boot, .ofe, .lbq, .outs, .mrg, .saf, .fds, .str, .frw, .links, .events, .store] q0 = true) :
    OnlyParts q0 z0 (State.testReading s i volts t) ↔ OnlyParts q0 z0 s := by
  refine OnlyParts.through (ps := [.dev, .regs, .copies, .boot, .ofe, .lbq, .outs, .mrg, .saf, .fds, .str, .frw, .links, .events, .store]) ?_ h0
  simp only [State.testReading]
  (repeat' split) <;> simp +decide

@[simp] theorem offPulseSlotStart_parts {q0 : List Part} {z0 : State} (i : Nat) (s : State) (h0 : within [.outs] q0 = true) :
    OnlyParts q0 z0 (offPulseSlotStart i s) ↔ OnlyParts q0 z0 s := by
  refine OnlyParts.through (ps := [.outs]) ?_ h0
  simp +decide [offPulseSlotStart]

@[simp] theorem offPulseRaise_parts {q0 : List Part} {z0 : State} (i : Nat) (s : State) (h0 : within [.outs] q0 = true) :
    OnlyParts q0 z0 (offPulseRaise i s) ↔ OnlyParts q0 z0 s := by
  refine OnlyParts.through (ps := [.outs]) ?_ h0
  simp only [offPulseRaise]
  (repeat' split) <;> simp +decide

@[simp] theorem offPulseEnd_parts {q0 : List Part} {z0 : State} (i : Nat) (s : State)
    (h0 : within [.dev, .regs, .copies, .boot, .ofe, .lbq, .outs, .mrg, .saf, .fds, .str, .frw, .links, .events, .store] q0 = true) :
    OnlyParts q0 z0 (offPulseEnd i s) ↔ OnlyParts q0 z0 s := by
  refine OnlyParts.through (ps := [.dev, .regs, .copies, .boot, .ofe, .lbq, .outs, .mrg, .saf, .fds, .str, .frw, .links, .events, .store]) ?_ h0
  simp only [offPulseEnd]
  (repeat' split) <;> simp +decide

@[simp] theorem State.voMilli_parts {q0 : List Part} {z0 : State} (s : State) (i : Nat) (volts : Nat) (ma : Nat) (settled : Bool)
    (h0 : within [.dev, .regs, .copies, .boot, .ofe, .lbq, .outs, .mrg, .saf, .fds, .str, .frw, .links, .events, .store] q0 = true) :
    OnlyParts q0 z0 (State.voMilli s i volts ma settled) ↔ OnlyParts q0 z0 s := by
  refine OnlyParts.through (ps := [.dev, .regs, .copies, .boot, .ofe, .lbq, .outs, .mrg, .saf, .fds, .str, .frw, .links, .events, .store]) ?_ h0
  simp +decide [State.voMilli]

@[simp] theorem State.readsTaken_parts {q0 : List Part} {z0 : State} (s : State) (n : Nat) (h0 : within [.outs] q0 = true) :
    OnlyParts q0 z0 (State.readsTaken s n) ↔ OnlyParts q0 z0 s := by
  refine OnlyParts.through (ps := [.outs]) ?_ h0
  simp +decide [State.readsTaken]

@[simp] theorem outputReadback_parts {q0 : List Part} {z0 : State} (i : Nat) (volts : Nat) (current : Option Nat) (s : State)
    (h0 : within [.dev, .regs, .copies, .boot, .ofe, .lbq, .outs, .mrg, .saf, .fds, .str, .frw, .links, .events, .store] q0 = true) :
    OnlyParts q0 z0 (outputReadback i volts current s) ↔ OnlyParts q0 z0 s := by
  refine OnlyParts.through (ps := [.dev, .regs, .copies, .boot, .ofe, .lbq, .outs, .mrg, .saf, .fds, .str, .frw, .links, .events, .store]) ?_ h0
  simp only [outputReadback]
  (repeat' split) <;> simp +decide

@[simp] theorem outputSwitchTimeout_parts {q0 : List Part} {z0 : State} (i : Nat) (s : State)
    (h0 : within [.dev, .regs, .copies, .boot, .ofe, .lbq, .outs, .mrg, .saf, .fds, .str, .frw, .links, .events, .store] q0 = true) :
    OnlyParts q0 z0 (outputSwitchTimeout i s) ↔ OnlyParts q0 z0 s := by
  refine OnlyParts.through (ps := [.dev, .regs, .copies, .boot, .ofe, .lbq, .outs, .mrg, .saf, .fds, .str, .frw, .links, .events, .store]) ?_ h0
  simp +decide [outputSwitchTimeout]

@[simp] theorem openLoadTimeout_parts {q0 : List Part} {z0 : State} (i : Nat) (s : State)
    (h0 : within [.dev, .regs, .copies, .boot, .ofe, .lbq, .outs, .mrg, .saf, .fds, .str, .frw, .links, .events, .store] q0 = true) :
    OnlyParts q0 z0 (openLoadTimeout i s) ↔ OnlyParts q0 z0 s := by
  refine OnlyParts.through (ps := [.dev, .regs, .copies, .boot, .ofe, .lbq, .outs, .mrg, .saf, .fds, .str, .frw, .links, .events, .store]) ?_ h0
  simp +decide [openLoadTimeout]

@[simp] theorem groupCheckStart_parts {q0 : List Part} {z0 : State} (s : State) (h0 : within [.outs] q0 = true) :
    OnlyParts q0 z0 (groupCheckStart s) ↔ OnlyParts q0 z0 s := by
  refine OnlyParts.through (ps := [.outs]) ?_ h0
  simp only [groupCheckStart]
  (repeat' split) <;> simp (maxDischargeDepth := 7) +decide

@[simp] theorem groupCheckDone_parts {q0 : List Part} {z0 : State} (g : Nat) (volts : List Nat) (s : State)
    (h0 : within [.regs, .copies, .outs, .events] q0 = true) :
    OnlyParts q0 z0 (groupCheckDone g volts s) ↔ OnlyParts q0 z0 s := by
  refine OnlyParts.through (ps := [.regs, .copies, .outs, .events]) ?_ h0
  simp only [groupCheckDone]
  (repeat' split) <;> simp (maxDischargeDepth := 7) +decide

@[simp] theorem State.voResult_parts {q0 : List Part} {z0 : State} (s : State) (res : Nat)
    (h0 : within [.regs, .copies, .outs, .events] q0 = true) :
    OnlyParts q0 z0 (State.voResult s res) ↔ OnlyParts q0 z0 s := by
  refine OnlyParts.through (ps := [.regs, .copies, .outs, .events]) ?_ h0
  simp +decide [State.voResult]

@[simp] theorem voGroupRetest_parts {q0 : List Part} {z0 : State} (g : Nat) (s : State)
    (h0 : within [.regs, .copies, .outs, .events] q0 = true) :
    OnlyParts q0 z0 (voGroupRetest g s) ↔ OnlyParts q0 z0 s := by
  refine OnlyParts.through (ps := [.regs, .copies, .outs, .events]) ?_ h0
  simp +decide [voGroupRetest]

@[simp] theorem groupRetestDone_parts {q0 : List Part} {z0 : State} (g : Nat) (volts : List Nat) (s : State)
    (h0 : within [.regs, .copies, .outs, .fds, .events] q0 = true) :
    OnlyParts q0 z0 (groupRetestDone g volts s) ↔ OnlyParts q0 z0 s := by
  refine OnlyParts.through (ps := [.regs, .copies, .outs, .fds, .events]) ?_ h0
  simp only [groupRetestDone]
  (repeat' split) <;> simp (maxDischargeDepth := 7) +decide

@[simp] theorem voFaultClear_parts {q0 : List Part} {z0 : State} (i : Nat) (s : State)
    (h0 : within [.regs, .copies, .outs, .events] q0 = true) :
    OnlyParts q0 z0 (voFaultClear i s) ↔ OnlyParts q0 z0 s := by
  refine OnlyParts.through (ps := [.regs, .copies, .outs, .events]) ?_ h0
  simp +decide [voFaultClear]

@[simp] theorem voCommand_parts {q0 : List Part} {z0 : State} (v : Word) (s : State)
    (h0 : within [.regs, .copies, .outs, .events] q0 = true) :
    OnlyParts q0 z0 (voCommand v s) ↔ OnlyParts q0 z0 s := by
  refine OnlyParts.through (ps := [.regs, .copies, .outs, .events]) ?_ h0
  simp only [voCommand]
  (repeat' split) <;> simp +decide

@[simp] theorem State.brakeFail_parts {q0 : List Part} {z0 : State} (s : State) (c : Nat) (res : Nat)
    (h0 : within [.dev, .regs, .copies, .boot, .ofe, .lbq, .outs, .mrg, .saf, .fds, .str, .frw, .links, .events, .store] q0 = true) :
    OnlyParts q0 z0 (State.brakeFail s c res) ↔ OnlyParts q0 z0 s := by
  refine OnlyParts.through (ps := [.dev, .regs, .copies, .boot, .ofe, .lbq, .outs, .mrg, .saf, .fds, .str, .frw, .links, .events, .store]) ?_ h0
  simp +decide [State.brakeFail]

@[simp] theorem State.brakeHold_parts {q0 : List Part} {z0 : State} (s : State) (c : Nat) (h0 : within [.outs] q0 = true) :
    OnlyParts q0 z0 (State.brakeHold s c) ↔ OnlyParts q0 z0 s := by
  refine OnlyParts.through (ps := [.outs]) ?_ h0
  simp +decide [State.brakeHold]

@[simp] theorem State.brakeStart_parts {q0 : List Part} {z0 : State} (s : State) (c : Nat)
    (h0 : within [.regs, .copies, .outs, .events] q0 = true) :
    OnlyParts q0 z0 (State.brakeStart s c).1 ↔ OnlyParts q0 z0 s := by
  refine OnlyParts.through (ps := [.regs, .copies, .outs, .events]) ?_ h0
  simp only [State.brakeStart]
  (repeat' split) <;> simp +decide

@[simp] theorem brakeCommand_parts {q0 : List Part} {z0 : State} (c : Nat) (s : State)
    (h0 : within [.regs, .copies, .outs, .events] q0 = true) :
    OnlyParts q0 z0 (brakeCommand c s) ↔ OnlyParts q0 z0 s := by
  refine OnlyParts.through (ps := [.regs, .copies, .outs, .events]) ?_ h0
  simp +decide [brakeCommand]

@[simp] theorem brakeFeedback_parts {q0 : List Part} {z0 : State} (c : Nat) (runs : List LevelRun) (s : State)
    (h0 : within [.dev, .regs, .copies, .boot, .ofe, .lbq, .fdin, .outs, .mrg, .saf, .fds, .str, .frw, .links, .events, .store] q0 = true) :
    OnlyParts q0 z0 (brakeFeedback c runs s) ↔ OnlyParts q0 z0 s := by
  refine OnlyParts.through (ps := [.dev, .regs, .copies, .boot, .ofe, .lbq, .fdin, .outs, .mrg, .saf, .fds, .str, .frw, .links, .events, .store]) ?_ h0
  simp only [brakeFeedback]
  (repeat' split) <;> simp +decide

@[simp] theorem brakeFeedbackFault_parts {q0 : List Part} {z0 : State} (c : Nat) (runs : List LevelRun) (s : State)
    (h0 : within [.dev, .regs, .copies, .boot, .ofe, .lbq, .fdin, .outs, .mrg, .saf, .fds, .str, .frw, .links, .events, .store] q0 = true) :
    OnlyParts q0 z0 (brakeFeedbackFault c runs s) ↔ OnlyParts q0 z0 s := by
  refine OnlyParts.through (ps := [.dev, .regs, .copies, .boot, .ofe, .lbq, .fdin, .outs, .mrg, .saf, .fds, .str, .frw, .links, .events, .store]) ?_ h0
  simp +decide [brakeFeedbackFault]

@[simp] theorem brakeApplyTimeout_parts {q0 : List Part} {z0 : State} (c : Nat) (s : State)
    (h0 : within [.dev, .regs, .copies, .boot, .ofe, .lbq, .outs, .mrg, .saf, .fds, .str, .frw, .links, .events, .store] q0 = true) :
    OnlyParts q0 z0 (brakeApplyTimeout c s) ↔ OnlyParts q0 z0 s := by
  refine OnlyParts.through (ps := [.dev, .regs, .copies, .boot, .ofe, .lbq, .outs, .mrg, .saf, .fds, .str, .frw, .links, .events, .store]) ?_ h0
  simp +decide [brakeApplyTimeout]

@[simp] theorem brakeHoldEnd_parts {q0 : List Part} {z0 : State} (c : Nat) (s : State) (h0 : within [.outs] q0 = true) :
    OnlyParts q0 z0 (brakeHoldEnd c s) ↔ OnlyParts q0 z0 s := by
  refine OnlyParts.through (ps := [.outs]) ?_ h0
  simp +decide [brakeHoldEnd]

@[simp] theorem brakeReleaseTimeout_parts {q0 : List Part} {z0 : State} (c : Nat) (s : State)
    (h0 : within [.dev, .regs, .copies, .boot, .ofe, .lbq, .outs, .mrg, .saf, .fds, .str, .frw, .links, .events, .store] q0 = true) :
    OnlyParts q0 z0 (brakeReleaseTimeout c s) ↔ OnlyParts q0 z0 s := by
  refine OnlyParts.through (ps := [.dev, .regs, .copies, .boot, .ofe, .lbq, .outs, .mrg, .saf, .fds, .str, .frw, .links, .events, .store]) ?_ h0
  simp +decide [brakeReleaseTimeout]

@[simp] theorem brakeFeedbackTimeout_parts {q0 : List Part} {z0 : State} (c : Nat) (s : State)
    (h0 : within [.dev, .regs, .copies, .boot, .ofe, .lbq, .outs, .mrg, .saf, .fds, .str, .frw, .links, .events, .store] q0 = true) :
    OnlyParts q0 z0 (brakeFeedbackTimeout c s) ↔ OnlyParts q0 z0 s := by
  refine OnlyParts.through (ps := [.dev, .regs, .copies, .boot, .ofe, .lbq, .outs, .mrg, .saf, .fds, .str, .frw, .links, .events, .store]) ?_ h0
  simp +decide [brakeFeedbackTimeout]

@[simp] theorem State.setRstIn_parts {q0 : List Part} {z0 : State} (s : State) (n : Nat) (r : ResetIn) (h0 : within [.outs] q0 = true) :
    OnlyParts q0 z0 (State.setRstIn s n r) ↔ OnlyParts q0 z0 s := by
  refine OnlyParts.through (ps := [.outs]) ?_ h0
  simp +decide [State.setRstIn]

@[simp] theorem State.rstEdge_parts {q0 : List Part} {z0 : State} (s : State) (n : Nat)
    (h0 : within [.dev, .regs, .copies, .outs, .saf, .fds, .frw, .events, .store] q0 = true) :
    OnlyParts q0 z0 (State.rstEdge s n) ↔ OnlyParts q0 z0 s := by
  refine OnlyParts.through (ps := [.dev, .regs, .copies, .outs, .saf, .fds, .frw, .events, .store]) ?_ h0
  simp +decide [State.rstEdge]

@[simp] theorem resetInputPattern_parts {q0 : List Part} {z0 : State} (n : Nat) (samples : List (Nat × Nat)) (s : State)
    (h0 : within [.dev, .regs, .copies, .outs, .saf, .fds, .frw, .events, .store] q0 = true) :
    OnlyParts q0 z0 (resetInputPattern n samples s) ↔ OnlyParts q0 z0 s := by
  refine OnlyParts.through (ps := [.dev, .regs, .copies, .outs, .saf, .fds, .frw, .events, .store]) ?_ h0
  simp only [resetInputPattern]
  (repeat' split) <;> simp +decide

@[simp] theorem resetInputStuck_parts {q0 : List Part} {z0 : State} (n : Nat) (s : State)
    (h0 : within [.regs, .copies, .outs, .events] q0 = true) :
    OnlyParts q0 z0 (resetInputStuck n s) ↔ OnlyParts q0 z0 s := by
  refine OnlyParts.through (ps := [.regs, .copies, .outs, .events]) ?_ h0
  simp +decide [resetInputStuck]

@[simp] theorem resetInputFault_parts {q0 : List Part} {z0 : State} (n : Nat) (s : State)
    (h0 : within [.regs, .copies, .outs, .events] q0 = true) :
    OnlyParts q0 z0 (resetInputFault n s) ↔ OnlyParts q0 z0 s := by
  refine OnlyParts.through (ps := [.regs, .copies, .outs, .events]) ?_ h0
  simp +decide [resetInputFault]

@[simp] theorem resetInputFaultRelease_parts {q0 : List Part} {z0 : State} (n : Nat) (s : State) (h0 : within [.outs] q0 = true) :
    OnlyParts q0 z0 (resetInputFaultRelease n s) ↔ OnlyParts q0 z0 s := by
  refine OnlyParts.through (ps := [.outs]) ?_ h0
  simp +decide [resetInputFaultRelease]

@[simp] theorem fsiStateChange_parts {q0 : List Part} {z0 : State} (i : Nat) (runs : List LevelRun) (s : State)
    (h0 : within [.regs, .copies, .fdin, .outs, .events] q0 = true) :
    OnlyParts q0 z0 (fsiStateChange i runs s) ↔ OnlyParts q0 z0 s := by
  refine OnlyParts.through (ps := [.regs, .copies, .fdin, .outs, .events]) ?_ h0
  simp +decide [fsiStateChange]

@[simp] theorem fsiFault_parts {q0 : List Part} {z0 : State} (i : Nat) (runs : List LevelRun) (s : State)
    (h0 : within [.regs, .copies, .fdin, .outs, .events] q0 = true) :
    OnlyParts q0 z0 (fsiFault i runs s) ↔ OnlyParts q0 z0 s := by
  refine OnlyParts.through (ps := [.regs, .copies, .fdin, .outs, .events]) ?_ h0
  simp +decide [fsiFault]

@[simp] theorem State.rstStartLo_parts {q0 : List Part} {z0 : State} (s : State) (m : Master) (h0 : within [.copies] q0 = true) :
    OnlyParts q0 z0 (State.rstStartLo s m).1 ↔ OnlyParts q0 z0 s := by
  refine OnlyParts.through (ps := [.copies]) ?_ h0
  simp +decide [State.rstStartLo]

end Sys2Proof.Machine
end

