-- ==== Sys2Proof/Laws/BootParts.lean ====
section
/-!
SUPPORT. What the operations of Machine/Boot leave unchanged.
-/
namespace Sys2Proof.Machine

@[simp] theorem State.setBoot_parts {q0 : List Part} {z0 : State} (s : State) (f : Boot → Boot) (h0 : within [.boot] q0 = true) :
    OnlyParts q0 z0 (State.setBoot s f) ↔ OnlyParts q0 z0 s := by
  refine OnlyParts.through (ps := [.boot]) ?_ h0
  exact ⟨fun p hp => by cases p <;> first | exact absurd (by decide) hp | simp [Part.same]⟩

@[simp] theorem State.logicReset_parts {q0 : List Part} {z0 : State} (s : State) (cause : Nat)
    (h0 : within [.time, .dev, .regs, .copies, .boot, .ofe, .psy, .dmd, .lbq, .sensors, .cal, .trims, .outs, .mrg, .saf, .str, .tpr, .acw, .frw, .links, .dma, .cvu, .panel, .mem, .lease, .freeze, .commands, .events, .snaps, .store] q0 = true) :
    OnlyParts q0 z0 (State.logicReset s cause) ↔ OnlyParts q0 z0 s := by
  refine OnlyParts.through (ps := [.time, .dev, .regs, .copies, .boot, .ofe, .psy, .dmd, .lbq, .sensors, .cal, .trims, .outs, .mrg, .saf, .str, .tpr, .acw, .frw, .links, .dma, .cvu, .panel, .mem, .lease, .freeze, .commands, .events, .snaps, .store]) ?_ h0
  simp only [State.logicReset]
  (repeat' split) <;> first | (simp +decide; done) | (simp +decide <;> exact ⟨fun p hp => by cases p <;> first | exact absurd (by decide) hp | simp [Part.same]⟩)

@[simp] theorem porstAsserted_parts {q0 : List Part} {z0 : State} (low : Nat) (s : State)
    (h0 : within [.time, .dev, .regs, .copies, .boot, .ofe, .psy, .dmd, .lbq, .sensors, .cal, .trims, .outs, .mrg, .saf, .str, .tpr, .acw, .frw, .links, .dma, .cvu, .panel, .mem, .lease, .freeze, .commands, .events, .snaps, .store] q0 = true) :
    OnlyParts q0 z0 (porstAsserted low s) ↔ OnlyParts q0 z0 s := by
  refine OnlyParts.through (ps := [.time, .dev, .regs, .copies, .boot, .ofe, .psy, .dmd, .lbq, .sensors, .cal, .trims, .outs, .mrg, .saf, .str, .tpr, .acw, .frw, .links, .dma, .cvu, .panel, .mem, .lease, .freeze, .commands, .events, .snaps, .store]) ?_ h0
  simp +decide [porstAsserted]

@[simp] theorem powerOnReset_parts {q0 : List Part} {z0 : State} (s : State)
    (h0 : within [.time, .dev, .regs, .copies, .boot, .ofe, .psy, .dmd, .lbq, .sensors, .cal, .trims, .outs, .mrg, .saf, .str, .tpr, .acw, .frw, .links, .dma, .cvu, .panel, .mem, .lease, .freeze, .commands, .events, .snaps, .store] q0 = true) :
    OnlyParts q0 z0 (powerOnReset s) ↔ OnlyParts q0 z0 s := by
  refine OnlyParts.through (ps := [.time, .dev, .regs, .copies, .boot, .ofe, .psy, .dmd, .lbq, .sensors, .cal, .trims, .outs, .mrg, .saf, .str, .tpr, .acw, .frw, .links, .dma, .cvu, .panel, .mem, .lease, .freeze, .commands, .events, .snaps, .store]) ?_ h0
  simp +decide [powerOnReset]

@[simp] theorem State.commitCut_parts {q0 : List Part} {z0 : State} (s : State)
    (h0 : within [.regs, .copies, .str, .events, .store, .free] q0 = true) :
    OnlyParts q0 z0 (State.commitCut s) ↔ OnlyParts q0 z0 s := by
  refine OnlyParts.through (ps := [.regs, .copies, .str, .events, .store, .free]) ?_ h0
  simp only [State.commitCut]
  (repeat' split) <;> simp +decide

@[simp] theorem State.failQueues_parts {q0 : List Part} {z0 : State} (s : State) (h0 : within [.commands, .store] q0 = true) :
    OnlyParts q0 z0 (State.failQueues s) ↔ OnlyParts q0 z0 s := by
  refine OnlyParts.through (ps := [.commands, .store]) ?_ h0
  simp only [State.failQueues]
  (repeat' split) <;> first | (simp +decide; done) | exact ⟨fun p hp => by cases p <;> first | exact absurd (by decide) hp | simp [Part.same]⟩

@[simp] theorem pwrFailTaken_parts {q0 : List Part} {z0 : State} (low : Nat) (s : State)
    (h0 : within [.regs, .copies, .boot, .ofe, .psy, .str, .commands, .events, .store, .free] q0 = true) :
    OnlyParts q0 z0 (pwrFailTaken low s) ↔ OnlyParts q0 z0 s := by
  refine OnlyParts.through (ps := [.regs, .copies, .boot, .ofe, .psy, .str, .commands, .events, .store, .free]) ?_ h0
  simp +decide [pwrFailTaken]

@[simp] theorem powerLossDurable_parts {q0 : List Part} {z0 : State} (s : State)
    (h0 : within [.regs, .copies, .boot, .events, .store] q0 = true) :
    OnlyParts q0 z0 (powerLossDurable s) ↔ OnlyParts q0 z0 s := by
  refine OnlyParts.through (ps := [.regs, .copies, .boot, .events, .store]) ?_ h0
  simp +decide [powerLossDurable]

@[simp] theorem pwrFailReset_parts {q0 : List Part} {z0 : State} (s : State)
    (h0 : within [.time, .dev, .regs, .copies, .boot, .ofe, .psy, .dmd, .lbq, .sensors, .cal, .trims, .outs, .mrg, .saf, .str, .tpr, .acw, .frw, .links, .dma, .cvu, .panel, .mem, .lease, .freeze, .commands, .events, .snaps, .store] q0 = true) :
    OnlyParts q0 z0 (pwrFailReset s) ↔ OnlyParts q0 z0 s := by
  refine OnlyParts.through (ps := [.time, .dev, .regs, .copies, .boot, .ofe, .psy, .dmd, .lbq, .sensors, .cal, .trims, .outs, .mrg, .saf, .str, .tpr, .acw, .frw, .links, .dma, .cvu, .panel, .mem, .lease, .freeze, .commands, .events, .snaps, .store]) ?_ h0
  simp only [pwrFailReset]
  (repeat' split) <;> simp +decide

@[simp] theorem pwrFailRelease_parts {q0 : List Part} {z0 : State} (high : Nat) (s : State) (h0 : within [.boot] q0 = true) :
    OnlyParts q0 z0 (pwrFailRelease high s) ↔ OnlyParts q0 z0 s := by
  refine OnlyParts.through (ps := [.boot]) ?_ h0
  simp +decide [pwrFailRelease]

@[simp] theorem wpTokenAdd_parts {q0 : List Part} {z0 : State} (s : State) (h0 : within [.store] q0 = true) :
    OnlyParts q0 z0 (wpTokenAdd s) ↔ OnlyParts q0 z0 s := by
  refine OnlyParts.through (ps := [.store]) ?_ h0
  simp only [wpTokenAdd]
  split
  · exact OnlyParts.refl ..
  · exact ⟨fun p hp => by cases p <;> first | exact absurd (by decide) hp | simp [Part.same]⟩

@[simp] theorem State.fdCleared_parts {q0 : List Part} {z0 : State} (s : State)
    (h0 : within [.time, .regs, .copies, .boot, .fdUp, .fdin, .outs, .mrg, .saf, .fds] q0 = true) :
    OnlyParts q0 z0 (State.fdCleared s) ↔ OnlyParts q0 z0 s := by
  refine OnlyParts.through (ps := [.time, .regs, .copies, .boot, .fdUp, .fdin, .outs, .mrg, .saf, .fds]) ?_ h0
  simp only [State.fdCleared]
  (repeat' split) <;> first | (simp +decide; done) | exact ⟨fun p hp => by cases p <;> first | exact absurd (by decide) hp | simp [Part.same]⟩

@[simp] theorem State.fdFresh_parts {q0 : List Part} {z0 : State} (s : State)
    (h0 : within [.time, .regs, .copies, .boot, .fdUp, .fdin, .outs, .mrg, .saf, .fds, .frw, .events, .store] q0 = true) :
    OnlyParts q0 z0 (State.fdFresh s) ↔ OnlyParts q0 z0 s := by
  refine OnlyParts.through (ps := [.time, .regs, .copies, .boot, .fdUp, .fdin, .outs, .mrg, .saf, .fds, .frw, .events, .store]) ?_ h0
  simp +decide [State.fdFresh]

@[simp] theorem fdPowerOn_parts {q0 : List Part} {z0 : State} (mv : Nat) (held : Nat) (s : State)
    (h0 : within [.time, .regs, .copies, .boot, .fdUp, .fdin, .outs, .mrg, .saf, .fds, .frw, .events, .store] q0 = true) :
    OnlyParts q0 z0 (fdPowerOn mv held s) ↔ OnlyParts q0 z0 s := by
  refine OnlyParts.through (ps := [.time, .regs, .copies, .boot, .fdUp, .fdin, .outs, .mrg, .saf, .fds, .frw, .events, .store]) ?_ h0
  simp +decide [fdPowerOn]

@[simp] theorem fdReset_parts {q0 : List Part} {z0 : State} (s : State)
    (h0 : within [.time, .regs, .copies, .boot, .fdUp, .fdin, .outs, .mrg, .saf, .fds, .frw, .events, .store] q0 = true) :
    OnlyParts q0 z0 (fdReset s) ↔ OnlyParts q0 z0 s := by
  refine OnlyParts.through (ps := [.time, .regs, .copies, .boot, .fdUp, .fdin, .outs, .mrg, .saf, .fds, .frw, .events, .store]) ?_ h0
  simp +decide [fdReset]

@[simp] theorem fdBrownout_parts {q0 : List Part} {z0 : State} (mv : Nat) (s : State)
    (h0 : within [.regs, .copies, .fdUp, .trims, .fdin, .outs, .fds, .events] q0 = true) :
    OnlyParts q0 z0 (fdBrownout mv s) ↔ OnlyParts q0 z0 s := by
  refine OnlyParts.through (ps := [.regs, .copies, .fdUp, .trims, .fdin, .outs, .fds, .events]) ?_ h0
  simp only [fdBrownout]
  (repeat' split) <;> first | (simp +decide; done) | (simp +decide <;> exact ⟨fun p hp => by cases p <;> first | exact absurd (by decide) hp | simp [Part.same]⟩)

@[simp] theorem State.wpLoad_parts {q0 : List Part} {z0 : State} (s : State) (h0 : within [.regs, .copies, .events, .store] q0 = true) :
    OnlyParts q0 z0 (State.wpLoad s) ↔ OnlyParts q0 z0 s := by
  refine OnlyParts.through (ps := [.regs, .copies, .events, .store]) ?_ h0
  simp +decide [State.wpLoad]

@[simp] theorem State.paramsLoad_parts {q0 : List Part} {z0 : State} (s : State) (h0 : within [.regs] q0 = true) :
    OnlyParts q0 z0 (State.paramsLoad s) ↔ OnlyParts q0 z0 s := by
  refine OnlyParts.through (ps := [.regs]) ?_ h0
  simp only [State.paramsLoad]
  (repeat' split) <;> simp (maxDischargeDepth := 7) +decide

@[simp] theorem State.bankLoad_parts {q0 : List Part} {z0 : State} (s : State) (faults : List NvFault)
    (h0 : within [.regs, .copies, .trims, .events] q0 = true) :
    OnlyParts q0 z0 (State.bankLoad s faults) ↔ OnlyParts q0 z0 s := by
  refine OnlyParts.through (ps := [.regs, .copies, .trims, .events]) ?_ h0
  simp +decide [State.bankLoad]

@[simp] theorem State.settingsLoad_parts {q0 : List Part} {z0 : State} (s : State)
    (h0 : within [.regs, .copies, .boot, .events] q0 = true) :
    OnlyParts q0 z0 (State.settingsLoad s) ↔ OnlyParts q0 z0 s := by
  refine OnlyParts.through (ps := [.regs, .copies, .boot, .events]) ?_ h0
  simp +decide [State.settingsLoad]

@[simp] theorem State.journalBoot_parts {q0 : List Part} {z0 : State} (s : State)
    (h0 : within [.regs, .copies, .boot, .events, .store] q0 = true) :
    OnlyParts q0 z0 (State.journalBoot s) ↔ OnlyParts q0 z0 s := by
  refine OnlyParts.through (ps := [.regs, .copies, .boot, .events, .store]) ?_ h0
  simp only [State.journalBoot]
  (repeat' split) <;> first | (simp +decide; done) | (simp +decide <;> exact ⟨fun p hp => by cases p <;> first | exact absurd (by decide) hp | simp [Part.same]⟩)

@[simp] theorem State.loopsStart_parts {q0 : List Part} {z0 : State} (s : State) (h0 : within [.regs, .copies, .ofe, .events] q0 = true) :
    OnlyParts q0 z0 (State.loopsStart s) ↔ OnlyParts q0 z0 s := by
  refine OnlyParts.through (ps := [.regs, .copies, .ofe, .events]) ?_ h0
  simp +decide [State.loopsStart]

@[simp] theorem State.passwordsResume_parts {q0 : List Part} {z0 : State} (s : State) (h0 : within [.passwords] q0 = true) :
    OnlyParts q0 z0 (State.passwordsResume s) ↔ OnlyParts q0 z0 s := by
  refine OnlyParts.through (ps := [.passwords]) ?_ h0
  simp only [State.passwordsResume]
  (repeat' split) <;> first | (simp +decide; done) | exact ⟨fun p hp => by cases p <;> first | exact absurd (by decide) hp | simp [Part.same]⟩

@[simp] theorem bootRomStart_parts {q0 : List Part} {z0 : State} (faults : List NvFault) (s : State)
    (h0 : within [.regs, .copies, .boot, .ofe, .trims, .str, .passwords, .events, .store] q0 = true) :
    OnlyParts q0 z0 (bootRomStart faults s) ↔ OnlyParts q0 z0 s := by
  refine OnlyParts.through (ps := [.regs, .copies, .boot, .ofe, .trims, .str, .passwords, .events, .store]) ?_ h0
  simp +decide [bootRomStart]

@[simp] theorem State.firmwareRuns_parts {q0 : List Part} {z0 : State} (s : State) (b : Bool)
    (h0 : within [.regs, .copies, .boot, .saf, .frw, .cvu, .events, .store] q0 = true) :
    OnlyParts q0 z0 (State.firmwareRuns s b) ↔ OnlyParts q0 z0 s := by
  refine OnlyParts.through (ps := [.regs, .copies, .boot, .saf, .frw, .cvu, .events, .store]) ?_ h0
  simp +decide [State.firmwareRuns]

@[simp] theorem firmwareVerified_parts {q0 : List Part} {z0 : State} (s : State)
    (h0 : within [.regs, .copies, .boot, .saf, .frw, .cvu, .events, .store] q0 = true) :
    OnlyParts q0 z0 (firmwareVerified s) ↔ OnlyParts q0 z0 s := by
  refine OnlyParts.through (ps := [.regs, .copies, .boot, .saf, .frw, .cvu, .events, .store]) ?_ h0
  simp +decide [firmwareVerified]

@[simp] theorem bootWatchdog_parts {q0 : List Part} {z0 : State} (s : State)
    (h0 : within [.time, .dev, .regs, .copies, .boot, .ofe, .psy, .dmd, .lbq, .sensors, .cal, .trims, .outs, .mrg, .saf, .str, .tpr, .acw, .frw, .links, .dma, .cvu, .panel, .mem, .lease, .freeze, .commands, .events, .snaps, .store] q0 = true) :
    OnlyParts q0 z0 (bootWatchdog s) ↔ OnlyParts q0 z0 s := by
  refine OnlyParts.through (ps := [.time, .dev, .regs, .copies, .boot, .ofe, .psy, .dmd, .lbq, .sensors, .cal, .trims, .outs, .mrg, .saf, .str, .tpr, .acw, .frw, .links, .dma, .cvu, .panel, .mem, .lease, .freeze, .commands, .events, .snaps, .store]) ?_ h0
  simp +decide [bootWatchdog]

@[simp] theorem recoveryInstall_parts {q0 : List Part} {z0 : State} (s : State)
    (h0 : within [.time, .dev, .regs, .copies, .boot, .ofe, .psy, .dmd, .lbq, .sensors, .cal, .trims, .outs, .mrg, .saf, .str, .tpr, .acw, .frw, .links, .dma, .cvu, .panel, .mem, .lease, .freeze, .commands, .events, .snaps, .store] q0 = true) :
    OnlyParts q0 z0 (recoveryInstall s) ↔ OnlyParts q0 z0 s := by
  refine OnlyParts.through (ps := [.time, .dev, .regs, .copies, .boot, .ofe, .psy, .dmd, .lbq, .sensors, .cal, .trims, .outs, .mrg, .saf, .str, .tpr, .acw, .frw, .links, .dma, .cvu, .panel, .mem, .lease, .freeze, .commands, .events, .snaps, .store]) ?_ h0
  simp +decide [recoveryInstall]

@[simp] theorem State.fdShare_parts {q0 : List Part} {z0 : State} (s : State) (frames : List SFrame)
    (h0 : within [.dev, .regs, .copies, .boot, .ofe, .lbq, .fdin, .outs, .mrg, .saf, .fds, .str, .frw, .links, .events, .store] q0 = true) :
    OnlyParts q0 z0 (State.fdShare s frames) ↔ OnlyParts q0 z0 s := by
  refine OnlyParts.through (ps := [.dev, .regs, .copies, .boot, .ofe, .lbq, .fdin, .outs, .mrg, .saf, .fds, .str, .frw, .links, .events, .store]) ?_ h0
  simp only [State.fdShare]
  (repeat' split) <;> simp (maxDischargeDepth := 7) +decide

@[simp] theorem startHandshake_parts {q0 : List Part} {z0 : State} (s : State)
    (h0 : within [.time, .dev, .regs, .copies, .boot, .ofe, .lbq, .fdin, .outs, .mrg, .saf, .fds, .str, .frw, .links, .events, .store] q0 = true) :
    OnlyParts q0 z0 (startHandshake s) ↔ OnlyParts q0 z0 s := by
  refine OnlyParts.through (ps := [.time, .dev, .regs, .copies, .boot, .ofe, .lbq, .fdin, .outs, .mrg, .saf, .fds, .str, .frw, .links, .events, .store]) ?_ h0
  simp only [startHandshake]
  (repeat' split) <;> simp +decide

@[simp] theorem handshakeRetry_parts {q0 : List Part} {z0 : State} (s : State) (h0 : within [.regs, .copies, .boot, .events] q0 = true) :
    OnlyParts q0 z0 (handshakeRetry s) ↔ OnlyParts q0 z0 s := by
  refine OnlyParts.through (ps := [.regs, .copies, .boot, .events]) ?_ h0
  simp only [handshakeRetry]
  (repeat' split) <;> simp +decide

@[simp] theorem State.notTaken_parts {q0 : List Part} {z0 : State} (s : State) (reached : Nat)
    (h0 : within [.regs, .copies, .events, .store] q0 = true) :
    OnlyParts q0 z0 (State.notTaken s reached) ↔ OnlyParts q0 z0 s := by
  refine OnlyParts.through (ps := [.regs, .copies, .events, .store]) ?_ h0
  simp only [State.notTaken]
  (repeat' split) <;> simp +decide

@[simp] theorem State.bootWord_parts {q0 : List Part} {z0 : State} (s : State) (plan : Plan) (bad : List Nat) (e : Nat × Word)
    (h0 : within [.time, .regs, .copies, .events, .store] q0 = true) :
    OnlyParts q0 z0 (State.bootWord s plan bad e) ↔ OnlyParts q0 z0 s := by
  refine OnlyParts.through (ps := [.time, .regs, .copies, .events, .store]) ?_ h0
  simp only [State.bootWord]
  (repeat' split) <;> simp +decide

@[simp] theorem State.dieLoad_parts {q0 : List Part} {z0 : State} (s : State) (d : Nat) (h0 : within [.psy, .lbq, .sensors] q0 = true) :
    OnlyParts q0 z0 (State.dieLoad s d) ↔ OnlyParts q0 z0 s := by
  refine OnlyParts.through (ps := [.psy, .lbq, .sensors]) ?_ h0
  simp only [State.dieLoad]
  (repeat' split) <;> simp (maxDischargeDepth := 7) +decide

@[simp] theorem State.bootLight_parts {q0 : List Part} {z0 : State} (s : State) (d : Nat)
    (h0 : within [.regs, .copies, .ofe, .events] q0 = true) :
    OnlyParts q0 z0 (State.bootLight s d) ↔ OnlyParts q0 z0 s := by
  refine OnlyParts.through (ps := [.regs, .copies, .ofe, .events]) ?_ h0
  simp +decide [State.bootLight]

@[simp] theorem State.bootStructure_parts {q0 : List Part} {z0 : State} (s : State) (frames : List SFrame) (bad : List Nat)
    (h0 : within [.time, .dev, .regs, .copies, .boot, .ofe, .psy, .lbq, .sensors, .fdin, .outs, .mrg, .saf, .fds, .str, .frw, .links, .dma, .lease, .freeze, .commands, .events, .store] q0 = true) :
    OnlyParts q0 z0 (State.bootStructure s frames bad) ↔ OnlyParts q0 z0 s := by
  refine OnlyParts.through (ps := [.time, .dev, .regs, .copies, .boot, .ofe, .psy, .lbq, .sensors, .fdin, .outs, .mrg, .saf, .fds, .str, .frw, .links, .dma, .lease, .freeze, .commands, .events, .store]) ?_ h0
  simp +decide [State.bootStructure]

@[simp] theorem structureLoad_parts {q0 : List Part} {z0 : State} (bad : List Nat) (s : State)
    (h0 : within [.time, .dev, .regs, .copies, .boot, .ofe, .psy, .lbq, .sensors, .fdin, .outs, .mrg, .saf, .fds, .str, .frw, .links, .dma, .lease, .freeze, .commands, .events, .store] q0 = true) :
    OnlyParts q0 z0 (structureLoad bad s) ↔ OnlyParts q0 z0 s := by
  refine OnlyParts.through (ps := [.time, .dev, .regs, .copies, .boot, .ofe, .psy, .lbq, .sensors, .fdin, .outs, .mrg, .saf, .fds, .str, .frw, .links, .dma, .lease, .freeze, .commands, .events, .store]) ?_ h0
  simp only [structureLoad]
  (repeat' split) <;> simp +decide

@[simp] theorem bootComplete_parts {q0 : List Part} {z0 : State} (s : State)
    (h0 : within [.dev, .regs, .copies, .boot, .outs, .events] q0 = true) :
    OnlyParts q0 z0 (bootComplete s) ↔ OnlyParts q0 z0 s := by
  refine OnlyParts.through (ps := [.dev, .regs, .copies, .boot, .outs, .events]) ?_ h0
  simp +decide [bootComplete]

@[simp] theorem bootRefTimeout_parts {q0 : List Part} {z0 : State} (s : State) (h0 : within [.boot] q0 = true) :
    OnlyParts q0 z0 (bootRefTimeout s) ↔ OnlyParts q0 z0 s := by
  refine OnlyParts.through (ps := [.boot]) ?_ h0
  simp +decide [bootRefTimeout]

@[simp] theorem jtagExpiry_parts {q0 : List Part} {z0 : State} (s : State) (h0 : within [.boot] q0 = true) :
    OnlyParts q0 z0 (jtagExpiry s) ↔ OnlyParts q0 z0 s := by
  refine OnlyParts.through (ps := [.boot]) ?_ h0
  simp +decide [jtagExpiry]

@[simp] theorem wakeRequest_parts {q0 : List Part} {z0 : State} (s : State)
    (h0 : within [.dev, .regs, .copies, .boot, .ofe, .lbq, .fdin, .outs, .mrg, .saf, .fds, .frw, .events, .store] q0 = true) :
    OnlyParts q0 z0 (wakeRequest s) ↔ OnlyParts q0 z0 s := by
  refine OnlyParts.through (ps := [.dev, .regs, .copies, .boot, .ofe, .lbq, .fdin, .outs, .mrg, .saf, .fds, .frw, .events, .store]) ?_ h0
  simp only [wakeRequest]
  (repeat' split) <;> simp +decide

@[simp] theorem State.deviceResets_parts {q0 : List Part} {z0 : State} (s : State)
    (h0 : within [.time, .dev, .regs, .copies, .boot, .ofe, .psy, .dmd, .lbq, .sensors, .cal, .trims, .outs, .mrg, .saf, .str, .tpr, .acw, .frw, .links, .dma, .cvu, .panel, .mem, .lease, .freeze, .commands, .events, .snaps, .store] q0 = true) :
    OnlyParts q0 z0 (State.deviceResets s) ↔ OnlyParts q0 z0 s := by
  refine OnlyParts.through (ps := [.time, .dev, .regs, .copies, .boot, .ofe, .psy, .dmd, .lbq, .sensors, .cal, .trims, .outs, .mrg, .saf, .str, .tpr, .acw, .frw, .links, .dma, .cvu, .panel, .mem, .lease, .freeze, .commands, .events, .snaps, .store]) ?_ h0
  simp +decide [State.deviceResets]

@[simp] theorem watchEnter_parts {q0 : List Part} {z0 : State} (s : State)
    (h0 : within [.dev, .regs, .copies, .boot, .ofe, .psy, .lbq, .sensors, .cal, .fdin, .outs, .saf, .fds, .frw, .events, .store] q0 = true) :
    OnlyParts q0 z0 (watchEnter s).1 ↔ OnlyParts q0 z0 s := by
  refine OnlyParts.through (ps := [.dev, .regs, .copies, .boot, .ofe, .psy, .lbq, .sensors, .cal, .fdin, .outs, .saf, .fds, .frw, .events, .store]) ?_ h0
  simp only [watchEnter]
  (repeat' split) <;> simp +decide

@[simp] theorem fwInstall_parts {q0 : List Part} {z0 : State} (d : Nat) (len : Nat) (s : State) (h0 : within [.boot, .str] q0 = true) :
    OnlyParts q0 z0 (fwInstall d len s).1 ↔ OnlyParts q0 z0 s := by
  refine OnlyParts.through (ps := [.boot, .str]) ?_ h0
  simp only [fwInstall]
  (repeat' split) <;> simp +decide

@[simp] theorem State.maintCheck_parts {q0 : List Part} {z0 : State} (s : State) (given : List Byte) (h0 : within [.passwords] q0 = true) :
    OnlyParts q0 z0 (State.maintCheck s given).1 ↔ OnlyParts q0 z0 s := by
  refine OnlyParts.through (ps := [.passwords]) ?_ h0
  simp +decide [State.maintCheck]

@[simp] theorem keyProgram_parts {q0 : List Part} {z0 : State} (args : List Byte) (s : State) (h0 : within [.str, .passwords] q0 = true) :
    OnlyParts q0 z0 (keyProgram args s).1 ↔ OnlyParts q0 z0 s := by
  refine OnlyParts.through (ps := [.str, .passwords]) ?_ h0
  have k : OnlyParts [.str, .passwords] s (s.maintCheck (bytesAt args 36 12)).1 := by simp +decide
  cases hm : s.maintCheck (bytesAt args 36 12) with
  | mk t r =>
    rw [hm] at k
    simp only [keyProgram, hm]
    (repeat' split) <;> first | (simp; done) | (simp_all +decide; done)

@[simp] theorem keyRevoke_parts {q0 : List Part} {z0 : State} (args : List Byte) (s : State) (h0 : within [.str, .passwords] q0 = true) :
    OnlyParts q0 z0 (keyRevoke args s).1 ↔ OnlyParts q0 z0 s := by
  refine OnlyParts.through (ps := [.str, .passwords]) ?_ h0
  have k : OnlyParts [.str, .passwords] s (s.maintCheck (bytesAt args 4 12)).1 := by simp +decide
  cases hm : s.maintCheck (bytesAt args 4 12) with
  | mk t r =>
    rw [hm] at k
    simp only [keyRevoke, hm]
    (repeat' split) <;> first | (simp; done) | (simp_all +decide; done)

@[simp] theorem settingsSet_parts {q0 : List Part} {z0 : State} (s : State) (h0 : within [.boot] q0 = true) :
    OnlyParts q0 z0 (settingsSet s).1 ↔ OnlyParts q0 z0 s := by
  refine OnlyParts.through (ps := [.boot]) ?_ h0
  simp only [settingsSet]
  (repeat' split) <;> simp +decide

@[simp] theorem bootWrite_parts {q0 : List Part} {z0 : State} (s : State) (o : Nat) (v : Word)
    (h0 : within [.time, .dev, .regs, .copies, .boot, .ofe, .psy, .dmd, .lbq, .sensors, .cal, .trims, .outs, .mrg, .saf, .str, .tpr, .acw, .frw, .links, .dma, .cvu, .panel, .mem, .lease, .freeze, .commands, .events, .snaps, .store] q0 = true) :
    OnlyParts q0 z0 (bootWrite s o v) ↔ OnlyParts q0 z0 s := by
  refine OnlyParts.through (ps := [.time, .dev, .regs, .copies, .boot, .ofe, .psy, .dmd, .lbq, .sensors, .cal, .trims, .outs, .mrg, .saf, .str, .tpr, .acw, .frw, .links, .dma, .cvu, .panel, .mem, .lease, .freeze, .commands, .events, .snaps, .store]) ?_ h0
  simp +decide [bootWrite]

end Sys2Proof.Machine
end

