-- ==== Sys2Proof/Laws/ClockStepParts.lean ====
section
/-!
SUPPORT. What the operations of Machine/ClockStep leave unchanged.
-/
namespace Sys2Proof.Machine

@[simp] theorem State.stepHb_parts {q0 : List Part} {z0 : State} (s : State) (d : Nat)
    (h0 : within [.time, .psy, .dmd, .lbq, .sensors, .mrg, .saf, .tpr, .frw, .lease, .events] q0 = true) :
    OnlyParts q0 z0 (State.stepHb s d) ↔ OnlyParts q0 z0 s := by
  refine OnlyParts.through (ps := [.time, .psy, .dmd, .lbq, .sensors, .mrg, .saf, .tpr, .frw, .lease, .events]) ?_ h0
  simp only [State.stepHb]
  (repeat' split) <;> first | (simp +decide; done) | exact ⟨fun p hp => by cases p <;> first | exact absurd (by decide) hp | simp [Part.same]⟩

@[simp] theorem State.stepFd_parts {q0 : List Part} {z0 : State} (s : State) (d : Nat) (h0 : within [.time, .fdin, .outs, .fds] q0 = true) :
    OnlyParts q0 z0 (State.stepFd s d) ↔ OnlyParts q0 z0 s := by
  refine OnlyParts.through (ps := [.time, .fdin, .outs, .fds]) ?_ h0
  simp only [State.stepFd]
  (repeat' split) <;> first | (simp +decide; done) | exact ⟨fun p hp => by cases p <;> first | exact absurd (by decide) hp | simp [Part.same]⟩

@[simp] theorem tcStepApply_parts {q0 : List Part} {z0 : State} (s : State)
    (h0 : within [.time, .regs, .copies, .psy, .dmd, .lbq, .sensors, .mrg, .saf, .tpr, .frw, .lease, .events] q0 = true) :
    OnlyParts q0 z0 (tcStepApply s) ↔ OnlyParts q0 z0 s := by
  refine OnlyParts.through (ps := [.time, .regs, .copies, .psy, .dmd, .lbq, .sensors, .mrg, .saf, .tpr, .frw, .lease, .events]) ?_ h0
  simp only [tcStepApply]
  (repeat' split) <;> simp +decide

@[simp] theorem tcStepMessage_parts {q0 : List Part} {z0 : State} (s : State)
    (h0 : within [.time, .regs, .copies, .fdin, .outs, .mrg, .fds, .events] q0 = true) :
    OnlyParts q0 z0 (tcStepMessage s) ↔ OnlyParts q0 z0 s := by
  refine OnlyParts.through (ps := [.time, .regs, .copies, .fdin, .outs, .mrg, .fds, .events]) ?_ h0
  simp only [tcStepMessage]
  (repeat' split) <;> simp +decide

end Sys2Proof.Machine
end

