-- ==== Sys2Proof/Laws/ForerunnerParts.lean ====
section
/-!
SUPPORT. What the operations of Machine/Forerunner leave unchanged.
-/
namespace Sys2Proof.Machine

@[simp] theorem State.setFrw_parts {q0 : List Part} {z0 : State} (s : State) (f : Frw → Frw) (h0 : within [.frw] q0 = true) :
    OnlyParts q0 z0 (State.setFrw s f) ↔ OnlyParts q0 z0 s := by
  refine OnlyParts.through (ps := [.frw]) ?_ h0
  exact ⟨fun p hp => by cases p <;> first | exact absurd (by decide) hp | simp [Part.same]⟩

@[simp] theorem State.frwRefuse_parts {q0 : List Part} {z0 : State} (s : State) (res : Nat)
    (h0 : within [.regs, .copies, .frw, .events] q0 = true) :
    OnlyParts q0 z0 (State.frwRefuse s res) ↔ OnlyParts q0 z0 s := by
  refine OnlyParts.through (ps := [.regs, .copies, .frw, .events]) ?_ h0
  simp +decide [State.frwRefuse]

@[simp] theorem State.frwDone_parts {q0 : List Part} {z0 : State} (s : State) (res : Nat)
    (h0 : within [.regs, .copies, .frw, .events] q0 = true) :
    OnlyParts q0 z0 (State.frwDone s res) ↔ OnlyParts q0 z0 s := by
  refine OnlyParts.through (ps := [.regs, .copies, .frw, .events]) ?_ h0
  simp +decide [State.frwDone]

@[simp] theorem State.frwBreak_parts {q0 : List Part} {z0 : State} (s : State) (h0 : within [.regs, .copies, .frw, .events] q0 = true) :
    OnlyParts q0 z0 (State.frwBreak s) ↔ OnlyParts q0 z0 s := by
  refine OnlyParts.through (ps := [.regs, .copies, .frw, .events]) ?_ h0
  simp +decide [State.frwBreak]

@[simp] theorem State.frwPair_parts {q0 : List Part} {z0 : State} (s : State) (a : Nat) (v : Nat)
    (h0 : within [.regs, .copies, .fdin, .frw, .events] q0 = true) :
    OnlyParts q0 z0 (State.frwPair s a v) ↔ OnlyParts q0 z0 s := by
  refine OnlyParts.through (ps := [.regs, .copies, .fdin, .frw, .events]) ?_ h0
  simp +decide [State.frwPair]

@[simp] theorem frwControl_parts {q0 : List Part} {z0 : State} (a : Nat) (v : Byte) (s : State)
    (h0 : within [.regs, .copies, .fdin, .frw, .events] q0 = true) :
    OnlyParts q0 z0 (frwControl a v s) ↔ OnlyParts q0 z0 s := by
  refine OnlyParts.through (ps := [.regs, .copies, .fdin, .frw, .events]) ?_ h0
  simp only [frwControl]
  (repeat' split) <;> simp +decide

@[simp] theorem State.frwReset_parts {q0 : List Part} {z0 : State} (s : State)
    (h0 : within [.regs, .copies, .frw, .commands, .events] q0 = true) :
    OnlyParts q0 z0 (State.frwReset s) ↔ OnlyParts q0 z0 s := by
  refine OnlyParts.through (ps := [.regs, .copies, .frw, .commands, .events]) ?_ h0
  simp only [State.frwReset]
  (repeat' split) <;> first | (simp +decide; done) | exact ⟨fun p hp => by cases p <;> first | exact absurd (by decide) hp | simp [Part.same]⟩

@[simp] theorem frwKey_parts {q0 : List Part} {z0 : State} (v : Byte) (s : State)
    (h0 : within [.regs, .copies, .frw, .commands, .events] q0 = true) :
    OnlyParts q0 z0 (frwKey v s) ↔ OnlyParts q0 z0 s := by
  refine OnlyParts.through (ps := [.regs, .copies, .frw, .commands, .events]) ?_ h0
  simp only [frwKey]
  (repeat' split) <;> simp +decide

@[simp] theorem frwSelect_parts {q0 : List Part} {z0 : State} (sec : Bool) (v : Byte) (s : State)
    (h0 : within [.regs, .copies, .frw, .events] q0 = true) :
    OnlyParts q0 z0 (frwSelect sec v s) ↔ OnlyParts q0 z0 s := by
  refine OnlyParts.through (ps := [.regs, .copies, .frw, .events]) ?_ h0
  simp +decide [frwSelect]

@[simp] theorem State.frwLatches_parts {q0 : List Part} {z0 : State} (s : State) (a : Nat) (h0 : within [.frw] q0 = true) :
    OnlyParts q0 z0 (State.frwLatches s a) ↔ OnlyParts q0 z0 s := by
  refine OnlyParts.through (ps := [.frw]) ?_ h0
  simp only [State.frwLatches]
  (repeat' split) <;> simp +decide

@[simp] theorem frwRead_parts {q0 : List Part} {z0 : State} (a : Nat) (s : State)
    (h0 : within [.regs, .copies, .frw, .events, .sent] q0 = true) :
    OnlyParts q0 z0 (frwRead a s) ↔ OnlyParts q0 z0 s := by
  refine OnlyParts.through (ps := [.regs, .copies, .frw, .events, .sent]) ?_ h0
  simp +decide [frwRead]

end Sys2Proof.Machine
end

