-- ==== Sys2Proof/Laws/CommandsParts.lean ====
section
/-!
SUPPORT. What the operations of Machine/Commands leave unchanged.
-/
namespace Sys2Proof.Machine

@[simp] theorem State.respond_parts {q0 : List Part} {z0 : State} (s : State) (q : QueuedCmd) (code : Nat) (jseq : Nat) (data : List Byte)
    (h0 : within [.commands] q0 = true) :
    OnlyParts q0 z0 (State.respond s q code jseq data) ↔ OnlyParts q0 z0 s := by
  refine OnlyParts.through (ps := [.commands]) ?_ h0
  simp +decide [State.respond]

theorem State.arbiter_parts {q0 : List Part} {z0 : State} (s : State) (q : QueuedCmd) (go : State → State)
    (hg : ∀ u, OnlyParts q0 u (go u)) (h0 : within [.regs, .copies, .outs, .saf, .fds, .str, .frw, .links, .dma, .lease, .freeze, .commands, .events, .store] q0 = true) :
    OnlyParts q0 z0 (s.arbiter q go) ↔ OnlyParts q0 z0 s := by
  refine OnlyParts.through (ps := q0) ?_ (by simp [within])
  have hc : within [.commands] q0 = true := within.trans (by decide) h0
  have hl : within [.links] q0 = true := within.trans (by decide) h0
  have hz : ∀ (u : State) (f : Frozen) (c : FreezeCause) (n : Nat), OnlyParts q0 u (u.freeze f c n) := fun u f c n =>
    (State.freeze_parts _ _ _ _ (within.trans (by decide) h0)).2 (OnlyParts.refl ..)
  simp only [State.arbiter]
  (repeat' split) <;> first | (simp [hc, hl]; done) | (refine OnlyParts.trans ?_ (hg _); simp [hc]; done) | (refine OnlyParts.trans ?_ (hz _ _ _ _); simp [hc, hl])

@[simp] theorem submit_parts {q0 : List Part} {z0 : State} (o : CmdOrigin) (r : List Byte) (s : State)
    (h0 : within [.regs, .copies, .outs, .saf, .fds, .str, .frw, .links, .dma, .lease, .freeze, .commands, .events, .store] q0 = true) :
    OnlyParts q0 z0 (submit o r s) ↔ OnlyParts q0 z0 s := by
  refine OnlyParts.through (ps := [.regs, .copies, .outs, .saf, .fds, .str, .frw, .links, .dma, .lease, .freeze, .commands, .events, .store]) ?_ h0
  simp only [submit]
  exact (State.arbiter_parts _ _ _ (fun u => by simp +decide) (by decide)).2 (OnlyParts.refl ..)

@[simp] theorem leaseAcquire_parts {q0 : List Part} {z0 : State} (d : Nat) (s : State)
    (h0 : within [.regs, .copies, .lease, .events, .store] q0 = true) :
    OnlyParts q0 z0 (leaseAcquire d s).1 ↔ OnlyParts q0 z0 s := by
  refine OnlyParts.through (ps := [.regs, .copies, .lease, .events, .store]) ?_ h0
  simp only [leaseAcquire]
  (repeat' split) <;> simp +decide

@[simp] theorem leaseRelease_parts {q0 : List Part} {z0 : State} (d : Nat) (s : State)
    (h0 : within [.regs, .copies, .outs, .saf, .fds, .frw, .lease, .events, .store] q0 = true) :
    OnlyParts q0 z0 (leaseRelease d s).1 ↔ OnlyParts q0 z0 s := by
  refine OnlyParts.through (ps := [.regs, .copies, .outs, .saf, .fds, .frw, .lease, .events, .store]) ?_ h0
  simp only [leaseRelease]
  (repeat' split) <;> simp +decide

@[simp] theorem leaseRevoke_parts {q0 : List Part} {z0 : State} (s : State)
    (h0 : within [.regs, .copies, .outs, .saf, .fds, .frw, .lease, .events, .store] q0 = true) :
    OnlyParts q0 z0 (leaseRevoke s).1 ↔ OnlyParts q0 z0 s := by
  refine OnlyParts.through (ps := [.regs, .copies, .outs, .saf, .fds, .frw, .lease, .events, .store]) ?_ h0
  simp only [leaseRevoke]
  (repeat' split) <;> simp +decide

@[simp] theorem sectionCommand_parts {q0 : List Part} {z0 : State} (t : Nat) (q : QueuedCmd) (s : State)
    (h0 : within [.regs, .copies, .saf, .frw, .events, .store] q0 = true) :
    OnlyParts q0 z0 (sectionCommand t q s).1 ↔ OnlyParts q0 z0 s := by
  refine OnlyParts.through (ps := [.regs, .copies, .saf, .frw, .events, .store]) ?_ h0
  simp only [sectionCommand]
  (repeat' split) <;> simp +decide

@[simp] theorem brakeTest_parts {q0 : List Part} {z0 : State} (c : Nat) (s : State)
    (h0 : within [.regs, .copies, .outs, .events] q0 = true) :
    OnlyParts q0 z0 (brakeTest c s).1 ↔ OnlyParts q0 z0 s := by
  refine OnlyParts.through (ps := [.regs, .copies, .outs, .events]) ?_ h0
  simp only [brakeTest]
  (repeat' split) <;> simp +decide

@[simp] theorem State.stateCmd_parts {q0 : List Part} {z0 : State} (s : State) (ok : Bool) (f : State → State)
    (hf : OnlyParts q0 s (f s)) : OnlyParts q0 z0 (s.stateCmd ok f).1 ↔ OnlyParts q0 z0 s := by
  refine OnlyParts.through (ps := q0) ?_ (by simp [within])
  simp only [State.stateCmd]
  split <;> simp [hf]

@[simp] theorem ledgerSelftest_parts {q0 : List Part} {z0 : State} (s : State)
    (h0 : within [.regs, .copies, .outs, .fds, .events] q0 = true) :
    OnlyParts q0 z0 (ledgerSelftest s) ↔ OnlyParts q0 z0 s := by
  refine OnlyParts.through (ps := [.regs, .copies, .outs, .fds, .events]) ?_ h0
  simp +decide [ledgerSelftest]

@[simp] theorem unfreeze_parts {q0 : List Part} {z0 : State} (q : QueuedCmd) (s : State)
    (h0 : within [.dma, .freeze, .passwords] q0 = true) :
    OnlyParts q0 z0 (unfreeze q s).1 ↔ OnlyParts q0 z0 s := by
  refine OnlyParts.through (ps := [.dma, .freeze, .passwords]) ?_ h0
  have k : OnlyParts [.dma, .freeze, .passwords] s (s.maintCheck (bytesAt q.cmd.args 2 12)).1 := by simp +decide
  cases hm : s.maintCheck (bytesAt q.cmd.args 2 12) with
  | mk t r =>
    rw [hm] at k
    simp only [unfreeze, hm]
    (repeat' split) <;> first | (simp; done) | (simp_all +decide; done)

@[simp] theorem passwordSet_parts {q0 : List Part} {z0 : State} (q : QueuedCmd) (s : State) (h0 : within [.passwords] q0 = true) :
    OnlyParts q0 z0 (passwordSet q s).1 ↔ OnlyParts q0 z0 s := by
  refine OnlyParts.through (ps := [.passwords]) ?_ h0
  simp only [passwordSet]
  (repeat' split) <;> simp +decide

@[simp] theorem State.logAck_parts {q0 : List Part} {z0 : State} (s : State) (e : ClgEntry)
    (h0 : within [.regs, .copies, .events, .store] q0 = true) :
    OnlyParts q0 z0 (State.logAck s e) ↔ OnlyParts q0 z0 s := by
  refine OnlyParts.through (ps := [.regs, .copies, .events, .store]) ?_ h0
  simp only [State.logAck]
  (repeat' split) <;> first | (simp +decide; done) | (simp +decide <;> exact ⟨fun p hp => by cases p <;> first | exact absurd (by decide) hp | simp [Part.same]⟩)

@[simp] theorem logAckCmd_parts {q0 : List Part} {z0 : State} (q : QueuedCmd) (s : State)
    (h0 : within [.regs, .copies, .passwords, .events, .store] q0 = true) :
    OnlyParts q0 z0 (logAckCmd q s).1 ↔ OnlyParts q0 z0 s := by
  refine OnlyParts.through (ps := [.regs, .copies, .passwords, .events, .store]) ?_ h0
  have k : OnlyParts [.regs, .copies, .passwords, .events, .store] s (s.maintCheck (bytesAt q.cmd.args 24 12)).1 := by simp +decide
  cases hm : s.maintCheck (bytesAt q.cmd.args 24 12) with
  | mk t r =>
    rw [hm] at k
    simp only [logAckCmd, hm]
    (repeat' split) <;> first | (simp; done) | (simp_all +decide; done)

@[simp] theorem calStore_parts {q0 : List Part} {z0 : State} (s : State) (h0 : within [.trims, .store] q0 = true) :
    OnlyParts q0 z0 (calStore s).1 ↔ OnlyParts q0 z0 s := by
  refine OnlyParts.through (ps := [.trims, .store]) ?_ h0
  simp only [calStore]
  (repeat' split) <;> simp +decide

@[simp] theorem State.strTouch_parts {q0 : List Part} {z0 : State} (s : State) (d : Nat) (h0 : within [.str] q0 = true) :
    OnlyParts q0 z0 (State.strTouch s d) ↔ OnlyParts q0 z0 s := by
  refine OnlyParts.through (ps := [.str]) ?_ h0
  simp +decide [State.strTouch]

@[simp] theorem State.effect_parts {q0 : List Part} {z0 : State} (s : State) (t : Nat) (q : QueuedCmd)
    (h0 : within [.time, .dev, .regs, .copies, .boot, .fdUp, .ofe, .psy, .lbq, .sensors, .cal, .trims, .fdin, .outs, .mrg, .saf, .fds, .str, .frw, .dma, .lease, .freeze, .passwords, .events, .store] q0 = true) :
    OnlyParts q0 z0 (State.effect s t q).1 ↔ OnlyParts q0 z0 s := by
  refine OnlyParts.through (ps := [.time, .dev, .regs, .copies, .boot, .fdUp, .ofe, .psy, .lbq, .sensors, .cal, .trims, .fdin, .outs, .mrg, .saf, .fds, .str, .frw, .dma, .lease, .freeze, .passwords, .events, .store]) ?_ h0
  simp only [State.effect]
  (repeat' split) <;> simp +decide

@[simp] theorem State.cmdPost_parts {q0 : List Part} {z0 : State} (s : State) (q : QueuedCmd)
    (h0 : within [.dev, .regs, .copies, .boot, .ofe, .lbq, .outs, .mrg, .saf, .fds, .str, .frw, .links, .passwords, .events, .store] q0 = true) :
    OnlyParts q0 z0 (State.cmdPost s q) ↔ OnlyParts q0 z0 s := by
  refine OnlyParts.through (ps := [.dev, .regs, .copies, .boot, .ofe, .lbq, .outs, .mrg, .saf, .fds, .str, .frw, .links, .passwords, .events, .store]) ?_ h0
  simp only [State.cmdPost]
  (repeat' split) <;> simp +decide

@[simp] theorem State.accepted_parts {q0 : List Part} {z0 : State} (s : State) (t : Nat) (q : QueuedCmd) (r : CmdRes)
    (h0 : within [.dev, .regs, .copies, .boot, .ofe, .lbq, .outs, .mrg, .saf, .fds, .str, .frw, .links, .passwords, .commands, .events, .store] q0 = true) :
    OnlyParts q0 z0 (State.accepted s t q r) ↔ OnlyParts q0 z0 s := by
  refine OnlyParts.through (ps := [.dev, .regs, .copies, .boot, .ofe, .lbq, .outs, .mrg, .saf, .fds, .str, .frw, .links, .passwords, .commands, .events, .store]) ?_ h0
  simp +decide [State.accepted]

@[simp] theorem State.refused_parts {q0 : List Part} {z0 : State} (s : State) (q : QueuedCmd) (r : CmdRes)
    (h0 : within [.regs, .copies, .frw, .commands, .events] q0 = true) :
    OnlyParts q0 z0 (State.refused s q r) ↔ OnlyParts q0 z0 s := by
  refine OnlyParts.through (ps := [.regs, .copies, .frw, .commands, .events]) ?_ h0
  simp +decide [State.refused]

@[simp] theorem State.applyCmd_parts {q0 : List Part} {z0 : State} (s : State) (t : Nat) (q : QueuedCmd)
    (h0 : within [.time, .dev, .regs, .copies, .boot, .fdUp, .ofe, .psy, .lbq, .sensors, .cal, .trims, .fdin, .outs, .mrg, .saf, .fds, .str, .frw, .links, .dma, .lease, .freeze, .passwords, .commands, .events, .store] q0 = true) :
    OnlyParts q0 z0 (State.applyCmd s t q).1 ↔ OnlyParts q0 z0 s := by
  refine OnlyParts.through (ps := [.time, .dev, .regs, .copies, .boot, .fdUp, .ofe, .psy, .lbq, .sensors, .cal, .trims, .fdin, .outs, .mrg, .saf, .fds, .str, .frw, .links, .dma, .lease, .freeze, .passwords, .commands, .events, .store]) ?_ h0
  simp only [State.applyCmd]
  (repeat' split) <;> simp +decide

@[simp] theorem State.ledSection_parts {q0 : List Part} {z0 : State} (s : State) (t : Nat) (q : QueuedCmd)
    (h0 : within [.regs, .copies, .outs, .mrg, .fds, .events] q0 = true) :
    OnlyParts q0 z0 (State.ledSection s t q) ↔ OnlyParts q0 z0 s := by
  refine OnlyParts.through (ps := [.regs, .copies, .outs, .mrg, .fds, .events]) ?_ h0
  simp only [State.ledSection]
  (repeat' split) <;> simp +decide

@[simp] theorem directCommand_parts {q0 : List Part} {z0 : State} (code : Nat) (c : Command) (s : State)
    (h0 : within [.time, .dev, .regs, .copies, .boot, .fdUp, .ofe, .psy, .lbq, .sensors, .cal, .trims, .fdin, .outs, .mrg, .saf, .fds, .str, .frw, .links, .dma, .lease, .freeze, .passwords, .commands, .events, .store] q0 = true) :
    OnlyParts q0 z0 (directCommand code c s) ↔ OnlyParts q0 z0 s := by
  refine OnlyParts.through (ps := [.time, .dev, .regs, .copies, .boot, .fdUp, .ofe, .psy, .lbq, .sensors, .cal, .trims, .fdin, .outs, .mrg, .saf, .fds, .str, .frw, .links, .dma, .lease, .freeze, .passwords, .commands, .events, .store]) ?_ h0
  simp only [directCommand]
  refine (State.arbiter_parts _ _ _ (fun u => ?_) (by decide)).2 (OnlyParts.refl ..)
  simp +decide

end Sys2Proof.Machine
end

