-- ==== Sys2Proof/Laws/ChannelViewParts.lean ====
section
/-!
SUPPORT. What the operations of Machine/ChannelView leave unchanged.
-/
namespace Sys2Proof.Machine

@[simp] theorem State.atSide_parts {q0 : List Part} {z0 : State} (s : State) (side : EvalSide) (f : (full : Bool) → (t : Nat) → Channel → Channel)
    (h0 : within [.regs, .copies, .outs, .saf, .fds, .frw, .events, .store] q0 = true) :
    OnlyParts q0 z0 (State.atSide s side f) ↔ OnlyParts q0 z0 s := by
  refine OnlyParts.through (ps := [.regs, .copies, .outs, .saf, .fds, .frw, .events, .store]) ?_ h0
  simp only [State.atSide]
  (repeat' split) <;> simp +decide

@[simp] theorem legacyDiscrepancy_parts {q0 : List Part} {z0 : State} (side : EvalSide) (lh : Nat) (s : State)
    (h0 : within [.regs, .copies, .outs, .saf, .fds, .frw, .events, .store] q0 = true) :
    OnlyParts q0 z0 (legacyDiscrepancy side lh s) ↔ OnlyParts q0 z0 s := by
  refine OnlyParts.through (ps := [.regs, .copies, .outs, .saf, .fds, .frw, .events, .store]) ?_ h0
  simp +decide [legacyDiscrepancy]

@[simp] theorem headUnresolved_parts {q0 : List Part} {z0 : State} (side : EvalSide) (cp : Nat) (s : State)
    (h0 : within [.regs, .copies, .outs, .saf, .fds, .frw, .events, .store] q0 = true) :
    OnlyParts q0 z0 (headUnresolved side cp s) ↔ OnlyParts q0 z0 s := by
  refine OnlyParts.through (ps := [.regs, .copies, .outs, .saf, .fds, .frw, .events, .store]) ?_ h0
  simp +decide [headUnresolved]

@[simp] theorem fusedDisagree_parts {q0 : List Part} {z0 : State} (side : EvalSide) (cp : Nat) (s : State)
    (h0 : within [.regs, .copies, .outs, .saf, .fds, .frw, .events, .store] q0 = true) :
    OnlyParts q0 z0 (fusedDisagree side cp s) ↔ OnlyParts q0 z0 s := by
  refine OnlyParts.through (ps := [.regs, .copies, .outs, .saf, .fds, .frw, .events, .store]) ?_ h0
  simp +decide [fusedDisagree]

@[simp] theorem headBackInService_parts {q0 : List Part} {z0 : State} (side : EvalSide) (cp : Nat) (s : State)
    (h0 : within [.regs, .copies, .outs, .saf, .fds, .frw, .events, .store] q0 = true) :
    OnlyParts q0 z0 (headBackInService side cp s) ↔ OnlyParts q0 z0 s := by
  refine OnlyParts.through (ps := [.regs, .copies, .outs, .saf, .fds, .frw, .events, .store]) ?_ h0
  simp +decide [headBackInService]

@[simp] theorem directResetTimeout_parts {q0 : List Part} {z0 : State} (sec : Nat) (s : State)
    (h0 : within [.regs, .copies, .outs, .saf, .fds, .frw, .events, .store] q0 = true) :
    OnlyParts q0 z0 (directResetTimeout sec s) ↔ OnlyParts q0 z0 s := by
  refine OnlyParts.through (ps := [.regs, .copies, .outs, .saf, .fds, .frw, .events, .store]) ?_ h0
  simp +decide [directResetTimeout]

end Sys2Proof.Machine
end

