-- ==== Sys2Proof/Laws/PanelParts.lean ====
section
/-!
SUPPORT. What the operations of Machine/Panel leave unchanged.
-/
namespace Sys2Proof.Machine

@[simp] theorem State.setPanel_parts {q0 : List Part} {z0 : State} (s : State) (f : Panel → Panel) (h0 : within [.panel] q0 = true) :
    OnlyParts q0 z0 (State.setPanel s f) ↔ OnlyParts q0 z0 s := by
  refine OnlyParts.through (ps := [.panel]) ?_ h0
  exact ⟨fun p hp => by cases p <;> first | exact absurd (by decide) hp | simp [Part.same]⟩

@[simp] theorem panelFrameStart_parts {q0 : List Part} {z0 : State} (s : State) (h0 : within [.panel] q0 = true) :
    OnlyParts q0 z0 (panelFrameStart s) ↔ OnlyParts q0 z0 s := by
  refine OnlyParts.through (ps := [.panel]) ?_ h0
  simp +decide [panelFrameStart]

@[simp] theorem State.ledTest_parts {q0 : List Part} {z0 : State} (s : State) (r : Nat) (c : Nat) (pass : Bool)
    (h0 : within [.regs, .copies, .panel, .events] q0 = true) :
    OnlyParts q0 z0 (State.ledTest s r c pass) ↔ OnlyParts q0 z0 s := by
  refine OnlyParts.through (ps := [.regs, .copies, .panel, .events]) ?_ h0
  simp +decide [State.ledTest]

@[simp] theorem panelRowSlot_parts {q0 : List Part} {z0 : State} (sense : Bool) (s : State)
    (h0 : within [.regs, .copies, .panel, .events] q0 = true) :
    OnlyParts q0 z0 (panelRowSlot sense s) ↔ OnlyParts q0 z0 s := by
  refine OnlyParts.through (ps := [.regs, .copies, .panel, .events]) ?_ h0
  simp only [panelRowSlot]
  (repeat' split) <;> simp +decide

@[simp] theorem panelNtcRead_parts {q0 : List Part} {z0 : State} (v : Nat) (s : State)
    (h0 : within [.regs, .copies, .panel, .events] q0 = true) :
    OnlyParts q0 z0 (panelNtcRead v s) ↔ OnlyParts q0 z0 s := by
  refine OnlyParts.through (ps := [.regs, .copies, .panel, .events]) ?_ h0
  simp +decide [panelNtcRead]

@[simp] theorem chainFrame_parts {q0 : List Part} {z0 : State} (s : State) (h0 : within [.panel, .sent] q0 = true) :
    OnlyParts q0 z0 (chainFrame s) ↔ OnlyParts q0 z0 s := by
  refine OnlyParts.through (ps := [.panel, .sent]) ?_ h0
  simp +decide [chainFrame]

@[simp] theorem pnlWrite_parts {q0 : List Part} {z0 : State} (s : State) (o : Nat) (v : Word) (h0 : within [.regs, .panel] q0 = true) :
    OnlyParts q0 z0 (pnlWrite s o v) ↔ OnlyParts q0 z0 s := by
  refine OnlyParts.through (ps := [.regs, .panel]) ?_ h0
  simp only [pnlWrite]
  (repeat' split) <;> simp +decide

end Sys2Proof.Machine
end

