-- ==== Sys2Proof/Laws/BoundaryParts.lean ====
section
/-!
SUPPORT. What the operations of Machine/Boundary leave unchanged.
-/
namespace Sys2Proof.Machine

@[simp] theorem State.frwTrack_parts {q0 : List Part} {z0 : State} (s : State) (b : List Byte) (was : SeqState)
    (h0 : within [.frw] q0 = true) :
    OnlyParts q0 z0 (State.frwTrack s b was) ↔ OnlyParts q0 z0 s := by
  refine OnlyParts.through (ps := [.frw]) ?_ h0
  simp +decide [State.frwTrack]

@[simp] theorem State.procItem_parts {q0 : List Part} {z0 : State} (s : State) (i : ProcItem)
    (h0 : within [.regs, .copies, .saf, .frw, .events, .store] q0 = true) :
    OnlyParts q0 z0 (State.procItem s i) ↔ OnlyParts q0 z0 s := by
  refine OnlyParts.through (ps := [.regs, .copies, .saf, .frw, .events, .store]) ?_ h0
  simp only [State.procItem]
  (repeat' split) <;> simp +decide

@[simp] theorem State.procEvents_parts {q0 : List Part} {z0 : State} (s : State)
    (h0 : within [.regs, .copies, .mrg, .saf, .frw, .events, .store] q0 = true) :
    OnlyParts q0 z0 (State.procEvents s) ↔ OnlyParts q0 z0 s := by
  refine OnlyParts.through (ps := [.regs, .copies, .mrg, .saf, .frw, .events, .store]) ?_ h0
  simp +decide [State.procEvents]

@[simp] theorem State.pairsSwap_parts {q0 : List Part} {z0 : State} (s : State) (h0 : within [.saf] q0 = true) :
    OnlyParts q0 z0 (State.pairsSwap s) ↔ OnlyParts q0 z0 s := by
  refine OnlyParts.through (ps := [.saf]) ?_ h0
  simp +decide [State.pairsSwap]

@[simp] theorem State.pairJoins_parts {q0 : List Part} {z0 : State} (s : State) (b : Bool)
    (h0 : within [.dev, .regs, .copies, .outs, .saf, .fds, .frw, .events, .store] q0 = true) :
    OnlyParts q0 z0 (State.pairJoins s b) ↔ OnlyParts q0 z0 s := by
  refine OnlyParts.through (ps := [.dev, .regs, .copies, .outs, .saf, .fds, .frw, .events, .store]) ?_ h0
  simp +decide [State.pairJoins]

theorem fenceOne_parts (x : State × List QueuedCmd) (q : QueuedCmd) :
    OnlyParts [.time, .dev, .regs, .copies, .boot, .fdUp, .ofe, .psy, .lbq, .sensors, .cal, .trims, .fdin, .outs, .mrg, .saf, .fds, .str, .frw, .links, .dma, .lease, .freeze, .passwords, .commands, .events, .store] x.1 (fenceOne x q).1 := by
  simp +decide [fenceOne]

theorem foldl_fenceOne_parts (l : List QueuedCmd) (x : State × List QueuedCmd) :
    OnlyParts [.time, .dev, .regs, .copies, .boot, .fdUp, .ofe, .psy, .lbq, .sensors, .cal, .trims, .fdin, .outs, .mrg, .saf, .fds, .str, .frw, .links, .dma, .lease, .freeze, .passwords, .commands, .events, .store] x.1
      (l.foldl fenceOne x).1 := by
  induction l generalizing x with
  | nil => exact OnlyParts.refl ..
  | cons q l ih => exact (fenceOne_parts x q).trans (ih _)

@[simp] theorem State.fence_parts {q0 : List Part} {z0 : State} (s : State)
    (h0 : within [.time, .dev, .regs, .copies, .boot, .fdUp, .ofe, .psy, .lbq, .sensors, .cal, .trims, .fdin, .outs, .mrg, .saf, .fds, .str, .frw, .links, .dma, .lease, .freeze, .passwords, .commands, .events, .store] q0 = true) :
    OnlyParts q0 z0 (State.fence s).1 ↔ OnlyParts q0 z0 s := by
  refine OnlyParts.through (ps := [.time, .dev, .regs, .copies, .boot, .fdUp, .ofe, .psy, .lbq, .sensors, .cal, .trims, .fdin, .outs, .mrg, .saf, .fds, .str, .frw, .links, .dma, .lease, .freeze, .passwords, .commands, .events, .store]) ?_ h0
  refine OnlyParts.trans (t := { s with queue := [] }) (by simp +decide) ?_
  exact (foldl_fenceOne_parts s.queue ({ s with queue := [] }, [])).mono (by decide)

@[simp] theorem State.cycleNext_parts {q0 : List Part} {z0 : State} (s : State) (t : Nat) (h0 : within [.saf] q0 = true) :
    OnlyParts q0 z0 (State.cycleNext s t) ↔ OnlyParts q0 z0 s := by
  refine OnlyParts.through (ps := [.saf]) ?_ h0
  simp +decide [State.cycleNext]

@[simp] theorem State.cycleClose_parts {q0 : List Part} {z0 : State} (s : State) (hz : Nat) (cmds : List QueuedCmd)
    (h0 : within [.regs, .copies, .outs, .mrg, .saf, .fds, .frw, .events, .store] q0 = true) :
    OnlyParts q0 z0 (State.cycleClose s hz cmds) ↔ OnlyParts q0 z0 s := by
  refine OnlyParts.through (ps := [.regs, .copies, .outs, .mrg, .saf, .fds, .frw, .events, .store]) ?_ h0
  simp +decide [State.cycleClose]

@[simp] theorem cycleBoundary_parts {q0 : List Part} {z0 : State} (s : State)
    (h0 : within [.time, .dev, .regs, .copies, .boot, .fdUp, .ofe, .psy, .dmd, .lbq, .sensors, .cal, .trims, .fdin, .outs, .mrg, .saf, .fds, .str, .acw, .frw, .links, .dma, .lease, .freeze, .passwords, .commands, .events, .snaps, .store] q0 = true) :
    OnlyParts q0 z0 (cycleBoundary s) ↔ OnlyParts q0 z0 s := by
  refine OnlyParts.through (ps := [.time, .dev, .regs, .copies, .boot, .fdUp, .ofe, .psy, .dmd, .lbq, .sensors, .cal, .trims, .fdin, .outs, .mrg, .saf, .fds, .str, .acw, .frw, .links, .dma, .lease, .freeze, .passwords, .commands, .events, .snaps, .store]) ?_ h0
  simp +decide [cycleBoundary]

end Sys2Proof.Machine
end

