-- ==== Sys2Proof/Laws/BusParts.lean ====
section
/-!
SUPPORT. What the operations of Machine/Bus leave unchanged.
-/
namespace Sys2Proof.Machine

@[simp] theorem State.offend_parts {q0 : List Part} {z0 : State} (s : State) (m : Master) (cause : FreezeCause) (a : Nat)
    (h0 : within [.regs, .copies, .outs, .saf, .fds, .str, .frw, .links, .dma, .lease, .freeze, .commands, .events, .store] q0 = true) :
    OnlyParts q0 z0 (State.offend s m cause a) ↔ OnlyParts q0 z0 s := by
  refine OnlyParts.through (ps := [.regs, .copies, .outs, .saf, .fds, .str, .frw, .links, .dma, .lease, .freeze, .commands, .events, .store]) ?_ h0
  simp +decide [State.offend]

@[simp] theorem State.setCopy_parts {q0 : List Part} {z0 : State} (s : State) (m : Master) (own : Bool) (a : Nat) (v : Word)
    (h0 : within [.regs, .copies] q0 = true) :
    OnlyParts q0 z0 (State.setCopy s m own a v) ↔ OnlyParts q0 z0 s := by
  refine OnlyParts.through (ps := [.regs, .copies]) ?_ h0
  simp +decide [State.setCopy]

theorem State.latchRead_parts {s : State} {m : Master} {b : Block} {n o : Nat} {t : State × Word}
    (h : s.latchRead m b n o = some t) : OnlyParts [.regs, .copies, .events, .store] s t.1 := by
  simp only [State.latchRead] at h
  (repeat' split at h) <;> simp at h <;> subst h <;> simp +decide

@[simp] theorem State.readClear_parts {q0 : List Part} {z0 : State} (s : State) (a : Nat) (b : Block) (o : Nat) (row : RegRow)
    (h0 : within [.regs, .cvu] q0 = true) :
    OnlyParts q0 z0 (State.readClear s a b o row) ↔ OnlyParts q0 z0 s := by
  refine OnlyParts.through (ps := [.regs, .cvu]) ?_ h0
  simp +decide [State.readClear]

@[simp] theorem State.regRead_parts {q0 : List Part} {z0 : State} (s : State) (m : Master) (a : Nat) (b : Block) (n : Nat) (o : Nat) (row : RegRow)
    (h0 : within [.regs, .copies, .cvu, .events, .store] q0 = true) :
    OnlyParts q0 z0 (State.regRead s m a b n o row).1 ↔ OnlyParts q0 z0 s := by
  refine OnlyParts.through (ps := [.regs, .copies, .cvu, .events, .store]) ?_ h0
  simp only [State.regRead]
  cases h : s.latchRead m b n o with
  | none => simp +decide
  | some t => exact (State.latchRead_parts h).mono (by decide)

@[simp] theorem State.busRead_parts {q0 : List Part} {z0 : State} (s : State) (m : Master) (a : Nat)
    (h0 : within [.regs, .copies, .outs, .saf, .fds, .str, .frw, .links, .dma, .cvu, .lease, .freeze, .commands, .events, .store] q0 = true) :
    OnlyParts q0 z0 (State.busRead s m a).1 ↔ OnlyParts q0 z0 s := by
  refine OnlyParts.through (ps := [.regs, .copies, .outs, .saf, .fds, .str, .frw, .links, .dma, .cvu, .lease, .freeze, .commands, .events, .store]) ?_ h0
  simp only [State.busRead]
  (repeat' split) <;> simp +decide

@[simp] theorem State.cursorWrite_parts {q0 : List Part} {z0 : State} (s : State) (m : Master) (clg : Bool) (hi : Bool) (v : Word)
    (h0 : within [.store] q0 = true) :
    OnlyParts q0 z0 (State.cursorWrite s m clg hi v) ↔ OnlyParts q0 z0 s := by
  refine OnlyParts.through (ps := [.store]) ?_ h0
  simp +decide [State.cursorWrite]

@[simp] theorem State.pageWrite_parts {q0 : List Part} {z0 : State} (s : State) (v : Word) (h0 : within [.regs] q0 = true) :
    OnlyParts q0 z0 (State.pageWrite s v) ↔ OnlyParts q0 z0 s := by
  refine OnlyParts.through (ps := [.regs]) ?_ h0
  simp +decide [State.pageWrite]

@[simp] theorem State.regWrite_parts {q0 : List Part} {z0 : State} (s : State) (m : Master) (a : Nat) (b : Block) (n : Nat) (o : Nat) (v : Word) (nvOk : Bool)
    (h0 : within [.time, .dev, .regs, .copies, .boot, .ofe, .psy, .dmd, .lbq, .sensors, .cal, .trims, .fdin, .outs, .mrg, .saf, .fds, .str, .tpr, .acw, .frw, .links, .dma, .cvu, .panel, .mem, .lease, .freeze, .commands, .events, .snaps, .store] q0 = true) :
    OnlyParts q0 z0 (State.regWrite s m a b n o v nvOk) ↔ OnlyParts q0 z0 s := by
  refine OnlyParts.through (ps := [.time, .dev, .regs, .copies, .boot, .ofe, .psy, .dmd, .lbq, .sensors, .cal, .trims, .fdin, .outs, .mrg, .saf, .fds, .str, .tpr, .acw, .frw, .links, .dma, .cvu, .panel, .mem, .lease, .freeze, .commands, .events, .snaps, .store]) ?_ h0
  simp only [State.regWrite]
  (repeat' split) <;> simp +decide

@[simp] theorem State.clearWrite_parts {q0 : List Part} {z0 : State} (s : State) (m : Master) (a : Nat) (b : Block) (o : Nat) (v : Word)
    (h0 : within [.regs, .copies, .fdin] q0 = true) :
    OnlyParts q0 z0 (State.clearWrite s m a b o v) ↔ OnlyParts q0 z0 s := by
  refine OnlyParts.through (ps := [.regs, .copies, .fdin]) ?_ h0
  simp +decide [State.clearWrite]

@[simp] theorem State.watchRefuse_parts {q0 : List Part} {z0 : State} (s : State) (m : Master) (a : Nat) (v : Word)
    (h0 : within [.regs, .copies, .events] q0 = true) :
    OnlyParts q0 z0 (State.watchRefuse s m a v) ↔ OnlyParts q0 z0 s := by
  refine OnlyParts.through (ps := [.regs, .copies, .events]) ?_ h0
  simp only [State.watchRefuse]
  (repeat' split) <;> simp +decide

end Sys2Proof.Machine
end

