-- ==== Sys2Proof/Laws/DmaRunParts.lean ====
section
/-!
SUPPORT. What the operations of Machine/DmaRun leave unchanged.
-/
namespace Sys2Proof.Machine

@[simp] theorem State.dmaHalt_parts {q0 : List Part} {z0 : State} (s : State) (e : Nat) (r : DmaRun) (res : Nat)
    (h0 : within [.dma] q0 = true) :
    OnlyParts q0 z0 (State.dmaHalt s e r res) ↔ OnlyParts q0 z0 s := by
  refine OnlyParts.through (ps := [.dma]) ?_ h0
  simp +decide [State.dmaHalt]

@[simp] theorem State.dmaExhausted_parts {q0 : List Part} {z0 : State} (s : State) (e : Nat) (r : DmaRun)
    (h0 : within [.regs, .copies, .dma, .events] q0 = true) :
    OnlyParts q0 z0 (State.dmaExhausted s e r) ↔ OnlyParts q0 z0 s := by
  refine OnlyParts.through (ps := [.regs, .copies, .dma, .events]) ?_ h0
  simp only [State.dmaExhausted]
  (repeat' split) <;> simp +decide

@[simp] theorem State.dmaFail_parts {q0 : List Part} {z0 : State} (s : State) (e : Nat) (r : DmaRun)
    (h0 : within [.regs, .copies, .dma, .events] q0 = true) :
    OnlyParts q0 z0 (State.dmaFail s e r) ↔ OnlyParts q0 z0 s := by
  refine OnlyParts.through (ps := [.regs, .copies, .dma, .events]) ?_ h0
  simp +decide [State.dmaFail]

@[simp] theorem State.dmaInsFetched_parts {q0 : List Part} {z0 : State} (s : State) (e : Nat) (r : DmaRun) (b : List Byte)
    (h0 : within [.dma] q0 = true) :
    OnlyParts q0 z0 (State.dmaInsFetched s e r b) ↔ OnlyParts q0 z0 s := by
  refine OnlyParts.through (ps := [.dma]) ?_ h0
  simp +decide [State.dmaInsFetched]

@[simp] theorem dmaLoop_parts {q0 : List Part} {z0 : State} (e : Nat) (s : State) (h0 : within [.dma] q0 = true) :
    OnlyParts q0 z0 (dmaLoop e s) ↔ OnlyParts q0 z0 s := by
  refine OnlyParts.through (ps := [.dma]) ?_ h0
  simp only [dmaLoop]
  (repeat' split) <;> simp +decide

@[simp] theorem dmaWait_parts {q0 : List Part} {z0 : State} (e : Nat) (s : State) (h0 : within [.dma] q0 = true) :
    OnlyParts q0 z0 (dmaWait e s) ↔ OnlyParts q0 z0 s := by
  refine OnlyParts.through (ps := [.dma]) ?_ h0
  simp only [dmaWait]
  (repeat' split) <;> simp +decide

@[simp] theorem dmaWaitSatisfied_parts {q0 : List Part} {z0 : State} (e : Nat) (s : State) (h0 : within [.dma] q0 = true) :
    OnlyParts q0 z0 (dmaWaitSatisfied e s) ↔ OnlyParts q0 z0 s := by
  refine OnlyParts.through (ps := [.dma]) ?_ h0
  simp only [dmaWaitSatisfied]
  (repeat' split) <;> simp +decide

@[simp] theorem dmaWaitTimeout_parts {q0 : List Part} {z0 : State} (e : Nat) (s : State) (h0 : within [.dma] q0 = true) :
    OnlyParts q0 z0 (dmaWaitTimeout e s) ↔ OnlyParts q0 z0 s := by
  refine OnlyParts.through (ps := [.dma]) ?_ h0
  simp only [dmaWaitTimeout]
  (repeat' split) <;> simp +decide

@[simp] theorem dmaSignal_parts {q0 : List Part} {z0 : State} (e : Nat) (s : State)
    (h0 : within [.regs, .copies, .dma, .events] q0 = true) :
    OnlyParts q0 z0 (dmaSignal e s) ↔ OnlyParts q0 z0 s := by
  refine OnlyParts.through (ps := [.regs, .copies, .dma, .events]) ?_ h0
  simp only [dmaSignal]
  (repeat' split) <;> simp +decide

@[simp] theorem dmaBusRetry_parts {q0 : List Part} {z0 : State} (e : Nat) (ok : Bool) (s : State)
    (h0 : within [.regs, .copies, .dma, .events] q0 = true) :
    OnlyParts q0 z0 (dmaBusRetry e ok s) ↔ OnlyParts q0 z0 s := by
  refine OnlyParts.through (ps := [.regs, .copies, .dma, .events]) ?_ h0
  simp only [dmaBusRetry]
  (repeat' split) <;> simp +decide

end Sys2Proof.Machine
end

