-- ==== Sys2Proof/Laws/AccessParts.lean ====
section
/-!
SUPPORT. What the operations of Machine/Access leave unchanged.
-/
namespace Sys2Proof.Machine

@[simp] theorem State.readWord_parts {q0 : List Part} {z0 : State} (s : State) (m : Master) (a : Nat)
    (h0 : within [.regs, .copies, .outs, .saf, .fds, .str, .frw, .links, .dma, .cvu, .lease, .freeze, .commands, .events, .sent, .store] q0 = true) :
    OnlyParts q0 z0 (State.readWord s m a) ↔ OnlyParts q0 z0 s := by
  refine OnlyParts.through (ps := [.regs, .copies, .outs, .saf, .fds, .str, .frw, .links, .dma, .cvu, .lease, .freeze, .commands, .events, .sent, .store]) ?_ h0
  simp +decide [State.readWord]

@[simp] theorem spiRead_parts {q0 : List Part} {z0 : State} (off : Nat) (s : State)
    (h0 : within [.regs, .copies, .outs, .saf, .fds, .str, .frw, .links, .dma, .cvu, .lease, .freeze, .commands, .events, .sent, .store] q0 = true) :
    OnlyParts q0 z0 (spiRead off s) ↔ OnlyParts q0 z0 s := by
  refine OnlyParts.through (ps := [.regs, .copies, .outs, .saf, .fds, .str, .frw, .links, .dma, .cvu, .lease, .freeze, .commands, .events, .sent, .store]) ?_ h0
  simp +decide [spiRead]

@[simp] theorem hubCoreAccess_parts {q0 : List Part} {z0 : State} (c : Nat) (a : Nat) (s : State)
    (h0 : within [.regs, .copies, .outs, .saf, .fds, .str, .frw, .links, .dma, .lease, .freeze, .commands, .events, .store] q0 = true) :
    OnlyParts q0 z0 (hubCoreAccess c a s) ↔ OnlyParts q0 z0 s := by
  refine OnlyParts.through (ps := [.regs, .copies, .outs, .saf, .fds, .str, .frw, .links, .dma, .lease, .freeze, .commands, .events, .store]) ?_ h0
  simp +decide [hubCoreAccess]

end Sys2Proof.Machine
end

