-- ==== Sys2Proof/Laws/Registers.lean ====
section
/-!
SUPPORT. Sparse tables, registers and copies under the shared operations, and what Changes passes through.
-/
namespace Sys2Proof.Machine

/-! ### Sparse tables -/

@[simp] theorem tfind_tset_same {α : Type} (t : Table α) (k : Nat) (a : α) : tfind (tset t k a) k = some a := by
  induction t with
  | nil => simp [tset, tfind]
  | cons h t ih =>
    obtain ⟨j, b⟩ := h
    simp only [tset]
    split
    · simp [tfind]
    · split
      · simp [tfind]
      · rename_i h1 h2
        simp [tfind, ih, Ne.symm h2]

theorem tfind_tset_other {α : Type} (t : Table α) {k l : Nat} (a : α) (h : l ≠ k) : tfind (tset t k a) l = tfind t l := by
  induction t with
  | nil => simp [tset, tfind, Ne.symm h]
  | cons x t ih =>
    obtain ⟨j, b⟩ := x
    simp only [tset]
    split
    · simp [tfind, Ne.symm h]
    · split
      · rename_i h1 h2
        subst h2
        simp [tfind, Ne.symm h]
      · simp only [tfind, ih]

@[simp] theorem tget_tset_same {α : Type} (t : Table α) (d : α) (k : Nat) (a : α) : tget (tset t k a) d k = a := by simp [tget]

theorem tget_tset_other {α : Type} (t : Table α) (d : α) {k l : Nat} (a : α) (h : l ≠ k) : tget (tset t k a) d l = tget t d l := by
  simp [tget, tfind_tset_other t a h]

/-! ### Registers -/

theorem State.reg_setReg (s : State) (a b : Nat) (v : Word) : (s.setReg a v).reg b = if b = a then v else s.reg b := by
  split
  · subst b; simp [State.reg]
  · rename_i h; simp [State.reg, tfind_tset_other _ _ h]

@[simp] theorem State.reg_setReg_same (s : State) (a : Nat) (v : Word) : (s.setReg a v).reg a = v := by simp [State.reg_setReg]

theorem State.mreg_setMreg_same (s : State) (m : Master) (a : Nat) (v : Word) : (s.setMreg m a v).mreg m a = v := by simp [State.mreg]

@[simp] theorem State.reg_setMreg (s : State) (m : Master) (a : Nat) (v : Word) (kq : Nat) : (s.setMreg m a v).reg kq = s.reg kq := rfl
@[simp] theorem State.reg_send (s : State) (o : Sent) (kq : Nat) : (s.send o).reg kq = s.reg kq := rfl
@[simp] theorem State.reg_setBoot (s : State) (f : Boot → Boot) (kq : Nat) : (s.setBoot f).reg kq = s.reg kq := rfl
@[simp] theorem State.reg_setTc (s : State) (f : TownClock → TownClock) (kq : Nat) : (s.setTc f).reg kq = s.reg kq := rfl
@[simp] theorem State.reg_setPort (s : State) (d : Nat) (o : Ofe) (kq : Nat) : (s.setPort d o).reg kq = s.reg kq := rfl
@[simp] theorem State.reg_setProbe (s : State) (d : Nat) (p : Psy) (kq : Nat) : (s.setProbe d p).reg kq = s.reg kq := rfl
@[simp] theorem State.reg_setDemod (s : State) (d : Nat) (m : Demod) (kq : Nat) : (s.setDemod d m).reg kq = s.reg kq := rfl
@[simp] theorem State.reg_setDie (s : State) (d : Nat) (l : DieLbq) (kq : Nat) : (s.setDie d l).reg kq = s.reg kq := rfl
@[simp] theorem State.reg_setSensor (s : State) (d e : Nat) (x : Sensor) (kq : Nat) : (s.setSensor d e x).reg kq = s.reg kq := rfl
@[simp] theorem State.reg_setCalPort (s : State) (d : Nat) (c : CalPort) (kq : Nat) : (s.setCalPort d c).reg kq = s.reg kq := rfl
@[simp] theorem State.reg_setFdin (s : State) (f : FieldInputs → FieldInputs) (kq : Nat) : (s.setFdin f).reg kq = s.reg kq := rfl
@[simp] theorem State.reg_setOuts (s : State) (f : Outputs → Outputs) (kq : Nat) : (s.setOuts f).reg kq = s.reg kq := rfl
@[simp] theorem State.reg_setMrg (s : State) (f : Merge → Merge) (kq : Nat) : (s.setMrg f).reg kq = s.reg kq := rfl
@[simp] theorem State.reg_setSaf (s : State) (f : Saf → Saf) (kq : Nat) : (s.setSaf f).reg kq = s.reg kq := rfl
@[simp] theorem State.reg_setFds (s : State) (f : FdSafe → FdSafe) (kq : Nat) : (s.setFds f).reg kq = s.reg kq := rfl
@[simp] theorem State.reg_setStr (s : State) (f : Str → Str) (kq : Nat) : (s.setStr f).reg kq = s.reg kq := rfl
@[simp] theorem State.reg_setTpr (s : State) (p : Nat) (x : TprPort) (kq : Nat) : (s.setTpr p x).reg kq = s.reg kq := rfl
@[simp] theorem State.reg_setAcw (s : State) (w : Nat) (r : AcwRun) (kq : Nat) : (s.setAcw w r).reg kq = s.reg kq := rfl
@[simp] theorem State.reg_setFrw (s : State) (f : Frw → Frw) (kq : Nat) : (s.setFrw f).reg kq = s.reg kq := rfl
@[simp] theorem State.reg_setLinks (s : State) (f : Links → Links) (kq : Nat) : (s.setLinks f).reg kq = s.reg kq := rfl
@[simp] theorem State.reg_setEng (s : State) (e : Nat) (g : DmaEng) (kq : Nat) : (s.setEng e g).reg kq = s.reg kq := rfl
@[simp] theorem State.reg_setCvUnit (s : State) (u : Nat) (c : Cvu) (kq : Nat) : (s.setCvUnit u c).reg kq = s.reg kq := rfl
@[simp] theorem State.reg_setPanel (s : State) (f : Panel → Panel) (kq : Nat) : (s.setPanel f).reg kq = s.reg kq := rfl
@[simp] theorem State.reg_modDomCmds (s : State) (d : Nat) (f : DomainCmds → DomainCmds) (kq : Nat) : (s.modDomCmds d f).reg kq = s.reg kq := rfl
@[simp] theorem State.reg_setJCursor (s : State) (m : Master) (c : LogCursor) (kq : Nat) : (s.setJCursor m c).reg kq = s.reg kq := rfl
@[simp] theorem State.reg_setCCursor (s : State) (m : Master) (c : LogCursor) (kq : Nat) : (s.setCCursor m c).reg kq = s.reg kq := rfl

@[simp] theorem State.mreg_setReg (s : State) (a : Nat) (v : Word) (mq : Master) (kq : Nat) : (s.setReg a v).mreg mq kq = s.mreg mq kq := rfl
@[simp] theorem State.mreg_send (s : State) (o : Sent) (mq : Master) (kq : Nat) : (s.send o).mreg mq kq = s.mreg mq kq := rfl
@[simp] theorem State.mreg_setBoot (s : State) (f : Boot → Boot) (mq : Master) (kq : Nat) : (s.setBoot f).mreg mq kq = s.mreg mq kq := rfl
@[simp] theorem State.mreg_setTc (s : State) (f : TownClock → TownClock) (mq : Master) (kq : Nat) : (s.setTc f).mreg mq kq = s.mreg mq kq := rfl
@[simp] theorem State.mreg_setPort (s : State) (d : Nat) (o : Ofe) (mq : Master) (kq : Nat) : (s.setPort d o).mreg mq kq = s.mreg mq kq := rfl
@[simp] theorem State.mreg_setProbe (s : State) (d : Nat) (p : Psy) (mq : Master) (kq : Nat) : (s.setProbe d p).mreg mq kq = s.mreg mq kq := rfl
@[simp] theorem State.mreg_setDemod (s : State) (d : Nat) (m : Demod) (mq : Master) (kq : Nat) : (s.setDemod d m).mreg mq kq = s.mreg mq kq := rfl
@[simp] theorem State.mreg_setDie (s : State) (d : Nat) (l : DieLbq) (mq : Master) (kq : Nat) : (s.setDie d l).mreg mq kq = s.mreg mq kq := rfl
@[simp] theorem State.mreg_setSensor (s : State) (d e : Nat) (x : Sensor) (mq : Master) (kq : Nat) : (s.setSensor d e x).mreg mq kq = s.mreg mq kq := rfl
@[simp] theorem State.mreg_setCalPort (s : State) (d : Nat) (c : CalPort) (mq : Master) (kq : Nat) : (s.setCalPort d c).mreg mq kq = s.mreg mq kq := rfl
@[simp] theorem State.mreg_setFdin (s : State) (f : FieldInputs → FieldInputs) (mq : Master) (kq : Nat) : (s.setFdin f).mreg mq kq = s.mreg mq kq := rfl
@[simp] theorem State.mreg_setOuts (s : State) (f : Outputs → Outputs) (mq : Master) (kq : Nat) : (s.setOuts f).mreg mq kq = s.mreg mq kq := rfl
@[simp] theorem State.mreg_setMrg (s : State) (f : Merge → Merge) (mq : Master) (kq : Nat) : (s.setMrg f).mreg mq kq = s.mreg mq kq := rfl
@[simp] theorem State.mreg_setSaf (s : State) (f : Saf → Saf) (mq : Master) (kq : Nat) : (s.setSaf f).mreg mq kq = s.mreg mq kq := rfl
@[simp] theorem State.mreg_setFds (s : State) (f : FdSafe → FdSafe) (mq : Master) (kq : Nat) : (s.setFds f).mreg mq kq = s.mreg mq kq := rfl
@[simp] theorem State.mreg_setStr (s : State) (f : Str → Str) (mq : Master) (kq : Nat) : (s.setStr f).mreg mq kq = s.mreg mq kq := rfl
@[simp] theorem State.mreg_setTpr (s : State) (p : Nat) (x : TprPort) (mq : Master) (kq : Nat) : (s.setTpr p x).mreg mq kq = s.mreg mq kq := rfl
@[simp] theorem State.mreg_setAcw (s : State) (w : Nat) (r : AcwRun) (mq : Master) (kq : Nat) : (s.setAcw w r).mreg mq kq = s.mreg mq kq := rfl
@[simp] theorem State.mreg_setFrw (s : State) (f : Frw → Frw) (mq : Master) (kq : Nat) : (s.setFrw f).mreg mq kq = s.mreg mq kq := rfl
@[simp] theorem State.mreg_setLinks (s : State) (f : Links → Links) (mq : Master) (kq : Nat) : (s.setLinks f).mreg mq kq = s.mreg mq kq := rfl
@[simp] theorem State.mreg_setEng (s : State) (e : Nat) (g : DmaEng) (mq : Master) (kq : Nat) : (s.setEng e g).mreg mq kq = s.mreg mq kq := rfl
@[simp] theorem State.mreg_setCvUnit (s : State) (u : Nat) (c : Cvu) (mq : Master) (kq : Nat) : (s.setCvUnit u c).mreg mq kq = s.mreg mq kq := rfl
@[simp] theorem State.mreg_setPanel (s : State) (f : Panel → Panel) (mq : Master) (kq : Nat) : (s.setPanel f).mreg mq kq = s.mreg mq kq := rfl
@[simp] theorem State.mreg_modDomCmds (s : State) (d : Nat) (f : DomainCmds → DomainCmds) (mq : Master) (kq : Nat) : (s.modDomCmds d f).mreg mq kq = s.mreg mq kq := rfl
@[simp] theorem State.mreg_setJCursor (s : State) (m : Master) (c : LogCursor) (mq : Master) (kq : Nat) : (s.setJCursor m c).mreg mq kq = s.mreg mq kq := rfl
@[simp] theorem State.mreg_setCCursor (s : State) (m : Master) (c : LogCursor) (mq : Master) (kq : Nat) : (s.setCCursor m c).mreg mq kq = s.mreg mq kq := rfl

@[simp] theorem State.reg_raiseTo (s : State) (src : Nat) (data : Word) (d k : Nat) : (State.raiseTo src data s d).reg k = s.reg k := by
  have h := ((State.raiseTo_parts src data s d (q0 := [.copies, .events]) (z0 := s) (by decide)).2 (OnlyParts.refl ..)).same .regs (by decide)
  simp only [Part.same] at h
  simp [State.reg, h]

@[simp] theorem State.reg_raise (s : State) (src : Nat) (data : Word) (k : Nat) : (s.raise src data).reg k = s.reg k := by
  have h := ((State.raise_parts s src data (q0 := [.copies, .events]) (z0 := s) (by decide)).2 (OnlyParts.refl ..)).same .regs (by decide)
  simp only [Part.same] at h
  simp [State.reg, h]

theorem setBit_of_set {w : Word} {i : Nat} (h : bitOf w i = true) : setBit w i = w := by
  simp only [setBit, bitOf] at *
  ext j hj
  simp only [BitVec.getElem_or]
  by_cases hij : (BitVec.ofNat 32 (2 ^ i))[j] = true
  · have h3 : (BitVec.ofNat 32 (2 ^ i)).getLsbD j = true := by simpa [BitVec.getLsbD_eq_getElem hj] using hij
    rw [BitVec.getLsbD_ofNat] at h3
    simp only [Bool.and_eq_true, decide_eq_true_eq] at h3
    have : i = j := by simpa [Nat.testBit_two_pow] using h3.2
    subst this
    simp [← BitVec.getLsbD_eq_getElem hj, h]
  · simp [hij, -BitVec.ofNat_pow]

/-- Setting a bit of an event register sets that bit, keeps its other bits and every other register (R362). -/
theorem State.reg_setEvt (s : State) (a i k : Nat) : (s.setEvt a i).reg k = if k = a then setBit (s.reg a) i else s.reg k := by
  simp only [State.setEvt]
  split
  · rename_i h
    rw [setBit_of_set h]
    split
    · subst k; rfl
    · rfl
  · split <;> simp [State.reg_setReg]

theorem bitOf_setBit (w : Word) {i : Nat} (h : i < 32) : bitOf (setBit w i) i = true := by
  simp [bitOf, setBit, BitVec.getLsbD_or, BitVec.getLsbD_ofNat, h, -BitVec.ofNat_pow]

/-! ### raise and the other fields -/

theorem State.raise_only (s : State) (src : Nat) (data : Word) : OnlyParts [.copies, .events] s (s.raise src data) :=
  (State.raise_parts s src data (by decide)).2 (OnlyParts.refl ..)

@[simp] theorem State.raise_pending (s : State) (src : Nat) (data : Word) : (s.raise src data).pending = s.pending := ((s.raise_only src data).same .pending (by decide))
@[simp] theorem State.raise_now (s : State) (src : Nat) (data : Word) : (s.raise src data).now = s.now := ((s.raise_only src data).same .time (by decide)).1
@[simp] theorem State.raise_dev (s : State) (src : Nat) (data : Word) : (s.raise src data).dev = s.dev := ((s.raise_only src data).same .dev (by decide))
@[simp] theorem State.raise_tc (s : State) (src : Nat) (data : Word) : (s.raise src data).tc = s.tc := ((s.raise_only src data).same .time (by decide)).2
@[simp] theorem State.raise_regs (s : State) (src : Nat) (data : Word) : (s.raise src data).regs = s.regs := ((s.raise_only src data).same .regs (by decide))
@[simp] theorem State.raise_boot (s : State) (src : Nat) (data : Word) : (s.raise src data).boot = s.boot := ((s.raise_only src data).same .boot (by decide))
@[simp] theorem State.raise_fdUp (s : State) (src : Nat) (data : Word) : (s.raise src data).fdUp = s.fdUp := ((s.raise_only src data).same .fdUp (by decide))
@[simp] theorem State.raise_ofe (s : State) (src : Nat) (data : Word) : (s.raise src data).ofe = s.ofe := ((s.raise_only src data).same .ofe (by decide))
@[simp] theorem State.raise_psy (s : State) (src : Nat) (data : Word) : (s.raise src data).psy = s.psy := ((s.raise_only src data).same .psy (by decide))
@[simp] theorem State.raise_dmd (s : State) (src : Nat) (data : Word) : (s.raise src data).dmd = s.dmd := ((s.raise_only src data).same .dmd (by decide))
@[simp] theorem State.raise_lbq (s : State) (src : Nat) (data : Word) : (s.raise src data).lbq = s.lbq := ((s.raise_only src data).same .lbq (by decide))
@[simp] theorem State.raise_sensors (s : State) (src : Nat) (data : Word) : (s.raise src data).sensors = s.sensors := ((s.raise_only src data).same .sensors (by decide))
@[simp] theorem State.raise_cal (s : State) (src : Nat) (data : Word) : (s.raise src data).cal = s.cal := ((s.raise_only src data).same .cal (by decide))
@[simp] theorem State.raise_hbTrims (s : State) (src : Nat) (data : Word) : (s.raise src data).hbTrims = s.hbTrims := ((s.raise_only src data).same .trims (by decide)).1
@[simp] theorem State.raise_trimReports (s : State) (src : Nat) (data : Word) : (s.raise src data).trimReports = s.trimReports := ((s.raise_only src data).same .trims (by decide)).2.1
@[simp] theorem State.raise_trimSince (s : State) (src : Nat) (data : Word) : (s.raise src data).trimSince = s.trimSince := ((s.raise_only src data).same .trims (by decide)).2.2
@[simp] theorem State.raise_fdin (s : State) (src : Nat) (data : Word) : (s.raise src data).fdin = s.fdin := ((s.raise_only src data).same .fdin (by decide))
@[simp] theorem State.raise_outs (s : State) (src : Nat) (data : Word) : (s.raise src data).outs = s.outs := ((s.raise_only src data).same .outs (by decide))
@[simp] theorem State.raise_mrg (s : State) (src : Nat) (data : Word) : (s.raise src data).mrg = s.mrg := ((s.raise_only src data).same .mrg (by decide))
@[simp] theorem State.raise_saf (s : State) (src : Nat) (data : Word) : (s.raise src data).saf = s.saf := ((s.raise_only src data).same .saf (by decide))
@[simp] theorem State.raise_fds (s : State) (src : Nat) (data : Word) : (s.raise src data).fds = s.fds := ((s.raise_only src data).same .fds (by decide))
@[simp] theorem State.raise_str (s : State) (src : Nat) (data : Word) : (s.raise src data).str = s.str := ((s.raise_only src data).same .str (by decide))
@[simp] theorem State.raise_tpr (s : State) (src : Nat) (data : Word) : (s.raise src data).tpr = s.tpr := ((s.raise_only src data).same .tpr (by decide))
@[simp] theorem State.raise_acw (s : State) (src : Nat) (data : Word) : (s.raise src data).acw = s.acw := ((s.raise_only src data).same .acw (by decide)).1
@[simp] theorem State.raise_acwq (s : State) (src : Nat) (data : Word) : (s.raise src data).acwq = s.acwq := ((s.raise_only src data).same .acw (by decide)).2
@[simp] theorem State.raise_frw (s : State) (src : Nat) (data : Word) : (s.raise src data).frw = s.frw := ((s.raise_only src data).same .frw (by decide))
@[simp] theorem State.raise_links (s : State) (src : Nat) (data : Word) : (s.raise src data).links = s.links := ((s.raise_only src data).same .links (by decide))
@[simp] theorem State.raise_dma (s : State) (src : Nat) (data : Word) : (s.raise src data).dma = s.dma := ((s.raise_only src data).same .dma (by decide))
@[simp] theorem State.raise_cvu (s : State) (src : Nat) (data : Word) : (s.raise src data).cvu = s.cvu := ((s.raise_only src data).same .cvu (by decide))
@[simp] theorem State.raise_panel (s : State) (src : Nat) (data : Word) : (s.raise src data).panel = s.panel := ((s.raise_only src data).same .panel (by decide))
@[simp] theorem State.raise_mem (s : State) (src : Nat) (data : Word) : (s.raise src data).mem = s.mem := ((s.raise_only src data).same .mem (by decide))
@[simp] theorem State.raise_lease (s : State) (src : Nat) (data : Word) : (s.raise src data).lease = s.lease := ((s.raise_only src data).same .lease (by decide))
@[simp] theorem State.raise_frozen (s : State) (src : Nat) (data : Word) : (s.raise src data).frozen = s.frozen := ((s.raise_only src data).same .freeze (by decide)).1
@[simp] theorem State.raise_frzRecs (s : State) (src : Nat) (data : Word) : (s.raise src data).frzRecs = s.frzRecs := ((s.raise_only src data).same .freeze (by decide)).2.1
@[simp] theorem State.raise_frzOver (s : State) (src : Nat) (data : Word) : (s.raise src data).frzOver = s.frzOver := ((s.raise_only src data).same .freeze (by decide)).2.2
@[simp] theorem State.raise_maintPwd (s : State) (src : Nat) (data : Word) : (s.raise src data).maintPwd = s.maintPwd := ((s.raise_only src data).same .passwords (by decide)).1
@[simp] theorem State.raise_safetyPwd (s : State) (src : Nat) (data : Word) : (s.raise src data).safetyPwd = s.safetyPwd := ((s.raise_only src data).same .passwords (by decide)).2
@[simp] theorem State.raise_queue (s : State) (src : Nat) (data : Word) : (s.raise src data).queue = s.queue := ((s.raise_only src data).same .commands (by decide)).1
@[simp] theorem State.raise_cmds (s : State) (src : Nat) (data : Word) : (s.raise src data).cmds = s.cmds := ((s.raise_only src data).same .commands (by decide)).2.1
@[simp] theorem State.raise_responses (s : State) (src : Nat) (data : Word) : (s.raise src data).responses = s.responses := ((s.raise_only src data).same .commands (by decide)).2.2
@[simp] theorem State.raise_sent (s : State) (src : Nat) (data : Word) : (s.raise src data).sent = s.sent := ((s.raise_only src data).same .sent (by decide))
@[simp] theorem State.raise_snaps (s : State) (src : Nat) (data : Word) : (s.raise src data).snaps = s.snaps := ((s.raise_only src data).same .snaps (by decide))
@[simp] theorem State.raise_wp (s : State) (src : Nat) (data : Word) : (s.raise src data).wp = s.wp := ((s.raise_only src data).same .store (by decide)).1
@[simp] theorem State.raise_journal (s : State) (src : Nat) (data : Word) : (s.raise src data).journal = s.journal := ((s.raise_only src data).same .store (by decide)).2.1
@[simp] theorem State.raise_jseq (s : State) (src : Nat) (data : Word) : (s.raise src data).jseq = s.jseq := ((s.raise_only src data).same .store (by decide)).2.2.1
@[simp] theorem State.raise_jcur (s : State) (src : Nat) (data : Word) : (s.raise src data).jcur = s.jcur := ((s.raise_only src data).same .store (by decide)).2.2.2.1
@[simp] theorem State.raise_clog (s : State) (src : Nat) (data : Word) : (s.raise src data).clog = s.clog := ((s.raise_only src data).same .store (by decide)).2.2.2.2.1
@[simp] theorem State.raise_clgLast (s : State) (src : Nat) (data : Word) : (s.raise src data).clgLast = s.clgLast := ((s.raise_only src data).same .store (by decide)).2.2.2.2.2.1
@[simp] theorem State.raise_clgFirst (s : State) (src : Nat) (data : Word) : (s.raise src data).clgFirst = s.clgFirst := ((s.raise_only src data).same .store (by decide)).2.2.2.2.2.2.1
@[simp] theorem State.raise_clgAnchor (s : State) (src : Nat) (data : Word) : (s.raise src data).clgAnchor = s.clgAnchor := ((s.raise_only src data).same .store (by decide)).2.2.2.2.2.2.2.1
@[simp] theorem State.raise_clgCur (s : State) (src : Nat) (data : Word) : (s.raise src data).clgCur = s.clgCur := ((s.raise_only src data).same .store (by decide)).2.2.2.2.2.2.2.2.1
@[simp] theorem State.raise_bankA (s : State) (src : Nat) (data : Word) : (s.raise src data).bankA = s.bankA := ((s.raise_only src data).same .store (by decide)).2.2.2.2.2.2.2.2.2.1
@[simp] theorem State.raise_bankB (s : State) (src : Nat) (data : Word) : (s.raise src data).bankB = s.bankB := ((s.raise_only src data).same .store (by decide)).2.2.2.2.2.2.2.2.2.2.1
@[simp] theorem State.raise_bankWriting (s : State) (src : Nat) (data : Word) : (s.raise src data).bankWriting = s.bankWriting := ((s.raise_only src data).same .store (by decide)).2.2.2.2.2.2.2.2.2.2.2.1
@[simp] theorem State.raise_bankWaiting (s : State) (src : Nat) (data : Word) : (s.raise src data).bankWaiting = s.bankWaiting := ((s.raise_only src data).same .store (by decide)).2.2.2.2.2.2.2.2.2.2.2.2.1
@[simp] theorem State.raise_tokensAt (s : State) (src : Nat) (data : Word) : (s.raise src data).tokensAt = s.tokensAt := ((s.raise_only src data).same .store (by decide)).2.2.2.2.2.2.2.2.2.2.2.2.2
@[simp] theorem State.raise_freeCount (s : State) (src : Nat) (data : Word) : (s.raise src data).freeCount = s.freeCount := ((s.raise_only src data).same .free (by decide))

/-! ### setEvt and the other fields -/

theorem State.setEvt_only (s : State) (a i : Nat) : OnlyParts [.regs, .copies, .events] s (s.setEvt a i) :=
  (State.setEvt_parts s a i (by decide)).2 (OnlyParts.refl ..)

@[simp] theorem State.setEvt_pending (s : State) (a i : Nat) : (s.setEvt a i).pending = s.pending := ((s.setEvt_only a i).same .pending (by decide))
@[simp] theorem State.setEvt_now (s : State) (a i : Nat) : (s.setEvt a i).now = s.now := ((s.setEvt_only a i).same .time (by decide)).1
@[simp] theorem State.setEvt_dev (s : State) (a i : Nat) : (s.setEvt a i).dev = s.dev := ((s.setEvt_only a i).same .dev (by decide))
@[simp] theorem State.setEvt_tc (s : State) (a i : Nat) : (s.setEvt a i).tc = s.tc := ((s.setEvt_only a i).same .time (by decide)).2
@[simp] theorem State.setEvt_boot (s : State) (a i : Nat) : (s.setEvt a i).boot = s.boot := ((s.setEvt_only a i).same .boot (by decide))
@[simp] theorem State.setEvt_fdUp (s : State) (a i : Nat) : (s.setEvt a i).fdUp = s.fdUp := ((s.setEvt_only a i).same .fdUp (by decide))
@[simp] theorem State.setEvt_ofe (s : State) (a i : Nat) : (s.setEvt a i).ofe = s.ofe := ((s.setEvt_only a i).same .ofe (by decide))
@[simp] theorem State.setEvt_psy (s : State) (a i : Nat) : (s.setEvt a i).psy = s.psy := ((s.setEvt_only a i).same .psy (by decide))
@[simp] theorem State.setEvt_dmd (s : State) (a i : Nat) : (s.setEvt a i).dmd = s.dmd := ((s.setEvt_only a i).same .dmd (by decide))
@[simp] theorem State.setEvt_lbq (s : State) (a i : Nat) : (s.setEvt a i).lbq = s.lbq := ((s.setEvt_only a i).same .lbq (by decide))
@[simp] theorem State.setEvt_sensors (s : State) (a i : Nat) : (s.setEvt a i).sensors = s.sensors := ((s.setEvt_only a i).same .sensors (by decide))
@[simp] theorem State.setEvt_cal (s : State) (a i : Nat) : (s.setEvt a i).cal = s.cal := ((s.setEvt_only a i).same .cal (by decide))
@[simp] theorem State.setEvt_hbTrims (s : State) (a i : Nat) : (s.setEvt a i).hbTrims = s.hbTrims := ((s.setEvt_only a i).same .trims (by decide)).1
@[simp] theorem State.setEvt_trimReports (s : State) (a i : Nat) : (s.setEvt a i).trimReports = s.trimReports := ((s.setEvt_only a i).same .trims (by decide)).2.1
@[simp] theorem State.setEvt_trimSince (s : State) (a i : Nat) : (s.setEvt a i).trimSince = s.trimSince := ((s.setEvt_only a i).same .trims (by decide)).2.2
@[simp] theorem State.setEvt_fdin (s : State) (a i : Nat) : (s.setEvt a i).fdin = s.fdin := ((s.setEvt_only a i).same .fdin (by decide))
@[simp] theorem State.setEvt_outs (s : State) (a i : Nat) : (s.setEvt a i).outs = s.outs := ((s.setEvt_only a i).same .outs (by decide))
@[simp] theorem State.setEvt_mrg (s : State) (a i : Nat) : (s.setEvt a i).mrg = s.mrg := ((s.setEvt_only a i).same .mrg (by decide))
@[simp] theorem State.setEvt_saf (s : State) (a i : Nat) : (s.setEvt a i).saf = s.saf := ((s.setEvt_only a i).same .saf (by decide))
@[simp] theorem State.setEvt_fds (s : State) (a i : Nat) : (s.setEvt a i).fds = s.fds := ((s.setEvt_only a i).same .fds (by decide))
@[simp] theorem State.setEvt_str (s : State) (a i : Nat) : (s.setEvt a i).str = s.str := ((s.setEvt_only a i).same .str (by decide))
@[simp] theorem State.setEvt_tpr (s : State) (a i : Nat) : (s.setEvt a i).tpr = s.tpr := ((s.setEvt_only a i).same .tpr (by decide))
@[simp] theorem State.setEvt_acw (s : State) (a i : Nat) : (s.setEvt a i).acw = s.acw := ((s.setEvt_only a i).same .acw (by decide)).1
@[simp] theorem State.setEvt_acwq (s : State) (a i : Nat) : (s.setEvt a i).acwq = s.acwq := ((s.setEvt_only a i).same .acw (by decide)).2
@[simp] theorem State.setEvt_frw (s : State) (a i : Nat) : (s.setEvt a i).frw = s.frw := ((s.setEvt_only a i).same .frw (by decide))
@[simp] theorem State.setEvt_links (s : State) (a i : Nat) : (s.setEvt a i).links = s.links := ((s.setEvt_only a i).same .links (by decide))
@[simp] theorem State.setEvt_dma (s : State) (a i : Nat) : (s.setEvt a i).dma = s.dma := ((s.setEvt_only a i).same .dma (by decide))
@[simp] theorem State.setEvt_cvu (s : State) (a i : Nat) : (s.setEvt a i).cvu = s.cvu := ((s.setEvt_only a i).same .cvu (by decide))
@[simp] theorem State.setEvt_panel (s : State) (a i : Nat) : (s.setEvt a i).panel = s.panel := ((s.setEvt_only a i).same .panel (by decide))
@[simp] theorem State.setEvt_mem (s : State) (a i : Nat) : (s.setEvt a i).mem = s.mem := ((s.setEvt_only a i).same .mem (by decide))
@[simp] theorem State.setEvt_lease (s : State) (a i : Nat) : (s.setEvt a i).lease = s.lease := ((s.setEvt_only a i).same .lease (by decide))
@[simp] theorem State.setEvt_frozen (s : State) (a i : Nat) : (s.setEvt a i).frozen = s.frozen := ((s.setEvt_only a i).same .freeze (by decide)).1
@[simp] theorem State.setEvt_frzRecs (s : State) (a i : Nat) : (s.setEvt a i).frzRecs = s.frzRecs := ((s.setEvt_only a i).same .freeze (by decide)).2.1
@[simp] theorem State.setEvt_frzOver (s : State) (a i : Nat) : (s.setEvt a i).frzOver = s.frzOver := ((s.setEvt_only a i).same .freeze (by decide)).2.2
@[simp] theorem State.setEvt_maintPwd (s : State) (a i : Nat) : (s.setEvt a i).maintPwd = s.maintPwd := ((s.setEvt_only a i).same .passwords (by decide)).1
@[simp] theorem State.setEvt_safetyPwd (s : State) (a i : Nat) : (s.setEvt a i).safetyPwd = s.safetyPwd := ((s.setEvt_only a i).same .passwords (by decide)).2
@[simp] theorem State.setEvt_queue (s : State) (a i : Nat) : (s.setEvt a i).queue = s.queue := ((s.setEvt_only a i).same .commands (by decide)).1
@[simp] theorem State.setEvt_cmds (s : State) (a i : Nat) : (s.setEvt a i).cmds = s.cmds := ((s.setEvt_only a i).same .commands (by decide)).2.1
@[simp] theorem State.setEvt_responses (s : State) (a i : Nat) : (s.setEvt a i).responses = s.responses := ((s.setEvt_only a i).same .commands (by decide)).2.2
@[simp] theorem State.setEvt_sent (s : State) (a i : Nat) : (s.setEvt a i).sent = s.sent := ((s.setEvt_only a i).same .sent (by decide))
@[simp] theorem State.setEvt_snaps (s : State) (a i : Nat) : (s.setEvt a i).snaps = s.snaps := ((s.setEvt_only a i).same .snaps (by decide))
@[simp] theorem State.setEvt_wp (s : State) (a i : Nat) : (s.setEvt a i).wp = s.wp := ((s.setEvt_only a i).same .store (by decide)).1
@[simp] theorem State.setEvt_journal (s : State) (a i : Nat) : (s.setEvt a i).journal = s.journal := ((s.setEvt_only a i).same .store (by decide)).2.1
@[simp] theorem State.setEvt_jseq (s : State) (a i : Nat) : (s.setEvt a i).jseq = s.jseq := ((s.setEvt_only a i).same .store (by decide)).2.2.1
@[simp] theorem State.setEvt_jcur (s : State) (a i : Nat) : (s.setEvt a i).jcur = s.jcur := ((s.setEvt_only a i).same .store (by decide)).2.2.2.1
@[simp] theorem State.setEvt_clog (s : State) (a i : Nat) : (s.setEvt a i).clog = s.clog := ((s.setEvt_only a i).same .store (by decide)).2.2.2.2.1
@[simp] theorem State.setEvt_clgLast (s : State) (a i : Nat) : (s.setEvt a i).clgLast = s.clgLast := ((s.setEvt_only a i).same .store (by decide)).2.2.2.2.2.1
@[simp] theorem State.setEvt_clgFirst (s : State) (a i : Nat) : (s.setEvt a i).clgFirst = s.clgFirst := ((s.setEvt_only a i).same .store (by decide)).2.2.2.2.2.2.1
@[simp] theorem State.setEvt_clgAnchor (s : State) (a i : Nat) : (s.setEvt a i).clgAnchor = s.clgAnchor := ((s.setEvt_only a i).same .store (by decide)).2.2.2.2.2.2.2.1
@[simp] theorem State.setEvt_clgCur (s : State) (a i : Nat) : (s.setEvt a i).clgCur = s.clgCur := ((s.setEvt_only a i).same .store (by decide)).2.2.2.2.2.2.2.2.1
@[simp] theorem State.setEvt_bankA (s : State) (a i : Nat) : (s.setEvt a i).bankA = s.bankA := ((s.setEvt_only a i).same .store (by decide)).2.2.2.2.2.2.2.2.2.1
@[simp] theorem State.setEvt_bankB (s : State) (a i : Nat) : (s.setEvt a i).bankB = s.bankB := ((s.setEvt_only a i).same .store (by decide)).2.2.2.2.2.2.2.2.2.2.1
@[simp] theorem State.setEvt_bankWriting (s : State) (a i : Nat) : (s.setEvt a i).bankWriting = s.bankWriting := ((s.setEvt_only a i).same .store (by decide)).2.2.2.2.2.2.2.2.2.2.2.1
@[simp] theorem State.setEvt_bankWaiting (s : State) (a i : Nat) : (s.setEvt a i).bankWaiting = s.bankWaiting := ((s.setEvt_only a i).same .store (by decide)).2.2.2.2.2.2.2.2.2.2.2.2.1
@[simp] theorem State.setEvt_tokensAt (s : State) (a i : Nat) : (s.setEvt a i).tokensAt = s.tokensAt := ((s.setEvt_only a i).same .store (by decide)).2.2.2.2.2.2.2.2.2.2.2.2.2
@[simp] theorem State.setEvt_freeCount (s : State) (a i : Nat) : (s.setEvt a i).freeCount = s.freeCount := ((s.setEvt_only a i).same .free (by decide))

end Sys2Proof.Machine
end

