-- ==== Sys2Proof/Laws/Accessors.lean ====
section
/-!
SUPPORT. The entries of the state's tables under the shared operations: an operation on one table leaves the entries of the others.
-/
namespace Sys2Proof.Machine

/-! ### port -/

@[simp] theorem State.port_setReg (s : State) (a : Nat) (v : Word) (kq : Nat) : (s.setReg a v).port kq = s.port kq := rfl
@[simp] theorem State.port_setMreg (s : State) (m : Master) (a : Nat) (v : Word) (kq : Nat) : (s.setMreg m a v).port kq = s.port kq := rfl
@[simp] theorem State.port_send (s : State) (o : Sent) (kq : Nat) : (s.send o).port kq = s.port kq := rfl
@[simp] theorem State.port_setBoot (s : State) (f : Boot → Boot) (kq : Nat) : (s.setBoot f).port kq = s.port kq := rfl
@[simp] theorem State.port_setTc (s : State) (f : TownClock → TownClock) (kq : Nat) : (s.setTc f).port kq = s.port kq := rfl
@[simp] theorem State.port_setProbe (s : State) (d : Nat) (p : Psy) (kq : Nat) : (s.setProbe d p).port kq = s.port kq := rfl
@[simp] theorem State.port_setDemod (s : State) (d : Nat) (m : Demod) (kq : Nat) : (s.setDemod d m).port kq = s.port kq := rfl
@[simp] theorem State.port_setDie (s : State) (d : Nat) (l : DieLbq) (kq : Nat) : (s.setDie d l).port kq = s.port kq := rfl
@[simp] theorem State.port_setSensor (s : State) (d e : Nat) (x : Sensor) (kq : Nat) : (s.setSensor d e x).port kq = s.port kq := rfl
@[simp] theorem State.port_setCalPort (s : State) (d : Nat) (c : CalPort) (kq : Nat) : (s.setCalPort d c).port kq = s.port kq := rfl
@[simp] theorem State.port_setFdin (s : State) (f : FieldInputs → FieldInputs) (kq : Nat) : (s.setFdin f).port kq = s.port kq := rfl
@[simp] theorem State.port_setOuts (s : State) (f : Outputs → Outputs) (kq : Nat) : (s.setOuts f).port kq = s.port kq := rfl
@[simp] theorem State.port_setMrg (s : State) (f : Merge → Merge) (kq : Nat) : (s.setMrg f).port kq = s.port kq := rfl
@[simp] theorem State.port_setSaf (s : State) (f : Saf → Saf) (kq : Nat) : (s.setSaf f).port kq = s.port kq := rfl
@[simp] theorem State.port_setFds (s : State) (f : FdSafe → FdSafe) (kq : Nat) : (s.setFds f).port kq = s.port kq := rfl
@[simp] theorem State.port_setStr (s : State) (f : Str → Str) (kq : Nat) : (s.setStr f).port kq = s.port kq := rfl
@[simp] theorem State.port_setTpr (s : State) (p : Nat) (x : TprPort) (kq : Nat) : (s.setTpr p x).port kq = s.port kq := rfl
@[simp] theorem State.port_setAcw (s : State) (w : Nat) (r : AcwRun) (kq : Nat) : (s.setAcw w r).port kq = s.port kq := rfl
@[simp] theorem State.port_setFrw (s : State) (f : Frw → Frw) (kq : Nat) : (s.setFrw f).port kq = s.port kq := rfl
@[simp] theorem State.port_setLinks (s : State) (f : Links → Links) (kq : Nat) : (s.setLinks f).port kq = s.port kq := rfl
@[simp] theorem State.port_setEng (s : State) (e : Nat) (g : DmaEng) (kq : Nat) : (s.setEng e g).port kq = s.port kq := rfl
@[simp] theorem State.port_setCvUnit (s : State) (u : Nat) (c : Cvu) (kq : Nat) : (s.setCvUnit u c).port kq = s.port kq := rfl
@[simp] theorem State.port_setPanel (s : State) (f : Panel → Panel) (kq : Nat) : (s.setPanel f).port kq = s.port kq := rfl
@[simp] theorem State.port_modDomCmds (s : State) (d : Nat) (f : DomainCmds → DomainCmds) (kq : Nat) : (s.modDomCmds d f).port kq = s.port kq := rfl
@[simp] theorem State.port_setJCursor (s : State) (m : Master) (c : LogCursor) (kq : Nat) : (s.setJCursor m c).port kq = s.port kq := rfl
@[simp] theorem State.port_setCCursor (s : State) (m : Master) (c : LogCursor) (kq : Nat) : (s.setCCursor m c).port kq = s.port kq := rfl
@[simp] theorem State.port_raise (s : State) (src : Nat) (data : Word) (kq : Nat) : (s.raise src data).port kq = s.port kq := by simp [State.port]
@[simp] theorem State.port_setEvt (s : State) (a i : Nat) (kq : Nat) : (s.setEvt a i).port kq = s.port kq := by simp [State.port]
theorem State.port_elapse (s : State) (dt : Nat) (kq : Nat) : (s.elapse dt).port kq = s.port kq := rfl
@[simp] theorem State.port_setPort (s : State) (k : Nat) (x : Ofe) : (s.setPort k x).port k = x := by simp [State.port, State.setPort]
theorem State.port_setPort_other (s : State) {k l : Nat} (x : Ofe) (h : l ≠ k) : (s.setPort k x).port l = s.port l := by
  simp only [State.port, State.setPort, tget_tset_other _ _ _ h]

/-! ### probe -/

@[simp] theorem State.probe_setReg (s : State) (a : Nat) (v : Word) (kq : Nat) : (s.setReg a v).probe kq = s.probe kq := rfl
@[simp] theorem State.probe_setMreg (s : State) (m : Master) (a : Nat) (v : Word) (kq : Nat) : (s.setMreg m a v).probe kq = s.probe kq := rfl
@[simp] theorem State.probe_send (s : State) (o : Sent) (kq : Nat) : (s.send o).probe kq = s.probe kq := rfl
@[simp] theorem State.probe_setBoot (s : State) (f : Boot → Boot) (kq : Nat) : (s.setBoot f).probe kq = s.probe kq := rfl
@[simp] theorem State.probe_setTc (s : State) (f : TownClock → TownClock) (kq : Nat) : (s.setTc f).probe kq = s.probe kq := rfl
@[simp] theorem State.probe_setPort (s : State) (d : Nat) (o : Ofe) (kq : Nat) : (s.setPort d o).probe kq = s.probe kq := rfl
@[simp] theorem State.probe_setDemod (s : State) (d : Nat) (m : Demod) (kq : Nat) : (s.setDemod d m).probe kq = s.probe kq := rfl
@[simp] theorem State.probe_setDie (s : State) (d : Nat) (l : DieLbq) (kq : Nat) : (s.setDie d l).probe kq = s.probe kq := rfl
@[simp] theorem State.probe_setSensor (s : State) (d e : Nat) (x : Sensor) (kq : Nat) : (s.setSensor d e x).probe kq = s.probe kq := rfl
@[simp] theorem State.probe_setCalPort (s : State) (d : Nat) (c : CalPort) (kq : Nat) : (s.setCalPort d c).probe kq = s.probe kq := rfl
@[simp] theorem State.probe_setFdin (s : State) (f : FieldInputs → FieldInputs) (kq : Nat) : (s.setFdin f).probe kq = s.probe kq := rfl
@[simp] theorem State.probe_setOuts (s : State) (f : Outputs → Outputs) (kq : Nat) : (s.setOuts f).probe kq = s.probe kq := rfl
@[simp] theorem State.probe_setMrg (s : State) (f : Merge → Merge) (kq : Nat) : (s.setMrg f).probe kq = s.probe kq := rfl
@[simp] theorem State.probe_setSaf (s : State) (f : Saf → Saf) (kq : Nat) : (s.setSaf f).probe kq = s.probe kq := rfl
@[simp] theorem State.probe_setFds (s : State) (f : FdSafe → FdSafe) (kq : Nat) : (s.setFds f).probe kq = s.probe kq := rfl
@[simp] theorem State.probe_setStr (s : State) (f : Str → Str) (kq : Nat) : (s.setStr f).probe kq = s.probe kq := rfl
@[simp] theorem State.probe_setTpr (s : State) (p : Nat) (x : TprPort) (kq : Nat) : (s.setTpr p x).probe kq = s.probe kq := rfl
@[simp] theorem State.probe_setAcw (s : State) (w : Nat) (r : AcwRun) (kq : Nat) : (s.setAcw w r).probe kq = s.probe kq := rfl
@[simp] theorem State.probe_setFrw (s : State) (f : Frw → Frw) (kq : Nat) : (s.setFrw f).probe kq = s.probe kq := rfl
@[simp] theorem State.probe_setLinks (s : State) (f : Links → Links) (kq : Nat) : (s.setLinks f).probe kq = s.probe kq := rfl
@[simp] theorem State.probe_setEng (s : State) (e : Nat) (g : DmaEng) (kq : Nat) : (s.setEng e g).probe kq = s.probe kq := rfl
@[simp] theorem State.probe_setCvUnit (s : State) (u : Nat) (c : Cvu) (kq : Nat) : (s.setCvUnit u c).probe kq = s.probe kq := rfl
@[simp] theorem State.probe_setPanel (s : State) (f : Panel → Panel) (kq : Nat) : (s.setPanel f).probe kq = s.probe kq := rfl
@[simp] theorem State.probe_modDomCmds (s : State) (d : Nat) (f : DomainCmds → DomainCmds) (kq : Nat) : (s.modDomCmds d f).probe kq = s.probe kq := rfl
@[simp] theorem State.probe_setJCursor (s : State) (m : Master) (c : LogCursor) (kq : Nat) : (s.setJCursor m c).probe kq = s.probe kq := rfl
@[simp] theorem State.probe_setCCursor (s : State) (m : Master) (c : LogCursor) (kq : Nat) : (s.setCCursor m c).probe kq = s.probe kq := rfl
@[simp] theorem State.probe_raise (s : State) (src : Nat) (data : Word) (kq : Nat) : (s.raise src data).probe kq = s.probe kq := by simp [State.probe]
@[simp] theorem State.probe_setEvt (s : State) (a i : Nat) (kq : Nat) : (s.setEvt a i).probe kq = s.probe kq := by simp [State.probe]
theorem State.probe_elapse (s : State) (dt : Nat) (kq : Nat) : (s.elapse dt).probe kq = s.probe kq := rfl
@[simp] theorem State.probe_setProbe (s : State) (k : Nat) (x : Psy) : (s.setProbe k x).probe k = x := by simp [State.probe, State.setProbe]
theorem State.probe_setProbe_other (s : State) {k l : Nat} (x : Psy) (h : l ≠ k) : (s.setProbe k x).probe l = s.probe l := by
  simp only [State.probe, State.setProbe, tget_tset_other _ _ _ h]

/-! ### demod -/

@[simp] theorem State.demod_setReg (s : State) (a : Nat) (v : Word) (kq : Nat) : (s.setReg a v).demod kq = s.demod kq := rfl
@[simp] theorem State.demod_setMreg (s : State) (m : Master) (a : Nat) (v : Word) (kq : Nat) : (s.setMreg m a v).demod kq = s.demod kq := rfl
@[simp] theorem State.demod_send (s : State) (o : Sent) (kq : Nat) : (s.send o).demod kq = s.demod kq := rfl
@[simp] theorem State.demod_setBoot (s : State) (f : Boot → Boot) (kq : Nat) : (s.setBoot f).demod kq = s.demod kq := rfl
@[simp] theorem State.demod_setTc (s : State) (f : TownClock → TownClock) (kq : Nat) : (s.setTc f).demod kq = s.demod kq := rfl
@[simp] theorem State.demod_setPort (s : State) (d : Nat) (o : Ofe) (kq : Nat) : (s.setPort d o).demod kq = s.demod kq := rfl
@[simp] theorem State.demod_setProbe (s : State) (d : Nat) (p : Psy) (kq : Nat) : (s.setProbe d p).demod kq = s.demod kq := rfl
@[simp] theorem State.demod_setDie (s : State) (d : Nat) (l : DieLbq) (kq : Nat) : (s.setDie d l).demod kq = s.demod kq := rfl
@[simp] theorem State.demod_setSensor (s : State) (d e : Nat) (x : Sensor) (kq : Nat) : (s.setSensor d e x).demod kq = s.demod kq := rfl
@[simp] theorem State.demod_setCalPort (s : State) (d : Nat) (c : CalPort) (kq : Nat) : (s.setCalPort d c).demod kq = s.demod kq := rfl
@[simp] theorem State.demod_setFdin (s : State) (f : FieldInputs → FieldInputs) (kq : Nat) : (s.setFdin f).demod kq = s.demod kq := rfl
@[simp] theorem State.demod_setOuts (s : State) (f : Outputs → Outputs) (kq : Nat) : (s.setOuts f).demod kq = s.demod kq := rfl
@[simp] theorem State.demod_setMrg (s : State) (f : Merge → Merge) (kq : Nat) : (s.setMrg f).demod kq = s.demod kq := rfl
@[simp] theorem State.demod_setSaf (s : State) (f : Saf → Saf) (kq : Nat) : (s.setSaf f).demod kq = s.demod kq := rfl
@[simp] theorem State.demod_setFds (s : State) (f : FdSafe → FdSafe) (kq : Nat) : (s.setFds f).demod kq = s.demod kq := rfl
@[simp] theorem State.demod_setStr (s : State) (f : Str → Str) (kq : Nat) : (s.setStr f).demod kq = s.demod kq := rfl
@[simp] theorem State.demod_setTpr (s : State) (p : Nat) (x : TprPort) (kq : Nat) : (s.setTpr p x).demod kq = s.demod kq := rfl
@[simp] theorem State.demod_setAcw (s : State) (w : Nat) (r : AcwRun) (kq : Nat) : (s.setAcw w r).demod kq = s.demod kq := rfl
@[simp] theorem State.demod_setFrw (s : State) (f : Frw → Frw) (kq : Nat) : (s.setFrw f).demod kq = s.demod kq := rfl
@[simp] theorem State.demod_setLinks (s : State) (f : Links → Links) (kq : Nat) : (s.setLinks f).demod kq = s.demod kq := rfl
@[simp] theorem State.demod_setEng (s : State) (e : Nat) (g : DmaEng) (kq : Nat) : (s.setEng e g).demod kq = s.demod kq := rfl
@[simp] theorem State.demod_setCvUnit (s : State) (u : Nat) (c : Cvu) (kq : Nat) : (s.setCvUnit u c).demod kq = s.demod kq := rfl
@[simp] theorem State.demod_setPanel (s : State) (f : Panel → Panel) (kq : Nat) : (s.setPanel f).demod kq = s.demod kq := rfl
@[simp] theorem State.demod_modDomCmds (s : State) (d : Nat) (f : DomainCmds → DomainCmds) (kq : Nat) : (s.modDomCmds d f).demod kq = s.demod kq := rfl
@[simp] theorem State.demod_setJCursor (s : State) (m : Master) (c : LogCursor) (kq : Nat) : (s.setJCursor m c).demod kq = s.demod kq := rfl
@[simp] theorem State.demod_setCCursor (s : State) (m : Master) (c : LogCursor) (kq : Nat) : (s.setCCursor m c).demod kq = s.demod kq := rfl
@[simp] theorem State.demod_raise (s : State) (src : Nat) (data : Word) (kq : Nat) : (s.raise src data).demod kq = s.demod kq := by simp [State.demod]
@[simp] theorem State.demod_setEvt (s : State) (a i : Nat) (kq : Nat) : (s.setEvt a i).demod kq = s.demod kq := by simp [State.demod]
theorem State.demod_elapse (s : State) (dt : Nat) (kq : Nat) : (s.elapse dt).demod kq = s.demod kq := rfl
@[simp] theorem State.demod_setDemod (s : State) (k : Nat) (x : Demod) : (s.setDemod k x).demod k = x := by simp [State.demod, State.setDemod]
theorem State.demod_setDemod_other (s : State) {k l : Nat} (x : Demod) (h : l ≠ k) : (s.setDemod k x).demod l = s.demod l := by
  simp only [State.demod, State.setDemod, tget_tset_other _ _ _ h]

/-! ### die -/

@[simp] theorem State.die_setReg (s : State) (a : Nat) (v : Word) (kq : Nat) : (s.setReg a v).die kq = s.die kq := rfl
@[simp] theorem State.die_setMreg (s : State) (m : Master) (a : Nat) (v : Word) (kq : Nat) : (s.setMreg m a v).die kq = s.die kq := rfl
@[simp] theorem State.die_send (s : State) (o : Sent) (kq : Nat) : (s.send o).die kq = s.die kq := rfl
@[simp] theorem State.die_setBoot (s : State) (f : Boot → Boot) (kq : Nat) : (s.setBoot f).die kq = s.die kq := rfl
@[simp] theorem State.die_setTc (s : State) (f : TownClock → TownClock) (kq : Nat) : (s.setTc f).die kq = s.die kq := rfl
@[simp] theorem State.die_setPort (s : State) (d : Nat) (o : Ofe) (kq : Nat) : (s.setPort d o).die kq = s.die kq := rfl
@[simp] theorem State.die_setProbe (s : State) (d : Nat) (p : Psy) (kq : Nat) : (s.setProbe d p).die kq = s.die kq := rfl
@[simp] theorem State.die_setDemod (s : State) (d : Nat) (m : Demod) (kq : Nat) : (s.setDemod d m).die kq = s.die kq := rfl
@[simp] theorem State.die_setSensor (s : State) (d e : Nat) (x : Sensor) (kq : Nat) : (s.setSensor d e x).die kq = s.die kq := rfl
@[simp] theorem State.die_setCalPort (s : State) (d : Nat) (c : CalPort) (kq : Nat) : (s.setCalPort d c).die kq = s.die kq := rfl
@[simp] theorem State.die_setFdin (s : State) (f : FieldInputs → FieldInputs) (kq : Nat) : (s.setFdin f).die kq = s.die kq := rfl
@[simp] theorem State.die_setOuts (s : State) (f : Outputs → Outputs) (kq : Nat) : (s.setOuts f).die kq = s.die kq := rfl
@[simp] theorem State.die_setMrg (s : State) (f : Merge → Merge) (kq : Nat) : (s.setMrg f).die kq = s.die kq := rfl
@[simp] theorem State.die_setSaf (s : State) (f : Saf → Saf) (kq : Nat) : (s.setSaf f).die kq = s.die kq := rfl
@[simp] theorem State.die_setFds (s : State) (f : FdSafe → FdSafe) (kq : Nat) : (s.setFds f).die kq = s.die kq := rfl
@[simp] theorem State.die_setStr (s : State) (f : Str → Str) (kq : Nat) : (s.setStr f).die kq = s.die kq := rfl
@[simp] theorem State.die_setTpr (s : State) (p : Nat) (x : TprPort) (kq : Nat) : (s.setTpr p x).die kq = s.die kq := rfl
@[simp] theorem State.die_setAcw (s : State) (w : Nat) (r : AcwRun) (kq : Nat) : (s.setAcw w r).die kq = s.die kq := rfl
@[simp] theorem State.die_setFrw (s : State) (f : Frw → Frw) (kq : Nat) : (s.setFrw f).die kq = s.die kq := rfl
@[simp] theorem State.die_setLinks (s : State) (f : Links → Links) (kq : Nat) : (s.setLinks f).die kq = s.die kq := rfl
@[simp] theorem State.die_setEng (s : State) (e : Nat) (g : DmaEng) (kq : Nat) : (s.setEng e g).die kq = s.die kq := rfl
@[simp] theorem State.die_setCvUnit (s : State) (u : Nat) (c : Cvu) (kq : Nat) : (s.setCvUnit u c).die kq = s.die kq := rfl
@[simp] theorem State.die_setPanel (s : State) (f : Panel → Panel) (kq : Nat) : (s.setPanel f).die kq = s.die kq := rfl
@[simp] theorem State.die_modDomCmds (s : State) (d : Nat) (f : DomainCmds → DomainCmds) (kq : Nat) : (s.modDomCmds d f).die kq = s.die kq := rfl
@[simp] theorem State.die_setJCursor (s : State) (m : Master) (c : LogCursor) (kq : Nat) : (s.setJCursor m c).die kq = s.die kq := rfl
@[simp] theorem State.die_setCCursor (s : State) (m : Master) (c : LogCursor) (kq : Nat) : (s.setCCursor m c).die kq = s.die kq := rfl
@[simp] theorem State.die_raise (s : State) (src : Nat) (data : Word) (kq : Nat) : (s.raise src data).die kq = s.die kq := by simp [State.die]
@[simp] theorem State.die_setEvt (s : State) (a i : Nat) (kq : Nat) : (s.setEvt a i).die kq = s.die kq := by simp [State.die]
theorem State.die_elapse (s : State) (dt : Nat) (kq : Nat) : (s.elapse dt).die kq = s.die kq := rfl
@[simp] theorem State.die_setDie (s : State) (k : Nat) (x : DieLbq) : (s.setDie k x).die k = x := by simp [State.die, State.setDie]
theorem State.die_setDie_other (s : State) {k l : Nat} (x : DieLbq) (h : l ≠ k) : (s.setDie k x).die l = s.die l := by
  simp only [State.die, State.setDie, tget_tset_other _ _ _ h]

/-! ### calPort -/

@[simp] theorem State.calPort_setReg (s : State) (a : Nat) (v : Word) (kq : Nat) : (s.setReg a v).calPort kq = s.calPort kq := rfl
@[simp] theorem State.calPort_setMreg (s : State) (m : Master) (a : Nat) (v : Word) (kq : Nat) : (s.setMreg m a v).calPort kq = s.calPort kq := rfl
@[simp] theorem State.calPort_send (s : State) (o : Sent) (kq : Nat) : (s.send o).calPort kq = s.calPort kq := rfl
@[simp] theorem State.calPort_setBoot (s : State) (f : Boot → Boot) (kq : Nat) : (s.setBoot f).calPort kq = s.calPort kq := rfl
@[simp] theorem State.calPort_setTc (s : State) (f : TownClock → TownClock) (kq : Nat) : (s.setTc f).calPort kq = s.calPort kq := rfl
@[simp] theorem State.calPort_setPort (s : State) (d : Nat) (o : Ofe) (kq : Nat) : (s.setPort d o).calPort kq = s.calPort kq := rfl
@[simp] theorem State.calPort_setProbe (s : State) (d : Nat) (p : Psy) (kq : Nat) : (s.setProbe d p).calPort kq = s.calPort kq := rfl
@[simp] theorem State.calPort_setDemod (s : State) (d : Nat) (m : Demod) (kq : Nat) : (s.setDemod d m).calPort kq = s.calPort kq := rfl
@[simp] theorem State.calPort_setDie (s : State) (d : Nat) (l : DieLbq) (kq : Nat) : (s.setDie d l).calPort kq = s.calPort kq := rfl
@[simp] theorem State.calPort_setSensor (s : State) (d e : Nat) (x : Sensor) (kq : Nat) : (s.setSensor d e x).calPort kq = s.calPort kq := rfl
@[simp] theorem State.calPort_setFdin (s : State) (f : FieldInputs → FieldInputs) (kq : Nat) : (s.setFdin f).calPort kq = s.calPort kq := rfl
@[simp] theorem State.calPort_setOuts (s : State) (f : Outputs → Outputs) (kq : Nat) : (s.setOuts f).calPort kq = s.calPort kq := rfl
@[simp] theorem State.calPort_setMrg (s : State) (f : Merge → Merge) (kq : Nat) : (s.setMrg f).calPort kq = s.calPort kq := rfl
@[simp] theorem State.calPort_setSaf (s : State) (f : Saf → Saf) (kq : Nat) : (s.setSaf f).calPort kq = s.calPort kq := rfl
@[simp] theorem State.calPort_setFds (s : State) (f : FdSafe → FdSafe) (kq : Nat) : (s.setFds f).calPort kq = s.calPort kq := rfl
@[simp] theorem State.calPort_setStr (s : State) (f : Str → Str) (kq : Nat) : (s.setStr f).calPort kq = s.calPort kq := rfl
@[simp] theorem State.calPort_setTpr (s : State) (p : Nat) (x : TprPort) (kq : Nat) : (s.setTpr p x).calPort kq = s.calPort kq := rfl
@[simp] theorem State.calPort_setAcw (s : State) (w : Nat) (r : AcwRun) (kq : Nat) : (s.setAcw w r).calPort kq = s.calPort kq := rfl
@[simp] theorem State.calPort_setFrw (s : State) (f : Frw → Frw) (kq : Nat) : (s.setFrw f).calPort kq = s.calPort kq := rfl
@[simp] theorem State.calPort_setLinks (s : State) (f : Links → Links) (kq : Nat) : (s.setLinks f).calPort kq = s.calPort kq := rfl
@[simp] theorem State.calPort_setEng (s : State) (e : Nat) (g : DmaEng) (kq : Nat) : (s.setEng e g).calPort kq = s.calPort kq := rfl
@[simp] theorem State.calPort_setCvUnit (s : State) (u : Nat) (c : Cvu) (kq : Nat) : (s.setCvUnit u c).calPort kq = s.calPort kq := rfl
@[simp] theorem State.calPort_setPanel (s : State) (f : Panel → Panel) (kq : Nat) : (s.setPanel f).calPort kq = s.calPort kq := rfl
@[simp] theorem State.calPort_modDomCmds (s : State) (d : Nat) (f : DomainCmds → DomainCmds) (kq : Nat) : (s.modDomCmds d f).calPort kq = s.calPort kq := rfl
@[simp] theorem State.calPort_setJCursor (s : State) (m : Master) (c : LogCursor) (kq : Nat) : (s.setJCursor m c).calPort kq = s.calPort kq := rfl
@[simp] theorem State.calPort_setCCursor (s : State) (m : Master) (c : LogCursor) (kq : Nat) : (s.setCCursor m c).calPort kq = s.calPort kq := rfl
@[simp] theorem State.calPort_raise (s : State) (src : Nat) (data : Word) (kq : Nat) : (s.raise src data).calPort kq = s.calPort kq := by simp [State.calPort]
@[simp] theorem State.calPort_setEvt (s : State) (a i : Nat) (kq : Nat) : (s.setEvt a i).calPort kq = s.calPort kq := by simp [State.calPort]
theorem State.calPort_elapse (s : State) (dt : Nat) (kq : Nat) : (s.elapse dt).calPort kq = s.calPort kq := rfl
@[simp] theorem State.calPort_setCalPort (s : State) (k : Nat) (x : CalPort) : (s.setCalPort k x).calPort k = x := by simp [State.calPort, State.setCalPort]
theorem State.calPort_setCalPort_other (s : State) {k l : Nat} (x : CalPort) (h : l ≠ k) : (s.setCalPort k x).calPort l = s.calPort l := by
  simp only [State.calPort, State.setCalPort, tget_tset_other _ _ _ h]

/-! ### tprPort -/

@[simp] theorem State.tprPort_setReg (s : State) (a : Nat) (v : Word) (kq : Nat) : (s.setReg a v).tprPort kq = s.tprPort kq := rfl
@[simp] theorem State.tprPort_setMreg (s : State) (m : Master) (a : Nat) (v : Word) (kq : Nat) : (s.setMreg m a v).tprPort kq = s.tprPort kq := rfl
@[simp] theorem State.tprPort_send (s : State) (o : Sent) (kq : Nat) : (s.send o).tprPort kq = s.tprPort kq := rfl
@[simp] theorem State.tprPort_setBoot (s : State) (f : Boot → Boot) (kq : Nat) : (s.setBoot f).tprPort kq = s.tprPort kq := rfl
@[simp] theorem State.tprPort_setTc (s : State) (f : TownClock → TownClock) (kq : Nat) : (s.setTc f).tprPort kq = s.tprPort kq := rfl
@[simp] theorem State.tprPort_setPort (s : State) (d : Nat) (o : Ofe) (kq : Nat) : (s.setPort d o).tprPort kq = s.tprPort kq := rfl
@[simp] theorem State.tprPort_setProbe (s : State) (d : Nat) (p : Psy) (kq : Nat) : (s.setProbe d p).tprPort kq = s.tprPort kq := rfl
@[simp] theorem State.tprPort_setDemod (s : State) (d : Nat) (m : Demod) (kq : Nat) : (s.setDemod d m).tprPort kq = s.tprPort kq := rfl
@[simp] theorem State.tprPort_setDie (s : State) (d : Nat) (l : DieLbq) (kq : Nat) : (s.setDie d l).tprPort kq = s.tprPort kq := rfl
@[simp] theorem State.tprPort_setSensor (s : State) (d e : Nat) (x : Sensor) (kq : Nat) : (s.setSensor d e x).tprPort kq = s.tprPort kq := rfl
@[simp] theorem State.tprPort_setCalPort (s : State) (d : Nat) (c : CalPort) (kq : Nat) : (s.setCalPort d c).tprPort kq = s.tprPort kq := rfl
@[simp] theorem State.tprPort_setFdin (s : State) (f : FieldInputs → FieldInputs) (kq : Nat) : (s.setFdin f).tprPort kq = s.tprPort kq := rfl
@[simp] theorem State.tprPort_setOuts (s : State) (f : Outputs → Outputs) (kq : Nat) : (s.setOuts f).tprPort kq = s.tprPort kq := rfl
@[simp] theorem State.tprPort_setMrg (s : State) (f : Merge → Merge) (kq : Nat) : (s.setMrg f).tprPort kq = s.tprPort kq := rfl
@[simp] theorem State.tprPort_setSaf (s : State) (f : Saf → Saf) (kq : Nat) : (s.setSaf f).tprPort kq = s.tprPort kq := rfl
@[simp] theorem State.tprPort_setFds (s : State) (f : FdSafe → FdSafe) (kq : Nat) : (s.setFds f).tprPort kq = s.tprPort kq := rfl
@[simp] theorem State.tprPort_setStr (s : State) (f : Str → Str) (kq : Nat) : (s.setStr f).tprPort kq = s.tprPort kq := rfl
@[simp] theorem State.tprPort_setAcw (s : State) (w : Nat) (r : AcwRun) (kq : Nat) : (s.setAcw w r).tprPort kq = s.tprPort kq := rfl
@[simp] theorem State.tprPort_setFrw (s : State) (f : Frw → Frw) (kq : Nat) : (s.setFrw f).tprPort kq = s.tprPort kq := rfl
@[simp] theorem State.tprPort_setLinks (s : State) (f : Links → Links) (kq : Nat) : (s.setLinks f).tprPort kq = s.tprPort kq := rfl
@[simp] theorem State.tprPort_setEng (s : State) (e : Nat) (g : DmaEng) (kq : Nat) : (s.setEng e g).tprPort kq = s.tprPort kq := rfl
@[simp] theorem State.tprPort_setCvUnit (s : State) (u : Nat) (c : Cvu) (kq : Nat) : (s.setCvUnit u c).tprPort kq = s.tprPort kq := rfl
@[simp] theorem State.tprPort_setPanel (s : State) (f : Panel → Panel) (kq : Nat) : (s.setPanel f).tprPort kq = s.tprPort kq := rfl
@[simp] theorem State.tprPort_modDomCmds (s : State) (d : Nat) (f : DomainCmds → DomainCmds) (kq : Nat) : (s.modDomCmds d f).tprPort kq = s.tprPort kq := rfl
@[simp] theorem State.tprPort_setJCursor (s : State) (m : Master) (c : LogCursor) (kq : Nat) : (s.setJCursor m c).tprPort kq = s.tprPort kq := rfl
@[simp] theorem State.tprPort_setCCursor (s : State) (m : Master) (c : LogCursor) (kq : Nat) : (s.setCCursor m c).tprPort kq = s.tprPort kq := rfl
@[simp] theorem State.tprPort_raise (s : State) (src : Nat) (data : Word) (kq : Nat) : (s.raise src data).tprPort kq = s.tprPort kq := by simp [State.tprPort]
@[simp] theorem State.tprPort_setEvt (s : State) (a i : Nat) (kq : Nat) : (s.setEvt a i).tprPort kq = s.tprPort kq := by simp [State.tprPort]
theorem State.tprPort_elapse (s : State) (dt : Nat) (kq : Nat) : (s.elapse dt).tprPort kq = s.tprPort kq := rfl
@[simp] theorem State.tprPort_setTpr (s : State) (k : Nat) (x : TprPort) : (s.setTpr k x).tprPort k = x := by simp [State.tprPort, State.setTpr]
theorem State.tprPort_setTpr_other (s : State) {k l : Nat} (x : TprPort) (h : l ≠ k) : (s.setTpr k x).tprPort l = s.tprPort l := by
  simp only [State.tprPort, State.setTpr, tget_tset_other _ _ _ h]

/-! ### acwRun -/

@[simp] theorem State.acwRun_setReg (s : State) (a : Nat) (v : Word) (kq : Nat) : (s.setReg a v).acwRun kq = s.acwRun kq := rfl
@[simp] theorem State.acwRun_setMreg (s : State) (m : Master) (a : Nat) (v : Word) (kq : Nat) : (s.setMreg m a v).acwRun kq = s.acwRun kq := rfl
@[simp] theorem State.acwRun_send (s : State) (o : Sent) (kq : Nat) : (s.send o).acwRun kq = s.acwRun kq := rfl
@[simp] theorem State.acwRun_setBoot (s : State) (f : Boot → Boot) (kq : Nat) : (s.setBoot f).acwRun kq = s.acwRun kq := rfl
@[simp] theorem State.acwRun_setTc (s : State) (f : TownClock → TownClock) (kq : Nat) : (s.setTc f).acwRun kq = s.acwRun kq := rfl
@[simp] theorem State.acwRun_setPort (s : State) (d : Nat) (o : Ofe) (kq : Nat) : (s.setPort d o).acwRun kq = s.acwRun kq := rfl
@[simp] theorem State.acwRun_setProbe (s : State) (d : Nat) (p : Psy) (kq : Nat) : (s.setProbe d p).acwRun kq = s.acwRun kq := rfl
@[simp] theorem State.acwRun_setDemod (s : State) (d : Nat) (m : Demod) (kq : Nat) : (s.setDemod d m).acwRun kq = s.acwRun kq := rfl
@[simp] theorem State.acwRun_setDie (s : State) (d : Nat) (l : DieLbq) (kq : Nat) : (s.setDie d l).acwRun kq = s.acwRun kq := rfl
@[simp] theorem State.acwRun_setSensor (s : State) (d e : Nat) (x : Sensor) (kq : Nat) : (s.setSensor d e x).acwRun kq = s.acwRun kq := rfl
@[simp] theorem State.acwRun_setCalPort (s : State) (d : Nat) (c : CalPort) (kq : Nat) : (s.setCalPort d c).acwRun kq = s.acwRun kq := rfl
@[simp] theorem State.acwRun_setFdin (s : State) (f : FieldInputs → FieldInputs) (kq : Nat) : (s.setFdin f).acwRun kq = s.acwRun kq := rfl
@[simp] theorem State.acwRun_setOuts (s : State) (f : Outputs → Outputs) (kq : Nat) : (s.setOuts f).acwRun kq = s.acwRun kq := rfl
@[simp] theorem State.acwRun_setMrg (s : State) (f : Merge → Merge) (kq : Nat) : (s.setMrg f).acwRun kq = s.acwRun kq := rfl
@[simp] theorem State.acwRun_setSaf (s : State) (f : Saf → Saf) (kq : Nat) : (s.setSaf f).acwRun kq = s.acwRun kq := rfl
@[simp] theorem State.acwRun_setFds (s : State) (f : FdSafe → FdSafe) (kq : Nat) : (s.setFds f).acwRun kq = s.acwRun kq := rfl
@[simp] theorem State.acwRun_setStr (s : State) (f : Str → Str) (kq : Nat) : (s.setStr f).acwRun kq = s.acwRun kq := rfl
@[simp] theorem State.acwRun_setTpr (s : State) (p : Nat) (x : TprPort) (kq : Nat) : (s.setTpr p x).acwRun kq = s.acwRun kq := rfl
@[simp] theorem State.acwRun_setFrw (s : State) (f : Frw → Frw) (kq : Nat) : (s.setFrw f).acwRun kq = s.acwRun kq := rfl
@[simp] theorem State.acwRun_setLinks (s : State) (f : Links → Links) (kq : Nat) : (s.setLinks f).acwRun kq = s.acwRun kq := rfl
@[simp] theorem State.acwRun_setEng (s : State) (e : Nat) (g : DmaEng) (kq : Nat) : (s.setEng e g).acwRun kq = s.acwRun kq := rfl
@[simp] theorem State.acwRun_setCvUnit (s : State) (u : Nat) (c : Cvu) (kq : Nat) : (s.setCvUnit u c).acwRun kq = s.acwRun kq := rfl
@[simp] theorem State.acwRun_setPanel (s : State) (f : Panel → Panel) (kq : Nat) : (s.setPanel f).acwRun kq = s.acwRun kq := rfl
@[simp] theorem State.acwRun_modDomCmds (s : State) (d : Nat) (f : DomainCmds → DomainCmds) (kq : Nat) : (s.modDomCmds d f).acwRun kq = s.acwRun kq := rfl
@[simp] theorem State.acwRun_setJCursor (s : State) (m : Master) (c : LogCursor) (kq : Nat) : (s.setJCursor m c).acwRun kq = s.acwRun kq := rfl
@[simp] theorem State.acwRun_setCCursor (s : State) (m : Master) (c : LogCursor) (kq : Nat) : (s.setCCursor m c).acwRun kq = s.acwRun kq := rfl
@[simp] theorem State.acwRun_raise (s : State) (src : Nat) (data : Word) (kq : Nat) : (s.raise src data).acwRun kq = s.acwRun kq := by simp [State.acwRun]
@[simp] theorem State.acwRun_setEvt (s : State) (a i : Nat) (kq : Nat) : (s.setEvt a i).acwRun kq = s.acwRun kq := by simp [State.acwRun]
theorem State.acwRun_elapse (s : State) (dt : Nat) (kq : Nat) : (s.elapse dt).acwRun kq = s.acwRun kq := rfl
@[simp] theorem State.acwRun_setAcw (s : State) (k : Nat) (x : AcwRun) : (s.setAcw k x).acwRun k = x := by simp [State.acwRun, State.setAcw]
theorem State.acwRun_setAcw_other (s : State) {k l : Nat} (x : AcwRun) (h : l ≠ k) : (s.setAcw k x).acwRun l = s.acwRun l := by
  simp only [State.acwRun, State.setAcw, tget_tset_other _ _ _ h]

/-! ### eng -/

@[simp] theorem State.eng_setReg (s : State) (a : Nat) (v : Word) (kq : Nat) : (s.setReg a v).eng kq = s.eng kq := rfl
@[simp] theorem State.eng_setMreg (s : State) (m : Master) (a : Nat) (v : Word) (kq : Nat) : (s.setMreg m a v).eng kq = s.eng kq := rfl
@[simp] theorem State.eng_send (s : State) (o : Sent) (kq : Nat) : (s.send o).eng kq = s.eng kq := rfl
@[simp] theorem State.eng_setBoot (s : State) (f : Boot → Boot) (kq : Nat) : (s.setBoot f).eng kq = s.eng kq := rfl
@[simp] theorem State.eng_setTc (s : State) (f : TownClock → TownClock) (kq : Nat) : (s.setTc f).eng kq = s.eng kq := rfl
@[simp] theorem State.eng_setPort (s : State) (d : Nat) (o : Ofe) (kq : Nat) : (s.setPort d o).eng kq = s.eng kq := rfl
@[simp] theorem State.eng_setProbe (s : State) (d : Nat) (p : Psy) (kq : Nat) : (s.setProbe d p).eng kq = s.eng kq := rfl
@[simp] theorem State.eng_setDemod (s : State) (d : Nat) (m : Demod) (kq : Nat) : (s.setDemod d m).eng kq = s.eng kq := rfl
@[simp] theorem State.eng_setDie (s : State) (d : Nat) (l : DieLbq) (kq : Nat) : (s.setDie d l).eng kq = s.eng kq := rfl
@[simp] theorem State.eng_setSensor (s : State) (d e : Nat) (x : Sensor) (kq : Nat) : (s.setSensor d e x).eng kq = s.eng kq := rfl
@[simp] theorem State.eng_setCalPort (s : State) (d : Nat) (c : CalPort) (kq : Nat) : (s.setCalPort d c).eng kq = s.eng kq := rfl
@[simp] theorem State.eng_setFdin (s : State) (f : FieldInputs → FieldInputs) (kq : Nat) : (s.setFdin f).eng kq = s.eng kq := rfl
@[simp] theorem State.eng_setOuts (s : State) (f : Outputs → Outputs) (kq : Nat) : (s.setOuts f).eng kq = s.eng kq := rfl
@[simp] theorem State.eng_setMrg (s : State) (f : Merge → Merge) (kq : Nat) : (s.setMrg f).eng kq = s.eng kq := rfl
@[simp] theorem State.eng_setSaf (s : State) (f : Saf → Saf) (kq : Nat) : (s.setSaf f).eng kq = s.eng kq := rfl
@[simp] theorem State.eng_setFds (s : State) (f : FdSafe → FdSafe) (kq : Nat) : (s.setFds f).eng kq = s.eng kq := rfl
@[simp] theorem State.eng_setStr (s : State) (f : Str → Str) (kq : Nat) : (s.setStr f).eng kq = s.eng kq := rfl
@[simp] theorem State.eng_setTpr (s : State) (p : Nat) (x : TprPort) (kq : Nat) : (s.setTpr p x).eng kq = s.eng kq := rfl
@[simp] theorem State.eng_setAcw (s : State) (w : Nat) (r : AcwRun) (kq : Nat) : (s.setAcw w r).eng kq = s.eng kq := rfl
@[simp] theorem State.eng_setFrw (s : State) (f : Frw → Frw) (kq : Nat) : (s.setFrw f).eng kq = s.eng kq := rfl
@[simp] theorem State.eng_setLinks (s : State) (f : Links → Links) (kq : Nat) : (s.setLinks f).eng kq = s.eng kq := rfl
@[simp] theorem State.eng_setCvUnit (s : State) (u : Nat) (c : Cvu) (kq : Nat) : (s.setCvUnit u c).eng kq = s.eng kq := rfl
@[simp] theorem State.eng_setPanel (s : State) (f : Panel → Panel) (kq : Nat) : (s.setPanel f).eng kq = s.eng kq := rfl
@[simp] theorem State.eng_modDomCmds (s : State) (d : Nat) (f : DomainCmds → DomainCmds) (kq : Nat) : (s.modDomCmds d f).eng kq = s.eng kq := rfl
@[simp] theorem State.eng_setJCursor (s : State) (m : Master) (c : LogCursor) (kq : Nat) : (s.setJCursor m c).eng kq = s.eng kq := rfl
@[simp] theorem State.eng_setCCursor (s : State) (m : Master) (c : LogCursor) (kq : Nat) : (s.setCCursor m c).eng kq = s.eng kq := rfl
@[simp] theorem State.eng_raise (s : State) (src : Nat) (data : Word) (kq : Nat) : (s.raise src data).eng kq = s.eng kq := by simp [State.eng]
@[simp] theorem State.eng_setEvt (s : State) (a i : Nat) (kq : Nat) : (s.setEvt a i).eng kq = s.eng kq := by simp [State.eng]
theorem State.eng_elapse (s : State) (dt : Nat) (kq : Nat) : (s.elapse dt).eng kq = s.eng kq := rfl
@[simp] theorem State.eng_setEng (s : State) (k : Nat) (x : DmaEng) : (s.setEng k x).eng k = x := by simp [State.eng, State.setEng]
theorem State.eng_setEng_other (s : State) {k l : Nat} (x : DmaEng) (h : l ≠ k) : (s.setEng k x).eng l = s.eng l := by
  simp only [State.eng, State.setEng, tget_tset_other _ _ _ h]

/-! ### cvUnit -/

@[simp] theorem State.cvUnit_setReg (s : State) (a : Nat) (v : Word) (kq : Nat) : (s.setReg a v).cvUnit kq = s.cvUnit kq := rfl
@[simp] theorem State.cvUnit_setMreg (s : State) (m : Master) (a : Nat) (v : Word) (kq : Nat) : (s.setMreg m a v).cvUnit kq = s.cvUnit kq := rfl
@[simp] theorem State.cvUnit_send (s : State) (o : Sent) (kq : Nat) : (s.send o).cvUnit kq = s.cvUnit kq := rfl
@[simp] theorem State.cvUnit_setBoot (s : State) (f : Boot → Boot) (kq : Nat) : (s.setBoot f).cvUnit kq = s.cvUnit kq := rfl
@[simp] theorem State.cvUnit_setTc (s : State) (f : TownClock → TownClock) (kq : Nat) : (s.setTc f).cvUnit kq = s.cvUnit kq := rfl
@[simp] theorem State.cvUnit_setPort (s : State) (d : Nat) (o : Ofe) (kq : Nat) : (s.setPort d o).cvUnit kq = s.cvUnit kq := rfl
@[simp] theorem State.cvUnit_setProbe (s : State) (d : Nat) (p : Psy) (kq : Nat) : (s.setProbe d p).cvUnit kq = s.cvUnit kq := rfl
@[simp] theorem State.cvUnit_setDemod (s : State) (d : Nat) (m : Demod) (kq : Nat) : (s.setDemod d m).cvUnit kq = s.cvUnit kq := rfl
@[simp] theorem State.cvUnit_setDie (s : State) (d : Nat) (l : DieLbq) (kq : Nat) : (s.setDie d l).cvUnit kq = s.cvUnit kq := rfl
@[simp] theorem State.cvUnit_setSensor (s : State) (d e : Nat) (x : Sensor) (kq : Nat) : (s.setSensor d e x).cvUnit kq = s.cvUnit kq := rfl
@[simp] theorem State.cvUnit_setCalPort (s : State) (d : Nat) (c : CalPort) (kq : Nat) : (s.setCalPort d c).cvUnit kq = s.cvUnit kq := rfl
@[simp] theorem State.cvUnit_setFdin (s : State) (f : FieldInputs → FieldInputs) (kq : Nat) : (s.setFdin f).cvUnit kq = s.cvUnit kq := rfl
@[simp] theorem State.cvUnit_setOuts (s : State) (f : Outputs → Outputs) (kq : Nat) : (s.setOuts f).cvUnit kq = s.cvUnit kq := rfl
@[simp] theorem State.cvUnit_setMrg (s : State) (f : Merge → Merge) (kq : Nat) : (s.setMrg f).cvUnit kq = s.cvUnit kq := rfl
@[simp] theorem State.cvUnit_setSaf (s : State) (f : Saf → Saf) (kq : Nat) : (s.setSaf f).cvUnit kq = s.cvUnit kq := rfl
@[simp] theorem State.cvUnit_setFds (s : State) (f : FdSafe → FdSafe) (kq : Nat) : (s.setFds f).cvUnit kq = s.cvUnit kq := rfl
@[simp] theorem State.cvUnit_setStr (s : State) (f : Str → Str) (kq : Nat) : (s.setStr f).cvUnit kq = s.cvUnit kq := rfl
@[simp] theorem State.cvUnit_setTpr (s : State) (p : Nat) (x : TprPort) (kq : Nat) : (s.setTpr p x).cvUnit kq = s.cvUnit kq := rfl
@[simp] theorem State.cvUnit_setAcw (s : State) (w : Nat) (r : AcwRun) (kq : Nat) : (s.setAcw w r).cvUnit kq = s.cvUnit kq := rfl
@[simp] theorem State.cvUnit_setFrw (s : State) (f : Frw → Frw) (kq : Nat) : (s.setFrw f).cvUnit kq = s.cvUnit kq := rfl
@[simp] theorem State.cvUnit_setLinks (s : State) (f : Links → Links) (kq : Nat) : (s.setLinks f).cvUnit kq = s.cvUnit kq := rfl
@[simp] theorem State.cvUnit_setEng (s : State) (e : Nat) (g : DmaEng) (kq : Nat) : (s.setEng e g).cvUnit kq = s.cvUnit kq := rfl
@[simp] theorem State.cvUnit_setPanel (s : State) (f : Panel → Panel) (kq : Nat) : (s.setPanel f).cvUnit kq = s.cvUnit kq := rfl
@[simp] theorem State.cvUnit_modDomCmds (s : State) (d : Nat) (f : DomainCmds → DomainCmds) (kq : Nat) : (s.modDomCmds d f).cvUnit kq = s.cvUnit kq := rfl
@[simp] theorem State.cvUnit_setJCursor (s : State) (m : Master) (c : LogCursor) (kq : Nat) : (s.setJCursor m c).cvUnit kq = s.cvUnit kq := rfl
@[simp] theorem State.cvUnit_setCCursor (s : State) (m : Master) (c : LogCursor) (kq : Nat) : (s.setCCursor m c).cvUnit kq = s.cvUnit kq := rfl
@[simp] theorem State.cvUnit_raise (s : State) (src : Nat) (data : Word) (kq : Nat) : (s.raise src data).cvUnit kq = s.cvUnit kq := by simp [State.cvUnit]
@[simp] theorem State.cvUnit_setEvt (s : State) (a i : Nat) (kq : Nat) : (s.setEvt a i).cvUnit kq = s.cvUnit kq := by simp [State.cvUnit]
theorem State.cvUnit_elapse (s : State) (dt : Nat) (kq : Nat) : (s.elapse dt).cvUnit kq = s.cvUnit kq := rfl
@[simp] theorem State.cvUnit_setCvUnit (s : State) (k : Nat) (x : Cvu) : (s.setCvUnit k x).cvUnit k = x := by simp [State.cvUnit, State.setCvUnit]
theorem State.cvUnit_setCvUnit_other (s : State) {k l : Nat} (x : Cvu) (h : l ≠ k) : (s.setCvUnit k x).cvUnit l = s.cvUnit l := by
  simp only [State.cvUnit, State.setCvUnit, tget_tset_other _ _ _ h]

/-! ### domCmds -/

@[simp] theorem State.domCmds_setReg (s : State) (a : Nat) (v : Word) (kq : Nat) : (s.setReg a v).domCmds kq = s.domCmds kq := rfl
@[simp] theorem State.domCmds_setMreg (s : State) (m : Master) (a : Nat) (v : Word) (kq : Nat) : (s.setMreg m a v).domCmds kq = s.domCmds kq := rfl
@[simp] theorem State.domCmds_send (s : State) (o : Sent) (kq : Nat) : (s.send o).domCmds kq = s.domCmds kq := rfl
@[simp] theorem State.domCmds_setBoot (s : State) (f : Boot → Boot) (kq : Nat) : (s.setBoot f).domCmds kq = s.domCmds kq := rfl
@[simp] theorem State.domCmds_setTc (s : State) (f : TownClock → TownClock) (kq : Nat) : (s.setTc f).domCmds kq = s.domCmds kq := rfl
@[simp] theorem State.domCmds_setPort (s : State) (d : Nat) (o : Ofe) (kq : Nat) : (s.setPort d o).domCmds kq = s.domCmds kq := rfl
@[simp] theorem State.domCmds_setProbe (s : State) (d : Nat) (p : Psy) (kq : Nat) : (s.setProbe d p).domCmds kq = s.domCmds kq := rfl
@[simp] theorem State.domCmds_setDemod (s : State) (d : Nat) (m : Demod) (kq : Nat) : (s.setDemod d m).domCmds kq = s.domCmds kq := rfl
@[simp] theorem State.domCmds_setDie (s : State) (d : Nat) (l : DieLbq) (kq : Nat) : (s.setDie d l).domCmds kq = s.domCmds kq := rfl
@[simp] theorem State.domCmds_setSensor (s : State) (d e : Nat) (x : Sensor) (kq : Nat) : (s.setSensor d e x).domCmds kq = s.domCmds kq := rfl
@[simp] theorem State.domCmds_setCalPort (s : State) (d : Nat) (c : CalPort) (kq : Nat) : (s.setCalPort d c).domCmds kq = s.domCmds kq := rfl
@[simp] theorem State.domCmds_setFdin (s : State) (f : FieldInputs → FieldInputs) (kq : Nat) : (s.setFdin f).domCmds kq = s.domCmds kq := rfl
@[simp] theorem State.domCmds_setOuts (s : State) (f : Outputs → Outputs) (kq : Nat) : (s.setOuts f).domCmds kq = s.domCmds kq := rfl
@[simp] theorem State.domCmds_setMrg (s : State) (f : Merge → Merge) (kq : Nat) : (s.setMrg f).domCmds kq = s.domCmds kq := rfl
@[simp] theorem State.domCmds_setSaf (s : State) (f : Saf → Saf) (kq : Nat) : (s.setSaf f).domCmds kq = s.domCmds kq := rfl
@[simp] theorem State.domCmds_setFds (s : State) (f : FdSafe → FdSafe) (kq : Nat) : (s.setFds f).domCmds kq = s.domCmds kq := rfl
@[simp] theorem State.domCmds_setStr (s : State) (f : Str → Str) (kq : Nat) : (s.setStr f).domCmds kq = s.domCmds kq := rfl
@[simp] theorem State.domCmds_setTpr (s : State) (p : Nat) (x : TprPort) (kq : Nat) : (s.setTpr p x).domCmds kq = s.domCmds kq := rfl
@[simp] theorem State.domCmds_setAcw (s : State) (w : Nat) (r : AcwRun) (kq : Nat) : (s.setAcw w r).domCmds kq = s.domCmds kq := rfl
@[simp] theorem State.domCmds_setFrw (s : State) (f : Frw → Frw) (kq : Nat) : (s.setFrw f).domCmds kq = s.domCmds kq := rfl
@[simp] theorem State.domCmds_setLinks (s : State) (f : Links → Links) (kq : Nat) : (s.setLinks f).domCmds kq = s.domCmds kq := rfl
@[simp] theorem State.domCmds_setEng (s : State) (e : Nat) (g : DmaEng) (kq : Nat) : (s.setEng e g).domCmds kq = s.domCmds kq := rfl
@[simp] theorem State.domCmds_setCvUnit (s : State) (u : Nat) (c : Cvu) (kq : Nat) : (s.setCvUnit u c).domCmds kq = s.domCmds kq := rfl
@[simp] theorem State.domCmds_setPanel (s : State) (f : Panel → Panel) (kq : Nat) : (s.setPanel f).domCmds kq = s.domCmds kq := rfl
@[simp] theorem State.domCmds_setJCursor (s : State) (m : Master) (c : LogCursor) (kq : Nat) : (s.setJCursor m c).domCmds kq = s.domCmds kq := rfl
@[simp] theorem State.domCmds_setCCursor (s : State) (m : Master) (c : LogCursor) (kq : Nat) : (s.setCCursor m c).domCmds kq = s.domCmds kq := rfl
@[simp] theorem State.domCmds_raise (s : State) (src : Nat) (data : Word) (kq : Nat) : (s.raise src data).domCmds kq = s.domCmds kq := by simp [State.domCmds]
@[simp] theorem State.domCmds_setEvt (s : State) (a i : Nat) (kq : Nat) : (s.setEvt a i).domCmds kq = s.domCmds kq := by simp [State.domCmds]
theorem State.domCmds_elapse (s : State) (dt : Nat) (kq : Nat) : (s.elapse dt).domCmds kq = s.domCmds kq := rfl

/-! ### snap -/

@[simp] theorem State.snap_setReg (s : State) (a : Nat) (v : Word) (kq : Nat) : (s.setReg a v).snap kq = s.snap kq := rfl
@[simp] theorem State.snap_setMreg (s : State) (m : Master) (a : Nat) (v : Word) (kq : Nat) : (s.setMreg m a v).snap kq = s.snap kq := rfl
@[simp] theorem State.snap_send (s : State) (o : Sent) (kq : Nat) : (s.send o).snap kq = s.snap kq := rfl
@[simp] theorem State.snap_setBoot (s : State) (f : Boot → Boot) (kq : Nat) : (s.setBoot f).snap kq = s.snap kq := rfl
@[simp] theorem State.snap_setTc (s : State) (f : TownClock → TownClock) (kq : Nat) : (s.setTc f).snap kq = s.snap kq := rfl
@[simp] theorem State.snap_setPort (s : State) (d : Nat) (o : Ofe) (kq : Nat) : (s.setPort d o).snap kq = s.snap kq := rfl
@[simp] theorem State.snap_setProbe (s : State) (d : Nat) (p : Psy) (kq : Nat) : (s.setProbe d p).snap kq = s.snap kq := rfl
@[simp] theorem State.snap_setDemod (s : State) (d : Nat) (m : Demod) (kq : Nat) : (s.setDemod d m).snap kq = s.snap kq := rfl
@[simp] theorem State.snap_setDie (s : State) (d : Nat) (l : DieLbq) (kq : Nat) : (s.setDie d l).snap kq = s.snap kq := rfl
@[simp] theorem State.snap_setSensor (s : State) (d e : Nat) (x : Sensor) (kq : Nat) : (s.setSensor d e x).snap kq = s.snap kq := rfl
@[simp] theorem State.snap_setCalPort (s : State) (d : Nat) (c : CalPort) (kq : Nat) : (s.setCalPort d c).snap kq = s.snap kq := rfl
@[simp] theorem State.snap_setFdin (s : State) (f : FieldInputs → FieldInputs) (kq : Nat) : (s.setFdin f).snap kq = s.snap kq := rfl
@[simp] theorem State.snap_setOuts (s : State) (f : Outputs → Outputs) (kq : Nat) : (s.setOuts f).snap kq = s.snap kq := rfl
@[simp] theorem State.snap_setMrg (s : State) (f : Merge → Merge) (kq : Nat) : (s.setMrg f).snap kq = s.snap kq := rfl
@[simp] theorem State.snap_setSaf (s : State) (f : Saf → Saf) (kq : Nat) : (s.setSaf f).snap kq = s.snap kq := rfl
@[simp] theorem State.snap_setFds (s : State) (f : FdSafe → FdSafe) (kq : Nat) : (s.setFds f).snap kq = s.snap kq := rfl
@[simp] theorem State.snap_setStr (s : State) (f : Str → Str) (kq : Nat) : (s.setStr f).snap kq = s.snap kq := rfl
@[simp] theorem State.snap_setTpr (s : State) (p : Nat) (x : TprPort) (kq : Nat) : (s.setTpr p x).snap kq = s.snap kq := rfl
@[simp] theorem State.snap_setAcw (s : State) (w : Nat) (r : AcwRun) (kq : Nat) : (s.setAcw w r).snap kq = s.snap kq := rfl
@[simp] theorem State.snap_setFrw (s : State) (f : Frw → Frw) (kq : Nat) : (s.setFrw f).snap kq = s.snap kq := rfl
@[simp] theorem State.snap_setLinks (s : State) (f : Links → Links) (kq : Nat) : (s.setLinks f).snap kq = s.snap kq := rfl
@[simp] theorem State.snap_setEng (s : State) (e : Nat) (g : DmaEng) (kq : Nat) : (s.setEng e g).snap kq = s.snap kq := rfl
@[simp] theorem State.snap_setCvUnit (s : State) (u : Nat) (c : Cvu) (kq : Nat) : (s.setCvUnit u c).snap kq = s.snap kq := rfl
@[simp] theorem State.snap_setPanel (s : State) (f : Panel → Panel) (kq : Nat) : (s.setPanel f).snap kq = s.snap kq := rfl
@[simp] theorem State.snap_modDomCmds (s : State) (d : Nat) (f : DomainCmds → DomainCmds) (kq : Nat) : (s.modDomCmds d f).snap kq = s.snap kq := rfl
@[simp] theorem State.snap_setJCursor (s : State) (m : Master) (c : LogCursor) (kq : Nat) : (s.setJCursor m c).snap kq = s.snap kq := rfl
@[simp] theorem State.snap_setCCursor (s : State) (m : Master) (c : LogCursor) (kq : Nat) : (s.setCCursor m c).snap kq = s.snap kq := rfl
@[simp] theorem State.snap_raise (s : State) (src : Nat) (data : Word) (kq : Nat) : (s.raise src data).snap kq = s.snap kq := by simp [State.snap]
@[simp] theorem State.snap_setEvt (s : State) (a i : Nat) (kq : Nat) : (s.setEvt a i).snap kq = s.snap kq := by simp [State.snap]
theorem State.snap_elapse (s : State) (dt : Nat) (kq : Nat) : (s.elapse dt).snap kq = s.snap kq := rfl

/-! ### wpRec -/

@[simp] theorem State.wpRec_setReg (s : State) (a : Nat) (v : Word) (kq : Nat) : (s.setReg a v).wpRec kq = s.wpRec kq := rfl
@[simp] theorem State.wpRec_setMreg (s : State) (m : Master) (a : Nat) (v : Word) (kq : Nat) : (s.setMreg m a v).wpRec kq = s.wpRec kq := rfl
@[simp] theorem State.wpRec_send (s : State) (o : Sent) (kq : Nat) : (s.send o).wpRec kq = s.wpRec kq := rfl
@[simp] theorem State.wpRec_setBoot (s : State) (f : Boot → Boot) (kq : Nat) : (s.setBoot f).wpRec kq = s.wpRec kq := rfl
@[simp] theorem State.wpRec_setTc (s : State) (f : TownClock → TownClock) (kq : Nat) : (s.setTc f).wpRec kq = s.wpRec kq := rfl
@[simp] theorem State.wpRec_setPort (s : State) (d : Nat) (o : Ofe) (kq : Nat) : (s.setPort d o).wpRec kq = s.wpRec kq := rfl
@[simp] theorem State.wpRec_setProbe (s : State) (d : Nat) (p : Psy) (kq : Nat) : (s.setProbe d p).wpRec kq = s.wpRec kq := rfl
@[simp] theorem State.wpRec_setDemod (s : State) (d : Nat) (m : Demod) (kq : Nat) : (s.setDemod d m).wpRec kq = s.wpRec kq := rfl
@[simp] theorem State.wpRec_setDie (s : State) (d : Nat) (l : DieLbq) (kq : Nat) : (s.setDie d l).wpRec kq = s.wpRec kq := rfl
@[simp] theorem State.wpRec_setSensor (s : State) (d e : Nat) (x : Sensor) (kq : Nat) : (s.setSensor d e x).wpRec kq = s.wpRec kq := rfl
@[simp] theorem State.wpRec_setCalPort (s : State) (d : Nat) (c : CalPort) (kq : Nat) : (s.setCalPort d c).wpRec kq = s.wpRec kq := rfl
@[simp] theorem State.wpRec_setFdin (s : State) (f : FieldInputs → FieldInputs) (kq : Nat) : (s.setFdin f).wpRec kq = s.wpRec kq := rfl
@[simp] theorem State.wpRec_setOuts (s : State) (f : Outputs → Outputs) (kq : Nat) : (s.setOuts f).wpRec kq = s.wpRec kq := rfl
@[simp] theorem State.wpRec_setMrg (s : State) (f : Merge → Merge) (kq : Nat) : (s.setMrg f).wpRec kq = s.wpRec kq := rfl
@[simp] theorem State.wpRec_setSaf (s : State) (f : Saf → Saf) (kq : Nat) : (s.setSaf f).wpRec kq = s.wpRec kq := rfl
@[simp] theorem State.wpRec_setFds (s : State) (f : FdSafe → FdSafe) (kq : Nat) : (s.setFds f).wpRec kq = s.wpRec kq := rfl
@[simp] theorem State.wpRec_setStr (s : State) (f : Str → Str) (kq : Nat) : (s.setStr f).wpRec kq = s.wpRec kq := rfl
@[simp] theorem State.wpRec_setTpr (s : State) (p : Nat) (x : TprPort) (kq : Nat) : (s.setTpr p x).wpRec kq = s.wpRec kq := rfl
@[simp] theorem State.wpRec_setAcw (s : State) (w : Nat) (r : AcwRun) (kq : Nat) : (s.setAcw w r).wpRec kq = s.wpRec kq := rfl
@[simp] theorem State.wpRec_setFrw (s : State) (f : Frw → Frw) (kq : Nat) : (s.setFrw f).wpRec kq = s.wpRec kq := rfl
@[simp] theorem State.wpRec_setLinks (s : State) (f : Links → Links) (kq : Nat) : (s.setLinks f).wpRec kq = s.wpRec kq := rfl
@[simp] theorem State.wpRec_setEng (s : State) (e : Nat) (g : DmaEng) (kq : Nat) : (s.setEng e g).wpRec kq = s.wpRec kq := rfl
@[simp] theorem State.wpRec_setCvUnit (s : State) (u : Nat) (c : Cvu) (kq : Nat) : (s.setCvUnit u c).wpRec kq = s.wpRec kq := rfl
@[simp] theorem State.wpRec_setPanel (s : State) (f : Panel → Panel) (kq : Nat) : (s.setPanel f).wpRec kq = s.wpRec kq := rfl
@[simp] theorem State.wpRec_modDomCmds (s : State) (d : Nat) (f : DomainCmds → DomainCmds) (kq : Nat) : (s.modDomCmds d f).wpRec kq = s.wpRec kq := rfl
@[simp] theorem State.wpRec_setJCursor (s : State) (m : Master) (c : LogCursor) (kq : Nat) : (s.setJCursor m c).wpRec kq = s.wpRec kq := rfl
@[simp] theorem State.wpRec_setCCursor (s : State) (m : Master) (c : LogCursor) (kq : Nat) : (s.setCCursor m c).wpRec kq = s.wpRec kq := rfl
@[simp] theorem State.wpRec_raise (s : State) (src : Nat) (data : Word) (kq : Nat) : (s.raise src data).wpRec kq = s.wpRec kq := by simp [State.wpRec]
@[simp] theorem State.wpRec_setEvt (s : State) (a i : Nat) (kq : Nat) : (s.setEvt a i).wpRec kq = s.wpRec kq := by simp [State.wpRec]
theorem State.wpRec_elapse (s : State) (dt : Nat) (kq : Nat) : (s.elapse dt).wpRec kq = s.wpRec kq := rfl

/-! ### jCursor -/

@[simp] theorem State.jCursor_setReg (s : State) (a : Nat) (v : Word) (kq : Master) : (s.setReg a v).jCursor kq = s.jCursor kq := rfl
@[simp] theorem State.jCursor_setMreg (s : State) (m : Master) (a : Nat) (v : Word) (kq : Master) : (s.setMreg m a v).jCursor kq = s.jCursor kq := rfl
@[simp] theorem State.jCursor_send (s : State) (o : Sent) (kq : Master) : (s.send o).jCursor kq = s.jCursor kq := rfl
@[simp] theorem State.jCursor_setBoot (s : State) (f : Boot → Boot) (kq : Master) : (s.setBoot f).jCursor kq = s.jCursor kq := rfl
@[simp] theorem State.jCursor_setTc (s : State) (f : TownClock → TownClock) (kq : Master) : (s.setTc f).jCursor kq = s.jCursor kq := rfl
@[simp] theorem State.jCursor_setPort (s : State) (d : Nat) (o : Ofe) (kq : Master) : (s.setPort d o).jCursor kq = s.jCursor kq := rfl
@[simp] theorem State.jCursor_setProbe (s : State) (d : Nat) (p : Psy) (kq : Master) : (s.setProbe d p).jCursor kq = s.jCursor kq := rfl
@[simp] theorem State.jCursor_setDemod (s : State) (d : Nat) (m : Demod) (kq : Master) : (s.setDemod d m).jCursor kq = s.jCursor kq := rfl
@[simp] theorem State.jCursor_setDie (s : State) (d : Nat) (l : DieLbq) (kq : Master) : (s.setDie d l).jCursor kq = s.jCursor kq := rfl
@[simp] theorem State.jCursor_setSensor (s : State) (d e : Nat) (x : Sensor) (kq : Master) : (s.setSensor d e x).jCursor kq = s.jCursor kq := rfl
@[simp] theorem State.jCursor_setCalPort (s : State) (d : Nat) (c : CalPort) (kq : Master) : (s.setCalPort d c).jCursor kq = s.jCursor kq := rfl
@[simp] theorem State.jCursor_setFdin (s : State) (f : FieldInputs → FieldInputs) (kq : Master) : (s.setFdin f).jCursor kq = s.jCursor kq := rfl
@[simp] theorem State.jCursor_setOuts (s : State) (f : Outputs → Outputs) (kq : Master) : (s.setOuts f).jCursor kq = s.jCursor kq := rfl
@[simp] theorem State.jCursor_setMrg (s : State) (f : Merge → Merge) (kq : Master) : (s.setMrg f).jCursor kq = s.jCursor kq := rfl
@[simp] theorem State.jCursor_setSaf (s : State) (f : Saf → Saf) (kq : Master) : (s.setSaf f).jCursor kq = s.jCursor kq := rfl
@[simp] theorem State.jCursor_setFds (s : State) (f : FdSafe → FdSafe) (kq : Master) : (s.setFds f).jCursor kq = s.jCursor kq := rfl
@[simp] theorem State.jCursor_setStr (s : State) (f : Str → Str) (kq : Master) : (s.setStr f).jCursor kq = s.jCursor kq := rfl
@[simp] theorem State.jCursor_setTpr (s : State) (p : Nat) (x : TprPort) (kq : Master) : (s.setTpr p x).jCursor kq = s.jCursor kq := rfl
@[simp] theorem State.jCursor_setAcw (s : State) (w : Nat) (r : AcwRun) (kq : Master) : (s.setAcw w r).jCursor kq = s.jCursor kq := rfl
@[simp] theorem State.jCursor_setFrw (s : State) (f : Frw → Frw) (kq : Master) : (s.setFrw f).jCursor kq = s.jCursor kq := rfl
@[simp] theorem State.jCursor_setLinks (s : State) (f : Links → Links) (kq : Master) : (s.setLinks f).jCursor kq = s.jCursor kq := rfl
@[simp] theorem State.jCursor_setEng (s : State) (e : Nat) (g : DmaEng) (kq : Master) : (s.setEng e g).jCursor kq = s.jCursor kq := rfl
@[simp] theorem State.jCursor_setCvUnit (s : State) (u : Nat) (c : Cvu) (kq : Master) : (s.setCvUnit u c).jCursor kq = s.jCursor kq := rfl
@[simp] theorem State.jCursor_setPanel (s : State) (f : Panel → Panel) (kq : Master) : (s.setPanel f).jCursor kq = s.jCursor kq := rfl
@[simp] theorem State.jCursor_modDomCmds (s : State) (d : Nat) (f : DomainCmds → DomainCmds) (kq : Master) : (s.modDomCmds d f).jCursor kq = s.jCursor kq := rfl
@[simp] theorem State.jCursor_setCCursor (s : State) (m : Master) (c : LogCursor) (kq : Master) : (s.setCCursor m c).jCursor kq = s.jCursor kq := rfl
@[simp] theorem State.jCursor_raise (s : State) (src : Nat) (data : Word) (kq : Master) : (s.raise src data).jCursor kq = s.jCursor kq := by simp [State.jCursor]
@[simp] theorem State.jCursor_setEvt (s : State) (a i : Nat) (kq : Master) : (s.setEvt a i).jCursor kq = s.jCursor kq := by simp [State.jCursor]
theorem State.jCursor_elapse (s : State) (dt : Nat) (kq : Master) : (s.elapse dt).jCursor kq = s.jCursor kq := rfl

/-! ### cCursor -/

@[simp] theorem State.cCursor_setReg (s : State) (a : Nat) (v : Word) (kq : Master) : (s.setReg a v).cCursor kq = s.cCursor kq := rfl
@[simp] theorem State.cCursor_setMreg (s : State) (m : Master) (a : Nat) (v : Word) (kq : Master) : (s.setMreg m a v).cCursor kq = s.cCursor kq := rfl
@[simp] theorem State.cCursor_send (s : State) (o : Sent) (kq : Master) : (s.send o).cCursor kq = s.cCursor kq := rfl
@[simp] theorem State.cCursor_setBoot (s : State) (f : Boot → Boot) (kq : Master) : (s.setBoot f).cCursor kq = s.cCursor kq := rfl
@[simp] theorem State.cCursor_setTc (s : State) (f : TownClock → TownClock) (kq : Master) : (s.setTc f).cCursor kq = s.cCursor kq := rfl
@[simp] theorem State.cCursor_setPort (s : State) (d : Nat) (o : Ofe) (kq : Master) : (s.setPort d o).cCursor kq = s.cCursor kq := rfl
@[simp] theorem State.cCursor_setProbe (s : State) (d : Nat) (p : Psy) (kq : Master) : (s.setProbe d p).cCursor kq = s.cCursor kq := rfl
@[simp] theorem State.cCursor_setDemod (s : State) (d : Nat) (m : Demod) (kq : Master) : (s.setDemod d m).cCursor kq = s.cCursor kq := rfl
@[simp] theorem State.cCursor_setDie (s : State) (d : Nat) (l : DieLbq) (kq : Master) : (s.setDie d l).cCursor kq = s.cCursor kq := rfl
@[simp] theorem State.cCursor_setSensor (s : State) (d e : Nat) (x : Sensor) (kq : Master) : (s.setSensor d e x).cCursor kq = s.cCursor kq := rfl
@[simp] theorem State.cCursor_setCalPort (s : State) (d : Nat) (c : CalPort) (kq : Master) : (s.setCalPort d c).cCursor kq = s.cCursor kq := rfl
@[simp] theorem State.cCursor_setFdin (s : State) (f : FieldInputs → FieldInputs) (kq : Master) : (s.setFdin f).cCursor kq = s.cCursor kq := rfl
@[simp] theorem State.cCursor_setOuts (s : State) (f : Outputs → Outputs) (kq : Master) : (s.setOuts f).cCursor kq = s.cCursor kq := rfl
@[simp] theorem State.cCursor_setMrg (s : State) (f : Merge → Merge) (kq : Master) : (s.setMrg f).cCursor kq = s.cCursor kq := rfl
@[simp] theorem State.cCursor_setSaf (s : State) (f : Saf → Saf) (kq : Master) : (s.setSaf f).cCursor kq = s.cCursor kq := rfl
@[simp] theorem State.cCursor_setFds (s : State) (f : FdSafe → FdSafe) (kq : Master) : (s.setFds f).cCursor kq = s.cCursor kq := rfl
@[simp] theorem State.cCursor_setStr (s : State) (f : Str → Str) (kq : Master) : (s.setStr f).cCursor kq = s.cCursor kq := rfl
@[simp] theorem State.cCursor_setTpr (s : State) (p : Nat) (x : TprPort) (kq : Master) : (s.setTpr p x).cCursor kq = s.cCursor kq := rfl
@[simp] theorem State.cCursor_setAcw (s : State) (w : Nat) (r : AcwRun) (kq : Master) : (s.setAcw w r).cCursor kq = s.cCursor kq := rfl
@[simp] theorem State.cCursor_setFrw (s : State) (f : Frw → Frw) (kq : Master) : (s.setFrw f).cCursor kq = s.cCursor kq := rfl
@[simp] theorem State.cCursor_setLinks (s : State) (f : Links → Links) (kq : Master) : (s.setLinks f).cCursor kq = s.cCursor kq := rfl
@[simp] theorem State.cCursor_setEng (s : State) (e : Nat) (g : DmaEng) (kq : Master) : (s.setEng e g).cCursor kq = s.cCursor kq := rfl
@[simp] theorem State.cCursor_setCvUnit (s : State) (u : Nat) (c : Cvu) (kq : Master) : (s.setCvUnit u c).cCursor kq = s.cCursor kq := rfl
@[simp] theorem State.cCursor_setPanel (s : State) (f : Panel → Panel) (kq : Master) : (s.setPanel f).cCursor kq = s.cCursor kq := rfl
@[simp] theorem State.cCursor_modDomCmds (s : State) (d : Nat) (f : DomainCmds → DomainCmds) (kq : Master) : (s.modDomCmds d f).cCursor kq = s.cCursor kq := rfl
@[simp] theorem State.cCursor_setJCursor (s : State) (m : Master) (c : LogCursor) (kq : Master) : (s.setJCursor m c).cCursor kq = s.cCursor kq := rfl
@[simp] theorem State.cCursor_raise (s : State) (src : Nat) (data : Word) (kq : Master) : (s.raise src data).cCursor kq = s.cCursor kq := by simp [State.cCursor]
@[simp] theorem State.cCursor_setEvt (s : State) (a i : Nat) (kq : Master) : (s.setEvt a i).cCursor kq = s.cCursor kq := by simp [State.cCursor]
theorem State.cCursor_elapse (s : State) (dt : Nat) (kq : Master) : (s.elapse dt).cCursor kq = s.cCursor kq := rfl

/-! ### wsc -/

@[simp] theorem State.wsc_setReg (s : State) (a : Nat) (v : Word) (kq : Nat) : (s.setReg a v).wsc kq = s.wsc kq := rfl
@[simp] theorem State.wsc_setMreg (s : State) (m : Master) (a : Nat) (v : Word) (kq : Nat) : (s.setMreg m a v).wsc kq = s.wsc kq := rfl
@[simp] theorem State.wsc_send (s : State) (o : Sent) (kq : Nat) : (s.send o).wsc kq = s.wsc kq := rfl
@[simp] theorem State.wsc_setBoot (s : State) (f : Boot → Boot) (kq : Nat) : (s.setBoot f).wsc kq = s.wsc kq := rfl
@[simp] theorem State.wsc_setTc (s : State) (f : TownClock → TownClock) (kq : Nat) : (s.setTc f).wsc kq = s.wsc kq := rfl
@[simp] theorem State.wsc_setPort (s : State) (d : Nat) (o : Ofe) (kq : Nat) : (s.setPort d o).wsc kq = s.wsc kq := rfl
@[simp] theorem State.wsc_setProbe (s : State) (d : Nat) (p : Psy) (kq : Nat) : (s.setProbe d p).wsc kq = s.wsc kq := rfl
@[simp] theorem State.wsc_setDemod (s : State) (d : Nat) (m : Demod) (kq : Nat) : (s.setDemod d m).wsc kq = s.wsc kq := rfl
@[simp] theorem State.wsc_setDie (s : State) (d : Nat) (l : DieLbq) (kq : Nat) : (s.setDie d l).wsc kq = s.wsc kq := rfl
@[simp] theorem State.wsc_setSensor (s : State) (d e : Nat) (x : Sensor) (kq : Nat) : (s.setSensor d e x).wsc kq = s.wsc kq := rfl
@[simp] theorem State.wsc_setCalPort (s : State) (d : Nat) (c : CalPort) (kq : Nat) : (s.setCalPort d c).wsc kq = s.wsc kq := rfl
@[simp] theorem State.wsc_setOuts (s : State) (f : Outputs → Outputs) (kq : Nat) : (s.setOuts f).wsc kq = s.wsc kq := rfl
@[simp] theorem State.wsc_setMrg (s : State) (f : Merge → Merge) (kq : Nat) : (s.setMrg f).wsc kq = s.wsc kq := rfl
@[simp] theorem State.wsc_setSaf (s : State) (f : Saf → Saf) (kq : Nat) : (s.setSaf f).wsc kq = s.wsc kq := rfl
@[simp] theorem State.wsc_setFds (s : State) (f : FdSafe → FdSafe) (kq : Nat) : (s.setFds f).wsc kq = s.wsc kq := rfl
@[simp] theorem State.wsc_setStr (s : State) (f : Str → Str) (kq : Nat) : (s.setStr f).wsc kq = s.wsc kq := rfl
@[simp] theorem State.wsc_setTpr (s : State) (p : Nat) (x : TprPort) (kq : Nat) : (s.setTpr p x).wsc kq = s.wsc kq := rfl
@[simp] theorem State.wsc_setAcw (s : State) (w : Nat) (r : AcwRun) (kq : Nat) : (s.setAcw w r).wsc kq = s.wsc kq := rfl
@[simp] theorem State.wsc_setFrw (s : State) (f : Frw → Frw) (kq : Nat) : (s.setFrw f).wsc kq = s.wsc kq := rfl
@[simp] theorem State.wsc_setLinks (s : State) (f : Links → Links) (kq : Nat) : (s.setLinks f).wsc kq = s.wsc kq := rfl
@[simp] theorem State.wsc_setEng (s : State) (e : Nat) (g : DmaEng) (kq : Nat) : (s.setEng e g).wsc kq = s.wsc kq := rfl
@[simp] theorem State.wsc_setCvUnit (s : State) (u : Nat) (c : Cvu) (kq : Nat) : (s.setCvUnit u c).wsc kq = s.wsc kq := rfl
@[simp] theorem State.wsc_setPanel (s : State) (f : Panel → Panel) (kq : Nat) : (s.setPanel f).wsc kq = s.wsc kq := rfl
@[simp] theorem State.wsc_modDomCmds (s : State) (d : Nat) (f : DomainCmds → DomainCmds) (kq : Nat) : (s.modDomCmds d f).wsc kq = s.wsc kq := rfl
@[simp] theorem State.wsc_setJCursor (s : State) (m : Master) (c : LogCursor) (kq : Nat) : (s.setJCursor m c).wsc kq = s.wsc kq := rfl
@[simp] theorem State.wsc_setCCursor (s : State) (m : Master) (c : LogCursor) (kq : Nat) : (s.setCCursor m c).wsc kq = s.wsc kq := rfl
@[simp] theorem State.wsc_raise (s : State) (src : Nat) (data : Word) (kq : Nat) : (s.raise src data).wsc kq = s.wsc kq := by simp [State.wsc]
@[simp] theorem State.wsc_setEvt (s : State) (a i : Nat) (kq : Nat) : (s.setEvt a i).wsc kq = s.wsc kq := by simp [State.wsc]
theorem State.wsc_elapse (s : State) (dt : Nat) (kq : Nat) : (s.elapse dt).wsc kq = s.wsc kq := rfl

/-! ### fsi -/

@[simp] theorem State.fsi_setReg (s : State) (a : Nat) (v : Word) (kq : Nat) : (s.setReg a v).fsi kq = s.fsi kq := rfl
@[simp] theorem State.fsi_setMreg (s : State) (m : Master) (a : Nat) (v : Word) (kq : Nat) : (s.setMreg m a v).fsi kq = s.fsi kq := rfl
@[simp] theorem State.fsi_send (s : State) (o : Sent) (kq : Nat) : (s.send o).fsi kq = s.fsi kq := rfl
@[simp] theorem State.fsi_setBoot (s : State) (f : Boot → Boot) (kq : Nat) : (s.setBoot f).fsi kq = s.fsi kq := rfl
@[simp] theorem State.fsi_setTc (s : State) (f : TownClock → TownClock) (kq : Nat) : (s.setTc f).fsi kq = s.fsi kq := rfl
@[simp] theorem State.fsi_setPort (s : State) (d : Nat) (o : Ofe) (kq : Nat) : (s.setPort d o).fsi kq = s.fsi kq := rfl
@[simp] theorem State.fsi_setProbe (s : State) (d : Nat) (p : Psy) (kq : Nat) : (s.setProbe d p).fsi kq = s.fsi kq := rfl
@[simp] theorem State.fsi_setDemod (s : State) (d : Nat) (m : Demod) (kq : Nat) : (s.setDemod d m).fsi kq = s.fsi kq := rfl
@[simp] theorem State.fsi_setDie (s : State) (d : Nat) (l : DieLbq) (kq : Nat) : (s.setDie d l).fsi kq = s.fsi kq := rfl
@[simp] theorem State.fsi_setSensor (s : State) (d e : Nat) (x : Sensor) (kq : Nat) : (s.setSensor d e x).fsi kq = s.fsi kq := rfl
@[simp] theorem State.fsi_setCalPort (s : State) (d : Nat) (c : CalPort) (kq : Nat) : (s.setCalPort d c).fsi kq = s.fsi kq := rfl
@[simp] theorem State.fsi_setOuts (s : State) (f : Outputs → Outputs) (kq : Nat) : (s.setOuts f).fsi kq = s.fsi kq := rfl
@[simp] theorem State.fsi_setMrg (s : State) (f : Merge → Merge) (kq : Nat) : (s.setMrg f).fsi kq = s.fsi kq := rfl
@[simp] theorem State.fsi_setSaf (s : State) (f : Saf → Saf) (kq : Nat) : (s.setSaf f).fsi kq = s.fsi kq := rfl
@[simp] theorem State.fsi_setFds (s : State) (f : FdSafe → FdSafe) (kq : Nat) : (s.setFds f).fsi kq = s.fsi kq := rfl
@[simp] theorem State.fsi_setStr (s : State) (f : Str → Str) (kq : Nat) : (s.setStr f).fsi kq = s.fsi kq := rfl
@[simp] theorem State.fsi_setTpr (s : State) (p : Nat) (x : TprPort) (kq : Nat) : (s.setTpr p x).fsi kq = s.fsi kq := rfl
@[simp] theorem State.fsi_setAcw (s : State) (w : Nat) (r : AcwRun) (kq : Nat) : (s.setAcw w r).fsi kq = s.fsi kq := rfl
@[simp] theorem State.fsi_setFrw (s : State) (f : Frw → Frw) (kq : Nat) : (s.setFrw f).fsi kq = s.fsi kq := rfl
@[simp] theorem State.fsi_setLinks (s : State) (f : Links → Links) (kq : Nat) : (s.setLinks f).fsi kq = s.fsi kq := rfl
@[simp] theorem State.fsi_setEng (s : State) (e : Nat) (g : DmaEng) (kq : Nat) : (s.setEng e g).fsi kq = s.fsi kq := rfl
@[simp] theorem State.fsi_setCvUnit (s : State) (u : Nat) (c : Cvu) (kq : Nat) : (s.setCvUnit u c).fsi kq = s.fsi kq := rfl
@[simp] theorem State.fsi_setPanel (s : State) (f : Panel → Panel) (kq : Nat) : (s.setPanel f).fsi kq = s.fsi kq := rfl
@[simp] theorem State.fsi_modDomCmds (s : State) (d : Nat) (f : DomainCmds → DomainCmds) (kq : Nat) : (s.modDomCmds d f).fsi kq = s.fsi kq := rfl
@[simp] theorem State.fsi_setJCursor (s : State) (m : Master) (c : LogCursor) (kq : Nat) : (s.setJCursor m c).fsi kq = s.fsi kq := rfl
@[simp] theorem State.fsi_setCCursor (s : State) (m : Master) (c : LogCursor) (kq : Nat) : (s.setCCursor m c).fsi kq = s.fsi kq := rfl
@[simp] theorem State.fsi_raise (s : State) (src : Nat) (data : Word) (kq : Nat) : (s.raise src data).fsi kq = s.fsi kq := by simp [State.fsi]
@[simp] theorem State.fsi_setEvt (s : State) (a i : Nat) (kq : Nat) : (s.setEvt a i).fsi kq = s.fsi kq := by simp [State.fsi]
theorem State.fsi_elapse (s : State) (dt : Nat) (kq : Nat) : (s.elapse dt).fsi kq = s.fsi kq := rfl

/-! ### bfb -/

@[simp] theorem State.bfb_setReg (s : State) (a : Nat) (v : Word) (kq : Nat) : (s.setReg a v).bfb kq = s.bfb kq := rfl
@[simp] theorem State.bfb_setMreg (s : State) (m : Master) (a : Nat) (v : Word) (kq : Nat) : (s.setMreg m a v).bfb kq = s.bfb kq := rfl
@[simp] theorem State.bfb_send (s : State) (o : Sent) (kq : Nat) : (s.send o).bfb kq = s.bfb kq := rfl
@[simp] theorem State.bfb_setBoot (s : State) (f : Boot → Boot) (kq : Nat) : (s.setBoot f).bfb kq = s.bfb kq := rfl
@[simp] theorem State.bfb_setTc (s : State) (f : TownClock → TownClock) (kq : Nat) : (s.setTc f).bfb kq = s.bfb kq := rfl
@[simp] theorem State.bfb_setPort (s : State) (d : Nat) (o : Ofe) (kq : Nat) : (s.setPort d o).bfb kq = s.bfb kq := rfl
@[simp] theorem State.bfb_setProbe (s : State) (d : Nat) (p : Psy) (kq : Nat) : (s.setProbe d p).bfb kq = s.bfb kq := rfl
@[simp] theorem State.bfb_setDemod (s : State) (d : Nat) (m : Demod) (kq : Nat) : (s.setDemod d m).bfb kq = s.bfb kq := rfl
@[simp] theorem State.bfb_setDie (s : State) (d : Nat) (l : DieLbq) (kq : Nat) : (s.setDie d l).bfb kq = s.bfb kq := rfl
@[simp] theorem State.bfb_setSensor (s : State) (d e : Nat) (x : Sensor) (kq : Nat) : (s.setSensor d e x).bfb kq = s.bfb kq := rfl
@[simp] theorem State.bfb_setCalPort (s : State) (d : Nat) (c : CalPort) (kq : Nat) : (s.setCalPort d c).bfb kq = s.bfb kq := rfl
@[simp] theorem State.bfb_setOuts (s : State) (f : Outputs → Outputs) (kq : Nat) : (s.setOuts f).bfb kq = s.bfb kq := rfl
@[simp] theorem State.bfb_setMrg (s : State) (f : Merge → Merge) (kq : Nat) : (s.setMrg f).bfb kq = s.bfb kq := rfl
@[simp] theorem State.bfb_setSaf (s : State) (f : Saf → Saf) (kq : Nat) : (s.setSaf f).bfb kq = s.bfb kq := rfl
@[simp] theorem State.bfb_setFds (s : State) (f : FdSafe → FdSafe) (kq : Nat) : (s.setFds f).bfb kq = s.bfb kq := rfl
@[simp] theorem State.bfb_setStr (s : State) (f : Str → Str) (kq : Nat) : (s.setStr f).bfb kq = s.bfb kq := rfl
@[simp] theorem State.bfb_setTpr (s : State) (p : Nat) (x : TprPort) (kq : Nat) : (s.setTpr p x).bfb kq = s.bfb kq := rfl
@[simp] theorem State.bfb_setAcw (s : State) (w : Nat) (r : AcwRun) (kq : Nat) : (s.setAcw w r).bfb kq = s.bfb kq := rfl
@[simp] theorem State.bfb_setFrw (s : State) (f : Frw → Frw) (kq : Nat) : (s.setFrw f).bfb kq = s.bfb kq := rfl
@[simp] theorem State.bfb_setLinks (s : State) (f : Links → Links) (kq : Nat) : (s.setLinks f).bfb kq = s.bfb kq := rfl
@[simp] theorem State.bfb_setEng (s : State) (e : Nat) (g : DmaEng) (kq : Nat) : (s.setEng e g).bfb kq = s.bfb kq := rfl
@[simp] theorem State.bfb_setCvUnit (s : State) (u : Nat) (c : Cvu) (kq : Nat) : (s.setCvUnit u c).bfb kq = s.bfb kq := rfl
@[simp] theorem State.bfb_setPanel (s : State) (f : Panel → Panel) (kq : Nat) : (s.setPanel f).bfb kq = s.bfb kq := rfl
@[simp] theorem State.bfb_modDomCmds (s : State) (d : Nat) (f : DomainCmds → DomainCmds) (kq : Nat) : (s.modDomCmds d f).bfb kq = s.bfb kq := rfl
@[simp] theorem State.bfb_setJCursor (s : State) (m : Master) (c : LogCursor) (kq : Nat) : (s.setJCursor m c).bfb kq = s.bfb kq := rfl
@[simp] theorem State.bfb_setCCursor (s : State) (m : Master) (c : LogCursor) (kq : Nat) : (s.setCCursor m c).bfb kq = s.bfb kq := rfl
@[simp] theorem State.bfb_raise (s : State) (src : Nat) (data : Word) (kq : Nat) : (s.raise src data).bfb kq = s.bfb kq := by simp [State.bfb]
@[simp] theorem State.bfb_setEvt (s : State) (a i : Nat) (kq : Nat) : (s.setEvt a i).bfb kq = s.bfb kq := by simp [State.bfb]
theorem State.bfb_elapse (s : State) (dt : Nat) (kq : Nat) : (s.elapse dt).bfb kq = s.bfb kq := rfl

/-! ### session -/

@[simp] theorem State.session_setReg (s : State) (a : Nat) (v : Word) (kq : Nat) : (s.setReg a v).session kq = s.session kq := rfl
@[simp] theorem State.session_setMreg (s : State) (m : Master) (a : Nat) (v : Word) (kq : Nat) : (s.setMreg m a v).session kq = s.session kq := rfl
@[simp] theorem State.session_send (s : State) (o : Sent) (kq : Nat) : (s.send o).session kq = s.session kq := rfl
@[simp] theorem State.session_setBoot (s : State) (f : Boot → Boot) (kq : Nat) : (s.setBoot f).session kq = s.session kq := rfl
@[simp] theorem State.session_setTc (s : State) (f : TownClock → TownClock) (kq : Nat) : (s.setTc f).session kq = s.session kq := rfl
@[simp] theorem State.session_setPort (s : State) (d : Nat) (o : Ofe) (kq : Nat) : (s.setPort d o).session kq = s.session kq := rfl
@[simp] theorem State.session_setProbe (s : State) (d : Nat) (p : Psy) (kq : Nat) : (s.setProbe d p).session kq = s.session kq := rfl
@[simp] theorem State.session_setDemod (s : State) (d : Nat) (m : Demod) (kq : Nat) : (s.setDemod d m).session kq = s.session kq := rfl
@[simp] theorem State.session_setDie (s : State) (d : Nat) (l : DieLbq) (kq : Nat) : (s.setDie d l).session kq = s.session kq := rfl
@[simp] theorem State.session_setSensor (s : State) (d e : Nat) (x : Sensor) (kq : Nat) : (s.setSensor d e x).session kq = s.session kq := rfl
@[simp] theorem State.session_setCalPort (s : State) (d : Nat) (c : CalPort) (kq : Nat) : (s.setCalPort d c).session kq = s.session kq := rfl
@[simp] theorem State.session_setFdin (s : State) (f : FieldInputs → FieldInputs) (kq : Nat) : (s.setFdin f).session kq = s.session kq := rfl
@[simp] theorem State.session_setOuts (s : State) (f : Outputs → Outputs) (kq : Nat) : (s.setOuts f).session kq = s.session kq := rfl
@[simp] theorem State.session_setMrg (s : State) (f : Merge → Merge) (kq : Nat) : (s.setMrg f).session kq = s.session kq := rfl
@[simp] theorem State.session_setSaf (s : State) (f : Saf → Saf) (kq : Nat) : (s.setSaf f).session kq = s.session kq := rfl
@[simp] theorem State.session_setFds (s : State) (f : FdSafe → FdSafe) (kq : Nat) : (s.setFds f).session kq = s.session kq := rfl
@[simp] theorem State.session_setStr (s : State) (f : Str → Str) (kq : Nat) : (s.setStr f).session kq = s.session kq := rfl
@[simp] theorem State.session_setTpr (s : State) (p : Nat) (x : TprPort) (kq : Nat) : (s.setTpr p x).session kq = s.session kq := rfl
@[simp] theorem State.session_setAcw (s : State) (w : Nat) (r : AcwRun) (kq : Nat) : (s.setAcw w r).session kq = s.session kq := rfl
@[simp] theorem State.session_setFrw (s : State) (f : Frw → Frw) (kq : Nat) : (s.setFrw f).session kq = s.session kq := rfl
@[simp] theorem State.session_setEng (s : State) (e : Nat) (g : DmaEng) (kq : Nat) : (s.setEng e g).session kq = s.session kq := rfl
@[simp] theorem State.session_setCvUnit (s : State) (u : Nat) (c : Cvu) (kq : Nat) : (s.setCvUnit u c).session kq = s.session kq := rfl
@[simp] theorem State.session_setPanel (s : State) (f : Panel → Panel) (kq : Nat) : (s.setPanel f).session kq = s.session kq := rfl
@[simp] theorem State.session_modDomCmds (s : State) (d : Nat) (f : DomainCmds → DomainCmds) (kq : Nat) : (s.modDomCmds d f).session kq = s.session kq := rfl
@[simp] theorem State.session_setJCursor (s : State) (m : Master) (c : LogCursor) (kq : Nat) : (s.setJCursor m c).session kq = s.session kq := rfl
@[simp] theorem State.session_setCCursor (s : State) (m : Master) (c : LogCursor) (kq : Nat) : (s.setCCursor m c).session kq = s.session kq := rfl
@[simp] theorem State.session_raise (s : State) (src : Nat) (data : Word) (kq : Nat) : (s.raise src data).session kq = s.session kq := by simp [State.session]
@[simp] theorem State.session_setEvt (s : State) (a i : Nat) (kq : Nat) : (s.setEvt a i).session kq = s.session kq := by simp [State.session]
theorem State.session_elapse (s : State) (dt : Nat) (kq : Nat) : (s.elapse dt).session kq = s.session kq := rfl

/-! ### ethPort -/

@[simp] theorem State.ethPort_setReg (s : State) (a : Nat) (v : Word) (kq : Nat) : (s.setReg a v).ethPort kq = s.ethPort kq := rfl
@[simp] theorem State.ethPort_setMreg (s : State) (m : Master) (a : Nat) (v : Word) (kq : Nat) : (s.setMreg m a v).ethPort kq = s.ethPort kq := rfl
@[simp] theorem State.ethPort_send (s : State) (o : Sent) (kq : Nat) : (s.send o).ethPort kq = s.ethPort kq := rfl
@[simp] theorem State.ethPort_setBoot (s : State) (f : Boot → Boot) (kq : Nat) : (s.setBoot f).ethPort kq = s.ethPort kq := rfl
@[simp] theorem State.ethPort_setTc (s : State) (f : TownClock → TownClock) (kq : Nat) : (s.setTc f).ethPort kq = s.ethPort kq := rfl
@[simp] theorem State.ethPort_setPort (s : State) (d : Nat) (o : Ofe) (kq : Nat) : (s.setPort d o).ethPort kq = s.ethPort kq := rfl
@[simp] theorem State.ethPort_setProbe (s : State) (d : Nat) (p : Psy) (kq : Nat) : (s.setProbe d p).ethPort kq = s.ethPort kq := rfl
@[simp] theorem State.ethPort_setDemod (s : State) (d : Nat) (m : Demod) (kq : Nat) : (s.setDemod d m).ethPort kq = s.ethPort kq := rfl
@[simp] theorem State.ethPort_setDie (s : State) (d : Nat) (l : DieLbq) (kq : Nat) : (s.setDie d l).ethPort kq = s.ethPort kq := rfl
@[simp] theorem State.ethPort_setSensor (s : State) (d e : Nat) (x : Sensor) (kq : Nat) : (s.setSensor d e x).ethPort kq = s.ethPort kq := rfl
@[simp] theorem State.ethPort_setCalPort (s : State) (d : Nat) (c : CalPort) (kq : Nat) : (s.setCalPort d c).ethPort kq = s.ethPort kq := rfl
@[simp] theorem State.ethPort_setFdin (s : State) (f : FieldInputs → FieldInputs) (kq : Nat) : (s.setFdin f).ethPort kq = s.ethPort kq := rfl
@[simp] theorem State.ethPort_setOuts (s : State) (f : Outputs → Outputs) (kq : Nat) : (s.setOuts f).ethPort kq = s.ethPort kq := rfl
@[simp] theorem State.ethPort_setMrg (s : State) (f : Merge → Merge) (kq : Nat) : (s.setMrg f).ethPort kq = s.ethPort kq := rfl
@[simp] theorem State.ethPort_setSaf (s : State) (f : Saf → Saf) (kq : Nat) : (s.setSaf f).ethPort kq = s.ethPort kq := rfl
@[simp] theorem State.ethPort_setFds (s : State) (f : FdSafe → FdSafe) (kq : Nat) : (s.setFds f).ethPort kq = s.ethPort kq := rfl
@[simp] theorem State.ethPort_setStr (s : State) (f : Str → Str) (kq : Nat) : (s.setStr f).ethPort kq = s.ethPort kq := rfl
@[simp] theorem State.ethPort_setTpr (s : State) (p : Nat) (x : TprPort) (kq : Nat) : (s.setTpr p x).ethPort kq = s.ethPort kq := rfl
@[simp] theorem State.ethPort_setAcw (s : State) (w : Nat) (r : AcwRun) (kq : Nat) : (s.setAcw w r).ethPort kq = s.ethPort kq := rfl
@[simp] theorem State.ethPort_setFrw (s : State) (f : Frw → Frw) (kq : Nat) : (s.setFrw f).ethPort kq = s.ethPort kq := rfl
@[simp] theorem State.ethPort_setEng (s : State) (e : Nat) (g : DmaEng) (kq : Nat) : (s.setEng e g).ethPort kq = s.ethPort kq := rfl
@[simp] theorem State.ethPort_setCvUnit (s : State) (u : Nat) (c : Cvu) (kq : Nat) : (s.setCvUnit u c).ethPort kq = s.ethPort kq := rfl
@[simp] theorem State.ethPort_setPanel (s : State) (f : Panel → Panel) (kq : Nat) : (s.setPanel f).ethPort kq = s.ethPort kq := rfl
@[simp] theorem State.ethPort_modDomCmds (s : State) (d : Nat) (f : DomainCmds → DomainCmds) (kq : Nat) : (s.modDomCmds d f).ethPort kq = s.ethPort kq := rfl
@[simp] theorem State.ethPort_setJCursor (s : State) (m : Master) (c : LogCursor) (kq : Nat) : (s.setJCursor m c).ethPort kq = s.ethPort kq := rfl
@[simp] theorem State.ethPort_setCCursor (s : State) (m : Master) (c : LogCursor) (kq : Nat) : (s.setCCursor m c).ethPort kq = s.ethPort kq := rfl
@[simp] theorem State.ethPort_raise (s : State) (src : Nat) (data : Word) (kq : Nat) : (s.raise src data).ethPort kq = s.ethPort kq := by simp [State.ethPort]
@[simp] theorem State.ethPort_setEvt (s : State) (a i : Nat) (kq : Nat) : (s.setEvt a i).ethPort kq = s.ethPort kq := by simp [State.ethPort]
theorem State.ethPort_elapse (s : State) (dt : Nat) (kq : Nat) : (s.elapse dt).ethPort kq = s.ethPort kq := rfl

/-! ### vo -/

@[simp] theorem State.vo_setReg (s : State) (a : Nat) (v : Word) (kq : Nat) : (s.setReg a v).vo kq = s.vo kq := rfl
@[simp] theorem State.vo_setMreg (s : State) (m : Master) (a : Nat) (v : Word) (kq : Nat) : (s.setMreg m a v).vo kq = s.vo kq := rfl
@[simp] theorem State.vo_send (s : State) (o : Sent) (kq : Nat) : (s.send o).vo kq = s.vo kq := rfl
@[simp] theorem State.vo_setBoot (s : State) (f : Boot → Boot) (kq : Nat) : (s.setBoot f).vo kq = s.vo kq := rfl
@[simp] theorem State.vo_setTc (s : State) (f : TownClock → TownClock) (kq : Nat) : (s.setTc f).vo kq = s.vo kq := rfl
@[simp] theorem State.vo_setPort (s : State) (d : Nat) (o : Ofe) (kq : Nat) : (s.setPort d o).vo kq = s.vo kq := rfl
@[simp] theorem State.vo_setProbe (s : State) (d : Nat) (p : Psy) (kq : Nat) : (s.setProbe d p).vo kq = s.vo kq := rfl
@[simp] theorem State.vo_setDemod (s : State) (d : Nat) (m : Demod) (kq : Nat) : (s.setDemod d m).vo kq = s.vo kq := rfl
@[simp] theorem State.vo_setDie (s : State) (d : Nat) (l : DieLbq) (kq : Nat) : (s.setDie d l).vo kq = s.vo kq := rfl
@[simp] theorem State.vo_setSensor (s : State) (d e : Nat) (x : Sensor) (kq : Nat) : (s.setSensor d e x).vo kq = s.vo kq := rfl
@[simp] theorem State.vo_setCalPort (s : State) (d : Nat) (c : CalPort) (kq : Nat) : (s.setCalPort d c).vo kq = s.vo kq := rfl
@[simp] theorem State.vo_setFdin (s : State) (f : FieldInputs → FieldInputs) (kq : Nat) : (s.setFdin f).vo kq = s.vo kq := rfl
@[simp] theorem State.vo_setMrg (s : State) (f : Merge → Merge) (kq : Nat) : (s.setMrg f).vo kq = s.vo kq := rfl
@[simp] theorem State.vo_setSaf (s : State) (f : Saf → Saf) (kq : Nat) : (s.setSaf f).vo kq = s.vo kq := rfl
@[simp] theorem State.vo_setFds (s : State) (f : FdSafe → FdSafe) (kq : Nat) : (s.setFds f).vo kq = s.vo kq := rfl
@[simp] theorem State.vo_setStr (s : State) (f : Str → Str) (kq : Nat) : (s.setStr f).vo kq = s.vo kq := rfl
@[simp] theorem State.vo_setTpr (s : State) (p : Nat) (x : TprPort) (kq : Nat) : (s.setTpr p x).vo kq = s.vo kq := rfl
@[simp] theorem State.vo_setAcw (s : State) (w : Nat) (r : AcwRun) (kq : Nat) : (s.setAcw w r).vo kq = s.vo kq := rfl
@[simp] theorem State.vo_setFrw (s : State) (f : Frw → Frw) (kq : Nat) : (s.setFrw f).vo kq = s.vo kq := rfl
@[simp] theorem State.vo_setLinks (s : State) (f : Links → Links) (kq : Nat) : (s.setLinks f).vo kq = s.vo kq := rfl
@[simp] theorem State.vo_setEng (s : State) (e : Nat) (g : DmaEng) (kq : Nat) : (s.setEng e g).vo kq = s.vo kq := rfl
@[simp] theorem State.vo_setCvUnit (s : State) (u : Nat) (c : Cvu) (kq : Nat) : (s.setCvUnit u c).vo kq = s.vo kq := rfl
@[simp] theorem State.vo_setPanel (s : State) (f : Panel → Panel) (kq : Nat) : (s.setPanel f).vo kq = s.vo kq := rfl
@[simp] theorem State.vo_modDomCmds (s : State) (d : Nat) (f : DomainCmds → DomainCmds) (kq : Nat) : (s.modDomCmds d f).vo kq = s.vo kq := rfl
@[simp] theorem State.vo_setJCursor (s : State) (m : Master) (c : LogCursor) (kq : Nat) : (s.setJCursor m c).vo kq = s.vo kq := rfl
@[simp] theorem State.vo_setCCursor (s : State) (m : Master) (c : LogCursor) (kq : Nat) : (s.setCCursor m c).vo kq = s.vo kq := rfl
@[simp] theorem State.vo_raise (s : State) (src : Nat) (data : Word) (kq : Nat) : (s.raise src data).vo kq = s.vo kq := by simp [State.vo]
@[simp] theorem State.vo_setEvt (s : State) (a i : Nat) (kq : Nat) : (s.setEvt a i).vo kq = s.vo kq := by simp [State.vo]
theorem State.vo_elapse (s : State) (dt : Nat) (kq : Nat) : (s.elapse dt).vo kq = s.vo kq := rfl

/-! ### group -/

@[simp] theorem State.group_setReg (s : State) (a : Nat) (v : Word) (kq : Nat) : (s.setReg a v).group kq = s.group kq := rfl
@[simp] theorem State.group_setMreg (s : State) (m : Master) (a : Nat) (v : Word) (kq : Nat) : (s.setMreg m a v).group kq = s.group kq := rfl
@[simp] theorem State.group_send (s : State) (o : Sent) (kq : Nat) : (s.send o).group kq = s.group kq := rfl
@[simp] theorem State.group_setBoot (s : State) (f : Boot → Boot) (kq : Nat) : (s.setBoot f).group kq = s.group kq := rfl
@[simp] theorem State.group_setTc (s : State) (f : TownClock → TownClock) (kq : Nat) : (s.setTc f).group kq = s.group kq := rfl
@[simp] theorem State.group_setPort (s : State) (d : Nat) (o : Ofe) (kq : Nat) : (s.setPort d o).group kq = s.group kq := rfl
@[simp] theorem State.group_setProbe (s : State) (d : Nat) (p : Psy) (kq : Nat) : (s.setProbe d p).group kq = s.group kq := rfl
@[simp] theorem State.group_setDemod (s : State) (d : Nat) (m : Demod) (kq : Nat) : (s.setDemod d m).group kq = s.group kq := rfl
@[simp] theorem State.group_setDie (s : State) (d : Nat) (l : DieLbq) (kq : Nat) : (s.setDie d l).group kq = s.group kq := rfl
@[simp] theorem State.group_setSensor (s : State) (d e : Nat) (x : Sensor) (kq : Nat) : (s.setSensor d e x).group kq = s.group kq := rfl
@[simp] theorem State.group_setCalPort (s : State) (d : Nat) (c : CalPort) (kq : Nat) : (s.setCalPort d c).group kq = s.group kq := rfl
@[simp] theorem State.group_setFdin (s : State) (f : FieldInputs → FieldInputs) (kq : Nat) : (s.setFdin f).group kq = s.group kq := rfl
@[simp] theorem State.group_setMrg (s : State) (f : Merge → Merge) (kq : Nat) : (s.setMrg f).group kq = s.group kq := rfl
@[simp] theorem State.group_setSaf (s : State) (f : Saf → Saf) (kq : Nat) : (s.setSaf f).group kq = s.group kq := rfl
@[simp] theorem State.group_setFds (s : State) (f : FdSafe → FdSafe) (kq : Nat) : (s.setFds f).group kq = s.group kq := rfl
@[simp] theorem State.group_setStr (s : State) (f : Str → Str) (kq : Nat) : (s.setStr f).group kq = s.group kq := rfl
@[simp] theorem State.group_setTpr (s : State) (p : Nat) (x : TprPort) (kq : Nat) : (s.setTpr p x).group kq = s.group kq := rfl
@[simp] theorem State.group_setAcw (s : State) (w : Nat) (r : AcwRun) (kq : Nat) : (s.setAcw w r).group kq = s.group kq := rfl
@[simp] theorem State.group_setFrw (s : State) (f : Frw → Frw) (kq : Nat) : (s.setFrw f).group kq = s.group kq := rfl
@[simp] theorem State.group_setLinks (s : State) (f : Links → Links) (kq : Nat) : (s.setLinks f).group kq = s.group kq := rfl
@[simp] theorem State.group_setEng (s : State) (e : Nat) (g : DmaEng) (kq : Nat) : (s.setEng e g).group kq = s.group kq := rfl
@[simp] theorem State.group_setCvUnit (s : State) (u : Nat) (c : Cvu) (kq : Nat) : (s.setCvUnit u c).group kq = s.group kq := rfl
@[simp] theorem State.group_setPanel (s : State) (f : Panel → Panel) (kq : Nat) : (s.setPanel f).group kq = s.group kq := rfl
@[simp] theorem State.group_modDomCmds (s : State) (d : Nat) (f : DomainCmds → DomainCmds) (kq : Nat) : (s.modDomCmds d f).group kq = s.group kq := rfl
@[simp] theorem State.group_setJCursor (s : State) (m : Master) (c : LogCursor) (kq : Nat) : (s.setJCursor m c).group kq = s.group kq := rfl
@[simp] theorem State.group_setCCursor (s : State) (m : Master) (c : LogCursor) (kq : Nat) : (s.setCCursor m c).group kq = s.group kq := rfl
@[simp] theorem State.group_raise (s : State) (src : Nat) (data : Word) (kq : Nat) : (s.raise src data).group kq = s.group kq := by simp [State.group]
@[simp] theorem State.group_setEvt (s : State) (a i : Nat) (kq : Nat) : (s.setEvt a i).group kq = s.group kq := by simp [State.group]
theorem State.group_elapse (s : State) (dt : Nat) (kq : Nat) : (s.elapse dt).group kq = s.group kq := rfl

/-! ### brake -/

@[simp] theorem State.brake_setReg (s : State) (a : Nat) (v : Word) (kq : Nat) : (s.setReg a v).brake kq = s.brake kq := rfl
@[simp] theorem State.brake_setMreg (s : State) (m : Master) (a : Nat) (v : Word) (kq : Nat) : (s.setMreg m a v).brake kq = s.brake kq := rfl
@[simp] theorem State.brake_send (s : State) (o : Sent) (kq : Nat) : (s.send o).brake kq = s.brake kq := rfl
@[simp] theorem State.brake_setBoot (s : State) (f : Boot → Boot) (kq : Nat) : (s.setBoot f).brake kq = s.brake kq := rfl
@[simp] theorem State.brake_setTc (s : State) (f : TownClock → TownClock) (kq : Nat) : (s.setTc f).brake kq = s.brake kq := rfl
@[simp] theorem State.brake_setPort (s : State) (d : Nat) (o : Ofe) (kq : Nat) : (s.setPort d o).brake kq = s.brake kq := rfl
@[simp] theorem State.brake_setProbe (s : State) (d : Nat) (p : Psy) (kq : Nat) : (s.setProbe d p).brake kq = s.brake kq := rfl
@[simp] theorem State.brake_setDemod (s : State) (d : Nat) (m : Demod) (kq : Nat) : (s.setDemod d m).brake kq = s.brake kq := rfl
@[simp] theorem State.brake_setDie (s : State) (d : Nat) (l : DieLbq) (kq : Nat) : (s.setDie d l).brake kq = s.brake kq := rfl
@[simp] theorem State.brake_setSensor (s : State) (d e : Nat) (x : Sensor) (kq : Nat) : (s.setSensor d e x).brake kq = s.brake kq := rfl
@[simp] theorem State.brake_setCalPort (s : State) (d : Nat) (c : CalPort) (kq : Nat) : (s.setCalPort d c).brake kq = s.brake kq := rfl
@[simp] theorem State.brake_setFdin (s : State) (f : FieldInputs → FieldInputs) (kq : Nat) : (s.setFdin f).brake kq = s.brake kq := rfl
@[simp] theorem State.brake_setMrg (s : State) (f : Merge → Merge) (kq : Nat) : (s.setMrg f).brake kq = s.brake kq := rfl
@[simp] theorem State.brake_setSaf (s : State) (f : Saf → Saf) (kq : Nat) : (s.setSaf f).brake kq = s.brake kq := rfl
@[simp] theorem State.brake_setFds (s : State) (f : FdSafe → FdSafe) (kq : Nat) : (s.setFds f).brake kq = s.brake kq := rfl
@[simp] theorem State.brake_setStr (s : State) (f : Str → Str) (kq : Nat) : (s.setStr f).brake kq = s.brake kq := rfl
@[simp] theorem State.brake_setTpr (s : State) (p : Nat) (x : TprPort) (kq : Nat) : (s.setTpr p x).brake kq = s.brake kq := rfl
@[simp] theorem State.brake_setAcw (s : State) (w : Nat) (r : AcwRun) (kq : Nat) : (s.setAcw w r).brake kq = s.brake kq := rfl
@[simp] theorem State.brake_setFrw (s : State) (f : Frw → Frw) (kq : Nat) : (s.setFrw f).brake kq = s.brake kq := rfl
@[simp] theorem State.brake_setLinks (s : State) (f : Links → Links) (kq : Nat) : (s.setLinks f).brake kq = s.brake kq := rfl
@[simp] theorem State.brake_setEng (s : State) (e : Nat) (g : DmaEng) (kq : Nat) : (s.setEng e g).brake kq = s.brake kq := rfl
@[simp] theorem State.brake_setCvUnit (s : State) (u : Nat) (c : Cvu) (kq : Nat) : (s.setCvUnit u c).brake kq = s.brake kq := rfl
@[simp] theorem State.brake_setPanel (s : State) (f : Panel → Panel) (kq : Nat) : (s.setPanel f).brake kq = s.brake kq := rfl
@[simp] theorem State.brake_modDomCmds (s : State) (d : Nat) (f : DomainCmds → DomainCmds) (kq : Nat) : (s.modDomCmds d f).brake kq = s.brake kq := rfl
@[simp] theorem State.brake_setJCursor (s : State) (m : Master) (c : LogCursor) (kq : Nat) : (s.setJCursor m c).brake kq = s.brake kq := rfl
@[simp] theorem State.brake_setCCursor (s : State) (m : Master) (c : LogCursor) (kq : Nat) : (s.setCCursor m c).brake kq = s.brake kq := rfl
@[simp] theorem State.brake_raise (s : State) (src : Nat) (data : Word) (kq : Nat) : (s.raise src data).brake kq = s.brake kq := by simp [State.brake]
@[simp] theorem State.brake_setEvt (s : State) (a i : Nat) (kq : Nat) : (s.setEvt a i).brake kq = s.brake kq := by simp [State.brake]
theorem State.brake_elapse (s : State) (dt : Nat) (kq : Nat) : (s.elapse dt).brake kq = s.brake kq := rfl

/-! ### rstIn -/

@[simp] theorem State.rstIn_setReg (s : State) (a : Nat) (v : Word) (kq : Nat) : (s.setReg a v).rstIn kq = s.rstIn kq := rfl
@[simp] theorem State.rstIn_setMreg (s : State) (m : Master) (a : Nat) (v : Word) (kq : Nat) : (s.setMreg m a v).rstIn kq = s.rstIn kq := rfl
@[simp] theorem State.rstIn_send (s : State) (o : Sent) (kq : Nat) : (s.send o).rstIn kq = s.rstIn kq := rfl
@[simp] theorem State.rstIn_setBoot (s : State) (f : Boot → Boot) (kq : Nat) : (s.setBoot f).rstIn kq = s.rstIn kq := rfl
@[simp] theorem State.rstIn_setTc (s : State) (f : TownClock → TownClock) (kq : Nat) : (s.setTc f).rstIn kq = s.rstIn kq := rfl
@[simp] theorem State.rstIn_setPort (s : State) (d : Nat) (o : Ofe) (kq : Nat) : (s.setPort d o).rstIn kq = s.rstIn kq := rfl
@[simp] theorem State.rstIn_setProbe (s : State) (d : Nat) (p : Psy) (kq : Nat) : (s.setProbe d p).rstIn kq = s.rstIn kq := rfl
@[simp] theorem State.rstIn_setDemod (s : State) (d : Nat) (m : Demod) (kq : Nat) : (s.setDemod d m).rstIn kq = s.rstIn kq := rfl
@[simp] theorem State.rstIn_setDie (s : State) (d : Nat) (l : DieLbq) (kq : Nat) : (s.setDie d l).rstIn kq = s.rstIn kq := rfl
@[simp] theorem State.rstIn_setSensor (s : State) (d e : Nat) (x : Sensor) (kq : Nat) : (s.setSensor d e x).rstIn kq = s.rstIn kq := rfl
@[simp] theorem State.rstIn_setCalPort (s : State) (d : Nat) (c : CalPort) (kq : Nat) : (s.setCalPort d c).rstIn kq = s.rstIn kq := rfl
@[simp] theorem State.rstIn_setFdin (s : State) (f : FieldInputs → FieldInputs) (kq : Nat) : (s.setFdin f).rstIn kq = s.rstIn kq := rfl
@[simp] theorem State.rstIn_setMrg (s : State) (f : Merge → Merge) (kq : Nat) : (s.setMrg f).rstIn kq = s.rstIn kq := rfl
@[simp] theorem State.rstIn_setSaf (s : State) (f : Saf → Saf) (kq : Nat) : (s.setSaf f).rstIn kq = s.rstIn kq := rfl
@[simp] theorem State.rstIn_setFds (s : State) (f : FdSafe → FdSafe) (kq : Nat) : (s.setFds f).rstIn kq = s.rstIn kq := rfl
@[simp] theorem State.rstIn_setStr (s : State) (f : Str → Str) (kq : Nat) : (s.setStr f).rstIn kq = s.rstIn kq := rfl
@[simp] theorem State.rstIn_setTpr (s : State) (p : Nat) (x : TprPort) (kq : Nat) : (s.setTpr p x).rstIn kq = s.rstIn kq := rfl
@[simp] theorem State.rstIn_setAcw (s : State) (w : Nat) (r : AcwRun) (kq : Nat) : (s.setAcw w r).rstIn kq = s.rstIn kq := rfl
@[simp] theorem State.rstIn_setFrw (s : State) (f : Frw → Frw) (kq : Nat) : (s.setFrw f).rstIn kq = s.rstIn kq := rfl
@[simp] theorem State.rstIn_setLinks (s : State) (f : Links → Links) (kq : Nat) : (s.setLinks f).rstIn kq = s.rstIn kq := rfl
@[simp] theorem State.rstIn_setEng (s : State) (e : Nat) (g : DmaEng) (kq : Nat) : (s.setEng e g).rstIn kq = s.rstIn kq := rfl
@[simp] theorem State.rstIn_setCvUnit (s : State) (u : Nat) (c : Cvu) (kq : Nat) : (s.setCvUnit u c).rstIn kq = s.rstIn kq := rfl
@[simp] theorem State.rstIn_setPanel (s : State) (f : Panel → Panel) (kq : Nat) : (s.setPanel f).rstIn kq = s.rstIn kq := rfl
@[simp] theorem State.rstIn_modDomCmds (s : State) (d : Nat) (f : DomainCmds → DomainCmds) (kq : Nat) : (s.modDomCmds d f).rstIn kq = s.rstIn kq := rfl
@[simp] theorem State.rstIn_setJCursor (s : State) (m : Master) (c : LogCursor) (kq : Nat) : (s.setJCursor m c).rstIn kq = s.rstIn kq := rfl
@[simp] theorem State.rstIn_setCCursor (s : State) (m : Master) (c : LogCursor) (kq : Nat) : (s.setCCursor m c).rstIn kq = s.rstIn kq := rfl
@[simp] theorem State.rstIn_raise (s : State) (src : Nat) (data : Word) (kq : Nat) : (s.raise src data).rstIn kq = s.rstIn kq := by simp [State.rstIn]
@[simp] theorem State.rstIn_setEvt (s : State) (a i : Nat) (kq : Nat) : (s.setEvt a i).rstIn kq = s.rstIn kq := by simp [State.rstIn]
theorem State.rstIn_elapse (s : State) (dt : Nat) (kq : Nat) : (s.elapse dt).rstIn kq = s.rstIn kq := rfl

@[simp] theorem State.wsc_setWsc (s : State) (k : Nat) (x : Wsc) : (s.setWsc k x).wsc k = x := by simp [State.wsc, State.setWsc]
theorem State.wsc_setWsc_other (s : State) {k l : Nat} (x : Wsc) (h : l ≠ k) : (s.setWsc k x).wsc l = s.wsc l := by
  simp [State.wsc, State.setWsc, tget_tset_other _ _ _ h]
@[simp] theorem State.session_setSession (s : State) (k : Nat) (x : Session) : (s.setSession k x).session k = x := by simp [State.session, State.setSession]
theorem State.session_setSession_other (s : State) {k l : Nat} (x : Session) (h : l ≠ k) : (s.setSession k x).session l = s.session l := by
  simp [State.session, State.setSession, tget_tset_other _ _ _ h]
@[simp] theorem State.ethPort_setEthPort (s : State) (k : Nat) (x : EthPort) : (s.setEthPort k x).ethPort k = x := by simp [State.ethPort, State.setEthPort]
theorem State.ethPort_setEthPort_other (s : State) {k l : Nat} (x : EthPort) (h : l ≠ k) : (s.setEthPort k x).ethPort l = s.ethPort l := by
  simp [State.ethPort, State.setEthPort, tget_tset_other _ _ _ h]
@[simp] theorem State.vo_setVo (s : State) (k : Nat) (x : Vo) : (s.setVo k x).vo k = x := by simp [State.vo, State.setVo]
theorem State.vo_setVo_other (s : State) {k l : Nat} (x : Vo) (h : l ≠ k) : (s.setVo k x).vo l = s.vo l := by
  simp [State.vo, State.setVo, tget_tset_other _ _ _ h]
@[simp] theorem State.group_setGroup (s : State) (k : Nat) (x : VoGroup) : (s.setGroup k x).group k = x := by simp [State.group, State.setGroup]
theorem State.group_setGroup_other (s : State) {k l : Nat} (x : VoGroup) (h : l ≠ k) : (s.setGroup k x).group l = s.group l := by
  simp [State.group, State.setGroup, tget_tset_other _ _ _ h]
@[simp] theorem State.brake_setBrake (s : State) (k : Nat) (x : Brake) : (s.setBrake k x).brake k = x := by simp [State.brake, State.setBrake]
theorem State.brake_setBrake_other (s : State) {k l : Nat} (x : Brake) (h : l ≠ k) : (s.setBrake k x).brake l = s.brake l := by
  simp [State.brake, State.setBrake, tget_tset_other _ _ _ h]
@[simp] theorem State.rstIn_setRstIn (s : State) (k : Nat) (x : ResetIn) : (s.setRstIn k x).rstIn k = x := by simp [State.rstIn, State.setRstIn]
theorem State.rstIn_setRstIn_other (s : State) {k l : Nat} (x : ResetIn) (h : l ≠ k) : (s.setRstIn k x).rstIn l = s.rstIn l := by
  simp [State.rstIn, State.setRstIn, tget_tset_other _ _ _ h]

@[simp] theorem State.domCmds_modDomCmds (s : State) (k : Nat) (f : DomainCmds → DomainCmds) : (s.modDomCmds k f).domCmds k = f (s.domCmds k) := by
  simp [State.domCmds]
@[simp] theorem State.jCursor_setJCursor (s : State) (m : Master) (c : LogCursor) : (s.setJCursor m c).jCursor m = c := by simp [State.jCursor]
@[simp] theorem State.cCursor_setCCursor (s : State) (m : Master) (c : LogCursor) : (s.setCCursor m c).cCursor m = c := by simp [State.cCursor]
theorem State.reg_elapse (s : State) (dt a : Nat) : (s.elapse dt).reg a = s.reg a := rfl
theorem State.mreg_elapse (s : State) (dt : Nat) (m : Master) (a : Nat) : (s.elapse dt).mreg m a = s.mreg m a := rfl

end Sys2Proof.Machine
end

