-- ==== Sys2Proof/Laws/Changes.lean ====
section
/-!
SUPPORT. What Changes passes through: the shared operations, one by one.
-/
namespace Sys2Proof.Machine

@[simp] theorem Changes.refl (ps : List Part) (l : List Nat) (s : State) : Changes ps l s s :=
  ⟨OnlyParts.refl .., fun _ _ => rfl, fun _ _ _ _ => rfl⟩

theorem Changes.trans {ps : List Part} {l : List Nat} {s t u : State} (h : Changes ps l s t) (k : Changes ps l t u) : Changes ps l s u :=
  ⟨h.parts.trans k.parts, fun a ha => (k.regs a ha).trans (h.regs a ha), fun m a hb ha => (k.copies m a hb ha).trans (h.copies m a hb ha)⟩

theorem Changes.symm {ps : List Part} {l : List Nat} {s t : State} (h : Changes ps l s t) : Changes ps l t s :=
  ⟨h.parts.symm, fun a ha => (h.regs a ha).symm, fun m a hb ha => (h.copies m a hb ha).symm⟩

theorem Changes.mono {ps qs : List Part} {l r : List Nat} {s t : State} (h : Changes ps l s t) (hp : within ps qs = true)
    (hl : ∀ a, a ∈ l → a ∈ r) : Changes qs r s t :=
  ⟨h.parts.mono (by simp [within] at hp ⊢; exact fun p k => .inr (.inr (hp p k))), fun a ha => h.regs a fun k => ha (hl a k), h.copies⟩

/-- A change of listed things can be put in or left out. -/
theorem Changes.through {ps qs : List Part} {l k : List Nat} {r s t : State} (h : Changes ps l s t) (hp : within ps qs = true)
    (hl : ∀ a, a ∈ l → a ∈ k) : Changes qs k r t ↔ Changes qs k r s :=
  ⟨fun x => x.trans (h.mono hp hl).symm, fun x => x.trans (h.mono hp hl)⟩

/-- A change of parts other than registers and copies. -/
theorem Changes.of_parts {ps : List Part} {l : List Nat} {s t : State} (h : OnlyParts ps s t) (hr : .regs ∉ ps) (hc : .copies ∉ ps) :
    Changes ps l s t := by
  have h1 := h.same .regs hr
  have h2 := h.same .copies hc
  simp only [Part.same] at h1 h2
  refine ⟨h.mono ?_, fun a _ => by simp [State.reg, h1], fun m a _ _ => by simp [State.mreg, h2]⟩
  simp [within]
  exact fun p k => .inr (.inr k)

@[simp] theorem State.when_changes {ps : List Part} {l : List Nat} {r s : State} {b : Bool} {f : State → State}
    (k : Changes ps l s (f s)) : Changes ps l r (s.when b f) ↔ Changes ps l r s := by
  unfold State.when
  split
  · exact Changes.through k (by simp [within]) (by simp)
  · rfl

@[simp] theorem foldl_changes {α : Type} {ps : List Part} {l : List Nat} {r t : State} {f : State → α → State} {x : List α}
    (k : ∀ a u, Changes ps l u (f u a)) : Changes ps l r (x.foldl f t) ↔ Changes ps l r t := by
  induction x generalizing t with
  | nil => rfl
  | cons a x ih => exact ih.trans (Changes.through (k a t) (by simp [within]) (by simp))

@[simp] theorem State.setReg_changes {ps : List Part} {l : List Nat} {r : State} (s : State) (a : Nat) (v : Word) (h : a ∈ l) :
    Changes ps l r (s.setReg a v) ↔ Changes ps l r s := by
  refine Changes.through (ps := []) (l := [a]) ⟨?_, ?_, fun _ _ _ _ => rfl⟩ (by simp [within]) (by simpa using h)
  · simp +decide
  · intro b hb
    simp at hb
    simp [State.reg_setReg, hb]

theorem Reg.pend_lt {i : Nat} (h : i < 32) : Reg.HB_EVR_PEND i < 2 ^ 32 := by simp only [Reg.HB_EVR_PEND]; omega

theorem State.mreg_setMreg_other (s : State) (p m : Master) {a b : Nat} (v : Word) (ha : a < 2 ^ 32) (hb : b < 2 ^ 32) (h : b ≠ a) :
    (s.setMreg m a v).mreg p b = s.mreg p b := by
  have : masterCode p * 2 ^ 32 + b ≠ masterCode m * 2 ^ 32 + a := by omega
  simp only [State.mreg, State.setMreg_mregs, tfind_tset_other _ _ this]

theorem State.raiseTo_only (src : Nat) (data : Word) (s : State) (d : Nat) : Changes [.events] [] s (State.raiseTo src data s d) := by
  refine ⟨(State.raiseTo_parts (q0 := [.regs, .copies, .events]) (z0 := s) _ _ _ _ (by decide)).2 (OnlyParts.refl ..), by simp, ?_⟩
  intro m a hb ha
  by_cases hr : s.receives d src = true
  · have hs : src / 32 < 32 := by
      simp only [State.receives, Bool.and_eq_true, decide_eq_true_eq] at hr
      omega
    have hm : ∀ v : Word, (s.setMreg (.host d) (Reg.HB_EVR_PEND (src / 32)) v).mreg m a = s.mreg m a := fun v =>
      s.mreg_setMreg_other m (.host d) v (Reg.pend_lt hs) hb (ha _ hs)
    simp only [State.raiseTo, hr, if_true]
    (repeat' split) <;> exact hm _
  · simp [State.raiseTo, hr]

@[simp] theorem State.raise_changes {ps : List Part} {l : List Nat} {r : State} (s : State) (src : Nat) (data : Word)
    (h : within [.events] ps = true) : Changes ps l r (s.raise src data) ↔ Changes ps l r s := by
  refine Changes.through (ps := [.events]) (l := []) ?_ h (by simp)
  simp only [State.raise]
  refine (foldl_changes fun d u => State.raiseTo_only src data u d).2 ?_
  exact Changes.of_parts (by simp +decide) (by decide) (by decide)

@[simp] theorem State.setEvt_changes {ps : List Part} {l : List Nat} {r : State} (s : State) (a i : Nat) (ha : a ∈ l)
    (h : within [.events] ps = true) : Changes ps l r (s.setEvt a i) ↔ Changes ps l r s := by
  refine Changes.through (ps := [.events]) (l := [a]) ?_ h (by simpa using ha)
  simp only [State.setEvt]
  split
  · simp
  · split <;> simp +decide

/-! ### Updates of other parts -/

@[simp] theorem State.send_changes {ps : List Part} {q : List Nat} {r0 : State} (s : State) (o : Sent) (h : within [.sent] ps = true) :
    Changes ps q r0 (s.send o) ↔ Changes ps q r0 s :=
  Changes.through (ps := [.sent]) (l := []) (Changes.of_parts ⟨fun p hp => by cases p <;> first | exact absurd (by decide) hp | simp [Part.same]⟩
    (by decide) (by decide)) h (by simp)

@[simp] theorem State.setBoot_changes {ps : List Part} {q : List Nat} {r0 : State} (s : State) (f : Boot → Boot) (h : within [.boot] ps = true) :
    Changes ps q r0 (s.setBoot f) ↔ Changes ps q r0 s :=
  Changes.through (ps := [.boot]) (l := []) (Changes.of_parts ⟨fun p hp => by cases p <;> first | exact absurd (by decide) hp | simp [Part.same]⟩
    (by decide) (by decide)) h (by simp)

@[simp] theorem State.setTc_changes {ps : List Part} {q : List Nat} {r0 : State} (s : State) (f : TownClock → TownClock) (h : within [.time] ps = true) :
    Changes ps q r0 (s.setTc f) ↔ Changes ps q r0 s :=
  Changes.through (ps := [.time]) (l := []) (Changes.of_parts ⟨fun p hp => by cases p <;> first | exact absurd (by decide) hp | simp [Part.same]⟩
    (by decide) (by decide)) h (by simp)

@[simp] theorem State.setPort_changes {ps : List Part} {q : List Nat} {r0 : State} (s : State) (d : Nat) (o : Ofe) (h : within [.ofe] ps = true) :
    Changes ps q r0 (s.setPort d o) ↔ Changes ps q r0 s :=
  Changes.through (ps := [.ofe]) (l := []) (Changes.of_parts ⟨fun p hp => by cases p <;> first | exact absurd (by decide) hp | simp [Part.same]⟩
    (by decide) (by decide)) h (by simp)

@[simp] theorem State.setProbe_changes {ps : List Part} {q : List Nat} {r0 : State} (s : State) (d : Nat) (p : Psy) (h : within [.psy] ps = true) :
    Changes ps q r0 (s.setProbe d p) ↔ Changes ps q r0 s :=
  Changes.through (ps := [.psy]) (l := []) (Changes.of_parts ⟨fun p hp => by cases p <;> first | exact absurd (by decide) hp | simp [Part.same]⟩
    (by decide) (by decide)) h (by simp)

@[simp] theorem State.setDemod_changes {ps : List Part} {q : List Nat} {r0 : State} (s : State) (d : Nat) (m : Demod) (h : within [.dmd] ps = true) :
    Changes ps q r0 (s.setDemod d m) ↔ Changes ps q r0 s :=
  Changes.through (ps := [.dmd]) (l := []) (Changes.of_parts ⟨fun p hp => by cases p <;> first | exact absurd (by decide) hp | simp [Part.same]⟩
    (by decide) (by decide)) h (by simp)

@[simp] theorem State.setDie_changes {ps : List Part} {q : List Nat} {r0 : State} (s : State) (d : Nat) (l : DieLbq) (h : within [.lbq] ps = true) :
    Changes ps q r0 (s.setDie d l) ↔ Changes ps q r0 s :=
  Changes.through (ps := [.lbq]) (l := []) (Changes.of_parts ⟨fun p hp => by cases p <;> first | exact absurd (by decide) hp | simp [Part.same]⟩
    (by decide) (by decide)) h (by simp)

@[simp] theorem State.setSensor_changes {ps : List Part} {q : List Nat} {r0 : State} (s : State) (d e : Nat) (x : Sensor) (h : within [.sensors] ps = true) :
    Changes ps q r0 (s.setSensor d e x) ↔ Changes ps q r0 s :=
  Changes.through (ps := [.sensors]) (l := []) (Changes.of_parts ⟨fun p hp => by cases p <;> first | exact absurd (by decide) hp | simp [Part.same]⟩
    (by decide) (by decide)) h (by simp)

@[simp] theorem State.setCalPort_changes {ps : List Part} {q : List Nat} {r0 : State} (s : State) (d : Nat) (c : CalPort) (h : within [.cal] ps = true) :
    Changes ps q r0 (s.setCalPort d c) ↔ Changes ps q r0 s :=
  Changes.through (ps := [.cal]) (l := []) (Changes.of_parts ⟨fun p hp => by cases p <;> first | exact absurd (by decide) hp | simp [Part.same]⟩
    (by decide) (by decide)) h (by simp)

@[simp] theorem State.setFdin_changes {ps : List Part} {q : List Nat} {r0 : State} (s : State) (f : FieldInputs → FieldInputs) (h : within [.fdin] ps = true) :
    Changes ps q r0 (s.setFdin f) ↔ Changes ps q r0 s :=
  Changes.through (ps := [.fdin]) (l := []) (Changes.of_parts ⟨fun p hp => by cases p <;> first | exact absurd (by decide) hp | simp [Part.same]⟩
    (by decide) (by decide)) h (by simp)

@[simp] theorem State.setOuts_changes {ps : List Part} {q : List Nat} {r0 : State} (s : State) (f : Outputs → Outputs) (h : within [.outs] ps = true) :
    Changes ps q r0 (s.setOuts f) ↔ Changes ps q r0 s :=
  Changes.through (ps := [.outs]) (l := []) (Changes.of_parts ⟨fun p hp => by cases p <;> first | exact absurd (by decide) hp | simp [Part.same]⟩
    (by decide) (by decide)) h (by simp)

@[simp] theorem State.setMrg_changes {ps : List Part} {q : List Nat} {r0 : State} (s : State) (f : Merge → Merge) (h : within [.mrg] ps = true) :
    Changes ps q r0 (s.setMrg f) ↔ Changes ps q r0 s :=
  Changes.through (ps := [.mrg]) (l := []) (Changes.of_parts ⟨fun p hp => by cases p <;> first | exact absurd (by decide) hp | simp [Part.same]⟩
    (by decide) (by decide)) h (by simp)

@[simp] theorem State.setSaf_changes {ps : List Part} {q : List Nat} {r0 : State} (s : State) (f : Saf → Saf) (h : within [.saf] ps = true) :
    Changes ps q r0 (s.setSaf f) ↔ Changes ps q r0 s :=
  Changes.through (ps := [.saf]) (l := []) (Changes.of_parts ⟨fun p hp => by cases p <;> first | exact absurd (by decide) hp | simp [Part.same]⟩
    (by decide) (by decide)) h (by simp)

@[simp] theorem State.setFds_changes {ps : List Part} {q : List Nat} {r0 : State} (s : State) (f : FdSafe → FdSafe) (h : within [.fds] ps = true) :
    Changes ps q r0 (s.setFds f) ↔ Changes ps q r0 s :=
  Changes.through (ps := [.fds]) (l := []) (Changes.of_parts ⟨fun p hp => by cases p <;> first | exact absurd (by decide) hp | simp [Part.same]⟩
    (by decide) (by decide)) h (by simp)

@[simp] theorem State.setStr_changes {ps : List Part} {q : List Nat} {r0 : State} (s : State) (f : Str → Str) (h : within [.str] ps = true) :
    Changes ps q r0 (s.setStr f) ↔ Changes ps q r0 s :=
  Changes.through (ps := [.str]) (l := []) (Changes.of_parts ⟨fun p hp => by cases p <;> first | exact absurd (by decide) hp | simp [Part.same]⟩
    (by decide) (by decide)) h (by simp)

@[simp] theorem State.setTpr_changes {ps : List Part} {q : List Nat} {r0 : State} (s : State) (p : Nat) (x : TprPort) (h : within [.tpr] ps = true) :
    Changes ps q r0 (s.setTpr p x) ↔ Changes ps q r0 s :=
  Changes.through (ps := [.tpr]) (l := []) (Changes.of_parts ⟨fun p hp => by cases p <;> first | exact absurd (by decide) hp | simp [Part.same]⟩
    (by decide) (by decide)) h (by simp)

@[simp] theorem State.setAcw_changes {ps : List Part} {q : List Nat} {r0 : State} (s : State) (w : Nat) (r : AcwRun) (h : within [.acw] ps = true) :
    Changes ps q r0 (s.setAcw w r) ↔ Changes ps q r0 s :=
  Changes.through (ps := [.acw]) (l := []) (Changes.of_parts ⟨fun p hp => by cases p <;> first | exact absurd (by decide) hp | simp [Part.same]⟩
    (by decide) (by decide)) h (by simp)

@[simp] theorem State.setFrw_changes {ps : List Part} {q : List Nat} {r0 : State} (s : State) (f : Frw → Frw) (h : within [.frw] ps = true) :
    Changes ps q r0 (s.setFrw f) ↔ Changes ps q r0 s :=
  Changes.through (ps := [.frw]) (l := []) (Changes.of_parts ⟨fun p hp => by cases p <;> first | exact absurd (by decide) hp | simp [Part.same]⟩
    (by decide) (by decide)) h (by simp)

@[simp] theorem State.setLinks_changes {ps : List Part} {q : List Nat} {r0 : State} (s : State) (f : Links → Links) (h : within [.links] ps = true) :
    Changes ps q r0 (s.setLinks f) ↔ Changes ps q r0 s :=
  Changes.through (ps := [.links]) (l := []) (Changes.of_parts ⟨fun p hp => by cases p <;> first | exact absurd (by decide) hp | simp [Part.same]⟩
    (by decide) (by decide)) h (by simp)

@[simp] theorem State.setEng_changes {ps : List Part} {q : List Nat} {r0 : State} (s : State) (e : Nat) (g : DmaEng) (h : within [.dma] ps = true) :
    Changes ps q r0 (s.setEng e g) ↔ Changes ps q r0 s :=
  Changes.through (ps := [.dma]) (l := []) (Changes.of_parts ⟨fun p hp => by cases p <;> first | exact absurd (by decide) hp | simp [Part.same]⟩
    (by decide) (by decide)) h (by simp)

@[simp] theorem State.setCvUnit_changes {ps : List Part} {q : List Nat} {r0 : State} (s : State) (u : Nat) (c : Cvu) (h : within [.cvu] ps = true) :
    Changes ps q r0 (s.setCvUnit u c) ↔ Changes ps q r0 s :=
  Changes.through (ps := [.cvu]) (l := []) (Changes.of_parts ⟨fun p hp => by cases p <;> first | exact absurd (by decide) hp | simp [Part.same]⟩
    (by decide) (by decide)) h (by simp)

@[simp] theorem State.setPanel_changes {ps : List Part} {q : List Nat} {r0 : State} (s : State) (f : Panel → Panel) (h : within [.panel] ps = true) :
    Changes ps q r0 (s.setPanel f) ↔ Changes ps q r0 s :=
  Changes.through (ps := [.panel]) (l := []) (Changes.of_parts ⟨fun p hp => by cases p <;> first | exact absurd (by decide) hp | simp [Part.same]⟩
    (by decide) (by decide)) h (by simp)

@[simp] theorem State.modDomCmds_changes {ps : List Part} {q : List Nat} {r0 : State} (s : State) (d : Nat) (f : DomainCmds → DomainCmds) (h : within [.commands] ps = true) :
    Changes ps q r0 (s.modDomCmds d f) ↔ Changes ps q r0 s :=
  Changes.through (ps := [.commands]) (l := []) (Changes.of_parts ⟨fun p hp => by cases p <;> first | exact absurd (by decide) hp | simp [Part.same]⟩
    (by decide) (by decide)) h (by simp)

@[simp] theorem State.setJCursor_changes {ps : List Part} {q : List Nat} {r0 : State} (s : State) (m : Master) (c : LogCursor) (h : within [.store] ps = true) :
    Changes ps q r0 (s.setJCursor m c) ↔ Changes ps q r0 s :=
  Changes.through (ps := [.store]) (l := []) (Changes.of_parts ⟨fun p hp => by cases p <;> first | exact absurd (by decide) hp | simp [Part.same]⟩
    (by decide) (by decide)) h (by simp)

@[simp] theorem State.setCCursor_changes {ps : List Part} {q : List Nat} {r0 : State} (s : State) (m : Master) (c : LogCursor) (h : within [.store] ps = true) :
    Changes ps q r0 (s.setCCursor m c) ↔ Changes ps q r0 s :=
  Changes.through (ps := [.store]) (l := []) (Changes.of_parts ⟨fun p hp => by cases p <;> first | exact absurd (by decide) hp | simp [Part.same]⟩
    (by decide) (by decide)) h (by simp)

@[simp] theorem State.with_pending_changes {ps : List Part} {q : List Nat} {r t : State} {x : List Instr} (h : within [.pending] ps = true) :
    Changes ps q r { t with pending := x } ↔ Changes ps q r t :=
  Changes.through (ps := [.pending]) (l := []) (Changes.of_parts (by simp +decide) (by decide) (by decide)) h (by simp)

@[simp] theorem State.with_now_changes {ps : List Part} {q : List Nat} {r t : State} {x : Nat} (h : within [.time] ps = true) :
    Changes ps q r { t with now := x } ↔ Changes ps q r t :=
  Changes.through (ps := [.time]) (l := []) (Changes.of_parts (by simp +decide) (by decide) (by decide)) h (by simp)

@[simp] theorem State.with_dev_changes {ps : List Part} {q : List Nat} {r t : State} {x : DeviceState} (h : within [.dev] ps = true) :
    Changes ps q r { t with dev := x } ↔ Changes ps q r t :=
  Changes.through (ps := [.dev]) (l := []) (Changes.of_parts (by simp +decide) (by decide) (by decide)) h (by simp)

@[simp] theorem State.with_tc_changes {ps : List Part} {q : List Nat} {r t : State} {x : TownClock} (h : within [.time] ps = true) :
    Changes ps q r { t with tc := x } ↔ Changes ps q r t :=
  Changes.through (ps := [.time]) (l := []) (Changes.of_parts (by simp +decide) (by decide) (by decide)) h (by simp)

@[simp] theorem State.with_boot_changes {ps : List Part} {q : List Nat} {r t : State} {x : Boot} (h : within [.boot] ps = true) :
    Changes ps q r { t with boot := x } ↔ Changes ps q r t :=
  Changes.through (ps := [.boot]) (l := []) (Changes.of_parts (by simp +decide) (by decide) (by decide)) h (by simp)

@[simp] theorem State.with_fdUp_changes {ps : List Part} {q : List Nat} {r t : State} {x : Bool} (h : within [.fdUp] ps = true) :
    Changes ps q r { t with fdUp := x } ↔ Changes ps q r t :=
  Changes.through (ps := [.fdUp]) (l := []) (Changes.of_parts (by simp +decide) (by decide) (by decide)) h (by simp)

@[simp] theorem State.with_ofe_changes {ps : List Part} {q : List Nat} {r t : State} {x : Table Ofe} (h : within [.ofe] ps = true) :
    Changes ps q r { t with ofe := x } ↔ Changes ps q r t :=
  Changes.through (ps := [.ofe]) (l := []) (Changes.of_parts (by simp +decide) (by decide) (by decide)) h (by simp)

@[simp] theorem State.with_psy_changes {ps : List Part} {q : List Nat} {r t : State} {x : Table Psy} (h : within [.psy] ps = true) :
    Changes ps q r { t with psy := x } ↔ Changes ps q r t :=
  Changes.through (ps := [.psy]) (l := []) (Changes.of_parts (by simp +decide) (by decide) (by decide)) h (by simp)

@[simp] theorem State.with_dmd_changes {ps : List Part} {q : List Nat} {r t : State} {x : Table Demod} (h : within [.dmd] ps = true) :
    Changes ps q r { t with dmd := x } ↔ Changes ps q r t :=
  Changes.through (ps := [.dmd]) (l := []) (Changes.of_parts (by simp +decide) (by decide) (by decide)) h (by simp)

@[simp] theorem State.with_lbq_changes {ps : List Part} {q : List Nat} {r t : State} {x : Table DieLbq} (h : within [.lbq] ps = true) :
    Changes ps q r { t with lbq := x } ↔ Changes ps q r t :=
  Changes.through (ps := [.lbq]) (l := []) (Changes.of_parts (by simp +decide) (by decide) (by decide)) h (by simp)

@[simp] theorem State.with_sensors_changes {ps : List Part} {q : List Nat} {r t : State} {x : Table Sensor} (h : within [.sensors] ps = true) :
    Changes ps q r { t with sensors := x } ↔ Changes ps q r t :=
  Changes.through (ps := [.sensors]) (l := []) (Changes.of_parts (by simp +decide) (by decide) (by decide)) h (by simp)

@[simp] theorem State.with_cal_changes {ps : List Part} {q : List Nat} {r t : State} {x : Table CalPort} (h : within [.cal] ps = true) :
    Changes ps q r { t with cal := x } ↔ Changes ps q r t :=
  Changes.through (ps := [.cal]) (l := []) (Changes.of_parts (by simp +decide) (by decide) (by decide)) h (by simp)

@[simp] theorem State.with_hbTrims_changes {ps : List Part} {q : List Nat} {r t : State} {x : Table Int} (h : within [.trims] ps = true) :
    Changes ps q r { t with hbTrims := x } ↔ Changes ps q r t :=
  Changes.through (ps := [.trims]) (l := []) (Changes.of_parts (by simp +decide) (by decide) (by decide)) h (by simp)

@[simp] theorem State.with_trimReports_changes {ps : List Part} {q : List Nat} {r t : State} {x : List (Nat × Int)} (h : within [.trims] ps = true) :
    Changes ps q r { t with trimReports := x } ↔ Changes ps q r t :=
  Changes.through (ps := [.trims]) (l := []) (Changes.of_parts (by simp +decide) (by decide) (by decide)) h (by simp)

@[simp] theorem State.with_trimSince_changes {ps : List Part} {q : List Nat} {r t : State} {x : Option Nat} (h : within [.trims] ps = true) :
    Changes ps q r { t with trimSince := x } ↔ Changes ps q r t :=
  Changes.through (ps := [.trims]) (l := []) (Changes.of_parts (by simp +decide) (by decide) (by decide)) h (by simp)

@[simp] theorem State.with_fdin_changes {ps : List Part} {q : List Nat} {r t : State} {x : FieldInputs} (h : within [.fdin] ps = true) :
    Changes ps q r { t with fdin := x } ↔ Changes ps q r t :=
  Changes.through (ps := [.fdin]) (l := []) (Changes.of_parts (by simp +decide) (by decide) (by decide)) h (by simp)

@[simp] theorem State.with_outs_changes {ps : List Part} {q : List Nat} {r t : State} {x : Outputs} (h : within [.outs] ps = true) :
    Changes ps q r { t with outs := x } ↔ Changes ps q r t :=
  Changes.through (ps := [.outs]) (l := []) (Changes.of_parts (by simp +decide) (by decide) (by decide)) h (by simp)

@[simp] theorem State.with_mrg_changes {ps : List Part} {q : List Nat} {r t : State} {x : Merge} (h : within [.mrg] ps = true) :
    Changes ps q r { t with mrg := x } ↔ Changes ps q r t :=
  Changes.through (ps := [.mrg]) (l := []) (Changes.of_parts (by simp +decide) (by decide) (by decide)) h (by simp)

@[simp] theorem State.with_saf_changes {ps : List Part} {q : List Nat} {r t : State} {x : Saf} (h : within [.saf] ps = true) :
    Changes ps q r { t with saf := x } ↔ Changes ps q r t :=
  Changes.through (ps := [.saf]) (l := []) (Changes.of_parts (by simp +decide) (by decide) (by decide)) h (by simp)

@[simp] theorem State.with_fds_changes {ps : List Part} {q : List Nat} {r t : State} {x : FdSafe} (h : within [.fds] ps = true) :
    Changes ps q r { t with fds := x } ↔ Changes ps q r t :=
  Changes.through (ps := [.fds]) (l := []) (Changes.of_parts (by simp +decide) (by decide) (by decide)) h (by simp)

@[simp] theorem State.with_str_changes {ps : List Part} {q : List Nat} {r t : State} {x : Str} (h : within [.str] ps = true) :
    Changes ps q r { t with str := x } ↔ Changes ps q r t :=
  Changes.through (ps := [.str]) (l := []) (Changes.of_parts (by simp +decide) (by decide) (by decide)) h (by simp)

@[simp] theorem State.with_tpr_changes {ps : List Part} {q : List Nat} {r t : State} {x : Table TprPort} (h : within [.tpr] ps = true) :
    Changes ps q r { t with tpr := x } ↔ Changes ps q r t :=
  Changes.through (ps := [.tpr]) (l := []) (Changes.of_parts (by simp +decide) (by decide) (by decide)) h (by simp)

@[simp] theorem State.with_acw_changes {ps : List Part} {q : List Nat} {r t : State} {x : Table AcwRun} (h : within [.acw] ps = true) :
    Changes ps q r { t with acw := x } ↔ Changes ps q r t :=
  Changes.through (ps := [.acw]) (l := []) (Changes.of_parts (by simp +decide) (by decide) (by decide)) h (by simp)

@[simp] theorem State.with_acwq_changes {ps : List Part} {q : List Nat} {r t : State} {x : Table (List AcwOut)} (h : within [.acw] ps = true) :
    Changes ps q r { t with acwq := x } ↔ Changes ps q r t :=
  Changes.through (ps := [.acw]) (l := []) (Changes.of_parts (by simp +decide) (by decide) (by decide)) h (by simp)

@[simp] theorem State.with_frw_changes {ps : List Part} {q : List Nat} {r t : State} {x : Frw} (h : within [.frw] ps = true) :
    Changes ps q r { t with frw := x } ↔ Changes ps q r t :=
  Changes.through (ps := [.frw]) (l := []) (Changes.of_parts (by simp +decide) (by decide) (by decide)) h (by simp)

@[simp] theorem State.with_links_changes {ps : List Part} {q : List Nat} {r t : State} {x : Links} (h : within [.links] ps = true) :
    Changes ps q r { t with links := x } ↔ Changes ps q r t :=
  Changes.through (ps := [.links]) (l := []) (Changes.of_parts (by simp +decide) (by decide) (by decide)) h (by simp)

@[simp] theorem State.with_dma_changes {ps : List Part} {q : List Nat} {r t : State} {x : Table DmaEng} (h : within [.dma] ps = true) :
    Changes ps q r { t with dma := x } ↔ Changes ps q r t :=
  Changes.through (ps := [.dma]) (l := []) (Changes.of_parts (by simp +decide) (by decide) (by decide)) h (by simp)

@[simp] theorem State.with_cvu_changes {ps : List Part} {q : List Nat} {r t : State} {x : Table Cvu} (h : within [.cvu] ps = true) :
    Changes ps q r { t with cvu := x } ↔ Changes ps q r t :=
  Changes.through (ps := [.cvu]) (l := []) (Changes.of_parts (by simp +decide) (by decide) (by decide)) h (by simp)

@[simp] theorem State.with_panel_changes {ps : List Part} {q : List Nat} {r t : State} {x : Panel} (h : within [.panel] ps = true) :
    Changes ps q r { t with panel := x } ↔ Changes ps q r t :=
  Changes.through (ps := [.panel]) (l := []) (Changes.of_parts (by simp +decide) (by decide) (by decide)) h (by simp)

@[simp] theorem State.with_mem_changes {ps : List Part} {q : List Nat} {r t : State} {x : List Host.Cell} (h : within [.mem] ps = true) :
    Changes ps q r { t with mem := x } ↔ Changes ps q r t :=
  Changes.through (ps := [.mem]) (l := []) (Changes.of_parts (by simp +decide) (by decide) (by decide)) h (by simp)

@[simp] theorem State.with_lease_changes {ps : List Part} {q : List Nat} {r t : State} {x : Lease} (h : within [.lease] ps = true) :
    Changes ps q r { t with lease := x } ↔ Changes ps q r t :=
  Changes.through (ps := [.lease]) (l := []) (Changes.of_parts (by simp +decide) (by decide) (by decide)) h (by simp)

@[simp] theorem State.with_frozen_changes {ps : List Part} {q : List Nat} {r t : State} {x : List Frozen} (h : within [.freeze] ps = true) :
    Changes ps q r { t with frozen := x } ↔ Changes ps q r t :=
  Changes.through (ps := [.freeze]) (l := []) (Changes.of_parts (by simp +decide) (by decide) (by decide)) h (by simp)

@[simp] theorem State.with_frzRecs_changes {ps : List Part} {q : List Nat} {r t : State} {x : List (Nat × FreezeRec)} (h : within [.freeze] ps = true) :
    Changes ps q r { t with frzRecs := x } ↔ Changes ps q r t :=
  Changes.through (ps := [.freeze]) (l := []) (Changes.of_parts (by simp +decide) (by decide) (by decide)) h (by simp)

@[simp] theorem State.with_frzOver_changes {ps : List Part} {q : List Nat} {r t : State} {x : Bool} (h : within [.freeze] ps = true) :
    Changes ps q r { t with frzOver := x } ↔ Changes ps q r t :=
  Changes.through (ps := [.freeze]) (l := []) (Changes.of_parts (by simp +decide) (by decide) (by decide)) h (by simp)

@[simp] theorem State.with_maintPwd_changes {ps : List Part} {q : List Nat} {r t : State} {x : Password} (h : within [.passwords] ps = true) :
    Changes ps q r { t with maintPwd := x } ↔ Changes ps q r t :=
  Changes.through (ps := [.passwords]) (l := []) (Changes.of_parts (by simp +decide) (by decide) (by decide)) h (by simp)

@[simp] theorem State.with_safetyPwd_changes {ps : List Part} {q : List Nat} {r t : State} {x : Password} (h : within [.passwords] ps = true) :
    Changes ps q r { t with safetyPwd := x } ↔ Changes ps q r t :=
  Changes.through (ps := [.passwords]) (l := []) (Changes.of_parts (by simp +decide) (by decide) (by decide)) h (by simp)

@[simp] theorem State.with_queue_changes {ps : List Part} {q : List Nat} {r t : State} {x : List QueuedCmd} (h : within [.commands] ps = true) :
    Changes ps q r { t with queue := x } ↔ Changes ps q r t :=
  Changes.through (ps := [.commands]) (l := []) (Changes.of_parts (by simp +decide) (by decide) (by decide)) h (by simp)

@[simp] theorem State.with_cmds_changes {ps : List Part} {q : List Nat} {r t : State} {x : Table DomainCmds} (h : within [.commands] ps = true) :
    Changes ps q r { t with cmds := x } ↔ Changes ps q r t :=
  Changes.through (ps := [.commands]) (l := []) (Changes.of_parts (by simp +decide) (by decide) (by decide)) h (by simp)

@[simp] theorem State.with_responses_changes {ps : List Part} {q : List Nat} {r t : State} {x : List Response} (h : within [.commands] ps = true) :
    Changes ps q r { t with responses := x } ↔ Changes ps q r t :=
  Changes.through (ps := [.commands]) (l := []) (Changes.of_parts (by simp +decide) (by decide) (by decide)) h (by simp)

@[simp] theorem State.with_raised_changes {ps : List Part} {q : List Nat} {r t : State} {x : Table Nat} (h : within [.events] ps = true) :
    Changes ps q r { t with raised := x } ↔ Changes ps q r t :=
  Changes.through (ps := [.events]) (l := []) (Changes.of_parts (by simp +decide) (by decide) (by decide)) h (by simp)

@[simp] theorem State.with_due_changes {ps : List Part} {q : List Nat} {r t : State} {x : List DueEntry} (h : within [.events] ps = true) :
    Changes ps q r { t with due := x } ↔ Changes ps q r t :=
  Changes.through (ps := [.events]) (l := []) (Changes.of_parts (by simp +decide) (by decide) (by decide)) h (by simp)

@[simp] theorem State.with_evOver_changes {ps : List Part} {q : List Nat} {r t : State} {x : List Nat} (h : within [.events] ps = true) :
    Changes ps q r { t with evOver := x } ↔ Changes ps q r t :=
  Changes.through (ps := [.events]) (l := []) (Changes.of_parts (by simp +decide) (by decide) (by decide)) h (by simp)

@[simp] theorem State.with_merge_changes {ps : List Part} {q : List Nat} {r t : State} {x : Table (Nat × Nat)} (h : within [.events] ps = true) :
    Changes ps q r { t with merge := x } ↔ Changes ps q r t :=
  Changes.through (ps := [.events]) (l := []) (Changes.of_parts (by simp +decide) (by decide) (by decide)) h (by simp)

@[simp] theorem State.with_sent_changes {ps : List Part} {q : List Nat} {r t : State} {x : List Sent} (h : within [.sent] ps = true) :
    Changes ps q r { t with sent := x } ↔ Changes ps q r t :=
  Changes.through (ps := [.sent]) (l := []) (Changes.of_parts (by simp +decide) (by decide) (by decide)) h (by simp)

@[simp] theorem State.with_snaps_changes {ps : List Part} {q : List Nat} {r t : State} {x : Table Snapshot} (h : within [.snaps] ps = true) :
    Changes ps q r { t with snaps := x } ↔ Changes ps q r t :=
  Changes.through (ps := [.snaps]) (l := []) (Changes.of_parts (by simp +decide) (by decide) (by decide)) h (by simp)

@[simp] theorem State.with_wp_changes {ps : List Part} {q : List Nat} {r t : State} {x : Table WpRec} (h : within [.store] ps = true) :
    Changes ps q r { t with wp := x } ↔ Changes ps q r t :=
  Changes.through (ps := [.store]) (l := []) (Changes.of_parts (by simp +decide) (by decide) (by decide)) h (by simp)

@[simp] theorem State.with_journal_changes {ps : List Part} {q : List Nat} {r t : State} {x : List JEntry} (h : within [.store] ps = true) :
    Changes ps q r { t with journal := x } ↔ Changes ps q r t :=
  Changes.through (ps := [.store]) (l := []) (Changes.of_parts (by simp +decide) (by decide) (by decide)) h (by simp)

@[simp] theorem State.with_jseq_changes {ps : List Part} {q : List Nat} {r t : State} {x : Nat} (h : within [.store] ps = true) :
    Changes ps q r { t with jseq := x } ↔ Changes ps q r t :=
  Changes.through (ps := [.store]) (l := []) (Changes.of_parts (by simp +decide) (by decide) (by decide)) h (by simp)

@[simp] theorem State.with_jcur_changes {ps : List Part} {q : List Nat} {r t : State} {x : Table LogCursor} (h : within [.store] ps = true) :
    Changes ps q r { t with jcur := x } ↔ Changes ps q r t :=
  Changes.through (ps := [.store]) (l := []) (Changes.of_parts (by simp +decide) (by decide) (by decide)) h (by simp)

@[simp] theorem State.with_clog_changes {ps : List Part} {q : List Nat} {r t : State} {x : List ClgEntry} (h : within [.store] ps = true) :
    Changes ps q r { t with clog := x } ↔ Changes ps q r t :=
  Changes.through (ps := [.store]) (l := []) (Changes.of_parts (by simp +decide) (by decide) (by decide)) h (by simp)

@[simp] theorem State.with_clgLast_changes {ps : List Part} {q : List Nat} {r t : State} {x : Nat} (h : within [.store] ps = true) :
    Changes ps q r { t with clgLast := x } ↔ Changes ps q r t :=
  Changes.through (ps := [.store]) (l := []) (Changes.of_parts (by simp +decide) (by decide) (by decide)) h (by simp)

@[simp] theorem State.with_clgFirst_changes {ps : List Part} {q : List Nat} {r t : State} {x : Nat} (h : within [.store] ps = true) :
    Changes ps q r { t with clgFirst := x } ↔ Changes ps q r t :=
  Changes.through (ps := [.store]) (l := []) (Changes.of_parts (by simp +decide) (by decide) (by decide)) h (by simp)

@[simp] theorem State.with_clgAnchor_changes {ps : List Part} {q : List Nat} {r t : State} {x : List Byte} (h : within [.store] ps = true) :
    Changes ps q r { t with clgAnchor := x } ↔ Changes ps q r t :=
  Changes.through (ps := [.store]) (l := []) (Changes.of_parts (by simp +decide) (by decide) (by decide)) h (by simp)

@[simp] theorem State.with_clgCur_changes {ps : List Part} {q : List Nat} {r t : State} {x : Table LogCursor} (h : within [.store] ps = true) :
    Changes ps q r { t with clgCur := x } ↔ Changes ps q r t :=
  Changes.through (ps := [.store]) (l := []) (Changes.of_parts (by simp +decide) (by decide) (by decide)) h (by simp)

@[simp] theorem State.with_bankA_changes {ps : List Part} {q : List Nat} {r t : State} {x : CalBank} (h : within [.store] ps = true) :
    Changes ps q r { t with bankA := x } ↔ Changes ps q r t :=
  Changes.through (ps := [.store]) (l := []) (Changes.of_parts (by simp +decide) (by decide) (by decide)) h (by simp)

@[simp] theorem State.with_bankB_changes {ps : List Part} {q : List Nat} {r t : State} {x : CalBank} (h : within [.store] ps = true) :
    Changes ps q r { t with bankB := x } ↔ Changes ps q r t :=
  Changes.through (ps := [.store]) (l := []) (Changes.of_parts (by simp +decide) (by decide) (by decide)) h (by simp)

@[simp] theorem State.with_bankWriting_changes {ps : List Part} {q : List Nat} {r t : State} {x : Option (Bool × CalSet)} (h : within [.store] ps = true) :
    Changes ps q r { t with bankWriting := x } ↔ Changes ps q r t :=
  Changes.through (ps := [.store]) (l := []) (Changes.of_parts (by simp +decide) (by decide) (by decide)) h (by simp)

@[simp] theorem State.with_bankWaiting_changes {ps : List Part} {q : List Nat} {r t : State} {x : Option CalSet} (h : within [.store] ps = true) :
    Changes ps q r { t with bankWaiting := x } ↔ Changes ps q r t :=
  Changes.through (ps := [.store]) (l := []) (Changes.of_parts (by simp +decide) (by decide) (by decide)) h (by simp)
@[simp] theorem State.with_tokensAt_changes {ps : List Part} {q : List Nat} {r t : State} {x : Nat} (h : within [.store] ps = true) :
    Changes ps q r { t with tokensAt := x } ↔ Changes ps q r t :=
  Changes.through (ps := [.store]) (l := []) (Changes.of_parts (by simp +decide) (by decide) (by decide)) h (by simp)

@[simp] theorem State.with_freeCount_changes {ps : List Part} {q : List Nat} {r t : State} {x : Nat} (h : within [.free] ps = true) :
    Changes ps q r { t with freeCount := x } ↔ Changes ps q r t :=
  Changes.through (ps := [.free]) (l := []) (Changes.of_parts (by simp +decide) (by decide) (by decide)) h (by simp)

end Sys2Proof.Machine
end

