-- ==== Sys2Proof/Laws/Bus.lean ====
section
/-!
SUPPORT. Register accesses that reach their register.
-/
namespace Sys2Proof.Machine

theorem State.meets_register {s : State} {m : Master} {a : Nat} {b : Block} {n o : Nat} {row : RegRow}
    (h : s.meets m a = .register b n o row) : blockOf a = some (b, n, o) ∧ b.row? o = some row := by
  simp only [State.meets] at h
  (repeat' split at h) <;> simp at h
  obtain ⟨rfl, rfl, rfl, rfl⟩ := h
  exact ⟨‹_›, ‹_›⟩

/-- A write that may be made is a write of its register. -/
theorem State.busWrite_of_mayWrite {s : State} {m : Master} {a : Nat} {b : Block} {n o : Nat} {row : RegRow} {v : Word} {ok : Bool}
    (h : s.mayWrite m a = true) (hb : blockOf a = some (b, n, o)) (hr : b.row? o = some row) :
    s.busWrite m a v ok = (s.listedWrite m a b n o row v ok).map fun t => (t, false) := by
  simp only [State.mayWrite] at h
  split at h
  · rename_i b' n' o' row' hm
    obtain ⟨h1, h2⟩ := State.meets_register hm
    rw [hb] at h1
    simp at h1
    obtain ⟨rfl, rfl, rfl⟩ := h1
    rw [hr] at h2
    simp at h2
    subst h2
    simp at h
    simp [State.busWrite, hm, h]
  · simp at h

/-- A read that may be made is a read of its register. -/
theorem State.busRead_of_mayRead {s : State} {m : Master} {a : Nat} {b : Block} {n o : Nat} {row : RegRow}
    (h : s.mayRead m a = true) (hb : blockOf a = some (b, n, o)) (hr : b.row? o = some row) :
    s.busRead m a = ((s.regRead m a b n o row).1, (s.regRead m a b n o row).2, false) := by
  simp only [State.mayRead] at h
  split at h
  · rename_i b' n' o' row' hm
    obtain ⟨h1, h2⟩ := State.meets_register hm
    rw [hb] at h1
    simp at h1
    obtain ⟨rfl, rfl, rfl⟩ := h1
    rw [hr] at h2
    simp at h2
    subst h2
    simp at h
    simp [State.busRead, hm, h]
  · simp at h

/-- A row that writes a register the master may write, with reserved bits 0, takes the register's own effect. -/
theorem State.writeRow_of_mayWrite {s e : State} {dt : Nat} {m : Master} {a : Nat} {v : State → Word} {b : Block} {n o : Nat}
    {row : RegRow} (he : s.elapse dt = e) (hu : e.boot.up = true) (h : e.mayWrite m a = true) (hb : blockOf a = some (b, n, o))
    (hr : b.row? o = some row) :
    s.writeRow dt m a v = match e.listedWrite m a b n o row (v e) true with
      | some t => .next t
      | none => .fault (.reservedField a) := by
  subst he
  simp only [State.writeRow, State.tryHb, hu, if_true, State.writeWord, State.busWrite_of_mayWrite h hb hr, Option.map_map]
  cases (s.elapse dt).listedWrite m a b n o row (v (s.elapse dt)) true <;> rfl

/-- A row that reads a register the master may read answers the register's value. -/
theorem State.readRow_of_mayRead {s e : State} {dt : Nat} {m : Master} {a : Nat} {b : Block} {n o : Nat} {row : RegRow}
    (he : s.elapse dt = e) (hu : e.boot.up = true) (h : e.mayRead m a = true) (hb : blockOf a = some (b, n, o))
    (hr : b.row? o = some row) :
    s.readRow dt m a = .next ((e.regRead m a b n o row).1.send (.reply m a (e.regRead m a b n o row).2 false)) := by
  subst he
  simp only [State.readRow, State.afterHb, State.after, State.when, hu, if_true, State.readWord, State.busRead_of_mayRead h hb hr]

/-- What a listed register shows. -/
theorem State.peek_of {s : State} {m : Master} {a : Nat} {b : Block} {n o : Nat} {row : RegRow} (hb : blockOf a = some (b, n, o))
    (hr : b.row? o = some row) : s.peek m a = s.regValue m a b n o row := by
  simp only [State.peek, hb, hr]

end Sys2Proof.Machine
end

