-- ==== Sys2Proof/Laws/Memory.lean ====
section
/-!
SUPPORT. Memory: every store keeps the canonical form, and what a byte reads as after a store.
-/
namespace Sys2Proof.Machine

/-- The canonical form as a statement about all cells. -/
theorem memWf_iff (m : List Host.Cell) : memWf m = true ↔ m.Pairwise (fun x y => x.1 < y.1) ∧ ∀ c ∈ m, c.2 ≠ 0 := by
  induction m with
  | nil => simp [memWf]
  | cons c t ih =>
    cases t with
    | nil => simp [memWf]
    | cons d t =>
      simp only [memWf, Bool.and_eq_true, bne_iff_ne, decide_eq_true_eq, ih, List.pairwise_cons, List.mem_cons, forall_eq_or_imp]
      constructor
      · rintro ⟨⟨h0, hcd⟩, ⟨hd, hp⟩, hne⟩
        exact ⟨⟨⟨hcd, fun x hx => Nat.lt_trans hcd (hd x hx)⟩, hd, hp⟩, h0, hne⟩
      · rintro ⟨⟨⟨hcd, -⟩, hd, hp⟩, h0, hne⟩
        exact ⟨⟨h0, hcd⟩, ⟨hd, hp⟩, hne⟩

/-- A cell of a stored byte list lies inside it and is not zero. -/
theorem memCells_mem {a : Nat} {l : List Byte} {c : Host.Cell} (h : c ∈ memCells a l) : a ≤ c.1 ∧ c.1 < a + l.length ∧ c.2 ≠ 0 := by
  induction l generalizing a with
  | nil => simp [memCells] at h
  | cons b t ih =>
    rw [memCells] at h
    split at h
    · obtain ⟨h1, h2, h3⟩ := ih h
      exact ⟨by omega, by simp only [List.length_cons]; omega, h3⟩
    · rcases List.mem_cons.1 h with rfl | h
      · exact ⟨Nat.le_refl _, by simp, ‹_›⟩
      · obtain ⟨h1, h2, h3⟩ := ih h
        exact ⟨by omega, by simp only [List.length_cons]; omega, h3⟩

theorem memCells_pairwise (a : Nat) (l : List Byte) : (memCells a l).Pairwise fun x y => x.1 < y.1 := by
  induction l generalizing a with
  | nil => exact List.Pairwise.nil
  | cons b t ih =>
    rw [memCells]
    split
    · exact ih _
    · refine List.pairwise_cons.2 ⟨fun c hc => ?_, ih _⟩
      have := memCells_mem hc
      simp only
      omega

/-- A store keeps the canonical form. -/
theorem memStore_wf {m : List Host.Cell} (h : memWf m = true) (a : Nat) (l : List Byte) : memWf (memStore m a l) = true := by
  rw [memWf_iff] at h ⊢
  obtain ⟨hp, hne⟩ := h
  constructor
  · refine List.pairwise_append.2 ⟨hp.filter _, List.pairwise_append.2 ⟨memCells_pairwise a l, hp.filter _, ?_⟩, ?_⟩
    · intro x hx y hy
      have := memCells_mem hx
      have := (List.mem_filter.1 hy).2
      simp at this
      omega
    · intro x hx y hy
      have h1 := (List.mem_filter.1 hx).2
      simp at h1
      rcases List.mem_append.1 hy with h | h
      · have := memCells_mem h
        omega
      · have := (List.mem_filter.1 h).2
        simp at this
        omega
  · intro c hc
    rcases List.mem_append.1 hc with h | h
    · exact hne c (List.mem_filter.1 h).1
    · rcases List.mem_append.1 h with h | h
      · exact (memCells_mem h).2.2
      · exact hne c (List.mem_filter.1 h).1

/-- Where no cell of a list has an address, the next list decides. -/
theorem memByte_append_of_not_mem {p q : List Host.Cell} {x : Nat} (h : ∀ c ∈ p, c.1 ≠ x) : memByte (p ++ q) x = memByte q x := by
  induction p with
  | nil => rfl
  | cons c t ih =>
    simp only [List.cons_append, memByte]
    rw [if_neg (h c (by simp)), ih fun d hd => h d (by simp [hd])]

/-- Where no cell of the second list has an address, the first decides. -/
theorem memByte_append_left {p q : List Host.Cell} {x : Nat} (h : ∀ c ∈ q, c.1 ≠ x) : memByte (p ++ q) x = memByte p x := by
  induction p with
  | nil =>
    have := memByte_append_of_not_mem (p := q) (q := []) h
    simpa [memByte] using this
  | cons c t ih =>
    simp only [List.cons_append, memByte, ih]

/-- Cells that a filter drops do not matter to an address whose cells it keeps. -/
theorem memByte_filter {m : List Host.Cell} {f : Host.Cell → Bool} {x : Nat} (h : ∀ b, f (x, b) = true) :
    memByte (m.filter f) x = memByte m x := by
  induction m with
  | nil => rfl
  | cons c t ih =>
    obtain ⟨y, b⟩ := c
    by_cases hy : y = x
    · subst hy
      simp [List.filter, h, memByte]
    · simp only [List.filter]
      split <;> simp [memByte, hy, ih]

theorem memByte_memCells {a x : Nat} {l : List Byte} (h : a ≤ x) : memByte (memCells a l) x = l.getD (x - a) 0 := by
  induction l generalizing a with
  | nil => simp [memCells, memByte]
  | cons b t ih =>
    rw [memCells]
    rcases Nat.eq_or_lt_of_le h with rfl | hlt
    · simp only [Nat.sub_self, List.getD_cons_zero]
      split
      · rename_i hb
        subst hb
        have := memByte_append_of_not_mem (p := memCells (a + 1) t) (q := []) (x := a) fun c hc => by
          have := memCells_mem hc
          omega
        simpa [memByte] using this
      · simp [memByte]
    · have e : x - a = x - (a + 1) + 1 := by omega
      rw [e, List.getD_cons_succ]
      split
      · exact ih (by omega)
      · rw [memByte, if_neg (by simp only; omega)]
        exact ih (by omega)

/-- A byte after a store: the stored byte inside the range, the old byte outside it. -/
theorem memByte_memStore (m : List Host.Cell) (a : Nat) (l : List Byte) (x : Nat) :
    memByte (memStore m a l) x = if a ≤ x ∧ x < a + l.length then l.getD (x - a) 0 else memByte m x := by
  unfold memStore
  by_cases h1 : x < a
  · rw [if_neg (by omega), memByte_append_left, memByte_filter]
    · simp [h1]
    · intro c hc
      rcases List.mem_append.1 hc with h | h
      · have := memCells_mem h
        omega
      · have := (List.mem_filter.1 h).2
        simp at this
        omega
  · rw [memByte_append_of_not_mem fun c hc => by
      have := (List.mem_filter.1 hc).2
      simp at this
      omega]
    by_cases h2 : x < a + l.length
    · rw [if_pos ⟨by omega, h2⟩, memByte_append_left, memByte_memCells (by omega)]
      intro c hc
      have := (List.mem_filter.1 hc).2
      simp at this
      omega
    · rw [if_neg (by omega), memByte_append_of_not_mem fun c hc => by
        have := memCells_mem hc
        omega, memByte_filter]
      simp only [decide_eq_true_eq]
      omega

/-- The one operation that writes memory keeps the canonical form. -/
theorem State.store_wf {s : State} (h : memWf s.mem = true) (a : Nat) (l : List Byte) : memWf (s.store a l).mem = true :=
  memStore_wf h a l

/-- Reading back what was stored. -/
theorem State.load_store (s : State) (a : Nat) (l : List Byte) : (s.store a l).load a l.length = l := by
  apply List.ext_getElem
  · simp [State.load, memLoad]
  · intro i h1 h2
    simp only [State.load, memLoad, State.store, List.getElem_map, List.getElem_range, memByte_memStore]
    rw [if_pos (by omega)]
    simp [List.getD_eq_getElem?_getD, h2]

end Sys2Proof.Machine
end

