-- ==== Sys2Proof/Laws/Segment.lean ====
section
/-!
SUPPORT. A sealed segment passes its check, and one cut off in transmission fails it (R252, R255).
-/
namespace Sys2Proof.Machine

theorem xor_one_ne (n : Nat) : Nat.xor n 1 ≠ n := by
  intro h
  have h1 : (n ^^^ 1) ^^^ n = 0 := by
    show Nat.xor (Nat.xor n 1) n = 0
    rw [h]
    exact Nat.xor_self n
  rw [Nat.xor_comm, ← Nat.xor_assoc, Nat.xor_self, Nat.zero_xor] at h1
  exact absurd h1 (by decide)

/-- The check value is no part of the bytes that it is formed over. -/
theorem Segment.bytes_check (x : Segment) (n : Nat) : ({ x with check := n } : Segment).bytes = x.bytes := rfl

theorem Segment.whole_check (x : Segment) (n : Nat) : ({ x with check := n } : Segment).whole = (n == crc crc32c x.bytes) := by
  unfold Segment.whole
  rw [Segment.bytes_check]

@[simp] theorem Segment.whole_cut (x : Segment) : x.cut.whole = false := by
  unfold Segment.cut
  rw [Segment.whole_check]
  exact beq_false_of_ne (xor_one_ne _)

@[simp] theorem Segment.whole_sealed (x : Segment) : x.sealed.whole = true := by
  unfold Segment.sealed
  rw [Segment.whole_check]
  exact beq_self_eq_true _

end Sys2Proof.Machine
end

