-- ==== Sys2Proof/Machine/Package.lean ====
section
/-!
DEFINITION. The device from outside: stress limits, operating ranges, supply order and currents, clock tolerances, signal levels, the
barrier, what each ball carries, and the thermal and mechanical figures (Electrical Characteristics and Package, R549 to R571; Power,
Reset and Boot, R516, R517). No command reads them: they say under which conditions on its surroundings the machine is specified.
-/
namespace Sys2Proof.Machine

/-! ### Supplies (R516, R549, R550) -/

/-- The logic rails, the field supplies and the returns. -/
inductive Rail where
  | core | sram | afe09 | afe18 | sds | io | nv | vf5 | vf24 | gnd | agnd | fgnd
deriving DecidableEq, Repr, Inhabited

def logicRails : List Rail := [.core, .sram, .afe09, .afe18, .sds, .io, .nv]

/-- The operating range of a logic rail, in units of 100 µV, ends included (R550). -/
def Rail.range : Rail → Nat × Nat
  | .core => (7275, 7725)
  | .sram => (7760, 8240)
  | .afe09 => (8730, 9270)
  | .afe18 => (17100, 18900)
  | .sds => (8245, 8755)
  | .io => (17100, 18900)
  | .nv => (11400, 12600)
  | _ => (0, 0)

/-- The nominal voltage of a logic rail, in units of 100 µV. -/
def Rail.nominal : Rail → Nat
  | .core => 7500
  | .sram => 8000
  | .afe09 => 9000
  | .afe18 | .io => 18000
  | .sds => 8500
  | .nv => 12000
  | _ => 0

/-- The stresses a supply withstands, in millivolts (R549). -/
def Rail.limits : Rail → Int × Int
  | .core => (-300, 900)
  | .sram => (-300, 950)
  | .afe09 => (-300, 1050)
  | .afe18 | .io => (-300, 2100)
  | .sds => (-300, 1000)
  | .nv => (-300, 1400)
  | .vf24 => (-500, 40000)
  | .vf5 => (-300, 6000)
  | _ => (0, 0)

/-- The stresses the other pins and the part withstand, in millivolts and millidegrees; pins bound to a supply by its voltage `v`
(R549). -/
inductive Stress where
  | cmos | adc | fieldAnalogue | fieldDrive | fieldVoltage | contact | junction | storage | esdLogic | esdField | esdDevice
deriving DecidableEq, Repr, Inhabited

def Stress.limits (v : Int) : Stress → Option Int × Int
  | .cmos => (some (-300), min (v + 300) 2100)
  | .adc => (some (-300), 2000)
  | .fieldAnalogue => (some (-500), 6000)
  | .fieldDrive => (some (-500), v + 500)
  | .fieldVoltage => (some (-1000), 55000)
  | .contact => (some (-1000), 40000)
  | .junction => (none, 125000)
  | .storage => (some (-55000), 150000)
  | .esdLogic => (some (-2000000), 2000000)
  | .esdField => (some (-4000000), 4000000)
  | .esdDevice => (some (-250000), 250000)

/-- The surroundings the device is specified for (R550): ambient and junction temperatures in °C, the peak-to-peak noise of a logic
rail as a part of its nominal voltage. -/
def conditionsMet (ambient junction : Int) (noise : Rat) : Bool :=
  decide (-40 ≤ ambient ∧ ambient ≤ 85) && decide (-40 ≤ junction ∧ junction ≤ 110) && decide (noise ≤ 1 / 100)

def Rail.inRange (r : Rail) (v : Nat) : Bool := decide (r.range.1 ≤ v) && decide (v ≤ r.range.2)

/-- The supply group of a logic rail (R516). -/
def Rail.group : Rail → Nat
  | .io | .nv | .afe18 => 1
  | .core | .sram | .sds | .afe09 => 2
  | _ => 0

/-- Typical, full-load and peak current of a supply, in 100 µA (R552). -/
def Rail.current : Rail → Nat × Nat × Nat
  | .core => (220000, 300000, 340000)
  | .sram => (25000, 30000, 35000)
  | .afe09 => (20000, 24000, 28000)
  | .afe18 => (6000, 7500, 9000)
  | .sds => (10000, 14000, 16000)
  | .io => (3000, 5000, 7000)
  | .nv => (2000, 4000, 6000)
  | .vf5 => (600, 1200, 1500)
  | .vf24 => (83, 170, 250)
  | _ => (0, 0, 0)

/-- Typical and full-load power in milliwatts of the logic side, of the device, and the typical power of the device in Watch (R552). -/
def logicPower : Nat × Nat := (23000, 31000)
def devicePower : Nat × Nat := (23500, 32000)
def watchPower : Nat := 5900

/-- The load step a rail's regulator stands, in 100 µA, and its slope in A/µs (R553). -/
def Rail.loadStep (r : Rail) : Nat × Nat := if r = .core then (100000, 100) else (r.current.2.2 / 2, 10)

/-- A rail of group 2 may stand above a tenth of its nominal value: every rail of group 1 has reached nine tenths of its own. `v`
gives the voltage of each rail. -/
def supplyOrder (v : Rail → Nat) : Bool :=
  logicRails.all (fun r => r.group != 2 || decide (10 * v r ≤ r.nominal)) ||
    logicRails.all fun r => r.group != 1 || decide (9 * r.nominal ≤ 10 * v r)

/-- PORST_N may be released (R517): every logic rail within range and REFCLK within its tolerance for 1 ms. `rails`, `clock`:
nanoseconds for which each has been so. -/
def porstMayRise (rails clock : Nat) : Bool := decide (1000000 ≤ rails) && decide (1000000 ≤ clock)

/-- A frequency in millihertz lies within its tolerance (R556): REFCLK 156.25 MHz ±20 ppm, the FD crystal 25 MHz ±50 ppm. -/
def withinPpm (nominal ppm f : Nat) : Bool :=
  decide (nominal * (1000000 - ppm) ≤ f * 1000000) && decide (f * 1000000 ≤ nominal * (1000000 + ppm))
def refclkOk (f : Nat) : Bool := withinPpm 156250000000 20 f
def fdClockOk (f : Nat) : Bool := withinPpm 25000000000 50 f

/-- The level of a 1.8 V CMOS input (R554), voltages in one unit: high, low, or what it was. -/
def cmosLevel (vio v : Nat) (was : Bool) : Bool :=
  if 65 * vio ≤ 100 * v then true else if 100 * v ≤ 35 * vio then false else was

/-- The rest of R554's table: hysteresis (mV), output levels (mV below VDD_IO, above GND), pull (least, nominal, most kΩ), leakage
(µA), edges (least and most, 0.1 ns). -/
structure CmosFigures where
  hysteresis : Nat := 100
  highBelow  : Nat := 450
  lowAbove   : Nat := 450
  pull       : Nat × Nat × Nat := (30, 50, 80)
  leakage    : Nat := 10
  edge       : Nat × Nat := (10, 40)
deriving DecidableEq, Repr, Inhabited

/-- The SPI port's times in nanoseconds (R555): data in set up and held, data out valid, driven after SPI_CS_N falls, released after
it rises. -/
structure SpiTimes where
  setup    : Nat
  hold     : Nat
  valid    : Nat
  driven   : Nat
  released : Nat
deriving DecidableEq, Repr, Inhabited

def SpiTimes.met (t : SpiTimes) : Bool :=
  decide (5 ≤ t.setup) && decide (5 ≤ t.hold) && decide (t.valid ≤ 18) && decide (t.driven ≤ 20) && decide (t.released ≤ 20)

/-! ### Field pins and the barrier (R557 to R560) -/

/-- The level a driven field output has at its rated load, in millivolts, on a supply of `vf5` (R557). -/
def fieldOutputOk (vf5 v : Int) (high : Bool) : Bool := if high then decide (vf5 - 500 ≤ v) else decide (v ≤ 400)

/-- The current, in 100 µA, that a contact input at `v` millivolts may sink: 2.0 ± 0.4 mA above 5.0 V, at most that of 100 kΩ below
3.0 V (R557); the spec gives none between. -/
def contactSink (v : Nat) : Option (Nat × Nat) :=
  if 5000 < v then some (16, 24) else if v < 3000 then some (0, v / 10000) else none

/-- The least resistance (kΩ) and the most current (µA) of an analogue field input (R557). -/
inductive FieldPin where
  | vov | voi | ws | wref
deriving DecidableEq, Repr, Inhabited

def FieldPin.load : FieldPin → Option Nat × Option Nat
  | .vov => (some 990, none)
  | .voi | .ws => (some 1000, some 1)
  | .wref => (none, some 20)

/-- Inputs that the integrator ties to FGND: those of a comparator channel that is off and unused references (R558). -/
def tieLow (p : FieldPin) (used : Bool) : Bool := !used && (p == .ws || p == .wref)

/-- The barrier (R559): withstand voltages (V rms) of type test and production test, working voltage (V), creepage and clearance
(0.1 mm), tracking index, capacitance (pF), insulation resistance (Ω). -/
structure Barrier where
  typeTest   : Nat := 3000
  production : Nat := 3600
  working    : Nat := 600
  creepage   : Nat := 80
  clearance  : Nat := 80
  tracking   : Nat := 600
  capacity   : Nat := 15
  insulation : Nat := 10 ^ 12
deriving DecidableEq, Repr, Inhabited

/-- A common-mode transient of `slope` kV/µs leaves the isolation channels' frames intact (R560). -/
def transientOk (slope : Nat) : Bool := decide (slope ≤ 100)

/-! ### The package (R569 to R571) -/

/-- The hottest junction, in 0.01 °C, at an ambient of `ambient` (0.01 °C), a power of `mw` milliwatts, and a heatsink of `sink`
mK/W: R569's 0.10 K/W to the lid and 0.08 K/W to the heatsink. -/
def junctionAt (ambient : Int) (mw sink : Nat) : Rat := ambient + ((mw * (100 + 80 + sink) : Nat) : Rat) / 10000

/-- A heatsink in mK/W and the force on the lid in newtons serve (R569); without one, no more than 3 W. -/
def mountingOk (mw : Nat) (sink : Option Nat) (force : Nat) : Bool :=
  match sink with
  | some x => decide (x ≤ 600) && decide (150 ≤ force ∧ force ≤ 250)
  | none => decide (mw ≤ 3000)

/-- Mechanical and assembly figures (R570): body, its tolerance, height, ball and coplanarity in 0.01 mm, mass in grams, moisture
level, reflow peak in °C, seconds above 245 °C. -/
structure Mechanics where
  body     : Nat := 4500
  tol      : Nat := 15
  height   : Nat := 360
  ball     : Nat := 60
  coplanar : Nat := 20
  mass     : Nat := 19
  moisture : Nat := 3
  peak     : Nat := 250
  seconds  : Nat := 30
deriving DecidableEq, Repr, Inhabited

/-- The one ordering code and this issue's stepping (R571, R14). -/
def orderingCode : String := "LY8440-T"
def stepping : String := "B0"

/-! ### Balls (R561 to R568) -/

/-- What a ball carries. -/
inductive Ball where
  | rail (r : Rail)
  | signal (name : String)
  /-- the isolation band: mechanical only -/
  | band
deriving DecidableEq, Repr, Inhabited

/-- The letters of the rows, rows 1 to 43. -/
def rowLetters : List String :=
  ["A", "B", "C", "D", "E", "F", "G", "H", "J", "K", "L", "M", "N", "P", "T", "U", "V", "W", "Y", "AA", "AB", "AC"] ++
    ["AD", "AE", "AF", "AG", "AH", "AJ", "AK", "AL", "AM", "AN", "AP", "AT", "AU", "AV", "AW", "AY", "BA", "BB", "BC", "BD", "BE"]

/-- The name of the ball in row index `i`, column `j`. -/
def ballName (i j : Nat) : String := rowLetters.getD (i - 1) "" ++ toString j

def gnd : Ball := .rail .gnd
def agnd : Ball := .rail .agnd
def fgnd : Ball := .rail .fgnd

/-- The signals of a port block by relative row; AGND where none stands (R563). -/
def portRow (r : Nat) : List String :=
  match r with
  | 1 => ["DACI_P", "DACI_N", "", "DACQ_P", "DACQ_N"]
  | 3 => ["ADC_XI_P", "ADC_XI_N", "", "ADC_XQ_P", "ADC_XQ_N"]
  | 5 => ["ADC_YI_P", "ADC_YI_N", "", "ADC_YQ_P", "ADC_YQ_N"]
  | 7 => ["THM_EXC", "THM_REF", "", "THM_IN", "TEC_IMON"]
  | 8 => ["LASER_EN", "LASER_OK", "AMP_EN", "AMP_FLT_N", "RX_OK"]
  | 9 => ["INTLK_N", "TEC_EN", "TEC_PWM", "TEC_DIR", ""]
  | _ => []

/-- A name behind its port's prefix, or the return where none stands. -/
def Ball.named (pre : String) (back : Ball) (l : List String) (k : Nat) : Ball :=
  let x := l.getD k ""
  if x = "" then back else .signal (pre ++ x)

def portBall (n r c : Nat) : Ball := Ball.named ("P" ++ toString n ++ "_") agnd (portRow r) (c - 1)

/-- A row of a PCIe block (R564). -/
def pcieRow (i : Nat) : List String :=
  match i with
  | 1 => ["TX0_P", "TX0_N", "", "TX1_P", "TX1_N"]
  | 3 => ["TX2_P", "TX2_N", "", "TX3_P", "TX3_N"]
  | 5 => ["RX0_P", "RX0_N", "", "RX1_P", "RX1_N"]
  | 7 => ["RX2_P", "RX2_N", "", "RX3_P", "RX3_N"]
  | 8 => ["REFCLK_P", "REFCLK_N", "", "PERST_N"]
  | _ => []

/-- A row of the host and control block (R564). -/
def hostRow (i : Nat) : List String :=
  match i with
  | 1 => ["ETH0_TX_P", "ETH0_TX_N", "", "ETH1_TX_P", "ETH1_TX_N"]
  | 3 => ["ETH0_RX_P", "ETH0_RX_N", "", "ETH1_RX_P", "ETH1_RX_N"]
  | 5 => ["REFCLK_P", "REFCLK_N", "", "PPS_IN"]
  | 6 => ["PORST_N", "PWR_FAIL_N", "", "SPI_CS_N", "SPI_SCLK"]
  | 7 => ["SPI_MOSI", "SPI_MISO", "", "JTAG_TCK", "JTAG_TMS"]
  | 8 => ["JTAG_TDI", "JTAG_TDO", "", "JTAG_TRST_N", "TDIODE_P", "TDIODE_N"]
  | _ => []

/-- The panel block: row `i`, place `k` of its eight columns (R565). -/
def panelBall (i k : Nat) : Ball :=
  match i with
  | 1 | 2 => .signal ("PNL_ROW" ++ toString (8 * (i - 1) + k))
  | 3 | 4 | 5 | 6 => .signal ("PNL_COL" ++ toString (8 * (i - 3) + k))
  | 7 => Ball.named "PNL_" gnd ["PRE", "SENSE", "NTC", "NTC_REF", "CHAIN"] k
  | _ => gnd

/-- A ball of the supply strips, the core field and the upper supply field (R566): GND on one colour of the chequerboard, its
region's rail on the other. -/
def supplyBall (i j : Nat) (r : Rail) : Ball := if (i + j) % 2 = 0 then gnd else .rail r

/-- A ball of the field group, `k` places from column 26 (R567). -/
def fieldBall (i k : Nat) : Ball :=
  let run := fun (name : String) (first : Nat) (last : Ball) =>
    if k < 16 then Ball.signal (name ++ toString (first + k)) else last
  match i with
  | 27 => .rail (if k < 6 then .vf24 else .vf5)
  | 28 | 29 | 30 | 31 => run "WS" (16 * (i - 28)) fgnd
  | 32 | 33 => run "WREF" (16 * (i - 32)) fgnd
  | 35 | 36 => run "VO" (16 * (i - 35)) (if k = 16 then .signal ("VOG" ++ toString (i - 35)) else fgnd)
  | 37 | 38 => run "VOV" (16 * (i - 37)) fgnd
  | 39 | 40 => run "VOI" (16 * (i - 39)) fgnd
  | 41 => run "BFB" 0 (.signal (if k = 16 then "FD_XI" else "FD_XO"))
  | 42 =>
    if k < 8 then .signal ("RSTIN" ++ toString (k / 2) ++ if k % 2 = 0 then "_NO" else "_NC")
    else if k < 16 then .signal ("FSI" ++ toString (k - 8)) else fgnd
  | 43 => if k < 6 then fgnd else .rail (if k < 12 then .vf5 else .vf24)
  | _ => fgnd

/-- What the ball in row index `i` and column `j`, each from 1 to 43, carries (R562). -/
def ball (i j : Nat) : Ball :=
  if j ≤ 5 then if i ≤ 40 then portBall ((i - 1) / 10) ((i - 1) % 10 + 1) j else gnd
  else if j ≤ 9 then supplyBall i j (if j = 6 then .afe09 else if j = 7 then .afe18 else if j = 8 then .io else .nv)
  else if j ≤ 17 then supplyBall i j .core
  else if i ≤ 8 then
    if j ≤ 29 then Ball.named ("PCIE" ++ toString ((j - 18) / 6) ++ "_") gnd (pcieRow i) ((j - 18) % 6)
    else if j ≤ 35 then Ball.named "" gnd (hostRow i) (j - 30)
    else panelBall i (j - 36)
  else if i ≤ 17 then supplyBall i j (if 11 ≤ i then .sram else if j ≤ 35 then .sds else .io)
  else if i ≤ 25 ∨ j ≤ 25 then .band
  else fieldBall i (j - 26)

/-- Every ball. -/
def balls : List Ball := (List.range 43).flatMap fun i => (List.range 43).map fun j => ball (i + 1) (j + 1)

def ballsOf (r : Rail) : Nat := balls.countP fun b => match b with | .rail x => x == r | _ => false

end Sys2Proof.Machine
end

