-- ==== Sys2Proof/WellFormed.lean ====
section
/-!
DEFINITION. Well-formed commands: every operand names something the device has, and records have their length. What the device does
with an ill-formed command is no claim of the model.
-/
namespace Sys2Proof

/-! ### Items (Scope and Conventions, Identifiers) -/

def dieOk (d : Nat) : Bool := decide (d < 4)
def blockOk (b : Nat) : Bool := decide (b < 32)
def quarterOk (q : Nat) : Bool := decide (q < 8)
/-- A lane index on its die. -/
def laneOk (i : Nat) : Bool := decide (i < 288)
/-- A sensor-table entry. -/
def entryOk (e : Nat) : Bool := decide (e < 2048)
def toneOk (k : Nat) : Bool := decide (k < 64)
/-- A gauge-point index. -/
def gaugeOk (j : Nat) : Bool := decide (j < 131072)
/-- An event source: dies 0 to 3, FD 4. -/
def sourceOk (src : Nat) : Bool := decide (src < 5)
def pointOk (cp : Nat) : Bool := decide (cp < 4096)
def sectionOk (n : Nat) : Bool := decide (n < 2048)
/-- A legacy head. -/
def headOk (h : Nat) : Bool := decide (h < 32)
/-- A comparator channel. -/
def channelOk (k : Nat) : Bool := decide (k < 64)
def outputOk (i : Nat) : Bool := decide (i < 32)
/-- An output group. -/
def groupOk (g : Nat) : Bool := decide (g < 2)
def brakeOk (c : Nat) : Bool := decide (c < 16)
def resetInOk (n : Nat) : Bool := decide (n < 4)
/-- A field safety input. -/
def fsiOk (i : Nat) : Bool := decide (i < 8)
/-- An acoustic window. -/
def windowOk (w : Nat) : Bool := decide (w < 64)
def domainOk (d : Nat) : Bool := decide (d < 8)
/-- A domain that gets event entries and telegrams: HD0 to HD6. -/
def ringDomainOk (d : Nat) : Bool := decide (d < 7)
/-- A domain with an Ethernet session: HD2 to HD6. -/
def sessionOk (d : Nat) : Bool := decide (2 ≤ d) && decide (d < 7)
/-- A PCIe or Ethernet port; a domain of a PCIe port. -/
def portOk (p : Nat) : Bool := decide (p < 2)
/-- A hub core. -/
def coreOk (c : Nat) : Bool := decide (c < 4)
/-- A master with copies of its own (R541): 0 to 7 the domains, 8 the firmware, 9 to 12 the cores. -/
def copyOk (k : Nat) : Bool := decide (k < 13)
def engineOk (e : Nat) : Bool := decide (e < 8)
/-- A unit that scans: CV0 to CV7; one that scans on demand: CV4 to CV7; one that snoops: CV8 to CV11. -/
def scanClassOk (u : Nat) : Bool := decide (u < 8)
def scanUnitOk (u : Nat) : Bool := decide (4 ≤ u) && decide (u < 8)
def snoopUnitOk (u : Nat) : Bool := decide (8 ≤ u) && decide (u < 12)
def presetOk (p : Nat) : Bool := decide (1 ≤ p) && decide (p < 4)
/-- A Safe-stop cause of R271. -/
def causeOk (c : Nat) : Bool := decide (c < 11)
/-- A target of a structure commit: dies 0 to 3, HB 4, FD 5. -/
def targetOk (t : Nat) : Bool := decide (t < 6)
/-- HB_LNK_STATUS codes of a trained PCIe link: SPEED 1 to 4; WIDTH 1, 2 or 4. -/
def speedOk (speed width : Nat) : Bool := decide (1 ≤ speed) && decide (speed < 5) && (width == 1 || width == 2 || width == 4)
/-- An Ethernet link state: down, 1000BASE-X, 10GBASE-R. -/
def ethLinkOk (l : Nat) : Bool := decide (l < 3)

/-! ### Addresses -/

/-- An offset in the 4 MiB window. -/
def offsetOk (a : Nat) : Bool := decide (a < 0x400000)
/-- An address in BAR2 of the endpoint of a PCIe domain's port (R544). -/
def Master.bar2Ok (m : Master) (a : Nat) : Bool :=
  match m with
  | .host d => decide (d < 2) && decide (2 ^ 32 ≤ a) && decide (a < 2 ^ 32 + 0x4000)
  | _ => false
/-- A word offset in the staging aperture. -/
def apertureOk (o : Nat) : Bool := decide (o < 0x10000) && o % 4 == 0
/-- A loop-parameter register of AQn_CAL (R493). -/
def calParamAt (o : Nat) : Bool := decide (0x40 ≤ o) && decide (o ≤ 0x68) && o % 4 == 0
/-- The event-ring registers that are written to configure the ring. -/
def evrQueueOk (a : Nat) : Bool := a == 0x4004 || a == 0x4008 || a == 0x400C
/-- The ring registers of HB_LNK that are written to configure a ring. -/
def lnkQueueOk (a : Nat) : Bool := [0x7020, 0x7024, 0x7028, 0x7040, 0x7044, 0x7048, 0x7060, 0x7064, 0x7068].contains a
/-- A 24-bit SPI offset, and a forerunner window address. -/
def spiOffsetOk (o : Nat) : Bool := decide (o < 0x1000000)
def byteAddrOk (a : Nat) : Bool := decide (a < 256)
/-- A 48-bit global address. -/
def globalOk (a : Nat) : Bool := decide (a < 0x1000000000000)

/-! ### Masters, links, records -/

def Master.wf : Master → Bool
  | .host d => domainOk d
  | .firmware => true
  | .core c => coreOk c

def Link.wf : Link → Bool
  | .die d => dieOk d
  | _ => true

def CrossingTarget.wf : CrossingTarget → Bool
  | .block d b => dieOk d && blockOk b
  | .die d => dieOk d
  | .package => true

/-- HD0 and HD1 send through rings, HD2 to HD6 through sessions, HD7 through the mailbox and the key sequence. -/
def CmdOrigin.wf : CmdOrigin → Bool
  | .ring d => portOk d
  | .session d _ => sessionOk d
  | .mailbox m => m == .host 7
  | .forerunner => true

/-- The domain that a command comes from. -/
def CmdOrigin.dom : CmdOrigin → Nat
  | .ring d => d
  | .session d _ => d
  | _ => 7

/-- A command that a domain sends by its own path; at most 48 argument bytes. -/
def Command.wf (c : Command) : Bool :=
  c.origin.wf && c.origin != .forerunner && c.dom == c.origin.dom && decide (c.tag < 4294967296) && decide (c.epoch < 4294967296) &&
    decide (c.args.length ≤ 48)

/-- A command record of 64 bytes (R350). -/
def recordOk (r : List Byte) : Bool := r.length == 64

/-- An event record of 32 bytes (R182, R286). -/
def eventOk (e : List Byte) : Bool := e.length == 32

def PtpMessage.wf (g : PtpMessage) : Bool := portOk g.port && decide (g.domain < 256) && decide (g.seq < 65536)

/-- A code of a 12-bit ADC (R55). -/
def adcCodeOk (x : Int) : Bool := decide (-2048 ≤ x) && decide (x ≤ 2047)

def AdcBlock.wf (x : AdcBlock) : Bool := x.samples.all fun a => adcCodeOk a.xi && adcCodeOk a.xq && adcCodeOk a.yi && adcCodeOk a.yq

def Slice.wf (x : Slice) : Bool := toneOk x.tone && x.adc.wf

/-- A round's result has a value for every component: four offsets, four gains, four imbalance terms, three skews. -/
def RoundResult.wf (r : RoundResult) : Bool :=
  r.ofs.length == 4 && r.gain.length == 4 && r.iq.length == 4 && r.skew.length == 3

/-- A converter frame reads 64 pins, ten scans of 32 reference pins, and three DACs of 64 channels. -/
def AdcScan.wf (a : AdcScan) : Bool :=
  a.pins.length == 64 && a.refs.length == 10 && a.refs.all (fun r => r.length == 32) && a.thr.length == 64 && a.lo.length == 64 &&
    a.hi.length == 64

def NvFault.wf : NvFault → Bool
  | .wp k _ _ _ => decide (k < 1024)
  | .word a => globalOk a
  | _ => true

/-- A fault can be injected into a lane, a block or a quarter (R163). -/
def injectOk (level index : Nat) : Bool :=
  (level == 0 && laneOk index) || (level == 1 && blockOk index) || (level == 2 && quarterOk index)

/-- A command is well formed. -/
def Instr.wf : Instr → Bool
  | .registerWrite _ m a _ => m.wf && (offsetOk a || m.bar2Ok a)
  | .linkFrameReceived _ link _ _ _ => link.wf
  | .idleFrameSend _ d => dieOk d
  | .stampFloorSend _ d b => dieOk d && blockOk b
  | .fdWatermarkSend _ => true
  | .watermarkReceived _ src _ => sourceOk src
  | .sourceEventReceived _ src ev => sourceOk src && eventOk ev
  | .eventRelease _ => true
  | .dieLinkSilence _ d => dieOk d
  | .dieLinkResume _ d => dieOk d
  | .replayTimeout _ d => dieOk d
  | .isoChannelSilence _ _ => true
  | .crossingFault _ t => t.wf
  | .cycleBoundary _ => true
  | .horizonMarkSend _ => true
  | .ptpMessageReceived _ msg => msg.wf
  | .ppsEdge _ _ => true
  | .ppsEdgeMissing _ => true
  | .tcHoldoverEntry _ => true
  | .tcStepRequest _ m => m.wf
  | .tcStepApply _ => true
  | .tcStepMessage _ => true
  | .tcSlewMessage _ _ => true
  | .fdSkewDetect _ _ => true
  | .fdSkewRecover _ _ => true
  | .tcNowLoRead _ m => m.wf
  | .ofeLightOn _ m d => m.wf && dieOk d
  | .ofeLightOff _ m d => m.wf && dieOk d
  | .ofeRestart _ m d => m.wf && dieOk d
  | .laserWindowReached _ d => dieOk d
  | .laserOkRise _ d => dieOk d
  | .laserOkTimeout _ d => dieOk d
  | .ampEnable _ d => dieOk d
  | .ampCheckEnd _ d _ => dieOk d
  | .probeStart _ d => dieOk d
  | .laserOffDelay _ d => dieOk d
  | .interlockOpen _ d => dieOk d
  | .interlockClosedHold _ d => dieOk d
  | .ampFault _ d => dieOk d
  | .ampRetry _ d => dieOk d
  | .laserOkLoss _ d => dieOk d
  | .rxOkFall _ d => dieOk d
  | .thmSample _ d _ _ _ _ => dieOk d
  | .tecLoopStep _ d => dieOk d
  | .tecOvercurrent _ d => dieOk d
  | .probeWindowUnlocked _ d => dieOk d
  | .tecSetpointWrite _ m d _ _ => m.wf && dieOk d
  | .tecLimitsWrite _ m d _ _ => m.wf && dieOk d
  | .pwrFailTaken _ => true
  | .powerLossEntryDurable _ => true
  | .psyApplyGo _ m d => m.wf && dieOk d
  | .periodStart _ d => dieOk d
  | .toneFiring _ d k => dieOk d && toneOk k
  | .tailWindowEnd _ d k adc guard => dieOk d && toneOk k && adc.wf && guard.all AdcBlock.wf
  | .sliceReceived _ d lane slice => dieOk d && laneOk lane && slice.wf
  | .spareLoadComplete _ d b => dieOk d && blockOk b
  | .lanePeriodEnd _ d lane => dieOk d && laneOk lane
  | .edgeRecordReceived _ d lane _ => dieOk d && laneOk lane
  | .dmdReacqRequest _ m d => m.wf && dieOk d
  | .refWindowEnd _ d k j => dieOk d && toneOk k && gaugeOk j
  | .reacqComplete _ d => dieOk d
  | .reacqForce _ d => dieOk d
  | .dmdProbeLoRead _ m d => m.wf && dieOk d
  | .dmdEpochLoRead _ m d => m.wf && dieOk d
  | .periodStampLoRead _ m d => m.wf && dieOk d
  | .arbiterFault _ d b => dieOk d && blockOk b
  | .memScrub _ d b _ => dieOk d && blockOk b
  | .blockPllUnlock _ d b => dieOk d && blockOk b
  | .stampFloorMissing _ d b => dieOk d && blockOk b
  | .blockPowerDown _ d b => dieOk d && blockOk b
  | .quarterHeartbeatLoss _ d q => dieOk d && quarterOk q
  | .dieStatusFrame _ d => dieOk d
  | .lbqReturnLane _ m d lane => m.wf && dieOk d && laneOk lane
  | .laneReturnTestEnd _ d lane => dieOk d && laneOk lane
  | .lbqReturnBlock _ m d b => m.wf && dieOk d && blockOk b
  | .lbqReturnQuarter _ m d q => m.wf && dieOk d && quarterOk q
  | .blockReturnComplete _ d b _ => dieOk d && blockOk b
  | .lbqInject _ m d level index => m.wf && dieOk d && injectOk level index
  | .detectionSample _ d e => dieOk d && entryOk e
  | .sensorHalt _ d e => dieOk d && entryOk e
  | .standTimeout _ d e => dieOk d && entryOk e
  | .wheelEventEmit _ d lane => dieOk d && laneOk lane
  | .wsdLast0Read _ m d => m.wf && dieOk d
  | .releasedEventReceived _ => true
  | .horizonMarkReceived _ => true
  | .cycleMarkReceived _ => true
  | .spanRestartMarkReceived _ => true
  | .legacyDiscrepancyTimeout _ _ lh => headOk lh
  | .headUnresolved _ _ cp => pointOk cp
  | .fusedDisagree _ _ cp => pointOk cp
  | .headBackInService _ _ cp => pointOk cp
  | .directResetTimeout _ sec => sectionOk sec
  | .profileRecord _ p => dieOk p
  | .acwBlockReady _ w => windowOk w
  | .acwEnable _ m w => m.wf && windowOk w
  | .acwDisable _ m w => m.wf && windowOk w
  | .pairComparatorMismatch _ _ _ => true
  | .pairSelftestInject _ _ _ _ => true
  | .verdictDeadline _ _ => true
  | .verdictSend _ _ => true
  | .verdictSegmentReceived _ => true
  | .combinationCompare _ => true
  | .verdictTimeout _ _ => true
  | .verdictLoss _ => true
  | .safeStopCauseClear _ code => causeOk code
  | .ledgerFault _ => true
  | .ledgerScrub _ _ => true
  | .pairReturn _ m _ => m.wf
  | .pairReturnSelftestDone _ _ _ => true
  | .pairReturnComplete _ _ => true
  | .pairInject _ m _ => m.wf
  | .pairSwap _ m => m.wf
  | .debugHalt _ _ => true
  | .telegramHeaderReceived _ => true
  | .channelSettle _ k _ => channelOk k
  | .legacyEdge _ k _ => channelOk k
  | .legacyEventEmit _ lh => headOk lh
  | .channelDwellFault _ k => channelOk k.idx
  | .channelWindowFault _ k _ => channelOk k.idx
  | .channelFaultEnd _ k _ => channelOk k.idx
  | .wscLatchClear _ m _ _ => m.wf
  | .wscStampLoRead _ m => m.wf
  | .supplySample _ _ _ => true
  | .fieldSupplyFault _ => true
  | .adcFrame _ scan => scan.wf
  | .adcRequest _ m _ => m.wf
  | .adcRequestDone _ _ => true
  | .fsiStateChange _ k _ => fsiOk k
  | .fsiFault _ k => fsiOk k.idx
  | .outputReadback _ k _ _ => outputOk k
  | .outputSwitchTimeout _ k => outputOk k
  | .openLoadTimeout _ k => outputOk k
  | .groupCheckStart _ => true
  | .groupCheckDone _ g _ => groupOk g
  | .voFaultClear _ m k => m.wf && outputOk k
  | .voGroupRetest _ m g => m.wf && groupOk g
  | .groupRetestDone _ g _ => groupOk g
  | .offPulseSlotStart _ k => outputOk k
  | .offPulseRaise _ k => outputOk k
  | .offPulseEnd _ k => outputOk k
  | .brakeTestStart _ m c => m.wf && brakeOk c
  | .brakeFeedbackChange _ c _ => brakeOk c
  | .brakeTestApplyTimeout _ c => brakeOk c
  | .brakeTestHoldEnd _ c => brakeOk c
  | .brakeTestReleaseTimeout _ c => brakeOk c
  | .brakeFeedbackTimeout _ c => brakeOk c
  | .resetInputPattern _ n no nc => resetInOk n && no.length == nc.length
  | .resetInputStuck _ n => resetInOk n
  | .resetInputFault _ n => resetInOk n
  | .rstStartLoRead _ m => m.wf
  | .frwSpiRead _ a => byteAddrOk a
  | .frwLatchClr _ _ => true
  | .frwCntClr _ _ => true
  | .frwRstSel _ _ => true
  | .frwRstKey _ _ => true
  | .frwHeadSelWrite _ _ => true
  | .frwSecSelWrite _ _ => true
  | .frwCountLoRead _ => true
  | .frwCountHiRead _ => true
  | .frwTsLoRead _ => true
  | .frwTsHiRead _ => true
  | .commandArbiterEntry _ origin record => origin.wf && recordOk record
  | .leaseAcquire _ c => c.wf
  | .leaseRelease _ c => c.wf
  | .leaseRevoke _ c => c.wf
  | .leaseRenew _ m _ => m.wf
  | .leaseGrace _ => true
  | .leaseLapse _ => true
  | .secResetPrep _ c => c.wf
  | .secResetDirect _ c => c.wf
  | .secBlock _ c => c.wf
  | .secUnblock _ c => c.wf
  | .brakeTest _ c => c.wf
  | .safeStop _ c => c.wf
  | .maintEnter _ c => c.wf
  | .maintLeave _ c => c.wf
  | .unfreeze _ c => c.wf
  | .passwordSet _ c => c.wf
  | .passwordLockoutEnd _ _ => true
  | .lockoutTimeSave _ => true
  | .ledgerSelftest _ c => c.wf
  | .eventEntryDeliver _ dom => ringDomainOk dom
  | .eventTelegramSend _ dom => sessionOk dom
  | .snapshotTake _ m => m.wf
  | .snapshotFill _ dom => copyOk dom
  | .evrQueueConfigWrite _ m a _ => m.wf && evrQueueOk a
  | .cmdqDoorbell _ m _ => m.wf
  | .commandRecordFetch _ dom record => portOk dom && recordOk record
  | .responseDeliver _ dom => domainOk dom
  | .lnkQueueConfigWrite _ m a _ => m.wf && lnkQueueOk a
  | .pciePortReset _ p => portOk p
  | .vitalTelegramForm _ dom => ringDomainOk dom
  | .codeHReceived _ dom => ringDomainOk dom
  | .telegramDeadline _ dom => ringDomainOk dom
  | .ethDatagramReceive _ port _ _ _ => portOk port
  | .sessionOpen _ dom => sessionOk dom
  | .sessionClose _ dom => sessionOk dom
  | .sessionTimeout _ dom => sessionOk dom
  | .keepaliveSend _ dom => sessionOk dom
  | .sessionCommand _ dom => sessionOk dom
  | .sessionRead _ dom => sessionOk dom
  | .sessionWrite _ dom => sessionOk dom
  | .ethLinkChange _ p link => portOk p && ethLinkOk link
  | .icmpEcho _ p _ => portOk p
  | .neighbourRequest _ p _ => portOk p
  | .spiNativeRead _ off => spiOffsetOk off
  | .spiNativeWrite _ off _ => spiOffsetOk off
  | .mboxSubmit _ m => m.wf
  | .stageWrite _ m off _ => m.wf && apertureOk off
  | .stagingTimeout _ => true
  | .structOpen _ c => c.wf
  | .structVerify _ c => c.wf
  | .verifyComplete _ => true
  | .structCommit _ c => c.wf
  | .structFrameReceived _ target => targetOk target.idx
  | .structFrameAck _ target => targetOk target
  | .commitDistribTimeout _ => true
  | .commitNvWritesDone x => decide (x.val ≤ 3)
  | .commitEffect _ => true
  | .structAbort _ c => c.wf
  | .structPwdSet _ c => c.wf
  | .wpTokenAdd _ => true
  | .calBankWriteDone _ => true
  | .jnlCursorHiWrite _ m _ => m.wf
  | .jnlCursorLoWrite _ m _ => m.wf
  | .jnlEntry0Read _ m => m.wf
  | .jnlEntry7Read _ m => m.wf
  | .clgCursorHiWrite _ m _ => m.wf
  | .clgCursorLoWrite _ m _ => m.wf
  | .clgEntry0Read _ m => m.wf
  | .clgEntry31Read _ m => m.wf
  | .logAck _ c => c.wf
  | .dmaDoorbell _ m e _ => m.wf && engineOk e
  | .dmaChannelStart _ e => engineOk e
  | .dmaProgramFetch _ e _ => engineOk e
  | .dmaMove _ e _ => engineOk e
  | .dmaLoop _ e => engineOk e
  | .dmaWait _ e => engineOk e
  | .dmaWaitSatisfied _ e => engineOk e
  | .dmaWaitTimeout _ e => engineOk e
  | .dmaSignal _ e => engineOk e
  | .dmaCrcstore _ e => engineOk e
  | .dmaEnd _ e => engineOk e
  | .dmaBusRetry _ e _ => engineOk e
  | .dmaAbort _ m e _ => m.wf && engineOk e
  | .cvuGo _ m u => m.wf && scanUnitOk u
  | .cvuStop _ m u => m.wf && scanUnitOk u
  | .cvuPresetLoad _ m u p => m.wf && scanUnitOk u && presetOk p
  | .cvuPeriodicStart _ u => scanClassOk u
  | .cvuPassEnd _ u faults => scanClassOk u && faults.all NvFault.wf
  | .cvuSnoopRecord _ u record _ _ => snoopUnitOk u && recordOk record
  | .calRoundStart _ d => dieOk d
  | .calPhaseAEnd _ d => dieOk d
  | .calRoundEnd _ d r => dieOk d && r.wf
  | .calRoundAbandon _ d => dieOk d
  | .calRampEnd _ d => dieOk d
  | .calParamWrite _ m d off _ => m.wf && dieOk d && calParamAt off
  | .calStore _ c => c.wf
  | .cmpCalHoldStart _ => true
  | .cmpCalRetry _ => true
  | .cmpCalGuardAbort _ _ => true
  | .cmpCalHoldEnd _ _ => true
  | .trimReportReceived _ => true
  | .trimSetWrite _ => true
  | .panelFrameStart _ => true
  | .panelRowSlot _ _ => true
  | .panelNtcRead _ _ => true
  | .chainFrame _ => true
  | .powerOnReset _ => true
  | .pwrFailReset _ => true
  | .pwrFailRelease _ => true
  | .fdPowerOn _ => true
  | .fdBrownout _ => true
  | .bootRomStart _ faults => faults.all NvFault.wf
  | .firmwareVerified _ => true
  | .bootWatchdog _ => true
  | .recoveryInstall _ m => m.wf
  | .startHandshake _ => true
  | .handshakeRetry _ => true
  | .structureLoad _ => true
  | .bootComplete _ => true
  | .bootRefTimeout _ => true
  | .jtagExpiry _ => true
  | .deviceReset _ c => c.wf
  | .fdReset _ c => c.wf
  | .fwInstall _ c => c.wf
  | .keyProgram _ c => c.wf
  | .keyRevoke _ c => c.wf
  | .settingsSet _ c => c.wf
  | .watchEnter _ c => c.wf
  | .watchLeave _ c => c.wf
  | .wakeRequestReceived _ => true
  | .registerRead _ m a => m.wf && (offsetOk a || m.bar2Ok a)
  | .porstNAsserted _ => true
  | .dieExclusionTimeout _ d => dieOk d
  | .fdInternalFault _ => true
  | .pairUncorrectableRead _ _ => true
  | .quarterParityFault _ d q => dieOk d && quarterOk q
  | .brakeFeedbackFault _ c => brakeOk c.idx
  | .resetInputFaultRelease _ n => resetInOk n
  | .pcieLinkUp _ p speed width => portOk p && speedOk speed width
  | .ptpDelayReqSend _ => true
  | .hubCoreAccess _ core addr => coreOk core && globalOk addr

end Sys2Proof
end

