-- ==== Sys2Proof/Tests/Slice0.lean ====
section
/-!
SUPPORT. Tests: ill-formed commands are refused, rows on small states with the numbers of the spec's worked examples, and for every
statement with hypotheses states and operands that meet them.
-/
namespace Sys2Proof.Tests
set_option Elab.async false
open Sys2Proof Sys2Proof.Machine

/-- The block right after reset; the states below differ from it in what a premise asks for. -/
def base : State := {}

/-- Port 0 enabled, with settings and a calibration set, the laser inside its windows. -/
def ready : State :=
  { (base.setProbe 0 { live := { en := true } }) with
    wp := [(16, { slot0 := { value := 250000 } }), (17, { slot0 := { value := 0x01010440 } })]
    bankA := { gen := 1, ok := true } }

/-- A PTP message of master 7 in domain 0. -/
def ptp (port : Nat) (kind : PtpKind) : PtpMessage := ⟨port, kind, 0, 7, 1, 1, false, 0, 0, 37, true⟩

/-- Port 0 enabled with a span of one point on lane 0, and a sensor of entry 0 on it. -/
def spanned : State :=
  { base.setProbe 0 { live := { en := true, np := 125000, lf := 5000, ng := 14680 } } with
    regs := [(Reg.AQ_LANE_SPAN 0 0, 0x20064), (Reg.AQ_WSD_SENSOR 0 0, 0x2000), (Reg.AQ_WSD_SENSOR 0 1, 100)] }

/-- A configuration with one fibre head: counting point 1, whose System 1 sensor is on home lane 0 of die 0. -/
def placed : ChanCfg := { cps := [(1, { sa := some ⟨0, 0⟩ })] }

/-- An event record of that sensor with a correct CHECK. -/
def record : List Byte :=
  let b := List.replicate 16 0 ++ [1] ++ List.replicate 11 0
  b ++ leBytes 4 (crcFold crc32c 0 b)

/-- A link that has been silent since time 0. -/
def quiet : Silence := { since := 0, declared := 0 }

/-- A command of HD0 with these arguments. -/
def cmd (args : List Byte := []) : Command := ⟨.ring 0, 0, 0, 0, args⟩

/-- Service under a live structure: HD0 has every role and the lease, section 1 is used, both channels run. -/
def serving : State :=
  { base.setReg (Reg.HB_HST_ROLE 0) 0x1F with
    dev := .service, boot := { shaken := true, stage := 1 }, lease := { holder := some 0 }, str := { live := some [] }
    saf := { running := true, chan := { cfg := { secs := [(1, {})] } } } }

/-- Vital output 0 configured, with one record of its state. -/
def driven (x : Vo) : State := { base.setReg (Reg.FD_VO_CFG 0) 1 with outs := { vo := [(0, x)] } }

/-- Section 1 of `serving` in a state, with a reset input where one is given. -/
def inSection (x : Sec) (rstin : Option Nat := none) (edges : Table Nat := []) : State :=
  { serving with saf := { running := true, chan := { cfg := { secs := [(1, { rstin := rstin })] }, secs := [(1, x)], edges := edges } } }

/-- Counting point 1 on both channels with this head. -/
def headed (kind : CpKind) (h : Head) : State :=
  { base with saf := { running := true, chan := { cfg := { cps := [(1, { kind := kind })] }, heads := [(1, h)] } } }

/-- The forerunner window on, with HD7 the owner of the first forerunner section and one write outstanding. -/
def forerun (x : Frw) : State := { base.setReg Reg.HB_FRM_CFG 0x10001 with frw := x }

/-- A register of HD0's own with a value. -/
def own (s : State) (a : Nat) (v : Word) : State := s.setMreg (.host 0) a v

/-- Session of HD2 open under a live structure in which HD2 has every role, with one message waiting. -/
def talking (m : NetMsg) : State :=
  { base.setReg (Reg.HB_HST_ROLE 2) 0x1F with
    str := { live := some [] }, links := { sessions := [(2, { up := true })], inbox := [(2, [m])] } }

/-- Engine 0 in a run of a program in its domain's host memory. -/
def run (phase : DmaPhase) : DmaRun := { ch := 0, cfg := 0, budget := 4, prog := 0x800000000000, phase := phase }
def running (r : DmaRun) : State := { base with dma := [(0, { run := some r, chans := [(0, { st := .running })] })] }

/-- An instruction of 16 bytes that begins with these. -/
def ins (b : List Byte) : List Byte := b ++ List.replicate (16 - b.length) 0

/-! ### Ill-formed commands are refused: one term for each check of WellFormed -/

theorem test_wf_items :
    (Instr.idleFrameSend 0 4).wf = false ∧ (Instr.stampFloorSend 0 0 32).wf = false ∧ (Instr.quarterHeartbeatLoss 0 0 8).wf = false ∧
    (Instr.lanePeriodEnd 0 0 288).wf = false ∧ (Instr.detectionSample 0 0 2048).wf = false ∧ (Instr.toneFiring 0 0 64).wf = false ∧
    (Instr.refWindowEnd 0 0 0 131072).wf = false ∧ (Instr.watermarkReceived 0 5 0).wf = false ∧
    (Instr.headUnresolved 0 .ledger 4096).wf = false ∧ (Instr.directResetTimeout 0 2048).wf = false ∧
    (Instr.legacyEventEmit 0 32).wf = false ∧ (Instr.channelDwellFault 0 ⟨64, []⟩).wf = false ∧
    (Instr.outputSwitchTimeout 0 32).wf = false ∧ (Instr.groupCheckDone 0 2 []).wf = false ∧ (Instr.brakeTestHoldEnd 0 16).wf = false ∧
    (Instr.resetInputStuck 0 4).wf = false ∧ (Instr.fsiFault 0 ⟨8, []⟩).wf = false := by decide

theorem test_wf_units :
    (Instr.acwBlockReady 0 64).wf = false ∧ (Instr.responseDeliver 0 8).wf = false ∧ (Instr.eventEntryDeliver 0 7).wf = false ∧
    (Instr.sessionClose 0 1).wf = false ∧ (Instr.sessionClose 0 7).wf = false ∧ (Instr.pciePortReset 0 2).wf = false ∧
    (Instr.hubCoreAccess 0 4 0).wf = false ∧ (Instr.snapshotFill 0 13).wf = false ∧ (Instr.dmaLoop 0 8).wf = false ∧
    (Instr.cvuPeriodicStart 0 8).wf = false ∧ (Instr.cvuStop 0 .firmware 3).wf = false ∧
    (Instr.cvuSnoopRecord 0 7 (List.replicate 64 0) 0 true).wf = false ∧ (Instr.cvuPresetLoad 0 .firmware 4 0).wf = false ∧
    (Instr.safeStopCauseClear 0 11).wf = false ∧ (Instr.structFrameAck 0 6).wf = false ∧ (Instr.pcieLinkUp 0 0 0 4).wf = false ∧
    (Instr.pcieLinkUp 0 0 4 3).wf = false ∧ (Instr.ethLinkChange 0 0 3).wf = false := by decide

theorem test_wf_addresses :
    (Instr.registerRead 0 .firmware 0x400000).wf = false ∧ (Instr.stageWrite 0 .firmware 0x10000 0).wf = false ∧
    (Instr.stageWrite 0 .firmware 2 0).wf = false ∧ (Instr.calParamWrite 0 .firmware 0 0x6C 0).wf = false ∧
    (Instr.evrQueueConfigWrite 0 .firmware 0x4010 0).wf = false ∧ (Instr.lnkQueueConfigWrite 0 .firmware 0x702C 0).wf = false ∧
    (Instr.spiNativeRead 0 0x1000000).wf = false ∧ (Instr.frwSpiRead 0 256).wf = false ∧
    (Instr.hubCoreAccess 0 0 0x1000000000000).wf = false := by decide

theorem test_wf_masters :
    (Instr.tcNowLoRead 0 (.host 8)).wf = false ∧ (Instr.tcNowLoRead 0 (.core 4)).wf = false ∧
    (Instr.linkFrameReceived 0 (.die 4) true [] 0).wf = false ∧ (Instr.crossingFault 0 (.block 0 32)).wf = false ∧
    (Instr.crossingFault 0 (.die 4)).wf = false := by decide

/-- HD2 has no ring, HD0 no session; a command states its own domain; a record has 64 bytes, an event 32. -/
theorem test_wf_commands :
    (Instr.leaseAcquire 0 ⟨.ring 2, 2, 0, 0, []⟩).wf = false ∧ (Instr.leaseAcquire 0 ⟨.session 0 1, 0, 0, 0, []⟩).wf = false ∧
    (Instr.leaseAcquire 0 ⟨.mailbox (.host 6), 7, 0, 0, []⟩).wf = false ∧ (Instr.leaseAcquire 0 ⟨.forerunner, 7, 0, 0, []⟩).wf = false ∧
    (Instr.leaseAcquire 0 ⟨.ring 0, 1, 0, 0, []⟩).wf = false ∧ (Instr.leaseAcquire 0 ⟨.ring 0, 0, 4294967296, 0, []⟩).wf = false ∧
    (Instr.leaseAcquire 0 ⟨.ring 0, 0, 0, 4294967296, []⟩).wf = false ∧
    (Instr.leaseAcquire 0 ⟨.ring 0, 0, 0, 0, List.replicate 49 0⟩).wf = false ∧
    (Instr.commandArbiterEntry 0 (.ring 0) (List.replicate 63 0)).wf = false ∧
    (Instr.sourceEventReceived 0 0 (List.replicate 31 0)).wf = false := by decide +kernel

theorem test_wf_records :
    (Instr.ptpMessageReceived 0 (ptp 2 .sync)).wf = false ∧
    (Instr.sliceReceived 0 0 0 ⟨64, 0, 0, ⟨0, 0, []⟩, 0, false, false, false, 0, false⟩).wf = false ∧
    (Instr.calRoundEnd 0 0 ⟨[], [], [], [], 0, 0, 0, []⟩).wf = false ∧ (Instr.adcFrame 0 ⟨[], [], [], [], [], 0, 0⟩).wf = false ∧
    (Instr.cvuPassEnd 0 2 [.wp 1024 false true true]).wf = false ∧ (Instr.lbqInject 0 .firmware 0 0 288).wf = false ∧
    (Instr.lbqInject 0 .firmware 0 3 0).wf = false := by decide

/-- A command with every operand in its range is well formed. -/
theorem test_wf_accepts : (Instr.secBlock 0 (cmd [1, 0])).wf = true ∧ (Instr.registerWrite 0 (.host 7) 0x3FFFFC 0).wf = true := by decide

/-! ### Reset, and the numbers of the spec's worked examples -/

/-- R12: the device is in Start, no command waits. -/
theorem test_reset : State.reset.dev = .start ∧ State.reset.pending = [] ∧ memWf State.reset.mem = true := by decide

/-- 00, Identifiers: lane index 200 is in block 22, position 2, quarter 5. -/
theorem test_lane_200 : laneBlock 200 = 22 ∧ 200 % 9 = 2 ∧ blockQuarter 22 = 5 := by decide

/-- The probe set of a 72 km port (03, Worked example). -/
def set72 : ProbeSet :=
  { plan := 1, en := true, np := 910000, nt := 25000, nc := 1250, taper := 10, level := 230, lf := 720000, ng := 14680, d0 := 416 }

theorem test_set72 :
    set72.tones = 16 ∧ set72.npMin = 908603 ∧ set72.jMin = 31 ∧ set72.jMax = 44087 ∧ set72.points = 44057 ∧ set72.check = 0 ∧
    set72.offset 5 = 284375 := by decide +kernel

/-- 05, Worked example: lane 64 owns 172 points from 9,860 on, and point 10,000 is among them. -/
theorem test_span_of_point_10000 :
    (base.setReg (Reg.AQ_LANE_SPAN 3 64) (lo32 (9860 + 131072 * 172))).homeOf 3 10000 = some 64 := by decide +kernel

/-- The head rule of CP502 (07, Worked example), and a WHEEL event of it. -/
def rule502 : HeadRule := ⟨.fibre, ⟨3000, 25, 3⟩, 15, 0, true, true⟩
def wheel (ms sys v : Nat) : HeadEvent := ⟨sys, 0, ms * 1000000, v, 1, false⟩

/-- 07, Worked example, step 2: the reversal splits reading 0, S213 has high 2 and low 0. -/
theorem test_turnout_split :
    let h : FibCore :=
      { readings := [{ d := 1, gap := [⟨0, 540, 0, 1, false, true⟩], c2 := 1 }], prev := some (0, 540), rev := 1
        senA := .sighted, senB := .sighted, waiting := false }
    let c := (rule502.event h (wheel 3200 0 360) 3200000000).core
    c.readings.map (fun r => (r.d, r.gap.length)) = [(1, 2), (2, 0)] ∧
      ({ core := c } : Head).figures .fibre 2 = (2, 0) := by decide +kernel

/-- 07, Worked example, step 7: reading 2 fails its transit check and is dropped, and the head is resolved. -/
theorem test_turnout_resolved :
    let h : FibCore :=
      { readings :=
          [{ d := 2, gap := [⟨8500000000, 720, 1, 3, false, true⟩, ⟨9400000000, 720, 1, 3, false, true⟩], c1 := 2 },
            { d := 1, c1 := -2, c2 := 2 }]
        prev := some (9400000000, 720), rev := 3, senA := .sighted, senB := .sighted, waiting := false }
    let c := (rule502.event h (wheel 11500 0 720) 0).core
    c.readings.map (fun r => (r.d, r.gap.length, r.c1, r.c2)) = [(1, 1, -2, 3)] ∧ c.base1 = -2 ∧ c.base2 = 3 := by decide +kernel

/-- 08, Worked example: block bytes, and twenty-two FULL windows in MB/s. -/
theorem test_window_bytes :
    acwBytes 16 1 3063 8 = 392096 ∧ acwBytes 16 1 3063 4 = 196064 ∧ acwBytes 16 4 3063 4 = 49040 ∧
    (acwRate 392096 910000 * 22 / 1000000).floor = 11849 := by decide +kernel

/-- 10, Worked example: five LOW samples of seven damp WS10, 2.35 V is in the band, and the stamp is four samples back. -/
theorem test_filter_ws10 :
    let s := { (base.setReg (Reg.FD_WSC_CFG0 10) (lo32 (600 + 16 * 1024 + 131072))).setReg (Reg.FD_WSC_CFG2 10) (lo32 (7 + 16 * 5)) with
      tc := { fd := 1002000 }, now := 1002000 }
    s.wscFilter 10 [⟨2, 3200000, 4000000⟩, ⟨5, 1600000, 4000000⟩] = some true ∧
      s.wscFilter 10 [⟨7, 2350000, 4000000⟩] = none ∧ s.wscStamp 10 = 1000000 := by decide +kernel

/-- 12, Worked example, steps 1, 3 and 4: a second write of the same value within 10 ms completes the pair. -/
theorem test_forerunner_pair :
    let s := { base.setReg Reg.HB_FRM_CFG 0x40001 with frw := { first := some (0x12, 3, 0) } }
    ∃ t, exec (.frwRstSel 4000000 3) s = .next t ∧ t.frw.rstSel = 3 ∧ t.frw.result = 1 := ⟨_, rfl, by decide +kernel, by decide +kernel⟩

/-- 12, Worked example, step 2: a read between the two writes cancels the pair. -/
theorem test_forerunner_cancelled :
    ∃ t, exec (.frwSpiRead 1500000 3) { base with frw := { first := some (0x12, 3, 0) } } = .next t ∧ t.frw.first = none :=
  ⟨_, rfl, by decide +kernel⟩

/-- 13, Worked example, step 5: the lease is granted with the epoch one higher. -/
theorem test_lease_epoch :
    ∃ t, exec (.leaseAcquire 0 cmd) { serving with lease := {}, wp := [(0, { slot0 := { value := 0x117 } })] } = .next t ∧
      t.lease.holder = some 0 ∧ t.leaseEpoch = 0x118 := ⟨_, rfl, by decide +kernel, by decide +kernel⟩

/-- 13, Worked example, step 9: LEASE_HELD, with the holder and the epoch as data. -/
theorem test_lease_held :
    ∃ t, exec (.leaseAcquire 0 cmd) { serving with lease := { holder := some 1 }, wp := [(0, { slot0 := { value := 0x118 } })] } =
        .next t ∧ t.responses.map (fun r => (r.result, r.data)) = [(8, [1, 0, 0, 0, 0x18, 1, 0, 0])] :=
  ⟨_, rfl, by decide +kernel⟩

/-- 17, Worked example: the LOOP at 32 repeats with the source 4,096 and the destination 3,000 bytes further. -/
theorem test_dma_loop :
    let r := { run (.instr (ins [2, 1, 0, 0, 8, 0, 0, 0, 0, 0x10, 0, 0, 0xB8, 0x0B])) with pc := 32 }
    ∃ t, exec (.dmaLoop 0 0) (running r) = .next t ∧
      (t.eng 0).run.map (fun x => (x.pc, x.soff, x.doff, x.stack.map (·.left))) = some (16, 4096, 3000, [7]) :=
  ⟨_, rfl, by decide +kernel⟩

/-- 18, Worked example: the slot of SEQ 250,000. -/
theorem test_journal_slot : faultAddr (.journal 250000) = nvBase + 0xDA11E0 := by decide

/-- 20, Worked example: DER, the duty of a pixel, and the shortest chain period of 40 modules. -/
theorem test_panel :
    derate (lo32 (420 + 340 * 1024 + 64 * 1048576)) 400 = 208 ∧
    ({ live := [(Reg.HB_PNL_GAMMA 40, 18000)], bright := 200, der := 208 } : Panel).dutyOf 40 = 11470 ∧ chainMs 40 80 = 2 := by
  decide +kernel

/-- 23, Worked example: AQ2_LANE_STAT200, the reserved offset behind the last lane, and the closed range of AQ2. -/
theorem test_access_185120 : ∃ row, base.meets (.host 0) 0x185120 = .register .lbq 2 0x1120 row := ⟨_, rfl⟩

theorem test_access_185280 :
    ∃ t, exec (.registerRead 0 (.host 0) 0x185280) base = .next t ∧ t.sent = [.reply (.host 0) 0x185280 0 false] ∧ t.frozen = [] :=
  ⟨_, rfl, by decide +kernel, by decide +kernel⟩

theorem test_access_187000 :
    ∃ t, exec (.registerRead 0 (.host 0) 0x187000) base = .next t ∧ t.frozen = [.domain 0] ∧
      t.frzRecs.map (fun x => x.2.cause) = [.window] := ⟨_, rfl, by decide +kernel, by decide +kernel⟩

/-- 23, Worked example: the profile area is read-only to DE2 of HD0; reading it into host memory is allowed. -/
theorem test_dma_profile :
    let s := { base.setReg (Reg.HB_HST_ROLE 0) 0x81 with str := { live := some [] } }
    s.dmaOwner 2 = some 0 ∧ s.dmaForeign 2 0x15C0000 true = true ∧ s.dmaForeign 2 0x15C0000 false = false ∧
      s.dmaForeign 2 0x801234500000 true = false := by decide +kernel

/-- R562, R567, and the table of the supplies' balls (24): the grid has 1,849 balls. -/
theorem test_package :
    balls.length = 1849 ∧ logicRails.map ballsOf = [172, 91, 22, 21, 18, 30, 21] ∧ [Rail.vf5, .vf24, .fgnd].map ballsOf = [18, 12, 66] := by
  decide +kernel

/-- 24, Worked example (cabinet at the ambient limit): 109.96 °C at full load, 103.33 °C typical, 111.56 °C with 0.65 K/W. -/
theorem test_junction :
    [junctionAt 8500 32000 600, junctionAt 8500 23500 600, junctionAt 8500 32000 650] = [10996, 10333, 11156] := by decide +kernel

/-- The digest of "abc" (FIPS 180-4) and CRC-32C of "123456789" (the parameters of R187; the value is the catalogue's). -/
theorem test_digests :
    (sha256 [0x61, 0x62, 0x63]).take 4 = [0xBA, 0x78, 0x16, 0xBF] ∧
    crc crc32c [0x31, 0x32, 0x33, 0x34, 0x35, 0x36, 0x37, 0x38, 0x39] = 0xE3069283 := by decide +kernel

/-! ### Every statement with hypotheses has states and operands that meet them -/

/-- Every clause of DisciplineMeasuresAndHolds has a state and operands that meet its premises. -/
theorem witness_DisciplineMeasuresAndHolds :
    (∃ dt, ∃ s e : State, ∃ g : PtpMessage, s.elapse dt = e ∧ e.boot.up = true ∧ e.tcSrc = 1 ∧ g.port = 0 ∧ g.domain = fld (e.reg
      Reg.HB_TC_PTP_CFG) 0 8 ∧ g.kind = .announce ∧ e.ptpAccepts g = true) ∧
    (∃ dt, ∃ s e : State, ∃ g : PtpMessage, ∃ mean rank, s.elapse dt = e ∧ e.boot.up = true ∧ e.tcSrc = 2 ∧ g.port = 1 ∧ g.domain =
      fld (e.reg Reg.HB_TC_PTP_CFG) 0 8 ∧ g.kind = .sync ∧ g.twoStep = false ∧ e.tc.ptpMaster = some (g.master, rank) ∧ e.tc.ptpMean
      = some mean) ∧
    (∃ dt, ∃ s e : State, ∃ m rank, s.elapse dt = e ∧ e.boot.up = true ∧ (e.tcSrc = 1 ∨ e.tcSrc = 2) ∧ e.tc.ptpMaster = some (m,
      rank)) ∧
    (∃ dt, ∃ s e : State, ∃ falling, s.elapse dt = e ∧ e.boot.up = true ∧ e.tcSrc = 3 ∧ bitOf (e.reg Reg.HB_TC_PPS_CFG) 16 = falling
      ∧ e.tc.disc ≠ .locked ∧ ((e.tc.now : Int) - fld (e.reg Reg.HB_TC_PPS_CFG) 0 16) % 1000000000 < 500000000) ∧
    (∃ dt, ∃ s e : State, s.elapse dt = e ∧ e.boot.up = true ∧ e.tcSrc = 3) ∧
    (∃ dt, ∃ s e : State, s.elapse dt = e ∧ e.boot.up = true ∧ e.tcSrc = 3 ∧ 3 ≤ e.tc.missed ∧ e.tc.disc = .locked) := by
  refine ⟨?_, ?_, ?_, ?_, ?_, ?_⟩
  · exact ⟨0, { base with regs := [(Reg.HB_TC_CTL, 1), (Reg.HB_TC_PTP_CFG, 0x100)] }, _, ptp 0 .announce, rfl, by decide +kernel⟩
  · exact ⟨0, { base with regs := [(Reg.HB_TC_CTL, 2)], tc := { ptpMaster := some (7, 1), ptpMean := some 0 } }, _, ptp 1 .sync, 0,
      1, rfl, by decide +kernel⟩
  · exact ⟨0, { base with regs := [(Reg.HB_TC_CTL, 1)], tc := { ptpMaster := some (7, 1) } }, _, 7, 1, rfl, by decide +kernel⟩
  · exact ⟨0, { base with regs := [(Reg.HB_TC_CTL, 3), (Reg.HB_TC_PPS_CFG, 0x10000)], tc := { now := 499999999 } }, _, true, rfl,
      by decide +kernel⟩
  · exact ⟨0, { base with regs := [(Reg.HB_TC_CTL, 3)] }, _, rfl, by decide +kernel⟩
  · exact ⟨0, { base with regs := [(Reg.HB_TC_CTL, 3)], tc := { missed := 3, disc := .locked } }, _, rfl, by decide +kernel⟩

/-- Every clause of StepsSlewsAndSkew has a state and operands that meet its premises. -/
theorem witness_StepsSlewsAndSkew :
    (∃ dt, ∃ s e : State, ∃ m, s.elapse dt = e ∧ e.boot.up = true ∧ e.mayWrite m Reg.HB_TC_CTL = true ∧ e.dev.quiet = true ∧ e.tcSrc
      ≠ 3 ∧ e.tc.now < e.tcSet) ∧
    (∃ dt, ∃ s e : State, s.elapse dt = e ∧ e.boot.up = true ∧ e.tc.stepPending = some .set ∧ e.saf.cycleAt = e.now ∧ e.releasedTo
      e.saf.cycleTc = true ∧ e.dev.quiet = true ∧ e.tcSrc ≠ 3 ∧ e.tc.now < e.tcSet ∧ e.fdUp = true ∧ e.boot.shaken = true ∧
      e.tc.fdStep = none) ∧
    (∃ dt, ∃ s e : State, ∃ d n, s.elapse dt = e ∧ e.fdUp = true ∧ e.tc.fdStep = some (d, n) ∧ e.fds.marked n = true) ∧
    (∃ dt, ∃ s e : State, s.elapse dt = e ∧ e.fdUp = true) ∧
    (∃ dt, ∃ s e : State, ∃ skew : Int, s.elapse dt = e ∧ e.boot.up = true ∧ 500 < skew.natAbs) ∧
    (∃ dt, ∃ s e : State, ∃ skew : Int, s.elapse dt = e ∧ e.boot.up = true ∧ skew.natAbs < 50) ∧
    (∃ dt, ∃ s e : State, ∃ m, s.elapse dt = e ∧ e.boot.up = true ∧ e.mayRead m Reg.HB_TC_NOW_LO = true) := by
  refine ⟨?_, ?_, ?_, ?_, ?_, ?_, ?_⟩
  · exact ⟨0, { base with regs := [(Reg.HB_TC_CTL, 2), (Reg.HB_TC_SET_LO, 1)] }, _, .firmware, rfl, by decide +kernel⟩
  · exact ⟨0, { base with regs := [(Reg.HB_TC_SET_LO, 1)], tc := { stepPending := some .set }, boot := { shaken := true } }, _, rfl,
      by decide +kernel⟩
  · exact ⟨0, { base with tc := { fdStep := some (5, 0) } }, _, 5, 0, rfl, by decide +kernel⟩
  · exact ⟨0, base, _, rfl, by decide +kernel⟩
  · exact ⟨0, base, _, -501, rfl, by decide +kernel⟩
  · exact ⟨0, base, _, 49, rfl, by decide +kernel⟩
  · exact ⟨0, base, _, .host 0, rfl, by decide +kernel⟩

/-- Every clause of LightOrderAdvances has a state and operands that meet its premises. -/
theorem witness_LightOrderAdvances :
    (∃ dt, ∃ s e : State, ∃ d, s.elapse dt = e ∧ e.boot.up = true ∧ (e.port d).step = .laserWindow ∧ (e.port d).tecEn = true ∧
      ((e.port d).temp - e.tecSet d).natAbs ≤ fld (e.tecLimits d) 10 6 * 1000) ∧
    (∃ dt, ∃ s e : State, ∃ d, s.elapse dt = e ∧ e.boot.up = true ∧ e.portEnabled d = true ∧ (e.port d).step = .laserOk) ∧
    (∃ dt, ∃ s e : State, ∃ d, s.elapse dt = e ∧ e.boot.up = true ∧ (e.port d).step = .laserOk ∧ fld (e.reg (Reg.AQ_OFE_TIMING d)) 0
      10 * 1000000 ≤ e.now - (e.port d).laserEnAt) ∧
    (∃ dt, ∃ s e : State, ∃ d, s.elapse dt = e ∧ e.boot.up = true ∧ (e.port d).step = .ampDelay ∧ (e.port d).closed = true ∧ (e.port
      d).laserEn = true ∧ 10000000 ≤ e.now - (e.port d).laserOkAt) ∧
    (∃ dt, ∃ s e : State, ∃ d, s.elapse dt = e ∧ e.boot.up = true ∧ (e.port d).step = .ampCheck ∧ 100000000 ≤ e.now - (e.port
      d).ampEnAt) ∧
    (∃ dt, ∃ s e : State, ∃ d t0, s.elapse dt = e ∧ (e.port d).offFrom = some t0 ∧ 10000000 ≤ e.now - t0) ∧
    (∃ dt, ∃ s e : State, ∃ d, s.elapse dt = e ∧ e.boot.up = true ∧ e.portEnabled d = true ∧ (e.port d).light ≠ .off ∧ (e.probe
      d).firing = true) ∧
    (∃ dt, ∃ s e : State, ∃ d, s.elapse dt = e ∧ e.boot.up = true ∧ e.portEnabled d = true ∧ (e.port d).light = .shutdown ∧ (e.port
      d).lockout = .none ∧ e.lightReq d = true ∧ e.thermalReady d = true ∧ (e.port d).tecEn = true ∧ (e.port d).retrying = false ∧
      (e.port d).intlkLow + 1000000000 ≤ e.now) ∧
    (∃ dt, ∃ s e : State, ∃ d, s.elapse dt = e ∧ e.boot.up = true ∧ e.portEnabled d = true ∧ (e.port d).ampEn = true ∧ 50000000 ≤
      e.now - (e.port d).ampEnAt ∧ (e.port d).step = .probe ∧ 0 < e.retryMax d) ∧
    (∃ dt, ∃ s e : State, ∃ d, s.elapse dt = e ∧ e.boot.up = true ∧ (e.port d).retrying = true ∧ (e.port d).light = .dark ∧ (e.port
      d).step = .idle ∧ (e.port d).closed = true ∧ (e.port d).laserEn = true ∧ (e.port d).lockout = .none ∧ fld (e.reg
      (Reg.AQ_OFE_TIMING d)) 10 6 * 1000000000 ≤ e.now - (e.port d).retryFrom) ∧
    (∃ dt, ∃ s e : State, ∃ d, s.elapse dt = e ∧ e.boot.up = true ∧ e.portEnabled d = true ∧ (e.port d).laserEn = true) ∧
    (∃ dt, ∃ s e : State, ∃ d, s.elapse dt = e ∧ e.boot.up = true ∧ e.portEnabled d = true) := by
  refine ⟨?_, ?_, ?_, ?_, ?_, ?_, ?_, ?_, ?_, ?_, ?_, ?_⟩
  · exact ⟨0, base.setPort 3 { step := .laserWindow, tecEn := true }, _, 3, rfl, by decide +kernel⟩
  · exact ⟨0, ready.setPort 0 { step := .laserOk }, _, 0, rfl, by decide +kernel⟩
  · exact ⟨0, { (base.setPort 0 { step := .laserOk }).setReg (Reg.AQ_OFE_TIMING 0) 10 with now := 10000000 }, _, 0, rfl,
      by decide +kernel⟩
  · exact ⟨0, { base.setPort 0 { step := .ampDelay, intlkN := true, laserEn := true } with now := 10000000 }, _, 0, rfl,
      by decide +kernel⟩
  · exact ⟨0, { base.setPort 0 { step := .ampCheck } with now := 100000000 }, _, 0, rfl, by decide +kernel⟩
  · exact ⟨0, { base.setPort 0 { offFrom := some 0 } with now := 10000000 }, _, 0, 0, rfl, by decide +kernel⟩
  · exact ⟨0, (base.setProbe 0 { live := { en := true }, firing := true }).setPort 0 { light := .probing }, _, 0, rfl,
      by decide +kernel⟩
  · exact ⟨0, { (ready.setPort 0 { light := .shutdown, tecEn := true }).setReg (Reg.AQ_OFE_CTL 0) 1 with now := 1000000000 }, _, 0,
      rfl, by decide +kernel⟩
  · exact ⟨0, { (ready.setPort 0 { ampEn := true, step := .probe }).setReg (Reg.AQ_OFE_TIMING 0) 0x10000 with now := 50000000 }, _,
      0, rfl, by decide +kernel⟩
  · exact ⟨0,
      { (base.setPort 0 { retrying := true, light := .dark, intlkN := true, laserEn := true }).setReg (Reg.AQ_OFE_TIMING 0) 0x400 with now := 1000000000 },
      _, 0, rfl, by decide +kernel⟩
  · exact ⟨0, ready.setPort 0 { laserEn := true }, _, 0, rfl, by decide +kernel⟩
  · exact ⟨0, ready, _, 0, rfl, by decide +kernel⟩

/-- Every clause of ThermalLoopAndSettings has a state and operands that meet its premises. -/
theorem witness_ThermalLoopAndSettings :
    (∃ dt, ∃ s e : State, ∃ d, s.elapse dt = e ∧ e.boot.up = true ∧ e.portEnabled d = true) ∧
    (∃ dt, ∃ s e : State, ∃ d, s.elapse dt = e ∧ e.boot.up = true ∧ (e.port d).tecEn = true) ∧
    (∃ dt, ∃ s e : State, ∃ d t0, s.elapse dt = e ∧ e.boot.up = true ∧ (e.port d).tecEn = true ∧ (e.port d).imonSince = some t0 ∧
      100000000 ≤ e.now - t0) ∧
    (∃ dt, ∃ s e : State, ∃ d t0, s.elapse dt = e ∧ e.boot.up = true ∧ (e.port d).light = .probing ∧ (e.port d).outProbeSince = some
      t0 ∧ 1000000000 ≤ e.now - t0) ∧
    (∃ dt, ∃ s e : State, ∃ m d, s.elapse dt = e ∧ e.boot.up = true ∧ d < 4 ∧ e.mayWrite m (Reg.AQ_OFE_CTL d) = true ∧ bitOf (e.reg
      (Reg.AQ_OFE_CTL d)) 0 = false ∧ e.boot.pwrFail = none ∧ e.portEnabled d = true ∧ e.thermalReady d = true ∧ (e.port d).lockout
      = .none ∧ (e.port d).light = .off ∧ (e.port d).closed = true) ∧
    (∃ dt, ∃ s e : State, ∃ m d, s.elapse dt = e ∧ e.boot.up = true ∧ d < 4 ∧ e.mayWrite m (Reg.AQ_OFE_CTL d) = true ∧ bitOf (e.reg
      (Reg.AQ_OFE_CTL d)) 0 = true ∧ e.dev.quiet = true) ∧
    (∃ dt, ∃ s e : State, ∃ m d, s.elapse dt = e ∧ e.boot.up = true ∧ d < 4 ∧ e.mayWrite m (Reg.AQ_OFE_CTL d) = true ∧ bitOf (e.reg
      (Reg.AQ_OFE_CTL d)) 0 = true ∧ e.boot.pwrFail = none ∧ e.portEnabled d = true ∧ e.thermalReady d = true ∧ (e.port d).lockout =
      .thermal ∧ (e.port d).closed = true) ∧
    (∃ dt, ∃ s e : State, ∃ m d, ∃ v : Word, s.elapse dt = e ∧ e.boot.up = true ∧ d < 4 ∧ e.mayWrite m (Reg.AQ_TEC_SETPOINT d) =
      true ∧ e.boot.pwrFail = none ∧ 0 < (e.wpRec (16 + 2 * d)).tokens ∧ 50000 ≤ sext v.toNat 32 ∧ sext v.toNat 32 ≤ 500000) ∧
    (∃ dt, ∃ s e : State, ∃ m d, ∃ v : Word, s.elapse dt = e ∧ e.boot.up = true ∧ d < 4 ∧ e.mayWrite m (Reg.AQ_TEC_LIMITS d) = true
      ∧ e.boot.pwrFail = none ∧ 0 < (e.wpRec (17 + 2 * d)).tokens ∧ 64 ≤ fld v 0 10 ∧ 1 ≤ fld v 10 6 ∧ 1 ≤ fld v 16 8 ∧ fld v 10 6 ≤
      fld v 24 8) := by
  refine ⟨?_, ?_, ?_, ?_, ?_, ?_, ?_, ?_, ?_⟩
  · exact ⟨0, ready, _, 0, rfl, by decide +kernel⟩
  · exact ⟨0, base.setPort 0 { tecEn := true }, _, 0, rfl, by decide +kernel⟩
  · exact ⟨0, { base.setPort 0 { tecEn := true, imonSince := some 0 } with now := 100000000 }, _, 0, 0, rfl, by decide +kernel⟩
  · exact ⟨0, { base.setPort 0 { light := .probing, outProbeSince := some 0 } with now := 1000000000 }, _, 0, 0, rfl,
      by decide +kernel⟩
  · exact ⟨0, ready.setPort 0 { intlkN := true }, _, .host 0, 0, rfl, by decide +kernel⟩
  · exact ⟨0, base.setReg (Reg.AQ_OFE_CTL 3) 1, _, .firmware, 3, rfl, by decide +kernel⟩
  · exact ⟨0, (ready.setPort 0 { intlkN := true, lockout := .thermal }).setReg (Reg.AQ_OFE_CTL 0) 1, _, .host 1, 0, rfl,
      by decide +kernel⟩
  · exact ⟨0, base, _, .host 0, 0, 500000, rfl, by decide +kernel⟩
  · exact ⟨0, base, _, .host 0, 3, 0x01010440, rfl, by decide +kernel⟩

/-- Every clause of PulsePeriods has a state and operands that meet its premises. -/
theorem witness_PulsePeriods :
    (∃ dt, ∃ s e : State, ∃ d, s.elapse dt = e ∧ e.boot.up = true ∧ (e.probe d).live.en = true ∧ e.fifths < (e.probe d).startAt + 4
      * (e.probe d).live.np) ∧
    (∃ dt, ∃ s e : State, ∃ d, s.elapse dt = e ∧ e.boot.up = true ∧ (e.probe d).live.en = true ∧ (e.probe d).pend = none ∧ (e.probe
      d).startAt + 4 * (e.probe d).live.np ≤ e.fifths) ∧
    (∃ dt, ∃ s e : State, ∃ d, ∃ p : ProbeSet, s.elapse dt = e ∧ e.boot.up = true ∧ (e.probe d).live.en = true ∧ (e.probe d).pend =
      some p ∧ (e.probe d).changeover = false ∧ (e.probe d).startAt + 4 * (e.probe d).live.np ≤ e.fifths) ∧
    (∃ dt, ∃ s e : State, ∃ d, ∃ p : ProbeSet, s.elapse dt = e ∧ e.boot.up = true ∧ (e.probe d).live.en = true ∧ (e.probe d).pend =
      some p ∧ (e.probe d).changeover = true ∧ (e.probe d).startAt + 4 * (e.probe d).live.np ≤ e.fifths ∧ p.en = true) ∧
    (∃ dt, ∃ s e : State, ∃ d k, s.elapse dt = e ∧ e.boot.up = true ∧ (e.probe d).firing = true ∧ k < (e.probe d).live.tones ∧
      (e.probe d).next ≤ k ∧ (e.probe d).startAt + 4 * (k * (e.probe d).live.np / (e.probe d).live.tones) ≤ e.fifths) ∧
    (∃ dt, ∃ s e : State, ∃ d, s.elapse dt = e ∧ e.boot.up = true ∧ (e.port d).step = .probe ∧ (e.port d).rxOk = true ∧ (e.port
      d).closed = true ∧ ((e.port d).temp - e.tecSet d).natAbs ≤ fld (e.tecLimits d) 16 8 * 10) ∧
    (∃ dt, ∃ s e : State, ∃ m d, s.elapse dt = e ∧ e.boot.up = true ∧ d < 4 ∧ e.mayWrite m (Reg.AQ_PSY_APPLY d) = true ∧ (e.probe
      d).pend = none ∧ e.dev.quiet = true ∧ (e.shadowSet d).check = 0) ∧
    (∃ dt, ∃ s e : State, ∃ m d, s.elapse dt = e ∧ e.boot.up = true ∧ d < 4 ∧ e.mayWrite m (Reg.AQ_PSY_APPLY d) = true ∧ (e.probe
      d).pend = none ∧ e.dev.quiet = false) ∧
    (∃ dt, ∃ s e : State, ∃ m d, s.elapse dt = e ∧ e.boot.up = true ∧ d < 4 ∧ e.mayRead m (Reg.AQ_PERIOD_STAMP_LO d) = true) := by
  refine ⟨?_, ?_, ?_, ?_, ?_, ?_, ?_, ?_, ?_⟩
  · exact ⟨0, spanned, _, 0, rfl, by decide +kernel⟩
  · exact ⟨0, { spanned with now := 100000 }, _, 0, rfl, by decide +kernel⟩
  · exact ⟨0, { base.setProbe 0 { live := { en := true, np := 125000 }, pend := some { en := true } } with now := 100000 }, _, 0,
      { en := true }, rfl, by decide +kernel⟩
  · exact ⟨0,
      { base.setProbe 0 { live := { en := true, np := 125000 }, pend := some { en := true }, changeover := true } with now := 100000 },
      _, 0, { en := true }, rfl, by decide +kernel⟩
  · exact ⟨0, base.setProbe 0 { firing := true, live := { en := true, np := 125000, nc := 125 } }, _, 0, 0, rfl, by decide +kernel⟩
  · exact ⟨0, base.setPort 0 { step := .probe, rxOk := true, intlkN := true }, _, 0, rfl, by decide +kernel⟩
  · exact ⟨0,
      { base with regs := [(Reg.AQ_TONE_PLAN 0, 4), (Reg.AQ_PERIOD 0, 1500000), (Reg.AQ_TAIL 0, 12500), (Reg.AQ_CHIRP 0, 125), (Reg.AQ_FIBRE_LEN 0, 5000), (Reg.AQ_FIBRE_NG 0, 14680)] },
      _, .host 0, 0, rfl, by decide +kernel⟩
  · exact ⟨0, { base with dev := .watch }, _, .host 0, 3, rfl, by decide +kernel⟩
  · exact ⟨0, base, _, .host 0, 3, rfl, by decide +kernel⟩

/-- Every clause of CalibrationRounds has a state and operands that meet its premises. -/
theorem witness_CalibrationRounds :
    (∃ dt, ∃ s e : State, ∃ d t0, s.elapse dt = e ∧ e.boot.up = true ∧ bitOf (e.reg (Reg.AQ_CAL_CTL d)) 0 = true ∧ (e.calPort
      d).started = some t0 ∧ fld (e.reg (Reg.AQ_CAL_CTL d)) 1 12 * 1000000000 ≤ e.now - t0 ∧ (e.calPort d).phase = .none ∧
      (e.calPort d).ramp = none ∧ (e.port d).light = .probing ∧ (e.port d).tecLock = true ∧ (e.demod d).acquiring = none ∧ (e.probe
      d).pend = none) ∧
    (∃ dt, ∃ s e : State, ∃ d, s.elapse dt = e ∧ e.boot.up = true ∧ (e.calPort d).phase = .a ∧ fld (e.reg (Reg.AQ_CAL_CTL d)) 13 13
      ≤ (e.calPort d).count ∧ bitOf (e.reg (Reg.AQ_OFE_CTL d)) 2 = true) ∧
    (∃ dt, ∃ s e : State, ∃ d, ∃ r : RoundResult, s.elapse dt = e ∧ e.boot.up = true ∧ (e.calPort d).phase = .b ∧ fld (e.reg
      (Reg.AQ_CAL_CTL d)) 13 13 ≤ (e.calPort d).count ∧ (e.acceptRound d r true).discarded = 0) ∧
    (∃ dt, ∃ s e : State, ∃ d, s.elapse dt = e ∧ e.boot.up = true ∧ (e.calPort d).phase = .a ∧ fld (e.reg (Reg.AQ_CAL_CTL d)) 13 13
      < 4 * ((e.calPort d).outTail + (e.calPort d).outOther) ∧ (e.calPort d).outOther < (e.calPort d).outTail) ∧
    (∃ dt, ∃ s e : State, ∃ d, ∃ r : Ramp, s.elapse dt = e ∧ e.boot.up = true ∧ (e.calPort d).ramp = some r ∧ 64 ≤ r.done ∧
      e.boot.pwrFail = none ∧ e.bankWriting = none) ∧
    (∃ dt, ∃ s e : State, ∃ b, ∃ set : CalSet, s.elapse dt = e ∧ e.boot.up = true ∧ e.bankWriting = some (b, set) ∧ e.bankWaiting =
      none ∧ e.calSet.isSome = true) ∧
    (∃ dt, ∃ s e : State, ∃ k v rest, s.elapse dt = e ∧ e.boot.up = true ∧ e.trimReports = (k, v) :: rest) ∧
    (∃ dt, ∃ s e : State, ∃ t0, s.elapse dt = e ∧ e.boot.up = true ∧ e.trimSince = some t0 ∧ 60000000000 ≤ e.now - t0 ∧
      e.boot.pwrFail = none ∧ e.bankWriting.isSome = true) ∧
    (∃ dt, ∃ s e : State, ∃ m d off, ∃ v : Word, s.elapse dt = e ∧ e.boot.up = true ∧ d < 4 ∧ off ∈ calParams ∧ e.mayWrite m
      (Reg.AQ_CAL_CTL d + off) = true ∧ e.dev.quiet = true ∧ calParamOk off v = true ∧ (off = 0x40 → v.toNat < 131072) ∧ (off = 0x68
      → v.toNat < 1073741824)) := by
  refine ⟨?_, ?_, ?_, ?_, ?_, ?_, ?_, ?_, ?_⟩
  · exact ⟨0,
      { (base.setReg (Reg.AQ_CAL_CTL 0) 1).setPort 0 { light := .probing, tecLock := true } with cal := [(0, { started := some 0 })] },
      _, 0, 0, rfl, by decide +kernel⟩
  · exact ⟨0, { base.setReg (Reg.AQ_OFE_CTL 0) 4 with cal := [(0, { phase := .a, count := 8191 })] }, _, 0, rfl, by decide +kernel⟩
  · exact ⟨0, { base with cal := [(0, { phase := .b, count := 8191 })] }, _, 0, ⟨[], [], [], [], 0, 0, -2200, []⟩, rfl,
      by decide +kernel⟩
  · exact ⟨0, { base.setReg (Reg.AQ_CAL_CTL 0) 1 with cal := [(0, { phase := .a, outTail := 1 })] }, _, 0, rfl, by decide +kernel⟩
  · exact ⟨0, { base with cal := [(0, { ramp := some ⟨{}, {}, 64⟩ })] }, _, 0, ⟨{}, {}, 64⟩, rfl, by decide +kernel⟩
  · exact ⟨0, { ready with bankWriting := some (false, {}) }, _, false, {}, rfl, by decide +kernel⟩
  · exact ⟨0, { base with trimReports := [(0, 1)] }, _, 0, 1, [], rfl, by decide +kernel⟩
  · exact ⟨0, { base with trimSince := some 0, now := 60000000000, bankWriting := some (false, {}) }, _, 0, rfl, by decide +kernel⟩
  · exact ⟨0, base, _, .host 0, 0, 0x40, 1000, rfl, by decide +kernel⟩

/-- Every clause of DemodulationProceeds has a state and operands that meet its premises. -/
theorem witness_DemodulationProceeds :
    (∃ dt, ∃ s e : State, ∃ d lane home, ∃ sl : Slice, ∃ tag : PeriodTag, s.elapse dt = e ∧ e.boot.up = true ∧ e.blkUp d (laneBlock
      lane) = true ∧ (e.probe d).live.en = true ∧ sl.tone < (e.probe d).live.tones ∧ e.periodTag d sl.adc.period = some tag ∧
      (e.lane d lane).test = none ∧ (e.lane d lane).faulty = false ∧ e.servedBy d lane = some home ∧ (sl.first, sl.count) =
      e.sliceRange d home ∧ sliceFault sl = none ∧ sl.eccUe = false ∧ sl.sentinel = 0) ∧
    (∃ dt, ∃ s e : State, ∃ d, ∃ sl : Slice, s.elapse dt = e ∧ e.boot.up = true ∧ e.periodTag d sl.adc.period = none) ∧
    (∃ dt, ∃ s e : State, s.elapse dt = e ∧ e.boot.up = true) ∧
    (∃ dt, ∃ s e : State, ∃ d lane upper, ∃ r : EdgeRec, ∃ rest, s.elapse dt = e ∧ e.boot.up = true ∧ tget (e.die d).edgeOut [] (2 *
      lane + b2n upper) = r :: rest) ∧
    (∃ dt, ∃ s e : State, ∃ d k, ∃ adc : AdcBlock, ∃ tag : PeriodTag, s.elapse dt = e ∧ e.boot.up = true ∧ e.dieUp d = true ∧
      (e.probe d).live.en = true ∧ k < (e.probe d).live.tones ∧ e.periodTag d adc.period = some tag ∧ tag.start + 4 * ((e.probe
      d).live.offset k + (e.probe d).live.np) ≤ e.fifths ∧ (tget (e.demod d).noise {} k).period ≠ some tag.count ∧ (e.demod d).guard
      = none) ∧
    (∃ dt, ∃ s e : State, ∃ d k, ∃ adc : AdcBlock, ∃ tag : PeriodTag, s.elapse dt = e ∧ e.boot.up = true ∧ e.periodTag d adc.period
      = some tag ∧ (tget (e.demod d).noise {} k).period = some tag.count) := by
  refine ⟨?_, ?_, ?_, ?_, ?_, ?_⟩
  · exact ⟨0, spanned, _, 0, 0, 0,
      { tone := 0, first := 100, count := 1, adc := { period := 0, start := 0, samples := [] }, sentinel := 0, overrun := false, parity := false, memRange := false, ecc := 0, eccUe := false },
      {}, rfl,
      ⟨by decide, by decide +kernel, by decide, by decide +kernel, by rfl, by decide, by decide, by decide +kernel, by decide +kernel, by decide, by decide, by decide⟩⟩
  · exact ⟨0, spanned, _, 0,
      { tone := 0, first := 100, count := 1, adc := { period := 9, start := 0, samples := [] }, sentinel := 0, overrun := false, parity := false, memRange := false, ecc := 0, eccUe := false },
      rfl, by decide +kernel⟩
  · exact ⟨0, spanned, _, rfl, by decide +kernel⟩
  · exact ⟨0, base.setDie 0 { edgeOut := [(1, [⟨0, []⟩])] }, _, 0, 0, true, ⟨0, []⟩, [], rfl, by decide +kernel⟩
  · exact ⟨0, { spanned with now := 200000 }, _, 0, 0, { period := 0, start := 0, samples := [] }, {}, rfl, by decide +kernel⟩
  · exact ⟨0, spanned.setDemod 0 { noise := [(0, { period := some 0 })] }, _, 0, 0, { period := 0, start := 0, samples := [] }, {},
      rfl, by decide +kernel⟩

/-- Every clause of ReferencesAreAcquired has a state and operands that meet its premises. -/
theorem witness_ReferencesAreAcquired :
    (∃ dt, ∃ s e : State, ∃ m d, s.elapse dt = e ∧ e.boot.up = true ∧ d < 4 ∧ e.mayWrite m (Reg.AQ_DMD_REF_CTL d) = true ∧
      e.dev.quiet = true ∧ 1 ≤ fld (e.peek m (Reg.AQ_DMD_REF_CTL d)) 8 8 ∧ e.portEnabled d = true ∧ (e.demod d).acquiring = none) ∧
    (∃ dt, ∃ s e : State, ∃ d k j, s.elapse dt = e ∧ e.boot.up = true ∧ (e.demod d).acquiring.isSome = true ∧ 0 < e.acqN d ∧ e.acqN
      d ≤ (tget (e.demod d).acq {} (refKey j k 0)).n ∧ (tget (e.demod d).acq {} (refKey j k 1)).n < e.acqN d ∧ (fld (e.reg
      (Reg.AQ_CAL_ACQ d)) 13 8 : Rat) / 256 * (tget (e.demod d).acq {} (refKey j k 0)).mag ≤ (tget (e.demod d).acq {} (refKey j k
      0)).sum.abs) ∧
    (∃ dt, ∃ s e : State, ∃ d, s.elapse dt = e ∧ e.boot.up = true ∧ (e.demod d).acquiring.isSome = true ∧ (∀ b, b < 32 → (e.blk d
      b).acquiring = none) ∧ (∀ i, i ∈ e.workingSpans d → e.spanAcquired d i = true)) ∧
    (∃ dt, ∃ s e : State, ∃ d t0, s.elapse dt = e ∧ e.boot.up = true ∧ (e.demod d).acquiring = some t0 ∧ 10000000000 ≤ e.now - t0 ∧
      (∀ b, b < 32 → (e.blk d b).acquiring = none)) ∧
    (∃ dt, ∃ s e : State, ∃ m d, s.elapse dt = e ∧ e.boot.up = true ∧ d < 4 ∧ e.mayRead m (Reg.AQ_DMD_PROBE_LO d) = true) ∧
    (∃ dt, ∃ s e : State, ∃ m d, s.elapse dt = e ∧ e.boot.up = true ∧ d < 4 ∧ e.mayRead m (Reg.AQ_DMD_EPOCH_LO d) = true) := by
  refine ⟨?_, ?_, ?_, ?_, ?_, ?_⟩
  · exact ⟨0, spanned.setReg (Reg.AQ_DMD_REF_CTL 0) 0x1001, _, .host 0, 0, rfl, by decide +kernel⟩
  · exact ⟨0, { base.setReg (Reg.AQ_CAL_ACQ 0) 64 with dmd := [(0, { acquiring := some 0, acq := [(12800, { n := 64 })] })] }, _, 0,
      0, 100, rfl, by decide +kernel⟩
  · exact ⟨0, { base with dmd := [(0, { acquiring := some 0 })] }, _, 0, rfl, by decide +kernel⟩
  · exact ⟨0, { base with dmd := [(0, { acquiring := some 0 })], now := 10000000000 }, _, 0, 0, rfl, by decide +kernel⟩
  · exact ⟨0, base, _, .host 0, 3, rfl, by decide +kernel⟩
  · exact ⟨0, base, _, .host 0, 3, rfl, by decide +kernel⟩

/-- Every clause of UnitsFail has a state and operands that meet its premises. -/
theorem witness_UnitsFail :
    (∃ dt, ∃ s e : State, ∃ d b, ∃ x : Takeover, s.elapse dt = e ∧ e.boot.up = true ∧ e.blkUp d b = true ∧ (e.blk d b).loading.find?
      (·.loaded.isNone) = some x) ∧
    (∃ dt, ∃ s e : State, ∃ d b, s.elapse dt = e ∧ e.boot.up = true ∧ (e.blk d b).st ≠ .faulty ∧ e.dieUp d = true ∧ (e.die d).busy =
      none) ∧
    (∃ dt, ∃ s e : State, ∃ d b, s.elapse dt = e ∧ e.boot.up = true ∧ e.blkUp d b = true) ∧
    (∃ dt, ∃ s e : State, s.elapse dt = e ∧ e.boot.up = true) ∧
    (∃ dt, ∃ s e : State, ∃ d b, s.elapse dt = e ∧ e.boot.up = true ∧ e.blkUp d b = true) ∧
    (∃ dt, ∃ s e : State, ∃ d b, s.elapse dt = e ∧ e.boot.up = true ∧ (e.blk d b).st ≠ .faulty ∧ e.dieUp d = true ∧ (e.die d).busy =
      none) ∧
    (∃ dt, ∃ s e : State, ∃ d b, s.elapse dt = e ∧ e.boot.up = true ∧ e.blkUp d b = true) ∧
    (∃ dt, ∃ s e : State, ∃ d b, s.elapse dt = e ∧ e.boot.up = true ∧ e.blkUp d b = true ∧ 20000 ≤ e.now - (e.blk d b).floorAt) ∧
    (∃ dt, ∃ s e : State, ∃ d b, s.elapse dt = e ∧ e.boot.up = true ∧ (e.blk d b).st = .faulty) ∧
    (∃ dt, ∃ s e : State, ∃ d q, s.elapse dt = e ∧ e.boot.up = true ∧ ((e.die d).qtr q).st ≠ .faulty ∧ e.dieUp d = true) ∧
    (∃ dt, ∃ s e : State, ∃ d q, s.elapse dt = e ∧ e.boot.up = true ∧ ((e.die d).qtr q).st ≠ .faulty ∧ e.dieUp d = true) := by
  refine ⟨?_, ?_, ?_, ?_, ?_, ?_, ?_, ?_, ?_, ?_, ?_⟩
  · exact ⟨0, base.setDie 0 { blks := [(0, { loading := [{ home := 0, spare := 8, failed := 0 }] })] }, _, 0, 0,
      { home := 0, spare := 8, failed := 0 }, rfl, by decide +kernel⟩
  · exact ⟨0, base, _, 0, 31, rfl, by decide +kernel⟩
  · exact ⟨0, base, _, 0, 0, rfl, by decide +kernel⟩
  · exact ⟨0, base, _, rfl, by decide +kernel⟩
  · exact ⟨0, base, _, 0, 0, rfl, by decide +kernel⟩
  · exact ⟨0, base, _, 0, 0, rfl, by decide +kernel⟩
  · exact ⟨0, base, _, 0, 0, rfl, by decide +kernel⟩
  · exact ⟨0, { base with now := 20000 }, _, 0, 0, rfl, by decide +kernel⟩
  · exact ⟨0, base.setDie 0 { blks := [(0, { st := .faulty })] }, _, 0, 0, rfl, by decide +kernel⟩
  · exact ⟨0, base, _, 0, 7, rfl, by decide +kernel⟩
  · exact ⟨0, base, _, 0, 0, rfl, by decide +kernel⟩

/-- Every clause of UnitsReturn has a state and operands that meet its premises. -/
theorem witness_UnitsReturn :
    (∃ dt, ∃ s e : State, ∃ m d i, s.elapse dt = e ∧ e.boot.up = true ∧ d < 4 ∧ i < 288 ∧ e.mayWrite m (Reg.AQ_LBQ_CMD d) = true ∧
      (e.die d).busy = none ∧ (e.lane d i).faulty = true ∧ e.blkUp d (laneBlock i) = true) ∧
    (∃ dt, ∃ s e : State, ∃ d i away, s.elapse dt = e ∧ e.boot.up = true ∧ (e.lane d i).test = some (0, true) ∧ (e.die d).busy =
      some (.lane i) ∧ (e.die d).kept = false ∧ ((blockLanes (laneBlock i)).find? fun k => e.spanCount d k != 0 && (e.lane d
      k).unavail) = away) ∧
    (∃ dt, ∃ s e : State, ∃ d i n, s.elapse dt = e ∧ e.boot.up = true ∧ (e.lane d i).test = some (n, false) ∧ (e.die d).busy = some
      (.lane i) ∧ (e.die d).kept = false) ∧
    (∃ dt, ∃ s e : State, ∃ m d b, s.elapse dt = e ∧ e.boot.up = true ∧ d < 4 ∧ b < 32 ∧ e.mayWrite m (Reg.AQ_LBQ_CMD d) = true ∧
      e.dev = .maintenance ∧ (e.die d).busy = none ∧ (e.blk d b).st = .faulty ∧ ((e.die d).qtr (blockQuarter b)).st ≠ .faulty) ∧
    (∃ dt, ∃ s e : State, ∃ m d q, s.elapse dt = e ∧ e.boot.up = true ∧ d < 4 ∧ q < 8 ∧ e.mayWrite m (Reg.AQ_LBQ_CMD d) = true ∧
      e.dev = .maintenance ∧ (e.die d).busy = none ∧ ((e.die d).qtr q).st = .faulty ∧ (∃ i, i < 4 ∧ (e.blk d (4 * q + i)).st =
      .faulty ∧ (e.blk d (4 * q + i)).cause = 6)) ∧
    (∃ dt, ∃ s e : State, ∃ d b, s.elapse dt = e ∧ e.boot.up = true ∧ (e.blk d b).st = .returning ∧ (e.die d).busy = some (.block b)
      ∧ (e.die d).kept = false) ∧
    (∃ dt, ∃ s e : State, ∃ d b, s.elapse dt = e ∧ e.boot.up = true ∧ (e.blk d b).st = .returning ∧ (e.die d).busy = some (.block b)
      ∧ (e.die d).kept = false) ∧
    (∃ dt, ∃ s e : State, ∃ m d b, s.elapse dt = e ∧ e.boot.up = true ∧ d < 4 ∧ b < 32 ∧ e.mayWrite m (Reg.AQ_LBQ_CMD d) = true ∧
      e.dev = .maintenance ∧ (e.die d).busy = none ∧ (e.blk d b).st ≠ .faulty ∧ e.dieUp d = true) ∧
    (∃ dt, ∃ s e : State, ∃ m d i, s.elapse dt = e ∧ e.boot.up = true ∧ d < 4 ∧ i < 288 ∧ e.mayWrite m (Reg.AQ_LBQ_CMD d) = true ∧
      e.dev = .maintenance ∧ (e.die d).busy = none ∧ (e.lane d i).faulty = false ∧ e.dieUp d = true) ∧
    (∃ dt, ∃ s e : State, ∃ m d q, s.elapse dt = e ∧ e.boot.up = true ∧ d < 4 ∧ q < 8 ∧ e.mayWrite m (Reg.AQ_LBQ_CMD d) = true ∧
      e.dev = .maintenance ∧ (e.die d).busy = none ∧ ((e.die d).qtr q).st ≠ .faulty ∧ e.dieUp d = true) := by
  refine ⟨?_, ?_, ?_, ?_, ?_, ?_, ?_, ?_, ?_, ?_⟩
  · exact ⟨0, base.setDie 3 { lanes := [(287, { faulty := true })] }, _, .host 0, 3, 287, rfl, by decide +kernel⟩
  · exact ⟨0,
      base.setDie 0 { busy := some (.lane 0), lanes := [(0, { faulty := true, test := some (0, true) })], blks := [(0, { spare := none })] },
      _, 0, 0, none, rfl, by decide +kernel⟩
  · exact ⟨0, base.setDie 0 { busy := some (.lane 0), lanes := [(0, { faulty := true, test := some (3, false) })] }, _, 0, 0, 3,
      rfl, by decide +kernel⟩
  · exact ⟨0, { base.setDie 0 { blks := [(31, { st := .faulty })] } with dev := .maintenance }, _, .host 0, 0, 31, rfl,
      by decide +kernel⟩
  · exact ⟨0,
      { base.setDie 0 { blks := [(28, { st := .faulty, cause := 6 })], qtrs := [(7, { st := .faulty })] } with dev := .maintenance },
      _, .host 0, 0, 7, rfl,
      ⟨rfl, by decide, by decide, by decide +kernel, by decide, by decide, by decide, 0, by decide, by decide, by decide⟩⟩
  · exact ⟨0, spanned.setDie 0 { busy := some (.block 0), blks := [(0, { st := .returning })] }, _, 0, 0, rfl, by decide +kernel⟩
  · exact ⟨0, spanned.setDie 0 { busy := some (.block 0), blks := [(0, { st := .returning })] }, _, 0, 0, rfl, by decide +kernel⟩
  · exact ⟨0, { base with dev := .maintenance }, _, .host 0, 0, 0, rfl, by decide +kernel⟩
  · exact ⟨0, { spanned with dev := .maintenance }, _, .host 0, 0, 0, rfl, by decide +kernel⟩
  · exact ⟨0, { base with dev := .maintenance }, _, .host 0, 0, 7, rfl, by decide +kernel⟩

/-- Every clause of SensorsDecide has a state and operands that meet its premises. -/
theorem witness_SensorsDecide :
    (∃ dt, ∃ s e : State, ∃ d i n pts, s.elapse dt = e ∧ e.boot.up = true ∧ (e.sensor d i).due = none ∧ e.sensorOn d i = true ∧
      e.sampleNext (e.sensor d i) = n ∧ n * 500000 ≤ e.tc.now ∧ ((tget (tget e.dmd {} d).points {} (e.senJ d i)).recent.filter fun p
      => decide (((n * 500000 : Nat) : Rat) - 500000 < p.t) && decide (p.t ≤ ((n * 500000 : Nat) : Rat))) = pts ∧ pts.find? (·.brk)
      = none ∧ (e.sensor d i).hist ≠ []) ∧
    (∃ dt, ∃ s e : State, ∃ d i n, ∃ p : PointSample, s.elapse dt = e ∧ e.boot.up = true ∧ (e.sensor d i).due = none ∧ e.sensorOn d
      i = true ∧ e.sampleNext (e.sensor d i) = n ∧ n * 500000 ≤ e.tc.now ∧ ((tget (tget e.dmd {} d).points {} (e.senJ d
      i)).recent.filter fun p => decide (((n * 500000 : Nat) : Rat) - 500000 < p.t) && decide (p.t ≤ ((n * 500000 : Nat) :
      Rat))).find? (·.brk) = some p) ∧
    (∃ dt, ∃ s e : State, ∃ d i n level q, s.elapse dt = e ∧ e.boot.up = true ∧ (e.sensor d i).due = some (.halt n level q)) ∧
    (∃ dt, ∃ s e : State, ∃ d i n q, s.elapse dt = e ∧ e.boot.up = true ∧ (e.sensor d i).due = some (.standTimeout n q)) ∧
    (∃ dt, ∃ s e : State, ∃ d lane home, ∃ ev : HeldEvent, ∃ b, s.elapse dt = e ∧ e.boot.up = true ∧ e.servedBy d lane = some home ∧
      (e.lane d home).held = [ev] ∧ (e.lane d home).passed = 1 ∧ tfind e.mrg.silent d = none ∧ withCheck d home (eventBody e.tc.now
      (min 0xFFFFFFFF (e.tc.now - ev.time)) (e.lane d home).seq (e.senCp d ev.entry) (e.senSys d ev.entry) ev.kind (min 0xFFFF
      ev.speed) (e.senFibre d ev.entry) ev.tpl ev.qev ev.amp (288 * d + lane) ev.usable ev.limit) = b) ∧
    (∃ dt, ∃ s e : State, ∃ m d b, s.elapse dt = e ∧ e.boot.up = true ∧ d < 4 ∧ e.mayRead m (Reg.AQ_WSD_LAST d 0) = true ∧ (e.sensor
      d (fld (e.mreg m (Reg.AQ_WSD_SEL d)) 0 11)).last = b) := by
  refine ⟨?_, ?_, ?_, ?_, ?_, ?_⟩
  · exact ⟨0, { spanned with sensors := [(0, { hist := [⟨0, 0, false⟩] })] }, _, 0, 0, 0, [], rfl, by decide +kernel⟩
  · exact ⟨0, { spanned with dmd := [(0, { points := [(100, { recent := [⟨0, 0, 0, true⟩] })] })] }, _, 0, 0, 0, ⟨0, 0, 0, true⟩,
      rfl, by decide +kernel⟩
  · exact ⟨0, base.setSensor 0 0 { due := some (.halt 5 0 0) }, _, 0, 0, 5, 0, 0, rfl, by decide +kernel⟩
  · exact ⟨0, base.setSensor 0 0 { due := some (.standTimeout 5 0) }, _, 0, 0, 5, 0, rfl, by decide +kernel⟩
  · exact ⟨0, spanned.setDie 0 { lanes := [(0, { held := [{ entry := 0, kind := 1, time := 0 }], passed := 1 })] }, _, 0, 0, 0,
      { entry := 0, kind := 1, time := 0 }, _, rfl,
      ⟨by decide, by decide +kernel, by decide +kernel, by decide +kernel, by decide, rfl⟩⟩
  · exact ⟨0, base, _, .host 0, 0, [], rfl, by decide +kernel⟩

/-- Every clause of MergeReceivesAndReleases has a state and operands that meet its premises. -/
theorem witness_MergeReceivesAndReleases :
    (∃ dt, ∃ s e : State, ∃ d frame, ∃ c : BitVec 32, s.elapse dt = e ∧ d < 4 ∧ crc crc32c frame = BitVec.toNat c) ∧
    (∃ dt, ∃ s e : State, ∃ frame, ∃ c : BitVec 32, s.elapse dt = e ∧ crc crc32c frame ≠ BitVec.toNat c) ∧
    (∃ dt, ∃ s e : State, ∃ d, s.elapse dt = e ∧ e.boot.up = true ∧ e.dieUp d = true) ∧
    (∃ dt, ∃ s e : State, s.elapse dt = e ∧ e.fdUp = true) ∧
    (∃ dt, ∃ s e : State, s.elapse dt = e ∧ e.boot.up = true ∧ e.boot.shaken = true ∧ e.mrg.deadA = false) ∧
    (∃ dt, ∃ s e : State, ∃ src, s.elapse dt = e ∧ e.boot.up = true ∧ src < 4) ∧
    (∃ dt, ∃ s e : State, s.elapse dt = e ∧ e.boot.up = true ∧ tfind e.mrg.silent 4 = none ∧ e.mrg.fdSource = false ∧ e.mrg.deadA =
      false) ∧
    (∃ dt, ∃ s e : State, ∃ src b, s.elapse dt = e ∧ e.boot.up = true ∧ src ≤ 4 ∧ (src = 4 → e.mrg.fdSource = true ∧ e.mrg.deadA =
      false) ∧ tfind e.mrg.silent src = none ∧ e.saf.chan.cfg.eventOk src b = true) ∧
    (∃ dt, ∃ s e : State, ∃ w, s.elapse dt = e ∧ e.boot.up = true ∧ e.lowestMark = some w) ∧
    (∃ dt, ∃ s e : State, s.elapse dt = e ∧ e.boot.up = true ∧ 100000 ≤ e.now - e.mrg.sentAt ∧ e.mrg.deadA = false ∧ e.fdUp = true ∧
      e.boot.shaken = true ∧ e.mrg.isoA = []) := by
  refine ⟨?_, ?_, ?_, ?_, ?_, ?_, ?_, ?_, ?_, ?_⟩
  · exact ⟨0, base, _, 0, [], 0, rfl, by decide +kernel⟩
  · exact ⟨0, base, _, [], 1, rfl, by decide +kernel⟩
  · exact ⟨0, base, _, 0, rfl, by decide +kernel⟩
  · exact ⟨0, base, _, rfl, by decide +kernel⟩
  · exact ⟨0, { base with boot := { shaken := true } }, _, rfl, by decide +kernel⟩
  · exact ⟨0, base, _, 0, rfl, by decide +kernel⟩
  · exact ⟨0, base, _, rfl, by decide +kernel⟩
  · exact ⟨0, { base with saf := { chan := { cfg := placed } } }, _, 0, record, rfl, by decide +kernel⟩
  · exact ⟨0, base, _, 0, rfl, by decide +kernel⟩
  · exact ⟨0, { base with now := 100000, boot := { shaken := true } }, _, rfl, by decide +kernel⟩

/-- Every clause of SilencesAndCrossings has a state and operands that meet its premises. -/
theorem witness_SilencesAndCrossings :
    (∃ dt, ∃ s e : State, ∃ d, s.elapse dt = e ∧ e.boot.up = true ∧ (e.die d).power = true ∧ tfind e.mrg.silent d = none ∧ 2000000 <
      e.now - e.frameAt d true) ∧
    (∃ dt, ∃ s e : State, ∃ d x, s.elapse dt = e ∧ e.boot.up = true ∧ tfind e.mrg.silent d = some x ∧ x.failed = false ∧ 100000000 <
      e.now - x.since) ∧
    (∃ dt, ∃ s e : State, ∃ d x, s.elapse dt = e ∧ e.boot.up = true ∧ d < 4 ∧ tfind e.mrg.silent d = some x ∧ x.failed = true) ∧
    (∃ dt, ∃ s e : State, ∃ d x, s.elapse dt = e ∧ e.boot.up = true ∧ d < 4 ∧ e.dev = .service ∧ (e.die d).power = true ∧ tfind
      e.mrg.silent d = some x ∧ 100000000 < e.now - x.declared) ∧
    (∃ dt, ∃ s e : State, s.elapse dt = e ∧ e.fds.shaken = true ∧ e.mrg.deadA = false ∧ 5000000 < e.now - e.frameAt 4 true ∧
      e.fds.causes = []) ∧
    (∃ dt, ∃ s e : State, s.elapse dt = e ∧ e.fds.shaken = true ∧ e.mrg.deadB = false ∧ 5000000 < e.now - e.frameAt 5 false ∧
      e.fds.causes = []) ∧
    (∃ dt, ∃ s e : State, ∃ d x evs, s.elapse dt = e ∧ e.boot.up = true ∧ d < 4 ∧ tfind e.mrg.silent d = some x ∧ x.failed = false ∧
      x.overrun = false ∧ d ∉ e.str.behind ∧ e.now - x.since ≤ 100000000 ∧ sortBy (orderKey d) (x.buffer ++ x.late) = evs ∧
      evs.length ≤ 8192 ∧ evs.all (e.saf.chan.cfg.eventOk d) = true ∧ replayFollows e.saf.chan.cfg d evs e.mrg.seqs = true) ∧
    (∃ dt, ∃ s e : State, ∃ d b, s.elapse dt = e ∧ e.boot.up = true ∧ (e.blk d b).st ≠ .faulty ∧ e.dieUp d = true ∧ (e.die d).busy =
      none) ∧
    (∃ dt, ∃ s e : State, ∃ d, s.elapse dt = e ∧ e.boot.up = true ∧ d < 4 ∧ (e.die d).power = true ∧ e.dev = .service ∧ e.str.st ≠
      .committing) ∧
    (∃ dt, ∃ s e : State, s.elapse dt = e ∧ e.boot.up = true) ∧
    (∃ dt, ∃ s e : State, ∃ d, s.elapse dt = e ∧ e.boot.up = true ∧ d < 4 ∧ (e.die d).power = true ∧ tfind e.mrg.silent d = none) := by
  refine ⟨?_, ?_, ?_, ?_, ?_, ?_, ?_, ?_, ?_, ?_, ?_⟩
  · exact ⟨0, { base with now := 3000000 }, _, 0, rfl, by decide +kernel⟩
  · exact ⟨0, { base with now := 100000001, mrg := { silent := [(0, quiet)] } }, _, 0, quiet, rfl, by decide +kernel⟩
  · exact ⟨0, { base with mrg := { silent := [(0, { quiet with failed := true })] } }, _, 0, { quiet with failed := true }, rfl,
      by decide +kernel⟩
  · exact ⟨0, { base with dev := .service, now := 100000001, mrg := { silent := [(0, quiet)] } }, _, 0, quiet, rfl,
      by decide +kernel⟩
  · exact ⟨0, { base with fds := { shaken := true }, now := 5000001 }, _, rfl, by decide +kernel⟩
  · exact ⟨0, { base with fds := { shaken := true }, now := 5000001 }, _, rfl, by decide +kernel⟩
  · exact ⟨0, { base with mrg := { silent := [(0, { quiet with buffer := [record] })] }, saf := { chan := { cfg := placed } } }, _,
      0, { quiet with buffer := [record] }, [record], rfl, by decide +kernel⟩
  · exact ⟨0, base, _, 0, 31, rfl, by decide +kernel⟩
  · exact ⟨0, { base with dev := .service }, _, 3, rfl, by decide +kernel⟩
  · exact ⟨0, base, _, rfl, by decide +kernel⟩
  · exact ⟨0, base, _, 0, rfl, by decide +kernel⟩

/-- Every clause of FdTakesWhatHbSends has a state and operands that meet its premises. -/
theorem witness_FdTakesWhatHbSends :
    (∃ dt, ∃ s e : State, ∃ src b hz p, s.elapse dt = e ∧ e.fdUp = true ∧ e.mrg.deadA = false ∧ e.fdStepDue = false ∧ e.mrg.isoA =
      [.event src b hz false] ∧ e.fds.breaksOrder src b false = false ∧ e.fds.led.cfg.eventOk src b = true ∧ e.fds.led.cfg.eventHome
      src b = some p ∧ ((tget e.fds.seqs {} (seqKey p)).take (seqOf b)).2 = false) ∧
    (∃ dt, ∃ s e : State, ∃ hz, s.elapse dt = e ∧ e.fdUp = true ∧ e.mrg.deadA = false ∧ e.fdStepDue = false ∧ e.mrg.isoA = [.mark
      hz]) ∧
    (∃ dt, ∃ s e : State, ∃ n tc hz key cmds, s.elapse dt = e ∧ e.fdUp = true ∧ e.mrg.deadA = false ∧ e.fdStepDue = false ∧
      e.mrg.isoA = [.cycle n tc hz key cmds]) ∧
    (∃ dt, ∃ s e : State, ∃ d home, s.elapse dt = e ∧ e.fdUp = true ∧ e.mrg.deadA = false ∧ e.fdStepDue = false ∧ e.mrg.isoA =
      [.spanRestart d home]) ∧
    (∃ dt, ∃ s e : State, ∃ x rest, s.elapse dt = e ∧ e.fdUp = true ∧ e.mrg.deadB = false ∧ e.saf.segs = x :: rest ∧ x.whole = true
      ∧ tfind e.fds.parts x.cycle = none) ∧
    (∃ dt, ∃ s e : State, ∃ x rest held states, s.elapse dt = e ∧ e.fdUp = true ∧ e.mrg.deadB = false ∧ e.saf.segs = x :: rest ∧
      x.whole = true ∧ tfind e.fds.parts x.cycle = some (held, states) ∧ held.contains x.index = false ∧ held.length = 7) ∧
    (∃ dt, ∃ s e : State, ∃ x rest, s.elapse dt = e ∧ e.fdUp = true ∧ e.mrg.deadB = false ∧ e.saf.segs = x :: rest ∧ x.whole =
      false) ∧
    (∃ dt, ∃ s e : State, ∃ c, s.elapse dt = e ∧ e.fdUp = true ∧ e.fds.comparable = some c ∧ c.discords = []) := by
  refine ⟨?_, ?_, ?_, ?_, ?_, ?_, ?_, ?_⟩
  · exact ⟨0, { base with mrg := { isoA := [.event 0 record 0 false] }, fds := { led := { cfg := placed } } }, _, 0, record, 0,
      (0, 0), rfl, by decide +kernel⟩
  · exact ⟨0, { base with mrg := { isoA := [.mark 5] } }, _, 5, rfl, by decide +kernel⟩
  · exact ⟨0, { base with mrg := { isoA := [.cycle 1 0 0 0 []] } }, _, 1, 0, 0, 0, [], rfl, by decide +kernel⟩
  · exact ⟨0, { base with mrg := { isoA := [.spanRestart 0 0] } }, _, 0, 0, rfl, by decide +kernel⟩
  · exact ⟨0,
      { base with saf := { segs := [({ cycle := 1, index := 0, pairB := false, states := [], other := [] } : Segment).sealed] } },
      _, ({ cycle := 1, index := 0, pairB := false, states := [], other := [] } : Segment).sealed, [], rfl,
      ⟨by decide, by decide, rfl, Segment.whole_sealed _, by decide⟩⟩
  · exact ⟨0,
      { base with saf := { segs := [({ cycle := 1, index := 7, pairB := false, states := [], other := [] } : Segment).sealed] }, fds := { parts := [(1, ([0, 1, 2, 3, 4, 5, 6], []))] } },
      _, ({ cycle := 1, index := 7, pairB := false, states := [], other := [] } : Segment).sealed, [], [0, 1, 2, 3, 4, 5, 6], [],
      rfl, ⟨by decide, by decide, rfl, Segment.whole_sealed _, rfl, rfl, by decide⟩⟩
  · exact ⟨0,
      { base with saf := { segs := [({ cycle := 1, index := 0, pairB := false, states := [], other := [] } : Segment).cut] } }, _,
      ({ cycle := 1, index := 0, pairB := false, states := [], other := [] } : Segment).cut, [], rfl,
      ⟨by decide, by decide, rfl, Segment.whole_cut _⟩⟩
  · exact ⟨0, { base with fds := { whole := [(1, {})], cycles := [(1, {})] } }, _, ⟨1, [], []⟩, rfl, by decide +kernel⟩

/-- Every clause of VerdictsAndCauses has a state and operands that meet its premises. -/
theorem witness_VerdictsAndCauses :
    (∃ dt, ∃ s e : State, ∃ v, s.elapse dt = e ∧ e.boot.up = true ∧ e.saf.ready = some v ∧ e.fdUp = true ∧ e.boot.shaken = true ∧
      e.mrg.deadB = false) ∧
    (∃ dt, ∃ s e : State, s.elapse dt = e ∧ e.fdUp = true ∧ e.fds.verdict + e.verdictTmo < e.saf.cycle ∧ e.fds.verdictLate = false) ∧
    (∃ dt, ∃ s e : State, s.elapse dt = e ∧ e.fdUp = true ∧ e.fds.mark + e.verdictTmo < e.saf.cycle ∧ e.fds.markLate = false) ∧
    (∃ dt, ∃ s e : State, ∃ t0, s.elapse dt = e ∧ e.fdUp = true ∧ e.boot.shaken = true ∧ e.mrg.deadB = false ∧ e.fds.deadAt = some
      t0 ∧ t0 + 5000000 ≤ e.now ∧ e.mrg.goodB + 5000000 ≤ e.now ∧ e.fds.causes = [] ∧ e.fds.split = false) ∧
    (∃ dt, ∃ s e : State, ∃ k, s.elapse dt = e ∧ e.fdUp = true ∧ k ∈ e.fds.causes ∧ e.causeGone k = true) ∧
    (∃ dt, ∃ s e : State, s.elapse dt = e ∧ e.fdUp = true ∧ e.fds.causes = []) ∧
    (∃ dt, ∃ s e : State, s.elapse dt = e ∧ e.fdUp = true) ∧
    (∃ dt, ∃ s e : State, s.elapse dt = e ∧ e.fdUp = true ∧ e.fds.causes = []) ∧
    (∃ dt, ∃ s e : State, s.elapse dt = e ∧ e.fdUp = true ∧ e.fds.causes = []) ∧
    (∃ dt, ∃ s e : State, s.elapse dt = e ∧ e.fdUp = true ∧ e.supplyBad = true ∧ e.fds.causes = []) := by
  refine ⟨?_, ?_, ?_, ?_, ?_, ?_, ?_, ?_, ?_, ?_⟩
  · exact ⟨0, { base with saf := { ready := some ⟨1, [], 0, 0⟩ }, boot := { shaken := true } }, _, ⟨1, [], 0, 0⟩, rfl,
      by decide +kernel⟩
  · exact ⟨0, { base with saf := { cycle := 10 }, fds := { verdictLate := false } }, _, rfl, by decide +kernel⟩
  · exact ⟨0, { base with saf := { cycle := 10 }, fds := { markLate := false } }, _, rfl, by decide +kernel⟩
  · exact ⟨0, { base with now := 5000000, boot := { shaken := true } }, _, 0, rfl, by decide +kernel⟩
  · exact ⟨0, { base with fds := { causes := [4] } }, _, 4, rfl, by decide +kernel⟩
  · exact ⟨0, base, _, rfl, by decide +kernel⟩
  · exact ⟨0, base, _, rfl, by decide +kernel⟩
  · exact ⟨0, base, _, rfl, by decide +kernel⟩
  · exact ⟨0, base, _, rfl, by decide +kernel⟩
  · exact ⟨0, { base with fdin := { bad24 := 21 } }, _, rfl, by decide +kernel⟩

/-- Every clause of PairsFailAndReturn has a state and operands that meet its premises. -/
theorem witness_PairsFailAndReturn :
    (∃ dt, ∃ s e : State, s.elapse dt = e ∧ e.boot.up = true ∧ e.boot.split = false ∧ e.saf.a.st = .inService ∧ e.saf.b.st =
      .inService) ∧
    (∃ dt, ∃ s e : State, s.elapse dt = e ∧ e.boot.up = true ∧ e.boot.split = false ∧ e.saf.a.st = .inService ∧ e.saf.b.st =
      .inService) ∧
    (∃ dt, ∃ s e : State, s.elapse dt = e ∧ e.boot.up = true ∧ e.boot.split = false ∧ e.saf.a.st = .inService ∧ e.saf.b.st =
      .inService ∧ e.saf.running = true ∧ e.saf.activeB = false ∧ e.saf.ready.isSome = true ∧ e.saf.cycleAt + 400000 ≤ e.now) ∧
    (∃ dt, ∃ s e : State, s.elapse dt = e ∧ e.boot.up = true ∧ e.boot.split = false ∧ e.saf.a.st = .inService) ∧
    (∃ dt, ∃ s e : State, ∃ m pr, s.elapse dt = e ∧ e.boot.up = true ∧ e.mayWrite m Reg.HB_SAF_CMD = true ∧ e.boot.split = false ∧
      e.dev = .maintenance ∧ e.saf.busy = none ∧ e.saf.swap = false ∧ (e.saf.pair (isB pr)).st = .faulted) ∧
    (∃ dt, ∃ s e : State, s.elapse dt = e ∧ e.boot.up = true ∧ e.saf.busy = some true ∧ e.saf.b.st = .returning ∧ e.saf.b.tested =
      false ∧ e.saf.a.st = .inService) ∧
    (∃ dt, ∃ s e : State, s.elapse dt = e ∧ e.boot.up = true ∧ e.saf.b.st = .returning ∧ e.saf.b.copied = true ∧ 1000 ≤ e.saf.b.run
      ∧ e.saf.a.st = .inService ∧ e.dev = .maintenance) ∧
    (∃ dt, ∃ s e : State, ∃ m, s.elapse dt = e ∧ e.boot.up = true ∧ e.mayWrite m Reg.HB_SAF_CMD = true ∧ e.boot.split = false ∧
      e.dev = .maintenance ∧ e.saf.busy = none ∧ e.saf.swap = false ∧ e.saf.a.st = .inService ∧ e.saf.b.st = .inService) ∧
    (∃ dt, ∃ s e : State, ∃ m, s.elapse dt = e ∧ e.boot.up = true ∧ e.mayWrite m Reg.HB_SAF_CMD = true ∧ e.boot.split = false ∧
      e.dev = .maintenance ∧ e.saf.busy = none ∧ e.saf.swap = false ∧ e.saf.a.st = .inService ∧ e.saf.b.st = .inService) ∧
    (∃ dt, ∃ s e : State, s.elapse dt = e ∧ e.boot.up = true ∧ e.boot.split = false ∧ e.dev = .maintenance ∧ e.boot.jtagOpen = true
      ∧ e.saf.a.st = .inService ∧ e.saf.b.st = .inService) := by
  refine ⟨?_, ?_, ?_, ?_, ?_, ?_, ?_, ?_, ?_, ?_⟩
  · exact ⟨0, base, _, rfl, by decide +kernel⟩
  · exact ⟨0, base, _, rfl, by decide +kernel⟩
  · exact ⟨0, { base with saf := { running := true, ready := some ⟨1, [], 0, 0⟩ }, now := 400000 }, _, rfl, by decide +kernel⟩
  · exact ⟨0, base, _, rfl, by decide +kernel⟩
  · exact ⟨0, { base with dev := .maintenance, saf := { a := { st := .faulted } } }, _, .host 0, .a, rfl, by decide +kernel⟩
  · exact ⟨0, { base with saf := { busy := some true, b := { st := .returning } } }, _, rfl, by decide +kernel⟩
  · exact ⟨0, { base with saf := { b := { st := .returning, copied := true, run := 1000 } }, dev := .maintenance }, _, rfl,
      by decide +kernel⟩
  · exact ⟨0, { base with dev := .maintenance }, _, .host 0, rfl, by decide +kernel⟩
  · exact ⟨0, { base with dev := .maintenance }, _, .host 0, rfl, by decide +kernel⟩
  · exact ⟨0, { base with dev := .maintenance, boot := { jtagOpen := true } }, _, rfl, by decide +kernel⟩

/-- Every clause of ComparatorChannels has a state and operands that meet its premises. -/
theorem witness_ComparatorChannels :
    (∃ dt, ∃ s e : State, ∃ k runs damped, s.elapse dt = e ∧ e.wscRuns k = true ∧ (e.wsc k).settled = false ∧ e.wscFilter k runs =
      some damped) ∧
    (∃ dt, ∃ s e : State, ∃ k runs damped, s.elapse dt = e ∧ e.wscRuns k = true ∧ (e.wsc k).settled = true ∧ e.wscFilter k runs =
      some damped ∧ (e.wsc k).out ≠ damped) ∧
    (∃ dt, ∃ s e : State, ∃ lh x ev rest body, s.elapse dt = e ∧ e.fdUp = true ∧ tget e.fdin.legs {} lh = x ∧ x.held = ev :: rest ∧
      e.legacyDue lh ev = true ∧ leBytes 8 e.tc.fd ++ leBytes 4 (min 0xFFFFFFFF (e.tc.fd - ev.t)) ++ leBytes 4 x.seq ++ leBytes 2
      (lh + 32 * ev.sys + 64 * ev.kind + 512 * ev.cause + 4096 * b2n ev.out + 8192 * b2n ev.stale + 16384 * b2n e.tc.fdDegraded) ++
      leBytes 2 (fld (e.reg (Reg.FD_ADC_WS (2 * lh + ev.sys))) 0 16) ++ leBytes 8 0 = body) ∧
    (∃ dt, ∃ s e : State, ∃ k runs, s.elapse dt = e ∧ e.wscRuns k = true ∧ 3 ∉ (e.wsc k).faults ∧ e.wscDwells k runs = true) ∧
    (∃ dt, ∃ s e : State, ∃ k low runs, s.elapse dt = e ∧ e.fdUp = true ∧ (e.wsc k).en.isSome = true ∧ (e.wsc k).stale = false ∧ (if
      low then 2 else 1) ∉ (e.wsc k).faults ∧ e.outOfWindow k low runs = true) ∧
    (∃ dt, ∃ s e : State, ∃ k c runs, s.elapse dt = e ∧ e.fdUp = true ∧ (c = 1 ∨ c = 2) ∧ c ∈ (e.wsc k).faults ∧ (e.wsc k).stale =
      false ∧ e.inWindow k runs = true) ∧
    (∃ dt, ∃ s e : State, ∃ k runs, s.elapse dt = e ∧ e.wscRuns k = true ∧ 3 ∈ (e.wsc k).faults ∧ (e.wsc k).settled = true ∧
      e.wscFilter k runs = some (e.wsc k).out) ∧
    (∃ dt, ∃ s e : State, ∃ m, ∃ hi : Bool, s.elapse dt = e ∧ e.boot.up = true ∧ e.mayWrite m (if hi then Reg.FD_WSC_LATCH_HI else
      Reg.FD_WSC_LATCH_LO) = true) ∧
    (∃ dt, ∃ s e : State, ∃ m st, s.elapse dt = e ∧ e.boot.up = true ∧ e.mayRead m Reg.FD_WSC_STAMP_LO = true ∧ (e.wsc (fld (e.mreg
      m Reg.FD_WSC_SEL) 0 6)).stamp = st) := by
  refine ⟨?_, ?_, ?_, ?_, ?_, ?_, ?_, ?_, ?_⟩
  · exact ⟨0, { base with fdin := { chans := [(0, { en := some 0 })] } }, _, 0, [⟨64, 1, 1⟩], true, rfl, by decide +kernel⟩
  · exact ⟨0, { base with fdin := { chans := [(0, { en := some 0, settled := true })] } }, _, 0, [⟨64, 1, 1⟩], true, rfl,
      by decide +kernel⟩
  · exact ⟨0, { base with tc := { fd := 1000000 }, fdin := { legs := [(0, { held := [⟨0, 0, 0, 0, true, false⟩] })] } }, _, 0,
      { held := [⟨0, 0, 0, 0, true, false⟩] }, ⟨0, 0, 0, 0, true, false⟩, [], _, rfl, ⟨by decide, rfl, rfl, by decide +kernel, rfl⟩⟩
  · exact ⟨0, { base with fdin := { chans := [(0, { en := some 0, settled := true })] }, now := 2100000000 }, _, 0,
      [⟨5000000, 0, 1⟩], rfl, by decide +kernel⟩
  · exact ⟨0, { base with fdin := { chans := [(0, { en := some 0 })] } }, _, 0, false, [⟨10, 1, 1⟩], rfl, by decide +kernel⟩
  · exact ⟨0, { base with fdin := { chans := [(0, { faults := [1] })] } }, _, 0, 1, [⟨200001, 0, 1⟩], rfl, by decide +kernel⟩
  · exact ⟨0, { base with fdin := { chans := [(0, { en := some 0, settled := true, out := true, faults := [3] })] } }, _, 0,
      [⟨64, 1, 1⟩], rfl, by decide +kernel⟩
  · exact ⟨0, { base with boot := { shaken := true } }, _, .host 0, true, rfl, by decide +kernel⟩
  · exact ⟨0, { base with boot := { shaken := true } }, _, .host 0, 0, rfl, by decide +kernel⟩

/-- Every clause of ConverterAndTrims has a state and operands that meet its premises. -/
theorem witness_ConverterAndTrims :
    (∃ dt, ∃ s e : State, ∃ a b, s.elapse dt = e ∧ e.fdUp = true ∧ a < 18000 ∧ 4750 ≤ b ∧ b ≤ 5250) ∧
    (∃ dt, ∃ s e : State, ∃ a b, s.elapse dt = e ∧ e.fdUp = true ∧ 18000 ≤ a ∧ a ≤ 36000 ∧ 4750 ≤ b ∧ b ≤ 5250) ∧
    (∃ dt, ∃ s e : State, s.elapse dt = e ∧ e.fdUp = true) ∧
    (∃ dt, ∃ s e : State, ∃ m, ∃ v : Word, s.elapse dt = e ∧ e.boot.up = true ∧ e.fdUp = true ∧ e.mayWrite m Reg.FD_ADC_REQ = true ∧
      BitVec.toNat v < 131072 ∧ e.fdin.req = none ∧ adcSourceUsed (fld v 0 7) (fld v 7 2) = true) ∧
    (∃ dt, ∃ s e : State, ∃ r : AdcReq, ∃ codes : List Nat, ∃ total, s.elapse dt = e ∧ e.fdUp = true ∧ e.fdin.req = some r ∧
      codes.length = r.avg + 1 ∧ codes.sum = total) ∧
    (∃ dt, ∃ s e : State, ∃ k runs v, s.elapse dt = e ∧ e.fdUp = true ∧ k < 8 ∧ bitOf (e.reg Reg.FD_FSI_CFG) k = true ∧ heldState
      runs = some v ∧ (e.fsi k).high ≠ some v) ∧
    (∃ dt, ∃ s e : State, ∃ k runs, s.elapse dt = e ∧ e.fdUp = true ∧ k < 8 ∧ bitOf (e.reg Reg.FD_FSI_CFG) k = true ∧ (e.fsi
      k).fault = false ∧ undefinedLong runs = true) ∧
    (∃ dt, ∃ s e : State, ∃ k, s.elapse dt = e ∧ e.fdUp = true ∧ e.fdin.cal.deferred = none ∧ e.fdin.cal.hold = none ∧
      e.fdin.cal.due = k ∧ 0 < fld (e.reg Reg.FD_CAL_CFG) 0 17 ∧ e.fdin.trims = true ∧ (e.wsc k).en.isSome = true ∧ e.dev ≠ .watch ∧
      (e.wsc k).calAt = none ∧ e.calReady k = true) ∧
    (∃ dt, ∃ s e : State, ∃ k t0 t1, s.elapse dt = e ∧ e.fdUp = true ∧ e.fdin.cal.deferred = some (t0, t1) ∧ t1 ≤ e.now ∧
      e.fdin.cal.hold = none ∧ e.fdin.cal.due = k ∧ e.now - t0 ≤ fld (e.reg Reg.FD_CAL_CFG) 0 17 * 1000000000 ∧ 0 < fld (e.reg
      Reg.FD_CAL_CFG) 0 17 ∧ e.fdin.trims = true ∧ (e.wsc k).en.isSome = true ∧ e.dev ≠ .watch ∧ (e.wsc k).calAt = none ∧ e.calReady
      k = false) ∧
    (∃ dt, ∃ s e : State, ∃ k t0 c, s.elapse dt = e ∧ e.fdUp = true ∧ e.fdin.cal.hold = some (k, t0) ∧ e.wscLow k = false ∧ e.wscAbs
      k = true ∧ e.wscThr k * 262144 < c * 5000) ∧
    (∃ dt, ∃ s e : State, ∃ k t0, ∃ level : Int, s.elapse dt = e ∧ e.fdUp = true ∧ e.fdin.cal.hold = some (k, t0) ∧ (level - 4 *
      (e.wscThr k : Int)).natAbs ≤ fld (e.reg Reg.FD_CAL_CFG) 17 7 ∧ (level - 4 * (e.wscThr k : Int) - (e.wsc k).trim).natAbs ≤ fld
      (e.reg Reg.FD_CAL_CFG) 24 7) := by
  refine ⟨?_, ?_, ?_, ?_, ?_, ?_, ?_, ?_, ?_, ?_, ?_⟩
  · exact ⟨0, base, _, 0, 5250, rfl, by decide +kernel⟩
  · exact ⟨0, base, _, 18000, 5250, rfl, by decide +kernel⟩
  · exact ⟨0, base, _, rfl, by decide +kernel⟩
  · exact ⟨0, { base with boot := { shaken := true } }, _, .host 0, 0, rfl, by decide +kernel⟩
  · exact ⟨0, { base with fdin := { req := some ⟨0, 0, 1⟩ } }, _, ⟨0, 0, 1⟩, [5, 6], 11, rfl, by decide +kernel⟩
  · exact ⟨0, base.setReg Reg.FD_FSI_CFG 0x80, _, 7, [⟨2000, 24000⟩], true, rfl, by decide +kernel⟩
  · exact ⟨0, base.setReg Reg.FD_FSI_CFG 0x80, _, 7, [⟨200002, 10000⟩], rfl, by decide +kernel⟩
  · exact ⟨0,
      { base.setReg Reg.FD_CAL_CFG 1 with now := 1000000000, fdin := { trims := true, chans := [(0, { en := some 0, settled := true, freeAt := some 0 })] } },
      _, 0, rfl, by decide +kernel⟩
  · exact ⟨0,
      { base.setReg Reg.FD_CAL_CFG 1 with fdin := { trims := true, cal := { deferred := some (0, 0) }, chans := [(0, { en := some 0 })] } },
      _, 0, 0, 0, rfl, by decide +kernel⟩
  · exact ⟨0, { base.setReg (Reg.FD_WSC_CFG0 0) 0x40000 with fdin := { cal := { hold := some (0, 0) } } }, _, 0, 0, 1, rfl,
      by decide +kernel⟩
  · exact ⟨0, { base with fdin := { cal := { hold := some (0, 0) } } }, _, 0, 0, 0, rfl, by decide +kernel⟩

/-- Every clause of OutputsAreChecked has a state and operands that meet its premises. -/
theorem witness_OutputsAreChecked :
    (∃ dt, ∃ s e : State, ∃ k volts t0, s.elapse dt = e ∧ e.fdUp = true ∧ e.voEn k = true ∧ (e.vo k).test = none ∧ (e.group (k /
      16)).check = none ∧ (e.vo k).changed = some t0 ∧ e.now ≤ t0 + e.tSw ∧ (e.vo k).level = true ∧ e.readsOn k volts = true) ∧
    (∃ dt, ∃ s e : State, ∃ k volts, s.elapse dt = e ∧ e.fdUp = true ∧ e.voEn k = true ∧ (e.vo k).test = none ∧ (e.group (k /
      16)).check = none ∧ (e.vo k).changed = none ∧ (e.vo k).level = false ∧ e.readsOff k volts = true) ∧
    (∃ dt, ∃ s e : State, ∃ k t0, s.elapse dt = e ∧ e.fdUp = true ∧ k < 32 ∧ (e.vo k).changed = some t0 ∧ t0 + e.tSw < e.now ∧ (e.vo
      k).level = true ∧ (e.vo k).test = none ∧ (e.vo k).latched = []) ∧
    (∃ dt, ∃ s e : State, ∃ k t0, s.elapse dt = e ∧ e.fdUp = true ∧ k < 32 ∧ (e.vo k).level = true ∧ (e.vo k).test = none ∧ (e.vo
      k).below = some t0 ∧ t0 + 100000000 ≤ e.now ∧ (e.vo k).latched = []) ∧
    (∃ dt, ∃ s e : State, s.elapse dt = e ∧ e.fdUp = true ∧ e.dev = .start ∧ e.outs.checkDue = true) ∧
    (∃ dt, ∃ s e : State, ∃ g, ∃ volts : List Nat, ∃ t0, s.elapse dt = e ∧ e.fdUp = true ∧ g < 2 ∧ (e.group g).check = some t0 ∧ t0
      + 500000 ≤ e.now ∧ (∀ i, i ∈ groupOutputs g → (e.vo i).stuck = false) ∧ volts.all (e.readsOff (16 * g)) = true) ∧
    (∃ dt, ∃ s e : State, ∃ m k, s.elapse dt = e ∧ e.boot.up = true ∧ e.mayWrite m Reg.FD_VO_CMD = true ∧ k < 32 ∧ e.retesting =
      false ∧ (e.vo k).latched ≠ [] ∧ (e.vo k).latched.contains 5 = false) ∧
    (∃ dt, ∃ s e : State, ∃ m g, s.elapse dt = e ∧ e.boot.up = true ∧ e.mayWrite m Reg.FD_VO_CMD = true ∧ g < 2 ∧ e.retesting =
      false ∧ e.dev = .maintenance) ∧
    (∃ dt, ∃ s e : State, ∃ g, ∃ volts : List Nat, ∃ t0, s.elapse dt = e ∧ e.fdUp = true ∧ g < 2 ∧ (e.group g).retest = some t0 ∧ t0
      + 100000000 ≤ e.now ∧ volts.all (e.readsOff (16 * g)) = true ∧ e.fds.causes = []) ∧
    (∃ dt, ∃ s e : State, ∃ k, s.elapse dt = e ∧ e.fdUp = true ∧ e.voEn k = true ∧ (e.vo k).level = true ∧ e.tc.fd % 100000000 = k *
      3125000 ∧ (e.vo k).test = none ∧ (e.group (k / 16)).check = none) ∧
    (∃ dt, ∃ s e : State, ∃ k x, s.elapse dt = e ∧ e.fdUp = true ∧ (e.vo k).test = some x ∧ x.raised = none ∧ x.start + e.offpT ≤
      e.now) ∧
    (∃ dt, ∃ s e : State, ∃ k x r, s.elapse dt = e ∧ e.fdUp = true ∧ k < 32 ∧ (e.vo k).test = some x ∧ x.raised = some r ∧ r +
      200000 ≤ e.now ∧ x.fell = true ∧ x.rose = false ∧ (e.vo k).level = true ∧ (e.vo k).latched = [] ∧ (e.vo k).deferred = false ∧
      (∀ i, i ∈ groupOutputs (k / 16) → i ≠ k → (e.vo i).deferred = false)) := by
  refine ⟨?_, ?_, ?_, ?_, ?_, ?_, ?_, ?_, ?_, ?_, ?_, ?_⟩
  · exact ⟨0, driven { level := true, changed := some 0 }, _, 0, 0, 0, rfl, by decide +kernel⟩
  · exact ⟨0, driven {}, _, 0, 0, rfl, by decide +kernel⟩
  · exact ⟨0, { driven { level := true, changed := some 0 } with now := 1 }, _, 0, 0, rfl, by decide +kernel⟩
  · exact ⟨0, { driven { level := true, below := some 0 } with now := 100000000 }, _, 0, 0, rfl, by decide +kernel⟩
  · exact ⟨0, base, _, rfl, by decide +kernel⟩
  · exact ⟨0, { base with outs := { groups := [(1, { check := some 0 })] }, now := 500000 }, _, 1, [], 0, rfl, by decide +kernel⟩
  · exact ⟨0, { driven { latched := [1] } with boot := { shaken := true } }, _, .host 0, 0, rfl, by decide +kernel⟩
  · exact ⟨0, { base with dev := .maintenance, boot := { shaken := true } }, _, .host 0, 1, rfl, by decide +kernel⟩
  · exact ⟨0, { base with outs := { groups := [(1, { retest := some 0 })] }, now := 100000000 }, _, 1, [], 0, rfl,
      by decide +kernel⟩
  · exact ⟨0, { base.setReg (Reg.FD_VO_CFG 31) 1 with outs := { vo := [(31, { level := true })] }, tc := { fd := 96875000 } }, _,
      31, rfl, by decide +kernel⟩
  · exact ⟨0, driven { test := some { start := 0 } }, _, 0, { start := 0 }, rfl, by decide +kernel⟩
  · exact ⟨0, { driven { level := true, test := some { start := 0, fell := true, raised := some 0 } } with now := 200000 }, _, 0,
      { start := 0, fell := true, raised := some 0 }, 0, rfl, by decide +kernel⟩

/-- Every clause of BrakesAndResetInputs has a state and operands that meet its premises. -/
theorem witness_BrakesAndResetInputs :
    (∃ dt, ∃ s e : State, ∃ m c, s.elapse dt = e ∧ e.boot.up = true ∧ e.mayWrite m Reg.FD_BRK_CMD = true ∧ c < 16 ∧ e.dev =
      .maintenance ∧ e.fds.first = none ∧ (e.brake c).step = .none ∧ (e.vo (16 + c)).latched = [] ∧ e.brakeOn (16 + c) = true ∧
      e.applied c = false) ∧
    (∃ dt, ∃ s e : State, ∃ c runs v, s.elapse dt = e ∧ e.fdUp = true ∧ c < 16 ∧ (e.brake c).step = .none ∧ heldState runs = some v) ∧
    (∃ dt, ∃ s e : State, ∃ c runs v, s.elapse dt = e ∧ e.fdUp = true ∧ c < 16 ∧ (e.brake c).step = .apply ∧ heldState runs = some v
      ∧ v ≠ bitOf (e.reg Reg.FD_BRK_CFG) (16 + c)) ∧
    (∃ dt, ∃ s e : State, ∃ c runs v, s.elapse dt = e ∧ e.fdUp = true ∧ c < 16 ∧ (e.brake c).step = .release ∧ heldState runs = some
      v ∧ v = bitOf (e.reg Reg.FD_BRK_CFG) (16 + c)) ∧
    (∃ dt, ∃ s e : State, ∃ c runs, s.elapse dt = e ∧ e.fdUp = true ∧ c < 16 ∧ (e.bfb c).fault = false ∧ undefinedLong runs = true ∧
      e.brakeOn (16 + c) = true ∧ (e.brake c).step = .none ∧ (e.vo (16 + c)).latched = [] ∧ (e.vo (16 + c)).test = none) ∧
    (∃ dt, ∃ s e : State, ∃ c, s.elapse dt = e ∧ e.fdUp = true ∧ c < 16 ∧ (e.brake c).step = .apply ∧ (e.brake c).since + e.brkTime
      0 < e.now ∧ (e.vo (16 + c)).latched = [] ∧ (e.vo (16 + c)).test = none) ∧
    (∃ dt, ∃ s e : State, ∃ c, s.elapse dt = e ∧ e.fdUp = true ∧ (e.brake c).step = .hold ∧ (e.brake c).since + e.brkTime 1 ≤ e.now) ∧
    (∃ dt, ∃ s e : State, ∃ c, s.elapse dt = e ∧ e.fdUp = true ∧ c < 16 ∧ (e.brake c).step = .release ∧ (e.brake c).since +
      e.brkTime 2 < e.now ∧ (e.vo (16 + c)).latched = [] ∧ (e.vo (16 + c)).test = none) ∧
    (∃ dt, ∃ s e : State, ∃ c t0, s.elapse dt = e ∧ e.fdUp = true ∧ c < 16 ∧ (e.vo (16 + c)).test = none ∧ (e.vo (16 + c)).fb = some
      t0 ∧ (e.vo (16 + c)).level = true ∧ t0 + e.brkTime 2 < e.now ∧ (e.brake c).step = .none ∧ (e.vo (16 + c)).latched = []) ∧
    (∃ s : State, ∃ r : ResetIn, ∃ p, ∃ samples : List (Nat × Nat), samples.length = 20 ∧ (∀ x, x ∈ samples → samplePattern x = p) ∧
      r.pat ≠ some p) ∧
    (∃ dt, ∃ s e : State, ∃ n, ∃ no : List Nat, ∃ nc : List Nat, ∃ r, s.elapse dt = e ∧ e.fdUp = true ∧ (e.rstIn n).sample e.now
      (no.zip nc) = r ∧ r.pat = some (some false) ∧ ((e.rstIn n).st = .unknown ∨ (e.rstIn n).st = .pressed ∨ (e.rstIn n).st =
      .stuck)) ∧
    (∃ dt, ∃ s e : State, ∃ n, ∃ no : List Nat, ∃ nc : List Nat, ∃ r t0, s.elapse dt = e ∧ e.fdUp = true ∧ (e.rstIn n).sample e.now
      (no.zip nc) = r ∧ r.pat = some (some true) ∧ r.patAt = some t0 ∧ (e.rstIn n).st = .released ∧ (e.rstIn n).since + 100000000 ≤
      e.now ∧ e.fds.first = none) ∧
    (∃ dt, ∃ s e : State, ∃ n, s.elapse dt = e ∧ e.fdUp = true ∧ (e.rstIn n).st = .pressed ∧ (e.rstIn n).since + 10000000000 <
      e.now) ∧
    (∃ dt, ∃ s e : State, ∃ n t0, s.elapse dt = e ∧ e.fdUp = true ∧ (e.rstIn n).st ≠ .fault ∧ (e.rstIn n).pat = some none ∧ (e.rstIn
      n).patAt = some t0 ∧ t0 + 100000000 ≤ e.now) ∧
    (∃ dt, ∃ s e : State, ∃ n t0, s.elapse dt = e ∧ e.fdUp = true ∧ (e.rstIn n).st = .fault ∧ (e.rstIn n).pat = some (some false) ∧
      (e.rstIn n).patAt = some t0 ∧ t0 + 1000000000 ≤ e.now) ∧
    (∃ dt, ∃ s e : State, ∃ m st, s.elapse dt = e ∧ e.boot.up = true ∧ e.mayRead m Reg.FD_RST_START_LO = true ∧ (e.rstIn (fld
      (e.mreg m Reg.FD_RST_SEL) 0 2)).start = st) := by
  refine ⟨?_, ?_, ?_, ?_, ?_, ?_, ?_, ?_, ?_, ?_, ?_, ?_, ?_, ?_, ?_, ?_⟩
  · exact ⟨0,
      { (base.setReg (Reg.FD_VO_CFG 31) 1).setReg Reg.FD_BRK_CFG 0x8000 with dev := .maintenance, boot := { shaken := true } }, _,
      .host 0, 15, rfl, by decide +kernel⟩
  · exact ⟨0, { base with outs := { vo := [(16, { fb := some 0 })] } }, _, 0, [⟨2000, 24000⟩], true, rfl, by decide +kernel⟩
  · exact ⟨0, { base with outs := { brk := [(0, { step := .apply })] } }, _, 0, [⟨2000, 24000⟩], true, rfl, by decide +kernel⟩
  · exact ⟨0, { base with outs := { brk := [(0, { step := .release })] } }, _, 0, [⟨2000, 0⟩], false, rfl, by decide +kernel⟩
  · exact ⟨0, (base.setReg (Reg.FD_VO_CFG 16) 1).setReg Reg.FD_BRK_CFG 1, _, 0, [⟨200002, 10000⟩], rfl, by decide +kernel⟩
  · exact ⟨0, { base with outs := { brk := [(0, { step := .apply })] }, now := 1 }, _, 0, rfl, by decide +kernel⟩
  · exact ⟨0, { base with outs := { brk := [(15, { step := .hold })] } }, _, 15, rfl, by decide +kernel⟩
  · exact ⟨0, { base with outs := { brk := [(15, { step := .release })] }, now := 1 }, _, 15, rfl, by decide +kernel⟩
  · exact ⟨0, { base with outs := { vo := [(16, { fb := some 0, level := true })] }, now := 1 }, _, 0, 0, rfl, by decide +kernel⟩
  · exact ⟨base, {}, some true, List.replicate 20 (24000, 0), by decide +kernel⟩
  · exact ⟨0, { base with now := 19000000 }, _, 0, List.replicate 20 0, List.replicate 20 24000, _, rfl,
      ⟨by decide, rfl, by decide +kernel, by decide +kernel⟩⟩
  · exact ⟨0, { base with outs := { rst := [(3, { st := .released })] }, now := 119000000 }, _, 3, List.replicate 20 24000,
      List.replicate 20 0, _, 100000000, rfl,
      ⟨by decide, rfl, by decide +kernel, by decide +kernel, by decide +kernel, by decide +kernel, by decide⟩⟩
  · exact ⟨0, { base with outs := { rst := [(0, { st := .pressed })] }, now := 10000000001 }, _, 0, rfl, by decide +kernel⟩
  · exact ⟨0, { base with outs := { rst := [(0, { pat := some none, patAt := some 0 })] }, now := 100000000 }, _, 0, 0, rfl,
      by decide +kernel⟩
  · exact ⟨0,
      { base with outs := { rst := [(0, { st := .fault, pat := some (some false), patAt := some 0 })] }, now := 1000000000 }, _, 0,
      0, rfl, by decide +kernel⟩
  · exact ⟨0, { base with boot := { shaken := true } }, _, .host 0, 0, rfl, by decide +kernel⟩

/-- Every clause of ChannelTimers has a state and operands that meet its premises. -/
theorem witness_ChannelTimers :
    (∃ dt, ∃ s e : State, ∃ side lh cp u, s.elapse dt = e ∧ e.chanRuns side = true ∧ (e.chanAt side).cfg.ofLegacy lh = some cp ∧
      ((e.chanAt side).head cp).faulty = false ∧ ((e.chanAt side).head cp).leg.seq.disagrees = true ∧ ((e.chanAt side).head
      cp).leg.since = some u ∧ (e.chanAt side).cfg.td ≤ (e.tc.fd - u) / 10000) ∧
    (∃ dt, ∃ s e : State, ∃ side cp u, s.elapse dt = e ∧ e.chanRuns side = true ∧ (e.chanAt side).cfg.cpUsed cp = true ∧ ((e.chanAt
      side).head cp).faulty = false ∧ ((e.chanAt side).head cp).core.split = some u ∧ (e.chanAt side).cfg.resolve * 1000000000 ≤
      e.chanClock side - u) ∧
    (∃ dt, ∃ s e : State, ∃ side cp u, s.elapse dt = e ∧ e.chanRuns side = true ∧ (e.chanAt side).cfg.cpUsed cp = true ∧ ((e.chanAt
      side).head cp).faulty = false ∧ ((e.chanAt side).head cp).disagree = some u ∧ (e.chanAt side).cfg.fuse * 1000000 ≤ e.chanClock
      side - u) ∧
    (∃ dt, ∃ s e : State, ∃ side cp, s.elapse dt = e ∧ e.chanRuns side = true ∧ (e.chanAt side).cfg.cpUsed cp = true ∧ ((e.chanAt
      side).head cp).faulty = true ∧ ((e.chanAt side).head cp).back ((e.chanAt side).rule cp) = true) ∧
    (∃ dt, ∃ s e : State, ∃ n u q, s.elapse dt = e ∧ e.saf.running = true ∧ (e.saf.chan.sec n).wait = [(u, q)] ∧ u + 10000000000 <
      e.tc.now) ∧
    (∃ dt, ∃ s e : State, s.elapse dt = e ∧ e.boot.up = true ∧ e.cyclesRun = true ∧ e.boundaryDue = true ∧ e.str.commit = none ∧
      e.queue = [] ∧ e.mrg.procIn = [] ∧ e.saf.swap = false ∧ e.saf.a.st = .inService ∧ e.saf.b.st = .inService ∧ e.saf.running =
      true ∧ e.mrg.deadA = false ∧ e.fdUp = true ∧ e.boot.shaken = true ∧ e.mrg.isoA = []) := by
  refine ⟨?_, ?_, ?_, ?_, ?_, ?_⟩
  · exact ⟨0, { headed .legacy { leg := { since := some 0, seq := .a1 } } with tc := { fd := 500000000 } }, _, .processor, 0, 1, 0,
      rfl, by decide +kernel⟩
  · exact ⟨0, { headed .fibre { core := { split := some 0 } } with tc := { now := 60000000000 } }, _, .processor, 1, 0, rfl,
      by decide +kernel⟩
  · exact ⟨0, { headed .fused { disagree := some 0 } with tc := { now := 2000000000 } }, _, .processor, 1, 0, rfl,
      by decide +kernel⟩
  · exact ⟨0, headed .legacy { faulty := true, leg := { setA := true, setB := true } }, _, .processor, 1, rfl, by decide +kernel⟩
  · exact ⟨0, { inSection { wait := [(0, ⟨0x11, cmd [1, 0]⟩)] } with tc := { now := 10000000001 } }, _, 1, 0, ⟨0x11, cmd [1, 0]⟩,
      rfl, by decide +kernel⟩
  · exact ⟨0, { serving with now := 1000000 }, _, rfl, by decide +kernel⟩

/-- Every clause of ProfilesAndWindows has a state and operands that meet its premises. -/
theorem witness_ProfilesAndWindows :
    (∃ dt, ∃ s e : State, ∃ p sec, s.elapse dt = e ∧ e.boot.up = true ∧ e.tprRuns p = true ∧ (e.tprPort p).next.getD (e.tc.now /
      1000000000 - 1) = sec ∧ (sec + 1) * 1000000000 ≤ e.tc.now) ∧
    (∃ dt, ∃ s e : State, ∃ p sec, s.elapse dt = e ∧ e.boot.up = true ∧ e.tprRuns p = false ∧ (e.tprPort p).next.getD (e.tc.now /
      1000000000 - 1) = sec ∧ (sec + 1) * 1000000000 ≤ e.tc.now) ∧
    (∃ dt, ∃ s e : State, ∃ p sec, s.elapse dt = e ∧ e.boot.up = true ∧ (e.tprPort p).next = some sec ∧ e.tc.now < (sec + 1) *
      1000000000) ∧
    (∃ dt, ∃ s e : State, ∃ w p, s.elapse dt = e ∧ e.boot.up = true ∧ e.acwEn w = true ∧ (e.probe (e.acwPort w)).live.en = true ∧
      e.acwPeriod (e.acwPort w) (e.acwRun w).start = some p ∧ e.isFrozen (.host (e.acwDomain w)) = false ∧ (e.acwRun w).head +
      e.acwBlock w ≤ e.acwSize w ∧ e.acwBlock w ≤ ringFree (e.acwSize w) (e.acwRun w).head (e.acwCons w) ∧ e.acwQueued (e.acwDomain
      w) + e.acwBlock w ≤ 4194304 ∧ (tget e.links.pcie {} (e.acwDomain w)).up = false) ∧
    (∃ dt, ∃ s e : State, ∃ w p pad, s.elapse dt = e ∧ e.boot.up = true ∧ e.acwEn w = true ∧ (e.probe (e.acwPort w)).live.en = true
      ∧ e.acwPeriod (e.acwPort w) (e.acwRun w).start = some p ∧ e.isFrozen (.host (e.acwDomain w)) = false ∧ e.acwSize w < (e.acwRun
      w).head + e.acwBlock w ∧ e.acwSize w - (e.acwRun w).head = pad ∧ 32 ≤ pad ∧ e.acwBlock w < e.acwSize w ∧ pad + e.acwBlock w ≤
      ringFree (e.acwSize w) (e.acwRun w).head (e.acwCons w) ∧ e.acwQueued (e.acwDomain w) + 32 + e.acwBlock w ≤ 4194304 ∧ (tget
      e.links.pcie {} (e.acwDomain w)).up = false) ∧
    (∃ dt, ∃ s e : State, ∃ w p, s.elapse dt = e ∧ e.boot.up = true ∧ e.acwEn w = true ∧ (e.probe (e.acwPort w)).live.en = true ∧
      e.acwPeriod (e.acwPort w) (e.acwRun w).start = some p ∧ (e.isFrozen (.host (e.acwDomain w)) = true ∨ ringFree (e.acwSize w)
      (e.acwRun w).head (e.acwCons w) < e.acwBlock w ∨ 4194304 < e.acwQueued (e.acwDomain w) + e.acwBlock w)) ∧
    (∃ dt, ∃ s e : State, ∃ m w, s.elapse dt = e ∧ e.boot.up = true ∧ w < 64 ∧ e.mayWrite m (Reg.HB_ACW_W_R0 w) = true ∧ e.acwEn w =
      false ∧ 2 * e.acwBlock w ≤ e.acwSize w) ∧
    (∃ dt, ∃ s e : State, ∃ m w, s.elapse dt = e ∧ e.boot.up = true ∧ w < 64 ∧ e.mayWrite m (Reg.HB_ACW_W_R0 w) = true ∧ e.acwEn w =
      true) := by
  refine ⟨?_, ?_, ?_, ?_, ?_, ?_, ?_, ?_⟩
  · exact ⟨0,
      { base.setProbe 0 { live := { en := true, np := 125000, lf := 5000, ng := 14680 } } with tpr := [(0, { cfg := 0x801, coef := 1 })], tc := { now := 1000000000 } },
      _, 0, 0, rfl, by decide +kernel⟩
  · exact ⟨0, { base with tpr := [(3, { next := some 4 })], tc := { now := 5000000000 } }, _, 3, 4, rfl, by decide +kernel⟩
  · exact ⟨0, { base with tpr := [(1, { next := some 4 })], tc := { now := 4999999999 } }, _, 1, 4, rfl, by decide +kernel⟩
  · exact ⟨0,
      { (base.setProbe 0 { live := { en := true }, past := [{ stamp := 1 }] }) with regs := [(Reg.HB_ACW_W_R0 0, 0x800), (Reg.HB_ACW_W_R0 0 + 20, 1)] },
      _, 0, { stamp := 1 }, rfl, by decide +kernel⟩
  · exact ⟨0,
      { (base.setProbe 0 { live := { en := true }, past := [{ stamp := 1 }] }) with regs := [(Reg.HB_ACW_W_R0 0, 0x800), (Reg.HB_ACW_W_R0 0 + 8, 1), (Reg.HB_ACW_W_R0 0 + 20, 1), (Reg.HB_ACW_W_R0 0 + 28, 4064)], acw := [(0, { head := 4064 })] },
      _, 0, { stamp := 1 }, 32, rfl, by decide +kernel⟩
  · exact ⟨0,
      { (base.setProbe 0 { live := { en := true }, past := [{ stamp := 1 }] }) with regs := [(Reg.HB_ACW_W_R0 0, 0x800)], frozen := [.domain 0] },
      _, 0, { stamp := 1 }, rfl, by decide +kernel⟩
  · exact ⟨0, { base with regs := [(Reg.HB_ACW_W_R0 63 + 20, 1)] }, _, .host 0, 63, rfl, by decide +kernel⟩
  · exact ⟨0, { base with regs := [(Reg.HB_ACW_W_R0 63, 0x800)] }, _, .host 0, 63, rfl, by decide +kernel⟩

/-- Every clause of ForerunnerWindow has a state and operands that meet its premises. -/
theorem witness_ForerunnerWindow :
    (∃ dt, ∃ s e : State, ∃ a, s.elapse dt = e ∧ e.boot.up = true ∧ e.isFrozen (.host 7) = false ∧ e.frw.first = none ∧ a ∉ [0x09,
      0x0A, 0x0C, 0x0D]) ∧
    (∃ dt, ∃ s e : State, s.elapse dt = e ∧ e.boot.up = true ∧ e.isFrozen (.host 7) = true) ∧
    (∃ dt, ∃ s e : State, s.elapse dt = e ∧ e.boot.up = true ∧ e.isFrozen (.host 7) = false ∧ e.frmOn = false ∧ e.frw.first = none) ∧
    (∃ dt, ∃ s e : State, s.elapse dt = e ∧ e.boot.up = true ∧ e.isFrozen (.host 7) = false ∧ e.frmOn = true ∧ e.frw.first = none) ∧
    (∃ dt, ∃ s e : State, ∃ v : Byte, ∃ t0, s.elapse dt = e ∧ e.boot.up = true ∧ e.fdUp = true ∧ e.isFrozen (.host 7) = false ∧
      e.frmOn = true ∧ e.frwOwner = true ∧ e.frw.first = some (0x10, v.toNat, t0) ∧ e.tc.now ≤ t0 + 10000000 ∧ 1 ≤ v.toNat ∧ v.toNat
      ≤ 32 ∧ bitOf (e.reg (Reg.FD_WSC_CFG2 (2 * (v.toNat - 1)))) 16 = false ∧ (e.wsc (2 * (v.toNat - 1))).out = false) ∧
    (∃ dt, ∃ s e : State, ∃ v : Byte, ∃ t0, s.elapse dt = e ∧ e.boot.up = true ∧ e.isFrozen (.host 7) = false ∧ e.frmOn = true ∧
      e.frwOwner = true ∧ e.frw.first = some (0x11, v.toNat, t0) ∧ e.tc.now ≤ t0 + 10000000 ∧ 1 ≤ v.toNat ∧ v.toNat ≤ 32) ∧
    (∃ dt, ∃ s e : State, ∃ v : Byte, ∃ t0, s.elapse dt = e ∧ e.boot.up = true ∧ e.isFrozen (.host 7) = false ∧ e.frmOn = true ∧
      e.frwOwns (frwSection v.toNat) = true ∧ e.frw.first = some (0x12, v.toNat, t0) ∧ e.tc.now ≤ t0 + 10000000 ∧ 1 ≤ v.toNat ∧
      v.toNat ≤ 16) ∧
    (∃ dt, ∃ s e : State, s.elapse dt = e ∧ e.boot.up = true ∧ e.isFrozen (.host 7) = false ∧ e.frmOn = true ∧ e.frw.first = none) ∧
    (∃ dt, ∃ s e : State, ∃ t0, s.elapse dt = e ∧ e.boot.up = true ∧ e.isFrozen (.host 7) = false ∧ e.frmOn = true ∧ e.frw.first =
      none ∧ e.frw.key = some t0 ∧ e.tc.now ≤ t0 + 2000000 ∧ e.frw.rstSel ≠ 0 ∧ e.frwOwns (frwSection e.frw.rstSel) = true ∧
      e.saf.chan.cfg.secUsed (frwSection e.frw.rstSel) = true ∧ e.boot.pwrFail = none) ∧
    (∃ dt, ∃ s e : State, ∃ v : Byte, s.elapse dt = e ∧ e.boot.up = true ∧ e.isFrozen (.host 7) = false ∧ e.frw.first = none ∧ 1 ≤
      v.toNat ∧ v.toNat ≤ 32) ∧
    (∃ dt, ∃ s e : State, ∃ v : Byte, s.elapse dt = e ∧ e.boot.up = true ∧ e.isFrozen (.host 7) = false ∧ e.frw.first = none ∧ 1 ≤
      v.toNat ∧ v.toNat ≤ 16) ∧
    (∃ dt, ∃ s e : State, s.elapse dt = e ∧ e.boot.up = true ∧ e.isFrozen (.host 7) = false ∧ e.frmOn = true ∧ e.frw.first = none ∧
      e.frw.cntLatch = none) ∧
    (∃ dt, ∃ s e : State, ∃ b, s.elapse dt = e ∧ e.boot.up = true ∧ e.isFrozen (.host 7) = false ∧ e.frmOn = true ∧ e.frw.first =
      none ∧ e.frw.cntLatch = some b) ∧
    (∃ dt, ∃ s e : State, s.elapse dt = e ∧ e.boot.up = true ∧ e.isFrozen (.host 7) = false ∧ e.frmOn = true ∧ e.frw.first = none ∧
      e.frw.tsLatch = none) ∧
    (∃ dt, ∃ s e : State, ∃ b, s.elapse dt = e ∧ e.boot.up = true ∧ e.isFrozen (.host 7) = false ∧ e.frmOn = true ∧ e.frw.first =
      none ∧ e.frw.tsLatch = some b) ∧
    (∃ dt, ∃ s e : State, ∃ d c head rest led, s.elapse dt = e ∧ e.fdUp = true ∧ e.mrg.deadB = false ∧ e.links.headers = (d, c,
      head) :: rest ∧ e.ledgerLive = true ∧ tfind e.fds.cycles c = some led) := by
  refine ⟨?_, ?_, ?_, ?_, ?_, ?_, ?_, ?_, ?_, ?_, ?_, ?_, ?_, ?_, ?_, ?_⟩
  · exact ⟨0, base, _, 0, rfl, by decide +kernel⟩
  · exact ⟨0, { base with frozen := [.domain 7] }, _, rfl, by decide +kernel⟩
  · exact ⟨0, base, _, rfl, by decide +kernel⟩
  · exact ⟨0, forerun {}, _, rfl, by decide +kernel⟩
  · exact ⟨0, forerun { first := some (0x10, 1, 0) }, _, 1, 0, rfl, by decide +kernel⟩
  · exact ⟨0, forerun { first := some (0x11, 32, 0) }, _, 32, 0, rfl, by decide +kernel⟩
  · exact ⟨0, forerun { first := some (0x12, 1, 0) }, _, 1, 0, rfl, by decide +kernel⟩
  · exact ⟨0, forerun {}, _, rfl, by decide +kernel⟩
  · exact ⟨0, { forerun { key := some 0, rstSel := 1 } with saf := { chan := { cfg := { secs := [(2032, {})] } } } }, _, 0, rfl,
      by decide +kernel⟩
  · exact ⟨0, base, _, 32, rfl, by decide +kernel⟩
  · exact ⟨0, base, _, 16, rfl, by decide +kernel⟩
  · exact ⟨0, forerun {}, _, rfl, by decide +kernel⟩
  · exact ⟨0, forerun { cntLatch := some 7 }, _, 7, rfl, by decide +kernel⟩
  · exact ⟨0, forerun {}, _, rfl, by decide +kernel⟩
  · exact ⟨0, forerun { tsLatch := some 7 }, _, 7, rfl, by decide +kernel⟩
  · exact ⟨0, { base with links := { headers := [(0, 1, [])] }, fds := { markLate := false, cycles := [(1, {})] } }, _, 0, 1, [],
      [], {}, rfl, by decide +kernel⟩

/-- Every clause of LeaseIsGrantedAndEnds has a state and operands that meet its premises. -/
theorem witness_LeaseIsGrantedAndEnds :
    (∃ dt, ∃ s e : State, ∃ c, s.elapse dt = e ∧ e.hears ⟨0x01, c⟩ = true ∧ e.lease.holder = none ∧ (bucketAt e.lease.tokens
      e.lease.tokenAt e.tc.now 8 1000000000).1 ≠ 0) ∧
    (∃ dt, ∃ s e : State, ∃ c, s.elapse dt = e ∧ e.hears ⟨0x02, c⟩ = true ∧ e.lease.holder = some c.dom) ∧
    (∃ dt, ∃ s e : State, ∃ c h, s.elapse dt = e ∧ e.hears ⟨0x03, c⟩ = true ∧ e.dev = .maintenance ∧ e.lease.holder = some h) ∧
    (∃ dt, ∃ s e : State, ∃ d, ∃ v : Word, s.elapse dt = e ∧ e.boot.up = true ∧ e.mayWrite (.host d) Reg.HB_LEASE_RENEW = true ∧
      e.lease.holder = some d ∧ BitVec.toNat v = e.leaseEpoch ∧ e.lease.renewed + 10000000 ≤ e.tc.now ∧ e.tc.now ≤ e.lease.renewed +
      250000000) ∧
    (∃ dt, ∃ s e : State, ∃ h, s.elapse dt = e ∧ e.boot.up = true ∧ e.lease.holder = some h ∧ e.lease.grace = false ∧
      e.lease.renewed + 200000000 ≤ e.tc.now) ∧
    (∃ dt, ∃ s e : State, ∃ h, s.elapse dt = e ∧ e.boot.up = true ∧ e.lease.holder = some h ∧ e.lease.renewed + 250000000 <
      e.tc.now) ∧
    (∃ dt, ∃ s e : State, ∃ o r, s.elapse dt = e ∧ recordClean r = true ∧ e.hears (recordCmd o r) = true) := by
  refine ⟨?_, ?_, ?_, ?_, ?_, ?_, ?_⟩
  · exact ⟨0, { serving with lease := {} }, _, cmd, rfl, by decide +kernel⟩
  · exact ⟨0, serving, _, cmd, rfl, by decide +kernel⟩
  · exact ⟨0, { serving with dev := .maintenance }, _, cmd, 0, rfl, by decide +kernel⟩
  · exact ⟨0, { serving with tc := { now := 10000000 } }, _, 0, 0, rfl, by decide +kernel⟩
  · exact ⟨0, { serving with tc := { now := 200000000 } }, _, 0, rfl, by decide +kernel⟩
  · exact ⟨0, { serving with tc := { now := 250000001 } }, _, 0, rfl, by decide +kernel⟩
  · exact ⟨0, serving, _, .ring 0, [1], rfl, by decide +kernel⟩

/-- Every clause of SectionCommands has a state and operands that meet its premises. -/
theorem witness_SectionCommands :
    (∃ dt, ∃ s e : State, ∃ c n, s.elapse dt = e ∧ e.hears ⟨0x10, c⟩ = true ∧ e.fenced ⟨0x10, c⟩ = true ∧ n = QueuedCmd.section
      ⟨0x10, c⟩ ∧ e.saf.running = true ∧ e.serving = true ∧ e.frwOwns n = false ∧ ((e.saf.chan.sec n).st = .disturbed ∨
      (e.saf.chan.sec n).st = .pending) ∧ e.saf.chan.headFaulty n = false) ∧
    (∃ dt, ∃ s e : State, ∃ c n k x, s.elapse dt = e ∧ e.hears ⟨0x11, c⟩ = true ∧ e.fenced ⟨0x11, c⟩ = true ∧ n = QueuedCmd.section
      ⟨0x11, c⟩ ∧ e.saf.running = true ∧ e.serving = true ∧ e.frwOwns n = false ∧ (e.saf.chan.sec n).st = .disturbed ∧
      e.saf.chan.headFaulty n = false ∧ e.saf.chan.headHolding n = false ∧ (e.saf.chan.cfg.sec n).rstin = some k ∧ tfind
      e.saf.chan.edges k = some x ∧ near10 x e.tc.now = true) ∧
    (∃ dt, ∃ s e : State, ∃ c n k, s.elapse dt = e ∧ e.hears ⟨0x11, c⟩ = true ∧ e.fenced ⟨0x11, c⟩ = true ∧ n = QueuedCmd.section
      ⟨0x11, c⟩ ∧ e.saf.running = true ∧ e.serving = true ∧ e.frwOwns n = false ∧ (e.saf.chan.sec n).st = .disturbed ∧
      e.saf.chan.headFaulty n = false ∧ e.saf.chan.headHolding n = false ∧ (e.saf.chan.cfg.sec n).rstin = some k ∧ (∀ x, tfind
      e.saf.chan.edges k = some x → near10 x e.tc.now = false)) ∧
    (∃ dt, ∃ s e : State, ∃ c n, s.elapse dt = e ∧ e.hears ⟨0x12, c⟩ = true ∧ n = QueuedCmd.section ⟨0x12, c⟩ ∧ e.saf.running = true
      ∧ (e.serving = true ∨ e.dev = .maintenance) ∧ (e.saf.chan.sec n).st ≠ .blocked) ∧
    (∃ dt, ∃ s e : State, ∃ c n, s.elapse dt = e ∧ e.hears ⟨0x13, c⟩ = true ∧ n = QueuedCmd.section ⟨0x13, c⟩ ∧ e.saf.running = true
      ∧ (e.serving = true ∨ e.dev = .maintenance) ∧ e.commitHolds n = false ∧ (e.saf.chan.sec n).st = .blocked ∧ ((e.saf.chan.sec
      n).commit = true ∨ (e.saf.chan.sec n).recorded ≠ 0)) ∧
    (∃ dt, ∃ s e : State, ∃ c n, s.elapse dt = e ∧ e.hears ⟨0x13, c⟩ = true ∧ n = QueuedCmd.section ⟨0x13, c⟩ ∧ e.saf.running = true
      ∧ (e.serving = true ∨ e.dev = .maintenance) ∧ e.commitHolds n = false ∧ (e.saf.chan.sec n).st = .blocked ∧ (e.saf.chan.sec
      n).commit = false ∧ (e.saf.chan.sec n).recorded = 0) := by
  refine ⟨?_, ?_, ?_, ?_, ?_, ?_⟩
  · exact ⟨0, serving, _, cmd [1, 0], 1, rfl, by decide +kernel⟩
  · exact ⟨0, inSection {} (some 0) [(0, 0)], _, cmd [1, 0], 1, 0, 0, rfl, by decide +kernel⟩
  · exact ⟨0, inSection {} (some 0), _, cmd [1, 0], 1, 0, rfl, by decide +kernel⟩
  · exact ⟨0, serving, _, cmd [1, 0], 1, rfl, by decide +kernel⟩
  · exact ⟨0, inSection { st := .blocked, recorded := 1 }, _, cmd [1, 0], 1, rfl, by decide +kernel⟩
  · exact ⟨0, inSection { st := .blocked }, _, cmd [1, 0], 1, rfl, by decide +kernel⟩

/-- Every clause of DeviceCommands has a state and operands that meet its premises. -/
theorem witness_DeviceCommands :
    (∃ dt, ∃ s e : State, ∃ c k, s.elapse dt = e ∧ e.hears ⟨0x14, c⟩ = true ∧ e.fenced ⟨0x14, c⟩ = true ∧ k = QueuedCmd.argByte
      ⟨0x14, c⟩ 0 ∧ e.fdUp = true ∧ e.dev = .maintenance ∧ e.fds.first = none ∧ (e.brake k).step = .none ∧ (e.vo (16 + k)).latched =
      [] ∧ e.brakeOn (16 + k) = true ∧ e.applied k = false) ∧
    (∃ dt, ∃ s e : State, ∃ c, s.elapse dt = e ∧ e.hears ⟨0x15, c⟩ = true ∧ e.roleBit c.dom 2 = true ∧ c.epoch = 0 ∧ e.dev =
      .service ∧ e.fdUp = true ∧ e.boot.shaken = true ∧ e.fds.causes = [] ∧ e.fds.first = none) ∧
    (∃ dt, ∃ s e : State, ∃ c, s.elapse dt = e ∧ e.hears ⟨0x20, c⟩ = true ∧ (e.dev = .service ∨ e.dev = .degraded)) ∧
    (∃ dt, ∃ s e : State, ∃ c, s.elapse dt = e ∧ e.hears ⟨0x21, c⟩ = true ∧ e.dev = .maintenance) ∧
    (∃ dt, ∃ s e : State, ∃ c, ∃ who : Frozen, s.elapse dt = e ∧ e.hears ⟨0x30, c⟩ = true ∧ who = QueuedCmd.frozenName ⟨0x30, c⟩ ∧
      e.closedName who = false ∧ (e.maintPwd.check (bytesAt c.args 2 12) e.now false).1 = 0 ∧ who ∈ e.frozen) ∧
    (∃ dt, ∃ s e : State, ∃ c, s.elapse dt = e ∧ e.hears ⟨0x31, c⟩ = true ∧ e.dev = .maintenance ∧ (e.maintPwd.check (bytesAt c.args
      0 12) e.now true).1 = 0) ∧
    (∃ dt, ∃ s e : State, s.elapse dt = e ∧ e.boot.up = true) ∧
    (∃ dt, ∃ s e : State, s.elapse dt = e ∧ e.boot.up = true) ∧
    (∃ dt, ∃ s e : State, s.elapse dt = e ∧ e.boot.up = true ∧ e.boot.pwrFail = none) ∧
    (∃ dt, ∃ s e : State, ∃ c, s.elapse dt = e ∧ e.hears ⟨0x32, c⟩ = true ∧ e.dev = .safeStop ∧ e.fdUp = true) := by
  refine ⟨?_, ?_, ?_, ?_, ?_, ?_, ?_, ?_, ?_, ?_⟩
  · exact ⟨0, { (serving.setReg (Reg.FD_VO_CFG 31) 1).setReg Reg.FD_BRK_CFG 0x8000 with dev := .maintenance }, _, cmd [15], 15, rfl,
      by decide +kernel⟩
  · exact ⟨0, serving, _, cmd, rfl, by decide +kernel⟩
  · exact ⟨0, serving, _, cmd, rfl, by decide +kernel⟩
  · exact ⟨0, { serving with dev := .maintenance }, _, cmd, rfl, by decide +kernel⟩
  · exact ⟨0, { serving.setReg (Reg.HB_HST_ROLE 1) 1 with frozen := [.domain 1], maintPwd := { value := List.replicate 12 0x31 } },
      _, cmd ([0, 1] ++ List.replicate 12 0x31), .domain 1, rfl, by decide +kernel⟩
  · exact ⟨0, { serving with dev := .maintenance }, _, cmd (List.replicate 12 0x30 ++ List.replicate 12 0x31), rfl,
      by decide +kernel⟩
  · exact ⟨0, base, _, rfl, by decide +kernel⟩
  · exact ⟨0, base, _, rfl, by decide +kernel⟩
  · exact ⟨0, base, _, rfl, by decide +kernel⟩
  · exact ⟨0, { serving with dev := .safeStop }, _, cmd, rfl, by decide +kernel⟩

/-- Every clause of StagingProceeds has a state and operands that meet its premises. -/
theorem witness_StagingProceeds :
    (∃ dt, ∃ s e : State, ∃ c, s.elapse dt = e ∧ e.hears ⟨0x40, c⟩ = true ∧ e.str.st = .idle ∧ e.str.sel = none ∧ e.dev ≠ .watch ∧
      e.dev ≠ .safeStop) ∧
    (∃ dt, ∃ s e : State, ∃ m off, s.elapse dt = e ∧ e.boot.up = true ∧ e.closedMaster m = false ∧ e.romFail = false ∧ e.isFrozen m
      = false ∧ e.stageAllowed m = true ∧ off < 65536 ∧ e.str.st = .open) ∧
    (∃ dt, ∃ s e : State, ∃ m off, s.elapse dt = e ∧ e.boot.up = true ∧ e.closedMaster m = false ∧ e.romFail = false ∧ e.isFrozen m
      = false ∧ e.stageAllowed m = true ∧ off < 65536 ∧ e.str.st ≠ .open) ∧
    (∃ dt, ∃ s e : State, ∃ c, s.elapse dt = e ∧ e.hears ⟨0x41, c⟩ = true ∧ e.str.st = .open ∧ e.str.owner = some c.dom) ∧
    (∃ dt, ∃ s e : State, ∃ b : List Byte, s.elapse dt = e ∧ e.boot.up = true ∧ e.str.st = .verifying ∧ b = e.load stagingBase (min
      e.str.verifyLen stagingSize)) ∧
    (∃ dt, ∃ s e : State, ∃ d, s.elapse dt = e ∧ e.boot.up = true ∧ e.str.owner = some d ∧ e.str.used + 600000000000 ≤ e.now ∧
      e.str.st = .open) ∧
    (∃ dt, ∃ s e : State, ∃ c, s.elapse dt = e ∧ e.hears ⟨0x43, c⟩ = true ∧ e.str.owner = some c.dom ∧ e.str.st = .open) ∧
    (∃ dt, ∃ s e : State, ∃ c, s.elapse dt = e ∧ e.hears ⟨0x43, c⟩ = true ∧ e.str.owner = some c.dom ∧ e.str.st = .latched) ∧
    (∃ dt, ∃ s e : State, ∃ c, s.elapse dt = e ∧ e.hears ⟨0x44, c⟩ = true ∧ e.str.st = .idle ∧ e.str.owner = none ∧ e.dev =
      .maintenance ∧ (e.safetyPwd.check (bytesAt c.args 0 12) e.now true).1 = 0 ∧ e.clgFull = false) := by
  refine ⟨?_, ?_, ?_, ?_, ?_, ?_, ?_, ?_, ?_⟩
  · exact ⟨0, serving, _, cmd, rfl, by decide +kernel⟩
  · exact ⟨0, { serving with str := { live := some [], st := .open, owner := some 0 } }, _, .host 0, 65535, rfl, by decide +kernel⟩
  · exact ⟨0, { serving with str := { live := some [], owner := some 0 } }, _, .host 0, 0, rfl, by decide +kernel⟩
  · exact ⟨0, { serving with str := { live := some [], st := .open, owner := some 0 } }, _, cmd [0, 0, 0, 0], rfl,
      by decide +kernel⟩
  · exact ⟨0, { base with str := { st := .verifying } }, _, _, rfl, ⟨by decide, by decide, rfl⟩⟩
  · exact ⟨0, { base with str := { st := .open, owner := some 0 }, now := 600000000000 }, _, 0, rfl, by decide +kernel⟩
  · exact ⟨0, { serving with str := { live := some [], st := .open, owner := some 0 } }, _, cmd, rfl, by decide +kernel⟩
  · exact ⟨0, { serving with str := { live := some [], st := .latched, owner := some 0 } }, _, cmd, rfl, by decide +kernel⟩
  · exact ⟨0, { serving with dev := .maintenance }, _, cmd (List.replicate 12 0x30 ++ List.replicate 12 0x31), rfl,
      by decide +kernel⟩

/-- Every clause of CommitProceeds has a state and operands that meet its premises. -/
theorem witness_CommitProceeds :
    (∃ dt, ∃ s e : State, ∃ c a, s.elapse dt = e ∧ e.hears ⟨0x42, c⟩ = true ∧ a = commitArgs c.args ∧ e.commitBarred c.dom a = none
      ∧ (a.partly = true ∧ ruleError (e.commitFrames false a.units) = none ∨ a.partly = false ∧ (e.commitKeys a).any FrameKey.safety
      = false)) ∧
    (∃ dt, ∃ s e : State, ∃ c a, s.elapse dt = e ∧ e.hears ⟨0x42, c⟩ = true ∧ a = commitArgs c.args ∧ e.commitBarred c.dom a = none
      ∧ a.partly = false ∧ (e.commitKeys a).any FrameKey.safety = true ∧ (e.safetyPwd.check a.pwd e.now false).1 = 0 ∧ e.notBlocked
      (affectedOf e.liveFrames e.stagedFrames) = none ∧ e.clgFull = false) ∧
    (∃ dt, ∃ s e : State, ∃ c a rule fseq, s.elapse dt = e ∧ e.hears ⟨0x42, c⟩ = true ∧ a = commitArgs c.args ∧ e.commitBarred c.dom
      a = none ∧ a.partly = true ∧ ruleError (e.commitFrames false a.units) = some (rule, fseq)) ∧
    (∃ dt, ∃ s e : State, ∃ k c, s.elapse dt = e ∧ e.boot.up = true ∧ e.str.st = .committing ∧ e.str.commit = some c ∧
      c.targets.contains k = true ∧ c.shadows.contains k = false) ∧
    (∃ dt, ∃ s e : State, ∃ k c, s.elapse dt = e ∧ e.boot.up = true ∧ e.str.st = .committing ∧ e.str.commit = some c ∧
      c.targets.contains k = true ∧ c.shadows.contains k = false ∧ (k < 4 → (e.die k).dieFault = false) ∧ e.targetLive k = true) ∧
    (∃ dt, ∃ s e : State, ∃ k c, s.elapse dt = e ∧ e.boot.up = true ∧ e.str.st = .committing ∧ e.str.commit = some c ∧ e.now ≤
      c.since + 250000000 ∧ c.shadows.contains k = true ∧ c.acks.contains k = false ∧ c.targets.all (k :: c.acks).contains = true) ∧
    (∃ dt, ∃ s e : State, ∃ k c, s.elapse dt = e ∧ e.boot.up = true ∧ e.str.st = .committing ∧ e.str.commit = some c ∧ e.now ≤
      c.since + 250000000 ∧ c.shadows.contains k = true ∧ c.acks.contains k = false ∧ c.targets.all (k :: c.acks).contains = false) ∧
    (∃ dt, ∃ s e : State, ∃ c, s.elapse dt = e ∧ e.boot.up = true ∧ e.str.st = .committing ∧ e.str.commit = some c ∧ c.since +
      250000000 < e.now) ∧
    (∃ dt, ∃ s e : State, ∃ c, s.elapse dt = e ∧ e.boot.up = true ∧ e.str.st = .latched ∧ e.str.commit = some c ∧ c.durable = false
      ∧ c.safety = false ∧ c.full = true ∧ e.boot.pwrFail = none) ∧
    (∃ dt, ∃ s e : State, ∃ c, s.elapse dt = e ∧ e.boot.up = true ∧ e.str.st = .latched ∧ e.str.commit = some c ∧ c.safety = true ∧
      c.durable = false ∧ e.boot.pwrFail = none) ∧
    (∃ dt, ∃ s e : State, ∃ c n, s.elapse dt = e ∧ e.boot.up = true ∧ e.str.st = .latched ∧ e.str.commit = some c ∧ c.durable =
      false ∧ n < 3 ∧ e.boot.pwrFail = none) ∧
    (∃ dt, ∃ s e : State, ∃ c, s.elapse dt = e ∧ e.boot.up = true ∧ e.boundaryDue = true ∧ e.str.st = .latched ∧ e.str.commit = some
      c ∧ c.restore = false ∧ c.durable = true ∧ c.full = false) ∧
    (∃ dt, ∃ s e : State, ∃ c, s.elapse dt = e ∧ e.boot.up = true ∧ e.boundaryDue = true ∧ e.str.st = .latched ∧ e.str.commit = some
      c ∧ c.restore = false ∧ c.durable = true ∧ c.full = true) := by
  refine ⟨?_, ?_, ?_, ?_, ?_, ?_, ?_, ?_, ?_, ?_, ?_, ?_, ?_⟩
  · exact ⟨0, { serving with str := { live := some [], st := .verified, owner := some 0 } }, _,
      cmd ([0, 0, 0, 0, 1] ++ List.replicate 39 0), commitArgs ([0, 0, 0, 0, 1] ++ List.replicate 39 0), rfl, by decide +kernel⟩
  · exact ⟨0,
      { serving with str := { live := some [⟨0x42, 1, 4, 0, 1, []⟩], st := .verified, owner := some 0 }, saf := {}, safetyPwd := { value := List.replicate 12 0x31 } },
      _, cmd ([0, 0, 0, 0, 1, 0, 0, 0] ++ List.replicate 12 0x31 ++ List.replicate 24 0),
      commitArgs ([0, 0, 0, 0, 1, 0, 0, 0] ++ List.replicate 12 0x31 ++ List.replicate 24 0), rfl,
      ⟨by decide +kernel, rfl, by decide +kernel, by decide +kernel, by decide +kernel, by decide +kernel, List.find?_eq_none.2 fun _ _ => Bool.false_ne_true, by decide +kernel⟩⟩
  · exact ⟨0, { serving with str := { live := some [], st := .verified, owner := some 0 } }, _,
      cmd ([1, 0, 0, 0, 1] ++ List.replicate 39 0), commitArgs ([1, 0, 0, 0, 1] ++ List.replicate 39 0), 273, 0, rfl,
      by decide +kernel⟩
  · exact ⟨0,
      { base with str := { st := .committing, commit := some ⟨true, {}, 1, false, false, [], 0, 0, 1, 0, [4], [], [], false⟩ } }, _,
      4, ⟨true, {}, 1, false, false, [], 0, 0, 1, 0, [4], [], [], false⟩, rfl, by decide +kernel⟩
  · exact ⟨0,
      { base with str := { st := .committing, commit := some ⟨true, {}, 1, false, false, [], 0, 0, 1, 0, [4], [], [], false⟩ } }, _,
      4, ⟨true, {}, 1, false, false, [], 0, 0, 1, 0, [4], [], [], false⟩, rfl, by decide +kernel⟩
  · exact ⟨0,
      { base with str := { st := .committing, commit := some ⟨true, {}, 1, false, false, [], 0, 0, 1, 0, [4], [4], [], false⟩ } },
      _, 4, ⟨true, {}, 1, false, false, [], 0, 0, 1, 0, [4], [4], [], false⟩, rfl, by decide +kernel⟩
  · exact ⟨0,
      { base with str := { st := .committing, commit := some ⟨true, {}, 1, false, false, [], 0, 0, 1, 0, [4, 5], [4, 5], [], false⟩ } },
      _, 4, ⟨true, {}, 1, false, false, [], 0, 0, 1, 0, [4, 5], [4, 5], [], false⟩, rfl, by decide +kernel⟩
  · exact ⟨0,
      { base with str := { st := .committing, commit := some ⟨true, {}, 1, false, false, [], 0, 0, 1, 0, [4], [], [], false⟩ }, now := 250000001 },
      _, ⟨true, {}, 1, false, false, [], 0, 0, 1, 0, [4], [], [], false⟩, rfl, by decide +kernel⟩
  · exact ⟨0,
      { base with str := { st := .latched, commit := some ⟨true, {}, 1, false, false, [], 0, 0, 1, 0, [4], [], [], false⟩ } }, _,
      ⟨true, {}, 1, false, false, [], 0, 0, 1, 0, [4], [], [], false⟩, rfl, by decide +kernel⟩
  · exact ⟨0,
      { base with str := { st := .latched, commit := some ⟨true, {}, 1, false, true, [], 0, 0, 1, 0, [4], [], [], false⟩ } }, _,
      ⟨true, {}, 1, false, true, [], 0, 0, 1, 0, [4], [], [], false⟩, rfl, by decide +kernel⟩
  · exact ⟨0,
      { base with str := { st := .latched, commit := some ⟨true, {}, 1, false, true, [], 0, 0, 1, 0, [4], [], [], false⟩ } }, _,
      ⟨true, {}, 1, false, true, [], 0, 0, 1, 0, [4], [], [], false⟩, 1, rfl, by decide +kernel⟩
  · exact ⟨0,
      { base with str := { st := .latched, commit := some ⟨false, {}, 1, false, false, [], 0, 0, 1, 0, [4], [], [], true⟩ }, now := 1000000 },
      _, ⟨false, {}, 1, false, false, [], 0, 0, 1, 0, [4], [], [], true⟩, rfl, by decide +kernel⟩
  · exact ⟨0,
      { base with str := { st := .latched, commit := some ⟨true, {}, 1, false, false, [], 0, 0, 1, 0, [4], [], [], true⟩ }, now := 1000000 },
      _, ⟨true, {}, 1, false, false, [], 0, 0, 1, 0, [4], [], [], true⟩, rfl, by decide +kernel⟩

/-- Every clause of EventsSnapshotsRings has a state and operands that meet its premises. -/
theorem witness_EventsSnapshotsRings :
    (∃ dt, ∃ s e : State, ∃ x : DueEntry, ∃ rest, s.elapse dt = e ∧ e.boot.up = true ∧ x.dom < 2 ∧ e.due = x :: rest ∧ e.ringFull
      x.dom Reg.HB_EVR_Q_BASE_LO = false ∧ e.evOver.contains x.dom = false ∧ (e.msixOf x.dom).masked (fld (e.reg (Reg.HB_EVR_ROUTE
      x.src)) 8 6) = true) ∧
    (∃ dt, ∃ s e : State, ∃ x : DueEntry, ∃ rest, s.elapse dt = e ∧ e.boot.up = true ∧ x.dom < 2 ∧ e.due = x :: rest ∧ e.ringFull
      x.dom Reg.HB_EVR_Q_BASE_LO = false ∧ e.evOver.contains x.dom = false ∧ (e.msixOf x.dom).masked (fld (e.reg (Reg.HB_EVR_ROUTE
      x.src)) 8 6) = false) ∧
    (∃ dt, ∃ s e : State, ∃ x : DueEntry, ∃ rest, s.elapse dt = e ∧ e.boot.up = true ∧ x.dom < 2 ∧ e.due = x :: rest ∧ e.ringFull
      x.dom Reg.HB_EVR_Q_BASE_LO = true) ∧
    (∃ dt, ∃ s e : State, ∃ d, s.elapse dt = e ∧ e.boot.up = true ∧ (e.session d).up = true ∧ (e.due.filter fun x => x.dom == d) ≠
      []) ∧
    (∃ dt, ∃ s e : State, ∃ m, s.elapse dt = e ∧ e.boot.up = true ∧ e.mayWrite m Reg.HB_SNAP_CTL = true) ∧
    (∃ dt, ∃ s e : State, ∃ d, s.elapse dt = e ∧ e.boot.up = true ∧ d < 8 ∧ (e.snap d).due = true) ∧
    (∃ dt, ∃ s e : State, ∃ m, s.elapse dt = e ∧ e.boot.up = true ∧ e.mayWrite m Reg.HB_EVR_Q_BASE_LO = true) ∧
    (∃ dt, ∃ s e : State, ∃ m, ∃ v : Word, s.elapse dt = e ∧ e.boot.up = true ∧ e.mayWrite m Reg.HB_EVR_Q_SIZE = true ∧ v.toNat <
      65536) ∧
    (∃ dt, ∃ s e : State, ∃ m, ∃ v : Word, s.elapse dt = e ∧ e.boot.up = true ∧ isPcie m = true ∧ e.mayWrite m Reg.HB_LNK_CMDQ_PROD
      = true ∧ v.toNat < 8192) ∧
    (∃ dt, ∃ s e : State, ∃ d r, s.elapse dt = e ∧ e.fetchable d = true ∧ recordClean r = true ∧ e.hears (recordCmd (.ring d) r) =
      true) ∧
    (∃ dt, ∃ s e : State, ∃ d p, ∃ r : Response, ∃ rest, s.elapse dt = e ∧ e.boot.up = true ∧ e.boot.pwrFail = none ∧
      e.boot.resetDue = none ∧ e.responses = r :: rest ∧ r.dom = d ∧ r.origin = .ring p ∧ p < 2 ∧ e.ringFull p
      Reg.HB_LNK_RSPQ_BASE_LO = false) ∧
    (∃ dt, ∃ s e : State, ∃ d m, ∃ r : Response, ∃ rest, s.elapse dt = e ∧ e.boot.up = true ∧ e.boot.pwrFail = none ∧
      e.boot.resetDue = none ∧ e.responses = r :: rest ∧ r.dom = d ∧ r.origin = .mailbox m) ∧
    (∃ dt, ∃ s e : State, ∃ m, s.elapse dt = e ∧ e.boot.up = true ∧ isPcie m = true ∧ e.mayWrite m Reg.HB_LNK_CMDQ_BASE_LO = true) ∧
    (∃ dt, ∃ s e : State, ∃ m, ∃ v : Word, s.elapse dt = e ∧ e.boot.up = true ∧ isPcie m = true ∧ e.mayWrite m Reg.HB_LNK_TLGQ_SIZE
      = true ∧ v.toNat < 512) ∧
    (∃ dt, ∃ s e : State, ∃ p, s.elapse dt = e ∧ e.boot.up = true ∧ p < 2) ∧
    (∃ dt, ∃ s e : State, ∃ p x n, s.elapse dt = e ∧ e.boot.up = true ∧ p < 2 ∧ e.isFrozen (.host p) = false ∧ x % 4 = 0 ∧ x < 0x400
      ∧ n = x / 16) ∧
    (∃ dt, ∃ s e : State, ∃ p x, s.elapse dt = e ∧ e.boot.up = true ∧ p < 2 ∧ x % 4 = 0 ∧ x < 0x4000 ∧ (0x400 ≤ x ∨ e.isFrozen
      (.host p) = true)) ∧
    (∃ dt, ∃ s e : State, ∃ p x, s.elapse dt = e ∧ e.boot.up = true ∧ p < 2 ∧ x % 4 = 0 ∧ x < 0x4000 ∧ e.isFrozen (.host p) = false) ∧
    (∃ dt, ∃ s e : State, ∃ p, s.elapse dt = e ∧ e.boot.up = true ∧ p < 2) ∧
    (∃ dt, ∃ s e : State, s.elapse dt = e ∧ e.mayWrite (.host 7) Reg.HB_LNK_MBOX_CTL = true ∧ e.links.mboxBusy = false ∧ recordClean
      e.mboxRecord = true ∧ e.hears (recordCmd (.mailbox (.host 7)) e.mboxRecord) = true) ∧
    (∃ dt, ∃ s e : State, s.elapse dt = e ∧ e.boot.up = true ∧ e.mayWrite (.host 7) Reg.HB_LNK_MBOX_CTL = true ∧ e.links.mboxBusy =
      true) := by
  refine ⟨?_, ?_, ?_, ?_, ?_, ?_, ?_, ?_, ?_, ?_, ?_, ?_, ?_, ?_, ?_, ?_, ?_, ?_, ?_, ?_, ?_⟩
  · exact ⟨0, { base.setMreg (.host 1) Reg.HB_EVR_Q_SIZE 4 with due := [⟨1, 3, 0, 0, 0⟩] }, _, ⟨1, 3, 0, 0, 0⟩, [], rfl,
      by decide +kernel⟩
  · exact ⟨0,
      { base.setMreg (.host 1) Reg.HB_EVR_Q_SIZE 4 with due := [⟨1, 3, 0, 0, 0⟩], links := { msix := [(1, { table := [(3, 0)] })] } },
      _, ⟨1, 3, 0, 0, 0⟩, [], rfl, by decide +kernel⟩
  · exact ⟨0, { base with due := [⟨1, 3, 0, 0, 0⟩] }, _, ⟨1, 3, 0, 0, 0⟩, [], rfl, by decide +kernel⟩
  · exact ⟨0, { base with due := [⟨2, 3, 0, 0, 0⟩], links := { sessions := [(2, { up := true })] } }, _, 2, rfl, by decide +kernel⟩
  · exact ⟨0, base, _, .host 0, rfl, by decide +kernel⟩
  · exact ⟨0, { base with snaps := [(7, { due := true })] }, _, 7, rfl, by decide +kernel⟩
  · exact ⟨0, base, _, .host 0, rfl, by decide +kernel⟩
  · exact ⟨0, base, _, .host 0, 65535, rfl, by decide +kernel⟩
  · exact ⟨0, base, _, .host 0, 8191, rfl, by decide +kernel⟩
  · exact ⟨0, { own (own serving Reg.HB_LNK_CMDQ_SIZE 4) Reg.HB_LNK_CMDQ_PROD 1 with lease := {} }, _, 0, [1], rfl,
      by decide +kernel⟩
  · exact ⟨0, { own base Reg.HB_LNK_RSPQ_SIZE 4 with responses := [⟨.ring 0, 0, 0, 0, 0, 0, []⟩] }, _, 0, 0,
      ⟨.ring 0, 0, 0, 0, 0, 0, []⟩, [], rfl, by decide +kernel⟩
  · exact ⟨0, { base with responses := [⟨.mailbox (.host 7), 7, 0, 0, 0, 0, []⟩] }, _, 7, .host 7,
      ⟨.mailbox (.host 7), 7, 0, 0, 0, 0, []⟩, [], rfl, by decide +kernel⟩
  · exact ⟨0, base, _, .host 0, rfl, by decide +kernel⟩
  · exact ⟨0, base, _, .host 0, 511, rfl, by decide +kernel⟩
  · exact ⟨0, { base with responses := [⟨.ring 1, 1, 0, 0, 0, 0, []⟩] }, _, 1, rfl, by decide +kernel⟩
  · exact ⟨0, base, _, 1, 1020, 63, rfl, by decide +kernel⟩
  · exact ⟨0, base, _, 0, 1024, rfl, by decide +kernel⟩
  · exact ⟨0, base, _, 0, 4, rfl, by decide +kernel⟩
  · exact ⟨0, base, _, 1, rfl, by decide +kernel⟩
  · exact ⟨0, { (serving.setReg (Reg.HB_HST_ROLE 7) 0x1F).setMreg (.host 7) (Reg.HB_LNK_MBOX 0) 1 with lease := {} }, _, rfl,
      by decide +kernel⟩
  · exact ⟨0, { base with links := { mboxBusy := true } }, _, rfl, by decide +kernel⟩

/-- Every clause of VitalTelegrams has a state and operands that meet its premises. -/
theorem witness_VitalTelegrams :
    (∃ dt, ∃ s e : State, ∃ d, s.elapse dt = e ∧ e.boot.up = true ∧ e.telegramFor d = true ∧ e.codePValid = true ∧ e.saf.sentCycle =
      e.saf.cycle ∧ e.saf.cycle % max 1 (fld (e.reg Reg.HB_LNK_TLG_CFG) 0 7) = 0 ∧ tfind e.links.formed d ≠ some e.saf.cycle ∧ tfind
      e.links.telegrams d = none ∧ e.fdUp = true ∧ e.boot.shaken = true ∧ e.mrg.deadB = false) ∧
    (∃ dt, ∃ s e : State, ∃ d c h x p rest, s.elapse dt = e ∧ e.boot.up = true ∧ e.mrg.deadB = false ∧ d < 2 ∧ e.links.codes = (d,
      c, some h) :: rest ∧ tfind e.links.telegrams d = some x ∧ x.cycle = c ∧ x.codeP = some p ∧ e.ringSize d
      Reg.HB_LNK_TLGQ_BASE_LO ≠ 0) ∧
    (∃ dt, ∃ s e : State, ∃ d c h x p rest, s.elapse dt = e ∧ e.boot.up = true ∧ e.mrg.deadB = false ∧ 2 ≤ d ∧ e.links.codes = (d,
      c, some h) :: rest ∧ tfind e.links.telegrams d = some x ∧ x.cycle = c ∧ x.codeP = some p ∧ (e.session d).up = true) ∧
    (∃ dt, ∃ s e : State, ∃ d x p, s.elapse dt = e ∧ e.boot.up = true ∧ d < 2 ∧ tfind e.links.telegrams d = some x ∧ x.codeP = some
      p ∧ 10 * x.since + 9 * e.cycleLen ≤ 10 * e.now ∧ e.ringSize d Reg.HB_LNK_TLGQ_BASE_LO ≠ 0) := by
  refine ⟨?_, ?_, ?_, ?_⟩
  · exact ⟨0, serving, _, 0, rfl, by decide +kernel⟩
  · exact ⟨0,
      { own base Reg.HB_LNK_TLGQ_SIZE 4 with links := { codes := [(0, 1, some 5)], telegrams := [(0, ⟨1, 0, [], some 0⟩)] } }, _, 0,
      1, 5, ⟨1, 0, [], some 0⟩, 0, [], rfl, by decide +kernel⟩
  · exact ⟨0,
      { base with links := { codes := [(2, 1, some 5)], telegrams := [(2, ⟨1, 0, [], some 0⟩)], sessions := [(2, { up := true })] } },
      _, 2, 1, 5, ⟨1, 0, [], some 0⟩, 0, [], rfl, by decide +kernel⟩
  · exact ⟨0, { own base Reg.HB_LNK_TLGQ_SIZE 4 with links := { telegrams := [(0, ⟨1, 0, [], some 0⟩)] }, now := 900000 }, _, 0,
      ⟨1, 0, [], some 0⟩, 0, rfl, by decide +kernel⟩

/-- Every clause of SessionsAndSpi has a state and operands that meet its premises. -/
theorem witness_SessionsAndSpi :
    (∃ dt, ∃ s e : State, ∃ p src sport b d m, s.elapse dt = e ∧ e.boot.up = true ∧ bitOf (e.reg (Reg.HB_NET_CFG p)) 0 = true ∧
      ((e.ethPort p).tick e.now).count ≤ 20000 ∧ e.boundDomain p src sport = some d ∧ readEnvelope p b = some m ∧ leNat (bytesAt b 5
      3) = 0 ∧ m.type ≠ 0x10 ∧ m.type ≠ 0x13 ∧ (e.session d).up = true ∧ m.session = (e.session d).num) ∧
    (∃ dt, ∃ s e : State, ∃ p src sport, s.elapse dt = e ∧ e.boot.up = true ∧ p < 2 ∧ bitOf (e.reg (Reg.HB_NET_CFG p)) 0 = true ∧
      ((e.ethPort p).tick e.now).count ≤ 20000 ∧ e.boundDomain p src sport = none) ∧
    (∃ dt, ∃ s e : State, ∃ d m rest, s.elapse dt = e ∧ e.boot.up = true ∧ tget e.links.inbox [] d = m :: rest ∧ m.type = 0x10 ∧
      (e.session d).up = false) ∧
    (∃ dt, ∃ s e : State, ∃ d m rest, s.elapse dt = e ∧ e.boot.up = true ∧ tget e.links.inbox [] d = m :: rest ∧ m.type = 0x12 ∧
      e.current d m = true) ∧
    (∃ dt, ∃ s e : State, ∃ d, s.elapse dt = e ∧ e.boot.up = true ∧ (e.session d).up = true ∧ (e.session d).rxAt + 500000000 <
      e.now) ∧
    (∃ dt, ∃ s e : State, ∃ d, s.elapse dt = e ∧ e.boot.up = true ∧ (e.session d).up = true ∧ (e.session d).txAt + 100000000 ≤
      e.now) ∧
    (∃ dt, ∃ s e : State, ∃ d m rest, s.elapse dt = e ∧ tget e.links.inbox [] d = m :: rest ∧ m.type = 0x20 ∧ e.current d m = true ∧
      (e.session d).high < m.mseq ∧ recordClean m.body = true ∧ e.hears (recordCmd (.session d m.mseq) m.body) = true) ∧
    (∃ dt, ∃ s e : State, ∃ d m e1 off, s.elapse dt = e ∧ e.boot.up = true ∧ e.sessionTake d 0x30 = (e1, some m) ∧ accessOf m = some
      (off, 1) ∧ e1.mayRead (.host d) off = true) ∧
    (∃ dt, ∃ s e : State, ∃ d m e1, s.elapse dt = e ∧ e.boot.up = true ∧ e.sessionTake d 0x30 = (e1, some m) ∧ accessOf m = none) ∧
    (∃ dt, ∃ s e : State, ∃ d m e1 e2 off, s.elapse dt = e ∧ e.boot.up = true ∧ e.sessionTake d 0x32 = (e1, some m) ∧ accessOf m =
      some (off, 1) ∧ m.body.length = 12 ∧ e1.busWrite (.host d) off (lo32 (beNat (bytesAt m.body 8 4))) true = some (e2, false)) ∧
    (∃ dt, ∃ s e : State, ∃ p link, s.elapse dt = e ∧ e.boot.up = true ∧ link ≠ (e.ethPort p).link ∧ bitOf (e.reg (Reg.HB_NET_CFG
      p)) 0 = true ∧ (link = 1 → bitOf (e.reg (Reg.HB_NET_CFG p)) 1 = true)) ∧
    (∃ dt, ∃ s e : State, ∃ p, s.elapse dt = e ∧ e.boot.up = true ∧ (e.ethPort p).second = e.now / 1000000000 ∧ (e.ethPort p).link ≠
      0 ∧ (e.ethPort p).echoes < 10) ∧
    (∃ dt, ∃ s e : State, ∃ p, s.elapse dt = e ∧ e.boot.up = true ∧ (e.ethPort p).link ≠ 0 ∧ bitOf (e.reg (Reg.HB_NET_CFG p)) 18 =
      true) ∧
    (∃ dt, ∃ s e : State, ∃ off, s.elapse dt = e ∧ e.boot.up = true ∧ spiOk off = true ∧ e.mayRead (.host 7) off = true) ∧
    (∃ dt, ∃ s e : State, ∃ off, s.elapse dt = e ∧ e.boot.up = true ∧ spiOk off = false) ∧
    (∃ dt, ∃ s e : State, ∃ off v t, s.elapse dt = e ∧ e.boot.up = true ∧ spiOk off = true ∧ e.busWrite (.host 7) off v true = some
      (t, false)) ∧
    (∃ dt, ∃ s e : State, ∃ off, s.elapse dt = e ∧ e.boot.up = true ∧ spiOk off = false) := by
  refine ⟨?_, ?_, ?_, ?_, ?_, ?_, ?_, ?_, ?_, ?_, ?_, ?_, ?_, ?_, ?_, ?_, ?_⟩
  · exact ⟨0,
      { ((base.setReg (Reg.HB_NET_CFG 0) 1).setReg (Reg.HB_NET_BIND 0) 0x93).setReg (Reg.HB_NET_PEER_V4 0) 7 with links := { sessions := [(2, { up := true })] } },
      _, 0, 7, 9, [0x12, 3, 0, 16, 0, 0, 0, 0, 0, 0, 0, 0, 0, 0, 0, 1], 2, ⟨0, 0x12, 0, 1, []⟩, rfl, by decide +kernel⟩
  · exact ⟨0, base.setReg (Reg.HB_NET_CFG 1) 1, _, 1, 7, 9, rfl, by decide +kernel⟩
  · exact ⟨0, { base with links := { inbox := [(2, [⟨0, 0x10, 0, 1, []⟩])] } }, _, 2, ⟨0, 0x10, 0, 1, []⟩, [], rfl,
      by decide +kernel⟩
  · exact ⟨0, talking ⟨0, 0x12, 0, 1, []⟩, _, 2, ⟨0, 0x12, 0, 1, []⟩, [], rfl, by decide +kernel⟩
  · exact ⟨0, { talking ⟨0, 0x12, 0, 1, []⟩ with now := 500000001 }, _, 2, rfl, by decide +kernel⟩
  · exact ⟨0, { talking ⟨0, 0x12, 0, 1, []⟩ with now := 100000000 }, _, 2, rfl, by decide +kernel⟩
  · exact ⟨0, talking ⟨0, 0x20, 0, 1, [1]⟩, _, 2, ⟨0, 0x20, 0, 1, [1]⟩, [], rfl, by decide +kernel⟩
  · exact ⟨0, talking ⟨0, 0x30, 0, 1, (leBytes 4 Reg.HB_TC_CTL).reverse ++ [0, 1, 0, 0]⟩, _, 2,
      ⟨0, 0x30, 0, 1, (leBytes 4 Reg.HB_TC_CTL).reverse ++ [0, 1, 0, 0]⟩, _, Reg.HB_TC_CTL, rfl,
      ⟨by decide, rfl, by decide +kernel, by decide +kernel⟩⟩
  · exact ⟨0, talking ⟨0, 0x30, 0, 1, []⟩, _, 2, ⟨0, 0x30, 0, 1, []⟩, _, rfl, ⟨by decide, rfl, by decide +kernel⟩⟩
  · exact ⟨0, talking ⟨0, 0x32, 0, 1, (leBytes 4 Reg.HB_TC_CTL).reverse ++ [0, 1, 0, 0, 0, 0, 0, 0]⟩, _, 2,
      ⟨0, 0x32, 0, 1, (leBytes 4 Reg.HB_TC_CTL).reverse ++ [0, 1, 0, 0, 0, 0, 0, 0]⟩, _, _, Reg.HB_TC_CTL, rfl,
      ⟨by decide, rfl, by decide +kernel, by decide +kernel, rfl⟩⟩
  · exact ⟨0, base.setReg (Reg.HB_NET_CFG 0) 1, _, 0, 2, rfl, by decide +kernel⟩
  · exact ⟨0, { base with links := { eth := [(0, { link := 2 })] } }, _, 0, rfl, by decide +kernel⟩
  · exact ⟨0, { base.setReg (Reg.HB_NET_CFG 0) 0x40000 with links := { eth := [(0, { link := 2 })] } }, _, 0, rfl,
      by decide +kernel⟩
  · exact ⟨0, base, _, Reg.HB_TC_CTL, rfl, by decide +kernel⟩
  · exact ⟨0, base, _, 1, rfl, by decide +kernel⟩
  · exact ⟨0, base, _, Reg.HB_TC_CTL, 0, _, rfl, ⟨by decide, by decide, rfl⟩⟩
  · exact ⟨0, base, _, 0x400000, rfl, by decide +kernel⟩

/-- Every clause of StoreAndLogs has a state and operands that meet its premises. -/
theorem witness_StoreAndLogs :
    (∃ dt, ∃ s e : State, s.elapse dt = e ∧ e.boot.up = true ∧ e.tokensAt + 100000000 ≤ e.now) ∧
    (∃ dt, ∃ s e : State, ∃ m, s.elapse dt = e ∧ e.boot.up = true ∧ e.mayWrite m Reg.HB_JNL_CURSOR_HI = true) ∧
    (∃ dt, ∃ s e : State, ∃ m, s.elapse dt = e ∧ e.boot.up = true ∧ e.mayWrite m Reg.HB_JNL_CURSOR_LO = true) ∧
    (∃ dt, ∃ s e : State, ∃ m x, s.elapse dt = e ∧ e.boot.up = true ∧ e.mayRead m (Reg.HB_JNL_ENTRY 0) = true ∧ (e.jCursor m).pos ≤
      e.jnlHead ∧ e.jnlTail ≤ (e.jCursor m).pos ∧ e.journal.find? (fun y => y.seq == (e.jCursor m).pos) = some x ∧ x.sound = true) ∧
    (∃ dt, ∃ s e : State, ∃ m, s.elapse dt = e ∧ e.boot.up = true ∧ e.mayRead m (Reg.HB_JNL_ENTRY 0) = true ∧ e.jnlHead < (e.jCursor
      m).pos) ∧
    (∃ dt, ∃ s e : State, ∃ m, s.elapse dt = e ∧ e.boot.up = true ∧ e.mayRead m (Reg.HB_JNL_ENTRY 7) = true) ∧
    (∃ dt, ∃ s e : State, ∃ m, s.elapse dt = e ∧ e.boot.up = true ∧ e.mayWrite m Reg.HB_CLG_CURSOR_HI = true) ∧
    (∃ dt, ∃ s e : State, ∃ m, s.elapse dt = e ∧ e.boot.up = true ∧ e.mayWrite m Reg.HB_CLG_CURSOR_LO = true) ∧
    (∃ dt, ∃ s e : State, ∃ m x, s.elapse dt = e ∧ e.boot.up = true ∧ e.mayRead m (Reg.HB_CLG_ENTRY 0) = true ∧ (e.cCursor m).pos ≤
      e.clgLast ∧ e.clgFirst ≤ (e.cCursor m).pos ∧ e.clog.find? (fun y => y.seq == (e.cCursor m).pos) = some x ∧ x.sound = true) ∧
    (∃ dt, ∃ s e : State, ∃ m, s.elapse dt = e ∧ e.boot.up = true ∧ e.mayRead m (Reg.HB_CLG_ENTRY 0) = true ∧ e.clgLast < (e.cCursor
      m).pos) ∧
    (∃ dt, ∃ s e : State, ∃ m, s.elapse dt = e ∧ e.boot.up = true ∧ e.mayRead m (Reg.HB_CLG_ENTRY 31) = true) ∧
    (∃ dt, ∃ s e : State, ∃ c x, s.elapse dt = e ∧ e.hears ⟨0x50, c⟩ = true ∧ e.ackAllowed = true ∧ e.ackEntry ⟨0x50, c⟩ = some x ∧
      (e.maintPwd.check (bytesAt c.args 24 12) e.now false).1 = 0) ∧
    (∃ dt, ∃ s e : State, ∃ c, s.elapse dt = e ∧ e.hears ⟨0x60, c⟩ = true ∧ e.dev = .maintenance ∧ e.calStoreOk = true ∧
      e.bankWriting = none) := by
  refine ⟨?_, ?_, ?_, ?_, ?_, ?_, ?_, ?_, ?_, ?_, ?_, ?_, ?_⟩
  · exact ⟨0, { base with now := 100000000 }, _, rfl, by decide +kernel⟩
  · exact ⟨0, base, _, .host 0, rfl, by decide +kernel⟩
  · exact ⟨0, base, _, .host 0, rfl, by decide +kernel⟩
  · exact ⟨0, { base.setJCursor (.host 0) { pos := 1 } with journal := [⟨1, 0, 0, 0, 0, 0, 0, true⟩], jseq := 1 }, _, .host 0,
      ⟨1, 0, 0, 0, 0, 0, 0, true⟩, rfl, by decide +kernel⟩
  · exact ⟨0, base.setJCursor (.host 0) { pos := 1 }, _, .host 0, rfl, by decide +kernel⟩
  · exact ⟨0, base, _, .host 0, rfl, by decide +kernel⟩
  · exact ⟨0, base, _, .host 0, rfl, by decide +kernel⟩
  · exact ⟨0, base, _, .host 0, rfl, by decide +kernel⟩
  · exact ⟨0, { base.setCCursor (.host 0) { pos := 1 } with clog := [⟨1, [], true⟩], clgLast := 1 }, _, .host 0, ⟨1, [], true⟩, rfl,
      by decide +kernel⟩
  · exact ⟨0, base.setCCursor (.host 0) { pos := 1 }, _, .host 0, rfl, by decide +kernel⟩
  · exact ⟨0, base, _, .host 0, rfl, by decide +kernel⟩
  · exact ⟨0,
      { serving with clog := [⟨1, List.replicate 128 0, true⟩], clgLast := 1, maintPwd := { value := List.replicate 12 0x31 } }, _,
      cmd ([1] ++ List.replicate 23 0 ++ List.replicate 12 0x31), ⟨1, List.replicate 128 0, true⟩, rfl, by decide +kernel⟩
  · exact ⟨0, { serving with dev := .maintenance }, _, cmd, rfl, by decide +kernel⟩

/-- Every clause of DmaRunsAndEnds has a state and operands that meet its premises. -/
theorem witness_DmaRunsAndEnds :
    (∃ dt, ∃ s e : State, ∃ m k c, s.elapse dt = e ∧ e.boot.up = true ∧ k < 6 ∧ c < 16 ∧ e.mayWrite m (Reg.HB_DMA_DBELL k) = true ∧
      (e.dmaChan k c).st = .idle) ∧
    (∃ dt, ∃ s e : State, ∃ m k c, s.elapse dt = e ∧ e.boot.up = true ∧ k < 6 ∧ c < 16 ∧ e.mayWrite m (Reg.HB_DMA_DBELL k) = true ∧
      (e.dmaChan k c).st ≠ .idle) ∧
    (∃ dt, ∃ s e : State, ∃ k c rest, s.elapse dt = e ∧ e.boot.up = true ∧ (e.eng k).run = none ∧ (e.eng k).queue = c :: rest) ∧
    (∃ dt, ∃ s e : State, ∃ m k c, s.elapse dt = e ∧ e.boot.up = true ∧ k < 6 ∧ c < 16 ∧ e.mayWrite m (Reg.HB_DMA_ABORT k) = true ∧
      (e.dmaChan k c).st = .queued) ∧
    (∃ dt, ∃ s e : State, ∃ m k c r, s.elapse dt = e ∧ e.boot.up = true ∧ k < 6 ∧ c < 16 ∧ e.mayWrite m (Reg.HB_DMA_ABORT k) = true
      ∧ (e.dmaChan k c).st = .running ∧ (e.eng k).run = some r ∧ r.phase = .fetch) ∧
    (∃ dt, ∃ s e : State, ∃ k r b, s.elapse dt = e ∧ e.boot.up = true ∧ e.dmaIns k 6 = some (r, b) ∧ insFlag b 4 = false) ∧
    (∃ dt, ∃ s e : State, ∃ k r res t1, s.elapse dt = e ∧ e.boot.up = true ∧ k < 6 ∧ (e.eng k).run = some r ∧ r.phase = .writeBack
      res ∧ res ≠ 8 ∧ e.dmaPut k r.prog (r.slotBytes res) = (t1, .done) ∧ (t1.eng k).run = some r) ∧
    (∃ dt, ∃ s e : State, ∃ k r b t1, s.elapse dt = e ∧ e.boot.up = true ∧ e.dmaIns k 6 = some (r, b) ∧ insFlag b 4 = true ∧ r.progs
      < 4096 ∧ e.dmaPut k r.prog (r.slotBytes 1) = (t1, .done)) ∧
    (∃ dt, ∃ s e : State, ∃ k r, s.elapse dt = e ∧ e.boot.up = true ∧ (e.eng k).run = some r ∧ r.failed = true) ∧
    (∃ dt, ∃ s e : State, ∃ k r b, s.elapse dt = e ∧ e.boot.up = true ∧ (e.eng k).run = some r ∧ r.failed = true ∧ r.phase = .instr
      b ∧ insOp b ≠ 6 ∧ fld r.cfg 2 4 ≤ r.tries + 1) := by
  refine ⟨?_, ?_, ?_, ?_, ?_, ?_, ?_, ?_, ?_, ?_⟩
  · exact ⟨0, base, _, .host 0, 0, 15, rfl, by decide +kernel⟩
  · exact ⟨0, { base with dma := [(0, { chans := [(15, { st := .running })] })] }, _, .host 0, 0, 15, rfl, by decide +kernel⟩
  · exact ⟨0, { base with dma := [(5, { queue := [1] })] }, _, 5, 1, [], rfl, by decide +kernel⟩
  · exact ⟨0, { base with dma := [(0, { queue := [15], chans := [(15, { st := .queued })] })] }, _, .host 0, 0, 15, rfl,
      by decide +kernel⟩
  · exact ⟨0, running (run .fetch), _, .host 0, 0, 0, run .fetch, rfl, by decide +kernel⟩
  · exact ⟨0, running (run (.instr (ins [6]))), _, 0, run (.instr (ins [6])), ins [6], rfl, by decide +kernel⟩
  · exact ⟨0, running (run (.writeBack 1)), _, 0, run (.writeBack 1), 1, _, rfl,
      ⟨by decide, by decide, rfl, rfl, by decide, rfl, by decide +kernel⟩⟩
  · exact ⟨0, running (run (.instr (ins [0x16]))), _, 0, run (.instr (ins [0x16])), ins [0x16], _, rfl,
      ⟨by decide, rfl, by decide, by decide, rfl⟩⟩
  · exact ⟨0, running { run .fetch with failed := true }, _, 0, { run .fetch with failed := true }, rfl, by decide +kernel⟩
  · exact ⟨0, running { run (.instr (ins [1])) with failed := true }, _, 0, { run (.instr (ins [1])) with failed := true }, ins [1],
      rfl, by decide +kernel⟩

/-- Every clause of DmaInstructions has a state and operands that meet its premises. -/
theorem witness_DmaInstructions :
    (∃ dt, ∃ s e : State, ∃ k data r e1 b, s.elapse dt = e ∧ e.boot.up = true ∧ (e.eng k).run = some r ∧ r.failed = false ∧ r.phase
      = .slot ∧ e.dmaRead k r.prog 16 data = (e1, b, .done) ∧ slotClean b = true ∧ 128 ≤ insNat b 3 1) ∧
    (∃ dt, ∃ s e : State, ∃ k data r e1 b, s.elapse dt = e ∧ e.boot.up = true ∧ (e.eng k).run = some r ∧ r.failed = false ∧ r.phase
      = .fetch ∧ r.exec < r.budget ∧ e.dmaRead k r.addr 16 data = (e1, b, .done) ∧ r.valid b = true) ∧
    (∃ dt, ∃ s e : State, ∃ k data r e1 b, s.elapse dt = e ∧ e.boot.up = true ∧ (e.eng k).run = some r ∧ r.failed = false ∧ r.phase
      = .fetch ∧ r.exec < r.budget ∧ e.dmaRead k r.addr 16 data = (e1, b, .done) ∧ r.valid b = false) ∧
    (∃ dt, ∃ s e : State, ∃ k r, s.elapse dt = e ∧ e.boot.up = true ∧ (e.eng k).run = some r ∧ r.failed = false ∧ r.phase = .fetch ∧
      r.budget ≤ r.exec) ∧
    (∃ dt, ∃ s e : State, ∃ k data r b v, s.elapse dt = e ∧ e.boot.up = true ∧ e.dmaIns k 1 = some (r, b) ∧ Mover.moveBytes k
      (withOffset (insNat b 1 6) (insFlag b 6) r.soff) (withOffset (insNat b 7 6) (insFlag b 7) r.doff) (insNat b 13 3 - r.moved)
      r.moved { s := e, data := data } true = (v, .done) ∧ v.s.standsAt k r = true) ∧
    (∃ dt, ∃ s e : State, ∃ k r b, s.elapse dt = e ∧ e.boot.up = true ∧ e.dmaIns k 2 = some (r, b) ∧ r.stack = [] ∧ 2 ≤ insNat b 4
      4) ∧
    (∃ dt, ∃ s e : State, ∃ k r b x rest, s.elapse dt = e ∧ e.boot.up = true ∧ e.dmaIns k 2 = some (r, b) ∧ r.stack = x :: rest ∧
      x.addr = r.addr ∧ x.left ≤ 1) ∧
    (∃ dt, ∃ s e : State, ∃ k r b, s.elapse dt = e ∧ e.boot.up = true ∧ e.dmaIns k 3 = some (r, b) ∧ insFlag b 4 = false ∧ insNat b
      8 8 ≤ e.tc.now) ∧
    (∃ dt, ∃ s e : State, ∃ k r b, s.elapse dt = e ∧ e.boot.up = true ∧ e.dmaIns k 3 = some (r, b) ∧ insFlag b 4 = false ∧ e.tc.now
      < insNat b 8 8) ∧
    (∃ dt, ∃ s e : State, ∃ k r b t0 n, s.elapse dt = e ∧ e.boot.up = true ∧ (e.eng k).run = some r ∧ r.phase = .wait b t0 n ∧
      insFlag b 4 = true ∧ n < tget e.raised 0 (insNat b 8 8 % 1024)) ∧
    (∃ dt, ∃ s e : State, ∃ k r b t0 n, s.elapse dt = e ∧ e.boot.up = true ∧ (e.eng k).run = some r ∧ r.phase = .wait b t0 n ∧
      e.waitOver b n = false ∧ insNat b 4 4 ≠ 0 ∧ t0 + 1000 * insNat b 4 4 ≤ e.now) ∧
    (∃ dt, ∃ s e : State, ∃ k r b, s.elapse dt = e ∧ e.boot.up = true ∧ e.dmaIns k 4 = some (r, b) ∧ insFlag b 4 = false) ∧
    (∃ dt, ∃ s e : State, ∃ k r b t1, s.elapse dt = e ∧ e.boot.up = true ∧ e.dmaIns k 5 = some (r, b) ∧ e.dmaPut k (withOffset
      (insNat b 1 6) (insFlag b 5) r.doff) (leBytes 4 r.crcOut) = (t1, .done) ∧ t1.standsAt k r = true) := by
  refine ⟨?_, ?_, ?_, ?_, ?_, ?_, ?_, ?_, ?_, ?_, ?_, ?_, ?_⟩
  · exact ⟨0, running (run .slot), _, 0, ins [0, 0, 0, 0x80], run .slot, _, _, rfl,
      ⟨by decide, rfl, rfl, rfl, rfl, by decide, by decide⟩⟩
  · exact ⟨0, running (run .fetch), _, 0, ins [6], run .fetch, _, _, rfl, ⟨by decide, rfl, rfl, rfl, by decide, rfl, by decide⟩⟩
  · exact ⟨0, running (run .fetch), _, 0, ins [0], run .fetch, _, _, rfl, ⟨by decide, rfl, rfl, rfl, by decide, rfl, by decide⟩⟩
  · exact ⟨0, running { run .fetch with exec := 4 }, _, 0, { run .fetch with exec := 4 }, rfl, by decide +kernel⟩
  · exact ⟨0, running (run (.instr ([1, 0, 0, 0, 0, 0, 0x80, 0, 0x10, 0, 0, 0, 0x80, 1, 0, 0]))), _, 0, [5],
      run (.instr ([1, 0, 0, 0, 0, 0, 0x80, 0, 0x10, 0, 0, 0, 0x80, 1, 0, 0])),
      [1, 0, 0, 0, 0, 0, 0x80, 0, 0x10, 0, 0, 0, 0x80, 1, 0, 0], _, rfl, ⟨by decide, rfl, rfl, by decide +kernel⟩⟩
  · exact ⟨0, running { run (.instr (ins [2, 1, 0, 0, 2])) with pc := 32 }, _, 0,
      { run (.instr (ins [2, 1, 0, 0, 2])) with pc := 32 }, ins [2, 1, 0, 0, 2], rfl, by decide +kernel⟩
  · exact ⟨0, running { run (.instr (ins [2, 1, 0, 0, 2])) with pc := 32, stack := [⟨0x800000000020, 1, 0, 0⟩] }, _, 0,
      { run (.instr (ins [2, 1, 0, 0, 2])) with pc := 32, stack := [⟨0x800000000020, 1, 0, 0⟩] }, ins [2, 1, 0, 0, 2],
      ⟨0x800000000020, 1, 0, 0⟩, [], rfl, by decide +kernel⟩
  · exact ⟨0, running (run (.instr (ins [3]))), _, 0, run (.instr (ins [3])), ins [3], rfl, by decide +kernel⟩
  · exact ⟨0, running (run (.instr (ins [3, 0, 0, 0, 0, 0, 0, 0, 1]))), _, 0, run (.instr (ins [3, 0, 0, 0, 0, 0, 0, 0, 1])),
      ins [3, 0, 0, 0, 0, 0, 0, 0, 1], rfl, by decide +kernel⟩
  · exact ⟨0, { running (run (.wait (ins [0x13]) 0 0)) with raised := [(0, 1)] }, _, 0, run (.wait (ins [0x13]) 0 0), ins [0x13], 0,
      0, rfl, by decide +kernel⟩
  · exact ⟨0, { running (run (.wait (ins [0x13, 0, 0, 0, 1]) 0 0)) with now := 1000 }, _, 0,
      run (.wait (ins [0x13, 0, 0, 0, 1]) 0 0), ins [0x13, 0, 0, 0, 1], 0, 0, rfl, by decide +kernel⟩
  · exact ⟨0, running (run (.instr (ins [4]))), _, 0, run (.instr (ins [4])), ins [4], rfl, by decide +kernel⟩
  · exact ⟨0, running (run (.instr (ins [5, 0, 0, 0, 0, 0, 0x80]))), _, 0, run (.instr (ins [5, 0, 0, 0, 0, 0, 0x80])),
      ins [5, 0, 0, 0, 0, 0, 0x80], _, rfl, ⟨by decide, rfl, rfl, by decide +kernel⟩⟩

/-- Every clause of CheckValueUnits has a state and operands that meet its premises. -/
theorem witness_CheckValueUnits :
    (∃ dt, ∃ s e : State, ∃ m u, s.elapse dt = e ∧ e.boot.up = true ∧ 4 ≤ u ∧ u < 8 ∧ e.mayWrite m (Reg.HB_CVU_CTL u) = true ∧ e.reg
      (Reg.HB_CVU_CTL u) &&& 0xFC000033 = 0 ∧ (e.cvUnit u).run = false ∧ (e.cvUnit u).waiting = false ∧ e.cvRefused u = false) ∧
    (∃ dt, ∃ s e : State, ∃ m u, s.elapse dt = e ∧ e.boot.up = true ∧ 4 ≤ u ∧ u < 8 ∧ e.mayWrite m (Reg.HB_CVU_CTL u) = true ∧ e.reg
      (Reg.HB_CVU_CTL u) &&& 0xFC000033 = 0 ∧ (e.cvUnit u).run = false ∧ (e.cvUnit u).waiting = false ∧ e.cvRefused u = true) ∧
    (∃ dt, ∃ s e : State, ∃ m u, s.elapse dt = e ∧ e.boot.up = true ∧ 4 ≤ u ∧ u < 8 ∧ e.mayWrite m (Reg.HB_CVU_CTL u) = true ∧ e.reg
      (Reg.HB_CVU_CTL u) &&& 0xFC000033 = 0 ∧ (e.cvUnit u).run = true) ∧
    (∃ dt, ∃ s e : State, ∃ m u p x, s.elapse dt = e ∧ e.boot.up = true ∧ 4 ≤ u ∧ u < 8 ∧ e.mayWrite m (Reg.HB_CVU_CTL u) = true ∧
      e.reg (Reg.HB_CVU_CTL u) &&& 0xFC000033 = 0 ∧ (e.cvUnit u).run = false ∧ presetOf p = some x) ∧
    (∃ dt, ∃ s e : State, ∃ u, s.elapse dt = e ∧ e.boot.up = true ∧ (e.cvUnit u).waiting = true ∧ e.cvPeriodic u = true ∧ (e.cvUnit
      u).since + e.cvPeriod u ≤ e.now) ∧
    (∃ dt, ∃ s e : State, s.elapse dt = e ∧ e.boot.up = true ∧ (e.cvUnit 3).run = true ∧ (e.cvUnit 3).stale = false) ∧
    (∃ dt, ∃ s e : State, ∃ u, s.elapse dt = e ∧ e.boot.up = true ∧ u < 8 ∧ (e.cvUnit u).run = true ∧ e.cvStale u = true ∧
      e.cvPeriodic u = false) ∧
    (∃ dt, ∃ s e : State, ∃ u, s.elapse dt = e ∧ e.boot.up = true ∧ 4 ≤ u ∧ u < 8 ∧ (e.cvUnit u).run = true ∧ e.cvStale u = false ∧
      e.cvuBlock u = true ∧ (e.blockPass u []).bad = 0) ∧
    (∃ dt, ∃ s e : State, ∃ u b, ∃ chk : DWord, s.elapse dt = e ∧ e.boot.up = true ∧ 8 ≤ u ∧ u < 12 ∧ (e.cvUnit u).run = true ∧ crc
      crc32c (e.snoopFold u ++ b) = BitVec.toNat chk % 2 ^ 32) ∧
    (∃ dt, ∃ s e : State, ∃ u b, ∃ chk : DWord, s.elapse dt = e ∧ e.boot.up = true ∧ 8 ≤ u ∧ u < 12 ∧ (e.cvUnit u).run = true ∧ crc
      crc32c (e.snoopFold u ++ b) ≠ BitVec.toNat chk % 2 ^ 32) := by
  refine ⟨?_, ?_, ?_, ?_, ?_, ?_, ?_, ?_, ?_, ?_⟩
  · exact ⟨0, ((base.setReg (Reg.HB_CVU_START_LO 4) 0x1000000).setReg (Reg.HB_CVU_LENGTH 4) 1).setReg (Reg.HB_CVU_CTL 4) 0x200, _,
      .host 0, 4, rfl, by decide +kernel⟩
  · exact ⟨0, base, _, .host 0, 7, rfl, by decide +kernel⟩
  · exact ⟨0, { base with cvu := [(4, { run := true })] }, _, .host 0, 4, rfl, by decide +kernel⟩
  · exact ⟨0, base, _, .host 0, 7, 1, crc32c, rfl, by decide +kernel⟩
  · exact ⟨0, { base with cvu := [(3, { waiting := true })], now := 10000000000 }, _, 3, rfl, by decide +kernel⟩
  · exact ⟨0, { base with cvu := [(3, { run := true })] }, _, rfl, by decide +kernel⟩
  · exact ⟨0, { base with cvu := [(4, { run := true, stale := true })] }, _, 4, rfl, by decide +kernel⟩
  · exact ⟨0, { base with cvu := [(7, { run := true })] }, _, 7, rfl, by decide +kernel⟩
  · exact ⟨0, { base with cvu := [(9, { run := true })] }, _, 9, [], 0, rfl, by decide +kernel⟩
  · exact ⟨0, { base with cvu := [(9, { run := true })] }, _, 9, [], 1, rfl, by decide +kernel⟩

/-- Every clause of PanelAndChain has a state and operands that meet its premises. -/
theorem witness_PanelAndChain :
    (∃ dt, ∃ s e : State, s.elapse dt = e ∧ e.boot.up = true ∧ e.matrixOn = true ∧ (∀ k, e.panel.frameAt = some k → k + 5000000 ≤
      e.now)) ∧
    (∃ dt, ∃ s e : State, ∃ k, s.elapse dt = e ∧ e.boot.up = true ∧ e.matrixOn = true ∧ e.panel.frameAt = some k ∧ e.now < k +
      5000000) ∧
    (∃ dt, ∃ s e : State, ∃ k r, s.elapse dt = e ∧ e.boot.up = true ∧ e.matrixOn = true ∧ (e.lampTest = true ∨ 31 < e.panel.frame) ∧
      e.panel.frameAt = some k ∧ (e.panel.row = none ∧ r = 0 ∨ e.panel.row.isSome = true ∧ r = e.panel.row.getD 0 + 1) ∧ r ≤ 15 ∧ k
      + 312500 * r ≤ e.now) ∧
    (∃ dt, ∃ s e : State, ∃ sn k r c x, s.elapse dt = e ∧ e.boot.up = true ∧ e.matrixOn = true ∧ e.lampTest = false ∧ e.panel.frame
      = c ∧ c ≤ 31 ∧ e.panel.frameAt = some k ∧ (e.panel.row = none ∧ r = 0 ∨ e.panel.row.isSome = true ∧ r = e.panel.row.getD 0 +
      1) ∧ r ≤ 15 ∧ k + 312500 * r ≤ e.now ∧ x = (if sn = true then (0, min 3 ((tget e.panel.tests (0, 0) (32 * r + c)).2 + 1)) else
      (min 3 ((tget e.panel.tests (0, 0) (32 * r + c)).1 + 1), 0))) ∧
    (∃ dt, ∃ s e : State, ∃ k r, s.elapse dt = e ∧ e.boot.up = true ∧ e.matrixOn = true ∧ e.panel.frameAt = some k ∧ (e.panel.row =
      none ∧ r = 0 ∨ e.panel.row.isSome = true ∧ r = e.panel.row.getD 0 + 1) ∧ e.now < k + 312500 * r) ∧
    (∃ dt, ∃ s e : State, ∃ v, s.elapse dt = e ∧ e.boot.up = true ∧ (∀ k, e.panel.ntcAt = some k → k + 100000000 ≤ e.now) ∧ 3 < v ∧
      v < 1020) ∧
    (∃ dt, ∃ s e : State, ∃ v, s.elapse dt = e ∧ e.boot.up = true ∧ (∀ k, e.panel.ntcAt = some k → k + 100000000 ≤ e.now) ∧ (v ≤ 3 ∨
      1020 ≤ v ∧ v < 1024)) ∧
    (∃ dt, ∃ s e : State, ∃ k, s.elapse dt = e ∧ e.boot.up = true ∧ e.panel.ntcAt = some k ∧ e.now < k + 100000000) ∧
    (∃ dt, ∃ s e : State, ∃ c b, s.elapse dt = e ∧ e.boot.up = true ∧ e.chainOn = true ∧ c = chainCfg (e.reg Reg.HB_PNL_CHAIN_CFG) ∧
      c.2.2 ≠ 0 ∧ e.dev ≠ .watch ∧ (∀ k, e.panel.chainAt = some k → k + c.1 * 1000000 ≤ e.now) ∧ b = ((List.range c.2.2).flatMap fun
      k => beBytes 3 (fld (e.reg (Reg.HB_PNL_CHAIN k)) 0 24))) ∧
    (∃ dt, ∃ s e : State, ∃ c, s.elapse dt = e ∧ e.boot.up = true ∧ e.chainOn = true ∧ c = chainCfg (e.reg Reg.HB_PNL_CHAIN_CFG) ∧
      c.2.2 ≠ 0 ∧ e.dev = .watch ∧ e.panel.blanked = false) := by
  refine ⟨?_, ?_, ?_, ?_, ?_, ?_, ?_, ?_, ?_, ?_⟩
  · exact ⟨0, base.setReg Reg.HB_PNL_CTL 1, _, rfl, ⟨by decide, by decide, (by intro _ h; cases h)⟩⟩
  · exact ⟨0, { base.setReg Reg.HB_PNL_CTL 1 with panel := { frameAt := some 0 }, now := 4999999 }, _, 0, rfl, by decide +kernel⟩
  · exact ⟨0, { base.setReg Reg.HB_PNL_CTL 5 with panel := { frameAt := some 0, row := some 14 }, now := 4687500 }, _, 0, 15, rfl,
      by decide +kernel⟩
  · exact ⟨0, { base.setReg Reg.HB_PNL_CTL 1 with panel := { frameAt := some 0, tests := [(0, (2, 0))] } }, _, false, 0, 0, 0,
      (3, 0), rfl, by decide +kernel⟩
  · exact ⟨0, { base.setReg Reg.HB_PNL_CTL 1 with panel := { frameAt := some 0, row := some 0 }, now := 312499 }, _, 0, 1, rfl,
      by decide +kernel⟩
  · exact ⟨0, base, _, 4, rfl, ⟨by decide, (by intro _ h; cases h), by decide, by decide⟩⟩
  · exact ⟨0, base, _, 1023, rfl, ⟨by decide, (by intro _ h; cases h), by decide⟩⟩
  · exact ⟨0, { base with panel := { ntcAt := some 0 } }, _, 0, rfl, by decide +kernel⟩
  · exact ⟨0, (base.setReg Reg.HB_PNL_CTL 2).setReg Reg.HB_PNL_CHAIN_CFG 0x1000000, _, _, _, rfl,
      ⟨by decide, by decide, rfl, by decide, by decide, (by intro _ h; cases h), rfl⟩⟩
  · exact ⟨0, { (base.setReg Reg.HB_PNL_CTL 2).setReg Reg.HB_PNL_CHAIN_CFG 0x1000000 with dev := .watch }, _, _, rfl,
      ⟨by decide, by decide, rfl, by decide, by decide, by decide⟩⟩

/-- Every clause of PowerFailsAndResets has a state and operands that meet its premises. -/
theorem witness_PowerFailsAndResets :
    (∃ dt, ∃ s e : State, ∃ low, s.elapse dt = e ∧ 10000 ≤ low) ∧
    (∃ dt, ∃ s e : State, ∃ low, s.elapse dt = e ∧ low < 10000) ∧
    (∃ dt, ∃ s e : State, s.elapse dt = e ∧ True) ∧
    (∃ dt, ∃ s e : State, ∃ low, s.elapse dt = e ∧ e.boot.up = true ∧ e.boot.pwrFail = none ∧ 1000 ≤ low) ∧
    (∃ dt, ∃ s e : State, ∃ low, s.elapse dt = e ∧ low < 1000) ∧
    (∃ dt, ∃ s e : State, ∃ k, s.elapse dt = e ∧ e.boot.up = true ∧ e.boot.pwrFail = some k ∧ e.boot.writeProt = false) ∧
    (∃ dt, ∃ s e : State, ∃ k, s.elapse dt = e ∧ e.boot.up = true ∧ e.boot.pwrFail = some k ∧ k + 2000000 ≤ e.now) ∧
    (∃ dt, ∃ s e : State, ∃ high, s.elapse dt = e ∧ e.boot.pfHold = true ∧ 10000000 ≤ high) ∧
    (∃ dt, ∃ s e : State, ∃ high, s.elapse dt = e ∧ high < 10000000) ∧
    (∃ dt, ∃ s e : State, ∃ mv held, s.elapse dt = e ∧ (mv ≤ 4500 ∨ held < 10000000)) ∧
    (∃ dt, ∃ s e : State, ∃ mv held, s.elapse dt = e ∧ e.fdUp = false ∧ 4500 < mv ∧ 10000000 ≤ held) ∧
    (∃ dt, ∃ s e : State, ∃ mv, s.elapse dt = e ∧ 4400 ≤ mv) ∧
    (∃ dt, ∃ s e : State, ∃ mv, s.elapse dt = e ∧ e.fdUp = true ∧ mv < 4400) ∧
    (∃ dt, ∃ s e : State, ∃ c, s.elapse dt = e ∧ e.hears ⟨0x71, c⟩ = true ∧ e.dev = .safeStop ∧ e.fdUp = false) ∧
    (∃ dt, ∃ s e : State, ∃ c, s.elapse dt = e ∧ e.hears ⟨0x71, c⟩ = true ∧ e.dev = .safeStop ∧ e.fdUp = true) ∧
    (∃ dt, ∃ s e : State, ∃ c, s.elapse dt = e ∧ e.hears ⟨0x70, c⟩ = true ∧ (e.dev = .maintenance ∨ e.dev = .safeStop)) ∧
    (∃ dt, ∃ s e : State, ∃ d, ∃ r : Response, ∃ k, s.elapse dt = e ∧ e.boot.up = true ∧ e.boot.pwrFail = none ∧ e.boot.resetDue =
      some k ∧ e.responses = [r] ∧ r.dom = d ∧ r.origin = .mailbox (.host 7)) := by
  refine ⟨?_, ?_, ?_, ?_, ?_, ?_, ?_, ?_, ?_, ?_, ?_, ?_, ?_, ?_, ?_, ?_, ?_⟩
  · exact ⟨0, base, _, 10000, rfl, by decide +kernel⟩
  · exact ⟨0, base, _, 9999, rfl, by decide +kernel⟩
  · exact ⟨0, base, _, rfl, by decide +kernel⟩
  · exact ⟨0, base, _, 1000, rfl, by decide +kernel⟩
  · exact ⟨0, base, _, 999, rfl, by decide +kernel⟩
  · exact ⟨0, { base with boot := { pwrFail := some 0 } }, _, 0, rfl, by decide +kernel⟩
  · exact ⟨0, { base with boot := { pwrFail := some 0 }, now := 2000000 }, _, 0, rfl, by decide +kernel⟩
  · exact ⟨0, { base with boot := { pfHold := true } }, _, 10000000, rfl, by decide +kernel⟩
  · exact ⟨0, base, _, 9999999, rfl, by decide +kernel⟩
  · exact ⟨0, base, _, 4500, 20000000, rfl, by decide +kernel⟩
  · exact ⟨0, { base with fdUp := false }, _, 4501, 10000000, rfl, by decide +kernel⟩
  · exact ⟨0, base, _, 4400, rfl, by decide +kernel⟩
  · exact ⟨0, base, _, 4399, rfl, by decide +kernel⟩
  · exact ⟨0, { serving with dev := .safeStop, fdUp := false }, _, cmd, rfl, by decide +kernel⟩
  · exact ⟨0, { serving with dev := .safeStop }, _, cmd, rfl, by decide +kernel⟩
  · exact ⟨0, { serving with dev := .maintenance }, _, cmd, rfl, by decide +kernel⟩
  · exact ⟨0, { base with boot := { resetDue := some 0 }, responses := [⟨.mailbox (.host 7), 7, 0, 0, 0, 0, []⟩] }, _, 7,
      ⟨.mailbox (.host 7), 7, 0, 0, 0, 0, []⟩, 0, rfl, by decide +kernel⟩

/-- Every clause of BootProceeds has a state and operands that meet its premises. -/
theorem witness_BootProceeds :
    (∃ dt, ∃ s e : State, ∃ top, s.elapse dt = e ∧ e.boot.up = true ∧ e.boot.stage = 0 ∧ e.boot.nvLoaded = false ∧ e.boot.writeProt
      = false ∧ top = ((e.journal.find? fun j => j.sound).map fun j => j.seq).getD 0) ∧
    (∃ dt, ∃ s e : State, s.elapse dt = e ∧ e.boot.up = true ∧ e.boot.stage = 0 ∧ e.boot.nvLoaded = true ∧ e.boot.fwOk
      e.boot.fwFirst = true) ∧
    (∃ dt, ∃ s e : State, s.elapse dt = e ∧ e.boot.up = true ∧ e.boot.stage = 0 ∧ e.boot.nvLoaded = true ∧ e.boot.fwOk
      e.boot.fwFirst = false ∧ e.boot.fwOk (!e.boot.fwFirst) = true) ∧
    (∃ dt, ∃ s e : State, s.elapse dt = e ∧ e.boot.up = true ∧ e.boot.stage = 0 ∧ e.boot.nvLoaded = true ∧ e.boot.fwOk
      e.boot.fwFirst = false ∧ e.boot.fwOk (!e.boot.fwFirst) = false) ∧
    (∃ dt, ∃ s e : State, s.elapse dt = e ∧ e.boot.up = true ∧ e.boot.stage = 0 ∧ e.boot.since + 5000000000 ≤ e.now) ∧
    (∃ dt, ∃ s e : State, ∃ m n, s.elapse dt = e ∧ e.boot.up = true ∧ e.mayWrite m Reg.HB_BOOT_RCV_CTL = true ∧ e.boot.stage = 15 ∧
      BitVec.toNat (e.reg Reg.HB_BOOT_RCV_CTL) < 32 ∧ n = leNat (e.load (recoveryBase + 12) 4)) ∧
    (∃ dt, ∃ s e : State, ∃ k, s.elapse dt = e ∧ e.boot.up = true ∧ e.boot.handshake = some k ∧ e.fdUp = true ∧ e.fds.first = none ∧
      (e.saf.inService = true ∨ e.boot.split = true)) ∧
    (∃ dt, ∃ s e : State, ∃ k, s.elapse dt = e ∧ e.boot.up = true ∧ e.boot.handshake = some k ∧ e.fdUp = true ∧ e.fds.first.isSome =
      true ∧ (e.saf.inService = true ∨ e.boot.split = true)) ∧
    (∃ dt, ∃ s e : State, ∃ k, s.elapse dt = e ∧ e.boot.up = true ∧ e.boot.handshake = some k ∧ e.fdUp = true ∧ e.fds.first = none ∧
      e.saf.inService = false ∧ e.boot.split = false ∧ e.fds.split = false ∧ 2 ∉ e.fds.causes) ∧
    (∃ dt, ∃ s e : State, ∃ k, s.elapse dt = e ∧ e.boot.up = true ∧ e.boot.handshake = some k ∧ k + 2000000000 ≤ e.now) ∧
    (∃ dt, ∃ s e : State, ∃ b, s.elapse dt = e ∧ e.boot.up = true ∧ e.boot.stage = 2 ∧ e.clog = [] ∧ e.str.base = some b ∧ e.str.sel
      = none) ∧
    (∃ dt, ∃ s e : State, s.elapse dt = e ∧ e.boot.up = true ∧ e.boot.stage = 2 ∧ e.clog = [] ∧ e.str.base = none) ∧
    (∃ dt, ∃ s e : State, s.elapse dt = e ∧ e.boot.up = true ∧ e.dev = .start ∧ e.boot.stage ≠ 6 ∧ e.str.live.isSome = true ∧
      e.boot.shaken = true ∧ e.mrg.deadA = false ∧ e.mrg.deadB = false ∧ (e.saf.inService = true ∨ e.boot.split = true) ∧
      (e.boot.refDropped = true ∨ (∀ d, d < 4 → e.portDue d = true → (e.demod d).epochValid = true ∨ (e.port d).light = .dark ∨
      (e.port d).light = .shutdown))) ∧
    (∃ dt, ∃ s e : State, s.elapse dt = e ∧ e.boot.up = true ∧ e.dev = .start ∧ (e.str.live = none ∨ e.boot.shaken = false ∨
      e.mrg.deadA = true ∨ e.mrg.deadB = true ∨ (e.saf.inService = false ∧ e.boot.split = false) ∨ (e.boot.refDropped = false ∧ ∃ d,
      d < 4 ∧ e.portDue d = true ∧ (e.demod d).epochValid = false ∧ (e.port d).light ≠ .dark ∧ (e.port d).light ≠ .shutdown))) ∧
    (∃ dt, ∃ s e : State, s.elapse dt = e ∧ e.boot.up = true ∧ e.dev = .start ∧ e.boot.since + 30000000000 ≤ e.now) ∧
    (∃ dt, ∃ s e : State, ∃ x, s.elapse dt = e ∧ e.boot.up = true ∧ e.boot.settings = some x ∧ x.expiry ≠ 0 ∧ x.expiry ≤ e.tc.now) := by
  refine ⟨?_, ?_, ?_, ?_, ?_, ?_, ?_, ?_, ?_, ?_, ?_, ?_, ?_, ?_, ?_, ?_⟩
  · exact ⟨0, base, _, 0, rfl, by decide +kernel⟩
  · exact ⟨0, { base with boot := { nvLoaded := true } }, _, rfl, by decide +kernel⟩
  · exact ⟨0, { base with boot := { nvLoaded := true, fwGenA := 2, fwSoundA := false, fwGenB := 1 } }, _, rfl, by decide +kernel⟩
  · exact ⟨0, { base with boot := { nvLoaded := true, fwSoundA := false } }, _, rfl, by decide +kernel⟩
  · exact ⟨0, { base with now := 5000000000 }, _, rfl, by decide +kernel⟩
  · exact ⟨0, { base with boot := { stage := 15 } }, _, .host 0, _, rfl,
      ⟨by decide, by decide +kernel, by decide, by decide +kernel, rfl⟩⟩
  · exact ⟨0, { base with boot := { handshake := some 0 } }, _, 0, rfl, by decide +kernel⟩
  · exact ⟨0, { base with boot := { handshake := some 0 }, fds := { first := some 9 } }, _, 0, rfl, by decide +kernel⟩
  · exact ⟨0, { base with boot := { handshake := some 0 }, saf := { a := { st := .faulted }, b := { st := .faulted } } }, _, 0, rfl,
      by decide +kernel⟩
  · exact ⟨0, { base with boot := { handshake := some 0 }, now := 2000000000 }, _, 0, rfl, by decide +kernel⟩
  · exact ⟨0, { base with boot := { stage := 2 }, str := { slotA := { gen := 1 } } }, _, false, rfl, by decide +kernel⟩
  · exact ⟨0, { base with boot := { stage := 2 } }, _, rfl, by decide +kernel⟩
  · exact ⟨0, { base with boot := { stage := 4, shaken := true }, str := { live := some [] } }, _, rfl,
      ⟨by decide, by decide, by decide, by decide, by decide, by decide, by decide, by decide, .inr (by decide)⟩⟩
  · exact ⟨0, base, _, rfl, ⟨by decide, by decide, .inl (by decide)⟩⟩
  · exact ⟨0, { base with now := 30000000000 }, _, rfl, by decide +kernel⟩
  · exact ⟨0, { base with boot := { settings := some ⟨false, true, false, 1⟩ }, tc := { now := 1 } }, _, ⟨false, true, false, 1⟩,
      rfl, by decide +kernel⟩

/-- Every clause of BootCommands has a state and operands that meet its premises. -/
theorem witness_BootCommands :
    (∃ dt, ∃ s e : State, ∃ c k, s.elapse dt = e ∧ e.hears ⟨0x73, c⟩ = true ∧ e.dev = .maintenance ∧ k = leNat (bytesAt c.args 0 1)
      ∧ (e.maintPwd.check (bytesAt c.args 36 12) e.now false).1 = 0 ∧ tfind e.str.keys k = none) ∧
    (∃ dt, ∃ s e : State, ∃ c k, s.elapse dt = e ∧ e.hears ⟨0x73, c⟩ = true ∧ e.dev = .maintenance ∧ k = leNat (bytesAt c.args 0 1)
      ∧ (e.maintPwd.check (bytesAt c.args 36 12) e.now false).1 = 0 ∧ (tfind e.str.keys k).isSome = true) ∧
    (∃ dt, ∃ s e : State, ∃ c k j h, s.elapse dt = e ∧ e.hears ⟨0x74, c⟩ = true ∧ e.dev = .maintenance ∧ k = leNat (bytesAt c.args 0
      1) ∧ (e.maintPwd.check (bytesAt c.args 4 12) e.now false).1 = 0 ∧ j ≠ k ∧ tfind e.str.keys j = some h ∧ j ∉ e.str.revoked ∧
      (e.str.live = none ∨ e.str.liveKey ≠ k)) ∧
    (∃ dt, ∃ s e : State, ∃ c n b, s.elapse dt = e ∧ e.hears ⟨0x72, c⟩ = true ∧ e.dev = .maintenance ∧ e.str.owner = some c.dom ∧
      e.str.st = .open ∧ n = leNat (bytesAt c.args 0 4) ∧ b = e.load stagingBase (min n stagingSize)) ∧
    (∃ dt, ∃ s e : State, ∃ c d r, s.elapse dt = e ∧ e.hears ⟨0x75, c⟩ = true ∧ e.dev = .maintenance ∧ e.str.owner = some d ∧ r =
      e.load stagingBase 96) ∧
    (∃ dt, ∃ s e : State, ∃ c, s.elapse dt = e ∧ e.hears ⟨0x76, c⟩ = true ∧ (e.dev = .service ∨ e.dev = .degraded) ∧ e.structMode =
      0 ∧ e.fdin.cal.hold = none ∧ (∀ k, (e.brake k).step = .none) ∧ e.mrg.silent = [] ∧ (∀ x, x ∈ e.saf.chan.secs → x.2.st ≠
      .held)) ∧
    (∃ dt, ∃ s e : State, ∃ c, s.elapse dt = e ∧ e.hears ⟨0x77, c⟩ = true ∧ e.dev = .watch) ∧
    (∃ dt, ∃ s e : State, ∃ w l, s.elapse dt = e ∧ e.boot.up = true ∧ e.boot.shaken = true ∧ e.fdUp = true ∧ e.mrg.deadB = false ∧
      e.fdin.wakes = w :: l ∧ e.dev = .watch) ∧
    (∃ dt, ∃ s e : State, ∃ w l, s.elapse dt = e ∧ e.boot.up = true ∧ e.boot.shaken = true ∧ e.fdUp = true ∧ e.mrg.deadB = false ∧
      e.fdin.wakes = w :: l ∧ e.dev ≠ .watch) := by
  refine ⟨?_, ?_, ?_, ?_, ?_, ?_, ?_, ?_, ?_⟩
  · exact ⟨0, { serving with dev := .maintenance, maintPwd := { value := List.replicate 12 0x31 } }, _,
      cmd (List.replicate 36 0 ++ List.replicate 12 0x31), 0, rfl, by decide +kernel⟩
  · exact ⟨0,
      { serving with dev := .maintenance, maintPwd := { value := List.replicate 12 0x31 }, str := { live := some [], keys := [(0, [])] } },
      _, cmd (List.replicate 36 0 ++ List.replicate 12 0x31), 0, rfl, by decide +kernel⟩
  · exact ⟨0,
      { serving with dev := .maintenance, maintPwd := { value := List.replicate 12 0x31 }, str := { live := some [], keys := [(0, [])] } },
      _, cmd ([1, 0, 0, 0] ++ List.replicate 12 0x31), 1, 0, [], rfl, by decide +kernel⟩
  · exact ⟨0, { serving with dev := .maintenance, str := { live := some [], st := .open, owner := some 0 } }, _, cmd [0, 0, 0, 0],
      0, _, rfl, ⟨by decide +kernel, by decide, by decide, by decide, rfl, rfl⟩⟩
  · exact ⟨0, { serving with dev := .maintenance, str := { live := some [], st := .open, owner := some 0 } }, _, cmd, 0, _, rfl,
      ⟨by decide +kernel, by decide, by decide, rfl⟩⟩
  · exact ⟨0, serving, _, cmd, rfl, ⟨by decide +kernel, .inl rfl, rfl, rfl, fun _ => rfl, rfl, by decide⟩⟩
  · exact ⟨0, { serving with dev := .watch }, _, cmd, rfl, by decide +kernel⟩
  · exact ⟨0, { base with boot := { shaken := true }, fdin := { wakes := [0] }, dev := .watch }, _, 0, [], rfl, by decide +kernel⟩
  · exact ⟨0, { base with boot := { shaken := true }, fdin := { wakes := [0] } }, _, 0, [], rfl, by decide +kernel⟩

/-- Every clause of RegistersAreAccessed has a state and operands that meet its premises. -/
theorem witness_RegistersAreAccessed :
    (∃ dt, ∃ s e : State, ∃ a, s.elapse dt = e ∧ a % 4 ≠ 0) ∧
    (∃ dt, ∃ s e : State, ∃ m a b n o row, s.elapse dt = e ∧ e.boot.up = true ∧ a % 4 = 0 ∧ e.mayWrite m a = true ∧ blockOf a = some
      (b, n, o) ∧ b.row? o = some row ∧ (row.access = .ro ∨ row.access = .rc)) ∧
    (∃ dt, ∃ s e : State, ∃ m a v b n o row, s.elapse dt = e ∧ e.boot.up = true ∧ a % 4 = 0 ∧ e.mayWrite m a = true ∧ blockOf a =
      some (b, n, o) ∧ b.row? o = some row ∧ row.access = .w1c ∧ b ≠ .wsc ∧ hitsReserved b o row v = false) ∧
    (∃ dt, ∃ s e : State, ∃ m, ∃ v : Word, s.elapse dt = e ∧ e.boot.up = true ∧ e.mayWrite m Reg.HB_HST_FRZ_SEL = true ∧
      BitVec.toNat v < 32) ∧
    (∃ dt, ∃ s e : State, ∃ m a v b n o row, s.elapse dt = e ∧ e.boot.up = true ∧ a % 4 = 0 ∧ e.mayWrite m a = true ∧ blockOf a =
      some (b, n, o) ∧ b.row? o = some row ∧ hitsReserved b o row v = true) ∧
    (∃ dt, ∃ s e : State, ∃ m a, s.elapse dt = e ∧ e.boot.up = true ∧ a % 4 = 0 ∧ (e.meets m a = .reserved ∨ e.meets m a = .dead ∧
      (∀ d, blockOf a ≠ some (.ofe, d, 0)))) ∧
    (∃ dt, ∃ s e : State, ∃ d a c, s.elapse dt = e ∧ e.boot.up = true ∧ a % 4 = 0 ∧ bar2At (.host d) a = none ∧ e.boot.writeProt =
      false ∧ e.domClosed d = false ∧ .domain d ∉ e.frozen ∧ e.meets (.host d) a = .closed c) ∧
    (∃ dt, ∃ s e : State, ∃ d a b n o row, s.elapse dt = e ∧ e.boot.up = true ∧ a % 4 = 0 ∧ e.boot.writeProt = false ∧ e.domClosed d
      = false ∧ .domain d ∉ e.frozen ∧ e.meets (.host d) a = .register b n o row ∧ e.writeDenied (.host d) b o = true) ∧
    (∃ dt, ∃ s e : State, ∃ m a b n o row, s.elapse dt = e ∧ e.boot.up = true ∧ a % 4 = 0 ∧ e.isFrozen m = true ∧ e.meets m a =
      .register b n o row ∧ e.writeDenied m b o = false) ∧
    (∃ dt, ∃ s e : State, ∃ m a b n o row, s.elapse dt = e ∧ e.boot.up = true ∧ a % 4 = 0 ∧ e.mayRead m a = true ∧ blockOf a = some
      (b, n, o) ∧ b.row? o = some row ∧ row.access ≠ .rc ∧ e.latchRead m b n o = none) ∧
    (∃ dt, ∃ s e : State, ∃ m a b n o row, s.elapse dt = e ∧ e.boot.up = true ∧ a % 4 = 0 ∧ e.mayRead m a = true ∧ blockOf a = some
      (b, n, o) ∧ b.row? o = some row ∧ row.access = .rc ∧ b ≠ .cvu) ∧
    (∃ dt, ∃ s e : State, ∃ m a b n o row, s.elapse dt = e ∧ e.boot.up = true ∧ a % 4 = 0 ∧ e.mayRead m a = true ∧ blockOf a = some
      (b, n, o) ∧ b.row? o = some row ∧ row.access = .rc ∧ b = .cvu) ∧
    (∃ dt, ∃ s e : State, ∃ m a, s.elapse dt = e ∧ e.boot.up = true ∧ a % 4 = 0 ∧ e.isFrozen m = false ∧ e.meets m a = .reserved) ∧
    (∃ dt, ∃ s e : State, ∃ m a, s.elapse dt = e ∧ e.boot.up = true ∧ a % 4 = 0 ∧ e.meets m a = .dead) ∧
    (∃ dt, ∃ s e : State, ∃ m a b n o row, s.elapse dt = e ∧ e.boot.up = true ∧ a % 4 = 0 ∧ e.isFrozen m = true ∧ e.meets m a =
      .register b n o row) ∧
    (∃ dt, ∃ s e : State, ∃ d a c, s.elapse dt = e ∧ e.boot.up = true ∧ a % 4 = 0 ∧ bar2At (.host d) a = none ∧ e.boot.writeProt =
      false ∧ e.domClosed d = false ∧ .domain d ∉ e.frozen ∧ e.meets (.host d) a = .closed c) ∧
    (∃ dt, ∃ s e : State, ∃ c, s.elapse dt = e ∧ e.boot.up = true ∧ e.boot.writeProt = false ∧ e.boot.split = true ∧ .core c ∉
      e.frozen) ∧
    (∃ dt, ∃ s e : State, s.elapse dt = e ∧ e.boot.up = true ∧ e.boot.split = false) := by
  refine ⟨?_, ?_, ?_, ?_, ?_, ?_, ?_, ?_, ?_, ?_, ?_, ?_, ?_, ?_, ?_, ?_, ?_, ?_⟩
  · exact ⟨0, base, _, 1, rfl, by decide +kernel⟩
  · exact ⟨0, base, _, .host 0, Reg.HB_TC_NOW_LO, _, _, _, _, rfl, ⟨by decide, by decide, by decide +kernel, rfl, rfl, by decide⟩⟩
  · exact ⟨0, base, _, .host 0, Reg.HB_TC_EVT, 0, _, _, _, _, rfl,
      ⟨by decide, by decide, by decide +kernel, rfl, rfl, by decide, by decide, by decide +kernel⟩⟩
  · exact ⟨0, base, _, .host 0, 31, rfl, by decide +kernel⟩
  · exact ⟨0, base, _, .host 0, Reg.HB_TC_CTL, 0xFFFFFFFF, _, _, _, _, rfl,
      ⟨by decide, by decide, by decide +kernel, rfl, rfl, by decide +kernel⟩⟩
  · exact ⟨0, base, _, .host 0, 0x185280, rfl, ⟨by decide, by decide, .inl (by decide +kernel)⟩⟩
  · exact ⟨0, base, _, 0, Reg.HB_DMA_DBELL 1, .window, rfl, by decide +kernel⟩
  · exact ⟨0, base, _, 0, Reg.HB_LEASE_RENEW, _, _, _, _, rfl,
      ⟨by decide, by decide, by decide, by decide +kernel, by decide, rfl, by decide +kernel⟩⟩
  · exact ⟨0, { base with frozen := [.domain 0] }, _, .host 0, Reg.HB_TC_CTL, _, _, _, _, rfl,
      ⟨by decide, by decide, by decide, rfl, by decide +kernel⟩⟩
  · exact ⟨0, base, _, .host 0, Reg.HB_TC_CTL, _, _, _, _, rfl,
      ⟨by decide, by decide, by decide +kernel, rfl, rfl, by decide, by decide +kernel⟩⟩
  · exact ⟨0, base, _, .host 0, Reg.AQ_ADC_PEAK 0, _, _, _, _, rfl,
      ⟨by decide, by decide, by decide +kernel, rfl, rfl, by decide, by decide⟩⟩
  · exact ⟨0, base, _, .host 0, Reg.HB_CVU_COUNT 0, _, _, _, _, rfl,
      ⟨by decide, by decide, by decide +kernel, rfl, rfl, by decide, by decide⟩⟩
  · exact ⟨0, base, _, .host 0, 0xFFC, rfl, by decide +kernel⟩
  · exact ⟨0, base, _, .host 0, Reg.FD_WSC_STAMP_LO, rfl, by decide +kernel⟩
  · exact ⟨0, { base with frozen := [.domain 0] }, _, .host 0, Reg.HB_TC_CTL, _, _, _, _, rfl,
      ⟨by decide, by decide, by decide, rfl⟩⟩
  · exact ⟨0, base, _, 0, Reg.HB_DMA_DBELL 1, .window, rfl, by decide +kernel⟩
  · exact ⟨0, { base with boot := { split := true } }, _, 0, rfl, by decide +kernel⟩
  · exact ⟨0, base, _, rfl, by decide +kernel⟩

/-- Every clause of LightOffRefusedWhileServing has a state and operands that meet its premises. -/
theorem witness_LightOffRefusedWhileServing :
    (∃ dt, ∃ s e : State, ∃ m d v a, s.elapse dt = e ∧ e.boot.up = true ∧ d < 4 ∧ a = Reg.AQ_OFE_CTL d ∧ e.mayWrite m a = true ∧ v
      &&& 0xFFFFFFF8 = 0 ∧ bitOf v 0 = false ∧ bitOf (e.reg a) 0 = true) ∧
    (∃ dt, ∃ s e : State, ∃ m d a, s.elapse dt = e ∧ e.boot.up = true ∧ d < 4 ∧ a = Reg.AQ_OFE_CTL d ∧ e.mayWrite m a = true ∧ e.reg
      a &&& 0xFFFFFFFA = 0 ∧ bitOf (e.reg a) 0 = true) ∧
    (∃ dt, ∃ s e : State, ∃ m d v a, ∃ c : Instr, s.elapse dt = e ∧ e.boot.up = true ∧ d < 4 ∧ a = Reg.AQ_OFE_CTL d ∧ e.meets m a =
      .dead ∧ e.isFrozen m = false ∧ e.holdsRole m .configurator = true ∧ e.dev = .watch ∧ bitOf (e.reg a) 0 = true ∧ bitOf v 0 =
      false ∧ (c = .registerWrite dt m a v ∨ c = .ofeLightOff dt m d)) := by
  refine ⟨?_, ?_, ?_⟩
  · exact ⟨0, { base.setReg (Reg.AQ_OFE_CTL 3) 1 with dev := .service }, _, .host 0, 3, 0, Reg.AQ_OFE_CTL 3, rfl, by decide +kernel⟩
  · exact ⟨0, base.setReg (Reg.AQ_OFE_CTL 3) 1, _, .host 0, 3, Reg.AQ_OFE_CTL 3, rfl, by decide +kernel⟩
  · exact ⟨0, { serving.setReg (Reg.AQ_OFE_CTL 3) 1 with dev := .watch, mrg := { silent := [(3, quiet)] } }, _, .host 0, 3, 0,
      Reg.AQ_OFE_CTL 3, .ofeLightOff 0 (.host 0) 3, rfl,
      ⟨by decide, by decide, rfl, by decide, by decide, by decide +kernel, rfl, by decide, by decide, .inr rfl⟩⟩

/-- Every clause of DirectApplyStates has a state and operands that meet its premises. -/
theorem witness_DirectApplyStates :
    (∃ dt, ∃ s e : State, ∃ m d, ∃ c : Instr, s.elapse dt = e ∧ e.boot.up = true ∧ d < 4 ∧ e.mayWrite m (Reg.AQ_PSY_APPLY d) = true
      ∧ (e.probe d).pend = none ∧ (c = .psyApplyGo dt m d ∨ c = .registerWrite dt m (Reg.AQ_PSY_APPLY d) 1)) := by
  · exact ⟨0, { base with dev := .watch }, _, .host 0, 3, .psyApplyGo 0 (.host 0) 3, rfl,
      ⟨by decide, by decide, by decide +kernel, rfl, .inl rfl⟩⟩

/-- Every clause of TimeIsLatchedPerMaster has a state and operands that meet its premises. -/
theorem witness_TimeIsLatchedPerMaster :
    (∃ dt, ∃ s e : State, ∃ m, ∃ c : Instr, s.elapse dt = e ∧ e.boot.up = true ∧ e.mayRead m Reg.HB_TC_NOW_LO = true ∧ (c =
      .tcNowLoRead dt m ∨ c = .registerRead dt m Reg.HB_TC_NOW_LO)) ∧
    (∃ dt, ∃ s e : State, ∃ m, s.elapse dt = e ∧ e.boot.up = true ∧ e.mayRead m Reg.HB_TC_NOW_HI = true) := by
  refine ⟨?_, ?_⟩
  · exact ⟨0, base, _, .host 0, .tcNowLoRead 0 (.host 0), rfl, ⟨by decide, by decide +kernel, .inl rfl⟩⟩
  · exact ⟨0, base, _, .host 0, rfl, by decide +kernel⟩

/-- Every clause of UnitsReturnInMaintenance has a state and operands that meet its premises. -/
theorem witness_UnitsReturnInMaintenance :
    (∃ dt, ∃ s e : State, ∃ m d, s.elapse dt = e ∧ e.boot.up = true ∧ d < 4 ∧ e.mayWrite m (Reg.AQ_LBQ_CMD d) = true ∧ (e.die
      d).busy = none) := by
  · exact ⟨0, { base.setDie 3 { qtrs := [(7, { st := .faulty })], blks := [(0, { st := .faulty })] } with dev := .maintenance }, _,
      .host 0, 3, rfl, by decide +kernel⟩

/-- Every clause of ConfiguratorWrites has a state and operands that meet its premises. -/
theorem witness_ConfiguratorWrites :
    (∃ dt, ∃ s e : State, ∃ d a b n o row, s.elapse dt = e ∧ e.boot.up = true ∧ a % 4 = 0 ∧ e.boot.writeProt = false ∧ e.domClosed d
      = false ∧ .domain d ∉ e.frozen ∧ e.meets (.host d) a = .register b n o row ∧ (b = .tc ∧ o ≠ 0x34 ∨ b = .psy ∧ o ≠ 0x24)) := by
  · exact ⟨0, base, _, 0, Reg.HB_TC_CTL, _, _, _, _, rfl,
      ⟨by decide, by decide, by decide, by decide, by decide, rfl, .inl (by decide)⟩⟩

/-- Every clause of FreezesAreRecorded has a state and operands that meet its premises. -/
theorem witness_FreezesAreRecorded :
    (∃ e : State, ∃ who, who ∉ e.frozen ∧ e.boot.writeProt = false) ∧
    (∃ _ : State, ∃ d, d < 8) ∧
    (∃ _ : State, ∃ c, c < 4) ∧
    (∃ _ : State, ∃ c, c < 128) ∧
    (∃ e : State, ∃ who, who ∈ e.frozen) := by
  refine ⟨?_, ?_, ?_, ?_, ?_⟩
  · exact ⟨base, .domain 7, by decide +kernel⟩
  · exact ⟨base, 7, by decide +kernel⟩
  · exact ⟨base, 3, by decide +kernel⟩
  · exact ⟨base, 127, by decide +kernel⟩
  · exact ⟨{ base with frozen := [.core 3] }, .core 3, by decide +kernel⟩

/-- Every clause of StepTakesTheFront has a state and operands that meet its premises. -/
theorem witness_StepTakesTheFront :
    (∃ s : State, ∃ c rest, s.pending = c :: rest) ∧
    (∃ s : State, s.pending = []) := by
  refine ⟨?_, ?_⟩
  · exact ⟨{ base with pending := [.tcNowLoRead 0 .firmware] }, .tcNowLoRead 0 .firmware, [], by decide +kernel⟩
  · exact ⟨base, by decide +kernel⟩

/-- Every clause of SafeStopDropsEverything has a state and operands that meet its premises. -/
theorem witness_SafeStopDropsEverything :
    (∃ e : State, ∃ k, e.fdUp = true ∧ e.boot.shaken = true ∧ e.fds.first = none ∧ k ∉ e.fds.causes ∧ e.fds.split = false ∧ e.dev ≠
      .watch) ∧
    (∃ e : State, ∃ k f, e.fdUp = true ∧ e.fds.first = some f ∧ k ∉ e.fds.causes ∧ e.fds.split = false ∧ k ≠ 5 ∧ k ≠ 10) ∧
    (∃ e : State, ∃ k, k ∈ e.fds.causes) := by
  refine ⟨?_, ?_, ?_⟩
  · exact ⟨{ base with boot := { shaken := true }, dev := .service }, 4, by decide +kernel⟩
  · exact ⟨{ base with fds := { first := some 9, causes := [9] } }, 4, 9, by decide +kernel⟩
  · exact ⟨{ base with fds := { causes := [4] } }, 4, by decide +kernel⟩

/-- The premises of NoCommandIsRefused: commands answer next states. -/
theorem witness_NoCommandIsRefused : ∃ c s t, exec c s = .next t := ⟨.tcNowLoRead 0 .firmware, base, _, rfl⟩

/-- The premise of PoweredTimeNeverFalls, of a step in which time passes. -/
theorem witness_PoweredTimeNeverFalls : ∃ s t, step s = .next t ∧ s.now < t.now :=
  ⟨{ base with pending := [.tcNowLoRead 7 .firmware] }, _, rfl, by decide⟩

/-- The premises of MemoryStaysCanonical, of a memory that lists a byte. -/
theorem witness_MemoryStaysCanonical : ∃ s t, memWf s.mem = true ∧ step s = .next t ∧ s.mem ≠ [] :=
  ⟨{ base with pending := [.tcNowLoRead 0 .firmware], mem := [(0x1000000, 5)] }, _, by decide, rfl, by decide⟩

/-- The premises of OutputsStayGuarded, of a device in Service with output 0 energised. -/
theorem witness_OutputsStayGuarded : ∃ s t, s.outputsGuarded ∧ step s = .next t ∧ (s.vo 0).energised = true :=
  ⟨{ driven { level := true } with dev := .service, pending := [.tcNowLoRead 0 .firmware] }, _,
    by unfold State.outputsGuarded; decide +kernel, rfl, by decide +kernel⟩

/-- The premises of FrozenDomainChangesNothing: HD0 is frozen and writes, reads, submits and commands. -/
theorem witness_FrozenDomainChangesNothing :
    ∃ e t t' t'' u c, e.isFrozen (.host 0) = true ∧ exec (.registerWrite 0 (.host 0) Reg.HB_TC_CTL 0) e = .next t ∧
      exec (.registerRead 0 (.host 0) Reg.HB_TC_CTL) e = .next t' ∧ exec (.commandArbiterEntry 0 (.ring 0) [1]) e = .next t'' ∧
      e.isFrozen (.host c.dom) = true ∧ exec (.secBlock 0 c) e = .next u :=
  ⟨{ base with frozen := [.domain 0] }, _, _, _, _, cmd [1, 0], by decide, rfl, rfl, rfl, by decide, rfl⟩

/-- Every row of AcquisitionFrames answers a next state: in every state, whatever its operands. -/
theorem witness_AcquisitionFrames :
    (∀ dt d s, ∃ s', exec (.laserWindowReached dt d) s = .next s') ∧
    (∀ dt d s, ∃ s', exec (.laserOkRise dt d) s = .next s') ∧
    (∀ dt d s, ∃ s', exec (.laserOkTimeout dt d) s = .next s') ∧
    (∀ dt d s, ∃ s', exec (.ampEnable dt d) s = .next s') ∧
    (∀ dt d held s, ∃ s', exec (.ampCheckEnd dt d held) s = .next s') ∧
    (∀ dt d s, ∃ s', exec (.laserOffDelay dt d) s = .next s') ∧
    (∀ dt d s, ∃ s', exec (.interlockOpen dt d) s = .next s') ∧
    (∀ dt d s, ∃ s', exec (.interlockClosedHold dt d) s = .next s') ∧
    (∀ dt d s, ∃ s', exec (.ampFault dt d) s = .next s') ∧
    (∀ dt d s, ∃ s', exec (.ampRetry dt d) s = .next s') ∧
    (∀ dt d s, ∃ s', exec (.laserOkLoss dt d) s = .next s') ∧
    (∀ dt d s, ∃ s', exec (.rxOkFall dt d) s = .next s') ∧
    (∀ dt d vTop vMid imon pins s, ∃ s', exec (.thmSample dt d vTop vMid imon pins) s = .next s') ∧
    (∀ dt d s, ∃ s', exec (.tecLoopStep dt d) s = .next s') ∧
    (∀ dt d s, ∃ s', exec (.tecOvercurrent dt d) s = .next s') ∧
    (∀ dt d s, ∃ s', exec (.probeWindowUnlocked dt d) s = .next s') ∧
    (∀ dt d s, ∃ s', exec (.probeStart dt d) s = .next s') ∧
    (∀ dt d s, ∃ s', exec (.periodStart dt d) s = .next s') ∧
    (∀ dt d k s, ∃ s', exec (.toneFiring dt d k) s = .next s') ∧
    (∀ dt s, ∃ s', exec (.calBankWriteDone dt) s = .next s') ∧
    (∀ dt d s, ∃ s', exec (.calRoundStart dt d) s = .next s') ∧
    (∀ dt d s, ∃ s', exec (.calPhaseAEnd dt d) s = .next s') ∧
    (∀ dt d r s, ∃ s', exec (.calRoundEnd dt d r) s = .next s') ∧
    (∀ dt d s, ∃ s', exec (.calRoundAbandon dt d) s = .next s') ∧
    (∀ dt d s, ∃ s', exec (.calRampEnd dt d) s = .next s') ∧
    (∀ dt s, ∃ s', exec (.trimReportReceived dt) s = .next s') ∧
    (∀ dt s, ∃ s', exec (.trimSetWrite dt) s = .next s') ∧
    (∀ dt d k adc guard s, ∃ s', exec (.tailWindowEnd dt d k adc guard) s = .next s') ∧
    (∀ dt d lane slice s, ∃ s', exec (.sliceReceived dt d lane slice) s = .next s') ∧
    (∀ dt d lane s, ∃ s', exec (.lanePeriodEnd dt d lane) s = .next s') ∧
    (∀ dt d lane upper s, ∃ s', exec (.edgeRecordReceived dt d lane upper) s = .next s') ∧
    (∀ dt d k j s, ∃ s', exec (.refWindowEnd dt d k j) s = .next s') ∧
    (∀ dt d s, ∃ s', exec (.reacqComplete dt d) s = .next s') ∧
    (∀ dt d s, ∃ s', exec (.reacqForce dt d) s = .next s') ∧
    (∀ dt d b s, ∃ s', exec (.stampFloorSend dt d b) s = .next s') ∧
    (∀ dt d b s, ∃ s', exec (.spareLoadComplete dt d b) s = .next s') ∧
    (∀ dt d b s, ∃ s', exec (.arbiterFault dt d b) s = .next s') ∧
    (∀ dt d b result s, ∃ s', exec (.memScrub dt d b result) s = .next s') ∧
    (∀ dt d b s, ∃ s', exec (.blockPllUnlock dt d b) s = .next s') ∧
    (∀ dt d b s, ∃ s', exec (.stampFloorMissing dt d b) s = .next s') ∧
    (∀ dt d b s, ∃ s', exec (.blockPowerDown dt d b) s = .next s') ∧
    (∀ dt d q s, ∃ s', exec (.quarterHeartbeatLoss dt d q) s = .next s') ∧
    (∀ dt d lane s, ∃ s', exec (.laneReturnTestEnd dt d lane) s = .next s') ∧
    (∀ dt d b pass s, ∃ s', exec (.blockReturnComplete dt d b pass) s = .next s') ∧
    (∀ dt d q s, ∃ s', exec (.quarterParityFault dt d q) s = .next s') ∧
    (∀ dt d e s, ∃ s', exec (.detectionSample dt d e) s = .next s') ∧
    (∀ dt d e s, ∃ s', exec (.sensorHalt dt d e) s = .next s') ∧
    (∀ dt d e s, ∃ s', exec (.standTimeout dt d e) s = .next s') ∧
    (∀ dt d lane s, ∃ s', exec (.wheelEventEmit dt d lane) s = .next s') ∧
    (∀ dt p s, ∃ s', exec (.profileRecord dt p) s = .next s') ∧
    (∀ dt w s, ∃ s', exec (.acwBlockReady dt w) s = .next s') := by
  refine ⟨?_, ?_, ?_, ?_, ?_, ?_, ?_, ?_, ?_, ?_, ?_, ?_, ?_, ?_, ?_, ?_, ?_, ?_, ?_, ?_, ?_, ?_, ?_, ?_, ?_, ?_, ?_, ?_, ?_, ?_,
    ?_, ?_, ?_, ?_, ?_, ?_, ?_, ?_, ?_, ?_, ?_, ?_, ?_, ?_, ?_, ?_, ?_, ?_, ?_, ?_, ?_⟩
  · exact fun _ _ _ => ⟨_, rfl⟩
  · exact fun _ _ _ => ⟨_, rfl⟩
  · exact fun _ _ _ => ⟨_, rfl⟩
  · exact fun _ _ _ => ⟨_, rfl⟩
  · exact fun _ _ _ _ => ⟨_, rfl⟩
  · exact fun _ _ _ => ⟨_, rfl⟩
  · exact fun _ _ _ => ⟨_, rfl⟩
  · exact fun _ _ _ => ⟨_, rfl⟩
  · exact fun _ _ _ => ⟨_, rfl⟩
  · exact fun _ _ _ => ⟨_, rfl⟩
  · exact fun _ _ _ => ⟨_, rfl⟩
  · exact fun _ _ _ => ⟨_, rfl⟩
  · exact fun _ _ _ _ _ _ _ => ⟨_, rfl⟩
  · exact fun _ _ _ => ⟨_, rfl⟩
  · exact fun _ _ _ => ⟨_, rfl⟩
  · exact fun _ _ _ => ⟨_, rfl⟩
  · exact fun _ _ _ => ⟨_, rfl⟩
  · exact fun _ _ _ => ⟨_, rfl⟩
  · exact fun _ _ _ _ => ⟨_, rfl⟩
  · exact fun _ _ => ⟨_, rfl⟩
  · exact fun _ _ _ => ⟨_, rfl⟩
  · exact fun _ _ _ => ⟨_, rfl⟩
  · exact fun _ _ _ _ => ⟨_, rfl⟩
  · exact fun _ _ _ => ⟨_, rfl⟩
  · exact fun _ _ _ => ⟨_, rfl⟩
  · exact fun _ _ => ⟨_, rfl⟩
  · exact fun _ _ => ⟨_, rfl⟩
  · exact fun _ _ _ _ _ _ => ⟨_, rfl⟩
  · exact fun _ _ _ _ _ => ⟨_, rfl⟩
  · exact fun _ _ _ _ => ⟨_, rfl⟩
  · exact fun _ _ _ _ _ => ⟨_, rfl⟩
  · exact fun _ _ _ _ _ => ⟨_, rfl⟩
  · exact fun _ _ _ => ⟨_, rfl⟩
  · exact fun _ _ _ => ⟨_, rfl⟩
  · exact fun _ _ _ _ => ⟨_, rfl⟩
  · exact fun _ _ _ _ => ⟨_, rfl⟩
  · exact fun _ _ _ _ => ⟨_, rfl⟩
  · exact fun _ _ _ _ _ => ⟨_, rfl⟩
  · exact fun _ _ _ _ => ⟨_, rfl⟩
  · exact fun _ _ _ _ => ⟨_, rfl⟩
  · exact fun _ _ _ _ => ⟨_, rfl⟩
  · exact fun _ _ _ _ => ⟨_, rfl⟩
  · exact fun _ _ _ _ => ⟨_, rfl⟩
  · exact fun _ _ _ _ _ => ⟨_, rfl⟩
  · exact fun _ _ _ _ => ⟨_, rfl⟩
  · exact fun _ _ _ _ => ⟨_, rfl⟩
  · exact fun _ _ _ _ => ⟨_, rfl⟩
  · exact fun _ _ _ _ => ⟨_, rfl⟩
  · exact fun _ _ _ _ => ⟨_, rfl⟩
  · exact fun _ _ _ => ⟨_, rfl⟩
  · exact fun _ _ _ => ⟨_, rfl⟩

/-- Every row of ChannelFrames answers a next state: in every state, whatever its operands. -/
theorem witness_ChannelFrames :
    (∀ dt msg s, ∃ s', exec (.ptpMessageReceived dt msg) s = .next s') ∧
    (∀ dt falling s, ∃ s', exec (.ppsEdge dt falling) s = .next s') ∧
    (∀ dt s, ∃ s', exec (.ppsEdgeMissing dt) s = .next s') ∧
    (∀ dt s, ∃ s', exec (.tcHoldoverEntry dt) s = .next s') ∧
    (∀ dt err s, ∃ s', exec (.tcSlewMessage dt err) s = .next s') ∧
    (∀ dt skew s, ∃ s', exec (.fdSkewDetect dt skew) s = .next s') ∧
    (∀ dt skew s, ∃ s', exec (.fdSkewRecover dt skew) s = .next s') ∧
    (∀ dt s, ∃ s', exec (.ptpDelayReqSend dt) s = .next s') ∧
    (∀ dt s, ∃ s', exec (.tcStepApply dt) s = .next s') ∧
    (∀ dt s, ∃ s', exec (.tcStepMessage dt) s = .next s') ∧
    (∀ dt link toHb frame crc s, ∃ s', exec (.linkFrameReceived dt link toHb frame crc) s = .next s') ∧
    (∀ dt d s, ∃ s', exec (.idleFrameSend dt d) s = .next s') ∧
    (∀ dt s, ∃ s', exec (.fdWatermarkSend dt) s = .next s') ∧
    (∀ dt src stamp s, ∃ s', exec (.watermarkReceived dt src stamp) s = .next s') ∧
    (∀ dt src ev s, ∃ s', exec (.sourceEventReceived dt src ev) s = .next s') ∧
    (∀ dt s, ∃ s', exec (.eventRelease dt) s = .next s') ∧
    (∀ dt d s, ∃ s', exec (.dieLinkSilence dt d) s = .next s') ∧
    (∀ dt d s, ∃ s', exec (.dieLinkResume dt d) s = .next s') ∧
    (∀ dt d s, ∃ s', exec (.replayTimeout dt d) s = .next s') ∧
    (∀ dt ch s, ∃ s', exec (.isoChannelSilence dt ch) s = .next s') ∧
    (∀ dt t s, ∃ s', exec (.crossingFault dt t) s = .next s') ∧
    (∀ dt s, ∃ s', exec (.horizonMarkSend dt) s = .next s') ∧
    (∀ dt d s, ∃ s', exec (.dieStatusFrame dt d) s = .next s') ∧
    (∀ dt d s, ∃ s', exec (.dieExclusionTimeout dt d) s = .next s') ∧
    (∀ dt s, ∃ s', exec (.releasedEventReceived dt) s = .next s') ∧
    (∀ dt s, ∃ s', exec (.horizonMarkReceived dt) s = .next s') ∧
    (∀ dt s, ∃ s', exec (.cycleMarkReceived dt) s = .next s') ∧
    (∀ dt s, ∃ s', exec (.spanRestartMarkReceived dt) s = .next s') ∧
    (∀ dt pr cause s, ∃ s', exec (.pairComparatorMismatch dt pr cause) s = .next s') ∧
    (∀ dt pr reports railsOk s, ∃ s', exec (.pairSelftestInject dt pr reports railsOk) s = .next s') ∧
    (∀ dt pr s, ∃ s', exec (.verdictDeadline dt pr) s = .next s') ∧
    (∀ dt standby s, ∃ s', exec (.verdictSend dt standby) s = .next s') ∧
    (∀ dt s, ∃ s', exec (.verdictSegmentReceived dt) s = .next s') ∧
    (∀ dt s, ∃ s', exec (.combinationCompare dt) s = .next s') ∧
    (∀ dt ch s, ∃ s', exec (.verdictTimeout dt ch) s = .next s') ∧
    (∀ dt s, ∃ s', exec (.verdictLoss dt) s = .next s') ∧
    (∀ dt code s, ∃ s', exec (.safeStopCauseClear dt code) s = .next s') ∧
    (∀ dt s, ∃ s', exec (.ledgerFault dt) s = .next s') ∧
    (∀ dt result s, ∃ s', exec (.ledgerScrub dt result) s = .next s') ∧
    (∀ dt pr pass s, ∃ s', exec (.pairReturnSelftestDone dt pr pass) s = .next s') ∧
    (∀ dt pr s, ∃ s', exec (.pairReturnComplete dt pr) s = .next s') ∧
    (∀ dt pr s, ∃ s', exec (.debugHalt dt pr) s = .next s') ∧
    (∀ dt s, ∃ s', exec (.fieldSupplyFault dt) s = .next s') ∧
    (∀ dt s, ∃ s', exec (.fdInternalFault dt) s = .next s') ∧
    (∀ dt ch lh s, ∃ s', exec (.legacyDiscrepancyTimeout dt ch lh) s = .next s') ∧
    (∀ dt ch cp s, ∃ s', exec (.headUnresolved dt ch cp) s = .next s') ∧
    (∀ dt ch cp s, ∃ s', exec (.fusedDisagree dt ch cp) s = .next s') ∧
    (∀ dt ch cp s, ∃ s', exec (.headBackInService dt ch cp) s = .next s') ∧
    (∀ dt sec s, ∃ s', exec (.directResetTimeout dt sec) s = .next s') := by
  refine ⟨?_, ?_, ?_, ?_, ?_, ?_, ?_, ?_, ?_, ?_, ?_, ?_, ?_, ?_, ?_, ?_, ?_, ?_, ?_, ?_, ?_, ?_, ?_, ?_, ?_, ?_, ?_, ?_, ?_, ?_,
    ?_, ?_, ?_, ?_, ?_, ?_, ?_, ?_, ?_, ?_, ?_, ?_, ?_, ?_, ?_, ?_, ?_, ?_, ?_⟩
  · exact fun _ _ _ => ⟨_, rfl⟩
  · exact fun _ _ _ => ⟨_, rfl⟩
  · exact fun _ _ => ⟨_, rfl⟩
  · exact fun _ _ => ⟨_, rfl⟩
  · exact fun _ _ _ => ⟨_, rfl⟩
  · exact fun _ _ _ => ⟨_, rfl⟩
  · exact fun _ _ _ => ⟨_, rfl⟩
  · exact fun _ _ => ⟨_, rfl⟩
  · exact fun _ _ => ⟨_, rfl⟩
  · exact fun _ _ => ⟨_, rfl⟩
  · exact fun _ _ _ _ _ _ => ⟨_, rfl⟩
  · exact fun _ _ _ => ⟨_, rfl⟩
  · exact fun _ _ => ⟨_, rfl⟩
  · exact fun _ _ _ _ => ⟨_, rfl⟩
  · exact fun _ _ _ _ => ⟨_, rfl⟩
  · exact fun _ _ => ⟨_, rfl⟩
  · exact fun _ _ _ => ⟨_, rfl⟩
  · exact fun _ _ _ => ⟨_, rfl⟩
  · exact fun _ _ _ => ⟨_, rfl⟩
  · exact fun _ _ _ => ⟨_, rfl⟩
  · exact fun _ _ _ => ⟨_, rfl⟩
  · exact fun _ _ => ⟨_, rfl⟩
  · exact fun _ _ _ => ⟨_, rfl⟩
  · exact fun _ _ _ => ⟨_, rfl⟩
  · exact fun _ _ => ⟨_, rfl⟩
  · exact fun _ _ => ⟨_, rfl⟩
  · exact fun _ _ => ⟨_, rfl⟩
  · exact fun _ _ => ⟨_, rfl⟩
  · exact fun _ _ _ _ => ⟨_, rfl⟩
  · exact fun _ _ _ _ _ => ⟨_, rfl⟩
  · exact fun _ _ _ => ⟨_, rfl⟩
  · exact fun _ _ _ => ⟨_, rfl⟩
  · exact fun _ _ => ⟨_, rfl⟩
  · exact fun _ _ => ⟨_, rfl⟩
  · exact fun _ _ _ => ⟨_, rfl⟩
  · exact fun _ _ => ⟨_, rfl⟩
  · exact fun _ _ _ => ⟨_, rfl⟩
  · exact fun _ _ => ⟨_, rfl⟩
  · exact fun _ _ _ => ⟨_, rfl⟩
  · exact fun _ _ _ _ => ⟨_, rfl⟩
  · exact fun _ _ _ => ⟨_, rfl⟩
  · exact fun _ _ _ => ⟨_, rfl⟩
  · exact fun _ _ => ⟨_, rfl⟩
  · exact fun _ _ => ⟨_, rfl⟩
  · exact fun _ _ _ _ => ⟨_, rfl⟩
  · exact fun _ _ _ _ => ⟨_, rfl⟩
  · exact fun _ _ _ _ => ⟨_, rfl⟩
  · exact fun _ _ _ _ => ⟨_, rfl⟩
  · exact fun _ _ _ => ⟨_, rfl⟩

/-- Every row of FieldFrames answers a next state: in every state, whatever its operands. -/
theorem witness_FieldFrames :
    (∀ dt k runs s, ∃ s', exec (.channelSettle dt k runs) s = .next s') ∧
    (∀ dt k runs s, ∃ s', exec (.legacyEdge dt k runs) s = .next s') ∧
    (∀ dt lh s, ∃ s', exec (.legacyEventEmit dt lh) s = .next s') ∧
    (∀ dt k s, ∃ s', exec (.channelDwellFault dt k) s = .next s') ∧
    (∀ dt k low s, ∃ s', exec (.channelWindowFault dt k low) s = .next s') ∧
    (∀ dt k code s, ∃ s', exec (.channelFaultEnd dt k code) s = .next s') ∧
    (∀ dt vf24 vf5 s, ∃ s', exec (.supplySample dt vf24 vf5) s = .next s') ∧
    (∀ dt scan s, ∃ s', exec (.adcFrame dt scan) s = .next s') ∧
    (∀ dt codes s, ∃ s', exec (.adcRequestDone dt codes) s = .next s') ∧
    (∀ dt s, ∃ s', exec (.cmpCalHoldStart dt) s = .next s') ∧
    (∀ dt s, ∃ s', exec (.cmpCalRetry dt) s = .next s') ∧
    (∀ dt code s, ∃ s', exec (.cmpCalGuardAbort dt code) s = .next s') ∧
    (∀ dt level s, ∃ s', exec (.cmpCalHoldEnd dt level) s = .next s') ∧
    (∀ dt k runs s, ∃ s', exec (.fsiStateChange dt k runs) s = .next s') ∧
    (∀ dt k s, ∃ s', exec (.fsiFault dt k) s = .next s') ∧
    (∀ dt k volts current s, ∃ s', exec (.outputReadback dt k volts current) s = .next s') ∧
    (∀ dt k s, ∃ s', exec (.outputSwitchTimeout dt k) s = .next s') ∧
    (∀ dt k s, ∃ s', exec (.openLoadTimeout dt k) s = .next s') ∧
    (∀ dt s, ∃ s', exec (.groupCheckStart dt) s = .next s') ∧
    (∀ dt g volts s, ∃ s', exec (.groupCheckDone dt g volts) s = .next s') ∧
    (∀ dt g volts s, ∃ s', exec (.groupRetestDone dt g volts) s = .next s') ∧
    (∀ dt k s, ∃ s', exec (.offPulseSlotStart dt k) s = .next s') ∧
    (∀ dt k s, ∃ s', exec (.offPulseRaise dt k) s = .next s') ∧
    (∀ dt k s, ∃ s', exec (.offPulseEnd dt k) s = .next s') ∧
    (∀ dt c runs s, ∃ s', exec (.brakeFeedbackChange dt c runs) s = .next s') ∧
    (∀ dt c s, ∃ s', exec (.brakeTestApplyTimeout dt c) s = .next s') ∧
    (∀ dt c s, ∃ s', exec (.brakeTestHoldEnd dt c) s = .next s') ∧
    (∀ dt c s, ∃ s', exec (.brakeTestReleaseTimeout dt c) s = .next s') ∧
    (∀ dt c s, ∃ s', exec (.brakeFeedbackTimeout dt c) s = .next s') ∧
    (∀ dt n no nc s, ∃ s', exec (.resetInputPattern dt n no nc) s = .next s') ∧
    (∀ dt n s, ∃ s', exec (.resetInputStuck dt n) s = .next s') ∧
    (∀ dt n s, ∃ s', exec (.resetInputFault dt n) s = .next s') ∧
    (∀ dt c s, ∃ s', exec (.brakeFeedbackFault dt c) s = .next s') ∧
    (∀ dt n s, ∃ s', exec (.resetInputFaultRelease dt n) s = .next s') := by
  refine ⟨?_, ?_, ?_, ?_, ?_, ?_, ?_, ?_, ?_, ?_, ?_, ?_, ?_, ?_, ?_, ?_, ?_, ?_, ?_, ?_, ?_, ?_, ?_, ?_, ?_, ?_, ?_, ?_, ?_, ?_,
    ?_, ?_, ?_, ?_⟩
  · exact fun _ _ _ _ => ⟨_, rfl⟩
  · exact fun _ _ _ _ => ⟨_, rfl⟩
  · exact fun _ _ _ => ⟨_, rfl⟩
  · exact fun _ _ _ => ⟨_, rfl⟩
  · exact fun _ _ _ _ => ⟨_, rfl⟩
  · exact fun _ _ _ _ => ⟨_, rfl⟩
  · exact fun _ _ _ _ => ⟨_, rfl⟩
  · exact fun _ _ _ => ⟨_, rfl⟩
  · exact fun _ _ _ => ⟨_, rfl⟩
  · exact fun _ _ => ⟨_, rfl⟩
  · exact fun _ _ => ⟨_, rfl⟩
  · exact fun _ _ _ => ⟨_, rfl⟩
  · exact fun _ _ _ => ⟨_, rfl⟩
  · exact fun _ _ _ _ => ⟨_, rfl⟩
  · exact fun _ _ _ => ⟨_, rfl⟩
  · exact fun _ _ _ _ _ => ⟨_, rfl⟩
  · exact fun _ _ _ => ⟨_, rfl⟩
  · exact fun _ _ _ => ⟨_, rfl⟩
  · exact fun _ _ => ⟨_, rfl⟩
  · exact fun _ _ _ _ => ⟨_, rfl⟩
  · exact fun _ _ _ _ => ⟨_, rfl⟩
  · exact fun _ _ _ => ⟨_, rfl⟩
  · exact fun _ _ _ => ⟨_, rfl⟩
  · exact fun _ _ _ => ⟨_, rfl⟩
  · exact fun _ _ _ _ => ⟨_, rfl⟩
  · exact fun _ _ _ => ⟨_, rfl⟩
  · exact fun _ _ _ => ⟨_, rfl⟩
  · exact fun _ _ _ => ⟨_, rfl⟩
  · exact fun _ _ _ => ⟨_, rfl⟩
  · exact fun _ _ _ _ _ => ⟨_, rfl⟩
  · exact fun _ _ _ => ⟨_, rfl⟩
  · exact fun _ _ _ => ⟨_, rfl⟩
  · exact fun _ _ _ => ⟨_, rfl⟩
  · exact fun _ _ _ => ⟨_, rfl⟩

/-- Every row of HostFrames answers a next state: a state of the four rows that can fault is given, the others answer so in every
state. -/
theorem witness_HostFrames :
    (∀ dt s, ∃ s', exec (.telegramHeaderReceived dt) s = .next s') ∧
    (∀ dt dom s, ∃ s', exec (.eventEntryDeliver dt dom) s = .next s') ∧
    (∀ dt dom s, ∃ s', exec (.eventTelegramSend dt dom) s = .next s') ∧
    (∀ dt p s, ∃ s', exec (.pciePortReset dt p) s = .next s') ∧
    (∀ dt dom s, ∃ s', exec (.vitalTelegramForm dt dom) s = .next s') ∧
    (∀ dt dom s, ∃ s', exec (.codeHReceived dt dom) s = .next s') ∧
    (∀ dt dom s, ∃ s', exec (.telegramDeadline dt dom) s = .next s') ∧
    (∀ dt dom s, ∃ s', exec (.sessionOpen dt dom) s = .next s') ∧
    (∀ dt dom s, ∃ s', exec (.sessionClose dt dom) s = .next s') ∧
    (∀ dt dom s, ∃ s', exec (.sessionTimeout dt dom) s = .next s') ∧
    (∀ dt dom s, ∃ s', exec (.keepaliveSend dt dom) s = .next s') ∧
    (∀ dt p link s, ∃ s', exec (.ethLinkChange dt p link) s = .next s') ∧
    (∀ dt p payload s, ∃ s', exec (.icmpEcho dt p payload) s = .next s') ∧
    (∀ dt p addr s, ∃ s', exec (.neighbourRequest dt p addr) s = .next s') ∧
    (∀ dt p speed width s, ∃ s', exec (.pcieLinkUp dt p speed width) s = .next s') ∧
    (∀ dt a s, ∃ s', exec (.frwSpiRead dt a) s = .next s') ∧
    (∀ dt v s, ∃ s', exec (.frwLatchClr dt v) s = .next s') ∧
    (∀ dt v s, ∃ s', exec (.frwCntClr dt v) s = .next s') ∧
    (∀ dt v s, ∃ s', exec (.frwRstSel dt v) s = .next s') ∧
    (∀ dt v s, ∃ s', exec (.frwRstKey dt v) s = .next s') ∧
    (∀ dt v s, ∃ s', exec (.frwHeadSelWrite dt v) s = .next s') ∧
    (∀ dt v s, ∃ s', exec (.frwSecSelWrite dt v) s = .next s') ∧
    (∀ dt s, ∃ s', exec (.frwCountLoRead dt) s = .next s') ∧
    (∀ dt s, ∃ s', exec (.frwCountHiRead dt) s = .next s') ∧
    (∀ dt s, ∃ s', exec (.frwTsLoRead dt) s = .next s') ∧
    (∀ dt s, ∃ s', exec (.frwTsHiRead dt) s = .next s') ∧
    (∃ s s', exec (.commandArbiterEntry 0 (.ring 0) []) s = .next s') ∧
    (∃ s s', exec (.commandRecordFetch 0 0 []) s = .next s') ∧
    (∃ s s', exec (.ethDatagramReceive 0 0 0 0 []) s = .next s') ∧
    (∃ s s', exec (.sessionCommand 0 0) s = .next s') ∧
    (∀ dt e s, ∃ s', exec (.dmaLoop dt e) s = .next s') ∧
    (∀ dt e s, ∃ s', exec (.dmaWait dt e) s = .next s') ∧
    (∀ dt e s, ∃ s', exec (.dmaWaitSatisfied dt e) s = .next s') ∧
    (∀ dt e s, ∃ s', exec (.dmaWaitTimeout dt e) s = .next s') ∧
    (∀ dt e s, ∃ s', exec (.dmaSignal dt e) s = .next s') ∧
    (∀ dt e ok s, ∃ s', exec (.dmaBusRetry dt e ok) s = .next s') ∧
    (∀ dt core addr s, ∃ s', exec (.hubCoreAccess dt core addr) s = .next s') ∧
    (∀ dt s, ∃ s', exec (.leaseGrace dt) s = .next s') ∧
    (∀ dt s, ∃ s', exec (.leaseLapse dt) s = .next s') ∧
    (∀ dt safety s, ∃ s', exec (.passwordLockoutEnd dt safety) s = .next s') ∧
    (∀ dt s, ∃ s', exec (.lockoutTimeSave dt) s = .next s') ∧
    (∀ dt dom s, ∃ s', exec (.snapshotFill dt dom) s = .next s') ∧
    (∀ dt s, ∃ s', exec (.stagingTimeout dt) s = .next s') ∧
    (∀ x s, ∃ s', exec (.verifyComplete x) s = .next s') ∧
    (∀ dt target s, ∃ s', exec (.structFrameReceived dt target) s = .next s') ∧
    (∀ dt target s, ∃ s', exec (.structFrameAck dt target) s = .next s') ∧
    (∀ dt s, ∃ s', exec (.commitDistribTimeout dt) s = .next s') ∧
    (∀ x s, ∃ s', exec (.commitNvWritesDone x) s = .next s') ∧
    (∀ x s, ∃ s', exec (.commitEffect x) s = .next s') ∧
    (∀ dt e s, ∃ s', exec (.dmaChannelStart dt e) s = .next s') ∧
    (∀ dt u s, ∃ s', exec (.cvuPeriodicStart dt u) s = .next s') ∧
    (∀ dt u faults s, ∃ s', exec (.cvuPassEnd dt u faults) s = .next s') ∧
    (∀ dt u record check recvOk s, ∃ s', exec (.cvuSnoopRecord dt u record check recvOk) s = .next s') ∧
    (∀ dt pr s, ∃ s', exec (.pairUncorrectableRead dt pr) s = .next s') ∧
    (∀ dt s, ∃ s', exec (.panelFrameStart dt) s = .next s') ∧
    (∀ dt sense s, ∃ s', exec (.panelRowSlot dt sense) s = .next s') ∧
    (∀ dt v s, ∃ s', exec (.panelNtcRead dt v) s = .next s') ∧
    (∀ dt s, ∃ s', exec (.chainFrame dt) s = .next s') ∧
    (∀ x s, ∃ s', exec (.pwrFailTaken x) s = .next s') ∧
    (∀ dt s, ∃ s', exec (.powerLossEntryDurable dt) s = .next s') ∧
    (∀ dt dom s, ∃ s', exec (.responseDeliver dt dom) s = .next s') ∧
    (∀ dt s, ∃ s', exec (.wpTokenAdd dt) s = .next s') ∧
    (∀ dt s, ∃ s', exec (.powerOnReset dt) s = .next s') ∧
    (∀ dt s, ∃ s', exec (.pwrFailReset dt) s = .next s') ∧
    (∀ x s, ∃ s', exec (.pwrFailRelease x) s = .next s') ∧
    (∀ x s, ∃ s', exec (.fdPowerOn x) s = .next s') ∧
    (∀ x s, ∃ s', exec (.fdBrownout x) s = .next s') ∧
    (∀ dt faults s, ∃ s', exec (.bootRomStart dt faults) s = .next s') ∧
    (∀ dt s, ∃ s', exec (.firmwareVerified dt) s = .next s') ∧
    (∀ dt s, ∃ s', exec (.bootWatchdog dt) s = .next s') ∧
    (∀ dt s, ∃ s', exec (.startHandshake dt) s = .next s') ∧
    (∀ dt s, ∃ s', exec (.handshakeRetry dt) s = .next s') ∧
    (∀ x s, ∃ s', exec (.structureLoad x) s = .next s') ∧
    (∀ dt s, ∃ s', exec (.bootComplete dt) s = .next s') ∧
    (∀ dt s, ∃ s', exec (.bootRefTimeout dt) s = .next s') ∧
    (∀ dt s, ∃ s', exec (.jtagExpiry dt) s = .next s') ∧
    (∀ dt s, ∃ s', exec (.wakeRequestReceived dt) s = .next s') ∧
    (∀ x s, ∃ s', exec (.porstNAsserted x) s = .next s') := by
  refine ⟨?_, ?_, ?_, ?_, ?_, ?_, ?_, ?_, ?_, ?_, ?_, ?_, ?_, ?_, ?_, ?_, ?_, ?_, ?_, ?_, ?_, ?_, ?_, ?_, ?_, ?_, ?_, ?_, ?_, ?_,
    ?_, ?_, ?_, ?_, ?_, ?_, ?_, ?_, ?_, ?_, ?_, ?_, ?_, ?_, ?_, ?_, ?_, ?_, ?_, ?_, ?_, ?_, ?_, ?_, ?_, ?_, ?_, ?_, ?_, ?_, ?_, ?_,
    ?_, ?_, ?_, ?_, ?_, ?_, ?_, ?_, ?_, ?_, ?_, ?_, ?_, ?_, ?_, ?_⟩
  · exact fun _ _ => ⟨_, rfl⟩
  · exact fun _ _ _ => ⟨_, rfl⟩
  · exact fun _ _ _ => ⟨_, rfl⟩
  · exact fun _ _ _ => ⟨_, rfl⟩
  · exact fun _ _ _ => ⟨_, rfl⟩
  · exact fun _ _ _ => ⟨_, rfl⟩
  · exact fun _ _ _ => ⟨_, rfl⟩
  · exact fun _ _ _ => ⟨_, rfl⟩
  · exact fun _ _ _ => ⟨_, rfl⟩
  · exact fun _ _ _ => ⟨_, rfl⟩
  · exact fun _ _ _ => ⟨_, rfl⟩
  · exact fun _ _ _ _ => ⟨_, rfl⟩
  · exact fun _ _ _ _ => ⟨_, rfl⟩
  · exact fun _ _ _ _ => ⟨_, rfl⟩
  · exact fun _ _ _ _ _ => ⟨_, rfl⟩
  · exact fun _ _ _ => ⟨_, rfl⟩
  · exact fun _ _ _ => ⟨_, rfl⟩
  · exact fun _ _ _ => ⟨_, rfl⟩
  · exact fun _ _ _ => ⟨_, rfl⟩
  · exact fun _ _ _ => ⟨_, rfl⟩
  · exact fun _ _ _ => ⟨_, rfl⟩
  · exact fun _ _ _ => ⟨_, rfl⟩
  · exact fun _ _ => ⟨_, rfl⟩
  · exact fun _ _ => ⟨_, rfl⟩
  · exact fun _ _ => ⟨_, rfl⟩
  · exact fun _ _ => ⟨_, rfl⟩
  · exact ⟨base, _, rfl⟩
  · exact ⟨base, _, rfl⟩
  · exact ⟨base, _, rfl⟩
  · exact ⟨base, _, rfl⟩
  · exact fun _ _ _ => ⟨_, rfl⟩
  · exact fun _ _ _ => ⟨_, rfl⟩
  · exact fun _ _ _ => ⟨_, rfl⟩
  · exact fun _ _ _ => ⟨_, rfl⟩
  · exact fun _ _ _ => ⟨_, rfl⟩
  · exact fun _ _ _ _ => ⟨_, rfl⟩
  · exact fun _ _ _ _ => ⟨_, rfl⟩
  · exact fun _ _ => ⟨_, rfl⟩
  · exact fun _ _ => ⟨_, rfl⟩
  · exact fun _ _ _ => ⟨_, rfl⟩
  · exact fun _ _ => ⟨_, rfl⟩
  · exact fun _ _ _ => ⟨_, rfl⟩
  · exact fun _ _ => ⟨_, rfl⟩
  · exact fun _ _ => ⟨_, rfl⟩
  · exact fun _ _ _ => ⟨_, rfl⟩
  · exact fun _ _ _ => ⟨_, rfl⟩
  · exact fun _ _ => ⟨_, rfl⟩
  · exact fun _ _ => ⟨_, rfl⟩
  · exact fun _ _ => ⟨_, rfl⟩
  · exact fun _ _ _ => ⟨_, rfl⟩
  · exact fun _ _ _ => ⟨_, rfl⟩
  · exact fun _ _ _ _ => ⟨_, rfl⟩
  · exact fun _ _ _ _ _ _ => ⟨_, rfl⟩
  · exact fun _ _ _ => ⟨_, rfl⟩
  · exact fun _ _ => ⟨_, rfl⟩
  · exact fun _ _ _ => ⟨_, rfl⟩
  · exact fun _ _ _ => ⟨_, rfl⟩
  · exact fun _ _ => ⟨_, rfl⟩
  · exact fun _ _ => ⟨_, rfl⟩
  · exact fun _ _ => ⟨_, rfl⟩
  · exact fun _ _ _ => ⟨_, rfl⟩
  · exact fun _ _ => ⟨_, rfl⟩
  · exact fun _ _ => ⟨_, rfl⟩
  · exact fun _ _ => ⟨_, rfl⟩
  · exact fun _ _ => ⟨_, rfl⟩
  · exact fun _ _ => ⟨_, rfl⟩
  · exact fun _ _ => ⟨_, rfl⟩
  · exact fun _ _ _ => ⟨_, rfl⟩
  · exact fun _ _ => ⟨_, rfl⟩
  · exact fun _ _ => ⟨_, rfl⟩
  · exact fun _ _ => ⟨_, rfl⟩
  · exact fun _ _ => ⟨_, rfl⟩
  · exact fun _ _ => ⟨_, rfl⟩
  · exact fun _ _ => ⟨_, rfl⟩
  · exact fun _ _ => ⟨_, rfl⟩
  · exact fun _ _ => ⟨_, rfl⟩
  · exact fun _ _ => ⟨_, rfl⟩
  · exact fun _ _ => ⟨_, rfl⟩

end Sys2Proof.Tests
end

section
/-!
PROOF. The freeze of a master (R358 to R361): what no operation that it leads to takes back, and what it leaves.
-/
namespace Sys2Proof.Machine

/-! ### What no operation of a freeze takes back -/

/-- The journal is a list of entries, of which later ones may push out the oldest. -/
def State.Logged (l : List JEntry) (s : State) : Prop := ∃ later, s.journal = (later ++ l).take journalSlots

/-- From one state to another the journal has only gained entries, and no bit of a master's copies has been cleared. -/
structure Retains (s t : State) : Prop where
  logged : ∀ l, s.Logged l → t.Logged l
  copies : ∀ m a i, a < 2 ^ 32 → bitOf (s.mreg m a) i = true → bitOf (t.mreg m a) i = true

theorem Retains.refl (s : State) : Retains s s := ⟨fun _ h => h, fun _ _ _ _ h => h⟩

theorem Retains.trans {r s t : State} (h : Retains r s) (k : Retains s t) : Retains r t :=
  ⟨fun l x => k.logged l (h.logged l x), fun m a i ha x => k.copies m a i ha (h.copies m a i ha x)⟩

/-- A change of anything but the journal and the copies. -/
theorem Retains.congr {r s t : State} (h : Retains r s) (hj : t.journal = s.journal) (hm : t.mregs = s.mregs) : Retains r t :=
  h.trans ⟨fun l x => by simpa only [State.Logged, hj] using x, fun m a i _ x => by simpa only [State.mreg, hm] using x⟩

/-- A change of other parts than the copies and the store. -/
theorem Retains.frame {ps : List Part} {r s t : State} (h : Retains r s) (k : OnlyParts ps s t) (hc : .copies ∉ ps := by decide)
    (hs : .store ∉ ps := by decide) : Retains r t :=
  h.congr (k.same .store hs).2.1 (k.same .copies hc)

theorem Retains.when {r s : State} (h : Retains r s) (b : Bool) {f : State → State} (k : ∀ u, Retains u (f u)) :
    Retains r (s.when b f) := by
  unfold State.when
  split
  · exact h.trans (k s)
  · exact h

theorem Retains.foldl {α : Type} {r : State} {f : State → α → State} (k : ∀ u a, Retains u (f u a)) (l : List α) :
    ∀ {s}, Retains r s → Retains r (l.foldl f s) := by
  induction l with
  | nil => exact fun h => h
  | cons a l ih => exact fun h => ih (h.trans (k _ a))

/-! ### Events and the journal -/

theorem bitOf_setBit_of {w : Word} {i : Nat} (j : Nat) (h : bitOf w i = true) : bitOf (setBit w j) i = true := by
  simp only [bitOf, setBit, BitVec.getLsbD_or, Bool.or_eq_true] at *
  exact .inl h

/-- Setting a bit of one copy. A master's number and a 32-bit offset give the key of one copy alone. -/
theorem Retains.setMreg {r s : State} (h : Retains r s) (m : Master) {a : Nat} (ha : a < 2 ^ 32) (j : Nat) :
    Retains r (s.setMreg m a (setBit (s.mreg m a) j)) := by
  refine h.trans ⟨fun l x => x, fun p b i hb x => ?_⟩
  by_cases hk : masterCode p * 2 ^ 32 + b = masterCode m * 2 ^ 32 + a
  · have hab : b = a := by omega
    subst hab
    simp only [State.mreg, State.setMreg_mregs, hk, tfind_tset_same, Option.getD_some] at x ⊢
    exact bitOf_setBit_of j x
  · simpa only [State.mreg, State.setMreg_mregs, tfind_tset_other _ _ hk] using x

theorem State.receives_src_lt {s : State} {d src : Nat} (h : s.receives d src = true) : src < 1024 := by
  simp only [State.receives, Bool.and_eq_true, decide_eq_true_eq] at h
  exact h.1.1

theorem Reg.pend_source_lt {src : Nat} (h : src < 1024) : Reg.HB_EVR_PEND (src / 32) < 2 ^ 32 := Reg.pend_lt (by omega)

/-- A raise only sets a pending bit, whatever becomes of its entry (R363). -/
theorem State.raiseTo_retains (src : Nat) (data : Word) (s : State) (d : Nat) : Retains s (State.raiseTo src data s d) := by
  by_cases hr : s.receives d src = true
  · have h := (Retains.refl s).setMreg (.host d) (Reg.pend_source_lt (State.receives_src_lt hr)) (src % 32)
    simp only [State.raiseTo, hr, if_true]
    (repeat' split) <;> exact h.congr rfl rfl
  · simpa [State.raiseTo, hr] using Retains.refl s

theorem Retains.raise {r s : State} (h : Retains r s) (src : Nat) (data : Word) : Retains r (s.raise src data) :=
  .foldl (fun u d => u.raiseTo_retains src data d) _ (h.frame (ps := [.events]) (by simp +decide))

theorem Retains.setReg {r s : State} (h : Retains r s) (a : Nat) (v : Word) : Retains r (s.setReg a v) := h.congr rfl rfl

theorem Retains.setEvt {r s : State} (h : Retains r s) (a i : Nat) : Retains r (s.setEvt a i) := by
  simp only [State.setEvt]
  split
  · exact h
  · split
    · exact (h.setReg ..).raise ..
    · exact h.setReg ..

/-- An entry put in front of the journal, where a full ring loses its oldest one. -/
theorem Retains.withEntry {r s : State} (h : Retains r s) (n : Nat) (e : JEntry) :
    Retains r { s with jseq := n, journal := (e :: s.journal).take journalSlots } := by
  refine h.trans ⟨fun l ⟨later, hl⟩ => ⟨e :: later, ?_⟩, fun _ _ _ _ x => x⟩
  have ht : ∀ k, (e :: (later ++ l).take k).take k = (e :: later ++ l).take k := by
    intro k
    cases k <;> simp [List.take_take]
  simp only [hl, ht]

theorem Retains.journalAdd {r s : State} (h : Retains r s) (stamp dom result code : Nat) (digest : Word) :
    Retains r (s.journalAdd stamp dom result code digest) := by
  simp only [State.journalAdd]
  split
  · exact h
  · refine Retains.raise ?_ _ _
    split
    · exact (h.withEntry ..).setEvt ..
    · exact h.withEntry ..

/-- The entry that is added, unless the store is write-protected (R437). -/
theorem State.journalAdd_journal {s : State} (hw : s.boot.writeProt = false) (stamp dom result code : Nat) (digest : Word) :
    (s.journalAdd stamp dom result code digest).journal =
      (⟨s.jseq + 1, stamp, dom, result, code, digest, s.reg Reg.HB_STR_EPOCH, true⟩ :: s.journal).take journalSlots := by
  simp only [State.journalAdd, hw, Bool.false_eq_true, if_false, State.raise_journal]
  split <;> simp only [State.setEvt_journal]

/-! ### The operations of the outputs and of the channels -/

section
variable {r s : State} (h : Retains r s)
include h

theorem Retains.setVo (i : Nat) (v : Vo) : Retains r (s.setVo i v) := h.congr rfl rfl
theorem Retains.setBrake (c : Nat) (b : Brake) : Retains r (s.setBrake c b) := h.congr rfl rfl
theorem Retains.setSaf (f : Saf → Saf) : Retains r (s.setSaf f) := h.congr rfl rfl
theorem Retains.setFds (f : FdSafe → FdSafe) : Retains r (s.setFds f) := h.congr rfl rfl
theorem Retains.setStr (f : Str → Str) : Retains r (s.setStr f) := h.congr rfl rfl
theorem Retains.setEng (e : Nat) (g : DmaEng) : Retains r (s.setEng e g) := h.congr rfl rfl

theorem Retains.voRaiseNow (i : Nat) : Retains r (s.voRaiseNow i) := by
  simp only [State.voRaiseNow]
  split
  · split
    · exact ((h.setVo ..).setBrake ..).setEvt ..
    · exact (h.setVo ..).setBrake ..
  · exact h.setVo ..

theorem Retains.voResume (i : Nat) : Retains r (s.voResume i) := by
  simp only [State.voResume]
  split
  · exact h
  · split
    · exact h.voRaiseNow i
    · exact h.setVo ..

theorem Retains.voUndefer (g : Nat) : Retains r (s.voUndefer g) := by
  simp only [State.voUndefer]
  split
  · exact h
  · exact .foldl (fun u i => (Retains.refl u).voResume i) _ h

theorem Retains.voLower (i : Nat) : Retains r (s.voLower i) := by
  simp only [State.voLower]
  split
  · exact h
  · split
    · exact (h.setVo ..).voUndefer _
    · exact h.setVo ..

theorem Retains.voRecheck : Retains r s.voRecheck := by
  refine .foldl (fun u i => ?_) _ h
  split
  · exact (Retains.refl u).voLower i
  · exact .refl u

theorem Retains.chanNote (n : ChanNote) : Retains r (s.chanNote n) := by
  cases n with
  | cpt b => exact h.setEvt ..
  | sec b => exact h.setEvt ..
  | fault cp => exact (h.setReg ..).raise ..
  | change n => exact h.raise ..

theorem Retains.resetEnded (q : QueuedCmd × Nat) : Retains r (s.resetEnded q) := by
  have hf : ∀ u f, Retains u { u with frw := f } := fun u f => (Retains.refl u).congr rfl rfl
  exact ((h.journalAdd ..).raise ..).when _ fun u => hf u _

theorem Retains.procDrain : Retains r s.procDrain :=
  .foldl (fun u q => (Retains.refl u).resetEnded q) _ (.foldl (fun u n => (Retains.refl u).chanNote n) _ (h.setSaf _))

theorem Retains.procDo (f : Channel → Channel) : Retains r (s.procDo f) := by
  simp only [State.procDo]
  split
  · exact (h.setSaf _).procDrain
  · exact h

theorem Retains.ledDo (f : Channel → Channel) : Retains r (s.ledDo f) := by
  simp only [State.ledDo]
  split
  · exact (h.setFds _).voRecheck
  · exact h

theorem Retains.endWaits (p : QueuedCmd → Bool) : Retains r (s.endWaits p) := (h.procDo _).ledDo _

/-! ### What a freeze ends -/

theorem Retains.leaseEnd (bit : Nat) (entry : Option Nat) : Retains r (s.leaseEnd bit entry) := by
  simp only [State.leaseEnd]
  split
  · exact h
  · have hl : ∀ l : Lease, Retains r { s with lease := l } := fun l => h.congr rfl rfl
    cases entry with
    | none => exact ((hl _).setEvt ..).endWaits _
    | some code => exact (((hl _).journalAdd ..).setEvt ..).endWaits _

theorem Retains.dmaDone (e res : Nat) (slot : Bool) : Retains r (s.dmaDone e res slot) := by
  simp only [State.dmaDone]
  split
  · exact h
  · exact ((h.setEng ..).setEvt ..).when _ fun u => (Retains.refl u).raise ..

theorem Retains.dmaUnqueue (e c res : Nat) : Retains r (s.dmaUnqueue e c res) := by
  simp only [State.dmaUnqueue, State.dmaRaise]
  exact (h.setEng ..).raise ..

theorem Retains.dmaStop (d : Nat) : Retains r (s.dmaStop d) :=
  .foldl (fun u e => .foldl (fun v c => (Retains.refl v).dmaUnqueue e c 10) _ ((Retains.refl u).dmaDone e 10 false)) _ h

theorem Retains.strAbort : Retains r s.strAbort.1 := by
  simp only [State.strAbort]
  split
  · exact (h.setStr _).setEvt ..
  · exact ((h.setStr _).setStr _).setEvt ..

theorem Retains.strAbandon : Retains r s.strAbandon := by
  simp only [State.strAbandon]
  split
  · split
    · exact h
    · exact (h.journalAdd ..).strAbort
  · exact h

theorem Retains.domainStops (d : Nat) : Retains r (s.domainStops d) := by
  have hd : Retains r (s.discardCmds d) := h.frame (ps := [.links, .commands]) (by simp +decide)
  have ho : Retains r (((s.discardCmds d).dmaStop d).dropOutbound d) := (hd.dmaStop d).congr rfl rfl
  exact ((ho.when _ fun u => (Retains.refl u).strAbandon).when _ fun u => (Retains.refl u).leaseEnd ..).when _
    fun u => (Retains.refl u).endWaits _

end

/-! ### The freeze of a master -/

/-- What keeps the routes of a source keeps whether a domain receives it: masks are no pending bits. -/
theorem Changes.receives {ps : List Part} {l : List Nat} {s t : State} (h : Changes ps l s t) {d src : Nat}
    (hl : Reg.HB_EVR_ROUTE src ∉ l) : t.receives d src = s.receives d src := by
  by_cases hs : src < 1024
  · have hm := h.copies (.host d) (Reg.HB_EVR_MASK (src / 32)) (by simp only [Reg.HB_EVR_MASK]; omega) fun i hi => by
      simp only [Reg.HB_EVR_MASK, Reg.HB_EVR_PEND]
      omega
    simp only [State.receives, h.regs _ hl, hm]
  · simp only [State.receives, hs, decide_false, Bool.false_and]

theorem State.raiseTo_pend {s : State} {d src : Nat} (h : s.receives d src = true) (data : Word) :
    bitOf ((State.raiseTo src data s d).mreg (.host d) (Reg.HB_EVR_PEND (src / 32))) (src % 32) = true := by
  have hb : ∀ w, bitOf (setBit w (src % 32)) (src % 32) = true := fun w => bitOf_setBit w (by omega)
  simp only [State.raiseTo, h, if_true]
  have hm := s.mreg_setMreg_same (.host d) (Reg.HB_EVR_PEND (src / 32))
    (setBit (s.mreg (.host d) (Reg.HB_EVR_PEND (src / 32))) (src % 32))
  (repeat' split) <;> exact (congrArg (bitOf · _) hm).trans (hb _)

/-- A raise towards a list of domains leaves the source pending at each of them that receives it. -/
theorem State.raiseTo_foldl_pend {d src : Nat} (data : Word) (l : List Nat) :
    ∀ s : State, d ∈ l → s.receives d src = true →
      bitOf ((l.foldl (State.raiseTo src data) s).mreg (.host d) (Reg.HB_EVR_PEND (src / 32))) (src % 32) = true := by
  induction l with
  | nil => simp
  | cons k l ih =>
    intro s hk h
    by_cases hkd : d = k
    · subst hkd
      exact (Retains.foldl (fun u j => u.raiseTo_retains src data j) l (.refl _)).copies _ _ _
        (Reg.pend_source_lt (State.receives_src_lt h)) (State.raiseTo_pend h data)
    · exact ih _ (List.mem_of_ne_of_mem hkd hk) (((State.raiseTo_only src data s k).receives (by simp)).trans h)

/-- A raised source is pending at every domain that receives it (R363). -/
theorem State.raise_pend {s : State} {d src : Nat} (hd : d < 8) (h : s.receives d src = true) (data : Word) :
    bitOf ((s.raise src data).mreg (.host d) (Reg.HB_EVR_PEND (src / 32))) (src % 32) = true :=
  State.raiseTo_foldl_pend data _ _ (List.mem_range.2 hd) h

/-- A master stands frozen with its record, the freeze is journaled and its source raised. -/
def State.freezeNoted (s : State) (r : FreezeRec) : State :=
  ((s.freezeAs r).journalAdd (s.freezeAs r).tc.now (match r.who with | .domain d => d | _ => 0xFF) r.cause.code 0x8002 r.rec0).raise 3 3

/-- What the freeze of a master ends. -/
def State.masterStops (s : State) (who : Frozen) : State :=
  match who with
  | .domain d => s.domainStops d
  | .dma c => s.when (((s.eng (c / 16)).run.map (·.ch)) == some (c % 16)) (·.dmaDone (c / 16) 8 false)
  | .core _ => s

/-- A violation of a master that is not frozen yet (R360). -/
theorem State.freeze_of_not_mem {s : State} {who : Frozen} (h : who ∉ s.frozen) (cause : FreezeCause) (detail : Nat) :
    s.freeze who cause detail = (s.freezeNoted ⟨who, cause, 0, s.tc.now, detail⟩).masterStops who := by
  unfold State.freeze State.masterStops State.freezeNoted
  refine (if_neg (by simpa using h)).trans ?_
  cases who <;> dsimp only

theorem State.freezeAs_changes (s : State) (r : FreezeRec) : Changes [.freeze] [] s (s.freezeAs r) :=
  .of_parts (by simp +decide) (by decide) (by decide)

theorem State.journalAdd_changes (s : State) (stamp dom result code : Nat) (digest : Word) :
    Changes [.store, .events] [Reg.HB_JNL_EVT] s (s.journalAdd stamp dom result code digest) := by
  have k : ∀ n j, Changes [.store, .events] [Reg.HB_JNL_EVT] s { s with jseq := n, journal := j } := fun n j =>
    (State.with_jseq_changes (t := { s with journal := j }) (by decide)).2 ((State.with_journal_changes (by decide)).2 (.refl ..))
  simp only [State.journalAdd]
  split
  · exact .refl ..
  · refine (State.raise_changes _ _ _ (by decide)).2 ?_
    split
    · exact (State.setEvt_changes _ _ _ (by simp) (by decide)).2 (k ..)
    · exact k ..

theorem State.masterStops_retains (s : State) (who : Frozen) : Retains s (s.masterStops who) := by
  cases who with
  | domain d => exact (Retains.refl s).domainStops d
  | dma c => exact (Retains.refl s).when _ fun u => (Retains.refl u).dmaDone ..
  | core c => exact .refl s

/-- Noting a freeze leaves the freeze part as the record's entry left it. -/
theorem State.freezeNoted_parts (s : State) (r : FreezeRec) :
    OnlyParts [.regs, .copies, .store, .events] (s.freezeAs r) (s.freezeNoted r) := by
  simp +decide [State.freezeNoted]

theorem State.masterStops_parts (s : State) (who : Frozen) :
    OnlyParts [.regs, .copies, .outs, .saf, .fds, .str, .frw, .links, .dma, .lease, .commands, .events, .store] s (s.masterStops who) := by
  cases who <;> simp +decide [State.masterStops]

/-- The lowest free record is one of the 32 and free. -/
theorem State.freeRecord_some {s : State} {k : Nat} (h : s.freeRecord = some k) : k < 32 ∧ tfind s.frzRecs k = none := by
  have hm := List.mem_of_find?_eq_some h
  have hp := List.find?_some h
  exact ⟨List.mem_range.1 hm, by simpa using hp⟩

theorem State.freezeAs_frozen (s : State) (r : FreezeRec) : (s.freezeAs r).frozen = s.frozen ++ [r.who] := by
  simp only [State.freezeAs]
  split <;> rfl

theorem State.freezeAs_frzRecs_of_some {s : State} {k : Nat} (h : s.freeRecord = some k) (r : FreezeRec) :
    (s.freezeAs r).frzRecs = tset s.frzRecs k r := by
  simp only [State.freezeAs, h]

theorem State.freezeAs_of_none {s : State} (h : s.freeRecord = none) (r : FreezeRec) :
    (s.freezeAs r).frzOver = true ∧ (s.freezeAs r).frzRecs = s.frzRecs := by
  simp only [State.freezeAs, h, and_self]

/-- The freeze of a master leaves its record, its journal entry and its source pending (R360). -/
theorem State.freeze_shown {s : State} {who : Frozen} (h : who ∉ s.frozen) (hw : s.boot.writeProt = false) (cause : FreezeCause)
    (detail : Nat) : FreezeShown ⟨who, cause, 0, s.tc.now, detail⟩ s (s.freeze who cause detail) := by
  rw [State.freeze_of_not_mem h]
  generalize hr : (⟨who, cause, 0, s.tc.now, detail⟩ : FreezeRec) = r
  generalize ht : (s.freezeNoted r).masterStops who = t
  have hret : Retains (s.freezeNoted r) t := ht ▸ State.masterStops_retains _ who
  have hframe : OnlyParts [.regs, .copies, .outs, .saf, .fds, .str, .frw, .links, .dma, .lease, .commands, .events, .store]
      (s.freezeAs r) t := ((s.freezeNoted_parts r).mono (by decide)).trans (ht ▸ State.masterStops_parts _ who)
  obtain ⟨hfrozen, hrecs, hover⟩ := hframe.same .freeze (by decide)
  have hchg := s.freezeAs_changes r
  have htc : (s.freezeAs r).tc = s.tc := (hchg.parts.same .time (by decide)).2
  have hboot : (s.freezeAs r).boot = s.boot := hchg.parts.same .boot (by decide)
  obtain ⟨-, hj, hseq, -⟩ := hchg.parts.same .store (by decide)
  refine ⟨?_, ?_, ?_, ?_, ?_, ?_⟩
  · simp [hfrozen, State.freezeAs_frozen]
  · intro f hf
    simp [hfrozen, State.freezeAs_frozen, hf]
  · intro k hk
    obtain ⟨hlt, hfree⟩ := State.freeRecord_some hk
    rw [hrecs, State.freezeAs_frzRecs_of_some hk]
    exact ⟨hlt, hfree, tfind_tset_same .., fun j hj => tfind_tset_other _ _ hj⟩
  · intro hk
    rw [hover, hrecs]
    exact State.freezeAs_of_none hk r
  · refine hret.logged _ ⟨[], ?_⟩
    rw [State.freezeNoted, State.raise_journal, State.journalAdd_journal (hboot ▸ hw), hj, hseq, htc, hchg.regs _ (by simp), ← hr]
    rfl
  · intro d hd hrcv
    refine hret.copies _ _ 3 (by decide) (State.raise_pend (src := 3) hd ?_ 3)
    rw [(State.journalAdd_changes ..).receives (by decide), hchg.receives (by simp)]
    exact hrcv

end Sys2Proof.Machine
end

section
/-!
PROOF. Register accesses (R9 to R11, R358 to R360, R537, R538, R541, R542, R546) and the state after reset (R12).
-/
namespace Sys2Proof.Machine

/-! ### What an access meets -/

/-- Every register block lies below the window of the MSI-X table (R543, R544). -/
theorem bar2At_of_blockOf {a : Nat} {x : Block × Nat × Nat} (h : blockOf a = some x) (m : Master) : bar2At m a = none := by
  have ha : a < bar2Base := by
    by_contra hc
    have hb : 4294967296 ≤ a := by simpa [bar2Base] using hc
    rw [blockOf, if_neg (by omega), if_neg (by omega), if_neg (by omega), if_neg (by omega), if_neg (by omega)] at h
    cases h
  cases m with
  | host d => exact if_neg (by omega)
  | firmware => rfl
  | core c => rfl

/-- A reserved offset lies in a block, and so does the address of a block that cannot answer. -/
theorem State.blockOf_of_untaken {s : State} {m : Master} {a : Nat} (h : s.meets m a = .reserved ∨ s.meets m a = .dead) :
    ∃ x, blockOf a = some x := by
  unfold State.meets at h
  (repeat' split at h) <;> simp at h
  all_goals exact ⟨_, ‹_›⟩

/-- A violation of a domain that is open. -/
theorem State.offend_of_open {s : State} {d : Nat} (h : s.domClosed d = false) (c : FreezeCause) (a : Nat) :
    s.offend (.host d) c a = s.freeze (.domain d) c a := by
  simp only [State.offend, State.closedMaster, h, Bool.false_and, Bool.false_eq_true, if_false, State.violate]

theorem State.offend_shown {s : State} {d : Nat} (ho : s.domClosed d = false) (hf : .domain d ∉ s.frozen)
    (hw : s.boot.writeProt = false) (c : FreezeCause) (a : Nat) :
    FreezeShown ⟨.domain d, c, 0, s.tc.now, a⟩ s (s.offend (.host d) c a) :=
  State.offend_of_open ho c a ▸ State.freeze_shown hf hw c a

theorem FreezeShown.send {r : FreezeRec} {s t : State} (h : FreezeShown r s t) (o : Sent) : FreezeShown r s (t.send o) := h

/-! ### The commands -/

theorem exec_registerWrite_unaligned (dt : Nat) (m : Master) {a : Nat} (ha : a % 4 ≠ 0) (v : Word) (s : State) :
    exec (.registerWrite dt m a v) s = .next (s.elapse dt) := by
  change execRegisterWrite dt m a v s = _
  simp only [execRegisterWrite, ha, ne_eq, not_false_eq_true, if_true]

/-- The word that a write covers is written by the one operation of the bus. -/
theorem exec_registerWrite (dt : Nat) {m : Master} {a : Nat} (ha : a % 4 = 0) (hb : bar2At m a = none) (v : Word) (s : State) :
    exec (.registerWrite dt m a v) s = s.writeRow dt m a fun _ => v := by
  change execRegisterWrite dt m a v s = _
  simp only [execRegisterWrite, ha, hb, ne_eq, not_true_eq_false, if_false]

theorem exec_registerRead (dt : Nat) {m : Master} {a : Nat} (ha : a % 4 = 0) (hb : bar2At m a = none) (s : State) :
    exec (.registerRead dt m a) s = s.readRow dt m a := by
  change execRegisterRead dt m a s = _
  simp only [execRegisterRead, ha, Nat.sub_zero, hb]

theorem State.writeRow_of_busWrite {s e t : State} {dt : Nat} {m : Master} {a : Nat} {v : State → Word} {bad : Bool}
    (he : s.elapse dt = e) (hu : e.boot.up = true) (h : e.busWrite m a (v e) true = some (t, bad)) : s.writeRow dt m a v = .next t := by
  subst he
  simp only [State.writeRow, State.tryHb, hu, if_true, State.writeWord, h, Option.map_some]

theorem State.readRow_of_busRead {s e t : State} {dt : Nat} {m : Master} {a : Nat} {w : Word} {bad : Bool}
    (he : s.elapse dt = e) (hu : e.boot.up = true) (h : e.busRead m a = (t, w, bad)) :
    s.readRow dt m a = .next (t.send (.reply m a w bad)) := by
  subst he
  simp only [State.readRow, State.afterHb, State.after, State.when, hu, if_true, State.readWord, h]

/-! ### What the bus does where no register is reached (R358 to R360, R538, R542) -/

section
variable {s : State} {m : Master} {a : Nat}

theorem State.busWrite_of_closed {c : FreezeCause} (h : s.meets m a = .closed c) (v : Word) (nvOk : Bool) :
    s.busWrite m a v nvOk = some (s.offend m c a, true) := by
  simp only [State.busWrite, h]

theorem State.busWrite_of_denied {b : Block} {n o : Nat} {row : RegRow} (h : s.meets m a = .register b n o row)
    (hd : s.writeDenied m b o = true) (v : Word) (nvOk : Bool) : s.busWrite m a v nvOk = some (s.offend m .role a, true) := by
  simp only [State.busWrite, h, hd, if_true]

theorem State.busWrite_of_frozen {b : Block} {n o : Nat} {row : RegRow} (h : s.meets m a = .register b n o row)
    (hd : s.writeDenied m b o = false) (hf : s.isFrozen m = true) (v : Word) (nvOk : Bool) :
    s.busWrite m a v nvOk = some (s, true) := by
  simp only [State.busWrite, h, hd, hf, Bool.false_eq_true, if_false, if_true]

theorem State.busRead_of_closed {c : FreezeCause} (h : s.meets m a = .closed c) :
    s.busRead m a = (s.offend m c a, allOnes, true) := by
  simp only [State.busRead, h]

theorem State.busRead_of_reserved (h : s.meets m a = .reserved) (hf : s.isFrozen m = false) : s.busRead m a = (s, 0, false) := by
  simp only [State.busRead, h, hf]

theorem State.busRead_of_dead (h : s.meets m a = .dead) : s.busRead m a = (s, allOnes, true) := by
  cases hf : s.isFrozen m <;> simp only [State.busRead, h, hf]

theorem State.busRead_of_frozen {b : Block} {n o : Nat} {row : RegRow} (h : s.meets m a = .register b n o row)
    (hf : s.isFrozen m = true) : s.busRead m a = (s, allOnes, true) := by
  simp only [State.busRead, h, hf]

end

/-- A write of a word that nothing takes leaves the state, but for the refusal that a die without power shows (R66). -/
theorem State.busWrite_of_untaken {s : State} {m : Master} {a : Nat}
    (h : s.meets m a = .reserved ∨ s.meets m a = .dead ∧ ∀ d, blockOf a ≠ some (.ofe, d, 0)) (v : Word) (nvOk : Bool) :
    (∃ x, blockOf a = some x) ∧ s.busWrite m a v nvOk = some (s, s.isFrozen m) := by
  obtain hm | ⟨hm, hofe⟩ := h
  · exact ⟨State.blockOf_of_untaken (.inl hm), by simp only [State.busWrite, hm]⟩
  · have hr : s.watchRefuse m a v = s := by
      unfold State.watchRefuse
      split
      · next d hd => exact absurd hd (hofe d)
      · rfl
    refine ⟨State.blockOf_of_untaken (.inr hm), ?_⟩
    cases hf : s.isFrozen m <;> simp only [State.busWrite, hm, hf, hr]

/-- An access of a hub core outside its regions. -/
theorem exec_hubCoreAccess {s e : State} {dt : Nat} (he : s.elapse dt = e) (hu : e.boot.up = true) (c a : Nat) :
    exec (.hubCoreAccess dt c a) s = .next (hubCoreAccess c a e) := by
  subst he
  change execHubCoreAccess dt c a s = _
  simp only [execHubCoreAccess, State.afterHb, State.after, State.when, hu, if_true]

/-- The freeze of a core ends nothing beside it. -/
theorem State.freeze_core_parts {s : State} {c : Nat} (h : .core c ∉ s.frozen) (cause : FreezeCause) (a : Nat) :
    OnlyParts [.regs, .copies, .freeze, .events, .store] s (s.freeze (.core c) cause a) := by
  rw [State.freeze_of_not_mem h]
  exact ((s.freezeAs_changes _).parts.mono (by decide)).trans ((s.freezeNoted_parts _).mono (by decide))

/-! ### Registers that a master may access -/

/-- No register whose read latches others clears on reading. -/
theorem State.latchRead_of_rc {s : State} {m : Master} {b : Block} {n o : Nat} {row : RegRow} (hr : b.row? o = some row)
    (hrc : row.access = .rc) : s.latchRead m b n o = none := by
  have key : (b.row? o).any (·.access == .rc) = true := by simp [hr, hrc]
  simp only [State.latchRead]
  split
  case h_12 => rfl
  all_goals exact absurd key (by decide)

/-- A read that clears answers the value before it. -/
theorem State.regRead_of_rc {s : State} {m : Master} {a : Nat} {b : Block} {n o : Nat} {row : RegRow} (hr : b.row? o = some row)
    (hrc : row.access = .rc) : s.regRead m a b n o row =
      ((s.setReg a row.reset).when (b == .cvu) (·.cvCountRead ((o - 0x800) / 0x10)), s.regValue m a b n o row) := by
  simp only [State.regRead, State.latchRead_of_rc hr hrc, Option.getD_none, State.readClear, hrc, if_true]

section
variable {s e : State} {dt : Nat} {m : Master} {a : Nat} {b : Block} {n o : Nat} {row : RegRow} (he : s.elapse dt = e)
  (hu : e.boot.up = true) (ha : a % 4 = 0)
include he hu ha

/-- A write of a register that the master may write takes the register's own effect. -/
theorem exec_registerWrite_listed (hw : e.mayWrite m a = true) (hb : blockOf a = some (b, n, o)) (hr : b.row? o = some row) (v : Word) :
    exec (.registerWrite dt m a v) s = match e.listedWrite m a b n o row v true with
      | some t => .next t
      | none => .fault (.reservedField a) :=
  (exec_registerWrite dt ha (bar2At_of_blockOf hb m) v s).trans (State.writeRow_of_mayWrite he hu hw hb hr)

/-- A read of a register that the master may read answers its value (R10). -/
theorem exec_registerRead_listed (hm : e.mayRead m a = true) (hb : blockOf a = some (b, n, o)) (hr : b.row? o = some row) :
    exec (.registerRead dt m a) s =
      .next ((e.regRead m a b n o row).1.send (.reply m a (e.regRead m a b n o row).2 false)) :=
  (exec_registerRead dt ha (bar2At_of_blockOf hb m) s).trans (State.readRow_of_mayRead he hu hm hb hr)

end

/-- A domain's selection of a freeze record has no reserved bit and is kept as written (R361, R541). -/
theorem frzSel_kept {v : Word} (h : v.toNat < 32) :
    hitsReserved .hst 0x1C ⟨0x1C, 0, 1, .rw, 0⟩ v = false ∧ v &&& 0x1F = v := by
  have key : ∀ k < 32, hitsReserved .hst 0x1C ⟨0x1C, 0, 1, .rw, 0⟩ (BitVec.ofNat 32 k) = false ∧
      BitVec.ofNat 32 k &&& 0x1F = BitVec.ofNat 32 k := by decide
  simpa only [BitVec.ofNat_toNat, BitVec.setWidth_eq] using key _ h

/-- Settles O40: every access of a word that a master may write or read is the register's own (`exec_registerWrite_listed`,
`exec_registerRead_listed`), and every other one follows from what its address meets; the violations are the freeze of R360
(`State.freeze_shown`). -/
theorem registersAreAccessed : Obligations.RegistersAreAccessed := by
  unfold Obligations.RegistersAreAccessed
  refine ⟨?_, ?_, ?_, ?_, ?_, ?_, ?_, ?_, ?_, ?_, ?_, ?_, ?_, ?_, ?_, ?_, ?_, ?_, ?_⟩
  · rintro dt s e m a v rfl ha
    exact exec_registerWrite_unaligned dt m ha v s
  · intro dt s e m a v b n o row he hu ha hw hb hr hro
    rw [exec_registerWrite_listed he hu ha hw hb hr]
    obtain h | h := hro <;> simp [State.listedWrite, hitsReserved, h]
  · intro dt s e m a v b n o row he hu ha hw hb hr hc hwsc hres
    rw [exec_registerWrite_listed he hu ha hw hb hr]
    simp [State.listedWrite, hres, hc, State.clearWrite, hwsc]
  · intro dt s e m v he hu hw hv
    obtain ⟨hres, hkeep⟩ := frzSel_kept hv
    rw [exec_registerWrite_listed (o := 0x1C) he hu (by decide) hw rfl rfl]
    simp only [State.listedWrite, hres, State.regWrite, selectMask, hkeep, Bool.false_eq_true, if_false, reduceCtorEq, false_and]
  · intro dt s e m a v b n o row he hu ha hw hb hr hres
    rw [exec_registerWrite_listed he hu ha hw hb hr]
    simp [State.listedWrite, hres]
  · intro dt s e m a v he hu ha hm
    obtain ⟨⟨x, hx⟩, hbus⟩ := State.busWrite_of_untaken hm v true
    rw [exec_registerWrite dt ha (bar2At_of_blockOf hx m)]
    exact State.writeRow_of_busWrite he hu hbus
  · intro dt s e d a v c he hu ha hbar hw ho hf hm
    rw [exec_registerWrite dt ha hbar]
    exact ⟨_, State.writeRow_of_busWrite he hu (State.busWrite_of_closed hm v true), State.offend_shown ho hf hw c a⟩
  · intro dt s e d a v b n o row he hu ha hw ho hf hm hden
    rw [exec_registerWrite dt ha (bar2At_of_blockOf (State.meets_register hm).1 _)]
    exact ⟨_, State.writeRow_of_busWrite he hu (State.busWrite_of_denied hm hden v true), State.offend_shown ho hf hw .role a⟩
  · intro dt s e m a v b n o row he hu ha hf hm hden
    rw [exec_registerWrite dt ha (bar2At_of_blockOf (State.meets_register hm).1 _)]
    exact State.writeRow_of_busWrite he hu (State.busWrite_of_frozen hm hden hf v true)
  · intro dt s m a
    change execRegisterRead dt m a s = execRegisterRead dt m (a - a % 4) s
    have ha : (a - a % 4) % 4 = 0 := by omega
    simp only [execRegisterRead, ha, Nat.sub_zero]
  · intro dt s e m a b n o row he hu ha hm hb hr hrc hl
    rw [exec_registerRead_listed he hu ha hm hb hr, State.peek_of hb hr]
    simp [State.regRead, hl, State.readClear, hrc]
  · intro dt s e m a b n o row he hu ha hm hb hr hrc hcvu
    rw [exec_registerRead_listed he hu ha hm hb hr, State.peek_of hb hr, State.regRead_of_rc hr hrc]
    simp [State.when, hcvu]
  · intro dt s e m a b n o row he hu ha hm hb hr hrc hcvu
    rw [exec_registerRead_listed he hu ha hm hb hr, State.peek_of hb hr, State.regRead_of_rc hr hrc]
    simp [State.when, hcvu]
  · intro dt s e m a he hu ha hf hm
    obtain ⟨x, hx⟩ := State.blockOf_of_untaken (.inl hm)
    rw [exec_registerRead dt ha (bar2At_of_blockOf hx m)]
    exact State.readRow_of_busRead he hu (State.busRead_of_reserved hm hf)
  · intro dt s e m a he hu ha hm
    obtain ⟨x, hx⟩ := State.blockOf_of_untaken (.inr hm)
    rw [exec_registerRead dt ha (bar2At_of_blockOf hx m)]
    exact State.readRow_of_busRead he hu (State.busRead_of_dead hm)
  · intro dt s e m a b n o row he hu ha hf hm
    rw [exec_registerRead dt ha (bar2At_of_blockOf (State.meets_register hm).1 _)]
    exact State.readRow_of_busRead he hu (State.busRead_of_frozen hm hf)
  · intro dt s e d a c he hu ha hbar hw ho hf hm
    rw [exec_registerRead dt ha hbar]
    exact ⟨_, State.readRow_of_busRead he hu (State.busRead_of_closed hm), (State.offend_shown ho hf hw c a).send _, rfl⟩
  · intro dt s e c a he hu hw hs hf
    rw [exec_hubCoreAccess he hu]
    simp only [hubCoreAccess, State.when, hs, if_true, State.violate]
    exact ⟨_, rfl, State.freeze_shown hf hw .coreRange a, State.freeze_core_parts hf .coreRange a⟩
  · intro dt s e c a he hu hs
    rw [exec_hubCoreAccess he hu]
    simp only [hubCoreAccess, State.when, hs, Bool.false_eq_true, if_false]

/-- No output is energised after reset, and no group check runs. -/
theorem State.reset_outputsGuarded : State.reset.outputsGuarded :=
  fun _ _ => ⟨fun _ h => Bool.noConfusion (h : false = true), fun h => absurd rfl h⟩

/-- Settles O52: every table of the reset state is empty, so each of its entries is the value that its declaration gives. -/
theorem afterReset : Obligations.AfterReset := by
  unfold Obligations.AfterReset
  exact ⟨State.reset, rfl, rfl, rfl, rfl, fun _ => rfl, fun _ _ => rfl, rfl, rfl, rfl, rfl, fun _ => ⟨rfl, rfl, rfl, rfl⟩, fun _ => rfl,
    rfl, rfl, rfl, rfl, rfl, State.reset_outputsGuarded⟩

end Sys2Proof.Machine
end

section
/-!
PROOF. What the rows of the acquisition dies and of the two channels leave unchanged, the time that passes apart.
-/
namespace Sys2Proof.Machine

/-! ### The frame of a row is that of its operation -/

section
variable {ps qs : List Part} {s s' : State} {dt : Nat} {f : State → State}
  (k : ∀ {q z} u, within ps q = true → (OnlyParts q z (f u) ↔ OnlyParts q z u))
include k

theorem after_frame (h : s.after dt f = .next s') (hw : within ps qs = true := by decide) : OnlyParts qs (s.elapse dt) s' := by
  cases h
  exact (k _ hw).2 (.refl ..)

/-- A logic side that is held in reset changes nothing. -/
theorem afterHb_frame (h : s.afterHb dt f = .next s') (hw : within ps qs = true := by decide) : OnlyParts qs (s.elapse dt) s' :=
  after_frame (fun _ hu => State.when_parts ((k _ hu).2 (.refl ..))) h hw

/-- An FD that is held in reset changes nothing. -/
theorem afterFd_frame (h : s.afterFd dt f = .next s') (hw : within ps qs = true := by decide) : OnlyParts qs (s.elapse dt) s' :=
  after_frame (fun _ hu => State.when_parts ((k _ hu).2 (.refl ..))) h hw

end

/-- Settles O55: each row is one operation after its time, on the side that it belongs to, and each operation has its frame. -/
theorem acquisitionFrames : Obligations.AcquisitionFrames := by
  unfold Obligations.AcquisitionFrames
  exact ⟨fun _ _ _ _ h => afterHb_frame (laserWindowReached_parts _) h,
    fun _ _ _ _ h => afterHb_frame (laserOkRise_parts _) h,
    fun _ _ _ _ h => afterHb_frame (laserOkTimeout_parts _) h,
    fun _ _ _ _ h => afterHb_frame (ampEnable_parts _) h,
    fun _ _ _ _ _ h => afterHb_frame (ampCheckEnd_parts _ _) h,
    fun _ _ _ _ h => after_frame (laserOffDelay_parts _) h,
    fun _ _ _ _ h => afterHb_frame (interlockOpen_parts _) h,
    fun _ _ _ _ h => afterHb_frame (interlockClosedHold_parts _) h,
    fun _ _ _ _ h => afterHb_frame (ampFault_parts _) h,
    fun _ _ _ _ h => afterHb_frame (ampRetry_parts _) h,
    fun _ _ _ _ h => afterHb_frame (laserOkLoss_parts _) h,
    fun _ _ _ _ h => afterHb_frame (rxOkFall_parts _) h,
    fun _ _ _ _ _ _ _ _ h => afterHb_frame (thmSample_parts _ _ _ _ _) h,
    fun _ _ _ _ h => afterHb_frame (tecLoopStep_parts _) h,
    fun _ _ _ _ h => afterHb_frame (tecOvercurrent_parts _) h,
    fun _ _ _ _ h => afterHb_frame (probeWindowUnlocked_parts _) h,
    fun _ _ _ _ h => afterHb_frame (probeStart_parts _) h,
    fun _ _ _ _ h => afterHb_frame (periodStart_parts _) h,
    fun _ _ _ _ _ h => afterHb_frame (toneFiring_parts _ _ _) h,
    fun _ _ _ h => afterHb_frame calBankWriteDone_parts h,
    fun _ _ _ _ h => afterHb_frame (calRoundStart_parts _) h,
    fun _ _ _ _ h => afterHb_frame (calPhaseAEnd_parts _) h,
    fun _ _ _ _ _ h => afterHb_frame (calRoundEnd_parts _ _) h,
    fun _ _ _ _ h => afterHb_frame (calRoundAbandon_parts _) h,
    fun _ _ _ _ h => afterHb_frame (calRampEnd_parts _) h,
    fun _ _ _ h => afterHb_frame trimReportReceived_parts h,
    fun _ _ _ h => afterHb_frame trimSetWrite_parts h,
    fun _ _ _ _ _ _ _ h => afterHb_frame (tailWindowEnd_parts _ _ _ _) h,
    fun _ _ _ _ _ _ h => afterHb_frame (sliceReceived_parts _ _ _) h,
    fun _ _ _ _ _ h => afterHb_frame (lanePeriodEnd_parts _ _) h,
    fun _ _ _ _ _ _ h => afterHb_frame (edgeRecordReceived_parts _ _ _) h,
    fun _ _ _ _ _ _ h => afterHb_frame (refWindowEnd_parts _ _ _) h,
    fun _ _ _ _ h => afterHb_frame (reacqComplete_parts _) h,
    fun _ _ _ _ h => afterHb_frame (reacqForce_parts _) h,
    fun _ _ _ _ _ h => afterHb_frame (stampFloorSend_parts _ _) h,
    fun _ _ _ _ _ h => afterHb_frame (spareLoadComplete_parts _ _) h,
    fun _ _ _ _ _ h => afterHb_frame (fun _ => State.blockFault_parts _ _ _ _) h,
    fun _ _ _ _ _ _ h => afterHb_frame (memScrub_parts _ _ _) h,
    fun _ _ _ _ _ h => afterHb_frame (fun _ => State.blockFault_parts _ _ _ _) h,
    fun _ _ _ _ _ h => afterHb_frame (stampFloorMissing_parts _ _) h,
    fun _ _ _ _ _ h => afterHb_frame (blockPowerDown_parts _ _) h,
    fun _ _ _ _ _ h => afterHb_frame (fun _ => State.quarterFault_parts _ _ _ _) h,
    fun _ _ _ _ _ h => afterHb_frame (laneReturnTestEnd_parts _ _) h,
    fun _ _ _ _ _ _ h => afterHb_frame (blockReturnComplete_parts _ _ _) h,
    fun _ _ _ _ _ h => afterHb_frame (fun _ => State.quarterFault_parts _ _ _ _) h,
    fun _ _ _ _ _ h => afterHb_frame (detectionSample_parts _ _) h,
    fun _ _ _ _ _ h => afterHb_frame (ps := [.regs, .copies, .lbq, .sensors, .events]) (fun u hu => by
      split
      · exact State.sensorDue_parts _ _ _ hu
      · rfl) h,
    fun _ _ _ _ _ h => afterHb_frame (ps := [.regs, .copies, .lbq, .sensors, .events]) (fun u hu => by
      split
      · exact State.sensorDue_parts _ _ _ hu
      · rfl) h,
    fun _ _ _ _ _ h => afterHb_frame (wheelEventEmit_parts _ _) h,
    fun _ _ _ _ h => afterHb_frame (profileRecord_parts _) h,
    fun _ _ _ _ h => afterHb_frame (acwBlockReady_parts _) h⟩

/-- Settles O56: each row is one operation after its time, on the side that it belongs to, and each operation has its frame. -/
theorem channelFrames : Obligations.ChannelFrames := by
  unfold Obligations.ChannelFrames
  exact ⟨fun _ _ _ _ h => afterHb_frame (ptpMessage_parts _) h,
    fun _ _ _ _ h => afterHb_frame (ppsEdge_parts _) h,
    fun _ _ _ h => afterHb_frame ppsEdgeMissing_parts h,
    fun _ _ _ h => afterHb_frame holdoverEntry_parts h,
    fun _ _ _ _ h => after_frame (slewMessage_parts _) h,
    fun _ _ _ _ h => afterHb_frame (skewDetect_parts _ _) h,
    fun _ _ _ _ h => afterHb_frame (skewRecover_parts _ _) h,
    fun _ _ _ h => afterHb_frame ptpDelayReq_parts h,
    fun _ _ _ h => afterHb_frame tcStepApply_parts h,
    fun _ _ _ h => after_frame tcStepMessage_parts h,
    fun _ _ _ _ _ _ _ h => after_frame (linkFrame_parts _ _ _ _) h,
    fun _ _ _ _ h => afterHb_frame (idleFrame_parts _) h,
    fun _ _ _ h => after_frame fdWatermark_parts h,
    fun _ _ _ _ _ h => afterHb_frame (watermarkReceived_parts _ _) h,
    fun _ _ _ _ _ h => afterHb_frame (sourceEvent_parts _ _) h,
    fun _ _ _ h => afterHb_frame eventRelease_parts h,
    fun _ _ _ _ h => afterHb_frame (dieLinkSilence_parts _) h,
    fun _ _ _ _ h => afterHb_frame (dieLinkResume_parts _) h,
    fun _ _ _ _ h => afterHb_frame (replayTimeout_parts _) h,
    fun _ _ _ _ h => after_frame (isoSilence_parts _) h,
    fun _ _ _ _ h => afterHb_frame (crossingFault_parts _) h,
    fun _ _ _ h => afterHb_frame horizonMarkSend_parts h,
    fun _ _ _ _ h => afterHb_frame (dieStatus_parts _) h,
    fun _ _ _ _ h => afterHb_frame (dieExclusion_parts _) h,
    fun _ _ _ h => afterFd_frame releasedEventReceived_parts h,
    fun _ _ _ h => afterFd_frame horizonMarkReceived_parts h,
    fun _ _ _ h => afterFd_frame cycleMarkReceived_parts h,
    fun _ _ _ h => afterFd_frame spanRestartReceived_parts h,
    fun _ _ _ _ _ h => afterHb_frame (fun _ => State.pairFault_parts _ _ _) h,
    fun _ _ _ _ _ _ h => afterHb_frame (pairSelftest_parts _ _ _) h,
    fun _ _ _ _ h => afterHb_frame (verdictDeadline_parts _) h,
    fun _ _ _ _ h => afterHb_frame (verdictSend_parts _) h,
    fun _ _ _ h => after_frame verdictSegment_parts h,
    fun _ _ _ h => after_frame combinationCompare_parts h,
    fun _ _ _ _ h => after_frame (verdictTimeout_parts _) h,
    fun _ _ _ h => after_frame verdictLoss_parts h,
    fun _ _ _ _ h => after_frame (safeStopCauseClear_parts _) h,
    fun _ _ _ h => after_frame ledgerFault_parts h,
    fun _ _ _ _ h => after_frame (ledgerScrub_parts _) h,
    fun _ _ _ _ _ h => afterHb_frame (returnSelftest_parts _ _) h,
    fun _ _ _ _ h => afterHb_frame (returnComplete_parts _) h,
    fun _ _ _ _ h => afterHb_frame (debugHalt_parts _) h,
    fun _ _ _ h => after_frame fieldSupplyFault_parts h,
    fun _ _ _ h => after_frame fdInternalFault_parts h,
    fun _ _ _ _ _ h => after_frame (legacyDiscrepancy_parts _ _) h,
    fun _ _ _ _ _ h => after_frame (headUnresolved_parts _ _) h,
    fun _ _ _ _ _ h => after_frame (fusedDisagree_parts _ _) h,
    fun _ _ _ _ _ h => after_frame (headBackInService_parts _ _) h,
    fun _ _ _ _ h => after_frame (directResetTimeout_parts _) h⟩

end Sys2Proof.Machine
end

section
/-!
PROOF. The town clock (R39 to R48): its discipline, its steps, FD's copy and the latch of its time.
-/
namespace Sys2Proof.Machine

/-! ### Rows of a side that runs -/

section
variable {s e : State} {dt : Nat} (he : s.elapse dt = e)
include he

theorem afterHb_of_up (hu : e.boot.up = true) (f : State → State) : s.afterHb dt f = .next (f e) := by
  subst he
  simp only [State.afterHb, State.after, State.when, hu, if_true]

theorem afterFd_of_up (hu : e.fdUp = true) (f : State → State) : s.afterFd dt f = .next (f e) := by
  subst he
  simp only [State.afterFd, State.after, State.when, hu, if_true]

theorem after_eq (f : State → State) : s.after dt f = .next (f e) := by
  subst he
  rfl

end

/-! ### Discipline (R41, R42, R45) -/

/-- A step request changes nothing of the clock but what is pending. -/
theorem State.stepRequest_tc (s : State) (k : StepKind) : ∃ p, (s.stepRequest k).tc = { s.tc with stepPending := p } := by
  unfold State.stepRequest
  split
  · exact ⟨s.tc.stepPending, by simp⟩
  · exact ⟨some k, rfl⟩

theorem State.when_tc {s : State} {f : State → State} (h : (f s).tc = s.tc) (b : Bool) : (s.when b f).tc = s.tc := by
  unfold State.when
  split
  · exact h
  · rfl

theorem State.tcLock_tc (s : State) : s.tcLock.tc = { s.tc with disc := .locked, valid := true } := by
  simp [State.tcLock]

/-- What a measurement sets: the offset, and of the rest of the clock at most the lock, the frequency correction and a pending step. -/
theorem State.tcMeasure_tc (s : State) (off : Int) : ∃ g d f p v,
    (s.tcMeasure off).tc = { s.tc with offset := off, good := g, disc := d, freq := f, stepPending := p, valid := v } := by
  have key : ∀ u : State, ∀ g d f, u.tc = { s.tc with offset := off, good := g, disc := d, freq := f } → ∀ b,
      ∃ p, (u.when b (·.stepRequest .source)).tc = { s.tc with offset := off, good := g, disc := d, freq := f, stepPending := p } := by
    intro u g d f hu b
    unfold State.when
    split
    · obtain ⟨p, hp⟩ := u.stepRequest_tc .source
      exact ⟨p, by rw [hp, hu]⟩
    · exact ⟨s.tc.stepPending, hu⟩
  unfold State.tcMeasure
  extract_lets auto lim hold s1 s2 s3
  obtain ⟨p, hp⟩ := key s1 _ _ _ rfl (auto && off != 0)
  have h3 : s3.tc = s2.tc := State.when_tc (by simp) _
  split
  · exact ⟨_, _, _, _, _, by rw [State.tcLock_tc, h3, hp]⟩
  · exact ⟨_, _, _, _, _, by rw [h3, hp]⟩

theorem State.stepRequest_changes (s : State) (k : StepKind) : Changes [.time, .events] [Reg.HB_TC_EVT] s (s.stepRequest k) := by
  unfold State.stepRequest
  split <;> simp +decide

theorem State.tcLock_changes (s : State) : Changes [.time, .events] [Reg.HB_TC_EVT] s s.tcLock := by
  simp +decide [State.tcLock]

theorem State.tcMeasure_changes (s : State) (off : Int) : Changes [.time, .events] [Reg.HB_TC_EVT] s (s.tcMeasure off) := by
  unfold State.tcMeasure
  extract_lets auto lim hold s1 s2 s3
  have h1 : Changes [.time, .events] [Reg.HB_TC_EVT] s s1 := by simp +decide [s1]
  have h2 : Changes [.time, .events] [Reg.HB_TC_EVT] s1 s2 := (State.when_changes (s1.stepRequest_changes _)).2 (.refl ..)
  have h3 : Changes [.time, .events] [Reg.HB_TC_EVT] s2 s3 := (State.when_changes (by simp +decide)).2 (.refl ..)
  split
  · exact ((h1.trans h2).trans h3).trans s3.tcLock_changes
  · exact (h1.trans h2).trans h3

/-- A sync of the selected master, whose path delay is known, measures the offset (R41). -/
theorem State.ptpM2S_of_mean {s : State} {mean : Int} (h : s.tc.ptpMean = some mean) (diff : Int) :
    s.ptpM2S diff =
      (s.setTc fun t => { t with ptpM2S := some diff, ptpSync := none, lastSync := s.now }).tcMeasure (-(diff - mean)) := by
  simp only [State.ptpM2S, State.setTc_tc, h]

/-- An edge that is accepted measures the offset and ends the count of missing edges (R42). -/
theorem ppsEdge_of_accepted {s : State} {falling : Bool} (hsrc : s.tcSrc = 3) (hedge : bitOf (s.reg Reg.HB_TC_PPS_CFG) 16 = falling)
    (hlock : s.tc.disc ≠ .locked) (hnear : ((s.tc.now : Int) - fld (s.reg Reg.HB_TC_PPS_CFG) 0 16) % 1000000000 < 500000000) :
    ppsEdge falling s = (s.setTc fun t => { t with missed := 0 }).tcMeasure
      (-(((s.tc.now : Int) - fld (s.reg Reg.HB_TC_PPS_CFG) 0 16) % 1000000000)) := by
  simp [ppsEdge, hsrc, hedge, hlock, hnear]

/-- Holdover from lock loses the lock and is shown (R45). -/
theorem holdoverEntry_of_locked {s : State} (hdue : s.holdoverDue = true) (hlock : s.tc.disc = .locked) :
    holdoverEntry s = ((s.setEvt Reg.HB_TC_EVT 1).setTc fun t =>
      { t with disc := .holdover, good := 0, holdStart := s.now }).setEvt Reg.HB_TC_EVT 2 := by
  simp [holdoverEntry, hdue, hlock, State.when]

/-- Settles O1: each row is one operation of the clock on a logic side that runs, and the accepted sync and edge are measurements
(`State.tcMeasure_tc`, `State.tcMeasure_changes`). -/
theorem disciplineMeasuresAndHolds : Obligations.DisciplineMeasuresAndHolds := by
  unfold Obligations.DisciplineMeasuresAndHolds
  refine ⟨?_, ?_, ?_, ?_, ?_, ?_⟩
  · intro dt s e g he hu hsrc hport hdom hkind hacc
    refine ⟨_, afterHb_of_up he hu _, ?_⟩
    simp +decide [ptpMessage, hsrc, hport, hdom, hkind, hacc]
  · intro dt s e g mean rank he hu hsrc hport hdom hkind htwo hm hmean
    refine ⟨_, afterHb_of_up he hu _, ?_⟩
    have hmsg : ptpMessage g e = e.ptpM2S ((e.tc.now : Int) - g.stamp - g.correction) := by
      simp [ptpMessage, hsrc, hport, hdom, hkind, htwo, hm]
    rw [hmsg, State.ptpM2S_of_mean hmean]
    obtain ⟨_, _, _, _, _, htc⟩ := State.tcMeasure_tc (e.setTc fun t =>
      { t with ptpM2S := some ((e.tc.now : Int) - g.stamp - g.correction), ptpSync := none, lastSync := e.now })
      (-((e.tc.now : Int) - g.stamp - g.correction - mean))
    exact ⟨by rw [htc], by rw [htc]; rfl, by rw [htc]; rfl,
      ((State.setTc_changes _ _ (by decide)).2 (.refl ..)).trans (State.tcMeasure_changes ..)⟩
  · intro dt s e m rank he hu hsrc hm
    refine (afterHb_of_up he hu _).trans ?_
    unfold ptpDelayReq
    split
    · next m' r h =>
      cases hm.symm.trans h
      exact congrArg _ (if_pos hsrc)
    · next h => exact absurd (hm.symm.trans h) (by simp)
  · intro dt s e falling he hu hsrc hedge hlock hnear
    refine ⟨_, afterHb_of_up he hu _, ?_⟩
    rw [ppsEdge_of_accepted hsrc hedge hlock hnear]
    obtain ⟨_, _, _, _, _, htc⟩ := State.tcMeasure_tc (e.setTc fun t => { t with missed := 0 })
      (-(((e.tc.now : Int) - fld (e.reg Reg.HB_TC_PPS_CFG) 0 16) % 1000000000))
    exact ⟨by rw [htc], by rw [htc]; rfl, by rw [htc]; rfl,
      ((State.setTc_changes _ _ (by decide)).2 (.refl ..)).trans (State.tcMeasure_changes ..)⟩
  · intro dt s e he hu hsrc
    refine (afterHb_of_up he hu _).trans ?_
    simp only [ppsEdgeMissing, hsrc, if_true]
    rfl
  · intro dt s e he hu hsrc hmiss hlock
    have hdue : e.holdoverDue = true := by simp [State.holdoverDue, hsrc, hmiss]
    refine ⟨_, afterHb_of_up he hu _, ?_⟩
    rw [holdoverEntry_of_locked hdue hlock]
    refine ⟨by simp, ?_, ?_, by simp +decide⟩
    · simp only [State.reg_setEvt, State.reg_setTc, if_true]
      exact bitOf_setBit_of 2 (bitOf_setBit _ (by decide))
    · simp only [State.reg_setEvt, State.reg_setTc, if_true]
      exact bitOf_setBit _ (by decide)

/-! ### Steps and FD's copy (R40, R43, R46) -/

/-- The low four bits of HB_TC_CTL are its fields. -/
theorem State.peek_tcCtl (s : State) (m : Master) : s.peek m Reg.HB_TC_CTL = s.reg Reg.HB_TC_CTL &&& 0xF :=
  State.peek_of (b := .tc) (n := 0) (o := 8) rfl rfl

/-- The value that TC_STEP_REQUEST writes into HB_TC_CTL holding `w`. -/
def stepRequestWord (w : Word) : Word := w &&& 0xF ||| 4

theorem stepRequestWord_reserved (w : Word) : hitsReserved .tc 8 ⟨8, 0, 1, .rw, 0⟩ (stepRequestWord w) = false := by
  have h : stepRequestWord w &&& reservedBits .tc 8 = 0 := by
    have h1 : (0xF : Word) &&& reservedBits .tc 8 = 0 := by decide
    have h2 : (4 : Word) &&& reservedBits .tc 8 = 0 := by decide
    rw [stepRequestWord, BitVec.and_or_distrib_right, BitVec.and_assoc, h1, h2]
    simp
  simp [hitsReserved, h]

theorem stepRequestWord_src (w : Word) : fld (stepRequestWord w) 0 2 = fld w 0 2 := by
  have h : fld (w &&& 0xF ||| 4) 0 2 = fld w 0 2 := by
    simp only [fld, BitVec.toNat_or, BitVec.toNat_and, Nat.pow_zero, Nat.div_one]
    refine Nat.eq_of_testBit_eq fun i => ?_
    simp only [Nat.testBit_mod_two_pow, Nat.testBit_or, Nat.testBit_and]
    match i with
    | 0 => simp
    | 1 => simp [Nat.testBit]
    | i + 2 => simp
  exact h

/-- A write of HB_TC_CTL that keeps its source and sets bit 2 requests a step to HB_TC_SET. -/
theorem tcWrite_stepRequest (s : State) : ∃ w, fld w 0 2 = s.tcSrc ∧
    tcWrite s 8 (stepRequestWord (s.reg Reg.HB_TC_CTL)) = (s.setReg Reg.HB_TC_CTL w).stepRequest .set := by
  refine ⟨word [(0, 2, s.tcSrc), (3, 1, b2n (bitOf (stepRequestWord (s.reg Reg.HB_TC_CTL)) 3))], ?_, ?_⟩
  · have h : ∀ k < 4, ∀ b, fld (word [(0, 2, k), (3, 1, b2n b)]) 0 2 = k := by decide
    exact h _ (Nat.mod_lt _ (by decide)) _
  · have hb : bitOf (stepRequestWord (s.reg Reg.HB_TC_CTL)) 2 = true := by simp [bitOf, stepRequestWord]
    have hs : fld (stepRequestWord (s.reg Reg.HB_TC_CTL)) 0 2 = s.tcSrc := stepRequestWord_src _
    simp [tcWrite, hs, hb, State.when]

/-- A step to a time ahead, in a state that allows it, waits for a boundary (R43). -/
theorem State.stepRequest_of_allowed {s : State} {k : StepKind} (hq : s.dev.quiet = true) (hlt : s.tc.now < s.stepTarget k) :
    s.stepRequest k = s.setTc fun t => { t with stepPending := some k } := by
  simp [State.stepRequest, hq, hlt]

/-- A pending step at its boundary: the logic side moves, and FD is told the size and the boundary (R43). -/
theorem tcStepApply_of_due {s : State} {k : StepKind} (hp : s.tc.stepPending = some k) (hat : s.saf.cycleAt = s.now)
    (hrel : s.releasedTo s.saf.cycleTc = true) (hq : s.dev.quiet = true) (hlt : s.tc.now < s.stepTarget k) (hfd : s.fdUp = true)
    (hsh : s.boot.shaken = true) (hnone : s.tc.fdStep = none) :
    tcStepApply s = (s.stepHb (s.stepTarget k - s.tc.now)).setTc fun t =>
      { t with fdStep := some (s.stepTarget k - s.tc.now, s.saf.cycle) } := by
  have hgo : (!s.dev.quiet || decide (s.stepTarget k ≤ s.tc.now)) = false := by simp [hq, hlt]
  have hfdup : ((s.stepHb (s.stepTarget k - s.tc.now)).fdUp && (s.stepHb (s.stepTarget k - s.tc.now)).boot.shaken) = true := by
    simp [State.stepHb, hfd, hsh]
  have hfirst : (s.stepHb (s.stepTarget k - s.tc.now)).tc.fdStep = none := hnone
  simp only [tcStepApply, hp, hat, hrel, hgo, Bool.not_true, Bool.false_eq_true, ne_eq, not_true_eq_false, or_self, if_false,
    State.when, hfdup, if_true, State.setTc, hfirst, Option.map_none, Option.getD_none, Nat.zero_add]
  rfl

/-- TC_STEP_REQUEST writes HB_TC_CTL with its source and requests a step to HB_TC_SET. -/
theorem exec_tcStepRequest {s e : State} {dt : Nat} {m : Master} (he : s.elapse dt = e) (hu : e.boot.up = true)
    (hm : e.mayWrite m Reg.HB_TC_CTL = true) : ∃ w, fld w 0 2 = e.tcSrc ∧
      exec (.tcStepRequest dt m) s = .next ((e.setReg Reg.HB_TC_CTL w).stepRequest .set) := by
  obtain ⟨w, hw, hwrite⟩ := tcWrite_stepRequest e
  have hset : e.listedWrite m Reg.HB_TC_CTL .tc 0 8 ⟨8, 0, 1, .rw, 0⟩ (e.peek m Reg.HB_TC_CTL ||| 4) true =
      some ((e.setReg Reg.HB_TC_CTL w).stepRequest .set) := by
    rw [State.peek_tcCtl, ← hwrite]
    change e.listedWrite m Reg.HB_TC_CTL .tc 0 8 ⟨8, 0, 1, .rw, 0⟩ (stepRequestWord (e.reg Reg.HB_TC_CTL)) true = _
    simp only [State.listedWrite, stepRequestWord_reserved, State.regWrite, Bool.false_eq_true, if_false, reduceCtorEq, false_and]
  have hrow := State.writeRow_of_mayWrite (v := fun s => s.peek m Reg.HB_TC_CTL ||| 4) he hu hm (b := .tc) (n := 0) (o := 8) rfl rfl
  rw [hset] at hrow
  exact ⟨w, hw, hrow⟩

/-- Settles O2: a request and its application move the logic side (`tcWrite_stepRequest`, `tcStepApply_of_due`), the message moves FD,
and the rows of the skew are their operations. -/
theorem stepsSlewsAndSkew : Obligations.StepsSlewsAndSkew := by
  unfold Obligations.StepsSlewsAndSkew
  refine ⟨?_, ?_, ?_, ?_, ?_, ?_, ?_⟩
  · intro dt s e m he hu hm hq hsrc hlt
    obtain ⟨w, hw, hrow⟩ := exec_tcStepRequest he hu hm
    have htarget : (e.setReg Reg.HB_TC_CTL w).stepTarget .set = e.tcSet := by
      have hsrc' : (e.setReg Reg.HB_TC_CTL w).tcSrc ≠ 3 := by
        rw [State.tcSrc, State.reg_setReg_same, hw]
        exact hsrc
      exact (if_neg hsrc').trans (by simp [State.tcSet, State.reg_setReg])
    refine ⟨_, hrow, ?_⟩
    rw [State.stepRequest_of_allowed (s := e.setReg Reg.HB_TC_CTL w) hq (htarget.symm ▸ hlt)]
    exact ⟨rfl, by simp +decide⟩
  · intro dt s e he hu hp hat hrel hq hsrc hlt hfd hsh hnone
    have ht : e.stepTarget .set = e.tcSet := if_neg hsrc
    refine ⟨_, afterHb_of_up he hu _, ?_⟩
    rw [tcStepApply_of_due hp hat hrel hq (by omega) hfd hsh hnone, ht]
    refine ⟨?_, rfl, rfl, rfl, rfl, rfl, rfl⟩
    change e.tc.now + (e.tcSet - e.tc.now) = e.tcSet
    omega
  · intro dt s e d n he hu hstep hmark
    refine ⟨_, after_eq he _, ?_⟩
    have h : tcStepMessage e = (e.stepFd d).frameSeen 5 false := by simp [tcStepMessage, hstep, hu, hmark]
    have hf : OnlyParts [.regs, .copies, .outs, .mrg, .fds, .events] (e.stepFd d) ((e.stepFd d).frameSeen 5 false) :=
      (State.frameSeen_parts _ _ _ (by decide)).2 (.refl ..)
    rw [h]
    exact ⟨(hf.same .time (by decide)).2, ((State.stepFd_parts _ _ (by decide)).2 (.refl ..)).trans (hf.mono (by decide))⟩
  · intro dt s e err he hu
    refine (after_eq he _).trans ?_
    exact congrArg _ (if_pos hu)
  · intro dt s e skew he hu hskew
    refine (afterHb_of_up he hu _).trans ?_
    exact congrArg _ (if_pos hskew)
  · intro dt s e skew he hu hskew
    refine (afterHb_of_up he hu _).trans ?_
    exact congrArg _ (if_pos hskew)
  · intro dt s e m he hu hm
    exact State.readRow_of_mayRead he hu hm (b := .tc) (n := 0) (o := 0) rfl rfl

end Sys2Proof.Machine
end

section
/-!
PROOF. Copies of a register that no event sets (R541): which operations leave every master's copy, and the reads that latch (R47).
-/
namespace Sys2Proof.Machine

/-! ### Copies that raising a source leaves -/

/-- A window offset that is no pending word. -/
def Reg.Unpended (a : Nat) : Prop := a < 2 ^ 32 ∧ ∀ i, i < 32 → a ≠ Reg.HB_EVR_PEND i

/-- Every master's copy of the register at a window offset is the same in two states. -/
structure SameCopies (a : Nat) (s t : State) : Prop where
  same : ∀ m, t.mreg m a = s.mreg m a

section
variable {a : Nat} {r s t : State}

theorem SameCopies.refl (a : Nat) (s : State) : SameCopies a s s := ⟨fun _ => rfl⟩

theorem SameCopies.trans (h : SameCopies a r s) (k : SameCopies a s t) : SameCopies a r t := ⟨fun m => (k.same m).trans (h.same m)⟩

theorem SameCopies.congr (h : SameCopies a r s) (hm : t.mregs = s.mregs) : SameCopies a r t :=
  h.trans ⟨fun m => by simp only [State.mreg, hm]⟩

theorem SameCopies.frame {ps : List Part} (h : SameCopies a r s) (k : OnlyParts ps s t) (hc : .copies ∉ ps := by decide) :
    SameCopies a r t :=
  h.congr (k.same .copies hc)

theorem SameCopies.when (h : SameCopies a r s) (b : Bool) {f : State → State} (k : ∀ u, SameCopies a u (f u)) :
    SameCopies a r (s.when b f) := by
  unfold State.when
  split
  · exact h.trans (k s)
  · exact h

theorem SameCopies.foldl {α : Type} {f : State → α → State} (k : ∀ u x, SameCopies a u (f u x)) (l : List α) :
    ∀ {s}, SameCopies a r s → SameCopies a r (l.foldl f s) := by
  induction l with
  | nil => exact fun h => h
  | cons x l ih => exact fun h => ih (h.trans (k _ x))

theorem SameCopies.changes {ps : List Part} {l : List Nat} (h : SameCopies a r s) (ha : Reg.Unpended a) (k : Changes ps l s t) :
    SameCopies a r t :=
  h.trans ⟨fun m => k.copies m a ha.1 ha.2⟩

section
variable (h : SameCopies a r s)
include h

theorem SameCopies.setReg (b : Nat) (v : Word) : SameCopies a r (s.setReg b v) := h.congr rfl
theorem SameCopies.setVo (i : Nat) (v : Vo) : SameCopies a r (s.setVo i v) := h.congr rfl
theorem SameCopies.setBrake (c : Nat) (b : Brake) : SameCopies a r (s.setBrake c b) := h.congr rfl
theorem SameCopies.setSaf (f : Saf → Saf) : SameCopies a r (s.setSaf f) := h.congr rfl
theorem SameCopies.setFds (f : FdSafe → FdSafe) : SameCopies a r (s.setFds f) := h.congr rfl
theorem SameCopies.setStr (f : Str → Str) : SameCopies a r (s.setStr f) := h.congr rfl
theorem SameCopies.setEng (e : Nat) (g : DmaEng) : SameCopies a r (s.setEng e g) := h.congr rfl

end

theorem SameCopies.raise (h : SameCopies a r s) (ha : Reg.Unpended a) (src : Nat) (data : Word) : SameCopies a r (s.raise src data) :=
  h.changes ha ((State.raise_changes (ps := [.events]) (l := []) s src data (by decide)).2 (.refl ..))

theorem SameCopies.setEvt (h : SameCopies a r s) (ha : Reg.Unpended a) (b i : Nat) : SameCopies a r (s.setEvt b i) :=
  h.changes ha ((State.setEvt_changes (ps := [.events]) (l := [b]) s b i (by simp) (by decide)).2 (.refl ..))

theorem SameCopies.journalAdd (h : SameCopies a r s) (ha : Reg.Unpended a) (stamp dom result code : Nat) (digest : Word) :
    SameCopies a r (s.journalAdd stamp dom result code digest) :=
  h.changes ha (State.journalAdd_changes ..)

end

/-! ### The operations of a violation -/

section
variable {a : Nat} (ha : Reg.Unpended a) {r s : State} (h : SameCopies a r s)
include ha h

theorem SameCopies.voRaiseNow (i : Nat) : SameCopies a r (s.voRaiseNow i) := by
  simp only [State.voRaiseNow]
  split
  · split
    · exact ((h.setVo ..).setBrake ..).setEvt ha ..
    · exact (h.setVo ..).setBrake ..
  · exact h.setVo ..

theorem SameCopies.voResume (i : Nat) : SameCopies a r (s.voResume i) := by
  simp only [State.voResume]
  split
  · exact h
  · split
    · exact h.voRaiseNow ha i
    · exact h.setVo ..

theorem SameCopies.voUndefer (g : Nat) : SameCopies a r (s.voUndefer g) := by
  simp only [State.voUndefer]
  split
  · exact h
  · exact .foldl (fun u i => (SameCopies.refl a u).voResume ha i) _ h

theorem SameCopies.voLower (i : Nat) : SameCopies a r (s.voLower i) := by
  simp only [State.voLower]
  split
  · exact h
  · split
    · exact (h.setVo ..).voUndefer ha _
    · exact h.setVo ..

theorem SameCopies.voRecheck : SameCopies a r s.voRecheck := by
  refine .foldl (fun u i => ?_) _ h
  split
  · exact (SameCopies.refl a u).voLower ha i
  · exact .refl a u

theorem SameCopies.chanNote (n : ChanNote) : SameCopies a r (s.chanNote n) := by
  cases n with
  | cpt b => exact h.setEvt ha ..
  | sec b => exact h.setEvt ha ..
  | fault cp => exact (h.setReg ..).raise ha ..
  | change n => exact h.raise ha ..

theorem SameCopies.resetEnded (q : QueuedCmd × Nat) : SameCopies a r (s.resetEnded q) := by
  have hf : ∀ u f, SameCopies a u { u with frw := f } := fun u f => (SameCopies.refl a u).congr rfl
  exact ((h.journalAdd ha ..).raise ha ..).when _ fun u => hf u _

theorem SameCopies.procDrain : SameCopies a r s.procDrain :=
  .foldl (fun u q => (SameCopies.refl a u).resetEnded ha q) _ (.foldl (fun u n => (SameCopies.refl a u).chanNote ha n) _ (h.congr rfl))

theorem SameCopies.procDo (f : Channel → Channel) : SameCopies a r (s.procDo f) := by
  simp only [State.procDo]
  split
  · exact (h.setSaf _).procDrain ha
  · exact h

theorem SameCopies.ledDo (f : Channel → Channel) : SameCopies a r (s.ledDo f) := by
  simp only [State.ledDo]
  split
  · exact (h.setFds _).voRecheck ha
  · exact h

theorem SameCopies.endWaits (p : QueuedCmd → Bool) : SameCopies a r (s.endWaits p) := (h.procDo ha _).ledDo ha _

theorem SameCopies.leaseEnd (bit : Nat) (entry : Option Nat) : SameCopies a r (s.leaseEnd bit entry) := by
  simp only [State.leaseEnd]
  split
  · exact h
  · have hl : ∀ l : Lease, SameCopies a r { s with lease := l } := fun l => h.congr rfl
    cases entry with
    | none => exact ((hl _).setEvt ha ..).endWaits ha _
    | some code => exact (((hl _).journalAdd ha ..).setEvt ha ..).endWaits ha _

theorem SameCopies.dmaDone (e res : Nat) (slot : Bool) : SameCopies a r (s.dmaDone e res slot) := by
  simp only [State.dmaDone]
  split
  · exact h
  · exact ((h.setEng ..).setEvt ha ..).when _ fun u => (SameCopies.refl a u).raise ha ..

theorem SameCopies.dmaUnqueue (e c res : Nat) : SameCopies a r (s.dmaUnqueue e c res) := by
  simp only [State.dmaUnqueue, State.dmaRaise]
  exact (h.setEng ..).raise ha ..

theorem SameCopies.dmaStop (d : Nat) : SameCopies a r (s.dmaStop d) :=
  .foldl (fun u e => .foldl (fun v c => (SameCopies.refl a v).dmaUnqueue ha e c 10) _ ((SameCopies.refl a u).dmaDone ha e 10 false)) _ h

theorem SameCopies.strAbort : SameCopies a r s.strAbort.1 := by
  simp only [State.strAbort]
  split
  · exact (h.setStr _).setEvt ha ..
  · exact ((h.setStr _).setStr _).setEvt ha ..

theorem SameCopies.strAbandon : SameCopies a r s.strAbandon := by
  simp only [State.strAbandon]
  split
  · split
    · exact h
    · exact (h.journalAdd ha ..).strAbort ha
  · exact h

theorem SameCopies.domainStops (d : Nat) : SameCopies a r (s.domainStops d) := by
  have hd : SameCopies a r (s.discardCmds d) := h.frame (ps := [.links, .commands]) (by simp +decide)
  have ho : SameCopies a r (((s.discardCmds d).dmaStop d).dropOutbound d) := (hd.dmaStop ha d).congr rfl
  exact ((ho.when _ fun u => (SameCopies.refl a u).strAbandon ha).when _ fun u => (SameCopies.refl a u).leaseEnd ha ..).when _
    fun u => (SameCopies.refl a u).endWaits ha _

omit ha h in
/-- A further violation of a frozen master is counted in its record (R360). -/
theorem State.freeze_of_mem {who : Frozen} (hm : who ∈ s.frozen) (cause : FreezeCause) (detail : Nat) :
    ∃ recs, s.freeze who cause detail = { s with frzRecs := recs } :=
  ⟨_, if_pos (by simpa using hm)⟩

theorem SameCopies.freeze (who : Frozen) (cause : FreezeCause) (detail : Nat) : SameCopies a r (s.freeze who cause detail) := by
  by_cases hm : who ∈ s.frozen
  · obtain ⟨recs, hf⟩ := State.freeze_of_mem hm cause detail
    exact hf ▸ h.congr rfl
  · rw [State.freeze_of_not_mem hm]
    have hn : ∀ x, SameCopies a r (s.freezeNoted x) := fun x => ((h.changes ha (s.freezeAs_changes x)).journalAdd ha ..).raise ha ..
    generalize (⟨who, cause, 0, s.tc.now, detail⟩ : FreezeRec) = x
    replace hn := hn x
    cases who with
    | domain d => exact hn.domainStops ha d
    | dma c => exact hn.when _ fun u => (SameCopies.refl a u).dmaDone ha ..
    | core c => exact hn

theorem SameCopies.offend (m : Master) (cause : FreezeCause) (x : Nat) : SameCopies a r (s.offend m cause x) := by
  simp only [State.offend]
  split
  · exact h
  · cases m with
    | host d => exact h.freeze ha ..
    | core c => exact h.freeze ha ..
    | firmware => exact h

end

/-! ### Reads -/

/-- The index of a block among its like is small. -/
theorem blockOf_index {a n o : Nat} {b : Block} (h : blockOf a = some (b, n, o)) : n < 8 := by
  unfold blockOf at h
  dsimp only at h
  (repeat' split at h) <;> simp at h <;> omega

section
variable {s : State} {m x : Master} {a : Nat} (hx : masterCode x ≠ masterCode m)
include hx

/-- A copy that one master is given is no copy of another. -/
theorem State.mreg_setMreg_master (ha : a < 2 ^ 32) {b : Nat} (hb : b < 2 ^ 32) (v : Word) :
    (s.setMreg m b v).mreg x a = s.mreg x a := by
  have : masterCode x * 2 ^ 32 + a ≠ masterCode m * 2 ^ 32 + b := by omega
  simp only [State.mreg, State.setMreg_mregs, tfind_tset_other _ _ this]

theorem State.foldl_setMreg_master (ha : a < 2 ^ 32) {g : Nat → Nat} (l : List Nat) (hb : ∀ i, i ∈ l → g i < 2 ^ 32) (v : Nat → Word) :
    ∀ u : State, (l.foldl (fun u i => u.setMreg m (g i) (v i)) u).mreg x a = u.mreg x a := by
  induction l with
  | nil => exact fun _ => rfl
  | cons i l ih =>
    intro u
    exact (ih (fun j hj => hb j (List.mem_cons_of_mem i hj)) _).trans
      (State.mreg_setMreg_master hx ha (hb i (List.mem_cons_self ..)) _)

/-- A read that latches writes copies of the reader alone (R47). -/
theorem State.latchRead_other (ha : Reg.Unpended a) {b : Block} {n o : Nat} (hn : n < 8) {p : State × Word}
    (h : s.latchRead m b n o = some p) : p.1.mreg x a = s.mreg x a := by
  have hset : ∀ {u : State} {b : Nat}, b < 2 ^ 32 → ∀ v, (u.setMreg m b v).mreg x a = u.mreg x a := fun hb v =>
    State.mreg_setMreg_master hx ha.1 hb v
  have hevt : ∀ (u : State) b i, (u.setEvt b i).mreg x a = u.mreg x a := fun u b i => ((SameCopies.refl a u).setEvt ha b i).same x
  unfold State.latchRead at h
  split at h <;> cases h
  case h_1 => exact hset (by decide) _
  case h_2 => exact (hset (by simp only [Reg.AQ_PERIOD_CNT]; omega) _).trans (hset (by simp only [Reg.AQ_PERIOD_STAMP_HI]; omega) _)
  case h_3 => exact hset (by simp only [Reg.AQ_DMD_EPOCH_HI]; omega) _
  case h_4 => exact hset (by simp only [Reg.AQ_DMD_PROBE_HI]; omega) _
  case h_5 =>
    refine State.foldl_setMreg_master hx ha.1 _ (fun i hi => ?_) _ s
    have := List.mem_range.1 hi
    simp only [Reg.AQ_WSD_LAST]
    omega
  case h_6 => exact hset (by decide) _
  case h_7 => exact hset (by decide) _
  case h_8 =>
    simp only [State.jnlEntry0]
    split
    · exact hevt ..
    · rfl
  case h_9 => rfl
  case h_10 =>
    simp only [State.clgEntry0]
    split
    · exact hevt ..
    · rfl
  case h_11 => rfl

theorem State.regRead_other (ha : Reg.Unpended a) {b : Block} {n : Nat} (hn : n < 8) (c o : Nat) (row : RegRow) :
    (s.regRead m c b n o row).1.mreg x a = s.mreg x a := by
  unfold State.regRead
  cases hl : s.latchRead m b n o with
  | none =>
    have hc : OnlyParts [.regs, .cvu] s (s.readClear c b o row) := by simp +decide [State.readClear]
    exact ((SameCopies.refl a s).frame hc).same x
  | some p => exact State.latchRead_other hx ha hn hl

/-- A read of one master changes no copy of another master, whatever it meets. -/
theorem State.busRead_other (ha : Reg.Unpended a) (c : Nat) : (s.busRead m c).1.mreg x a = s.mreg x a := by
  unfold State.busRead
  split
  · exact ((SameCopies.refl a s).offend ha ..).same x
  · rfl
  · rfl
  · rfl
  · rfl
  · next h _ => exact State.regRead_other hx ha (blockOf_index (State.meets_register h).1) ..

end

/-- HB_TC_NOW_HI shows the reader's copy (R47, R541). -/
theorem State.regRead_tcNowHi (s : State) (m : Master) :
    s.regRead m Reg.HB_TC_NOW_HI .tc 0 4 ⟨4, 0, 1, .ro, 0⟩ = (s, s.mreg m Reg.HB_TC_NOW_HI) := by
  have hr : reservedBits .tc 4 ||| structReserved .tc 4 = 0 := by decide
  simp only [State.regRead, State.latchRead, State.readClear, State.regValue, State.valueKnown, State.blockView, tcView, hr]
  have hone : ∀ w : Word, w &&& ~~~0 = w := fun w => BitVec.and_allOnes
  simp only [hone]
  rfl

/-- What a read of the bus and its reply keep, REGISTER_READ keeps. -/
theorem exec_registerRead_keeps {p : State → Prop} {s t : State} {dt : Nat} {m : Master} {a : Nat} (hs : p (s.elapse dt))
    (hread : ∀ u c, p u → p (u.busRead m c).1) (hsend : ∀ u c w b, p u → p (u.send (.reply m c w b)))
    (h : exec (.registerRead dt m a) s = .next t) : p t := by
  have hwhen : ∀ f : State → State, (∀ u, p u → p (f u)) → s.afterHb dt f = .next t → p t := by
    intro f hf hn
    cases hn
    dsimp only
    unfold State.when
    split
    · exact hf _ hs
    · exact hs
  change execRegisterRead dt m a s = .next t at h
  unfold execRegisterRead at h
  split at h
  · refine hwhen _ (fun u hu => ?_) h
    unfold State.bar2Read
    split
    · exact hsend _ _ _ _ hu
    · exact hsend _ _ _ _ hu
  · exact hwhen _ (fun u hu => hsend _ _ _ _ (hread u _ hu)) h

/-- Settles O43: a read of HB_TC_NOW_LO is the latch by either row, HB_TC_NOW_HI shows the reader's copy, and no read of another
master changes it (`State.busRead_other`). -/
theorem timeIsLatchedPerMaster : Obligations.TimeIsLatchedPerMaster := by
  unfold Obligations.TimeIsLatchedPerMaster
  refine ⟨?_, ?_, ?_⟩
  · intro dt s e m c he hu hm hc
    have hnext : exec c s = .next ((e.setMreg m Reg.HB_TC_NOW_HI (hi32 e.tc.now)).send (.reply m Reg.HB_TC_NOW_LO (lo32 e.tc.now) false)) := by
      obtain rfl | rfl := hc
      · exact State.readRow_of_mayRead he hu hm (b := .tc) (n := 0) (o := 0) rfl rfl
      · exact exec_registerRead_listed he hu (by decide) hm (b := .tc) (n := 0) (o := 0) rfl rfl
    refine ⟨_, hnext, State.mreg_setMreg_same .., rfl, fun x hx => ?_, by simp +decide⟩
    exact State.mreg_setMreg_master hx (by decide) (by decide) _
  · intro dt s e m he hu hm
    rw [exec_registerRead_listed he hu (by decide) hm (b := .tc) (n := 0) (o := 4) rfl rfl, State.regRead_tcNowHi]
  · intro dt s m a t x h hx
    have ha : Reg.Unpended Reg.HB_TC_NOW_HI := ⟨by decide, by decide⟩
    refine exec_registerRead_keeps (p := fun u => u.mreg x Reg.HB_TC_NOW_HI = s.mreg x Reg.HB_TC_NOW_HI) rfl (fun u c hu => ?_) (fun u c w b hu => hu) h
    exact (State.busRead_other hx ha c).trans hu

end Sys2Proof.Machine
end

section
/-!
PROOF. The role that the registers of the town clock and of the probe ask for (R48, R99).
-/
namespace Sys2Proof.Machine

/-- A register of the town clock or of the probe that asks for the Configurator role. -/
def Block.configured (b : Block) (o : Nat) : Prop := b = .tc ∧ o ≠ 0x34 ∨ b = .psy ∧ o ≠ 0x24

theorem writeRole_of_configured {b : Block} {o : Nat} (h : b.configured o) : writeRole b o = .configurator := by
  obtain ⟨rfl, ho⟩ | ⟨rfl, ho⟩ := h <;> exact if_neg ho

/-- A domain may write such a register where it holds the role. -/
theorem State.writeDenied_of_configured {b : Block} {o : Nat} (h : b.configured o) (s : State) (d : Nat) :
    s.writeDenied (.host d) b o = !s.roleBit d 3 := by
  have hr := writeRole_of_configured h
  obtain ⟨rfl, -⟩ | ⟨rfl, -⟩ := h <;> simp only [State.writeDenied, hr, State.holdsRole, Bool.or_false]

/-- A write that such a register takes freezes nobody. -/
theorem State.listedWrite_configured {b : Block} {o : Nat} (h : b.configured o) {s : State} {m : Master} {a n : Nat} {row : RegRow}
    {v : Word} (hres : hitsReserved b o row v = false) :
    ∃ t, s.listedWrite m a b n o row v true = some t ∧ t.frozen = s.frozen ∧ t.frzRecs = s.frzRecs := by
  have hkeep : ∀ {ps : List Part} {t : State}, .freeze ∉ ps → OnlyParts ps s t → t.frozen = s.frozen ∧ t.frzRecs = s.frzRecs :=
    fun hp k => ⟨(k.same .freeze hp).1, (k.same .freeze hp).2.1⟩
  have hwrite : OnlyParts [.time, .regs, .copies, .psy, .events] s (s.regWrite m a b n o v true) := by
    obtain ⟨rfl, -⟩ | ⟨rfl, -⟩ := h
    · exact (tcWrite_parts s o v (by decide)).2 (.refl ..)
    · exact (psyWrite_parts s n o v (by decide)).2 (.refl ..)
  have hclear : OnlyParts [.regs, .copies, .fdin] s (s.clearWrite m a b o v) := (State.clearWrite_parts _ _ _ _ _ _ (by decide)).2 (.refl ..)
  have hbox : ¬(b = .lnk ∧ o = 0xC0) := by obtain ⟨rfl, -⟩ | ⟨rfl, -⟩ := h <;> simp
  simp only [State.listedWrite, hres, hbox, Bool.false_eq_true, if_false]
  split
  · exact ⟨_, rfl, rfl, rfl⟩
  · exact ⟨_, rfl, rfl, rfl⟩
  · exact ⟨_, rfl, hkeep (by decide) hclear⟩
  · exact ⟨_, rfl, hkeep (by decide) hwrite⟩

/-- A freeze leaves the clock and the probe. -/
theorem State.offend_clock_probe (s : State) (m : Master) (cause : FreezeCause) (a : Nat) :
    (s.offend m cause a).tc = s.tc ∧ (s.offend m cause a).psy = s.psy := by
  have h := (State.offend_parts (q0 := [.regs, .copies, .outs, .saf, .fds, .str, .frw, .links, .dma, .lease, .freeze, .commands, .events, .store])
    (z0 := s) s m cause a (by decide)).2 (.refl ..)
  exact ⟨(h.same .time (by decide)).2, h.same .psy (by decide)⟩

/-- Settles O45: without the role the write is a violation of the domain, with it the register's own effect. -/
theorem configuratorWrites : Obligations.ConfiguratorWrites := by
  unfold Obligations.ConfiguratorWrites
  intro dt s e d a v b n o row he hu ha hw ho hf hm hb
  have hconf : b.configured o := hb
  have hblock := (State.meets_register hm).1
  have hexec := exec_registerWrite dt ha (bar2At_of_blockOf hblock (.host d)) v s
  refine ⟨fun hrole => ?_, fun hrole hres => ?_⟩
  · have hden : e.writeDenied (.host d) b o = true := by rw [State.writeDenied_of_configured hconf, hrole]; rfl
    rw [hexec]
    exact ⟨_, State.writeRow_of_busWrite he hu (State.busWrite_of_denied hm hden v true), State.offend_shown ho hf hw .role a,
      State.offend_clock_probe ..⟩
  · have hden : e.writeDenied (.host d) b o = false := by rw [State.writeDenied_of_configured hconf, hrole]; rfl
    have hmay : e.mayWrite (.host d) a = true := by simp [State.mayWrite, hm, hden, State.isFrozen, hf]
    obtain ⟨t, ht, hkept⟩ := State.listedWrite_configured (s := e) (m := .host d) (a := a) (n := n) hconf hres
    refine ⟨t, ?_, hkept⟩
    rw [exec_registerWrite_listed he hu ha hmay hblock (State.meets_register hm).2, ht]

end Sys2Proof.Machine
end

section
/-!
PROOF. Faults of blocks and quarters (R33, R143, R144, R152, R156 to R158).
-/
namespace Sys2Proof.Machine

/-! ### A die's lanes, blocks and quarters -/

theorem State.lane_setDie (s : State) (d : Nat) (x : DieLbq) (i : Nat) : (s.setDie d x).lane d i = x.lane i := by
  simp only [State.lane, State.die_setDie]

theorem State.blk_setDie (s : State) (d : Nat) (x : DieLbq) (b : Nat) : (s.setDie d x).blk d b = x.blk b := by
  simp only [State.blk, State.die_setDie]

theorem DieLbq.blk_setBlk_same (x : DieLbq) (b : Nat) (y : Blk) : (x.setBlk b y).blk b = y := tget_tset_same ..

theorem DieLbq.blk_setBlk_other (x : DieLbq) {b k : Nat} (y : Blk) (h : k ≠ b) : (x.setBlk b y).blk k = x.blk k :=
  tget_tset_other _ _ _ h

@[simp] theorem State.die_lbqEvt (s : State) (d i k : Nat) : (s.lbqEvt d i).die k = s.die k := State.die_setEvt ..

/-- What a change of one block leaves. -/
theorem State.modBlk_frame (s : State) (d b : Nat) (f : Blk → Blk) :
    (s.modBlk d b f).blk d b = f (s.blk d b) ∧ (∀ k, k ≠ b → (s.modBlk d b f).blk d k = s.blk d k) ∧
      (∀ i, (s.modBlk d b f).lane d i = s.lane d i) ∧ (∀ k, k ≠ d → (s.modBlk d b f).die k = s.die k) := by
  refine ⟨?_, fun k hk => ?_, fun i => ?_, fun k hk => State.die_setDie_other _ _ hk⟩
  · exact (State.blk_setDie ..).trans (DieLbq.blk_setBlk_same ..)
  · exact (State.blk_setDie ..).trans (DieLbq.blk_setBlk_other _ _ hk)
  · exact State.lane_setDie ..

/-- A die but for its lanes. -/
def DieLbq.laneless (x : DieLbq) : DieLbq := { x with lanes := [] }

/-- Changes of lanes of one die, one after the other. -/
theorem State.foldl_modLane_die (d : Nat) (f : State → Nat → Lane → Lane) (l : List Nat) : ∀ s : State,
    ((l.foldl (fun s i => s.modLane d i (f s i)) s).die d).laneless = (s.die d).laneless ∧
      ∀ k, k ≠ d → (l.foldl (fun s i => s.modLane d i (f s i)) s).die k = s.die k := by
  induction l with
  | nil => exact fun s => ⟨rfl, fun _ _ => rfl⟩
  | cons i l ih =>
    intro s
    obtain ⟨hd, ho⟩ := ih (s.modLane d i (f s i))
    refine ⟨hd.trans ?_, fun k hk => (ho k hk).trans (State.die_setDie_other _ _ hk)⟩
    simp only [State.modLane, State.die_setDie]
    rfl

/-- Lanes that lose their held events, one after the other. -/
theorem State.foldl_modLane_held (d : Nat) {f : Lane → Lane} (hf : ∀ x, (f x).held = []) (l : List Nat) : ∀ s : State,
    (∀ i, (s.lane d i).held = [] → ((l.foldl (fun s i => s.modLane d i f) s).lane d i).held = []) ∧
      ∀ i, i ∈ l → ((l.foldl (fun s i => s.modLane d i f) s).lane d i).held = [] := by
  induction l with
  | nil => exact fun s => ⟨fun _ h => h, by simp⟩
  | cons j l ih =>
    intro s
    have hset : ∀ i, i = j ∨ (s.lane d i).held = [] → ((s.modLane d j f).lane d i).held = [] := by
      intro i h
      by_cases hij : i = j
      · subst hij
        simp only [State.modLane, State.lane_setDie, DieLbq.lane, DieLbq.setLane, tget_tset_same, hf]
      · simp only [State.modLane, State.lane_setDie, DieLbq.lane, DieLbq.setLane, tget_tset_other _ _ _ hij]
        exact h.resolve_left hij
    obtain ⟨hkeep, hall⟩ := ih (s.modLane d j f)
    refine ⟨fun i h => hkeep i (hset i (.inr h)), fun i hi => ?_⟩
    obtain rfl | hi := List.mem_cons.1 hi
    · exact hkeep i (hset i (.inl rfl))
    · exact hall i hi

/-! ### A block is marked faulty -/

/-- A block marked faulty at a time with its cause (R156, R157). -/
def Blk.failed (x : Blk) (cause t : Nat) : Blk := { x with st := .faulty, cause := cause, faultAt := t, off := false, loading := [] }

/-- No bit of an event register is cleared. -/
structure EventsKept (a : Nat) (s t : State) : Prop where
  kept : ∀ i, bitOf (s.reg a) i = true → bitOf (t.reg a) i = true

theorem EventsKept.trans {a : Nat} {s t u : State} (h : EventsKept a s t) (k : EventsKept a t u) : EventsKept a s u :=
  ⟨fun i hi => k.kept i (h.kept i hi)⟩

theorem OnlyParts.eventsKept {ps : List Part} {s t : State} (h : OnlyParts ps s t) (hr : Part.regs ∉ ps) (a : Nat) : EventsKept a s t :=
  ⟨fun i hi => by
    rw [State.reg, show t.regs = s.regs from h.same .regs hr]
    exact hi⟩

theorem State.lbqEvt_kept (s : State) (d i : Nat) : EventsKept (Reg.AQ_LBQ_EVT d) s (s.lbqEvt d i) := ⟨fun j h => by
  simp only [State.lbqEvt, State.reg_setEvt, if_true]
  exact bitOf_setBit_of i h⟩

theorem State.lbqEvt_set (s : State) (d : Nat) {i : Nat} (h : i < 32) : bitOf ((s.lbqEvt d i).reg (Reg.AQ_LBQ_EVT d)) i = true := by
  simp only [State.lbqEvt, State.reg_setEvt, if_true]
  exact bitOf_setBit _ h

/-- The end of a return: the die is busy no longer, and shows the result. -/
theorem State.returnEnds_die (s : State) (d r : Nat) : ((s.returnEnds d r).die d).lanes = (s.die d).lanes ∧
    ((s.returnEnds d r).die d).blks = (s.die d).blks ∧ ((s.returnEnds d r).die d).qtrs = (s.die d).qtrs ∧
    (s.returnEnds d r).dieUp d = s.dieUp d ∧ ((s.returnEnds d r).die d).busy = none ∧
    ∀ k, k ≠ d → (s.returnEnds d r).die k = s.die k := by
  have hd : (s.returnEnds d r).die d = { s.die d with busy := none }.setResult r := by simp [State.returnEnds]
  have ho : ∀ k, k ≠ d → (s.returnEnds d r).die k = s.die k := fun k hk => by
    simp only [State.returnEnds, State.die_lbqEvt, State.die_setDie_other _ _ hk]
  rw [State.dieUp, State.dieUp, hd]
  unfold DieLbq.setResult
  split <;> exact ⟨rfl, rfl, rfl, rfl, rfl, ho⟩

theorem State.returnEnds_kept (s : State) (d r : Nat) : EventsKept (Reg.AQ_LBQ_EVT d) s (s.returnEnds d r) :=
  (((State.setDie_parts _ _ _ (by decide)).2 (.refl [.lbq] s)).eventsKept (by decide) _).trans (State.lbqEvt_kept ..)

/-- What the fault of a block that was not faulty leaves. -/
structure BlockFaulted (d b cause : Nat) (s t : State) : Prop where
  blks : (t.die d).blks = tset (s.die d).blks b ((s.blk d b).failed cause s.now)
  qtrs : (t.die d).qtrs = (s.die d).qtrs
  up : t.dieUp d = s.dieUp d
  busy : (t.die d).busy = (s.die d).busy ∨ (t.die d).busy = none
  held : ∀ i, i ∈ blockLanes b → (t.lane d i).held = []
  others : ∀ k, k ≠ d → t.die k = s.die k
  events : EventsKept (Reg.AQ_LBQ_EVT d) s t
  shown : bitOf (t.reg (Reg.AQ_LBQ_EVT d)) 3 = true

theorem BlockFaulted.returnEnds {d b cause : Nat} {s t : State} (h : BlockFaulted d b cause s t) (r : Nat) :
    BlockFaulted d b cause s (t.returnEnds d r) := by
  obtain ⟨hlanes, hblks, hqtrs, hup, hbusy, hothers⟩ := t.returnEnds_die d r
  have hevt := t.returnEnds_kept d r
  exact {
    blks := hblks.trans h.blks
    qtrs := hqtrs.trans h.qtrs
    up := hup.trans h.up
    busy := .inr hbusy
    held := fun i hi => by
      rw [State.lane, DieLbq.lane, hlanes]
      exact h.held i hi
    others := fun k hk => (hothers k hk).trans (h.others k hk)
    events := h.events.trans hevt
    shown := hevt.kept 3 h.shown }

/-- The return of the block's quarter, which a failing block would bring forward, is not in hand. -/
theorem State.quarterProgress_of_not_busy {s : State} {d b : Nat} (h : (s.die d).busy ≠ some (.quarter (blockQuarter b))) (pass : Bool) :
    s.quarterProgress d b pass = s := by
  unfold State.quarterProgress
  split
  · next q hq => exact if_pos fun hb : blockQuarter b = q => h (hq.trans (by rw [hb]))
  · rfl

theorem State.blockFault_faulted {s : State} {d b : Nat} (cause : Nat) (hst : (s.blk d b).st ≠ .faulty) (hup : s.dieUp d = true)
    (hq : (s.blk d b).st = .returning → (s.die d).busy ≠ some (.quarter (blockQuarter b))) :
    BlockFaulted d b cause s (s.blockFault d b cause) := by
  unfold State.blockFault
  rw [if_neg (by simp [hst, hup])]
  extract_lets was s1 spans s2 s3 s4
  have h1 : (s1.die d).laneless = (s.die d).laneless ∧ (∀ k, k ≠ d → s1.die k = s.die k) := by
    simp only [s1, State.holdRoles]
    split
    · exact ⟨rfl, fun _ _ => rfl⟩
    · exact State.foldl_modLane_die d _ _ s
  have h3 : (s3.die d).laneless = (s2.die d).laneless ∧ (∀ k, k ≠ d → s3.die k = s2.die k) := State.foldl_modLane_die d _ _ s2
  have hp : OnlyParts [.lbq] s s3 := by simp +decide [s3, s2, s1]
  have hnow : s1.now = s.now := (OnlyParts.same (ps := [.lbq]) (by simp +decide [s1]) .time (by decide)).1
  have h4 : EventsKept (Reg.AQ_LBQ_EVT d) (s3.lbqEvt d 3) s4 ∧ ∀ k, s4.die k = s3.die k := by
    simp only [s4, State.when]
    split
    · exact ⟨State.lbqEvt_kept .., fun k => by simp⟩
    · exact ⟨⟨fun _ h => h⟩, fun k => by simp⟩
  have hdie : (s4.die d).laneless = ((s.die d).setBlk b ((s.blk d b).failed cause s.now)).laneless := by
    have hblks : (s1.die d).blks = (s.die d).blks := (congrArg DieLbq.blks h1.1 :)
    have hblk : s1.blk d b = s.blk d b := by rw [State.blk, State.blk, DieLbq.blk, DieLbq.blk, hblks]
    calc (s4.die d).laneless = (s2.die d).laneless := by rw [h4.2, h3.1]
      _ = ((s1.die d).laneless.setBlk b ((s1.blk d b).failed cause s1.now)) := by
        simp only [s2, State.modBlk, State.die_setDie]
        rfl
      _ = _ := by
        rw [h1.1, hblk, hnow]
        rfl
  have hbusy : (s4.die d).busy = (s.die d).busy := (congrArg DieLbq.busy hdie :)
  have hs4 : BlockFaulted d b cause s s4 := {
    blks := (congrArg DieLbq.blks hdie :)
    qtrs := (congrArg DieLbq.qtrs hdie :)
    up := (congrArg (fun x : DieLbq => x.power && !x.dieFault) hdie :)
    busy := .inl hbusy
    held := fun i hi => by
      rw [State.lane, h4.2]
      exact (State.foldl_modLane_held d (fun _ => rfl) _ s2).2 i hi
    others := fun k hk => (h4.2 k).trans ((h3.2 k hk).trans ((State.die_setDie_other _ _ hk).trans (h1.2 k hk)))
    events := (hp.eventsKept (by decide) _).trans ((State.lbqEvt_kept ..).trans h4.1)
    shown := h4.1.kept 3 (State.lbqEvt_set _ _ (by decide)) }
  split
  · split
    · exact hs4.returnEnds 6
    · exact hs4
  · split
    · exact hs4.returnEnds 4
    · exact hs4
  · unfold State.when
    split
    · next hret =>
      have hno : (s4.die d).busy ≠ some (.quarter (blockQuarter b)) := hbusy ▸ hq (by simpa [was] using hret)
      have hs : s4.quarterProgress d b false = s4 := State.quarterProgress_of_not_busy hno false
      show BlockFaulted d b cause s (s4.quarterProgress d b false)
      rw [hs]
      exact hs4
    · exact hs4

theorem BlockFaulted.blk_same {d b cause : Nat} {s t : State} (h : BlockFaulted d b cause s t) :
    t.blk d b = (s.blk d b).failed cause s.now := by
  rw [State.blk, DieLbq.blk, h.blks, tget_tset_same]

theorem BlockFaulted.st {d b cause : Nat} {s t : State} (h : BlockFaulted d b cause s t) : (t.blk d b).st = .faulty :=
  congrArg Blk.st h.blk_same

theorem BlockFaulted.cause {d b cause : Nat} {s t : State} (h : BlockFaulted d b cause s t) : (t.blk d b).cause = cause :=
  congrArg Blk.cause h.blk_same

theorem BlockFaulted.blk_other {d b cause : Nat} {s t : State} (h : BlockFaulted d b cause s t) {k : Nat} (hk : k ≠ b) :
    t.blk d k = s.blk d k := by
  rw [State.blk, DieLbq.blk, h.blks, tget_tset_other _ _ _ hk]
  rfl

/-! ### What the faults change -/

theorem State.returnEnds_changes (s : State) (d r : Nat) : Changes [.lbq, .events] [Reg.AQ_LBQ_EVT d] s (s.returnEnds d r) := by
  unfold State.returnEnds State.lbqEvt
  simp +decide

theorem State.quarterProgress_changes (s : State) (d b : Nat) (pass : Bool) :
    Changes [.lbq, .events] [Reg.AQ_LBQ_EVT d] s (s.quarterProgress d b pass) := by
  unfold State.quarterProgress
  split
  · split
    · exact .refl ..
    · extract_lets x s1
      have h1 : Changes [.lbq, .events] [Reg.AQ_LBQ_EVT d] s s1 := by
        simp only [s1]
        split <;> simp +decide
      split
      · exact (h1.trans (by simp +decide)).trans (State.returnEnds_changes ..)
      · exact h1
  · exact .refl ..

theorem State.blockFault_changes (s : State) (d b cause : Nat) :
    Changes [.lbq, .events] [Reg.AQ_LBQ_EVT d] s (s.blockFault d b cause) := by
  unfold State.blockFault
  split
  · exact .refl ..
  · extract_lets was s1 spans s2 s3 s4
    have h1 : OnlyParts [.lbq, .events] s s1 := by simp +decide [s1]
    have h2 : OnlyParts [.lbq, .events] s s3 := by simp +decide [s3, s2, s1]
    have h4 : Changes [.lbq, .events] [Reg.AQ_LBQ_EVT d] s s4 :=
      (Changes.of_parts h2 (by decide) (by decide)).trans (by simp +decide [s4, State.lbqEvt])
    have hend : ∀ r, Changes [.lbq, .events] [Reg.AQ_LBQ_EVT d] s (s4.returnEnds d r) := fun r => h4.trans (s4.returnEnds_changes d r)
    split
    · split
      · exact hend 6
      · exact h4
    · split
      · exact hend 4
      · exact h4
    · exact h4.trans ((State.when_changes (s4.quarterProgress_changes d b false)).2 (.refl ..))

theorem State.quarterFault_changes (s : State) (d q cause : Nat) :
    Changes [.lbq, .events] [Reg.AQ_LBQ_EVT d] s (s.quarterFault d q cause) := by
  unfold State.quarterFault
  split
  · exact .refl ..
  · extract_lets s1 s2
    have h1 : Changes [.lbq, .events] [Reg.AQ_LBQ_EVT d] s s1 := by simp +decide [s1, State.lbqEvt]
    have hend : ∀ r, Changes [.lbq, .events] [Reg.AQ_LBQ_EVT d] s (s1.returnEnds d r) := fun r => h1.trans (s1.returnEnds_changes d r)
    have h2 : Changes [.lbq, .events] [Reg.AQ_LBQ_EVT d] s s2 := by
      simp only [s2]
      split
      · split
        · exact hend 6
        · exact h1
      · split
        · exact hend 4
        · exact h1
      · exact h1
    exact (foldl_changes fun i u => u.blockFault_changes d (4 * q + i) 6).2 h2

/-! ### A quarter is marked faulty, and its blocks with it (R158) -/

/-- What the failing of blocks of a list with the quarter's cause leaves of a die that is up and not in the return of the quarter. -/
structure BlocksFailed (d q : Nat) (l : List Nat) (s t : State) : Prop where
  faulty : ∀ b, b ∈ l → (t.blk d b).st = .faulty
  cause : ∀ b, b ∈ l → (s.blk d b).st ≠ .faulty → (t.blk d b).cause = 6
  kept : ∀ b, b ∉ l ∨ (s.blk d b).st = .faulty → t.blk d b = s.blk d b
  qtrs : (t.die d).qtrs = (s.die d).qtrs
  up : t.dieUp d = true
  busy : (t.die d).busy ≠ some (.quarter q)
  events : EventsKept (Reg.AQ_LBQ_EVT d) s t

theorem State.blockFault_of_faulty {s : State} {d b : Nat} (cause : Nat) (h : (s.blk d b).st = .faulty) : s.blockFault d b cause = s :=
  if_pos (.inl h)

theorem State.blockFault_failed {s : State} {d q b : Nat} (hb : blockQuarter b = q) (hup : s.dieUp d = true)
    (hq : (s.die d).busy ≠ some (.quarter q)) : BlocksFailed d q [b] s (s.blockFault d b 6) := by
  by_cases hst : (s.blk d b).st = .faulty
  · rw [State.blockFault_of_faulty 6 hst]
    exact ⟨by simp [hst], by simp [hst], fun _ _ => rfl, rfl, hup, hq, ⟨fun _ h => h⟩⟩
  · have h := State.blockFault_faulted 6 hst hup fun _ => hb ▸ hq
    refine ⟨by simp [h.st], by simp [h.cause], fun k hk => h.blk_other ?_, h.qtrs, h.up.trans hup, ?_, h.events⟩
    · rintro rfl
      simp [hst] at hk
    · obtain hbusy | hbusy := h.busy <;> rw [hbusy]
      · exact hq
      · simp

theorem State.foldl_blockFault_failed {d q : Nat} (l : List Nat) : ∀ s : State, (∀ b, b ∈ l → blockQuarter b = q) → s.dieUp d = true →
    (s.die d).busy ≠ some (.quarter q) → BlocksFailed d q l s (l.foldl (fun s b => s.blockFault d b 6) s) := by
  induction l with
  | nil => exact fun s _ hup hq => ⟨by simp, by simp, fun _ _ => rfl, rfl, hup, hq, ⟨fun _ h => h⟩⟩
  | cons b l ih =>
    intro s hl hup hq
    have h1 := State.blockFault_failed (hl b (by simp)) hup hq
    have h2 := ih (s.blockFault d b 6) (fun k hk => hl k (by simp [hk])) h1.up h1.busy
    have hb : (((b :: l).foldl (fun s b => s.blockFault d b 6) s).blk d b) = (s.blockFault d b 6).blk d b :=
      h2.kept b (.inr (h1.faulty b (by simp)))
    refine ⟨fun k hk => ?_, fun k hk hst => ?_, fun k hk => ?_, h2.qtrs.trans h1.qtrs, h2.up, h2.busy, h1.events.trans h2.events⟩
    · obtain rfl | hk := List.mem_cons.1 hk
      · rw [hb]
        exact h1.faulty k (by simp)
      · exact h2.faulty k hk
    · by_cases hkb : k = b
      · subst hkb
        rw [hb]
        exact h1.cause k (by simp) hst
      · refine h2.cause k (by simpa [hkb] using hk) ?_
        rwa [h1.kept k (.inl (by simpa using hkb))]
    · have hone : (s.blockFault d b 6).blk d k = s.blk d k := h1.kept k (hk.imp (by simp_all) id)
      rw [← hone]
      exact h2.kept k (hk.imp (by simp_all) fun h => hone ▸ h)

/-- The end of a return leaves no return of the quarter in hand, and the die's blocks and quarters as they are. -/
structure ReturnOver (d q : Nat) (s t : State) : Prop where
  blks : (t.die d).blks = (s.die d).blks
  qtrs : (t.die d).qtrs = (s.die d).qtrs
  up : t.dieUp d = s.dieUp d
  busy : (t.die d).busy ≠ some (.quarter q)
  events : EventsKept (Reg.AQ_LBQ_EVT d) s t

theorem ReturnOver.of_not_busy {d q : Nat} {s : State} (h : (s.die d).busy ≠ some (.quarter q)) : ReturnOver d q s s :=
  ⟨rfl, rfl, rfl, h, ⟨fun _ h => h⟩⟩

theorem State.returnEnds_over (s : State) (d q r : Nat) : ReturnOver d q s (s.returnEnds d r) := by
  obtain ⟨-, hblks, hqtrs, hup, hbusy, -⟩ := s.returnEnds_die d r
  exact ⟨hblks, hqtrs, hup, by simp [hbusy], s.returnEnds_kept d r⟩

/-- What the fault of a quarter that was not faulty leaves. -/
structure QuarterFaulted (d q cause : Nat) (s t : State) : Prop where
  qtr : (t.die d).qtr q = { st := .faulty, cause := cause }
  faulty : ∀ i, i < 4 → (t.blk d (4 * q + i)).st = .faulty
  cause : ∀ i, i < 4 → (s.blk d (4 * q + i)).st ≠ .faulty → (t.blk d (4 * q + i)).cause = 6
  others : ∀ b, blockQuarter b ≠ q → t.blk d b = s.blk d b
  shown : bitOf (t.reg (Reg.AQ_LBQ_EVT d)) 4 = true

theorem State.quarterFault_faulted {s : State} {d q : Nat} (cause : Nat) (hst : ((s.die d).qtr q).st ≠ .faulty) (hup : s.dieUp d = true) :
    QuarterFaulted d q cause s (s.quarterFault d q cause) := by
  have hin : ∀ i, i < 4 → blockQuarter (4 * q + i) = q := fun i hi => by
    unfold blockQuarter
    omega
  unfold State.quarterFault
  rw [if_neg (by simp [hst, hup])]
  extract_lets s1 s2
  have h1 : s1.die d = (s.die d).setQtr q { st := .faulty, cause := cause } := by simp [s1]
  have hs2 : ReturnOver d q s1 s2 := by
    simp only [s2]
    split
    · split
      · exact s1.returnEnds_over ..
      · next hb _ => exact .of_not_busy (by simp [hb])
    · split
      · exact s1.returnEnds_over ..
      · next hb hk => exact .of_not_busy (by simp [hb, hk])
    · next hb => exact .of_not_busy fun h => hb _ h
  obtain ⟨hblks, hqtrs, hup2, hbusy, hevt⟩ := hs2
  have hblk : ∀ b, s2.blk d b = s.blk d b := fun b => by
    rw [State.blk, DieLbq.blk, hblks, h1]
    rfl
  have h := State.foldl_blockFault_failed ((List.range 4).map (4 * q + ·)) s2 (by simpa using hin)
    (hup2.trans (by rw [State.dieUp, h1]; exact hup)) hbusy
  rw [List.foldl_map] at h
  exact {
    qtr := by
      rw [DieLbq.qtr, h.qtrs, hqtrs, h1]
      exact tget_tset_same ..
    faulty := fun i hi => h.faulty _ (by simpa using hi)
    cause := fun i hi hi' => h.cause _ (by simpa using hi) (by rwa [hblk])
    others := fun b hb => (h.kept b (.inl fun hm => by
      obtain ⟨i, hi, rfl⟩ := List.mem_map.1 hm
      exact hb (hin i (by simpa using hi)))).trans (hblk b)
    shown := (hevt.trans h.events).kept 4 (State.lbqEvt_set _ _ (by decide)) }

/-! ### The rows -/

section
variable {s e : State} {dt d b : Nat} (he : s.elapse dt = e) (hu : e.boot.up = true)
include he hu

/-- A row that fails a block that may fail. -/
theorem afterHb_blockFault {f : State → State} {cause : Nat} (hf : f e = e.blockFault d b cause) (hst : (e.blk d b).st ≠ .faulty)
    (hup : e.dieUp d = true) (hq : (e.blk d b).st = .returning → (e.die d).busy ≠ some (.quarter (blockQuarter b))) :
    ∃ t, s.afterHb dt f = .next t ∧ BlockFaulted d b cause e t ∧ Changes [.lbq, .events] [Reg.AQ_LBQ_EVT d] e t :=
  ⟨_, (afterHb_of_up he hu f).trans (by rw [hf]), State.blockFault_faulted cause hst hup hq, e.blockFault_changes d b cause⟩

theorem afterHb_blockFault_idle {f : State → State} {cause : Nat} (hf : f e = e.blockFault d b cause) (hst : (e.blk d b).st ≠ .faulty)
    (hup : e.dieUp d = true) (hbusy : (e.die d).busy = none) :
    ∃ t, s.afterHb dt f = .next t ∧ BlockFaulted d b cause e t ∧ Changes [.lbq, .events] [Reg.AQ_LBQ_EVT d] e t :=
  afterHb_blockFault he hu hf hst hup fun _ => by simp [hbusy]

theorem afterHb_blockFault_running {f : State → State} {cause : Nat} (hf : f e = e.blockFault d b cause) (hb : e.blkUp d b = true) :
    ∃ t, s.afterHb dt f = .next t ∧ BlockFaulted d b cause e t ∧ Changes [.lbq, .events] [Reg.AQ_LBQ_EVT d] e t := by
  obtain ⟨hup, hrun⟩ : e.dieUp d = true ∧ (e.blk d b).st = .running := by simpa [State.blkUp] using hb
  exact afterHb_blockFault he hu hf (by simp [hrun]) hup (by simp [hrun])

theorem afterHb_quarterFault {q : Nat} (cause : Nat) (hst : ((e.die d).qtr q).st ≠ .faulty) (hup : e.dieUp d = true) :
    ∃ t, s.afterHb dt (·.quarterFault d q cause) = .next t ∧ QuarterFaulted d q cause e t ∧
      Changes [.lbq, .events] [Reg.AQ_LBQ_EVT d] e t :=
  ⟨_, afterHb_of_up he hu _, State.quarterFault_faulted cause hst hup, e.quarterFault_changes d q cause⟩

end

/-- Settles O9: every cause marks the block by the one operation `blockFault`, and a quarter's fault does so for its four blocks. -/
theorem unitsFail : Obligations.UnitsFail := by
  unfold Obligations.UnitsFail
  refine ⟨?_, ?_, ?_, ?_, ?_, ?_, ?_, ?_, ?_, ?_, ?_⟩
  case refine_1 =>
    intro dt s e d b x he hu hb hx
    refine ⟨_, afterHb_of_up he hu _, ?_⟩
    have hrow : spareLoadComplete d b e = e.modBlk d b fun y => { y with
        loading := y.loading.map fun z => if z.home = x.home then { z with loaded := some e.fifths } else z } := by
      simp only [spareLoadComplete, hb, hx, Bool.not_true, Bool.false_eq_true, if_false]
    rw [hrow]
    obtain ⟨hsame, hother, hlane, hdie⟩ := e.modBlk_frame d b fun y => { y with
        loading := y.loading.map fun z => if z.home = x.home then { z with loaded := some e.fifths } else z }
    exact ⟨congrArg Blk.loading hsame, hother, hlane, hdie, by simp +decide⟩
  case refine_2 =>
    intro dt s e d b he hu hst hup hbusy
    obtain ⟨t, hrow, h, hc⟩ := afterHb_blockFault_idle (f := (·.blockFault d b 4)) he hu rfl hst hup hbusy
    exact ⟨t, hrow, h.st, h.cause, congrArg Blk.faultAt h.blk_same,
      fun _ => h.blk_other, h.others, h.held, h.shown, hc⟩
  case refine_3 =>
    intro dt s e d b he hu hb
    exact (afterHb_of_up he hu _).trans (by simp [memScrub, hb, State.lbqEvt])
  case refine_4 =>
    intro dt s e d b he hu
    exact (afterHb_of_up he hu _).trans (by simp [memScrub])
  case refine_5 =>
    intro dt s e d b he hu hb
    obtain ⟨t, hrow, h, hc⟩ := afterHb_blockFault_running (f := memScrub d b .uncorrectable) (cause := 3) he hu (by simp [memScrub, hb]) hb
    exact ⟨t, hrow, h.st, h.cause, fun _ => h.blk_other, hc⟩
  case refine_6 =>
    intro dt s e d b he hu hst hup hbusy
    obtain ⟨t, hrow, h, hc⟩ := afterHb_blockFault_idle (f := (·.blockFault d b 2)) he hu rfl hst hup hbusy
    exact ⟨t, hrow, h.st, h.cause, fun _ => h.blk_other, hc⟩
  case refine_7 =>
    intro dt s e d b he hu hb
    exact (afterHb_of_up he hu _).trans (by simp only [stampFloorSend, hb, if_true, State.modBlk])
  case refine_8 =>
    intro dt s e d b he hu hb hlate
    obtain ⟨t, hrow, h, hc⟩ := afterHb_blockFault_running (f := stampFloorMissing d b) (cause := 5) he hu (by simp [stampFloorMissing, hb, hlate]) hb
    exact ⟨t, hrow, h.st, h.cause, fun _ => h.blk_other, hc⟩
  case refine_9 =>
    intro dt s e d b he hu hst
    exact (afterHb_of_up he hu _).trans (by simp only [blockPowerDown, hst, if_true, State.modBlk])
  case refine_10 =>
    intro dt s e d q he hu hst hup
    obtain ⟨t, hrow, h, hc⟩ := afterHb_quarterFault he hu 1 hst hup
    exact ⟨t, hrow, h.qtr, h.faulty, h.cause, h.others, h.shown, hc⟩
  case refine_11 =>
    intro dt s e d q he hu hst hup
    obtain ⟨t, hrow, h, hc⟩ := afterHb_quarterFault he hu 2 hst hup
    exact ⟨t, hrow, h.qtr, h.faulty, h.cause, h.others, h.shown, hc⟩

end Sys2Proof.Machine
end

section
/-!
PROOF. The package links and the merge (R17, R18, R34 to R36, R188, R207).
-/
namespace Sys2Proof.Machine

/-! ### Frames -/

/-- A frame on a link that is not a dead isolation channel restarts the link's silence and nothing else. -/
theorem State.frameSeen_of_live {s : State} {link : Nat} (hA : link = 4 → s.mrg.deadA = false) (hB : link = 5 → s.mrg.deadB = false)
    (toHb : Bool) :
    s.frameSeen link toHb = s.setMrg fun m => { m with frames := tset m.frames (2 * link + b2n toHb) s.now } := by
  unfold State.frameSeen
  rw [if_neg, if_neg]
  · rintro ⟨h, hdead, -⟩
    simp [hB h] at hdead
  · rintro ⟨h, hdead, -⟩
    simp [hA h] at hdead

theorem State.frameSeen_of_die {s : State} {d : Nat} (hd : d < 4) (toHb : Bool) :
    s.frameSeen d toHb = s.setMrg fun m => { m with frames := tset m.frames (2 * d + b2n toHb) s.now } :=
  State.frameSeen_of_live (by omega) (by omega) toHb

theorem State.frameAt_of_frames {s t : State} {link : Nat} {toHb : Bool}
    (h : t.mrg.frames = tset s.mrg.frames (2 * link + b2n toHb) s.now) : t.frameAt link toHb = s.now := by
  rw [State.frameAt, h, tget_tset_same]

/-! ### ISO-A and the release (R36) -/

theorem State.procDo_mrg (s : State) (f : Channel → Channel) : (s.procDo f).mrg = s.mrg :=
  ((State.procDo_parts s f (by decide)).2 (.refl [.regs, .copies, .saf, .frw, .events, .store] s)).same .mrg (by decide)

theorem State.ledDo_mrg (s : State) (f : Channel → Channel) : (s.ledDo f).mrg = s.mrg :=
  ((State.ledDo_parts s f (by decide)).2 (.refl [.regs, .copies, .outs, .fds, .events] s)).same .mrg (by decide)

theorem ledReplays_mrg (l : List IsoItem) (s : State) : ∃ i, (ledReplays l s).mrg = { s.mrg with isoA := i } := by
  induction l generalizing s with
  | nil => exact ⟨_, rfl⟩
  | cons x l ih =>
    cases x with
    | replayDone d =>
      obtain ⟨i, hi⟩ := ih ((s.setFds fun f => { f with lastKey := none }).ledDo (·.replayed true d))
      exact ⟨i, by rw [ledReplays, hi, State.ledDo_mrg]; rfl⟩
    | _ => exact ⟨_, rfl⟩

/-- What HB sends over ISO-A changes nothing of the merge but the items on the way. -/
theorem State.isoSend_mrg (s : State) (x : IsoItem) : ∃ i, (s.isoSend x).mrg = { s.mrg with isoA := i } := by
  unfold State.isoSend
  split
  · exact ⟨_, rfl⟩
  · exact ledReplays_mrg _ _

theorem State.when_procDo_mrg (s : State) (b : Bool) (f : Channel → Channel) : (s.when b (·.procDo f)).mrg = s.mrg := by
  unfold State.when
  split
  · exact s.procDo_mrg f
  · rfl

/-- HB's sequence check changes nothing of the merge but the accounts. -/
theorem State.hbSeq_mrg (s : State) (src : Nat) (b : List Byte) : ∃ q, (s.hbSeq src b).mrg = { s.mrg with seqs := q } := by
  unfold State.hbSeq
  split
  · exact ⟨_, rfl⟩
  · exact ⟨_, State.when_procDo_mrg ..⟩

/-- What releases leave of the merge: the events stand behind what the processor channel has not applied yet. -/
structure Released (out : List ProcItem) (s t : State) : Prop where
  procIn : t.mrg.procIn = s.mrg.procIn ++ out
  held : t.mrg.held = s.mrg.held
  hz : t.mrg.hz = s.mrg.hz
  frames : t.mrg.frames = s.mrg.frames
  silent : t.mrg.silent = s.mrg.silent

theorem Released.refl (s : State) : Released [] s s := ⟨by simp, rfl, rfl, rfl, rfl⟩

theorem Released.trans {x y : List ProcItem} {s t u : State} (h : Released x s t) (k : Released y t u) : Released (x ++ y) s u :=
  ⟨by rw [k.procIn, h.procIn, List.append_assoc], k.held.trans h.held, k.hz.trans h.hz, k.frames.trans h.frames,
    k.silent.trans h.silent⟩

theorem State.releaseOne_released (hz : Nat) (replay : Bool) (s : State) (e : Nat × List Byte) :
    Released [.event e.1 e.2] s (s.releaseOne hz replay e) := by
  obtain ⟨q, hq⟩ := s.hbSeq_mrg e.1 e.2
  unfold State.releaseOne
  extract_lets s1 s2
  obtain ⟨i, hi⟩ := s2.isoSend_mrg (.event e.1 e.2 hz replay)
  have h1 : Released [.event e.1 e.2] s s2 := by
    constructor <;> simp only [s2, s1, State.setMrg, hq]
  constructor <;> rw [hi]
  exacts [h1.procIn, h1.held, h1.hz, h1.frames, h1.silent]

/-- A release of each event of a list, whatever its horizon. -/
theorem foldl_released {α : Type} {f : State → α → State} {g : α → ProcItem} (hf : ∀ s x, Released [g x] s (f s x)) (l : List α) :
    ∀ s : State, Released (l.map g) s (l.foldl f s) := by
  induction l with
  | nil => exact .refl
  | cons x l ih => exact fun s => (hf s x).trans (ih (f s x))

/-! ### The rows -/

/-- Settles O12: a frame that comes restarts its link's silence, and a release leaves of the merge what `Released` lists. -/
theorem mergeReceivesAndReleases : Obligations.MergeReceivesAndReleases := by
  unfold Obligations.MergeReceivesAndReleases
  refine ⟨?_, ?_, ?_, ?_, ?_, ?_, ?_, ?_, ?_, ?_⟩
  case refine_1 =>
    intro dt s e d toHb frame c he hd hc
    exact (after_eq he _).trans (by rw [linkFrame, if_pos hc, linkCode, State.frameSeen_of_die hd])
  case refine_2 =>
    intro dt s e link toHb frame c he hc
    exact (after_eq he _).trans (by rw [linkFrame, if_neg hc])
  case refine_3 =>
    intro dt s e d he hu hd
    exact (afterHb_of_up he hu _).trans (by rw [idleFrame, if_pos hd])
  case refine_4 =>
    intro dt s e he hf
    exact (after_eq he _).trans (by rw [fdWatermark, if_pos hf])
  case refine_5 =>
    intro dt s e stamp he hu hshaken hlive
    refine ⟨_, afterHb_of_up he hu _, ?_⟩
    rw [watermarkReceived, State.frameSeen_of_live (by simp [hlive]) (by simp)]
    simp only [State.when, State.setMrg, hshaken, hlive, beq_self_eq_true, Bool.and_self, Bool.not_false, if_true]
    exact ⟨trivial, tget_tset_same .., State.frameAt_of_frames rfl, by simp +decide⟩
  case refine_6 =>
    intro dt s e src stamp he hu hsrc
    refine ⟨_, afterHb_of_up he hu _, ?_⟩
    have h4 : (src == 4) = false := by simp; omega
    rw [watermarkReceived, State.frameSeen_of_die hsrc]
    simp only [State.when, State.setMrg, h4, Bool.false_and, Bool.false_eq_true, if_false]
    exact ⟨tget_tset_same .., fun k hk => tget_tset_other _ _ _ hk, State.frameAt_of_frames rfl, by simp +decide⟩
  case refine_7 =>
    intro dt s e b he hu hsilent hfd hlive
    refine ⟨_, afterHb_of_up he hu _, ?_⟩
    rw [sourceEvent, State.frameSeen_of_live (by simp [hlive]) (by simp)]
    simp only [State.setMrg, hsilent, hfd, Bool.not_false, and_self, if_true]
    exact ⟨trivial, trivial, by simp +decide⟩
  case refine_8 =>
    intro dt s e src b he hu hsrc hfd hsilent hok
    refine ⟨_, afterHb_of_up he hu _, ?_⟩
    have hno : ¬(src = 4 ∧ (!e.mrg.fdSource) = true) := fun ⟨h, hf⟩ => by simp [hfd h] at hf
    rw [sourceEvent, State.frameSeen_of_live (fun h => (hfd h).2) (by omega)]
    simp only [State.setMrg, hsilent, hok, if_true, if_neg hno]
    exact ⟨trivial, State.frameAt_of_frames rfl, trivial, by simp +decide⟩
  case refine_9 =>
    intro dt s e w he hu hw
    refine ⟨_, afterHb_of_up he hu _, ?_⟩
    have hparts : OnlyParts [.regs, .copies, .outs, .mrg, .saf, .fds, .frw, .events, .store] e (eventRelease e) :=
      (eventRelease_parts e (by decide)).2 (.refl ..)
    have hrow : eventRelease e = (sortBy (fun x => orderKey x.1 x.2) (e.mrg.held.filter fun x => decide (emitOf x.2 ≤ w))).foldl
        (State.releaseOne w false)
        (e.setMrg fun m => { m with held := m.held.filter fun x => !decide (emitOf x.2 ≤ w), hz := max m.hz w }) := by
      simp only [eventRelease, hw]
    have h := foldl_released (State.releaseOne_released w false)
      (sortBy (fun x => orderKey x.1 x.2) (e.mrg.held.filter fun x => decide (emitOf x.2 ≤ w)))
      (e.setMrg fun m => { m with held := m.held.filter fun x => !decide (emitOf x.2 ≤ w), hz := max m.hz w })
    rw [← hrow] at h
    exact ⟨h.held, h.hz, h.procIn, hparts⟩
  case refine_10 =>
    intro dt s e he hu hold hlive hf hshaken hempty
    refine ⟨_, afterHb_of_up he hu _, ?_⟩
    have hrow : horizonMarkSend e = e.setMrg fun m => { m with hz := e.horizon, sentAt := e.now, isoA := [.mark e.horizon] } := by
      simp [horizonMarkSend, not_lt.2 hold, State.isoSend, State.setMrg, hlive, hf, hshaken, hempty, ledReplays]
    rw [hrow]
    exact ⟨rfl, rfl, rfl, by simp +decide⟩

end Sys2Proof.Machine
end

section
/-!
PROOF. Silences of the links and crossings (R20, R21, R28, R157, R223, R275).
-/
namespace Sys2Proof.Machine

/-! ### The device state follows its condition (R275) -/

theorem State.enter_dev (s : State) (d : DeviceState) : (s.enter d).dev = d := by
  unfold State.enter
  split
  · assumption
  · have h : OnlyParts [.regs, .copies, .outs, .events] { s with dev := d }
        ((({ s with dev := d } : State).raise 12 12).when (d == .start) (·.setOuts fun o => { o with checkDue := true })).voRecheck := by
      simp +decide
    exact h.same .dev (by decide)

theorem State.degCheck_dev {s : State} (hs : s.dev = .service) (h : s.degradedCond = true) : s.degCheck.dev = .degraded := by
  rw [State.degCheck, if_pos ⟨hs, h⟩]
  exact State.enter_dev ..

/-- A die in power that has a fault, or has been excluded for its time, degrades the device. -/
theorem State.degradedCond_of_die {s : State} {d : Nat} (hd : d < 4) (hp : (s.die d).power = true)
    (h : (s.die d).dieFault = true ∨ s.excluded d = true) : s.degradedCond = true := by
  simp only [State.degradedCond, Bool.or_eq_true, List.any_eq_true, Bool.and_eq_true, List.mem_range]
  exact .inr ⟨d, hd, hp, h⟩

/-! ### Safe-stop: what entering it leaves (R264, R271) -/

theorem OnlyParts.mrg_eq {ps : List Part} {s t : State} (h : OnlyParts ps s t) (hp : Part.mrg ∉ ps) : t.mrg = s.mrg := h.same .mrg hp

theorem OnlyParts.fds_eq {ps : List Part} {s t : State} (h : OnlyParts ps s t) (hp : Part.fds ∉ ps) : t.fds = s.fds := h.same .fds hp

/-- What the channels and the dies do leaves of the merge all but the times of frames, and of FD's safety part all but the ledger. -/
structure ChannelsRan (s t : State) : Prop where
  mrg : ∃ x, t.mrg = { s.mrg with frames := x }
  fds : ∃ g, t.fds = { s.fds with led := g }

theorem ChannelsRan.refl (s : State) : ChannelsRan s s := ⟨⟨_, rfl⟩, ⟨_, rfl⟩⟩

theorem ChannelsRan.trans {s t u : State} (h : ChannelsRan s t) (k : ChannelsRan t u) : ChannelsRan s u := by
  obtain ⟨⟨x, hx⟩, g, hg⟩ := h
  obtain ⟨⟨y, hy⟩, l, hl⟩ := k
  exact ⟨⟨y, by rw [hy, hx]⟩, ⟨l, by rw [hl, hg]⟩⟩

theorem OnlyParts.channelsRan {ps : List Part} {s t : State} (h : OnlyParts ps s t) (hm : Part.mrg ∉ ps) (hf : Part.fds ∉ ps) :
    ChannelsRan s t :=
  ⟨⟨s.mrg.frames, h.mrg_eq hm⟩, ⟨s.fds.led, h.fds_eq hf⟩⟩

theorem foldl_channelsRan {α : Type} {f : State → α → State} (hf : ∀ s x, ChannelsRan s (f s x)) (l : List α) :
    ∀ s : State, ChannelsRan s (l.foldl f s) := by
  induction l with
  | nil => exact .refl
  | cons x l ih => exact fun s => (hf s x).trans (ih (f s x))

theorem State.when_channelsRan {s : State} {f : State → State} (h : ChannelsRan s (f s)) (b : Bool) : ChannelsRan s (s.when b f) := by
  unfold State.when
  split
  · exact h
  · exact .refl s

theorem State.frames_channelsRan (s : State) (k v : Nat) : ChannelsRan s (s.setMrg fun m => { m with frames := tset m.frames k v }) :=
  ⟨⟨tset s.mrg.frames k v, rfl⟩, ⟨s.fds.led, rfl⟩⟩

theorem State.voRecheck_fds (s : State) : s.voRecheck.fds = s.fds :=
  ((State.voRecheck_parts s (by decide)).2 (.refl [.regs, .copies, .outs, .events] s)).fds_eq (by decide)

/-- The ledger at work changes nothing of FD's safety part but its channel. -/
theorem State.ledDo_fds {s : State} (hu : s.fdUp = true) (f : Channel → Channel) :
    (s.ledDo f).fds = { s.fds with led := (f s.fds.led).reported } := by
  rw [State.ledDo, if_pos hu, State.voRecheck_fds]
  rfl

theorem State.ledDo_channelsRan (s : State) (f : Channel → Channel) : ChannelsRan s (s.ledDo f) := by
  refine ⟨⟨s.mrg.frames, s.ledDo_mrg f⟩, ?_⟩
  cases hu : s.fdUp with
  | true => exact ⟨_, State.ledDo_fds hu f⟩
  | false => exact ⟨s.fds.led, by rw [State.ledDo, hu]; rfl⟩

theorem State.homesAvailable_channelsRan (s : State) (d : Nat) (homes : List Nat) (on : Bool) :
    ChannelsRan s (s.homesAvailable d homes on) := by
  refine foldl_channelsRan (fun u h => ?_) homes s
  have hp : OnlyParts [.regs, .copies, .saf, .frw, .events, .store] u (u.procKeep fun g => g.spanAvailable false d h on u.tc.now) := by
    simp +decide
  exact (hp.channelsRan (by decide) (by decide)).trans (State.ledDo_channelsRan ..)

theorem State.dieWake_channelsRan (s : State) (d : Nat) : ChannelsRan s (s.dieWake d) := by
  unfold State.dieWake
  extract_lets y s1 s2 s3 s4
  have h1 : OnlyParts [.lbq] s s1 := by simp +decide [s1]
  have h2 : OnlyParts [.lbq] s s2 := (foldl_parts fun _ _ => (State.when_parts (by simp +decide)).2 (.refl ..)).2 h1
  have h3 : ChannelsRan s2 s3 := s2.frames_channelsRan (2 * d + 1) s2.now
  have h5 : OnlyParts [.ofe, .regs, .copies, .events, .lbq, .time, .sent, .boot] s4 ((s4.endLockout d).lightOn d) := by simp +decide
  exact (((h2.channelsRan (by decide) (by decide)).trans h3).trans (State.homesAvailable_channelsRan ..)).trans
    (h5.channelsRan (by decide) (by decide))

theorem State.ssFollow_channelsRan (s : State) : ChannelsRan s s.ssFollow := by
  unfold State.ssFollow
  extract_lets watch s1 s2
  have h2 : OnlyParts [.dev, .regs, .copies, .outs, .events, .store, .frw] s s2 := by simp +decide [s2, s1]
  have hwake : ChannelsRan s2 s2.wakeDies := by
    have hd := foldl_channelsRan State.dieWake_channelsRan (List.range 4) s2
    refine hd.trans (OnlyParts.channelsRan (ps := [.boot, .regs, .copies, .events]) ?_ (by decide) (by decide))
    exact (State.setEvt_parts _ _ _ (by decide)).2 ((State.with_boot_parts (by decide)).2 (.refl ..))
  exact (h2.channelsRan (by decide) (by decide)).trans (State.when_channelsRan hwake _)

theorem State.disturbed_mrg_fds (s : State) :
    ((s.setFds FdSafe.disturb).setSaf Saf.disturb).telegramsDisturb.mrg = s.mrg ∧
      ((s.setFds FdSafe.disturb).setSaf Saf.disturb).telegramsDisturb.fds = s.fds.disturb := ⟨rfl, rfl⟩

/-- Entering Safe-stop keeps the merge but for the times of frames, and takes the first cause. -/
theorem State.ssEnter_mrg_fds (s : State) (k : Nat) : (∃ x, (s.ssEnter k).mrg = { s.mrg with frames := x }) ∧
    ∃ g, (s.ssEnter k).fds = { ({ s.fds with first := some k } : FdSafe).disturb with led := g } := by
  unfold State.ssEnter
  extract_lets s1 s2 s3 s4 s5 s6
  have h2 : OnlyParts [.regs, .copies, .outs, .events] s1 s2 := by simp +decide [s2]
  have h3 : ChannelsRan s1 s3 := (h2.channelsRan (by decide) (by decide)).trans (State.ledDo_channelsRan ..)
  obtain ⟨h4m, h4f⟩ : s4.mrg = s3.mrg ∧ s4.fds = s3.fds.disturb := s3.disturbed_mrg_fds
  have h6 : OnlyParts [.regs, .copies, .saf, .frw, .events, .store, .str] s4 s6 := by simp +decide [s6, s5]
  have h7 : ChannelsRan s4 (s6.when s6.boot.shaken State.ssFollow) :=
    (h6.channelsRan (by decide) (by decide)).trans (State.when_channelsRan s6.ssFollow_channelsRan _)
  obtain ⟨⟨x, hx⟩, g, hg⟩ := h3
  obtain ⟨⟨y, hy⟩, l, hl⟩ := h7
  exact ⟨⟨y, by rw [hy, h4m, hx]; rfl⟩, ⟨l, by rw [hl, h4f, hg]; rfl⟩⟩

/-- A raised cause is shown, and Safe-stop has its first cause; of the merge only times of frames change. -/
structure CauseShown (k : Nat) (s t : State) : Prop where
  mrg : ∃ x, t.mrg = { s.mrg with frames := x }
  shown : k ∈ t.fds.causes
  first : t.fds.first.isSome = true

/-- A cause of ISO-A or ISO-B (0, 1) is raised whatever FD's supply (R264). -/
theorem State.causeRaise_shown {s : State} {k : Nat} (hk : k < 2) (h : s.fds.causes = []) : CauseShown k s (s.causeRaise k) := by
  have hbrief : (k == 5 || k == 10) = false := by simp; omega
  unfold State.causeRaise
  rw [if_neg (by simp [h]; omega)]
  simp only [hbrief, Bool.not_false, State.when, if_true, Bool.false_eq_true, if_false]
  split
  · next hfirst => exact ⟨⟨s.mrg.frames, rfl⟩, List.mem_cons_self, hfirst⟩
  · obtain ⟨⟨x, hx⟩, g, hg⟩ := (s.setFds fun f => { f with causes := k :: f.causes }).ssEnter_mrg_fds k
    exact ⟨⟨x, hx⟩, by rw [hg]; exact List.mem_cons_self, by rw [hg]; rfl⟩

theorem State.liveCheck_fds_eq (s : State) :
    s.liveCheck.fds = { s.fds with deadAt := if s.procLive then none else some (s.fds.deadAt.getD s.now) } := by
  rw [State.liveCheck, State.voRecheck_fds]
  rfl

theorem State.liveCheck_fds (s : State) : ∃ x, s.liveCheck.fds = { s.fds with deadAt := x } := ⟨_, s.liveCheck_fds_eq⟩

theorem State.liveCheck_mrg (s : State) : s.liveCheck.mrg = s.mrg :=
  ((State.liveCheck_parts s (by decide)).2 (.refl [.regs, .copies, .outs, .fds, .events] s)).mrg_eq (by decide)

theorem CauseShown.liveCheck {k : Nat} {s t : State} (h : CauseShown k s t) : CauseShown k s t.liveCheck := by
  obtain ⟨x, hx⟩ := t.liveCheck_fds
  exact ⟨by rw [t.liveCheck_mrg]; exact h.mrg, by rw [hx]; exact h.shown, by rw [hx]; exact h.first⟩

/-! ### The status of a die (R157, R186) -/

/-- What marks of span restarts leave: the frames, the held events, and the die's blocks. -/
structure RestartsSent (s t : State) : Prop where
  frames : t.mrg.frames = s.mrg.frames
  held : t.mrg.held = s.mrg.held
  lbq : t.lbq = s.lbq

theorem foldl_restartsSent {α : Type} {f : State → α → State} (hf : ∀ s x, RestartsSent s (f s x)) (l : List α) :
    ∀ s : State, RestartsSent s (l.foldl f s) := by
  induction l with
  | nil => exact fun s => ⟨rfl, rfl, rfl⟩
  | cons x l ih =>
    intro s
    obtain ⟨hf1, hh1, hl1⟩ := hf s x
    obtain ⟨hf2, hh2, hl2⟩ := ih (f s x)
    exact ⟨hf2.trans hf1, hh2.trans hh1, hl2.trans hl1⟩

theorem State.isoSend_restartsSent (s : State) (k : Nat) (x : SeqTrack) (i : IsoItem) :
    RestartsSent s ((s.setMrg fun m => { m with seqs := tset m.seqs k x }).isoSend i) := by
  obtain ⟨l, hl⟩ := (s.setMrg fun m => { m with seqs := tset m.seqs k x }).isoSend_mrg i
  have hp : OnlyParts [.regs, .copies, .outs, .mrg, .fds, .events] s ((s.setMrg fun m => { m with seqs := tset m.seqs k x }).isoSend i) := by
    simp +decide
  exact ⟨by rw [hl]; rfl, by rw [hl]; rfl, hp.same .lbq (by decide)⟩

/-- The returned blocks of a list take their mark back, and nothing else of a block changes its state. -/
structure BlocksBack (d : Nat) (l : List Nat) (s t : State) : Prop where
  frames : t.mrg.frames = s.mrg.frames
  held : t.mrg.held = s.mrg.held
  st : ∀ b, (t.blk d b).st = (s.blk d b).st
  back : ∀ b, b ∈ l ∨ (s.blk d b).back = false → (t.blk d b).back = false

theorem State.spanRestarts_back (s : State) (d b : Nat) : BlocksBack d [b] s (s.spanRestarts d b) := by
  unfold State.spanRestarts
  split
  · next h =>
    refine ⟨rfl, rfl, fun _ => rfl, fun k hk => ?_⟩
    obtain hk | hk := hk
    · obtain rfl := List.mem_singleton.1 hk
      simpa using h
    · exact hk
  · extract_lets s1
    obtain ⟨hsame, hother, -, -⟩ := s.modBlk_frame d b fun x => { x with back := false }
    obtain ⟨hframes, hheld, hlbq⟩ := foldl_restartsSent (f := fun s i =>
      let k := seqKey (d, i)
      let s := s.setMrg fun m => { m with seqs := tset m.seqs k { tget m.seqs {} k with restart := true } }
      s.isoSend (.spanRestart d i)) (fun u i => u.isoSend_restartsSent ..) ((blockLanes b).filter fun i => s1.spanCount d i != 0) s1
    have hblk : ∀ k, _ = s1.blk d k := fun k => congrArg (fun x => (tget x {} d).blk k) hlbq
    refine ⟨hframes, hheld, fun k => ?_, fun k hk => ?_⟩ <;> by_cases hkb : k = b
    · subst hkb
      exact (congrArg Blk.st (hblk k)).trans (congrArg Blk.st hsame :)
    · exact congrArg Blk.st ((hblk k).trans (hother k hkb))
    · subst hkb
      exact (congrArg Blk.back (hblk k)).trans ((congrArg Blk.back hsame :))
    · refine (congrArg Blk.back ((hblk k).trans (hother k hkb))).trans (hk.resolve_left (by simpa using hkb))

theorem State.foldl_spanRestarts_back (d : Nat) (l : List Nat) :
    ∀ s : State, BlocksBack d l s (l.foldl (fun s b => s.spanRestarts d b) s) := by
  induction l with
  | nil => exact fun s => ⟨rfl, rfl, fun _ => rfl, fun _ h => h.resolve_left (by simp)⟩
  | cons b l ih =>
    intro s
    have h1 := s.spanRestarts_back d b
    have h2 := ih (s.spanRestarts d b)
    refine ⟨h2.frames.trans h1.frames, h2.held.trans h1.held, fun k => (h2.st k).trans (h1.st k), fun k hk => h2.back k ?_⟩
    by_cases hl : k ∈ l
    · exact .inl hl
    · exact .inr (h1.back k (hk.imp (by simp_all) id))

/-! ### A die that is faulty (R28) -/

/-- A die but for its units. -/
def DieLbq.unitless (x : DieLbq) : DieLbq := { x with lanes := [], blks := [], qtrs := [] }

theorem State.modBlk_unitless (s : State) (d b : Nat) (f : Blk → Blk) : ((s.modBlk d b f).die d).unitless = (s.die d).unitless := by
  simp only [State.modBlk, State.die_setDie]
  rfl

theorem State.foldl_modBlk_unitless (d : Nat) (f : Blk → Blk) (l : List Nat) :
    ∀ s : State, ((l.foldl (fun s b => s.modBlk d b f) s).die d).unitless = (s.die d).unitless := by
  induction l with
  | nil => exact fun _ => rfl
  | cons b l ih => exact fun s => (ih _).trans (s.modBlk_unitless d b f)

theorem State.returnUndone_unitless (s : State) (d : Nat) (t : LbqTarget) :
    ((s.returnUndone d t).die d).unitless = (s.die d).unitless := by
  cases t with
  | lane i =>
    simp only [State.returnUndone, State.modLane, State.die_setDie]
    rfl
  | block b => exact State.modBlk_unitless ..
  | quarter q =>
    refine (State.foldl_modBlk_unitless d _ _ _).trans ?_
    simp only [State.die_setDie]
    rfl

/-- The end of a die's return leaves the die busy with nothing; a die that was not stays as it is. -/
theorem State.returnContained_die (s : State) (d : Nat) : ((s.returnContained d).die d).busy = none ∧
    ((s.returnContained d).die d).power = (s.die d).power ∧ ((s.returnContained d).die d).dieFault = (s.die d).dieFault ∧
    ((s.die d).busy = none → s.returnContained d = s) := by
  unfold State.returnContained
  split
  · next h => exact ⟨h, rfl, rfl, fun _ => rfl⟩
  · next t h =>
    have hunits := (s.returnEnds d 6).returnUndone_unitless d t
    have hends : ((s.returnEnds d 6).die d).power = (s.die d).power ∧ ((s.returnEnds d 6).die d).dieFault = (s.die d).dieFault := by
      have hd : (s.returnEnds d 6).die d = { s.die d with busy := none }.setResult 6 := by simp [State.returnEnds]
      rw [hd]
      unfold DieLbq.setResult
      split <;> exact ⟨rfl, rfl⟩
    obtain ⟨-, -, -, -, hbusy, -⟩ := s.returnEnds_die d 6
    exact ⟨(congrArg DieLbq.busy hunits :).trans hbusy, (congrArg DieLbq.power hunits :).trans hends.1,
      (congrArg DieLbq.dieFault hunits :).trans hends.2, fun hn => absurd (hn.symm.trans h) (by simp)⟩

/-! ### The rows -/

/-- The report of a change of a link, and the device state that follows it (R20, R275). -/
theorem State.raise_degCheck_parts (s : State) (src : Nat) (v : Word) :
    OnlyParts [.dev, .regs, .copies, .outs, .events] s (s.raise src v).degCheck := by
  simp +decide

theorem State.replayFail_mrg (s : State) (d : Nat) : (s.replayFail d).mrg = s.mrg :=
  (State.ledDo_mrg ..).trans (State.procDo_mrg ..)

theorem State.isoSilent_of_toHb {s : State} {link : Nat} (h : 5000000 < s.now - s.frameAt link true) : s.isoSilent link = true := by
  simp [State.isoSilent, h]

theorem State.isoSilent_of_fromHb {s : State} {link : Nat} (h : 5000000 < s.now - s.frameAt link false) : s.isoSilent link = true := by
  simp [State.isoSilent, h]

/-! ### A link that resumes (R20, R223) -/

theorem tfind_tdel_same {α : Type} (t : Table α) (k : Nat) : tfind (tdel t k) k = none := by
  induction t with
  | nil => rfl
  | cons e t ih =>
    unfold tdel
    split
    · exact ih
    · next h => rw [tfind, if_neg h, ih]

/-- A silent link after its first frame: no longer silent, and its die has the live structure. -/
def State.linkResumed (s : State) (d : Nat) : State :=
  ((s.setMrg fun m => { m with frames := tset m.frames (2 * d + b2n true) s.now }).setMrg fun m => { m with silent := tdel m.silent d }).setStr
    fun x => { x with behind := x.behind.filter (· != d) }

/-- A link that has resumed after its replay has been released. -/
def State.replayed (s : State) (d : Nat) (evs : List (List Byte)) : State :=
  ((evs.foldl (fun s b => s.releaseOne s.mrg.hz true (d, b)) (s.linkResumed d)).setMrg fun m =>
    { m with procIn := m.procIn ++ [.replayDone d] }).isoSend (.replayDone d)

theorem State.replayed_released (s : State) (d : Nat) (evs : List (List Byte)) :
    Released (evs.map (.event d) ++ [.replayDone d]) (s.linkResumed d) (s.replayed d evs) := by
  have h1 : Released (evs.map (.event d)) (s.linkResumed d)
      (evs.foldl (fun s b => s.releaseOne s.mrg.hz true (d, b)) (s.linkResumed d)) :=
    foldl_released (fun u b => u.releaseOne_released u.mrg.hz true (d, b)) evs _
  refine h1.trans ?_
  unfold State.replayed
  generalize evs.foldl (fun s b => s.releaseOne s.mrg.hz true (d, b)) (s.linkResumed d) = u
  obtain ⟨i, hi⟩ := (u.setMrg fun m => { m with procIn := m.procIn ++ [.replayDone d] }).isoSend_mrg (.replayDone d)
  constructor <;> rw [hi] <;> rfl

section
variable {e : State} {d : Nat} {x : Silence} (hd : d < 4) (hx : tfind e.mrg.silent d = some x)
include hd hx

theorem dieLinkResume_failed (hf : x.failed = true) :
    dieLinkResume d e = ((e.linkResumed d).raise (70 + 32 * d) (lo32 d)).degCheck := by
  unfold dieLinkResume
  simp only [hx, hf, Bool.not_true, Bool.and_false, Bool.false_and, Bool.false_eq_true, if_false, if_true]
  rw [State.frameSeen_of_die hd]
  rfl

theorem dieLinkResume_replayed {evs : List (List Byte)} (hf : x.failed = false) (ho : x.overrun = false) (hb : d ∉ e.str.behind)
    (htime : e.now - x.since ≤ 100000000) (hevs : sortBy (orderKey d) (x.buffer ++ x.late) = evs) (hlen : evs.length ≤ 8192)
    (hall : evs.all (e.saf.chan.cfg.eventOk d) = true) (hfollows : replayFollows e.saf.chan.cfg d evs e.mrg.seqs = true) :
    dieLinkResume d e = ((e.replayed d evs).raise (70 + 32 * d) (lo32 d)).degCheck := by
  unfold dieLinkResume
  simp only [hx, hevs]
  rw [State.frameSeen_of_die hd]
  rw [if_pos]
  · rfl
  · simp only [List.all_eq_true] at hall
    simpa [hf, ho, htime, hlen, hfollows, hb] using hall

end

/-- Settles O13: silences mark the link and leave the merge; Safe-stop takes its cause as `causeRaise_shown` says; a crossing fault is
the fault of its block or its die. -/
theorem silencesAndCrossings : Obligations.SilencesAndCrossings := by
  unfold Obligations.SilencesAndCrossings
  refine ⟨?_, ?_, ?_, ?_, ?_, ?_, ?_, ?_, ?_, ?_, ?_⟩
  case refine_1 =>
    intro dt s e d he hu hp hn hlate
    refine ⟨_, afterHb_of_up he hu _, ?_⟩
    have hrow : (dieLinkSilence d e).mrg = { e.mrg with silent := tset e.mrg.silent d { since := e.frameAt d true, declared := e.now } } := by
      unfold dieLinkSilence
      extract_lets last s1
      rw [if_neg (by simp [hu, hp, hn, last]; omega)]
      have h : OnlyParts [.regs, .copies, .saf, .frw, .outs, .fds, .events, .store] s1
          (((s1.procDo (·.dieSilent d)).ledDo (·.dieSilent d)).raise (70 + 32 * d) (lo32 d)) := by simp +decide
      exact h.mrg_eq (by decide)
    rw [hrow]
    exact ⟨tfind_tset_same .., rfl, rfl⟩
  case refine_2 =>
    intro dt s e d x he hu hx hf hlate
    refine ⟨_, afterHb_of_up he hu _, ?_⟩
    have hrow : (replayTimeout d e).mrg = { e.mrg with silent := tset e.mrg.silent d { x with failed := true } } := by
      simp only [replayTimeout, hx]
      rw [if_neg (by simp [hf]; omega), State.replayFail_mrg]
      rfl
    rw [hrow]
    exact ⟨tfind_tset_same .., rfl⟩
  case refine_3 =>
    intro dt s e d x he hu hd hx hf
    refine ⟨_, afterHb_of_up he hu _, ?_⟩
    rw [dieLinkResume_failed hd hx hf]
    have h := (e.linkResumed d).raise_degCheck_parts (70 + 32 * d) (lo32 d)
    rw [State.frameAt, h.mrg_eq (by decide), show _ = (e.linkResumed d).str from h.same .str (by decide)]
    exact ⟨tfind_tdel_same .., tget_tset_same .., by simp [State.linkResumed], rfl, rfl⟩
  case refine_4 =>
    intro dt s e d x he hu hd hdev hp hx hlate
    refine ⟨_, afterHb_of_up he hu _, State.degCheck_dev hdev (State.degradedCond_of_die hd hp (.inr ?_)), ?_⟩
    · simp [State.excluded, hx, hlate]
    · exact (State.degCheck_parts e (by decide)).2 (.refl ..)
  case refine_5 =>
    intro dt s e he hs hlive hlate hnone
    refine ⟨_, after_eq he _, ?_⟩
    have hrow : isoSilence .a e = ((e.setMrg fun m => { m with deadA := true, fdSource := false, isoA := [] }).causeRaise 0).liveCheck := by
      simp only [isoSilence, hlive, hs, State.isoSilent_of_toHb hlate, Bool.not_true, Bool.or_self, Bool.false_eq_true, if_false]
    have h : CauseShown 0 (e.setMrg fun m => { m with deadA := true, fdSource := false, isoA := [] }) (isoSilence .a e) := by
      rw [hrow]
      refine (State.causeRaise_shown Nat.zero_lt_two ?_).liveCheck
      exact hnone
    obtain ⟨x, hx⟩ := h.mrg
    rw [hx]
    exact ⟨rfl, rfl, rfl, h.shown, h.first⟩
  case refine_6 =>
    intro dt s e he hs hlive hlate hnone
    refine ⟨_, after_eq he _, ?_⟩
    have hrow : isoSilence .b e =
        (((e.setMrg fun m => { m with deadB := true }).setSaf fun f => { f with segs := [] }).causeRaise 1).liveCheck := by
      simp only [isoSilence, hlive, hs, State.isoSilent_of_fromHb hlate, Bool.not_true, Bool.or_self, Bool.false_eq_true, if_false]
    have h : CauseShown 1 ((e.setMrg fun m => { m with deadB := true }).setSaf fun f => { f with segs := [] }) (isoSilence .b e) := by
      rw [hrow]
      refine (State.causeRaise_shown Nat.one_lt_two ?_).liveCheck
      exact hnone
    obtain ⟨x, hx⟩ := h.mrg
    rw [hx]
    exact ⟨rfl, h.shown, h.first⟩
  case refine_7 =>
    intro dt s e d x evs he hu hd hx hf ho hb htime hevs hlen hall hfollows
    refine ⟨_, afterHb_of_up he hu _, ?_⟩
    rw [dieLinkResume_replayed hd hx hf ho hb htime hevs hlen hall hfollows]
    have h := (e.replayed d evs).raise_degCheck_parts (70 + 32 * d) (lo32 d)
    have hr := e.replayed_released d evs
    rw [State.frameAt, h.mrg_eq (by decide), hr.silent, hr.frames, hr.held, hr.procIn, ← List.append_assoc]
    exact ⟨tfind_tdel_same .., tget_tset_same .., rfl, rfl⟩
  case refine_8 =>
    intro dt s e d b he hu hst hup hbusy
    obtain ⟨t, hrow, h, hc⟩ := afterHb_blockFault_idle (f := crossingFault (.block d b)) (cause := 1) he hu rfl hst hup hbusy
    exact ⟨t, hrow, h.st, h.cause, hc⟩
  case refine_9 =>
    intro dt s e d he hu hd hp hdev hstr
    refine ⟨_, afterHb_of_up he hu _, ?_⟩
    have hrow : crossingFault (.die d) e = ((e.setDie d { e.die d with dieFault := true }).returnContained d).degCheck := by
      have hstr2 : ((e.setDie d { e.die d with dieFault := true }).returnContained d).str = e.str :=
        ((State.returnContained_parts _ _ (by decide)).2
          ((State.setDie_parts _ _ _ (by decide)).2 (.refl [.regs, .copies, .lbq, .events] e))).same .str (by decide)
      simp only [crossingFault, hstr2, State.when, beq_eq_false_iff_ne.2 hstr, Bool.false_and, Bool.false_eq_true, if_false]
    obtain ⟨hbusy, hpow, hfault, hidle⟩ := (e.setDie d { e.die d with dieFault := true }).returnContained_die d
    rw [State.die_setDie] at hpow hfault hidle
    have hparts := (State.returnContained_parts (e.setDie d { e.die d with dieFault := true }) d (by decide)).2
      ((State.setDie_parts _ _ _ (by decide)).2 (.refl [.regs, .copies, .lbq, .events] e))
    rw [hrow]
    generalize (e.setDie d { e.die d with dieFault := true }).returnContained d = u at *
    have hdeg : OnlyParts [.dev, .regs, .copies, .outs, .events] u u.degCheck := (State.degCheck_parts u (by decide)).2 (.refl ..)
    have hdie : u.degCheck.die d = u.die d := by rw [State.die, hdeg.same .lbq (by decide)]; rfl
    rw [hdie]
    refine ⟨hfault, hbusy, ?_, fun h => ?_, (hdeg.same .str (by decide)).trans (hparts.same .str (by decide))⟩
    · exact State.degCheck_dev ((hparts.same .dev (by decide)).trans hdev)
        (State.degradedCond_of_die hd (hpow.trans hp) (.inl hfault))
    · rw [hidle h, State.die_setDie]
  case refine_10 =>
    intro dt s e he hu
    exact afterHb_of_up he hu _
  case refine_11 =>
    intro dt s e d he hu hd hp hn
    refine ⟨_, afterHb_of_up he hu _, ?_⟩
    unfold dieStatus
    rw [if_neg (by simp [hp, hn]), State.frameSeen_of_die hd]
    extract_lets s1 s2 moved
    have h2 : BlocksBack d blockNumbers s1 s2 := State.foldl_spanRestarts_back d blockNumbers s1
    have h : OnlyParts [.dev, .regs, .copies, .outs, .saf, .fds, .frw, .events, .store] s2
        (moved.foldl (fun s h => s.homesAvailable d [h] (!s.spanUnavail d h)) s2).degCheck := by simp +decide
    refine ⟨?_, fun b hb => ?_, by rw [h.mrg_eq (by decide)]; exact h2.held⟩
    · rw [State.frameAt, h.mrg_eq (by decide), h2.frames]
      exact tget_tset_same ..
    · rw [State.blk, State.die, show _ = s2.lbq from h.same .lbq (by decide)]
      exact ⟨h2.back b (.inl (List.mem_range.2 hb)), h2.st b⟩

end Sys2Proof.Machine
end

section
/-!
PROOF. The ledger's reception over ISO-A, verdict segments and the combination (R31, R37, R186, R207, R253, R262, R263, R265 to R267).
-/
namespace Sys2Proof.Machine

/-! ### The outputs report in no register but the brakes' (R268, R310) -/

section
variable (s : State)

theorem State.brakeEnd_changes (c res : Nat) : Changes [.outs, .events] [Reg.FD_BRK_EVT] s (s.brakeEnd c res) := by
  simp +decide [State.brakeEnd, State.setBrake]

theorem State.voRaiseNow_changes (i : Nat) : Changes [.outs, .events] [Reg.FD_BRK_EVT] s (s.voRaiseNow i) := by
  unfold State.voRaiseNow
  extract_lets v s1
  have h1 : Changes [.outs, .events] [Reg.FD_BRK_EVT] s s1 := by simp +decide [s1, State.setVo]
  split
  · split
    · exact h1.trans (State.brakeEnd_changes ..)
    · exact h1.trans (by simp +decide [State.setBrake])
  · exact h1

theorem State.voResume_changes (i : Nat) : Changes [.outs, .events] [Reg.FD_BRK_EVT] s (s.voResume i) := by
  unfold State.voResume
  split
  · exact .refl ..
  · split
    · exact s.voRaiseNow_changes i
    · simp +decide [State.setVo]

theorem State.voUndefer_changes (g : Nat) : Changes [.outs, .events] [Reg.FD_BRK_EVT] s (s.voUndefer g) := by
  unfold State.voUndefer
  split
  · exact .refl ..
  · exact (foldl_changes fun i u => u.voResume_changes i).2 (.refl ..)

theorem State.voLower_changes (i : Nat) : Changes [.outs, .events] [Reg.FD_BRK_EVT] s (s.voLower i) := by
  unfold State.voLower
  extract_lets v s1
  have h1 : Changes [.outs, .events] [Reg.FD_BRK_EVT] s s1 := by simp +decide [s1, State.setVo]
  split
  · exact .refl ..
  · split
    · exact h1.trans (State.voUndefer_changes ..)
    · exact h1

theorem State.voRecheck_changes : Changes [.outs, .events] [Reg.FD_BRK_EVT] s s.voRecheck := by
  refine (foldl_changes fun i u => ?_).2 (.refl ..)
  split
  · exact u.voLower_changes i
  · exact .refl ..

theorem State.ledDo_changes (f : Channel → Channel) : Changes [.outs, .fds, .events] [Reg.FD_BRK_EVT] s (s.ledDo f) := by
  unfold State.ledDo
  split
  · exact Changes.trans (by simp +decide) ((State.voRecheck_changes _).mono (by decide) (by simp))
  · exact .refl ..

end

theorem State.ledDo_fdUp (s : State) (f : Channel → Channel) : (s.ledDo f).fdUp = s.fdUp :=
  (s.ledDo_changes f).parts.same .fdUp (by decide)

/-- The ledger at work does not move what is recent enough: its limit, the running cycle (R265). -/
theorem State.ledDo_recent (s : State) (f : Channel → Channel) (n : Nat) : (s.ledDo f).recent n = s.recent n := by
  have h := s.ledDo_changes f
  have hsaf : (s.ledDo f).saf = s.saf := h.parts.same .saf (by decide)
  rw [State.recent, State.recent, State.verdictTmo, State.verdictTmo, State.cmbLimit, State.cmbLimit, hsaf, h.regs _ (by decide)]

/-! ### What stands alone at the front of ISO-A (R31) -/

/-- FD has taken the only item on ISO-A. -/
def State.isoTaken (s : State) : State :=
  (s.setMrg fun m => { m with isoA := [] }).setMrg fun m => { m with frames := tset m.frames (2 * 4 + b2n false) (s.setMrg fun m => { m with isoA := [] }).now }

theorem State.isoTaken_parts (s : State) : OnlyParts [.mrg] s s.isoTaken := by
  simp +decide [State.isoTaken]

theorem State.frameAt_isoTaken {s t : State} (h : t.mrg = s.isoTaken.mrg) : t.frameAt 4 false = s.now :=
  State.frameAt_of_frames (by rw [h]; rfl)

theorem ledReplays_of_empty {s : State} (h : s.mrg.isoA = []) : ledReplays s.mrg.isoA s = s :=
  calc ledReplays s.mrg.isoA s = { s with mrg := { s.mrg with isoA := [] } } := by
        rw [h]
        rfl
    _ = { s with mrg := { s.mrg with isoA := s.mrg.isoA } } := by rw [h]
    _ = s := rfl

/-- FD takes an item of the kind that the row knows, and nothing behind it. -/
theorem isoFront_alone {e : State} {i : IsoItem} {f : IsoItem → Option (State → State)} {g : State → State} (hu : e.fdUp = true)
    (hlive : e.mrg.deadA = false) (hstep : e.fdStepDue = false) (hiso : e.mrg.isoA = [i]) (hf : f i = some g)
    (hg : (g e.isoTaken).mrg = e.isoTaken.mrg) : isoFront f e = g e.isoTaken := by
  unfold isoFront
  rw [if_neg (by simp [hu, hlive, hstep]), hiso]
  simp only [hf]
  have hframe : (e.setMrg fun m => { m with isoA := [] }).frameSeen 4 false = e.isoTaken := by
    refine State.frameSeen_of_live (fun _ => ?_) (by simp) false
    exact hlive
  rw [hframe]
  exact ledReplays_of_empty (s := g e.isoTaken) (by rw [hg]; rfl)

/-! ### The ledger's items (R36, R186, R207, R262, R263) -/

/-- An event in order that passes its checks and leaves no gap: the ledger takes it, then its horizon. -/
theorem State.ledEvent_inOrder {s : State} {src : Nat} {b : List Byte} {p : Nat × Nat} (hz : Nat)
    (hord : s.fds.breaksOrder src b false = false) (hok : s.fds.led.cfg.eventOk src b = true)
    (hhome : s.fds.led.cfg.eventHome src b = some p) (hgap : ((tget s.fds.seqs {} (seqKey p)).take (seqOf b)).2 = false) :
    ∃ q, s.ledEvent src b hz false = ((s.setFds fun f => { f with lastEmit := some (emitOf b), seqs := q }).ledDo
      (·.event true src b)).ledDo fun g => (g.horizon hz).updateAll true := by
  have hseq : ∀ u : State, u.fds.led = s.fds.led → u.fds.seqs = s.fds.seqs →
      ∃ q, u.ledSeq src b = u.setFds fun f => { f with seqs := q } := by
    intro u hled hseqs
    refine ⟨tset u.fds.seqs (seqKey p) ((tget u.fds.seqs {} (seqKey p)).take (seqOf b)).1, ?_⟩
    simp only [State.ledSeq, hled, hseqs, hhome, hgap, State.when, Bool.false_eq_true, if_false]
    simp only [State.setFds, hseqs]
  obtain ⟨q, hq⟩ := hseq (s.setFds fun f => { f with lastEmit := some (emitOf b) }) rfl rfl
  refine ⟨q, ?_⟩
  unfold State.ledEvent
  rw [if_neg (by simp [hord])]
  simp only [Bool.false_eq_true, if_false]
  rw [if_pos (by exact hok), hq]
  rfl

theorem State.ledDo_ledDo_fds {s : State} (hu : s.fdUp = true) (f g : Channel → Channel) :
    ((s.ledDo f).ledDo g).fds = { s.fds with led := (g (f s.fds.led).reported).reported } := by
  rw [State.ledDo_fds ((s.ledDo_fdUp f).trans hu), State.ledDo_fds hu]

/-- What the commands, the horizon and the instant of a cycle mark make of the ledger's channel. -/
def Channel.cycle (g : Channel) (tc hz : Nat) (cmds : List QueuedCmd) : Channel :=
  ((cmds.foldl (fun (g : Channel) q => (g.command true tc q).1) (g.horizon hz)).updateAll true).reported

theorem State.ledCycle_fds {s : State} (n tc hz key : Nat) (cmds : List QueuedCmd) (hu : s.fdUp = true) :
    (s.ledCycle n tc hz key cmds).mrg = s.mrg ∧ ∃ x, (s.ledCycle n tc hz key cmds).fds = { s.fds with
      led := s.fds.led.cycle tc hz cmds, deadAt := x
      cycles := ((n, ⟨key, s.tc.fd, (s.fds.led.cycle tc hz cmds).states⟩) :: s.fds.cycles).take 16
      mark := (accountTake s.fds.markLate (s.recent n) s.fds.mark s.fds.markAhead n).1
      markAhead := (accountTake s.fds.markLate (s.recent n) s.fds.mark s.fds.markAhead n).2
      markLate := s.fds.markLate && !s.recent n } := by
  unfold State.ledCycle
  extract_lets s1 a s2
  have h1 : s1.fds = { s.fds with led := s.fds.led.cycle tc hz cmds } := State.ledDo_fds hu _
  have hrec : s1.recent n = s.recent n := State.ledDo_recent ..
  have htc : s1.tc.fd = s.tc.fd := congrArg TownClock.fd ((s.ledDo_changes _).parts.same .time (by decide)).2
  have h1m : s1.mrg = s.mrg := State.ledDo_mrg ..
  clear_value s1
  have hmark : OnlyParts [.fdin] s2 s2.latchMark := (State.latchMark_parts s2 (by decide)).2 (.refl ..)
  obtain ⟨x, hx⟩ := s2.latchMark.liveCheck_fds
  refine ⟨?_, x, ?_⟩
  · have h2 : s2.mrg = s.mrg := h1m
    exact (State.liveCheck_mrg _).trans ((hmark.mrg_eq (by decide)).trans h2)
  · have h2 : s2.latchMark.fds = s2.fds := hmark.fds_eq (by decide)
    rw [hx, h2]
    simp only [s2, a, State.setFds, h1, hrec, htc]
    rfl

theorem State.liveCheck_saf (s : State) : s.liveCheck.saf = s.saf :=
  ((State.liveCheck_parts s (by decide)).2 (.refl [.regs, .copies, .outs, .fds, .events] s)).same .saf (by decide)

theorem State.voCompared_fds (s : State) : s.voCompared.fds = s.fds :=
  ((State.voCompared_parts s (by decide)).2 (.refl [.regs, .copies, .outs, .events] s)).fds_eq (by decide)

/-! ### Verdict segments (R253, R265) -/

/-- FD has taken the segment at the front of ISO-B. -/
def State.segTaken (s : State) (rest : List Segment) : State :=
  (s.setSaf fun f => { f with segs := rest }).setMrg fun m => { m with
    frames := tset m.frames (2 * 5 + b2n false) (s.setSaf fun f => { f with segs := rest }).now }

/-- The states of a cycle with those of a segment. -/
def Segment.join (x : Segment) (t : Table Nat) : Table Nat := x.states.foldl (fun (u : Table Nat) (y : Nat × Nat) => tset u y.1 y.2) t

section
variable {e : State} {x : Segment} {rest : List Segment} (hu : e.fdUp = true) (hlive : e.mrg.deadB = false)
  (hsegs : e.saf.segs = x :: rest)
include hu hlive hsegs

theorem verdictSegment_discarded (hx : x.whole = false) : verdictSegment e =
    (e.setSaf fun f => { f with segs := rest }).setMrg fun m => { m with errors := tset m.errors 5 (tget m.errors 0 5 + 1) } := by
  simp only [verdictSegment, hsegs, hu, hlive, hx, Bool.not_false, Bool.and_self, if_true]

theorem verdictSegment_first (hx : x.whole = true) (hnone : tfind e.fds.parts x.cycle = none) : verdictSegment e =
    (e.segTaken rest).setFds fun f => { f with parts := tset f.parts x.cycle ([x.index], x.join []) } := by
  have hframe : (e.setSaf fun f => { f with segs := rest }).frameSeen 5 false = e.segTaken rest := by
    refine State.frameSeen_of_live (by simp) (fun _ => ?_) false
    exact hlive
  have hparts : tget (e.segTaken rest).fds.parts ([], []) x.cycle = ([], []) := by
    rw [tget, show tfind (e.segTaken rest).fds.parts x.cycle = none from hnone]
    rfl
  simp only [verdictSegment, hsegs, hu, hlive, hx, Bool.not_false, Bool.and_self, hframe, hparts]
  rfl

theorem verdictSegment_eighth {held : List Nat} {states : Table Nat} (hx : x.whole = true)
    (hparts : tfind e.fds.parts x.cycle = some (held, states)) (hnew : held.contains x.index = false) (hlen : held.length = 7) :
    verdictSegment e =
      ((e.segTaken rest).setFds fun f => { f with
        parts := f.parts.filter fun (y : Nat × (List Nat × Table Nat)) => decide (x.cycle < y.1)
        whole := tset f.whole x.cycle ⟨x.key, x.stamp, x.join states⟩
        verdict := (accountTake e.fds.verdictLate (e.recent x.cycle) e.fds.verdict e.fds.verdictAhead x.cycle).1
        verdictAhead := (accountTake e.fds.verdictLate (e.recent x.cycle) e.fds.verdict e.fds.verdictAhead x.cycle).2
        verdictLate := f.verdictLate && !e.recent x.cycle }).liveCheck := by
  have hframe : (e.setSaf fun f => { f with segs := rest }).frameSeen 5 false = e.segTaken rest := by
    refine State.frameSeen_of_live (by simp) (fun _ => ?_) false
    exact hlive
  have htaken : tget (e.segTaken rest).fds.parts ([], []) x.cycle = (held, states) := by
    rw [tget, show tfind (e.segTaken rest).fds.parts x.cycle = _ from hparts]
    rfl
  simp only [verdictSegment, hsegs, hu, hlive, hx, Bool.not_false, Bool.and_self, hframe, htaken, hnew, Bool.false_eq_true, if_false]
  rw [if_neg (by simp), if_neg (by simp [hlen])]
  rfl

end

/-! ### The combination (R266, R267) -/

/-- A comparison without a discord. -/
theorem combinationCompare_agreed {e : State} {c : Compared} (hu : e.fdUp = true) (hc : e.fds.comparable = some c)
    (hd : c.discords = []) : ∃ x, combinationCompare e = (e.setFds fun f => { f with
      cmp := some c, whole := f.whole.filter fun (y : Nat × CycleStates) => decide (c.cycle < y.1), hold := x, run := 0
      discSec := f.discSec, discCount := f.discCount % 65536 }).voCompared := by
  refine ⟨holdsAfter e.fds.hold [] e.agreeCyc, ?_⟩
  simp only [combinationCompare, hc, hu, hd, List.isEmpty_nil, Bool.not_true, State.when, Bool.false_eq_true, if_false, if_true,
    List.getLast?_nil, Option.getD_none, List.length_nil, Nat.add_zero, State.setFds, Nat.lt_irrefl, decide_false, Bool.false_and]

/-! ### The rows -/

theorem accountTake_next (recent : Bool) (n : Nat) : accountTake false recent n [] (n + 1) = (n + 1, []) := by
  simp [accountTake, unbroken]

/-- Settles O14: FD takes the one item on ISO-A (`isoFront_alone`) and the ledger does with it what its kind says; the eighth segment
completes a verdict; a comparison without a discord ends the run. -/
theorem fdTakesWhatHbSends : Obligations.FdTakesWhatHbSends := by
  unfold Obligations.FdTakesWhatHbSends
  refine ⟨?_, ?_, ?_, ?_, ?_, ?_, ?_, ?_⟩
  case refine_1 =>
    intro dt s e src b hz p he hu hlive hstep hiso hord hok hhome hgap
    refine ⟨_, afterFd_of_up he hu _, ?_⟩
    obtain ⟨q, hq⟩ := e.isoTaken.ledEvent_inOrder hz hord hok hhome hgap
    generalize hv : (e.isoTaken.setFds fun f => { f with lastEmit := some (emitOf b), seqs := q }) = v at hq
    have hmrg : ((v.ledDo (·.event true src b)).ledDo fun g => (g.horizon hz).updateAll true).mrg = e.isoTaken.mrg := by
      rw [State.ledDo_mrg, State.ledDo_mrg, ← hv]
      rfl
    have hrow : releasedEventReceived e = e.isoTaken.ledEvent src b hz false :=
      isoFront_alone (g := (·.ledEvent src b hz false)) hu hlive hstep hiso rfl ((congrArg State.mrg hq).trans hmrg)
    have hparts : OnlyParts [.regs, .copies, .outs, .mrg, .fds, .events] e v := by
      rw [← hv]
      exact (State.setFds_parts _ _ (by decide)).2 (e.isoTaken_parts.mono (by decide))
    rw [hrow, hq, State.ledDo_ledDo_fds (by rw [← hv]; exact hu)]
    refine ⟨by rw [hmrg]; rfl, State.frameAt_isoTaken hmrg, ?_, ?_, ?_, ?_⟩
    · rw [← hv]
      rfl
    · rw [← hv]
      rfl
    · rw [← hv]
      rfl
    · exact (State.ledDo_parts _ _ (by decide)).2 ((State.ledDo_parts _ _ (by decide)).2 hparts)
  case refine_2 =>
    intro dt s e hz he hu hlive hstep hiso
    refine ⟨_, afterFd_of_up he hu _, ?_⟩
    have hmrg := e.isoTaken.ledDo_mrg fun g => (g.horizon hz).updateAll true
    have hrow : horizonMarkReceived e = e.isoTaken.ledDo fun g => (g.horizon hz).updateAll true :=
      isoFront_alone (g := (·.ledDo fun g => (g.horizon hz).updateAll true)) hu hlive hstep hiso rfl hmrg
    have hfds := State.ledDo_fds (s := e.isoTaken) hu fun g => (g.horizon hz).updateAll true
    have hparts : OnlyParts [.regs, .copies, .outs, .mrg, .fds, .events] e (e.isoTaken.ledDo fun g => (g.horizon hz).updateAll true) :=
      (State.ledDo_parts _ _ (by decide)).2 (e.isoTaken_parts.mono (by decide))
    rw [hrow, hfds]
    exact ⟨by rw [hmrg]; rfl, State.frameAt_isoTaken hmrg, rfl, rfl, hparts⟩
  case refine_3 =>
    intro dt s e n tc hz key cmds he hu hlive hstep hiso
    refine ⟨_, afterFd_of_up he hu _, ?_⟩
    obtain ⟨hmrg, x, hfds⟩ := e.isoTaken.ledCycle_fds n tc hz key cmds hu
    have hrow : cycleMarkReceived e = e.isoTaken.ledCycle n tc hz key cmds :=
      isoFront_alone (g := (·.ledCycle n tc hz key cmds)) hu hlive hstep hiso rfl hmrg
    rw [hrow, hfds]
    refine ⟨by rw [hmrg]; rfl, rfl, fun hlate hahead hn => ?_, rfl, rfl, rfl, rfl⟩
    have hacc : accountTake e.fds.markLate (e.recent n) e.fds.mark e.fds.markAhead n = (n, []) := by
      rw [hlate, hahead, hn, accountTake_next]
    exact ⟨(congrArg Prod.fst hacc :), (congrArg Prod.snd hacc :)⟩
  case refine_4 =>
    intro dt s e d home he hu hlive hstep hiso
    refine ⟨_, afterFd_of_up he hu _, ?_⟩
    have hrow : spanRestartReceived e = e.isoTaken.setFds fun f =>
        { f with seqs := tset f.seqs (seqKey (d, home)) { tget f.seqs {} (seqKey (d, home)) with restart := true } } :=
      isoFront_alone (g := (·.setFds fun f =>
        { f with seqs := tset f.seqs (seqKey (d, home)) { tget f.seqs {} (seqKey (d, home)) with restart := true } }))
        hu hlive hstep hiso rfl rfl
    rw [hrow]
    exact ⟨rfl, rfl, (State.setFds_parts _ _ (by decide)).2 (e.isoTaken_parts.mono (by decide))⟩
  case refine_5 =>
    intro dt s e x rest he hu hlive hsegs hx hnone
    refine ⟨_, after_eq he _, ?_⟩
    rw [verdictSegment_first hu hlive hsegs hx hnone]
    exact ⟨rfl, State.frameAt_of_frames rfl, rfl, by simp +decide [State.segTaken]⟩
  case refine_6 =>
    intro dt s e x rest held states he hu hlive hsegs hx hparts hnew hlen
    refine ⟨_, after_eq he _, ?_⟩
    rw [verdictSegment_eighth hu hlive hsegs hx hparts hnew hlen]
    rw [State.liveCheck_fds_eq, State.liveCheck_saf]
    exact ⟨rfl, rfl, rfl, tfind_tset_same ..⟩
  case refine_7 =>
    intro dt s e x rest he hu hlive hsegs hx
    refine ⟨_, after_eq he _, ?_⟩
    rw [verdictSegment_discarded hu hlive hsegs hx]
    exact ⟨rfl, rfl, tget_tset_same .., by simp +decide⟩
  case refine_8 =>
    intro dt s e c he hu hc hd
    refine ⟨_, after_eq he _, ?_⟩
    obtain ⟨x, hrow⟩ := combinationCompare_agreed hu hc hd
    rw [hrow, State.voCompared_fds]
    exact ⟨rfl, rfl, rfl, rfl, rfl, by simp +decide⟩

end Sys2Proof.Machine
end

section
/-!
PROOF. Powered time (R40, R87): every operation keeps it, and only the passing of time itself moves it.
-/
namespace Sys2Proof.Machine

/-! ### Powered time through the frames -/

/-- The parts of the state beside its clocks. -/
@[reducible] def timeless : List Part :=
  [.dev, .regs, .copies, .boot, .fdUp, .ofe, .psy, .dmd, .lbq, .sensors, .cal, .trims, .fdin, .outs, .mrg, .saf, .fds, .str, .tpr,
    .acw, .frw, .links, .dma, .cvu, .panel, .mem, .lease, .freeze, .passwords, .commands, .events, .sent, .snaps, .store, .pending,
    .free]

/-- The powered time of a state, said through the frames: the state is one of that time but for parts that hold no clock. Every frame
of an operation that changes no clock then rewrites it. -/
@[reducible] def Dated (n : Nat) (t : State) : Prop := ∃ z : State, z.now = n ∧ OnlyParts timeless z t

theorem dated_iff {n : Nat} {t : State} : Dated n t ↔ t.now = n := by
  constructor
  · rintro ⟨z, hz, h⟩
    exact (h.same .time (by decide)).1.trans hz
  · exact fun h => ⟨t, h, .refl ..⟩

@[simp] theorem Dated.refl (t : State) : Dated t.now t := dated_iff.2 rfl

/-- An operation that keeps the powered time can be put in or left out. -/
theorem Dated.through {n : Nat} {s t : State} (h : Dated s.now t) : Dated n t ↔ Dated n s := by
  rw [dated_iff, dated_iff, dated_iff.1 h]

@[simp] theorem ite_dated {n : Nat} {t u : State} {c : Prop} [Decidable c] :
    Dated n (if c then t else u) ↔ if c then Dated n t else Dated n u := by
  split <;> rfl

@[simp] theorem State.when_dated {n : Nat} {s : State} {b : Bool} {f : State → State} (h : ∀ k, Dated k (f s) ↔ Dated k s) :
    Dated n (s.when b f) ↔ Dated n s := by
  unfold State.when
  split
  · exact h n
  · rfl

@[simp] theorem foldl_dated {α : Type} {n : Nat} {f : State → α → State} {l : List α} {s : State} (h : ∀ x u k, Dated k (f u x) ↔ Dated k u) :
    Dated n (l.foldl f s) ↔ Dated n s := by
  induction l generalizing s with
  | nil => rfl
  | cons x l ih => exact ih.trans (h x s n)

/-! ### The town clock -/

section
variable {n : Nat}

@[simp] theorem State.setTc_dated (s : State) (f : TownClock → TownClock) : Dated n (s.setTc f) ↔ Dated n s :=
  Dated.through (dated_iff.2 rfl)

@[simp] theorem State.stepRequest_dated (s : State) (k : StepKind) : Dated n (s.stepRequest k) ↔ Dated n s := by
  refine Dated.through ?_
  unfold State.stepRequest
  split <;> simp +decide [Dated, -ite_parts]

@[simp] theorem State.tcLock_dated (s : State) : Dated n s.tcLock ↔ Dated n s := by
  refine Dated.through ?_
  simp +decide [Dated, -ite_parts, State.tcLock]

@[simp] theorem State.tcMeasure_dated (s : State) (off : Int) : Dated n (s.tcMeasure off) ↔ Dated n s := by
  refine Dated.through ?_
  simp only [State.tcMeasure]
  split <;> simp +decide [Dated, -ite_parts]

@[simp] theorem State.ptpM2S_dated (s : State) (diff : Int) : Dated n (s.ptpM2S diff) ↔ Dated n s := by
  refine Dated.through ?_
  simp only [State.ptpM2S]
  split <;> simp +decide [Dated, -ite_parts]

@[simp] theorem ptpMessage_dated (g : PtpMessage) (s : State) : Dated n (ptpMessage g s) ↔ Dated n s := by
  refine Dated.through ?_
  simp only [ptpMessage]
  (repeat' split) <;> simp +decide [Dated, -ite_parts]

@[simp] theorem ptpDelayReq_dated (s : State) : Dated n (ptpDelayReq s) ↔ Dated n s := by
  refine Dated.through ?_
  simp only [ptpDelayReq]
  (repeat' split) <;> simp +decide [Dated, -ite_parts]

@[simp] theorem State.ppsMissed_dated (s : State) : Dated n s.ppsMissed ↔ Dated n s := State.setTc_dated ..

@[simp] theorem ppsEdge_dated (falling : Bool) (s : State) : Dated n (ppsEdge falling s) ↔ Dated n s := by
  refine Dated.through ?_
  simp only [ppsEdge]
  (repeat' split) <;> simp +decide [Dated, -ite_parts]

@[simp] theorem ppsEdgeMissing_dated (s : State) : Dated n (ppsEdgeMissing s) ↔ Dated n s := by
  refine Dated.through ?_
  unfold ppsEdgeMissing
  split <;> simp +decide [Dated, -ite_parts]

@[simp] theorem holdoverEntry_dated (s : State) : Dated n (holdoverEntry s) ↔ Dated n s := by
  refine Dated.through ?_
  simp only [holdoverEntry]
  split <;> simp +decide [Dated, -ite_parts]

@[simp] theorem slewMessage_dated (err : Int) (s : State) : Dated n (slewMessage err s) ↔ Dated n s := by
  refine Dated.through ?_
  unfold slewMessage
  split <;> simp +decide [Dated, -ite_parts]

@[simp] theorem skewDetect_dated (floor : Nat) (skew : Int) (s : State) : Dated n (skewDetect floor skew s) ↔ Dated n s := by
  refine Dated.through ?_
  unfold skewDetect
  split <;> simp +decide [Dated, -ite_parts]

@[simp] theorem skewRecover_dated (floor : Nat) (skew : Int) (s : State) : Dated n (skewRecover floor skew s) ↔ Dated n s := by
  refine Dated.through ?_
  unfold skewRecover
  split <;> simp +decide [Dated, -ite_parts]

@[simp] theorem tcWrite_dated (s : State) (o : Nat) (v : Word) : Dated n (tcWrite s o v) ↔ Dated n s := by
  refine Dated.through ?_
  simp only [tcWrite]
  split
  case h_1 =>
    refine (State.when_dated fun k => State.stepRequest_dated ..).2 ((State.when_dated fun k => ?_).2 ?_)
    · exact (State.setTc_dated ..).trans (by simp +decide [Dated, -ite_parts])
    · simp +decide [Dated, -ite_parts]
  all_goals simp +decide [Dated, -ite_parts]

/-! ### Structures and commits -/

@[simp] theorem State.structWord_dated (s : State) (plan : Plan) (bad : List Nat) (a : Nat) (m : Word) :
    Dated n (s.structWord plan bad a m) ↔ Dated n s := by
  refine Dated.through ?_
  simp only [State.structWord]
  (repeat' split) <;> simp +decide [Dated, -ite_parts]

@[simp] theorem State.applyStructure_dated (s : State) (frames : List SFrame) (affected bad : List Nat) :
    Dated n (s.applyStructure frames affected bad) ↔ Dated n s := by
  refine Dated.through ?_
  simp +decide [Dated, -ite_parts, State.applyStructure]

@[simp] theorem State.restoreEffect_dated (s : State) (c : Commit) (bad : List Nat) : Dated n (s.restoreEffect c bad) ↔ Dated n s := by
  refine Dated.through ?_
  simp +decide [Dated, -ite_parts, State.restoreEffect]

@[simp] theorem State.fullEffect_dated (s : State) (c : Commit) (bad : List Nat) : Dated n (s.fullEffect c bad) ↔ Dated n s := by
  refine Dated.through ?_
  simp +decide [Dated, -ite_parts, State.fullEffect]

@[simp] theorem State.commitTakes_dated (s : State) (bad : List Nat) : Dated n (s.commitTakes bad) ↔ Dated n s := by
  refine Dated.through ?_
  simp only [State.commitTakes]
  (repeat' split) <;> simp +decide [Dated, -ite_parts]

@[simp] theorem commitEffect_dated (bad : List Nat) (s : State) : Dated n (commitEffect bad s) ↔ Dated n s := by
  refine Dated.through ?_
  simp +decide [Dated, -ite_parts, commitEffect]

/-! ### Resets -/

@[simp] theorem State.logicReset_dated (s : State) (cause : Nat) : Dated n (s.logicReset cause) ↔ Dated n s := by
  refine Dated.through ?_
  unfold State.logicReset
  extract_lets x u
  have h : OnlyParts [.regs, .copies, .outs, .events] u u.voRecheck := (State.voRecheck_parts u (by decide)).2 (.refl ..)
  exact dated_iff.2 (h.same .time (by decide)).1

@[simp] theorem porstAsserted_dated (low : Nat) (s : State) : Dated n (porstAsserted low s) ↔ Dated n s := by
  refine Dated.through ?_
  simp +decide [Dated, -ite_parts, porstAsserted]

@[simp] theorem powerOnReset_dated (s : State) : Dated n (powerOnReset s) ↔ Dated n s := by
  refine Dated.through ?_
  simp +decide [Dated, -ite_parts, powerOnReset]

@[simp] theorem pwrFailReset_dated (s : State) : Dated n (pwrFailReset s) ↔ Dated n s := by
  refine Dated.through ?_
  simp only [pwrFailReset]
  (repeat' split) <;> simp +decide [Dated, -ite_parts]

@[simp] theorem State.fdCleared_dated (s : State) : Dated n s.fdCleared ↔ Dated n s := Dated.through (dated_iff.2 rfl)

@[simp] theorem State.fdFresh_dated (s : State) : Dated n s.fdFresh ↔ Dated n s := by
  refine Dated.through ?_
  simp +decide [Dated, -ite_parts, State.fdFresh]

@[simp] theorem fdPowerOn_dated (mv held : Nat) (s : State) : Dated n (fdPowerOn mv held s) ↔ Dated n s := by
  refine Dated.through ?_
  unfold fdPowerOn
  split <;> simp +decide [Dated, -ite_parts]

@[simp] theorem fdReset_dated (s : State) : Dated n (fdReset s) ↔ Dated n s := by
  refine Dated.through ?_
  unfold fdReset
  split <;> simp +decide [Dated, -ite_parts]

@[simp] theorem bootWatchdog_dated (s : State) : Dated n (bootWatchdog s) ↔ Dated n s := by
  refine Dated.through ?_
  unfold bootWatchdog
  split <;> simp +decide [Dated, -ite_parts]

@[simp] theorem recoveryInstall_dated (s : State) : Dated n (recoveryInstall s) ↔ Dated n s := by
  refine Dated.through ?_
  simp only [recoveryInstall]
  (repeat' split) <;> simp +decide [Dated, -ite_parts]

@[simp] theorem startHandshake_dated (s : State) : Dated n (startHandshake s) ↔ Dated n s := by
  refine Dated.through ?_
  simp only [startHandshake]
  (repeat' split) <;> simp +decide [Dated, -ite_parts]

@[simp] theorem State.bootWord_dated (s : State) (plan : Plan) (bad : List Nat) (e : Nat × Word) :
    Dated n (s.bootWord plan bad e) ↔ Dated n s := by
  refine Dated.through ?_
  simp only [State.bootWord]
  (repeat' split) <;> simp +decide [Dated, -ite_parts]

@[simp] theorem State.bootStructure_dated (s : State) (frames : List SFrame) (bad : List Nat) :
    Dated n (s.bootStructure frames bad) ↔ Dated n s := by
  refine Dated.through ?_
  simp +decide [Dated, -ite_parts, State.bootStructure]

@[simp] theorem structureLoad_dated (bad : List Nat) (s : State) : Dated n (structureLoad bad s) ↔ Dated n s := by
  refine Dated.through ?_
  simp only [structureLoad]
  (repeat' split) <;> simp +decide [Dated, -ite_parts]

@[simp] theorem State.deviceResets_dated (s : State) : Dated n s.deviceResets ↔ Dated n s := by
  refine Dated.through ?_
  unfold State.deviceResets
  split <;> simp +decide [Dated, -ite_parts]

@[simp] theorem bootWrite_dated (s : State) (o : Nat) (v : Word) : Dated n (bootWrite s o v) ↔ Dated n s := by
  refine Dated.through ?_
  simp only [bootWrite]
  (repeat' split) <;> simp +decide [Dated, -ite_parts]

/-! ### Steps of the town clock -/

@[simp] theorem State.stepHb_dated (s : State) (d : Nat) : Dated n (s.stepHb d) ↔ Dated n s := Dated.through (dated_iff.2 rfl)

@[simp] theorem State.stepFd_dated (s : State) (d : Nat) : Dated n (s.stepFd d) ↔ Dated n s := Dated.through (dated_iff.2 rfl)

@[simp] theorem tcStepApply_dated (s : State) : Dated n (tcStepApply s) ↔ Dated n s := by
  refine Dated.through ?_
  simp only [tcStepApply]
  (repeat' split) <;> simp +decide [Dated, -ite_parts]

@[simp] theorem tcStepMessage_dated (s : State) : Dated n (tcStepMessage s) ↔ Dated n s := by
  refine Dated.through ?_
  simp only [tcStepMessage]
  (repeat' split) <;> simp +decide [Dated, -ite_parts]

/-! ### Commands and the boundary -/

@[simp] theorem State.stateCmd_dated {s : State} {ok : Bool} {f : State → State} (h : ∀ k, Dated k (f s) ↔ Dated k s) :
    Dated n (s.stateCmd ok f).1 ↔ Dated n s := by
  unfold State.stateCmd
  split
  · exact h n
  · rfl

@[simp] theorem State.effect_dated (s : State) (t : Nat) (q : QueuedCmd) : Dated n (s.effect t q).1 ↔ Dated n s := by
  refine Dated.through ?_
  simp only [State.effect]
  (repeat' split) <;> simp +decide [Dated, -ite_parts]

@[simp] theorem State.applyCmd_dated (s : State) (t : Nat) (q : QueuedCmd) : Dated n (s.applyCmd t q).1 ↔ Dated n s := by
  refine Dated.through ?_
  simp only [State.applyCmd]
  (repeat' split) <;> simp +decide [Dated, -ite_parts]

theorem State.arbiter_dated (s : State) (q : QueuedCmd) {go : State → State} (h : ∀ u k, Dated k (go u) ↔ Dated k u) :
    Dated n (s.arbiter q go) ↔ Dated n s := by
  refine Dated.through ?_
  simp only [State.arbiter]
  (repeat' split) <;> simp +decide [Dated, -ite_parts, h]

@[simp] theorem submit_dated (o : CmdOrigin) (r : List Byte) (s : State) : Dated n (submit o r s) ↔ Dated n s := by
  unfold submit
  exact State.arbiter_dated _ _ fun u k => Dated.through (dated_iff.2 rfl)

@[simp] theorem directCommand_dated (code : Nat) (c : Command) (s : State) : Dated n (directCommand code c s) ↔ Dated n s := by
  unfold directCommand
  refine State.arbiter_dated _ _ fun u k => Dated.through ?_
  simp +decide [Dated, -ite_parts]

theorem fenceOne_dated (x : State × List QueuedCmd) (q : QueuedCmd) : Dated n (fenceOne x q).1 ↔ Dated n x.1 :=
  State.applyCmd_dated ..

theorem foldl_fenceOne_dated (l : List QueuedCmd) (x : State × List QueuedCmd) : Dated n (l.foldl fenceOne x).1 ↔ Dated n x.1 := by
  induction l generalizing x with
  | nil => rfl
  | cons q l ih => exact (ih _).trans (fenceOne_dated x q)

@[simp] theorem State.fence_dated (s : State) : Dated n s.fence.1 ↔ Dated n s :=
  (foldl_fenceOne_dated ..).trans (Dated.through (dated_iff.2 rfl))

@[simp] theorem cycleBoundary_dated (s : State) : Dated n (cycleBoundary s) ↔ Dated n s := by
  refine Dated.through ?_
  simp +decide [Dated, -ite_parts, cycleBoundary]

/-! ### Register writes -/

@[simp] theorem State.regWrite_dated (s : State) (m : Master) (a : Nat) (b : Block) (k o : Nat) (v : Word) (nvOk : Bool) :
    Dated n (s.regWrite m a b k o v nvOk) ↔ Dated n s := by
  refine Dated.through ?_
  simp only [State.regWrite]
  (repeat' split) <;> simp +decide [Dated, -ite_parts]

end
end Sys2Proof.Machine
end

section
/-!
PROOF. Powered time through the bus, the hosts' links and the DMA engines.
-/
namespace Sys2Proof.Machine

/-! ### The bus -/

theorem State.mboxWrite_dated {s t : State} {m : Master} {v : Word} (h : s.mboxWrite m v = some t) : Dated s.now t := by
  simp only [State.mboxWrite] at h
  (repeat' split at h) <;> simp at h <;> subst h <;> simp +decide [Dated, -ite_parts]

theorem State.listedWrite_dated {s t : State} {m : Master} {a : Nat} {b : Block} {n o : Nat} {row : RegRow} {v : Word} {nvOk : Bool}
    (h : s.listedWrite m a b n o row v nvOk = some t) : Dated s.now t := by
  simp only [State.listedWrite] at h
  split at h
  · cases h
  · split at h
    · cases h
      simp
    · cases h
      simp
    · cases h
      simp +decide [Dated]
    · split at h
      · exact State.mboxWrite_dated h
      · cases h
        exact (State.regWrite_dated ..).2 (.refl s)

theorem State.busWrite_dated {s : State} {m : Master} {a : Nat} {v : Word} {nvOk : Bool} {r : State × Bool}
    (h : s.busWrite m a v nvOk = some r) : Dated s.now r.1 := by
  simp only [State.busWrite] at h
  split at h
  · cases h
    simp +decide [Dated]
  · split at h
    · cases h
      simp +decide [Dated]
    · split at h
      · cases h
        simp
      · obtain ⟨t, ht, rfl⟩ := Option.map_eq_some_iff.1 h
        exact State.listedWrite_dated ht
  · cases h
    simp +decide [Dated]
  · cases h
    simp +decide [Dated]
  · cases h
    simp

theorem State.writeWord_dated {s t : State} {m : Master} {a : Nat} {v : Word} {nvOk : Bool} (h : s.writeWord m a v nvOk = some t) :
    Dated s.now t := by
  obtain ⟨r, hr, rfl⟩ := Option.map_eq_some_iff.1 h
  exact State.busWrite_dated hr

theorem State.writeWords_dated {m : Master} (l : List Word) : ∀ {s : State} {a : Nat} {r : State × Bool},
    s.writeWords m a l = some r → Dated s.now r.1 := by
  induction l with
  | nil =>
    intro s a r h
    cases h
    simp
  | cons w l ih =>
    intro s a r h
    simp only [State.writeWords] at h
    split at h
    · cases h
    · next hw =>
      cases h
      exact State.busWrite_dated hw
    · next u hw =>
      exact dated_iff.2 ((dated_iff.1 (ih h)).trans (dated_iff.1 (State.busWrite_dated hw)))

/-! ### The hosts' links -/

theorem spiWrite_dated {off : Nat} {v : Word} {s t : State} (h : spiWrite off v s = some t) : Dated s.now t := by
  simp only [spiWrite] at h
  split at h
  · cases h
    simp +decide [Dated]
  · obtain ⟨r, hr, rfl⟩ := Option.map_eq_some_iff.1 h
    exact (by simp +decide [Dated] : Dated s.now (r.1.send _) ↔ Dated s.now r.1).2 (State.busWrite_dated hr)

theorem State.sessionNote_dated (s : State) (d : Nat) (m : NetMsg) : Dated s.now (s.sessionNote d m).2 := by
  simp only [State.sessionNote]
  (repeat' split) <;> simp +decide [Dated]

theorem State.sessionTake_dated (s : State) (d type : Nat) : Dated s.now (s.sessionTake d type).1 := by
  unfold State.sessionTake
  split
  · exact .refl s
  · next m u h =>
    have hu : u.now = s.now := ((State.inboxTake_parts h).same .time (by decide)).1
    exact hu ▸ u.sessionNote_dated d m

theorem State.sessionAnswer_dated {n : Nat} (s : State) (d mseq type : Nat) (body : List Byte) :
    Dated n (s.sessionAnswer d mseq type body) ↔ Dated n s := by
  simp +decide [Dated]

theorem State.readWords_dated (m : Master) (k : Nat) : ∀ (s : State) (a : Nat), Dated s.now (s.readWords m k a).1 := by
  induction k with
  | zero => exact fun s a => .refl s
  | succ k ih =>
    intro s a
    have hr : Dated s.now (s.busRead m a).1 := by simp +decide [Dated]
    unfold State.readWords
    split
    · next u w h =>
      rw [h] at hr
      exact hr
    · next u w h =>
      rw [h] at hr
      exact dated_iff.1 hr ▸ ih u (a + 4)

theorem sessionRead_dated (d : Nat) (s : State) : Dated s.now (sessionRead d s) := by
  have ht := s.sessionTake_dated d 0x30
  unfold sessionRead
  split
  · next u h =>
    rw [h] at ht
    exact ht
  · next u m h =>
    rw [h] at ht
    split
    · exact (State.sessionAnswer_dated ..).2 ht
    · next off k _ =>
      have hr := u.readWords_dated (.host d) k off
      rw [dated_iff.1 ht] at hr
      split
      · next v _ hv =>
        rw [hv] at hr
        exact (State.sessionAnswer_dated ..).2 hr
      · next v _ hv =>
        rw [hv] at hr
        exact (State.sessionAnswer_dated ..).2 hr

theorem sessionWrite_dated {d : Nat} {s t : State} (h : sessionWrite d s = some t) : Dated s.now t := by
  have ht := s.sessionTake_dated d 0x32
  unfold sessionWrite at h
  split at h
  · next u hu =>
    cases h
    rw [hu] at ht
    exact ht
  · next u m hu =>
    rw [hu] at ht
    split at h
    · cases h
      exact (State.sessionAnswer_dated ..).2 ht
    · split at h
      · cases h
        exact (State.sessionAnswer_dated ..).2 ht
      · obtain ⟨r, hr, rfl⟩ := Option.map_eq_some_iff.1 h
        exact (State.sessionAnswer_dated ..).2 (dated_iff.1 ht ▸ State.writeWords_dated _ hr)

theorem sessionCommand_dated {d : Nat} {s t : State} (h : sessionCommand d s = some t) : Dated s.now t := by
  have ht := s.sessionTake_dated d 0x20
  unfold sessionCommand at h
  split at h
  · next u hu =>
    cases h
    rw [hu] at ht
    exact ht
  · next u m hu =>
    rw [hu] at ht
    split at h
    · cases h
      exact (submit_dated ..).2 ht
    · cases h

theorem recordFetch_dated {d : Nat} {r : List Byte} {s t : State} (h : recordFetch d r s = some t) : Dated s.now t := by
  simp only [recordFetch] at h
  (repeat' split at h) <;> simp at h <;> subst h <;> simp +decide [Dated]

/-! ### The DMA engines -/

theorem Mover.loadByte_dated {v : Mover} {first : Bool} {a : Nat} {r : Mover × Byte} (h : v.loadByte first a = some r) :
    Dated v.s.now r.1.s := by
  simp only [Mover.loadByte] at h
  (repeat' split at h) <;> simp at h <;> subst h <;> simp +decide [Dated]

theorem Mover.storeByte_dated {v w : Mover} {a : Nat} {b : Byte} (h : v.storeByte a b = some w) : Dated v.s.now w.s := by
  unfold Mover.storeByte at h
  split at h
  · extract_lets g at h
    split at h
    · obtain ⟨r, hr, rfl⟩ := Option.map_eq_some_iff.1 h
      exact State.busWrite_dated hr
    · cases h
      exact .refl _
  · cases h
    simp +decide [Dated]
  · cases h
    simp +decide [Dated]

theorem Mover.moveByte_dated (e : Nat) (v : Mover) (first : Bool) (src dst : Nat) : Dated v.s.now (v.moveByte e first src dst).1.s := by
  unfold Mover.moveByte
  split
  · exact .refl _
  · exact .refl _
  · split
    · exact .refl _
    · next w b hl =>
      have hw : Dated v.s.now w.s := Mover.loadByte_dated hl
      split
      · exact hw
      · next x hs =>
        have hx : Dated w.s.now x.s := Mover.storeByte_dated hs
        exact dated_iff.1 hw ▸ hx

theorem Mover.moveBytes_dated (e src dst : Nat) (n : Nat) :
    ∀ (i : Nat) (v : Mover) (first : Bool), Dated v.s.now (Mover.moveBytes e src dst n i v first).1.s := by
  induction n with
  | zero => exact fun _ v _ => .refl v.s
  | succ n ih =>
    intro i v first
    have hm := v.moveByte_dated e first ((src + i) % 2 ^ 48) ((dst + i) % 2 ^ 48)
    unfold Mover.moveBytes
    split
    · next w hw =>
      rw [hw] at hm
      exact dated_iff.1 hm ▸ ih (i + 1) w false
    · exact hm

theorem Mover.readBytes_dated (e a n : Nat) : ∀ (i : Nat) (v : Mover), Dated v.s.now (Mover.readBytes e a n i v).1.s := by
  induction n with
  | zero => exact fun _ v => .refl v.s
  | succ n ih =>
    intro i v
    unfold Mover.readBytes
    split
    · exact .refl _
    · split
      · exact .refl _
      · next w b hl => exact dated_iff.1 (Mover.loadByte_dated hl) ▸ ih (i + 1) { w with got := b :: w.got }

theorem Mover.writeBytes_dated (e a : Nat) (l : List Byte) :
    ∀ (i : Nat) (v : Mover), Dated v.s.now (Mover.writeBytes e a l i v).1.s := by
  induction l with
  | nil => exact fun _ v => .refl v.s
  | cons b l ih =>
    intro i v
    unfold Mover.writeBytes
    split
    · exact .refl _
    · split
      · exact .refl _
      · next w hs => exact dated_iff.1 (Mover.storeByte_dated hs) ▸ ih (i + 1) w

theorem State.dmaRead_dated (s : State) (e a n : Nat) (data : List Byte) : Dated s.now (s.dmaRead e a n data).1 :=
  Mover.readBytes_dated e a n 0 { s := s, data := data }

theorem State.dmaPut_dated (s : State) (e a : Nat) (l : List Byte) : Dated s.now (s.dmaPut e a l).1 :=
  Mover.writeBytes_dated e a l 0 { s := s, data := [] }

theorem State.dmaStopped_dated {s t : State} {e : Nat} {r : DmaRun} {x : DmaEnd} (h : s.dmaStopped e r x = some t) : Dated s.now t := by
  simp only [State.dmaStopped] at h
  (repeat' split at h) <;> simp at h <;> subst h <;> simp +decide [Dated]

theorem State.dmaSlotFetched_dated {s t : State} {e : Nat} {r : DmaRun} {b : List Byte} (h : s.dmaSlotFetched e r b = some t) :
    Dated s.now t := by
  simp only [State.dmaSlotFetched] at h
  (repeat' split at h) <;> simp at h <;> subst h <;> simp +decide [Dated]

theorem State.dmaFetch_dated {s t : State} {e : Nat} {r : DmaRun} {data : List Byte} (h : s.dmaFetch e r data = some t) :
    Dated s.now t := by
  unfold State.dmaFetch at h
  extract_lets a at h
  have hr := s.dmaRead_dated e a 16 data
  split at h
  · next u b hu _ =>
    rw [hu] at hr
    exact dated_iff.1 hr ▸ State.dmaSlotFetched_dated h
  · next u b hu _ =>
    rw [hu] at hr
    cases h
    simpa +decide [Dated] using hr
  · next u b x hu _ =>
    rw [hu] at hr
    exact dated_iff.1 hr ▸ State.dmaStopped_dated h

theorem dmaProgramFetch_dated {e : Nat} {data : List Byte} {s t : State} (h : dmaProgramFetch e data s = some t) : Dated s.now t := by
  unfold dmaProgramFetch at h
  split at h
  · cases h
    exact .refl _
  · split at h
    · cases h
      exact .refl _
    · split at h
      · exact State.dmaFetch_dated h
      · split at h
        · cases h
          simp +decide [Dated]
        · exact State.dmaFetch_dated h
      · cases h
        exact .refl _

theorem dmaMove_dated {e : Nat} {data : List Byte} {s t : State} (h : dmaMove e data s = some t) : Dated s.now t := by
  unfold dmaMove at h
  split at h
  · cases h
    exact .refl _
  · next r b _ =>
    extract_lets src dst at h
    have hm := Mover.moveBytes_dated e src dst (insNat b 13 3 - r.moved) r.moved { s := s, data := data } true
    split at h
    next v x hv =>
    rw [hv] at hm
    extract_lets got r' at h
    split at h
    · cases h
    · cases h
      exact hm
    · cases h
      simpa +decide [Dated] using hm
    · exact dated_iff.1 hm ▸ State.dmaStopped_dated h

theorem dmaCrcstore_dated {e : Nat} {s t : State} (h : dmaCrcstore e s = some t) : Dated s.now t := by
  unfold dmaCrcstore at h
  split at h
  · cases h
    exact .refl _
  · next r b _ =>
    extract_lets a at h
    have hp := s.dmaPut_dated e a (leBytes 4 r.crcOut)
    split at h
    next u x hu =>
    rw [hu] at hp
    split at h
    · cases h
    · cases h
      exact hp
    · cases h
      simpa +decide [Dated] using hp
    · exact dated_iff.1 hp ▸ State.dmaStopped_dated h

theorem State.dmaFinish_dated {s t : State} {e : Nat} {r : DmaRun} {res : Nat} (h : s.dmaFinish e r res = some t) : Dated s.now t := by
  have hp := s.dmaPut_dated e r.prog (r.slotBytes res)
  unfold State.dmaFinish at h
  split at h
  · next u hu =>
    rw [hu] at hp
    cases h
    simpa +decide [Dated] using hp
  · next u x _ hu =>
    rw [hu] at hp
    exact dated_iff.1 hp ▸ State.dmaStopped_dated h

theorem State.dmaLink_dated {s t : State} {e : Nat} {r : DmaRun} {b : List Byte} (h : s.dmaLink e r b = some t) : Dated s.now t := by
  have hp := s.dmaPut_dated e r.prog (r.slotBytes 1)
  unfold State.dmaLink at h
  split at h
  · cases h
    simp +decide [Dated]
  · split at h
    · next u hu =>
      rw [hu] at hp
      cases h
      simpa +decide [Dated] using hp
    · next u x _ hu =>
      rw [hu] at hp
      exact dated_iff.1 hp ▸ State.dmaStopped_dated h

theorem dmaEnd_dated {e : Nat} {s t : State} (h : dmaEnd e s = some t) : Dated s.now t := by
  unfold dmaEnd at h
  split at h
  · cases h
    exact .refl _
  · split at h
    · exact State.dmaFinish_dated h
    · split at h
      · cases h
        exact .refl _
      · split at h
        · exact State.dmaLink_dated h
        · cases h
          simp +decide [Dated]

end Sys2Proof.Machine
end

section
/-!
PROOF. Powered time over every row (R40, R87).
-/
namespace Sys2Proof.Machine

/-! ### The shapes of rows -/

section
variable {s t : State} {dt : Nat}

theorem State.elapse_now_le (s : State) (dt : Nat) : s.now ≤ (s.elapse dt).now := Nat.le_add_right ..

theorem after_now {f : State → State} (hf : ∀ u, Dated u.now (f u)) (h : s.after dt f = .next t) : s.now ≤ t.now := by
  cases h
  rw [dated_iff.1 (hf _)]
  exact s.elapse_now_le dt

theorem when_self_dated {f : State → State} (hf : ∀ u, Dated u.now (f u)) (b : Bool) (u : State) : Dated u.now (u.when b f) :=
  (State.when_dated fun _ => Dated.through (hf u)).2 (.refl u)

theorem afterHb_now {f : State → State} (hf : ∀ u, Dated u.now (f u)) (h : s.afterHb dt f = .next t) : s.now ≤ t.now :=
  after_now (fun u => when_self_dated hf _ u) h

theorem afterFd_now {f : State → State} (hf : ∀ u, Dated u.now (f u)) (h : s.afterFd dt f = .next t) : s.now ≤ t.now :=
  after_now (fun u => when_self_dated hf _ u) h

theorem tryHb_now {flt : Fault} {f : State → Option State} (hf : ∀ u v, f u = some v → Dated u.now v)
    (h : s.tryHb dt flt f = .next t) : s.now ≤ t.now := by
  unfold State.tryHb at h
  split at h
  · split at h
    · next u hu =>
      cases h
      rw [dated_iff.1 (hf _ _ hu)]
      exact s.elapse_now_le dt
    · cases h
  · cases h
    exact s.elapse_now_le dt

theorem writeRow_now {m : Master} {a : Nat} {v : State → Word} (h : s.writeRow dt m a v = .next t) : s.now ≤ t.now :=
  tryHb_now (fun _ _ => State.writeWord_dated) h

theorem readRow_now {m : Master} {a : Nat} (h : s.readRow dt m a = .next t) : s.now ≤ t.now :=
  afterHb_now (fun u => by simp +decide [Dated]) h

end

/-! ### The rows -/

theorem State.sensorDue_dated (u : State) (d e : Nat) : Dated u.now (u.sensorDue d e) := by
  simp +decide [Dated]

theorem execRegisterWrite_now {dt : Nat} {m : Master} {a : Nat} {v : Word} {s t : State}
    (h : execRegisterWrite dt m a v s = .next t) : s.now ≤ t.now := by
  unfold execRegisterWrite at h
  split at h
  · cases h
    exact s.elapse_now_le dt
  · split at h
    · exact afterHb_now (fun u => by simp +decide [Dated]) h
    · exact writeRow_now h

theorem execRegisterRead_now {dt : Nat} {m : Master} {a : Nat} {s t : State} (h : execRegisterRead dt m a s = .next t) :
    s.now ≤ t.now := by
  unfold execRegisterRead at h
  split at h
  · exact afterHb_now (fun u => by simp +decide [Dated]) h
  · exact readRow_now h

/-- No row runs the powered time back: a row moves it by its own `dt` and by nothing else. -/
theorem exec_now_le {c : Instr} {s t : State} (h : exec c s = .next t) : s.now ≤ t.now := by
  unfold exec at h
  cases c with
  | idleFrameSend | stampFloorSend | watermarkReceived | sourceEventReceived | eventRelease | dieLinkSilence | dieLinkResume
    | replayTimeout | crossingFault | cycleBoundary | horizonMarkSend | ptpMessageReceived | ppsEdge | ppsEdgeMissing
    | tcHoldoverEntry | tcStepApply | fdSkewDetect | fdSkewRecover | laserWindowReached | laserOkRise | laserOkTimeout
    | ampEnable | ampCheckEnd | probeStart | interlockOpen | interlockClosedHold | ampFault | ampRetry | laserOkLoss | rxOkFall
    | thmSample | tecLoopStep | tecOvercurrent | probeWindowUnlocked | powerLossEntryDurable | periodStart | toneFiring
    | tailWindowEnd | sliceReceived | spareLoadComplete | lanePeriodEnd | edgeRecordReceived | refWindowEnd | reacqComplete
    | reacqForce | arbiterFault | memScrub | blockPllUnlock | stampFloorMissing | blockPowerDown | quarterHeartbeatLoss
    | dieStatusFrame | laneReturnTestEnd | blockReturnComplete | detectionSample | wheelEventEmit | profileRecord
    | acwBlockReady | pairComparatorMismatch | pairSelftestInject | verdictDeadline | verdictSend | pairReturnSelftestDone
    | pairReturnComplete | debugHalt | frwSpiRead | frwLatchClr | frwCntClr | frwRstSel | frwRstKey | frwHeadSelWrite
    | frwSecSelWrite | frwCountLoRead | frwCountHiRead | frwTsLoRead | frwTsHiRead | leaseAcquire | leaseRelease | leaseRevoke
    | leaseGrace | leaseLapse | secResetPrep | secResetDirect | secBlock | secUnblock | brakeTest | safeStop | maintEnter
    | maintLeave | unfreeze | passwordSet | passwordLockoutEnd | lockoutTimeSave | ledgerSelftest | eventEntryDeliver
    | eventTelegramSend | snapshotFill | responseDeliver | pciePortReset | vitalTelegramForm | codeHReceived | telegramDeadline
    | sessionOpen | sessionClose | sessionTimeout | keepaliveSend | ethLinkChange | icmpEcho | neighbourRequest
    | spiNativeRead | stagingTimeout | structOpen | structVerify | verifyComplete | structCommit | structFrameReceived
    | structFrameAck | commitDistribTimeout | commitNvWritesDone | commitEffect | structAbort | structPwdSet | wpTokenAdd
    | calBankWriteDone | logAck | dmaChannelStart | dmaLoop | dmaWait | dmaWaitSatisfied | dmaWaitTimeout | dmaSignal
    | dmaBusRetry | cvuPeriodicStart | cvuPassEnd | cvuSnoopRecord | calRoundStart | calPhaseAEnd | calRoundEnd
    | calRoundAbandon | calRampEnd | calStore | trimReportReceived | trimSetWrite | panelFrameStart | panelRowSlot
    | panelNtcRead | chainFrame | pwrFailReset | bootRomStart | firmwareVerified | bootWatchdog | startHandshake
    | handshakeRetry | structureLoad | bootComplete | bootRefTimeout | jtagExpiry | deviceReset | fdReset | fwInstall
    | keyProgram | keyRevoke | settingsSet | watchEnter | watchLeave | wakeRequestReceived | dieExclusionTimeout
    | pairUncorrectableRead | quarterParityFault | pcieLinkUp | ptpDelayReqSend | hubCoreAccess =>
    exact afterHb_now (fun u => by simp +decide [Dated]) h
  | sessionRead =>
    exact afterHb_now (fun u => sessionRead_dated _ u) h
  | sensorHalt dt d e | standTimeout dt d e =>
    refine afterHb_now (fun u => ?_) h
    split
    · exact u.sensorDue_dated d e
    · exact .refl u
  | linkFrameReceived | fdWatermarkSend | isoChannelSilence | tcStepMessage | tcSlewMessage | laserOffDelay | pwrFailTaken
    | legacyDiscrepancyTimeout | headUnresolved | fusedDisagree | headBackInService | directResetTimeout
    | verdictSegmentReceived | combinationCompare | verdictTimeout | verdictLoss | safeStopCauseClear | ledgerFault
    | ledgerScrub | telegramHeaderReceived | channelSettle | legacyEdge | legacyEventEmit | channelDwellFault
    | channelWindowFault | channelFaultEnd | supplySample | fieldSupplyFault | adcFrame | outputReadback | groupCheckStart
    | offPulseSlotStart | brakeFeedbackChange | resetInputPattern | resetInputStuck | resetInputFault | powerOnReset
    | pwrFailRelease | fdPowerOn | fdBrownout | porstNAsserted | fdInternalFault | brakeFeedbackFault | resetInputFaultRelease =>
    exact after_now (fun u => by simp +decide [Dated]) h
  | releasedEventReceived | horizonMarkReceived | cycleMarkReceived | spanRestartMarkReceived | adcRequestDone
    | fsiStateChange | fsiFault | outputSwitchTimeout | openLoadTimeout | groupCheckDone | groupRetestDone | offPulseRaise
    | offPulseEnd | brakeTestApplyTimeout | brakeTestHoldEnd | brakeTestReleaseTimeout | brakeFeedbackTimeout | cmpCalHoldStart
    | cmpCalRetry | cmpCalGuardAbort | cmpCalHoldEnd =>
    exact afterFd_now (fun u => by simp +decide [Dated]) h
  | tcStepRequest | ofeLightOn | ofeLightOff | ofeRestart | psyApplyGo | dmdReacqRequest | lbqReturnLane | lbqReturnBlock
    | lbqReturnQuarter | lbqInject | acwEnable | acwDisable | pairReturn | pairInject | pairSwap | wscLatchClear | adcRequest
    | voFaultClear | voGroupRetest | brakeTestStart | leaseRenew | snapshotTake | evrQueueConfigWrite | cmdqDoorbell
    | lnkQueueConfigWrite | mboxSubmit | stageWrite | jnlCursorHiWrite | jnlCursorLoWrite | clgCursorHiWrite | clgCursorLoWrite
    | dmaDoorbell | dmaAbort | cvuGo | cvuStop | cvuPresetLoad | calParamWrite | recoveryInstall =>
    exact writeRow_now h
  | tcNowLoRead | dmdProbeLoRead | dmdEpochLoRead | periodStampLoRead | wsdLast0Read | wscStampLoRead | rstStartLoRead
    | jnlEntry0Read | jnlEntry7Read | clgEntry0Read | clgEntry31Read =>
    exact readRow_now h
  | tecSetpointWrite | tecLimitsWrite =>
    exact tryHb_now (fun _ _ => State.writeWord_dated) h
  | commandRecordFetch =>
    exact tryHb_now (fun _ _ => recordFetch_dated) h
  | sessionCommand =>
    exact tryHb_now (fun _ _ => sessionCommand_dated) h
  | sessionWrite =>
    exact tryHb_now (fun _ _ => sessionWrite_dated) h
  | spiNativeWrite =>
    exact tryHb_now (fun _ _ => spiWrite_dated) h
  | dmaProgramFetch =>
    exact tryHb_now (fun _ _ => dmaProgramFetch_dated) h
  | dmaMove =>
    exact tryHb_now (fun _ _ => dmaMove_dated) h
  | dmaCrcstore =>
    exact tryHb_now (fun _ _ => dmaCrcstore_dated) h
  | dmaEnd =>
    exact tryHb_now (fun _ _ => dmaEnd_dated) h
  | commandArbiterEntry dt o r =>
    refine tryHb_now (fun u v hv => ?_) h
    split at hv
    · cases hv
      exact (submit_dated ..).2 (.refl u)
    · cases hv
  | ethDatagramReceive dt p src sport b =>
    refine tryHb_now (fun u v hv => ?_) h
    split at hv
    · cases hv
    · cases hv
      simp +decide [Dated]
  | registerWrite =>
    exact execRegisterWrite_now h
  | registerRead =>
    exact execRegisterRead_now h

/-- Settles O49: a step is a row on the queue's rest, or nothing. -/
theorem poweredTimeNeverFalls : Obligations.PoweredTimeNeverFalls := by
  unfold Obligations.PoweredTimeNeverFalls
  intro s t h
  unfold step at h
  split at h
  · cases h
    exact Nat.le_refl _
  · next c rest _ => exact exec_now_le (s := { s with pending := rest }) h

end Sys2Proof.Machine
end

section
/-!
PROOF. The front end of a port (R61 to R69, R574): the rules of its shared operations, and AQn_OFE_CTL.LIGHT while the device serves.
-/
namespace Sys2Proof.Machine

/-! ### Probe drive that stops (R98) -/

@[simp] theorem State.port_stopFiring (s : State) (d k : Nat) : (s.stopFiring d).port k = s.port k := by
  unfold State.stopFiring
  extract_lets
  split <;> simp

@[simp] theorem State.reg_stopFiring (s : State) (d a : Nat) : (s.stopFiring d).reg a = s.reg a := by
  unfold State.stopFiring
  extract_lets
  split <;> simp

theorem State.stopFiring_firing (s : State) (d : Nat) : ((s.stopFiring d).probe d).firing = false := by
  unfold State.stopFiring
  extract_lets p
  split
  · simp
  · next h => simpa [p] using h

@[simp] theorem State.stopFiring_changes {ps : List Part} {q : List Nat} {r : State} (s : State) (d : Nat)
    (h : within [.psy] ps = true) : Changes ps q r (s.stopFiring d) ↔ Changes ps q r s := by
  unfold State.stopFiring
  extract_lets p
  split
  · exact State.setProbe_changes _ _ _ h
  · exact Iff.rfl

/-! ### Light-off (R63) -/

/-- The port once steps 1 and 2 of the light-off order are taken at `now`, with no step 4 asked for. -/
def Ofe.lightOff (o : Ofe) (now : Nat) (light : LightState) : Ofe :=
  { o with
    light := light, step := .idle, drive := false, ampEn := false, retrying := false
    offFrom := if o.laserEn then some (o.offFrom.getD now) else none
    offTec := o.laserEn && (o.offFrom.isSome && o.offTec), outProbeSince := none }

theorem State.lightOff_laser (s : State) (d : Nat) (light : LightState) :
    s.lightOff d light false = (s.setPort d ((s.port d).lightOff s.now light)).stopFiring d := by
  simp [State.lightOff, Ofe.lightOff]

/-! ### What the light-on order reports (R73, R74, R574) -/

/-- What the light-on order may change: ports, and events that say what is missing; no bit of AQn_OFE_EVT is cleared. -/
structure OrderStep (d : Nat) (s t : State) : Prop where
  changes : Changes [.ofe, .events] [Reg.AQ_OFE_EVT d, Reg.AQ_CAL_EVT d] s t
  kept : EventsKept (Reg.AQ_OFE_EVT d) s t

theorem OrderStep.refl (d : Nat) (s : State) : OrderStep d s s := ⟨.refl .., ⟨fun _ h => h⟩⟩

theorem OrderStep.trans {d : Nat} {s t u : State} (h : OrderStep d s t) (k : OrderStep d t u) : OrderStep d s u :=
  ⟨h.changes.trans k.changes, h.kept.trans k.kept⟩

theorem State.setPort_orderStep (s : State) (d : Nat) (o : Ofe) : OrderStep d s (s.setPort d o) :=
  ⟨by simp +decide, ⟨fun _ h => h⟩⟩

theorem State.setEvt_orderStep (s : State) {d a : Nat} (h : a ∈ [Reg.AQ_OFE_EVT d, Reg.AQ_CAL_EVT d]) (i : Nat) :
    OrderStep d s (s.setEvt a i) := by
  refine ⟨(State.setEvt_changes s a i h (by decide)).2 (.refl ..), ⟨fun j hj => ?_⟩⟩
  rw [State.reg_setEvt]
  split
  · next ha => exact bitOf_setBit_of i (ha ▸ hj)
  · exact hj

theorem State.thermalMissing_orderStep (s : State) (d : Nat) : OrderStep d s (s.thermalMissing d) := by
  unfold State.thermalMissing
  extract_lets u
  have hu : OrderStep d s u := by
    unfold u
    split
    · exact .refl ..
    · exact s.setEvt_orderStep (by simp) 11
  split
  · exact hu
  · exact hu.trans (u.setEvt_orderStep (by simp) 5)

theorem State.lightOn_orderStep (s : State) (d : Nat) : OrderStep d s (s.lightOn d) := by
  unfold State.lightOn
  split
  · exact .refl ..
  · split
    · exact s.thermalMissing_orderStep d
    · split
      · exact .refl ..
      · split
        · exact .refl ..
        · exact s.setPort_orderStep d _

theorem State.resumeOrder_orderStep (s : State) (d : Nat) : OrderStep d s (s.resumeOrder d) := by
  unfold State.resumeOrder
  split
  · exact .refl ..
  · split
    · exact s.thermalMissing_orderStep d
    · extract_lets o st
      split <;> exact s.setPort_orderStep d _

theorem State.endLockout_orderStep (s : State) (d : Nat) : OrderStep d s (s.endLockout d) := by
  unfold State.endLockout
  extract_lets o
  split
  · exact .refl ..
  · exact (s.setPort_orderStep d _).trans (State.lightOn_orderStep _ d)
  · exact (s.setPort_orderStep d _).trans (State.lightOn_orderStep _ d)
  · exact (s.setPort_orderStep d _).trans (State.resumeOrder_orderStep _ d)

theorem State.when_endLockout_orderStep (s : State) (d : Nat) (b : Bool) : OrderStep d s (s.when b (·.endLockout d)) := by
  unfold State.when
  split
  · exact s.endLockout_orderStep d
  · exact .refl ..

/-- The order leaves AQn_OFE_CTL. -/
theorem OrderStep.ofeCtl {d : Nat} {s t : State} (h : OrderStep d s t) : t.reg (Reg.AQ_OFE_CTL d) = s.reg (Reg.AQ_OFE_CTL d) :=
  h.changes.regs _ (by simp)

/-! ### Writes of AQn_OFE_CTL (R66) -/

section
variable {d : Nat} (hd : d < 4)
include hd

theorem blockOf_ofeCtl : blockOf (Reg.AQ_OFE_CTL d) = some (.ofe, d, 0) := by
  have h : ∀ d < 4, blockOf (Reg.AQ_OFE_CTL d) = some (.ofe, d, 0) := by decide
  exact h d hd

/-- What AQn_OFE_CTL shows: its fields are its low three bits. -/
theorem State.peek_ofeCtl (s : State) (m : Master) : s.peek m (Reg.AQ_OFE_CTL d) = s.reg (Reg.AQ_OFE_CTL d) &&& 7 := by
  have hmask : ~~~(reservedBits .ofe 0 ||| structReserved .ofe 0) = 7 := by decide
  have hknown : s.valueKnown .ofe 0 = true := Bool.or_true _
  rw [State.peek_of (b := .ofe) (row := ⟨0, 0, 1, .rw, 0⟩) (blockOf_ofeCtl hd) rfl, State.regValue, hmask, hknown]
  rfl

end

/-- A write without reserved bits takes the register's own effect. -/
theorem State.listedWrite_ofeCtl (s : State) (m : Master) (a d : Nat) {v : Word} (hv : v &&& 0xFFFFFFF8 = 0) :
    s.listedWrite m a .ofe d 0 ⟨0, 0, 1, .rw, 0⟩ v true = some (s.ofeCtlWrite d v) := by
  have hres : hitsReserved .ofe 0 ⟨0, 0, 1, .rw, 0⟩ v = false := by
    have hbits : reservedBits .ofe 0 = 0xFFFFFFF8 := by decide
    simp only [hitsReserved, hbits, hv, bne_self_eq_false, Bool.and_false]
  simp only [State.listedWrite, hres, State.regWrite, ofeWrite, Bool.false_eq_true, if_false, reduceCtorEq, false_and,
    OfNat.zero_ne_ofNat]

/-- AQn_OFE_CTL as a write of `v` leaves it where LIGHT stays 1. -/
def ofeCtlKept (v : Word) : Word := word [(0, 1, 1), (2, 1, b2n (bitOf v 2))]

theorem ofeCtlKept_light (v : Word) : bitOf (ofeCtlKept v) 0 = true := by
  have h : ∀ b, bitOf (word [(0, 1, 1), (2, 1, b2n b)]) 0 = true := by decide
  exact h _

theorem ofeCtlKept_cleared (v : Word) : bitOf (putFld (ofeCtlKept v) 0 1 0) 0 = false := by
  have h : ∀ b, bitOf (putFld (word [(0, 1, 1), (2, 1, b2n b)]) 0 1 0) 0 = false := by decide
  exact h _

section
variable {s : State} {d : Nat} {v : Word} (hon : bitOf (s.reg (Reg.AQ_OFE_CTL d)) 0 = true) (hv : bitOf v 0 = false)
include hon hv

/-- While the device serves, a write of 0 to LIGHT is refused. -/
theorem State.ofeCtlWrite_refused (hq : s.dev.quiet = false) : s.ofeCtlWrite d v =
    ((s.setReg (Reg.AQ_OFE_CTL d) (ofeCtlKept v)).setEvt (Reg.AQ_OFE_EVT d) 10).when (bitOf v 1) (·.endLockout d) := by
  simp [State.ofeCtlWrite, hon, hv, hq, State.when, ofeCtlKept, b2n]

/-- In the other states it starts the light-off order. -/
theorem State.ofeCtlWrite_off (hq : s.dev.quiet = true) : s.ofeCtlWrite d v =
    (((s.setReg (Reg.AQ_OFE_CTL d) (ofeCtlKept v)).setReg (Reg.AQ_OFE_CTL d) (putFld (ofeCtlKept v) 0 1 0)).lightOff d .off
      false).when (bitOf v 1) (·.endLockout d) := by
  simp [State.ofeCtlWrite, hon, hv, hq, State.when, ofeCtlKept, b2n]

end

theorem State.ofeCtlWrite_frozen (s : State) (d : Nat) (v : Word) : (s.ofeCtlWrite d v).frozen = s.frozen :=
  (((State.ofeCtlWrite_parts s d v (by decide)).2 (.refl [.regs, .copies, .ofe, .psy, .events] s)).same .freeze (by decide)).1

/-- What a write of 0 to LIGHT does where it is 1, by the state of the device. -/
structure LightOffWritten (d : Nat) (v : Word) (s t : State) : Prop where
  frozen : t.frozen = s.frozen
  refused : s.dev.quiet = false → bitOf (t.reg (Reg.AQ_OFE_CTL d)) 0 = true ∧ bitOf (t.reg (Reg.AQ_OFE_EVT d)) 10 = true
  taken : s.dev.quiet = true → bitOf (t.reg (Reg.AQ_OFE_CTL d)) 0 = false
  off : s.dev.quiet = true → bitOf v 1 = false → (t.port d).light = .off ∧ (t.port d).drive = false ∧ (t.port d).ampEn = false

theorem State.ofeCtlWrite_written {s : State} {d : Nat} {v : Word} (hon : bitOf (s.reg (Reg.AQ_OFE_CTL d)) 0 = true)
    (hv : bitOf v 0 = false) : LightOffWritten d v s (s.ofeCtlWrite d v) where
  frozen := s.ofeCtlWrite_frozen d v
  refused hq := by
    rw [State.ofeCtlWrite_refused hon hv hq]
    have hstep := State.when_endLockout_orderStep
      ((s.setReg (Reg.AQ_OFE_CTL d) (ofeCtlKept v)).setEvt (Reg.AQ_OFE_EVT d) 10) d (bitOf v 1)
    refine ⟨?_, hstep.kept.kept 10 ?_⟩
    · rw [hstep.ofeCtl, State.reg_setEvt, if_neg (by simp), State.reg_setReg_same]
      exact ofeCtlKept_light v
    · rw [State.reg_setEvt, if_pos rfl]
      exact bitOf_setBit _ (by decide)
  taken hq := by
    rw [State.ofeCtlWrite_off hon hv hq, (State.when_endLockout_orderStep ..).ofeCtl, State.lightOff_laser, State.reg_stopFiring,
      State.reg_setPort, State.reg_setReg_same]
    exact ofeCtlKept_cleared v
  off hq hrestart := by
    rw [State.ofeCtlWrite_off hon hv hq, hrestart, State.lightOff_laser]
    simp [State.when, Ofe.lightOff]

theorem DeviceState.quiet_of_serving {x : DeviceState} (h : x = .service ∨ x = .degraded ∨ x = .watch) : x.quiet = false := by
  obtain rfl | rfl | rfl := h <;> rfl

theorem DeviceState.quiet_of_not_serving {x : DeviceState} (h : x = .start ∨ x = .maintenance ∨ x = .safeStop) : x.quiet = true := by
  obtain rfl | rfl | rfl := h <;> rfl

/-- The value that OFE_LIGHT_OFF writes into AQn_OFE_CTL holding `w`. -/
def lightOffWord (w : Word) : Word := w &&& 7 &&& 0xFFFFFFFE

theorem lightOffWord_light (w : Word) : bitOf (lightOffWord w) 0 = false := by simp [bitOf, lightOffWord]

theorem lightOffWord_clean (w : Word) : lightOffWord w &&& 0xFFFFFFF8 = 0 := by
  have h : (7 : Word) &&& 0xFFFFFFFE &&& 0xFFFFFFF8 = 0 := by decide
  rw [lightOffWord, BitVec.and_assoc, BitVec.and_assoc, ← BitVec.and_assoc 7, h]
  exact BitVec.and_zero

theorem lightOffWord_restart {w : Word} (h : w &&& 0xFFFFFFFA = 0) : bitOf (lightOffWord w) 1 = false := by
  have hw : bitOf (w &&& 0xFFFFFFFA) 1 = false := by rw [h]; rfl
  have hb : bitOf w 1 = false := by simpa [bitOf] using hw
  simp only [bitOf, lightOffWord, BitVec.getLsbD_and, show w.getLsbD 1 = false from hb, Bool.false_and]

/-- Where the die has no power in Watch, the bus refuses a write of 0 to LIGHT (R66). -/
theorem State.busWrite_of_watch {s : State} {m : Master} {d : Nat} (hd : d < 4) (hm : s.meets m (Reg.AQ_OFE_CTL d) = .dead)
    (hf : s.isFrozen m = false) (hr : s.holdsRole m .configurator = true) (hw : s.dev = .watch)
    (hon : bitOf (s.reg (Reg.AQ_OFE_CTL d)) 0 = true) (v : Word) (hv : bitOf v 0 = false) :
    s.busWrite m (Reg.AQ_OFE_CTL d) v true = some (s.setEvt (Reg.AQ_OFE_EVT d) 10, false) := by
  simp only [State.busWrite, hm, hf, State.watchRefuse, blockOf_ofeCtl hd, hw, hr, hon, hv, State.when]
  rfl

section
variable {s e : State} {dt : Nat} {m : Master} {d : Nat} (he : s.elapse dt = e) (hu : e.boot.up = true) (hd : d < 4)
  (hm : e.mayWrite m (Reg.AQ_OFE_CTL d) = true)
include he hu hd hm

theorem State.writeRow_ofeCtl {v : State → Word} (hclean : v e &&& 0xFFFFFFF8 = 0) :
    s.writeRow dt m (Reg.AQ_OFE_CTL d) v = .next (e.ofeCtlWrite d (v e)) := by
  rw [State.writeRow_of_mayWrite he hu hm (blockOf_ofeCtl hd) (row := ⟨0, 0, 1, .rw, 0⟩) rfl, State.listedWrite_ofeCtl e m _ d hclean]

/-- OFE_LIGHT_OFF writes what AQn_OFE_CTL shows, with LIGHT 0. -/
theorem exec_ofeLightOff :
    exec (.ofeLightOff dt m d) s = .next (e.ofeCtlWrite d (lightOffWord (e.reg (Reg.AQ_OFE_CTL d)))) := by
  have hword : e.peek m (Reg.AQ_OFE_CTL d) &&& 0xFFFFFFFE = lightOffWord (e.reg (Reg.AQ_OFE_CTL d)) := by
    rw [State.peek_ofeCtl hd e m, lightOffWord]
  have hrow := State.writeRow_ofeCtl he hu hd hm (v := fun s => s.peek m (Reg.AQ_OFE_CTL d) &&& 0xFFFFFFFE)
    (hword ▸ lightOffWord_clean _)
  exact hword ▸ hrow

end

theorem Reg.ofeCtl_aligned (d : Nat) : Reg.AQ_OFE_CTL d % 4 = 0 := by
  simp only [Reg.AQ_OFE_CTL]
  omega

/-- Settles O41: a write that reaches AQn_OFE_CTL is `State.ofeCtlWrite_written`, and one that meets a die without power is refused by
the bus (`State.busWrite_of_watch`). -/
theorem lightOffRefusedWhileServing : Obligations.LightOffRefusedWhileServing := by
  unfold Obligations.LightOffRefusedWhileServing
  refine ⟨?_, ?_, ?_⟩
  · rintro dt s e m d v _ he hu hd rfl hm hclean hv hon
    have hw := State.ofeCtlWrite_written hon hv
    refine ⟨_, ?_, hw.frozen, fun h => hw.refused (DeviceState.quiet_of_serving h), fun h => ?_⟩
    · rw [exec_registerWrite dt (Reg.ofeCtl_aligned d) (bar2At_of_blockOf (blockOf_ofeCtl hd) m)]
      exact State.writeRow_ofeCtl he hu hd hm hclean
    · exact ⟨hw.taken (DeviceState.quiet_of_not_serving h), hw.off (DeviceState.quiet_of_not_serving h)⟩
  · rintro dt s e m d _ he hu hd rfl hm hreg hon
    have hrestart := lightOffWord_restart hreg
    have hv := lightOffWord_light (e.reg (Reg.AQ_OFE_CTL d))
    have hw := State.ofeCtlWrite_written hon hv
    refine ⟨_, exec_ofeLightOff he hu hd hm, hw.frozen, fun h => ?_, fun h => ?_⟩
    · have hq := DeviceState.quiet_of_serving h
      obtain ⟨hkept, hshown⟩ := hw.refused hq
      refine ⟨hkept, hshown, ?_⟩
      rw [State.ofeCtlWrite_refused hon hv hq, hrestart]
      simp +decide [State.when]
    · have hq := DeviceState.quiet_of_not_serving h
      obtain ⟨hlight, hdrive, hamp⟩ := hw.off hq hrestart
      refine ⟨hw.taken hq, hlight, hdrive, hamp, ?_⟩
      rw [State.ofeCtlWrite_off hon hv hq, hrestart, State.lightOff_laser]
      simp +decide [State.when]
  · rintro dt s e m d v _ c he hu hd rfl hm hf hr hwatch hon hv hc
    have hdead := State.busWrite_of_watch hd hm hf hr hwatch hon
    refine ⟨e.setEvt (Reg.AQ_OFE_EVT d) 10, ?_, ?_, ?_, by simp, by simp +decide⟩
    · obtain rfl | rfl := hc
      · rw [exec_registerWrite dt (Reg.ofeCtl_aligned d) (bar2At_of_blockOf (blockOf_ofeCtl hd) m)]
        exact State.writeRow_of_busWrite he hu (hdead v hv)
      · exact State.writeRow_of_busWrite (v := fun s => s.peek m (Reg.AQ_OFE_CTL d) &&& 0xFFFFFFFE) he hu
          (hdead _ (by simp [bitOf]))
    · rw [State.reg_setEvt, if_neg (by simp)]
      exact hon
    · rw [State.reg_setEvt, if_pos rfl]
      exact bitOf_setBit _ (by decide)

end Sys2Proof.Machine
end

section
/-!
PROOF. The light-on order and its faults (R62, R63, R67 to R69).
-/
namespace Sys2Proof.Machine

/-! ### Ports that the device attends to (R61) -/

theorem State.portWanted_of_enabled {s : State} {d : Nat} (h : s.portEnabled d = true) : s.portWanted d = true := by
  simp only [State.portWanted, show (s.probe d).live.en = true from h, Bool.true_or]

theorem State.portOn_of_enabled {s : State} {d : Nat} (h : s.portEnabled d = true) : s.portOn d = true := by
  simp only [State.portOn, State.portWanted_of_enabled h, Bool.true_or]

theorem State.stopFiring_of_firing {s : State} {d : Nat} (h : (s.probe d).firing = true) :
    s.stopFiring d = s.setProbe d { s.probe d with firing := false, incomplete := true } := if_pos h

theorem State.bitOf_setEvt (s : State) (a : Nat) {i : Nat} (h : i < 32) : bitOf ((s.setEvt a i).reg a) i = true := by
  rw [State.reg_setEvt, if_pos rfl]
  exact bitOf_setBit _ h

/-! ### Steps of the order (R62, R69) -/

/-- A port that resumes its order with the interlock closed, out of lockout (R68). -/
def Ofe.resumed (o : Ofe) : Ofe :=
  { o with
    light := if o.retrying then .dark else .warming, lockout := .none
    step := if o.laserEn && o.offFrom.isNone then (if o.step = .laserOk then .laserOk else .ampDelay) else .laserWindow }

/-- The order resumes on a port whose thermal loop runs and whose interlock is closed. -/
theorem State.resumeOrder_of_closed {s : State} {d : Nat} (hw : s.portWanted d = true) (hl : s.lightReq d = true)
    (hr : s.thermalReady d = true) (ht : (s.port d).tecEn = true) (hc : (s.port d).closed = true) :
    s.resumeOrder d = s.setPort d (s.port d).resumed := by
  have hon : (s.port d).tecOn s.now = s.port d := if_pos ht
  unfold State.resumeOrder
  rw [hw, hl, hr, hon]
  simp only [Ofe.shown, hc, Ofe.resumed, Bool.and_self, Bool.not_true, Bool.false_eq_true, if_false, if_true]
  split <;> rfl

/-- The port once an amplifier fault is taken at `now`, with retries left (R69). -/
def Ofe.ampFaulted (o : Ofe) (now : Nat) : Ofe :=
  { o with
    light := if o.light = .shutdown then .shutdown else .dark, step := .idle, drive := false, ampEn := false, attempt := 0
    retrying := true, retryFrom := now, outProbeSince := none }

theorem State.ampFaultTaken_of_retries {s : State} {d : Nat} (h : 0 < s.retryMax d) : s.ampFaultTaken d =
    ((s.setPort d ((s.port d).ampFaulted s.now)).stopFiring d).setEvt (Reg.AQ_OFE_EVT d) 1 := by
  have hne : s.retryMax d ≠ 0 := by omega
  have hsame : ∀ o, (((s.setPort d o).stopFiring d).setEvt (Reg.AQ_OFE_EVT d) 1).retryMax d = s.retryMax d := fun o => by
    simp [State.retryMax, State.reg_setEvt]
  have hretry : (s.retryMax d != 0) = true := bne_iff_ne.2 hne
  simp only [State.ampFaultTaken, hsame, hne, hretry, if_false, Ofe.ampFaulted]

/-- Where the amplifier is past its check, a fall of Pn_AMP_FLT_N is an amplifier fault, once its blanking has passed (R67). -/
theorem ampFault_of_checked {s : State} {d : Nat} (hon : s.portOn d = true) (ha : (s.port d).ampEn = true)
    (ht : ms 50 ≤ s.now - (s.port d).ampEnAt) (hs : (s.port d).step ≠ .ampCheck) :
    ampFault d s = (s.setPort d { s.port d with ampFltN := false }).ampFaultTaken d := by
  simp only [ampFault, hon, ha, hs, State.setPort_now, ht, decide_true, decide_false, Bool.and_self, Bool.false_and, Bool.not_true,
    Bool.false_eq_true, if_false, if_true]

/-- The port once Pn_INTLK_N has been high for 1 s (R68). -/
def Ofe.held (o : Ofe) : Ofe := { o with intlkN := true, hold := false }

/-- A port in SHUTDOWN with no lockout recorded resumes its order (R68). -/
theorem interlockClosedHold_of_shutdown {s : State} {d : Nat} (hon : s.portOn d = true) (ht : (s.port d).intlkLow + ms 1000 ≤ s.now)
    (hl : (s.port d).light = .shutdown) (hlock : (s.port d).lockout = .none) :
    interlockClosedHold d s = (s.setPort d (s.port d).held).resumeOrder d := by
  have hdue : ¬s.now < (s.port d).intlkLow + ms 1000 := Nat.not_lt.2 ht
  simp only [interlockClosedHold, hon, hl, hlock, hdue, decide_false, Bool.not_true, Bool.or_self, Bool.false_eq_true, ne_eq,
    not_true_eq_false, if_false, Ofe.held]

/-- The port once Pn_LASER_OK has fallen at `now` with the laser on: dark, and locked out, by a thermal lockout where that stands
(R67, R574). -/
def Ofe.laserLost (o : Ofe) (now : Nat) : Ofe :=
  { ({ o with laserOk := false } : Ofe).lightOff now (if o.light = .shutdown then .shutdown else .dark) with
    lockout := if o.lockout = .thermal then .thermal else .laser }

theorem laserOkLoss_of_laser {s : State} {d : Nat} (hon : s.portOn d = true) (hl : (s.port d).laserEn = true) :
    laserOkLoss d s = (((s.setPort d { s.port d with laserOk := false }).lightOff d
      (if (s.port d).light = .shutdown then .shutdown else .dark) false).setPort d ((s.port d).laserLost s.now)).setEvt
        (Reg.AQ_OFE_EVT d) 3 := by
  simp only [laserOkLoss, hon, hl, Bool.not_true, Bool.false_eq_true, if_false, if_true, State.lightOff_laser, State.port_stopFiring,
    State.port_setPort, State.setPort_now, Ofe.laserLost]

/-- Settles O3: each row is one operation of the front end on a logic side that runs; the ones that share a part of the order take it
from `State.resumeOrder_of_closed`, `State.ampFaultTaken_of_retries`, `State.lightOff_laser` and `State.stopFiring_of_firing`. -/
theorem lightOrderAdvances : Obligations.LightOrderAdvances := by
  unfold Obligations.LightOrderAdvances
  refine ⟨?_, ?_, ?_, ?_, ?_, ?_, ?_, ?_, ?_, ?_, ?_, ?_⟩
  · intro dt s e d he hu hstep htec hwin
    refine (afterHb_of_up he hu _).trans (congrArg _ ?_)
    have hin : e.inLaserWin d = true := decide_eq_true hwin
    simp [laserWindowReached, hstep, htec, hin]
  · intro dt s e d he hu hen hstep
    refine (afterHb_of_up he hu _).trans (congrArg _ ?_)
    simp [laserOkRise, State.portOn_of_enabled hen, hstep, Ofe.closed]
  · intro dt s e d he hu hstep htime
    refine (afterHb_of_up he hu _).trans (congrArg _ ?_)
    simp [laserOkTimeout, hstep, ms, htime]
  · intro dt s e d he hu hstep hclosed hlaser htime
    refine (afterHb_of_up he hu _).trans (congrArg _ ?_)
    simp [ampEnable, hstep, hclosed, hlaser, ms, htime]
  · intro dt s e d he hu hstep htime
    refine (afterHb_of_up he hu _).trans (congrArg _ ?_)
    simp [ampCheckEnd, hstep, ms, htime]
  · intro dt s e d t0 he hfrom htime
    refine (after_eq he _).trans (congrArg _ ?_)
    simp only [laserOffDelay, hfrom, ms, htime, Nat.reduceMul, if_true]
    rfl
  · intro dt s e d he hu hen hlight hfire
    refine (afterHb_of_up he hu _).trans (congrArg _ ?_)
    simp only [interlockOpen, State.portOn_of_enabled hen, hlight, Bool.not_true, Bool.false_eq_true, if_false]
    rw [State.stopFiring_of_firing (s := e.setPort d _) hfire]
    rfl
  · intro dt s e d he hu hen hlight hlock hreq hready htec hretry htime
    have hres := State.resumeOrder_of_closed (s := e.setPort d (e.port d).held) (State.portWanted_of_enabled hen) hreq hready
      (by rw [State.port_setPort]; exact htec) (by rw [State.port_setPort]; rfl)
    rw [State.port_setPort] at hres
    refine ⟨_, afterHb_of_up he hu _, ?_⟩
    rw [interlockClosedHold_of_shutdown (State.portOn_of_enabled hen) htime hlight hlock, hres, State.port_setPort]
    refine ⟨rfl, rfl, ?_, rfl, fun hl hf => ?_, fun hl => ?_, by simp +decide⟩
    · simp [Ofe.resumed, Ofe.held, hretry]
    · simp [Ofe.resumed, Ofe.held, hl, hf]
    · simp [Ofe.resumed, Ofe.held, hl]
  · intro dt s e d he hu hen hamp htime hstep hretry
    have hflt := ampFault_of_checked (State.portOn_of_enabled hen) hamp htime (by simp [hstep])
    have htaken := State.ampFaultTaken_of_retries (s := e.setPort d { e.port d with ampFltN := false }) hretry
    rw [State.port_setPort] at htaken
    refine ⟨_, afterHb_of_up he hu _, ?_⟩
    rw [hflt, htaken, State.port_setEvt, State.port_stopFiring, State.port_setPort, State.probe_setEvt]
    exact ⟨rfl, rfl, rfl, rfl, rfl, rfl, rfl, State.stopFiring_firing .., State.bitOf_setEvt _ _ (by decide), by simp +decide⟩
  · intro dt s e d he hu hretry hlight hstep hclosed hlaser hlock htime
    refine (afterHb_of_up he hu _).trans (congrArg _ ?_)
    have hdue : ms (1000 * fld (e.reg (Reg.AQ_OFE_TIMING d)) 10 6) ≤ e.now - (e.port d).retryFrom := by
      rw [ms, Nat.mul_comm 1000, Nat.mul_assoc]
      exact htime
    simp [ampRetry, hretry, hlight, hstep, hclosed, hlaser, hlock, hdue]
  · intro dt s e d he hu hen hlaser
    refine ⟨_, afterHb_of_up he hu _, ?_⟩
    rw [laserOkLoss_of_laser (State.portOn_of_enabled hen) hlaser, State.port_setEvt, State.port_setPort]
    refine ⟨rfl, rfl, rfl, if_pos hlaser, rfl, rfl, State.bitOf_setEvt _ _ (by decide), ?_⟩
    simp +decide [State.lightOff_laser]
  · intro dt s e d he hu hen
    refine (afterHb_of_up he hu _).trans (congrArg _ ?_)
    simp [rxOkFall, State.portOn_of_enabled hen]

end Sys2Proof.Machine
end

section
/-!
PROOF. A changeover of probe sets (R97) in a state whose staged writes (R129) name a register that R129 does not.
-/
namespace Sys2Proof.Machine

/-- Port 0 at the period start that makes a set live, with AQn_PSY_EVT among the writes that wait for a period start. No write of AQn_DMD
or AQn_CAL stages that register, so no run reaches the state. -/
def eventStaged : State :=
  { (({} : State).setProbe 0 { live := { en := true, np := 125000 }, pend := some { en := true }, changeover := true }).setDemod 0
      { staged := [(Reg.AQ_PSY_EVT 0, 0)] } with
    now := 100000 }

/-- The set goes live with bit 0 of AQn_PSY_EVT, and then the period opens and the staged write stores 0 over it. -/
theorem periodStart_eventStaged :
    bitOf ((periodStart 0 (eventStaged.elapse 0)).reg (Reg.AQ_PSY_EVT 0)) 0 = false := by
  have hopen : periodStart 0 (eventStaged.elapse 0) =
      ((eventStaged.elapse 0).psyLive 0 { en := true }).periodOpens 0 true false 500000 := rfl
  rw [hopen]
  decide +kernel

/-- Refutes O5: its fourth clause asks for bit 0 of AQn_PSY_EVT after a changeover in every state, but the same period start takes the
staged writes after the bit is set, and `eventStaged` stages a write of 0 to that register. The statement lacks the premise that every
staged register is one of R129 or AQn_CAL_CTL. -/
theorem not_pulsePeriods : ¬ Obligations.PulsePeriods := by
  unfold Obligations.PulsePeriods
  rintro ⟨-, -, -, hchange, -⟩
  obtain ⟨t, ht, -, -, -, -, -, hbit⟩ := hchange 0 eventStaged _ 0 { en := true } rfl rfl rfl rfl rfl (by decide) rfl
  have hrow : exec (.periodStart 0 0) eventStaged = .next (periodStart 0 (eventStaged.elapse 0)) := afterHb_of_up rfl rfl _
  obtain rfl : periodStart 0 (eventStaged.elapse 0) = t := Host.Outcome.next.inj (hrow.symm.trans ht)
  exact Bool.false_ne_true (periodStart_eventStaged.symm.trans hbit)

end Sys2Proof.Machine
end

section
/-!
PROOF. Demodulation: slices (R106, R109, R146), the end of a lane's period (R112, R136), edge records (R137) and tail windows (R83, R121,
R477).
-/
namespace Sys2Proof.Machine

/-! ### Tables that a list of writes fills -/

/-- Of several writes that agree on the key of one of them, its value stands. -/
theorem tfind_foldl_tset {ι α : Type} {key : ι → Nat} {val : ι → α} {x : ι} (l : List ι) : ∀ t : Table α,
    (∀ y, y ∈ l → key y = key x → val y = val x) → x ∈ l ∨ tfind t (key x) = some (val x) →
    tfind (l.foldl (fun t y => tset t (key y) (val y)) t) (key x) = some (val x) := by
  induction l with
  | nil => simp
  | cons y l ih =>
    intro t hval hx
    rw [List.foldl_cons]
    refine ih _ (fun z hz => hval z (List.mem_cons_of_mem _ hz)) ?_
    by_cases hkey : key y = key x
    · exact .inr (by rw [hkey, tfind_tset_same, hval y List.mem_cons_self hkey])
    · rw [tfind_tset_other _ _ (Ne.symm hkey)]
      exact hx.imp_left fun hm => List.mem_of_ne_of_mem (fun h => hkey (congrArg key h.symm)) hm

/-- An update of each listed key leaves there what every update makes hold. -/
theorem tget_foldl_update {α : Type} {dflt : α} {f : Nat → α → α} {p : α → Prop} (hf : ∀ j a, p (f j a))
    {k : Nat} (l : List Nat) : ∀ t : Table α, k ∈ l ∨ p (tget t dflt k) →
    p (tget (l.foldl (fun t j => tset t j (f j (tget t dflt j))) t) dflt k) := by
  induction l with
  | nil => simp
  | cons j l ih =>
    intro t hk
    rw [List.foldl_cons]
    refine ih _ ?_
    by_cases hjk : k = j
    · exact .inr (by rw [hjk, tget_tset_same]; exact hf ..)
    · rw [tget_tset_other _ _ _ hjk]
      exact hk.imp_left (List.mem_of_ne_of_mem hjk)

/-- A key that a filter drops is not listed. -/
theorem tfind_filter_none {α : Type} {p : Nat → Bool} {k : Nat} (h : p k = false) (t : Table α) :
    tfind (t.filter (p ·.1)) k = none := by
  induction t with
  | nil => rfl
  | cons e t ih =>
    rw [List.filter_cons]
    split
    · next hj =>
      have hne : e.1 ≠ k := fun hk => by simp [hk, h] at hj
      exact (if_neg hne).trans ih
    · exact ih

/-! ### What a trace word is formed of (R101 to R109) -/

/-- The front end of a port forms the same trace words: its live set, its periods and its scaling are the same. -/
structure SameFront (d : Nat) (s t : State) : Prop where
  live  : (t.probe d).live = (s.probe d).live
  past  : (t.probe d).past = (s.probe d).past
  now   : t.periodNow d = s.periodNow d
  scale : t.reg (Reg.AQ_DFE_CTL d) = s.reg (Reg.AQ_DFE_CTL d)

section
variable {d : Nat} {s t : State}

theorem SameFront.periodTag (h : SameFront d s t) (n : Nat) : t.periodTag d n = s.periodTag d n := by
  simp only [State.periodTag, h.past, h.now]

theorem SameFront.traceWord (h : SameFront d s t) (tag : PeriodTag) (b : AdcBlock) (k j : Nat) :
    t.traceWord d tag b k j = s.traceWord d tag b k j := by
  have hcorr : t.corrAt d tag.count = s.corrAt d tag.count := by
    funext u
    simp only [State.corrAt, h.live, h.now, h.periodTag]
  simp only [State.traceWord, h.live, h.scale, hcorr]

/-- Registers other than the scaling are no part of it. -/
theorem Changes.sameFront {ps : List Part} {l : List Nat} (h : Changes ps l s t) (hpsy : Part.psy ∉ ps) (hcal : Part.cal ∉ ps)
    (hreg : Reg.AQ_DFE_CTL d ∉ l) : SameFront d s t := by
  have hprobe : t.probe d = s.probe d := by
    simp only [State.probe, show t.psy = s.psy from h.parts.same .psy (by simp [hpsy])]
  have hc : t.cal = s.cal := h.parts.same .cal (by simp [hcal])
  exact ⟨by rw [hprobe], by rw [hprobe], by simp only [State.periodNow, hprobe, hc], h.regs _ hreg⟩

end

/-! ### The ADC's own counters (R57) -/

section
variable (s : State) (d : Nat) (b : AdcBlock)

theorem State.adcStats_changes : Changes [.psy] [Reg.AQ_ADC_PEAK d, Reg.AQ_ADC_OVR d] s (s.adcStats d b) := by
  simp only [State.adcStats]
  split <;> simp +decide

theorem State.adcStats_probe : ∃ n, (s.adcStats d b).probe d = { s.probe d with adcSeen := n } := by
  simp only [State.adcStats]
  split
  · exact ⟨_, rfl⟩
  · exact ⟨_, State.probe_setProbe ..⟩

theorem State.adcStats_lbq : (s.adcStats d b).lbq = s.lbq := (s.adcStats_changes d b).parts.same .lbq (by decide)

theorem State.adcStats_dmd : (s.adcStats d b).dmd = s.dmd := (s.adcStats_changes d b).parts.same .dmd (by decide)

theorem State.adcStats_live : ((s.adcStats d b).probe d).live = (s.probe d).live := by
  obtain ⟨n, hn⟩ := s.adcStats_probe d b
  rw [hn]

/-- The registers of the port behind its two counters. -/
theorem State.adcStats_reg {a : Nat} (h : Reg.AQ_ADC_OVR d < a) : (s.adcStats d b).reg a = s.reg a :=
  (s.adcStats_changes d b).regs a (by simp [Reg.AQ_ADC_PEAK, Reg.AQ_ADC_OVR] at h ⊢; omega)

theorem State.adcStats_sameFront : SameFront d s (s.adcStats d b) := by
  obtain ⟨n, hn⟩ := s.adcStats_probe d b
  have hcal : (s.adcStats d b).cal = s.cal := (s.adcStats_changes d b).parts.same .cal (by decide)
  refine ⟨by rw [hn], by rw [hn], ?_, s.adcStats_reg d b (by simp only [Reg.AQ_ADC_OVR, Reg.AQ_DFE_CTL]; omega)⟩
  simp only [State.periodNow, hn, hcal]

theorem State.adcStats_spanReg (i : Nat) : (s.adcStats d b).reg (Reg.AQ_LANE_SPAN d i) = s.reg (Reg.AQ_LANE_SPAN d i) :=
  s.adcStats_reg d b (by simp only [Reg.AQ_ADC_OVR, Reg.AQ_LANE_SPAN]; omega)

theorem State.adcStats_dmdReg (i : Nat) : (s.adcStats d b).reg (Reg.AQ_DMD_LANE d i) = s.reg (Reg.AQ_DMD_LANE d i) :=
  s.adcStats_reg d b (by simp only [Reg.AQ_ADC_OVR, Reg.AQ_DMD_LANE]; omega)

theorem State.adcStats_spanCount (i : Nat) : (s.adcStats d b).spanCount d i = s.spanCount d i := by
  simp only [State.spanCount, State.adcStats_spanReg]

theorem State.adcStats_lane (i : Nat) : (s.adcStats d b).lane d i = s.lane d i := by
  simp only [State.lane, State.die, State.adcStats_lbq]

theorem State.adcStats_blkUp (i : Nat) : (s.adcStats d b).blkUp d i = s.blkUp d i := by
  simp only [State.blkUp, State.dieUp, State.blk, State.die, State.adcStats_lbq]

theorem State.adcStats_spanUnavail (i : Nat) : (s.adcStats d b).spanUnavail d i = s.spanUnavail d i := by
  simp only [State.spanUnavail, State.adcStats_spanCount, State.adcStats_lane, State.adcStats_blkUp]

theorem State.adcStats_serverOf (i : Nat) : (s.adcStats d b).serverOf d i = s.serverOf d i := by
  simp only [State.serverOf, State.adcStats_spanUnavail, State.adcStats_spanCount, State.adcStats_lane]

theorem State.adcStats_servedBy (i : Nat) : (s.adcStats d b).servedBy d i = s.servedBy d i := by
  simp only [State.servedBy, State.adcStats_serverOf]

theorem State.adcStats_sliceRange (i : Nat) : (s.adcStats d b).sliceRange d i = s.sliceRange d i := by
  simp only [State.sliceRange, State.halo, State.gauge, State.halfW, State.spanFirst, State.adcStats_live,
    State.adcStats_spanCount, State.adcStats_spanReg, State.adcStats_dmdReg]

end

/-! ### A slice that a lane serves without a fault (R109, R146) -/

/-- A port's demodulation but for what point samples and acquisition windows take. -/
def Demod.unsampled (m : Demod) : Demod := { m with points := [], acq := [] }

section
variable (s : State) (d home : Nat) (tag : PeriodTag) (sl : Slice)

theorem State.eccCount_changes (b n : Nat) : Changes [.events] [Reg.AQ_BLK_ECC d b, Reg.AQ_LBQ_EVT d] s (s.eccCount d b n) := by
  unfold State.eccCount
  split
  · exact .refl ..
  · simp +decide [State.lbqEvt]

/-- The counters of a block stand behind the scaling of its die. -/
theorem State.eccCount_sameFront (b n : Nat) : SameFront d s (s.eccCount d b n) :=
  (s.eccCount_changes d b n).sameFront (by decide) (by decide)
    (by simp only [Reg.AQ_DFE_CTL, Reg.AQ_BLK_ECC, Reg.AQ_LBQ_EVT, List.mem_cons, List.not_mem_nil, or_false]; omega)

theorem State.noteTrace_dmd (l : List Traced) : (s.noteTrace d l).dmd = s.dmd :=
  ((State.noteTrace_parts s d l (q0 := [.regs, .copies, .events]) (by decide)).2 (.refl ..)).same .dmd (by decide)

/-- A stored slice is a change of the port's trace alone. -/
theorem State.storeTrace_demod : (s.storeTrace d home tag sl).demod d = { s.demod d with
    trace := (List.range sl.count).foldl (fun t i => tset t (64 * (sl.first + i) + sl.tone)
      (s.traceWord d tag sl.adc sl.tone (sl.first + i)).word) (s.demod d).trace } := by
  simp only [State.storeTrace, State.demod, State.noteTrace_dmd, State.setDemod, tget_tset_same, List.foldl_map]

theorem State.storeTrace_trace {i : Nat} (hi : i < sl.count) :
    tfind ((s.storeTrace d home tag sl).demod d).trace (64 * (sl.first + i) + sl.tone) =
      some (s.traceWord d tag sl.adc sl.tone (sl.first + i)).word := by
  rw [State.storeTrace_demod]
  refine tfind_foldl_tset (key := fun i => 64 * (sl.first + i) + sl.tone)
    (val := fun i => (s.traceWord d tag sl.adc sl.tone (sl.first + i)).word) _ _ (fun j _ hj => ?_) (.inl (List.mem_range.2 hi))
  obtain rfl : j = i := by omega
  rfl

theorem State.acqSlice_unsampled : ((s.acqSlice d sl).demod d).unsampled = (s.demod d).unsampled := by
  simp only [State.acqSlice, State.demod_setDemod, Demod.unsampled]

theorem State.pointSample_unsampled (k j : Nat) : ((s.pointSample tag d home k j).demod d).unsampled = (s.demod d).unsampled := by
  simp only [State.pointSample, State.demod_setDemod, Demod.unsampled]

/-- Changing a lane of a die. -/
theorem State.lane_modLane (i k : Nat) (f : Lane → Lane) :
    (s.modLane d i f).lane d k = if k = i then f (s.lane d i) else s.lane d k := by
  rw [State.modLane, State.lane_setDie, DieLbq.lane, DieLbq.setLane]
  split
  · next hk => rw [hk, tget_tset_same]
  · next hk => exact tget_tset_other _ _ _ hk

theorem State.foldl_pointSample_unsampled (k : Nat) (l : List Nat) : ∀ u : State,
    ((l.foldl (State.pointSample tag d home k) u).demod d).unsampled = (u.demod d).unsampled := by
  induction l with
  | nil => exact fun _ => rfl
  | cons j l ih => exact fun u => (ih _).trans (u.pointSample_unsampled ..)

/-- The samples of a span leave the trace and the references. -/
theorem State.spanSamples_unsampled (k : Nat) :
    ((s.spanSamples d home k tag State.pointSample).demod d).unsampled = (s.demod d).unsampled :=
  State.foldl_pointSample_unsampled d home tag k _ _

/-- Of the lanes, the samples of a span note the period at the span's own. -/
theorem State.spanSamples_lane (k i : Nat) : (s.spanSamples d home k tag State.pointSample).lane d i =
    if i = home then { s.lane d home with period := tag.count } else s.lane d i := by
  have hparts : OnlyParts [.dmd] (s.modLane d home fun l => { l with period := tag.count })
      (s.spanSamples d home k tag State.pointSample) :=
    (foldl_parts fun j u => (State.pointSample_parts tag d home k u j (by decide)).2 (.refl ..)).2 (.refl ..)
  rw [State.lane, State.die, show (s.spanSamples ..).lbq = _ from hparts.same .lbq (by decide)]
  exact State.lane_modLane ..

section
variable {lane : Nat} (hfault : sliceFault sl = none) (hecc : sl.eccUe = false) (hsent : sl.sentinel = 0)
include hfault hecc hsent

/-- What a lane does with a slice that shows no fault (R109, R146). -/
theorem State.laneSlice_of_clean : s.laneSlice d lane home tag sl =
    ((((s.eccCount d (laneBlock lane) sl.ecc).storeTrace d home tag sl).acqSlice d sl).spanSamples d home sl.tone tag
      State.pointSample).modLane d home fun l => { l with passed := l.held.length } := by
  simp only [State.laneSlice, hfault, hecc, hsent, Bool.false_eq_true, if_false, if_true]

/-- The slice leaves its words in the trace, and every reference. -/
theorem State.laneSlice_trace :
    (∀ i, i < sl.count → tfind ((s.laneSlice d lane home tag sl).demod d).trace (64 * (sl.first + i) + sl.tone) =
      some (s.traceWord d tag sl.adc sl.tone (sl.first + i)).word) ∧
    ((s.laneSlice d lane home tag sl).demod d).refs = (s.demod d).refs := by
  rw [s.laneSlice_of_clean d home tag sl hfault hecc hsent]
  generalize hu : s.eccCount d (laneBlock lane) sl.ecc = u
  have hdmd : u.dmd = s.dmd := hu ▸ (s.eccCount_changes ..).parts.same .dmd (by decide)
  have hfront : SameFront d s u := hu ▸ s.eccCount_sameFront ..
  have hkept : ((((u.storeTrace d home tag sl).acqSlice d sl).spanSamples d home sl.tone tag State.pointSample).demod d).unsampled =
      ((u.storeTrace d home tag sl).demod d).unsampled :=
    (State.spanSamples_unsampled ..).trans (State.acqSlice_unsampled ..)
  refine ⟨fun i hi => ?_, (congrArg Demod.refs hkept).trans ?_⟩
  · have htrace := congrArg Demod.trace hkept
    rw [← hfront.traceWord, ← u.storeTrace_trace d home tag sl hi]
    exact congrArg (tfind · _) htrace
  · rw [Demod.unsampled, State.storeTrace_demod, State.demod, hdmd, State.demod]

/-- The slice marks no lane faulty, and the held events of its span as passed. -/
theorem State.laneSlice_lane :
    (∀ i, ((s.laneSlice d lane home tag sl).lane d i).faulty = (s.lane d i).faulty) ∧
    ((s.laneSlice d lane home tag sl).lane d home).passed = (s.lane d home).held.length := by
  rw [s.laneSlice_of_clean d home tag sl hfault hecc hsent]
  generalize hu : ((s.eccCount d (laneBlock lane) sl.ecc).storeTrace d home tag sl).acqSlice d sl = u
  have hparts : OnlyParts [.regs, .copies, .dmd, .events] s u := by subst hu; simp +decide
  have hlane : ∀ i, u.lane d i = s.lane d i := fun i => by
    simp only [State.lane, State.die, show u.lbq = s.lbq from hparts.same .lbq (by decide)]
  refine ⟨fun i => ?_, ?_⟩
  · rw [State.lane_modLane]
    split
    · next hi => rw [State.spanSamples_lane, if_pos rfl, hlane, hi]
    · next hi => rw [State.spanSamples_lane, if_neg hi, hlane]
  · rw [State.lane_modLane, if_pos rfl, State.spanSamples_lane, if_pos rfl, hlane]

end

/-- A lane that serves a span takes the slices of the span's range. -/
theorem State.laneTakes_of_serving {lane : Nat} (htest : (s.lane d lane).test = none) (hok : (s.lane d lane).faulty = false)
    (hserve : s.servedBy d lane = some home) (hrange : (sl.first, sl.count) = s.sliceRange d home) :
    s.laneTakes d lane tag sl = s.laneSlice d lane home tag sl := by
  simp only [State.laneTakes, htest, hok, hserve, hrange, beq_self_eq_true, Bool.false_eq_true, if_false, State.when, if_true]

end

/-- A slice of a period whose samples may not arrive any more changes nothing (log entry 28, deduced). -/
theorem sliceReceived_of_unknown {s : State} {d lane : Nat} {sl : Slice} (h : s.periodTag d sl.adc.period = none) :
    sliceReceived d lane sl s = s := by
  simp only [sliceReceived, h, ite_self]

/-- A slice of a known period meets a lane whose block works. -/
theorem sliceReceived_of_known {s : State} {d lane : Nat} {sl : Slice} {tag : PeriodTag} (hblk : s.blkUp d (laneBlock lane) = true)
    (hen : (s.probe d).live.en = true) (htone : sl.tone < (s.probe d).live.tones) (htag : s.periodTag d sl.adc.period = some tag) :
    sliceReceived d lane sl s = (s.adcStats d sl.adc).laneTakes d lane tag sl := by
  have hup : s.dieUp d = true := by simp [State.blkUp] at hblk; exact hblk.1
  have hnot : ¬(s.probe d).live.tones ≤ sl.tone := Nat.not_le.2 htone
  simp only [sliceReceived, hup, hen, hnot, htag, hblk, State.when, decide_false, Bool.not_true, Bool.or_self,
    Bool.false_eq_true, if_false, if_true]

/-! ### The end of a lane's period (R112, R136) -/

/-- The period's flags of a point have started anew. -/
def Point.fresh (p : Point) : Prop := p.lowq = false ∧ p.active = false ∧ p.seen = false

/-- A point whose period's flags start anew (R120). -/
def Point.restarted (p : Point) (acquires : Bool) : Point :=
  { p with
    brk := p.brk || p.seen && !p.lit, acqBrk := p.acqBrk && (!(p.seen && !p.lit) || acquires)
    lowq := false, active := false, seen := false, lit := false }

section
variable {s : State} {d home : Nat}

theorem State.periodFlags_points (s : State) (d home : Nat) : ((s.periodFlags d home).demod d).points =
    (s.spanPoints d home).foldl (fun t j => tset t j ((tget t {} j).restarted (s.acquires d j))) (s.demod d).points := by
  rw [State.periodFlags, State.demod_setDemod]
  rfl

theorem State.periodFlags_fresh {j : Nat} (hj : j ∈ s.spanPoints d home) :
    (tget ((s.periodFlags d home).demod d).points {} j).fresh := by
  rw [State.periodFlags_points]
  exact tget_foldl_update (f := fun j p => p.restarted (s.acquires d j)) (p := Point.fresh) (fun _ _ => ⟨rfl, rfl, rfl⟩) _ _ (.inl hj)

theorem State.periodFlags_trace {j k : Nat} (hj : j ∈ s.spanPoints d home) (hk : k < 64) :
    tfind ((s.periodFlags d home).demod d).trace (64 * j + k) = none := by
  have hkey : (64 * j + k) / 64 = j := by omega
  simp only [State.periodFlags, State.demod_setDemod]
  exact tfind_filter_none (p := fun key => !(s.spanPoints d home).contains (key / 64)) (by simp [hkey, hj]) _

theorem State.periodFlags_rest (s : State) (d home : Nat) : ((s.periodFlags d home).demod d).refs = (s.demod d).refs ∧
    ((s.periodFlags d home).demod d).noise = (s.demod d).noise := by
  simp only [State.periodFlags, State.demod_setDemod, and_self]

theorem State.refreshSpan_noise (s : State) (d home : Nat) : ((s.refreshSpan d home).demod d).noise = (s.demod d).noise := by
  simp only [State.refreshSpan]
  split
  · rfl
  · rw [State.demod_setDemod]

/-- No reference is refreshed while refresh is off (R112). -/
theorem State.refreshSpan_of_off (h : bitOf (s.reg (Reg.AQ_DMD_REF_CTL d)) 0 = false) : s.refreshSpan d home = s := by
  simp only [State.refreshSpan, h, Bool.not_false, Bool.true_or, if_true]

/-- What a lane that serves a span does before its points' flags start anew. -/
def State.periodServed (s : State) (d lane : Nat) : State :=
  s.when (s.serverOf d lane).isSome fun s => (s.sendEdges d lane).refreshSpan d lane

theorem lanePeriodEnd_eq (s : State) (d lane : Nat) : lanePeriodEnd d lane s = (s.periodServed d lane).periodFlags d lane := rfl

theorem State.periodServed_parts (s : State) (d lane : Nat) : OnlyParts [.dmd, .lbq] s (s.periodServed d lane) := by
  simp +decide [State.periodServed]

theorem State.sendEdges_demod (s : State) (d lane : Nat) : (s.sendEdges d lane).demod d = s.demod d := by
  have hparts : OnlyParts [.lbq] s (s.sendEdges d lane) := (State.sendEdges_parts s d lane (by decide)).2 (.refl ..)
  simp only [State.demod, show (s.sendEdges d lane).dmd = s.dmd from hparts.same .dmd (by decide)]

theorem State.sendEdges_reg (s : State) (d lane a : Nat) : (s.sendEdges d lane).reg a = s.reg a := by
  have hparts : OnlyParts [.lbq] s (s.sendEdges d lane) := (State.sendEdges_parts s d lane (by decide)).2 (.refl ..)
  simp only [State.reg, show (s.sendEdges d lane).regs = s.regs from hparts.same .regs (by decide)]

theorem State.periodServed_spanPoints (s : State) (d lane : Nat) : (s.periodServed d lane).spanPoints d lane = s.spanPoints d lane := by
  have hregs : (s.periodServed d lane).regs = s.regs := (s.periodServed_parts d lane).same .regs (by decide)
  simp only [State.spanPoints, State.spanCount, State.spanFirst, State.reg, hregs]

theorem State.periodServed_noise (s : State) (d lane : Nat) : ((s.periodServed d lane).demod d).noise = (s.demod d).noise := by
  simp only [State.periodServed, State.when]
  split
  · rw [State.refreshSpan_noise, State.sendEdges_demod]
  · rfl

theorem State.periodServed_refs_of_off (lane : Nat) (h : bitOf (s.reg (Reg.AQ_DMD_REF_CTL d)) 0 = false) :
    ((s.periodServed d lane).demod d).refs = (s.demod d).refs := by
  have hoff : (s.sendEdges d lane).refreshSpan d lane = s.sendEdges d lane := State.refreshSpan_of_off (by rw [State.sendEdges_reg, h])
  simp only [State.periodServed, State.when]
  split
  · rw [hoff, State.sendEdges_demod]
  · rfl

end

/-! ### A tail window (R83, R121, R477) -/

/-- Without a limit the period counts as dark, whatever its power (R477; log entry 32, a design choice). -/
theorem ToneNoise.tail_unlimited (n : ToneNoise) (tag : PeriodTag) (power : Rat) (clean : List TraceWord) :
    (n.tail tag power clean none).period = some tag.count ∧ (n.tail tag power clean none).rejects = 0 ∧
      (n.tail tag power clean none).passes = n.passes + 1 := by
  simp only [ToneNoise.tail, Option.any_none, Bool.false_eq_true, if_false, apply_ite ToneNoise.period, apply_ite ToneNoise.rejects,
    apply_ite ToneNoise.passes, ite_self, and_self]

/-- The trace words of a tone's tail window (R83). -/
def State.tailWords (s : State) (d k : Nat) (tag : PeriodTag) (adc : AdcBlock) : List TraceWord :=
  ((s.probe d).live.tailIndices.map (s.traceWord d tag adc k)).map (·.word)

/-- The power that a window's words show: the mean of both polarisations (R477). -/
def tailPower (ws : List TraceWord) : Rat := (meanSquare (ws.map (·.pol 0)) + meanSquare (ws.map (·.pol 1))) / 2

/-- The events of a tail window leave the port's demodulation. -/
theorem State.tailNoted_demod (s : State) (d : Nat) (l : List Traced) (b : Bool) :
    ((s.noteTrace d l).when b (·.setEvt (Reg.AQ_CAL_EVT d) 3)).demod d = s.demod d := by
  have hparts : OnlyParts [.regs, .copies, .events] s ((s.noteTrace d l).when b (·.setEvt (Reg.AQ_CAL_EVT d) 3)) := by simp +decide
  simp only [State.demod, show State.dmd _ = s.dmd from hparts.same .dmd (by decide)]

/-- While no guard noise is known, a tail window without guard samples notes the noise of its own tone alone. -/
theorem State.tailTakes_demod {s : State} {d : Nat} (hguard : (s.demod d).guard = none) (k : Nat) (tag : PeriodTag) (adc : AdcBlock) :
    (s.tailTakes d k tag adc none).demod d = { s.demod d with
      noise := tset (s.demod d).noise k ((tget (s.demod d).noise {} k).tail tag (tailPower (s.tailWords d k tag adc))
        ((s.tailWords d k tag adc).filter (!·.clip)) none) } := by
  refine (State.tailNoted_demod ..).trans ?_
  simp only [State.demod_setDemod, State.guardTakes, hguard, Option.map_none, State.tailWords, tailPower]

/-- A tone's tail window that has closed in a known period, and was not measured yet. -/
theorem tailWindowEnd_of_closed {s : State} {d k : Nat} {adc : AdcBlock} {tag : PeriodTag} (hup : s.dieUp d = true)
    (hen : (s.probe d).live.en = true) (hk : k < (s.probe d).live.tones) (htag : s.periodTag d adc.period = some tag)
    (htime : tag.start + 4 * ((s.probe d).live.offset k + (s.probe d).live.np) ≤ s.fifths)
    (hnew : (tget (s.demod d).noise {} k).period ≠ some tag.count) :
    tailWindowEnd d k adc none s = (s.adcStats d adc).tailTakes d k tag adc none := by
  have hnot : ¬(s.probe d).live.tones ≤ k := Nat.not_le.2 hk
  simp only [tailWindowEnd, hup, hen, hnot, htag, Nat.not_lt.2 htime, hnew, decide_false, Bool.not_true, Bool.or_self,
    Bool.false_eq_true, or_self, if_false, Option.elim_none]

/-- A window is measured once in a period. -/
theorem tailWindowEnd_of_measured {s : State} {d k : Nat} {adc : AdcBlock} {guard : Option AdcBlock} {tag : PeriodTag}
    (htag : s.periodTag d adc.period = some tag) (hdone : (tget (s.demod d).noise {} k).period = some tag.count) :
    tailWindowEnd d k adc guard s = s := by
  simp only [tailWindowEnd, htag, hdone, or_true, if_true, ite_self]

/-- Settles O7: a slice that is served is the store of its words and the samples of its points (`State.laneSlice_of_clean`), on a state
whose front end and spans are as before it (`State.adcStats_sameFront`, `State.adcStats_servedBy`); the end of a period is what a serving
lane does and then the flags' new start; a window without guard samples has no limit to exceed (`ToneNoise.tail_unlimited`). The slice of
an unknown period rests on log entry 28, and the window without guard noise on log entry 32. -/
theorem demodulationProceeds : Obligations.DemodulationProceeds := by
  unfold Obligations.DemodulationProceeds
  refine ⟨?_, ?_, ?_, ?_, ?_, ?_⟩
  case refine_1 =>
    intro dt s e d lane home sl tag he hu hblk hen htone htag htest hok hserve hrange hfault hecc hsent
    refine ⟨_, afterHb_of_up he hu _, ?_⟩
    rw [sliceReceived_of_known hblk hen htone htag]
    generalize hcount : e.adcStats d sl.adc = u
    have hlane : ∀ i, u.lane d i = e.lane d i := hcount ▸ e.adcStats_lane d sl.adc
    have hfront : SameFront d e u := hcount ▸ e.adcStats_sameFront d sl.adc
    rw [u.laneTakes_of_serving d home tag sl (by rw [hlane, htest]) (by rw [hlane, hok])
      (by rw [← hcount, State.adcStats_servedBy, hserve]) (by rw [← hcount, State.adcStats_sliceRange, hrange])]
    obtain ⟨htrace, hrefs⟩ := u.laneSlice_trace d home tag sl (lane := lane) hfault hecc hsent
    obtain ⟨hfaulty, hpassed⟩ := u.laneSlice_lane d home tag sl (lane := lane) hfault hecc hsent
    refine ⟨fun i hi => by rw [htrace i hi, hfront.traceWord], by rw [hpassed, hlane], by rw [hfaulty, hlane, hok], ?_, ?_⟩
    · rw [hrefs, State.demod, ← hcount, State.adcStats_dmd, State.demod]
    · subst hcount
      simp +decide
  case refine_2 =>
    intro dt s e d lane sl he hu htag
    exact (afterHb_of_up he hu _).trans (congrArg _ (sliceReceived_of_unknown htag))
  case refine_3 =>
    intro dt s e d lane he hu
    refine ⟨_, afterHb_of_up he hu _, ?_⟩
    rw [lanePeriodEnd_eq]
    obtain ⟨hrefs, hnoise⟩ := (e.periodServed d lane).periodFlags_rest d lane
    refine ⟨fun j hj => ?_, fun hoff => hrefs.trans (State.periodServed_refs_of_off lane hoff),
      hnoise.trans (e.periodServed_noise d lane), ?_⟩
    · have hspan : j ∈ (e.periodServed d lane).spanPoints d lane := by rwa [State.periodServed_spanPoints]
      obtain ⟨hlowq, hactive, hseen⟩ := State.periodFlags_fresh hspan
      exact ⟨hlowq, hactive, hseen, fun k hk => State.periodFlags_trace hspan hk⟩
    · exact (e.periodServed_parts d lane).trans ((State.periodFlags_parts _ d lane (by decide)).2 (.refl ..))
  case refine_4 =>
    intro dt s e d lane upper r rest he hu hout
    exact (afterHb_of_up he hu _).trans (congrArg _ (by simp only [edgeRecordReceived, hout]))
  case refine_5 =>
    intro dt s e d k adc tag he hu hup hen hk htag htime hnew hguard
    refine ⟨_, afterHb_of_up he hu _, ?_⟩
    rw [tailWindowEnd_of_closed hup hen hk htag htime hnew]
    have hdemod : (e.adcStats d adc).demod d = e.demod d := by simp only [State.demod, State.adcStats_dmd]
    rw [State.tailTakes_demod (by rw [hdemod, hguard]), hdemod]
    simp only [tget_tset_same]
    obtain ⟨hperiod, hrejects, hpasses⟩ := (tget (e.demod d).noise {} k).tail_unlimited tag _ _
    exact ⟨hguard, hperiod, hrejects, hpasses, fun i hi => tget_tset_other _ _ _ hi, trivial, by simp +decide⟩
  case refine_6 =>
    intro dt s e d k adc guard tag he hu htag hdone
    exact (afterHb_of_up he hu _).trans (congrArg _ (tailWindowEnd_of_measured htag hdone))

end Sys2Proof.Machine
end

section
/-!
PROOF. References of a port: their acquisition on request (R114), by windows (R483), its end and its forcing (R484), and the paired
reads of the demodulation (R47, R130).
-/
namespace Sys2Proof.Machine

/-! ### Tables and folds -/

theorem tget_tdel_other {α : Type} (t : Table α) (dflt : α) {k l : Nat} (h : l ≠ k) : tget (tdel t k) dflt l = tget t dflt l := by
  suffices hfind : tfind (tdel t k) l = tfind t l by rw [tget, hfind, tget]
  induction t with
  | nil => rfl
  | cons e t ih =>
    rw [tdel, tfind]
    split
    · next hek => rw [if_neg fun hel => h (hel.symm.trans hek), ih]
    · rw [tfind, ih]

/-- Steps that keep a value keep it in a row. -/
theorem foldl_keeps {α β : Type} {f : State → α → State} {g : State → β} (hf : ∀ u x, g (f u x) = g u) (l : List α) :
    ∀ s : State, g (l.foldl f s) = g s := by
  induction l with
  | nil => exact fun _ => rfl
  | cons x l ih => exact fun s => (ih _).trans (hf s x)

/-- Steps of which none is due leave the state. -/
theorem foldl_when_of_none {α : Type} {c : State → α → Bool} {f : α → State → State} {s : State} (l : List α)
    (h : ∀ x, x ∈ l → c s x = false) : l.foldl (fun u x => u.when (c u x) (f x)) s = s := by
  induction l with
  | nil => rfl
  | cons x l ih =>
    have hstep : s.when (c s x) (f x) = s := if_neg (by simp [h x List.mem_cons_self])
    rw [List.foldl_cons, hstep, ih fun y hy => h y (List.mem_cons_of_mem x hy)]

/-! ### Windows (R483) -/

/-- A window that is not full is not judged. -/
theorem judgeWindow_of_short {n key : Nat} {m : Demod} (h : (tget m.acq {} key).n < n) (kappa : Nat) :
    judgeWindow n kappa key m = m :=
  if_pos (.inl h)

/-- A full window that is coherent enough gives its mean as the reference. -/
theorem judgeWindow_of_coherent {n kappa key : Nat} {m : Demod} (hn : 0 < n) (hfull : n ≤ (tget m.acq {} key).n)
    (hcoh : (kappa : Rat) / 256 * (tget m.acq {} key).mag ≤ (tget m.acq {} key).sum.abs) :
    judgeWindow n kappa key m = { m with
      refs := tset m.refs key (refCode ((tget m.acq {} key).sum.scale (1 / (n : Rat)))), acq := tdel m.acq key } := by
  have hready : ¬((tget m.acq {} key).n < n ∨ n = 0) := by omega
  simp only [judgeWindow, hready, hcoh, decide_true, if_false, if_true]

/-- While the port acquires, the windows of each of its indices are judged, of one polarisation after the other. -/
theorem refWindowEnd_of_acquiring {s : State} {d : Nat} (h : (s.demod d).acquiring.isSome = true) (k j : Nat) :
    refWindowEnd d k j s = s.setDemod d (judgeWindow (s.acqN d) (fld (s.reg (Reg.AQ_CAL_ACQ d)) 13 8) (refKey j k 1)
      (judgeWindow (s.acqN d) (fld (s.reg (Reg.AQ_CAL_ACQ d)) 13 8) (refKey j k 0) (s.demod d))) := by
  have hacq : s.acquires d j = true := by rw [State.acquires, h, Bool.true_or]
  simp only [refWindowEnd, hacq, Bool.not_true, Bool.false_eq_true, if_false]

/-! ### The end of a re-acquisition (R484, R229) -/

section
variable (s : State) (d : Nat)

theorem State.reacqDone_demod : ∃ points, (s.reacqDone d).demod d =
    { s.demod d with acquiring := none, epoch := some s.tc.now, epochValid := true, points := points } :=
  ⟨_, by rw [State.reacqDone, State.demod_setEvt, State.demod_setEvt, State.demod_setDemod]⟩

theorem State.reacqDone_events :
    bitOf ((s.reacqDone d).reg (Reg.AQ_DMD_EVT d)) 0 = true ∧ bitOf ((s.reacqDone d).reg Reg.HB_TPR_EVT) 1 = true := by
  refine ⟨?_, State.bitOf_setEvt _ _ (by decide)⟩
  rw [State.reacqDone, State.reg_setEvt, if_neg (by simp only [Reg.AQ_DMD_EVT, Reg.HB_TPR_EVT]; omega)]
  exact State.bitOf_setEvt _ _ (by decide)

theorem State.reacqDone_changes : Changes [.dmd, .events] [Reg.AQ_DMD_EVT d, Reg.HB_TPR_EVT] s (s.reacqDone d) := by
  simp +decide [State.reacqDone]

end

/-- Once every working span is acquired, the port's re-acquisition completes; no block acquires on its own. -/
theorem reacqComplete_of_acquired {s : State} {d : Nat} (hacq : (s.demod d).acquiring.isSome = true)
    (hblk : ∀ b, b < 32 → (s.blk d b).acquiring = none) (hspan : ∀ i, i ∈ s.workingSpans d → s.spanAcquired d i = true) :
    reacqComplete d s = (s.setDemod d { s.demod d with forced := 0 }).reacqDone d := by
  have hall : (s.workingSpans d).all (s.spanAcquired d ·) = true := List.all_eq_true.2 hspan
  rw [reacqComplete, foldl_when_of_none blockNumbers fun b hb => by rw [hblk b (List.mem_range.1 hb)]; rfl]
  simp only [hacq, hall, Bool.and_self, if_true]

/-! ### Forcing (R484) -/

/-- Forcing keeps every reference that there is. -/
theorem forceRefs_refs {m : Demod} {key : Nat} {c : Word} (inSpan : Nat → Bool) (h : tfind m.refs key = some c) :
    tfind (forceRefs inSpan m).1.refs key = some c := by
  refine tfind_foldl_tset (key := Prod.fst) (val := Prod.snd) (x := (key, c)) _ _ (fun y hy hkey => ?_) (.inr h)
  obtain ⟨⟨key', w⟩, -, htake⟩ := List.mem_filterMap.1 hy
  dsimp only at htake
  split at htake
  · split at htake
    · next hnone =>
      cases htake
      obtain rfl : key' = key := hkey
      simp [h] at hnone
    · cases htake
  · cases htake

/-- Forcing every index leaves no window. -/
theorem forceRefs_acq_of_all (m : Demod) : (forceRefs (fun _ => true) m).1.acq = [] :=
  List.filter_eq_nil_iff.2 fun _ _ => by simp

section
variable (s : State) (d : Nat) (inSpan : Nat → Bool)

theorem State.forceAcq_demod : ∃ n, (s.forceAcq d inSpan).demod d = { (forceRefs inSpan (s.demod d)).1 with forced := n } := by
  simp only [State.forceAcq, State.when]
  split
  · exact ⟨_, by rw [State.demod_setEvt, State.demod_setDemod]⟩
  · exact ⟨_, State.demod_setDemod ..⟩

theorem State.forceAcq_changes : Changes [.dmd, .events] [Reg.AQ_CAL_EVT d] s (s.forceAcq d inSpan) := by
  simp +decide [State.forceAcq]

theorem State.forceAcq_tc : (s.forceAcq d inSpan).tc = s.tc := ((s.forceAcq_changes d inSpan).parts.same .time (by decide)).2

end

/-- 10 s after the port's acquisition started, its indices are forced and it completes; no block acquires on its own. -/
theorem reacqForce_of_due {s : State} {d t0 : Nat} (hacq : (s.demod d).acquiring = some t0) (htime : 10000000000 ≤ s.now - t0)
    (hblk : ∀ b, b < 32 → (s.blk d b).acquiring = none) : reacqForce d s = (s.forceAcq d fun _ => true).reacqDone d := by
  have hdue : decide (ms 10000 ≤ s.now - t0) = true := decide_eq_true (by simpa only [ms, Nat.reduceMul] using htime)
  rw [reacqForce, foldl_when_of_none blockNumbers fun b hb => by rw [hblk b (List.mem_range.1 hb)]]
  simp only [hacq, hdue, if_true]

/-! ### A request (R114, R129) -/

theorem Demod.unsampled_points (m : Demod) (points : Table Point) : { m with points := points }.unsampled = m.unsampled := rfl

theorem State.spanBreak_unsampled (s : State) (d home : Nat) : ((s.spanBreak d home).demod d).unsampled = (s.demod d).unsampled := by
  simp only [State.spanBreak, State.demod_setDemod, Demod.unsampled]

/-- A re-acquisition starts without references, and leaves the epoch. -/
theorem State.reacquire_unsampled (s : State) (d : Nat) : ((s.reacquire d).demod d).unsampled =
    { s.demod d with refs := [], epochValid := false, acquiring := some s.now }.unsampled := by
  have hspans := foldl_keeps (g := fun u : State => (u.demod d).unsampled) fun u i => u.spanBreak_unsampled d i
  have hblocks := foldl_keeps (g := fun u : State => (u.demod d).unsampled) (f := fun u b =>
    u.when (u.blk d b).acquiring.isSome (·.modBlk d b fun x => { x with acquiring := none })) fun u b => by
      simp only [State.when]
      split <;> rfl
  rw [State.reacquire, State.demod_setEvt, State.demod_setDemod, Demod.unsampled_points, hblocks, hspans, State.demod_setDemod]
  rfl

/-- A write of AQn_DMD_REF_CTL with REACQ 1, of a port that is enabled, waits for a period start, and the acquisition starts at once. -/
theorem dmdWrite_reacq {s : State} {d : Nat} {v w : Word} (hq : s.dev.quiet = true) (hen : s.portEnabled d = true)
    (hidle : (s.demod d).acquiring = none) (hstored : dmdStored 0x4C v = some w) (hv : bitOf v 1 = true) (m : Master) :
    dmdWrite s m d 0x4C v =
      (s.setDemod d { s.demod d with staged := tset (s.demod d).staged (Reg.AQ_DMD_REF_CTL d) w }).reacquire d := by
  have haddr : Reg.AQ_DFE_CTL d + 0x4C = Reg.AQ_DMD_REF_CTL d := by simp only [Reg.AQ_DFE_CTL, Reg.AQ_DMD_REF_CTL]; omega
  have hen' : ∀ x, (s.setDemod d x).portEnabled d = true := fun _ => hen
  simp +decide [dmdWrite, hq, hstored, hv, State.when, hen', State.reacqRequest, hidle, haddr]

/-- The value that DMD_REACQ_REQUEST writes into AQn_DMD_REF_CTL showing `w`. -/
def reacqWord (w : Word) : Word := w ||| 2

theorem reacqWord_reacq (w : Word) : bitOf (reacqWord w) 1 = true := by simp [bitOf, reacqWord]

theorem reacqWord_hold (w : Word) : fld (reacqWord w) 8 8 = fld w 8 8 := by
  simp only [fld, reacqWord, BitVec.toNat_or, Nat.or_div_two_pow]
  simp

theorem reacqWord_stored {w : Word} (h : 1 ≤ fld w 8 8) : ∃ v, dmdStored 0x4C (reacqWord w) = some v := by
  rw [← reacqWord_hold] at h
  exact ⟨word [(0, 1, fld (reacqWord w) 0 1), (8, 8, fld (reacqWord w) 8 8)], by simp [dmdStored, h]⟩

/-- The words of a port's demodulation among the blocks of the window. -/
theorem blockOf_dmd {d : Nat} (hd : d < 4) :
    blockOf (Reg.AQ_DMD_REF_CTL d) = some (.dmd, d, 0x4C) ∧ blockOf (Reg.AQ_DMD_EPOCH_LO d) = some (.dmd, d, 0x54) ∧
      blockOf (Reg.AQ_DMD_PROBE_LO d) = some (.dmd, d, 0x68) := by
  have h : ∀ d < 4, blockOf (Reg.AQ_DMD_REF_CTL d) = some (.dmd, d, 0x4C) ∧
      blockOf (Reg.AQ_DMD_EPOCH_LO d) = some (.dmd, d, 0x54) ∧ blockOf (Reg.AQ_DMD_PROBE_LO d) = some (.dmd, d, 0x68) := by decide
  exact h d hd

/-- What AQn_DMD_REF_CTL shows has no reserved bit, and neither has the request made of it. -/
theorem reacqWord_reserved {d : Nat} (hd : d < 4) (s : State) (m : Master) :
    hitsReserved .dmd 0x4C ⟨0x4C, 0, 1, .rw, 0⟩ (reacqWord (s.peek m (Reg.AQ_DMD_REF_CTL d))) = false := by
  have hmask : ~~~(reservedBits .dmd 0x4C ||| structReserved .dmd 0x4C) &&& reservedBits .dmd 0x4C = 0 := by decide
  have hbit : (2 : Word) &&& reservedBits .dmd 0x4C = 0 := by decide
  have hshown : s.peek m (Reg.AQ_DMD_REF_CTL d) &&& reservedBits .dmd 0x4C = 0 := by
    rw [State.peek_of (blockOf_dmd hd).1 (row := ⟨0x4C, 0, 1, .rw, 0⟩) rfl, State.regValue]
    split
    · exact BitVec.zero_and
    · rw [BitVec.and_assoc, hmask]
      exact BitVec.and_zero
  have hclean : reacqWord (s.peek m (Reg.AQ_DMD_REF_CTL d)) &&& reservedBits .dmd 0x4C = 0 := by
    rw [reacqWord, BitVec.and_or_distrib_right, hshown, hbit]
    rfl
  simp only [hitsReserved, hclean, bne_self_eq_false, Bool.and_false]

section
variable {s e : State} {dt : Nat} {m : Master} {d : Nat} (he : s.elapse dt = e) (hu : e.boot.up = true) (hd : d < 4)
include he hu hd

/-- DMD_REACQ_REQUEST of an enabled port that does not acquire stages the register and starts the acquisition. -/
theorem exec_dmdReacqRequest (hm : e.mayWrite m (Reg.AQ_DMD_REF_CTL d) = true) (hq : e.dev.quiet = true)
    (hhold : 1 ≤ fld (e.peek m (Reg.AQ_DMD_REF_CTL d)) 8 8) (hen : e.portEnabled d = true) (hidle : (e.demod d).acquiring = none) :
    ∃ w, exec (.dmdReacqRequest dt m d) s = .next
      ((e.setDemod d { e.demod d with staged := tset (e.demod d).staged (Reg.AQ_DMD_REF_CTL d) w }).reacquire d) := by
  obtain ⟨w, hstored⟩ := reacqWord_stored hhold
  have hlisted : e.listedWrite m (Reg.AQ_DMD_REF_CTL d) .dmd d 0x4C ⟨0x4C, 0, 1, .rw, 0⟩
      (reacqWord (e.peek m (Reg.AQ_DMD_REF_CTL d))) true =
      some ((e.setDemod d { e.demod d with staged := tset (e.demod d).staged (Reg.AQ_DMD_REF_CTL d) w }).reacquire d) := by
    rw [← dmdWrite_reacq hq hen hidle hstored (reacqWord_reacq _) m]
    simp only [State.listedWrite, reacqWord_reserved hd, State.regWrite, Bool.false_eq_true, if_false, reduceCtorEq, false_and]
  have hrow := State.writeRow_of_mayWrite (v := fun s => reacqWord (s.peek m (Reg.AQ_DMD_REF_CTL d))) he hu hm (blockOf_dmd hd).1 rfl
  rw [hlisted] at hrow
  exact ⟨w, hrow⟩

end

/-- Settles O8: a request starts the acquisition of `State.reacquire_unsampled`, a window gives its reference by
`judgeWindow_of_coherent`, both ends are `State.reacqDone`, and a paired read is the latch of its register. -/
theorem referencesAreAcquired : Obligations.ReferencesAreAcquired := by
  unfold Obligations.ReferencesAreAcquired
  refine ⟨?request, ?window, ?complete, ?force, ?probe, ?epoch⟩
  case request =>
    intro dt s e m d he hu hd hm hq hhold hen hidle
    obtain ⟨w, hrow⟩ := exec_dmdReacqRequest he hu hd hm hq hhold hen hidle
    refine ⟨_, hrow, ?_⟩
    generalize hstaged : e.setDemod d { e.demod d with staged := tset (e.demod d).staged (Reg.AQ_DMD_REF_CTL d) w } = u
    have hstart := u.reacquire_unsampled d
    subst hstaged
    rw [State.demod_setDemod] at hstart
    exact ⟨congrArg Demod.acquiring hstart, congrArg Demod.refs hstart, congrArg Demod.epochValid hstart, (congrArg Demod.epoch hstart :),
      State.bitOf_setEvt _ _ (by decide)⟩
  case window =>
    intro dt s e d k j he hu hacq hn hfull hshort hcoh
    refine (afterHb_of_up he hu _).trans (congrArg _ ?_)
    have hkey : refKey j k 1 ≠ refKey j k 0 := by simp only [refKey]; omega
    rw [refWindowEnd_of_acquiring hacq, judgeWindow_of_coherent hn hfull hcoh,
      judgeWindow_of_short (by rw [tget_tdel_other _ _ hkey]; exact hshort)]
  case complete =>
    intro dt s e d he hu hacq hblk hspan
    refine ⟨_, afterHb_of_up he hu _, ?_⟩
    rw [reacqComplete_of_acquired hacq hblk hspan]
    obtain ⟨points, hdone⟩ := State.reacqDone_demod (e.setDemod d { e.demod d with forced := 0 }) d
    obtain ⟨hdmd, htpr⟩ := State.reacqDone_events (e.setDemod d { e.demod d with forced := 0 }) d
    rw [State.demod_setDemod] at hdone
    rw [hdone]
    exact ⟨rfl, rfl, rfl, rfl, hdmd, htpr, ((State.setDemod_changes _ _ _ (by decide)).2 (.refl ..)).trans (State.reacqDone_changes ..)⟩
  case force =>
    intro dt s e d t0 he hu hacq htime hblk
    refine ⟨_, afterHb_of_up he hu _, ?_⟩
    rw [reacqForce_of_due hacq htime hblk]
    obtain ⟨n, hforced⟩ := e.forceAcq_demod d fun _ => true
    obtain ⟨points, hdone⟩ := (e.forceAcq d fun _ => true).reacqDone_demod d
    rw [hforced, State.forceAcq_tc] at hdone
    rw [hdone]
    refine ⟨rfl, forceRefs_acq_of_all _, rfl, rfl, fun key c hc => forceRefs_refs (fun _ => true) hc, ?_⟩
    exact ((e.forceAcq_changes d _).mono (by decide) (by simp)).trans ((State.reacqDone_changes ..).mono (by decide) (by simp))
  case probe =>
    intro dt s e m d he hu hd hm
    exact State.readRow_of_mayRead he hu hm (blockOf_dmd hd).2.2 rfl
  case epoch =>
    intro dt s e m d he hu hd hm
    exact State.readRow_of_mayRead he hu hm (blockOf_dmd hd).2.1 rfl

end Sys2Proof.Machine
end

section
/-!
PROOF. The commands of AQn_LBQ_CMD (R160 to R163): returns of lanes, blocks and quarters, and Maintenance alone for the last two.
-/
namespace Sys2Proof.Machine

/-! ### The word of a command -/

/-- A word below the reserved bits of its register may be written. -/
theorem hitsReserved_of_lt {b : Block} {o k : Nat} {v : Word} (hv : v.toNat < 2 ^ k)
    (hmask : ∀ i, i < k → (reservedBits b o).getLsbD i = false) (row : RegRow) : hitsReserved b o row v = false := by
  have hclean : v &&& reservedBits b o = 0 := by
    refine BitVec.eq_of_getLsbD_eq fun i _ => ?_
    rw [BitVec.getLsbD_and]
    by_cases hik : i < k
    · rw [hmask i hik, Bool.and_false]
      exact BitVec.getLsbD_zero.symm
    · rw [BitVec.getLsbD, Nat.testBit_lt_two_pow (hv.trans_le (Nat.pow_le_pow_right (by decide) (Nat.not_lt.1 hik))), Bool.false_and]
      exact BitVec.getLsbD_zero.symm
  simp only [hitsReserved, hclean, bne_self_eq_false, Bool.and_false]

theorem lbqWord_toNat (op level index : Nat) : (lbqWord op level index).toNat = op % 4 + 4 * (level % 4) + 16 * (index % 512) := by
  simp only [lbqWord, word, List.foldl_cons, List.foldl_nil, BitVec.toNat_ofNat, Nat.reducePow]
  omega

theorem lbqWord_fields {op level index : Nat} (hop : op < 4) (hlevel : level < 4) (hindex : index < 512) :
    fld (lbqWord op level index) 0 2 = op ∧ fld (lbqWord op level index) 2 2 = level ∧ fld (lbqWord op level index) 4 9 = index := by
  simp only [fld, lbqWord_toNat, Nat.reducePow]
  omega

theorem lbqWord_reserved (op level index : Nat) (row : RegRow) : hitsReserved .lbq 8 row (lbqWord op level index) = false :=
  hitsReserved_of_lt (k := 13) (by rw [lbqWord_toNat]; omega) (by decide) row

theorem blockOf_lbqCmd {d : Nat} (hd : d < 4) : blockOf (Reg.AQ_LBQ_CMD d) = some (.lbq, d, 8) := by
  have h : ∀ d < 4, blockOf (Reg.AQ_LBQ_CMD d) = some (.lbq, d, 8) := by decide
  exact h d hd

theorem lbqTarget_lt {level index : Nat} {t : LbqTarget} (h : lbqTarget level index = some t) : level < 4 ∧ index < 512 := by
  unfold lbqTarget at h
  split at h
  · omega
  · split at h
    · omega
    · split at h
      · omega
      · cases h

/-! ### What the die makes of a command while no return is in hand (R162) -/

/-- A command has come: a BUSY that an ignored one had left no longer stays. -/
def State.lbqHeard (s : State) (d : Nat) : State := s.setDie d { s.die d with kept := false }

/-- The return of a lane, block or quarter. -/
def State.lbqReturn (s : State) (d : Nat) : LbqTarget → State
  | .lane i => s.returnLane d i
  | .block b => s.returnBlock d b
  | .quarter q => s.returnQuarter d q

theorem State.die_lbqHeard (s : State) (d : Nat) : (s.lbqHeard d).die d = { s.die d with kept := false } := State.die_setDie ..

theorem State.lane_lbqHeard (s : State) (d i : Nat) : (s.lbqHeard d).lane d i = s.lane d i := State.lane_setDie ..

theorem State.blk_lbqHeard (s : State) (d b : Nat) : (s.lbqHeard d).blk d b = s.blk d b := State.blk_setDie ..

theorem State.qtr_lbqHeard (s : State) (d q : Nat) : ((s.lbqHeard d).die d).qtr q = (s.die d).qtr q :=
  congrArg (·.qtr q) (s.die_lbqHeard d)

theorem State.dieUp_lbqHeard (s : State) (d : Nat) : (s.lbqHeard d).dieUp d = s.dieUp d := by
  simp only [State.dieUp, State.die_lbqHeard]

theorem State.lbqHeard_parts (s : State) (d : Nat) : OnlyParts [.lbq] s (s.lbqHeard d) :=
  (State.setDie_parts _ _ _ (by decide)).2 (.refl ..)

theorem State.lbqHeard_changes (s : State) (d : Nat) : Changes [.lbq, .events] [Reg.AQ_LBQ_EVT d] s (s.lbqHeard d) :=
  (State.setDie_changes _ _ _ (by decide)).2 (.refl ..)

section
variable {s : State} {d level index : Nat} {t : LbqTarget} (hidle : (s.die d).busy = none) (ht : lbqTarget level index = some t)
include hidle ht

theorem State.lbqCmd_return : s.lbqCmd d (lbqWord 0 level index) = (s.lbqHeard d).lbqReturn d t := by
  obtain ⟨hlevel, hindex⟩ := lbqTarget_lt ht
  obtain ⟨hop, hl, hi⟩ := lbqWord_fields (op := 0) (by decide) hlevel hindex
  unfold State.lbqCmd
  rw [hop, hl, hi, ht]
  refine (if_neg (by simp [hidle])).trans ?_
  cases t <;> rfl

theorem State.lbqCmd_inject : s.lbqCmd d (lbqWord 1 level index) = (s.lbqHeard d).inject d t := by
  obtain ⟨hlevel, hindex⟩ := lbqTarget_lt ht
  obtain ⟨hop, hl, hi⟩ := lbqWord_fields (op := 1) (by decide) hlevel hindex
  unfold State.lbqCmd
  rw [hop, hl, hi, ht]
  refine (if_neg (by simp [hidle])).trans ?_
  cases t <;> rfl

end

section
variable {s e : State} {dt d : Nat} {m : Master} (he : s.elapse dt = e) (hu : e.boot.up = true) (hd : d < 4)
  (hm : e.mayWrite m (Reg.AQ_LBQ_CMD d) = true)
include he hu hd hm

theorem State.writeRow_lbqCmd (op level index : Nat) :
    s.writeRow dt m (Reg.AQ_LBQ_CMD d) (fun _ => lbqWord op level index) = .next (e.lbqCmd d (lbqWord op level index)) := by
  have hlisted : e.listedWrite m (Reg.AQ_LBQ_CMD d) .lbq d 8 ⟨8, 0, 1, .wo, 0⟩ (lbqWord op level index) true =
      some (e.lbqCmd d (lbqWord op level index)) := by
    simp only [State.listedWrite, lbqWord_reserved, State.regWrite, lbqWrite, Bool.false_eq_true, if_false, reduceCtorEq, false_and,
      if_true]
  rw [State.writeRow_of_mayWrite he hu hm (blockOf_lbqCmd hd) rfl, hlisted]

variable (hidle : (e.die d).busy = none)
include hidle

theorem exec_lbqReturnLane {i : Nat} (hi : i < 288) : exec (.lbqReturnLane dt m d i) s = .next ((e.lbqHeard d).returnLane d i) :=
  (State.writeRow_lbqCmd he hu hd hm 0 0 i).trans
    (congrArg _ (State.lbqCmd_return hidle (t := .lane i) (by simp [lbqTarget, hi])))

theorem exec_lbqReturnBlock {b : Nat} (hb : b < 32) : exec (.lbqReturnBlock dt m d b) s = .next ((e.lbqHeard d).returnBlock d b) :=
  (State.writeRow_lbqCmd he hu hd hm 0 1 b).trans
    (congrArg _ (State.lbqCmd_return hidle (t := .block b) (by simp [lbqTarget, hb])))

theorem exec_lbqReturnQuarter {q : Nat} (hq : q < 8) :
    exec (.lbqReturnQuarter dt m d q) s = .next ((e.lbqHeard d).returnQuarter d q) :=
  (State.writeRow_lbqCmd he hu hd hm 0 2 q).trans
    (congrArg _ (State.lbqCmd_return hidle (t := .quarter q) (by simp [lbqTarget, hq])))

theorem exec_lbqInject {level index : Nat} {t : LbqTarget} (ht : lbqTarget level index = some t) :
    exec (.lbqInject dt m d level index) s = .next ((e.lbqHeard d).inject d t) :=
  (State.writeRow_lbqCmd he hu hd hm 1 level index).trans (congrArg _ (State.lbqCmd_inject hidle ht))

end

/-! ### Refusals (R161) -/

/-- What a command that Maintenance alone takes leaves in another state: its result and CMD_REFUSED, and every unit. -/
structure LbqRefused (d : Nat) (s t : State) : Prop where
  result : (t.die d).result = 1
  shown : bitOf (t.reg (Reg.AQ_LBQ_EVT d)) 8 = true
  blks : ∀ k, t.blk d k = s.blk d k
  lanes : ∀ k, t.lane d k = s.lane d k
  qtrs : ∀ k, (t.die d).qtr k = (s.die d).qtr k
  frozen : t.frozen = s.frozen

theorem State.lbqHeard_refused (s : State) (d : Nat) : LbqRefused d s ((s.lbqHeard d).lbqRefuse d 1 true) := by
  have hdie : ((s.lbqHeard d).lbqRefuse d 1 true).die d = { s.die d with kept := false, result := 1 } := by
    simp only [State.lbqRefuse, State.when, if_true, State.die_lbqEvt, State.die_setDie, State.die_lbqHeard, DieLbq.setResult,
      Bool.false_eq_true, if_false]
  have hparts : OnlyParts [.regs, .copies, .lbq, .events] s ((s.lbqHeard d).lbqRefuse d 1 true) :=
    (State.lbqRefuse_parts _ _ _ _ (by decide)).2 (s.lbqHeard_parts d |>.mono (by decide))
  exact {
    result := by rw [hdie]
    shown := State.lbqEvt_set _ d (by decide)
    blks := fun k => congrArg (·.blk k) hdie
    lanes := fun k => congrArg (·.lane k) hdie
    qtrs := fun k => congrArg (·.qtr k) hdie
    frozen := (hparts.same .freeze (by decide)).1 }

/-! ### Returns of blocks and quarters in Maintenance (R161) -/

/-- A return that has begun holds the die until it ends. -/
structure ReturnBegun (d : Nat) (target : LbqTarget) (s t : State) : Prop where
  busy : (t.die d).busy = some target
  result : (t.die d).result = 0
  parts : OnlyParts [.lbq] s t

section
variable {s : State} {d : Nat} (hdev : s.dev = .maintenance)
include hdev

theorem State.returnBlock_begins {b : Nat} (hb : (s.blk d b).st = .faulty) (hq : ((s.die d).qtr (blockQuarter b)).st ≠ .faulty) :
    ((s.returnBlock d b).blk d b).st = .returning ∧ (∀ k, k ≠ b → (s.returnBlock d b).blk d k = s.blk d k) ∧
      ReturnBegun d (.block b) s (s.returnBlock d b) := by
  have hrow : s.returnBlock d b =
      (s.blockReturning d b).setDie d { (s.blockReturning d b).die d with busy := some (.block b), result := 0 } := by
    simp only [State.returnBlock, hdev, hb, hq, ne_eq, not_true_eq_false, if_false]
  obtain ⟨hsame, hother, -, -⟩ := s.modBlk_frame d b fun x => { x with st := .returning }
  rw [hrow, State.blk_setDie]
  refine ⟨congrArg Blk.st hsame, fun k hk => (State.blk_setDie ..).trans (hother k hk), ?_, ?_, by simp +decide⟩ <;>
    rw [State.die_setDie]

end

theorem State.mem_quarterBlocks {s : State} {d q b : Nat} {st : UnitState} :
    b ∈ s.quarterBlocks d q st ↔ blockQuarter b = q ∧ (s.blk d b).st = st ∧ (s.blk d b).cause = 6 := by
  have hin : b ∈ (List.range 4).map (4 * q + ·) ↔ blockQuarter b = q := by
    simp only [List.mem_map, List.mem_range, blockQuarter]
    exact ⟨fun ⟨i, hi, h⟩ => by omega, fun h => ⟨b % 4, by omega, by omega⟩⟩
  simp only [State.quarterBlocks, List.mem_filter, hin, Bool.and_eq_true, beq_iff_eq]

/-- Blocks of a list begin their return, and no other does. -/
theorem State.foldl_blockReturning (d : Nat) (l : List Nat) : ∀ s : State,
    (∀ b, b ∈ l ∨ (s.blk d b).st = .returning → ((l.foldl (fun s b => s.blockReturning d b) s).blk d b).st = .returning) ∧
      ∀ b, b ∉ l → (l.foldl (fun s b => s.blockReturning d b) s).blk d b = s.blk d b := by
  induction l with
  | nil => exact fun s => ⟨fun b h => h.resolve_left (by simp), fun _ _ => rfl⟩
  | cons c l ih =>
    intro s
    obtain ⟨hin, hout⟩ := ih (s.blockReturning d c)
    obtain ⟨hsame, hother, -, -⟩ := s.modBlk_frame d c fun x => { x with st := .returning }
    refine ⟨fun b hb => ?_, fun b hb => ?_⟩
    · by_cases hbc : b = c
      · exact hin b (.inr (by rw [hbc]; exact congrArg Blk.st hsame))
      · refine hin b (hb.imp (fun h => (List.mem_cons.1 h).resolve_left hbc) fun h => ?_)
        exact (congrArg Blk.st (hother b hbc)).trans h
    · rw [List.mem_cons, not_or] at hb
      exact (hout b hb.2).trans (hother b hb.1)

section
variable {s : State} {d q : Nat} (hdev : s.dev = .maintenance) (hq : ((s.die d).qtr q).st = .faulty)
include hdev hq

/-- The blocks that have failed with their quarter begin their return with it, and no other block. -/
theorem State.returnQuarter_blks :
    (∀ b, blockQuarter b = q → (s.blk d b).st = .faulty → (s.blk d b).cause = 6 → ((s.returnQuarter d q).blk d b).st = .returning) ∧
      ∀ b, blockQuarter b ≠ q → (s.returnQuarter d q).blk d b = s.blk d b := by
  obtain ⟨hin, hout⟩ := State.foldl_blockReturning d (s.quarterBlocks d q .faulty) s
  have hblk : ∀ b, (s.returnQuarter d q).blk d b =
      ((s.quarterBlocks d q .faulty).foldl (fun s b => s.blockReturning d b) s).blk d b := by
    intro b
    simp only [State.returnQuarter, hdev, hq, ne_eq, not_true_eq_false, if_false]
    split
    · rw [State.blk, State.die_lbqEvt, State.die_setDie]
      rfl
    · rw [State.blk_setDie]
      rfl
  refine ⟨fun b hb hst hc => ?_, fun b hb => (hblk b).trans (hout b fun h => hb (State.mem_quarterBlocks.1 h).1)⟩
  rw [hblk]
  exact hin b (.inl (State.mem_quarterBlocks.2 ⟨hb, hst, hc⟩))

/-- The quarter's sequencer is reset. -/
theorem State.returnQuarter_qtr : (((s.returnQuarter d q).die d).qtr q).st ≠ .faulty := by
  simp only [State.returnQuarter, hdev, hq, ne_eq, not_true_eq_false, if_false]
  split
  · rw [State.die_lbqEvt, State.die_setDie]
    simp [DieLbq.qtr, DieLbq.setQtr]
  · rw [State.die_setDie]
    simp [DieLbq.qtr, DieLbq.setQtr]

end

/-- Settles O44: in Maintenance both commands begin the return, and in every other state both are the one refusal of `LbqRefused`. -/
theorem unitsReturnInMaintenance : Obligations.UnitsReturnInMaintenance := by
  unfold Obligations.UnitsReturnInMaintenance
  intro dt s e m d he hu hd hm hidle
  obtain ⟨hresult, hshown, hblks, hlanes, hqtrs, hfrozen⟩ := e.lbqHeard_refused d
  refine ⟨fun b hb hst hqst => ⟨_, exec_lbqReturnBlock he hu hd hm hidle hb, fun hdev => ?_, fun hdev => ?_⟩,
    fun q hq hqst => ⟨_, exec_lbqReturnQuarter he hu hd hm hidle hq, fun hdev => ?_, fun hdev => ?_⟩⟩
  · obtain ⟨hret, -, hbegun⟩ := State.returnBlock_begins (s := e.lbqHeard d) hdev (by rwa [State.blk_lbqHeard])
      (by rwa [State.qtr_lbqHeard])
    exact ⟨hret, hbegun.busy⟩
  · have hrow : (e.lbqHeard d).returnBlock d b = (e.lbqHeard d).lbqRefuse d 1 true := if_pos hdev
    rw [hrow]
    exact ⟨hresult, hshown, hblks, hlanes, hqtrs, hfrozen⟩
  · have hfaulty : (((e.lbqHeard d).die d).qtr q).st = .faulty := by rwa [State.qtr_lbqHeard]
    refine ⟨State.returnQuarter_qtr (s := e.lbqHeard d) hdev hfaulty, fun b hbq hbst hc _ => ?_⟩
    exact (State.returnQuarter_blks (s := e.lbqHeard d) hdev hfaulty).1 b hbq (by rwa [State.blk_lbqHeard]) (by rwa [State.blk_lbqHeard])
  · have hrow : (e.lbqHeard d).returnQuarter d q = (e.lbqHeard d).lbqRefuse d 1 true := if_pos hdev
    rw [hrow]
    exact ⟨hresult, hshown, hblks, hlanes, hqtrs, hfrozen⟩

end Sys2Proof.Machine
end

section
/-!
PROOF. Returns to service and injected faults of lanes, blocks and quarters (R153, R160 to R163).
-/
namespace Sys2Proof.Machine

/-! ### Lanes -/

theorem laneBlock_of_mem {i b : Nat} (h : i ∈ blockLanes b) : laneBlock i = b := by
  simp only [blockLanes, List.mem_map, List.mem_range] at h
  obtain ⟨k, hk, rfl⟩ := h
  simp only [laneBlock]
  omega

theorem State.lane_modLane_same (s : State) (d i : Nat) (f : Lane → Lane) : (s.modLane d i f).lane d i = f (s.lane d i) :=
  (s.lane_modLane d i i f).trans (if_pos rfl)

theorem State.modLane_unitless (s : State) (d i : Nat) (f : Lane → Lane) :
    ((s.modLane d i f).die d).unitless = (s.die d).unitless := by
  simp only [State.modLane, State.die_setDie]
  rfl

theorem State.modLane_blk (s : State) (d i : Nat) (f : Lane → Lane) (b : Nat) : (s.modLane d i f).blk d b = s.blk d b :=
  State.blk_setDie ..

theorem State.foldl_modLane_unitless (d : Nat) (f : State → Nat → Lane → Lane) (l : List Nat) (s : State) :
    ((l.foldl (fun s i => s.modLane d i (f s i)) s).die d).unitless = (s.die d).unitless :=
  (congrArg DieLbq.unitless (State.foldl_modLane_die d f l s).1 :)

/-- Lanes of which each becomes the same. -/
theorem State.foldl_modLane_const (d : Nat) (x : Lane) (l : List Nat) : ∀ s : State,
    ∀ i, i ∈ l ∨ s.lane d i = x → (l.foldl (fun s i => s.modLane d i fun _ => x) s).lane d i = x := by
  induction l with
  | nil => exact fun s i h => h.resolve_left (by simp)
  | cons j l ih =>
    refine fun s i h => ih _ i ?_
    rw [State.lane_modLane]
    by_cases hij : i = j
    · exact .inr (if_pos hij)
    · rw [if_neg hij]
      exact h.imp_left fun h => (List.mem_cons.1 h).resolve_left hij

/-! ### The end of a return (R162) -/

/-- What the end of a return leaves, once no ignored command's BUSY stays. -/
structure ReturnEnded (d r : Nat) (s t : State) : Prop where
  lanes : ∀ i, t.lane d i = s.lane d i
  blks : ∀ b, t.blk d b = s.blk d b
  busy : (t.die d).busy = none
  result : (t.die d).result = r
  shown : bitOf (t.reg (Reg.AQ_LBQ_EVT d)) (if r = 0 then 5 else 6) = true
  changes : Changes [.lbq, .events] [Reg.AQ_LBQ_EVT d] s t

theorem State.returnEnds_ended {s : State} {d : Nat} (hkept : (s.die d).kept = false) (r : Nat) :
    ReturnEnded d r s (s.returnEnds d r) := by
  have hdie : (s.returnEnds d r).die d = { s.die d with busy := none, result := r } := by
    simp only [State.returnEnds, State.die_lbqEvt, State.die_setDie, DieLbq.setResult, hkept, Bool.false_eq_true, if_false]
  exact {
    lanes := fun i => congrArg (·.lane i) hdie
    blks := fun b => congrArg (·.blk b) hdie
    busy := congrArg DieLbq.busy hdie
    result := congrArg DieLbq.result hdie
    shown := State.lbqEvt_set _ _ (by split <;> decide)
    changes := s.returnEnds_changes d r }

/-! ### Spans that change hands (R152 to R154) -/

/-- Spans may have changed hands: no lane's fault and no test changes with them. -/
structure SpansMoved (d : Nat) (s t : State) : Prop where
  faulty : ∀ i, (t.lane d i).faulty = (s.lane d i).faulty
  cause : ∀ i, (t.lane d i).cause = (s.lane d i).cause
  test : ∀ i, (t.lane d i).test = (s.lane d i).test
  die : (t.die d).unitless = (s.die d).unitless
  events : EventsKept (Reg.AQ_LBQ_EVT d) s t
  changes : Changes [.lbq, .events] [Reg.AQ_LBQ_EVT d] s t

section
variable {d : Nat} {r s t : State}

theorem SpansMoved.refl (d : Nat) (s : State) : SpansMoved d s s :=
  ⟨fun _ => rfl, fun _ => rfl, fun _ => rfl, rfl, ⟨fun _ h => h⟩, .refl ..⟩

theorem SpansMoved.trans (h : SpansMoved d r s) (k : SpansMoved d s t) : SpansMoved d r t :=
  ⟨fun i => (k.faulty i).trans (h.faulty i), fun i => (k.cause i).trans (h.cause i), fun i => (k.test i).trans (h.test i),
    k.die.trans h.die, h.events.trans k.events, h.changes.trans k.changes⟩

variable (h : SpansMoved d r s)
include h

theorem SpansMoved.modLane (i : Nat) {f : Lane → Lane} (hf : ∀ x, (f x).faulty = x.faulty := by exact fun _ => rfl)
    (hc : ∀ x, (f x).cause = x.cause := by exact fun _ => rfl) (ht : ∀ x, (f x).test = x.test := by exact fun _ => rfl) :
    SpansMoved d r (s.modLane d i f) := by
  have hlane : ∀ {α : Type} (g : Lane → α), (∀ x, g (f x) = g x) → ∀ k, g ((s.modLane d i f).lane d k) = g (s.lane d k) := by
    intro α g hg k
    rw [State.lane_modLane]
    split
    · next hk => rw [hk, hg]
    · rfl
  refine h.trans ⟨hlane _ hf, hlane _ hc, hlane _ ht, s.modLane_unitless d i f, ?_, (State.setDie_changes _ _ _ (by decide)).2 (.refl ..)⟩
  exact ((State.modLane_parts _ _ _ _ (by decide)).2 (.refl [.lbq] s)).eventsKept (by decide) _

theorem SpansMoved.modBlk (b : Nat) (f : Blk → Blk) : SpansMoved d r (s.modBlk d b f) := by
  obtain ⟨-, -, hlane, -⟩ := s.modBlk_frame d b f
  refine h.trans ⟨fun i => congrArg _ (hlane i), fun i => congrArg _ (hlane i), fun i => congrArg _ (hlane i), s.modBlk_unitless d b f, ?_,
    (State.setDie_changes _ _ _ (by decide)).2 (.refl ..)⟩
  exact ((State.modBlk_parts _ _ _ _ (by decide)).2 (.refl [.lbq] s)).eventsKept (by decide) _

theorem SpansMoved.lbqEvt (i : Nat) : SpansMoved d r (s.lbqEvt d i) := by
  have hdie : ∀ k, (s.lbqEvt d i).die k = s.die k := State.die_lbqEvt s d i
  have hlane : ∀ k, (s.lbqEvt d i).lane d k = s.lane d k := fun k => congrArg (·.lane k) (hdie d)
  exact h.trans ⟨fun k => congrArg _ (hlane k), fun k => congrArg _ (hlane k), fun k => congrArg _ (hlane k),
    congrArg _ (hdie d), s.lbqEvt_kept d i, (State.setEvt_changes _ _ _ (by simp) (by decide)).2 (.refl ..)⟩

theorem SpansMoved.when (b : Bool) {f : State → State} (hf : ∀ u, SpansMoved d u (f u)) : SpansMoved d r (s.when b f) := by
  unfold State.when
  split
  · exact h.trans (hf s)
  · exact h

theorem SpansMoved.spanAway (home : Nat) : SpansMoved d r (s.spanAway d home) := (h.modLane home).lbqEvt 2

theorem SpansMoved.takeoverBegin (home spare failed : Nat) : SpansMoved d r (s.takeoverBegin d home spare failed) := h.modBlk ..

theorem SpansMoved.spanLost (home failed : Nat) : SpansMoved d r (s.spanLost d home failed) := by
  unfold State.spanLost
  extract_lets b x s1
  have hlost : SpansMoved d r s1 := h.modLane home
  split
  · exact hlost.takeoverBegin ..
  · split
    · exact ((hlost.modBlk ..).spanAway _).takeoverBegin ..
    · exact hlost.spanAway home

theorem SpansMoved.lanePromote (i : Nat) : SpansMoved d r (s.lanePromote d i) := by
  unfold State.lanePromote
  extract_lets b
  split
  · exact (h.modLane _).takeoverBegin ..
  · exact h.when _ fun u => (SpansMoved.refl d u).modBlk ..

end

/-! ### The return of a lane (R153, R160) -/

/-- The span of its block that waits for a spare, the lowest first (R153). -/
def State.spanWaiting (s : State) (d i : Nat) : Option Nat :=
  (blockLanes (laneBlock i)).find? fun k => s.spanCount d k != 0 && (s.lane d k).unavail

section
variable {s : State} {d i : Nat}

/-- Where no span waits, the lane is the standby spare unless another stands by. -/
theorem State.lanePromote_standby (h : s.spanWaiting d i = none) :
    ((s.lanePromote d i).blk d (laneBlock i)).spare = some ((s.blk d (laneBlock i)).spare.getD (i % 9)) ∧
      ((s.lanePromote d i).blk d (laneBlock i)).loading = (s.blk d (laneBlock i)).loading := by
  rw [State.spanWaiting] at h
  simp only [State.lanePromote, h, State.when]
  cases hspare : (s.blk d (laneBlock i)).spare with
  | none =>
    obtain ⟨hsame, -⟩ := s.modBlk_frame d (laneBlock i) fun x => { x with spare := some (i % 9) }
    exact ⟨(congrArg Blk.spare hsame :), (congrArg Blk.loading hsame :)⟩
  | some k => exact ⟨hspare, rfl⟩

/-- A span that waits is taken over. -/
theorem State.lanePromote_takes {home : Nat} (h : s.spanWaiting d i = some home) :
    ((s.lanePromote d i).lane d home).unavail = false ∧ ((s.lanePromote d i).blk d (laneBlock i)).loading =
      (s.blk d (laneBlock i)).loading ++ [{ home := home, spare := i, failed := home, begun := s.now }] := by
  rw [State.spanWaiting] at h
  have hblock : laneBlock home = laneBlock i := laneBlock_of_mem (List.mem_of_find?_eq_some h)
  simp only [State.lanePromote, h, State.takeoverBegin, hblock]
  obtain ⟨hsame, -, hlane, -⟩ := (s.modLane d home fun l => { l with unavail := false }).modBlk_frame d (laneBlock i) fun x => { x with
    spare := if x.spare = some (i % 9) then none else x.spare
    loading := x.loading ++ [{ home := home, spare := i, failed := home, begun := s.now }] }
  refine ⟨(congrArg Lane.unavail (hlane home)).trans ?_, (congrArg Blk.loading hsame).trans ?_⟩
  · rw [State.lane_modLane, if_pos rfl]
  · rw [State.modLane_blk]

/-- A lane that is free of its fault. -/
def State.laneFreed (s : State) (d i : Nat) : State := s.modLane d i fun l => { l with faulty := false, cause := 0, test := none }

theorem State.laneFreed_spanWaiting (s : State) (d i : Nat) : (s.laneFreed d i).spanWaiting d i = s.spanWaiting d i := by
  have hunavail : ∀ k, ((s.laneFreed d i).lane d k).unavail = (s.lane d k).unavail := by
    intro k
    rw [State.laneFreed, State.lane_modLane]
    split
    · next hk => rw [hk]
    · rfl
  simp only [State.spanWaiting, hunavail]
  rfl

variable (hbusy : (s.die d).busy = some (.lane i))
include hbusy

theorem laneReturnTestEnd_passed (htest : (s.lane d i).test = some (0, true)) :
    laneReturnTestEnd d i s = ((s.laneFreed d i).lanePromote d i).returnEnds d 0 := by
  have hdie : (((s.laneFreed d i).lanePromote d i).die d).unitless = (s.die d).unitless :=
    ((SpansMoved.refl d (s.laneFreed d i)).lanePromote i).die.trans (s.modLane_unitless ..)
  simp only [laneReturnTestEnd, htest]
  exact if_pos ((congrArg DieLbq.busy hdie :).trans hbusy)

theorem laneReturnTestEnd_failed {n : Nat} (htest : (s.lane d i).test = some (n, false)) :
    laneReturnTestEnd d i s = (s.modLane d i fun l => { l with cause := 6, test := none }).returnEnds d 4 := by
  simp only [laneReturnTestEnd, htest]
  exact if_pos ((congrArg DieLbq.busy (s.modLane_unitless d i _) :).trans hbusy)

end

theorem State.returnLane_begins {s : State} {d i : Nat} (hfaulty : (s.lane d i).faulty = true) (hup : s.blkUp d (laneBlock i) = true) :
    ((s.returnLane d i).lane d i).test = some (64, true) ∧ (∀ k, k ≠ i → (s.returnLane d i).lane d k = s.lane d k) ∧
      ((s.returnLane d i).die d).kept = (s.die d).kept ∧ ReturnBegun d (.lane i) s (s.returnLane d i) := by
  have hrow : s.returnLane d i = (s.modLane d i fun l => { l with test := some (64, true) }).setDie d
      { (s.modLane d i fun l => { l with test := some (64, true) }).die d with busy := some (.lane i), result := 0 } := by
    simp only [State.returnLane, hfaulty, hup, Bool.not_true, Bool.false_eq_true, if_false]
  have hlane : ∀ k, (s.returnLane d i).lane d k = (s.modLane d i fun l => { l with test := some (64, true) }).lane d k := fun k => by
    rw [hrow, State.lane_setDie]
    rfl
  refine ⟨congrArg Lane.test ((hlane i).trans (s.lane_modLane_same ..)), fun k hk => ?_, ?_, ?_, ?_, ?_⟩
  · rw [hlane, State.lane_modLane, if_neg hk]
  · rw [hrow, State.die_setDie]
    exact (congrArg DieLbq.kept (s.modLane_unitless ..) :)
  · rw [hrow, State.die_setDie]
  · rw [hrow, State.die_setDie]
  · rw [hrow]
    simp +decide

/-! ### The return of a block and of a quarter (R161) -/

theorem blockQuarter_of_lt {q i : Nat} (h : i < 4) : blockQuarter (4 * q + i) = q := by
  unfold blockQuarter
  omega

/-- The return of a quarter of which blocks have failed with it. -/
theorem State.returnQuarter_begins {s : State} {d q b : Nat} (hdev : s.dev = .maintenance) (hq : ((s.die d).qtr q).st = .faulty)
    (hb : b ∈ s.quarterBlocks d q .faulty) :
    (((s.returnQuarter d q).die d).qtr q).st = .returning ∧ ReturnBegun d (.quarter q) s (s.returnQuarter d q) := by
  have hsome : (s.quarterBlocks d q .faulty).isEmpty = false := by
    cases hl : s.quarterBlocks d q .faulty with
    | nil => simp [hl] at hb
    | cons => rfl
  simp only [State.returnQuarter, hdev, hq, hsome, ne_eq, not_true_eq_false, Bool.false_eq_true, if_false]
  refine ⟨?_, ?_, ?_, by simp +decide⟩ <;> rw [State.die_setDie]
  simp [DieLbq.qtr, DieLbq.setQtr]

/-- The points of a span carry BREAK and its sensors count their samples anew, as where its block comes back. -/
def State.spanFresh (d : Nat) (s : State) (i : Nat) : State :=
  ((s.sensorsOf d).filter (s.senHome d · == i)).foldl (fun s e => s.setSensor d e { s.sensor d e with n := none }) (s.spanBreak d i)

theorem State.die_spanFresh (d : Nat) (s : State) (i k : Nat) : (State.spanFresh d s i).die k = s.die k :=
  foldl_keeps (g := fun u : State => u.die k) (f := fun s e => s.setSensor d e { s.sensor d e with n := none }) (fun _ _ => rfl) _ _

theorem State.spanFresh_changes (d : Nat) (s : State) (i : Nat) :
    Changes [.lbq, .dmd, .sensors, .events] [Reg.AQ_LBQ_EVT d] s (State.spanFresh d s i) := by
  refine (foldl_changes fun e u => ?_).2 ?_
  · simp +decide
  · simp +decide [State.spanBreak]

/-- A block that is back: reset, running where it has a span to serve (R161, R485). -/
structure BlockBack (d b : Nat) (s t : State) : Prop where
  running : (∃ i, i ∈ blockLanes b ∧ s.spanCount d i ≠ 0) → (t.blk d b).st = .running ∧ (t.blk d b).acquiring = some s.now
  gated : (∀ i, i ∈ blockLanes b → s.spanCount d i = 0) → (t.blk d b).st = .gated ∧ (t.blk d b).acquiring = none
  floor : (t.blk d b).floor = s.tc.now
  lanes : ∀ i, i ∈ blockLanes b → t.lane d i = {}
  die : (t.die d).unitless = (s.die d).unitless
  changes : Changes [.lbq, .dmd, .sensors, .events] [Reg.AQ_LBQ_EVT d] s t

theorem State.blockBack_back (s : State) (d b : Nat) : BlockBack d b s (s.blockBack d b) := by
  have hempty : ((blockLanes b).filter fun i => s.spanCount d i != 0).isEmpty = true ↔
      ∀ i, i ∈ blockLanes b → s.spanCount d i = 0 := by
    simp [List.isEmpty_iff, List.filter_eq_nil_iff]
  unfold State.blockBack
  extract_lets spans s1 s2 points m s3
  obtain ⟨hsame, -⟩ := s.modBlk_frame d b fun x =>
    { st := if spans.isEmpty then .gated else .running, slow := x.slow, floor := s.tc.now, floorAt := s.now
      acquiring := if spans.isEmpty then none else some s.now, back := true }
  obtain ⟨hlaneless, -⟩ := State.foldl_modLane_die d (fun _ _ _ => {}) (blockLanes b) s1
  generalize ht : List.foldl _ s3 spans = t
  replace ht : spans.foldl (State.spanFresh d) s3 = t := ht
  have hdie : t.die d = s2.die d := ht ▸ foldl_keeps (g := fun u : State => u.die d) (fun u i => State.die_spanFresh d u i d) spans s3
  have hblk : t.blk d b = s1.blk d b := by
    rw [State.blk, hdie]
    exact (congrArg (fun x : DieLbq => x.blk b) hlaneless :)
  replace hsame := hblk.trans hsame
  refine ⟨fun h => ?_, fun h => ?_, congrArg Blk.floor hsame, fun i hi => ?_, ?_, ?_⟩
  · have hfalse : spans.isEmpty = false := by
      obtain ⟨i, hi, hne⟩ := h
      exact Bool.eq_false_iff.2 fun hall => hne (hempty.1 hall i hi)
    rw [hsame, hfalse]
    exact ⟨rfl, rfl⟩
  · have htrue : spans.isEmpty = true := hempty.2 h
    rw [hsame, htrue]
    exact ⟨rfl, rfl⟩
  · rw [State.lane, hdie]
    exact State.foldl_modLane_const d {} _ s1 i (.inl hi)
  · rw [hdie]
    exact (State.foldl_modLane_unitless d _ _ s1).trans (s.modBlk_unitless d b _)
  · subst ht
    refine (foldl_changes fun i u => State.spanFresh_changes d u i).2 (Changes.trans (t := s2) ?_ (by simp +decide [s3]))
    exact Changes.of_parts (by simp +decide [s2, s1]) (by decide) (by decide)

section
variable {s : State} {d b : Nat} (hst : (s.blk d b).st = .returning) (hbusy : (s.die d).busy = some (.block b))
include hst hbusy

theorem blockReturnComplete_passed : blockReturnComplete d b true s = (s.blockBack d b).returnEnds d 0 := by
  have hbusy' : ((s.blockBack d b).die d).busy = some (.block b) := (congrArg DieLbq.busy (s.blockBack_back d b).die :).trans hbusy
  simp only [blockReturnComplete, hst, hbusy', ne_eq, not_true_eq_false, if_false, if_true, State.when, decide_true]

theorem blockReturnComplete_failed :
    blockReturnComplete d b false s = (s.modBlk d b fun x => { x with st := .faulty, cause := 8 }).returnEnds d 4 := by
  have hbusy' : ((s.modBlk d b fun x => { x with st := .faulty, cause := 8 }).die d).busy = some (.block b) :=
    (congrArg DieLbq.busy (s.modBlk_unitless d b _) :).trans hbusy
  simp only [blockReturnComplete, hst, hbusy', ne_eq, not_true_eq_false, if_false, if_true, Bool.false_eq_true, State.when, decide_true]

end

/-! ### Injected faults (R163) -/

/-- A command that is carried out at once: RESULT shows OK. -/
def State.lbqTaken (s : State) (d : Nat) : State := (s.lbqHeard d).setDie d { (s.lbqHeard d).die d with result := 0 }

theorem State.die_lbqTaken (s : State) (d : Nat) : (s.lbqTaken d).die d = { s.die d with kept := false, result := 0 } := by
  rw [State.lbqTaken, State.die_setDie, State.die_lbqHeard]

theorem State.lane_lbqTaken (s : State) (d i : Nat) : (s.lbqTaken d).lane d i = s.lane d i :=
  congrArg (·.lane i) (s.die_lbqTaken d)

theorem State.blk_lbqTaken (s : State) (d b : Nat) : (s.lbqTaken d).blk d b = s.blk d b :=
  congrArg (·.blk b) (s.die_lbqTaken d)

theorem State.qtr_lbqTaken (s : State) (d q : Nat) : ((s.lbqTaken d).die d).qtr q = (s.die d).qtr q :=
  congrArg (·.qtr q) (s.die_lbqTaken d)

theorem State.dieUp_lbqTaken (s : State) (d : Nat) : (s.lbqTaken d).dieUp d = s.dieUp d := by
  simp only [State.dieUp, State.die_lbqTaken]

theorem State.lbqTaken_changes (s : State) (d : Nat) : Changes [.lbq, .events] [Reg.AQ_LBQ_EVT d] s (s.lbqTaken d) :=
  (State.setDie_changes _ _ _ (by decide)).2 (s.lbqHeard_changes d)

/-- A lane with its fault and the fault's report (R150). -/
def State.laneMarked (s : State) (d i cause : Nat) : State :=
  (s.modLane d i fun l => { l with faulty := true, cause := cause, test := none }).lbqEvt d 0

theorem State.laneMarked_changes (s : State) (d i cause : Nat) :
    Changes [.lbq, .events] [Reg.AQ_LBQ_EVT d] s (s.laneMarked d i cause) := by
  simp +decide [State.laneMarked, State.modLane, State.lbqEvt]

theorem State.lane_laneMarked (s : State) (d i cause : Nat) :
    (s.laneMarked d i cause).lane d i = { s.lane d i with faulty := true, cause := cause, test := none } := by
  rw [State.laneMarked, State.lane, State.die_lbqEvt]
  exact s.lane_modLane_same ..

theorem State.die_laneMarked (s : State) (d i cause : Nat) : ((s.laneMarked d i cause).die d).unitless = (s.die d).unitless := by
  rw [State.laneMarked, State.die_lbqEvt]
  exact s.modLane_unitless ..

/-- The fault of a lane marks the lane; what follows moves spans. -/
theorem State.laneFault_moved {s : State} {d i : Nat} (cause : Nat) (hok : (s.lane d i).faulty = false) (hup : s.dieUp d = true) :
    SpansMoved d (s.laneMarked d i cause) (s.laneFault d i cause) := by
  unfold State.laneFault
  rw [if_neg (by simp [hok, hup])]
  extract_lets b span load s1 s2
  have hmoved : SpansMoved d (s.laneMarked d i cause) s2 :=
    (SpansMoved.refl d s1).when _ fun u => (SpansMoved.refl d u).modBlk ..
  clear_value span load
  split
  · exact hmoved.spanLost ..
  · exact (hmoved.modBlk ..).spanLost ..
  · exact hmoved

/-- While a die has no return in hand, the fault of a block changes nothing of it but its units. -/
theorem State.blockFault_unitless {s : State} {d : Nat} (hidle : (s.die d).busy = none) (b cause : Nat) :
    ((s.blockFault d b cause).die d).unitless = (s.die d).unitless := by
  unfold State.blockFault
  split
  · rfl
  · extract_lets was s1 spans s2 s3 s4
    have h1 : (s1.die d).unitless = (s.die d).unitless := by
      simp only [s1, State.holdRoles]
      split
      · rfl
      · exact State.foldl_modLane_unitless d _ _ s
    have h2 : (s2.die d).unitless = (s1.die d).unitless := s1.modBlk_unitless d b _
    have h3 : (s3.die d).unitless = (s2.die d).unitless := State.foldl_modLane_unitless d _ _ s2
    have h4 : s4.die d = s3.die d := by
      simp only [s4, State.when]
      split <;> simp only [State.die_lbqEvt]
    have hall : (s4.die d).unitless = (s.die d).unitless := (congrArg _ h4).trans (h3.trans (h2.trans h1))
    have hbusy : (s4.die d).busy = none := (congrArg DieLbq.busy hall :).trans hidle
    have hstay : s4.quarterProgress d b false = s4 := State.quarterProgress_of_not_busy (by simp [hbusy]) false
    simp only [hbusy, State.when, hstay, ite_self]
    exact hall

theorem State.foldl_blockFault_unitless {d cause : Nat} (f : Nat → Nat) (l : List Nat) : ∀ s : State, (s.die d).busy = none →
    ((l.foldl (fun s i => s.blockFault d (f i) cause) s).die d).unitless = (s.die d).unitless := by
  induction l with
  | nil => exact fun _ _ => rfl
  | cons i l ih =>
    intro s hidle
    have hone := State.blockFault_unitless hidle (f i) cause
    exact (ih _ ((congrArg DieLbq.busy hone :).trans hidle)).trans hone

theorem State.quarterFault_unitless {s : State} {d : Nat} (hidle : (s.die d).busy = none) (q cause : Nat) :
    ((s.quarterFault d q cause).die d).unitless = (s.die d).unitless := by
  unfold State.quarterFault
  split
  · rfl
  · extract_lets s1 s2
    have h1 : s1.die d = (s.die d).setQtr q { st := .faulty, cause := cause } := by rw [State.die_lbqEvt, State.die_setDie]
    have hidle1 : (s1.die d).busy = none := by rw [h1]; exact hidle
    have h2 : s2 = s1 := by simp only [s2, hidle1]
    rw [h2, State.foldl_blockFault_unitless _ _ _ hidle1, h1]
    rfl

/-! ### The rows -/

/-- Settles O10: a return that begins holds the die (`ReturnBegun`) until it ends with its result (`ReturnEnded`); a lane that is free
of its fault takes the span that waits (`State.lanePromote_takes`) or stands by where none does (log entry 34), a block that is back is
`BlockBack`, and an injected fault is the unit's own on a command already answered (`State.lbqTaken`). -/
theorem unitsReturn : Obligations.UnitsReturn := by
  unfold Obligations.UnitsReturn
  refine ⟨?lane, ?lanePassed, ?laneFailed, ?block, ?quarter, ?blockPassed, ?blockFailed, ?injectBlock, ?injectLane, ?injectQuarter⟩
  case lane =>
    intro dt s e m d i he hu hd hi hm hidle hfaulty hup
    have hup' : (e.lbqHeard d).blkUp d (laneBlock i) = true := by
      rwa [State.blkUp, State.dieUp_lbqHeard, State.blk_lbqHeard]
    obtain ⟨htest, hother, hkept, hbegun⟩ := State.returnLane_begins (by rwa [State.lane_lbqHeard]) hup'
    exact ⟨_, exec_lbqReturnLane he hu hd hm hidle hi, htest, hbegun.busy, hbegun.result,
      hkept.trans (congrArg DieLbq.kept (e.die_lbqHeard d)), fun k hk => (hother k hk).trans (e.lane_lbqHeard d k),
      (e.lbqHeard_parts d).trans hbegun.parts⟩
  case lanePassed =>
    intro dt s e d i away he hu htest hbusy hkept haway
    refine ⟨_, afterHb_of_up he hu _, ?_⟩
    rw [laneReturnTestEnd_passed hbusy htest]
    have hmoved := (SpansMoved.refl d (e.laneFreed d i)).lanePromote i
    have hfreed : (e.laneFreed d i).lane d i = { e.lane d i with faulty := false, cause := 0, test := none } :=
      e.lane_modLane_same ..
    have hblk : (e.laneFreed d i).blk d (laneBlock i) = e.blk d (laneBlock i) := e.modLane_blk ..
    have hwaiting : (e.laneFreed d i).spanWaiting d i = away := (e.laneFreed_spanWaiting d i).trans haway
    obtain ⟨hlanes, hblks, hidle, hresult, hshown, hchanges⟩ := State.returnEnds_ended (s := (e.laneFreed d i).lanePromote d i) (d := d)
      ((congrArg DieLbq.kept hmoved.die :).trans ((congrArg DieLbq.kept (e.modLane_unitless d i _) :).trans hkept)) 0
    rw [hlanes, hblks]
    refine ⟨(hmoved.faulty i).trans (congrArg _ hfreed), (hmoved.cause i).trans (congrArg _ hfreed),
      (hmoved.test i).trans (congrArg _ hfreed), hidle, hresult, fun hnone => ?_, fun home hhome => ?_, hshown, ?_⟩
    · have h := State.lanePromote_standby (hwaiting.trans hnone)
      rwa [hblk] at h
    · have h := State.lanePromote_takes (hwaiting.trans hhome)
      rw [hblk] at h
      rw [hlanes]
      exact h
    · refine Changes.trans ?_ (hmoved.changes.trans hchanges)
      simp +decide [State.laneFreed, State.modLane]
  case laneFailed =>
    intro dt s e d i n he hu htest hbusy hkept
    refine ⟨_, afterHb_of_up he hu _, ?_⟩
    rw [laneReturnTestEnd_failed hbusy htest]
    obtain ⟨hlanes, -, hidle, hresult, hshown, hchanges⟩ := State.returnEnds_ended
      ((congrArg DieLbq.kept (e.modLane_unitless d i fun l => { l with cause := 6, test := none }) :).trans hkept) 4
    have hlane := (hlanes i).trans (e.lane_modLane_same ..)
    rw [hlane]
    refine ⟨rfl, rfl, rfl, hidle, hresult, hshown, Changes.trans ?_ hchanges⟩
    simp +decide [State.modLane]
  case block =>
    intro dt s e m d b he hu hd hb hm hdev hidle hst hqst
    obtain ⟨hret, hother, hbegun⟩ := State.returnBlock_begins (s := e.lbqHeard d) hdev (by rwa [State.blk_lbqHeard])
      (by rwa [State.qtr_lbqHeard])
    exact ⟨_, exec_lbqReturnBlock he hu hd hm hidle hb, hret, hbegun.busy, hbegun.result,
      fun k hk => (hother k hk).trans (e.blk_lbqHeard d k), (e.lbqHeard_parts d).trans hbegun.parts⟩
  case quarter =>
    intro dt s e m d q he hu hd hq hm hdev hidle hqst hsome
    have hfaulty : (((e.lbqHeard d).die d).qtr q).st = .faulty := by rwa [State.qtr_lbqHeard]
    obtain ⟨i, hi, hst, hcause⟩ := hsome
    obtain ⟨hret, hbegun⟩ := State.returnQuarter_begins (s := e.lbqHeard d) (b := 4 * q + i) hdev hfaulty
      (State.mem_quarterBlocks.2 ⟨blockQuarter_of_lt hi, by rwa [State.blk_lbqHeard], by rwa [State.blk_lbqHeard]⟩)
    obtain ⟨hin, hout⟩ := State.returnQuarter_blks (s := e.lbqHeard d) hdev hfaulty
    refine ⟨_, exec_lbqReturnQuarter he hu hd hm hidle hq, hret, fun k hk hkst hkc => ?_, hbegun.busy, hbegun.result,
      fun k hk => (hout k hk).trans (e.blk_lbqHeard d k), (e.lbqHeard_parts d).trans hbegun.parts⟩
    exact hin _ (blockQuarter_of_lt hk) (by rwa [State.blk_lbqHeard]) (by rwa [State.blk_lbqHeard])
  case blockPassed =>
    intro dt s e d b he hu hst hbusy hkept
    refine ⟨_, afterHb_of_up he hu _, ?_⟩
    rw [blockReturnComplete_passed hst hbusy]
    have hback := e.blockBack_back d b
    obtain ⟨hlanes, hblks, hidle, hresult, hshown, hchanges⟩ := State.returnEnds_ended
      ((congrArg DieLbq.kept hback.die :).trans hkept) 0
    rw [hblks]
    refine ⟨hback.running, hback.gated, hback.floor, fun i hi => ?_, hidle, hresult, hshown,
      hback.changes.trans (hchanges.mono (by decide) fun _ h => h)⟩
    rw [hlanes, hback.lanes i hi]
    exact ⟨rfl, rfl⟩
  case blockFailed =>
    intro dt s e d b he hu hst hbusy hkept
    refine ⟨_, afterHb_of_up he hu _, ?_⟩
    rw [blockReturnComplete_failed hst hbusy]
    obtain ⟨hsame, -⟩ := e.modBlk_frame d b fun x => { x with st := .faulty, cause := 8 }
    obtain ⟨-, hblks, hidle, hresult, hshown, hchanges⟩ := State.returnEnds_ended
      ((congrArg DieLbq.kept (e.modBlk_unitless d b fun x => { x with st := .faulty, cause := 8 }) :).trans hkept) 4
    rw [hblks, hsame]
    refine ⟨rfl, rfl, hidle, hresult, hshown, Changes.trans ?_ hchanges⟩
    simp +decide [State.modBlk]
  case injectBlock =>
    intro dt s e m d b he hu hd hb hm hdev hidle hst hup
    have hrow : (e.lbqHeard d).inject d (.block b) = (e.lbqTaken d).blockFault d b 7 := if_neg (not_not.2 hdev)
    refine ⟨_, exec_lbqInject he hu hd hm hidle (t := .block b) (by simp [lbqTarget, hb]), ?_⟩
    rw [hrow]
    have hidle' : ((e.lbqTaken d).die d).busy = none := by rw [State.die_lbqTaken, hidle]
    have h := State.blockFault_faulted (s := e.lbqTaken d) (d := d) (b := b) 7 (by rwa [State.blk_lbqTaken]) (by rwa [State.dieUp_lbqTaken])
      fun _ => by simp [hidle']
    refine ⟨h.st, h.cause, ?_, fun k hk => (h.blk_other hk).trans (e.blk_lbqTaken d k),
      (e.lbqTaken_changes d).trans (State.blockFault_changes ..)⟩
    exact (congrArg DieLbq.result (State.blockFault_unitless hidle' b 7) :).trans (congrArg DieLbq.result (e.die_lbqTaken d))
  case injectLane =>
    intro dt s e m d i he hu hd hi hm hdev hidle hok hup
    have hrow : (e.lbqHeard d).inject d (.lane i) = (e.lbqTaken d).laneFault d i 5 := if_neg (not_not.2 hdev)
    refine ⟨_, exec_lbqInject he hu hd hm hidle (t := .lane i) (by simp [lbqTarget, hi]), ?_⟩
    rw [hrow]
    have hmoved := State.laneFault_moved (s := e.lbqTaken d) (d := d) (i := i) 5 (by rwa [State.lane_lbqTaken])
      (by rwa [State.dieUp_lbqTaken])
    have hmarked := (e.lbqTaken d).lane_laneMarked d i 5
    refine ⟨(hmoved.faulty i).trans (congrArg _ hmarked), (hmoved.cause i).trans (congrArg _ hmarked), ?_,
      hmoved.events.kept 0 (State.lbqEvt_set _ d (by decide)),
      (e.lbqTaken_changes d).trans (((e.lbqTaken d).laneMarked_changes d i 5).trans hmoved.changes)⟩
    exact (congrArg DieLbq.result (hmoved.die.trans ((e.lbqTaken d).die_laneMarked d i 5)) :).trans
      (congrArg DieLbq.result (e.die_lbqTaken d))
  case injectQuarter =>
    intro dt s e m d q he hu hd hq hm hdev hidle hst hup
    have hrow : (e.lbqHeard d).inject d (.quarter q) = (e.lbqTaken d).quarterFault d q 3 := if_neg (not_not.2 hdev)
    refine ⟨_, exec_lbqInject he hu hd hm hidle (t := .quarter q) (by simp [lbqTarget, hq]), ?_⟩
    rw [hrow]
    have hidle' : ((e.lbqTaken d).die d).busy = none := by rw [State.die_lbqTaken, hidle]
    have h := State.quarterFault_faulted (s := e.lbqTaken d) (d := d) (q := q) 3 (by rwa [State.qtr_lbqTaken]) (by rwa [State.dieUp_lbqTaken])
    refine ⟨h.qtr, ?_, h.faulty, (e.lbqTaken_changes d).trans (State.quarterFault_changes ..)⟩
    exact (congrArg DieLbq.result (State.quarterFault_unitless hidle' q 3) :).trans (congrArg DieLbq.result (e.die_lbqTaken d))

end Sys2Proof.Machine
end

section
/-!
PROOF. Virtual wheel sensors: detection samples and restarts (R174, R175), transitions (R183, R184), emission (R151, R185 to R187) and
the readback of the last event (R190).
-/
namespace Sys2Proof.Machine

/-! ### Sensors and the events their lanes hold -/

theorem State.sensor_setSensor (s : State) (d i : Nat) (x : Sensor) : (s.setSensor d i x).sensor d i = x := tget_tset_same ..

theorem State.sensor_setSensor_other (s : State) {d i k l : Nat} (x : Sensor) (h : 2048 * k + l ≠ 2048 * d + i) :
    (s.setSensor d i x).sensor k l = s.sensor k l :=
  tget_tset_other _ _ _ h

theorem State.sensor_setEvt (s : State) (a j d i : Nat) : (s.setEvt a j).sensor d i = s.sensor d i := by
  rw [State.sensor, State.setEvt_sensors, State.sensor]

theorem State.lane_setEvt (s : State) (a j d i : Nat) : (s.setEvt a j).lane d i = s.lane d i :=
  congrArg (·.lane i) (s.die_setEvt a j d)

theorem State.holdEvent_held (s : State) (d : Nat) (ev : HeldEvent) :
    ((s.holdEvent d ev).lane d (s.senHome d ev.entry)).held = (s.lane d (s.senHome d ev.entry)).held ++ [ev] :=
  congrArg Lane.held (s.lane_modLane_same ..)

theorem State.holdEvent_changes (s : State) (d : Nat) (ev : HeldEvent) :
    Changes [.sensors, .lbq, .events] [Reg.AQ_WSD_EVT d] s (s.holdEvent d ev) :=
  (State.setDie_changes _ _ _ (by decide)).2 (.refl ..)

/-- A sensor has become another, with an event that its home lane holds and a bit of AQn_WSD_EVT. -/
structure SensorTold (d i : Nat) (x : Sensor) (ev : HeldEvent) (evt : Nat) (s t : State) : Prop where
  sensor : t.sensor d i = x
  held : (t.lane d (s.senHome d i)).held = (s.lane d (s.senHome d i)).held ++ [ev]
  shown : bitOf (t.reg (Reg.AQ_WSD_EVT d)) evt = true
  changes : Changes [.sensors, .lbq, .events] [Reg.AQ_WSD_EVT d] s t

theorem State.sensorTold (s : State) {d i evt : Nat} (x : Sensor) {ev : HeldEvent} (hentry : ev.entry = i) (hevt : evt < 32) :
    SensorTold d i x ev evt s (((s.setSensor d i x).holdEvent d ev).setEvt (Reg.AQ_WSD_EVT d) evt) := by
  subst hentry
  exact {
    sensor := (State.sensor_setEvt ..).trans (s.sensor_setSensor ..)
    held := (congrArg Lane.held (State.lane_setEvt ..)).trans ((s.setSensor d ev.entry x).holdEvent_held d ev)
    shown := State.bitOf_setEvt _ _ hevt
    changes := (State.setEvt_changes _ _ _ (by simp) (by decide)).2
      (((State.setSensor_changes _ _ _ _ (by decide)).2 (.refl ..)).trans ((s.setSensor d ev.entry x).holdEvent_changes d ev)) }

/-- What a sensor told stays true of a state that had only its own sensor's entry changed before. -/
theorem SensorTold.of_setSensor {d i evt : Nat} {x y : Sensor} {ev : HeldEvent} {s t : State}
    (h : SensorTold d i x ev evt (s.setSensor d i y) t) : SensorTold d i x ev evt s t :=
  ⟨h.sensor, h.held, h.shown, ((State.setSensor_changes _ _ _ _ (by decide)).2 (.refl ..)).trans h.changes⟩

/-- A further bit of AQn_WSD_EVT beside the one that stands. -/
theorem SensorTold.setEvt {d i evt : Nat} {x : Sensor} {ev : HeldEvent} {s t : State} (h : SensorTold d i x ev evt s t) {evt' : Nat}
    (hevt : evt' < 32) : SensorTold d i x ev evt' s (t.setEvt (Reg.AQ_WSD_EVT d) evt') :=
  ⟨(State.sensor_setEvt ..).trans h.sensor, (congrArg Lane.held (State.lane_setEvt ..)).trans h.held, State.bitOf_setEvt _ _ hevt,
    (State.setEvt_changes _ _ _ (by simp) (by decide)).2 h.changes⟩

/-! ### Transitions with a step of their own (R183, R184) -/

theorem State.sensorGo_told (s : State) {d i evt : Nat} (n : Nat) (st : SensorState) (kind tpl qev amp : Nat) (hevt : evt < 32) :
    SensorTold d i { s.sensor d i with st := st }
      { entry := i, kind := kind, time := n * 500000 - 250000, tpl := tpl, qev := qev, amp := amp } evt s
      (s.sensorGo d i n st kind tpl qev amp evt) :=
  s.sensorTold _ rfl hevt

section
variable {s : State} {d i n q : Nat}

theorem State.sensorDue_of_none (h : (s.sensor d i).due = none) : s.sensorDue d i = s := by
  simp only [State.sensorDue, h]

theorem State.sensorDue_halt {level : Rat} (h : (s.sensor d i).due = some (.halt n level q)) :
    SensorTold d i { s.sensor d i with due := none, level := level, haltAt := n, st := .standing }
      { entry := i, kind := 1, time := n * 500000 - 250000, qev := q, amp := ampField level } 3 s (s.sensorDue d i) := by
  have hgo := (s.setSensor d i { s.sensor d i with due := none, level := level, haltAt := n }).sensorGo_told (d := d) (i := i) (evt := 3)
    n .standing 1 0 q (ampField level) (by decide)
  rw [State.sensor_setSensor] at hgo
  simp only [State.sensorDue, h]
  exact hgo.of_setSensor

theorem State.sensorDue_standTimeout (h : (s.sensor d i).due = some (.standTimeout n q)) :
    SensorTold d i { s.sensor d i with due := none, st := .blind }
      { entry := i, kind := 3, time := n * 500000 - 250000, tpl := 4, qev := q } 4 s (s.sensorDue d i) := by
  have hgo := (s.setSensor d i { s.sensor d i with due := none }).sensorGo_told (d := d) (i := i) (evt := 1) n .blind 3 4 q 0 (by decide)
  rw [State.sensor_setSensor] at hgo
  simp only [State.sensorDue, h]
  exact hgo.of_setSensor.setEvt (by decide)

end

/-! ### Detection samples (R174) -/

/-- A sensor's number and history stand, and every other sensor. -/
structure HistoryKept (d i : Nat) (s t : State) : Prop where
  n : (t.sensor d i).n = (s.sensor d i).n
  hist : (t.sensor d i).hist = (s.sensor d i).hist
  others : ∀ k l, 2048 * k + l ≠ 2048 * d + i → t.sensor k l = s.sensor k l
  changes : Changes [.sensors, .lbq, .events] [Reg.AQ_WSD_EVT d, Reg.AQ_WSD_SUPP_CNT d] s t

section
variable {d i : Nat} {r s t : State}

theorem HistoryKept.refl (d i : Nat) (s : State) : HistoryKept d i s s := ⟨rfl, rfl, fun _ _ _ => rfl, .refl ..⟩

theorem HistoryKept.trans (h : HistoryKept d i r s) (k : HistoryKept d i s t) : HistoryKept d i r t :=
  ⟨k.n.trans h.n, k.hist.trans h.hist, fun a b hab => (k.others a b hab).trans (h.others a b hab), h.changes.trans k.changes⟩

variable (h : HistoryKept d i r s)
include h

/-- A change that leaves the sensors. -/
theorem HistoryKept.congr (ht : t.sensors = s.sensors)
    (hc : Changes [.sensors, .lbq, .events] [Reg.AQ_WSD_EVT d, Reg.AQ_WSD_SUPP_CNT d] s t) : HistoryKept d i r t := by
  have hsensor : ∀ k l, t.sensor k l = s.sensor k l := fun k l => congrArg (fun x : Table Sensor => tget x {} (2048 * k + l)) ht
  exact h.trans ⟨congrArg _ (hsensor d i), congrArg _ (hsensor d i), fun k l _ => hsensor k l, hc⟩

theorem HistoryKept.setSensor {x : Sensor} (hn : x.n = (s.sensor d i).n := by rfl) (hh : x.hist = (s.sensor d i).hist := by rfl) :
    HistoryKept d i r (s.setSensor d i x) := by
  refine h.trans ⟨?_, ?_, fun _ _ hkl => s.sensor_setSensor_other x hkl, (State.setSensor_changes _ _ _ _ (by decide)).2 (.refl ..)⟩ <;>
    rw [State.sensor_setSensor]
  · exact hn
  · exact hh

theorem HistoryKept.setEvt (j : Nat) : HistoryKept d i r (s.setEvt (Reg.AQ_WSD_EVT d) j) :=
  h.congr (s.setEvt_sensors _ j) ((State.setEvt_changes _ _ _ (by simp) (by decide)).2 (.refl ..))

theorem HistoryKept.holdEvent (ev : HeldEvent) : HistoryKept d i r (s.holdEvent d ev) :=
  h.congr rfl ((s.holdEvent_changes d ev).mono (by decide) (by simp))

theorem HistoryKept.suppCount (v : Word) : HistoryKept d i r (s.setReg (Reg.AQ_WSD_SUPP_CNT d) v) :=
  h.congr rfl ((State.setReg_changes _ _ _ (by simp)).2 (.refl ..))

theorem HistoryKept.sensorGo (n : Nat) (st : SensorState) (kind tpl qev amp evt : Nat) :
    HistoryKept d i r (s.sensorGo d i n st kind tpl qev amp evt) :=
  (h.setSensor.holdEvent _).setEvt evt

theorem HistoryKept.wheelDecided (t cross qev : Nat) (usable : Bool) (cur : List Fit) :
    HistoryKept d i r (s.wheelDecided d i t cross qev usable cur) :=
  h.setSensor.holdEvent _

/-- Of the triggers of a sample none changes the history (R184). -/
theorem HistoryKept.sensorTriggers (n : Nat) (old : Sensor) (hist : List DetSample) (fits : List Fit) :
    HistoryKept d i r (s.sensorTriggers d i n old hist fits) := by
  unfold State.sensorTriggers
  extract_lets x top exc amp timing peak enter mean haltN wheel quiet s1 a s2
  have h1 : HistoryKept d i r s1 := h.setSensor
  clear_value s1 peak
  split
  · exact ((h1.suppCount _).sensorGo ..).setEvt 2
  · split
    · exact h1.sensorGo ..
    split
    · exact h1.setSensor
    split
    · exact h1.setSensor.sensorGo ..
    split
    · exact h1.setSensor
    split
    · exact h1.setSensor.sensorGo ..
    split
    · exact h1.sensorGo ..
    split
    · exact h1.wheelDecided ..
    · exact h1

end

/-- The point samples of detection sample `n`'s interval (R174). -/
def State.samplesOf (s : State) (d i n : Nat) : List PointSample :=
  (tget (tget s.dmd {} d).points {} (s.senJ d i)).recent.filter fun p =>
    decide (((n * 500000 : Nat) : Rat) - 500000 < p.t) && decide (p.t ≤ ((n * 500000 : Nat) : Rat))

section
variable {s : State} {d i n : Nat} (hdue : (s.sensor d i).due = none) (hon : s.sensorOn d i = true)
  (hn : s.sampleNext (s.sensor d i) = n) (hnow : n * 500000 ≤ s.tc.now)
include hdue hon hn hnow

theorem detectionSample_of_break {p : PointSample} (hbrk : (s.samplesOf d i n).find? (·.brk) = some p) :
    detectionSample d i s = (s.setSensor d i { s.sensor d i with n := some n }).sensorRestart d i 1 p.t.floor.toNat := by
  rw [State.samplesOf] at hbrk
  simp only [detectionSample, State.sensorDue_of_none hdue, hon, hn, Nat.not_lt.2 hnow, hbrk, decide_false, Bool.not_true, Bool.or_self,
    Bool.false_eq_true, if_false]

/-- A sample that is due extends a history that has begun, and takes what it triggers. -/
theorem detectionSample_of_unbroken (hbrk : (s.samplesOf d i n).find? (·.brk) = none) (hhist : (s.sensor d i).hist ≠ []) :
    ∃ x fits, x.n = some n ∧
      x.hist = (detSample (s.samplesOf d i n) (fld (s.reg (Reg.AQ_DMD_QUAL d)) 0 8) (bitOf (s.senCfg d i) 14)
        ((s.sensor d i).hist.headD ⟨0, 0, true⟩).y :: (s.sensor d i).hist).take 1452 ∧
      detectionSample d i s = ((s.setSensor d i { s.sensor d i with n := some n }).setSensor d i x).sensorTriggers d i n (s.sensor d i)
        x.hist fits := by
  obtain ⟨y, l, hl⟩ := List.exists_cons_of_ne_nil hhist
  rw [State.samplesOf] at hbrk ⊢
  simp only [detectionSample, State.sensorDue_of_none hdue, hon, hn, Nat.not_lt.2 hnow, hbrk, hl, decide_false, Bool.not_true,
    Bool.or_self, Bool.false_eq_true, if_false, List.isEmpty_cons, Bool.false_and, List.headD_cons]
  exact ⟨_, _, rfl, rfl, rfl⟩

end

theorem State.sensorRestart_told (s : State) (d i cause time : Nat) :
    SensorTold d i { n := (s.sensor d i).n, lastCross := (s.sensor d i).lastCross, lastTpl := (s.sensor d i).lastTpl }
      { entry := i, kind := 5, time := time, tpl := cause } 0 s (s.sensorRestart d i cause time) :=
  s.sensorTold _ rfl (by decide)

/-! ### Emission (R151, R185 to R187) -/

/-- The record of an event of a span that a lane emits now (R185). -/
def State.eventRecord (s : State) (d home lane : Nat) (ev : HeldEvent) : List Byte :=
  withCheck d home (eventBody s.tc.now (min 0xFFFFFFFF (s.tc.now - ev.time)) (s.lane d home).seq (s.senCp d ev.entry)
    (s.senSys d ev.entry) ev.kind (min 0xFFFF ev.speed) (s.senFibre d ev.entry) ev.tpl ev.qev ev.amp (288 * d + lane) ev.usable ev.limit)

theorem State.emitEvent_of_linked {s : State} {d : Nat} (hlink : tfind s.mrg.silent d = none) (home lane : Nat) (ev : HeldEvent) :
    s.emitEvent d home lane ev = (((s.modLane d home fun l => { l with seq := (l.seq + 1) % 2 ^ 32 }).setSensor d ev.entry
      { s.sensor d ev.entry with last := s.eventRecord d home lane ev }).send (.event d (s.eventRecord d home lane ev))) := by
  have hlink' : ∀ x y, tfind ((s.modLane d home x).setSensor d ev.entry y).mrg.silent d = none := fun _ _ => hlink
  simp only [State.emitEvent, State.dieSend, hlink']
  rfl

/-- A home lane whose held events have left it. -/
def State.laneEmitted (s : State) (d home : Nat) : State :=
  s.modLane d home fun l => { l with held := l.held.drop l.passed, passed := 0 }

/-- The one held event, whose sentinel has passed, is emitted. -/
theorem wheelEventEmit_of_single {s : State} {d lane home : Nat} {ev : HeldEvent} (hserve : s.servedBy d lane = some home)
    (hheld : (s.lane d home).held = [ev]) (hpassed : (s.lane d home).passed = 1) :
    wheelEventEmit d lane s = (s.laneEmitted d home).emitEvent d home lane ev := by
  have hout : ∀ key, sortBy key ((s.lane d home).held.take (s.lane d home).passed) = [ev] := fun key => by
    rw [hheld, hpassed]
    rfl
  simp only [wheelEventEmit, hserve, hout, List.foldl_cons, List.foldl_nil, State.laneEmitted]

/-- What the emission of an event leaves, its time and numbers being those before it. -/
theorem State.eventRecord_laneEmitted (s : State) (d home lane : Nat) (ev : HeldEvent) :
    (s.laneEmitted d home).eventRecord d home lane ev = s.eventRecord d home lane ev := by
  have hseq : ((s.laneEmitted d home).lane d home).seq = (s.lane d home).seq :=
    (congrArg Lane.seq (s.lane_modLane_same d home _) :)
  simp only [State.eventRecord, hseq]
  rfl

/-! ### Readback (R190) -/

theorem State.mreg_setMreg_address (s : State) (m : Master) {a b : Nat} (v : Word) (h : b ≠ a) :
    (s.setMreg m a v).mreg m b = s.mreg m b := by
  have hkey : masterCode m * 2 ^ 32 + b ≠ masterCode m * 2 ^ 32 + a := by omega
  rw [State.mreg, State.setMreg_mregs, tfind_tset_other _ _ hkey, State.mreg]

/-- Copies of a master at different addresses, written one after the other. -/
theorem State.mreg_foldl_setMreg (m : Master) {a : Nat → Nat} (ha : ∀ i j, a i = a j → i = j) (v : Nat → Word) (l : List Nat) :
    ∀ s : State, ∀ i, i ∈ l ∨ s.mreg m (a i) = v i → (l.foldl (fun s i => s.setMreg m (a i) (v i)) s).mreg m (a i) = v i := by
  induction l with
  | nil => exact fun s i h => h.resolve_left (by simp)
  | cons j l ih =>
    refine fun s i h => ih _ i ?_
    by_cases hij : i = j
    · subst hij
      exact .inr (s.mreg_setMreg_same ..)
    · rw [s.mreg_setMreg_address m _ fun hne => hij (ha i j hne)]
      exact h.imp_left fun hmem => (List.mem_cons.1 hmem).resolve_left hij

theorem State.wsdLast0_latched (s : State) (m : Master) (d : Nat) {i : Nat} (hi : i < 7) :
    (s.wsdLast0 m d).1.mreg m (Reg.AQ_WSD_LAST d (i + 1)) =
      bufWord (s.sensor d (fld (s.mreg m (Reg.AQ_WSD_SEL d)) 0 11)).last (i + 1) :=
  State.mreg_foldl_setMreg m (a := fun i => Reg.AQ_WSD_LAST d (i + 1)) (fun i j h => by simp only [Reg.AQ_WSD_LAST] at h; omega)
    (fun i => bufWord _ (i + 1)) _ s i (.inl (List.mem_range.2 hi))

theorem blockOf_wsdLast0 {d : Nat} (hd : d < 4) : blockOf (Reg.AQ_WSD_LAST d 0) = some (.wsd, d, 0x24) := by
  have h : ∀ d < 4, blockOf (Reg.AQ_WSD_LAST d 0) = some (.wsd, d, 0x24) := by decide
  exact h d hd

theorem exec_wsdLast0Read {s e : State} {dt d : Nat} {m : Master} (he : s.elapse dt = e) (hu : e.boot.up = true) (hd : d < 4)
    (hm : e.mayRead m (Reg.AQ_WSD_LAST d 0) = true) : exec (.wsdLast0Read dt m d) s =
      .next ((e.wsdLast0 m d).1.send (.reply m (Reg.AQ_WSD_LAST d 0) (e.wsdLast0 m d).2 false)) :=
  State.readRow_of_mayRead he hu hm (blockOf_wsdLast0 hd) (row := ⟨0x24, 4, 8, .ro, 0⟩) rfl

/-! ### The rows -/

/-- Settles O11: a sample keeps its history through every trigger (`HistoryKept.sensorTriggers`), a restart and a transition are a
sensor that has become another with an event that its lane holds (`SensorTold`), an emission is `State.emitEvent_of_linked` of the one
held event, and the read latches seven copies (`State.wsdLast0_latched`). What a restart keeps and its time follow log entries 35 to 37. -/
theorem sensorsDecide : Obligations.SensorsDecide := by
  unfold Obligations.SensorsDecide
  refine ⟨?sample, ?restart, ?halt, ?timeout, ?emit, ?readback⟩
  case sample =>
    intro dt s e d i n pts he hu hdue hon hn hnow hpts hbrk hhist
    subst hpts
    obtain ⟨x, fits, hxn, hxhist, hrow⟩ := detectionSample_of_unbroken hdue hon hn hnow hbrk hhist
    refine ⟨_, (afterHb_of_up he hu _).trans (congrArg _ hrow), ?_⟩
    have hkept := (HistoryKept.refl d i ((e.setSensor d i { e.sensor d i with n := some n }).setSensor d i x)).sensorTriggers n
      (e.sensor d i) x.hist fits
    refine ⟨hkept.n.trans ?_, hkept.hist.trans ?_, fun k l hkl => (hkept.others k l hkl).trans ?_, Changes.trans ?_ hkept.changes⟩
    · rw [State.sensor_setSensor, hxn]
    · rw [State.sensor_setSensor, hxhist]
      rfl
    · rw [State.sensor_setSensor_other _ _ hkl, State.sensor_setSensor_other _ _ hkl]
    · simp +decide
  case restart =>
    intro dt s e d i n p he hu hdue hon hn hnow hbrk
    refine ⟨_, (afterHb_of_up he hu _).trans (congrArg _ (detectionSample_of_break hdue hon hn hnow hbrk)), ?_⟩
    have htold := (e.setSensor d i { e.sensor d i with n := some n }).sensorRestart_told d i 1 p.t.floor.toNat
    rw [State.sensor_setSensor] at htold
    obtain ⟨hsensor, hheld, hshown, hchanges⟩ := htold.of_setSensor
    exact ⟨hsensor, hheld, hshown, hchanges⟩
  case halt =>
    intro dt s e d i n level q he hu hdue
    obtain ⟨hsensor, hheld, hshown, hchanges⟩ := State.sensorDue_halt hdue
    exact ⟨_, (afterHb_of_up he hu _).trans (congrArg _ (by simp only [hdue])), hsensor, hheld, hshown, hchanges⟩
  case timeout =>
    intro dt s e d i n q he hu hdue
    obtain ⟨hsensor, hheld, hshown, hchanges⟩ := State.sensorDue_standTimeout hdue
    exact ⟨_, (afterHb_of_up he hu _).trans (congrArg _ (by simp only [hdue])), hsensor, hheld, hshown, hchanges⟩
  case emit =>
    intro dt s e d lane home ev b he hu hserve hheld hpassed hlink hb
    have hrecord : (e.laneEmitted d home).eventRecord d home lane ev = b := (e.eventRecord_laneEmitted ..).trans hb
    have hlink' : tfind (e.laneEmitted d home).mrg.silent d = none := hlink
    refine ⟨_, (afterHb_of_up he hu _).trans (congrArg _ ((wheelEventEmit_of_single hserve hheld hpassed).trans
      (State.emitEvent_of_linked hlink' home lane ev))), ?_⟩
    rw [hrecord]
    refine ⟨rfl, ?_, ?_, ?_⟩
    · have hlane : (e.laneEmitted d home).lane d home = { e.lane d home with held := [], passed := 0 } :=
        (e.lane_modLane_same ..).trans (by rw [hheld, hpassed]; rfl)
      have hseq := (e.laneEmitted d home).lane_modLane_same d home fun l => { l with seq := (l.seq + 1) % 2 ^ 32 }
      rw [hlane] at hseq
      exact hseq
    · exact congrArg Sensor.last (State.sensor_setSensor ..)
    · simp +decide [State.laneEmitted]
  case readback =>
    intro dt s e m d b he hu hd hm hb
    subst hb
    have hparts : OnlyParts [.copies] e (e.wsdLast0 m d).1 := (State.wsdLast0_parts _ _ _ (by decide)).2 (.refl ..)
    have hsent : (e.wsdLast0 m d).1.sent = e.sent := hparts.same .sent (by decide)
    refine ⟨_, exec_wsdLast0Read he hu hd hm, ?_, fun i hi => e.wsdLast0_latched m d hi,
      (State.send_parts _ _ (by decide)).2 (hparts.mono (by decide))⟩
    rw [← hsent]
    rfl

end Sys2Proof.Machine
end

section
/-!
PROOF. An evaluation channel and what it reports: its sections, its heads and the time-driven rules of both (R195, R203, R210, R211, R213,
R216 to R222).
-/
namespace Sys2Proof.Machine

/-! ### Sections -/

@[simp] theorem Channel.sec_setSec_same (g : Channel) (n : Nat) (x : Sec) : (g.setSec n x).sec n = x := tget_tset_same ..

theorem Channel.sec_setSec_other (g : Channel) {n k : Nat} (x : Sec) (h : k ≠ n) : (g.setSec n x).sec k = g.sec k :=
  tget_tset_other _ _ _ h

@[simp] theorem Channel.sec_note (g : Channel) (x : ChanNote) (n : Nat) : (g.note x).sec n = g.sec n := rfl

/-- Of the sections at most one differs, and of the rest at most the reports. -/
structure SectionOnly (n : Nat) (g h : Channel) : Prop where
  cfg : h.cfg = g.cfg
  heads : h.heads = g.heads
  others : ∀ k, k ≠ n → h.sec k = g.sec k

theorem SectionOnly.refl (n : Nat) (g : Channel) : SectionOnly n g g := ⟨rfl, rfl, fun _ _ => rfl⟩

section
variable {n : Nat} {f g : Channel} (h : SectionOnly n f g)
include h

theorem SectionOnly.trans {k : Channel} (l : SectionOnly n g k) : SectionOnly n f k :=
  ⟨l.cfg.trans h.cfg, l.heads.trans h.heads, fun j hj => (l.others j hj).trans (h.others j hj)⟩

theorem SectionOnly.setSec (x : Sec) : SectionOnly n f (g.setSec n x) := h.trans ⟨rfl, rfl, fun _ hk => g.sec_setSec_other x hk⟩

theorem SectionOnly.note (x : ChanNote) : SectionOnly n f (g.note x) := ⟨h.cfg, h.heads, h.others⟩

theorem SectionOnly.zero : SectionOnly n f (g.zero n) := h.setSec _

theorem SectionOnly.goto (st : SecSt) (keep : Bool := false) : SectionOnly n f (g.goto n st keep) := by
  unfold Channel.goto
  extract_lets x
  split
  · exact h
  · exact (h.setSec _).note _

theorem SectionOnly.disturb (cause : Nat) : SectionOnly n f (g.disturb n cause) := by
  unfold Channel.disturb
  extract_lets x g1 g2
  split
  · exact h.setSec _
  · split
    · exact h
    · have h2 : SectionOnly n f g2 := by
        unfold g2
        split
        · exact (h.setSec _).note _
        · exact h.setSec _
      exact (h2.goto _).note _

theorem SectionOnly.update (full : Bool) : SectionOnly n f (g.update full n) := by
  unfold Channel.update
  extract_lets x
  split
  · exact h
  dsimp -zeta only
  extract_lets swept ok
  have hswept : SectionOnly n f swept := h.setSec _
  clear_value swept
  split
  · exact h.disturb 3
  split
  · exact h.disturb 4
  split
  · exact h
  split
  · exact ((hswept.setSec _).goto _).note _
  split
  · exact hswept
  split
  · split
    · exact (hswept.goto _).note _
    · exact hswept
  · split
    · exact hswept
    · exact hswept.goto _
  · split
    · exact hswept.goto _
    · exact hswept
  · exact hswept

/-- What a section counts depends on its heads and on its own offsets alone (R216). -/
theorem SectionOnly.figures : g.figures n = f.figures n := by
  simp only [Channel.figures, Channel.head, h.cfg, h.heads]

theorem SectionOnly.counts (hi : (g.sec n).offHi = (f.sec n).offHi) (lo : (g.sec n).offLo = (f.sec n).offLo) :
    g.counts n = f.counts n := by
  simp only [Channel.counts, h.figures, hi, lo]

end

section
variable (g : Channel) (n : Nat)

/-- A section that takes a state keeps all but it and the instant of its last change to Clear. -/
theorem Channel.sec_goto (st : SecSt) (keep : Bool := false) :
    ∃ t, (g.goto n st keep).sec n = { g.sec n with st := st, clearAt := t } := by
  unfold Channel.goto
  extract_lets x
  split
  · next h => exact ⟨x.clearAt, by rw [← h]⟩
  · exact ⟨_, (Channel.sec_note ..).trans (g.sec_setSec_same n _)⟩

theorem Channel.st_goto (st : SecSt) (keep : Bool := false) : ((g.goto n st keep).sec n).st = st := by
  obtain ⟨t, h⟩ := g.sec_goto n st keep
  rw [h]

theorem Channel.counts_goto (st : SecSt) (keep : Bool := false) : (g.goto n st keep).counts n = g.counts n := by
  obtain ⟨t, h⟩ := g.sec_goto n st keep
  exact ((SectionOnly.refl n g).goto st keep).counts (by rw [h]) (by rw [h])

@[simp] theorem Channel.sec_zero :
    (g.zero n).sec n = { g.sec n with offHi := -(g.figures n).1, offLo := -(g.figures n).2, sweep := 0 } := g.sec_setSec_same n _

theorem Channel.counts_zero : (g.zero n).counts n = (0, 0) := by
  simp only [Channel.counts, (SectionOnly.refl n g).zero.figures, Channel.sec_zero, Int.add_right_neg]
  rfl

end

/-! ### Sections that no head holds in service (R211) -/

/-- A section is Disturbed or Blocked. -/
def Channel.shut (g : Channel) (n : Nat) : Prop := (g.sec n).st = .disturbed ∨ (g.sec n).st = .blocked

theorem Channel.disturb_shut (g : Channel) (n cause : Nat) : (g.disturb n cause).shut n := by
  unfold Channel.disturb
  extract_lets x g1 g2
  split
  · next h => exact .inr (by rw [Channel.sec_setSec_same]; exact h)
  · split
    · next h => exact .inl h
    · exact .inl (g2.st_goto n .disturbed)

theorem Channel.update_shut {g : Channel} {n : Nat} (h : g.shut n) (full : Bool) : (g.update full n).shut n := by
  unfold Channel.update
  extract_lets x
  split
  · exact h
  · next hx =>
    have hblocked : x.st = .blocked := h.resolve_left hx
    dsimp only
    split
    · exact g.disturb_shut n 3
    split
    · exact g.disturb_shut n 4
    · exact h

/-- The rules of sections have run: no head is touched, and what is Disturbed or Blocked is still one of both. -/
structure SectionsRan (g h : Channel) : Prop where
  cfg : h.cfg = g.cfg
  heads : h.heads = g.heads
  shut : ∀ k, g.shut k → h.shut k

theorem SectionsRan.refl (g : Channel) : SectionsRan g g := ⟨rfl, rfl, fun _ h => h⟩

theorem SectionsRan.trans {f g h : Channel} (a : SectionsRan f g) (b : SectionsRan g h) : SectionsRan f h :=
  ⟨b.cfg.trans a.cfg, b.heads.trans a.heads, fun k hk => b.shut k (a.shut k hk)⟩

theorem SectionOnly.ran {n : Nat} {g h : Channel} (a : SectionOnly n g h) (hn : g.shut n → h.shut n) : SectionsRan g h := by
  refine ⟨a.cfg, a.heads, fun k hk => ?_⟩
  by_cases hkn : k = n
  · subst hkn
    exact hn hk
  · unfold Channel.shut
    rw [a.others k hkn]
    exact hk

theorem Channel.disturb_ran (g : Channel) (n cause : Nat) : SectionsRan g (g.disturb n cause) :=
  ((SectionOnly.refl n g).disturb cause).ran fun _ => g.disturb_shut n cause

theorem Channel.update_ran (g : Channel) (full : Bool) (n : Nat) : SectionsRan g (g.update full n) :=
  ((SectionOnly.refl n g).update full).ran fun h => Channel.update_shut h full

theorem foldl_sectionsRan {α : Type} {f : Channel → α → Channel} (hf : ∀ g x, SectionsRan g (f g x)) (l : List α) :
    ∀ g : Channel, SectionsRan g (l.foldl f g) := by
  induction l with
  | nil => exact .refl
  | cons x l ih => exact fun g => (hf g x).trans (ih (f g x))

/-- Where each step shuts its own section, all of them are shut in the end. -/
theorem foldl_shut {α : Type} {f : Channel → α → Channel} {n : α → Nat} (hf : ∀ g x, SectionsRan g (f g x))
    (hs : ∀ g x, (f g x).shut (n x)) (l : List α) : ∀ g : Channel, ∀ x, x ∈ l → (l.foldl f g).shut (n x) := by
  induction l with
  | nil => simp
  | cons y l ih =>
    intro g x hx
    obtain rfl | hx := List.mem_cons.1 hx
    · exact (foldl_sectionsRan hf l _).shut _ (hs g x)
    · exact ih _ x hx

/-! ### Heads -/

@[simp] theorem Channel.head_setHead_same (g : Channel) (cp : Nat) (h : Head) : (g.setHead cp h).head cp = h := tget_tset_same ..

theorem SectionsRan.head {g h : Channel} (a : SectionsRan g h) (cp : Nat) : h.head cp = g.head cp := by
  rw [Channel.head, a.heads, Channel.head]

theorem Head.fault_of_inService {h : Head} (hf : h.faulty = false) (cause : Nat) :
    (h.fault cause).faulty = true ∧ (h.fault cause).cause = cause := by
  simp [Head.fault, hf]

theorem Head.fuse_of_faulty {h : Head} (hf : h.faulty = true) (now : Nat) : h.fuse now = h := by
  simp [Head.fuse, hf]

theorem Channel.putHead_head (g : Channel) (cp : Nat) (h : Head) (cause : Nat) :
    (g.putHead cp h cause).cfg = g.cfg ∧ (g.putHead cp h cause).head cp = { h with evts := [] } := by
  unfold Channel.putHead
  extract_lets was replaced g1
  have hhead : g1.head cp = { h with evts := [] } := g.head_setHead_same cp _
  split
  · have hran := foldl_sectionsRan (fun g x => Channel.disturb_ran g x.1 cause) (g1.cfg.cp cp).bounds (g1.note (.fault cp))
    exact ⟨hran.cfg, (hran.head cp).trans hhead⟩
  · exact ⟨rfl, hhead⟩

/-- A head that was in service and is faulty disturbs its sections (R211). -/
theorem Channel.putHead_shut {g : Channel} {cp : Nat} {h : Head} (hf : h.faulty = true) (hw : (g.head cp).faulty = false) (cause : Nat) :
    ∀ x, x ∈ (g.cfg.cp cp).bounds → (g.putHead cp h cause).shut x.1 := by
  unfold Channel.putHead
  extract_lets was replaced g1
  rw [if_pos (by simp only [hf, was, hw, Bool.not_false, Bool.and_self])]
  exact foldl_shut (fun g x => Channel.disturb_ran g x.1 cause) (fun g x => Channel.disturb_shut g x.1 cause) (g1.cfg.cp cp).bounds
    (g1.note (.fault cp))

/-- What a head is once the quiet rule of a fused one has been applied (R210). -/
def Channel.quieted (g : Channel) (cp : Nat) (h : Head) : Head := if (g.cfg.cp cp).kind = .fused then h.fuse g.hz else h

theorem Channel.headDone_head (g : Channel) (full : Bool) (cp : Nat) (h : Head) :
    (g.headDone full cp h).cfg = g.cfg ∧ (g.headDone full cp h).head cp = { g.quieted cp h with evts := [] } := by
  obtain ⟨hcfg, hhead⟩ := g.putHead_head cp (g.quieted cp h) 2
  have hran := foldl_sectionsRan (fun g x => Channel.update_ran g full x.1) ((g.putHead cp (g.quieted cp h)).cfg.cp cp).bounds
    (g.putHead cp (g.quieted cp h))
  exact ⟨hran.cfg.trans hcfg, (hran.head cp).trans hhead⟩

/-- A head in service that faults stands faulty, and no section that it bounds stays in service. -/
theorem Channel.headDone_faulted {g : Channel} {cp : Nat} (hs : (g.head cp).faulty = false) (full : Bool) (cause : Nat) :
    HeadFaulted (g.headDone full cp ((g.head cp).fault cause)) cp cause := by
  obtain ⟨hf, hc⟩ := Head.fault_of_inService hs cause
  obtain ⟨hcfg, hhead⟩ := g.headDone_head full cp ((g.head cp).fault cause)
  have hquiet : g.quieted cp ((g.head cp).fault cause) = (g.head cp).fault cause := by
    rw [Channel.quieted, Head.fuse_of_faulty hf, ite_self]
  have hshut := Channel.putHead_shut (cp := cp) (h := g.quieted cp ((g.head cp).fault cause)) (by rw [hquiet]; exact hf) hs 2
  have hran := foldl_sectionsRan (fun g x => Channel.update_ran g full x.1)
    ((g.putHead cp (g.quieted cp ((g.head cp).fault cause))).cfg.cp cp).bounds (g.putHead cp (g.quieted cp ((g.head cp).fault cause)))
  rw [HeadFaulted, hhead, hcfg, hquiet]
  exact ⟨hf, hc, fun x hx => hran.shut x.1 (hshut x hx)⟩

/-! ### Time-driven rules (R195, R203, R210, R213) -/

section
variable {g : Channel} {cp u t : Nat} (hs : (g.head cp).faulty = false) (full : Bool)
include hs

theorem Channel.discrepancy_faulted {lh : Nat} (hlh : g.cfg.ofLegacy lh = some cp) (hd : (g.head cp).leg.seq.disagrees = true)
    (hu : (g.head cp).leg.since = some u) (ht : g.cfg.td ≤ (t - u) / 10000) : HeadFaulted (g.discrepancy full lh t) cp 8 := by
  have hhead : (g.head cp).discrepancy g.cfg.td t = (g.head cp).fault 8 := by
    simp [Head.discrepancy, LegHead.disc, hs, hd, hu, ht]
  simp only [Channel.discrepancy, hlh, hhead]
  exact Channel.headDone_faulted hs full 8

variable (hused : g.cfg.cpUsed cp = true)
include hused

theorem Channel.unresolved_faulted (hu : (g.head cp).core.split = some u) (ht : g.cfg.resolve * 1000000000 ≤ t - u) :
    HeadFaulted (g.unresolved full cp t) cp 4 := by
  simp only [Channel.unresolved, hu, hused, hs, ht, Bool.not_false, Bool.and_self, decide_true, if_true]
  exact Channel.headDone_faulted hs full 4

theorem Channel.disagree_faulted (hu : (g.head cp).disagree = some u) (ht : g.cfg.fuse * 1000000 ≤ t - u) :
    HeadFaulted (g.disagree full cp t) cp 10 := by
  simp only [Channel.disagree, hu, hused, hs, ht, Bool.not_false, Bool.and_self, decide_true, if_true]
  exact Channel.headDone_faulted hs full 10

end

/-- A head that starts again is in service with one reading of its final counts, which a fused head's legacy counts match (R197, R213). -/
theorem Channel.quieted_restart (g : Channel) (cp : Nat) (h : Head) (now : Nat) :
    (g.quieted cp (h.restart (g.cfg.cp cp).kind now)).faulty = false ∧
      (g.quieted cp (h.restart (g.cfg.cp cp).kind now)).core.readings = [{ c1 := h.core.base1, c2 := h.core.base2 }] := by
  unfold Channel.quieted
  split
  · next hk =>
    rw [hk]
    simp [Head.fuse, Head.restart, FibCore.begin]
  · exact ⟨rfl, rfl⟩

theorem Channel.headBack_restarts {g : Channel} {cp : Nat} (hused : g.cfg.cpUsed cp = true) (hf : (g.head cp).faulty = true)
    (hb : (g.head cp).back (g.rule cp) = true) (full : Bool) : ((g.headBack full cp).head cp).faulty = false ∧
      ((g.headBack full cp).head cp).core.readings = [{ c1 := (g.head cp).core.base1, c2 := (g.head cp).core.base2 }] := by
  have hrow : (g.headBack full cp).head cp = (g.headDone full cp ((g.head cp).restart (g.cfg.cp cp).kind g.hz)).head cp := by
    simp only [Channel.headBack, hused, hf, hb, Bool.and_self, if_true]
    rfl
  rw [hrow, (g.headDone_head ..).2]
  exact g.quieted_restart cp (g.head cp) g.hz

/-! ### Direct resets that have waited too long (R221) -/

/-- The only waiting reset of a section ends. -/
theorem Channel.resetTimeout_single {g : Channel} {n u t code : Nat} {q : QueuedCmd} (hw : (g.sec n).wait = [(u, q)])
    (ht : u + 10000000000 < t) (hc : code ≠ 0) : g.resetTimeout n t code =
      ({ g.setSec n { g.sec n with wait := [] } with done := g.done ++ [(q, code)] } : Channel).note (.sec 4) := by
  simp only [Channel.resetTimeout, hw, List.filter_cons, ht, decide_true, if_true, List.filter_nil, List.foldl_cons, List.foldl_nil,
    Channel.endReset, if_neg hc]

/-! ### What the channels report -/

/-- What the processor channel reports leaves nothing else but that it has served. -/
theorem State.procDrain_saf (s : State) : ∃ x, s.procDrain.saf = { s.saf with chan := { s.saf.chan.reported with served := x } } := by
  unfold State.procDrain
  extract_lets g x s1
  have h : OnlyParts [.regs, .copies, .frw, .events, .store] s1 (g.done.foldl State.resetEnded (g.notes.foldl State.chanNote s1)) := by
    simp +decide
  exact ⟨x, h.same .saf (by decide)⟩

theorem State.procDo_saf {s : State} (h : s.saf.running = true) (f : Channel → Channel) :
    ∃ x, (s.procDo f).saf = { s.saf with chan := { (f s.saf.chan).reported with served := x } } := by
  rw [State.procDo, if_pos h]
  exact State.procDrain_saf _

/-- A rule at one channel that runs: the channel becomes what the rule makes of it on its clock, its reports taken. -/
theorem State.chanAt_atSide {s : State} {side : EvalSide} (h : s.chanRuns side = true) (f : Bool → Nat → Channel → Channel) :
    ∃ full x, (s.atSide side f).chanAt side = { (f full (s.chanClock side) (s.chanAt side)).reported with served := x } := by
  cases side with
  | processor =>
    obtain ⟨x, hx⟩ := State.procDo_saf (s := s) h (f false s.tc.now)
    exact ⟨false, x, congrArg Saf.chan hx⟩
  | ledger => exact ⟨true, _, congrArg FdSafe.led (State.ledDo_fds (s := s) h (f true s.tc.fd))⟩

theorem Changes.eventsKept {ps : List Part} {l : List Nat} {s t : State} (h : Changes ps l s t) {a : Nat} (ha : a ∉ l) :
    EventsKept a s t := ⟨fun i hi => by rw [h.regs a ha]; exact hi⟩

theorem State.setEvt_eventsKept (s : State) (a i : Nat) : EventsKept a s (s.setEvt a i) := ⟨fun j hj => by
  rw [State.reg_setEvt, if_pos rfl]
  exact bitOf_setBit_of i hj⟩

theorem foldl_eventsKept {α : Type} {a : Nat} {f : State → α → State} (hf : ∀ s x, EventsKept a s (f s x)) (l : List α) :
    ∀ s : State, EventsKept a s (l.foldl f s) := by
  induction l with
  | nil => exact fun _ => ⟨fun _ h => h⟩
  | cons x l ih => exact fun s => (hf s x).trans (ih (f s x))

theorem State.chanNote_eventsKept (s : State) (x : ChanNote) : EventsKept Reg.HB_SEC_EVT s (s.chanNote x) := by
  cases x with
  | cpt b => exact ((State.setEvt_changes s Reg.HB_CPT_EVT b (by simp) (by decide)).2 (.refl [.events] [Reg.HB_CPT_EVT] s)).eventsKept (by decide)
  | sec b => exact s.setEvt_eventsKept Reg.HB_SEC_EVT b
  | fault cp =>
    have h : Changes [.events] [Reg.HB_CPT_FAULT_CNT] s (s.chanNote (.fault cp)) := by
      simp +decide [State.chanNote]
    exact h.eventsKept (by decide)
  | change n =>
    have h : Changes [.events] [] s (s.chanNote (.change n)) := by
      simp +decide [State.chanNote]
    exact h.eventsKept (by decide)

theorem State.resetEnded_eventsKept (s : State) (q : QueuedCmd × Nat) : EventsKept Reg.HB_SEC_EVT s (s.resetEnded q) := by
  unfold State.resetEnded
  extract_lets u
  have hu : Changes [.store, .events] [Reg.HB_JNL_EVT] s u :=
    (State.raise_changes _ 4 4 (by decide)).2 (State.journalAdd_changes ..)
  have hshown : OnlyParts [.frw] u (u.when (q.1.cmd.origin == .forerunner) fun s => { s with frw := { s.frw with result := frwResultOf q.2 } }) :=
    State.when_parts ((State.with_frw_parts (by decide)).2 (.refl ..)) |>.2 (.refl ..)
  exact (hu.eventsKept (by decide)).trans (hshown.eventsKept (by decide) _)

/-- A report of the sections is shown in HB_SEC_EVT once it has been taken over. -/
theorem State.foldl_chanNote_shown {b : Nat} (hb : b < 32) (l : List ChanNote) :
    ∀ s : State, .sec b ∈ l → bitOf ((l.foldl State.chanNote s).reg Reg.HB_SEC_EVT) b = true := by
  induction l with
  | nil => simp
  | cons x l ih =>
    intro s hx
    obtain rfl | hx := List.mem_cons.1 hx
    · refine (foldl_eventsKept State.chanNote_eventsKept l _).kept b ?_
      rw [State.chanNote, State.reg_setEvt, if_pos rfl]
      exact bitOf_setBit _ hb
    · exact ih _ hx

theorem State.procDo_shows {s : State} (h : s.saf.running = true) (f : Channel → Channel) {b : Nat} (hb : b < 32)
    (hn : .sec b ∈ (f s.saf.chan).notes) : bitOf ((s.procDo f).reg Reg.HB_SEC_EVT) b = true := by
  rw [State.procDo, if_pos h]
  exact (foldl_eventsKept State.resetEnded_eventsKept _ _).kept b (State.foldl_chanNote_shown hb _ _ hn)

end Sys2Proof.Machine
end

section
/-!
PROOF. Timers of heads and direct resets, and the boundary of a cycle (R195, R203, R210, R211, R213, R221, R251, R252, R263).
-/
namespace Sys2Proof.Machine

/-! ### The boundary of a cycle to which nothing has come -/

/-- The numbered cycle, its horizon taken. -/
def State.cycleBegun (s : State) : State :=
  (s.cycleNext s.dueTime).setMrg fun m => { m with hz := s.horizon, procIn := [] }

/-- The processor channel at a boundary: its horizon moves on, and every section is re-evaluated (R251, R252). -/
def State.procBounded (s : State) (hz : Nat) : State := s.procDo fun g => (g.horizon hz).updateAll true

/-- Of the safety part nothing has changed but the channel, and nothing of what the boundary is closed with. -/
structure ChannelBounded (s t : State) : Prop where
  saf : ∃ g, t.saf = { s.saf with chan := g }
  mrg : t.mrg = s.mrg
  tc : t.tc = s.tc
  fdUp : t.fdUp = s.fdUp
  boot : t.boot = s.boot

theorem State.procBounded_parts (s : State) (hz : Nat) : OnlyParts [.regs, .copies, .saf, .frw, .events, .store] s (s.procBounded hz) :=
  (State.procDo_parts _ _ (by decide)).2 (.refl ..)

theorem State.procBounded_bounded {s : State} (h : s.saf.running = true) (hz : Nat) : ChannelBounded s (s.procBounded hz) := by
  obtain ⟨x, hsaf⟩ := State.procDo_saf h fun g => (g.horizon hz).updateAll true
  have hparts := s.procBounded_parts hz
  exact ⟨⟨_, hsaf⟩, hparts.mrg_eq (by decide), (hparts.same .time (by decide)).2, hparts.same .fdUp (by decide),
    hparts.same .boot (by decide)⟩

/-- The cycle after its events and its commands, of which there are none. -/
def State.cycleJudged (s : State) : State := { s.cycleBegun.procBounded s.horizon with queue := [] }

theorem State.cycleJudged_bounded {e : State} (h : e.saf.running = true) : ChannelBounded e.cycleBegun e.cycleJudged := by
  obtain ⟨hsaf, hmrg, htc, hfd, hboot⟩ := State.procBounded_bounded (s := e.cycleBegun) h e.horizon
  exact ⟨hsaf, hmrg, htc, hfd, hboot⟩

theorem State.fence_of_empty {s : State} (h : s.queue = []) : s.fence = ({ s with queue := [] }, []) := by
  rw [State.fence, h]
  rfl

theorem State.procEvents_of_empty {s : State} (h : s.mrg.procIn = []) : s.procEvents = s.setMrg fun m => { m with procIn := [] } := by
  simp only [State.procEvents, h, List.foldl_nil]

theorem State.pairsSwap_of_unasked {s : State} (h : s.saf.swap = false) : s.pairsSwap = s := by
  simp only [State.pairsSwap, h, Bool.not_false, if_true]

theorem State.pairJoins_of_inService {s : State} {b : Bool} (h : (s.saf.pair b).st = .inService) : s.pairJoins b = s := by
  rw [State.pairJoins]
  exact if_pos (.inl (by rw [h]; decide))

theorem State.commitTakes_of_none {s : State} (h : s.str.commit = none) (bad : List Nat) : s.commitTakes bad = s := by
  simp only [State.commitTakes, h]

/-- A due boundary with no commit, swap, event or command. -/
theorem cycleBoundary_quiet {e : State} (hruns : e.cyclesRun = true) (hdue : e.boundaryDue = true) (hcommit : e.str.commit = none)
    (hqueue : e.queue = []) (hin : e.mrg.procIn = []) (hswap : e.saf.swap = false) (ha : e.saf.a.st = .inService)
    (hb : e.saf.b.st = .inService) :
    cycleBoundary e = (e.cycleJudged.cycleClose e.horizon []).snapCapture := by
  have hevents : ((e.cycleNext e.dueTime).setMrg fun m => { m with hz := e.horizon }).procEvents = e.cycleBegun :=
    State.procEvents_of_empty (s := (e.cycleNext e.dueTime).setMrg fun m => { m with hz := e.horizon }) hin
  have hfence : (e.cycleBegun.procBounded e.horizon).fence = (e.cycleJudged, []) :=
    State.fence_of_empty (((e.cycleBegun.procBounded_parts e.horizon).same .commands (by decide)).1.trans hqueue)
  unfold cycleBoundary
  rw [if_neg (by simp only [hruns, hdue, Bool.not_true, Bool.or_self, Bool.false_eq_true, not_false_eq_true]),
    State.commitTakes_of_none hcommit, State.pairsSwap_of_unasked (s := e.cycleNext e.dueTime) hswap,
    State.pairJoins_of_inService (s := e.cycleNext e.dueTime) (b := false) ha,
    State.pairJoins_of_inService (s := e.cycleNext e.dueTime) (b := true) hb]
  dsimp -zeta only
  extract_lets begun hz events judged
  have hjudged : judged = e.cycleBegun.procBounded e.horizon := congrArg (State.procBounded · e.horizon) hevents
  rw [hjudged, hfence]
  rfl

/-- What goes first onto ISO-A, which is live, stays there alone. -/
theorem State.isoSend_first {s : State} (hlive : s.mrg.deadA = false) (hu : s.fdUp = true) (hshaken : s.boot.shaken = true)
    (hiso : s.mrg.isoA = []) {i : IsoItem} (hi : ∀ d, i ≠ .replayDone d) : s.isoSend i = s.setMrg fun m => { m with isoA := [i] } := by
  rw [State.isoSend, if_neg (by simp [hlive, hu, hshaken]), hiso]
  cases i with
  | replayDone d => exact absurd rfl (hi d)
  | _ => rfl

/-- The verdict of the cycle is ready, and the cycle mark is the only item on ISO-A. -/
theorem State.cycleClose_leaves {s : State} (hrun : s.saf.running = true) (hlive : s.mrg.deadA = false) (hu : s.fdUp = true)
    (hshaken : s.boot.shaken = true) (hiso : s.mrg.isoA = []) (hz : Nat) (cmds : List QueuedCmd) :
    (∃ g, (s.cycleClose hz cmds).saf = { s.saf with chan := g, ready := some ⟨s.saf.cycle, g.states, s.mrg.lastKey, s.tc.now⟩ }) ∧
      (s.cycleClose hz cmds).mrg = { s.mrg with isoA := [.cycle s.saf.cycle s.saf.cycleTc hz s.mrg.lastKey cmds] } := by
  unfold State.cycleClose
  extract_lets u v
  obtain ⟨⟨g, hsaf⟩, hmrg, htc, hfd, hboot⟩ : ChannelBounded s u := State.procBounded_bounded hrun hz
  clear_value u
  have hv : v = u.setSaf fun f => { f with ready := some ⟨f.cycle, f.chan.states, u.mrg.lastKey, u.tc.now⟩ } := by
    simp only [v, State.when, show u.saf.running = true by rw [hsaf]; exact hrun, if_true]
  have hvs : v.saf = { s.saf with chan := g, ready := some ⟨s.saf.cycle, g.states, s.mrg.lastKey, s.tc.now⟩ } := by
    rw [hv, ← hmrg, ← htc]
    simp only [State.setSaf, hsaf]
  have hvm : v.mrg = s.mrg := by rw [hv]; exact hmrg
  have hvf : v.fdUp = true := by rw [hv]; exact hfd.trans hu
  have hvb : v.boot.shaken = true := by rw [hv]; exact (congrArg Boot.shaken hboot).trans hshaken
  rw [State.isoSend_first (by rw [hvm]; exact hlive) hvf hvb (by rw [hvm]; exact hiso) (by simp)]
  refine ⟨⟨g, hvs⟩, ?_⟩
  show { v.mrg with isoA := [.cycle v.saf.cycle v.saf.cycleTc hz v.mrg.lastKey cmds] } = _
  rw [hvm, hvs]

/-! ### Direct resets that have waited too long (R221) -/

/-- The only waiting reset of a section ends: the section keeps its state and its counts, and the end is reported. -/
theorem directResetTimeout_leaves {e : State} {n : Nat} {d : List (QueuedCmd × Nat)} (hr : e.saf.running = true)
    (h : e.saf.chan.resetTimeout n e.tc.now resEdgeTimeout =
      ({ e.saf.chan.setSec n { e.saf.chan.sec n with wait := [] } with done := d } : Channel).note (.sec 4)) :
    (directResetTimeout n e).saf.chan.sec n = { e.saf.chan.sec n with wait := [] } ∧
      (directResetTimeout n e).saf.chan.counts n = e.saf.chan.counts n ∧
      bitOf ((directResetTimeout n e).reg Reg.HB_SEC_EVT) 4 = true := by
  obtain ⟨x, hsaf⟩ := State.procDo_saf hr (·.resetTimeout n e.tc.now resEdgeTimeout)
  have hshown := State.procDo_shows hr (·.resetTimeout n e.tc.now resEdgeTimeout) (b := 4) (by decide)
    (by rw [h]; exact List.mem_append_right _ List.mem_cons_self)
  rw [h] at hsaf
  rw [directResetTimeout]
  generalize e.procDo (·.resetTimeout n e.tc.now resEdgeTimeout) = u at *
  have hled := u.ledDo_changes (·.resetTimeout n e.tc.fd resEdgeTimeout)
  have hsec := e.saf.chan.sec_setSec_same n { e.saf.chan.sec n with wait := [] }
  have honly := (SectionOnly.refl n e.saf.chan).setSec { e.saf.chan.sec n with wait := [] }
  rw [show _ = u.saf from hled.parts.same .saf (by decide), hsaf]
  exact ⟨hsec, honly.counts (congrArg Sec.offHi hsec :) (congrArg Sec.offLo hsec :), (hled.eventsKept (by decide)).kept 4 hshown⟩

/-! ### The rows -/

/-- Settles O21: at a channel that runs a timer is the channel's own rule (`State.chanAt_atSide`), by which a head in service faults
(`Channel.headDone_faulted`) and a faulty one restarts (`Channel.headBack_restarts`); a boundary with nothing waiting is
`cycleBoundary_quiet`. RESOLVE_MAX and FUSE_WIN are measured on the clock of log entry 38. -/
theorem channelTimers : Obligations.ChannelTimers := by
  unfold Obligations.ChannelTimers
  refine ⟨?discrepancy, ?unresolved, ?disagree, ?back, ?reset, ?boundary⟩
  case discrepancy =>
    intro dt s e side lh cp u he hr hlh hs hd hu ht
    obtain ⟨full, x, hchan⟩ := State.chanAt_atSide hr fun full _ g => g.discrepancy full lh e.tc.fd
    refine ⟨legacyDiscrepancy side lh e, after_eq he _, ?_, (legacyDiscrepancy_parts _ _ _ (by decide)).2 (.refl ..)⟩
    rw [legacyDiscrepancy, hchan]
    exact Channel.discrepancy_faulted hs full hlh hd hu ht
  case unresolved =>
    intro dt s e side cp u he hr hused hs hu ht
    obtain ⟨full, x, hchan⟩ := State.chanAt_atSide hr fun full t g => g.unresolved full cp t
    refine ⟨headUnresolved side cp e, after_eq he _, ?_, (headUnresolved_parts _ _ _ (by decide)).2 (.refl ..)⟩
    rw [headUnresolved, hchan]
    exact Channel.unresolved_faulted hs full hused hu ht
  case disagree =>
    intro dt s e side cp u he hr hused hs hu ht
    obtain ⟨full, x, hchan⟩ := State.chanAt_atSide hr fun full t g => g.disagree full cp t
    refine ⟨fusedDisagree side cp e, after_eq he _, ?_, (fusedDisagree_parts _ _ _ (by decide)).2 (.refl ..)⟩
    rw [fusedDisagree, hchan]
    exact Channel.disagree_faulted hs full hused hu ht
  case back =>
    intro dt s e side cp he hr hused hf hb
    obtain ⟨full, x, hchan⟩ := State.chanAt_atSide hr fun full _ g => g.headBack full cp
    obtain ⟨hback, hreadings⟩ := Channel.headBack_restarts hused hf hb full
    refine ⟨headBackInService side cp e, after_eq he _, ?_, ?_, (headBackInService_parts _ _ _ (by decide)).2 (.refl ..)⟩
    · rw [headBackInService, hchan]
      exact hback
    · rw [headBackInService, hchan]
      exact hreadings
  case reset =>
    intro dt s e n u q he hr hw ht
    have hended := Channel.resetTimeout_single (code := resEdgeTimeout) hw ht (by decide)
    obtain ⟨hsec, hcounts, hshown⟩ := directResetTimeout_leaves hr hended
    refine ⟨directResetTimeout n e, after_eq he _, ?_, ?_, hcounts, hshown, (directResetTimeout_parts _ _ (by decide)).2 (.refl ..)⟩
    · rw [hsec]
    · rw [hsec]
  case boundary =>
    intro dt s e he hup hruns hdue hcommit hqueue hin hswap ha hb hrun hlive hu hshaken hiso
    refine ⟨cycleBoundary e, afterHb_of_up he hup _, ?_⟩
    rw [cycleBoundary_quiet hruns hdue hcommit hqueue hin hswap ha hb]
    obtain ⟨⟨g, hsaf⟩, hmrg, htc, hfd, hboot⟩ := State.cycleJudged_bounded hrun
    generalize e.cycleJudged = u at *
    obtain ⟨⟨l, hclosed⟩, hsent⟩ := State.cycleClose_leaves ((congrArg Saf.running hsaf).trans hrun)
      ((congrArg Merge.deadA hmrg).trans hlive) (hfd.trans hu) ((congrArg Boot.shaken hboot).trans hshaken)
      ((congrArg Merge.isoA hmrg).trans hiso) e.horizon []
    generalize u.cycleClose e.horizon [] = v at *
    have hsnap : OnlyParts [.snaps] v v.snapCapture := (State.snapCapture_parts _ (by decide)).2 (.refl ..)
    rw [hsnap.mrg_eq (by decide), show _ = v.saf from hsnap.same .saf (by decide), hclosed, hsent, hsaf, hmrg, htc]
    exact ⟨rfl, rfl, rfl, rfl, rfl, rfl, rfl, rfl⟩

end Sys2Proof.Machine
end

section
/-!
PROOF. Section commands: what they make of a channel, and what the fencing point makes of the device (R218, R220 to R222, R351, R354).
-/
namespace Sys2Proof.Machine

/-! ### At a channel (R218, R220 to R222) -/

section
variable {g : Channel} {n : Nat}

theorem Channel.resetPrep_ok (hst : (g.sec n).st = .disturbed ∨ (g.sec n).st = .pending) (hf : g.headFaulty n = false) :
    g.resetPrep n = ((g.zero n).goto n .pending, .ok) := by
  obtain hst | hst := hst <;> simp [Channel.resetPrep, hst, hf]

/-- A preparatory reset leaves the section pending with counts 0, and no axle swept yet. -/
theorem Channel.zero_goto_pending (g : Channel) (n : Nat) : (((g.zero n).goto n .pending).sec n).st = .pending ∧
    ((g.zero n).goto n .pending).counts n = (0, 0) ∧ (((g.zero n).goto n .pending).sec n).sweep = 0 ∧
    SectionOnly n g ((g.zero n).goto n .pending) := by
  obtain ⟨t, h⟩ := (g.zero n).sec_goto n .pending
  refine ⟨Channel.st_goto .., (Channel.counts_goto ..).trans (g.counts_zero n), ?_, (SectionOnly.refl n g).zero.goto _⟩
  rw [h, Channel.sec_zero]

/-- A direct reset that completes leaves the section Clear with counts 0. -/
theorem Channel.resetDone_clear (g : Channel) (n : Nat) : ((g.resetDone n).sec n).st = .clear ∧ (g.resetDone n).counts n = (0, 0) ∧
    SectionOnly n g (g.resetDone n) :=
  ⟨(g.zero n).st_goto n .clear, ((g.zero n).counts_goto n .clear).trans (g.counts_zero n), ((SectionOnly.refl n g).zero.goto _).note _⟩

section
variable {k t : Nat} {c : QueuedCmd} (hin : (g.cfg.sec n).rstin = some k) (hst : (g.sec n).st = .disturbed)
  (hf : g.headFaulty n = false) (hh : g.headHolding n = false)
include hin hst hf hh

theorem Channel.resetDirect_near {x : Nat} (hx : tfind g.edges k = some x) (hn : near10 x t = true) :
    g.resetDirect n t c = (g.resetDone n, .ok) := by
  simp [Channel.resetDirect, hin, hst, hf, hh, hx, hn]

theorem Channel.resetDirect_waits (hx : ∀ x, tfind g.edges k = some x → near10 x t = false) :
    g.resetDirect n t c = (g.setSec n { g.sec n with wait := (g.sec n).wait ++ [(t, c)] }, .waitEdge) := by
  cases hedge : tfind g.edges k with
  | none => simp [Channel.resetDirect, hin, hst, hf, hh, hedge]
  | some x => simp [Channel.resetDirect, hin, hst, hf, hh, hedge, hx x hedge]

end

/-- A block takes effect in every other state and leaves the counts. -/
theorem Channel.block_ok (hst : (g.sec n).st ≠ .blocked) : ∃ h, g.block n = (h, .ok) ∧ (h.sec n).st = .blocked ∧
    h.counts n = g.counts n ∧ SectionOnly n g h := by
  refine ⟨_, if_neg hst, Channel.st_goto .., ?_, ((SectionOnly.refl n g).setSec _).goto _⟩
  refine (Channel.counts_goto ..).trans (((SectionOnly.refl n g).setSec _).counts ?_ ?_) <;> rw [Channel.sec_setSec_same]

/-- The disturbance that an unblock gives a section: that of a commit (COMMIT), or the one recorded. -/
def Sec.unblocked (x : Sec) : Sec := { x with cause := if x.commit then 6 else x.recorded, recorded := 0, commit := false }

theorem Channel.unblock_disturbs (hst : (g.sec n).st = .blocked) (hrec : (g.sec n).commit = true ∨ (g.sec n).recorded ≠ 0)
    (full : Bool) : ∃ h, g.unblock full n = (h, .ok) ∧ (h.sec n).st = .disturbed ∧
      (h.sec n).cause = (if (g.sec n).commit then 6 else (g.sec n).recorded) ∧ (h.sec n).recorded = 0 ∧ SectionOnly n g h := by
  obtain ⟨t, h⟩ := (g.setSec n (g.sec n).unblocked).sec_goto n .disturbed
  rw [Channel.sec_setSec_same] at h
  refine ⟨((g.setSec n (g.sec n).unblocked).goto n .disturbed).note (.sec 0), ?_, ?_, ?_, ?_,
    (((SectionOnly.refl n g).setSec _).goto _).note _⟩
  · simp only [Channel.unblock, hst, ne_eq, not_true_eq_false, if_false, if_pos hrec, Sec.unblocked]
  · rw [Channel.sec_note, h]
  · rw [Channel.sec_note, h]
    rfl
  · rw [Channel.sec_note, h]
    rfl

theorem Channel.disturb_ne_blocked (hst : (g.sec n).st ≠ .blocked) (cause : Nat) : ((g.disturb n cause).sec n).st ≠ .blocked := by
  unfold Channel.disturb
  extract_lets x g1 g2
  rw [if_neg hst]
  split
  · exact hst
  · rw [Channel.sec_note, Channel.st_goto]
    decide

/-- The rules of the processor channel block no section. -/
theorem Channel.update_ne_blocked (hst : (g.sec n).st ≠ .blocked) : ((g.update false n).sec n).st ≠ .blocked := by
  unfold Channel.update
  extract_lets x
  split
  · exact hst
  dsimp -zeta only
  extract_lets swept
  have hswept : (swept.sec n).st = x.st := by rw [Channel.sec_setSec_same]
  split
  · exact Channel.disturb_ne_blocked hst 3
  split
  · exact Channel.disturb_ne_blocked hst 4
  split
  · rw [Channel.sec_note, Channel.st_goto]
    decide
  · rw [Bool.not_false, if_pos rfl, hswept]
    exact hst

/-- An unblock of a section with nothing recorded leaves it to its counts. -/
theorem Channel.unblock_counts (hst : (g.sec n).st = .blocked) (hcommit : (g.sec n).commit = false) (hrec : (g.sec n).recorded = 0) :
    ∃ h, g.unblock false n = (h, .ok) ∧ (h.sec n).st ≠ .blocked ∧ SectionOnly n g h := by
  refine ⟨(g.goto n (if g.clearCond n then .clear else .occupied)).update false n, ?_, Channel.update_ne_blocked ?_,
    ((SectionOnly.refl n g).goto _).update _⟩
  · simp [Channel.unblock, hst, hcommit, hrec]
  · rw [Channel.st_goto]
    split <;> decide

end

section
variable {g h : Channel} {full : Bool} {t : Nat} {c : Command} {r : SecResult}

theorem Channel.command_resetPrep (hr : g.resetPrep (QueuedCmd.section ⟨0x10, c⟩) = (h, r)) :
    g.command full t ⟨0x10, c⟩ = (h, some r) := by
  simp only [Channel.command, hr]

theorem Channel.command_resetDirect (hr : g.resetDirect (QueuedCmd.section ⟨0x11, c⟩) t ⟨0x11, c⟩ = (h, r)) :
    g.command full t ⟨0x11, c⟩ = (h, some r) := by
  simp only [Channel.command, hr]

theorem Channel.command_block (hr : g.block (QueuedCmd.section ⟨0x12, c⟩) = (h, r)) : g.command full t ⟨0x12, c⟩ = (h, some r) := by
  simp only [Channel.command, hr]

theorem Channel.command_unblock (hr : g.unblock full (QueuedCmd.section ⟨0x13, c⟩) = (h, r)) :
    g.command full t ⟨0x13, c⟩ = (h, some r) := by
  simp only [Channel.command, hr]

end

/-! ### What the arbiter admits (R351) -/

/-- What stands of a command that the arbiter hears. -/
structure Heard (s : State) (q : QueuedCmd) : Prop where
  up : s.boot.up = true
  lease : s.leaseHolds = true
  counted : isCounted q.cmd.origin = true
  admitted : s.admission q false = .admitted
  goes : ∀ {P : State → Prop} {go : State → State}, (∀ f, P (go (s.modDomCmds q.cmd.dom f))) → P (s.arbiter q go)

section
variable {s : State} {q : QueuedCmd}

theorem State.heard (h : s.hears q = true) : Heard s q := by
  simp only [State.hears, Bool.and_eq_true, Bool.not_eq_true', bne_iff_ne, ne_eq, decide_eq_true_eq] at h
  obtain ⟨⟨⟨⟨⟨⟨⟨⟨⟨hup, hpwr⟩, hrom⟩, hfrozen⟩, hclosed⟩, hlease⟩, htokens⟩, hout⟩, hcounted⟩, hadm⟩ := h
  refine ⟨hup, hlease, hcounted, hadm, fun {P go} hgo => ?_⟩
  unfold State.arbiter
  extract_lets d x
  rw [if_neg (by simpa [hrom] using hpwr), if_neg (by simp [d, hfrozen, hclosed])]
  dsimp -zeta only
  extract_lets paced taken
  have hpaced : paced = false := by
    simp only [paced, Bool.or_eq_false_iff, beq_eq_false_iff_ne, ne_eq, decide_eq_false_iff_not, not_le]
    exact ⟨htokens, hout⟩
  have htaken : taken.admission q paced = .admitted := by
    rw [hpaced]
    exact hadm
  rw [htaken]
  exact hgo _

theorem QueuedCmd.code_of_isSection (h : q.isSection = true) : q.code = 0x10 ∨ q.code = 0x11 ∨ q.code = 0x12 ∨ q.code = 0x13 := by
  simp only [QueuedCmd.isSection, Bool.and_eq_true, decide_eq_true_eq] at h
  omega

/-- A section command that the arbiter hears names a section in use. -/
theorem Heard.secUsed (h : Heard s q) (hq : q.isSection = true) : s.saf.chan.cfg.secUsed q.section = true := by
  have hadm := h.admitted
  unfold State.admission at hadm
  split at hadm
  · cases hadm
  split at hadm
  · cases hadm
  split at hadm
  · cases hadm
  next hargs =>
    obtain hc | hc | hc | hc := QueuedCmd.code_of_isSection hq <;>
      exact (by simpa [State.argsOk, hc] using hargs : _ ∧ _).2

/-! ### The fencing point (R351, R354) -/

theorem leaseLapse_of_holds (h : s.leaseHolds = true) : leaseLapse s = s := by
  refine if_neg ?_
  rintro ⟨hheld, hlate⟩
  simp only [State.leaseHolds, Bool.or_eq_true, decide_eq_true_eq] at h
  obtain h | h := h
  · simp [Option.isNone_iff_eq_none.1 h] at hheld
  · omega

theorem State.effect_of_isSection (h : q.isSection = true) (t : Nat) : s.effect t q = sectionCommand t q s := by
  obtain hc | hc | hc | hc := QueuedCmd.code_of_isSection h <;> simp only [State.effect, hc]

theorem State.cmdPost_of_isSection (h : q.isSection = true) : s.cmdPost q = s := by
  obtain hc | hc | hc | hc := QueuedCmd.code_of_isSection h <;> simp only [State.cmdPost, hc]

/-- The device state, a commit and the pairs allow the section command. -/
theorem State.sectionBarred_eq_false (hrun : s.saf.running = true)
    (hdev : s.serving = true ∨ q.isReset = false ∧ s.dev = .maintenance) (hc : q.code = 0x13 → s.commitHolds q.section = false) :
    s.sectionBarred q = false := by
  have hstates : (s.dev == .service || s.dev == .degraded || (!q.isReset && s.dev == .maintenance)) = true := by
    obtain h | ⟨hq, hd⟩ := hdev
    · rw [show (s.dev == .service || s.dev == .degraded) = true from h, Bool.true_or]
    · simp [hq, hd]
  have hheld : (q.code == 0x13 && s.commitHolds q.section) = false := by
    simpa using hc
  rw [State.sectionBarred, hstates, hrun, hheld]
  rfl

/-- A section command is the sender's to give, and nothing bars it. -/
structure SectionAllowed (s : State) (q : QueuedCmd) : Prop where
  code : q.isSection = true
  lease : s.needsLease q = true → s.fenced q = true
  owner : s.notOwner q = false
  unbarred : s.sectionBarred q = false

variable {g : Channel} {r : SecResult}

/-- What a section command that takes effect leaves at its fencing point. -/
theorem SectionAllowed.applyCmd (ha : SectionAllowed s q) (hl : s.leaseHolds = true) (hu : s.saf.chan.cfg.secUsed q.section = true) (t : Nat)
    (hg : s.saf.chan.command false t q = (g, some r)) (hr : r.code ≤ 1) : s.applyCmd t q =
      ((s.setSaf fun f => { f with chan := g }).procDrain.accepted t q ⟨r.code, []⟩, r.code) := by
  have hfenced : (s.needsLease q && !s.fenced q) = false := by
    cases hn : s.needsLease q with
    | false => rfl
    | true => simp [ha.lease hn]
  have hcmd : sectionCommand t q s = ((s.setSaf fun f => { f with chan := g }).procDrain, ⟨r.code, []⟩) := by
    simp only [sectionCommand, ha.owner, hu, ha.unbarred, hg, Bool.not_true, Bool.false_eq_true, if_false, Option.map_some, Option.getD_some]
  simp only [State.applyCmd, leaseLapse_of_holds hl, hfenced, State.effect_of_isSection ha.code, hcmd, Bool.false_eq_true, if_false, if_pos hr]

/-- An accepted section command is journaled and answered, and the channels stay as they are. -/
theorem State.accepted_of_isSection (hq : q.isSection = true) (hc : isCounted q.cmd.origin = true) (t code : Nat) :
    (s.accepted t q ⟨code, []⟩).saf = s.saf ∧ Answered q code s (s.accepted t q ⟨code, []⟩) := by
  have hj : OnlyParts [.regs, .copies, .events, .store] s (s.journalAdd t q.cmd.dom code q.code (s.cmdDigest q)) :=
    (State.journalAdd_parts _ _ _ _ _ _ (by decide)).2 (.refl ..)
  simp only [State.accepted, State.cmdPost_of_isSection hq, hc, if_true]
  exact ⟨hj.same .saf (by decide), _, _, congrArg (· ++ _) (hj.same .commands (by decide)).2.2⟩

/-- The processor channel has become `g`, its reports taken, and the command has been answered. -/
structure SectionTaken (g : Channel) (q : QueuedCmd) (code : Nat) (s t : State) : Prop where
  sec : ∀ k, t.saf.chan.sec k = g.sec k
  counts : ∀ k, t.saf.chan.counts k = g.counts k
  heads : t.saf.chan.heads = g.heads
  answered : Answered q code s t

/-- After the effect the command is journaled and answered, and the ledger has its share: the processor channel stays. -/
theorem State.accepted_taken (hq : q.isSection = true) (hc : isCounted q.cmd.origin = true) (g : Channel) (t u code : Nat) (b : Bool) :
    SectionTaken g q code s (((s.setSaf fun f => { f with chan := g }).procDrain.accepted t q ⟨code, []⟩).when b (·.ledSection u q)) := by
  obtain ⟨x, hdrained⟩ := (s.setSaf fun f => { f with chan := g }).procDrain_saf
  have hparts : OnlyParts [.regs, .copies, .saf, .frw, .events, .store] s (s.setSaf fun f => { f with chan := g }).procDrain :=
    (State.procDrain_parts _ (by decide)).2 ((State.setSaf_parts _ _ (by decide)).2 (.refl ..))
  generalize (s.setSaf fun f => { f with chan := g }).procDrain = w at *
  obtain ⟨hsaf, jseq, data, hanswer⟩ := State.accepted_of_isSection (s := w) hq hc t code
  generalize w.accepted t q ⟨code, []⟩ = v at *
  have hled : OnlyParts [.regs, .copies, .outs, .mrg, .fds, .events] v (v.when b (·.ledSection u q)) :=
    (State.when_parts ((State.ledSection_parts _ _ _ (by decide)).2 (.refl ..))).2 (.refl ..)
  have hchan : (v.when b (·.ledSection u q)).saf.chan = { g.reported with served := x } := by
    rw [show _ = v.saf from hled.same .saf (by decide), hsaf, hdrained]
    rfl
  refine ⟨fun k => (congrArg (Channel.sec · k) hchan :), fun k => (congrArg (Channel.counts · k) hchan :), (congrArg Channel.heads hchan :),
    jseq, data, ?_⟩
  rw [(hled.same .commands (by decide)).2.2, hanswer, (hparts.same .commands (by decide)).2.2]

/-- A section command that the arbiter hears and nothing bars takes effect at the processor channel and is answered. -/
theorem directCommand_section {e : State} {code : Nat} {c : Command} (ha : SectionAllowed e ⟨code, c⟩) (hh : Heard e ⟨code, c⟩)
    (hg : e.saf.chan.command false e.tc.now ⟨code, c⟩ = (g, some r)) (hr : r.code ≤ 1) :
    SectionTaken g ⟨code, c⟩ r.code e (directCommand code c e) := by
  unfold directCommand
  refine hh.goes (P := SectionTaken g ⟨code, c⟩ r.code e) fun f => ?_
  have hallowed : SectionAllowed (e.modDomCmds c.dom f) ⟨code, c⟩ := ⟨ha.code, ha.lease, ha.owner, ha.unbarred⟩
  dsimp only
  rw [hallowed.applyCmd hh.lease (hh.secUsed ha.code) (e.modDomCmds c.dom f).tc.now hg hr]
  obtain ⟨hsec, hcounts, hheads, hanswer⟩ := State.accepted_taken (s := e.modDomCmds c.dom f) ha.code hh.counted g
    (e.modDomCmds c.dom f).tc.now _ r.code (QueuedCmd.isSection ⟨code, c⟩ && decide (r.code ≤ 1))
  exact ⟨hsec, hcounts, hheads, hanswer⟩

/-- The same for the row of the command. -/
theorem afterHb_section {s e : State} {dt code : Nat} {c : Command} (he : s.elapse dt = e) (hh : Heard e ⟨code, c⟩)
    (ha : SectionAllowed e ⟨code, c⟩) (hg : e.saf.chan.command false e.tc.now ⟨code, c⟩ = (g, some r)) (hr : r.code ≤ 1) :
    ∃ t, s.afterHb dt (directCommand code c) = .next t ∧ SectionTaken g ⟨code, c⟩ r.code e t :=
  ⟨_, afterHb_of_up he hh.up _, directCommand_section ha hh hg hr⟩

end

/-- A reset of a host in Service or Degraded, under the lease and its epoch, for a section that HD7 does not own. -/
theorem SectionAllowed.reset {s : State} {q : QueuedCmd} (hq : q.code = 0x10 ∨ q.code = 0x11) (hf : s.fenced q = true)
    (hrun : s.saf.running = true) (hserve : s.serving = true) (hown : s.frwOwns q.section = false) (hc : isCounted q.cmd.origin = true) :
    SectionAllowed s q := by
  refine ⟨?_, fun _ => hf, ?_, State.sectionBarred_eq_false hrun (.inl hserve) ?_⟩
  · obtain h | h := hq <;> simp [QueuedCmd.isSection, h]
  · simp [State.notOwner, hown, hc]
  · obtain h | h := hq <;> simp [h]

/-- A block or an unblock, which needs no lease, in Service, Degraded or Maintenance. -/
theorem SectionAllowed.block {s : State} {q : QueuedCmd} (hq : q.code = 0x12 ∨ q.code = 0x13) (hrun : s.saf.running = true)
    (hdev : s.serving = true ∨ s.dev = .maintenance) (hc : q.code = 0x13 → s.commitHolds q.section = false) : SectionAllowed s q := by
  have hreset : q.isReset = false := by
    obtain h | h := hq <;> simp [QueuedCmd.isReset, h]
  refine ⟨?_, ?_, ?_, State.sectionBarred_eq_false hrun (hdev.imp_right fun h => ⟨hreset, h⟩) hc⟩
  · obtain h | h := hq <;> simp [QueuedCmd.isSection, h]
  · obtain h | h := hq <;> simp [State.needsLease, h]
  · simp [State.notOwner, hreset]

/-! ### The rows -/

/-- Settles O25: a section command that the arbiter hears and nothing bars takes effect at the processor channel and is answered
(`afterHb_section`); what it makes of its section, and that it leaves the others and the heads, is the channel's own. That further
direct resets may wait beside the first is log entry 43. -/
theorem sectionCommands : Obligations.SectionCommands := by
  unfold Obligations.SectionCommands
  refine ⟨?prep, ?direct, ?waits, ?block, ?disturbs, ?counts⟩
  case prep =>
    intro dt s e c n he hh hf hn hrun hserve hown hst hfaulty
    subst hn
    have hheard := State.heard hh
    obtain ⟨t, hrow, htaken⟩ := afterHb_section he hheard (.reset (.inl rfl) hf hrun hserve hown hheard.counted)
      (Channel.command_resetPrep (Channel.resetPrep_ok hst hfaulty)) (by decide)
    obtain ⟨hpending, hcounts, hsweep, honly⟩ := e.saf.chan.zero_goto_pending (QueuedCmd.section ⟨0x10, c⟩)
    refine ⟨t, hrow, ?_⟩
    simp only [htaken.sec, htaken.counts, htaken.heads]
    exact ⟨hpending, hcounts, hsweep, honly.others, honly.heads, htaken.answered⟩
  case direct =>
    intro dt s e c n k x he hh hf hn hrun hserve hown hst hfaulty hholding hin hx hnear
    subst hn
    have hheard := State.heard hh
    obtain ⟨t, hrow, htaken⟩ := afterHb_section he hheard (.reset (.inr rfl) hf hrun hserve hown hheard.counted)
      (Channel.command_resetDirect (Channel.resetDirect_near hin hst hfaulty hholding hx hnear)) (by decide)
    obtain ⟨hclear, hcounts, honly⟩ := e.saf.chan.resetDone_clear (QueuedCmd.section ⟨0x11, c⟩)
    refine ⟨t, hrow, ?_⟩
    simp only [htaken.sec, htaken.counts, htaken.heads]
    exact ⟨hclear, hcounts, honly.others, honly.heads, htaken.answered⟩
  case waits =>
    intro dt s e c n k he hh hf hn hrun hserve hown hst hfaulty hholding hin hx
    subst hn
    have hheard := State.heard hh
    obtain ⟨t, hrow, htaken⟩ := afterHb_section he hheard (.reset (.inr rfl) hf hrun hserve hown hheard.counted)
      (Channel.command_resetDirect (Channel.resetDirect_waits hin hst hfaulty hholding hx)) (by decide)
    exact ⟨t, hrow, (htaken.sec _).trans (Channel.sec_setSec_same ..), htaken.heads, htaken.answered⟩
  case block =>
    intro dt s e c n he hh hn hrun hdev hst
    subst hn
    obtain ⟨g, hblock, hblocked, hcounts, honly⟩ := Channel.block_ok hst
    obtain ⟨t, hrow, htaken⟩ := afterHb_section he (State.heard hh) (.block (.inl rfl) hrun hdev (by simp)) (Channel.command_block hblock)
      (by decide)
    refine ⟨t, hrow, ?_⟩
    simp only [htaken.sec, htaken.counts, htaken.heads]
    exact ⟨hblocked, hcounts, honly.others, honly.heads, htaken.answered⟩
  case disturbs =>
    intro dt s e c n he hh hn hrun hdev hholds hst hrec
    subst hn
    obtain ⟨g, hunblock, hdisturbed, hcause, hrecorded, honly⟩ := Channel.unblock_disturbs hst hrec false
    obtain ⟨t, hrow, htaken⟩ := afterHb_section he (State.heard hh) (.block (.inr rfl) hrun hdev fun _ => hholds)
      (Channel.command_unblock hunblock) (by decide)
    refine ⟨t, hrow, ?_⟩
    simp only [htaken.sec, htaken.heads]
    exact ⟨hdisturbed, hcause, hrecorded, honly.others, honly.heads, htaken.answered⟩
  case counts =>
    intro dt s e c n he hh hn hrun hdev hholds hst hcommit hrec
    subst hn
    obtain ⟨g, hunblock, hfree, honly⟩ := Channel.unblock_counts hst hcommit hrec
    obtain ⟨t, hrow, htaken⟩ := afterHb_section he (State.heard hh) (.block (.inr rfl) hrun hdev fun _ => hholds)
      (Channel.command_unblock hunblock) (by decide)
    refine ⟨t, hrow, ?_⟩
    simp only [htaken.sec, htaken.heads]
    exact ⟨hfree, honly.others, honly.heads, htaken.answered⟩

end Sys2Proof.Machine
end

section
/-!
PROOF. The settings that a profile record leaves in force (R232, R242), at a port number past the four ports.
-/
namespace Sys2Proof.Machine

section
variable (s : State) (p sec : Nat)

/-- What the record of a second leaves of its port: one record more and its epoch. -/
theorem State.tprPort_tprReady : (s.tprReady p sec).tprPort p =
    { s.tprPort p with
      records := ((s.tprPort p).records + 1) % 65536
      epoch := if (s.demod p).epochValid then (s.demod p).epoch else (s.tprPort p).epoch } := by
  have hwhen (u : State) (b : Bool) (i : Nat) : (u.when b (·.setEvt Reg.HB_TPR_EVT i)).tprPort p = u.tprPort p := by
    cases b <;> simp [State.when]
  simp only [State.tprReady, State.tprPort_raise, hwhen, State.tprPort_setEvt, State.tprPort_setTpr]
  rfl

/-- The record of a second sets bit 0 of HB_TPR_EVT. -/
theorem State.tprReady_event : bitOf ((s.tprReady p sec).reg Reg.HB_TPR_EVT) 0 = true := by
  have hwhen (u : State) (b : Bool) (i : Nat) : EventsKept Reg.HB_TPR_EVT u (u.when b (·.setEvt Reg.HB_TPR_EVT i)) := by
    cases b
    · exact ⟨fun _ h => h⟩
    · exact u.setEvt_eventsKept _ i
  simp only [State.tprReady, State.reg_raise]
  refine ((hwhen _ _ 2).trans (hwhen _ _ 3)).kept 0 ?_
  rw [State.reg_setEvt, if_pos rfl]
  exact bitOf_setBit _ (by decide)

variable {s p sec}

theorem State.tprSettings_of_unwritten (h : (s.tprPort p).wrote = none) :
    s.tprSettings p sec = (s.reg (Reg.HB_TPR_CFG p), s.reg (Reg.HB_TPR_COEF p)) := by
  simp only [State.tprSettings, h]

/-- The settings in force from the end of a second are those of the registers as its record leaves them. -/
theorem profileRecord_inForce (hruns : s.tprRuns p = true) (hsec : (s.tprPort p).next.getD (s.tc.now / 1000000000 - 1) = sec)
    (hover : (sec + 1) * 1000000000 ≤ s.tc.now) :
    (((profileRecord p s).tprPort p).cfg, ((profileRecord p s).tprPort p).coef) = (s.tprReady p sec).tprSettings p sec := by
  subst hsec
  simp only [profileRecord, if_neg (Nat.not_lt.2 hover), State.when, hruns, if_true, State.tprPort_setTpr]
  rfl

end

/-- A fifth port with a probe set, its profile on, at the end of second 0: HB_TPR_CFG, as an array of registers, would be HB_TPR_EVT
there. The device has no such port: the frame PROFILE that sets a profile names port 0, 1, 2 or 3 (R226). -/
def fifthPort : State :=
  { ({} : State).setProbe 4 { live := { en := true, np := 125000, lf := 5000, ng := 14680 } } with
    tpr := [(4, { cfg := 0x801, coef := 1 })], tc := { now := 1000000000 } }

/-- Refutes O22: its first clause takes every port number, and for 4 the offset of HB_TPR_CFG is that of HB_TPR_EVT, so the event that
the record sets changes the settings that the clause reads before it. The statement lacks the premise that the port is one of four. -/
theorem not_profilesAndWindows : ¬ Obligations.ProfilesAndWindows := by
  unfold Obligations.ProfilesAndWindows
  rintro ⟨hrecord, -⟩
  have hruns : (fifthPort.elapse 0).tprRuns 4 = true := by decide +kernel
  have hsec : ((fifthPort.elapse 0).tprPort 4).next.getD ((fifthPort.elapse 0).tc.now / 1000000000 - 1) = 0 := by decide +kernel
  have hover : (0 + 1) * 1000000000 ≤ (fifthPort.elapse 0).tc.now := by decide +kernel
  obtain ⟨t, ht, -, -, -, -, hset, -⟩ := hrecord 0 fifthPort _ 4 0 rfl rfl hruns hsec hover
  have hrow : exec (.profileRecord 0 4) fifthPort = .next (profileRecord 4 (fifthPort.elapse 0)) := afterHb_of_up rfl rfl _
  obtain rfl : profileRecord 4 (fifthPort.elapse 0) = t := Host.Outcome.next.inj (hrow.symm.trans ht)
  have hunwritten : (((fifthPort.elapse 0).tprReady 4 0).tprPort 4).wrote = none := by rw [State.tprPort_tprReady]; rfl
  rw [profileRecord_inForce hruns hsec hover, State.tprSettings_of_unwritten hunwritten,
    State.tprSettings_of_unwritten (s := fifthPort.elapse 0) rfl] at hset
  obtain ⟨hcfg, -⟩ := Prod.mk.inj hset
  have hevent : bitOf (((fifthPort.elapse 0).tprReady 4 0).reg (Reg.HB_TPR_CFG 4)) 0 = true := State.tprReady_event ..
  rw [hcfg] at hevent
  exact Bool.false_ne_true hevent

end Sys2Proof.Machine
end

section
/-!
PROOF. The comparator channels and their legacy-head events (R284 to R289, R293, R302).
-/
namespace Sys2Proof.Machine

/-! ### An operation on one channel -/

theorem length_insertBy {α : Type} (key : α → Nat) (a : α) (l : List α) : (insertBy key a l).length = l.length + 1 := by
  induction l with
  | nil => rfl
  | cons b l ih =>
    rw [insertBy]
    split
    · rfl
    · simp only [List.length_cons, ih]

/-- The events that FD holds for a legacy head (R286). -/
def State.heldFor (s : State) (lh : Nat) : List HeldLegacy := (tget s.fdin.legs {} lh).held

/-- From one state to another channel `k` has become `w`, with `n` events of its head more to emit and with some bits of FD_WSC_EVT
set; no other channel has changed, nor anything but the field inputs and their events. -/
structure ChannelBecomes (k n : Nat) (evts : List Nat) (w : Wsc) (s t : State) : Prop where
  channel : t.wsc k = w
  others : ∀ i, i ≠ k → t.wsc i = s.wsc i
  held : (t.heldFor (k / 2)).length = (s.heldFor (k / 2)).length + n
  shown : ∀ i, i ∈ evts → bitOf (t.reg Reg.FD_WSC_EVT) i = true
  changes : Changes [.fdin, .events] [Reg.FD_WSC_EVT] s t

namespace ChannelBecomes

theorem refl (k : Nat) (s : State) : ChannelBecomes k 0 [] (s.wsc k) s s := ⟨rfl, fun _ _ => rfl, rfl, by simp, .refl ..⟩

variable {k n : Nat} {evts : List Nat} {w : Wsc} {s t : State} (h : ChannelBecomes k n evts w s t)
include h

theorem mono {evts' : List Nat} (hsub : ∀ i, i ∈ evts' → i ∈ evts) : ChannelBecomes k n evts' w s t :=
  { h with shown := fun i hi => h.shown i (hsub i hi) }

theorem dev : t.dev = s.dev := h.changes.parts.same .dev (by decide)

theorem setWsc (x : Wsc) : ChannelBecomes k n evts x s (t.setWsc k x) :=
  ⟨t.wsc_setWsc k x, fun i hi => (t.wsc_setWsc_other x hi).trans (h.others i hi), h.held, h.shown,
    (State.setFdin_changes _ _ (by decide)).2 h.changes⟩

theorem wscEvt {i : Nat} (hi : i < 32) : ChannelBecomes k n (i :: evts) w s (t.wscEvt i) where
  channel := (t.wsc_setEvt ..).trans h.channel
  others j hj := (t.wsc_setEvt ..).trans (h.others j hj)
  held := by rw [← h.held, State.heldFor, State.heldFor, State.wscEvt, State.setEvt_fdin]
  shown j hj := by
    obtain rfl | hj := List.mem_cons.1 hj
    · exact t.bitOf_setEvt _ hi
    · exact (t.setEvt_eventsKept _ i).kept j (h.shown j hj)
  changes := (State.setEvt_changes _ _ _ (by simp) (by decide)).2 h.changes

theorem legacyHold (kind cause time : Nat) (stale : Bool) :
    ChannelBecomes k (n + 1) evts w s (t.legacyHold k kind cause time stale) where
  channel := (State.wsc_raise ..).trans h.channel
  others j hj := (State.wsc_raise ..).trans (h.others j hj)
  held := by
    rw [← Nat.add_assoc, ← h.held, State.heldFor, State.legacyHold, State.raise_fdin]
    simp only [State.setFdin, tget_tset_same, length_insertBy, State.heldFor]
  shown j hj := (congrArg (bitOf · j) (State.reg_raise ..)).trans (h.shown j hj)
  changes := (State.raise_changes _ _ _ (by decide)).2 ((State.setFdin_changes _ _ (by decide)).2 h.changes)

theorem when {f : State → State} (hf : ChannelBecomes k n evts w s (f t)) (b : Bool) : ChannelBecomes k n evts w s (t.when b f) := by
  cases b
  · exact h
  · exact hf

/-- A fault that the channel has ends with its event. -/
theorem faultEnds {code : Nat} (hc : code ∈ w.faults) :
    ChannelBecomes k (n + 1) (2 :: evts) { w with faults := w.faults.erase code } s (t.wscFaultEnd k code) := by
  have hhas : (!(t.wsc k).faults.contains code) = false := by simp [h.channel, hc]
  unfold State.wscFaultEnd
  extract_lets x
  rw [hhas, if_neg Bool.false_ne_true, show x = w from h.channel]
  exact ((h.setWsc _).wscEvt (i := 2) (by decide)).legacyHold ..

/-- The end of a fault, of a channel that may have it or not. -/
theorem wscFaultEnd (code : Nat) :
    ChannelBecomes k (n + b2n (w.faults.contains code)) evts { w with faults := w.faults.erase code } s (t.wscFaultEnd k code) := by
  by_cases hc : code ∈ w.faults
  · rw [List.contains_iff_mem.2 hc]
    exact (h.faultEnds hc).mono fun _ => List.mem_cons_of_mem _
  · have hlacks : w.faults.contains code = false := by simp [hc]
    rw [List.erase_of_not_mem hc, State.wscFaultEnd]
    simp only [h.channel, hlacks, Bool.not_false, if_true]
    exact h

/-- A fault that an enabled channel lacks begins with its event. -/
theorem wscFault {code : Nat} (hen : w.en.isSome = true) (hc : code ∉ w.faults) :
    ChannelBecomes k (n + 1) (1 :: evts) { w with faults := insertBy id code w.faults } s (t.wscFault k code) := by
  have hnew : (w.en.isNone || w.faults.contains code) = false := by
    rw [Option.isNone_eq_false_iff.2 hen]
    simp [hc]
  simp only [State.wscFault, h.channel, hnew, Bool.false_eq_true, if_false]
  exact ((h.setWsc _).wscEvt (i := 1) (by decide)).legacyHold ..

/-- A wake request changes of the channel its mark alone, and is sent in Watch only (R294). -/
theorem wscWake : ∃ b, (s.dev ≠ .watch → b = w.woke) ∧ ChannelBecomes k n evts { w with woke := b } s (t.wscWake k) := by
  simp only [State.wscWake, h.channel, h.dev]
  split
  next hwake =>
    have hwatch : s.dev = .watch := by simp_all
    have hwoke := h.setWsc { w with woke := true }
    have hsent : ChannelBecomes k n evts { w with woke := true } s
        ((t.setWsc k { w with woke := true }).setFdin fun f => { f with wakes := f.wakes ++ [k] }) :=
      ⟨hwoke.channel, hwoke.others, hwoke.held, hwoke.shown, (State.setFdin_changes _ _ (by decide)).2 hwoke.changes⟩
    exact ⟨true, fun hne => absurd hwatch hne, (hsent.wscEvt (by decide)).mono fun _ => List.mem_cons_of_mem _⟩
  next => exact ⟨w.woke, fun _ => rfl, h⟩

end ChannelBecomes

/-! ### The filter's outputs (R284, R287, R288) -/

section
variable {s : State} {k : Nat}

theorem State.wscRuns_enabled (h : s.wscRuns k = true) : (s.wsc k).en.isSome = true := by
  simp only [State.wscRuns, Bool.and_eq_true] at h
  exact h.1.1.2

/-- The first output settles the channel. -/
theorem State.wscTake_settles (hset : (s.wsc k).settled = false) (damped : Bool) :
    ∃ b, (s.dev ≠ .watch → b = (s.wsc k).woke) ∧
      ChannelBecomes k (b2n ((s.wsc k).faults.contains 3) + 1) [3] { s.wsc k with
        settled := true, out := damped, latch := (s.wsc k).latch || damped, freeAt := if damped then none else some s.now
        faults := (s.wsc k).faults.erase 3, woke := b } s (s.wscTake k damped) := by
  simp only [State.wscTake, hset, Bool.not_false, if_true]
  have hsettled := ((ChannelBecomes.refl k s).setWsc ({ s.wsc k with settled := true }.output damped s.now)).wscFaultEnd 3
  have htold := (hsettled.wscEvt (i := 3) (by decide)).legacyHold 4 0 ((s.setWsc k
    ({ s.wsc k with settled := true }.output damped s.now)).wscFaultEnd k 3).wscTick false
  rw [Nat.zero_add] at htold
  exact htold.wscWake

/-- A new output of a settled channel is an edge. -/
theorem State.wscTake_edge {damped : Bool} (hset : (s.wsc k).settled = true) (hnew : (s.wsc k).out ≠ damped) :
    ∃ b, (s.dev ≠ .watch → b = (s.wsc k).woke) ∧
      ChannelBecomes k (b2n ((s.wsc k).faults.contains 3) + 1) [0] { s.wsc k with
        edges := ((s.wsc k).edges + 1) % 2 ^ 24, stamp := s.wscStamp k, out := damped
        latch := (s.wsc k).latch || damped, freeAt := if damped then none else some s.now
        faults := (s.wsc k).faults.erase 3, woke := b } s (s.wscTake k damped) := by
  unfold State.wscTake
  extract_lets w s0 t stale s1 s2
  have hold : ¬ (!w.settled) = true := by simp only [w, hset, Bool.not_true, Bool.false_eq_true, not_false_eq_true]
  rw [if_neg hold, if_neg (show ¬ damped = w.out from Ne.symm hnew)]
  have hedge : ChannelBecomes k 0 [0] ({ s.wsc k with
      edges := ((s.wsc k).edges + 1) % 2 ^ 24, stamp := s.wscStamp k }.output damped s.now) s (s1.wscEvt 0) :=
    ((ChannelBecomes.refl k s).setWsc _).wscEvt (by decide)
  have hmarked : ChannelBecomes k 0 [0] ({ s.wsc k with
      edges := ((s.wsc k).edges + 1) % 2 ^ 24, stamp := s.wscStamp k }.output damped s.now) s ((s1.wscEvt 0).when stale (·.wscEvt 5)) :=
    hedge.when ((hedge.wscEvt (i := 5) (by decide)).mono fun _ => List.mem_cons_of_mem _) stale
  have hstale := hmarked.wscFaultEnd 3
  have htold := hstale.legacyHold (if damped then 0 else 1) 0 (s.wscStamp k) stale
  rw [Nat.zero_add] at htold
  exact htold.wscWake

/-- An output that a settled channel has already ends its dwell fault alone. -/
theorem State.wscTake_same (hset : (s.wsc k).settled = true) : s.wscTake k (s.wsc k).out = s.wscFaultEnd k 3 := by
  simp only [State.wscTake, hset, Bool.not_true, Bool.false_eq_true, if_false, if_true]

variable {runs : List WsRun}

theorem channelSettle_of_output {damped : Bool} (hruns : s.wscRuns k = true) (hset : (s.wsc k).settled = false)
    (hout : s.wscFilter k runs = some damped) : channelSettle k runs s = s.wscTake k damped := by
  simp only [channelSettle, hruns, hset, hout, Bool.not_false, Bool.and_self, if_true]

theorem legacyEdge_of_output {damped : Bool} (hruns : s.wscRuns k = true) (hset : (s.wsc k).settled = true)
    (hout : s.wscFilter k runs = some damped) : legacyEdge k runs s = s.wscTake k damped := by
  simp only [legacyEdge, hruns, hset, hout, Bool.and_self, if_true]

/-- A held event whose turn has come leaves FD. -/
theorem legacyEventEmit_of_due {lh : Nat} {x : LegTx} {ev : HeldLegacy} {rest : List HeldLegacy} (hup : s.fdUp = true)
    (hx : tget s.fdin.legs {} lh = x) (hheld : x.held = ev :: rest) (hdue : s.legacyDue lh ev = true) :
    legacyEventEmit lh s =
      (s.setFdin fun f => { f with legs := tset f.legs lh { held := rest, seq := (x.seq + 1) % 2 ^ 32 } }).send
        (.event 4 (withCheck 4 lh (leBytes 8 s.tc.fd ++ leBytes 4 (min 0xFFFFFFFF (s.tc.fd - ev.t)) ++ leBytes 4 x.seq ++
          leBytes 2 (lh + 32 * ev.sys + 64 * ev.kind + 512 * ev.cause + 4096 * b2n ev.out + 8192 * b2n ev.stale +
            16384 * b2n s.tc.fdDegraded) ++
          leBytes 2 (fld (s.reg (Reg.FD_ADC_WS (2 * lh + ev.sys))) 0 16) ++ leBytes 8 0))) := by
  subst hx
  simp only [legacyEventEmit, hheld, hup, hdue, Bool.not_true, Bool.or_self, Bool.false_eq_true, if_false]

theorem channelDwellFault_of_dwell (hruns : s.wscRuns k = true) (hdwell : s.wscDwells k runs = true) :
    channelDwellFault k runs s = s.wscFault k 3 := by
  simp only [channelDwellFault, hruns, hdwell, Bool.and_self, if_true]

theorem channelWindowFault_of_outside {low : Bool} (hup : s.fdUp = true) (hlive : (s.wsc k).stale = false)
    (hout : s.outOfWindow k low runs = true) : channelWindowFault k low runs s = s.wscFault k (if low then 2 else 1) := by
  simp only [channelWindowFault, hup, hlive, hout, Bool.not_false, Bool.and_self, if_true]

theorem channelFaultEnd_of_inside {code : Nat} (hcode : code = 1 ∨ code = 2) (hup : s.fdUp = true)
    (hlive : (s.wsc k).stale = false) (hin : s.inWindow k runs = true) : channelFaultEnd k code runs s = s.wscFaultEnd k code := by
  have h3 : code ≠ 3 := by omega
  have h2 : decide (code ≤ 2) = true := by simp only [decide_eq_true_eq]; omega
  simp only [channelFaultEnd, h3, if_false, hup, hlive, h2, hin, Bool.not_false, Bool.and_self, if_true]

theorem channelFaultEnd_of_output (hruns : s.wscRuns k = true) (hc : 3 ∈ (s.wsc k).faults)
    (hset : (s.wsc k).settled = true) (hout : s.wscFilter k runs = some (s.wsc k).out) :
    channelFaultEnd k 3 runs s = s.wscFaultEnd k 3 := by
  simp only [channelFaultEnd, hruns, List.contains_iff_mem.2 hc, Bool.and_self, if_true, hout, State.wscTake_same hset]

end

/-! ### Latches (R293) -/

/-- The channel after a latch clear. -/
def Wsc.latchCleared (w : Wsc) : Wsc := { w with latch := w.settled && w.out }

/-- A write of `mask` clears the latch of a channel whose configuration word is `cfg`. -/
def clearsLatch (mask cfg : Word) (i : Nat) : Bool := bitOf mask i && !bitOf cfg 16

theorem State.latchClear_wsc (s : State) (k j : Nat) :
    (s.latchClear k).wsc j = if j = k then (s.wsc j).latchCleared else s.wsc j := by
  split
  · subst j
    exact State.wsc_setWsc ..
  · exact State.wsc_setWsc_other _ _ ‹_›

/-- The clears of a list of channels from `off` on: a channel of the list that the mask clears is cleared, every other one stays. -/
theorem foldl_latchClear (mask : Word) (off j : Nat) (l : List Nat) : ∀ s : State,
    (l.foldl (fun s i => if bitOf mask i && !bitOf (s.reg (Reg.FD_WSC_CFG2 (i + off))) 16 then s.latchClear (i + off) else s) s).wsc
        (j + off) =
      if j ∈ l ∧ clearsLatch mask (s.reg (Reg.FD_WSC_CFG2 (j + off))) j = true then (s.wsc (j + off)).latchCleared
      else s.wsc (j + off) := by
  induction l with
  | nil => simp
  | cons i l ih =>
    intro s
    rw [List.foldl_cons, ih]
    have hreg (b : Bool) (a : Nat) : (if b then s.latchClear (i + off) else s).reg a = s.reg a := by cases b <;> rfl
    rw [hreg]
    by_cases hij : j = i
    · subst hij
      by_cases hc : clearsLatch mask (s.reg (Reg.FD_WSC_CFG2 (j + off))) j = true
      · simp only [show (bitOf mask j && !bitOf (s.reg (Reg.FD_WSC_CFG2 (j + off))) 16) = true from hc, if_true,
          State.latchClear_wsc, hc, List.mem_cons_self, and_self, and_true]
        split <;> rfl
      · have hkept : (bitOf mask j && !bitOf (s.reg (Reg.FD_WSC_CFG2 (j + off))) 16) = false := Bool.eq_false_iff.2 hc
        simp only [hc, and_false, hkept, Bool.false_eq_true, if_false]
    · have hother : (if bitOf mask i && !bitOf (s.reg (Reg.FD_WSC_CFG2 (i + off))) 16 then s.latchClear (i + off) else s).wsc
          (j + off) = s.wsc (j + off) := by
        split
        · rw [State.latchClear_wsc, if_neg (by omega)]
        · rfl
      simp only [hother, List.mem_cons, hij, false_or]

theorem wscLatchClear_wsc (s : State) (hi : Bool) (mask : Word) {i : Nat} (h : i < 32) :
    (wscLatchClear hi mask s).wsc (i + if hi then 32 else 0) =
      if clearsLatch mask (s.reg (Reg.FD_WSC_CFG2 (i + if hi then 32 else 0))) i then (s.wsc (i + if hi then 32 else 0)).latchCleared
      else s.wsc (i + if hi then 32 else 0) := by
  refine (foldl_latchClear mask _ i (List.range 32) s).trans ?_
  simp only [List.mem_range, h, true_and]

section
variable {s e : State} {dt : Nat} {m : Master} (he : s.elapse dt = e) (hu : e.boot.up = true)
include he hu

theorem writeRow_latchLo (hm : e.mayWrite m Reg.FD_WSC_LATCH_LO = true) (mask : Word) :
    s.writeRow dt m Reg.FD_WSC_LATCH_LO (fun _ => mask) = .next (wscLatchClear false mask e) := by
  have hclean := hitsReserved_of_lt (b := .wsc) (o := 0xC) (k := 32) mask.isLt (by decide) ⟨0xC, 0, 1, .w1c, 0⟩
  refine (State.writeRow_of_mayWrite he hu hm (b := .wsc) (n := 0) (o := 0xC) (row := ⟨0xC, 0, 1, .w1c, 0⟩) rfl rfl).trans ?_
  simp only [State.listedWrite, hclean]
  rfl

theorem writeRow_latchHi (hm : e.mayWrite m Reg.FD_WSC_LATCH_HI = true) (mask : Word) :
    s.writeRow dt m Reg.FD_WSC_LATCH_HI (fun _ => mask) = .next (wscLatchClear true mask e) := by
  have hclean := hitsReserved_of_lt (b := .wsc) (o := 0x10) (k := 32) mask.isLt (by decide) ⟨0x10, 0, 1, .w1c, 0⟩
  refine (State.writeRow_of_mayWrite he hu hm (b := .wsc) (n := 0) (o := 0x10) (row := ⟨0x10, 0, 1, .w1c, 0⟩) rfl rfl).trans ?_
  simp only [State.listedWrite, hclean]
  rfl

/-- WSC_LATCH_CLEAR is the clear that a write of the mask asks for. -/
theorem exec_wscLatchClear {hi : Bool} (hm : e.mayWrite m (if hi then Reg.FD_WSC_LATCH_HI else Reg.FD_WSC_LATCH_LO) = true)
    (mask : Word) : exec (.wscLatchClear dt m hi mask) s = .next (wscLatchClear hi mask e) := by
  cases hi
  · exact writeRow_latchLo he hu hm mask
  · exact writeRow_latchHi he hu hm mask

end

/-! ### The rows -/

/-- Settles O17: an output of the filter is `State.wscTake_settles`, `State.wscTake_edge` or `State.wscTake_same`, each fault begins and
ends by the one operation on its channel (`ChannelBecomes`), and the two accesses are those of their registers. -/
theorem comparatorChannels : Obligations.ComparatorChannels := by
  unfold Obligations.ComparatorChannels
  refine ⟨?settle, ?edge, ?emit, ?dwell, ?window, ?inside, ?output, ?latches, ?stamp⟩
  case settle =>
    intro dt s e k runs damped he hruns hset hout
    obtain ⟨b, hwoke, h⟩ := State.wscTake_settles hset damped
    refine ⟨_, (after_eq he _).trans (congrArg _ (channelSettle_of_output hruns hset hout)), ?_, ?_, h.others, ?_,
      h.shown 3 (by decide), h.changes⟩
    · rw [h.channel]
    · rw [h.channel]
      exact hwoke
    · exact h.held.trans (by rw [State.heldFor]; omega)
  case edge =>
    intro dt s e k runs damped he hruns hset hout hnew
    obtain ⟨b, hwoke, h⟩ := State.wscTake_edge hset hnew
    refine ⟨_, (after_eq he _).trans (congrArg _ (legacyEdge_of_output hruns hset hout)), ?_, ?_, h.others, ?_,
      h.shown 0 (by decide), h.changes⟩
    · rw [h.channel]
      rfl
    · rw [h.channel]
      exact hwoke
    · exact h.held.trans (by rw [State.heldFor]; omega)
  case emit =>
    intro dt s e lh x ev rest body he hup hx hheld hdue hbody
    subst hbody
    exact (after_eq he _).trans (congrArg _ (legacyEventEmit_of_due hup hx hheld hdue))
  case dwell =>
    intro dt s e k runs he hruns hc hdwell
    have h := (ChannelBecomes.refl k e).wscFault (State.wscRuns_enabled hruns) hc
    exact ⟨_, (after_eq he _).trans (congrArg _ (channelDwellFault_of_dwell hruns hdwell)), h.channel, h.others, h.held,
      h.shown 1 (by decide), h.changes⟩
  case window =>
    intro dt s e k low runs he hup hen hlive hc hout
    have h := (ChannelBecomes.refl k e).wscFault hen hc
    exact ⟨_, (after_eq he _).trans (congrArg _ (channelWindowFault_of_outside hup hlive hout)), h.channel, h.others, h.held,
      h.shown 1 (by decide), h.changes⟩
  case inside =>
    intro dt s e k c runs he hup hcode hc hlive hin
    have h := (ChannelBecomes.refl k e).faultEnds hc
    exact ⟨_, (after_eq he _).trans (congrArg _ (channelFaultEnd_of_inside hcode hup hlive hin)), h.channel, h.others,
      h.shown 2 (by decide), h.changes⟩
  case output =>
    intro dt s e k runs he hruns hc hset hout
    have h := (ChannelBecomes.refl k e).faultEnds hc
    exact ⟨_, (after_eq he _).trans (congrArg _ (channelFaultEnd_of_output hruns hc hset hout)), h.channel, h.others,
      h.shown 2 (by decide), h.changes⟩
  case latches =>
    intro dt s e m hi mask he hu hm
    exact ⟨_, exec_wscLatchClear he hu hm mask, fun i h => wscLatchClear_wsc e hi mask h,
      (wscLatchClear_parts _ _ _ (by decide)).2 (.refl ..)⟩
  case stamp =>
    intro dt s e m st he hu hm hst
    subst hst
    exact State.readRow_of_mayRead he hu hm (b := .wsc) (n := 0) (o := 0x28) rfl rfl

end Sys2Proof.Machine
end

section
/-!
PROOF. The main converter, the field supplies, the field safety inputs and the comparator calibration (R279, R290, R297, R299, R300,
R486 to R488).
-/
namespace Sys2Proof.Machine

/-! ### Repetitions -/

/-- Where each step of a repetition reaches its own goal and keeps the goals of the others, all are reached; what every step keeps is
there for them. -/
theorem foldl_reaches {α β : Type} {kept : β → Prop} {goal : α → β → Prop} {f : β → α → β} {b : β} {l : List α} (hb : kept b)
    (hkept : ∀ u a, a ∈ l → kept u → kept (f u a)) (hreach : ∀ u a, a ∈ l → kept u → goal a (f u a))
    (hkeep : ∀ u a c, a ∈ l → c ∈ l → kept u → goal a u → goal a (f u c)) :
    kept (l.foldl f b) ∧ ∀ a, a ∈ l → goal a (l.foldl f b) := by
  induction l using List.reverseRecOn with
  | nil => exact ⟨hb, by simp⟩
  | append_singleton l x ih =>
    have hl {a : α} (ha : a ∈ l) : a ∈ l ++ [x] := List.mem_append_left _ ha
    have hx : x ∈ l ++ [x] := by simp
    obtain ⟨hmid, hgoals⟩ := ih (fun u a ha => hkept u a (hl ha)) (fun u a ha => hreach u a (hl ha))
      fun u a c ha hc => hkeep u a c (hl ha) (hl hc)
    rw [List.foldl_append]
    refine ⟨hkept _ x hx hmid, fun a ha => ?_⟩
    obtain ha | ha := List.mem_append.1 ha
    · exact hkeep _ a x (hl ha) hx hmid (hgoals a ha)
    · obtain rfl := List.mem_singleton.1 ha
      exact hreach _ a hx hmid

/-! ### Supplies (R279) -/

section
variable {s : State} {a b : Nat}

theorem supplySample_of_low24 (hup : s.fdUp = true) (ha : a < 18000) (hlo : 4750 ≤ b) (hhi : b ≤ 5250) :
    supplySample a b s = ((s.setReg Reg.FD_ADC_SUPPLY (word [(0, 16, a), (16, 16, b)])).setFdin fun f => { f with
      sampled := true, bad24 := f.bad24 + 1, bad5 := 0, goodAt := s.now }).when
        (!s.supplyBad && decide (21 ≤ s.fdin.bad24 + 1)) (·.setEvt Reg.FD_ADC_EVT 2) := by
  have h24 : (decide (18000 ≤ a) && decide (a ≤ 36000)) = false := by simp [ha]
  have h5 : (decide (4750 ≤ b) && decide (b ≤ 5250)) = true := by simp [hlo, hhi]
  simp only [supplySample, hup, h24, h5, Bool.not_true, Bool.false_eq_true, if_false, if_true, Bool.false_and]
  have hnow (f : FieldInputs → FieldInputs) (hf : ∀ x, (f x).bad24 = x.bad24 + 1 ∧ (f x).bad5 = 0) (u : State) :
      (u.setFdin f).supplyBad = decide (21 ≤ u.fdin.bad24 + 1) := by
    simp [State.supplyBad, State.setFdin, hf]
  rw [hnow _ fun _ => ⟨rfl, rfl⟩]
  rfl

theorem supplySample_of_good (hup : s.fdUp = true) (ha : 18000 ≤ a) (ha' : a ≤ 36000) (hlo : 4750 ≤ b) (hhi : b ≤ 5250) :
    supplySample a b s = (s.setReg Reg.FD_ADC_SUPPLY (word [(0, 16, a), (16, 16, b)])).setFdin fun f => { f with
      sampled := true, bad24 := 0, bad5 := 0 } := by
  have h24 : (decide (18000 ≤ a) && decide (a ≤ 36000)) = true := by simp [ha, ha']
  have h5 : (decide (4750 ≤ b) && decide (b ≤ 5250)) = true := by simp [hlo, hhi]
  simp only [supplySample, hup, h24, h5, Bool.not_true, Bool.false_eq_true, if_false, if_true, Bool.and_self]
  have hgood : ∀ u : State, u.fdin.bad24 = 0 → u.fdin.bad5 = 0 → u.supplyBad = false := by
    intro u h h'
    simp [State.supplyBad, h, h']
  rw [hgood ((s.setReg Reg.FD_ADC_SUPPLY (word [(0, 16, a), (16, 16, b)])).setFdin fun f => { f with
    sampled := true, bad24 := 0, bad5 := 0, goodAt := f.goodAt }) rfl rfl, Bool.and_false]
  rfl

end

/-! ### The converter's frames (R297 to R299) -/

section
variable {s : State}

theorem State.wscFault_changes (s : State) (k code : Nat) : Changes [.fdin, .events] [Reg.FD_WSC_EVT] s (s.wscFault k code) := by
  simp only [State.wscFault]
  split
  · exact .refl ..
  · simp +decide [State.legacyHold, State.wscEvt, State.setWsc]

theorem State.wscFaultEnd_changes (s : State) (k code : Nat) : Changes [.fdin, .events] [Reg.FD_WSC_EVT] s (s.wscFaultEnd k code) := by
  simp only [State.wscFaultEnd]
  split
  · exact .refl ..
  · simp +decide [State.legacyHold, State.wscEvt, State.setWsc]

/-- A channel's readbacks are counted; a fault that they begin or end is shown in the two event registers alone. -/
theorem State.readbackCounted_changes (s : State) (k code evt : Nat) (w : Wsc) (bad good : Bool) :
    Changes [.fdin, .events] [Reg.FD_WSC_EVT, Reg.FD_ADC_EVT] s
      (if bad then ((s.setWsc k w).wscFault k code).setEvt Reg.FD_ADC_EVT evt
        else if good then (s.setWsc k w).wscFaultEnd k code else s.setWsc k w) := by
  have hcount : Changes [.fdin, .events] [Reg.FD_WSC_EVT, Reg.FD_ADC_EVT] s (s.setWsc k w) := by simp +decide [State.setWsc]
  split
  · refine (State.setEvt_changes _ _ _ (by simp) (by decide)).2 (hcount.trans ?_)
    exact (State.wscFault_changes ..).mono (by decide) (by simp)
  · split
    · exact hcount.trans ((State.wscFaultEnd_changes ..).mono (by decide) (by simp))
    · exact hcount

theorem State.refScan_changes (s : State) (k : Nat) (scan : List Nat) :
    Changes [.fdin, .events] [Reg.FD_WSC_EVT, Reg.FD_ADC_EVT] s (s.refScan k scan) := by
  unfold State.refScan
  extract_lets w ok u
  split
  · exact .refl ..
  · exact State.readbackCounted_changes ..

theorem State.dacFrame_changes (s : State) (k : Nat) (a : AdcScan) :
    Changes [.fdin, .events] [Reg.FD_WSC_EVT, Reg.FD_ADC_EVT] s (s.dacFrame k a) := by
  unfold State.dacFrame
  extract_lets w abs ref win ok u
  split
  · exact .refl ..
  · exact State.readbackCounted_changes ..

/-- The words that a frame shows of a channel: its pin and threshold, and its window. -/
def scanPinWord (a : AdcScan) (k : Nat) : Word := word [(0, 16, a.pins.getD k 0), (16, 16, a.thr.getD k 0)]
def scanWindowWord (a : AdcScan) (k : Nat) : Word := word [(0, 16, a.lo.getD k 0), (16, 16, a.hi.getD k 0)]

/-- The frame's words of a channel in their registers. -/
def State.ShowsScan (s : State) (a : AdcScan) (k : Nat) : Prop :=
  s.reg (Reg.FD_ADC_WS k) = scanPinWord a k ∧ s.reg (Reg.FD_ADC_WIN k) = scanWindowWord a k

theorem State.foldl_shows (s : State) (a : AdcScan) : ∀ k, k < 64 →
    State.ShowsScan ((List.range 64).foldl (fun (s : State) k =>
      (s.setReg (Reg.FD_ADC_WS k) (scanPinWord a k)).setReg (Reg.FD_ADC_WIN k) (scanWindowWord a k)) s) a k := by
  refine fun k hk => (foldl_reaches (kept := fun _ => True) (goal := fun k (s : State) => s.ShowsScan a k) trivial (fun _ _ _ _ => trivial)
    ?_ ?_).2 k (List.mem_range.2 hk)
  · intro u k hk _
    have hk := List.mem_range.1 hk
    refine ⟨?_, State.reg_setReg_same ..⟩
    rw [State.reg_setReg, if_neg (by unfold Reg.FD_ADC_WS Reg.FD_ADC_WIN; omega)]
    exact State.reg_setReg_same ..
  · rintro u k j hk hj _ ⟨hpin, hwindow⟩
    have hk := List.mem_range.1 hk
    have hj := List.mem_range.1 hj
    by_cases hkj : k = j
    · subst hkj
      refine ⟨?_, State.reg_setReg_same ..⟩
      rw [State.reg_setReg, if_neg (by unfold Reg.FD_ADC_WS Reg.FD_ADC_WIN; omega)]
      exact State.reg_setReg_same ..
    · simp only [State.ShowsScan, State.reg_setReg]
      rw [if_neg (by unfold Reg.FD_ADC_WS Reg.FD_ADC_WIN; omega), if_neg (by unfold Reg.FD_ADC_WS; omega),
        if_neg (by unfold Reg.FD_ADC_WIN; omega), if_neg (by unfold Reg.FD_ADC_WS Reg.FD_ADC_WIN; omega)]
      exact ⟨hpin, hwindow⟩

/-- What else a frame writes lies outside the registers of the channels' pins and DACs. -/
theorem Reg.adcChannel_apart {b : Nat} (hlo : Reg.FD_ADC_WS 0 ≤ b) (hhi : b < Reg.FD_ADC_REF 0) :
    b ∉ [Reg.FD_WSC_EVT, Reg.FD_ADC_EVT] ∧ b ≠ Reg.FD_ADC_MISC ∧ b ∉ (List.range 32).map Reg.FD_ADC_REF := by
  unfold Reg.FD_ADC_WS at hlo
  unfold Reg.FD_ADC_REF at hhi
  refine ⟨?_, ?_, ?_⟩
  · simp only [List.mem_cons, List.not_mem_nil, or_false, Reg.FD_WSC_EVT, Reg.FD_ADC_EVT]
    omega
  · unfold Reg.FD_ADC_MISC
    omega
  · simp only [List.mem_map, Reg.FD_ADC_REF]
    rintro ⟨i, -, hi⟩
    omega

/-- A frame fills the registers of every channel, and FD_ADC_MISC. -/
theorem adcFrame_shows (hup : s.fdUp = true) (a : AdcScan) :
    (∀ k, k < 64 → (adcFrame a s).ShowsScan a k) ∧
      (adcFrame a s).reg Reg.FD_ADC_MISC = word [(0, 16, toField 16 a.temp), (16, 16, a.vref)] := by
  have hframe : (!s.fdUp) ≠ true := by simp [hup]
  unfold adcFrame
  extract_lets ks s1 s2 s3 s4
  rw [if_neg hframe]
  have hchannels : ∀ k, k < 64 → s1.ShowsScan a k := s.foldl_shows a
  have hrefs : Changes [] ((List.range 32).map Reg.FD_ADC_REF) s1 s2 := by
    refine foldl_reaches (kept := fun u => Changes [] ((List.range 32).map Reg.FD_ADC_REF) s1 u) (goal := fun _ _ => True) (.refl ..)
      (fun u i hi hu => ?_) (fun _ _ _ _ => trivial) (fun _ _ _ _ _ _ _ => trivial) |>.1
    exact (State.setReg_changes _ _ _ (List.mem_map_of_mem hi)).2 hu
  have hfaults : Changes [.fdin, .events] [Reg.FD_WSC_EVT, Reg.FD_ADC_EVT] s3 (ks.foldl (fun s k => s.dacFrame k a) s4) := by
    refine (foldl_changes fun k u => u.dacFrame_changes k a).2 ((foldl_changes fun scan u => ?_).2 (.refl ..))
    exact (foldl_changes fun k v => v.refScan_changes k scan).2 (.refl ..)
  have hkeeps {b : Nat} (hlo : Reg.FD_ADC_WS 0 ≤ b) (hhi : b < Reg.FD_ADC_REF 0) :
      (ks.foldl (fun s k => s.dacFrame k a) s4).reg b = s1.reg b := by
    obtain ⟨hevt, hmisc, href⟩ := Reg.adcChannel_apart hlo hhi
    exact (hfaults.regs b hevt).trans (((s2.reg_setReg ..).trans (if_neg hmisc)).trans (hrefs.regs b href))
  refine ⟨fun k hk => ⟨(hkeeps ?_ ?_).trans (hchannels k hk).1, (hkeeps ?_ ?_).trans (hchannels k hk).2⟩, ?_⟩
  · unfold Reg.FD_ADC_WS; omega
  · unfold Reg.FD_ADC_WS Reg.FD_ADC_REF; omega
  · unfold Reg.FD_ADC_WS Reg.FD_ADC_WIN; omega
  · unfold Reg.FD_ADC_WIN Reg.FD_ADC_REF; omega
  · exact (hfaults.regs _ (by decide)).trans (State.reg_setReg_same ..)

/-- ADC_REQUEST of a source that is used, while no request runs, is the request of its word. -/
theorem exec_adcRequest {e : State} {dt : Nat} {m : Master} {v : Word} (he : s.elapse dt = e) (hu : e.boot.up = true)
    (hup : e.fdUp = true) (hm : e.mayWrite m Reg.FD_ADC_REQ = true) (hv : v.toNat < 131072) (hidle : e.fdin.req = none)
    (hused : adcSourceUsed (fld v 0 7) (fld v 7 2) = true) : exec (.adcRequest dt m v) s =
      .next ((e.setFdin fun f => { f with req := some { input := fld v 0 7, src := fld v 7 2, avg := fld v 9 8 } }).setReg
        Reg.FD_ADC_REQ_RESULT (putFld (e.reg Reg.FD_ADC_REQ_RESULT) 16 1 0)) := by
  have hclean := hitsReserved_of_lt (b := .adc) (o := 8) (k := 17) (v := v) (by omega) (by decide) ⟨8, 0, 1, .wo, 0⟩
  refine (State.writeRow_of_mayWrite (v := fun _ => v) he hu hm (b := .adc) (n := 0) (o := 8) (row := ⟨8, 0, 1, .wo, 0⟩) rfl
    rfl).trans ?_
  simp only [State.listedWrite, hclean, State.regWrite, Bool.false_eq_true, if_false, reduceCtorEq, false_and, adcRequest, hup, hidle,
    hused, Bool.not_true, Option.isSome_none, Bool.or_self]

theorem adcRequestDone_of_full {r : AdcReq} {codes : List Nat} (hreq : s.fdin.req = some r) (hn : codes.length = r.avg + 1) :
    adcRequestDone codes s = (((s.setFdin fun f => { f with req := none }).setReg Reg.FD_ADC_REQ_RESULT
      (word [(0, 16, (2 * codes.sum + codes.length) / (2 * codes.length)), (16, 1, 1)])).setEvt Reg.FD_ADC_EVT 0) := by
  simp only [adcRequestDone, hreq, hn, ne_eq, not_true_eq_false, if_false, meanCode, List.sum_eq_foldl]

end

/-! ### Field safety inputs (R300, R301) -/

/-- The field safety inputs with input `i` as `x`. -/
def State.withFsi (s : State) (i : Nat) (x : FieldIn) : State := s.setFdin fun f => { f with fsi := tset f.fsi i x }

section
variable {s : State} {i : Nat}

theorem State.fsi_withFsi (s : State) (i : Nat) (x : FieldIn) : (s.withFsi i x).fsi i = x := tget_tset_same ..

theorem State.fsi_withFsi_other (s : State) {i j : Nat} (x : FieldIn) (h : j ≠ i) : (s.withFsi i x).fsi j = s.fsi j :=
  tget_tset_other _ _ _ h

theorem State.withFsi_changes (s : State) (i : Nat) (x : FieldIn) : Changes [.fdin] [] s (s.withFsi i x) :=
  (State.setFdin_changes _ _ (by decide)).2 (.refl ..)

theorem State.voRecheck_fsi (s : State) (j : Nat) : s.voRecheck.fsi j = s.fsi j := by
  simp only [State.fsi, show s.voRecheck.fdin = s.fdin from s.voRecheck_changes.parts.same .fdin (by decide)]

/-- An input takes a state that it has held for 1 ms. -/
theorem State.fsiTake_of_new {runs : List LevelRun} {v : Bool} (hup : s.fdUp = true) (hen : bitOf (s.reg Reg.FD_FSI_CFG) i = true)
    (hheld : heldState runs = some v) (hnew : (s.fsi i).high ≠ some v) :
    s.fsiTake i runs = (s.withFsi i { high := some v, fault := false }).setEvt Reg.FD_FSI_EVT i := by
  simp only [State.fsiTake, hup, hen, hheld, hnew, Bool.and_self, if_false]
  rfl

/-- An input that has been undefined for more than 100 ms has a fault. -/
theorem State.fsiBad_of_undefined {runs : List LevelRun} (hup : s.fdUp = true) (hen : bitOf (s.reg Reg.FD_FSI_CFG) i = true)
    (hgood : (s.fsi i).fault = false) (hlong : undefinedLong runs = true) :
    s.fsiBad i runs = (s.withFsi i { s.fsi i with fault := true }).setEvt Reg.FD_FSI_EVT (8 + i) := by
  simp only [State.fsiBad, hup, hen, hgood, hlong, Bool.not_false, Bool.and_self, if_true]
  rfl

/-- What a safety input leaves that has changed, with its bit of FD_FSI_EVT set and the outputs that it inhibits low. -/
theorem State.fsiChanged (s : State) (i : Nat) (x : FieldIn) {evt : Nat} (hevt : evt < 32) :
    ((s.withFsi i x).setEvt Reg.FD_FSI_EVT evt).voRecheck.fsi i = x ∧
      (∀ j, j ≠ i → ((s.withFsi i x).setEvt Reg.FD_FSI_EVT evt).voRecheck.fsi j = s.fsi j) ∧
      bitOf (((s.withFsi i x).setEvt Reg.FD_FSI_EVT evt).voRecheck.reg Reg.FD_FSI_EVT) evt = true ∧
      Changes [.fdin, .outs, .events] [Reg.FD_FSI_EVT, Reg.FD_BRK_EVT] s ((s.withFsi i x).setEvt Reg.FD_FSI_EVT evt).voRecheck := by
  refine ⟨?_, fun j hj => ?_, ?_, ?_⟩
  · rw [State.voRecheck_fsi, State.fsi_setEvt, State.fsi_withFsi]
  · rw [State.voRecheck_fsi, State.fsi_setEvt, State.fsi_withFsi_other _ _ hj]
  · rw [(State.voRecheck_changes _).regs _ (by decide)]
    exact State.bitOf_setEvt _ _ hevt
  · refine ((State.setEvt_changes _ _ _ (by simp) (by decide)).2 ?_).trans ((State.voRecheck_changes _).mono (by decide) (by simp))
    exact (s.withFsi_changes i x).mono (by decide) (by simp)

end

/-! ### Comparator calibration (R486 to R488) -/

section
variable {s : State} {k : Nat}

/-- The next due channel is one that may be tried: it is enabled, and never calibrated yet. -/
def State.calMayTry (s : State) (k : Nat) : Prop :=
  s.fdin.cal.due = k ∧ s.fdin.cal.hold = none ∧ 0 < fld (s.reg Reg.FD_CAL_CFG) 0 17 ∧ s.fdin.trims = true ∧
    (s.wsc k).en.isSome = true ∧ s.dev ≠ .watch ∧ (s.wsc k).calAt = none

theorem State.calTry_of_may (hup : s.fdUp = true) (h : s.calMayTry k) :
    s.calTry = if s.calReady k then
      (s.setWsc k { s.wsc k with stale := true }).setFdCal fun c => { c with due := k, hold := some (k, s.now), deferred := none }
    else
      ((s.setWsc k { s.wsc k with calLast := 4 }).setFdCal fun c => { c with
        due := k, deferred := some ((s.fdin.cal.deferred.map (·.1)).getD s.now, s.now + 1000000000) }).when
        (decide (fld (s.reg Reg.FD_CAL_CFG) 0 17 * 1000000000 < s.now - (s.fdin.cal.deferred.map (·.1)).getD s.now))
        (·.setEvt Reg.FD_CAL_EVT 3) := by
  obtain ⟨hdue, hhold, hevery, htrims, hen, hdev, hcal⟩ := h
  have hne : fld (s.reg Reg.FD_CAL_CFG) 0 17 * 1000000000 ≠ 0 := by omega
  have hpass : ¬ (fld (s.reg Reg.FD_CAL_CFG) 0 17 * 1000000000 = 0 ∨ (!s.fdUp) = true ∨ (!s.fdin.trims) = true ∨
      s.fdin.cal.hold.isSome = true ∨ (s.wsc k).en.isNone = true ∨ s.dev = .watch ∨ (!true) = true) := by
    simp [hne, hup, htrims, hhold, hdev, Option.isSome_iff_ne_none.1 hen]
  unfold State.calTry State.fdCalCfg
  extract_lets k' w every due from' s1 s2
  have hk : k' = k := by simp only [k', hdue, hen, if_true]
  clear_value k'
  subst hk
  have hdue' : due = true := by simp only [due, w, hcal]
  rw [hdue', if_neg hpass]
  rfl

/-- The end of a hold: the channel returns to its pin, and its filter refills (R290). -/
theorem State.holdEnds_wsc (s : State) (k : Nat) : (s.holdEnds k).wsc k = { s.wsc k with stale := false, refill := some s.now } :=
  s.wsc_setWsc ..

theorem State.holdEnds_changes (s : State) (k : Nat) : Changes [.fdin] [] s (s.holdEnds k) := by
  simp +decide [State.holdEnds, State.setFdCal, State.setWsc]

/-- A hold that a reading on the damped side ends is ABORTED (R487). -/
theorem State.holdAbort_of_held {t0 : Nat} (hhold : s.fdin.cal.hold = some (k, t0)) :
    s.holdAbort.wsc k = { s.wsc k with stale := false, refill := some s.now, calLast := 3 } ∧ s.holdAbort.fdin.cal.hold = none ∧
      s.holdAbort.fdin.cal.deferred = some (s.now, s.now + 1000000000) ∧ bitOf (s.holdAbort.reg Reg.FD_CAL_EVT) 2 = true ∧
      Changes [.fdin, .events] [Reg.FD_CAL_EVT] s s.holdAbort := by
  simp only [State.holdAbort, hhold]
  refine ⟨?_, ?_, ?_, State.bitOf_setEvt _ _ (by decide), ?_⟩
  · rw [State.wsc_setEvt]
    exact (State.wsc_setWsc ..).trans (by rw [State.holdEnds_wsc])
  · rw [State.setEvt_fdin]
    rfl
  · rw [State.setEvt_fdin]
    rfl
  · refine (State.setEvt_changes _ _ _ (by simp) (by decide)).2 (((s.holdEnds_changes k).mono (by decide) (by simp)).trans ?_)
    simp +decide [State.setFdCal, State.setWsc]

theorem cmpCalGuardAbort_of_damped {t0 c : Nat} (hhold : s.fdin.cal.hold = some (k, t0)) (hlow : s.wscLow k = false)
    (habs : s.wscAbs k = true) (hdamped : s.wscThr k * 262144 < c * 5000) : cmpCalGuardAbort c s = s.holdAbort := by
  simp only [cmpCalGuardAbort, hhold, hlow, habs, if_true, Bool.false_eq_true, if_false, decide_eq_true_eq, if_pos hdamped]

/-- A hold has ended with an accepted trim, which FD has yet to report. -/
def State.trimTaken (s : State) (k : Nat) (ofs : Int) : State :=
  ((s.holdEnds k).setFdCal fun c => { c with due := (s.holdEnds k).nextChannel k }).setWsc k { (s.holdEnds k).wsc k with
    trim := ofs, calLast := 1, trimAt := some s.now, calAt := some s.now }

theorem State.trimTaken_changes (s : State) (k : Nat) (ofs : Int) : Changes [.fdin] [] s (s.trimTaken k ofs) := by
  refine (s.holdEnds_changes k).trans ?_
  simp +decide [State.trimTaken, State.setFdCal, State.setWsc]

/-- A hold whose level keeps the limits of FD_CAL_CFG takes its trim and reports it (R487, R488). -/
theorem cmpCalHoldEnd_of_within {t0 : Nat} {level ofs : Int} (hhold : s.fdin.cal.hold = some (k, t0))
    (hofs : level - 4 * (s.wscThr k : Int) = ofs) (hlimit : ofs.natAbs ≤ fld (s.reg Reg.FD_CAL_CFG) 17 7)
    (hstep : (ofs - (s.wsc k).trim).natAbs ≤ fld (s.reg Reg.FD_CAL_CFG) 24 7) :
    cmpCalHoldEnd level s =
      { s.trimTaken k ofs with trimReports := (s.trimTaken k ofs).trimReports ++ [(k, ofs)] }.setEvt Reg.FD_CAL_EVT 0 := by
  subst hofs
  have hok : (decide ((level - 4 * (s.wscThr k : Int)).natAbs ≤ s.fdCalCfg 17 7) &&
      decide ((level - 4 * (s.wscThr k : Int) - (s.wsc k).trim).natAbs ≤ s.fdCalCfg 24 7)) = true := by
    rw [Bool.and_eq_true, decide_eq_true_eq, decide_eq_true_eq]
    exact ⟨hlimit, hstep⟩
  unfold cmpCalHoldEnd
  rw [hhold]
  exact if_pos hok

end

/-! ### The rows -/

/-- Settles O18: each row is one operation of FD, a request is the write of its register, a safety input that changes is
`State.fsiChanged`, and a calibration goes through `State.calTry_of_may` and one of the two ends of its hold. -/
theorem converterAndTrims : Obligations.ConverterAndTrims := by
  unfold Obligations.ConverterAndTrims
  refine ⟨?low, ?good, ?frame, ?request, ?done, ?state, ?fault, ?hold, ?retry, ?abort, ?trim⟩
  case low =>
    intro dt s e a b he hup ha hlo hhi
    exact (after_eq he _).trans (congrArg _ (supplySample_of_low24 hup ha hlo hhi))
  case good =>
    intro dt s e a b he hup ha ha' hlo hhi
    exact (after_eq he _).trans (congrArg _ (supplySample_of_good hup ha ha' hlo hhi))
  case frame =>
    intro dt s e a he hup
    obtain ⟨hchannels, hmisc⟩ := adcFrame_shows hup a
    exact ⟨_, after_eq he _, hchannels, hmisc, (adcFrame_parts _ _ (by decide)).2 (.refl ..)⟩
  case request =>
    intro dt s e m v he hu hup hm hv hidle hused
    exact exec_adcRequest he hu hup hm hv hidle hused
  case done =>
    intro dt s e r codes total he hup hreq hn htotal
    subst htotal
    exact (afterFd_of_up he hup _).trans (congrArg _ (adcRequestDone_of_full hreq hn))
  case state =>
    intro dt s e k runs v he hup hk hen hheld hnew
    obtain ⟨hinput, hothers, hevt, hchanges⟩ := e.fsiChanged k { high := some v, fault := false } (evt := k) (by omega)
    refine ⟨_, (afterFd_of_up he hup _).trans (congrArg (fun u => Host.Outcome.next u.voRecheck) (State.fsiTake_of_new hup hen hheld hnew)),
      hinput, ?_, hothers, hevt, hchanges⟩
    rw [State.fsiInhibits, State.fsiOn, hinput, hchanges.regs _ (by decide)]
    cases v <;> cases bitOf (e.reg Reg.FD_FSI_CFG) (8 + k) <;> rfl
  case fault =>
    intro dt s e k runs he hup hk hen hgood hlong
    obtain ⟨hinput, hothers, hevt, -⟩ := e.fsiChanged k { e.fsi k with fault := true } (evt := 8 + k) (by omega)
    refine ⟨_, (afterFd_of_up he hup _).trans (congrArg (fun u => Host.Outcome.next u.voRecheck) (State.fsiBad_of_undefined hup hen hgood hlong)),
      hinput, ?_, hothers, hevt⟩
    rw [State.fsiInhibits, hinput, Bool.true_or]
  case hold =>
    intro dt s e k he hup hdef hhold hdue hevery htrims hen hdev hcal hready
    refine (afterFd_of_up he hup _).trans (congrArg _ ?_)
    rw [cmpCalHoldStart, hdef, State.calTry_of_may hup ⟨hdue, hhold, hevery, htrims, hen, hdev, hcal⟩, if_pos hready]
    rfl
  case retry =>
    intro dt s e k t0 t1 he hup hdef hdate hhold hdue hlate hevery htrims hen hdev hcal hready
    refine (afterFd_of_up he hup _).trans (congrArg _ ?_)
    have htry := State.calTry_of_may hup ⟨hdue, hhold, hevery, htrims, hen, hdev, hcal⟩
    simp only [cmpCalRetry, hdef, if_pos hdate, htry, hready, Bool.false_eq_true, if_false, Option.map_some, Option.getD_some,
      Nat.not_lt.2 hlate, decide_false]
    rfl
  case abort =>
    intro dt s e k t0 c he hup hhold hlow habs hdamped
    exact ⟨_, (afterFd_of_up he hup _).trans (congrArg _ (cmpCalGuardAbort_of_damped hhold hlow habs hdamped)),
      State.holdAbort_of_held hhold⟩
  case trim =>
    intro dt s e k t0 level he hup hhold hlimit hstep
    refine ⟨_, (afterFd_of_up he hup _).trans (congrArg _ (cmpCalHoldEnd_of_within hhold rfl hlimit hstep)), ?_, ?_, ?_,
      State.bitOf_setEvt _ _ (by decide), ?_⟩
    · rw [State.wsc_setEvt]
      exact (State.wsc_setWsc ..).trans (by rw [State.holdEnds_wsc])
    · rw [State.setEvt_fdin]
      rfl
    · rw [State.setEvt_trimReports]
      rfl
    · refine (State.setEvt_changes _ _ _ (by simp) (by decide)).2 ((State.with_trimReports_changes (by decide)).2 ?_)
      exact (e.trimTaken_changes ..).mono (by decide) (by simp)

end Sys2Proof.Machine
end

section
/-!
PROOF. The brake tests with their feedback, and the reset inputs (R300, R309, R314 to R321).
-/
namespace Sys2Proof.Machine

/-! ### Outputs that are checked again (R268, R269) -/

/-- Only a device in Service or Degraded energises an output (R268). -/
theorem State.serving_of_voAllowed {s : State} {i : Nat} (h : s.voAllowed i = true) : s.serving = true := by
  simp only [State.voAllowed, Bool.and_eq_true] at h
  obtain ⟨⟨⟨⟨⟨⟨⟨⟨-, hdev⟩, -⟩, -⟩, -⟩, -⟩, -⟩, -⟩, -⟩ := h
  exact hdev

/-- What checking the outputs leaves: the reset inputs and the groups, and in a device that may energise no output also the brake tests
and every output that is low. -/
structure OutputsRechecked (s t : State) : Prop where
  dev : t.dev = s.dev
  resets : t.outs.rst = s.outs.rst
  groups : t.outs.groups = s.outs.groups
  brakes : s.serving = false → t.outs.brk = s.outs.brk
  falls : s.serving = false → ∀ i, (t.vo i).level = true → (s.vo i).level = true

namespace OutputsRechecked

theorem refl (s : State) : OutputsRechecked s s := ⟨rfl, rfl, rfl, fun _ => rfl, fun _ _ h => h⟩

theorem serving {s t : State} (h : OutputsRechecked s t) : t.serving = s.serving := by rw [State.serving, h.dev, State.serving]

theorem trans {s t u : State} (h : OutputsRechecked s t) (k : OutputsRechecked t u) : OutputsRechecked s u where
  dev := k.dev.trans h.dev
  resets := k.resets.trans h.resets
  groups := k.groups.trans h.groups
  brakes hs := (k.brakes (h.serving.trans hs)).trans (h.brakes hs)
  falls hs i hi := h.falls hs i (k.falls (h.serving.trans hs) i hi)

theorem foldl {α : Type} {f : State → α → State} (hf : ∀ u a, OutputsRechecked u (f u a)) (l : List α) :
    ∀ s, OutputsRechecked s (l.foldl f s) := by
  induction l with
  | nil => exact refl
  | cons a l ih => exact fun s => (hf s a).trans (ih (f s a))

theorem setVo (s : State) (i : Nat) {v : Vo} (hv : v.level = true → (s.vo i).level = true) : OutputsRechecked s (s.setVo i v) where
  dev := rfl
  resets := rfl
  groups := rfl
  brakes _ := rfl
  falls _ j hj := by
    by_cases hij : j = i
    · subst hij
      rw [State.vo_setVo] at hj
      exact hv hj
    · rwa [State.vo_setVo_other _ _ hij] at hj

theorem voRaiseNow {s : State} (hs : s.serving = true) (i : Nat) : OutputsRechecked s (s.voRaiseNow i) := by
  have key (t : State) (hdev : t.dev = s.dev) (hrst : t.outs.rst = s.outs.rst) (hgroups : t.outs.groups = s.outs.groups) :
      OutputsRechecked s t := ⟨hdev, hrst, hgroups, by simp [hs], by simp [hs]⟩
  refine key _ ((s.voRaiseNow_changes i).parts.same .dev (by decide)) ?_ ?_
  all_goals
    unfold State.voRaiseNow
    extract_lets v u
    split
    · split
      · simp only [State.brakeEnd, State.setEvt_outs]
        rfl
      · rfl
    · rfl

theorem voResume (s : State) (i : Nat) : OutputsRechecked s (s.voResume i) := by
  unfold State.voResume
  split
  · exact refl s
  · split
    next hallowed => exact voRaiseNow (State.serving_of_voAllowed hallowed) i
    next => exact setVo s i id

theorem voUndefer (s : State) (g : Nat) : OutputsRechecked s (s.voUndefer g) := by
  unfold State.voUndefer
  split
  · exact refl s
  · exact foldl voResume _ s

theorem voLower (s : State) (i : Nat) : OutputsRechecked s (s.voLower i) := by
  unfold State.voLower
  extract_lets v u
  have hlow : OutputsRechecked s u := setVo s i (by simp)
  split
  · exact refl s
  · split
    · exact hlow.trans (voUndefer u _)
    · exact hlow

theorem voRecheck (s : State) : OutputsRechecked s s.voRecheck := by
  refine foldl (fun u i => ?_) _ s
  split
  · exact voLower u i
  · exact refl u

theorem ledDo (s : State) (f : Channel → Channel) : OutputsRechecked s (s.ledDo f) := by
  unfold State.ledDo
  split
  · have hled (u : FdSafe → FdSafe) : OutputsRechecked s (s.setFds u) := ⟨rfl, rfl, rfl, fun _ => rfl, fun _ _ h => h⟩
    exact (hled _).trans (voRecheck _)
  · exact refl s

end OutputsRechecked

/-- In a device that may energise no output a lowered one is low, whatever the end of its test lets the others do. -/
theorem State.voLower_low {s : State} (hs : s.serving = false) (i : Nat) : ((s.voLower i).vo i).level = false := by
  unfold State.voLower
  extract_lets v u
  have hlow : (u.vo i).level = false := by simp only [u, State.vo_setVo]
  split
  next hidle =>
    simp only [Vo.energised, Bool.not_eq_true', Bool.or_eq_false_iff] at hidle
    exact hidle.1.1
  next =>
    split
    · by_contra hhigh
      have := (OutputsRechecked.voUndefer u (i / 16)).falls hs i (Bool.eq_true_of_not_eq_false hhigh)
      rw [hlow] at this
      cases this
    · exact hlow

/-- In a device that may energise no output every output outside a group check is low once the outputs have been checked. -/
theorem State.voRecheck_low {s : State} (hs : s.serving = false) {i : Nat} (hi : i < 32) (hg : (s.group (i / 16)).check = none) :
    (s.voRecheck.vo i).level = false := by
  let step := fun (s : State) (i : Nat) =>
    if (s.group (i / 16)).check.isNone && (s.vo i).energised && !s.voAllowed i then s.voLower i else s
  have hstep (u : State) (j : Nat) : OutputsRechecked u (step u j) := by
    simp only [step]
    split
    · exact .voLower u j
    · exact .refl u
  refine (foldl_reaches (kept := OutputsRechecked s) (goal := fun j u => (s.group (j / 16)).check = none → (u.vo j).level = false)
    (f := step) (l := voNumbers) (.refl s) (fun u j _ hu => hu.trans (hstep u j)) ?_ ?_).2 i (List.mem_range.2 hi) hg
  · intro u j _ hu hg
    have hus : u.serving = false := hu.serving.trans hs
    have hnever : u.voAllowed j = false := Bool.eq_false_iff.2 fun h => by simp [State.serving_of_voAllowed h] at hus
    have hgroup : (u.group (j / 16)).check = none := by rw [State.group, hu.groups]; exact hg
    simp only [step, hgroup, hnever, Option.isNone_none, Bool.true_and, Bool.not_false, Bool.and_true]
    split
    · exact State.voLower_low hus j
    next hidle =>
      simp only [Vo.energised, Bool.not_eq_true, Bool.or_eq_false_iff] at hidle
      exact hidle.1.1
  · intro u j c _ _ hu hlow hg
    have hus : u.serving = false := hu.serving.trans hs
    by_contra hhigh
    have := (hstep u c).falls hus j (Bool.eq_true_of_not_eq_false hhigh)
    rw [hlow hg] at this
    cases this

/-! ### Faults that latch (R309) -/

/-- An output outside a test goes low, and nothing but the outputs changes; no brake test does. -/
theorem State.voLower_untested {s : State} {i : Nat} (htest : (s.vo i).test = none) :
    ((s.voLower i).vo i).level = false ∧ ((s.voLower i).vo i).latched = (s.vo i).latched ∧
      (s.voLower i).outs.brk = s.outs.brk ∧ OnlyParts [.outs] s (s.voLower i) := by
  simp only [State.voLower, htest, Option.isSome_none, Bool.false_eq_true, if_false]
  split
  next hidle =>
    simp only [Vo.energised, Bool.not_eq_true', Bool.or_eq_false_iff] at hidle
    exact ⟨hidle.1.1, rfl, rfl, .refl ..⟩
  next => exact ⟨by rw [State.vo_setVo], by rw [State.vo_setVo], rfl, (State.setOuts_parts _ _ (by decide)).2 (.refl ..)⟩

/-- An output has a fault of its own: the code latched, the output low, and the brake tests as they were. -/
structure OutputFaulted (i code : Nat) (s t : State) : Prop where
  latched : (t.vo i).latched = [code]
  low : (t.vo i).level = false
  brakes : t.outs.brk = s.outs.brk
  changes : Changes [.outs, .events] [Reg.FD_VO_EVT] s t

/-- The first fault of an output outside a test, other than STUCK_ON, latches. -/
theorem State.voFault_latches {s : State} {i code : Nat} (hcode : code ≠ 1) (hnone : (s.vo i).latched = [])
    (htest : (s.vo i).test = none) : OutputFaulted i code s (s.voFault i code) := by
  simp only [State.voFault, if_neg hcode, hnone, List.contains_nil, Bool.false_eq_true, if_false]
  generalize hu : (s.setVo i { s.vo i with latched := [code] }).setEvt Reg.FD_VO_EVT 0 = u
  have hvo : u.vo i = { s.vo i with latched := [code] } := by rw [← hu, State.vo_setEvt, State.vo_setVo]
  have hbrk : u.outs.brk = s.outs.brk := by rw [← hu, State.setEvt_outs]; rfl
  have hchanges : Changes [.outs, .events] [Reg.FD_VO_EVT] s u := by
    rw [← hu]
    simp +decide [State.setVo]
  obtain ⟨hlow, hlatched, hbrakes, hparts⟩ := State.voLower_untested (s := u) (i := i) (by rw [hvo]; exact htest)
  exact ⟨hlatched.trans (by rw [hvo]), hlow, hbrakes.trans hbrk,
    hchanges.trans ((Changes.of_parts hparts (l := []) (by decide) (by decide)).mono (by decide) (by simp))⟩

/-! ### Brake tests (R314 to R316) -/

section
variable {s : State} {c : Nat}

/-- A running test ends with its result, and its bit of FD_BRK_EVT. -/
theorem State.brakeEnd_shown (s : State) (c res : Nat) :
    (s.brakeEnd c res).brake c = { step := .none, since := s.now, res := res } ∧
      bitOf ((s.brakeEnd c res).reg Reg.FD_BRK_EVT) (if res = 3 then 0 else 1) = true :=
  ⟨(State.brake_setEvt ..).trans (State.brake_setBrake ..), State.bitOf_setEvt _ _ (by split <;> decide)⟩

/-- A test that fails ends with its result and fault BRAKE_TEST. -/
theorem State.brakeFail_shown {res : Nat} (hres : res ≠ 3) (hnone : (s.vo (16 + c)).latched = []) (htest : (s.vo (16 + c)).test = none) :
    (s.brakeFail c res).brake c = { step := .none, since := s.now, res := res } ∧ ((s.brakeFail c res).vo (16 + c)).latched = [6] ∧
      ((s.brakeFail c res).vo (16 + c)).level = false ∧ bitOf ((s.brakeFail c res).reg Reg.FD_BRK_EVT) 1 = true ∧
      Changes [.outs, .events] [Reg.FD_BRK_EVT, Reg.FD_VO_EVT] s (s.brakeFail c res) := by
  have hvo : (s.brakeEnd c res).vo (16 + c) = s.vo (16 + c) := State.vo_setEvt ..
  obtain ⟨hend, hevt⟩ := s.brakeEnd_shown c res
  rw [if_neg hres] at hevt
  obtain ⟨hlatched, hlow, hbrakes, hchanges⟩ := State.voFault_latches (s := s.brakeEnd c res) (i := 16 + c) (code := 6) (by decide)
    (by rw [hvo]; exact hnone) (by rw [hvo]; exact htest)
  refine ⟨?_, hlatched, hlow, ?_, ((s.brakeEnd_changes c res).mono (by decide) (by simp)).trans (hchanges.mono (by decide) (by simp))⟩
  · rw [← hend, State.brake, State.brakeFail, hbrakes, State.brake]
  · rw [State.brakeFail, hchanges.regs _ (by decide)]
    exact hevt

theorem State.applied_of_changes {t : State} (h : Changes [.outs, .events] [Reg.FD_BRK_EVT] s t) (c : Nat) :
    t.applied c = s.applied c := by
  have hfdin : t.fdin = s.fdin := h.parts.same .fdin (by decide)
  simp only [State.applied, State.bfbOn, State.bfb, hfdin, h.regs Reg.FD_BRK_CFG (by decide)]

/-- A test that FD accepts, of a brake that does not show applied. -/
theorem State.brakeStart_of_free (hc : c < 16) (hdev : s.dev = .maintenance) (hrun : s.fds.first = none)
    (hstep : (s.brake c).step = .none) (hnone : (s.vo (16 + c)).latched = []) (hon : s.brakeOn (16 + c) = true)
    (happ : s.applied c = false) :
    s.brakeStart c = ((s.setBrake c { step := .apply, since := s.now, res := 1 }).voRecheck, 0) := by
  have hkeeps : (s.setBrake c { step := .apply, since := s.now, res := 1 }).voRecheck.applied c = false :=
    (State.applied_of_changes (State.voRecheck_changes _) c).trans happ
  have hstate : (s.dev == .safeStop || s.dev == .watch || s.fds.first.isSome) = false := by simp [hdev, hrun]
  have hfree : (!(s.vo (16 + c)).latched.isEmpty || !s.brakeOn (16 + c)) = false := by simp [hnone, hon]
  simp only [State.brakeStart, Nat.not_le.2 hc, hstate, hstep, hfree, hkeeps, Bool.false_eq_true, if_false, ne_eq, not_true_eq_false]

/-- BRAKE_TEST_START is the command of its channel. -/
theorem exec_brakeTestStart {e : State} {dt : Nat} {m : Master} (he : s.elapse dt = e) (hu : e.boot.up = true)
    (hm : e.mayWrite m Reg.FD_BRK_CMD = true) (hc : c < 16) : exec (.brakeTestStart dt m c) s = .next (brakeCommand c e) := by
  have hword : ∀ c < 16, (word [(0, 4, c)]).toNat < 2 ^ 4 ∧ fld (word [(0, 4, c)]) 0 4 = c := by decide
  obtain ⟨hlt, hfld⟩ := hword c hc
  have hclean := hitsReserved_of_lt (b := .brk) (o := 0) (k := 4) hlt (by decide) ⟨0, 0, 1, .wo, 0⟩
  refine (State.writeRow_of_mayWrite (v := fun _ => word [(0, 4, c)]) he hu hm (b := .brk) (n := 0) (o := 0)
    (row := ⟨0, 0, 1, .wo, 0⟩) rfl rfl).trans ?_
  simp only [State.listedWrite, hclean, State.regWrite, hfld, Bool.false_eq_true, if_false, reduceCtorEq, false_and]

/-! ### Brake feedback (R300, R309, R315) -/

/-- The brake feedbacks with that of channel `c` as `x`. -/
def State.withBfb (s : State) (c : Nat) (x : FieldIn) : State := s.setFdin fun f => { f with bfb := tset f.bfb c x }

theorem State.bfb_withBfb (s : State) (c : Nat) (x : FieldIn) : (s.withBfb c x).bfb c = x := tget_tset_same ..

/-- A feedback has taken a state: the limit of its output's last change ends where it shows what the output stands for. -/
def State.feedbackTaken (s : State) (c : Nat) (v : Bool) : State :=
  (s.withBfb c { high := some v, fault := false }).when
    ((s.vo (16 + c)).fb.isSome && (s.withBfb c { high := some v, fault := false }).follows (16 + c)
      ((s.vo (16 + c)).level || (s.vo (16 + c)).test.isSome))
    (·.setVo (16 + c) { s.vo (16 + c) with fb := none })

theorem State.applied_withBfb (s : State) (c : Nat) (v : Bool) :
    (s.withBfb c { high := some v, fault := false }).applied c = (v != bitOf (s.reg Reg.FD_BRK_CFG) (16 + c)) := by
  simp only [State.applied, State.bfbOn, State.bfb_withBfb, Option.map_some]
  generalize hon : (v != bitOf (s.reg Reg.FD_BRK_CFG) (16 + c)) = on
  change (some (v != bitOf (s.reg Reg.FD_BRK_CFG) (16 + c)) == some true) = on
  rw [hon]
  cases on <;> rfl

theorem State.released_withBfb (s : State) (c : Nat) (v : Bool) :
    (s.withBfb c { high := some v, fault := false }).released c = !(v != bitOf (s.reg Reg.FD_BRK_CFG) (16 + c)) := by
  simp only [State.released, State.bfbOn, State.bfb_withBfb, Option.map_some]
  generalize hon : (v != bitOf (s.reg Reg.FD_BRK_CFG) (16 + c)) = on
  change (some (v != bitOf (s.reg Reg.FD_BRK_CFG) (16 + c)) == some false) = !on
  rw [hon]
  cases on <;> rfl

theorem State.follows_withBfb (s : State) (c : Nat) (v level : Bool) :
    (s.withBfb c { high := some v, fault := false }).follows (16 + c) level =
      ((v != bitOf (s.reg Reg.FD_BRK_CFG) (16 + c)) == !level) := by
  simp only [State.follows, Nat.add_sub_cancel_left, State.applied_withBfb, State.released_withBfb]
  generalize (v != bitOf (s.reg Reg.FD_BRK_CFG) (16 + c)) = on
  cases level <;> cases on <;> rfl

theorem State.feedbackTaken_bfb (s : State) (c : Nat) (v : Bool) :
    (s.feedbackTaken c v).bfb c = { high := some v, fault := false } := by
  unfold State.feedbackTaken State.when
  split <;> exact s.bfb_withBfb ..

theorem State.feedbackTaken_brake (s : State) (c : Nat) (v : Bool) : (s.feedbackTaken c v).brake c = s.brake c := by
  unfold State.feedbackTaken State.when
  split <;> rfl

theorem State.feedbackTaken_parts (s : State) (c : Nat) (v : Bool) : OnlyParts [.fdin, .outs] s (s.feedbackTaken c v) := by
  have hfb : OnlyParts [.fdin, .outs] s (s.withBfb c { high := some v, fault := false }) :=
    (State.setFdin_parts _ _ (by decide)).2 (.refl ..)
  unfold State.feedbackTaken State.when
  split
  · exact (State.setOuts_parts _ _ (by decide)).2 hfb
  · exact hfb

/-- The feedback shows what the output stands for: no limit runs any longer. -/
theorem State.feedbackTaken_vo_of_met {v : Bool} (h : (v != bitOf (s.reg Reg.FD_BRK_CFG) (16 + c)) =
    !((s.vo (16 + c)).level || (s.vo (16 + c)).test.isSome)) :
    (s.feedbackTaken c v).vo (16 + c) = { s.vo (16 + c) with fb := none } := by
  simp only [State.feedbackTaken, State.follows_withBfb, h, beq_self_eq_true, Bool.and_true]
  cases hfb : (s.vo (16 + c)).fb with
  | some t0 => exact State.vo_setVo ..
  | none =>
    refine Eq.trans (b := s.vo (16 + c)) rfl ?_
    rw [← hfb]

/-- The feedback shows the contrary: the output's limit is as it was. -/
theorem State.feedbackTaken_vo_of_unmet {v : Bool} (h : (v != bitOf (s.reg Reg.FD_BRK_CFG) (16 + c)) =
    ((s.vo (16 + c)).level || (s.vo (16 + c)).test.isSome)) : (s.feedbackTaken c v).vo (16 + c) = s.vo (16 + c) := by
  have hnot (b : Bool) : (b == !b) = false := by cases b <;> rfl
  simp only [State.feedbackTaken, State.follows_withBfb, h, hnot, Bool.and_false]
  rfl

section
variable {runs : List LevelRun} {v : Bool} (hup : s.fdUp = true) (hheld : heldState runs = some v)
include hup hheld

/-- A feedback that takes a state moves the brake test on as the state after it says. -/
theorem brakeFeedback_of_held : brakeFeedback c runs s =
    match (s.brake c).step with
    | .apply => if v ≠ bitOf (s.reg Reg.FD_BRK_CFG) (16 + c) then (s.feedbackTaken c v).brakeHold c else s.feedbackTaken c v
    | .hold => if v ≠ bitOf (s.reg Reg.FD_BRK_CFG) (16 + c) then s.feedbackTaken c v else (s.feedbackTaken c v).brakeFail c 5
    | .release => if v ≠ bitOf (s.reg Reg.FD_BRK_CFG) (16 + c) then s.feedbackTaken c v else (s.feedbackTaken c v).brakeEnd c 3
    | _ => s.feedbackTaken c v := by
  have happ := s.applied_withBfb c v
  rw [← s.feedbackTaken_brake c v]
  simp only [← bne_iff_ne, ← happ, brakeFeedback, hup, hheld]
  rfl

end

/-- A feedback found faulty, of an output that is on and in no test, is a fault of the output. -/
theorem brakeFeedbackFault_of_on {runs : List LevelRun} (hup : s.fdUp = true) (hok : (s.bfb c).fault = false)
    (hlong : undefinedLong runs = true) (hon : s.brakeOn (16 + c) = true) (hstep : (s.brake c).step = .none) :
    brakeFeedbackFault c runs s = (s.withBfb c { s.bfb c with fault := true }).voFault (16 + c) 5 := by
  unfold brakeFeedbackFault
  rw [if_neg (by simp [hup, hok, hlong])]
  extract_lets x u w
  have hhold : ((u.brake c).step == .hold) = false := by
    change ((s.brake c).step == .hold) = false
    rw [hstep]
    rfl
  have hw : w = u := by rw [show w = u.when ((u.brake c).step == .hold) (·.brakeFail c 5) from rfl, hhold, State.when, if_neg Bool.false_ne_true]
  have hwon : w.brakeOn (16 + c) = true := by rw [hw]; exact hon
  rw [hwon, hw, State.when, if_pos rfl]
  rfl

/-- What has been waited for longer than its limit. -/
theorem any_late {o : Option Nat} {t0 limit now : Nat} (h : o = some t0) (hlate : t0 + limit < now) :
    o.any (fun t => decide (t + limit < now)) = true := by
  simp only [h, Option.any_some, hlate, decide_true]

/-- What has lasted for its time. -/
theorem any_due {o : Option Nat} {t0 limit now : Nat} (h : o = some t0) (hdue : t0 + limit ≤ now) :
    o.any (fun t => decide (t + limit ≤ now)) = true := by
  simp only [h, Option.any_some, hdue, decide_true]

/-- The limit of a brake's last change passes without what it stands for. -/
theorem brakeFeedbackTimeout_of_late {t0 : Nat} (htest : (s.vo (16 + c)).test = none) (hfb : (s.vo (16 + c)).fb = some t0)
    (hhigh : (s.vo (16 + c)).level = true) (hlate : t0 + s.brkTime 2 < s.now) (hstep : (s.brake c).step = .none) :
    brakeFeedbackTimeout c s = (s.setVo (16 + c) { s.vo (16 + c) with fb := none }).voFault (16 + c) 5 := by
  unfold brakeFeedbackTimeout
  extract_lets v limit
  have hlimit : limit = s.brkTime 2 := if_pos hhigh
  rw [hlimit, htest, hstep, any_late hfb hlate]
  exact if_pos rfl

/-- A test that sees applied begins its hold (R315). -/
theorem State.feedbackTaken_brakeHold (s : State) (c : Nat) (v : Bool) :
    ((s.feedbackTaken c v).brakeHold c).brake c = { s.brake c with step := .hold, since := s.now } ∧
      ((s.feedbackTaken c v).brakeHold c).bfb c = { high := some v, fault := false } ∧
      OnlyParts [.fdin, .outs] s ((s.feedbackTaken c v).brakeHold c) := by
  have hparts := s.feedbackTaken_parts c v
  have hnow : (s.feedbackTaken c v).now = s.now := (hparts.same .time (by decide)).1
  have hheld : OnlyParts [.fdin, .outs] (s.feedbackTaken c v) ((s.feedbackTaken c v).brakeHold c) := by
    simp +decide [State.brakeHold, State.setBrake]
  refine ⟨?_, s.feedbackTaken_bfb c v, hparts.trans hheld⟩
  rw [State.brakeHold, State.brake_setBrake, s.feedbackTaken_brake, hnow]

end

/-! ### Reset inputs (R317 to R321) -/

/-- All samples of a list that shows one pattern throughout count. -/
theorem trailing_of_all {α : Type} {p : α → Bool} {l : List α} (h : ∀ x ∈ l, p x = true) : trailing (fun _ => 1) p l = l.length := by
  have hall : l.reverse.takeWhile p = l.reverse := List.takeWhile_eq_self_iff.2 fun x hx => h x (List.mem_reverse.1 hx)
  rw [trailing, hall, ← List.sum_eq_foldl, List.map_const', List.sum_replicate, List.length_reverse, smul_eq_mul, mul_one]

/-- A pattern that 20 samples show is present since the first of them (R317). -/
theorem ResetIn.sample_of_all {r : ResetIn} {now : Nat} {p : Option Bool} {samples : List (Nat × Nat)} (hlen : samples.length = 20)
    (hall : ∀ x, x ∈ samples → samplePattern x = p) (hnew : r.pat ≠ some p) :
    (r.sample now samples).pat = some p ∧ (r.sample now samples).patAt = some (now - 19000000) := by
  obtain ⟨x, hx⟩ : ∃ x, samples.getLast? = some x := Option.ne_none_iff_exists'.1 fun hnone => by
    rw [List.getLast?_eq_none_iff.1 hnone] at hlen
    cases hlen
  have hcount : trailing (fun _ => 1) (fun y => samplePattern y == p) samples = 20 :=
    (trailing_of_all fun y hy => beq_iff_eq.2 (hall y hy)).trans hlen
  simp [ResetIn.sample, hx, hall x (List.mem_of_getLast? hx), hcount, hnew]

/-- Samples alone move no reset input from its state. -/
theorem ResetIn.sample_kept (r : ResetIn) (now : Nat) (samples : List (Nat × Nat)) :
    (r.sample now samples).st = r.st ∧ (r.sample now samples).since = r.since ∧ (r.sample now samples).edges = r.edges := by
  unfold ResetIn.sample
  split
  · exact ⟨rfl, rfl, rfl⟩
  · extract_lets p k q
    split <;> exact ⟨rfl, rfl, rfl⟩

section
variable {s : State} {n : Nat} {samples : List (Nat × Nat)} {r : ResetIn}

/-- The released pattern releases an input whose state is not known, and one that is pressed or stuck. -/
theorem resetInputPattern_of_released (hup : s.fdUp = true) (hr : (s.rstIn n).sample s.now samples = r)
    (hpat : r.pat = some (some false))
    (hst : (s.rstIn n).st = .unknown ∨ (s.rstIn n).st = .pressed ∨ (s.rstIn n).st = .stuck) :
    resetInputPattern n samples s = s.setRstIn n { r with st := .released, since := s.now } := by
  have hkept : r.st = (s.rstIn n).st := hr ▸ ((s.rstIn n).sample_kept s.now samples).1
  rw [← hkept] at hst
  unfold resetInputPattern
  rw [if_neg (by simp [hup]), hr]
  extract_lets q go
  have hq : q.pat = some (some false) := hpat
  change _ = go .released
  rw [hq]
  obtain h | h | h : q.st = .unknown ∨ q.st = .pressed ∨ q.st = .stuck := hst <;> rw [h]

/-- The pressed pattern is an edge of an input that has been released for 100 ms. -/
theorem resetInputPattern_of_pressed (hup : s.fdUp = true) (hr : (s.rstIn n).sample s.now samples = r)
    (hpat : r.pat = some (some true)) (hst : (s.rstIn n).st = .released) (hsince : (s.rstIn n).since + 100000000 ≤ s.now) :
    resetInputPattern n samples s = (s.setRstIn n { r with st := .pressed, since := s.now }).rstEdge n := by
  obtain ⟨hst', hsince', -⟩ := (s.rstIn n).sample_kept s.now samples
  rw [hr] at hst' hsince'
  rw [← hst'] at hst
  rw [← hsince'] at hsince
  unfold resetInputPattern
  rw [if_neg (by simp [hup]), hr]
  extract_lets q go
  have hq : q.pat = some (some true) := hpat
  have hqst : q.st = .released := hst
  change _ = (go .pressed).rstEdge n
  rw [hq, hqst]
  exact if_pos hsince

theorem State.chanNote_changes (s : State) (x : ChanNote) :
    Changes [.events] [Reg.HB_CPT_EVT, Reg.HB_SEC_EVT, Reg.HB_CPT_FAULT_CNT] s (s.chanNote x) := by
  cases x <;> simp +decide [State.chanNote]

theorem State.resetEnded_changes (s : State) (q : QueuedCmd × Nat) :
    Changes [.frw, .events, .store] [Reg.HB_JNL_EVT] s (s.resetEnded q) := by
  have hjournal := (State.raise_changes (ps := [.store, .events]) (l := [Reg.HB_JNL_EVT])
    (s.journalAdd s.tc.now q.1.cmd.dom q.2 q.1.code (argDigest q.1.cmd.args)) 4 4 (by decide)).2 (State.journalAdd_changes ..)
  unfold State.resetEnded
  refine (State.when_changes ?_).2 (hjournal.mono (by decide) (by simp))
  exact (State.with_frw_changes (by decide)).2 (.refl ..)

/-- The processor channel at work reports itself, and the direct resets that it ends are journalled. -/
theorem State.procDo_changes (s : State) (f : Channel → Channel) : Changes [.saf, .frw, .events, .store]
    [Reg.HB_CPT_EVT, Reg.HB_SEC_EVT, Reg.HB_CPT_FAULT_CNT, Reg.HB_JNL_EVT] s (s.procDo f) := by
  unfold State.procDo State.procDrain
  split
  · refine (foldl_changes fun q u => (u.resetEnded_changes q).mono (by decide) (by simp)).2 ?_
    refine (foldl_changes fun x u => (u.chanNote_changes x).mono (by decide) (by simp)).2 ?_
    simp +decide
  · exact .refl ..

/-- An edge outside Safe-stop is stamped, counted and shown, and goes to both channels (R319). -/
theorem State.rstEdge_shown {t0 : Nat} (hrun : s.fds.first = none) (hat : (s.rstIn n).patAt = some t0) :
    ((s.rstEdge n).rstIn n).st = (s.rstIn n).st ∧ ((s.rstEdge n).rstIn n).start = s.tc.fd - (s.now - t0) ∧
      ((s.rstEdge n).rstIn n).edges = ((s.rstIn n).edges + 1) % 256 ∧
      bitOf ((s.rstEdge n).reg Reg.FD_RST_EVT) n = decide (n < 32) ∧ (s.rstEdge n).dev = s.dev := by
  unfold State.rstEdge
  extract_lets r start u t
  have hstart : start = s.tc.fd - (s.now - t0) := by simp only [start, r, hat, Option.getD_some]
  have hu : Changes [.outs, .events] [Reg.FD_RST_EVT] s u := by simp +decide [u, State.setRstIn]
  have hfds : u.fds = s.fds := hu.parts.same .fds (by decide)
  rw [if_neg (by rw [hfds, hrun]; decide)]
  generalize hw : u.procDo (·.edge n t (0, 2, 3)) = w
  have hproc := u.procDo_changes (·.edge n t (0, 2, 3))
  rw [hw] at hproc
  have hled := OutputsRechecked.ledDo w (·.edge n t (0, 2, 3))
  have hrst : (w.ledDo (·.edge n t (0, 2, 3))).rstIn n = { r with start := start, edges := (r.edges + 1) % 256 } := by
    have hin : u.rstIn n = { r with start := start, edges := (r.edges + 1) % 256 } := by
      rw [State.rstIn, State.setEvt_outs]
      exact State.rstIn_setRstIn ..
    have hkept : w.outs = u.outs := hproc.parts.same .outs (by decide)
    rw [State.rstIn, hled.resets, hkept, ← State.rstIn, hin]
  have hreg : (w.ledDo (·.edge n t (0, 2, 3))).reg Reg.FD_RST_EVT = u.reg Reg.FD_RST_EVT :=
    ((w.ledDo_changes _).regs _ (by decide)).trans (hproc.regs _ (by decide))
  rw [hrst, hreg, ← hstart]
  refine ⟨rfl, rfl, rfl, ?_, hled.dev.trans ((hproc.parts.same .dev (by decide)).trans (hu.parts.same .dev (by decide)))⟩
  by_cases hn : n < 32
  · rw [decide_eq_true hn]
    exact State.bitOf_setEvt _ _ hn
  · rw [decide_eq_false hn]
    exact BitVec.getLsbD_of_ge _ _ (Nat.not_lt.1 hn)

end

/-! ### The rows -/

/-- Settles O20: each row is one operation of FD. A test that starts is `State.brakeStart_of_free` before the outputs are checked again,
a feedback goes through `brakeFeedback_of_held`, a fault through `State.voFault_latches` and an edge through `State.rstEdge_shown`. -/
theorem brakesAndResetInputs : Obligations.BrakesAndResetInputs := by
  unfold Obligations.BrakesAndResetInputs
  refine ⟨?start, ?untested, ?applied, ?released, ?faulty, ?applyLate, ?holdEnd, ?releaseLate, ?feedbackLate, ?sample, ?release, ?press,
    ?stuck, ?fault, ?faultRelease, ?stamp⟩
  case start =>
    intro dt s e m c he hu hm hc hdev hrun hstep hnone hon happ
    have hstart := State.brakeStart_of_free hc hdev hrun hstep hnone hon happ
    generalize hb : e.setBrake c { step := .apply, since := e.now, res := 1 } = b at hstart
    have hserving : b.serving = false := by
      rw [← hb]
      change e.serving = false
      rw [State.serving, hdev]
      rfl
    have hbrake : b.voRecheck.brake c = { step := .apply, since := e.now, res := 1 } := by
      rw [State.brake, (OutputsRechecked.voRecheck b).brakes hserving, ← hb]
      exact State.brake_setBrake ..
    have hgroups : b.group = e.group := by
      rw [← hb]
      rfl
    have hlow (hcheck : (e.group ((16 + c) / 16)).check = none) : (b.voRecheck.vo (16 + c)).level = false :=
      State.voRecheck_low hserving (by omega) (by rw [hgroups]; exact hcheck)
    generalize b.voRecheck = t at hstart hbrake hlow
    refine ⟨t.setOuts fun o => { o with brkRes := 0 }, (exec_brakeTestStart he hu hm hc).trans (congrArg _ ?_), hbrake, rfl, hlow⟩
    rw [brakeCommand, hstart]
  case untested =>
    intro dt s e c runs v he hup hc hstep hheld
    have heq := brakeFeedback_of_held (c := c) hup hheld
    rw [hstep] at heq
    exact ⟨_, (after_eq he _).trans (congrArg _ heq), e.feedbackTaken_bfb c v, State.feedbackTaken_vo_of_met,
      State.feedbackTaken_vo_of_unmet, e.feedbackTaken_brake c v, e.feedbackTaken_parts c v⟩
  case applied =>
    intro dt s e c runs v he hup hc hstep hheld hon
    have heq := brakeFeedback_of_held (c := c) hup hheld
    rw [hstep] at heq
    exact ⟨_, (after_eq he _).trans (congrArg _ (heq.trans (if_pos hon))), e.feedbackTaken_brakeHold c v⟩
  case released =>
    intro dt s e c runs v he hup hc hstep hheld hoff
    have heq := brakeFeedback_of_held (c := c) hup hheld
    rw [hstep] at heq
    have hparts := e.feedbackTaken_parts c v
    have hends := (e.feedbackTaken c v).brakeEnd_changes c 3
    obtain ⟨hbrake, hevt⟩ := (e.feedbackTaken c v).brakeEnd_shown c 3
    refine ⟨_, (after_eq he _).trans (congrArg _ (heq.trans (if_neg (not_not.2 hoff)))), ?_, ?_, hevt,
      ((Changes.of_parts hparts (l := []) (by decide) (by decide)).mono (by decide) (by simp)).trans (hends.mono (by decide) (by simp))⟩
    · rw [hbrake, (hparts.same .time (by decide)).1]
    · have hfdin : ((e.feedbackTaken c v).brakeEnd c 3).fdin = (e.feedbackTaken c v).fdin := hends.parts.same .fdin (by decide)
      rw [State.bfb, hfdin]
      exact e.feedbackTaken_bfb c v
  case faulty =>
    intro dt s e c runs he hup hc hok hlong hon hstep hnone htest
    have h := State.voFault_latches (s := e.withBfb c { e.bfb c with fault := true }) (i := 16 + c) (code := 5) (by decide) hnone htest
    refine ⟨_, (after_eq he _).trans (congrArg _ (brakeFeedbackFault_of_on hup hok hlong hon hstep)), ?_, h.latched, h.low,
      Changes.trans ?_ (h.changes.mono (by decide) (by simp))⟩
    · rw [State.bfb, h.changes.parts.same .fdin (by decide)]
      exact e.bfb_withBfb ..
    · exact (State.setFdin_changes _ _ (by decide)).2 (.refl ..)
  case applyLate =>
    intro dt s e c he hup hc hstep hlate hnone htest
    obtain ⟨hbrake, hlatched, -, hevt, hchanges⟩ := State.brakeFail_shown (s := e) (c := c) (res := 4) (by decide) hnone htest
    exact ⟨_, (afterFd_of_up he hup _).trans (congrArg _ (if_pos ⟨hstep, hlate⟩)), hbrake, hlatched, hevt, hchanges⟩
  case holdEnd =>
    intro dt s e c he hup hstep hlate
    exact (afterFd_of_up he hup _).trans (congrArg _ (if_pos ⟨hstep, hlate⟩))
  case releaseLate =>
    intro dt s e c he hup hc hstep hlate hnone htest
    obtain ⟨hbrake, hlatched, hlow, -, hchanges⟩ := State.brakeFail_shown (s := e) (c := c) (res := 6) (by decide) hnone htest
    exact ⟨_, (afterFd_of_up he hup _).trans (congrArg _ (if_pos ⟨hstep, hlate⟩)), hbrake, hlatched, hlow, hchanges⟩
  case feedbackLate =>
    intro dt s e c t0 he hup hc htest hfb hhigh hlate hstep hnone
    have hvo := e.vo_setVo (16 + c) { e.vo (16 + c) with fb := none }
    have h := State.voFault_latches (s := e.setVo (16 + c) { e.vo (16 + c) with fb := none }) (i := 16 + c) (code := 5) (by decide)
      (by rw [hvo]; exact hnone) (by rw [hvo]; exact htest)
    exact ⟨_, (afterFd_of_up he hup _).trans (congrArg _ (brakeFeedbackTimeout_of_late htest hfb hhigh hlate hstep)), h.latched, h.low,
      Changes.trans (by simp +decide [State.setVo]) h.changes⟩
  case sample =>
    intro r now p samples hlen hall hnew
    exact ResetIn.sample_of_all hlen hall hnew
  case release =>
    intro dt s e n no nc r he hup hr hpat hst
    exact (after_eq he _).trans (congrArg _ (resetInputPattern_of_released hup hr hpat hst))
  case press =>
    intro dt s e n no nc r t0 he hup hr hpat hat hst hsince hrun
    have hedges : r.edges = (e.rstIn n).edges := hr ▸ ((e.rstIn n).sample_kept e.now (no.zip nc)).2.2
    have hin := e.rstIn_setRstIn n { r with st := .pressed, since := e.now }
    obtain ⟨hpressed, hstart, hcount, hevt, hkept⟩ := State.rstEdge_shown (s := e.setRstIn n { r with st := .pressed, since := e.now })
      (n := n) (t0 := t0) hrun (by rw [hin]; exact hat)
    rw [hin] at hpressed hcount
    exact ⟨_, (after_eq he _).trans (congrArg _ (resetInputPattern_of_pressed hup hr hpat hst hsince)), hpressed, hstart,
      hedges ▸ hcount, hevt, hkept⟩
  case stuck =>
    intro dt s e n he hup hst hlate
    refine (after_eq he _).trans (congrArg _ ?_)
    simp only [resetInputStuck, hup, hst, hlate, beq_self_eq_true, decide_true, Bool.and_self, if_true]
  case fault =>
    intro dt s e n t0 he hup hst hpat hat hlate
    refine (after_eq he _).trans (congrArg _ (if_pos ?_))
    simp only [hup, hpat, any_due hat hlate, bne_iff_ne.2 hst, beq_self_eq_true, Bool.and_self]
  case faultRelease =>
    intro dt s e n t0 he hup hst hpat hat hlate
    refine (after_eq he _).trans (congrArg _ (if_pos ?_))
    simp only [hup, hst, hpat, any_due hat hlate, beq_self_eq_true, Bool.and_self]
  case stamp =>
    intro dt s e m st he hu hm hst
    subst hst
    exact State.readRow_of_mayRead he hu hm (b := .rst) (n := 0) (o := 0x10) rfl rfl

end Sys2Proof.Machine
end

section
/-!
PROOF. The vital outputs: readback, faults, group checks and retests, and off-pulse tests (R307 to R312).
-/
namespace Sys2Proof.Machine

/-! ### Outputs changed one by one -/

/-- Every listed output that `c` names becomes what `f` says. -/
def State.voEach (c : State → Nat → Bool) (f : State → Nat → Vo) (l : List Nat) (s : State) : State :=
  l.foldl (fun u i => u.when (c u i) (·.setVo i (f u i))) s

/-- A rule for output `i` looks at that output, and at nothing else that belongs to the outputs. -/
def LooksAtOwn {α : Type} (r : State → Nat → α) : Prop :=
  ∀ s u i, OnlyParts [.outs] s u → u.vo i = s.vo i → r u i = r s i

section
variable {c : State → Nat → Bool} {f : State → Nat → Vo}

theorem State.voEach_parts (l : List Nat) (s : State) : OnlyParts [.outs] s (s.voEach c f l) :=
  (foldl_parts fun i u => (State.when_parts ((State.setVo_parts _ _ _ (by decide)).2 (.refl ..))).2 (.refl ..)).2 (.refl ..)

theorem State.voEach_group (l : List Nat) (s : State) (g : Nat) : (s.voEach c f l).group g = s.group g := by
  refine foldl_keeps (g := (·.group g)) (fun u i => ?_) l s
  unfold State.when
  split <;> rfl

/-- The change of one output comes out as if it were the only one. -/
theorem State.voEach_vo (hc : LooksAtOwn c) (hf : LooksAtOwn f) {l : List Nat} (hl : l.Nodup) (s : State) (i : Nat) :
    (s.voEach c f l).vo i = if i ∈ l ∧ c s i = true then f s i else s.vo i := by
  induction l using List.reverseRecOn with
  | nil => simp [State.voEach]
  | append_singleton l k ih =>
    obtain ⟨hnd, -, hdisj⟩ := List.nodup_append.1 hl
    have hk : k ∉ l := fun h => hdisj k h k (by simp) rfl
    have hrest := ih hnd
    have hparts := s.voEach_parts (c := c) (f := f) l
    have hstep : s.voEach c f (l ++ [k]) = (s.voEach c f l).when (c (s.voEach c f l) k) (·.setVo k (f (s.voEach c f l) k)) := by
      simp only [State.voEach, List.foldl_append, List.foldl_cons, List.foldl_nil]
    rw [hstep]
    generalize s.voEach c f l = u at hrest hparts
    by_cases hik : i = k
    · subst hik
      have hown : u.vo i = s.vo i := hrest.trans (if_neg fun h => hk h.1)
      rw [hc s u i hparts hown, hf s u i hparts hown]
      by_cases hci : c s i = true
      · simp [State.when, hci]
      · simp [State.when, hci, hown]
    · have hother : (u.when (c u k) (·.setVo k (f u k))).vo i = u.vo i := by
        unfold State.when
        split
        · exact State.vo_setVo_other _ _ hik
        · rfl
      rw [hother, hrest]
      simp [hik]

end

theorem State.vo_setGroup (s : State) (g : Nat) (x : VoGroup) (i : Nat) : (s.setGroup g x).vo i = s.vo i := rfl
theorem State.vo_withVoRes (s : State) (r i : Nat) : (s.setOuts fun o => { o with voRes := r }).vo i = s.vo i := rfl
theorem State.group_withVoRes (s : State) (r g : Nat) : (s.setOuts fun o => { o with voRes := r }).group g = s.group g := rfl

theorem mem_groupOutputs {g i : Nat} : i ∈ groupOutputs g ↔ i / 16 = g := by
  simp only [groupOutputs, List.mem_map, List.mem_range]
  exact ⟨fun ⟨k, hk, h⟩ => by omega, fun h => ⟨i % 16, by omega, by omega⟩⟩

theorem groupOutputs_nodup (g : Nat) : (groupOutputs g).Nodup :=
  List.Nodup.map (fun _ _ h => Nat.add_left_cancel h) List.nodup_range

theorem OnlyParts.voEn {s u : State} (h : OnlyParts [.outs] s u) (i : Nat) : u.voEn i = s.voEn i := by
  rw [State.voEn, State.reg, show u.regs = s.regs from h.same .regs (by decide)]
  rfl

theorem LooksAtOwn.voEn : LooksAtOwn State.voEn := fun _ _ i h _ => h.voEn i

theorem LooksAtOwn.vo {α : Type} (r : Vo → α) : LooksAtOwn fun u i => r (u.vo i) := fun _ _ _ _ h => congrArg r h

/-! ### Readback (R307 to R309) -/

section
variable {s : State} {k : Nat}

/-- The output with its last change confirmed. -/
def Vo.settled (v : Vo) : Vo := { v with changed := none }

/-- A reading of a change on its way, within T_SW, settles the output. -/
theorem outputReadback_of_confirmed {volts t0 : Nat} (hup : s.fdUp = true) (hen : s.voEn k = true) (htest : (s.vo k).test = none)
    (hcheck : (s.group (k / 16)).check = none) (hchanged : (s.vo k).changed = some t0) (htime : s.now ≤ t0 + s.tSw)
    (hhigh : (s.vo k).level = true) (hon : s.readsOn k volts = true) :
    outputReadback k volts none s = (s.readsTaken 1).setVo k (s.vo k).settled := by
  have hconfirms : ((if (s.vo k).level then s.readsOn k volts else s.readsOff k volts) &&
      (s.vo k).changed.any fun t => decide (s.now ≤ t + s.tSw)) = true := by
    simp only [hhigh, if_true, hon, hchanged, Option.any_some, htime, decide_true, Bool.and_self]
  unfold outputReadback
  extract_lets v u shown settled confirms src taken
  rw [if_neg (by simp [hup, hen]), show v.test = none from htest]
  dsimp -zeta only
  rw [if_neg (by rw [show shown.group = s.group from rfl, hcheck]; decide)]
  exact (if_pos hconfirms : taken = _)

/-- The output as a 1 ms reading shows it. -/
def Vo.readAs (v : Vo) (volts ma : Nat) : Vo := { v with volt := min 0xFFFF volts, cur := min 0xFFFF ma }

/-- The output without anything counted against it by the 1 ms checks. -/
def Vo.uncounted (v : Vo) : Vo := { v with overrun := 0, below := none, notOn := 0, notOff := 0 }

/-- The 1 ms checks find nothing against a low output that reads off. -/
theorem State.voMilli_of_off {volts ma : Nat} (settled : Bool) (hlow : (s.vo k).level = false) (hoff : s.readsOff k volts = true) :
    s.voMilli k volts ma settled = s.setVo k (s.vo k).uncounted := by
  unfold State.voMilli
  extract_lets v v' u stuckOn stuckOff
  have hv : v' = v.uncounted := by simp [v', v, Vo.uncounted, hlow, hoff]
  simp [stuckOff, stuckOn, u, hv, Vo.uncounted, State.when, v]

/-- A 1 ms reading is off where a settled low output should be off: it is shown, and ends what was counted against the output. -/
theorem outputReadback_of_off {mv volts : Nat} (hup : s.fdUp = true) (hen : s.voEn k = true) (htest : (s.vo k).test = none)
    (hcheck : (s.group (k / 16)).check = none) (hchanged : (s.vo k).changed = none) (hlow : (s.vo k).level = false)
    (hoff : s.readsOff k volts = true) : outputReadback k volts (some mv) s =
      ((s.readsTaken 2).setVo k ((s.vo k).readAs volts (s.iScale k mv))).setVo k ((s.vo k).readAs volts (s.iScale k mv)).uncounted := by
  have hvo := (s.readsTaken 2).vo_setVo k ((s.vo k).readAs volts (s.iScale k mv))
  have hmilli := State.voMilli_of_off (s := (s.readsTaken 2).setVo k ((s.vo k).readAs volts (s.iScale k mv))) (ma := s.iScale k mv) true
    (by rw [hvo]; exact hlow) (show s.readsOff k volts = true from hoff)
  rw [hvo] at hmilli
  have hunconfirmed : ((if (s.vo k).level then s.readsOn k volts else s.readsOff k volts) &&
      (s.vo k).changed.any fun t => decide (s.now ≤ t + s.tSw)) = false := by
    rw [hchanged, Option.any_none, Bool.and_false]
  unfold outputReadback
  extract_lets v u shown settled confirms src taken
  have htaken : taken = (s.readsTaken 2).setVo k ((s.vo k).readAs volts (s.iScale k mv)) := if_neg (Bool.eq_false_iff.1 hunconfirmed)
  rw [if_neg (by simp [hup, hen]), show v.test = none from htest]
  dsimp -zeta only
  have hsettled : settled = true := by simp only [settled, v, hchanged, Option.isNone_none]
  rw [if_neg (by rw [show shown.group = s.group from rfl, hcheck]; decide), htaken, hsettled]
  exact hmilli

/-! ### Time limits of an output (R308, R309) -/

/-- The first fault of an output, other than STUCK_ON, shows in FD_VO_EVT. -/
theorem State.voFault_evt {code : Nat} (hcode : code ≠ 1) (hnone : (s.vo k).latched = []) :
    (s.voFault k code).reg Reg.FD_VO_EVT = setBit (s.reg Reg.FD_VO_EVT) 0 := by
  simp only [State.voFault, if_neg hcode, hnone, List.contains_nil, Bool.false_eq_true, if_false]
  rw [(State.voLower_changes _ k).regs _ (by decide), State.reg_setEvt, if_pos rfl]
  rfl

/-- A change to high that no reading confirmed in T_SW is fault STUCK_OFF. -/
theorem outputSwitchTimeout_of_late {t0 : Nat} (hchanged : (s.vo k).changed = some t0) (hlate : t0 + s.tSw < s.now)
    (hhigh : (s.vo k).level = true) : outputSwitchTimeout k s = (s.setVo k (s.vo k).settled).voFault k 2 := by
  unfold outputSwitchTimeout
  extract_lets v
  rw [if_pos (any_late hchanged hlate), if_pos hhigh]
  rfl

/-- Readings below I_MIN for 100 ms are fault OPEN_LOAD. -/
theorem openLoadTimeout_of_due {t0 : Nat} (hhigh : (s.vo k).level = true) (hbelow : (s.vo k).below = some t0)
    (hdue : t0 + 100000000 ≤ s.now) : openLoadTimeout k s = s.voFault k 4 := by
  unfold openLoadTimeout
  extract_lets v
  exact if_pos (by rw [hhigh, any_due hbelow hdue]; rfl)

/-! ### Off-pulse tests (R312) -/

/-- A finished test that deferred no raise leaves the outputs. -/
theorem State.voUndefer_of_none {g : Nat} (h : ∀ i, i ∈ groupOutputs g → (s.vo i).deferred = false) : s.voUndefer g = s := by
  unfold State.voUndefer
  split
  · rfl
  · generalize groupOutputs g = l at h
    induction l with
    | nil => rfl
    | cons i l ih =>
      have hstep : s.voResume i = s := if_pos (by rw [h i List.mem_cons_self]; rfl)
      rw [List.foldl_cons, hstep]
      exact ih fun j hj => h j (List.mem_cons_of_mem i hj)

/-- A fault starts no test. -/
theorem State.voFault_test {code : Nat} (hcode : code ≠ 1) (htest : (s.vo k).test = none) : ((s.voFault k code).vo k).test = none := by
  simp only [State.voFault, if_neg hcode]
  split
  · exact htest
  · generalize hu : (s.setVo k { s.vo k with latched := code :: (s.vo k).latched }).setEvt Reg.FD_VO_EVT 0 = u
    have hover : (u.vo k).test = none := by
      rw [← hu, State.vo_setEvt, State.vo_setVo]
      exact htest
    simp only [State.voLower, hover, Option.isSome_none, Bool.false_eq_true, if_false]
    split
    · exact hover
    · rw [State.vo_setVo]

/-- After OFFP_T the tested output goes high again. -/
theorem offPulseRaise_of_due {x : VoTest} (htest : (s.vo k).test = some x) (hraised : x.raised = none) (hdue : x.start + s.offpT ≤ s.now) :
    offPulseRaise k s = s.setVo k { s.vo k with level := true, test := some { x with raised := some s.now } } := by
  unfold offPulseRaise
  extract_lets v
  rw [show v.test = some x from htest]
  exact if_pos (by rw [hraised, decide_eq_true hdue]; rfl)

/-- The output with its test over, the FEEDBACK limit moved by the time that the test took. -/
def Vo.tested (v : Vo) (x : VoTest) (now : Nat) : Vo := { v with test := none, fb := v.fb.map (· + (now - x.start)) }

/-- A test that saw the output fall and not rise again ends as fault STUCK_OFF. -/
theorem offPulseEnd_of_unrisen {x : VoTest} {r : Nat} (htest : (s.vo k).test = some x) (hraised : x.raised = some r)
    (hdue : r + 200000 ≤ s.now) (hfell : x.fell = true) (hrose : x.rose = false)
    (hnone : ∀ i, i ∈ groupOutputs (k / 16) → (s.vo i).deferred = false) :
    offPulseEnd k s = ((s.setVo k ((s.vo k).tested x s.now)).setEvt Reg.FD_VO_EVT 1).voFault k 2 := by
  have hundefer : (s.setVo k ((s.vo k).tested x s.now)).voUndefer (k / 16) = s.setVo k ((s.vo k).tested x s.now) := by
    refine State.voUndefer_of_none fun i hi => ?_
    by_cases hik : i = k
    · subst hik
      rw [State.vo_setVo]
      exact hnone i hi
    · rw [State.vo_setVo_other _ _ hik]
      exact hnone i hi
  have hend : s.testEnd k = ((s.setVo k ((s.vo k).tested x s.now)).setEvt Reg.FD_VO_EVT 1).voFault k 2 := by
    rw [Vo.tested] at hundefer
    simp only [State.testEnd, htest, hfell, hrose, Bool.and_false, Bool.false_eq_true, if_false, hundefer, State.when, Bool.not_false,
      Bool.not_true, if_true, Vo.tested]
  rw [← hend]
  simp only [offPulseEnd, htest]
  exact if_pos (any_due hraised hdue)

end

/-! ### Group checks and retests (R310, R311) -/

/-- An output as a group check drives it, as its end releases it at `now`, and as a retest that found it off leaves it. -/
def Vo.driven (v : Vo) : Vo := { v with level := true, changed := none }
def Vo.released (v : Vo) (now : Nat) : Vo := { v with level := false, changed := some now }
def Vo.unstuck (v : Vo) : Vo := { v with stuck := false }

/-- A group check begins in one group: the supply off, every enabled output high. -/
def State.checkBegin (g : Nat) (s : State) : State :=
  (s.setGroup g { s.group g with on := false, check := some s.now }).voEach State.voEn (fun u i => (u.vo i).driven) (groupOutputs g)

/-- The outputs of a group go low at the end of its check. -/
def State.checkRelease (g : Nat) (s : State) : State :=
  s.voEach (fun u i => (u.vo i).level) (fun u i => (u.vo i).released u.now) (groupOutputs g)

/-- The outputs of a group lose STUCK_ON at the end of a retest that found them off. -/
def State.unstick (g : Nat) (s : State) : State :=
  s.voEach (fun u i => (u.vo i).stuck) (fun u i => (u.vo i).unstuck) (groupOutputs g)

theorem State.checkBegin_parts (g : Nat) (s : State) : OnlyParts [.outs] s (s.checkBegin g) :=
  OnlyParts.trans ((State.setGroup_parts _ _ _ (by decide)).2 (.refl ..)) (State.voEach_parts ..)

theorem State.checkBegin_due (g : Nat) (s : State) : (s.checkBegin g).outs.checkDue = s.outs.checkDue := by
  refine foldl_keeps (g := fun u => u.outs.checkDue) (fun u i => ?_) _ _
  unfold State.when
  split <;> rfl

theorem State.checkBegin_group (g : Nat) (s : State) :
    (s.checkBegin g).group g = { s.group g with on := false, check := some s.now } :=
  (State.voEach_group ..).trans (State.group_setGroup ..)

theorem State.checkBegin_group_other {g h : Nat} (hne : h ≠ g) (s : State) : (s.checkBegin g).group h = s.group h :=
  (State.voEach_group ..).trans (State.group_setGroup_other _ _ hne)

theorem State.checkBegin_vo (g : Nat) (s : State) (i : Nat) : (s.checkBegin g).vo i =
    if i / 16 = g ∧ s.voEn i = true then (s.vo i).driven else s.vo i := by
  simp only [← mem_groupOutputs]
  exact State.voEach_vo .voEn (.vo Vo.driven) (groupOutputs_nodup g) _ i

theorem State.checkRelease_vo (g : Nat) (s : State) (i : Nat) : (s.checkRelease g).vo i =
    if i / 16 = g ∧ (s.vo i).level = true then (s.vo i).released s.now else s.vo i := by
  simp only [← mem_groupOutputs]
  refine State.voEach_vo (.vo Vo.level) (fun u v j h hj => ?_) (groupOutputs_nodup g) s i
  have hnow : v.now = u.now := (h.same .time (by decide)).1
  simp only [hj, hnow]

theorem State.unstick_vo (g : Nat) (s : State) (i : Nat) : (s.unstick g).vo i =
    if i / 16 = g ∧ (s.vo i).stuck = true then (s.vo i).unstuck else s.vo i := by
  simp only [← mem_groupOutputs]
  exact State.voEach_vo (.vo Vo.stuck) (.vo Vo.unstuck) (groupOutputs_nodup g) s i

section
variable {s : State} {g : Nat}

theorem groupCheckStart_of_due (hup : s.fdUp = true) (hdev : s.dev = .start) (hdue : s.outs.checkDue = true) :
    groupCheckStart s = ((s.setOuts fun o => { o with checkDue := false }).checkBegin 0).checkBegin 1 := by
  unfold groupCheckStart
  rw [if_pos (by rw [hup, hdev, hdue]; rfl)]
  rfl

/-- The check of both groups leaves the supplies off and the enabled outputs high. -/
theorem State.checkBegin_both (s : State) :
    (∀ g, g < 2 → (((s.checkBegin 0).checkBegin 1).group g).on = false ∧ (((s.checkBegin 0).checkBegin 1).group g).check = some s.now) ∧
      (∀ i, i < 32 → s.voEn i = true → (((s.checkBegin 0).checkBegin 1).vo i).level = true) ∧
      (∀ i, s.voEn i = false → ((s.checkBegin 0).checkBegin 1).vo i = s.vo i) := by
  have hfirst := s.checkBegin_parts 0
  have hnow : (s.checkBegin 0).now = s.now := (hfirst.same .time (by decide)).1
  have hen := hfirst.voEn
  refine ⟨fun g hg => ?_, fun i hi hon => ?_, fun i hoff => ?_⟩
  · obtain rfl | rfl : g = 0 ∨ g = 1 := by omega
    · rw [State.checkBegin_group_other (by decide), State.checkBegin_group]
      exact ⟨rfl, rfl⟩
    · rw [State.checkBegin_group, hnow]
      exact ⟨rfl, rfl⟩
  · rw [State.checkBegin_vo, State.checkBegin_vo, hen, hon]
    obtain h | h : i / 16 = 0 ∨ i / 16 = 1 := by omega
    · simp [h, Vo.driven]
    · simp [h, Vo.driven]
  · rw [State.checkBegin_vo, State.checkBegin_vo, hen, hoff]
    simp

/-- A check that read every output off, in a group without STUCK_ON, passes. -/
theorem groupCheckDone_of_off {volts : List Nat} {t0 : Nat} (hcheck : (s.group g).check = some t0) (hdue : t0 + 500000 ≤ s.now)
    (hstuck : ∀ i, i ∈ groupOutputs g → (s.vo i).stuck = false) (hoff : volts.all (s.readsOff (16 * g)) = true) :
    groupCheckDone g volts s = (s.checkRelease g).setGroup g { s.group g with check := none, on := true, fault := false } := by
  have hgroup : (s.checkRelease g).group g = s.group g := State.voEach_group ..
  have hnone : ((groupOutputs g).any fun i => ((s.checkRelease g).vo i).stuck) = false := List.any_eq_false.2 fun i hi => by
    rw [State.checkRelease_vo]
    split
    · simp [Vo.released, hstuck i hi]
    · simp [hstuck i hi]
  have hlate : ¬ s.now < t0 + us 500 := Nat.not_lt.2 hdue
  simp only [groupCheckDone, hcheck, hoff, if_neg hlate]
  change ((s.checkRelease g).setGroup g { (s.checkRelease g).group g with
    check := none, on := true && !(groupOutputs g).any fun i => ((s.checkRelease g).vo i).stuck, fault := !true }) = _
  rw [hgroup, hnone]
  rfl

/-- Where no cause of Safe-stop is present there is none to clear. -/
theorem State.causeClear_of_none {k : Nat} (h : s.fds.causes = []) : s.causeClear k = s := by
  rw [State.causeClear, h]
  rfl

/-- A group whose retest read every output off, with the result of the retest. -/
def State.retestPassed (g : Nat) (s : State) : State :=
  ((s.unstick g).setGroup g { s.group g with retest := none, fault := false }).setOuts fun o => { o with voRes := 0 }

theorem State.retestPassed_parts (g : Nat) (s : State) : OnlyParts [.outs] s (s.retestPassed g) :=
  (State.setOuts_parts _ _ (by decide)).2 ((State.setGroup_parts _ _ _ (by decide)).2 (State.voEach_parts ..))

theorem State.retestPassed_group (g : Nat) (s : State) :
    (s.retestPassed g).group g = { s.group g with retest := none, fault := false } :=
  (State.group_withVoRes ..).trans (State.group_setGroup ..)

theorem State.retestPassed_vo (g : Nat) (s : State) (i : Nat) : (s.retestPassed g).vo i =
    if i / 16 = g ∧ (s.vo i).stuck = true then (s.vo i).unstuck else s.vo i :=
  ((State.vo_withVoRes ..).trans (State.vo_setGroup ..)).trans (s.unstick_vo g i)

/-- A retest that read every output off ends the group's faults; there is no cause of Safe-stop to clear. -/
theorem groupRetestDone_of_off {volts : List Nat} {t0 : Nat} (hretest : (s.group g).retest = some t0) (hdue : t0 + 100000000 ≤ s.now)
    (hoff : volts.all (s.readsOff (16 * g)) = true) (hcauses : s.fds.causes = []) : groupRetestDone g volts s = s.retestPassed g := by
  have hgroup : (s.unstick g).group g = s.group g := State.voEach_group ..
  have hclear : (s.retestPassed g).causeClear 7 = s.retestPassed g := State.causeClear_of_none
    ((congrArg FdSafe.causes ((s.retestPassed_parts g).same .fds (by decide))).trans hcauses)
  unfold groupRetestDone
  rw [hretest]
  dsimp -zeta only
  rw [if_neg (Nat.not_lt.2 hdue), if_pos hoff]
  extract_lets u src v w
  have hpassed : w = s.retestPassed g := by
    rw [State.retestPassed, ← hgroup, show s.unstick g = u from rfl]
  rw [hpassed, State.when, hclear, ite_self]

end

/-! ### Commands (R309, R311) -/

/-- A word of FD_VO_CMD without reserved bits is the command that it codes. -/
theorem State.writeRow_voCommand {s e : State} {dt : Nat} {m : Master} {v : Word} (he : s.elapse dt = e) (hu : e.boot.up = true)
    (hm : e.mayWrite m Reg.FD_VO_CMD = true) (hv : v.toNat < 2 ^ 7) :
    s.writeRow dt m Reg.FD_VO_CMD (fun _ => v) = .next (voCommand v e) := by
  have hclean := hitsReserved_of_lt (b := .vo) (o := 0x10) (k := 7) hv (by decide) ⟨0x10, 0, 1, .wo, 0⟩
  refine (State.writeRow_of_mayWrite (v := fun _ => v) he hu hm (b := .vo) (n := 0) (o := 0x10) (row := ⟨0x10, 0, 1, .wo, 0⟩) rfl
    rfl).trans ?_
  simp only [State.listedWrite, hclean, State.regWrite, Bool.false_eq_true, if_false, if_true, reduceCtorEq, false_and]

theorem exec_voFaultClear {s e : State} {dt : Nat} {m : Master} {k : Nat} (he : s.elapse dt = e) (hu : e.boot.up = true)
    (hm : e.mayWrite m Reg.FD_VO_CMD = true) (hk : k < 32) : exec (.voFaultClear dt m k) s = .next (voFaultClear k e) := by
  have hword : ∀ k < 32, (word [(2, 5, k)]).toNat < 2 ^ 7 ∧ fld (word [(2, 5, k)]) 0 2 = 0 ∧ fld (word [(2, 5, k)]) 2 5 = k := by decide
  obtain ⟨hlt, hop, hindex⟩ := hword k hk
  refine (State.writeRow_voCommand he hu hm hlt).trans ?_
  simp only [voCommand, hop, hindex]

theorem exec_voGroupRetest {s e : State} {dt : Nat} {m : Master} {g : Nat} (he : s.elapse dt = e) (hu : e.boot.up = true)
    (hm : e.mayWrite m Reg.FD_VO_CMD = true) (hg : g < 2) : exec (.voGroupRetest dt m g) s = .next (voGroupRetest g e) := by
  have hword : ∀ g < 2, (word [(0, 2, 1), (2, 5, g)]).toNat < 2 ^ 7 ∧ fld (word [(0, 2, 1), (2, 5, g)]) 0 2 = 1 ∧
      fld (word [(0, 2, 1), (2, 5, g)]) 2 5 = g := by decide
  obtain ⟨hlt, hop, hindex⟩ := hword g hg
  refine (State.writeRow_voCommand he hu hm hlt).trans ?_
  simp only [voCommand, hop, hindex]

/-- A clear takes every latched fault while no retest runs, where FEEDBACK is not among them. -/
theorem voFaultClear_of_latched {s : State} {k : Nat} (hidle : s.retesting = false) (hlatched : (s.vo k).latched ≠ [])
    (hfb : (s.vo k).latched.contains 5 = false) :
    voFaultClear k s = (s.setVo k { s.vo k with latched := [], fb := none }).setOuts fun o => { o with voRes := 0 } := by
  simp only [voFaultClear, hidle, List.isEmpty_eq_false_iff.2 hlatched, hfb, Bool.false_and, Bool.false_eq_true, if_false]
  rfl

/-- A retest of a group begins in Maintenance while none runs. -/
theorem voGroupRetest_of_idle {s : State} {g : Nat} (hg : g < 2) (hidle : s.retesting = false) (hdev : s.dev = .maintenance) :
    voGroupRetest g s = (s.setGroup g { s.group g with on := true, retest := some s.now }).setOuts fun o => { o with voRes := 0 } := by
  have hstate : ((.maintenance : DeviceState) != .safeStop && (.maintenance : DeviceState) != .maintenance) = false := rfl
  simp only [voGroupRetest, Nat.not_le.2 hg, hidle, hdev, hstate, Bool.false_eq_true, if_false]
  rfl

/-! ### The rows -/

/-- Settles O19: each row is one operation of FD. A fault goes through `State.voFault_latches`, the outputs of a group are driven and
released by `State.voEach_vo`, and both commands are the write of their word (`State.writeRow_voCommand`). -/
theorem outputsAreChecked : Obligations.OutputsAreChecked := by
  unfold Obligations.OutputsAreChecked
  refine ⟨?confirmed, ?off, ?late, ?openLoad, ?checkStart, ?checkDone, ?clear, ?retest, ?retestDone, ?slot, ?raise, ?endUnrisen⟩
  case confirmed =>
    intro dt s e k volts t0 he hup hen htest hcheck hchanged htime hhigh hon
    exact (after_eq he _).trans (congrArg _ (outputReadback_of_confirmed hup hen htest hcheck hchanged htime hhigh hon))
  case off =>
    intro dt s e k mv volts he hup hen htest hcheck hchanged hlow hoff
    refine ⟨_, (after_eq he _).trans (congrArg _ (outputReadback_of_off hup hen htest hcheck hchanged hlow hoff)), ?_⟩
    rw [State.vo_setVo]
    refine ⟨rfl, rfl, rfl, rfl, rfl, fun i hi => ?_, by simp +decide⟩
    rw [State.vo_setVo_other _ _ hi, State.vo_setVo_other _ _ hi]
    rfl
  case late =>
    intro dt s e k t0 he hup hk hchanged hlate hhigh htest hnone
    have hvo := e.vo_setVo k (e.vo k).settled
    have h := State.voFault_latches (s := e.setVo k (e.vo k).settled) (i := k) (code := 2) (by decide)
      (by rw [hvo]; exact hnone) (by rw [hvo]; exact htest)
    exact ⟨_, (afterFd_of_up he hup _).trans (congrArg _ (outputSwitchTimeout_of_late hchanged hlate hhigh)), h.latched, h.low,
      by rw [State.voFault_evt (by decide) (by rw [hvo]; exact hnone)]; exact bitOf_setBit _ (by decide),
      Changes.trans (by simp +decide [State.setVo]) h.changes⟩
  case openLoad =>
    intro dt s e k t0 he hup hk hhigh htest hbelow hdue hnone
    have h := State.voFault_latches (i := k) (code := 4) (by decide) hnone htest
    exact ⟨_, (afterFd_of_up he hup _).trans (congrArg _ (openLoadTimeout_of_due hhigh hbelow hdue)), h.latched, h.low,
      by rw [State.voFault_evt (by decide) hnone]; exact bitOf_setBit _ (by decide), h.changes⟩
  case checkStart =>
    intro dt s e he hup hdev hdue
    obtain ⟨hgroups, hon, hoff⟩ := State.checkBegin_both (e.setOuts fun o => { o with checkDue := false })
    have hparts := (State.setOuts_parts e (fun o => { o with checkDue := false }) (q0 := [.outs]) (by decide)).2 (.refl ..)
    exact ⟨_, (after_eq he _).trans (congrArg _ (groupCheckStart_of_due hup hdev hdue)),
      (State.checkBegin_due ..).trans (State.checkBegin_due ..), hgroups, hon, fun i _ => hoff i, (hparts.trans (State.checkBegin_parts ..)).trans (State.checkBegin_parts ..)⟩
  case checkDone =>
    intro dt s e g volts t0 he hup hg hcheck hdue hstuck hoff
    refine ⟨_, (afterFd_of_up he hup _).trans (congrArg _ (groupCheckDone_of_off hcheck hdue hstuck hoff)), State.group_setGroup ..,
      fun i hi => ?_, (State.setGroup_parts _ _ _ (by decide)).2 (State.voEach_parts ..)⟩
    rw [State.vo_setGroup, State.checkRelease_vo]
    split
    · rfl
    next hlow => simpa [mem_groupOutputs.1 hi] using hlow
  case clear =>
    intro dt s e m k he hu hm hk hidle hlatched hfb
    exact (exec_voFaultClear he hu hm hk).trans (congrArg _ (voFaultClear_of_latched hidle hlatched hfb))
  case retest =>
    intro dt s e m g he hu hm hg hidle hdev
    exact (exec_voGroupRetest he hu hm hg).trans (congrArg _ (voGroupRetest_of_idle hg hidle hdev))
  case retestDone =>
    intro dt s e g volts t0 he hup hg hretest hdue hoff hcauses
    refine ⟨_, (afterFd_of_up he hup _).trans (congrArg _ (groupRetestDone_of_off hretest hdue hoff hcauses)),
      e.retestPassed_group g, rfl, fun i hi => ?_, e.retestPassed_parts g⟩
    rw [State.retestPassed_vo]
    split
    · rfl
    next hfree => simpa [mem_groupOutputs.1 hi] using hfree
  case slot =>
    intro dt s e k he hup hen hhigh hslot htest hcheck
    refine (after_eq he _).trans (congrArg _ (if_pos ?_))
    simp only [hup, hen, hhigh, hslot, htest, hcheck, decide_true, Option.isNone_none, Bool.and_self]
  case raise =>
    intro dt s e k x he hup htest hraised hdue
    exact (afterFd_of_up he hup _).trans (congrArg _ (offPulseRaise_of_due htest hraised hdue))
  case endUnrisen =>
    intro dt s e k x r he hup hk htest hraised hdue hfell hrose hhigh hnone hown hothers
    have hdeferred (i : Nat) (hi : i ∈ groupOutputs (k / 16)) : (e.vo i).deferred = false := by
      by_cases hik : i = k
      · rwa [hik]
      · exact hothers i hi hik
    generalize hu : (e.setVo k ((e.vo k).tested x e.now)).setEvt Reg.FD_VO_EVT 1 = u
    have hvo : u.vo k = (e.vo k).tested x e.now := by rw [← hu, State.vo_setEvt, State.vo_setVo]
    have hlatched : (u.vo k).latched = [] := by rw [hvo]; exact hnone
    have hover : (u.vo k).test = none := by rw [hvo]; rfl
    have hfailed : bitOf (u.reg Reg.FD_VO_EVT) 1 = true := hu ▸ State.bitOf_setEvt _ _ (by decide)
    have hchanges : Changes [.outs, .events] [Reg.FD_VO_EVT] e u := by
      rw [← hu]
      simp +decide [State.setVo]
    have h := State.voFault_latches (s := u) (i := k) (code := 2) (by decide) hlatched hover
    refine ⟨_, (afterFd_of_up he hup _).trans (congrArg _ ((offPulseEnd_of_unrisen htest hraised hdue hfell hrose hdeferred).trans
      (congrArg (·.voFault k 2) hu))), ?_, h.latched, h.low, ?_, hchanges.trans h.changes⟩
    · exact State.voFault_test (by decide) hover
    · rw [State.voFault_evt (by decide) hlatched]
      exact bitOf_setBit_of 0 hfailed

end Sys2Proof.Machine
end
